-- ==== Sys2Proof/Word.lean ====
section
/-! DEFINITION. The plainest data of the model: bytes, the three lanes, triples indexed by a lane. -/

namespace Sys2Proof

/-- A byte of a packet, a frame or a store (R6). -/
abbrev Byte := BitVec 8

/-- A mask, a status byte or another byte whose bits are named one by one. -/
abbrev Mask := BitVec 8

/-- The three lane dies A, B and C; the index is fixed by the die's position in the package (R105). -/
inductive LaneId where
  | a
  | b
  | c
  deriving DecidableEq, Repr, Inhabited

/-- The lane index 0 to 2. -/
def LaneId.idx : LaneId → Nat
  | .a => 0
  | .b => 1
  | .c => 2

/-- The lane of an index 0 to 2. -/
def LaneId.ofIdx : Nat → Option LaneId
  | 0 => some .a
  | 1 => some .b
  | 2 => some .c
  | _ => none

/-- The lanes in ascending index. -/
def LaneId.all : List LaneId := [.a, .b, .c]

/-- The two partners of a lane, in ascending index. -/
def LaneId.partners : LaneId → List LaneId
  | .a => [.b, .c]
  | .b => [.a, .c]
  | .c => [.a, .b]

/-- One value for each lane. -/
structure Tri (α : Type) where
  a : α
  b : α
  c : α
  deriving DecidableEq, Repr, Inhabited

namespace Tri

/-- The value of one lane. -/
def get {α : Type} (t : Tri α) : LaneId → α
  | .a => t.a
  | .b => t.b
  | .c => t.c

/-- The triple with one lane's value replaced. -/
def set {α : Type} (t : Tri α) (l : LaneId) (x : α) : Tri α :=
  match l with
  | .a => { t with a := x }
  | .b => { t with b := x }
  | .c => { t with c := x }

/-- The same value for every lane. -/
def all {α : Type} (x : α) : Tri α := ⟨x, x, x⟩

/-- A function applied to every lane's value. -/
def map {α β : Type} (f : α → β) (t : Tri α) : Tri β := ⟨f t.a, f t.b, f t.c⟩

/-- A function of the lane and its value. -/
def mapIdx {α β : Type} (f : LaneId → α → β) (t : Tri α) : Tri β := ⟨f .a t.a, f .b t.b, f .c t.c⟩

/-- The values in ascending lane index. -/
def toList {α : Type} (t : Tri α) : List α := [t.a, t.b, t.c]

end Tri

end Sys2Proof
end

