-- ==== Sys2Proof/Syntax.lean ====
section
/-! DEFINITION. The commands of the ATV-7306: one constructor of Instr for each row of the opcode table,
with the operands that the spec gives the operation or event. -/

namespace Sys2Proof

/-- The block codes of R74, by which the generic operations 0x01 to 0x03 are named (R554). -/
inductive Block where
  | sys | lane | auth | per | chk | flt | snp | cmt | gdr | stp | fbk | loop
  | net | time | key | crc | sio | host | cfg | pwr | thm | bist
  deriving DecidableEq, Repr, Inhabited

/-- Quad 0 and the last quad of a Keyway PDU, less opcode, tag, flags and CRC-64 (R364): the sequence number
and time stamp of the sender's direction, the echo and the low half of its time stamp. -/
structure PduHdr where
  seq : Nat := 0
  stamp : Nat := 0
  echo : Nat := 0
  echoTime : Nat := 0
  deriving DecidableEq, Repr, Inhabited

/-- A command packet (R56) less its opcode: the carrying host link (none for an Ocgal peer), tag, flags,
Keyway session, lane mask, packet sequence number, the PDU fields that count when the session is not 0,
and the operation payload (the launch quad first when TIMED is set). -/
structure Req where
  link : Option LaneId := some .a
  tag : Byte := 0
  flags : Mask := 0
  session : Nat := 0
  mask : Mask := 0
  seq : Nat := 0
  pdu : PduHdr := {}
  payload : List Byte := []
  deriving DecidableEq, Repr, Inhabited

/-- How a message arrives at its receiver: as its sender sent it, failing its CRC, or with other content
whose CRC matches. -/
inductive Rx (α : Type) where
  | intact
  | corrupt
  | other (x : α)
  deriving DecidableEq, Repr, Inhabited

/-- A leg of a gate driver: leg 0 to 5 of a lane or leg 0 to 29 of the Pintle die (R225). -/
inductive Leg where
  | lane (l : LaneId) (n : Fin 6)
  | pintle (n : Fin 30)
  deriving DecidableEq, Repr

/-- What a lane captures at S besides its own counters and latches (R121, R124): ADC inputs 0 to 15, the
bus and gate supplies in mV, three die readings and two NTC readings in 0.1 °C, for FB0 to FB3 the 12-bit
sine/cosine angle and the radius in percent of 0.5 V (R181), and the voltages at SO0 to SO3 in mV (R413). -/
structure SampleIn where
  adc : List Nat := []
  vbr : Nat := 0
  vgd : Nat := 0
  temps : List Int := []
  scAngle : List Nat := []
  scRadius : List Nat := []
  soMv : List Nat := []
  deriving DecidableEq, Repr, Inhabited

/-- What the engine of MB0 or MB1 converts at a sampling instant (R198, R201): the codes of the currents of U, V and W, those of the
phase voltages, which are converted while the bridge does not switch, and the 12-bit sine/cosine angles of FB0 to FB3. -/
structure PhaseIn where
  codes : List Nat := []
  volts : List Nat := []
  sc : List Nat := []
  deriving DecidableEq, Repr, Inhabited

/-- The Pintle die's report for one PWM period (R121, R220, R257): coil currents of ST0 to ST5 (twelve, mA),
currents U and V of BM0 and BM1 (four, mA), the duties applied to BM0 and BM1 as the times that phases U, V and W were high (six, in
1.25 ns), coil voltages of ST0 to ST5 (twelve, mV), the readings of P0 to P2 in 0.1 °C. The status bits and latches come from the
Pintle state. -/
structure PintleIn where
  coils : List Int := []
  bm : List Int := []
  bmHigh : List Nat := []
  coilVolt : List Int := []
  temps : List Int := []
  deriving DecidableEq, Repr, Inhabited

/-- The two coils of a stepper channel as the Pintle die measures them in a PWM period (R268): mean voltages in mV, mean currents and
the currents at the end of the period in mA. -/
structure CoilPeriod where
  volts : Int × Int := (0, 0)
  mean : Int × Int := (0, 0)
  last : Int × Int := (0, 0)
  deriving DecidableEq, Repr, Inhabited

/-- The commanded speed of a stepper channel in microsteps/s, with its sign, and STP.STALL_SPEED, STP.STALL_EMF and STP.STALL_ANGLE, as
the holder sends them (R268). -/
structure StallPar where
  speed : Int := 0
  least : Nat := 0
  emf : Nat := 0
  angle : Nat := 0
  deriving DecidableEq, Repr, Inhabited

/-- A discovery record (R105). -/
structure DiscRec where
  lane : LaneId := .a
  state : Nat := 0
  copy : Nat := 0xFF
  fwVersion : Nat := 0
  fwSecurity : Nat := 0
  fwDigest : Nat := 0
  imgSeq : Nat := 0
  imgCrc : Nat := 0
  confirmCount : Nat := 0
  wait : Nat := 0
  check : Nat := 0
  commissioned : Bool := false
  deriving DecidableEq, Repr, Inhabited

/-- A presence quad (R130, R433): mask of held vectors, silent marks, notice marks, CRC-32C of each held vector. -/
structure Presence where
  held : Mask := 0
  silent : Mask := 0
  notice : Mask := 0
  crcs : Tri Nat := ⟨0, 0, 0⟩
  deriving DecidableEq, Repr, Inhabited

/-- A signature record (R149): lane index; kind 1 signature, 2 absent, 3 resynchronising; fold length in quads; the low 32 bits of the
control-period count; both CRCs of the fold. -/
structure SigRec where
  lane : Nat := 0
  kind : Nat := 2
  quads : Nat := 0
  count : Nat := 0
  sigLo : Nat := 0
  sigHi : Nat := 0
  deriving DecidableEq, Repr, Inhabited

/-- The PWM pattern part of a fallback packet (R245): the leg modes and the eight halves of quad 1. -/
structure Fallback where
  modes : Mask := 0
  entries : List Int := []
  deriving DecidableEq, Repr, Inhabited

/-- What a lane's line of one Pintle leg carried in a PWM period (R244): the test mark, a level high at a
boundary, and the command pulse's edges in steps of 1.25 ns from the boundary. -/
structure LinePattern where
  mark : Bool := false
  highAtBoundary : Bool := false
  rise : Option Nat := none
  fall : Option Nat := none
  deriving DecidableEq, Repr, Inhabited

/-- The delay data a lane publishes for a channel (R340). -/
structure DelayData where
  node : Nat := 0
  uNode : Nat := 0
  dNode : Nat := 0
  linkDelay : Nat := 0
  fwdUD : Nat := 0
  fwdDU : Nat := 0
  headDelay : Nat := 0
  tailDelay : Nat := 0
  phase : Nat := 0
  flags : Mask := 0
  deriving DecidableEq, Repr, Inhabited

/-- What a lane sends another one with its time mark: its NT of S, and the rank and the NodeID of its reference (R346). -/
structure TimeMark where
  stamp : Nat := 0
  rank : Nat := 0
  node : Nat := 0
  deriving DecidableEq, Repr, Inhabited

/-- The data quad of an open request or answer (R376). -/
structure OpenData where
  num : Nat := 0
  epoch : Nat := 0
  rnum : Nat := 0
  first : Nat := 0
  deriving DecidableEq, Repr, Inhabited

/-- What a lane knows of a bank (R99): whether it holds the firmware that the device was delivered with, whose bytes the spec does not
give, and the header of its package as it was verified last. -/
structure BankState where
  delivered : Bool := false
  version : Nat := 0
  security : Nat := 0
  digest : Nat := 0
  deriving DecidableEq, Repr, Inhabited

/-- The outcome of one pulse test in a lane (R419): the readings before and at the end of each supply's
pulse (ball and inputs), and the open-load readings of SO0 to SO3 at the slot's end. -/
structure PulseReading where
  ballBefore : Bool := true
  ballEnd : Bool := false
  siBefore : Mask := 0
  siEnd : Mask := 0
  deriving DecidableEq, Repr, Inhabited

/-- One failing cell reported by memory BIST (R499): region, bank or sector, lane address, bit 0 to 136. -/
structure FailCell where
  region : Nat := 0
  bank : Nat := 0
  addr : Nat := 0
  bit : Nat := 0
  deriving DecidableEq, Repr, Inhabited

/-- A register of a check-value unit other than CV_CFG, CV_STATE, CV_FEED, CV_LEN and CV_RESULT (R391). -/
inductive CvReg where
  | poly | init | xorout | expect | inject | src | alive
  deriving DecidableEq, Repr, Inhabited

/-- A master that writes a check-value unit (R392, R394): the two cores and the self-test engine. -/
inductive CvMaster where
  | core0 | core1 | engine
  deriving DecidableEq, Repr, Inhabited

/-- The sources that can wake the device in AON (R479), less the wake line and the timer. -/
inductive WakeSource where
  | power
  | spi
  | si (n : Fin 8)
  | line (port : Fin 4)
  deriving DecidableEq, Repr

/-- One row of the opcode table each. Operations carry their packet; events carry what happens at the balls,
on the links or in the hardware of the step. -/
inductive Instr where
  -- generic and host operations (R75)
  | paramRead (blk : Block) (r : Req)
  | paramWrite (blk : Block) (r : Req)
  | statusRead (blk : Block) (r : Req)
  | sysIdentify (r : Req)
  | sysEcho (r : Req)
  | sysReset (r : Req)
  | laneFence (r : Req)
  | laneReadmit (r : Req)
  | restartAck (l : LaneId)
  | readmitAckTimeout (l : LaneId)
  | readmitReadyTimeout (l : LaneId)
  | actuationEnable (r : Req)
  | actuationDisable (r : Req)
  | timingRead (r : Req)
  | signatureRead (r : Req)
  | recordRead (r : Req)
  | unitUnfence (r : Req)
  | inject (r : Req)
  | stopRequest (r : Req)
  | holdRelease (r : Req)
  | deadboltRelease (r : Req)
  | cmtEnable (r : Req)
  | cmtDisable (r : Req)
  | torqueSet (r : Req)
  | catchStart (r : Req)
  | offstateTest (r : Req)
  | ostStepSettle (l : LaneId) (target : Fin 10) (nodes : List Nat)
  | legClear (r : Req)
  | stpMove (r : Req)
  | stpStop (r : Req)
  | stpHome (r : Req)
  | homeTimeout (ch : Fin 6)
  | tableLoad (r : Req)
  | positionSet (r : Req)
  | probeArm (r : Req)
  | setpointSet (r : Req)
  | modeSet (r : Req)
  | integratorPreset (r : Req)
  | scheduleLoad (r : Req)
  | netStart (r : Req)
  | netStartTimeout
  | spareClaim (r : Req)
  | frameSend (r : Req)
  | timeRead (r : Req)
  | epochSet (r : Req)
  | sessionOpen (r : Req)
  | openRequest (peer : Nat) (d : OpenData)
  | openAnswer (num : Fin 128) (status : Nat) (d : OpenData)
  | openTimeout (num : Fin 128)
  | sessionClose (r : Req)
  | peerUnfreeze (r : Req)
  | unitTest (r : Req) (defects : Tri (List Nat))
  | outputSet (r : Req)
  | pulseTest (r : Req)
  | pulseTestDone (l : LaneId) (tp0 : PulseReading) (tp1 : PulseReading) (olHigh : Mask)
  | linkSync (r : Req)
  | hostUnfreeze (r : Req)
  | imageWrite (r : Req)
  | cfgStore (r : Req)
  | storeCommit (l : LaneId) (readBackOk : Bool)
  | checkRead (r : Req)
  | commissionConfirm (r : Req)
  | fwWrite (r : Req)
  | fwActivate (r : Req)
  | fwActivateDone
  | stateSet (r : Req)
  | padsRelease (r : Req)
  | wakeSourceRead (r : Req)
  | thmRead (r : Req)
  | standdownNow (r : Req)
  | resultRead (r : Req)
  | fuseRepair (r : Req)
  | fuseRepairDone (l : LaneId) (failed : Nat)
  -- host bridge events
  | writeFrame (l : LaneId) (bytes : List Byte)
  | readFrame (l : LaneId) (address : Byte) (nbytes : Nat)
  | replyTransfer (l : LaneId) (q : Rx (List Byte))
  | laneUnavailable (l : LaneId)
  | freezeQuietExpiry (l : LaneId)
  | haonPowerUp (l : LaneId) (straps : BitVec 7) (vddh33 : Bool)
  -- startup events
  | powerGood (l : LaneId)
  | powerGoodLost (l : LaneId)
  | laneReady (l : LaneId)
  | linkTrainingDone (l : LaneId) (port : Fin 4)
  | pintlePowerUp
  | discoverySend (l : LaneId)
  | discoveryRecord (rx : LaneId) (tx : LaneId) (d : Rx (List Byte))
  | adoptionDone (l : LaneId) (ok : Bool)
  | formationWaitExpiry (l : LaneId)
  | formationRecord (l : LaneId)
  | formationAck (l : LaneId)
  | formationAckTimeout (l : LaneId)
  -- control period events
  | periodMark (l : LaneId)
  | sampleInstant (l : LaneId) (i : SampleIn)
  | streamedItem (rx : LaneId) (tx : LaneId)
  | sampleVector (rx : LaneId) (tx : LaneId) (v : Rx Nat)
  | vectorDeadline (l : LaneId)
  | presenceQuad (rx : LaneId) (tx : LaneId) (q : Rx Presence)
  | presenceDeadline (l : LaneId)
  | agreementDone (l : LaneId)
  | agreementDeadline (l : LaneId)
  | computeEnd (l : LaneId) (mask : BitVec 88)
  | computeDeadline (l : LaneId) (mask : BitVec 88)
  | completionMask (rx : LaneId) (tx : LaneId) (m : Rx (List Byte))
  | signatureRecord (rx : LaneId) (tx : LaneId) (relayed : Bool) (q : Rx (List Byte))
  | checkpointDeadline (l : LaneId)
  | launchPoint (l : LaneId)
  | mirroredSet (l : LaneId) (q : Rx (List Byte))
  | mirrorDeadline (l : LaneId)
  | resyncCopyDone (l : LaneId)
  | resyncLimit (l : LaneId)
  | periodBoundary
  | matrixCycleBoundary
  | launchBoundary (out : Fin 14)
  | linkTransferFailed (k : Fin 3) (back : Bool)
  | keepAlive (tx : LaneId) (rx : LaneId)
  | fenceNotice (rx : LaneId) (tx : LaneId) (q : Rx Nat)
  | partnerSilent (l : LaneId) (partner : LaneId)
  | silentLinkExpiry (l : LaneId) (partner : LaneId)
  -- Pintle die events
  | claimVector (l : LaneId) (v : Rx (List Byte))
  | claimVectorStale (l : LaneId)
  | pathFailed (l : LaneId)
  | fallbackPacket (l : LaneId) (out : Fin 8) (q : Rx (List Byte))
  | lineDeviation (leg : Fin 30) (x : LinePattern) (at_ : Nat)
  /-- The boundary of a claimed output's PWM period (R32): the holder's line patterns for the output's legs in the period just
  ended, and for a stepper channel what its coils showed in it (R244, R268). -/
  | pwmBoundary (out : Fin 8) (lines : List LinePattern) (coils : CoilPeriod)
  | claimGapLimit (out : Fin 8)
  | deadboltTable (l : LaneId) (q : Rx (List Byte))
  | dbStatusPacket (l : LaneId) (q : Rx (List Byte))
  | replicaDisagree (r : Fin 3)
  | enableLineFall (l : LaneId)
  -- gate drive and commutation events
  | interlockTimeout (leg : Leg) (waited : Nat)
  | bothOnCommand (leg : Leg)
  | vdsShort (leg : Leg) (highSide : Bool) (mv : Nat) (since : Nat) (above : Nat)
  | grossCurrent (leg : Leg) (ma : Int) (lowSide : Bool)
  | softOffEnd (leg : Leg)
  | currentSample (l : LaneId) (bridge : Fin 2) (i : PhaseIn)
  | alignmentDone (bridge : Fin 4)
  -- feedback events; `held` is the time for which a level has been stable, in ticks of 10 ns (R171)
  | fbEdge (l : LaneId) (ch : Fin 8) (held : Nat) (a : Option Bool) (b : Option Bool) (z : Option Bool)
  | indexPulse (l : LaneId) (ch : Fin 8) (held : Nat)
  -- `low` is the shortest low phase of the frame (R546)
  | sentFrame (l : LaneId) (ch : Fin 8) (calib : Nat) (pulses : List Nat) (pause : Option Nat) (low : Nat)
  | ssiStart (l : LaneId) (ch : Fin 8)
  | ssiFrame (l : LaneId) (ch : Fin 8) (idleHigh : Bool) (firstLow : Bool) (copies : List (List Bool)) (monoHigh : Bool)
  | probeEdge (l : LaneId) (ch : Fin 8) (source : Fin 2) (falling : Bool) (held : Nat)
  -- Ocgal and network time events; a frame comes as its bytes from the destination address to the FCS (R304)
  | frameReceived (l : LaneId) (port : Fin 4) (bytes : List Byte)
  | coldstartFrame (l : LaneId) (port : Fin 4) (bytes : List Byte)
  | syncFrame (l : LaneId) (port : Fin 4) (bytes : List Byte)
  | delayFrame (l : LaneId) (chan : Fin 2) (d : DelayData)
  | phyLinkUp (l : LaneId) (port : Fin 4)
  | probeSend (l : LaneId) (port : Fin 4)
  | probeRequest (l : LaneId) (port : Fin 4) (seq : Fin 16) (node : Nat)
  | probeResponse (l : LaneId) (port : Fin 4) (seq : Fin 16) (t2 : Nat) (t3 : Nat) (t4 : Nat) (node : Nat)
  | probeTimeout (l : LaneId) (port : Fin 4)
  | linkLost (l : LaneId) (port : Fin 4)
  | startInstant (l : LaneId)
  | listenTimeout (l : LaneId)
  | basicCycleStart (l : LaneId)
  | recoveryEntry (l : LaneId)
  | handoverCandidate (l : LaneId)
  | holdoverLimit (l : LaneId)
  | spareReleaseExpiry (slot : Nat)
  | frameMoverViolation (l : LaneId) (port : Fin 4)
  -- Keyway events
  | pduReceived (l : LaneId) (link : Option LaneId) (num : Fin 128) (bytes : List Byte)
  | watchdogExpiry (num : Fin 128)
  | freeDelayExpiry (num : Fin 128)
  -- check-value unit events
  | cvCfgWrite (l : LaneId) (u : Fin 4) (m : CvMaster) (v : BitVec 32)
  | cvStateAccess (l : LaneId) (u : Fin 4) (m : CvMaster) (write : Option (BitVec 64))
  | cvFeedWrite (l : LaneId) (u : Fin 4) (m : CvMaster) (item : BitVec 128)
  | cvLenWrite (l : LaneId) (u : Fin 4) (m : CvMaster) (len : BitVec 32)
  | memoryFeedDone (l : LaneId) (u : Fin 4) (readError : Bool)
  | cvResultRead (l : LaneId) (u : Fin 4)
  | cvRegisterWrite (l : LaneId) (u : Fin 4) (m : CvMaster) (reg : CvReg) (v : BitVec 64)
  | unitTestInterval (l : LaneId) (u : Fin 4) (failStep : Option Nat)
  -- safety input and output events
  | testPulseStart (l : LaneId) (k : Fin 2)
  | testPulseEnd (l : LaneId) (k : Fin 2) (p : PulseReading)
  | pulseRecoverEnd (l : LaneId)
  | siLevelAccepted (l : LaneId) (n : Fin 8) (level : Bool) (held : Nat)
  | tpOverload (l : LaneId) (k : Fin 2)
  | offPulseStart (l : LaneId)
  | offPulseEnd (l : LaneId) (mv : List Nat)
  | soOvercurrent (l : LaneId) (n : Fin 4)
  -- fault collection events
  | faultDetected (l : LaneId) (code : Nat) (utype : Nat) (inst : Nat) (dieLane : Nat)
  | eccCorrection (l : LaneId) (region : Nat) (quad : Nat) (cell : FailCell)
  | uncorrectableError (l : LaneId) (region : Nat) (ctx : Option (Fin 64))
  | coreAccessViolation (l : LaneId)
  | engineAccessViolation (l : LaneId)
  | nvmVerifyFail (l : LaneId) (sector : Nat)
  | mergeTimeExpiry (l : LaneId) (code : Nat) (utype : Nat) (inst : Nat) (die : Nat) (agreed : Bool)
  | recordWrite (l : LaneId)
  -- stop, power and self-test events
  | parkTimeExpiry
  | stopTimeout
  | applyTimeExpiry
  | idleDelayExpiry (ch : Fin 6)
  | idleTimerExpiry
  | driveDomainsGood
  | pointOfNoReturn
  | hlinkOff (l : LaneId)
  | domainGoodTimeout (l : LaneId)
  | wakeEvent (l : LaneId) (w : WakeSource)
  | wakeLine (l : LaneId) (src : LaneId)
  | wakeTimerExpiry (l : LaneId)
  | glideCycle (l : LaneId) (si : List Mask) (adc : List Nat) (fb : List Nat)
  | wakeDone (l : LaneId)
  | standdownDefer (l : LaneId)
  | logicBistDone (l : LaneId) (sigOk : Bool) (signature : Nat)
  | memoryBistDone (l : LaneId) (cells : List FailCell)
  | reinitDone (l : LaneId)
  | opcodeNotInIndex (opcode : BitVec 16) (r : Req)
  | fwWriteDone
  | commissionWriteDone (l : LaneId)
  | pintleReport (l : LaneId) (p : PintleIn) (sc : List Nat)
  | stallParameters (ch : Fin 6) (q : Rx StallPar)
  | timeMark (l : LaneId) (src : LaneId) (q : Rx TimeMark)
  | hostBridgeLost (l : LaneId)
  deriving DecidableEq, Repr

end Sys2Proof
end

