-- ==== Sys2Proof/Decode.lean ====
section
/-! DEFINITION. Commands spelled by the opcode table's bits: the table of this hardware gives no row any bits. -/

namespace Sys2Proof

/-- The command that an instruction word spells by the table's bits: no row of the table gives bits, so no word spells
a command. -/
def decodeTableWord (_nbits _w : Nat) : Option Instr := none

end Sys2Proof
end

