-- ==== Sys2Proof/Machine/Crc.lean ====
section
/-! DEFINITION. Bytes, little-endian fields and the cyclic redundancy checks of the device (R5, R94, R148). -/

namespace Sys2Proof.Machine

open Sys2Proof

/-- The value of a byte sequence, its first byte lowest (R5). -/
def ofLe : List Byte → Nat
  | [] => 0
  | b :: bs => b.toNat + 256 * ofLe bs

/-- The n low bytes of a value, the lowest first (R5). -/
def toLe : Nat → Nat → List Byte
  | 0, _ => []
  | n + 1, v => BitVec.ofNat 8 v :: toLe n (v / 256)

/-- Bytes off to off + n − 1 of a payload, with zero beyond its end. -/
def bytesAt (p : List Byte) (off n : Nat) : List Byte :=
  let t := (p.drop off).take n
  t ++ List.replicate (n - t.length) 0

/-- The little-endian field of n bytes at an offset. -/
def fld (p : List Byte) (off n : Nat) : Nat := ofLe (bytesAt p off n)

/-- A field of n bits read as a signed number. -/
def signedOf (bits v : Nat) : Int :=
  if v % 2 ^ bits < 2 ^ (bits - 1) then (v % 2 ^ bits : Nat) else (v % 2 ^ bits : Nat) - (2 ^ bits : Nat)

/-- A number as n bits of two's complement. -/
def unsignedOf (bits : Nat) (i : Int) : Nat := (i % (2 ^ bits : Nat)).toNat

/-- The signed little-endian field of n bytes at an offset. -/
def sfld (p : List Byte) (off n : Nat) : Int := signedOf (8 * n) (fld p off n)

/-- A signed number as n little-endian bytes. -/
def toLeI (n : Nat) (i : Int) : List Byte := toLe n (unsignedOf (8 * n) i)

/-- Whether all bytes from an offset up to (not including) another are zero. -/
def zeroFrom (p : List Byte) (off stop : Nat) : Bool := ((p.drop off).take (stop - off)).all (· == 0)

/-- Bytes padded with zero to a whole number of quads (R146). -/
def padQuads (p : List Byte) : List Byte := p ++ List.replicate ((16 - p.length % 16) % 16) 0

/-- One bit step of a reflected CRC with reversed polynomial rp. -/
def crcBit (rp c : Nat) : Nat := if c % 2 = 1 then (c / 2) ^^^ rp else c / 2

/-- One byte of a reflected CRC. -/
def crcByte (rp c : Nat) (b : Byte) : Nat :=
  let c := c ^^^ b.toNat
  crcBit rp (crcBit rp (crcBit rp (crcBit rp (crcBit rp (crcBit rp (crcBit rp (crcBit rp c)))))))

/-- The register of a reflected CRC after a byte sequence. -/
def crcFold (rp init : Nat) (bs : List Byte) : Nat := bs.foldl (crcByte rp) init

/-- CRC-32C of a byte sequence (R388 gives its form). -/
def crc32c (bs : List Byte) : Nat := crcFold 0x82F63B78 0xFFFFFFFF bs ^^^ 0xFFFFFFFF

/-- CRC-64/XZ of a byte sequence (R94). -/
def crc64xz (bs : List Byte) : Nat := crcFold 0xC96C5795D7870F42 0xFFFFFFFFFFFFFFFF bs ^^^ 0xFFFFFFFFFFFFFFFF

/-- The CRC-64 of polynomial 0x1B that forms bytes 8 to 15 of a signature (R148). -/
def crc64iso (bs : List Byte) : Nat := crcFold 0xD800000000000000 0xFFFFFFFFFFFFFFFF bs ^^^ 0xFFFFFFFFFFFFFFFF

/-- Bit n of a number. -/
def bitOf (v n : Nat) : Bool := v.testBit n

/-- Bit n of a byte mask. -/
def hasBit (m : Mask) (n : Nat) : Bool := m.getLsbD n

/-- The mask with bit n only. -/
def bitMask (n : Nat) : Mask := 1#8 <<< n

/-- The mask with bit n set or cleared. -/
def setBit (m : Mask) (n : Nat) (v : Bool) : Mask := if v then m ||| bitMask n else m &&& ~~~(bitMask n)

/-- The lane's bit of a lane mask. -/
def hasLane (m : Mask) (l : LaneId) : Bool := hasBit m l.idx

/-- The lane mask with one lane's bit set or cleared. -/
def setLaneBit (m : Mask) (l : LaneId) (v : Bool) : Mask := setBit m l.idx v

/-- The lanes of a lane mask in ascending index (R58). -/
def lanesOf (m : Mask) : List LaneId := LaneId.all.filter (hasLane m)

/-- Division of whole numbers rounded toward zero (R195). -/
def quo (a b : Int) : Int := Int.tdiv a b

/-- A value clipped to a range. -/
def clip (lo hi x : Int) : Int := if x < lo then lo else if hi < x then hi else x

/-- A count that saturates. -/
def satInc (top n : Nat) : Nat := if n < top then n + 1 else top

/-- The whole square root, by bisection on the bits from 2^(n−1) down. -/
def sqrtBits : Nat → Nat → Nat → Nat
  | 0, _, r => r
  | n + 1, x, r => let t := r + 2 ^ n; sqrtBits n x (if t * t ≤ x then t else r)

/-- The whole square root of a number below 2^128. -/
def natSqrt (x : Nat) : Nat := sqrtBits 64 x 0

/-- The element at a place, or a default beyond the end. -/
def nth {α : Type} (l : List α) (n : Nat) (d : α) : α := l.getD n d

/-- The list with the element at one place replaced (unchanged beyond the end). -/
def setNth {α : Type} (l : List α) (n : Nat) (x : α) : List α := l.set n x

/-- The list with a function applied at one place (unchanged beyond the end). -/
def modNth {α : Type} (l : List α) (n : Nat) (f : α → α) : List α := l.modify n f

/-- Whether one sequence number is newer than another, modulo 2^32 (R92, R133). -/
def newer (x y : Nat) : Bool :=
  let d := (x + 2 ^ 32 - y % 2 ^ 32) % 2 ^ 32
  decide (1 ≤ d ∧ d ≤ 2 ^ 31 - 1)

end Sys2Proof.Machine
end

