-- ==== Sys2Proof/Machine/Operands.lean ====
section
/-! DEFINITION. The operand forms of a command packet: its payload after the launch quad, its launch time, its flags, the
lanes it selects, and the entries and blocks that it names. -/

namespace Sys2Proof

open Sys2Proof.Machine

/-- The operation payload after the launch quad (R57). -/
def Req.body (r : Req) : List Byte := if hasBit r.flags 1 then r.payload.drop 16 else r.payload

/-- The launch time of a timed operation (R57). -/
def Req.launchTime (r : Req) : Nat := fld r.payload 0 8

/-- Whether a request is timed. -/
def Req.isTimed (r : Req) : Bool := hasBit r.flags 1

/-- The lanes that a lane-local request selects (R58). -/
def Req.lanes (r : Req) : List LaneId :=
  if r.mask = 0 then (match r.link with | some l => [l] | none => []) else lanesOf r.mask

/-- The code of a block (R74). -/
def Block.code : Block → Nat
  | .sys => 0x00 | .lane => 0x01 | .auth => 0x02 | .per => 0x03 | .chk => 0x04 | .flt => 0x05 | .snp => 0x06
  | .cmt => 0x10 | .gdr => 0x11 | .stp => 0x12 | .fbk => 0x13 | .loop => 0x14
  | .net => 0x20 | .time => 0x21 | .key => 0x22 | .crc => 0x23 | .sio => 0x24
  | .host => 0x30 | .cfg => 0x31 | .pwr => 0x32 | .thm => 0x33 | .bist => 0x34

/-- Every block of R74. -/
def Block.all : List Block :=
  [.sys, .lane, .auth, .per, .chk, .flt, .snp, .cmt, .gdr, .stp, .fbk, .loop, .net, .time, .key, .crc, .sio, .host,
   .cfg, .pwr, .thm, .bist]

/-- The block of a code (R74). -/
def Block.ofCode (n : Nat) : Option Block := Block.all.find? (fun b => b.code == n)

/-- The quads of a payload. -/
def quadsOf (p : List Byte) : List (List Byte) := (List.range (p.length / 16)).map (fun k => bytesAt p (16 * k) 16)

/-- The parameter ID of an entry quad (R82). -/
def entryId (q : List Byte) : Nat := fld q 0 2

/-- The instance of an entry quad (R82). -/
def entryInst (q : List Byte) : Nat := fld q 2 1

/-- The value of an entry quad (R82). -/
def entryValue (q : List Byte) : Nat := fld q 8 8

/-- An entry quad (R82). -/
def entryQuad (id inst width value : Nat) : List Byte :=
  toLe 2 id ++ toLe 1 inst ++ toLe 1 width ++ toLe 4 0 ++ toLe 8 value

end Sys2Proof
end

