-- ==== Sys2Proof/Config.lean ====
section
/-! DEFINITION. What the spec leaves open: free values, and the fused keys of the part. None of them has a body that
a proof could look into. -/

namespace Sys2Proof

/-- The free value of draw number n: a value that the spec does not state (log 1). Nothing constrains it. -/
opaque Config.freeNat : Nat → Nat

/-- The public key point (x, y) in the one-time fuses under a key index (R100); the spec gives no key (log 3). -/
opaque Config.publicKey : Nat → Nat × Nat

/-- The full scale in mA of the coil-current sense of a Pintle leg (R233), which the spec does not state (log 109). -/
opaque Config.coilFullScale : Nat → Nat

/-- The fixed forwarding delay in ps, less its least value, of a lane's direction 0 to 3 (R339), which the spec does not state (log 111). -/
opaque Config.forwardDelay : Nat → Nat → Nat

/-- The fixed delay in ns of a lane link (R346), which the spec does not state (log 111). -/
opaque Config.laneLinkDelay : Nat

end Sys2Proof
end

