-- ==== Sys2Proof/Machine/State.lean ====
section
/-! DEFINITION. The state of the ATV-7306 as plain data: the three lanes, their host bridges, the lane links,
the Pintle die, and the data that the lanes in authority hold in agreement, with the state right after reset.
Every field's docstring names its width, the rule that gives it and its reset value. -/

namespace Sys2Proof.Machine

open Sys2Proof

/-! ### Host bridges (chapters 02, 19) -/

/-- A reply or event packet on its way to a host (R63, R65): header fields, payload, and its kind. -/
structure OutPacket where
  opcode : Nat := 0
  tag : Byte := 0
  status : Nat := 0
  session : Nat := 0
  mask : Mask := 0
  seq : Nat := 0
  payload : List Byte := []
  isEvent : Bool := false
  deriving DecidableEq, Repr, Inhabited

/-- A command packet held in the receive buffers of a bridge (R66): its opcode and contents, the buffers it
uses, and the quads of it that input agreement has already carried (R62). -/
structure RxPacket where
  opcode : Nat := 0
  req : Req := {}
  crc : Nat := 0
  buffers : Nat := 1
  quads : Nat := 1
  carried : Nat := 0
  /-- lanes to which the packet has been streamed (R126) -/
  streamed : Mask := 0
  /-- quads of it in the vector of the present period (R62) -/
  offered : Nat := 0
  /-- its place among the lane's arrivals (R127) -/
  ord : Nat := 0
  /-- the place at which its streaming to the partners ended (R125) -/
  ended : Option Nat := none
  /-- index of its first quad in the lane's stream buffer (R125) -/
  index : Nat := 0
  deriving DecidableEq, Repr, Inhabited

/-- One host bridge H-x. -/
structure Bridge where
  /-- 1 bit; R48, R469: the HAON domain is up; reset 0 -/
  powered : Bool := false
  /-- 7 bits; R48: address read from the straps; reset 0 (read at HAON power-up) -/
  address : Nat := 0
  /-- 1 bit; R534: VDDH range detected at HAON power-up, 1 for 3.3 V; reset 0 (detected at HAON power-up) -/
  vddh33 : Bool := false
  /-- 1 bit; R444, R448: the bridge is lost and its host link fenced; reset 0 -/
  lost : Bool := false
  /-- 1 bit; R469: the HLINK domain is on; reset 1 (R118: link state 3 is served) -/
  hlinkOn : Bool := true
  /-- 1 bit; R51, R118: the field side is silent, link state "lane unavailable"; reset 1 -/
  silent : Bool := true
  /-- 1 bit; R52, R483: link state "lane waking"; reset 0 -/
  waking : Bool := false
  /-- 1 bit; R477: past the point of no return, write packets are answered TRANSITION_PENDING; reset 0 -/
  closing : Bool := false
  /-- 3 bits; R47, R71: I/O width in force, 1, 2 or 4; reset 1 -/
  ioWidth : Nat := 1
  /-- 64 buffers of 256 bytes; R66: packets held in the receive buffers; reset empty -/
  rx : List RxPacket := []
  /-- 48 KB; R68: queued replies and events; reset empty -/
  queue : List OutPacket := []
  /-- 4 bits; R70: edge causes CREDITS_FREED (2), FILTER_REJECT (3), CLASS_CHANGE (5), WAKE_DONE (6); reset 0 -/
  edges : Mask := 0
  /-- 8 bits saturating; R52: filter rejects since the last read; reset 0 -/
  rejects : Nat := 0
  /-- 16 bits saturating; R52: events dropped since the last read; reset 0 -/
  dropped : Nat := 0
  /-- 8 bits; R52: degraded class last reported by the lane; reset 0xFF -/
  cls : Nat := 0xFF
  /-- bytes; R50: data driven on the IO balls in the last read frame; reset empty -/
  ioOut : List Byte := []
  /-- 4 bits each; R46: levels driven on IO0 to IO3 in the SCLK cycles of that data, 8, 4 or 2 to a byte; reset empty -/
  ioLevels : List Nat := []
  deriving DecidableEq, Repr, Inhabited

/-! ### Fault records (chapter 17) -/

/-- A fault record (R426) with its kind, local or agreed (R428), and the order in which it was formed (R437). -/
structure FaultRec where
  code : Nat := 0
  cls : Nat := 1
  utype : Nat := 0
  inst : Nat := 0
  lane : Nat := 0xFF
  count : Nat := 1
  nt : Nat := 0
  agreed : Bool := false
  ord : Nat := 0
  deriving DecidableEq, Repr, Inhabited

/-- The fault collector and record ring of a lane. -/
structure Collector where
  /-- 4,096 quads in NVM; R434: stored records by slot, with their pass flag; reset empty (NVM as delivered) -/
  ring : List (Nat × Bool × FaultRec) := []
  /-- 12 bits; R435: write index; reset 0 -/
  writeIdx : Nat := 0
  /-- 1 bit; R434: pass flag of the next write; reset 0 -/
  pass : Bool := false
  /-- 64 records; R436: records waiting to be written, oldest first; reset empty -/
  queue : List FaultRec := []
  /-- records; R431: open C-class records, oldest first; reset empty -/
  opened : List FaultRec := []
  /-- 32 bits saturating; R438: records formed since boot; reset 0 -/
  formed : Nat := 0
  /-- 16 bits saturating; R438: records dropped since boot; reset 0 -/
  dropped : Nat := 0
  /-- 16 bits; R436: records dropped since the last write; reset 0 -/
  droppedNow : Nat := 0
  /-- 7 bits; R436, R500: records that the queue holds, 64, or 16 while memory region 15 is fenced; reset 64 -/
  cap : Nat := 64
  /-- 3 bits; R436: records written in this matrix cycle, at most 4; reset 0 -/
  writes : Nat := 0
  /-- 1 bit; R430: the lane has missed agreed records and writes 0x0504 when it resumes; reset 0 -/
  gap : Bool := false
  deriving DecidableEq, Repr, Inhabited

/-! ### Feedback channels (chapter 07) -/

/-- A stored SENT serial message (R179, R191). -/
structure SerialMsg where
  ident : Nat := 0
  form : Nat := 0
  data : Nat := 0
  nt : Nat := 0
  deriving DecidableEq, Repr, Inhabited

/-- One feedback channel of one lane. -/
structure FbChan where
  /-- 3 bits; R171: accepted levels of A, B, Z; reset 0 DESIGN CHOICE 0 (log 6) -/
  levels : Mask := 0
  /-- 64 bits; R199: NT of the last accepted Hall transition; reset 0 -/
  hallNt : Nat := 0
  /-- 64 bits signed; R173: raw count E; reset 0 DESIGN CHOICE 0 (log 6) -/
  e : Int := 0
  /-- 64 bits signed; R173: reported count E'; reset 0 DESIGN CHOICE 0 (log 6) -/
  e' : Int := 0
  /-- 64 bits signed; R173, R182: base B; reset 0 -/
  base : Int := 0
  /-- 1 bit; R175, R176: an index reference is held; reset 0 -/
  indexRef : Bool := false
  /-- 32 bits; R176: index latch L; reset 0 DESIGN CHOICE 0 (log 6) -/
  latch : Int := 0
  /-- 16 bits saturating; R191: index corrections; reset 0 -/
  corrections : Nat := 0
  /-- 16 bits saturating; R191: discarded frames or invalid samples; reset 0 -/
  discards : Nat := 0
  /-- 5 bits; R177: consecutive index deviations; reset 0 -/
  indexBad : Nat := 0
  /-- 1 bit; R177: an index was accepted since the previous S; reset 0 -/
  indexSeen : Bool := false
  /-- 1 bit; R183: a fault 0x1301, 0x1302 or 0x1303 occurred since the previous S; reset 0 -/
  faulted : Bool := false
  /-- 8 bits; R183: consecutive invalid periods; reset 0 -/
  badRun : Nat := 0
  /-- 1 bit; R183, R177: fenced in this lane; reset 0 -/
  fenced : Bool := false
  /-- 2 bits; R184: probe latch armed with its source; reset none -/
  probeSrc : Option Nat := none
  /-- 1 bit; R184: probe edge, falling; reset 0 -/
  probeFalling : Bool := false
  /-- arming or disarming; R184: source and falling edge of an arming that acts from the next S, no source for a disarming; reset none -/
  probePend : Option (Option Nat × Bool) := none
  /-- 64 bits; R184: latched NT, none when the latch flag is clear; reset none -/
  probeNt : Option Nat := none
  /-- 64 bits; R184: NT of the S from which the probe latch is armed; reset 0 -/
  probeFrom : Nat := 0
  /-- 16 bits; R178: calibration of the previous SENT frame in 10 ns, 0 for none; reset 0 -/
  sentCal : Nat := 0
  /-- 24 bits; R178: fast channel 1, or the SSI position; reset 0 DESIGN CHOICE 0 (log 6) -/
  fast1 : Nat := 0
  /-- 24 bits; R178: fast channel 2, or the SSI revolutions; reset 0 DESIGN CHOICE 0 (log 6) -/
  fast2 : Nat := 0
  /-- 64 bits; R178: NT at the end of the last passing frame, none before the first; reset none -/
  frameNt : Option Nat := none
  /-- 1 bit; R180: an SSI transfer is running; reset 0 -/
  ssiBusy : Bool := false
  /-- 18 bits each; R179: serial-message bits 2 and 3 collected so far, newest last; reset empty -/
  serialBits : List (Bool × Bool) := []
  /-- 16 messages; R179: latest serial messages in order of first arrival; reset empty -/
  serial : List SerialMsg := []
  deriving DecidableEq, Repr, Inhabited

/-! ### Sampling and the tumbler round (chapter 05) -/

/-- One feedback channel as it enters the sample vector (R124). -/
structure FbSample where
  pos : Int := 0
  rev : Int := 0
  valid : Bool := false
  indexSeen : Bool := false
  latched : Bool := false
  stamp : Nat := 0
  hall : Nat := 0
  age : Nat := 0
  latch : Int := 0
  deriving DecidableEq, Repr, Inhabited

/-- The Pintle die's last report received before S (R121), with its status bits. -/
structure PsnSample where
  /-- a report has been received -/
  given : Bool := false
  coils : List Int := []
  bm : List Int := []
  temps : List Int := []
  presents : Mask := 0
  stall : Mask := 0
  dieFenced : Bool := false
  holding : Bool := false
  deriving DecidableEq, Repr, Inhabited

/-- What comes to a lane with the Pintle die's report besides its measured values: the status bits, and the die's faults that the
lane has not yet put into a sample (R121, R428). -/
structure ReportBits where
  presents : Mask := 0
  stall : Mask := 0
  dieFenced : Bool := false
  holding : Bool := false
  faults : List (Nat × Nat × Nat) := []
  deriving DecidableEq, Repr, Inhabited

/-- The observer of a lane's engine at S (R199, R216, log 108): locked, the rotor lost since the last one that was agreed, its angle,
and its speed in angle counts per PWM period times 256. -/
structure Rotor where
  locked : Bool := false
  lost : Bool := false
  theta : Nat := 0
  omega : Int := 0
  deriving DecidableEq, Repr, Inhabited

/-- A lane's S-part (R124) with its manifest. -/
structure SPart where
  /-- 8 bits; R124: lane index; reset 0 -/
  lane : Nat := 0
  nt : Nat := 0
  count : Nat := 0
  mainPathBad : Bool := false
  frameSeen : Bool := false
  /-- 1 bit; R28: one of the lane's links is fenced; reset 0 -/
  linkDown : Bool := false
  /-- 2 × 3 bits; R124: bands of the lane's die and of its part of the Pintle die; reset 1 -/
  bands : Nat × Nat := (1, 1)
  /-- 88 bits; R124, R138: work items held in the previous period; reset 0 -/
  missed : BitVec 88 := 0
  /-- 5 bits; R124, R137: consecutive rounds that the lane has missed; reset 0 -/
  misses : Nat := 0
  tstate : Nat := 0
  unitsFenced : List (Nat × Nat) := []
  /-- units fenced on the lane's own detection and not yet agreed (R429) -/
  fencedHere : List (Nat × Nat) := []
  si : Mask := 0
  adc : List Nat := []
  fb : List FbSample := []
  iq : List (Int × Int) := []
  /-- 4 engines; R194, R199, R216: observers of MB0, MB1, BM0, BM1 at S; reset zero -/
  rotor : List Rotor := []
  vbr : Nat := 0
  vgd : Nat := 0
  temps : List Int := []
  psn : PsnSample := {}
  /-- faults of the Pintle die that the lane's last report brought (R428) -/
  pintleFaults : List (Nat × Nat × Nat) := []
  /-- at most 52 words; R125: manifest; reset empty -/
  manifest : List Nat := []
  deriving DecidableEq, Repr, Inhabited

/-- A streamed item of a lane (R125, R126). -/
inductive StreamItem where
  | packet (link : LaneId) (p : RxPacket)
  | pdu (num : Nat) (link : Option LaneId) (opcode : Nat) (req : Req)
  | excl (chan : Nat) (slot : Nat) (counter : Nat) (matrix : Nat) (stale : Bool) (leaving : Bool) (age : Nat) (data : List Byte)
  | arb (node : Nat) (fseq : Nat) (kind : Nat) (chan : Nat) (data : List Byte)
  deriving DecidableEq, Repr

/-- An item that a lane has received and that is not yet in a vector (R125 to R127): the partners that hold it, its place among the
lane's arrivals, the place at which its streaming ended, the index of its first quad in the stream buffer, and whether it has moved
to a later period. -/
structure Arriving where
  item : StreamItem
  streamed : Mask := 0
  ord : Nat := 0
  ended : Option Nat := none
  index : Nat := 0
  carried : Bool := false
  deriving DecidableEq, Repr

/-- A signature record as held by a receiver: the direct and the relayed copy (R149). -/
structure HeldSig where
  direct : Option SigRec := none
  relayed : Option SigRec := none
  deriving DecidableEq, Repr, Inhabited

/-- The round and checkpoint of the present period in one lane (chapters 05, 06). -/
structure Round where
  /-- 1 bit; R121: the lane has sampled in this period; reset 0 -/
  sampled : Bool := false
  /-- S-part; R124: the lane's own S-part; reset zero -/
  own : SPart := {}
  /-- 32 bits; R130: CRC-32C of the own vector; reset 0 -/
  crc : Nat := 0
  /-- packets; R62, R66: host packets whose last quad the lane has taken into input agreement in this period; reset empty -/
  packets : List RxPacket := []
  /-- items; R126: streamed items in the vector of the period; reset empty -/
  items : List StreamItem := []
  /-- 3 × S-part CRC-32C; R130: vectors held, by their CRC-32C; reset none -/
  held : Tri (Option Nat) := ⟨none, none, none⟩
  /-- 1 bit; R130: the presence quad has been sent; reset 0 -/
  sent : Bool := false
  /-- quad; R130: presence quad sent; reset zero -/
  presence : Presence := {}
  /-- 3 quads; R130: presence quads received; reset none -/
  quads : Tri (Option Presence) := ⟨none, none, none⟩
  /-- 3 bits; R130: agreement set as this lane found it, none before the deadline; reset none -/
  aset : Option Mask := none
  /-- 1 bit; R137: the agreement rule is done; reset 0 -/
  agreed : Bool := false
  /-- 1 bit; R137: the lane computes nothing in this period; reset 0 -/
  absent : Bool := false
  /-- 88 bits; R144: own completion mask, none before it is sent; reset none -/
  mask : Option (BitVec 88) := none
  /-- 3 × 88 bits; R145: completion masks held; reset none -/
  masks : Tri (Option (BitVec 88)) := ⟨none, none, none⟩
  /-- two quads; R149: own signature record, none before the fold is built; reset none -/
  record : Option SigRec := none
  /-- quads and 128 bits; R161: length and signature of the fold of core 1, where it is known to be another; reset none -/
  core1 : Option (Nat × Nat × Nat) := none
  /-- 3 × two copies; R149: records held; reset none -/
  records : Tri HeldSig := ⟨{}, {}, {}⟩
  /-- 1 bit; R150: the vote has been taken; reset 0 -/
  voted : Bool := false
  /-- 1 bit; R150: the lane passed; reset 0 -/
  passed : Bool := false
  /-- 1 bit; R122: the launch point of the period has been reached; reset 0 -/
  launched : Bool := false
  /-- 1 bit; R155: the mirror of the period has been dealt with; reset 0 -/
  mirrored : Bool := false
  deriving DecidableEq, Repr, Inhabited

/-- Counters and modes of a lane's checkpoint (chapter 06). -/
structure Chk where
  /-- 5 bits; R137: consecutive missed rounds; reset 0 -/
  misses : Nat := 0
  /-- 3 bits; R157: resynchronisation step, 0 none, 1, 5 or 6; reset 0 -/
  resync : Nat := 0
  /-- 8 bits; R159: periods since step 1; reset 0 -/
  resyncAge : Nat := 0
  /-- 2 bits; R157, R159: source lane; reset none -/
  source : Option LaneId := none
  /-- 1 bit; R160: the lane is joining (late, readmitted or after stand-down); reset 0 -/
  joining : Bool := false
  /-- 1 bit; R157: the lane has started the resynchronisation from the next S; reset 0 -/
  resyncPend : Bool := false
  /-- 1 bit; R157: the lane holds the whole snapshot; reset 0 -/
  snapshot : Bool := false
  /-- 32 bits; R151: matrix cycle of the last corrected divergence; reset none -/
  lastDiv : Option Nat := none
  /-- 32 bits each; R28: matrix cycles of corrected divergences; reset empty -/
  divs : List Nat := []
  /-- 32 bits; R164: matrix cycle of the last core disagreement; reset none -/
  coreDiv : Option Nat := none
  /-- 128 bits; R148, R410 operations: last signature; reset 0 -/
  lastSig : Nat × Nat := (0, 0)
  /-- 3 × 8 bits; R18: claim numbers that the lane computed last; reset 0 -/
  claims : Tri Nat := ⟨0, 0, 0⟩
  /-- 16 bits; R138, R310 operations: deadline misses; reset 0 -/
  deadlineMisses : Nat := 0
  /-- 1 bit; R155: catch-up at the next S; reset 0 -/
  catchUp : Bool := false
  /-- 84 quads; R155, R159: quads 1 to 84 of the mirrored set received last; reset empty -/
  mirror : List Byte := []
  /-- 1 bit; R155, R157: the mirrored state that the lane has applied differs from the agreed one; reset 0 -/
  skewed : Bool := false
  /-- 8 bits; R157: deltas sent since the snapshot and not received; reset 0 -/
  owed : Nat := 0
  /-- 1 bit; R156, R160: the working set is part of the copy; reset 0 -/
  wsDiffers : Bool := false
  /-- 2 SRAM regions; R161, R163: state of the reduced service set in the regions of core 0 and core 1, as last copied; reset empty -/
  regions : List Byte × List Byte := ([], [])
  deriving DecidableEq, Repr, Inhabited

/-! ### Commutation engine and gate drive (chapters 08, 09) -/

/-- One leg of a gate driver (R225). -/
structure LegSt where
  /-- 16 bits; R235: latched leg fault code; reset none -/
  latch : Option Nat := none
  /-- 64 bits; R238: NT of the latch; reset 0 -/
  at_ : Nat := 0
  /-- 2 bits; R234: soft turn-off stage, 0 none, 1 plateau sink, 2 strong sink; reset 0 -/
  soft : Nat := 0
  /-- 1 bit; R235: the fault was found on a low-side switch by R231 or the gross comparator; reset 0 -/
  lowSide : Bool := false
  deriving DecidableEq, Repr, Inhabited

/-- A running off-state test (R240). -/
structure OstRun where
  step : Nat := 0
  readings : List (List Nat) := []
  auto : Bool := false
  deriving DecidableEq, Repr, Inhabited

/-- A target of the off-state test in one die (R242, R249). -/
structure Target where
  /-- test; R240: running off-state test; reset none -/
  run : Option OstRun := none
  /-- 3 bits; R242: result of the last off-state test, 0 pass to 5 deferred; reset 5 DESIGN CHOICE 5 deferred (log 7) -/
  result : Nat := 5
  /-- 5 bits; R242: leg of the deciding step, 0xFF none; reset 0xFF -/
  leg : Nat := 0xFF
  /-- 4 halves; R242: node readings of the deciding step; reset empty -/
  nodes : List Nat := []
  /-- 1 bit; R236, R243: an off-state test is due; reset 0 -/
  due : Bool := false
  /-- 1 bit; R236: a test has passed since the last clearing, or nothing has been cleared; reset 1 -/
  passed : Bool := true
  /-- 32 bits saturating; R249: interlock waits; reset 0 -/
  waits : Nat := 0
  /-- 16 bits saturating; R249: short detections since boot; reset 0 -/
  shorts : Nat := 0
  /-- 1 bit; R238: a short was latched in this PWM period; reset 0 -/
  shortNow : Bool := false
  /-- 16 bits saturating; R249: deviating line periods since boot; reset 0 -/
  deviating : Nat := 0
  /-- 3 bits; R227: band of the profile set in force; reset 1 DESIGN CHOICE 1 (log 8) -/
  band : Nat := 1
  /-- 3 and 64 bits; R227: band that comes into force at the first PWM boundary at or after an NT; reset none -/
  bandNext : Option (Nat × Nat) := none
  deriving DecidableEq, Repr, Inhabited

/-- What a winding set's gates do (R218, R222): off, switching, freewheeling, active short circuit. -/
inductive GateState where
  | off | switching | freewheel | short
  deriving DecidableEq, Repr, Inhabited

/-- A period-level command as a lane's engine takes it at the first PWM boundary at or after its launch point (R122, R194): what the
gates do, the currents, the angle source with its reference, the tracked speed, whether the start is a catch whose reference is the
engine's own EMF (R213), and whether the period has agreed the loss of the rotor that the engine reported (R216). -/
structure EngineCmd where
  from_ : Nat := 0
  gates : GateState := .off
  iq : Int := 0
  id : Int := 0
  zero : Bool := false
  src : Nat := 0xFF
  rho : Nat := 0
  omega : Int := 0
  emfRef : Bool := false
  ack : Bool := false
  deriving DecidableEq, Repr, Inhabited

/-- The PWM-level engine of one bridge in one lane (R194). -/
structure Engine where
  /-- 2 bits; R218: state of the gates; reset off -/
  gates : GateState := .off
  /-- 32 bits signed, mV; R202: integrators Id and Iq; reset 0 -/
  intD : Int := 0
  intQ : Int := 0
  /-- 32 bits signed, mV; R202, R203: voltages vd and vq after limiting; reset 0 -/
  vd : Int := 0
  vq : Int := 0
  /-- 32 bits signed, mA; R202: currents id and iq of the last PWM period; reset 0 -/
  id : Int := 0
  iq : Int := 0
  /-- 1 bit; R206: the set has commands in force since its last launch point, gates switching or not; reset 0 -/
  cmdOn : Bool := false
  /-- 2 × 32 bits signed, mA; R206, R207: commands iq* and id* in force; reset 0 -/
  cmdIq : Int := 0
  cmdId : Int := 0
  /-- 1 bit; R200: the angle is taken as 0 for an alignment; reset 0 -/
  cmdZero : Bool := false
  /-- 8 bits; R199: angle source in force; reset 0xFF none -/
  cmdSrc : Nat := 0xFF
  /-- 16 bits; R199: reference ρ in force; reset 0 -/
  cmdRho : Nat := 0
  /-- 3 × 2 × 17 bits; R204: rise and fall of each phase from the PWM boundary, in steps of 1.25 ns; reset 0 -/
  edges : List (Nat × Nat) := [(0, 0), (0, 0), (0, 0)]
  /-- 2 × 32 bits signed, mV; R204, R215: voltages placed on the α and β axes; reset 0 -/
  placed : Int × Int := (0, 0)
  /-- 1 bit; R210, R213: the gates have switched with those voltages since the last sample; reset 0 -/
  applied : Bool := false
  /-- 16 bits; R198: electrical angle read last; reset 0 -/
  theta : Nat := 0
  /-- 32 bits signed; R198, R215: electrical speed in angle counts per PWM period times 256; reset 0 -/
  omega : Int := 0
  /-- 16 bits; R215: observer angle; reset 0 -/
  obsAngle : Nat := 0
  /-- 32 bits signed; R215: observer speed in angle counts per PWM period times 256; reset 0 -/
  obsOmega : Int := 0
  /-- 8 bits; R216: consecutive PWM periods beyond CMT.OBS_LOSS; reset 0 -/
  obsBad : Nat := 0
  /-- 1 bit; R215: observer locked; reset 0 -/
  obsLocked : Bool := false
  /-- 8 bits; R210: consecutive periods with a phase-sum fault; reset 0 -/
  sumBad : Nat := 0
  /-- 8 bits; R210: consecutive periods with a residual fault; reset 0 -/
  resBad : Nat := 0
  /-- 1 bit; R203: voltage limit in the period; reset 0 -/
  vlim : Bool := false
  /-- 3 × 32 bits signed, mA; R212: current offsets; reset 0 -/
  offs : Int × Int × Int := (0, 0, 0)
  /-- samples of CMT.CATCH_WINDOW, mA; R212: currents sampled with gates off, newest first; reset empty -/
  offWin : List (Int × Int × Int) := []
  /-- 64 bits; R201, R202: NT of the last sampling instant; reset 0 -/
  sampleNt : Nat := 0
  /-- 3 × 16 bits; R213: angle of the own EMF vector at the last sample without switching, with the readings of CMT.ANGLE_SRC and
  CMT.ANGLE_SRC2 there; reset none -/
  emf : Option (Nat × Nat × Nat) := none
  /-- 2 × 3 and 16 bits; R213: channels whose reference the engine has taken from its own EMF, with those references; reset empty -/
  ownRefs : List (Nat × Nat) := []
  /-- command; R122, R194: the command launched and not yet in force, with the NT of its launch point; reset none -/
  next : Option EngineCmd := none
  /-- 32 bits signed; R211, R213: electrical speed of the command in force, in angle counts per PWM period times 256; reset 0 -/
  cmdOmega : Int := 0
  /-- 1 bit; R216: rotor lost, to be taken into the agreed data; reset 0 -/
  lost : Bool := false
  /-- 2 × 32 bits signed, mA; R202: currents iq and id of the last PWM period that has ended; reset 0 -/
  endIq : Int := 0
  endId : Int := 0
  /-- 2 × 32 bits signed, mA; R202: previous α and β currents; reset 0 -/
  prevI : Int × Int := (0, 0)
  deriving DecidableEq, Repr, Inhabited

/-- What one lane drives on a stepper channel: the command of R262 taken at its launch point, and its own loops of the two
coils (R257). -/
structure StpDrive where
  /-- 1 bit; R260: energised; reset 0 -/
  energised : Bool := false
  /-- 1 bit; R259: strong mode; reset 0 -/
  strong : Bool := false
  /-- 2 × 32 bits signed; R262: positions x0 and x1; reset 0 -/
  x0 : Int := 0
  x1 : Int := 0
  /-- 16 bits; R262, R354: PWM period after the launch point at which x0 holds, 0 but after a timed launch; reset 0 -/
  j0 : Nat := 0
  /-- 16 bits, mA; R260: current I_amp; reset 0 -/
  amp : Nat := 0
  /-- 2 bits; R258: decay; reset 0 -/
  decay : Nat := 0
  /-- 32 bits, mV; R257: VBRa; reset 0 -/
  vbra : Nat := 0
  /-- 32 bits signed, microsteps/s; R257: profile velocity; reset 0 -/
  v : Int := 0
  /-- 2 × 32 bits signed, mV; R257: coil integrators; reset 0 -/
  intA : Int := 0
  intB : Int := 0
  /-- 2 × 32 bits signed, mV; R257: coil voltages; reset 0 -/
  voltA : Int := 0
  voltB : Int := 0
  deriving DecidableEq, Repr, Inhabited

/-! ### Ocgal unit (chapter 12) and clock (chapter 13) -/

/-- The phases of R316. -/
inductive NetPhase where
  | down | listen | coldstart | integrate | service | recovery | test
  deriving DecidableEq, Repr, Inhabited

/-- One network port (R336, R338). -/
structure NetPort where
  /-- 1 bit; R338: PHY link up; reset 0 -/
  up : Bool := false
  /-- 1 bit; R104: training ended, forwarding; reset 0 -/
  trained : Bool := false
  /-- 1 bit; R336: fenced; reset 0 -/
  fenced : Bool := false
  /-- 16 bits; R336: failed frames in this matrix cycle; reset 0 -/
  fails : Nat := 0
  /-- 1 bit; R336: the limit was exceeded in the last matrix cycle; reset 0 -/
  exceeded : Bool := false
  /-- 1 bit; R336: the link was down for the whole present matrix cycle; reset 0 -/
  downAll : Bool := false
  /-- 4 bits; R338: next probe sequence; reset 0 -/
  probeSeq : Nat := 0
  /-- 1 bit and 64 bits; R338: t1 of the outstanding probe request; reset none -/
  probeT1 : Option Nat := none
  /-- 2 bits; R338: consecutive unanswered requests; reset 0 -/
  unanswered : Nat := 0
  /-- ps; R338: delay samples taken; reset empty -/
  samples : List Int := []
  /-- 32 bits; R338: link delay, none before it is measured; reset none -/
  delay : Option Nat := none
  /-- 16 bits; R340: partner's NodeID from its probe frames; reset 0 -/
  partner : Nat := 0
  /-- 64 bits, ns; R325, R330: NT until which forwarded frames occupy the port, with their idle time; reset 0 -/
  busy : Nat := 0
  /-- 1,536 bytes; R325, R330: a forwarded frame is in the port buffer until the NT at which it begins to leave; reset none -/
  buffered : Option Nat := none
  /-- 12 × 16 bits saturating; R306: discarded frames by cause: FCS, destination, length, type, schedule tag, slot, owner, counts, arrival
  time, window, NodeID, after the eighth coldstart frame; reset 0 -/
  causes : List Nat := List.replicate 12 0
  deriving DecidableEq, Repr, Inhabited

/-- A frame in the arbitrating transmit queue (R330): kind 1 Keyway PDU, 2 host frame, 3 spare claim,
4 credit only, 5 delay; session, destination (none for a broadcast), sequence number, data. -/
structure ArbTx where
  kind : Nat := 2
  session : Nat := 0
  dest : Option Nat := none
  chan : Nat := 0
  fseq : Nat := 0
  data : List Byte := []
  deriving DecidableEq, Repr, Inhabited

/-- Credit counts of one session and destination (R331). -/
structure Credit where
  session : Nat := 0
  node : Nat := 0
  sent : Nat := 0
  released : Nat := 0
  owed : Nat := 0
  /-- 8 bits; R331: the count of released frames that was sent last; reset 0 -/
  told : Nat := 0
  deriving DecidableEq, Repr, Inhabited

/-- A received host frame that waits (R334). -/
structure HostFrame where
  node : Nat := 0
  chan : Nat := 0
  fseq : Nat := 0
  data : List Byte := []
  deriving DecidableEq, Repr, Inhabited

/-- A frame that the lane sends on a port in the present basic cycle: the NT of its first bit in ns, and its bytes from the
destination address to the FCS (R304, R308). -/
structure SentFrame where
  port : Nat := 0
  at_ : Int := 0
  bytes : List Byte := []
  deriving DecidableEq, Repr, Inhabited

/-- The Ocgal unit of one lane. -/
structure Ocgal where
  /-- 3 bits; R316: phase; reset DOWN -/
  phase : NetPhase := .down
  /-- 4 ports; R336: A.U, A.D, B.U, B.D; reset down -/
  ports : List NetPort := [{}, {}, {}, {}]
  /-- 6 bits; R307: basic-cycle counter; reset 0 -/
  counter : Nat := 0
  /-- 32 bits; R307: matrix cycle count; reset 0 -/
  matrix : Nat := 0
  /-- 1 bit; R317: startup requested; reset 0 -/
  requested : Bool := false
  /-- 64 bits, ns; R308: NT of the start of the present basic cycle; reset 0 -/
  start : Nat := 0
  /-- 16 bits; R318: basic cycles since the start instant; reset 0 -/
  waited : Nat := 0
  /-- 1 bit; R318: a valid coldstart or sync frame has been received since then; reset 0 -/
  heard : Bool := false
  /-- 4 bits; R318: coldstart frames sent; reset 0 -/
  coldFrames : Nat := 0
  /-- 1 bit; R316, R345: the lane is the time reference of its plane; reset 0 -/
  isRef : Bool := false
  /-- 6, 32 and 64 bits; R319: counter, matrix count and arrival NT of the last valid coldstart or sync frame; reset none -/
  lastSync : Option (Nat × Nat × Nat) := none
  /-- 8 bits; R319: basic cycles since integration; reset 0 -/
  integrated : Nat := 0
  /-- 8 bits; R323: consecutive cycles without a valid frame; reset 0 -/
  silent : Nat := 0
  /-- 1 bit; R28: a valid frame was received since the previous S; reset 0 -/
  frameSeen : Bool := false
  /-- 1 bit; R323: a valid frame was received in this cycle; reset 0 -/
  cycleSeen : Bool := false
  /-- 1 bit; R322: own frames carry the leaving flag; reset 0 -/
  leaving : Bool := false
  /-- 32 bits; R308: line delays to head and tail on A and B, ps, none while not valid; reset none -/
  lineDelays : Option (Nat × Nat × Nat × Nat) := none
  /-- 2 × 8 bits; R302: position on A and on B; reset 0 -/
  posA : Nat := 0
  posB : Nat := 0
  /-- data; R342: delay data held for channel A and channel B; reset empty -/
  chainA : List DelayData := []
  chainB : List DelayData := []
  /-- 4 × 32 bits and counts; R339: sums and counts of forwarding samples A U-D, A D-U, B U-D, B D-U; reset empty -/
  fwd : List (Nat × Nat) := [(0, 0), (0, 0), (0, 0), (0, 0)]
  /-- 64 frames; R328, R330: arbitrating transmit queue; reset empty -/
  txq : List ArbTx := []
  /-- counts; R331: credits; reset empty -/
  credits : List Credit := []
  /-- 16 frames; R334: received host frames; reset empty -/
  host : List HostFrame := []
  /-- counts; R334: host frames dropped; reset 0 -/
  hostDropped : Nat := 0
  /-- 16 bits saturating; R334: frames failed since boot; reset 0 -/
  failed : Nat := 0
  /-- counts; R303: frames with another EtherType; reset 0 -/
  foreign : Nat := 0
  /-- 16 bits saturating; R334: slots missed or empty since boot; reset 0 -/
  missed : Nat := 0
  /-- counts; R306: last arbitrating sequence number by source; reset empty -/
  lastSeq : List (Nat × Nat) := []
  /-- frames; R308, R330: frames that the lane sends in the present basic cycle; reset empty -/
  out : List SentFrame := []
  /-- frames; R330: copies of arbitrating frames that a port could not send in the last window; reset empty -/
  waiting : List SentFrame := []
  /-- counts; R332: broadcast frames dropped because the receive area was full; reset 0 -/
  bcDropped : Nat := 0
  /-- frames; R303: number of frames forwarded since the start instant; reset 0 -/
  forwarded : Nat := 0
  /-- 1 bit; R77: frame mover frozen to the end of the matrix cycle; reset 0 -/
  moverFrozen : Bool := false
  /-- 32 bits; R77: matrix cycle of the last frame mover violation; reset none -/
  moverViol : Option Nat := none
  /-- 8 bits; R351: consecutive sync windows without a valid sync frame; reset 0 -/
  syncMissed : Nat := 0
  /-- 1 bit; R351: the lane is a candidate for the time reference; reset 0 -/
  candidate : Bool := false
  /-- 1 bit; R343: its next sync frame is the first of a new reference; reset 0 -/
  firstSync : Bool := false
  /-- 4 and 16 bits; R346: rank and NodeID of the reference followed; reset 0 -/
  refRank : Nat := 0
  refNode : Nat := 0
  /-- 8 and 4 bits; R343: time class and bridge hops of the reference; reset 0 -/
  refClass : Nat := 0
  refHops : Nat := 0
  /-- 2 bits; R341: a delay frame of a lane in INTEGRATE was heard on channel A, on channel B in the last cycle; reset 0 -/
  delayAsked : Mask := 0
  /-- 1 bit; R322: the frames of one basic cycle have carried the leaving flag; reset 0 -/
  left : Bool := false
  /-- 1 bit; R351: the reference's last sync frame carried the leaving flag; reset 0 -/
  refLeft : Bool := false
  /-- 1 bit; R343: the reference is in holdover; reset 0 -/
  refHold : Bool := false
  /-- payloads; R329, R321: payload current for each own slot with its age in basic cycles; reset empty -/
  ownTx : List (Nat × List Byte × Nat) := []
  /-- 7 bits; R324: basic cycles that the lane still waits before it coldstarts again; reset 0 -/
  restartWait : Nat := 0
  deriving DecidableEq, Repr, Inhabited

/-- The time states of R345. -/
inductive TimeState where
  | free | acquiring | synced | holdover | lane | reference
  deriving DecidableEq, Repr, Inhabited

/-- The clock of one lane (chapter 13). -/
structure Clock where
  /-- 1 bit; R337, R553: the timebase runs; reset 0 -/
  running : Bool := false
  /-- 64 bits; R7, R553: NT in ns; reset 0 -/
  nt : Nat := 0
  /-- 32 bits; R337: fraction of NT in 2^-32 ns; reset 0 -/
  frac : Nat := 0
  /-- signed, resolution 2^-32; R337: rate correction c; reset 0 -/
  rate : Int := 0
  /-- 3 bits; R345: time state; reset FREE -/
  tstate : TimeState := .free
  /-- ns signed; R344: last offset o(k-1), none after a step or a cycle without a frame; reset none -/
  lastOff : Option Int := none
  /-- 5 bits; R345: consecutive cycles within TIME.SYNC_TOL; reset 0 -/
  inTol : Nat := 0
  /-- 3 bits; R345: consecutive cycles beyond TIME.SYNC_TOL while SYNCED; reset 0 -/
  outTol : Nat := 0
  /-- 4 bits; R344: consecutive cycles with c beyond the clip; reset 0 -/
  clipRun : Nat := 0
  /-- 1 bit; R352: holdover beyond TIME.HOLDOVER_MAX; reset 0 -/
  overHold : Bool := false
  /-- 13 bits; R352: matrix cycles in HOLDOVER; reset 0 -/
  holdFor : Nat := 0
  /-- 4 bits; R347: consecutive periods beyond TIME.LANE_TOL; reset 0 -/
  laneTol : Nat := 0
  /-- 1 bit; R345: a valid coldstart or sync frame was received in this cycle; reset 0 -/
  gotSync : Bool := false
  deriving DecidableEq, Repr, Inhabited

/-! ### Check-value units (chapter 15) -/

/-- The part of a unit's configuration that a running check has latched (R392). -/
structure CvLatch where
  cfg : BitVec 32 := 0
  poly : BitVec 64 := 0
  init : BitVec 64 := 0
  xorout : BitVec 64 := 0
  deriving DecidableEq, Repr, Inhabited

/-- One check-value unit (R391). -/
structure CvUnit where
  /-- 32 bits; R392: CV_CFG; reset 0 DESIGN CHOICE 0 (log 9) -/
  cfg : BitVec 32 := 0
  /-- 64 bits; R391: CV_POLY; reset 0 DESIGN CHOICE 0 (log 9) -/
  poly : BitVec 64 := 0
  /-- 64 bits; R391: CV_INIT; reset 0 DESIGN CHOICE 0 (log 9) -/
  init : BitVec 64 := 0
  /-- 64 bits; R391: CV_XOROUT; reset 0 DESIGN CHOICE 0 (log 9) -/
  xorout : BitVec 64 := 0
  /-- 64 bits; R393: CV_STATE; reset 0 DESIGN CHOICE 0 (log 9) -/
  state : BitVec 64 := 0
  /-- 64 bits; R396: value given by the last read of CV_RESULT; reset 0 DESIGN CHOICE 0 (log 9) -/
  readOut : BitVec 64 := 0
  /-- 64 bits; R397: CV_EXPECT; reset 0 DESIGN CHOICE 0 (log 9) -/
  expect : BitVec 64 := 0
  /-- 64 bits; R397: CV_INJECT; reset 0 DESIGN CHOICE 0 (log 9) -/
  inject : BitVec 64 := 0
  /-- 32 bits; R390: CV_SRC; reset 0 DESIGN CHOICE 0 (log 9) -/
  src : BitVec 32 := 0
  /-- 32 bits; R390: CV_LEN; reset 0 DESIGN CHOICE 0 (log 9) -/
  len : BitVec 32 := 0
  /-- 8 bits; R396: CV_ALIVE; reset 0 DESIGN CHOICE 0 (log 9) -/
  alive : BitVec 8 := 0
  /-- configuration; R392: latched configuration; reset 0 DESIGN CHOICE 0 (log 9) -/
  lat : CvLatch := {}
  /-- 1 bit; R390: a memory feed runs; reset 0 -/
  busy : Bool := false
  /-- 1 bit; R392: a check has been started and not ended; reset 0 -/
  started : Bool := false
  /-- 1 bit; R392: configuration-error flag; reset 0 -/
  cfgErr : Bool := false
  /-- 1 bit; R390: read-error flag; reset 0 -/
  readErr : Bool := false
  /-- 1 bit; R400: fenced; reset 0 -/
  fenced : Bool := false
  /-- items; R390: register feeds that wait for the memory feed's end; reset empty -/
  waiting : List (BitVec 128) := []
  /-- 32 bits saturating; R402: tests run; reset 0 -/
  run : Nat := 0
  /-- 16 bits saturating; R402: tests failed; reset 0 -/
  failed : Nat := 0
  /-- 16 bits saturating; R402: tests abandoned; reset 0 -/
  abandoned : Nat := 0
  /-- 32 bits; R400: matrix cycle of the last failed test; reset none -/
  lastFail : Option Nat := none
  /-- 1 bit; R445: CV_INJECT is set during the next test; reset 0 -/
  injectNext : Bool := false
  deriving DecidableEq, Repr, Inhabited

/-! ### Safety inputs and outputs of a lane (chapter 16) -/

/-- The safety inputs and outputs of one lane. -/
structure LaneSio where
  /-- 8 bits; R407: filtered levels of SI0 to SI7; reset 0 DESIGN CHOICE 0 (log 10) -/
  si : Mask := 0
  /-- 8 bits; R407: newest stable levels at the filter, taken when the hold ends; reset 0 DESIGN CHOICE 0 (log 10) -/
  siNext : Mask := 0
  /-- 1 bit; R407: the filtered levels hold through a pulse and its recovery; reset 0 -/
  hold : Bool := false
  /-- 2 bits; R406: TP0 and TP1 are on; reset 0 -/
  tpOn : Mask := 0
  /-- 2 bits; R406: the supply is in its pulse; reset 0 -/
  tpPulse : Mask := 0
  /-- 2 bits; R409: fenced supplies; reset 0 -/
  tpFenced : Mask := 0
  /-- 8 bits; R409: fenced inputs; reset 0 -/
  siFenced : Mask := 0
  /-- 8 × 5 bits; R409: consecutive failed pulses of each input; reset 0 -/
  siFails : List Nat := [0, 0, 0, 0, 0, 0, 0, 0]
  /-- 4 bits; R411: states in force of SO0 to SO3; reset 0 -/
  soOn : Mask := 0
  /-- 4 bits; R413: command switches latched off by overcurrent; reset 0 -/
  soTrip : Mask := 0
  /-- 4 bits; R416: fenced outputs; reset 0 -/
  soFenced : Mask := 0
  /-- 1 bit; R416: output stage fenced; reset 0 -/
  stageFenced : Bool := false
  /-- 4 × 5 bits; R416: consecutive failures 0x2405 of each output; reset 0 -/
  offFails : List Nat := [0, 0, 0, 0]
  /-- 4 × 5 bits; R416: consecutive failures 0x2407 of each output; reset 0 -/
  highFails : List Nat := [0, 0, 0, 0]
  /-- 4 × 5 bits; R416: consecutive failures 0x2408 of each output; reset 0 -/
  lowFails : List Nat := [0, 0, 0, 0]
  /-- 4 × 5 bits; R416: consecutive failures 0x2409 of each output; reset 0 -/
  openFails : List Nat := [0, 0, 0, 0]
  /-- 5 bits; R416: consecutive failures 0x2406; reset 0 -/
  enableFails : Nat := 0
  /-- 4 bits; R420: read-back levels at S; reset 0 -/
  readBack : Mask := 0
  /-- 1 bit; R410: the enable switch follows the Pintle enable line; reset 0 -/
  enabled : Bool := false
  /-- pulse; R414: the pulse that runs: 0 to 3 off-pulse of SOn, 4 enable pulse, 5 to 8 open-load slot of SO0 to SO3; reset none -/
  offPulse : Option Nat := none
  /-- 16 bits saturating; R420: input test failures; reset 0 -/
  inFailures : Nat := 0
  /-- 16 bits saturating; R420: output test failures; reset 0 -/
  outFailures : Nat := 0
  /-- 16 bits saturating; R420: pulses skipped; reset 0 -/
  skipped : Nat := 0
  /-- 8, 2 and 4 bits; R409, R416: units that passed the last SIO.PULSE_TEST; reset 0 -/
  siPassed : Mask := 0
  tpPassed : Mask := 0
  soPassed : Mask := 0
  /-- 1 bit; R416: the output stage passed the last SIO.PULSE_TEST; reset 0 -/
  stagePassed : Bool := false
  deriving DecidableEq, Repr, Inhabited

/-! ### Startup, power, store and self-test of a lane (chapters 03, 04, 19, 21) -/

/-- Discovery states of R105, with 0 for a lane that is not ready. -/
inductive JoinState where
  | booting | ready | adopting | admitted | refused
  deriving DecidableEq, Repr, Inhabited

/-- Boot and join state of a lane (chapter 04). -/
structure Boot where
  /-- 1 bit; R102: power-good; reset 0 -/
  powerGood : Bool := false
  /-- 3 bits; R105: discovery state; reset booting -/
  state : JoinState := .booting
  /-- 1 bit; R10: fenced; reset 0 -/
  fenced : Bool := false
  /-- 16 bits; R432: cause code of the fence; reset 0 -/
  fenceCode : Nat := 0
  /-- 1 bit; R11: the fault that fenced the lane is in its network unit; reset 0 -/
  fenceNet : Bool := false
  /-- 1 bit; R432: halted by a fence of its own; reset 0 -/
  halted : Bool := false
  /-- 1 bit; R110: the remaining formation wait runs; reset 0 -/
  waitRuns : Bool := false
  /-- ns; R110: remaining formation wait; reset 0 -/
  wait : Nat := 0
  /-- records; R107: last valid discovery records of the other lanes; reset none -/
  seen : Tri (Option DiscRec) := ⟨none, none, none⟩
  /-- record; R105: discovery record sent last; reset none -/
  sent : Option DiscRec := none
  /-- 64 bits; R94, R103: check value computed by the lane at boot; reset 0 DESIGN CHOICE 0 (log 16) -/
  check : Nat := 0
  /-- 1 bit; R109: the lane has adopted once; reset 0 -/
  adopted : Bool := false
  /-- 1 bit; R108: the difference is the firmware; reset 0 -/
  adoptFw : Bool := false
  /-- 2 bits; R108: lane adopted from; reset none -/
  adoptFrom : Option LaneId := none
  /-- 1 bit; R110: acknowledged the last formation record; reset 0 -/
  acked : Bool := false
  /-- 1 bit; R442: a readmission restart waits for its acknowledgement; reset 0 -/
  restartSent : Bool := false
  /-- 1 bit; R442: the lane was restarted for readmission; reset 0 -/
  readmitting : Bool := false
  /-- 4 bits; R442: acknowledged readmissions since the device last powered up; reset 0 -/
  readmits : Nat := 0
  /-- 1 bit; R115: a late ready lane waits to join; reset 0 -/
  waiting : Bool := false
  /-- 3 bits; R102 to R104, R534: link training ended etc. is in the ports; the boot step reached; reset 0 -/
  step : Nat := 0
  deriving DecidableEq, Repr, Inhabited

/-- One stored image copy (R83): usable, sequence number, CRC-32C of its trailer, entries, schedule bytes, tables. -/
structure ImageCopy where
  empty : Bool := true
  wellFormed : Bool := false
  seq : Nat := 0
  crc : Nat := 0
  check : Nat := 0
  entries : List (Nat × Int) := []
  sched : List Byte := []
  tab0 : List (Nat × Nat) := []
  tab1 : List (Nat × Nat) := []
  /-- the entry quads as they were written, empty for an image built from a working set (R89) -/
  quads : List Byte := []
  deriving DecidableEq, Repr, Inhabited

/-- One commissioning slot (R95): confirmed value and count; none when not valid. -/
structure ConfirmSlot where
  value : Nat := 0
  count : Nat := 0
  deriving DecidableEq, Repr, Inhabited

/-- One HOLD record slot (R460). -/
structure HoldSlot where
  hold : Bool := false
  cause : Nat := 0
  count : Nat := 0
  deriving DecidableEq, Repr, Inhabited

/-- An entry of the repair log (R502). -/
structure RepairEntry where
  kind : Nat := 1
  region : Nat := 0
  bank : Nat := 0
  addr : Nat := 0
  bit : Nat := 0
  foundBy : Nat := 1
  fused : Bool := false
  spare : Nat := 0
  deriving DecidableEq, Repr, Inhabited

/-- The NVM of a lane (R88), with its one-time fuses. -/
structure Nvm where
  /-- 2 × 1.5 MB; R99: firmware banks; reset DESIGN CHOICE bank 0 holds the firmware as delivered, version 1, bank 1 nothing (log 11) -/
  bank0 : BankState := { delivered := true, version := 1, security := 0, digest := 0 }
  bank1 : BankState := {}
  /-- 1 bit; R100: bank marked to boot from; reset 0 DESIGN CHOICE bank 0 (log 11) -/
  marked : Nat := 0
  /-- 1 bit; R101: bank booted; reset 0 DESIGN CHOICE bank 0 (log 11) -/
  booted : Nat := 0
  /-- 32 bits fuse; R101: minimum security version; reset 0 DESIGN CHOICE 0 (log 11) -/
  minSecurity : Nat := 0
  /-- 4 bits fuse; R100: revoked keys; reset 0 DESIGN CHOICE 0 (log 11) -/
  revoked : Mask := 0
  /-- 2 × 256 KB; R83: image copies A and B; reset empty (R92) -/
  copyA : ImageCopy := {}
  copyB : ImageCopy := {}
  /-- 8 bits; R92: copy selected, 0 A, 1 B; reset none -/
  selected : Option Nat := none
  /-- 2 quads; R95: commissioning slots; reset none DESIGN CHOICE invalid (log 11) -/
  slot0 : Option ConfirmSlot := none
  slot1 : Option ConfirmSlot := none
  /-- 2 quads; R460: HOLD record slots; reset none DESIGN CHOICE invalid (log 11) -/
  hold0 : Option HoldSlot := none
  hold1 : Option HoldSlot := none
  /-- 255 quads; R502: repair log entries; reset empty DESIGN CHOICE empty (log 11) -/
  log : List RepairEntry := []
  /-- 1 bit; R503: quad 0 of the log is valid; reset 1 DESIGN CHOICE valid (log 11) -/
  logOk : Bool := true
  /-- 48 entries; R506: fuse entries programmed; reset empty DESIGN CHOICE none (log 11) -/
  fuses : List RepairEntry := []
  deriving DecidableEq, Repr, Inhabited

/-- A lane's store and write work in progress (R90, R95, R100). -/
structure StoreWork where
  /-- 1 bit; R90: the lane takes part in a store; reset 0 -/
  storing : Bool := false
  /-- 1 bit; R90: the lane has committed; reset 0 -/
  committed : Bool := false
  /-- 1 bit; R95: the commissioning slot write runs; reset 0 -/
  confirming : Bool := false
  deriving DecidableEq, Repr, Inhabited

/-- The wake record (R484). -/
structure WakeRecord where
  src : Nat := 1
  inst : Nat := 0
  left : Nat := 4
  entered : Nat := 1
  cycles : Nat := 0
  time : Nat := 0
  deriving DecidableEq, Repr, Inhabited

/-- Power state of a lane's domains (R469). -/
structure LanePower where
  /-- 1 bit; R469: lane.CORE on; reset 0 -/
  core : Bool := false
  /-- 2 bits; R469: lane.MEM, 0 off, 1 retention, 2 on; reset 0 -/
  mem : Nat := 0
  /-- 1 bit; R469: lane.NET on; reset 0 -/
  net : Bool := false
  /-- 1 bit; R469: lane.DRIVE on; reset 0 -/
  drive : Bool := false
  /-- 1 bit; R481: output pads latched; reset 0 -/
  pads : Bool := false
  /-- 8 and 8 bits; R478: latched wake source and its number; reset none -/
  wake : Option (Nat × Nat) := none
  /-- quads; R484: wake record; reset source 1 -/
  record : WakeRecord := {}
  /-- 8 bits; R482: SI levels at entry; reset 0 -/
  glideSi : Mask := 0
  /-- 24 bits; R482: previous A, B, Z states of each watched channel; reset none -/
  glideFb : Option (List Nat) := none
  /-- 32 bits saturating; R484: Glide cycles completed; reset 0 -/
  cycles : Nat := 0
  /-- 1 bit; R483: waking, from the wake event to WAKE_DONE; reset 0 -/
  waking : Bool := false
  deriving DecidableEq, Repr, Inhabited

/-- Self-test and repair of a lane (chapter 21). -/
structure Bist where
  /-- 3 bits; R508: phase, 0 none; reset 0 -/
  phase : Nat := 0
  /-- 1 bit; R498: logic BIST has failed once; reset 0 -/
  repeated : Bool := false
  /-- 1 bit; R77: engine frozen; reset 0 -/
  frozen : Bool := false
  /-- counts; R77: refused starts; reset 0 -/
  refused : Nat := 0
  /-- 1 bit; R507: the lane is due; reset 0 -/
  due : Bool := false
  /-- ns; R507: time in RUN or IDLE since the last completed stand-down; reset 0 -/
  elapsed : Nat := 0
  /-- 1 bit; R507: 0x3402 was recorded for this wait; reset 0 -/
  deferred : Bool := false
  /-- 1 bit; R513: the running stand-down was requested; reset 0 -/
  requested : Bool := false
  /-- 3 bits; R513: outcome; reset 0 none -/
  outcome : Nat := 0
  /-- 3 bits; R513: last phase reached; reset 0 -/
  lastPhase : Nat := 0
  /-- cells; R513: failing cells that memory BIST reported, with their action; reset empty -/
  cells : List (FailCell × Nat) := []
  /-- 32 bits; R513: stand-downs completed; reset 0 -/
  completed : Nat := 0
  /-- 64 bits; R513: NT at the end; reset 0 -/
  endNt : Nat := 0
  /-- 128 bits; R498: last logic BIST signature; reset 0 -/
  signature : Nat := 0
  /-- regions; R505: fenced regions; reset empty -/
  regions : List Nat := []
  /-- counts; R504: corrections by region and quad since the last boot; reset empty -/
  ecc : List ((Nat × Nat) × Nat) := []
  /-- 1 bit; R506: fuse programming runs; reset 0 -/
  fusing : Bool := false
  deriving DecidableEq, Repr, Inhabited

/-- One lane die. -/
structure Lane where
  boot : Boot := {}
  power : LanePower := {}
  clock : Clock := {}
  nvm : Nvm := {}
  work : StoreWork := {}
  fault : Collector := {}
  /-- 8 channels; chapter 07; reset each channel's -/
  fb : List FbChan := List.replicate 8 {}
  /-- 16 bits, mV; R203: latest bus measurement; reset 0 DESIGN CHOICE 0 (log 6) -/
  vbr : Nat := 0
  round : Round := {}
  /-- items; R126: items received by the lane and not yet in a vector; reset empty -/
  arriving : List Arriving := []
  /-- counts; R125, R127: arrivals and ends of streaming so far, which give each its place; reset 0 -/
  streamOrd : Nat := 0
  /-- 8 bits; R125: next index of the stream buffer; reset 0 -/
  streamQuad : Nat := 0
  chk : Chk := {}
  /-- 4 engines; R194: MB0, MB1, BM0, BM1; reset each engine's -/
  engines : List Engine := List.replicate 4 {}
  /-- 6 channels; R257, R262: ST0 to ST5; reset each channel's -/
  stp : List StpDrive := List.replicate 6 {}
  /-- 6 legs; R225; reset each leg's -/
  legs : List LegSt := List.replicate 6 {}
  /-- 2 targets; R242: MB0, MB1; reset each target's -/
  targets : List Target := [{}, {}]
  net : Ocgal := {}
  /-- 4 units; R391; reset each unit's -/
  cv : List CvUnit := [{}, {}, {}, {}]
  sio : LaneSio := {}
  bist : Bist := {}
  /-- packets; R63: replies and events waiting to cross the barrier, oldest first; reset empty -/
  txq : List OutPacket := []
  /-- report; R121: last report received from the Pintle die; reset none -/
  report : Option PintleIn := none
  /-- bits and faults; R121: what came with that report; reset zero -/
  reportBits : ReportBits := {}
  /-- 3 bits each; R433: silent marks and fence notices held, by partner; reset 0 -/
  silent : Mask := 0
  notices : Mask := 0
  /-- counts; R433: control period in which each silence mark was first set; reset 0 -/
  silentAt : Tri Nat := ⟨0, 0, 0⟩
  /-- units; R429: units fenced on the lane's own detection, not yet in its lane status; reset empty -/
  fencedNow : List (Nat × Nat) := []
  /-- 5 × 8 bits; R487: consecutive broken periods of the three die sensors and two NTC inputs; reset 0 -/
  sensorBad : List Nat := [0, 0, 0, 0, 0]
  /-- counts, 16 bits saturating; R369, R384: PDUs of each session that failed the lane's checks; reset empty -/
  keyFails : List (Nat × Nat) := []
  /-- sessions; R369: those with 0x2201 recorded by the lane in this matrix cycle; reset empty -/
  keyNoted : List Nat := []
  deriving DecidableEq, Repr, Inhabited

/-! ### Lane links (chapter 01) -/

/-- The traffic of a lane link in the order of its priorities 1 to 6 (R12). -/
inductive Traffic where
  | vectors | signatures | claims | mirror | relayed | background
  deriving DecidableEq, Repr, Inhabited

/-- One transfer that waits on a lane link (R12): its traffic, the quads still to be served, the lane it is for, and whether it
is the repetition of one that failed (R13). -/
structure LinkXfer where
  traffic : Traffic := .background
  quads : Nat := 1
  size : Nat := 1
  dest : LaneId := .a
  again : Bool := false
  deriving DecidableEq, Repr, Inhabited

/-- One direction of a lane link. -/
structure LinkDir where
  /-- transfers; R12: transfers that wait, oldest first; reset empty -/
  waiting : List LinkXfer := []
  /-- 6 bits, ns; R12: time since the last quad boundary, a quad taking 64 ns at 2 Gbit/s; reset 0 -/
  phase : Nat := 0
  /-- transfer; R13: the transfer served last; reset none -/
  last : Option LinkXfer := none
  deriving DecidableEq, Repr, Inhabited

/-- One lane link (R13, R14). -/
structure LaneLink where
  /-- direction; R12: traffic from the first lane of the link's name to the second; reset empty -/
  out : LinkDir := {}
  /-- direction; R12: traffic from the second lane to the first; reset empty -/
  back : LinkDir := {}
  /-- 1 bit; R13: fenced; reset 0 -/
  fenced : Bool := false
  /-- 1 bit; R13: a transfer failed in this period; reset 0 -/
  failedNow : Bool := false
  /-- 1 bit; R13: a transfer failed in the previous period; reset 0 -/
  failedLast : Bool := false
  deriving DecidableEq, Repr, Inhabited

/-! ### The Pintle die (chapters 01, 09, 10, 18) -/

/-- A claim vector as received (R18): three claim numbers, readmit mask, count. -/
structure ClaimVec where
  nums : Tri Nat := ⟨0, 0, 0⟩
  readmit : Mask := 0
  count : Nat := 0
  deriving DecidableEq, Repr, Inhabited

/-- A status packet of R462. -/
structure StatusPacket where
  disarm : Bool := true
  homed : Mask := 0
  count : Nat := 0
  tableCrc : Nat := 0
  xs : List (Int × Int) := []
  deriving DecidableEq, Repr, Inhabited

/-- What the Pintle die holds for one lane. -/
structure PLane where
  /-- 1 bit; R19: the lane presents; reset 0 -/
  presents : Bool := false
  /-- vector; R18: last valid claim vector; reset none -/
  vec : Option ClaimVec := none
  /-- vector; R18: vector received and not yet in effect; reset none -/
  next : Option ClaimVec := none
  /-- 1 bit; R31: barred; reset 0 -/
  barred : Bool := false
  /-- 2 bits; R497: periods for which the voted entry has had role 0; reset 0 -/
  role0 : Nat := 0
  /-- 1 bit; R497: stand-down permit line; reset 0 -/
  permit : Bool := false
  /-- 1 bit; R410: enable line asserted; reset 0 -/
  enable : Bool := false
  /-- 1 bit; R248: both paths from the lane failed; reset 0 -/
  pathFailed : Bool := false
  /-- 30 bits; R247: failed lines; reset 0 -/
  failedLines : List Nat := []
  /-- 30 × 5 bits; R247: consecutive deviating PWM periods by line; reset 0 -/
  deviations : List Nat := List.replicate 30 0
  /-- 1 bit; R246: 0x110B was recorded in this control period; reset 0 -/
  devRecorded : Bool := false
  /-- legs; R246: lines that have deviated in the present PWM period; reset empty -/
  devNow : List Nat := []
  /-- packets; R245: last valid packet by output with its period index; reset none -/
  packets : List (Option (Nat × Fallback)) := List.replicate 8 none
  /-- packets; R245: valid packet by output for the coming PWM period; reset none -/
  coming : List (Option Fallback) := List.replicate 8 none
  /-- 8 × 1 bit; R248: a packet valid for the coming PWM period of an output has arrived; reset 0 -/
  got : List Bool := List.replicate 8 false
  /-- 8 × 5 bits; R248: consecutive PWM periods of an output without a valid packet; reset 0 -/
  missing : List Nat := List.replicate 8 0
  /-- packet; R462: last valid status packet; reset none -/
  status : Option StatusPacket := none
  /-- 1 bit; R248: a packet with a matching CRC arrived in this control period; reset 0 -/
  heard : Bool := false
  /-- 2 bits; R248: control periods without such a packet; reset 0 -/
  unheard : Nat := 0
  /-- count; R428: how many of the die's faults the reports to the lane have carried; reset 0 -/
  told : Nat := 0
  deriving DecidableEq, Repr, Inhabited

/-- What the Pintle die holds for one claimed output. -/
structure POut where
  /-- pattern; R34: pattern of the last PWM period that passed; reset off -/
  lastPassed : Fallback := {}
  /-- pattern; R33: pattern applied in the present PWM period; reset off -/
  driven : Fallback := {}
  /-- 1 bit; R34: the output repeats its last passed pattern after a hand-over; reset 0 -/
  gap : Bool := false
  /-- 2 bits; R34: PWM periods repeated so far; reset 0 -/
  gapPeriods : Nat := 0
  /-- 1 bit; R34: the present PWM period follows the limit of a gap; reset 0 -/
  limit : Bool := false
  /-- 16 bits; R245: index of the present PWM period within the control period; reset 0 -/
  index : Nat := 0
  /-- 1 bit; R235: fenced, all gates off; reset 0 -/
  fenced : Bool := false
  /-- 5 bits; R258: mixed-decay fraction q of coil A and coil B in sixteenths; reset 4 -/
  qA : Nat := 4
  qB : Nat := 4
  /-- 2 bits; R33, R34: lane whose pattern the present PWM period drives, none for a repetition or off; reset none -/
  by_ : Option LaneId := none
  /-- 1 bit; R33: that lane's valid fallback packet for the period has arrived; reset 0 -/
  hasPacket : Bool := false
  /-- 32 bits signed; R463: position of the last pattern that passed; reset 0 -/
  lastPos : Int := 0
  /-- 2 bits; R268: consecutive full steps judged as stalled; reset 0 -/
  stallSteps : Nat := 0
  /-- 1 bit; R268: stall flag; reset 0 -/
  stall : Bool := false
  /-- speed and parameters; R268: what the holder sent last for the stall estimate; reset none -/
  stallPar : Option StallPar := none
  /-- 2 × 14 bits signed, mA; R268: coil currents at the last boundary; reset 0 DESIGN CHOICE 0 (log 6) -/
  coilEnd : Int × Int := (0, 0)
  /-- sums; R268: estimated back-EMF of both coils in mV over the full step, and its PWM periods; reset 0 -/
  emf : Int × Int := (0, 0)
  emfs : Nat := 0
  /-- sum; R268: commanded positions of those periods; reset 0 -/
  posSum : Int := 0
  /-- 1 bit; R268: the full step contains a claim gap or a mode change, or began before the first period seen; reset 1 -/
  spoiled : Bool := true
  deriving DecidableEq, Repr, Inhabited

/-- One channel of the running Deadbolt (R463). -/
structure DbChan where
  /-- 2 bits; R463: SNP.DB_MODE; 0 for a channel whose table is bad -/
  mode : Nat := 0
  /-- 32 bits signed; R463: end of the move -/
  target : Int := 0
  /-- 16 bits, mA; R463: SNP.DB_I -/
  amp : Nat := 0
  /-- 32 bits, microsteps/s; R463: SNP.DB_SPEED -/
  speed : Int := 0
  /-- ns; R462: PWM period -/
  pwm : Nat := 0
  /-- 64 bits signed, 2^-16 microstep; R463: position -/
  x : Int := 0
  /-- 32 bits signed, microsteps/s; R463: velocity -/
  v : Int := 0
  /-- remainder and braking of the trapezoidal move, as a stepper profile has them -/
  rem : Int := 0
  braking : Bool := false
  deriving DecidableEq, Repr, Inhabited

/-- The Pintle die. -/
structure Pintle where
  /-- 1 bit; R19: Pintle logic powered; reset 0 -/
  powered : Bool := false
  /-- 1 bit; R17: die fenced; reset 0 -/
  fenced : Bool := false
  /-- 3 bits; R17: replica fenced; reset 0 -/
  replicaFenced : Tri Bool := ⟨false, false, false⟩
  /-- 64 bits; R17: NT of the last disagreement of each replica; reset none -/
  replicaNt : Tri (Option Nat) := ⟨none, none, none⟩
  lanes : Tri PLane := ⟨{}, {}, {}⟩
  /-- 3 × 8 bits; R30: voted claim numbers; reset 0 -/
  voted : Tri Nat := ⟨0, 0, 0⟩
  /-- 2 bits; R32: holder; reset none -/
  holder : Option LaneId := none
  /-- 2 bits; R36: last holder; reset none -/
  lastHolder : Option LaneId := none
  /-- 1 bit; R36: a claim has been accepted since power-up; reset 0 -/
  accepted : Bool := false
  /-- 8 outputs; R35: ST0 to ST5, BM0, BM1; reset each output's -/
  outs : List POut := List.replicate 8 {}
  /-- 30 legs; R225; reset each leg's -/
  legs : List LegSt := List.replicate 30 {}
  /-- 8 targets; R242: BM0, BM1, ST0 to ST5; reset each target's -/
  targets : List Target := List.replicate 8 {}
  /-- 128 bytes; R462: Deadbolt table, none before a valid one; reset none -/
  table : Option (List Byte) := none
  /-- 1 bit; R36: Deadbolt armed; reset 0 -/
  armed : Bool := false
  /-- 1 bit; R36: Deadbolt holds the claimed outputs; reset 0 -/
  holding : Bool := false
  /-- 8 channels; R463: Deadbolt moves; reset empty -/
  db : List DbChan := []
  /-- 1 bit; R481: gate pads latched; reset 0 -/
  pads : Bool := false
  /-- 1 bit; R469: PINTLE.DRIVE on; reset 0 -/
  drive : Bool := false
  /-- faults; R428: codes to be reported to the lanes (code, unit type, unit number); reset empty -/
  faults : List (Nat × Nat × Nat) := []
  deriving DecidableEq, Repr, Inhabited

/-! ### Data held in agreement by the lanes in authority -/

/-- Host link state in agreement (R60, R77, R156). -/
structure HostLink where
  /-- 1 bit; R60: synchronised; reset 0 -/
  synced : Bool := false
  /-- 32 bits; R60: expected sequence number; reset 0 -/
  expected : Nat := 0
  /-- 32 bits; R60: CRC-32C of the last executed packet; reset none -/
  lastCrc : Option Nat := none
  /-- packets; R60: last reply; reset none -/
  lastReply : Option OutPacket := none
  /-- tags; R61: tags of pending operations; reset empty -/
  tags : List Byte := []
  /-- 1 bit; R77: frozen; reset 0 -/
  frozen : Bool := false
  /-- 3 bits; R77: consecutive packets answered SEQ_ERROR; reset 0 -/
  seqErrors : Nat := 0
  /-- 32 bits; R80: expected number set by HOST.LINK_SYNC during the freeze; reset none -/
  freezeSync : Option Nat := none
  /-- 1 bit; R79: a violation froze the link in the present control period; reset 0 -/
  violatedNow : Bool := false
  /-- 32 bits; R65: event counter; reset 0 -/
  events : Nat := 0
  /-- 8 bits; R71: I/O width to be taken when the reply to a packet of a link and sequence number is queued, or after the checkpoint
  of the period when no reply follows; reset none -/
  newWidth : Option (Nat × Option (LaneId × Nat)) := none
  deriving DecidableEq, Repr, Inhabited

/-- Session states of R362. -/
inductive SesState where
  | free | opening | opened | lost
  deriving DecidableEq, Repr, Inhabited

/-- One Keyway session (R362, R384). -/
structure Session where
  /-- 4 bits; R362: state; reset free -/
  state : SesState := .free
  /-- 4 bits; R362: profile; reset 0 -/
  profile : Nat := 0
  /-- 3 bits; R362: host-link carrier mask; reset 0 -/
  carriers : Mask := 0
  /-- 1 bit; R362: Ocgal carrier; reset 0 -/
  ocgal : Bool := false
  /-- 1 bit; R362: opened by this device; reset 0 -/
  byDevice : Bool := false
  /-- 1 bit; R381: frozen; reset 0 -/
  frozen : Bool := false
  /-- 16 bits; R362: peer ID; reset 0 -/
  peer : Nat := 0
  /-- 32 bits; R362: last agreed sequence number from the peer; reset 0 -/
  rxSeq : Nat := 0
  /-- 32 bits; R362: last sequence number sent by the device; reset 0 -/
  txSeq : Nat := 0
  /-- 8 bits; R362: peer's session number; reset 0 -/
  peerNum : Nat := 0
  /-- 8 bits; R362: epoch; reset 0 -/
  epoch : Nat := 0
  /-- 16 bits saturating; R362: watchdog count; reset 0 -/
  wd : Nat := 0
  /-- 3 × 16 bits saturating; R384: stale PDUs, gaps, violations; reset 0 -/
  stale : Nat := 0
  gaps : Nat := 0
  violations : Nat := 0
  /-- 64 bits; R384: Sn of the last fresh PDU; reset 0 -/
  lastFresh : Nat := 0
  /-- 1 bit; R79: a violation froze the session in the present control period; reset 0 -/
  violatedNow : Bool := false
  /-- 1 bit; R382: an unfreeze waits for the end of the period's session events; reset 0 -/
  unfreezeNow : Bool := false
  /-- 1 bit; R378: the session is freed once the replies of the period are formed; reset 0 -/
  closing : Bool := false
  /-- 1 bit; R383: channel on which the device sends the session's PDUs; reset 0 -/
  chan : Nat := 0
  /-- 1 bit; R372: the period agreed a fresh PDU; reset 0 -/
  freshNow : Bool := false
  /-- 64 bits; R375: time stamp of the device's sequence 0; reset 0 -/
  stamp0 : Nat := 0
  /-- 64 bits; R364: newest PDU sequence and stamp received, for the echo; reset 0 -/
  echoStamp : Nat := 0
  deriving DecidableEq, Repr, Inhabited

/-- A PDU of the device to a peer on Ocgal, with where it goes (R368, R380). -/
structure SessionPdu where
  session : Nat := 0
  peer : Nat := 0
  peerNum : Nat := 0
  chan : Nat := 0
  slot : Nat := 0
  data : List Byte := []
  deriving DecidableEq, Repr, Inhabited

/-- Modes of a loop context (R285). -/
inductive LoopMode where
  | disabled | manual | auto | tracking | stopped | fenced
  deriving DecidableEq, Repr, Inhabited

/-- One loop context (chapter 11). -/
structure Loop where
  /-- 3 bits; R285: mode; reset disabled -/
  mode : LoopMode := .disabled
  /-- Q24.8; R281: integrator; reset 0 -/
  i : Int := 0
  /-- Q24.8; R281: filtered process value; reset 0 -/
  pf : Int := 0
  /-- 24 bits signed; R281: last output; reset 0 -/
  out : Int := 0
  /-- 24 bits signed; R297: setpoint in force; reset 0 -/
  sp : Int := 0
  /-- 24 bits signed; R278: process value; reset 0 -/
  pv : Int := 0
  /-- 24 bits signed; R285: manual value; reset 0 -/
  manual : Int := 0
  /-- 2 bits; R292: held-period count; reset 0 -/
  held : Nat := 0
  /-- 1 bit; R298: output at its high limit; reset 0 -/
  hi : Bool := false
  /-- 1 bit; R298: output at its low limit; reset 0 -/
  lo : Bool := false
  /-- 1 bit; R298: integration inhibited; reset 0 -/
  inhibited : Bool := false
  /-- 1 bit; R298: held in the period; reset 0 -/
  isHeld : Bool := false
  /-- 1 bit; R298: source invalid; reset 0 -/
  badSrc : Bool := false
  /-- 1 bit; R278: process value saturated; reset 0 -/
  pvSat : Bool := false
  /-- 3 bits; R294: fenced in each lane; reset 0 -/
  fenced : Tri Bool := ⟨false, false, false⟩
  /-- 1 bit; R287: the mode changed to automatic in this period; reset 0 -/
  toAuto : Bool := false
  /-- Q24.8; R287: integrator preset of this period; reset none -/
  preset : Option Int := none
  /-- gains; R291: KP, KD, DF of the last computed period; reset none -/
  oldGains : Option (Int × Int × Int) := none
  /-- 24 bits signed; R454: last value given by LOOP.SETPOINT_SET; reset 0 -/
  lastSet : Int := 0
  /-- 7 bits; R373: session that last commanded the setpoint and the mode; reset 0 -/
  spBy : Nat := 0
  modeBy : Nat := 0
  /-- 5 bits; R283: error of the last computed period; reset 0 -/
  err : Int := 0
  deriving DecidableEq, Repr, Inhabited

/-- What a stepper channel does (R274). -/
inductive StpPhase where
  | standing | moving | stopping | homing
  deriving DecidableEq, Repr, Inhabited

/-- One stepper channel (chapter 10). -/
structure Stepper where
  /-- 1 bit; R260: energised; reset 0 -/
  energised : Bool := false
  /-- 1 bit; R260: homed; reset 0 -/
  homed : Bool := false
  /-- 1 bit; R259: strong mode; reset 0 DESIGN CHOICE quiet (log 13) -/
  strong : Bool := false
  /-- 5 bits; R259: control periods since the last change to strong, saturating at 16; reset 16 -/
  strongAge : Nat := 16
  /-- 2 bits; R274: phase; reset standing -/
  phase : StpPhase := .standing
  /-- 64 bits signed, 2^-16 microstep; R261: profile position; reset 0 DESIGN CHOICE 0 (log 13) -/
  x : Int := 0
  /-- 32 bits signed, microsteps/s; R261: profile velocity; reset 0 -/
  v : Int := 0
  /-- 32 bits signed, microsteps/s²; R261: acceleration in force for the S-curve; reset 0 -/
  a : Int := 0
  /-- 32 bits signed; R264: target; reset 0 -/
  target : Int := 0
  /-- 32 bits; R261: velocity and acceleration limits of the MOVE, 0 for the parameters; reset 0 -/
  vLim : Int := 0
  aLim : Int := 0
  /-- 1 bit; R261: S-curve of the running move; reset 0 -/
  scurve : Bool := false
  /-- 1 bit; R261: the deceleration to the target has begun; reset 0 -/
  braking : Bool := false
  /-- 1 bit; R263: quick stop; reset 0 -/
  quick : Bool := false
  /-- 1 bit; R263: de-energise at standstill; reset 0 -/
  deEnergise : Bool := false
  /-- 2 × 32 bits signed; R262: positions x0 and x1; reset 0 -/
  x0 : Int := 0
  x1 : Int := 0
  /-- 16 bits; R262, R354: PWM period after the launch point at which x0 holds, 0 but after a timed launch; reset 0 -/
  j0 : Nat := 0
  /-- 32 bits signed, microsteps/s; R261: velocity at x0; reset 0 -/
  v0 : Int := 0
  /-- 1 bit; R260: the idle delay has passed, hold current; reset 1 -/
  idle : Bool := true
  /-- 3 bits; R265: stage of the homing: 1 seek, 2 slow return, 3 back-off, 4 the way off an active centre switch; reset 0 -/
  homeStage : Nat := 0
  /-- 64 bits; R267: microsteps travelled while homing, in 2^-16; reset 0 -/
  travelled : Int := 0
  /-- 64 bits signed; R269: base of the lost-step check; reset none -/
  lostBase : Option Int := none
  /-- 8 bits; R269: consecutive lost-step deviations; reset 0 -/
  lostCount : Nat := 0
  /-- 3 bits; R271: consecutive coil-current deviations; reset 0 -/
  coilBad : Nat := 0
  /-- 1 bit; R274: stall flag agreed; reset 0 -/
  stall : Bool := false
  /-- 1 bit; R270: the previous move or stop ended in a stall or lost step; reset 0 -/
  lastBad : Bool := false
  /-- 1 bit; R235, R270: output fenced; reset 0 -/
  fenced : Bool := false
  /-- 1 bit; R256: stored table invalid; reset 0 -/
  tableBad : Bool := false
  /-- 2^-16 microstep × 2 × 10^9; R261: remainder of the last division of the position step, carried into the next; reset 0 DESIGN CHOICE 0 (log 13) -/
  rem : Int := 0
  /-- 16 bits, mA; R260, R262: current I_amp of the command; reset 0 -/
  amp : Nat := 0
  /-- 32 bits, mV; R257, R262: VBRa of the command; reset 0 -/
  vbra : Nat := 0
  /-- 16 bits; R259: PWM periods of the control period at the clip limit, and all PWM periods; reset 0 -/
  clips : Nat := 0
  pwms : Nat := 0
  /-- 7 bits; R373: session that last commanded the channel; reset 0 -/
  cmdBy : Nat := 0
  deriving DecidableEq, Repr, Inhabited

/-- Bridge states of R222 at the period level. -/
inductive CmtState where
  | disabled | tracking | aligning | switching | freewheel | short | fenced
  deriving DecidableEq, Repr, Inhabited

/-- One winding set of a motor (MB0, MB1: one per lane; BM0, BM1: the first only). -/
structure WindSet where
  /-- 1 bit; R235: set fenced in its lane; reset 0 -/
  fenced : Bool := false
  /-- 1 bit; R235: keeps all gates off whatever CMT.FENCE_STATE is; reset 0 -/
  gatesOff : Bool := false
  /-- 3 bits; R216: 0 carrying or idle, 2 short circuit, 3 freewheel after loss of rotor; reset 0 -/
  lossCase : Nat := 0
  /-- 4 bits; R217: re-acquisition tries used; reset 0 -/
  tries : Nat := 0
  /-- 8 bits; R209: consecutive deviating periods; reset 0 -/
  deviations : Nat := 0
  /-- 2 × 32 bits signed, mA; R206, R207: commands iq* and id*; reset 0 -/
  iq : Int := 0
  id : Int := 0
  /-- 1 bit; R206: current limit; reset 0 -/
  ilim : Bool := false
  /-- 1 bit; R208: over speed, excluded from n; reset 0 -/
  overSpeed : Bool := false
  /-- 8 bits; R199: angle source in use, 0 to 7, 0xFE observer, 0xFF none; reset 0xFF -/
  source : Nat := 0xFF
  /-- 1 bit; R206: the set carried torque under the last command; reset 0 -/
  carry : Bool := false
  /-- µs; R217: time since the last catch, saturating at 1 s; reset 0 -/
  since : Nat := 0
  /-- 16 bits; R211, R217: control periods tracked by the set's own EMF; reset 0 -/
  trackFor : Nat := 0
  /-- 2 bits; R211: sign of the speed of the set's own EMF; reset 0 -/
  trackSign : Int := 0
  /-- 16 bits; R211: angle of the set's own EMF in the previous period; reset none -/
  emfAngle : Option Nat := none
  /-- 32 bits signed, 0.1 min⁻¹; R211: speed of the set's own EMF; reset 0 -/
  emfSpeed : Int := 0
  /-- 1 bit; R206, R217: the set is caught again from this launch point; reset 0 -/
  catching : Bool := false
  /-- 1 bit; R213: the catch takes its reference from the EMF; reset 0 -/
  emfRef : Bool := false
  deriving DecidableEq, Repr, Inhabited

/-- One bridge at the period level (R194): MB0, MB1, BM0, BM1. -/
structure Motor where
  /-- 1 bit; R212: enabled by CMT.ENABLE; reset 0 -/
  enabled : Bool := false
  /-- 3 bits; R222: state; reset disabled -/
  state : CmtState := .disabled
  /-- 32 bits signed, mN·m; R206: torque command; reset 0 -/
  torque : Int := 0
  /-- 32 bits signed, 0.1 min⁻¹; R211: speed; reset 0 -/
  speed : Int := 0
  /-- 1 bit; R211: tracking valid; reset 0 -/
  trackValid : Bool := false
  /-- 16 bits; R211: control periods tracked so far; reset 0 -/
  trackFor : Nat := 0
  /-- 2 bits; R211: sign of the speed while tracking; reset 0 -/
  trackSign : Int := 0
  /-- 16 bits; R211: EMF angle of the last period tracked by it; reset none -/
  emfAngle : Option Nat := none
  /-- 1 bit and 16 bits; R199: CMT.ANGLE_SRC referenced, and its reference ρ; reset 0 -/
  referenced : Bool := false
  rho : Nat := 0
  /-- 1 bit and 16 bits; R199: CMT.ANGLE_SRC2 referenced, and its reference ρ; reset 0 -/
  referenced2 : Bool := false
  rho2 : Nat := 0
  /-- 16 bits; R197: electrical angle at S; reset 0 -/
  theta : Nat := 0
  /-- 3 and 32 bits signed; R211: channel tracked in the previous period and its continuous value; reset none -/
  prevPos : Option (Nat × Int) := none
  /-- 2 bits; R200: alignment attempt, 0 none; reset 0 -/
  alignTry : Nat := 0
  /-- 32 bits signed; R200: position at the start of the last tenth of the alignment; reset none -/
  alignPos : Option Int := none
  /-- µs; R200: time of the alignment so far; reset 0 -/
  alignFor : Nat := 0
  /-- 1 bit; R214: a catch waits for valid tracking; reset 0 -/
  catchWait : Bool := false
  /-- 1 bit; R213: catch at the next launch point; reset 0 -/
  catching : Bool := false
  /-- 1 bit; R219: CMT.DISABLE waits for the back-EMF condition; reset 0 -/
  disabling : Bool := false
  /-- µs; R23: overload time used; reset 0 -/
  ovlUsed : Nat := 0
  /-- 1 bit; R23: overload in use; reset 0 -/
  ovlNow : Bool := false
  /-- 0 to 1,000,000 µs; R23: time of the fall of the torque limit after the overload time is used up; reset 0 -/
  ovlFall : Nat := 0
  /-- sets; R21: winding sets of lanes A, B, C; reset each set's -/
  sets : Tri WindSet := ⟨{}, {}, {}⟩
  /-- 1 bit; R235: output BM0 or BM1 fenced; reset 0 -/
  fenced : Bool := false
  /-- 7 bits; R373: session that last commanded the torque; reset 0 -/
  cmdBy : Nat := 0
  deriving DecidableEq, Repr, Inhabited

/-- Agreed value of one item (R128, R129): value, validity, age in periods. -/
structure Item where
  v : Int := 0
  valid : Bool := false
  age : Nat := 0
  deriving DecidableEq, Repr, Inhabited

/-- One agreed feedback channel with its plausibility and substitution state (R186 to R190). -/
structure FbAgreed where
  pos : Item := {}
  rev : Item := {}
  indexSeen : Bool := false
  latched : Bool := false
  stamp : Nat := 0
  hall : Nat := 0
  latch : Int := 0
  /-- periods; R129: periods since the time stamp, the Hall states and the flags were given last, 0 while they are valid; reset 0 -/
  stampAge : Nat := 0
  hallAge : Nat := 0
  flagAge : Nat := 0
  /-- ns, at most 1 s; R199: time since the agreed Hall states last changed; reset 0 -/
  hallFor : Nat := 0
  /-- lanes that gave the value -/
  givers : Nat := 0
  substituted : Bool := false
  /-- 32 bits signed; R187: plausibility base; reset none -/
  plausBase : Option Int := none
  plausCount : Nat := 0
  plausErr : Int := 0
  /-- 1 bit; R188: a fault of the channel was recorded since the last check; reset 0 -/
  suspect : Bool := false
  /-- 1 bit each; R188: this channel, and its partner, recorded a fault within the failing periods; reset 0 -/
  suspX : Bool := false
  suspP : Bool := false
  /-- 1 bit; R175, R199: an index of a channel in count mode 1 has been agreed since its enabling or preset; reset 0 -/
  aligned : Bool := false
  /-- 32 bits signed; R278: continuous value of the previous period; reset none -/
  prevV : Option Int := none
  deriving DecidableEq, Repr, Inhabited

/-- The agreed vector of the last period (R128). -/
structure Agreed where
  adc : List Item := List.replicate 16 {}
  /-- owned ADC values of each lane (not shared inputs) -/
  adcOwn : Tri (List Item) := ⟨List.replicate 16 {}, List.replicate 16 {}, List.replicate 16 {}⟩
  fb : List FbAgreed := List.replicate 8 {}
  si : Mask := 0
  siValid : Mask := 0
  /-- periods; R129: periods since each SI level was given last, 0 while it is valid; reset 0 -/
  siAge : List Nat := List.replicate 8 0
  psn : PsnSample := {}
  /-- periods; R129: periods since the Pintle data were given last, 0 while they are valid; reset 0 -/
  psnAge : Nat := 0
  iq : Tri (List (Int × Int)) := ⟨[], [], []⟩
  /-- periods; R129: periods since each lane's currents and status were given last, 0 while they are valid; reset 0 -/
  ownAge : Tri Nat := ⟨0, 0, 0⟩
  vbr : Tri Item := ⟨{}, {}, {}⟩
  vgd : Tri Item := ⟨{}, {}, {}⟩
  temps : Tri (List Item) := ⟨List.replicate 5 {}, List.replicate 5 {}, List.replicate 5 {}⟩
  status : Tri SPart := ⟨{}, {}, {}⟩
  nts : Tri Nat := ⟨0, 0, 0⟩
  crc : Nat := 0
  deriving DecidableEq, Repr, Inhabited

/-- One agreed exclusive slot (R134, R321, R322, R326). -/
structure SlotData where
  chan : Nat := 0
  slot : Nat := 0
  data : List Byte := []
  counter : Nat := 0
  matrix : Nat := 0
  age : Nat := 0
  stale : Bool := false
  valid : Bool := false
  empty : Bool := true
  missRun : Nat := 0
  /-- 1 bit; R322: a frame has been received in the slot since its receivers entered SERVICE, and its last frame did not carry the
  leaving flag; reset 0 -/
  live : Bool := false
  deriving DecidableEq, Repr, Inhabited

/-- A pending timed launch (R354, R355): control-period count and index of its boundary, kind, operands,
the session that gave it, and the order of its acceptance. -/
structure Launch where
  out : Nat := 0
  count : Nat := 0
  index : Nat := 0
  kind : Nat := 0
  args : List Byte := []
  by_ : Nat := 0
  deriving DecidableEq, Repr, Inhabited

/-- An operation that awaits its final reply (R64): its opcode and reply header, the lanes and numbers it
concerns, and the results so far. -/
structure PendOp where
  opcode : Nat := 0
  link : Option LaneId := none
  tag : Byte := 0
  session : Nat := 0
  mask : Mask := 0
  seq : Nat := 0
  suppress : Bool := false
  lanes : Mask := 0
  results : Tri (Option Nat) := ⟨none, none, none⟩
  arg : Nat := 0
  arg2 : Nat := 0
  at_ : Nat := 0
  deriving DecidableEq, Repr, Inhabited

/-- A spare slot owned by claim (R326, R327): channel, slot, owner, matrix cycles without a frame. -/
structure SpareOwner where
  slot : Nat := 0
  owner : Nat := 0
  quiet : Nat := 0
  deriving DecidableEq, Repr, Inhabited

/-- Claims computed in agreement (R25 to R28). -/
structure Claims where
  /-- 3 × 8 bits; R26: claim numbers computed for the next boundary; reset 0 -/
  nums : Tri Nat := ⟨0, 0, 0⟩
  /-- 3 × 8 bits; R129: claim numbers of the last agreed claim vector, that of the period before; reset 0 -/
  last : Tri Nat := ⟨0, 0, 0⟩
  /-- 3 × 4 bits; R28: health scores; reset 15 -/
  health : Tri Nat := ⟨15, 15, 15⟩
  /-- 3 bits; R31: readmit mask of the claim vector; reset 0 -/
  readmit : Mask := 0
  /-- 2 bits; R26: lane with role 3 in the previous period; reset none -/
  active : Option LaneId := none
  deriving DecidableEq, Repr, Inhabited

/-- Snowplough sequencer (chapter 18). -/
structure Snow where
  /-- 3 bits; R452: step, 0 none, 1 to 3, 4 HOLD; reset 0 -/
  step : Nat := 0
  /-- 4 bits; R449: cause agreed and not yet started; reset none -/
  pend : Option Nat := none
  /-- 4 bits; R449: cause; reset 0 -/
  cause : Nat := 0
  /-- 32 bits signed, mm/s; R451: speed v; reset 0 -/
  v : Int := 0
  /-- 1 bit; R451: v is valid; reset 0 -/
  vValid : Bool := false
  /-- 32 bits signed, mm/s; R452: v0; reset 0 -/
  v0 : Int := 0
  /-- ns; R453: time since the entry launch point; reset 0 -/
  t : Nat := 0
  /-- 32 bits, mm/s²; R453: deceleration demand; reset 0 -/
  aDem : Int := 0
  /-- 64 bits; R456: NT of the entry launch point; reset 0 -/
  entryNt : Nat := 0
  /-- 1 bit; R451: abs(v) has been at most SNP.PARK_V, the park time runs; reset 0 -/
  slow : Bool := false
  /-- 1 bit; R451: standstill holds; reset 0 DESIGN CHOICE 0 (log 14) -/
  standstill : Bool := false
  /-- 1 bit; R451: machine parked; reset 0 -/
  parked : Bool := false
  /-- conditions; R449: level causes (cause, unit) that held in the last period; reset empty -/
  held : List (Nat × Nat) := []
  /-- 1 bit; R452: SNP.STOP_TIMEOUT passed; reset 0 -/
  timedOut : Bool := false
  /-- 1 bit; R452: SNP.APPLY_TIME passed; reset 0 -/
  applied : Bool := false
  /-- 4 × 24 bits signed, × 10^9; R454: steering setpoints of the stop in billionths of a unit; reset empty -/
  steer : List Int := []
  /-- 1 bit; R461: HOLD ends at the next boundary; reset 0 -/
  releasing : Bool := false
  /-- 1 bit; R465: the Deadbolt is released at the next boundary; reset 0 -/
  dbReleasing : Bool := false
  deriving DecidableEq, Repr, Inhabited

/-- Power states of R471. -/
inductive PowerState where
  | run | idle | glide | sleep | off
  deriving DecidableEq, Repr, Inhabited

/-- Device power state (chapter 19). -/
structure Power where
  /-- 3 bits; R471: state; reset RUN (R118, startup ends in RUN: log 15) -/
  state : PowerState := .run
  /-- 3 bits; R473: target of the transition that runs; reset none -/
  target : Option PowerState := none
  /-- 3 bits; R475, R477: step of the transition; reset 0 -/
  step : Nat := 0
  /-- 1 bit; R476: the entry was automatic; reset 0 -/
  auto : Bool := false
  /-- control periods; R477: launch points passed since the execution of the transition; reset 0 -/
  since : Nat := 0
  /-- 3 bits; R484: state that was left last; reset RUN -/
  left : PowerState := .run
  /-- 1 bit; R476: the idle timer runs; reset 0 -/
  idleRuns : Bool := false
  /-- 1 bit; R476: an operation other than a read was agreed in this period; reset 0 -/
  activity : Bool := false
  deriving DecidableEq, Repr, Inhabited

/-- Bands of the dies (chapter 20). -/
structure Thermal where
  /-- 3 × 3 bits; R488: bands of the lane dies; reset 1 DESIGN CHOICE T1 (log 8) -/
  lane : Tri Nat := ⟨1, 1, 1⟩
  /-- 3 × 3 bits; R488: bands of the parts watched by P0, P1, P2; reset 1 DESIGN CHOICE T1 (log 8) -/
  part : Tri Nat := ⟨1, 1, 1⟩
  /-- 3 × 8 bits; R491: derating factors of the lane dies in percent; reset 100 -/
  factor : Tri Nat := ⟨100, 100, 100⟩
  /-- 3 × 2 × 8 bits; R491: factors of the NTC inputs of each lane in percent; reset 100 -/
  ntc : Tri (List Nat) := ⟨[100, 100], [100, 100], [100, 100]⟩
  /-- 8 bits; R491: Pintle derating factor; reset 100 -/
  pintle : Nat := 100
  /-- 3 bits; R492: 0x3304 state of the lanes; reset 0 -/
  t5 : Tri Bool := ⟨false, false, false⟩
  /-- 1 bit; R492: 0x3305 state; reset 0 -/
  pintleT5 : Bool := false
  /-- 3 × 8 bits; R487: consecutive broken periods of P0, P1, P2; reset 0 -/
  pintleBad : List Nat := [0, 0, 0]
  /-- 3 bits; R487: fenced Pintle sensors; reset 0 -/
  pintleFenced : Mask := 0
  deriving DecidableEq, Repr, Inhabited

/-- Parameters and schedule in agreement (chapters 03, 12). -/
structure CfgState where
  /-- 64-bit values; R81: working set, the values that differ from their defaults by ID × 256 + instance, ascending; reset empty (all defaults, R85) -/
  ws : List (Nat × Int) := []
  /-- 64 bits; R94: computed commissioning check value; reset 0 DESIGN CHOICE 0 until the first lane has booted (log 16) -/
  check : Nat := 0
  /-- 64-bit values; R86: shadowed values, oldest first; reset empty -/
  shadow : List (Nat × Int) := []
  /-- 1,027 quads; R313: loaded schedule, empty for none; reset none -/
  sched : List Byte := []
  /-- schedule; R314: pending schedule and its activation matrix cycle; reset none -/
  schedNext : Option (List Byte × Nat) := none
  /-- 256 × 32 bits; R254: reshaped tables of ST0 and ST1, empty for the fixed table; reset empty -/
  tab0 : List (Nat × Nat) := []
  tab1 : List (Nat × Nat) := []
  /-- tables; R256: tables loaded for the next boundary, by channel, oldest first; reset empty -/
  tabNext : List (Nat × List (Nat × Nat)) := []
  /-- store; R89: store in progress: its source (0 working set, 1 staging) and its snapshot; reset none -/
  storing : Option (Nat × ImageCopy) := none
  /-- 1 bit; R89: a firmware write is in progress; reset 0 -/
  fwBusy : Bool := false
  /-- 1 bit; R100: a firmware activation is in progress; reset 0 -/
  fwActivating : Bool := false
  /-- confirmation; R95: slot contents being written (value) and the reply that waits; reset none -/
  confirm : Option Nat := none
  /-- image; R90: the staging image replaces the working set at the next boundary; reset none -/
  wsNext : Option ImageCopy := none
  /-- 4 bits; R101: a raised firmware minimum is due once D0 is formed; reset 0 -/
  confirmOp : Option PendOp := none
  /-- values and 64 bits; R524: working set before the last shadows, which an engine at PWM rate reads up to the first PWM boundary at
  or after the launch point of their period, and the NT of that launch point once it has come; reset none -/
  engOld : Option (List (Nat × Int) × Option Nat) := none
  deriving DecidableEq, Repr, Inhabited

/-- The states of the units at the start of a period's computation, to which a held work item returns (R138, R140). -/
structure Units where
  launches : List Launch := []
  loops : List Loop := []
  motors : List Motor := []
  steppers : List Stepper := []
  fb : List FbAgreed := []
  so : Tri Mask := ⟨0, 0, 0⟩
  ownSlots : List (Nat × List Byte) := []
  claims : Claims := {}
  snow : Snow := {}
  deriving DecidableEq, Repr, Inhabited

/-- Everything the lanes in authority hold in agreement. -/
structure Dev where
  /-- 1 bit; R110: the authority is formed and control periods run; reset 0 -/
  formed : Bool := false
  /-- 2 bits; R39: degraded class 0 to 3; reset none (R52: no class before formation) -/
  cls : Option Nat := none
  /-- 3 bits; R39: lanes in authority; reset 0 -/
  authority : Mask := 0
  /-- 3 bits; R162: joined core pairs; reset 0 -/
  joined : Mask := 0
  /-- 3 bits; R110: lanes named in the formation record that runs; reset none -/
  formation : Option Mask := none
  /-- 3 bits; R110: named lanes whose acknowledgement has arrived; reset 0 -/
  formAcks : Mask := 0
  /-- 64 bits; R124: control-period count; reset 0 -/
  count : Nat := 0
  /-- 64 bits; R553: NT of S of the period (Sn); reset 0 -/
  sn : Nat := 0
  /-- 1 bit; R112: the sample instant is locked to network time; reset 0 -/
  locked : Bool := false
  /-- 3 bits; R130: agreement set of the period; reset 0 -/
  aset : Mask := 0
  /-- 3 bits; R121: lanes that have sampled in the period; reset 0 -/
  sampled : Mask := 0
  /-- lanes and codes; R444: lane fences decided and taken from the next S; reset empty -/
  fencePend : List (LaneId × Nat) := []
  /-- 1 bit; R128: the period's work items have been computed; reset 0 -/
  computed : Bool := false
  /-- units; R138: unit states before the period's computation; reset empty -/
  before : Units := {}
  /-- 1 bit; R138: the period's completion has been decided; reset 0 -/
  decided : Bool := false
  /-- 128 bits; R148: signature of the period's fold stream; reset 0 -/
  sig : Nat × Nat := (0, 0)
  /-- 1 bit; R139, R150: 0x0405 was recorded in the period; reset 0 -/
  split405 : Bool := false
  /-- 1 bit; R112: the period ended at the lock to network time and is not counted; reset 0 -/
  exempt : Bool := false
  /-- 1 bit; R150: the device-wide outcome of the vote has been taken; reset 0 -/
  voted : Bool := false
  /-- 1 bit; R122: the device-wide launch of the period has been made; reset 0 -/
  launched : Bool := false
  /-- 3 bits; R150: lanes that passed in the period; reset 0 -/
  passed : Mask := 0
  /-- 88 bits; R138: items that counted as completed; reset all -/
  done : BitVec 88 := BitVec.allOnes 88
  /-- 88 × 5 bits; R138: consecutive misses by item; reset 0 -/
  itemMiss : List Nat := List.replicate 88 0
  /-- work items; R138: fenced items 82 to 87; reset empty -/
  itemFenced : List Nat := []
  /-- 5 bits; R139: consecutive periods without a completed checkpoint; reset 0 -/
  devMiss : Nat := 0
  /-- 32 bits each; R152: last corrected two-record divergence of each pair: the pair as a mask and its matrix cycle; reset empty -/
  pairDivs : List (Nat × Nat) := []
  /-- units; R136: fences decided in the period and taken at the next S: lane, type, number; reset empty -/
  unitPend : List (Nat × Nat × Nat) := []
  /-- 88 bits each; R138: work items held in the present period and in the one before; reset 0 -/
  heldNow : BitVec 88 := 0
  heldLast : BitVec 88 := 0
  /-- 1 bit; R140: no lane has passed since the unit states of `before` were taken; reset 0 -/
  unpassed : Bool := false
  /-- 1 bit; R139, R152: two records of kind 1 differed in the period; reset 0 -/
  differed : Bool := false
  /-- 64 frames; R134: arbitrating frames taken last, by NodeID and sequence number; reset empty -/
  arbTaken : List (Nat × Nat) := []
  /-- 32 bits; R153: periods since the claim changed hands; reset 0 -/
  claimAge : Nat := 0
  /-- packets; R146: events of the agreed records of the period, by link; reset empty -/
  events : List (LaneId × OutPacket) := []
  /-- 1,024 quads; R146: fold stream of the period; reset empty -/
  fold : List Byte := []
  /-- 84 quads; R153: quads 1 to 84 of the mirrored set of the period; reset empty -/
  mirror : List Byte := []
  /-- 1,108 quads; R154, R156: mirrored set and remainder at the checkpoint of the last mirror, less quad 0; reset empty -/
  copy : List Byte := []
  /-- quads; R154: size of the delta of the period; reset 0 -/
  delta : Nat := 0
  /-- counts; R136: consecutive outliers by lane, unit type and number; reset empty -/
  outliers : List ((Nat × Nat × Nat) × Nat) := []
  /-- units; R423: units fenced from agreed data: lane (0xFF every lane), type, number; reset empty -/
  fences : List (Nat × Nat × Nat) := []
  /-- units; R441: unfences that act at the next boundary: lane, type, number; reset empty -/
  unfences : List (Nat × Nat × Nat) := []
  /-- 1 bit; R114: actuation enabled; reset 0 -/
  actuation : Bool := false
  /-- 1 bit; R113, R118: a claim has been accepted since formation; reset 0 -/
  claimed : Bool := false
  cfg : CfgState := {}
  claims : Claims := {}
  agreed : Agreed := {}
  /-- 3 host links; R60; reset each link's -/
  hosts : Tri HostLink := ⟨{}, {}, {}⟩
  /-- 127 sessions, session n at place n − 1; R362; reset free -/
  sessions : List Session := List.replicate 127 {}
  /-- 64 contexts; R277; reset each context's -/
  loops : List Loop := List.replicate 64 {}
  /-- 6 channels; R252; reset each channel's -/
  steppers : List Stepper := List.replicate 6 {}
  /-- 4 bridges; R194; reset each bridge's -/
  motors : List Motor := List.replicate 4 {}
  /-- 3 × 4 bits; R411: commanded states of SO0 to SO3 in each lane; reset 0 -/
  so : Tri Mask := ⟨0, 0, 0⟩
  /-- 4 × 7 bits; R373: session that last commanded each output; reset 0 -/
  soBy : List Nat := [0, 0, 0, 0]
  /-- 14 × 16 quads; R355: pending launches, oldest first; reset empty -/
  launches : List Launch := []
  snow : Snow := {}
  power : Power := {}
  thermal : Thermal := {}
  /-- slots; R134: agreed exclusive-slot data; reset empty -/
  slots : List SlotData := []
  /-- spares; R326: claimed spare slots; reset empty -/
  spares : List SpareOwner := []
  /-- claim; R326: running claim: listed slots, those already lost, and matrix cycles since execution; reset none -/
  spareClaim : Option (List Nat × List Nat × Nat) := none
  /-- claims; R326: spare slots with their owners from the next matrix cycle on; reset empty -/
  sparesNext : List (Nat × Nat) := []
  /-- claims; R326: claims of other devices agreed in the present matrix cycle: node and slot; reset empty -/
  otherClaims : List (Nat × Nat) := []
  /-- 32 bits; R305: sequence number of the next arbitrating frame; reset 0 -/
  arbSeq : Nat := 0
  /-- payloads; R329: payload launched for each own slot; reset empty -/
  ownSlots : List (Nat × List Byte) := []
  /-- operations; R64: operations that await their final reply; reset empty -/
  pend : List PendOp := []
  /-- packets; R63: replies and events of the period by link, sent after the checkpoint; reset empty -/
  replies : List (LaneId × OutPacket) := []
  /-- PDUs; R380: PDUs to peers on Ocgal of the period; reset empty -/
  pdus : List SessionPdu := []
  /-- PDUs; R376: open requests and answers of the period, with destination and channel; reset empty -/
  openPdus : List (Nat × Nat × List Byte) := []
  /-- actions; R373, R378: session and loss action due at the launch point of the period; reset empty -/
  lossActs : List (Nat × Nat) := []
  /-- 8 bits; R508: lane in stand-down; reset none -/
  standdown : Option LaneId := none
  /-- 1 bit; R442: every power-up count etc. is per lane; NET.START cycles waited; reset 0 -/
  netWait : Nat := 0
  /-- 32 bits; R307: matrix cycle count of the device; reset 0 -/
  matrix : Nat := 0
  /-- 7 bits; R307: number of the control period in its matrix cycle, 1 to 64; reset 0 -/
  cycle : Nat := 0
  /-- 2 bits; R507: lane whose stand-down starts at the next matrix-cycle boundary; reset none -/
  sdNext : Option LaneId := none
  /-- injections; R445: code, mode, unit type, number, periods left, lane mask; reset empty -/
  injections : List (Nat × Nat × Nat × Nat × Nat × Mask) := []
  /-- 1 bit; R508, R511: the stand-down is to be aborted; reset 0 -/
  sdAbort : Bool := false
  deriving DecidableEq, Repr, Inhabited

/-! ### The whole machine -/

/-- Why the machine stops with a fault. -/
inductive Fault where
  /-- Raised by a memory feed of a check-value unit (execMemoryFeedDone, execCvCfgWrite and the other accesses to a unit whose
  feed runs) whose addresses leave the 8 MB of lane SRAM that R500 lays out; safe: the machine stops where the spec names
  no memory. -/
  | sramAddress
  deriving DecidableEq, Repr

/-- Why a command has no meaning. -/
inductive Refusal where
  /-- Raised by an arm of exec whose command has no meaning yet; safe: nothing is claimed of it. -/
  | notModelled (mnemonic : String)
  deriving DecidableEq, Repr

/-- The addressed memories of one lane, each a list of (address, byte) pairs in canonical form: addresses strictly
rising, no listed byte equal to zero, which is what an unlisted address reads as. -/
structure LaneMem where
  /-- 8 MB; R390, R500: lane SRAM; reset none listed (cleared to zero at step 1 of R103) -/
  sram : List Host.Cell := []
  /-- 256 KB; R98: staging image; reset none listed (cleared to zero at boot) -/
  staging : List Host.Cell := []
  /-- 1,027 quads; R314: staging schedule; reset none listed DESIGN CHOICE 0 (log 12) -/
  stagingSched : List Host.Cell := []
  /-- 1.5 MB; R88, R100: bytes of firmware bank 0; reset none listed DESIGN CHOICE 0 (log 11) -/
  bank0 : List Host.Cell := []
  /-- 1.5 MB; R88, R100: bytes of firmware bank 1; reset none listed DESIGN CHOICE 0 (log 11) -/
  bank1 : List Host.Cell := []
  deriving DecidableEq, Repr, Inhabited

/-- Everything of the module but its addressed memories and the queue of waiting commands. -/
structure Chip where
  lanes : Tri Lane := ⟨{}, {}, {}⟩
  bridges : Tri Bridge := ⟨{}, {}, {}⟩
  /-- 3 links A–B, B–C, C–A; R12; reset each link's -/
  links : Tri LaneLink := ⟨{}, {}, {}⟩
  pintle : Pintle := {}
  dev : Dev := {}
  /-- the model's own counter of free values drawn so far (no state of the spec); reset 0 DESIGN CHOICE 0 (log 2) -/
  fresh : Nat := 0
  deriving DecidableEq, Repr, Inhabited

/-- The state of the ATV-7306. -/
structure State where
  /-- commands; the block's queue of waiting commands, first in, first out; reset empty -/
  pending : List Instr := []
  /-- memories of lanes A, B, C; reset each memory's -/
  mem : Tri LaneMem := ⟨{}, {}, {}⟩
  chip : Chip := {}
  deriving DecidableEq, Repr, Inhabited

/-- The machine right after reset: no supply has reached power-good, nothing is formed, every output inert
(R102, R118), and no command waits. -/
def State.reset : State := {}

end Sys2Proof.Machine
end

