-- ==== Sys2Proof/Machine/Params.lean ====
section
/-! DEFINITION. The parameters of every block (ID, width, instances, range, default, class of R86), and reading and
writing the sparse working set that holds them. -/

namespace Sys2Proof.Machine

open Sys2Proof

/-- When a parameter may be changed (R86). -/
inductive PClass where
  | anyTime | boundary | idle | commissioning
  deriving DecidableEq, Repr, Inhabited

/-- What a range column asks beyond an interval: a list of values, a step, a value other than 0, 0xFF for none, 0 or at
least a number, the slot form of R311, the source codes of R278, the brake targets of R453. -/
inductive PForm where
  | plain
  | none255
  | nonzero
  | step (n : Nat)
  | oneOf (l : List Int)
  | zeroOr (n : Nat)
  | slot
  | pvSrc
  | brkTgt
  deriving DecidableEq, Repr, Inhabited

/-- A parameter: ID, width code (R82), number of instances, whether values are signed, class, lowest and highest value,
form of the range, default. -/
structure PInfo where
  id : Nat
  width : Nat
  count : Nat
  signed : Bool
  cls : PClass
  lo : Int
  hi : Int
  form : PForm
  dflt : Int
  deriving DecidableEq, Repr, Inhabited

/-! #### LANE -/

/-- LANE.JOIN_WAIT (commissioning only): Time the formation lane waits for all three lanes. -/
def Par.laneJoinWait : PInfo :=
  ⟨0x0101, 1, 1, false, .commissioning, 20, 5000, .plain, 200⟩

/-- LANE.START_MIN (commissioning only): Admitted lanes needed to enable actuation. -/
def Par.laneStartMin : PInfo :=
  ⟨0x0102, 0, 1, false, .commissioning, 2, 3, .plain, 3⟩

/-- LANE.LATE_JOIN (at period boundary): 1: a late lane joins by itself; 0: only on LANE.READMIT. -/
def Par.laneLateJoin : PInfo :=
  ⟨0x0103, 0, 1, false, .boundary, 0, 1, .plain, 1⟩

/-- The parameters of the LANE block in ascending ID. -/
def parsOfLane : List PInfo :=
  [Par.laneJoinWait, Par.laneStartMin, Par.laneLateJoin]

/-! #### AUTH -/

/-- AUTH.LANE_RANK (commissioning only): Rank field of the claim of lane #0 (A), #1 (B), #2 (C). -/
def Par.authLaneRank : PInfo :=
  ⟨0x0201, 0, 3, false, .commissioning, 0, 3, .plain, 0⟩

/-- AUTH.HEALTH_HYST (at period boundary): Health margin by which another lane must exceed the active lane to take role 3. -/
def Par.authHealthHyst : PInfo :=
  ⟨0x0202, 0, 1, false, .boundary, 1, 15, .plain, 3⟩

/-- AUTH.HEALTH_WIN (at period boundary): Window over which corrected divergences reduce health. -/
def Par.authHealthWin : PInfo :=
  ⟨0x0203, 1, 1, false, .boundary, 1, 4096, .plain, 256⟩

/-- AUTH.ESSENTIAL (commissioning only): Bits [5:0] ST0–ST5, bit 6 BM0, bit 7 BM1; loss of a set bit's output starts a controlled stop. -/
def Par.authEssential : PInfo :=
  ⟨0x0204, 0, 1, false, .commissioning, 0, 255, .plain, 255⟩

/-- AUTH.MB_ARRANGE (commissioning only): Arrangement on MB0 (#0) or MB1 (#1). -/
def Par.authMbArrange : PInfo :=
  ⟨0x0205, 0, 2, false, .commissioning, 0, 3, .plain, 0⟩

/-- AUTH.MB_LANES (commissioning only): Bit n set: lane n drives a winding set on this bridge; instances as AUTH.MB_ARRANGE. -/
def Par.authMbLanes : PInfo :=
  ⟨0x0206, 0, 2, false, .commissioning, 0, 7, .plain, 0⟩

/-- AUTH.OVL_TIME (idle only): Overload time in D1 under R23. -/
def Par.authOvlTime : PInfo :=
  ⟨0x0207, 1, 1, false, .idle, 0, 30000, .plain, 0⟩

/-- AUTH.BM_ENABLE (commissioning only): 1: BM0 (#0) or BM1 (#1) is in use under R551. -/
def Par.authBmEnable : PInfo :=
  ⟨0x0208, 0, 2, false, .commissioning, 0, 1, .plain, 0⟩

/-- The parameters of the AUTH block in ascending ID. -/
def parsOfAuth : List PInfo :=
  [Par.authLaneRank, Par.authHealthHyst, Par.authHealthWin,
   Par.authEssential, Par.authMbArrange, Par.authMbLanes,
   Par.authOvlTime, Par.authBmEnable]

/-! #### PER -/

/-- PER.FREE_PERIOD (commissioning only): Control period when no schedule is loaded. -/
def Par.perFreePeriod : PInfo :=
  ⟨0x0301, 2, 1, false, .commissioning, 125000, 4000000, .step 10, 250000⟩

/-- PER.SAMPLE_OFFSET (commissioning only): Offset of S from the start of the basic cycle. -/
def Par.perSampleOffset : PInfo :=
  ⟨0x0302, 2, 1, false, .commissioning, 0, 3999990, .step 10, 0⟩

/-- PER.LAUNCH_OFFSET (commissioning only): Launch point after S; a period of 125 µs needs a value other than the default. -/
def Par.perLaunchOffset : PInfo :=
  ⟨0x0303, 2, 1, false, .commissioning, 40000, 3990000, .plain, 200000⟩

/-- PER.TOL_ADC (at period boundary): Tolerance of ADC input #0–#15. -/
def Par.perTolAdc : PInfo :=
  ⟨0x0304, 1, 16, false, .boundary, 0, 16383, .plain, 64⟩

/-- PER.TOL_POS (at period boundary): Tolerance of the counts of FB #0–#7. -/
def Par.perTolPos : PInfo :=
  ⟨0x0305, 2, 8, false, .boundary, 0, 16777215, .plain, 16⟩

/-- PER.TOL_TIME (at period boundary): Tolerance of the time stamps and ages of FB #0–#7. -/
def Par.perTolTime : PInfo :=
  ⟨0x0306, 2, 8, false, .boundary, 0, 1000000, .plain, 200⟩

/-- PER.ADC_SHARE (commissioning only): Category of ADC input #0–#15. -/
def Par.perAdcShare : PInfo :=
  ⟨0x0307, 0, 16, false, .commissioning, 0, 1, .plain, 0⟩

/-- PER.FB_SHARE (commissioning only): Category of the counts of FB #0–#7. -/
def Par.perFbShare : PInfo :=
  ⟨0x0308, 0, 8, false, .commissioning, 0, 1, .plain, 1⟩

/-- PER.SI_SHARE (commissioning only): Bit n set: SI n is shared (BIT); clear: owned. -/
def Par.perSiShare : PInfo :=
  ⟨0x0309, 0, 1, false, .commissioning, 0, 255, .plain, 0⟩

/-- PER.OUTLIER_LIMIT (at period boundary): Consecutive outliers that fence a unit (R136). -/
def Par.perOutlierLimit : PInfo :=
  ⟨0x030A, 0, 1, false, .boundary, 1, 255, .plain, 8⟩

/-- PER.MISS_LIMIT (commissioning only): Consecutive misses under R137 to R139. -/
def Par.perMissLimit : PInfo :=
  ⟨0x030B, 0, 1, false, .commissioning, 2, 16, .plain, 3⟩

/-- PER.ARB_QUADS (commissioning only): Streamed quads kept for arbitrating-window frames. -/
def Par.perArbQuads : PInfo :=
  ⟨0x030C, 0, 1, false, .commissioning, 0, 128, .plain, 32⟩

/-- The parameters of the PER block in ascending ID. -/
def parsOfPer : List PInfo :=
  [Par.perFreePeriod, Par.perSampleOffset, Par.perLaunchOffset,
   Par.perTolAdc, Par.perTolPos, Par.perTolTime,
   Par.perAdcShare, Par.perFbShare, Par.perSiShare,
   Par.perOutlierLimit, Par.perMissLimit, Par.perArbQuads]

/-! #### CHK -/

/-- CHK.DIV_WINDOW (commissioning only): Window within which a repeated divergence fences (R151, R152, R164). -/
def Par.chkDivWindow : PInfo :=
  ⟨0x0401, 1, 1, false, .commissioning, 1, 4096, .plain, 64⟩

/-- CHK.RESYNC_LIMIT (commissioning only): Periods allowed for a resynchronisation (R159). -/
def Par.chkResyncLimit : PInfo :=
  ⟨0x0402, 0, 1, false, .commissioning, 4, 64, .plain, 16⟩

/-- CHK.JOIN_LOOPS (commissioning only): Bit n set: loop context n is in the reduced service set. -/
def Par.chkJoinLoops : PInfo :=
  ⟨0x0403, 3, 1, false, .commissioning, 0, 18446744073709551615, .plain, 0⟩

/-- The parameters of the CHK block in ascending ID. -/
def parsOfChk : List PInfo :=
  [Par.chkDivWindow, Par.chkResyncLimit, Par.chkJoinLoops]

/-! #### FLT -/

/-- FLT.MERGE_TIME (at period boundary): Time a C-class record stays open (R431). -/
def Par.fltMergeTime : PInfo :=
  ⟨0x0501, 1, 1, false, .boundary, 1, 60000, .plain, 1000⟩

/-- FLT.EVENT_MASK (at period boundary): Bit 0 C, bit 1 U, bit 2 F: classes reported as events (R439). -/
def Par.fltEventMask : PInfo :=
  ⟨0x0502, 0, 1, false, .boundary, 0, 7, .plain, 6⟩

/-- FLT.SILENT_TIME (commissioning only): Link silence that marks a partner silent (R433). -/
def Par.fltSilentTime : PInfo :=
  ⟨0x0503, 1, 1, false, .commissioning, 20, 500, .plain, 50⟩

/-- FLT.READMIT_MAX (commissioning only): Readmissions per lane per power-up (R442). -/
def Par.fltReadmitMax : PInfo :=
  ⟨0x0504, 0, 1, false, .commissioning, 0, 15, .plain, 3⟩

/-- The parameters of the FLT block in ascending ID. -/
def parsOfFlt : List PInfo :=
  [Par.fltMergeTime, Par.fltEventMask, Par.fltSilentTime,
   Par.fltReadmitMax]

/-! #### SNP -/

/-- SNP.SPEED_SRC (commissioning only): Speed source (R451). -/
def Par.snpSpeedSrc : PInfo :=
  ⟨0x0601, 0, 1, false, .commissioning, 0, 255, .pvSrc, 255⟩

/-- SNP.SPEED_NUM (commissioning only): Scale to mm/s, numerator. -/
def Par.snpSpeedNum : PInfo :=
  ⟨0x0602, 2, 1, true, .commissioning, (-2147483648), 2147483647, .nonzero, 1⟩

/-- SNP.SPEED_DEN (commissioning only): Denominator. -/
def Par.snpSpeedDen : PInfo :=
  ⟨0x0603, 2, 1, false, .commissioning, 1, 2147483647, .plain, 1⟩

/-- SNP.DECEL (commissioning only): Stop deceleration. -/
def Par.snpDecel : PInfo :=
  ⟨0x0604, 1, 1, false, .commissioning, 100, 10000, .plain, 1500⟩

/-- SNP.DECEL_FULL (commissioning only): Deceleration at SNP.BRK_FULL. -/
def Par.snpDecelFull : PInfo :=
  ⟨0x0605, 1, 1, false, .commissioning, 100, 20000, .plain, 5000⟩

/-- SNP.KV (commissioning only): Speed-error gain (R453). -/
def Par.snpKv : PInfo :=
  ⟨0x0606, 2, 1, false, .commissioning, 0, 2097152, .plain, 131072⟩

/-- SNP.PARK_V (commissioning only): Standstill speed. -/
def Par.snpParkV : PInfo :=
  ⟨0x0607, 1, 1, false, .commissioning, 1, 1000, .plain, 50⟩

/-- SNP.PARK_TIME (commissioning only): Standstill time. -/
def Par.snpParkTime : PInfo :=
  ⟨0x0608, 1, 1, false, .commissioning, 10, 10000, .plain, 500⟩

/-- SNP.PARK_SI (commissioning only): Shared park-confirm input. -/
def Par.snpParkSi : PInfo :=
  ⟨0x0609, 0, 1, false, .commissioning, 0, 7, .none255, 255⟩

/-- SNP.STOP_TIMEOUT (commissioning only): Longest step 2. -/
def Par.snpStopTimeout : PInfo :=
  ⟨0x060A, 1, 1, false, .commissioning, 1000, 60000, .plain, 20000⟩

/-- SNP.APPLY_TIME (commissioning only): Step 3 time. -/
def Par.snpApplyTime : PInfo :=
  ⟨0x060B, 1, 1, false, .commissioning, 0, 10000, .plain, 500⟩

/-- SNP.BRK_TGT (commissioning only): Brake target. -/
def Par.snpBrkTgt : PInfo :=
  ⟨0x060C, 0, 8, false, .commissioning, 0, 255, .brkTgt, 255⟩

/-- SNP.BRK_ZERO (commissioning only): Command at zero demand. -/
def Par.snpBrkZero : PInfo :=
  ⟨0x060D, 2, 8, true, .commissioning, (-8388607), 8388607, .plain, 0⟩

/-- SNP.BRK_FULL (commissioning only): Command at SNP.DECEL_FULL and in HOLD. -/
def Par.snpBrkFull : PInfo :=
  ⟨0x060E, 2, 8, true, .commissioning, (-8388607), 8388607, .plain, 0⟩

/-- SNP.STEER_CTX (commissioning only): Steering context. -/
def Par.snpSteerCtx : PInfo :=
  ⟨0x060F, 0, 4, false, .commissioning, 0, 63, .none255, 255⟩

/-- SNP.STEER_MODE (commissioning only): Hold, ramp or follow (R454). -/
def Par.snpSteerMode : PInfo :=
  ⟨0x0610, 0, 4, false, .commissioning, 0, 2, .plain, 0⟩

/-- SNP.STEER_HOLD (commissioning only): Ramp target. -/
def Par.snpSteerHold : PInfo :=
  ⟨0x0611, 2, 4, true, .commissioning, (-8388607), 8388607, .plain, 0⟩

/-- SNP.STEER_RATE (commissioning only): Setpoint rate limit. -/
def Par.snpSteerRate : PInfo :=
  ⟨0x0612, 2, 4, false, .commissioning, 1, 8388607, .plain, 1000⟩

/-- SNP.NOTIFY_PROF (commissioning only): Bit n: profile n receives stop notices. -/
def Par.snpNotifyProf : PInfo :=
  ⟨0x0613, 1, 1, false, .commissioning, 0, 65535, .plain, 0⟩

/-- SNP.HOLD_PERSIST (commissioning only): 1: HOLD record kept (R460). -/
def Par.snpHoldPersist : PInfo :=
  ⟨0x0614, 0, 1, false, .commissioning, 0, 1, .plain, 1⟩

/-- SNP.DB_MODE (commissioning only): Deadbolt mode (R463); a value outside the range of its instance is answered with OUT_OF_RANGE (0x12). -/
def Par.snpDbMode : PInfo :=
  ⟨0x0615, 0, 8, false, .commissioning, 0, 2, .plain, 0⟩

/-- SNP.DB_POS (commissioning only): Apply position or travel. -/
def Par.snpDbPos : PInfo :=
  ⟨0x0616, 2, 6, true, .commissioning, (-2147483648), 2147483647, .plain, 0⟩

/-- SNP.DB_SPEED (commissioning only): Deadbolt speed. -/
def Par.snpDbSpeed : PInfo :=
  ⟨0x0617, 2, 6, false, .commissioning, 1, 2560000, .plain, 25600⟩

/-- SNP.DB_I (commissioning only): Deadbolt coil current. -/
def Par.snpDbI : PInfo :=
  ⟨0x0618, 1, 6, false, .commissioning, 0, 8000, .plain, 0⟩

/-- SNP.DB_ACCEL (commissioning only): Deadbolt acceleration. -/
def Par.snpDbAccel : PInfo :=
  ⟨0x0619, 2, 1, false, .commissioning, 1, 1000000000, .plain, 256000⟩

/-- The parameters of the SNP block in ascending ID. -/
def parsOfSnp : List PInfo :=
  [Par.snpSpeedSrc, Par.snpSpeedNum, Par.snpSpeedDen,
   Par.snpDecel, Par.snpDecelFull, Par.snpKv,
   Par.snpParkV, Par.snpParkTime, Par.snpParkSi,
   Par.snpStopTimeout, Par.snpApplyTime, Par.snpBrkTgt,
   Par.snpBrkZero, Par.snpBrkFull, Par.snpSteerCtx,
   Par.snpSteerMode, Par.snpSteerHold, Par.snpSteerRate,
   Par.snpNotifyProf, Par.snpHoldPersist, Par.snpDbMode,
   Par.snpDbPos, Par.snpDbSpeed, Par.snpDbI,
   Par.snpDbAccel]

/-! #### CMT -/

/-- CMT.PWM_PERIOD (commissioning only): PWM period (R196). -/
def Par.cmtPwmPeriod : PInfo :=
  ⟨0x1001, 2, 4, false, .commissioning, 12500, 100000, .step 10, 50000⟩

/-- CMT.POLE_PAIRS (commissioning only): p. -/
def Par.cmtPolePairs : PInfo :=
  ⟨0x1002, 0, 4, false, .commissioning, 1, 32, .plain, 1⟩

/-- CMT.PSI (commissioning only): Magnet flux linkage per set. -/
def Par.cmtPsi : PInfo :=
  ⟨0x1003, 2, 4, false, .commissioning, 1, 1000000, .plain, 1000⟩

/-- CMT.RS (commissioning only): Phase resistance. -/
def Par.cmtRs : PInfo :=
  ⟨0x1004, 2, 4, false, .commissioning, 0, 10000000, .plain, 0⟩

/-- CMT.LD (commissioning only): d-axis inductance. -/
def Par.cmtLd : PInfo :=
  ⟨0x1005, 2, 4, false, .commissioning, 1, 100000000, .plain, 1000⟩

/-- CMT.LQ (commissioning only): q-axis inductance. -/
def Par.cmtLq : PInfo :=
  ⟨0x1006, 2, 4, false, .commissioning, 1, 100000000, .plain, 1000⟩

/-- CMT.I_CONT (commissioning only): Continuous current limit per set. -/
def Par.cmtICont : PInfo :=
  ⟨0x1007, 2, 4, false, .commissioning, 0, 300000, .plain, 0⟩

/-- CMT.I_MAX (commissioning only): Absolute current limit per set. -/
def Par.cmtIMax : PInfo :=
  ⟨0x1008, 2, 4, false, .commissioning, 0, 300000, .plain, 0⟩

/-- CMT.ID_MIN (commissioning only): Lowest flux current (R207). -/
def Par.cmtIdMin : PInfo :=
  ⟨0x1009, 2, 4, true, .commissioning, (-300000), 0, .plain, 0⟩

/-- CMT.VLIM (commissioning only): Voltage limit (R203). -/
def Par.cmtVlim : PInfo :=
  ⟨0x100A, 0, 4, false, .commissioning, 50, 98, .plain, 95⟩

/-- CMT.KP (at period boundary): Proportional gain. -/
def Par.cmtKp : PInfo :=
  ⟨0x100B, 2, 4, false, .boundary, 0, 100000, .plain, 0⟩

/-- CMT.KI (at period boundary): Integral gain. -/
def Par.cmtKi : PInfo :=
  ⟨0x100C, 2, 4, false, .boundary, 0, 1000000, .plain, 0⟩

/-- CMT.ANGLE_SRC (commissioning only): First angle source. -/
def Par.cmtAngleSrc : PInfo :=
  ⟨0x100D, 0, 4, false, .commissioning, 0, 7, .none255, 255⟩

/-- CMT.ANGLE_SRC2 (commissioning only): Second angle source. -/
def Par.cmtAngleSrc2 : PInfo :=
  ⟨0x100E, 0, 4, false, .commissioning, 0, 7, .none255, 255⟩

/-- CMT.ANGLE_MODE (commissioning only): 1: observer in place of channels from CMT.OBS_ON. -/
def Par.cmtAngleMode : PInfo :=
  ⟨0x100F, 0, 4, false, .commissioning, 0, 1, .plain, 0⟩

/-- CMT.ANGLE_OFFSET (commissioning only): ρ for absolute and indexed sources. -/
def Par.cmtAngleOffset : PInfo :=
  ⟨0x1010, 1, 4, false, .commissioning, 0, 65535, .plain, 0⟩

/-- CMT.ANGLE_INIT (commissioning only): 1: alignment allowed (R200). -/
def Par.cmtAngleInit : PInfo :=
  ⟨0x1011, 0, 4, false, .commissioning, 0, 1, .plain, 0⟩

/-- CMT.ALIGN_I (idle only): Alignment current. -/
def Par.cmtAlignI : PInfo :=
  ⟨0x1012, 2, 4, false, .idle, 0, 300000, .plain, 0⟩

/-- CMT.ALIGN_TIME (idle only): Alignment time. -/
def Par.cmtAlignTime : PInfo :=
  ⟨0x1013, 1, 4, false, .idle, 10, 2000, .plain, 200⟩

/-- CMT.ANGLE_LEAD (at period boundary): Angle advance (R198). -/
def Par.cmtAngleLead : PInfo :=
  ⟨0x1014, 1, 4, false, .boundary, 0, 400, .plain, 150⟩

/-- CMT.ISAMPLE_DELAY (commissioning only): Sampling delay after the boundary. -/
def Par.cmtIsampleDelay : PInfo :=
  ⟨0x1015, 1, 4, false, .commissioning, 0, 5000, .plain, 250⟩

/-- CMT.I_LSB (commissioning only): Current per LSB. -/
def Par.cmtILsb : PInfo :=
  ⟨0x1016, 2, 4, false, .commissioning, 1, 100000, .plain, 25000⟩

/-- CMT.V_LSB (commissioning only): Phase voltage per LSB. -/
def Par.cmtVLsb : PInfo :=
  ⟨0x1017, 2, 4, false, .commissioning, 1, 100000, .plain, 5000⟩

/-- CMT.IQ_TOL (at period boundary): Current tolerance (R209, R210, R212). -/
def Par.cmtIqTol : PInfo :=
  ⟨0x1018, 2, 4, false, .boundary, 100, 100000, .plain, 5000⟩

/-- CMT.V_TOL (at period boundary): Voltage residual tolerance. -/
def Par.cmtVTol : PInfo :=
  ⟨0x1019, 2, 4, false, .boundary, 100, 20000, .plain, 2000⟩

/-- CMT.IQ_COUNT (at period boundary): Consecutive failures that fence. -/
def Par.cmtIqCount : PInfo :=
  ⟨0x101A, 0, 4, false, .boundary, 1, 255, .plain, 4⟩

/-- CMT.EMF_MIN (at period boundary): Lowest trackable EMF. -/
def Par.cmtEmfMin : PInfo :=
  ⟨0x101B, 2, 4, false, .boundary, 100, 10000, .plain, 500⟩

/-- CMT.CATCH_MIN (at period boundary): Standstill threshold. -/
def Par.cmtCatchMin : PInfo :=
  ⟨0x101C, 1, 4, false, .boundary, 1, 10000, .plain, 50⟩

/-- CMT.CATCH_WINDOW (at period boundary): Tracking window. -/
def Par.cmtCatchWindow : PInfo :=
  ⟨0x101D, 0, 4, false, .boundary, 1, 5, .plain, 2⟩

/-- CMT.CATCH_FWD_MAX (at period boundary): Fastest forward catch. -/
def Par.cmtCatchFwdMax : PInfo :=
  ⟨0x101E, 1, 4, false, .boundary, 0, 30000, .plain, 0⟩

/-- CMT.CATCH_REV_MAX (at period boundary): Fastest backward catch. -/
def Par.cmtCatchRevMax : PInfo :=
  ⟨0x101F, 1, 4, false, .boundary, 0, 30000, .plain, 0⟩

/-- CMT.OBS_ON (commissioning only): Lowest observer speed. -/
def Par.cmtObsOn : PInfo :=
  ⟨0x1020, 1, 4, false, .commissioning, 0, 30000, .plain, 0⟩

/-- CMT.OBS_LOSS (at period boundary): Observer angle-error limit, angle counts. -/
def Par.cmtObsLoss : PInfo :=
  ⟨0x1021, 1, 4, false, .boundary, 1820, 16384, .plain, 5461⟩

/-- CMT.OBS_LOSS_N (at period boundary): Consecutive errors that mean loss. -/
def Par.cmtObsLossN : PInfo :=
  ⟨0x1022, 0, 4, false, .boundary, 1, 64, .plain, 4⟩

/-- CMT.LOSS_ACTION (commissioning only): Action on loss of rotor (R216). -/
def Par.cmtLossAction : PInfo :=
  ⟨0x1023, 0, 4, false, .commissioning, 0, 1, .plain, 0⟩

/-- CMT.REACQ_TRIES (at period boundary): Re-acquisition tries (R217). -/
def Par.cmtReacqTries : PInfo :=
  ⟨0x1024, 0, 4, false, .boundary, 0, 10, .plain, 3⟩

/-- CMT.FENCE_STATE (commissioning only): Fenced state (R218). -/
def Par.cmtFenceState : PInfo :=
  ⟨0x1025, 0, 4, false, .commissioning, 0, 1, .plain, 0⟩

/-- CMT.TORQUE_SRC (commissioning only): Torque command source (R206). -/
def Par.cmtTorqueSrc : PInfo :=
  ⟨0x1026, 0, 4, false, .commissioning, 0, 63, .none255, 255⟩

/-- The parameters of the CMT block in ascending ID. -/
def parsOfCmt : List PInfo :=
  [Par.cmtPwmPeriod, Par.cmtPolePairs, Par.cmtPsi,
   Par.cmtRs, Par.cmtLd, Par.cmtLq,
   Par.cmtICont, Par.cmtIMax, Par.cmtIdMin,
   Par.cmtVlim, Par.cmtKp, Par.cmtKi,
   Par.cmtAngleSrc, Par.cmtAngleSrc2, Par.cmtAngleMode,
   Par.cmtAngleOffset, Par.cmtAngleInit, Par.cmtAlignI,
   Par.cmtAlignTime, Par.cmtAngleLead, Par.cmtIsampleDelay,
   Par.cmtILsb, Par.cmtVLsb, Par.cmtIqTol,
   Par.cmtVTol, Par.cmtIqCount, Par.cmtEmfMin,
   Par.cmtCatchMin, Par.cmtCatchWindow, Par.cmtCatchFwdMax,
   Par.cmtCatchRevMax, Par.cmtObsOn, Par.cmtObsLoss,
   Par.cmtObsLossN, Par.cmtLossAction, Par.cmtReacqTries,
   Par.cmtFenceState, Par.cmtTorqueSrc]

/-! #### GDR -/

/-- GDR.DEADTIME (commissioning only): Dead time (R229). -/
def Par.gdrDeadtime : PInfo :=
  ⟨0x1101, 1, 29, false, .commissioning, 16, 1600, .plain, 400⟩

/-- GDR.PRE_ON (at period boundary): Turn-on pre-charge. -/
def Par.gdrPreOn : PInfo :=
  ⟨0x1102, 0, 29, false, .boundary, 2, 40, .plain, 10⟩

/-- GDR.PLAT_ON_I (at period boundary): Turn-on plateau code. -/
def Par.gdrPlatOnI : PInfo :=
  ⟨0x1103, 0, 29, false, .boundary, 0, 15, .plain, 4⟩

/-- GDR.PLAT_ON_TIME (at period boundary): Turn-on plateau duration. -/
def Par.gdrPlatOnTime : PInfo :=
  ⟨0x1104, 1, 29, false, .boundary, 50, 4000, .step 10, 500⟩

/-- GDR.PRE_OFF (at period boundary): Turn-off pre-discharge. -/
def Par.gdrPreOff : PInfo :=
  ⟨0x1105, 0, 29, false, .boundary, 2, 40, .plain, 10⟩

/-- GDR.PLAT_OFF_I (at period boundary): Turn-off plateau code. -/
def Par.gdrPlatOffI : PInfo :=
  ⟨0x1106, 0, 29, false, .boundary, 0, 15, .plain, 4⟩

/-- GDR.PLAT_OFF_TIME (at period boundary): Turn-off plateau duration. -/
def Par.gdrPlatOffTime : PInfo :=
  ⟨0x1107, 1, 29, false, .boundary, 50, 4000, .step 10, 500⟩

/-- GDR.VDS_TH (at period boundary): VDS threshold code (R232), 1.0 V by default. -/
def Par.gdrVdsTh : PInfo :=
  ⟨0x1108, 0, 29, false, .boundary, 0, 31, .plain, 21⟩

/-- GDR.VDS_BLANK (at period boundary): Blanking code (R232). -/
def Par.gdrVdsBlank : PInfo :=
  ⟨0x1109, 0, 4, false, .boundary, 1, 32, .plain, 8⟩

/-- GDR.GROSS_I (commissioning only): Gross-current threshold (R233). -/
def Par.gdrGrossI : PInfo :=
  ⟨0x110A, 2, 4, false, .commissioning, 1600, 300000, .plain, 20000⟩

/-- GDR.SOFT_OFF_I (commissioning only): Soft turn-off sink code (R234). -/
def Par.gdrSoftOffI : PInfo :=
  ⟨0x110B, 0, 4, false, .commissioning, 0, 15, .plain, 2⟩

/-- GDR.OST_AUTO (commissioning only): 1: automatic off-state test (R243). -/
def Par.gdrOstAuto : PInfo :=
  ⟨0x110C, 0, 4, false, .commissioning, 0, 1, .plain, 1⟩

/-- GDR.OST_SETTLE (idle only): Settling time per test step. -/
def Par.gdrOstSettle : PInfo :=
  ⟨0x110D, 1, 4, false, .idle, 200, 10000, .plain, 2000⟩

/-- GDR.OST_WINDOW (idle only): Window for high and low readings. -/
def Par.gdrOstWindow : PInfo :=
  ⟨0x110E, 0, 4, false, .idle, 5, 40, .plain, 20⟩

/-- GDR.LINE_LIMIT (commissioning only): Deviating periods that fail a line (R247, R248). -/
def Par.gdrLineLimit : PInfo :=
  ⟨0x110F, 0, 1, false, .commissioning, 1, 16, .plain, 4⟩

/-- The parameters of the GDR block in ascending ID. -/
def parsOfGdr : List PInfo :=
  [Par.gdrDeadtime, Par.gdrPreOn, Par.gdrPlatOnI,
   Par.gdrPlatOnTime, Par.gdrPreOff, Par.gdrPlatOffI,
   Par.gdrPlatOffTime, Par.gdrVdsTh, Par.gdrVdsBlank,
   Par.gdrGrossI, Par.gdrSoftOffI, Par.gdrOstAuto,
   Par.gdrOstSettle, Par.gdrOstWindow, Par.gdrLineLimit]

/-! #### STP -/

/-- STP.ENABLE (commissioning only): 1: channel in use (R252). -/
def Par.stpEnable : PInfo :=
  ⟨0x1201, 0, 6, false, .commissioning, 0, 1, .plain, 0⟩

/-- STP.PWM_PERIOD (commissioning only): PWM period. -/
def Par.stpPwmPeriod : PInfo :=
  ⟨0x1202, 2, 6, false, .commissioning, 12500, 100000, .step 10, 50000⟩

/-- STP.STEP_DIV (commissioning only): Coarse grid of ST2–ST5. -/
def Par.stpStepDiv : PInfo :=
  ⟨0x1203, 0, 6, false, .commissioning, 1, 16, .oneOf [1, 2, 4, 8, 16], 16⟩

/-- STP.DIR (commissioning only): 1 reverses the electrical direction. -/
def Par.stpDir : PInfo :=
  ⟨0x1204, 0, 6, false, .commissioning, 0, 1, .plain, 0⟩

/-- STP.I_RUN (at period boundary): Run current. -/
def Par.stpIRun : PInfo :=
  ⟨0x1205, 1, 6, false, .boundary, 0, 8000, .plain, 0⟩

/-- STP.I_HOLD (at period boundary): Hold current. -/
def Par.stpIHold : PInfo :=
  ⟨0x1206, 1, 6, false, .boundary, 0, 8000, .plain, 0⟩

/-- STP.IDLE_DELAY (at period boundary): Time at run current after a stop. -/
def Par.stpIdleDelay : PInfo :=
  ⟨0x1207, 1, 6, false, .boundary, 0, 10000, .plain, 200⟩

/-- STP.R_COIL (commissioning only): Coil resistance. -/
def Par.stpRCoil : PInfo :=
  ⟨0x1208, 2, 6, false, .commissioning, 0, 100000, .plain, 0⟩

/-- STP.KE (commissioning only): Back-EMF constant. -/
def Par.stpKe : PInfo :=
  ⟨0x1209, 2, 6, false, .commissioning, 0, 100000, .plain, 0⟩

/-- STP.MODE_SEL (idle only): Quiet, strong or automatic (R259). -/
def Par.stpModeSel : PInfo :=
  ⟨0x120A, 0, 6, false, .idle, 0, 2, .plain, 1⟩

/-- STP.SW_SPEED (at period boundary): Strong-to-quiet threshold. -/
def Par.stpSwSpeed : PInfo :=
  ⟨0x120B, 2, 6, false, .boundary, 0, 2560000, .plain, 128000⟩

/-- STP.SW_HYST (at period boundary): Hysteresis. -/
def Par.stpSwHyst : PInfo :=
  ⟨0x120C, 2, 6, false, .boundary, 0, 256000, .plain, 12800⟩

/-- STP.DECAY (at period boundary): Decay (R258). -/
def Par.stpDecay : PInfo :=
  ⟨0x120D, 0, 6, false, .boundary, 0, 2, .plain, 1⟩

/-- STP.PROFILE (at period boundary): Trapezoidal or S-curve; from the next move. -/
def Par.stpProfile : PInfo :=
  ⟨0x120E, 0, 6, false, .boundary, 0, 1, .plain, 0⟩

/-- STP.V_MAX (commissioning only): Velocity limit (R273). -/
def Par.stpVMax : PInfo :=
  ⟨0x120F, 2, 6, false, .commissioning, 1, 2560000, .plain, 25600⟩

/-- STP.A_MAX (at period boundary): Acceleration. -/
def Par.stpAMax : PInfo :=
  ⟨0x1210, 2, 6, false, .boundary, 1, 1000000000, .plain, 256000⟩

/-- STP.D_MAX (at period boundary): Deceleration. -/
def Par.stpDMax : PInfo :=
  ⟨0x1211, 2, 6, false, .boundary, 1, 1000000000, .plain, 256000⟩

/-- STP.D_QUICK (commissioning only): Quick-stop deceleration. -/
def Par.stpDQuick : PInfo :=
  ⟨0x1212, 2, 6, false, .commissioning, 1, 1000000000, .plain, 2560000⟩

/-- STP.J_MAX (at period boundary): Jerk of S-curve. -/
def Par.stpJMax : PInfo :=
  ⟨0x1213, 2, 6, false, .boundary, 1, 4000000000, .plain, 25600000⟩

/-- STP.POS_MIN (commissioning only): Lowest target. -/
def Par.stpPosMin : PInfo :=
  ⟨0x1214, 2, 6, true, .commissioning, (-2147483648), 2147483647, .plain, (-2147483648)⟩

/-- STP.POS_MAX (commissioning only): Highest target. -/
def Par.stpPosMax : PInfo :=
  ⟨0x1215, 2, 6, true, .commissioning, (-2147483648), 2147483647, .plain, 2147483647⟩

/-- STP.HOME_METHOD (commissioning only): Homing method (R265). -/
def Par.stpHomeMethod : PInfo :=
  ⟨0x1216, 0, 6, false, .commissioning, 0, 4, .plain, 0⟩

/-- STP.HOME_DIR (commissioning only): Seek direction. -/
def Par.stpHomeDir : PInfo :=
  ⟨0x1217, 0, 6, false, .commissioning, 0, 1, .plain, 0⟩

/-- STP.HOME_SPEED (commissioning only): Seek speed. -/
def Par.stpHomeSpeed : PInfo :=
  ⟨0x1218, 2, 6, false, .commissioning, 1, 2560000, .plain, 12800⟩

/-- STP.HOME_I (commissioning only): Current for homing to stall. -/
def Par.stpHomeI : PInfo :=
  ⟨0x1219, 1, 6, false, .commissioning, 0, 8000, .plain, 0⟩

/-- STP.HOME_SW (commissioning only): Home switch input. -/
def Par.stpHomeSw : PInfo :=
  ⟨0x121A, 0, 6, false, .commissioning, 0, 7, .none255, 255⟩

/-- STP.HOME_POS (commissioning only): Position at the home reference. -/
def Par.stpHomePos : PInfo :=
  ⟨0x121B, 2, 6, true, .commissioning, (-2147483648), 2147483647, .plain, 0⟩

/-- STP.HOME_BACKOFF (commissioning only): Back-off after homing. -/
def Par.stpHomeBackoff : PInfo :=
  ⟨0x121C, 2, 6, false, .commissioning, 0, 1048576, .plain, 0⟩

/-- STP.HOME_TIMEOUT (commissioning only): Homing time limit. -/
def Par.stpHomeTimeout : PInfo :=
  ⟨0x121D, 1, 6, false, .commissioning, 100, 60000, .plain, 10000⟩

/-- STP.FB_CH (commissioning only): Encoder channel. -/
def Par.stpFbCh : PInfo :=
  ⟨0x121E, 0, 6, false, .commissioning, 0, 7, .none255, 255⟩

/-- STP.FB_NUM (commissioning only): Counts per microstep, numerator. -/
def Par.stpFbNum : PInfo :=
  ⟨0x121F, 2, 6, true, .commissioning, (-2147483648), 2147483647, .nonzero, 1⟩

/-- STP.FB_DEN (commissioning only): Denominator. -/
def Par.stpFbDen : PInfo :=
  ⟨0x1220, 2, 6, false, .commissioning, 1, 2147483647, .plain, 1⟩

/-- STP.LOST_TOL (at period boundary): Lost-step tolerance (R269). -/
def Par.stpLostTol : PInfo :=
  ⟨0x1221, 2, 6, false, .boundary, 1, 65536, .plain, 256⟩

/-- STP.LOST_COUNT (at period boundary): Consecutive deviations. -/
def Par.stpLostCount : PInfo :=
  ⟨0x1222, 0, 6, false, .boundary, 1, 255, .plain, 4⟩

/-- STP.STALL_SPEED (at period boundary): Lowest judged speed (R268). -/
def Par.stpStallSpeed : PInfo :=
  ⟨0x1223, 2, 6, false, .boundary, 0, 2560000, .plain, 25600⟩

/-- STP.STALL_EMF (at period boundary): Stall threshold. -/
def Par.stpStallEmf : PInfo :=
  ⟨0x1224, 0, 6, false, .boundary, 10, 90, .plain, 40⟩

/-- STP.I_TOL (at period boundary): Coil-current tolerance (R271). -/
def Par.stpITol : PInfo :=
  ⟨0x1225, 1, 6, false, .boundary, 10, 4000, .plain, 200⟩

/-- STP.TAB_CRC (commissioning only): 0: fixed table; else CRC-32C of the reshaped table. -/
def Par.stpTabCrc : PInfo :=
  ⟨0x1226, 2, 2, false, .commissioning, 0, 4294967295, .plain, 0⟩

/-- STP.Q_KP (at period boundary): Proportional gain of the quiet current loop (R257). -/
def Par.stpQKp : PInfo :=
  ⟨0x1227, 2, 6, false, .boundary, 0, 100000, .plain, 0⟩

/-- STP.Q_KI (at period boundary): Integral gain of the quiet current loop (R257). -/
def Par.stpQKi : PInfo :=
  ⟨0x1228, 2, 6, false, .boundary, 0, 1000000, .plain, 0⟩

/-- STP.L_COIL (commissioning only): Coil inductance (R268). -/
def Par.stpLCoil : PInfo :=
  ⟨0x1229, 2, 6, false, .commissioning, 0, 1000000, .plain, 0⟩

/-- STP.STALL_ANGLE (at period boundary): Load-angle stall threshold (R268). -/
def Par.stpStallAngle : PInfo :=
  ⟨0x122A, 0, 6, false, .boundary, 45, 180, .plain, 110⟩

/-- STP.TAB0 (idle only): ST0 table entry, only by STP.TABLE_LOAD. -/
def Par.stpTab0 : PInfo :=
  ⟨0x1230, 2, 256, false, .idle, 0, 4294967295, .plain, 0⟩

/-- STP.TAB1 (idle only): ST1 table entry, only by STP.TABLE_LOAD. -/
def Par.stpTab1 : PInfo :=
  ⟨0x1231, 2, 256, false, .idle, 0, 4294967295, .plain, 0⟩

/-- The parameters of the STP block in ascending ID. -/
def parsOfStp : List PInfo :=
  [Par.stpEnable, Par.stpPwmPeriod, Par.stpStepDiv,
   Par.stpDir, Par.stpIRun, Par.stpIHold,
   Par.stpIdleDelay, Par.stpRCoil, Par.stpKe,
   Par.stpModeSel, Par.stpSwSpeed, Par.stpSwHyst,
   Par.stpDecay, Par.stpProfile, Par.stpVMax,
   Par.stpAMax, Par.stpDMax, Par.stpDQuick,
   Par.stpJMax, Par.stpPosMin, Par.stpPosMax,
   Par.stpHomeMethod, Par.stpHomeDir, Par.stpHomeSpeed,
   Par.stpHomeI, Par.stpHomeSw, Par.stpHomePos,
   Par.stpHomeBackoff, Par.stpHomeTimeout, Par.stpFbCh,
   Par.stpFbNum, Par.stpFbDen, Par.stpLostTol,
   Par.stpLostCount, Par.stpStallSpeed, Par.stpStallEmf,
   Par.stpITol, Par.stpTabCrc, Par.stpQKp,
   Par.stpQKi, Par.stpLCoil, Par.stpStallAngle,
   Par.stpTab0, Par.stpTab1]

/-! #### FBK -/

/-- FBK.MODE (commissioning only): Mode under R169. -/
def Par.fbkMode : PInfo :=
  ⟨0x1301, 0, 8, false, .commissioning, 0, 5, .plain, 0⟩

/-- FBK.FILTER (idle only): Input filter under R171. -/
def Par.fbkFilter : PInfo :=
  ⟨0x1302, 0, 8, false, .idle, 0, 255, .plain, 4⟩

/-- FBK.HYST (idle only): One-count direction hysteresis under R173. -/
def Par.fbkHyst : PInfo :=
  ⟨0x1303, 0, 8, false, .idle, 0, 1, .plain, 0⟩

/-- FBK.DIR (commissioning only): 1 reverses the count direction. -/
def Par.fbkDir : PInfo :=
  ⟨0x1304, 0, 8, false, .commissioning, 0, 1, .plain, 0⟩

/-- FBK.CPR (commissioning only): Counts per revolution. -/
def Par.fbkCpr : PInfo :=
  ⟨0x1305, 2, 8, false, .commissioning, 4, 268435456, .plain, 4096⟩

/-- FBK.COUNT_MODE (commissioning only): Count mode under R174. -/
def Par.fbkCountMode : PInfo :=
  ⟨0x1306, 0, 8, false, .commissioning, 0, 2, .plain, 0⟩

/-- FBK.INDEX_POS (commissioning only): Position of the index in count mode 1. -/
def Par.fbkIndexPos : PInfo :=
  ⟨0x1307, 2, 8, false, .commissioning, 0, 268435455, .plain, 0⟩

/-- FBK.INDEX_TOL (at period boundary): Index tolerance under R175 and R176. -/
def Par.fbkIndexTol : PInfo :=
  ⟨0x1308, 1, 8, false, .boundary, 0, 1023, .plain, 2⟩

/-- FBK.INDEX_LIMIT (at period boundary): Consecutive index deviations that fence. -/
def Par.fbkIndexLimit : PInfo :=
  ⟨0x1309, 0, 8, false, .boundary, 1, 16, .plain, 3⟩

/-- FBK.SENT_TICK (commissioning only): Nominal SENT tick. -/
def Par.fbkSentTick : PInfo :=
  ⟨0x130A, 1, 8, false, .commissioning, 100, 1000, .plain, 300⟩

/-- FBK.SENT_NIBBLES (commissioning only): Data nibbles per frame. -/
def Par.fbkSentNibbles : PInfo :=
  ⟨0x130B, 0, 8, false, .commissioning, 1, 6, .plain, 6⟩

/-- FBK.SENT_FC1 (commissioning only): Width of fast channel 1. -/
def Par.fbkSentFc1 : PInfo :=
  ⟨0x130C, 0, 8, false, .commissioning, 4, 24, .step 4, 12⟩

/-- FBK.SENT_OPT (commissioning only): Bit 0 pause pulse; bit 1 fast channel 2 reversed; bit 2 status nibble in CRC; bit 3 serial messages. -/
def Par.fbkSentOpt : PInfo :=
  ⟨0x130D, 0, 8, false, .commissioning, 0, 15, .plain, 0⟩

/-- FBK.SENT_STMASK (commissioning only): Status bits that invalidate a frame. -/
def Par.fbkSentStmask : PInfo :=
  ⟨0x130E, 0, 8, false, .commissioning, 0, 3, .plain, 0⟩

/-- FBK.SSI_RATE (commissioning only): SSI clock. -/
def Par.fbkSsiRate : PInfo :=
  ⟨0x130F, 2, 8, false, .commissioning, 100000, 5000000, .plain, 1000000⟩

/-- FBK.SSI_BITS (commissioning only): Data bits per frame. -/
def Par.fbkSsiBits : PInfo :=
  ⟨0x1310, 0, 8, false, .commissioning, 8, 32, .plain, 25⟩

/-- FBK.SSI_ST (commissioning only): Single-turn bits. -/
def Par.fbkSsiSt : PInfo :=
  ⟨0x1311, 0, 8, false, .commissioning, 0, 32, .plain, 13⟩

/-- FBK.SSI_OPT (commissioning only): Bit 0 Gray; bit 1 even parity; bit 2 double transmission; bit 3 error bit. -/
def Par.fbkSsiOpt : PInfo :=
  ⟨0x1312, 0, 8, false, .commissioning, 0, 15, .plain, 1⟩

/-- FBK.SSI_LEAD (commissioning only): Transfer start before S. -/
def Par.fbkSsiLead : PInfo :=
  ⟨0x1313, 2, 8, false, .commissioning, 5000, 4000000, .plain, 50000⟩

/-- FBK.SSI_MONO (commissioning only): Monoflop time. -/
def Par.fbkSsiMono : PInfo :=
  ⟨0x1314, 0, 8, false, .commissioning, 1, 64, .plain, 20⟩

/-- FBK.SC_RMIN (at period boundary): Lowest sine/cosine radius. -/
def Par.fbkScRmin : PInfo :=
  ⟨0x1315, 0, 8, false, .boundary, 10, 100, .plain, 60⟩

/-- FBK.SC_RMAX (at period boundary): Highest sine/cosine radius. -/
def Par.fbkScRmax : PInfo :=
  ⟨0x1316, 0, 8, false, .boundary, 100, 200, .plain, 140⟩

/-- FBK.MAX_AGE (at period boundary): Oldest usable SENT or SSI frame at S. -/
def Par.fbkMaxAge : PInfo :=
  ⟨0x1317, 2, 8, false, .boundary, 10000, 10000000, .plain, 1000000⟩

/-- FBK.BAD_LIMIT (at period boundary): Consecutive invalid periods that fence under R183. -/
def Par.fbkBadLimit : PInfo :=
  ⟨0x1318, 0, 8, false, .boundary, 1, 255, .plain, 8⟩

/-- FBK.PLAUS_PARTNER (commissioning only): Partner channel. -/
def Par.fbkPlausPartner : PInfo :=
  ⟨0x1319, 0, 8, false, .commissioning, 0, 7, .none255, 255⟩

/-- FBK.PLAUS_NUM (commissioning only): Numerator of the relation. -/
def Par.fbkPlausNum : PInfo :=
  ⟨0x131A, 2, 8, true, .commissioning, (-2147483648), 2147483647, .nonzero, 1⟩

/-- FBK.PLAUS_DEN (commissioning only): Denominator of the relation. -/
def Par.fbkPlausDen : PInfo :=
  ⟨0x131B, 2, 8, false, .commissioning, 1, 2147483647, .plain, 1⟩

/-- FBK.PLAUS_TOL (at period boundary): Tolerance, in partner units. -/
def Par.fbkPlausTol : PInfo :=
  ⟨0x131C, 2, 8, false, .boundary, 0, 2147483647, .plain, 16⟩

/-- FBK.PLAUS_COUNT (at period boundary): Consecutive failures that act. -/
def Par.fbkPlausCount : PInfo :=
  ⟨0x131D, 0, 8, false, .boundary, 1, 255, .plain, 4⟩

/-- FBK.SUBST (commissioning only): 1 substitutes from the partner under R190. -/
def Par.fbkSubst : PInfo :=
  ⟨0x131E, 0, 8, false, .commissioning, 0, 1, .plain, 0⟩

/-- The parameters of the FBK block in ascending ID. -/
def parsOfFbk : List PInfo :=
  [Par.fbkMode, Par.fbkFilter, Par.fbkHyst,
   Par.fbkDir, Par.fbkCpr, Par.fbkCountMode,
   Par.fbkIndexPos, Par.fbkIndexTol, Par.fbkIndexLimit,
   Par.fbkSentTick, Par.fbkSentNibbles, Par.fbkSentFc1,
   Par.fbkSentOpt, Par.fbkSentStmask, Par.fbkSsiRate,
   Par.fbkSsiBits, Par.fbkSsiSt, Par.fbkSsiOpt,
   Par.fbkSsiLead, Par.fbkSsiMono, Par.fbkScRmin,
   Par.fbkScRmax, Par.fbkMaxAge, Par.fbkBadLimit,
   Par.fbkPlausPartner, Par.fbkPlausNum, Par.fbkPlausDen,
   Par.fbkPlausTol, Par.fbkPlausCount, Par.fbkSubst]

/-! #### LOOP -/

/-- LOOP.ENABLE (commissioning only): 1: context computed. -/
def Par.loopEnable : PInfo :=
  ⟨0x1401, 0, 64, false, .commissioning, 0, 1, .plain, 0⟩

/-- LOOP.PV_SRC (commissioning only): Process value source. -/
def Par.loopPvSrc : PInfo :=
  ⟨0x1402, 0, 64, false, .commissioning, 0, 255, .pvSrc, 255⟩

/-- LOOP.PV_OFFSET (commissioning only): Raw offset. -/
def Par.loopPvOffset : PInfo :=
  ⟨0x1403, 2, 64, true, .commissioning, (-2147483648), 2147483647, .plain, 0⟩

/-- LOOP.PV_NUM (commissioning only): Scale numerator. -/
def Par.loopPvNum : PInfo :=
  ⟨0x1404, 2, 64, true, .commissioning, (-2147483648), 2147483647, .nonzero, 1⟩

/-- LOOP.PV_DEN (commissioning only): Scale denominator. -/
def Par.loopPvDen : PInfo :=
  ⟨0x1405, 2, 64, false, .commissioning, 1, 2147483647, .plain, 1⟩

/-- LOOP.SP_SRC (commissioning only): Setpoint source (R279). -/
def Par.loopSpSrc : PInfo :=
  ⟨0x1406, 0, 64, false, .commissioning, 0, 63, .none255, 255⟩

/-- LOOP.KP (at period boundary): Proportional gain. -/
def Par.loopKp : PInfo :=
  ⟨0x1407, 2, 64, true, .boundary, (-2147483648), 2147483647, .plain, 0⟩

/-- LOOP.KI (at period boundary): Integral gain per period. -/
def Par.loopKi : PInfo :=
  ⟨0x1408, 2, 64, true, .boundary, (-2147483648), 2147483647, .plain, 0⟩

/-- LOOP.KD (at period boundary): Derivative gain per period. -/
def Par.loopKd : PInfo :=
  ⟨0x1409, 2, 64, true, .boundary, (-2147483648), 2147483647, .plain, 0⟩

/-- LOOP.DF (at period boundary): Derivative filter coefficient. -/
def Par.loopDf : PInfo :=
  ⟨0x140A, 2, 64, false, .boundary, 1, 65536, .plain, 65536⟩

/-- LOOP.OUT_MIN (at period boundary): Lower output limit. -/
def Par.loopOutMin : PInfo :=
  ⟨0x140B, 2, 64, true, .boundary, (-8388607), 8388607, .plain, 0⟩

/-- LOOP.OUT_MAX (at period boundary): Upper output limit. -/
def Par.loopOutMax : PInfo :=
  ⟨0x140C, 2, 64, true, .boundary, (-8388607), 8388607, .plain, 0⟩

/-- LOOP.OUT_INIT (at period boundary): Manual output under R288. -/
def Par.loopOutInit : PInfo :=
  ⟨0x140D, 2, 64, true, .boundary, (-8388607), 8388607, .plain, 0⟩

/-- LOOP.STP_DEST (commissioning only): Stepper destination (R280). -/
def Par.loopStpDest : PInfo :=
  ⟨0x140E, 0, 64, false, .commissioning, 0, 5, .none255, 255⟩

/-- The parameters of the LOOP block in ascending ID. -/
def parsOfLoop : List PInfo :=
  [Par.loopEnable, Par.loopPvSrc, Par.loopPvOffset,
   Par.loopPvNum, Par.loopPvDen, Par.loopSpSrc,
   Par.loopKp, Par.loopKi, Par.loopKd,
   Par.loopDf, Par.loopOutMin, Par.loopOutMax,
   Par.loopOutInit, Par.loopStpDest]

/-! #### NET -/

/-- NET.NODE_ID (commissioning only): NodeID on all three planes. -/
def Par.netNodeId : PInfo :=
  ⟨0x2001, 1, 1, false, .commissioning, 0, 65535, .plain, 0⟩

/-- NET.ETHERTYPE (commissioning only): EtherType of Ocgal frames. -/
def Par.netEthertype : PInfo :=
  ⟨0x2002, 1, 1, false, .commissioning, 1536, 65535, .plain, 34997⟩

/-- NET.AUTOSTART (commissioning only): 1: startup is requested at admission (R317). -/
def Par.netAutostart : PInfo :=
  ⟨0x2003, 0, 1, false, .commissioning, 0, 1, .plain, 0⟩

/-- NET.COLDSTART_RANK (commissioning only): 0: never coldstarts; 1 is the highest rank. -/
def Par.netColdstartRank : PInfo :=
  ⟨0x2004, 0, 1, false, .commissioning, 0, 15, .plain, 0⟩

/-- NET.RX_MASK (commissioning only): Slots taken into agreement (R315). -/
def Par.netRxMask : PInfo :=
  ⟨0x2005, 3, 16, false, .commissioning, 0, 18446744073709551615, .plain, 0⟩

/-- NET.MAX_AGE (at period boundary): Oldest valid slot data (R321). -/
def Par.netMaxAge : PInfo :=
  ⟨0x2006, 0, 1, false, .boundary, 1, 255, .plain, 8⟩

/-- NET.MISS_LIMIT (at period boundary): Consecutive misses that record 0x2004. -/
def Par.netMissLimit : PInfo :=
  ⟨0x2007, 0, 1, false, .boundary, 1, 255, .plain, 16⟩

/-- NET.ARB_CREDITS (commissioning only): Frames in flight per session (R331); sized to the frame store under R328. -/
def Par.netArbCredits : PInfo :=
  ⟨0x2008, 0, 1, false, .commissioning, 1, 8, .plain, 4⟩

/-- NET.FCS_LIMIT (at period boundary): Failed frames per port per matrix cycle that record 0x2001. -/
def Par.netFcsLimit : PInfo :=
  ⟨0x2009, 1, 1, false, .boundary, 1, 65535, .plain, 64⟩

/-- NET.LOSS_CYCLES (at period boundary): Silence that starts RECOVERY (R323). -/
def Par.netLossCycles : PInfo :=
  ⟨0x200A, 0, 1, false, .boundary, 2, 64, .plain, 8⟩

/-- NET.SPARE_RELEASE (at period boundary): Silence that frees a claimed slot. -/
def Par.netSpareRelease : PInfo :=
  ⟨0x200B, 0, 1, false, .boundary, 1, 255, .plain, 8⟩

/-- The parameters of the NET block in ascending ID. -/
def parsOfNet : List PInfo :=
  [Par.netNodeId, Par.netEthertype, Par.netAutostart,
   Par.netColdstartRank, Par.netRxMask, Par.netMaxAge,
   Par.netMissLimit, Par.netArbCredits, Par.netFcsLimit,
   Par.netLossCycles, Par.netSpareRelease]

/-! #### TIME -/

/-- TIME.SYNC_TOL (at period boundary): Offset that counts toward SYNCED (R345). -/
def Par.timeSyncTol : PInfo :=
  ⟨0x2101, 1, 1, false, .boundary, 5, 1000, .plain, 20⟩

/-- TIME.STEP_TH (commissioning only): Offset that steps, or in SERVICE faults (R344). -/
def Par.timeStepTh : PInfo :=
  ⟨0x2102, 2, 1, false, .commissioning, 100, 1000000, .plain, 1000⟩

/-- TIME.SLEW_CYCLES (at period boundary): Slew time of the offset term. -/
def Par.timeSlewCycles : PInfo :=
  ⟨0x2103, 0, 1, false, .boundary, 1, 64, .plain, 8⟩

/-- TIME.HANDOVER_CYCLES (commissioning only): Missed sync windows before a candidate sends (R351). -/
def Par.timeHandoverCycles : PInfo :=
  ⟨0x2104, 0, 1, false, .commissioning, 1, 16, .plain, 2⟩

/-- TIME.HOLDOVER_MAX (at period boundary): Holdover allowed for timed operations (R352). -/
def Par.timeHoldoverMax : PInfo :=
  ⟨0x2105, 1, 1, false, .boundary, 1, 4096, .plain, 64⟩

/-- TIME.LANE_TOL (at period boundary): NT difference between lanes (R347). -/
def Par.timeLaneTol : PInfo :=
  ⟨0x2106, 1, 1, false, .boundary, 10, 10000, .plain, 100⟩

/-- TIME.START_NT (commissioning only): First cycle start of a coldstart node; only by TIME.EPOCH_SET. -/
def Par.timeStartNt : PInfo :=
  ⟨0x2107, 3, 1, false, .commissioning, 0, 18446744073709551615, .plain, 0⟩

/-- TIME.DELAY_SAMPLES (commissioning only): Probe exchanges per link (R338). -/
def Par.timeDelaySamples : PInfo :=
  ⟨0x2108, 0, 1, false, .commissioning, 1, 16, .plain, 16⟩

/-- The parameters of the TIME block in ascending ID. -/
def parsOfTime : List PInfo :=
  [Par.timeSyncTol, Par.timeStepTh, Par.timeSlewCycles,
   Par.timeHandoverCycles, Par.timeHoldoverMax, Par.timeLaneTol,
   Par.timeStartNt, Par.timeDelaySamples]

/-! #### KEY -/

/-- KEY.PEER_ID (commissioning only): Peer served; 0 disables the profile. -/
def Par.keyPeerId : PInfo :=
  ⟨0x2201, 1, 16, false, .commissioning, 0, 65535, .plain, 0⟩

/-- KEY.CARRIER (commissioning only): Carrier of the profile's sessions. -/
def Par.keyCarrier : PInfo :=
  ⟨0x2202, 0, 16, false, .commissioning, 0, 1, .plain, 0⟩

/-- KEY.RIGHTS (commissioning only): Rights under R363. -/
def Par.keyRights : PInfo :=
  ⟨0x2203, 0, 16, false, .commissioning, 0, 7, .plain, 0⟩

/-- KEY.TIME_MODE (commissioning only): Freshness check (R370). -/
def Par.keyTimeMode : PInfo :=
  ⟨0x2204, 0, 16, false, .commissioning, 0, 1, .plain, 0⟩

/-- KEY.MAX_AGE (commissioning only): Oldest fresh PDU. -/
def Par.keyMaxAge : PInfo :=
  ⟨0x2205, 2, 16, false, .commissioning, 250, 1000000, .plain, 20000⟩

/-- KEY.WD_TIMEOUT (commissioning only): Watchdog (R372). -/
def Par.keyWdTimeout : PInfo :=
  ⟨0x2206, 1, 16, false, .commissioning, 1, 8000, .plain, 100⟩

/-- KEY.SEQ_WINDOW (commissioning only): Sequence and echo window. -/
def Par.keySeqWindow : PInfo :=
  ⟨0x2207, 1, 16, false, .commissioning, 1, 65535, .plain, 16⟩

/-- KEY.LOSS_ACTION (commissioning only): Loss action (R373). -/
def Par.keyLossAction : PInfo :=
  ⟨0x2208, 0, 16, false, .commissioning, 0, 2, .plain, 1⟩

/-- KEY.RX_SLOT (commissioning only): Slot carrying the peer's PDUs. -/
def Par.keyRxSlot : PInfo :=
  ⟨0x2209, 1, 16, false, .commissioning, 0, 65535, .slot, 65535⟩

/-- KEY.TX_SLOT (commissioning only): Own slot carrying the device's PDUs. -/
def Par.keyTxSlot : PInfo :=
  ⟨0x220A, 1, 16, false, .commissioning, 0, 65535, .slot, 65535⟩

/-- KEY.FUTURE_TOL (commissioning only): Time stamp allowed ahead of Sn. -/
def Par.keyFutureTol : PInfo :=
  ⟨0x220B, 2, 1, false, .commissioning, 0, 1000000, .plain, 1000⟩

/-- KEY.OPEN_TIMEOUT (commissioning only): Wait for an open answer. -/
def Par.keyOpenTimeout : PInfo :=
  ⟨0x220C, 1, 1, false, .commissioning, 10, 10000, .plain, 500⟩

/-- KEY.FREE_DELAY (commissioning only): Time until a lost session is freed. -/
def Par.keyFreeDelay : PInfo :=
  ⟨0x220D, 1, 1, false, .commissioning, 0, 60000, .plain, 10000⟩

/-- The parameters of the KEY block in ascending ID. -/
def parsOfKey : List PInfo :=
  [Par.keyPeerId, Par.keyCarrier, Par.keyRights,
   Par.keyTimeMode, Par.keyMaxAge, Par.keyWdTimeout,
   Par.keySeqWindow, Par.keyLossAction, Par.keyRxSlot,
   Par.keyTxSlot, Par.keyFutureTol, Par.keyOpenTimeout,
   Par.keyFreeDelay]

/-! #### CRC -/

/-- CRC.TEST_INTERVAL (at period boundary): 0: no automatic test; otherwise the interval of R399. -/
def Par.crcTestInterval : PInfo :=
  ⟨0x2301, 1, 1, false, .boundary, 0, 4096, .plain, 0⟩

/-- The parameters of the CRC block in ascending ID. -/
def parsOfCrc : List PInfo :=
  [Par.crcTestInterval]

/-! #### SIO -/

/-- SIO.SI_SRC (commissioning only): Input source (R405). -/
def Par.sioSiSrc : PInfo :=
  ⟨0x2401, 0, 8, false, .commissioning, 0, 2, .plain, 0⟩

/-- SIO.SI_FILTER (at period boundary): Input filter (R407). -/
def Par.sioSiFilter : PInfo :=
  ⟨0x2402, 0, 1, false, .boundary, 1, 255, .plain, 3⟩

/-- SIO.TP_ENABLE (commissioning only): Bit k enables TPk. -/
def Par.sioTpEnable : PInfo :=
  ⟨0x2403, 0, 1, false, .commissioning, 0, 3, .plain, 0⟩

/-- SIO.TP_PERIOD (commissioning only): Test-pulse period (R406). -/
def Par.sioTpPeriod : PInfo :=
  ⟨0x2404, 1, 1, false, .commissioning, 4, 4000, .plain, 40⟩

/-- SIO.TP_OFFSET (commissioning only): Pulse start after S. -/
def Par.sioTpOffset : PInfo :=
  ⟨0x2405, 2, 1, false, .commissioning, 10000, 3990000, .step 10, 20000⟩

/-- SIO.TP_WIDTH (commissioning only): Test-pulse width. -/
def Par.sioTpWidth : PInfo :=
  ⟨0x2406, 2, 1, false, .commissioning, 20000, 2000000, .step 10, 150000⟩

/-- SIO.TP_RECOVER (commissioning only): Hold after the pulse. -/
def Par.sioTpRecover : PInfo :=
  ⟨0x2407, 2, 1, false, .commissioning, 10000, 500000, .step 10, 30000⟩

/-- SIO.IN_LIMIT (at period boundary): Failures that fence an input (R409). -/
def Par.sioInLimit : PInfo :=
  ⟨0x2408, 0, 1, false, .boundary, 1, 16, .plain, 2⟩

/-- SIO.SO_FUNC (commissioning only): Output function (R417). -/
def Par.sioSoFunc : PInfo :=
  ⟨0x2409, 0, 4, false, .commissioning, 0, 2, .plain, 0⟩

/-- SIO.OFFP_PERIOD (commissioning only): P (R414). -/
def Par.sioOffpPeriod : PInfo :=
  ⟨0x240A, 1, 1, false, .commissioning, 15, 65535, .plain, 400⟩

/-- SIO.OFFP_OFFSET (commissioning only): Off-pulse start after S. -/
def Par.sioOffpOffset : PInfo :=
  ⟨0x240B, 2, 1, false, .commissioning, 10000, 3990000, .step 10, 20000⟩

/-- SIO.OFFP_WIDTH (commissioning only): Off-pulse width. -/
def Par.sioOffpWidth : PInfo :=
  ⟨0x240C, 2, 1, false, .commissioning, 50000, 2000000, .step 10, 150000⟩

/-- SIO.OL_TEST (commissioning only): 1: open-load slot used. -/
def Par.sioOlTest : PInfo :=
  ⟨0x240D, 0, 4, false, .commissioning, 0, 1, .plain, 0⟩

/-- SIO.OUT_LIMIT (at period boundary): Failures that fence (R416). -/
def Par.sioOutLimit : PInfo :=
  ⟨0x240E, 0, 1, false, .boundary, 1, 16, .plain, 2⟩

/-- The parameters of the SIO block in ascending ID. -/
def parsOfSio : List PInfo :=
  [Par.sioSiSrc, Par.sioSiFilter, Par.sioTpEnable,
   Par.sioTpPeriod, Par.sioTpOffset, Par.sioTpWidth,
   Par.sioTpRecover, Par.sioInLimit, Par.sioSoFunc,
   Par.sioOffpPeriod, Par.sioOffpOffset, Par.sioOffpWidth,
   Par.sioOlTest, Par.sioOutLimit]

/-! #### HOST -/

/-- HOST.IO_WIDTH (any time): I/O width after the address byte; takes effect from the first frame that begins after the reply is queued, or, when SUPPRESS withholds the reply, after the checkpoint of the period in which the write is executed. -/
def Par.hostIoWidth : PInfo :=
  ⟨0x3001, 0, 3, false, .anyTime, 1, 4, .oneOf [1, 2, 4], 1⟩

/-- HOST.ATTN_MASK (any time): Causes that drive HATTN. -/
def Par.hostAttnMask : PInfo :=
  ⟨0x3002, 2, 3, false, .anyTime, 0, 255, .plain, 255⟩

/-- HOST.CREDIT_ATTN (any time): Free-credit level that raises CREDITS_FREED. -/
def Par.hostCreditAttn : PInfo :=
  ⟨0x3003, 0, 3, false, .anyTime, 1, 64, .plain, 16⟩

/-- HOST.AGREE_QUADS (commissioning only): Quads per period from this link into input agreement; counted in the budget set out in The Control Period and the Tumbler Round. -/
def Par.hostAgreeQuads : PInfo :=
  ⟨0x3004, 0, 3, false, .commissioning, 1, 64, .plain, 16⟩

/-- HOST.FREEZE_QUIET (at period boundary): Silence that releases a frozen link (R77). -/
def Par.hostFreezeQuiet : PInfo :=
  ⟨0x3005, 1, 3, false, .boundary, 10, 10000, .plain, 1000⟩

/-- The parameters of the HOST block in ascending ID. -/
def parsOfHost : List PInfo :=
  [Par.hostIoWidth, Par.hostAttnMask, Par.hostCreditAttn,
   Par.hostAgreeQuads, Par.hostFreezeQuiet]

/-! #### PWR -/

/-- PWR.IDLE_TIME (at period boundary): 0: no automatic entry (R476). -/
def Par.pwrIdleTime : PInfo :=
  ⟨0x3201, 1, 1, false, .boundary, 0, 65535, .plain, 0⟩

/-- PWR.AUTO_STATE (commissioning only): State entered by the idle timer. -/
def Par.pwrAutoState : PInfo :=
  ⟨0x3202, 0, 1, false, .commissioning, 1, 3, .plain, 1⟩

/-- PWR.WAKE_STATE (commissioning only): State entered on a wake. -/
def Par.pwrWakeState : PInfo :=
  ⟨0x3203, 0, 1, false, .commissioning, 0, 1, .plain, 1⟩

/-- PWR.GLIDE_PERIOD (at period boundary): Glide cycle period (R482). -/
def Par.pwrGlidePeriod : PInfo :=
  ⟨0x3204, 1, 1, false, .boundary, 10, 10000, .plain, 100⟩

/-- PWR.GLIDE_SI (commissioning only): Bit n: SI n watched. -/
def Par.pwrGlideSi : PInfo :=
  ⟨0x3205, 0, 1, false, .commissioning, 0, 255, .plain, 0⟩

/-- PWR.GLIDE_ADC (commissioning only): ADC input of each window. -/
def Par.pwrGlideAdc : PInfo :=
  ⟨0x3206, 0, 4, false, .commissioning, 0, 15, .none255, 255⟩

/-- PWR.GLIDE_LO (at period boundary): Lowest code in the window. -/
def Par.pwrGlideLo : PInfo :=
  ⟨0x3207, 1, 4, false, .boundary, 0, 16383, .plain, 0⟩

/-- PWR.GLIDE_HI (at period boundary): Highest code in the window. -/
def Par.pwrGlideHi : PInfo :=
  ⟨0x3208, 1, 4, false, .boundary, 0, 16383, .plain, 16383⟩

/-- PWR.GLIDE_FB (commissioning only): Bit n: FB n watched; modes 1, 2 and 5 only. -/
def Par.pwrGlideFb : PInfo :=
  ⟨0x3209, 0, 1, false, .commissioning, 0, 255, .plain, 0⟩

/-- PWR.WAKE_TIMER (at period boundary): 0: no timed wake. -/
def Par.pwrWakeTimer : PInfo :=
  ⟨0x320A, 2, 1, false, .boundary, 0, 2592000, .plain, 0⟩

/-- PWR.NET_KEEP (commissioning only): 1: lane.NET stays on for forwarding. -/
def Par.pwrNetKeep : PInfo :=
  ⟨0x320B, 0, 1, false, .commissioning, 0, 1, .plain, 0⟩

/-- PWR.LINE_WAKE (commissioning only): 1: line energy wakes. -/
def Par.pwrLineWake : PInfo :=
  ⟨0x320C, 0, 1, false, .commissioning, 0, 1, .plain, 1⟩

/-- The parameters of the PWR block in ascending ID. -/
def parsOfPwr : List PInfo :=
  [Par.pwrIdleTime, Par.pwrAutoState, Par.pwrWakeState,
   Par.pwrGlidePeriod, Par.pwrGlideSi, Par.pwrGlideAdc,
   Par.pwrGlideLo, Par.pwrGlideHi, Par.pwrGlideFb,
   Par.pwrWakeTimer, Par.pwrNetKeep, Par.pwrLineWake]

/-! #### THM -/

/-- THM.HYST (at period boundary): Falling-band hysteresis (R488). -/
def Par.thmHyst : PInfo :=
  ⟨0x3301, 0, 1, false, .boundary, 1, 10, .plain, 3⟩

/-- THM.SENSOR_TOL (commissioning only): Agreement between a die's sensors (R487). -/
def Par.thmSensorTol : PInfo :=
  ⟨0x3302, 0, 1, false, .commissioning, 2, 50, .plain, 10⟩

/-- THM.BROKEN_COUNT (at period boundary): Broken periods that fence a sensor. -/
def Par.thmBrokenCount : PInfo :=
  ⟨0x3303, 0, 1, false, .boundary, 1, 255, .plain, 8⟩

/-- THM.DERATE_MIN (commissioning only): Factor at 150 °C and in T5. -/
def Par.thmDerateMin : PInfo :=
  ⟨0x3304, 0, 1, false, .commissioning, 0, 100, .plain, 50⟩

/-- THM.THROTTLE_DUTY (at period boundary): Background duty when throttled (R490). -/
def Par.thmThrottleDuty : PInfo :=
  ⟨0x3305, 0, 1, false, .boundary, 10, 100, .plain, 50⟩

/-- THM.ARB_LIMIT (at period boundary): Own arbitrating frames per channel and basic cycle when throttled. -/
def Par.thmArbLimit : PInfo :=
  ⟨0x3306, 0, 1, false, .boundary, 1, 8, .plain, 2⟩

/-- THM.NTC_BRIDGE (commissioning only): Bridge watched by NTC #0 or #1. -/
def Par.thmNtcBridge : PInfo :=
  ⟨0x3307, 0, 2, false, .commissioning, 0, 1, .none255, 255⟩

/-- THM.NTC_START (commissioning only): Start of NTC derating. -/
def Par.thmNtcStart : PInfo :=
  ⟨0x3308, 1, 2, true, .commissioning, (-400), 1500, .plain, 1000⟩

/-- THM.NTC_END (commissioning only): End of NTC derating. -/
def Par.thmNtcEnd : PInfo :=
  ⟨0x3309, 1, 2, true, .commissioning, (-399), 1750, .plain, 1200⟩

/-- THM.NTC_R25 (commissioning only): NTC resistance at 25 °C. -/
def Par.thmNtcR25 : PInfo :=
  ⟨0x330A, 2, 2, false, .commissioning, 1000, 1000000, .plain, 10000⟩

/-- THM.NTC_B (commissioning only): NTC B constant. -/
def Par.thmNtcB : PInfo :=
  ⟨0x330B, 1, 2, false, .commissioning, 2000, 6000, .plain, 3435⟩

/-- The parameters of the THM block in ascending ID. -/
def parsOfThm : List PInfo :=
  [Par.thmHyst, Par.thmSensorTol, Par.thmBrokenCount,
   Par.thmDerateMin, Par.thmThrottleDuty, Par.thmArbLimit,
   Par.thmNtcBridge, Par.thmNtcStart, Par.thmNtcEnd,
   Par.thmNtcR25, Par.thmNtcB]

/-! #### BIST -/

/-- BIST.INTERVAL (commissioning only): Stand-down interval per lane; 0 none (R507). -/
def Par.bistInterval : PInfo :=
  ⟨0x3401, 2, 1, false, .commissioning, 0, 604800, .zeroOr 600, 3600⟩

/-- BIST.MAX_DEFER (at period boundary): Wait that records 0x3402. -/
def Par.bistMaxDefer : PInfo :=
  ⟨0x3402, 1, 1, false, .boundary, 1, 65535, .plain, 600⟩

/-- BIST.ECC_REPEAT (at period boundary): Corrections of one quad that make a candidate (R504). -/
def Par.bistEccRepeat : PInfo :=
  ⟨0x3403, 0, 1, false, .boundary, 1, 255, .plain, 4⟩

/-- The parameters of the BIST block in ascending ID. -/
def parsOfBist : List PInfo :=
  [Par.bistInterval, Par.bistMaxDefer, Par.bistEccRepeat]

/-- The parameters of a block code, without those of the loaded schedule (R313). -/
def parsOfBlock : Nat → List PInfo
  | 0x01 => parsOfLane
  | 0x02 => parsOfAuth
  | 0x03 => parsOfPer
  | 0x04 => parsOfChk
  | 0x05 => parsOfFlt
  | 0x06 => parsOfSnp
  | 0x10 => parsOfCmt
  | 0x11 => parsOfGdr
  | 0x12 => parsOfStp
  | 0x13 => parsOfFbk
  | 0x14 => parsOfLoop
  | 0x20 => parsOfNet
  | 0x21 => parsOfTime
  | 0x22 => parsOfKey
  | 0x23 => parsOfCrc
  | 0x24 => parsOfSio
  | 0x30 => parsOfHost
  | 0x32 => parsOfPwr
  | 0x33 => parsOfThm
  | 0x34 => parsOfBist
  | _ => []

/-- The block codes that own parameters, ascending. -/
def parBlocks : List Nat := [0x01, 0x02, 0x03, 0x04, 0x05, 0x06, 0x10, 0x11, 0x12, 0x13, 0x14, 0x20, 0x21, 0x22, 0x23, 0x24, 0x30, 0x32, 0x33, 0x34]

/-! #### Values -/

/-- The parameter of an ID. -/
def parOfId (id : Nat) : Option PInfo := (parsOfBlock (id / 256)).find? (fun p => p.id == id)

/-- Whether a parameter has an instance (R225, R250 for the profile fields of the gate drivers). -/
def PInfo.hasInst (p : PInfo) (i : Nat) : Bool :=
  decide (i < p.count) && (!(decide (0x1101 ≤ p.id ∧ p.id ≤ 0x1108)) || decide (i % 8 < 5))

/-- The instances of a parameter in ascending order. -/
def PInfo.insts (p : PInfo) : List Nat := (List.range p.count).filter p.hasInst

/-- The default of an instance (R38 gives AUTH.LANE_RANK one for each lane). -/
def PInfo.dfltOf (p : PInfo) (i : Nat) : Int := if p.id = 0x0201 then 2 - i else p.dflt

/-- The bits of a value of a width code (R82). -/
def widthBits (w : Nat) : Nat := 8 * 2 ^ w

/-- A stored or transmitted value, zero-extended, as the parameter's number. -/
def PInfo.decode (p : PInfo) (v : Nat) : Int := if p.signed then signedOf (widthBits p.width) v else v

/-- The parameter's number as a zero-extended value (R82). -/
def PInfo.encode (p : PInfo) (v : Int) : Nat := unsignedOf (widthBits p.width) v

/-- The codes of LOOP.PV_SRC (R278) and SNP.SPEED_SRC (R451). -/
def isPvSrc (x : Int) : Bool := decide ((0 ≤ x ∧ x ≤ 0x23) ∨ (0x40 ≤ x ∧ x ≤ 0x7F) ∨ x = 0xFF)

/-- The codes of SNP.BRK_TGT (R453). -/
def isBrkTgt (x : Int) : Bool := decide ((0 ≤ x ∧ x ≤ 0x47) ∨ x = 0xFF)

/-- The slot form of R311: the slot in bits [8:0], the channel in bit 15, or 0xFFFF for none. -/
def isSlotForm (x : Int) : Bool := decide (x = 0xFFFF) || decide ((x.toNat / 512) % 64 = 0)

/-- Whether a value lies in the range of a parameter's table, apart from ranges that name another field. -/
def PInfo.inRange (p : PInfo) (x : Int) : Bool :=
  match p.form with
  | .plain => decide (p.lo ≤ x ∧ x ≤ p.hi)
  | .none255 => decide ((p.lo ≤ x ∧ x ≤ p.hi) ∨ x = 255)
  | .nonzero => decide (p.lo ≤ x ∧ x ≤ p.hi ∧ x ≠ 0)
  | .step n => decide (p.lo ≤ x ∧ x ≤ p.hi ∧ x % n = 0)
  | .oneOf l => l.contains x
  | .zeroOr n => decide (x = 0 ∨ ((n : Int) ≤ x ∧ x ≤ p.hi))
  | .slot => decide (p.lo ≤ x ∧ x ≤ p.hi) && isSlotForm x
  | .pvSrc => isPvSrc x
  | .brkTgt => isBrkTgt x

/-- The key of a parameter instance in a sparse set of values. -/
def parKey (id i : Nat) : Nat := id * 256 + i

/-- The value of a key in a sparse set, or the default given. -/
def wsGet (l : List (Nat × Int)) (k : Nat) (d : Int) : Int :=
  match l with
  | [] => d
  | (k', v) :: r => if k' = k then v else wsGet r k d

/-- A sparse set without a key. -/
def wsErase (l : List (Nat × Int)) (k : Nat) : List (Nat × Int) := l.filter (fun e => e.1 != k)

/-- A sparse set with a key's value put in ascending place. -/
def wsInsert (l : List (Nat × Int)) (k : Nat) (v : Int) : List (Nat × Int) :=
  match l with
  | [] => [(k, v)]
  | (k', v') :: r =>
    if k < k' then (k, v) :: (k', v') :: r
    else if k = k' then (k, v) :: r
    else (k', v') :: wsInsert r k v

/-- A sparse set after a value is written: a value equal to its default is not listed. -/
def wsSet (l : List (Nat × Int)) (k : Nat) (v d : Int) : List (Nat × Int) :=
  if v = d then wsErase l k else wsInsert l k v

/-- The canonical form of a sparse set: ascending keys. -/
def wsSorted : List (Nat × Int) → Bool
  | [] => true
  | [_] => true
  | a :: b :: r => decide (a.1 < b.1) && wsSorted (b :: r)

/-- The value of a parameter instance in a sparse set. -/
def PInfo.at (p : PInfo) (l : List (Nat × Int)) (i : Nat) : Int := wsGet l (parKey p.id i) (p.dfltOf i)

/-- The value of a parameter instance in force in the device. -/
def Chip.par (c : Chip) (p : PInfo) (i : Nat := 0) : Int := p.at c.dev.cfg.ws i

/-- The same as a natural number. -/
def Chip.parN (c : Chip) (p : PInfo) (i : Nat := 0) : Nat := (c.par p i).toNat

/-- A sparse set after a list of entries (key, value) is written in order. -/
def wsApply (l : List (Nat × Int)) (es : List (Nat × Int)) : List (Nat × Int) :=
  es.foldl (fun l e => wsSet l e.1 e.2
    (match parOfId (e.1 / 256) with | some p => p.dfltOf (e.1 % 256) | none => 0)) l

/-- The values that will be in force at the next boundary: the working set with every pending shadow (R523). -/
def CfgState.ahead (g : CfgState) : List (Nat × Int) := wsApply g.ws g.shadow

end Sys2Proof.Machine
end

