-- ==== Sys2Proof/Machine/Ops.lean ====
section
/-! DEFINITION. The named operations over the state: its parts, addressed memories, free values, units and their
fences, fault records (chapter 17), replies and events (chapter 02), and what every family of commands shares. -/

namespace Sys2Proof.Machine

open Sys2Proof

/-- The outcome of a command. -/
abbrev Out := Host.Outcome State Fault Refusal

/-! ### Parts of the state -/

/-- A command's effect on everything but the memories and the queue. -/
def State.onChip (s : State) (f : Chip → Chip) : State := { s with chip := f s.chip }

/-- A command's effect on one lane's memories. -/
def State.onMem (s : State) (l : LaneId) (f : LaneMem → LaneMem) : State :=
  { s with mem := s.mem.set l (f (s.mem.get l)) }

/-- One lane of the chip. -/
def Chip.lane (c : Chip) (l : LaneId) : Lane := c.lanes.get l

/-- The chip with one lane changed. -/
def Chip.modLane (c : Chip) (l : LaneId) (f : Lane → Lane) : Chip := { c with lanes := c.lanes.set l (f (c.lanes.get l)) }

/-- The chip with every lane changed. -/
def Chip.modLanes (c : Chip) (f : LaneId → Lane → Lane) : Chip := { c with lanes := c.lanes.mapIdx f }

/-- The chip with one bridge changed. -/
def Chip.modBridge (c : Chip) (l : LaneId) (f : Bridge → Bridge) : Chip :=
  { c with bridges := c.bridges.set l (f (c.bridges.get l)) }

/-- The chip with every bridge changed. -/
def Chip.modBridges (c : Chip) (f : LaneId → Bridge → Bridge) : Chip := { c with bridges := c.bridges.mapIdx f }

/-- The chip with the Pintle die changed. -/
def Chip.modPintle (c : Chip) (f : Pintle → Pintle) : Chip := { c with pintle := f c.pintle }

/-- The chip with the Pintle die's part for one lane changed. -/
def Chip.modPLane (c : Chip) (l : LaneId) (f : PLane → PLane) : Chip :=
  c.modPintle (fun p => { p with lanes := p.lanes.set l (f (p.lanes.get l)) })

/-- The chip with the Pintle die's part for one claimed output changed. -/
def Chip.modPOut (c : Chip) (k : Nat) (f : POut → POut) : Chip :=
  c.modPintle (fun p => { p with outs := modNth p.outs k f })

/-- The chip with the agreed data changed. -/
def Chip.modDev (c : Chip) (f : Dev → Dev) : Chip := { c with dev := f c.dev }

/-- The chip with the configuration changed. -/
def Chip.modCfg (c : Chip) (f : CfgState → CfgState) : Chip := c.modDev (fun d => { d with cfg := f d.cfg })

/-- The working set that engines at PWM rate go on reading once another takes its place (R524). -/
def CfgState.keepOld (g : CfgState) : CfgState :=
  { g with engOld := match g.engOld with
    | some (w, none) => some (w, none)
    | _ => some (g.ws, none) }

/-- The launch point of the period whose values are new (R524). -/
def CfgState.launched (g : CfgState) (nt : Nat) : CfgState :=
  { g with engOld := match g.engOld with
    | some (w, none) => some (w, some nt)
    | x => x }

/-- The working set that an engine reads in the PWM period of a boundary (R524). -/
def CfgState.engineWs (g : CfgState) (boundary : Nat) : List (Nat × Int) :=
  match g.engOld with
  | some (w, none) => w
  | some (w, some nt) => if boundary < nt then w else g.ws
  | none => g.ws

/-- The work of an engine in the PWM period of a boundary, on the values that it reads there (R524). -/
def Chip.asEngine (c : Chip) (boundary : Nat) (f : Chip → Chip) : Chip :=
  (f (c.modCfg (fun g => { g with ws := g.engineWs boundary }))).modCfg (fun g => { g with ws := c.dev.cfg.ws })

/-- The chip with one host link's agreed state changed. -/
def Chip.modHost (c : Chip) (l : LaneId) (f : HostLink → HostLink) : Chip :=
  c.modDev (fun d => { d with hosts := d.hosts.set l (f (d.hosts.get l)) })

/-- Keyway session n, 1 to 127 (a free one for any other number). -/
def Chip.session (c : Chip) (n : Nat) : Session := if n = 0 then {} else nth c.dev.sessions (n - 1) {}

/-- The chip with one session changed. -/
def Chip.modSession (c : Chip) (n : Nat) (f : Session → Session) : Chip :=
  if n = 0 then c else c.modDev (fun d => { d with sessions := modNth d.sessions (n - 1) f })

/-- The chip with one loop context changed. -/
def Chip.modLoop (c : Chip) (n : Nat) (f : Loop → Loop) : Chip :=
  c.modDev (fun d => { d with loops := modNth d.loops n f })

/-- The chip with one stepper channel changed. -/
def Chip.modStep (c : Chip) (k : Nat) (f : Stepper → Stepper) : Chip :=
  c.modDev (fun d => { d with steppers := modNth d.steppers k f })

/-- The chip with one bridge's period-level state changed. -/
def Chip.modMotor (c : Chip) (k : Nat) (f : Motor → Motor) : Chip :=
  c.modDev (fun d => { d with motors := modNth d.motors k f })

/-- The chip with one winding set changed. -/
def Chip.modSet (c : Chip) (k : Nat) (l : LaneId) (f : WindSet → WindSet) : Chip :=
  c.modMotor k (fun m => { m with sets := m.sets.set l (f (m.sets.get l)) })

/-- An agreed channel changed. -/
def Chip.modAgreedFb (c : Chip) (ch : Nat) (f : FbAgreed → FbAgreed) : Chip :=
  c.modDev (fun d => { d with agreed := { d.agreed with fb := modNth d.agreed.fb ch f } })

/-- The chip with one PWM-level engine changed. -/
def Chip.modEngine (c : Chip) (l : LaneId) (k : Nat) (f : Engine → Engine) : Chip :=
  c.modLane l (fun n => { n with engines := modNth n.engines k f })

/-- The chip with one feedback channel of one lane changed. -/
def Chip.modFb (c : Chip) (l : LaneId) (k : Nat) (f : FbChan → FbChan) : Chip :=
  c.modLane l (fun n => { n with fb := modNth n.fb k f })

/-- The chip with one network port of one lane changed. -/
def Chip.modPort (c : Chip) (l : LaneId) (k : Nat) (f : NetPort → NetPort) : Chip :=
  c.modLane l (fun n => { n with net := { n.net with ports := modNth n.net.ports k f } })

/-- The chip with one check-value unit of one lane changed. -/
def Chip.modCv (c : Chip) (l : LaneId) (k : Nat) (f : CvUnit → CvUnit) : Chip :=
  c.modLane l (fun n => { n with cv := modNth n.cv k f })

/-- The chip with a lane's safety inputs and outputs changed. -/
def Chip.modSio (c : Chip) (l : LaneId) (f : LaneSio → LaneSio) : Chip :=
  c.modLane l (fun n => { n with sio := f n.sio })

/-- The chip with the stop sequencer changed. -/
def Chip.modSnow (c : Chip) (f : Snow → Snow) : Chip := c.modDev (fun d => { d with snow := f d.snow })

/-- The chip with a lane's Ocgal unit changed. -/
def Chip.modNet (c : Chip) (l : LaneId) (f : Ocgal → Ocgal) : Chip := c.modLane l (fun n => { n with net := f n.net })

/-- The chip with a lane's clock changed. -/
def Chip.modClock (c : Chip) (l : LaneId) (f : Clock → Clock) : Chip :=
  c.modLane l (fun n => { n with clock := f n.clock })

/-! ### The lane's stream (R125, R127) -/

/-- The quads of a streamed item (R125). -/
def StreamItem.quads : StreamItem → Nat
  | .packet _ p => p.quads
  | .pdu _ _ _ r => 2 + (r.payload.length + 15) / 16
  | .excl _ _ _ _ _ _ _ data => max 1 ((data.length + 15) / 16)
  | .arb _ _ _ _ data => 1 + (data.length + 15) / 16

/-- A lane after an item of some quads has taken its place among its arrivals and in its stream buffer. -/
def Lane.placed (n : Lane) (quads : Nat) : Lane :=
  { n with streamOrd := n.streamOrd + 1, streamQuad := (n.streamQuad + quads) % 256 }

/-! ### Addressed memories -/

/-- What an unlisted address reads as (R98, R103: memories are cleared to zero). -/
def unlisted : Byte := 0

/-- The byte at an address. -/
def cellGet : List Host.Cell → Nat → Byte
  | [], _ => unlisted
  | (k, v) :: r, a => if k = a then v else cellGet r a

/-- The memory with one listed byte put in ascending place. -/
def cellInsert : List Host.Cell → Nat → Byte → List Host.Cell
  | [], a, b => [(a, b)]
  | (k, v) :: r, a, b =>
    if a < k then (a, b) :: (k, v) :: r
    else if a = k then (a, b) :: r
    else (k, v) :: cellInsert r a b

/-- The memory without an address. -/
def cellErase (m : List Host.Cell) (a : Nat) : List Host.Cell := m.filter (fun e => e.1 != a)

/-- The memory after a byte is written: a byte equal to what an unlisted address reads as is not listed. -/
def cellSet (m : List Host.Cell) (a : Nat) (b : Byte) : List Host.Cell :=
  if b = unlisted then cellErase m a else cellInsert m a b

/-- The memory after bytes are written from an address upward. -/
def cellWrite : List Host.Cell → Nat → List Byte → List Host.Cell
  | m, _, [] => m
  | m, a, b :: bs => cellWrite (cellSet m a b) (a + 1) bs

/-- n bytes read from an address upward. -/
def cellRead (m : List Host.Cell) (a : Nat) : Nat → List Byte
  | 0 => []
  | n + 1 => cellGet m a :: cellRead m (a + 1) n

/-- The canonical form: addresses strictly rising, no byte equal to what an unlisted address reads as. -/
def Memory.wf : List Host.Cell → Bool
  | [] => true
  | [e] => e.2 != unlisted
  | e :: f :: r => decide (e.1 < f.1) && e.2 != unlisted && Memory.wf (f :: r)

/-- Every memory of a lane has the canonical form. -/
def LaneMem.wf (m : LaneMem) : Bool :=
  Memory.wf m.sram && Memory.wf m.staging && Memory.wf m.stagingSched && Memory.wf m.bank0 && Memory.wf m.bank1

/-- Every memory of the module has the canonical form. -/
def State.memWf (s : State) : Bool := s.mem.a.wf && s.mem.b.wf && s.mem.c.wf

/-! ### Free values -/

/-- A free value, and the chip with its counter advanced (log 1, log 2). -/
def Chip.draw (c : Chip) : Nat × Chip := (Config.freeNat c.fresh, { c with fresh := c.fresh + 1 })

/-- n free bytes, and the chip with its counter advanced (log 1). -/
def Chip.drawBytes (c : Chip) : Nat → List Byte × Chip
  | 0 => ([], c)
  | n + 1 =>
    let (v, c) := c.draw
    let (bs, c) := c.drawBytes n
    (BitVec.ofNat 8 v :: bs, c)

/-! ### Authority and class -/

/-- A lane is in authority (R39). -/
def Chip.inAuth (c : Chip) (l : LaneId) : Bool := hasLane c.dev.authority l

/-- The lanes in authority in ascending index. -/
def Chip.authLanes (c : Chip) : List LaneId := lanesOf c.dev.authority

/-- A lane is in steps 1 to 4 of a resynchronisation, or begins one at the next S (R157). -/
def Chip.resyncing (c : Chip) (l : LaneId) : Bool := decide ((c.lane l).chk.resync = 1) || (c.lane l).chk.resyncPend

/-- A lane runs: powered and not fenced; a fenced lane is halted (R10, R102). -/
def Chip.runs (c : Chip) (l : LaneId) : Bool := (c.lane l).boot.powerGood && !(c.lane l).boot.fenced

/-- What a lane's own logic does; nothing while the lane is halted: fenced or without power (R10, R102). -/
def State.onLane (s : State) (l : LaneId) (f : Chip → Chip) : State :=
  if s.chip.runs l then s.onChip f else s

/-- A lane drives its private outputs: it runs and has been admitted (R10, R102, R118). -/
def Chip.laneLive (c : Chip) (l : LaneId) : Bool := c.runs l && decide ((c.lane l).boot.state = .admitted)

/-- A lane takes part in the rounds of the device: in authority and not in stand-down, or joining under R160; not fenced. -/
def Chip.inRound (c : Chip) (l : LaneId) : Bool :=
  ((c.inAuth l && decide (c.dev.standdown ≠ some l)) || (c.lane l).chk.joining) &&
    decide ((c.lane l).boot.state = .admitted) && !(c.lane l).boot.fenced

/-- A lane computes records of kind 1: it takes part, is not resynchronising and not absent (R149, R428). -/
def Chip.computes (c : Chip) (l : LaneId) : Bool := c.inRound l && !c.resyncing l && !(c.lane l).round.absent

/-- The first lane of the agreement set that computes, or of authority before one is found. -/
def Chip.leader (c : Chip) : Option LaneId :=
  ((LaneId.all.filter (fun l => hasLane c.dev.aset l && c.computes l)).head?).or (c.authLanes.head?)

/-- The degraded class in force, 0 to 3; 3 while none is formed. -/
def Chip.classNow (c : Chip) : Nat := c.dev.cls.getD 3

/-- The class of a number of lanes in authority (R39). -/
def classOf (m : Mask) : Nat := 3 - (lanesOf m).length

/-- The third lane of a pair. -/
def thirdLane (x y : LaneId) : Option LaneId := LaneId.all.find? (fun z => z != x && z != y)

/-- The place of the link between two lanes in the triple A–B, B–C, C–A. -/
def linkIdx (x y : LaneId) : Nat :=
  match x, y with
  | .a, .b | .b, .a => 0
  | .b, .c | .c, .b => 1
  | _, _ => 2

/-- A lane link by its number 0 to 2 (R427). -/
def Chip.linkAt (c : Chip) (k : Nat) : LaneLink := match LaneId.ofIdx k with | some l => c.links.get l | none => {}

/-- The chip with a lane link changed. -/
def Chip.modLink (c : Chip) (k : Nat) (f : LaneLink → LaneLink) : Chip :=
  match LaneId.ofIdx k with
  | some l => { c with links := c.links.set l (f (c.links.get l)) }
  | none => c

/-- The two ends of a lane link by its number. -/
def linkEnds : Nat → LaneId × LaneId
  | 0 => (.a, .b)
  | 1 => (.b, .c)
  | _ => (.c, .a)

/-- The last agreed claim number of a lane (R129). -/
def Chip.claimOf (c : Chip) (l : LaneId) : Nat := c.dev.claims.last.get l

/-- A lane's rank (R38). -/
def Chip.rankOf (c : Chip) (l : LaneId) : Nat := c.parN Par.authLaneRank l.idx

/-- Whether lane x has the higher claim: the higher last agreed claim number, then the higher rank (R129). -/
def Chip.higher (c : Chip) (x y : LaneId) : Bool :=
  decide (c.claimOf y < c.claimOf x) || (decide (c.claimOf x = c.claimOf y) && decide (c.rankOf y < c.rankOf x))

/-- The lane of a list with the highest claim (R129, R154). -/
def Chip.highest (c : Chip) : List LaneId → Option LaneId
  | [] => none
  | l :: r => match c.highest r with
    | none => some l
    | some m => if c.higher m l then some m else some l

/-! ### Units (R427) -/

/-- The number of instances of a unit type, and the lowest one (R427). -/
def unitInsts (t : Nat) : Option (Nat × Nat) :=
  match t with
  | 0x00 => some (0, 1)
  | 0x01 | 0x02 | 0x03 | 0x04 => some (0, 3)
  | 0x05 => some (0, 1)
  | 0x06 => some (0, 8)
  | 0x07 => some (0, 2)
  | 0x08 => some (0, 64)
  | 0x09 => some (0, 8)
  | 0x0A => some (0, 16)
  | 0x0B => some (0, 4)
  | 0x0C => some (0, 1)
  | 0x0D => some (1, 127)
  | 0x0E => some (0, 3)
  | 0x0F => some (0, 4)
  | 0x10 => some (0, 8)
  | 0x11 => some (0, 2)
  | 0x12 => some (0, 4)
  | 0x13 => some (0, 1)
  | 0x14 => some (0, 64)
  | 0x15 => some (0, 1)
  | 0x16 => some (82, 6)
  | 0x17 => some (0, 4)
  | 0x18 => some (0, 5)
  | _ => none

/-- Whether a unit type and instance exist (R427). -/
def unitExists (t i : Nat) : Bool :=
  match unitInsts t with
  | some (lo, n) => decide (lo ≤ i ∧ i < lo + n)
  | none => false

/-- Whether an agreed-data fence of a unit without a place of its own in the state is held (R423). -/
def Chip.fenceHeld (c : Chip) (lane t i : Nat) : Bool :=
  c.dev.fences.any (fun f => decide ((f.1 = lane ∨ f.1 = 0xFF) ∧ f.2.1 = t ∧ f.2.2 = i))

/-- Whether a unit is fenced in a lane (R440). -/
def Chip.unitFenced (c : Chip) (l : LaneId) (t i : Nat) : Bool :=
  match t with
  | 0x01 => (match LaneId.ofIdx i with | some k => (c.lane k).boot.fenced | none => false)
  | 0x02 => (c.linkAt i).fenced
  | 0x03 => (match LaneId.ofIdx i with | some k => (c.pintle.lanes.get k).pathFailed | none => false)
  | 0x04 => (match LaneId.ofIdx i with | some k => c.pintle.replicaFenced.get k | none => false)
  | 0x05 => c.pintle.fenced
  | 0x06 => if i < 6 then (nth c.dev.steppers i {}).fenced else (nth c.dev.motors (i - 4) {}).fenced
  | 0x07 => ((nth c.dev.motors i {}).sets.get l).fenced
  | 0x08 => (nth c.dev.loops i {}).fenced.get l
  | 0x09 => (nth (c.lane l).fb i {}).fenced
  | 0x0B => (nth (c.lane l).net.ports i {}).fenced
  | 0x0F => (nth (c.lane l).cv i {}).fenced
  | 0x10 => hasBit (c.lane l).sio.siFenced i
  | 0x11 => hasBit (c.lane l).sio.tpFenced i
  | 0x12 => hasBit (c.lane l).sio.soFenced i
  | 0x13 => (c.lane l).sio.stageFenced
  | 0x14 => (c.lane l).bist.regions.contains i
  | 0x15 => (c.lane l).bist.frozen
  | 0x16 => c.dev.itemFenced.contains i
  | _ => c.fenceHeld l.idx t i

/-- A unit's fence in a lane set or cleared in the place that holds it. A unit that every lane shares (a link, a path, a
replica, the Pintle die, a claimed output) is fenced for the device. -/
def Chip.setUnitFence (c : Chip) (l : LaneId) (t i : Nat) (v : Bool) : Chip :=
  match t with
  | 0x01 => c
  | 0x02 => c.modLink i (fun k => { k with fenced := v })
  | 0x03 => (match LaneId.ofIdx i with
    | some k => c.modPLane k (fun p => { p with pathFailed := v })
    | none => c)
  | 0x04 => (match LaneId.ofIdx i with
    | some k => c.modPintle (fun p => { p with replicaFenced := p.replicaFenced.set k v })
    | none => c)
  | 0x05 => c.modPintle (fun p => { p with fenced := v })
  | 0x06 =>
    let c := c.modPOut i (fun o => { o with fenced := v })
    if i < 6 then c.modStep i (fun x => { x with fenced := v }) else c.modMotor (i - 4) (fun m => { m with fenced := v })
  | 0x07 => c.modSet i l (fun w => { w with fenced := v })
  | 0x08 => c.modLoop i (fun x => { x with fenced := x.fenced.set l v })
  | 0x09 => c.modFb l i (fun x => { x with fenced := v })
  | 0x0B => c.modPort l i (fun x => { x with fenced := v })
  | 0x0F => c.modCv l i (fun x => { x with fenced := v })
  | 0x10 => c.modSio l (fun x => { x with siFenced := setBit x.siFenced i v })
  | 0x11 => c.modSio l (fun x => { x with tpFenced := setBit x.tpFenced i v })
  | 0x12 => c.modSio l (fun x => { x with soFenced := setBit x.soFenced i v })
  | 0x13 => c.modSio l (fun x => { x with stageFenced := v })
  | 0x14 => c.modLane l (fun n => { n with bist := { n.bist with
      regions := if v then (if n.bist.regions.contains i then n.bist.regions else n.bist.regions ++ [i])
        else n.bist.regions.filter (· != i) } })
  | 0x15 => c.modLane l (fun n => { n with bist := { n.bist with frozen := v } })
  | 0x16 => c.modDev (fun d => { d with
      itemFenced := if v then (if d.itemFenced.contains i then d.itemFenced else d.itemFenced ++ [i])
        else d.itemFenced.filter (· != i) })
  | _ => c.modDev (fun d => { d with
      fences := if v then (if d.fences.contains (l.idx, t, i) then d.fences else d.fences ++ [(l.idx, t, i)])
        else d.fences.filter (· != (l.idx, t, i)) })

/-- A memory region whose fence fences the lane (R500). -/
def regionCritical (r : Nat) : Bool := decide (r < 4 ∨ r = 12 ∨ r = 14 ∨ (16 ≤ r ∧ r < 20) ∨ (25 ≤ r ∧ r < 28))

/-- A unit fenced in every lane (R188, R292). -/
def Chip.fenceEverywhere (c : Chip) (t i : Nat) : Chip :=
  LaneId.all.foldl (fun c l => c.setUnitFence l t i true) c

/-! ### Fault records (chapter 17) -/

/-- Codes of class U (R423), from the tables that define them. -/
def classU : List Nat :=
  [0x0101, 0x0103, 0x0104, 0x0107, 0x010C, 0x0201, 0x0203, 0x0303, 0x0305, 0x0309, 0x030C, 0x0503, 0x0603, 0x0604,
   0x0607] ++
  [0x1001, 0x1005, 0x1008, 0x1009, 0x100B, 0x1101, 0x1102, 0x1103, 0x1104, 0x1105, 0x1106, 0x1107, 0x1108, 0x1109,
   0x110C, 0x110D, 0x1202, 0x1204] ++
  [0x1304, 0x1306, 0x1308, 0x1309, 0x1402, 0x1403, 0x1404, 0x1406, 0x2002, 0x2007, 0x200D, 0x200E, 0x2103, 0x2104,
   0x2106, 0x2107, 0x2204, 0x2205, 0x2302] ++
  [0x2403, 0x2404, 0x240A, 0x240B, 0x3001, 0x3003, 0x3102, 0x3103, 0x3302, 0x3304, 0x3305, 0x3406, 0x3409]

/-- Codes of class F (R423). -/
def classF : List Nat :=
  [0x0108, 0x0109, 0x010A, 0x010D, 0x010E, 0x010F, 0x0110, 0x0204, 0x0307, 0x0402, 0x0404, 0x0407, 0x0408, 0x2303,
   0x3203, 0x3303, 0x3405, 0x3407]

/-- Codes of class C (R423). -/
def classC : List Nat :=
  [0x0102, 0x0105, 0x0106, 0x010B, 0x0111, 0x0202, 0x0205, 0x0206, 0x0301, 0x0302, 0x0304, 0x0306, 0x0308, 0x030A,
   0x030B, 0x030D, 0x0401, 0x0403, 0x0405, 0x0406, 0x0409, 0x040A, 0x040B] ++
  [0x0501, 0x0502, 0x0504, 0x0505, 0x0506, 0x0601, 0x0602, 0x0605, 0x0606, 0x1002, 0x1003, 0x1004, 0x1007, 0x100A,
   0x100D, 0x110A, 0x110B, 0x1201, 0x1203, 0x1205, 0x1206] ++
  [0x1301, 0x1302, 0x1303, 0x1305, 0x1307, 0x1401, 0x1405, 0x2001, 0x2003, 0x2004, 0x2005, 0x2006, 0x2008, 0x2009,
   0x200A, 0x200B, 0x200C, 0x2101, 0x2105, 0x2108, 0x210A] ++
  [0x2201, 0x2202, 0x2203, 0x2206, 0x2207, 0x2208, 0x2301, 0x2304, 0x2401, 0x2402, 0x2405, 0x2406, 0x2407, 0x2408,
   0x2409, 0x3002, 0x3101, 0x3201, 0x3204, 0x3205] ++
  [0x3301, 0x3306, 0x3401, 0x3402, 0x3403, 0x3404, 0x3408, 0x340A, 0x340B]

/-- The class of a fault code: 1 C, 2 U, 3 F (R423). -/
def faultClass (code : Nat) : Nat := if classF.contains code then 3 else if classU.contains code then 2 else 1

/-- Whether a fault code is defined in some chapter (R425, R445). -/
def codeDefined (code : Nat) : Bool := classC.contains code || classU.contains code || classF.contains code

/-- The quad of a fault record, with bit 7 of byte 2 clear (R426, R434). -/
def FaultRec.quad (r : FaultRec) : List Byte :=
  toLe 2 r.code ++ toLe 1 r.cls ++ toLe 1 r.utype ++ toLe 1 r.inst ++ toLe 1 r.lane ++ toLe 2 r.count ++ toLe 8 r.nt

/-- Whether a record waits or merges as the same fault: code, unit type, instance, lane and kind (R431). -/
def FaultRec.same (r q : FaultRec) : Bool :=
  decide (r.code = q.code ∧ r.utype = q.utype ∧ r.inst = q.inst ∧ r.lane = q.lane) && r.agreed == q.agreed

/-- A queue without its oldest C-class record, or none when it holds no such record (R436). -/
def dropOldestC : List FaultRec → Option (List FaultRec)
  | [] => none
  | r :: rs => if r.cls = 1 then some rs else (dropOldestC rs).map (r :: ·)

/-- A record put into the queue of 64, or 16, that waits for the ring (R436, R500). -/
def Collector.enqueue (q : Collector) (r : FaultRec) : Collector :=
  if q.queue.length < q.cap then { q with queue := q.queue ++ [r] }
  else
    let drop (q : Collector) : Collector :=
      { q with dropped := satInc 65535 q.dropped, droppedNow := satInc 65535 q.droppedNow }
    match dropOldestC q.queue with
    | some rest => drop { q with queue := rest ++ [r] }
    | none => if r.cls = 1 then drop q else { q with queue := q.queue ++ [r] }

/-- A fault taken by a collector: merged into an open C-class record, or a new record (R431). Answers whether a record
was formed. -/
def Collector.take (q : Collector) (r : FaultRec) : Collector × Bool :=
  if r.cls = 1 then
    match q.opened.find? (fun o => o.same r) with
    | some o =>
      let o' := { o with count := min 65535 (o.count + r.count) }
      if o'.count = 65535 then
        ({ q with opened := q.opened.filter (fun x => !x.same r) }.enqueue o', false)
      else ({ q with opened := q.opened.map (fun x => if x.same r then o' else x) }, false)
    | none =>
      ({ q with opened := q.opened ++ [{ r with ord := q.formed + 1 }], formed := satInc (2 ^ 32 - 1) q.formed }, true)
  else
    ({ (q.enqueue { r with count := 1, ord := q.formed + 1 }) with formed := satInc (2 ^ 32 - 1) q.formed }, true)

/-- An event packet of a host link (R65): its counter in the sequence field and one quad of data. -/
def Chip.pushEvent (c : Chip) (l : LaneId) (quad : List Byte) : Chip :=
  let n := (c.dev.hosts.get l).events
  let p : OutPacket := { opcode := 0x3080, seq := n, payload := quad, isEvent := true }
  (c.modHost l (fun h => { h with events := (n + 1) % 2 ^ 32 })).modLane l (fun x => { x with txq := x.txq ++ [p] })

/-- An event with its cause and up to fourteen bytes of data on one link. -/
def Chip.event (c : Chip) (l : LaneId) (cause : Nat) (data : List Byte) : Chip :=
  c.pushEvent l (toLe 2 cause ++ bytesAt data 0 14)

/-- A record taken into a lane's collector, with its event when FLT.EVENT_MASK asks for one (R439). -/
def Chip.recordIn (c : Chip) (l : LaneId) (r : FaultRec) : Chip :=
  let (q, formed) := (c.lane l).fault.take r
  let c := c.modLane l (fun n => { n with fault := q })
  if formed && (c.parN Par.fltEventMask).testBit (r.cls - 1) then c.event l 2 ({ r with count := 1 }.quad) else c

/-- A local record: a detection by a lane's own detectors, with that lane's NT (R428). -/
def Chip.localFault (c : Chip) (l : LaneId) (code t i lane : Nat) : Chip :=
  c.recordIn l { code := code, cls := faultClass code, utype := t, inst := i, lane := lane, nt := (c.lane l).clock.nt }

/-- The record 0x0504 of a lane that resumes agreed records after a gap (R430). -/
def Chip.closeGap (c : Chip) (l : LaneId) (nt : Nat) : Chip :=
  if (c.lane l).fault.gap then
    (c.modLane l (fun n => { n with fault := { n.fault with gap := false } })).recordIn l
      { code := 0x0504, cls := 1, utype := 1, inst := l.idx, lane := l.idx, nt := nt, agreed := true }
  else c

/-- The events that a lane's agreed records give belong to the period's agreed ones (R146). -/
def Chip.noteEvents (c : Chip) (l : LaneId) (f : Chip → Chip) : Chip :=
  let before := (c.lane l).txq.length
  let c := f c
  c.modDev (fun d => { d with events := d.events ++ ((c.lane l).txq.drop before).map (fun p => (l, p)) })

/-- An agreed record in one lane, after the record of a gap (R428, R430). -/
def Chip.agreedIn (c : Chip) (l : LaneId) (r : FaultRec) : Chip := c.noteEvents l (fun c => (c.closeGap l r.nt).recordIn l r)

/-- The gaps of a period: a lane in authority that computes no records of kind 1 has one, and a lane that resumes them writes 0x0504
(R430). -/
def Chip.gapRecords (c : Chip) : Chip :=
  LaneId.all.foldl (fun c l =>
    if c.computes l then c.noteEvents l (fun c => c.closeGap l c.dev.sn)
    else if c.inAuth l then c.modLane l (fun n => { n with fault := { n.fault with gap := true } })
    else c) c

/-- An agreed record: a fault decided from agreed data, written by every lane that computes records of kind 1, with the
NT of S of the period (R428). Any other lane in authority has a gap (R430). -/
def Chip.agreedFault (c : Chip) (code t i lane : Nat) (count : Nat := 1) : Chip :=
  let r : FaultRec := { code := code, cls := faultClass code, utype := t, inst := i, lane := lane, count := count, nt := c.dev.sn, agreed := true }
  LaneId.all.foldl (fun c l =>
    if c.computes l then c.agreedIn l r
    else if c.inAuth l then c.modLane l (fun n => { n with fault := { n.fault with gap := true } })
    else c) c

/-- A unit fenced by a lane's own detector: fenced at once, and named in the lane status of the next S (R429). -/
def Chip.ownFence (c : Chip) (l : LaneId) (t i : Nat) : Chip :=
  (c.setUnitFence l t i true).modLane l (fun n => { n with
    fencedNow := if n.fencedNow.contains (t, i) then n.fencedNow else n.fencedNow ++ [(t, i)] })

/-! ### Stop causes (R449) -/

/-- A stop cause agreed: fault 0x0601 with its index (R449); the first one names the stop, and none starts during a stop or in HOLD (R450). -/
def Chip.stopCause (c : Chip) (cause : Nat) : Chip :=
  let c := c.agreedFault 0x0601 0 cause 0xFF
  if c.dev.snow.step ≠ 0 then c
  else match c.dev.snow.pend with
    | some _ => c
    | none => c.modSnow (fun w => { w with pend := some cause })

/-! ### Outputs in use (R551) -/

/-- A bridge 0 to 3 (MB0, MB1, BM0, BM1) is in use. -/
def bridgeUsed (ws : List (Nat × Int)) (k : Nat) : Bool :=
  if k < 2 then decide (Par.authMbArrange.at ws k ≠ 0) else decide (Par.authBmEnable.at ws (k - 2) = 1)

/-- A stepper channel is in use. -/
def stepUsed (ws : List (Nat × Int)) (k : Nat) : Bool := decide (Par.stpEnable.at ws k = 1)

/-- A claimed output 0 to 7 (ST0 to ST5, BM0, BM1) is in use. -/
def claimedUsed (ws : List (Nat × Int)) (k : Nat) : Bool := if k < 6 then stepUsed ws k else bridgeUsed ws (k - 4)

/-- A bridge's lanes: AUTH.MB_LANES for MB0 and MB1, every lane for BM0 and BM1 (R21). -/
def setLanes (ws : List (Nat × Int)) (k : Nat) : List LaneId :=
  if k < 2 then LaneId.all.filter (fun l => (Par.authMbLanes.at ws k).toNat.testBit l.idx) else [.a]

/-! ### The control period (R119) -/

/-- The basic cycle of a schedule in ns (R311). -/
def schedCycle (s : List Byte) : Nat := fld s 8 4

/-- The control period of a working set and a schedule (R119, R550). -/
def periodOf (ws : List (Nat × Int)) (sched : List Byte) : Nat :=
  if sched.isEmpty then (Par.perFreePeriod.at ws 0).toNat else schedCycle sched

/-- The control period in force, in ns. -/
def Chip.period (c : Chip) : Nat := periodOf c.dev.cfg.ws c.dev.cfg.sched

/-- The control periods of one matrix cycle (R307: 64 basic cycles). -/
def matrixCycles : Nat := 64

/-- The matrix cycles that have passed since one was counted. -/
def Chip.cyclesSince (c : Chip) (m : Nat) : Nat := (c.dev.matrix + 2 ^ 32 - m) % 2 ^ 32

end Sys2Proof.Machine
end

