-- ==== Sys2Proof/Machine/Packets.lean ====
section
/-! DEFINITION. Command packets (chapter 02): headers, replies, Keyway PDUs, the checks that every operation shares, and
one frame that runs an operation from its packet to its reply. -/

namespace Sys2Proof.Machine

open Sys2Proof

/-! ### Statuses (R72) -/

def stOk : Nat := 0x00
def stPending : Nat := 0x01
def stBadOpcode : Nat := 0x10
def stBadParam : Nat := 0x11
def stRange : Nat := 0x12
def stLocked : Nat := 0x13
def stNotCommissioned : Nat := 0x14
def stNoResource : Nat := 0x15
def stTransition : Nat := 0x16
def stDenied : Nat := 0x17
def stLate : Nat := 0x18
def stEarly : Nat := 0x19
def stMismatch : Nat := 0x1A
def stFenced : Nat := 0x1B
def stBusy : Nat := 0x1C
def stReverse : Nat := 0x1D
def stFrozen : Nat := 0x1E
def stNotParked : Nat := 0x1F
def stSeqError : Nat := 0x20
def stTagInUse : Nat := 0x21
def stSessionRequired : Nat := 0x22
def stSignature : Nat := 0x23
def stImage : Nat := 0x24
def stSchedule : Nat := 0x25
def stNotHomed : Nat := 0x26
def stTable : Nat := 0x27
def stInHold : Nat := 0x28

/-- The lowest of a list of statuses. -/
def lowest : List Nat → Option Nat
  | [] => none
  | x :: xs => match lowest xs with
    | none => some x
    | some y => some (min x y)

/-- The status that a packet with several failing conditions is answered with: FENCED, then FROZEN, then SEQ_ERROR, and
otherwise the lowest code (R73). -/
def pickStatus (l : List Nat) : Option Nat :=
  if l.contains stFenced then some stFenced
  else if l.contains stFrozen then some stFrozen
  else if l.contains stSeqError then some stSeqError
  else lowest l

/-! ### Packets as bytes (R56) -/

/-- The header quad of a packet, its CRC field given. -/
def headerQuad (opcode tag b3 len session mask seq crc : Nat) : List Byte :=
  toLe 2 opcode ++ toLe 1 tag ++ toLe 1 b3 ++ toLe 2 len ++ toLe 1 session ++ toLe 1 mask ++ toLe 4 seq ++ toLe 4 crc

/-- A whole packet: its CRC-32C is taken over it with bytes 12 to 15 zero. -/
def packetBytes (opcode tag b3 session mask seq : Nat) (payload : List Byte) : List Byte :=
  let p := padQuads payload
  let crc := crc32c (headerQuad opcode tag b3 p.length session mask seq 0 ++ p)
  headerQuad opcode tag b3 p.length session mask seq crc ++ p

/-- A reply or event packet as bytes. -/
def OutPacket.bytes (p : OutPacket) : List Byte :=
  packetBytes p.opcode p.tag.toNat p.status p.session p.mask.toNat p.seq p.payload

/-- The length of a reply or event packet in bytes. -/
def OutPacket.size (p : OutPacket) : Nat := 16 + (padQuads p.payload).length

/-- The buffers of 256 bytes that a packet with a payload of L bytes uses (R66). -/
def buffersOf (len : Nat) : Nat := (16 + len + 255) / 256

/-! ### Keyway PDUs (R364 to R366) -/

/-- The identity of a direction (R365). -/
def identity (sender receiver senderSes receiverSes epoch carrier : Nat) : Nat :=
  ofLe (toLe 2 sender ++ toLe 2 receiver ++ toLe 1 senderSes ++ toLe 1 receiverSes ++ toLe 1 epoch ++ toLe 1 carrier)

/-- The CRC-64 of a PDU body under an identity (R366). -/
def pduCrc (ident : Nat) (body : List Byte) : Nat :=
  crcFold 0xC96C5795D7870F42 (0xFFFFFFFFFFFFFFFF ^^^ ident) body ^^^ 0xFFFFFFFFFFFFFFFF

/-- A PDU as bytes (R364). -/
def pduBytes (ident opcode tag b3 seq stamp : Nat) (data : List Byte) (echo echoTime : Nat) : List Byte :=
  let body := toLe 2 opcode ++ toLe 1 tag ++ toLe 1 b3 ++ toLe 4 seq ++ toLe 8 stamp ++ padQuads data ++
    toLe 4 echo ++ toLe 4 echoTime
  body ++ toLe 8 (pduCrc ident body)

/-- The identity of the peer's direction of session n (R365). -/
def Chip.peerIdentity (c : Chip) (n : Nat) : Nat :=
  let x := c.session n
  identity x.peer (c.parN Par.netNodeId) x.peerNum n x.epoch (if x.ocgal then 1 else 0)

/-- The identity of the device's direction of session n (R365). -/
def Chip.ownIdentity (c : Chip) (n : Nat) : Nat :=
  let x := c.session n
  identity (c.parN Par.netNodeId) x.peer n x.peerNum x.epoch (if x.ocgal then 1 else 0)

/-- The payload of a command packet: the operation payload, or the PDU of its session that carries it (R59, R367). -/
def Chip.wirePayload (c : Chip) (code : Nat) (r : Req) : List Byte :=
  if r.session = 0 then padQuads r.payload
  else pduBytes (c.peerIdentity r.session) code r.tag.toNat r.flags.toNat r.pdu.seq r.pdu.stamp r.payload
    r.pdu.echo r.pdu.echoTime

/-- The CRC-32C of a command packet (R56, R60). -/
def Chip.reqCrc (c : Chip) (code : Nat) (r : Req) : Nat :=
  crc32c (headerQuad code r.tag.toNat r.flags.toNat (c.wirePayload code r).length r.session r.mask.toNat r.seq 0 ++
    c.wirePayload code r)

/-! ### Attributes of an operation (R75, R363, R459) -/

/-- The Accepted column of R75; `own` leaves it to the operation's own checks. -/
inductive Accept where
  | anyTime | parked | commissioned | enabled | commissioning | own
  deriving DecidableEq, Repr, Inhabited

/-- The row of R459 that an operation falls under. -/
inductive StopRow where
  | always | steer | output | disable | release | enabled | other
  deriving DecidableEq, Repr, Inhabited

/-- What the opcode index, the rights table and the acceptance table say of an operation. -/
structure OpAttr where
  code : Nat
  laneLocal : Bool := false
  /-- lane-local, but the owning chapter decides what a lane out of authority is answered (R441, R442) -/
  anyLane : Bool := false
  keyed : Bool := false
  acc : Accept := .anyTime
  pend : Bool := false
  timed : Bool := false
  right : Option Nat := none
  read : Bool := false
  row : StopRow := .other
  deriving DecidableEq, Repr, Inhabited

/-- The result of an operation that no check stops: the state, the status and payload of the reply that follows at once
(ACCEPTED_PENDING when a final reply will come). -/
structure OpOut where
  st : State
  status : Nat := 0
  payload : List Byte := []
  /-- no reply follows at once: the operation's one reply comes later (R95) -/
  defer : Bool := false

/-! ### Replies (R63, R64, R380) -/

/-- The device's PDU of session n that carries an opcode, tag, status and data (R364, R380), with its sequence counted. -/
def Chip.ownPdu (c : Chip) (n opcode tag status : Nat) (data : List Byte) : List Byte × Chip :=
  let x := c.session n
  let seq := (x.txSeq + 1) % 2 ^ 32
  (pduBytes (c.ownIdentity n) opcode tag status seq c.dev.sn data x.rxSeq (x.echoStamp % 2 ^ 32),
   c.modSession n (fun x => { x with txSeq := seq }))

/-- A PDU of session n to its peer on Ocgal put among those of the period, with where it goes (R368, R380). -/
def Chip.putPdu (c : Chip) (n : Nat) (b : List Byte) : Chip :=
  let x := c.session n
  c.modDev (fun d => { d with pdus := d.pdus ++ [{
    session := n, peer := x.peer, peerNum := x.peerNum, chan := x.chan, slot := c.parN Par.keyTxSlot x.profile, data := b }] })

/-- A reply put among the replies of the period: a packet on the host link, carrying the device's PDU for a session
(R63, R367), or a PDU to a peer on Ocgal (R380). -/
def Chip.sendReply (c : Chip) (link : Option LaneId) (opcode : Nat) (tag : Byte) (session : Nat) (mask : Mask) (seq status : Nat)
    (payload : List Byte) : Option OutPacket × Chip :=
  let (body, c) := if session = 0 then (payload, c) else c.ownPdu session opcode tag.toNat status payload
  match link with
  | some l =>
    let p : OutPacket := { opcode := opcode, tag := tag, status := status, session := session, mask := mask, seq := seq, payload := body }
    (some p, c.modDev (fun d => { d with replies := d.replies ++ [(l, p)] }))
  | none =>
    if session = 0 then (none, c)
    else (none, c.putPdu session body)

/-- Whether the reply to a request is withheld: SUPPRESS with status OK, except for a session in mode 0 (R57, R380). -/
def Chip.suppressed (c : Chip) (session : Nat) (suppress : Bool) (status : Nat) : Bool :=
  suppress && decide (status = 0) &&
    (decide (session = 0) || decide (c.parN Par.keyTimeMode (c.session session).profile = 1))

/-- The only or first reply to a request. -/
def Chip.reply (c : Chip) (code : Nat) (r : Req) (status : Nat) (payload : List Byte) : Chip :=
  if c.suppressed r.session (hasBit r.flags 0) status then
    (match r.link with
    | some l => c.modHost l (fun h => { h with lastReply := none })
    | none => c)
  else
    let (p, c) := c.sendReply r.link code r.tag r.session r.mask r.seq status payload
    match r.link with
    | some l => c.modHost l (fun h => { h with lastReply := p })
    | none => c

/-- An operation that awaits its final reply is registered, and its tag comes into use (R61, R64). -/
def Chip.addPend (c : Chip) (code : Nat) (r : Req) (p : PendOp) : Chip :=
  let p := { p with opcode := code, link := r.link, tag := r.tag, session := r.session, mask := r.mask, seq := r.seq,
                    suppress := hasBit r.flags 0 }
  let c := c.modDev (fun d => { d with pend := d.pend ++ [p] })
  match r.link with
  | some l => c.modHost l (fun h => { h with tags := h.tags ++ [r.tag] })
  | none => c

/-- The final reply to the packet that its link executed last becomes the last reply, which a packet sent again is answered with
(R60). -/
def Chip.keepReply (c : Chip) (p : PendOp) (q : Option OutPacket) : Chip :=
  match p.link with
  | some l => c.modHost l (fun h => if h.lastCrc.isSome ∧ h.expected = (p.seq + 1) % 2 ^ 32 then { h with lastReply := q } else h)
  | none => c

/-- The final reply of a pending operation: its tag is released when it is queued (R64, R69). -/
def Chip.finalReply (c : Chip) (p : PendOp) (status : Nat) (payload : List Byte) : Chip :=
  let c := c.modDev (fun d => { d with pend := d.pend.erase p })
  let c := match p.link with
    | some l => c.modHost l (fun h => { h with tags := h.tags.erase p.tag })
    | none => c
  if c.suppressed p.session p.suppress status then c
  else
    let (q, c) := c.sendReply p.link p.opcode p.tag p.session p.mask p.seq status payload
    c.keepReply p q

/-- The final reply of every pending operation that a test picks. -/
def Chip.finishAll (c : Chip) (test : PendOp → Bool) (status : Nat) (payload : List Byte) : Chip :=
  (c.dev.pend.filter test).foldl (fun c p => c.finalReply p status payload) c

/-! ### Conditions on the device -/

/-- The commissioning slot in force: the valid one with the higher count, slot 0 when equal (R95). -/
def Nvm.slotInForce (n : Nvm) : Option ConfirmSlot :=
  match n.slot0, n.slot1 with
  | some x, some y => if x.count < y.count then some y else some x
  | some x, none => some x
  | none, o => o

/-- The device is commissioned (R96). -/
def Chip.commissioned (c : Chip) : Bool :=
  match c.leader with
  | none => false
  | some l => match (c.lane l).nvm.slotInForce with
    | none => false
    | some x => decide (x.value ≠ 0) && decide (x.value = c.dev.cfg.check)

/-- The machine is parked (R451). -/
def Chip.isParked (c : Chip) : Bool := c.dev.snow.parked

/-- Actuation is disabled and the machine parked: the commissioning-only condition (R86). -/
def Chip.commissioningOpen (c : Chip) : Bool := !c.dev.actuation && c.isParked

/-- The lane's time state as agreed counts as synchronised by itself (R347). -/
def TimeState.leads : TimeState → Bool
  | .synced | .reference => true
  | _ => false

/-- The lane's time state allows the device to be synchronised (R347). -/
def TimeState.follows : TimeState → Bool
  | .synced | .reference | .lane | .holdover => true
  | _ => false

/-- The code of a time state (R345). -/
def TimeState.code : TimeState → Nat
  | .free => 0 | .acquiring => 1 | .synced => 2 | .holdover => 3 | .lane => 4 | .reference => 5

/-- Network time is synchronised for the device (R347), decided from the agreed lane status. -/
def Chip.netSynced (c : Chip) : Bool :=
  let sts := c.authLanes.map (fun l => (c.dev.agreed.status.get l).tstate)
  sts.any (fun t => decide (t = 2 ∨ t = 5)) && sts.all (fun t => decide (2 ≤ t ∧ t ≤ 5))

/-- Timed operations may be accepted: synchronised, and no lane beyond its holdover (R352, R353). -/
def Chip.timedReady (c : Chip) : Bool :=
  c.netSynced && !(c.authLanes.any (fun l => (c.lane l).clock.overHold))

/-- The column of R459 that applies: 0 none, 1 steps 1 to 3, 2 HOLD (R521). -/
def Chip.stopColumn (c : Chip) : Nat :=
  if c.dev.snow.step = 4 then 2
  else if c.dev.snow.step ≠ 0 ∨ c.dev.snow.pend.isSome ∨ c.dev.cls = some 2 then 1
  else 0

/-- A pending launch of an output: its queue is full (R355). -/
def Chip.launchFull (c : Chip) (out : Nat) : Bool := decide (16 ≤ (c.dev.launches.filter (fun x => x.out == out)).length)

/-- The launch point of the present period, NT (R122). -/
def Chip.launchNt (c : Chip) : Nat := c.dev.sn + c.parN Par.perLaunchOffset

/-! ### The shared checks -/

/-- The Accepted column as failing statuses (R75, R76). -/
def acceptFails (a : Accept) (c : Chip) : List Nat :=
  match a with
  | .anyTime | .own => []
  | .parked => if c.isParked then [] else [stNotParked]
  | .commissioned => if c.commissioned then [] else [stNotCommissioned]
  | .enabled => if c.commissioned && c.dev.actuation then [] else [stDenied]
  | .commissioning => if c.commissioningOpen then [] else [stDenied]

/-- Whether a steering context follows the host during a stop: SNP.STEER_MODE 2 (R454, R459). -/
def Chip.followsHost (c : Chip) (ctx : Nat) : Bool :=
  (List.range 4).any (fun j => decide (c.parN Par.snpSteerCtx j = ctx) && decide (c.parN Par.snpSteerMode j = 2))

/-- The outputs that a SIO.OUTPUT_SET names (R411). -/
def outputNames (p : List Byte) : Nat := fld p 0 1 % 16

/-- The operations of R459 as failing statuses, and whether the Accepted column still applies. -/
def stopFails (a : OpAttr) (r : Req) (c : Chip) : List Nat :=
  let col := c.stopColumn
  let byColumn := acceptFails a.acc c
  if col = 0 then byColumn
  else match a.row with
    | .always => byColumn
    | .steer =>
      if col = 1 ∧ c.followsHost (fld r.body 0 1) then byColumn
      else if col = 1 then [stDenied] else [stInHold]
    | .output =>
      if (List.range 4).all (fun n => !((outputNames r.body).testBit n) || decide (c.parN Par.sioSoFunc n = 0)) then byColumn
      else if col = 1 then [stDenied] else [stInHold]
    | .disable => if col = 1 then [stDenied] else byColumn
    | .release => if col = 1 then [stDenied] else []
    | .enabled => if col = 1 then [stDenied] else [stInHold]
    | .other => if col = 1 then [stDenied] else byColumn

/-- The failing statuses of flags, lane mask and session byte (R57, R58, R59). -/
def formFails (a : OpAttr) (r : Req) (c : Chip) : List Nat :=
  (if r.flags &&& 0xFC#8 ≠ 0 ∨ (r.isTimed = true ∧ a.timed = false) then [stBadParam] else []) ++
  (if r.isTimed = true ∧ (r.payload.length < 16 ∨ zeroFrom r.payload 8 16 = false) then [stBadParam] else []) ++
  (if a.laneLocal then
    (if r.mask &&& 0xF8#8 ≠ 0 ∨ r.lanes = [] then [stBadParam] else []) ++
    (if !a.anyLane && r.lanes.any (fun l => !c.inAuth l) then [stFenced] else [])
   else if r.mask ≠ 0 then [stBadParam] else []) ++
  (if a.keyed ∧ r.session = 0 then [stSessionRequired] else [])

/-- The failing statuses of a launch time (R353), for a request with TIMED. -/
def timedFails (r : Req) (c : Chip) : List Nat :=
  if r.isTimed then
    (if c.timedReady then [] else [stDenied]) ++
    (if r.launchTime < c.launchNt then [stLate] else []) ++
    (if c.dev.sn + 1000000000 < r.launchTime then [stEarly] else [])
  else []

/-- The failing statuses of a request's tag (R61). -/
def tagFails (r : Req) (c : Chip) : List Nat :=
  match r.link with
  | some l => if (c.dev.hosts.get l).tags.contains r.tag then [stTagInUse] else []
  | none => []

/-! ### The host link's gate (R20, R60, R77) -/

/-- What a host link makes of a packet: it goes on, it is answered at once, or its last reply is sent again. -/
inductive LinkGate where
  | go
  | answer (status : Nat)
  | again
  deriving DecidableEq, Repr

/-- A session byte that the link may not carry: a free session, or one whose carrier mask does not include the link
(R77). -/
def Chip.badCarrier (c : Chip) (l : LaneId) (n : Nat) : Bool :=
  decide (n ≠ 0) &&
    (decide ((c.session n).state = .free) || !hasLane (c.session n).carriers l || decide (127 < n))

/-- The gate of a packet other than HOST.LINK_SYNC, whose CRC-32C is given. -/
def Chip.linkGate (c : Chip) (crc : Nat) (r : Req) : LinkGate :=
  match r.link with
  | none => .go
  | some l =>
    let h := c.dev.hosts.get l
    if (c.lane l).boot.fenced || !c.inAuth l then .answer stFenced
    else if h.frozen then .answer stFrozen
    else if c.badCarrier l r.session then .answer stFrozen
    else if !h.synced then .answer stSeqError
    else if r.seq = h.expected then .go
    else if (r.seq + 1) % 2 ^ 32 = h.expected ∧ h.lastCrc = some crc then .again
    else .answer stSeqError

/-- A host link frozen by a violation: U class (R77). One that is frozen already stays so through a release in the same period
(R79). -/
def Chip.freezeLink (c : Chip) (l : LaneId) : Chip :=
  if (c.dev.hosts.get l).frozen then c.modHost l (fun h => { h with violatedNow := true })
  else (c.modHost l (fun h => { h with frozen := true, freezeSync := none, violatedNow := true, seqErrors := 0 })).agreedFault
    0x3001 0x0E l.idx l.idx

/-- A frozen host link released: synchronised at the number set during the freeze, if any (R80). A link frozen in
the same control period stays frozen (R79). -/
def Chip.releaseLink (c : Chip) (l : LaneId) : Chip :=
  if (c.dev.hosts.get l).frozen && !(c.dev.hosts.get l).violatedNow then
    (c.modHost l (fun h => match h.freezeSync with
      | some n => { h with frozen := false, synced := true, expected := n, lastCrc := none, lastReply := none, freezeSync := none }
      | none => { h with frozen := false, synced := false, freezeSync := none })).agreedFault 0x3002 0x0E l.idx l.idx
  else c

/-- A count of consecutive SEQ_ERROR answers: the fourth freezes the link, and any other answer ends the row (R77). -/
def Chip.countSeqError (c : Chip) (l : LaneId) (status : Nat) : Chip :=
  if status = stSeqError then
    let n := (c.dev.hosts.get l).seqErrors + 1
    let c := c.modHost l (fun h => { h with seqErrors := n })
    if 4 ≤ n then c.freezeLink l else c
  else c.modHost l (fun h => { h with seqErrors := 0 })

/-- The link's account of a packet answered with a status: four consecutive SEQ_ERROR answers freeze it, and a session
byte that it may not carry does so at once; a lane out of authority takes no packet into agreement (R77). -/
def Chip.linkAccount (c : Chip) (r : Req) (status : Nat) : Chip :=
  match r.link with
  | none => c
  | some l =>
    if c.badCarrier l r.session && c.inAuth l && !(c.lane l).boot.fenced then (c.countSeqError l status).freezeLink l
    else c.countSeqError l status

/-- A packet answered with its last reply again is none that is answered with SEQ_ERROR (R60, R77). -/
def Chip.linkAgain (c : Chip) (r : Req) : Chip :=
  match r.link with
  | none => c
  | some l =>
    let c := c.modHost l (fun h => { h with seqErrors := 0 })
    match (c.dev.hosts.get l).lastReply with
    | some p => c.modDev (fun d => { d with replies := d.replies ++ [(l, p)] })
    | none => c

/-- The expected number rises with a packet that carries it, whose CRC-32C is kept (R60). -/
def Chip.linkAdvance (c : Chip) (crc : Nat) (r : Req) : Chip :=
  match r.link with
  | none => c
  | some l =>
    c.modHost l (fun h => { h with expected := (h.expected + 1) % 2 ^ 32, lastCrc := some crc, lastReply := none, seqErrors := 0 })

/-! ### The session's gate (R370, R374, R381) -/

/-- What a session makes of an agreed PDU: it goes on, it is answered with a status, or it gets no reply. -/
inductive SesGate where
  | go
  | answer (status : Nat)
  | silent
  deriving DecidableEq, Repr

/-- A violation freezes the session: U class (R381). -/
def Chip.violate (c : Chip) (n : Nat) : Chip :=
  (c.modSession n (fun x => { x with frozen := true, violatedNow := true, violations := satInc 65535 x.violations })).agreedFault 0x2205 0x0D n 0xFF

/-- The last agreed sequence and the stamp to be echoed advance (R370). -/
def Chip.advance (c : Chip) (n : Nat) (p : PduHdr) : Chip :=
  c.modSession n (fun x => { x with rxSeq := p.seq, echoStamp := p.stamp })

/-- The distance of one sequence number after another, modulo 2^32. -/
def seqDist (x y : Nat) : Nat := (x + 2 ^ 32 - y % 2 ^ 32) % 2 ^ 32

/-- Whether an agreed PDU is fresh under its profile's time mode (R370). -/
def Chip.pduFresh (c : Chip) (prof : Nat) (p : PduHdr) : Bool :=
  let maxAge := 1000 * c.parN Par.keyMaxAge prof
  if c.parN Par.keyTimeMode prof = 0 then decide (seqDist c.dev.sn p.echoTime ≤ maxAge)
  else c.netSynced && decide (c.dev.sn ≤ p.stamp + maxAge) && decide (p.stamp ≤ c.dev.sn + c.parN Par.keyFutureTol)

/-- The checks of R370 on the agreed PDU of a session. -/
def Chip.sessionGate (c : Chip) (right : Option Nat) (n : Nat) (p : PduHdr) : SesGate × Chip :=
  let x := c.session n
  let window := c.parN Par.keySeqWindow x.profile
  let d := seqDist p.seq x.rxSeq
  match x.state with
  | .free | .opening => (.silent, c)
  | .lost => (.answer stFenced, c)
  | .opened =>
    if window < d then (.answer stFrozen, c.violate n)
    else if x.frozen then (.answer stFrozen, c.advance n p)
    else if c.parN Par.keyTimeMode x.profile = 0 ∧ window < seqDist x.txSeq p.echo then (.answer stFrozen, c.violate n)
    else if !c.pduFresh x.profile p then
      (.silent, ((c.advance n p).modSession n (fun x => { x with stale := satInc 65535 x.stale })).agreedFault 0x2202 0x0D n 0xFF)
    else if (match right with | some b => !((c.parN Par.keyRights x.profile).testBit b) | none => false) then
      (.answer stDenied, c.violate n)
    else
      let c := (c.advance n p).modSession n (fun x => { x with freshNow := true, lastFresh := c.dev.sn })
      if 1 < d then
        (.go, (c.modSession n (fun x => { x with gaps := satInc 65535 x.gaps })).agreedFault 0x2203 0x0D n 0xFF)
      else (.go, c)

/-! ### Running an operation -/

/-- Every failing status of an operation's packet besides those of its link and session (R57 to R59, R61, R76, R353, R459). -/
def opFails (a : OpAttr) (checks : Req → Chip → List Nat) (r : Req) (c : Chip) : List Nat :=
  formFails a r c ++ tagFails r c ++ stopFails a r c ++ timedFails r c ++ checks r c

/-- The status of a packet that its link or session answers, weighed against the operation's own failing statuses (R73). -/
def answerOf (st : Nat) (fails : List Nat) : Nat := (pickStatus (st :: fails)).getD st

/-- An operation other than a read has been agreed, which restarts the idle timer (R476). -/
def Chip.active (c : Chip) : Chip := c.modDev (fun d => { d with power := { d.power with activity := true } })

/-- An operation past the gates: its failing statuses, then its effect, then its reply (R63, R64, R73). -/
def runChecked (a : OpAttr) (checks : Req → Chip → List Nat) (effect : Req → State → OpOut) (r : Req) (s : State) : State :=
  let s := if a.read then s else s.onChip Chip.active
  match pickStatus (opFails a checks r s.chip) with
  | some st => s.onChip (fun c => c.reply a.code r st [])
  | none =>
    let o := effect r s
    if o.defer then o.st else o.st.onChip (fun c => c.reply a.code r o.status o.payload)

/-- An operation past the host link's gate: the session's checks, then the rest. -/
def runSession (a : OpAttr) (checks : Req → Chip → List Nat) (effect : Req → State → OpOut) (r : Req) (s : State) : State :=
  if r.session = 0 then runChecked a checks effect r s
  else
    let (g, c) := s.chip.sessionGate a.right r.session r.pdu
    let s := { s with chip := c }
    match g with
    | .silent => s
    | .answer st => s.onChip (fun c => c.reply a.code r (answerOf st (opFails a checks r c)) [])
    | .go => runChecked a checks effect r s

/-- An agreed command packet from its link to its reply (R60 to R64, R73). -/
def runOp (a : OpAttr) (checks : Req → Chip → List Nat) (effect : Req → State → OpOut) (r : Req) (s : State) : State :=
  match s.chip.linkGate (s.chip.reqCrc a.code r) r with
  | .answer st => s.onChip (fun c =>
      let st := answerOf st (opFails a checks r c)
      (c.reply a.code r st []).linkAccount r st)
  | .again => s.onChip (fun c => c.linkAgain r)
  | .go => runSession a checks effect r (s.onChip (fun c => c.linkAdvance (c.reqCrc a.code r) r))

/-- The result of an operation with no effect on the state. -/
def OpOut.same (s : State) (payload : List Byte := []) : OpOut := { st := s, payload := payload }

/-- The result of an operation with an effect on the chip only. -/
def OpOut.chip (s : State) (f : Chip → Chip) (payload : List Byte := []) : OpOut := { st := s.onChip f, payload := payload }

/-- Whether a payload has exactly n bytes, as the operation's table gives it (R72: bad payload form). -/
def payloadFails (p : List Byte) (n : Nat) : List Nat := if p.length = n then [] else [stBadParam]

/-- A payload of one quad whose bytes from an offset are zero. -/
def quadFails (p : List Byte) (used : Nat) : List Nat :=
  if p.length = 16 ∧ zeroFrom p used 16 then [] else [stBadParam]

/-! ### Reception (R367 to R369) -/

/-- The PDU in a byte sequence: its opcode, and a request of session n whose payload is its data (R364). -/
def pduOf (link : Option LaneId) (n : Nat) (mask : Mask) (seq : Nat) (b : List Byte) : Nat × Req :=
  let m := b.length - 16
  (fld b 0 2,
   { link := link, tag := BitVec.ofNat 8 (fld b 2 1), flags := BitVec.ofNat 8 (fld b 3 1), session := n, mask := mask, seq := seq,
     pdu := { seq := fld b 4 4, stamp := fld b 8 8, echo := fld b m 4, echoTime := fld b (m + 4) 4 },
     payload := (b.drop 16).take (m - 16) })

/-- The carrier of a PDU is in the session's carrier set (R369). -/
def Session.carries (x : Session) (link : Option LaneId) : Bool :=
  match link with
  | some l => !x.ocgal && hasLane x.carriers l
  | none => x.ocgal

/-- The checks of R369 on a PDU of session n but R367. -/
def Chip.pduPasses (c : Chip) (link : Option LaneId) (n : Nat) (b : List Byte) : Bool :=
  let x := c.session n
  decide (1 ≤ n ∧ n ≤ 127) && decide (x.state ≠ .free) && x.carries link && decide (32 ≤ b.length ∧ b.length ≤ 1456) && decide (b.length % 16 = 0) &&
    decide (fld b (b.length - 8) 8 = pduCrc (c.peerIdentity n) (b.take (b.length - 8)))

/-- A lane's count of a session's PDUs that failed its checks (R384). -/
def keyCount (xs : List (Nat × Nat)) (n : Nat) : Nat := ((xs.find? (fun e => e.1 == n)).map (·.2)).getD 0

/-- A PDU that failed its checks in a lane: counted, and 0x2201 at most once for each session and matrix cycle (R369). -/
def Chip.pduFails (c : Chip) (l : LaneId) (n : Nat) : Chip :=
  if n = 0 ∨ 127 < n then c
  else
    let noted := (c.lane l).keyNoted.contains n
    let c := c.modLane l (fun x => { x with
      keyFails := (n, satInc 65535 (keyCount x.keyFails n)) :: x.keyFails.filter (fun e => e.1 != n)
      keyNoted := if noted then x.keyNoted else n :: x.keyNoted })
    if noted then c else c.localFault l 0x2201 0x0D n l.idx

/-- The bytes that a host packet and its PDU share (R367). -/
def headersMatch (p : RxPacket) (op : Nat) (r : Req) : Bool := decide (op = p.opcode ∧ r.tag = p.req.tag ∧ r.flags = p.req.flags)

/-- A host packet that carries a PDU passes the checks that its lane makes on reception (R126, R369). DESIGN CHOICE (log 102): a packet
whose session byte names a session that the link may not carry is streamed all the same, since R77 decides that violation from
agreed data. -/
def Chip.receptionPasses (c : Chip) (l : LaneId) (p : RxPacket) : Bool :=
  if p.req.session = 0 ∨ p.opcode = 0x3010 ∨ c.badCarrier l p.req.session = true then true
  else
    let (op, r) := pduOf (some l) p.req.session p.req.mask p.req.seq p.req.payload
    c.pduPasses (some l) p.req.session p.req.payload && headersMatch p op r

end Sys2Proof.Machine
end

