-- ==== Sys2Proof/Machine/Link.lean ====
section
/-! DEFINITION. Host bridges and host links (chapter 02): SPI frames, the packet filter, credits, the queue of replies and
events, attention, the sequence number and the freeze of a link, and the operations of the SYS and HOST blocks. -/

namespace Sys2Proof.Machine

open Sys2Proof

/-! ### Credits, link state and attention (R52, R66, R70) -/

/-- The free buffers of a bridge (R66). -/
def Bridge.credits (b : Bridge) : Nat := 64 - b.rx.foldl (fun n p => n + p.buffers) 0

/-- A bridge answers every packet itself: the field side is silent, its lane is fenced or the bridge is lost (R20, R55). -/
def Chip.unavailable (c : Chip) (l : LaneId) : Bool :=
  (c.bridges.get l).silent || (c.lane l).boot.fenced || (c.bridges.get l).lost

/-- The link state of R52; where several hold, a lost bridge, then waking, then unavailable, then frozen, then not synchronised
(log 20). -/
def Chip.linkState (c : Chip) (l : LaneId) : Nat :=
  if (c.bridges.get l).lost then 3
  else if (c.bridges.get l).waking then 2
  else if (c.bridges.get l).silent then 3
  else if (c.dev.hosts.get l).frozen then 1
  else if !(c.dev.hosts.get l).synced then 4
  else 0

/-- The attention causes of R70. -/
def Chip.causes (c : Chip) (l : LaneId) : Mask :=
  let b := c.bridges.get l
  let m := b.edges &&& 0x6C#8
  let m := setBit m 0 (b.queue.any (fun p => !p.isEvent))
  let m := setBit m 1 (b.queue.any (fun p => p.isEvent))
  let m := setBit m 4 ((c.dev.hosts.get l).frozen)
  setBit m 7 (decide (c.linkState l = 3) || (c.lane l).boot.fenced)

/-- A bridge whose straps give 0x00 or 0x7F matches no frame and keeps HATTN released (R48). -/
def Bridge.matches (b : Bridge) : Bool := b.powered && decide (b.address ≠ 0 ∧ b.address ≠ 0x7F)

/-- H-x_HATTN is driven low (R70, R48). -/
def Chip.hattnLow (c : Chip) (l : LaneId) : Bool :=
  (c.bridges.get l).matches &&
    (c.causes l &&& BitVec.ofNat 8 (c.parN Par.hostAttnMask l.idx)) != 0#8

/-- An edge cause raised at a bridge. -/
def Chip.raiseEdge (c : Chip) (l : LaneId) (n : Nat) : Chip :=
  c.modBridge l (fun b => { b with edges := b.edges ||| bitMask n })

/-- A change of the held packets, with CREDITS_FREED when the free count reaches HOST.CREDIT_ATTN from below (R70). -/
def Chip.setRx (c : Chip) (l : LaneId) (rx : List RxPacket) : Chip :=
  let before := (c.bridges.get l).credits
  let c := c.modBridge l (fun b => { b with rx := rx })
  let limit := c.parN Par.hostCreditAttn l.idx
  if before < limit ∧ limit ≤ (c.bridges.get l).credits then c.raiseEdge l 2 else c

/-- The link status quad (R52). -/
def Chip.statusQuad (c : Chip) (l : LaneId) : List Byte :=
  let b := c.bridges.get l
  let q := b.queue.foldl (fun n p => n + p.size / 16) 0
  let body := toLe 1 b.credits ++ toLe 1 (c.linkState l) ++ toLe 1 b.cls ++ toLe 1 b.rejects ++
    toLe 4 (c.causes l).toNat ++ toLe 2 q ++ toLe 2 b.dropped
  body ++ toLe 4 (crc32c body)

/-! ### Frames (R46 to R55) -/

/-- A packet read from bytes that hold it whole; the payload of a packet with a session stays the PDU's bytes (R56, R367). -/
def rxPacketOf (l : LaneId) (p : List Byte) : RxPacket :=
  let len := fld p 4 2
  { opcode := fld p 0 2, crc := fld p 12 4, buffers := buffersOf len, quads := 1 + len / 16,
    req := { link := some l, tag := BitVec.ofNat 8 (fld p 2 1), flags := BitVec.ofNat 8 (fld p 3 1), session := fld p 6 1,
             mask := BitVec.ofNat 8 (fld p 7 1), seq := fld p 8 4, payload := (p.drop 16).take len } }

/-- A packet rejected under R53: counted, with its cause. -/
def Chip.rejectPacket (c : Chip) (l : LaneId) : Chip :=
  (c.modBridge l (fun b => { b with rejects := satInc 255 b.rejects })).raiseEdge l 3

/-- The queue's space for replies and events (R68). -/
def queueBytes : Nat := 49152

/-- The bytes that a queue holds. -/
def queueUsed (q : List OutPacket) : Nat := q.foldl (fun n p => n + p.size) 0

/-- A reply-lost event, which is kept like a reply (R69). -/
def OutPacket.kept (p : OutPacket) : Bool := !p.isEvent || decide (fld p.payload 0 2 = 1)

/-- The queue without its oldest event that may be dropped, or none when it has none (R68). -/
def dropOldestEvent : List OutPacket → Option (List OutPacket)
  | [] => none
  | p :: ps => if p.kept then (dropOldestEvent ps).map (p :: ·) else some ps

/-- A packet that must not be dropped put into a bridge's queue. -/
def Chip.queuePacket (c : Chip) (l : LaneId) (p : OutPacket) : Chip :=
  c.modBridge l (fun b => { b with queue := b.queue ++ [p] })

/-- Events dropped from the oldest on until a packet fits, on fuel; the new event itself is dropped when no older one is
left (R68, log 21). -/
def queueEvent : Nat → Bridge → OutPacket → Bridge
  | 0, b, _ => { b with dropped := satInc 65535 b.dropped }
  | n + 1, b, p =>
    if queueUsed b.queue + p.size ≤ queueBytes then { b with queue := b.queue ++ [p] }
    else match dropOldestEvent b.queue with
      | some q => queueEvent n { b with queue := q, dropped := satInc 65535 b.dropped } p
      | none => { b with dropped := satInc 65535 b.dropped }

/-- A reply that the bridge builds itself (R55, R477). DESIGN CHOICE (log 92): while the queue has no room for it, the packet is
rejected like one that finds no credits, since replies are never dropped and the queue holds 48 KB (R68). -/
def Chip.bridgeReply (c : Chip) (l : LaneId) (p : OutPacket) : Chip :=
  if queueUsed (c.bridges.get l).queue + p.size ≤ queueBytes then c.queuePacket l p else c.rejectPacket l

/-- A packet that passed every check of R53: it crosses the barrier and takes its place in the lane's stream, its PDU checked (R126,
R369), or the bridge answers it with FENCED (R20, R55). -/
def Chip.takePacket (c : Chip) (l : LaneId) (p : RxPacket) : Chip :=
  if c.unavailable l then
    c.bridgeReply l { opcode := p.opcode, tag := p.req.tag, status := stFenced, session := p.req.session, mask := p.req.mask, seq := p.req.seq }
  else if (c.bridges.get l).closing ∧ p.opcode ≠ 0x3010 then
    c.bridgeReply l { opcode := p.opcode, tag := p.req.tag, status := stTransition, session := p.req.session, mask := p.req.mask, seq := p.req.seq }
  else if !c.receptionPasses l p then c.pduFails l p.req.session
  else
    let n := c.lane l
    (c.modLane l (fun n => n.placed p.quads)).setRx l ((c.bridges.get l).rx ++ [{ p with ord := n.streamOrd, index := n.streamQuad }])

/-- The packets of a write frame, one after another, on fuel (R49, R53). -/
def Chip.takePackets (l : LaneId) : Nat → Chip → List Byte → Chip
  | 0, c, _ => c
  | n + 1, c, bs =>
    if bs = [] then c
    else if bs.length < 16 then c.rejectPacket l
    else
      let len := fld bs 4 2
      if len % 16 ≠ 0 ∨ 4080 < len ∨ 8 ≤ fld bs 7 1 then c.rejectPacket l
      else if bs.length < 16 + len then c.rejectPacket l
      else
        let p := bs.take (16 + len)
        if crc32c (p.take 12 ++ toLe 4 0 ++ p.drop 16) ≠ fld p 12 4 then c.rejectPacket l
        else
          let c := if (c.bridges.get l).credits < buffersOf len then c.rejectPacket l else c.takePacket l (rxPacketOf l p)
          takePackets l n c (bs.drop (16 + len))

/-- A wake by an SPI frame: the first address match latches wake source 2 in AON while the device sleeps (R479). -/
def Chip.latchWake (c : Chip) (l : LaneId) (src inst : Nat) : Chip :=
  c.modLane l (fun n => { n with power := { n.power with wake := match n.power.wake with | some w => some w | none => some (src, inst) } })

/-- The device sleeps: GLIDE, SLEEP or OFF, in which an address match wakes the lane (R48, R479). -/
def Chip.sleeping (c : Chip) : Bool := decide (c.dev.power.state = .glide ∨ c.dev.power.state = .sleep ∨ c.dev.power.state = .off)

/-- The levels that a bridge drives on its IO balls for one byte, a number of bits 3 to 0 for IO3 to IO0 in each SCLK cycle: single
I/O on IO1, dual on IO0 and IO1, quad on IO0 to IO3, the most significant first (R46). -/
def ioCycles (width : Nat) (b : Byte) : List Nat :=
  if width = 4 then [b.toNat / 16, b.toNat % 16]
  else if width = 2 then (List.range 4).map (fun k => b.toNat / 4 ^ (3 - k) % 4)
  else (List.range 8).map (fun k => 2 * (b.toNat / 2 ^ (7 - k) % 2))

/-- Data driven by a bridge in a read frame (R46, R50). -/
def Bridge.drive (b : Bridge) (out : List Byte) : Bridge := { b with ioOut := out, ioLevels := out.flatMap (ioCycles b.ioWidth) }

/-- READ_FRAME: the status quad, then queued packets, then idle quads of 0xFF (R50, R52). -/
def readFrame (l : LaneId) (address : Byte) (nbytes : Nat) (c : Chip) : Chip :=
  let b := c.bridges.get l
  if !b.matches || decide (address.toNat / 2 ≠ b.address) then c.modBridge l (fun b => b.drive [])
  else
    let c := if c.sleeping && !(c.lane l).power.core && c.dev.power.target.isNone then c.latchWake l 2 l.idx else c
    if address.toNat % 2 = 0 ∨ b.hlinkOn = false then c.modBridge l (fun b => b.drive [])
    else
      let whole := b.queue.foldl (fun (a : List OutPacket × Nat × Bool) p =>
        if a.2.2 && decide (a.2.1 + p.size ≤ nbytes) then (a.1, a.2.1 + p.size, true) else (a.1 ++ [p], a.2.1, false))
        ([], 16, true)
      let out := c.statusQuad l ++ (b.queue.flatMap (fun p => p.bytes))
      let out := out.take nbytes ++ List.replicate (nbytes - out.length) 0xFF#8
      c.modBridge l (fun b => if 16 ≤ nbytes then
          { b.drive out with queue := whole.1, edges := 0, rejects := 0, dropped := 0 }
        else b.drive out)

/-- WRITE_FRAME: the address byte decides; a matching write frame's packets go through the filter (R47 to R49, R53). -/
def writeFrame (l : LaneId) (bytes : List Byte) (c : Chip) : Chip :=
  match bytes with
  | [] => c
  | a :: rest =>
    let b := c.bridges.get l
    if !b.matches || decide (a.toNat / 2 ≠ b.address) then c
    else if a.toNat % 2 = 1 then readFrame l a (rest.length - b.ioWidth) c
    else
      let c := if c.sleeping && !(c.lane l).power.core then c.latchWake l 2 l.idx else c
      if b.hlinkOn then Chip.takePackets l rest.length c rest else c

/-- The I/O widths that wait for what a test picks are taken (R71). -/
def Chip.takeWidths (c : Chip) (test : Option (LaneId × Nat) → Bool) : Chip :=
  LaneId.all.foldl (fun c k => match (c.dev.hosts.get k).newWidth with
    | some (w, by_) =>
      if test by_ then (c.modHost k (fun h => { h with newWidth := none })).modBridge k (fun b => { b with ioWidth := w }) else c
    | none => c) c

/-- A reply or event packet read from the bytes that reached the bridge (R54, R56). -/
def outPacketOf (b : List Byte) : OutPacket :=
  { opcode := fld b 0 2, tag := BitVec.ofNat 8 (fld b 2 1), status := fld b 3 1, session := fld b 6 1,
    mask := BitVec.ofNat 8 (fld b 7 1), seq := fld b 8 4, payload := (b.drop 16).take (fld b 4 2),
    isEvent := decide (128 ≤ fld b 0 1) }

/-- A whole packet whose CRC-32C matches (R54, R56). -/
def packetIntact (b : List Byte) : Bool :=
  decide (16 ≤ b.length) && decide (b.length = 16 + fld b 4 2) && decide (crc32c (b.take 12 ++ toLe 4 0 ++ b.drop 16) = fld b 12 4)

/-- The reply-lost event that replaces a discarded packet, with its tag, opcode and sequence number as received (R54). -/
def lostEvent (p : OutPacket) (n : Nat) : OutPacket :=
  { opcode := 0x3080, seq := n, isEvent := true,
    payload := toLe 2 1 ++ toLe 1 p.tag.toNat ++ toLe 1 0 ++ toLe 2 p.opcode ++ toLe 2 0 ++ toLe 4 p.seq ++ toLe 4 0 }

/-- What the bridge makes of a packet from its lane: the packet, and whether it stands or was discarded (R54): a packet whose CRC
fails keeps the header it was sent with unless the bytes received are given. -/
def receivedOut (p : OutPacket) (q : Rx (List Byte)) : OutPacket × Bool :=
  match q with
  | .intact => (p, true)
  | .corrupt => (p, false)
  | .other b => (outPacketOf b, packetIntact b)

/-- REPLY_TRANSFER: the oldest reply or event of the lane crosses the barrier into the bridge's queue (R54, R68). A reply
that finds no room stays with the lane. -/
def replyTransfer (l : LaneId) (q : Rx (List Byte)) (c : Chip) : Chip :=
  if (c.bridges.get l).silent || (c.bridges.get l).lost || !(c.bridges.get l).powered then c
  else match (c.lane l).txq with
  | [] => c
  | p :: ps =>
    let n := (c.dev.hosts.get l).events
    let (x, ok) := receivedOut p q
    let x := if ok then x else lostEvent x n
    if x.kept && decide (queueBytes < queueUsed (c.bridges.get l).queue + x.size) then c
    else
      let c := if ok then c else c.modHost l (fun h => { h with events := (n + 1) % 2 ^ 32 })
      let c := c.modLane l (fun x => { x with txq := ps })
      let c := if !p.isEvent && decide (p.opcode % 256 = 2) then c.takeWidths (fun by_ => by_ == some (l, p.seq)) else c
      if x.kept then c.queuePacket l x
      else c.modBridge l (fun b => queueEvent (b.queue.length + 1) b x)

def execReplyTransfer (l : LaneId) (q : Rx (List Byte)) (s : State) : Out := .next (s.onChip (replyTransfer l q))

/-- The link's packets wait: the lane holds a reply that the queue cannot take (R68). -/
def Chip.replyHeld (c : Chip) (l : LaneId) : Bool :=
  (c.lane l).txq.any (fun p => !p.isEvent && decide (queueBytes < queueUsed (c.bridges.get l).queue + p.size))

/-- LANE_UNAVAILABLE: the field side is silent; packets not yet agreed are discarded and their buffers returned (R55). -/
def laneUnavailable (l : LaneId) (c : Chip) : Chip :=
  (c.modBridge l (fun b => { b with silent := true, waking := false })).setRx l []

def execLaneUnavailable (l : LaneId) (s : State) : Out := .next (s.onChip (laneUnavailable l))

/-- FREEZE_QUIET_EXPIRY: a frozen link is released by silence (R77, R80). -/
def freezeQuietExpiry (l : LaneId) (c : Chip) : Chip := c.releaseLink l

def execFreezeQuietExpiry (l : LaneId) (s : State) : Out := .next (s.onChip (freezeQuietExpiry l))

/-- A host link not synchronised, as after a boot of its lane or a power-up of its bridge (R60). -/
def HostLink.unsync (h : HostLink) : HostLink := { h with synced := false, lastCrc := none, lastReply := none, seqErrors := 0 }

/-- HAON_POWER_UP: the straps and the VDDH range are read, the bridge starts empty and its link not synchronised (R48, R52,
R60); a lost bridge returns (R440). -/
def haonPowerUp (l : LaneId) (straps : BitVec 7) (vddh33 : Bool) (c : Chip) : Chip :=
  let b : Bridge := { powered := true, address := straps.toNat, vddh33 := vddh33, hlinkOn := true, silent := !(c.inAuth l),
                      ioWidth := if c.inAuth l then c.parN Par.hostIoWidth l.idx else 1 }
  (c.modBridge l (fun _ => b)).modHost l HostLink.unsync

def execHaonPowerUp (l : LaneId) (straps : BitVec 7) (vddh33 : Bool) (s : State) : Out :=
  .next (s.onChip (haonPowerUp l straps vddh33))

/-- HOST_BRIDGE_LOST: the lane records 0x3003 and fences the host link until the next HAON power-up (R444, R448). -/
def hostBridgeLost (l : LaneId) (c : Chip) : Chip :=
  if (c.bridges.get l).lost then c
  else
    let c := (c.modBridge l (fun b => { b with lost := true, powered := false, queue := [], waking := false })).setRx l []
    if (c.lane l).boot.state = .booting ∨ (c.lane l).boot.fenced then c
    else (c.localFault l 0x3003 0x0E l.idx l.idx).ownFence l 0x0E l.idx

def execHostBridgeLost (l : LaneId) (s : State) : Out := .next (s.onChip (hostBridgeLost l))

/-! ### HOST operations (R60, R80, R555) -/

/-- The failing statuses of HOST.LINK_SYNC (R60). -/
def syncFails (r : Req) (c : Chip) : List Nat :=
  match r.link with
  | none => [stDenied]
  | some l =>
    (if c.inAuth l && !(c.lane l).boot.fenced then [] else [stFenced]) ++
    (if r.flags &&& 0xFE#8 = 0#8 ∧ r.payload = [] then [] else [stBadParam]) ++
    (if r.mask = 0#8 ∨ r.mask = bitMask l.idx then [] else [stBadParam]) ++
    (if r.session = 0 then [] else [stDenied])

/-- HOST.LINK_SYNC: the expected number of the carrying link becomes n + 1; on a frozen link the freeze stays (R60, R80). A session
byte that the link may not carry is a violation here too (R77). -/
def linkSync (r : Req) (c : Chip) : Chip :=
  match pickStatus (syncFails r c ++ tagFails r c) with
  | some st => (c.reply 0x3010 r st []).linkAccount r st
  | none =>
    let c := match r.link with
      | some l => c.modHost l (fun h =>
          let n := (r.seq + 1) % 2 ^ 32
          if h.frozen then { h with expected := n, freezeSync := some n, lastCrc := none, lastReply := none, seqErrors := 0 }
          else { h with synced := true, expected := n, lastCrc := none, lastReply := none, seqErrors := 0 })
      | none => c
    c.reply 0x3010 r stOk []

def execLinkSync (r : Req) (s : State) : Out := .next (s.onChip (linkSync r))

def attrHostUnfreeze : OpAttr := { code := 0x3011, row := .always }

/-- The host links that a mask names: every other one for zero (R555). -/
def unfreezeLinks (r : Req) : List LaneId :=
  let m := BitVec.ofNat 8 (fld r.body 0 1)
  let own := if r.session = 0 then r.link else none
  if m = 0 then LaneId.all.filter (fun l => decide (some l ≠ own)) else lanesOf m

def checksHostUnfreeze (r : Req) (_ : Chip) : List Nat :=
  (if r.body.length = 16 ∧ fld r.body 0 1 < 8 ∧ zeroFrom r.body 1 16 then [] else [stBadParam]) ++
  (if r.session = 0 ∧ (unfreezeLinks r).any (fun l => decide (some l = r.link)) then [stDenied] else [])

def effectHostUnfreeze (r : Req) (s : State) : OpOut :=
  OpOut.chip s (fun c => (unfreezeLinks r).foldl (fun c l => c.releaseLink l) c)

/-- HOST.UNFREEZE: every named link that is frozen is released (R555, R79, R80). -/
def execHostUnfreeze (r : Req) (s : State) : Out := .next (runOp attrHostUnfreeze checksHostUnfreeze effectHostUnfreeze r s)

/-! ### SYS operations (R75) -/

def attrSysIdentify : OpAttr := { code := 0x0010, read := true, row := .always }

def checksNone (r : Req) (_ : Chip) : List Nat := payloadFails r.body 0

/-- The result of a read whose reply layout the spec does not give: n quads of free bytes (log 22). -/
def freeRead (n : Nat) (s : State) : OpOut :=
  let (bs, c) := s.chip.drawBytes (16 * n)
  { st := { s with chip := c }, payload := bs }

def effectSysIdentify (_ : Req) (s : State) : OpOut := freeRead 1 s

/-- SYS.IDENTIFY: part, stepping and firmware versions, in a layout that the spec does not give (log 22). -/
def execSysIdentify (r : Req) (s : State) : Out := .next (runOp attrSysIdentify checksNone effectSysIdentify r s)

def attrSysEcho : OpAttr := { code := 0x0011, read := true, row := .always }

def checksSysEcho (_ : Req) (_ : Chip) : List Nat := []

def effectSysEcho (r : Req) (s : State) : OpOut := OpOut.same s r.body

/-- SYS.ECHO: the request payload comes back (R75). -/
def execSysEcho (r : Req) (s : State) : Out := .next (runOp attrSysEcho checksSysEcho effectSysEcho r s)

/-! ### Opcodes outside the index (R554) -/

/-- The block operations of R75. -/
def blockOps : List Nat :=
  [0x0010, 0x0011, 0x0012, 0x0110, 0x0111, 0x0210, 0x0211, 0x0310, 0x0410, 0x0510, 0x0511, 0x0512, 0x0610, 0x0611, 0x0612,
   0x1010, 0x1011, 0x1012, 0x1013, 0x1110, 0x1111, 0x1210, 0x1211, 0x1212, 0x1213, 0x1310, 0x1311, 0x1410, 0x1411, 0x1412] ++
  [0x2010, 0x2011, 0x2012, 0x2013, 0x2110, 0x2111, 0x2210, 0x2211, 0x2212, 0x2310, 0x2410, 0x2411, 0x3010, 0x3011, 0x3110,
   0x3111, 0x3112, 0x3113, 0x3114, 0x3115, 0x3210, 0x3211, 0x3212, 0x3310, 0x3410, 0x3411, 0x3412]

/-- An opcode of the opcode index that a packet to the device may carry (R75, R554). -/
def inIndex (code : Nat) : Bool :=
  blockOps.contains code || ((Block.ofCode (code / 256)).isSome && decide (1 ≤ code % 256 ∧ code % 256 ≤ 3))

def attrUnknown (code : Nat) : OpAttr := { code := code, laneLocal := true, anyLane := true, row := .always }

def checksUnknown (_ : Req) (_ : Chip) : List Nat := [stBadOpcode]

/-- The one outcome of an opcode outside the index is BAD_OPCODE; this effect is never reached. -/
def effectUnknown (_ : Req) (s : State) : OpOut := { st := s, status := stBadOpcode }

/-- A packet whose opcode is not in the index is answered with BAD_OPCODE (R554). -/
def execOpcodeNotInIndex (opcode : BitVec 16) (r : Req) (s : State) : Out :=
  .next (if inIndex opcode.toNat then s else runOp (attrUnknown opcode.toNat) checksUnknown effectUnknown r s)

end Sys2Proof.Machine
end

