-- ==== Sys2Proof/Machine/LinkTraffic.lean ====
section
/-! DEFINITION. The traffic of the lane links (R12 to R14): transfers wait in each direction of a link and are served a quad
at a time, the highest priority first. -/

namespace Sys2Proof.Machine

open Sys2Proof

/-- The priority of a kind of traffic, 1 the highest (R12). -/
def Traffic.priority : Traffic → Nat
  | .vectors => 1
  | .signatures => 2
  | .claims => 3
  | .mirror => 4
  | .relayed => 5
  | .background => 6

/-- One quad of the waiting transfer of the highest priority served, the oldest of equals: a lower one yields at the quad
boundary (R12). Answers what waits after it and the transfer that is complete with it. -/
def serveQuad : Nat → List LinkXfer → List LinkXfer × Option LinkXfer
  | _, [] => ([], none)
  | p, x :: xs =>
    if x.traffic.priority = p then
      (if x.quads ≤ 1 then (xs, some x) else ({ x with quads := x.quads - 1 } :: xs, none))
    else ((x :: (serveQuad p xs).1), (serveQuad p xs).2)

/-- The highest priority, as the lowest number, among waiting transfers; 7 with none waiting (R12). -/
def topPriority : List LinkXfer → Nat
  | [] => 7
  | x :: xs => min x.traffic.priority (topPriority xs)

/-- One direction after a tick of 10 ns: a quad is served every 64 ns while a transfer waits (R12). Answers the transfer that is
complete with this tick. -/
def LinkDir.tick (d : LinkDir) : LinkDir × Option LinkXfer :=
  if d.waiting = [] then ({ d with phase := 0 }, none)
  else if d.phase + 10 < 64 then ({ d with phase := d.phase + 10 }, none)
  else
    let r := serveQuad (topPriority d.waiting) d.waiting
    ({ waiting := r.1, phase := d.phase + 10 - 64, last := r.2.or d.last }, r.2)

/-- A transfer put behind those that wait. -/
def LinkDir.push (d : LinkDir) (x : LinkXfer) : LinkDir := { d with waiting := d.waiting ++ [x] }

/-- The direction from a lane to another is the one out of the first lane of the link's name. -/
def isOut (tx rx : LaneId) : Bool := decide ((linkEnds (linkIdx tx rx)).1 = tx)

/-- A transfer put on the link between two lanes. -/
def Chip.pushLink (c : Chip) (tx rx : LaneId) (x : LinkXfer) : Chip :=
  c.modLink (linkIdx tx rx) (fun k => if isOut tx rx then { k with out := k.out.push x } else { k with back := k.back.push x })

/-- A transfer from a lane to another: on their link, or while that is fenced relayed through the third lane (R12, R14). -/
def Chip.sendLink (c : Chip) (tx rx : LaneId) (t : Traffic) (quads : Nat) : Chip :=
  if tx = rx ∨ quads = 0 then c
  else if (c.linkAt (linkIdx tx rx)).fenced then
    match thirdLane tx rx with
    | some z => if (c.lane z).boot.fenced then c else c.pushLink tx z { traffic := .relayed, quads := quads, size := quads, dest := rx }
    | none => c
  else c.pushLink tx rx { traffic := t, quads := quads, size := quads, dest := rx }

/-- A transfer from a lane to each lane of a list. -/
def Chip.sendLinks (c : Chip) (tx : LaneId) (rxs : List LaneId) (t : Traffic) (quads : Nat) : Chip :=
  rxs.foldl (fun c rx => c.sendLink tx rx t quads) c

/-- A completed transfer at the end of a link: one that is relayed goes on to its receiver (R14). -/
def Chip.relayOn (c : Chip) (at_ : LaneId) (x : Option LinkXfer) : Chip :=
  match x with
  | some y => if y.dest = at_ then c else c.pushLink at_ y.dest { y with quads := y.size }
  | none => c

/-- One lane link after a tick in both directions (R12). -/
def Chip.tickLink (c : Chip) (k : Nat) : Chip :=
  let x := c.linkAt k
  let r := x.out.tick
  let q := x.back.tick
  let c := c.modLink k (fun x => { x with out := r.1, back := q.1 })
  ((c.relayOn (linkEnds k).2 r.2).relayOn (linkEnds k).1 q.2)

/-- Every lane link after a tick. -/
def Chip.tickLinks (c : Chip) : Chip := ((c.tickLink 0).tickLink 1).tickLink 2

/-- The sender repeats a failed transfer once: the last one of the direction, unless it was a repetition itself (R13). -/
def LinkDir.repeatLast (d : LinkDir) : LinkDir :=
  match d.last with
  | some x => if x.again then d else { d with waiting := d.waiting ++ [{ x with quads := x.size, again := true }], last := none }
  | none => d

/-- The links of a fenced lane are unused (R10). -/
def Chip.clearLinks (c : Chip) (l : LaneId) : Chip :=
  l.partners.foldl (fun c p => c.modLink (linkIdx l p) (fun k => { k with out := {}, back := {} })) c

end Sys2Proof.Machine
end

