-- ==== Sys2Proof/Machine/Rules.lean ====
section
/-! DEFINITION. Ranges that name another field and the cross-field rules of every chapter, judged on a set of values
that will be in force at the next boundary (R523, R550), the parts of a loaded schedule they read (R311), and the rules that a
schedule must meet (R312). -/

namespace Sys2Proof.Machine

open Sys2Proof

/-! ### Schedules (R311) -/

/-- One entry of a schedule. -/
structure SchedEntry where
  slot : Nat
  chan : Nat
  owner : Nat
  offset : Nat
  len : Nat
  quads : Nat
  rep : Nat
  repOff : Nat
  spare : Bool
  deriving DecidableEq, Repr, Inhabited

/-- The entry in one quad. -/
def schedEntryOf (q : List Byte) : SchedEntry :=
  { slot := fld q 0 2 % 512, chan := fld q 0 2 / 32768, owner := fld q 2 2, offset := fld q 4 4, len := fld q 8 2,
    quads := fld q 10 1, rep := fld q 11 1, repOff := fld q 12 1, spare := bitOf (fld q 13 1) 0 }

/-- The number of entries of a schedule. -/
def schedCount (s : List Byte) : Nat := fld s 6 2

/-- The entries of a schedule. -/
def schedEntries (s : List Byte) : List SchedEntry :=
  (List.range (if s.isEmpty then 0 else schedCount s)).map (fun k => schedEntryOf (bytesAt s (32 + 16 * k) 16))

/-- A slot is due in the basic cycle of a counter value (R310: counter modulo 2^e equals the repetition offset). -/
def SchedEntry.due (e : SchedEntry) (counter : Nat) : Bool := decide (counter % 2 ^ e.rep = e.repOff)

/-- The slot number in the form of R311: the channel in bit 15. -/
def SchedEntry.code (e : SchedEntry) : Nat := e.chan * 32768 + e.slot

/-! ### The view of a parameter set -/

/-- A set of values with the loaded schedule and, while an activation is pending, the schedule that will replace it. -/
structure View where
  ws : List (Nat × Int)
  sched : List Byte
  next : Option (List Byte)

/-- The view of the values ahead of a configuration: those of a stored staging image that is due at the next boundary (R90), or the
working set with its shadows (R523). -/
def CfgState.view (g : CfgState) : View :=
  match g.wsNext with
  | some x => { ws := x.entries, sched := x.sched, next := g.schedNext.map (·.1) }
  | none => { ws := g.ahead, sched := g.sched, next := g.schedNext.map (·.1) }

/-- A parameter of the view. -/
def View.par (v : View) (p : PInfo) (i : Nat := 0) : Int := p.at v.ws i

/-- The same as a natural number. -/
def View.parN (v : View) (p : PInfo) (i : Nat := 0) : Nat := (v.par p i).toNat

/-- The control periods that the values must fit (R550). -/
def View.periods (v : View) : List Nat :=
  periodOf v.ws v.sched :: (match v.next with | some s => [periodOf v.ws s] | none => [])

/-- A test that must hold for every control period that the values must fit. -/
def View.fits (v : View) (t : Nat → Bool) : Bool := v.periods.all t

/-- A slot is set in NET.RX_MASK: bit n of instance i stands for slot 64 × (i modulo 8) + n (R315). -/
def View.rxSet (v : View) (chan slot : Nat) : Bool :=
  (v.parN Par.netRxMask (8 * chan + slot / 64)).testBit (slot % 64)

/-- The quads that a schedule delivers to one lane in the basic cycle of a counter value (R127). -/
def View.rxQuads (v : View) (s : List Byte) (counter : Nat) : Nat :=
  ((schedEntries s).filter (fun e => v.rxSet e.chan e.slot && e.due counter)).foldl (fun n e => n + e.quads) 0

/-- The vector budget of R127 for every lane and basic cycle. -/
def View.budgetOk (v : View) (s : List Byte) : Bool :=
  (List.range 64).all (fun k => LaneId.all.all (fun l =>
    decide (v.rxQuads s k + v.parN Par.hostAgreeQuads l.idx + v.parN Par.perArbQuads ≤ 224)))

/-- The frame store of R328. -/
def View.storeOk (v : View) (s : List Byte) : Bool :=
  let es := schedEntries s
  let rx := (es.filter (fun e => v.rxSet e.chan e.slot)).foldl (fun n e => n + 16 * (e.quads + 1)) 0
  let tx := (es.filter (fun e => decide (e.owner = v.parN Par.netNodeId) && !e.spare)).foldl (fun n e => n + 32 * (e.quads + 1)) 0
  decide (rx + tx + 128 * v.parN Par.netArbCredits * 1536 + (48 + 64 + 4) * 1536 ≤ 2097152)

/-- An own slot carries the PDUs of a session (R368). -/
def View.txSlot (v : View) (code : Nat) : Bool := (List.range 16).any (fun i => decide (v.parN Par.keyTxSlot i = code))

/-- The quads of the fold stream that do not vary: eleven headers, two quads of section 1, one of section 2, six of section 3, eight of
section 4, three of section 5 and the mirrored set (R146). -/
def foldFixed : Nat := 11 + 2 + 1 + 6 + 8 + 3 + 85

/-- The quads of an own frame in the fold: two, and the PDU that it carries for a session (R146). -/
def View.ownQuads (v : View) (e : SchedEntry) : Nat := 2 + (if v.txSlot e.code then e.quads else 0)

/-- The bound of R147 in every basic cycle: the fixed quads, own frames with their PDUs, and what packets and PDUs that are agreed can
bring: four quads for each host quad, one for each quad of the arbitrating stream (log 107). -/
def View.foldOk (v : View) (s : List Byte) : Bool :=
  let host := v.parN Par.hostAgreeQuads 0 + v.parN Par.hostAgreeQuads 1 + v.parN Par.hostAgreeQuads 2
  let own := (schedEntries s).filter (fun e => decide (e.owner = v.parN Par.netNodeId))
  (List.range 64).all (fun k =>
    decide (foldFixed + 4 * host + v.parN Par.perArbQuads + ((own.filter (fun e => e.due k)).map v.ownQuads).sum ≤ 1024))

/-- The loaded schedule and the pending one. -/
def View.scheds (v : View) : List (List Byte) := v.sched :: (match v.next with | some s => [s] | none => [])

/-- The owner of a slot in the slot form of R311, if the loaded schedule has the slot. -/
def View.slotOwner (v : View) (code : Nat) : Option Nat :=
  ((schedEntries v.sched).find? (fun e => e.code == code)).map (·.owner)

/-! ### Rules -/

/-- The longest gap of R35 at a PWM period, in ns. -/
def longestGap (pwm : Nat) : Nat := min 2 (100000 / pwm) * pwm

/-- The depth of the chain of contexts above a context, cut at the fuel (R279). -/
def View.depth (v : View) : Nat → Nat → Nat
  | 0, _ => 0
  | fuel + 1, n =>
    let sp := v.parN Par.loopSpSrc n
    let pv := v.parN Par.loopPvSrc n
    1 + max (if sp < 64 then v.depth fuel sp else 0) (if 0x40 ≤ pv ∧ pv ≤ 0x7F then v.depth fuel (pv - 0x40) else 0)

/-- The condition in the last column of R278 for a source code. -/
def View.pvOk (v : View) (src : Nat) : Bool :=
  if src < 0x10 then decide (v.par Par.perAdcShare src = 1)
  else if src < 0x20 then decide (v.par Par.perFbShare (src % 8) = 1)
  else if src < 0x24 then bridgeUsed v.ws (src - 0x20)
  else true

/-- The inputs of MB0 and MB1 are owned while the bridge is in use (R201). -/
def View.adcOwned (v : View) (k : Nat) : Bool :=
  !bridgeUsed v.ws k || ((List.range 3).all (fun j =>
    decide (v.par Par.perAdcShare (3 * k + j) = 0) && decide (v.par Par.perAdcShare (8 + 3 * k + j) = 0)))

/-- The driver group of a bridge (R225). -/
def bridgeGroup (k : Nat) : Nat := if k < 2 then k else 3

/-- The largest dead time among the five sets of a group, in units of 1.25 ns (R230). -/
def View.deadtime (v : View) (g : Nat) : Nat :=
  (List.range 5).foldl (fun m b => max m (v.parN Par.gdrDeadtime (8 * g + b))) 0

/-- The count mode is allowed for the channel's mode, and sine/cosine lies on FB0 to FB3 (R169). -/
def View.fbModeOk (v : View) (k : Nat) : Bool :=
  let m := v.parN Par.fbkMode k
  let cm := v.parN Par.fbkCountMode k
  if m = 0 then true
  else if m = 1 then true
  else if m = 5 then decide (k < 4) && decide (v.parN Par.fbkCpr k % 4096 = 0)
  else decide (cm = 0)

/-- The SSI transfer fits before S (R180). -/
def View.ssiOk (v : View) (k : Nat) : Bool :=
  let opt := v.parN Par.fbkSsiOpt k
  let bits := (v.parN Par.fbkSsiBits k + (if opt.testBit 1 then 1 else 0)) * (if opt.testBit 2 then 2 else 1)
  decide (bits * 1000000000 + (v.parN Par.fbkSsiMono k * 1000 + 1000) * v.parN Par.fbkSsiRate k ≤
    v.parN Par.fbkSsiLead k * v.parN Par.fbkSsiRate k)

/-- A plausibility pair is well formed (R186). -/
def View.plausOk (v : View) (x : Nat) : Bool :=
  let p := v.parN Par.fbkPlausPartner x
  decide (p = 255) || (decide (p ≠ x) && decide (v.par Par.fbkMode x ≠ 0) && decide (v.par Par.fbkMode p ≠ 0) &&
    decide (v.par Par.perFbShare x = 1) && decide (v.par Par.perFbShare p = 1) &&
    decide (v.par Par.fbkPlausNum x ≠ 0))

/-- An angle source is no SENT channel and no disabled one (R199). -/
def View.angleOk (v : View) (k : Nat) : Bool :=
  [v.parN Par.cmtAngleSrc k, v.parN Par.cmtAngleSrc2 k].all (fun c =>
    decide (c = 255) || (decide (v.par Par.fbkMode c ≠ 0) && decide (v.par Par.fbkMode c ≠ 3)))

/-- Every low-side switch is on across each sampling instant (R205). -/
def View.sampleOk (v : View) (k : Nat) : Bool :=
  decide (800 * (v.parN Par.cmtIsampleDelay k + 400) + 1000 * v.deadtime (bridgeGroup k) ≤
    4 * (100 - v.parN Par.cmtVlim k) * v.parN Par.cmtPwmPeriod k)

/-- The short-circuit current stays within the limit where a short circuit may be held (R218). -/
def View.shortOk (v : View) (k : Nat) : Bool :=
  (decide (v.par Par.cmtFenceState k ≠ 1) && decide (v.par Par.cmtLossAction k ≠ 1)) ||
    decide (1000000 * v.par Par.cmtPsi k ≤ v.par Par.cmtIMax k * v.par Par.cmtLd k)

/-- The turn-on profile ends before the blanking time (R228). -/
def View.blankOk (v : View) (i : Nat) : Bool :=
  decide (10 * v.parN Par.gdrPreOn i + v.parN Par.gdrPlatOnTime i < 250 * v.parN Par.gdrVdsBlank (i / 8))

/-- The homing inputs of a channel (R266). -/
def View.homeOk (v : View) (k : Nat) : Bool :=
  let m := v.parN Par.stpHomeMethod k
  let sw := v.parN Par.stpHomeSw k
  let fb := v.parN Par.stpFbCh k
  (!(decide (m = 2 ∨ m = 3)) || decide (sw = 255) || (v.parN Par.perSiShare).testBit sw) &&
  (!(decide (m = 4)) || decide (fb = 255) ||
    (decide (v.par Par.fbkCountMode fb = 2) && decide (v.par Par.perFbShare fb = 1))) &&
  decide (v.par Par.stpHomeSpeed k ≤ v.par Par.stpVMax k)

/-- The jump across the longest gap stays within 128 microsteps (R273). -/
def View.gapOk (v : View) (k : Nat) : Bool :=
  let pwm := v.parN Par.stpPwmPeriod k
  decide (v.parN Par.stpVMax k * (longestGap pwm + pwm) ≤ 128 * 1000000000)

/-- The links of a context (R278, R279). -/
def View.loopOk (v : View) (n : Nat) : Bool :=
  let pv := v.parN Par.loopPvSrc n
  let dst := v.parN Par.loopStpDest n
  (decide (v.par Par.loopEnable n = 0) || decide (pv ≠ 255)) &&
  decide (pv ≠ 0x40 + n) && v.pvOk pv && decide (v.depth 9 n ≤ 8) &&
  (decide (dst = 255) || (stepUsed v.ws dst &&
    (List.range 64).all (fun m => decide (m = n) || decide (v.parN Par.loopStpDest m ≠ dst))))

/-- A context that a stop commands (R455). -/
def View.stopCtxOk (v : View) (n : Nat) : Bool :=
  decide (v.par Par.loopEnable n = 1) && decide (v.par Par.loopSpSrc n = 255) && (v.parN Par.chkJoinLoops).testBit n

/-- The contexts named by SNP.BRK_TGT and SNP.STEER_CTX. -/
def View.stopCtxs (v : View) : List Nat :=
  ((List.range 8).map (fun i => v.parN Par.snpBrkTgt i)).filter (· < 64) ++
  ((List.range 4).map (fun j => v.parN Par.snpSteerCtx j)).filter (· < 64)

/-- The rules of R455 and of R551 on brake targets. -/
def View.stopOk (v : View) : Bool :=
  v.stopCtxs.all v.stopCtxOk && decide v.stopCtxs.Nodup &&
  (List.range 8).all (fun i =>
    let t := v.parN Par.snpBrkTgt i
    (!(decide (0x40 ≤ t ∧ t ≤ 0x45)) || (stepUsed v.ws (t - 0x40) &&
      (List.range 64).all (fun n => decide (v.parN Par.loopStpDest n ≠ t - 0x40)))) &&
    (!(decide (t = 0x46 ∨ t = 0x47)) || bridgeUsed v.ws (t - 0x44))) &&
  decide (v.par Par.snpDecel ≤ v.par Par.snpDecelFull)

/-- The slots of a profile (R368). -/
def View.keySlotsOk (v : View) (i : Nat) : Bool :=
  let rx := v.parN Par.keyRxSlot i
  let tx := v.parN Par.keyTxSlot i
  (decide (rx = 65535) || (v.rxSet (rx / 32768) (rx % 512) && decide (v.slotOwner rx = some (v.parN Par.keyPeerId i)))) &&
  (decide (tx = 65535) || decide (v.slotOwner tx = some (v.parN Par.netNodeId)))

/-- The PWM periods of every output in use divide a control period (R119). -/
def View.pwmOk (v : View) (t : Nat) : Bool :=
  (List.range 4).all (fun k => !bridgeUsed v.ws k || decide (t % v.parN Par.cmtPwmPeriod k = 0)) &&
  (List.range 6).all (fun k => !stepUsed v.ws k || decide (t % v.parN Par.stpPwmPeriod k = 0))

/-- The test pulse fits a control period (R407). -/
def View.pulseOk (v : View) (t : Nat) : Bool :=
  decide (v.parN Par.sioTpOffset + v.parN Par.sioTpWidth + v.parN Par.sioTpRecover + 10000 ≤ t)

/-- The off-pulse fits a control period (R415). -/
def View.offPulseOk (v : View) (t : Nat) : Bool :=
  decide (v.parN Par.sioOffpOffset + v.parN Par.sioOffpWidth + 10000 ≤ t)

/-- The watchdog of a profile is at least two control periods (R372). -/
def View.wdOk (v : View) (t : Nat) : Bool :=
  (List.range 16).all (fun i => decide (2 * t ≤ 1000000 * v.parN Par.keyWdTimeout i))

/-- The offsets of the period lie in a control period (R141). -/
def View.offsetsOk (v : View) (t : Nat) : Bool :=
  decide (v.parN Par.perSampleOffset + 10 ≤ t) && decide (v.parN Par.perLaunchOffset + 10000 ≤ t)

/-- A rule over a parameter set: the IDs it names, and whether it holds for the entry's instance. -/
structure Rule where
  ids : List Nat
  ok : View → Nat → Bool

/-- A rule of one unit whose own fields name the unit by their instance, and other fields any unit. -/
def unitRule (own : List Nat) (others : List Nat) (n : Nat) (ok : View → Nat → Bool) : List Rule :=
  [⟨own, ok⟩, ⟨others, fun v _ => (List.range n).all (ok v)⟩]

/-- Ranges that name another field (R523: a failure is OUT_OF_RANGE). -/
def rangeRules : List Rule :=
  [⟨[0x0301, 0x0302, 0x0303], fun v _ => v.fits v.offsetsOk⟩,
   ⟨[0x1305, 0x1307], fun v k => decide (v.par Par.fbkIndexPos k + 1 ≤ v.par Par.fbkCpr k)⟩,
   ⟨[0x1310, 0x1311], fun v k => decide (v.par Par.fbkSsiSt k ≤ v.par Par.fbkSsiBits k)⟩,
   ⟨[0x1007, 0x1008], fun v k => decide (v.par Par.cmtICont k ≤ v.par Par.cmtIMax k)⟩,
   ⟨[0x1007, 0x1012], fun v k => decide (v.par Par.cmtAlignI k ≤ v.par Par.cmtICont k)⟩,
   ⟨[0x1205, 0x1206], fun v k => decide (v.par Par.stpIHold k ≤ v.par Par.stpIRun k)⟩,
   ⟨[0x1205, 0x1219], fun v k => decide (v.par Par.stpHomeI k ≤ v.par Par.stpIRun k)⟩,
   ⟨[0x120F, 0x1218], fun v k => decide (v.par Par.stpHomeSpeed k ≤ v.par Par.stpVMax k)⟩] ++
  [⟨[0x1214, 0x1215], fun v k => decide (v.par Par.stpPosMin k < v.par Par.stpPosMax k)⟩,
   ⟨[0x140B, 0x140C], fun v k => decide (v.par Par.loopOutMin k ≤ v.par Par.loopOutMax k)⟩,
   ⟨[0x140B, 0x140C, 0x140D], fun v k => decide (v.par Par.loopOutMin k ≤ v.par Par.loopOutInit k ∧ v.par Par.loopOutInit k ≤ v.par Par.loopOutMax k)⟩,
   ⟨[0x3207, 0x3208], fun v k => decide (v.par Par.pwrGlideLo k ≤ v.par Par.pwrGlideHi k)⟩,
   ⟨[0x3308, 0x3309], fun v k => decide (v.par Par.thmNtcStart k + 1 ≤ v.par Par.thmNtcEnd k)⟩,
   ⟨[0x0615], fun v k => decide (k < 6) || decide (v.par Par.snpDbMode k ≤ 1)⟩]

/-- The cross-field rules (R523: a failure is BAD_PARAM). -/
def crossRules : List Rule :=
  [⟨[0x0201], fun v _ => decide ([v.par Par.authLaneRank 0, v.par Par.authLaneRank 1, v.par Par.authLaneRank 2].Nodup)⟩,
   ⟨[0x0205, 0x0206], fun v k =>
     decide (((List.range 3).filter (fun n => (v.parN Par.authMbLanes k).testBit n)).length = v.parN Par.authMbArrange k)⟩,
   ⟨[0x0208, 0x0615], fun v _ => (List.range 2).all (fun k => bridgeUsed v.ws (k + 2) || decide (v.par Par.snpDbMode (6 + k) = 0))⟩,
   ⟨[0x0205, 0x0208, 0x0301, 0x1001, 0x1201, 0x1202], fun v _ => v.fits v.pwmOk⟩,
   ⟨[0x030C, 0x2005, 0x3004], fun v _ => v.scheds.all v.budgetOk⟩,
   ⟨[0x2001, 0x2005, 0x2008], fun v _ => v.scheds.all v.storeOk⟩,
   ⟨[0x030C, 0x2001, 0x220A, 0x3004], fun v _ => v.scheds.all v.foldOk⟩] ++
  [⟨[0x1301, 0x1305, 0x1306], fun v k => v.fbModeOk k⟩,
   ⟨[0x130F, 0x1310, 0x1312, 0x1313, 0x1314], fun v k => v.ssiOk k⟩,
   ⟨[0x1301, 0x1319, 0x131A, 0x0308], fun v _ => (List.range 8).all v.plausOk⟩] ++
  unitRule [0x100D, 0x100E] [0x1301] 4 View.angleOk ++
  unitRule [0x0205] [0x0307] 2 View.adcOwned ++
  unitRule [0x1001, 0x100A, 0x1015] [0x1101] 4 View.sampleOk ++
  [⟨[0x1003, 0x1005, 0x1008, 0x1023, 0x1025], fun v k => v.shortOk k⟩,
   ⟨[0x1102, 0x1104], fun v i => v.blankOk i⟩,
   ⟨[0x1109], fun v g => (List.range 5).all (fun b => v.blankOk (8 * g + b))⟩] ++
  unitRule [0x120F, 0x1216, 0x1218, 0x121A, 0x121E] [0x0308, 0x0309, 0x1306] 6 View.homeOk ++
  [⟨[0x1202, 0x120F], fun v k => v.gapOk k⟩] ++
  unitRule [0x1401, 0x1402, 0x1406, 0x140E] [0x0205, 0x0208, 0x0307, 0x0308, 0x1201] 64 View.loopOk ++
  [⟨[0x2104, 0x200A], fun v _ => decide (v.par Par.timeHandoverCycles + 1 < v.par Par.netLossCycles)⟩] ++
  unitRule [0x2201, 0x2209, 0x220A] [0x2001, 0x2005] 16 View.keySlotsOk ++
  [⟨[0x0301, 0x2206], fun v _ => v.fits v.wdOk⟩,
   ⟨[0x0301, 0x2405, 0x2406, 0x2407], fun v _ => v.fits v.pulseOk⟩,
   ⟨[0x0301, 0x240B, 0x240C], fun v _ => v.fits v.offPulseOk⟩,
   ⟨[0x0208, 0x0403, 0x0604, 0x0605, 0x060C, 0x060F, 0x1201, 0x1401, 0x1406, 0x140E], fun v _ => v.stopOk⟩,
   ⟨[0x3209, 0x1301], fun v _ => (List.range 8).all (fun k => !((v.parN Par.pwrGlideFb).testBit k) ||
     (let m := v.parN Par.fbkMode k; decide (m = 1 ∨ m = 2 ∨ m = 5)))⟩]

/-- Whether a parameter's rules of a list hold for an instance. -/
def rulesOk (rs : List Rule) (v : View) (id i : Nat) : Bool := rs.all (fun r => !(r.ids.contains id) || r.ok v i)

/-- Every rule of the manual holds for a whole set of values (R84, R92). -/
def View.allOk (v : View) : Bool :=
  parBlocks.all (fun b => (parsOfBlock b).all (fun p => p.insts.all (fun i =>
    p.inRange (v.par p i) && rulesOk rangeRules v p.id i && rulesOk crossRules v p.id i)))

/-- The values in force fit the basic cycle of a schedule (R550). -/
def View.cycleOk (v : View) (t : Nat) : Bool :=
  v.offsetsOk t && v.pwmOk t && v.pulseOk t && v.offPulseOk t && v.wdOk t

/-! ### Schedule rules (R312) -/

/-- The identifier, counts, check value, CRC-32C and reserved bytes of a schedule agree with R311. -/
def schedFormed (s : List Byte) : Bool :=
  let n := schedCount s
  decide (fld s 0 4 = 0x73060002) && decide (n ≤ 1024) && decide (s.length = 48 + 16 * n) &&
    decide (fld s 5 1 = 0) && zeroFrom s 12 16 && zeroFrom s 27 32 &&
    decide (fld s (32 + 16 * n) 8 = crc64xz (s.take (32 + 16 * n))) && zeroFrom s (40 + 16 * n) (44 + 16 * n) &&
    decide (fld s (44 + 16 * n) 4 = crc32c (s.take (44 + 16 * n) ++ toLe 4 0))

/-- The reserved bits of one entry quad are zero (R311). -/
def entryReserved (q : List Byte) : Bool :=
  decide (fld q 0 2 / 512 % 64 = 0) && decide (fld q 13 1 ≤ 1) && zeroFrom q 14 16

/-- The time of a slot on its channel: from its reference offset for its length in byte times of 8 ns. -/
def SchedEntry.ends (e : SchedEntry) : Nat := e.offset + 8 * e.len

/-- One entry's own rules (R311, R312). -/
def SchedEntry.ok (e : SchedEntry) (segment guard : Nat) : Bool :=
  decide (e.offset % 8 = 0) && decide (e.quads ≤ 92) && decide (e.rep ≤ 6) && decide (e.repOff < 2 ^ e.rep) &&
    decide (54 + 16 * max e.quads 2 + guard ≤ e.len) &&
    (if e.spare then decide (e.owner = 0) else decide (e.owner / 256 = segment))

/-- Entries ascend by channel and then by slot, without a repeat (R312). -/
def entriesAscend : List SchedEntry → Bool
  | e :: f :: r => decide (e.code < f.code) && entriesAscend (f :: r)
  | _ => true

/-- Two spans of time do not overlap. -/
def apart (a b c d : Nat) : Bool := decide (b ≤ c) || decide (d ≤ a)

/-- The active slots of one channel in one basic cycle overlap neither each other, nor the arbitrating window, nor the sync
window on channel A, and end within the cycle (R312). -/
def slotsApart (s : List Byte) (chan counter : Nat) : Bool :=
  let es := (schedEntries s).filter (fun e => decide (e.chan = chan) && e.due counter)
  let arb0 := fld s 16 4
  let arb1 := fld s 20 4
  es.all (fun e => decide (e.ends ≤ schedCycle s) && apart e.offset e.ends arb0 arb1 &&
    (decide (chan = 1) || decide (1600 ≤ e.offset)) &&
    es.all (fun f => decide (f.code = e.code) || apart e.offset e.ends f.offset f.ends))

/-- The window rules of a schedule's header (R311, R312). -/
def windowOk (s : List Byte) : Bool :=
  let a := fld s 16 4
  let b := fld s 20 4
  let mini := fld s 24 2
  let guard := fld s 26 1
  decide (500 ≤ mini ∧ mini ≤ 10000) && decide (4 ≤ guard ∧ guard ≤ 64) && decide (a + mini ≤ b) &&
    decide (b + 8 * guard ≤ schedCycle s) && decide (1600 ≤ a)

/-- Every rule of R312 holds for a schedule under a set of values. -/
def schedOk (ws : List (Nat × Int)) (s : List Byte) : Bool :=
  let v : View := { ws := ws, sched := s, next := none }
  let t := schedCycle s
  let node := (Par.netNodeId.at ws 0).toNat
  schedFormed s && decide (125000 ≤ t ∧ t ≤ 4000000 ∧ t % 10 = 0) && v.cycleOk t && decide (fld s 4 1 = node / 256) &&
    (quadsOf ((s.drop 32).take (16 * schedCount s))).all entryReserved &&
    (schedEntries s).all (fun e => e.ok (node / 256) (fld s 26 1)) && entriesAscend (schedEntries s) &&
    decide (((schedEntries s).filter (fun e => decide (e.chan = 0))).length ≤ 512) &&
    decide (((schedEntries s).filter (fun e => decide (e.chan = 1))).length ≤ 512) && windowOk s &&
    (List.range 64).all (fun k => slotsApart s 0 k && slotsApart s 1 k) && v.budgetOk s && v.foldOk s && v.storeOk s

end Sys2Proof.Machine
end

