-- ==== Sys2Proof/Machine/Reactions.lean ====
section
/-! DEFINITION. Reactions of the whole device (chapters 01, 17, 22): lane fences and the degraded class, lane links, motors
left with too few winding sets, outputs that are essential, and the reboot of a lane. -/

namespace Sys2Proof.Machine

open Sys2Proof

/-! ### Winding sets and outputs (R22, R44, R518) -/

/-- A winding set counts as remaining: its lane in authority, stand-down and resynchronisation included, and the set not
fenced (R518). -/
def Chip.setRemains (c : Chip) (k : Nat) (l : LaneId) : Bool :=
  c.inAuth l && !((nth c.dev.motors k {}).sets.get l).fenced

/-- The winding sets that a motor on MB0 or MB1 needs (R22). -/
def setsNeeded (arrange : Int) : Nat := if arrange = 3 then 2 else if arrange = 2 then 2 else if arrange = 1 then 1 else 0

/-- A motor on MB0 or MB1 is left with fewer winding sets than it needs (R22, rule W of R44). -/
def Chip.motorShort (c : Chip) (k : Nat) : Bool :=
  decide (((setLanes c.dev.cfg.ws k).filter (c.setRemains k)).length < setsNeeded (c.par Par.authMbArrange k))

/-- A claimed output 0 to 7 is fenced. -/
def Chip.outFenced (c : Chip) (o : Nat) : Bool :=
  (nth c.pintle.outs o {}).fenced ||
    (if o < 6 then (nth c.dev.steppers o {}).fenced else (nth c.dev.motors (o - 4) {}).fenced)

/-- A fenced output whose AUTH.ESSENTIAL bit is set and that is in use (rule E of R44, R551). -/
def Chip.essentialLost (c : Chip) (o : Nat) : Bool :=
  (c.parN Par.authEssential).testBit o && claimedUsed c.dev.cfg.ws o && c.outFenced o

/-! ### A lane's outputs while it is fenced (R10) -/

/-- The gates of a bridge in its fence state: all off, or an active short circuit (R10, R218). -/
def fenceGates (fenceState : Int) (gatesOff : Bool) : GateState := if fenceState = 1 ∧ gatesOff = false then .short else .off

/-- A lane's gate drivers have their supply: its VGD is in range and its drive domain on (R102, R218, R469). -/
def Lane.driven (n : Lane) : Bool := n.boot.powerGood && n.power.drive

/-- The gates of a lane's winding set in its fence state; an active short circuit is held only while VGD is present (R10, R218, R235). -/
def Chip.fencedGates (c : Chip) (l : LaneId) (k : Nat) : GateState :=
  fenceGates (c.par Par.cmtFenceState k) (((nth c.dev.motors k {}).sets.get l).gatesOff || !(c.lane l).driven)

/-- An engine whose gates are off at once, with no command waiting. -/
def Engine.halt (e : Engine) (g : GateState) : Engine := { e with gates := g, cmdOn := false, next := none }

/-- A lane's private outputs in their fenced states, and its links unused (R10). Its ports go on forwarding as R11 says
(Chip.forward). -/
def Chip.laneInert (c : Chip) (l : LaneId) : Chip :=
  (c.clearLinks l).modLane l (fun n => { n with
    engines := n.engines.mapIdx (fun k e => if k < 2 then
      e.halt (c.fencedGates l k) else e)
    sio := { n.sio with soOn := 0, tpOn := 0, tpPulse := 0, hold := false, enabled := false, offPulse := none }
    net := { n.net with phase := .down, out := [], txq := [] } })

/-- A lane leaves authority, fenced, with its private outputs in their fenced states (R10). -/
def Chip.fenceOne (c : Chip) (l : LaneId) (code : Nat) : Chip :=
  let c := c.laneInert l
  let c := c.modLane l (fun n => { n with
    boot := { n.boot with fenced := true, fenceCode := code }
    work := {}
    chk := {}
    round := {} })
  let c := c.setRx l []
  c.modDev (fun d => { d with
    authority := setLaneBit d.authority l false
    aset := setLaneBit d.aset l false
    joined := setLaneBit d.joined l false
    sdAbort := d.sdAbort || (d.standdown.isSome && decide (d.standdown ≠ some l)) })

/-! ### The degraded class (R39, R52, R70) -/

/-- The class and its edge reported at every bridge whose lane is in authority (R52, R70). -/
def Chip.reportClass (c : Chip) : Chip :=
  c.authLanes.foldl (fun c l => (c.modBridge l (fun b => { b with cls := c.classNow })).raiseEdge l 5) c

/-- The stop sequence ends in D3 (R458). -/
def Chip.enterD3 (c : Chip) : Chip :=
  (c.modSnow (fun w => { w with step := 0, pend := none })).modDev (fun d => { d with launches := [], standdown := none, sdNext := none, sdAbort := false })

/-- Contexts outside CHK.JOIN_LOOPS stop at the entry into D2 (R165, R288). -/
def Chip.stopLoops (c : Chip) : Chip :=
  c.modDev (fun d => { d with loops := d.loops.mapIdx (fun n x =>
    if Par.loopEnable.at d.cfg.ws n = 1 ∧ ((Par.chkJoinLoops.at d.cfg.ws 0).toNat.testBit n) = false ∧ x.mode ≠ .fenced then { x with mode := .stopped } else x) })

/-- The class follows from the lanes in authority: fault 0x0205, the edge causes, and the stop that D2 begins (R39, R42,
R449). -/
def Chip.setClass (c : Chip) : Chip :=
  let k := classOf c.dev.authority
  if !c.dev.formed || decide (c.dev.cls = some k) then c
  else
    let worse := decide (c.classNow < k)
    let c := c.modDev (fun d => { d with cls := some k })
    let c := (c.agreedFault 0x0205 0 k 0xFF).reportClass
    if k = 3 then c.enterD3 else if k = 2 ∧ worse = true then c.stopLoops.stopCause 1 else c

/-- A lane fence decided now and taken from the next S (R444). The code of a fence for temperature is recorded beside another of the
same lane (R492). -/
def Chip.pendFence (c : Chip) (l : LaneId) (code : Nat) : Chip :=
  if c.dev.fencePend.any (fun f => f.1 == l && (f.2 == code || (f.2 != 0x3303 && code != 0x3303))) then c
  else c.modDev (fun d => { d with fencePend := d.fencePend ++ [(l, code)] })

/-- The link fences that follow from fenced links: a lane at both ends of two, and in D1 the lower claim of the two lanes in
authority (R15, R16). -/
def Chip.linkRules (c : Chip) : Chip :=
  let c := LaneId.all.foldl (fun c l =>
    if c.inAuth l && (l.partners.all (fun p => (c.linkAt (linkIdx l p)).fenced)) then c.pendFence l 0x0108 else c) c
  match c.authLanes with
  | [x, y] =>
    if (c.linkAt (linkIdx x y)).fenced && c.dev.fencePend.isEmpty then
      c.pendFence (if c.higher x y then y else x) 0x0109
    else c
  | _ => c

/-- Lanes fenced together: each leaves authority, the records are written by the lanes that remain, and the class follows
(R42, R519, R520); a link that is now the only one between the two lanes that remain has its own reaction (R16, code L of R44). -/
def Chip.fenceLanes (c : Chip) (fs : List (LaneId × Nat)) : Chip :=
  let fs := fs.filter (fun f => c.inAuth f.1 || (c.lane f.1).chk.joining)
  if fs = [] then c
  else
    let c := fs.foldl (fun c f => c.fenceOne f.1 f.2) c
    let c := fs.foldl (fun c f => c.agreedFault f.2 0x01 f.1.idx f.1.idx) c
    c.setClass.linkRules

/-- A lane fences itself on its own detection: a local record, its outputs inert, a fence notice on both links at priority 1, and it
halts; the others decide from its notice (R432). The last lane in authority leaves it at once. -/
def Chip.selfFence (c : Chip) (l : LaneId) (code t i : Nat) : Chip :=
  let c := c.localFault l code t i l.idx
  let c := (c.laneInert l).modLane l (fun n => { n with boot := { n.boot with fenced := true, halted := true, fenceCode := code, fenceNet := decide (t = 0x0B ∨ t = 0x0C) } })
  let c := c.sendLinks l l.partners .vectors 1
  if c.authLanes = [l] then c.fenceLanes [(l, code)] else c

/-! ### Lane links (R13, R15, R16) -/

/-- A lane link fenced: U class, and R15 and R16 follow (R13, R433). -/
def Chip.fenceLink (c : Chip) (k : Nat) : Chip :=
  if (c.linkAt k).fenced then c
  else ((c.modLink k (fun x => { x with fenced := true, out := {}, back := {} })).agreedFault 0x0107 0x02 k 0xFF).linkRules

/-- LINK_TRANSFER_FAILED: the transfer is repeated once, with a record at both ends; failures in two consecutive control periods
fence the link (R13, log 23). -/
def linkTransferFailed (k : Fin 3) (back : Bool) (c : Chip) : Chip :=
  let x := c.linkAt k.val
  if x.fenced then c
  else
    let (p, q) := linkEnds k.val
    let c := (c.localFault p 0x0106 0x02 k.val 0xFF).localFault q 0x0106 0x02 k.val 0xFF
    let c := c.modLink k.val (fun x => if back then { x with failedNow := true, back := x.back.repeatLast } else { x with failedNow := true, out := x.out.repeatLast })
    if x.failedLast then c.fenceLink k.val else c

def execLinkTransferFailed (k : Fin 3) (back : Bool) (s : State) : Out := .next (s.onChip (linkTransferFailed k back))

/-! ### Reboots (R102, R103) -/

/-- The unit fences of a lane that its reboot does not undo (R440): of channels, ports, and safety inputs and outputs. -/
def Lane.keepFences (n m : Lane) : Lane :=
  { n with
    fb := n.fb.mapIdx (fun i x => { x with fenced := (nth m.fb i {}).fenced })
    net := { n.net with ports := n.net.ports.mapIdx (fun i p => { p with fenced := (nth m.net.ports i {}).fenced }) }
    sio := { n.sio with
      siFenced := m.sio.siFenced, tpFenced := m.sio.tpFenced, soFenced := m.sio.soFenced, stageFenced := m.sio.stageFenced } }

/-- What a lane keeps through a reboot: its NVM and ring, its power-good, its AON state and the count of readmissions. -/
def Lane.rebooted (n : Lane) : Lane :=
  { boot := { powerGood := n.boot.powerGood, readmits := n.boot.readmits }
    power := { n.power with core := n.boot.powerGood, mem := if n.boot.powerGood then 2 else 0, net := false, drive := false, pads := n.power.pads }
    clock := n.clock
    nvm := n.nvm
    fault := { ring := n.fault.ring.map (fun e => (e.1, e.2.1, { e.2.2 with ord := 0 })) }
    bist := { elapsed := n.bist.elapsed, regions := n.bist.regions, completed := n.bist.completed } }

/-- A lane's SRAM and staging image cleared by a boot (R98, R103). -/
def LaneMem.cleared (m : LaneMem) : LaneMem := { m with sram := [], staging := [], stagingSched := [] }

/-- A lane restarts at step 1 of R103; its host link is unavailable and not synchronised, its event counter
at 0 (R60, R65, R118). -/
def State.rebootLane (s : State) (l : LaneId) : State :=
  (s.onMem l LaneMem.cleared).onChip (fun c =>
    let c := c.modLane l Lane.rebooted
    let c := (c.modBridge l (fun b => { b with silent := true, waking := false, closing := false })).setRx l []
    c.modHost l (fun h => { h.unsync with events := 0 }))

/-- What a lane holds for its host goes to the bridge before a reset takes it: replies whole, events as room allows (R64, R68). -/
def Chip.handOver (c : Chip) (l : LaneId) : Chip :=
  (((c.lane l).txq ++ (c.dev.replies.filter (fun e => e.1 == l)).map (·.2)).foldl (fun c p =>
    if p.kept then c.queuePacket l p else c.modBridge l (fun b => queueEvent (b.queue.length + 1) b p)) c).modLane l (fun n => { n with txq := [] })

/-- The final replies of the reset, OK, handed to the bridges with all that waits (R64, log 24). -/
def Chip.resetReplies (c : Chip) : Chip :=
  let c := c.finishAll (fun p => p.opcode == 0x0012) stOk []
  (LaneId.all.filter (fun l => c.inAuth l)).foldl Chip.handOver c

/-- SYS.RESET: every lane reboots, and the agreed data are lost (R75, log 24). The safety input supplies are off until a claim is
accepted again (R118, R406). -/
def State.rebootAll (s : State) : State :=
  let s := s.onChip (fun c => { c.resetReplies with dev := {} })
  LaneId.all.foldl (fun s l => if (s.chip.lane l).boot.powerGood then s.rebootLane l else s) s

def attrSysReset : OpAttr := { code := 0x0012, keyed := true, acc := .parked, pend := true, right := some 2 }

def effectSysReset (r : Req) (s : State) : OpOut := { st := s.onChip (fun c => c.addPend 0x0012 r {}), status := stPending }

/-- SYS.RESET: ACCEPTED_PENDING goes out with the period's replies, and at the next boundary the final reply is queued and the
reboot follows (R64, log 24). -/
def execSysReset (r : Req) (s : State) : Out := .next (runOp attrSysReset checksNone effectSysReset r s)

/-- A reset that waits for the boundary. -/
def Chip.resetDue (c : Chip) : Bool := c.dev.pend.any (fun p => p.opcode == 0x0012)

end Sys2Proof.Machine
end

