-- ==== Sys2Proof/Machine/CvUnit.lean ====
section
/-! DEFINITION. Check-value units (chapter 15): the computation, register and memory feeds, their registers and owners, and
the unit test. -/

namespace Sys2Proof.Machine

open Sys2Proof

/-! ### The computation (R388, R392) -/

/-- The width w of a configuration (R392). -/
def cvWidth (cfg : BitVec 32) : Nat := cfg.toNat % 64 + 1

/-- The bytes of one item (R392: feed size). -/
def cvItemSize (cfg : BitVec 32) : Nat :=
  match cfg.toNat / 256 % 4 with
  | 0 => 1
  | 1 => 2
  | 2 => 4
  | _ => 16

/-- The guard of a configuration: 0 none, 1 address fold, 2 alive counter. -/
def cvGuard (cfg : BitVec 32) : Nat := cfg.toNat / 1024 % 4

/-- The partner unit of a configuration. -/
def cvPartner (cfg : BitVec 32) : Nat := cfg.toNat / 4096 % 4

/-- The owner in a configuration: 0 none, 1 core 0, 2 core 1, 3 self-test engine. -/
def cvOwner (cfg : BitVec 32) : Nat := cfg.toNat / 65536 % 256

/-- One bit fed into the running value (R388). -/
def cvBit (w poly s : Nat) (b : Bool) : Nat :=
  let f := b != s.testBit (w - 1)
  let s := s * 2 % 2 ^ w
  if f then s ^^^ (poly % 2 ^ w) else s

/-- The bits of a byte in the order in which they are fed. -/
def cvBits (refin : Bool) (b : Byte) : List Bool :=
  let bits := (List.range 8).map (fun n => b.getLsbD n)
  if refin then bits else bits.reverse

/-- Bytes fed into the running value. -/
def cvFeed (lat : CvLatch) (s : BitVec 64) (bs : List Byte) : BitVec 64 :=
  BitVec.ofNat 64 ((bs.flatMap (cvBits (lat.cfg.getLsbD 6))).foldl (cvBit (cvWidth lat.cfg) lat.poly.toNat)
    (s.toNat % 2 ^ cvWidth lat.cfg))

/-- The low w bits of a value reversed. -/
def cvReverse (w s : Nat) : Nat :=
  (List.range w).foldl (fun r n => if s.testBit n then r + 2 ^ (w - 1 - n) else r) 0

/-- The finished value (R388). -/
def CvUnit.finished (u : CvUnit) : BitVec 64 :=
  let w := cvWidth u.lat.cfg
  let s := u.state.toNat % 2 ^ w
  BitVec.ofNat 64 ((if u.lat.cfg.getLsbD 7 then cvReverse w s else s) ^^^ (u.lat.xorout.toNat % 2 ^ w))

/-- The match flag (R397). -/
def CvUnit.matchFlag (u : CvUnit) : Bool :=
  decide (u.finished.toNat % 2 ^ cvWidth u.lat.cfg = (u.expect ^^^ u.inject).toNat % 2 ^ cvWidth u.lat.cfg)

/-- CV_STATUS bits 7 to 0 (R391). A unit test is one command of the model, so that bit 4 reads 0 between commands (log 35). -/
def CvUnit.statusByte (u : CvUnit) : Nat :=
  let m : Mask := setBit (setBit (setBit (setBit (setBit 0 0 u.busy) 1 u.matchFlag) 2 u.cfgErr) 3 u.readErr) 5 u.fenced
  m.toNat

/-- The unit that carries a unit's assignments (R400). -/
def CvUnit.carrier (u : CvUnit) (k : Nat) : Nat := if u.fenced then (if k = 3 then 0 else 3) else k

/-! ### Items (R389, R390, R395) -/

/-- A unit of a lane. -/
def Chip.cvUnit (c : Chip) (l : LaneId) (k : Nat) : CvUnit := nth (c.lane l).cv k {}

/-- The low bytes of an item XORed with its address (R395). -/
def cvFold (addr : Nat) (item : List Byte) : List Byte :=
  (item.zip (toLe 4 addr ++ List.replicate 12 0)).map (fun e => e.1 ^^^ e.2)

/-- The bytes of an item as they are fed. -/
def cvItem (cfg : BitVec 32) (addr : Nat) (item : List Byte) : List Byte := if cvGuard cfg = 1 then cvFold addr item else item

/-- One item taken by one unit: none while its configuration-error flag is set or it is fenced; its running value is open when
no check runs (R392, log 36). -/
def Chip.cvTake (c : Chip) (l : LaneId) (k addr : Nat) (item : List Byte) : Chip :=
  let u := c.cvUnit l k
  if u.cfgErr || u.fenced then c
  else if u.started then c.modCv l k (fun u => { u with state := cvFeed u.lat u.state (cvItem u.lat.cfg addr item) })
  else
    let (v, c) := c.draw
    c.modCv l k (fun u => { u with state := BitVec.ofNat 64 v })

/-- One item fed to a unit, and to its partner with its address when the pair bit is latched (R392). -/
def Chip.cvEat (c : Chip) (l : LaneId) (k addr : Nat) (item : List Byte) : Chip :=
  let u := c.cvUnit l k
  let c := c.cvTake l k addr item
  if u.started && !u.cfgErr && !u.fenced && u.lat.cfg.getLsbD 14 then c.cvTake l (cvPartner u.lat.cfg) addr item else c

/-- The register feeds that waited for a memory feed's end (R390). -/
def Chip.cvWaiting (c : Chip) (l : LaneId) (k : Nat) : Chip :=
  let xs := (c.cvUnit l k).waiting
  xs.foldl (fun c v => c.cvEat l k (c.cvUnit l k).src.toNat (toLe (cvItemSize (c.cvUnit l k).lat.cfg) v.toNat))
    (c.modCv l k (fun u => { u with waiting := [] }))

/-- n items of a memory feed: CV_SRC rises and CV_LEN falls by the item size after each (R390). -/
def cvItems (l : LaneId) (k : Nat) : Nat → State → State
  | 0, s => s
  | n + 1, s =>
    let u := s.chip.cvUnit l k
    let size := cvItemSize u.lat.cfg
    let item := cellRead (s.mem.get l).sram u.src.toNat size
    cvItems l k n (s.onChip (fun c => (c.cvEat l k u.src.toNat item).modCv l k (fun u =>
      { u with src := u.src + BitVec.ofNat 32 size, len := u.len - BitVec.ofNat 32 size })))

/-- The items that a memory feed has left. -/
def CvUnit.itemsLeft (u : CvUnit) : Nat := if u.busy then u.len.toNat / cvItemSize u.lat.cfg else 0

/-- A memory feed caught on its way: an open number of its items has been fed (log 37). -/
def cvProgress (l : LaneId) (k : Nat) (s : State) : State :=
  let u := s.chip.cvUnit l k
  if u.busy then
    let (v, c) := s.chip.draw
    cvItems l k (v % (u.itemsLeft + 1)) { s with chip := c }
  else s

/-- A memory feed that would leave the lane SRAM of 8 MB (R500). -/
def CvUnit.outside (u : CvUnit) : Bool := u.busy && decide (8388608 < u.src.toNat + u.len.toNat)

/-- An access to a unit, after the fault of a feed that leaves the SRAM. -/
def cvAccess (l : LaneId) (k : Nat) (s : State) (f : State → State) : Out :=
  if (s.chip.cvUnit l k).outside then .fault .sramAddress else .next (f s)

/-! ### Owners (R394) -/

/-- The owner code of a master. -/
def cvMaster : CvMaster → Nat
  | .core0 => 1
  | .core1 => 2
  | .engine => 3

/-- A core access violation: the lane is fenced (R77, R448). -/
def Chip.coreViolation (c : Chip) (l : LaneId) : Chip := if (c.lane l).boot.fenced then c else c.selfFence l 0x010E 0x01 l.idx

/-- A write by the owner; by any other master it is refused, a core violation (R394). -/
def cvOwned (l : LaneId) (k : Nat) (m : CvMaster) (s : State) (f : State → State) : State :=
  if !s.chip.runs l then s
  else if cvOwner (s.chip.cvUnit l k).cfg = cvMaster m then f s
  else s.onChip (fun c => c.coreViolation l)

/-! ### Registers (R391 to R397) -/

/-- A latched configuration that sets the configuration-error flag (R392). -/
def Chip.cvBad (c : Chip) (l : LaneId) (cfg : BitVec 32) : Bool :=
  let p := c.cvUnit l (cvPartner cfg)
  decide (cfg.toNat % 64 < 2) || decide (cvGuard cfg = 3) || cfg.getLsbD 15 || decide (cfg.toNat / 16777216 % 128 ≠ 0) ||
    (cfg.getLsbD 14 && (decide (cvOwner p.cfg ≠ cvOwner cfg) || !p.started))

/-- The configuration latched (R392); a bad one sets the flag, with fault 0x2304. -/
def Chip.cvLatch (c : Chip) (l : LaneId) (k : Nat) : Chip :=
  let u := c.cvUnit l k
  let bad := c.cvBad l u.cfg
  let c := c.modCv l k (fun u => { u with
    lat := { cfg := u.cfg, poly := u.poly, init := u.init, xorout := u.xorout }
    started := true
    cfgErr := u.cfgErr || bad })
  if bad then c.localFault l 0x2304 0x0F k l.idx else c

/-- A check started: S from CV_INIT, and the alive counter fed first in its mode (R392, R396). -/
def Chip.cvStart (c : Chip) (l : LaneId) (k : Nat) : Chip :=
  let c := (c.modCv l k (fun u => { u with cfgErr := false, readErr := false, busy := false })).cvLatch l k
  c.modCv l k (fun u =>
      let u := { u with state := BitVec.ofNat 64 (u.lat.init.toNat % 2 ^ cvWidth u.lat.cfg) }
      if cvGuard u.lat.cfg = 2 ∧ u.cfgErr = false then { u with state := cvFeed u.lat u.state [u.alive] } else u)

/-- CV_CFG written: with start set, a running memory feed stops and the new check starts (R392, R393). -/
def cvSetCfg (l : LaneId) (k : Nat) (v : BitVec 32) (s : State) : State :=
  let start := v.getLsbD 31
  let s := if start then cvProgress l k s else s
  s.onChip (fun c =>
    let c := if start then c.cvWaiting l k else c
    let c := c.modCv l k (fun u => { u with cfg := v &&& 0x7FFFFFFF#32 })
    if start then c.cvStart l k else c)

/-- A write of CV_CFG: by the owner, or by a core that claims a unit without one (R394). -/
def cvCfgWrite (l : LaneId) (k : Nat) (m : CvMaster) (v : BitVec 32) (s : State) : State :=
  if cvOwner (s.chip.cvUnit l k).cfg = 0 ∧ m ≠ .engine ∧ cvOwner v = cvMaster m then
    (if s.chip.runs l then cvSetCfg l k v s else s)
  else cvOwned l k m s (cvSetCfg l k v)

/-- CV_CFG_WRITE (R392, R393). -/
def execCvCfgWrite (l : LaneId) (u : Fin 4) (m : CvMaster) (v : BitVec 32) (s : State) : Out :=
  cvAccess l u.val s (cvCfgWrite l u.val m v)

/-- CV_STATE: a read waits and changes nothing; a write sets S and latches the configuration (R393). -/
def cvStateAccess (l : LaneId) (k : Nat) (m : CvMaster) (write : Option (BitVec 64)) (s : State) : State :=
  match write with
  | none => s
  | some v => cvOwned l k m s (fun s => (cvProgress l k s).onChip (fun c =>
      (c.cvLatch l k).modCv l k (fun u => { u with state := v })))

def execCvStateAccess (l : LaneId) (u : Fin 4) (m : CvMaster) (write : Option (BitVec 64)) (s : State) : Out :=
  cvAccess l u.val s (cvStateAccess l u.val m write)

/-- CV_FEED_WRITE: an item is fed, or waits for the memory feed's end (R390). -/
def cvFeedWrite (l : LaneId) (k : Nat) (m : CvMaster) (item : BitVec 128) (s : State) : State :=
  cvOwned l k m s (fun s => s.onChip (fun c =>
    let u := c.cvUnit l k
    if u.busy then c.modCv l k (fun u => { u with waiting := u.waiting ++ [item] })
    else c.cvEat l k u.src.toNat (toLe (cvItemSize u.lat.cfg) item.toNat)))

def execCvFeedWrite (l : LaneId) (u : Fin 4) (m : CvMaster) (item : BitVec 128) (s : State) : Out :=
  .next (cvFeedWrite l u.val m item s)

/-- CV_LEN_WRITE: a memory feed starts, unless the unit takes no item; a length that is no multiple of the item size sets the error flag
(R390, R392). -/
def cvLenWrite (l : LaneId) (k : Nat) (m : CvMaster) (len : BitVec 32) (s : State) : State :=
  cvOwned l k m s (fun s => (cvProgress l k s).onChip (fun c =>
    let u := c.cvUnit l k
    let c := c.modCv l k (fun u => { u with len := len })
    if len.toNat % cvItemSize u.lat.cfg ≠ 0 then
      (c.modCv l k (fun u => { u with cfgErr := true, busy := false })).localFault l 0x2304 0x0F k l.idx
    else c.modCv l k (fun u => { u with busy := decide (len.toNat ≠ 0) && !u.cfgErr && !u.fenced })))

def execCvLenWrite (l : LaneId) (u : Fin 4) (m : CvMaster) (len : BitVec 32) (s : State) : Out :=
  cvAccess l u.val s (cvLenWrite l u.val m len)

/-- MEMORY_FEED_DONE: every item left has been fed, or an uncorrectable error has stopped the feed after an open number of
them, with the read-error flag (R390). Waiting register feeds follow. -/
def memoryFeedDone (l : LaneId) (k : Nat) (readError : Bool) (s : State) : State :=
  let u := s.chip.cvUnit l k
  if !u.busy then s
  else
    let s := if readError then cvProgress l k s else cvItems l k u.itemsLeft s
    s.onChip (fun c => (c.modCv l k (fun u => { u with busy := false, readErr := u.readErr || readError })).cvWaiting l k)

def execMemoryFeedDone (l : LaneId) (u : Fin 4) (readError : Bool) (s : State) : Out :=
  cvAccess l u.val s (memoryFeedDone l u.val readError)

/-- CV_RESULT_READ: the finished value, the end of the check, and the alive counter raised (R396). -/
def cvResultRead (l : LaneId) (k : Nat) (s : State) : State :=
  if !s.chip.runs l then s
  else (cvProgress l k s).onChip (fun c =>
    (c.modCv l k (fun u => { u with readOut := u.finished, started := false, busy := false, alive := u.alive + 1 })).cvWaiting l k)

def execCvResultRead (l : LaneId) (u : Fin 4) (s : State) : Out := cvAccess l u.val s (cvResultRead l u.val)

/-- One of the other registers set. -/
def CvUnit.setReg (u : CvUnit) (reg : CvReg) (v : BitVec 64) : CvUnit :=
  match reg with
  | .poly => { u with poly := v }
  | .init => { u with init := v }
  | .xorout => { u with xorout := v }
  | .expect => { u with expect := v }
  | .inject => { u with inject := v }
  | .src => { u with src := v.setWidth 32 }
  | .alive => { u with alive := v.setWidth 8 }

/-- CV_REGISTER_WRITE: taken from the owner (R394). -/
def cvRegisterWrite (l : LaneId) (k : Nat) (m : CvMaster) (reg : CvReg) (v : BitVec 64) (s : State) : State :=
  cvOwned l k m s (fun s => (cvProgress l k s).onChip (fun c => c.modCv l k (fun u => u.setReg reg v)))

def execCvRegisterWrite (l : LaneId) (u : Fin 4) (m : CvMaster) (reg : CvReg) (v : BitVec 64) (s : State) : Out :=
  cvAccess l u.val s (cvRegisterWrite l u.val m reg v)

/-! ### The unit test (R398 to R401) -/

/-- The registers that a test has used hold open values after it; the unit stays without an owner (log 38). -/
def Chip.cvTested (c : Chip) (l : LaneId) (k : Nat) : Chip :=
  let (cfg, c) := c.draw
  let (poly, c) := c.draw
  let (init, c) := c.draw
  let (xorout, c) := c.draw
  let (state, c) := c.draw
  let (out, c) := c.draw
  let (expect, c) := c.draw
  let (inject, c) := c.draw
  let (alive, c) := c.draw
  c.modCv l k (fun u => { u with
    cfg := BitVec.ofNat 32 cfg &&& 0x7F00FFFF#32, poly := BitVec.ofNat 64 poly, init := BitVec.ofNat 64 init,
    xorout := BitVec.ofNat 64 xorout, state := BitVec.ofNat 64 state, readOut := BitVec.ofNat 64 out,
    expect := BitVec.ofNat 64 expect, inject := BitVec.ofNat 64 inject, alive := BitVec.ofNat 8 alive, started := false })

/-- A failed test: 0x2301, or the fence of a second failure within 64 matrix cycles; two fenced units fence the lane (R400). -/
def Chip.cvFailed (c : Chip) (l : LaneId) (k : Nat) : Chip :=
  let again := match (c.cvUnit l k).lastFail with
    | some m => decide (c.cyclesSince m ≤ 64)
    | none => false
  let c := c.modCv l k (fun u => { u with failed := satInc 65535 u.failed, lastFail := some c.dev.matrix })
  if again then
    let c := (c.localFault l 0x2302 0x0F k l.idx).ownFence l 0x0F k
    if 2 ≤ ((c.lane l).cv.filter (fun u => u.fenced)).length then c.selfFence l 0x2303 0x01 l.idx else c
  else c.localFault l 0x2301 0x0F k l.idx

/-- One unit tested: 0 passed, 1 failed, 2 abandoned because a core holds the unit (R398). An injected inversion fails step 1
(R445). -/
def Chip.cvTest (c : Chip) (l : LaneId) (k : Nat) (failStep : Option Nat) : Nat × Option Nat × Chip :=
  let u := c.cvUnit l k
  if cvOwner u.cfg ≠ 0 then (2, none, c.modCv l k (fun u => { u with abandoned := satInc 65535 u.abandoned }))
  else
    let step := if u.injectNext then some 1 else failStep
    let c := (c.cvTested l k).modCv l k (fun u => { u with run := satInc (2 ^ 32 - 1) u.run, injectNext := false })
    match step with
    | none => (0, none, c)
    | some n => (1, some n, c.cvFailed l k)

/-- UNIT_TEST_INTERVAL (R399, R400). -/
def unitTestInterval (l : LaneId) (k : Nat) (failStep : Option Nat) (c : Chip) : Chip :=
  if c.par Par.crcTestInterval = 0 ∨ c.inAuth l = false ∨ c.dev.standdown = some l ∨ (c.lane l).boot.fenced = true ∨
      (c.cvUnit l k).fenced = true then c
  else (c.cvTest l k failStep).2.2

def execUnitTestInterval (l : LaneId) (u : Fin 4) (failStep : Option Nat) (s : State) : Out :=
  .next (s.onChip (unitTestInterval l u.val failStep))

def attrUnitTest : OpAttr := { code := 0x2310, laneLocal := true }

def checksUnitTest (r : Req) (c : Chip) : List Nat :=
  (if r.body.length = 16 ∧ fld r.body 0 1 < 16 ∧ zeroFrom r.body 1 16 then [] else [stBadParam]) ++
    (if c.dev.actuation then [stLocked] else [])

/-- What a lane's tests have given so far: units passed, the first failing unit with its step, units abandoned. -/
structure TestRun where
  passed : Mask := 0
  first : Nat := 0xFF
  step : Nat := 0
  abandoned : Mask := 0

/-- One named unit tested in one lane. -/
def testUnit (l : LaneId) (defects : List Nat) (x : TestRun × Chip) (k : Nat) : TestRun × Chip :=
  let (t, c) := x
  if (c.cvUnit l k).fenced || (c.lane l).boot.fenced || decide (c.dev.standdown = some l) then (t, c)
  else
    let d := nth defects k 0
    let (res, step, c) := c.cvTest l k (if d = 0 then none else some d)
    if res = 0 then ({ t with passed := setBit t.passed k true }, c)
    else if res = 2 then ({ t with abandoned := setBit t.abandoned k true }, c)
    else if t.first = 0xFF then ({ t with first := k, step := step.getD 0 }, c)
    else (t, c)

/-- The named units of a lane tested, and the lane's quad (R401). -/
def testLane (units : Nat) (defects : Tri (List Nat)) (x : List Byte × Chip) (l : LaneId) : List Byte × Chip :=
  let (t, c) := ((List.range 4).filter (fun k => units.testBit k)).foldl (testUnit l (defects.get l)) ({}, x.2)
  let fenced := (List.range 4).foldl (fun m k => setBit m k (units.testBit k && (c.cvUnit l k).fenced)) (0 : Mask)
  (x.1 ++ toLe 1 t.passed.toNat ++ toLe 1 fenced.toNat ++ toLe 1 t.first ++ toLe 1 t.step ++ toLe 1 t.abandoned.toNat ++ toLe 11 0, c)

def effectUnitTest (defects : Tri (List Nat)) (r : Req) (s : State) : OpOut :=
  let (p, c) := r.lanes.foldl (testLane (fld r.body 0 1) defects) ([], s.chip)
  { st := { s with chip := c }, payload := p }

/-- CRC.UNIT_TEST; the hardware gives, for each lane, the failing step of each unit, 0 for none (R399, R401). -/
def execUnitTest (r : Req) (defects : Tri (List Nat)) (s : State) : Out :=
  .next (runOp attrUnitTest checksUnitTest (effectUnitTest defects) r s)

end Sys2Proof.Machine
end

