-- ==== Sys2Proof/Machine/Sha.lean ====
section
/-! DEFINITION. SHA-256 and the ECDSA P-256 verification that a firmware package must pass (R99, R100). -/

namespace Sys2Proof.Machine

open Sys2Proof

/-- The round constants of SHA-256. -/
def shaK : List Nat :=
  [0x428a2f98, 0x71374491, 0xb5c0fbcf, 0xe9b5dba5, 0x3956c25b, 0x59f111f1, 0x923f82a4, 0xab1c5ed5] ++
  [0xd807aa98, 0x12835b01, 0x243185be, 0x550c7dc3, 0x72be5d74, 0x80deb1fe, 0x9bdc06a7, 0xc19bf174] ++
  [0xe49b69c1, 0xefbe4786, 0xfc19dc6, 0x240ca1cc, 0x2de92c6f, 0x4a7484aa, 0x5cb0a9dc, 0x76f988da] ++
  [0x983e5152, 0xa831c66d, 0xb00327c8, 0xbf597fc7, 0xc6e00bf3, 0xd5a79147, 0x6ca6351, 0x14292967] ++
  [0x27b70a85, 0x2e1b2138, 0x4d2c6dfc, 0x53380d13, 0x650a7354, 0x766a0abb, 0x81c2c92e, 0x92722c85] ++
  [0xa2bfe8a1, 0xa81a664b, 0xc24b8b70, 0xc76c51a3, 0xd192e819, 0xd6990624, 0xf40e3585, 0x106aa070] ++
  [0x19a4c116, 0x1e376c08, 0x2748774c, 0x34b0bcb5, 0x391c0cb3, 0x4ed8aa4a, 0x5b9cca4f, 0x682e6ff3] ++
  [0x748f82ee, 0x78a5636f, 0x84c87814, 0x8cc70208, 0x90befffa, 0xa4506ceb, 0xbef9a3f7, 0xc67178f2]

/-- The initial hash of SHA-256. -/
def shaInit : List Nat := [0x6a09e667, 0xbb67ae85, 0x3c6ef372, 0xa54ff53a, 0x510e527f, 0x9b05688c, 0x1f83d9ab, 0x5be0cd19]

/-- A sum of words modulo 2^32. -/
def add32 (x y : Nat) : Nat := (x + y) % 2 ^ 32

/-- A word rotated right. -/
def rotr32 (x n : Nat) : Nat := (x / 2 ^ n + x * 2 ^ (32 - n)) % 2 ^ 32

/-- The big-endian number in bytes. -/
def ofBe (bs : List Byte) : Nat := bs.foldl (fun n b => 256 * n + b.toNat) 0

/-- A number as n big-endian bytes. -/
def toBe (n v : Nat) : List Byte := (toLe n v).reverse

/-- The next word of the message schedule from the sixteen before it, newest first. -/
def shaNext (w : List Nat) : Nat :=
  let x := w.getD 14 0
  let y := w.getD 1 0
  let s0 := rotr32 x 7 ^^^ rotr32 x 18 ^^^ (x / 8)
  let s1 := rotr32 y 17 ^^^ rotr32 y 19 ^^^ (y / 1024)
  add32 (add32 (w.getD 15 0) s0) (add32 (w.getD 6 0) s1)

/-- The message schedule of a block, newest word first. -/
def shaSchedule : Nat → List Nat → List Nat
  | 0, w => w
  | n + 1, w => shaSchedule n (shaNext w :: w)

/-- One round. -/
def shaRound (h : List Nat) (kw : Nat × Nat) : List Nat :=
  match h with
  | [a, b, c, d, e, f, g, x] =>
    let s1 := rotr32 e 6 ^^^ rotr32 e 11 ^^^ rotr32 e 25
    let ch := (e &&& f) ^^^ ((0xFFFFFFFF - e) &&& g)
    let t1 := add32 (add32 (add32 x s1) (add32 ch kw.1)) kw.2
    let s0 := rotr32 a 2 ^^^ rotr32 a 13 ^^^ rotr32 a 22
    let maj := (a &&& b) ^^^ (a &&& c) ^^^ (b &&& c)
    [add32 t1 (add32 s0 maj), a, b, c, add32 d t1, e, f, g]
  | _ => h

/-- One block of 64 bytes. -/
def shaBlock (h : List Nat) (blk : List Byte) : List Nat :=
  let w := ((List.range 16).map (fun i => ofBe (bytesAt blk (4 * i) 4))).reverse
  let ws := (shaSchedule 48 w).reverse
  List.zipWith add32 h ((List.zip shaK ws).foldl shaRound h)

/-- The padding of a message. -/
def shaPad (m : List Byte) : List Byte :=
  m ++ [0x80] ++ List.replicate ((119 - m.length % 64) % 64) 0 ++ toBe 8 (8 * m.length)

/-- SHA-256 of a message. -/
def sha256 (m : List Byte) : List Byte :=
  let p := shaPad m
  ((List.range (p.length / 64)).foldl (fun h i => shaBlock h (bytesAt p (64 * i) 64)) shaInit).flatMap (toBe 4)

/-- The prime of the curve P-256. -/
def p256P : Nat := 2 ^ 256 - 2 ^ 224 + 2 ^ 192 + 2 ^ 96 - 1

/-- The order of the curve's base point. -/
def p256N : Nat := 0xFFFFFFFF00000000FFFFFFFFFFFFFFFFBCE6FAADA7179E84F3B9CAC2FC632551

/-- The curve's base point. -/
def p256G : Nat × Nat :=
  (0x6B17D1F2E12C4247F8BCE6E563A440F277037D812DEB33A0F4A13945D898C296,
   0x4FE342E2FE1A7F9B8EE7EB4A7C0F9E162BCE33576B315ECECBB6406837BF51F5)

/-- A power modulo m, from the exponent's bits, the top one first. -/
def powMod (m b e : Nat) : Nat → Nat
  | 0 => 1 % m
  | n + 1 =>
    let r := powMod m b (e / 2) n
    if e % 2 = 1 then r * r % m * b % m else r * r % m

/-- The inverse modulo a prime. -/
def invMod (m x : Nat) : Nat := powMod m x (m - 2) 256

/-- The sum of two points, none for the point at infinity. -/
def ecAdd (a b : Option (Nat × Nat)) : Option (Nat × Nat) :=
  match a, b with
  | none, q => q
  | q, none => q
  | some (x1, y1), some (x2, y2) =>
    let p := p256P
    let sub (u v : Nat) : Nat := (u + p - v % p) % p
    if x1 = x2 ∧ (y1 + y2) % p = 0 then none
    else
      let s := if x1 = x2 then (3 * x1 * x1 + p - 3) % p * invMod p (2 * y1) % p
        else sub y2 y1 * invMod p (sub x2 x1) % p
      let x := sub (sub (s * s % p) x1) x2
      some (x, sub (s * sub x1 x % p) y1)

/-- A multiple of a point, from the multiplier's bits. -/
def ecMul (k : Nat) (q : Option (Nat × Nat)) : Nat → Option (Nat × Nat)
  | 0 => none
  | n + 1 =>
    let r := ecMul (k / 2) q n
    let d := ecAdd r r
    if k % 2 = 1 then ecAdd d q else d

/-- The signature (r, s) of a digest verifies under a public key. -/
def ecdsaOk (key : Nat × Nat) (digest : List Byte) (r s : Nat) : Bool :=
  if r = 0 ∨ s = 0 ∨ p256N ≤ r ∨ p256N ≤ s then false
  else
    let w := invMod p256N s
    let u1 := ofBe digest * w % p256N
    let u2 := r * w % p256N
    match ecAdd (ecMul u1 (some p256G) 256) (ecMul u2 (some key) 256) with
    | none => false
    | some (x, _) => decide (x % p256N = r)

end Sys2Proof.Machine
end

