-- ==== Sys2Proof/Machine/Cfg.lean ====
section
/-! DEFINITION. Parameters and the non-volatile store (chapter 03): reading and writing parameters, images and stores,
commissioning, and signed firmware. -/

namespace Sys2Proof.Machine

open Sys2Proof

/-! ### The units that an idle-only write must find idle (R86, R170, R522) -/

/-- A feedback channel is in use: an enabled context, a bridge in use or a plausibility pair reads it (R170). -/
def fbUsed (ws : List (Nat × Int)) (k : Nat) : Bool :=
  (List.range 64).any (fun n => decide (Par.loopEnable.at ws n = 1) &&
    (let s := (Par.loopPvSrc.at ws n).toNat; decide (s = 0x10 + k ∨ s = 0x18 + k))) ||
  (List.range 4).any (fun b => bridgeUsed ws b &&
    (decide (Par.cmtAngleSrc.at ws b = k) || decide (Par.cmtAngleSrc2.at ws b = k))) ||
  (List.range 8).any (fun x => decide (Par.fbkPlausPartner.at ws x ≠ 255) &&
    (decide (x = k) || decide (Par.fbkPlausPartner.at ws x = k)))

/-- A bridge switches, aligns or catches (R522). -/
def Motor.busy (m : Motor) : Bool :=
  decide (m.state = .switching ∨ m.state = .aligning) || m.catching || m.catchWait

/-- A lane target's or Pintle target's off-state test runs in some die. -/
def Chip.ostRuns (c : Chip) (t : Nat) : Bool :=
  if t < 2 then LaneId.all.any (fun l => (nth (c.lane l).targets t {}).run.isSome)
  else (nth c.pintle.targets (t - 2) {}).run.isSome

/-- A target of the off-state test switches: a bridge that switches, or a channel that is energised (R242). -/
def Chip.targetSwitches (c : Chip) (t : Nat) : Bool :=
  if t < 4 then decide ((nth c.dev.motors t {}).state = .switching ∨ (nth c.dev.motors t {}).state = .aligning ∨ (nth c.dev.motors t {}).state = .short)
  else (nth c.dev.steppers (t - 4) {}).energised

/-- A driver group runs: any target of it switches or runs an off-state test (R522). -/
def Chip.groupRuns (c : Chip) (g : Nat) : Bool :=
  let ts := if g = 0 then [0] else if g = 1 then [1] else if g = 2 then [4, 5, 6, 7, 8, 9] else [2, 3]
  ts.any (fun t => c.targetSwitches t || c.ostRuns t)

/-- The block, or the unit named by the instance, runs (R522). -/
def Chip.running (c : Chip) (id i : Nat) : Bool :=
  match id / 256 with
  | 0x10 => (nth c.dev.motors i {}).busy
  | 0x11 => c.groupRuns (if id ≤ 0x1108 then i / 8 else i)
  | 0x12 => (nth c.dev.steppers (if id = 0x1230 then 0 else if id = 0x1231 then 1 else i) {}).energised
  | 0x13 => fbUsed c.dev.cfg.ws i
  | 0x20 => c.dev.cfg.schedNext.isSome
  | _ => c.dev.actuation

/-! ### Reading parameters (R75, R82, R313) -/

/-- The stored entry of a stepper table: A in bits [15:0], B in bits [31:16] (R254). -/
def tableWord (e : Nat × Nat) : Nat := e.1 + 65536 * e.2

/-- The table of ST0 or ST1 in force as entries: the reshaped one when loaded, otherwise the fixed one. -/
def tableEntry (t : List (Nat × Nat)) (i : Nat) : Nat × Nat := if t.isEmpty then fixedEntry i else nth t i (0, 0)

/-- Consecutive fractions change by at most 2,048, A never rising and B never falling (R255). -/
def tableSteps : List (Nat × Nat) → Bool
  | e :: f :: r => decide (f.1 ≤ e.1 ∧ e.1 ≤ f.1 + 2048 ∧ e.2 ≤ f.2 ∧ f.2 ≤ e.2 + 2048) && tableSteps (f :: r)
  | _ => true

/-- A reshaped table is valid (R255). -/
def tableValid (t : List (Nat × Nat)) : Bool :=
  decide (t.length = 256) && decide (t.head? = some (32767, 0)) &&
    t.all (fun e => decide (e.1 ≤ 32767 ∧ e.2 ≤ 32767 ∧ 16384 * 16384 ≤ e.1 * e.1 + e.2 * e.2)) && tableSteps (t ++ [(0, 32767)])

/-- The table held for a channel 0 or 1, in full (R254). -/
def tableFull (t : List (Nat × Nat)) : List (Nat × Nat) := (List.range 256).map (tableEntry t)

/-- The CRC-32C of a table's 64 data quads (R256, R263). -/
def tableCrc (t : List (Nat × Nat)) : Nat := crc32c ((tableFull t).flatMap (fun e => toLe 4 (tableWord e)))

/-- A channel whose reshaped table is in use, but fails R255 or differs from STP.TAB_CRC (R256). -/
def tableFails (ws : List (Nat × Int)) (k : Nat) (t : List (Nat × Nat)) : Bool :=
  decide (k < 2) && decide (Par.stpTabCrc.at ws k ≠ 0) &&
    (!tableValid (tableFull t) || decide ((tableCrc t : Int) ≠ Par.stpTabCrc.at ws k))

/-- A parameter of the loaded schedule: 64 bits of a quad (R313). -/
def schedWord (s : List Byte) (id i : Nat) : Nat :=
  let k := id - 0x2080
  fld s (16 * (256 * (k / 2) + i) + 8 * (k % 2)) 8

/-- The width code and value of a parameter instance in force, none for an unknown one (R74, R277). -/
def Chip.paramValue (c : Chip) (id i : Nat) : Option (Nat × Nat) :=
  if 0x2080 ≤ id ∧ id ≤ 0x2089 then (if i < 256 then some (3, schedWord c.dev.cfg.sched id i) else none)
  else match parOfId id with
    | none => none
    | some p =>
      if !p.hasInst i then none
      else if id = 0x1230 then some (p.width, tableWord (tableEntry c.dev.cfg.tab0 i))
      else if id = 0x1231 then some (p.width, tableWord (tableEntry c.dev.cfg.tab1 i))
      else some (p.width, p.encode (c.par p i))

/-- The reply quads of a PARAM_READ, none when an entry names no parameter. -/
def Chip.readQuads (c : Chip) : List (List Byte) → Option (List Byte)
  | [] => some []
  | q :: qs => match c.paramValue (entryId q) (entryInst q), c.readQuads qs with
    | some (w, v), some rest => some (entryQuad (entryId q) (entryInst q) w v ++ rest)
    | _, _ => none

/-- A payload of whole quads, at least one. -/
def quadForm (p : List Byte) : Bool := decide (p.length ≠ 0) && decide (p.length % 16 = 0)

/-- BLOCK.PARAM_READ as an operation of the index. -/
def attrParamRead (b : Block) : OpAttr := { code := b.code * 256 + 1, read := true, row := .always }

def checksParamRead (r : Req) (c : Chip) : List Nat :=
  if quadForm r.body && (c.readQuads (quadsOf r.body)).isSome then [] else [stBadParam]

def effectParamRead (r : Req) (s : State) : OpOut := OpOut.same s ((s.chip.readQuads (quadsOf r.body)).getD [])

/-- PARAM_READ: the value of each named parameter and instance (R75). -/
def execParamRead (b : Block) (r : Req) (s : State) : Out :=
  .next (runOp (attrParamRead b) checksParamRead effectParamRead r s)

/-! ### The commissioning check value (R93, R94) -/

/-- The canonical entries of one parameter. -/
def canonicalOf (ws : List (Nat × Int)) (p : PInfo) : List Byte :=
  if p.cls = .commissioning then
    p.insts.flatMap (fun i => entryQuad p.id i p.width (p.encode (p.at ws i)))
  else []

/-- The check value of a schedule: CRC-64/XZ over quad 0 to the last entry, zero when none is loaded (R93, R311). -/
def schedCheck (s : List Byte) : Nat := if s.isEmpty then 0 else crc64xz (s.take (32 + 16 * schedCount s))

/-- The canonical image (R93). -/
def canonicalImage (ws : List (Nat × Int)) (sched : List Byte) : List Byte :=
  (parBlocks.flatMap (fun b => (parsOfBlock b).flatMap (canonicalOf ws))) ++ toLe 8 (schedCheck sched) ++ toLe 8 0

/-- The commissioning check value (R94). -/
def checkValue (ws : List (Nat × Int)) (sched : List Byte) : Nat := crc64xz (canonicalImage ws sched)

/-- The check value recomputed after a change to the canonical image (R94). -/
def Chip.recheck (c : Chip) : Chip := c.modCfg (fun g => { g with check := checkValue g.ws g.sched })

/-! ### Writing parameters (R86, R87, R523, R526, R552) -/

/-- Parameters that PARAM_WRITE never changes (R256, R313, R357). -/
def writeDenied (id : Nat) : Bool := decide (id = 0x1230 ∨ id = 0x1231 ∨ id = 0x2107 ∨ (0x2080 ≤ id ∧ id ≤ 0x2089))

/-- One entry as parameter, instance and number, none when it names no parameter or has another width. -/
def entryOf (q : List Byte) : Option (PInfo × Nat × Int) :=
  match parOfId (entryId q) with
  | none => none
  | some p => if p.hasInst (entryInst q) ∧ fld q 3 1 = p.width then some (p, entryInst q, p.decode (entryValue q)) else none

/-- The value of an entry fits its width (R82: zero-extended). -/
def entryFits (p : PInfo) (q : List Byte) : Bool := decide (entryValue q < 2 ^ widthBits p.width)

/-- The failing statuses of one entry, judged on the values that will be in force at the next boundary (R523, R552); an entry of the
loaded schedule's parameters fails whatever it holds (R313). DESIGN CHOICE (log 95): a value that is not zero beyond the parameter's
width answers OUT_OF_RANGE, and an entry may name a parameter of another block than the opcode's. While a schedule is loaded, PER.FREE_PERIOD is judged against its own range only
(R550). -/
def Chip.entryFails (c : Chip) (v : View) (session : Nat) (q : List Byte) : List Nat :=
  if 0x2080 ≤ entryId q ∧ entryId q ≤ 0x2089 ∧ entryInst q < 256 then
    (if fld q 3 1 = 3 ∧ zeroFrom q 4 8 = true then [] else [stBadParam]) ++ [stDenied]
  else match entryOf q with
  | none => [stBadParam]
  | some (p, i, x) =>
    (if zeroFrom q 4 8 then [] else [stBadParam]) ++
    (if writeDenied p.id then [stDenied] else []) ++
    (match p.cls with
      | .anyTime | .boundary => if c.dev.actuation && decide (session = 0) then [stSessionRequired] else []
      | .idle => if c.running p.id i then [stLocked] else []
      | .commissioning => if c.commissioningOpen then [] else [stDenied]) ++
    let own := decide (p.id = 0x0301) && !v.sched.isEmpty
    (if p.inRange x && entryFits p q && (own || rulesOk rangeRules v p.id i) then [] else [stRange]) ++
    (if own || rulesOk crossRules v p.id i then [] else [stBadParam])

/-- The keys and values of the well-named entries of a write. -/
def writeKeys (qs : List (List Byte)) : List (Nat × Int) :=
  qs.filterMap (fun q => (entryOf q).map (fun (p, i, x) => (parKey p.id i, x)))

/-- The first failing entry of a write: its index, its status, its quad (R552). -/
def Chip.firstFail (c : Chip) (v : View) (session : Nat) : Nat → List (List Byte) → Option (Nat × Nat × List Byte)
  | _, [] => none
  | k, q :: qs => match pickStatus (c.entryFails v session q) with
    | some st => some (k, st, q)
    | none => c.firstFail v session (k + 1) qs

/-- The payload of the reply to a failing write (R552). -/
def failQuad (k : Nat) (q : List Byte) : List Byte :=
  toLe 2 k ++ toLe 2 0 ++ toLe 2 (entryId q) ++ toLe 1 (entryInst q) ++ toLe 9 0

/-- A context restarted as at its enabling: in manual with LOOP.OUT_INIT, integrator and filter cleared (R526). -/
def Chip.restartLoop (c : Chip) (n : Nat) : Chip :=
  let init := c.par Par.loopOutInit n
  c.modLoop n (fun x => { x with mode := if x.mode = .disabled then .disabled else .manual, manual := init, out := init, i := 0, pf := 0, held := 0, preset := none, oldGains := none })

/-- The pairs in which a channel takes part lose their base (R185, R187). -/
def Chip.clearPairs (c : Chip) (ch : Nat) : Chip :=
  let partner (x : Nat) : Bool := decide (c.parN Par.fbkPlausPartner x = ch)
  c.modDev (fun d => { d with agreed := { d.agreed with fb := d.agreed.fb.mapIdx (fun x f =>
    if x = ch ∨ partner x = true then { f with plausBase := none } else f) } })

/-- A channel's index reference cleared, and the plausibility base of every pair in which it takes part (R187, R526). -/
def Chip.restartFb (c : Chip) (k : Nat) : Chip :=
  ((c.modLanes (fun _ n => { n with fb := modNth n.fb k (fun x => { x with indexRef := false, indexBad := 0 }) })).modDev
    (fun d => { d with agreed := { d.agreed with fb := modNth d.agreed.fb k (fun f => { f with prevV := none, aligned := false }) } })).clearPairs k

/-- A channel in another mode: it starts without a base, a frame or a transfer of the old one (R169, R182). -/
def Chip.newFbMode (c : Chip) (k : Nat) : Chip :=
  (c.modLanes (fun _ n => { n with fb := modNth n.fb k (fun x => { x with
    base := 0, frameNt := none, sentCal := 0, serialBits := [], ssiBusy := false }) })).restartFb k

/-- The reported count starts equal to the raw count when the hysteresis is switched (R173). -/
def Chip.startHyst (c : Chip) (k : Nat) : Chip :=
  c.modLanes (fun _ n => { n with fb := modNth n.fb k (fun x => { x with e' := x.e }) })

/-- A unit whose structure a write changes restarts as at its enabling (R526). -/
def Chip.restartUnit (c : Chip) (id i : Nat) : Chip :=
  match id with
  | 0x1301 => c.newFbMode i
  | 0x1303 => c.startHyst i
  | 0x1304 | 0x1305 | 0x1306 | 0x1319 | 0x0308 => c.restartFb i
  | 0x0205 | 0x0206 => c.modMotor i (fun m => { m with referenced := false, referenced2 := false })
  | 0x0208 => c.modMotor (i + 2) (fun m => { m with referenced := false, referenced2 := false })
  | 0x100D => c.modMotor i (fun m => { m with referenced := false })
  | 0x100E => c.modMotor i (fun m => { m with referenced2 := false })
  | 0x100F => c.modMotor i (fun m => { m with referenced := false, referenced2 := false })
  | 0x1402 | 0x1406 | 0x140E => c.restartLoop i
  | 0x1401 => (c.restartLoop i).modLoop i (fun x => { x with mode := if c.par Par.loopEnable i = 1 then .manual else .disabled })
  | _ => c

/-- One accepted entry takes effect by its class (R86): a boundary entry goes to its shadow. -/
def Chip.applyEntry (c : Chip) (e : PInfo × Nat × Int) : Chip :=
  let (p, i, x) := e
  let k := parKey p.id i
  match p.cls with
  | .boundary => c.modCfg (fun g => { g with shadow := (g.shadow.filter (fun y => y.1 != k)) ++ [(k, x)] })
  | .anyTime => c.modCfg (fun g => { g with ws := wsSet g.ws k x (p.dfltOf i) })
  | .idle =>
    let changed := decide (p.id = 0x1303 ∧ c.par p i ≠ x)
    let c := c.modCfg (fun g => { g with ws := wsSet g.ws k x (p.dfltOf i) })
    if changed then c.startHyst i else c
  | .commissioning =>
    let changed := decide (c.par p i ≠ x)
    let c := c.modCfg (fun g => { g with ws := wsSet g.ws k x (p.dfltOf i) })
    if changed then c.restartUnit p.id i else c

/-- All entries of a write take effect together (R75); the check value follows a change of the canonical image (R94). -/
def Chip.applyWrite (c : Chip) (qs : List (List Byte)) : Chip :=
  let es := qs.filterMap entryOf
  let c := es.foldl (fun c e => c.applyEntry e) c
  if es.any (fun e => decide (e.1.cls = .commissioning)) then c.recheck else c

/-- A bridge's I/O width is taken once the reply to the write is queued, or after the checkpoint when SUPPRESS withholds it (R71). -/
def Chip.awaitWidths (c : Chip) (r : Req) (qs : List (List Byte)) : Chip :=
  let by_ := if c.suppressed r.session (hasBit r.flags 0) stOk then none else r.link.map (fun l => (l, r.seq))
  (qs.filterMap entryOf).foldl (fun c e =>
    if e.1.id = 0x3001 then (match LaneId.ofIdx e.2.1 with
      | some l => c.modHost l (fun h => { h with newWidth := some (e.2.2.toNat, by_) })
      | none => c)
    else c) c

/-- BLOCK.PARAM_WRITE as an operation of the index. -/
def attrParamWrite (b : Block) : OpAttr := { code := b.code * 256 + 2, acc := .own, right := some 1 }

def checksParamWrite (r : Req) (_ : Chip) : List Nat := if quadForm r.body then [] else [stBadParam]

def effectParamWrite (r : Req) (s : State) : OpOut :=
  let qs := quadsOf r.body
  let v := s.chip.dev.cfg.view
  let v := { v with ws := wsApply v.ws (writeKeys qs) }
  match s.chip.firstFail v r.session 0 qs with
  | some (k, st, q) => { st := s, status := st, payload := failQuad k q }
  | none => OpOut.chip s (fun c => (c.applyWrite qs).awaitWidths r qs)

/-- PARAM_WRITE: every entry judged in payload order, all applied together or none (R552). -/
def execParamWrite (b : Block) (r : Req) (s : State) : Out :=
  .next (runOp (attrParamWrite b) checksParamWrite effectParamWrite r s)

/-! ### Images (R83, R84) -/

/-- The entries of an image copy as quads, ascending by ID and then instance: as they were written (R89, source 1), or built from
the values that differ from their defaults (R89, source 0). -/
def imageQuads (g : ImageCopy) : List Byte :=
  if !g.quads.isEmpty then g.quads else
  let plain := fun (e : Nat × Int) => match parOfId (e.1 / 256) with
    | some p => entryQuad p.id (e.1 % 256) p.width (p.encode e.2)
    | none => []
  let tab := fun (id : Nat) (t : List (Nat × Nat)) => (List.range t.length).flatMap (fun i =>
    if nth t i (0, 0) = fixedEntry i then [] else entryQuad id i 2 (tableWord (nth t i (0, 0))))
  let sch := (List.range 10).flatMap (fun k => (List.range 256).flatMap (fun i =>
    let w := schedWord g.sched (0x2080 + k) i
    if w = 0 then [] else entryQuad (0x2080 + k) i 3 w))
  (g.entries.filter (fun e => e.1 < 0x1230 * 256)).flatMap plain ++ tab 0x1230 g.tab0 ++ tab 0x1231 g.tab1 ++
  (g.entries.filter (fun e => 0x1230 * 256 ≤ e.1 && e.1 < 0x2080 * 256)).flatMap plain ++ sch ++
  (g.entries.filter (fun e => 0x2080 * 256 ≤ e.1)).flatMap plain

/-- The whole image as bytes, its header and trailer included (R83). -/
def imageBytes (g : ImageCopy) (seq : Nat) : List Byte :=
  let es := imageQuads g
  let n := es.length + 32
  let head := toLe 4 0x73060001 ++ toLe 4 seq ++ toLe 4 n ++ toLe 4 (es.length / 16)
  let body := head ++ es ++ toLe 8 g.check ++ toLe 4 0
  body ++ toLe 4 (crc32c (body ++ toLe 4 0))

/-- The image of a working set, its tables and schedule (R89). -/
def CfgState.image (g : CfgState) : ImageCopy :=
  { empty := false, wellFormed := true, entries := g.ws, sched := g.sched, tab0 := g.tab0, tab1 := g.tab1, check := g.check }

/-- Whether an image's identifier, length, entry count and CRC-32C agree (R84). -/
def imageFormed (b : List Byte) : Bool :=
  decide (fld b 0 4 = 0x73060001) && decide (32 ≤ b.length) && decide (fld b 8 4 = b.length) &&
    decide (16 * fld b 12 4 + 32 = b.length) && decide (crc32c (b.take (b.length - 4) ++ toLe 4 0) = fld b (b.length - 4) 4)

/-- The entries of an image ascend strictly, and each names a parameter of its width with a value in range (R84). -/
def imageEntriesOk : Option Nat → List (List Byte) → Bool
  | _, [] => true
  | prev, q :: qs =>
    let k := parKey (entryId q) (entryInst q)
    (match prev with | some j => decide (j < k) | none => true) &&
    (if 0x2080 ≤ entryId q ∧ entryId q ≤ 0x2089 then decide (entryInst q < 256 ∧ fld q 3 1 = 3) && zeroFrom q 4 8
     else match entryOf q with
      | some (p, _, x) => p.inRange x && entryFits p q && zeroFrom q 4 8
      | none => false) && imageEntriesOk (some k) qs

/-- A byte sequence with eight bytes written at an offset (extended with zero). -/
def putWord (s : List Byte) (off v : Nat) : List Byte :=
  bytesAt s 0 off ++ toLe 8 v ++ s.drop (off + 8)

/-- The schedule quads among an image's entries, as long as the schedule's own count says or as far as entries reach (R313). -/
def imageSched (qs : List (List Byte)) : List Byte :=
  let s := qs.foldl (fun s q =>
    if 0x2080 ≤ entryId q ∧ entryId q ≤ 0x2089 then
      putWord s (16 * (256 * ((entryId q - 0x2080) / 2) + entryInst q) + 8 * ((entryId q - 0x2080) % 2)) (entryValue q)
    else s) []
  if s.take 16 = List.replicate (s.take 16).length 0 then [] else bytesAt s 0 (max (48 + 16 * schedCount s) s.length)

/-- A table among an image's entries, empty when none of it is stored. -/
def imageTable (qs : List (List Byte)) (id : Nat) : List (Nat × Nat) :=
  if qs.any (fun q => entryId q == id) then
    (List.range 256).map (fun i => match qs.find? (fun q => entryId q == id && entryInst q == i) with
      | some q => (entryValue q % 65536, entryValue q / 65536 % 65536)
      | none => fixedEntry i)
  else []

/-- The image that a byte sequence spells, not well formed where R84's first sentence fails. -/
def imageOf (b : List Byte) : ImageCopy :=
  let qs := quadsOf ((b.drop 16).take (b.length - 32))
  let ws := wsApply [] ((qs.filterMap entryOf).filterMap (fun (p, i, x) =>
    if p.id = 0x1230 ∨ p.id = 0x1231 then none else some (parKey p.id i, x)))
  { empty := false, wellFormed := imageFormed b && imageEntriesOk none qs, seq := fld b 4 4, crc := fld b (b.length - 4) 4,
    check := fld b (b.length - 16) 8, entries := ws, sched := imageSched qs, tab0 := imageTable qs 0x1230,
    tab1 := imageTable qs 0x1231, quads := qs.flatten }

/-- A well-formed image is acceptable: every rule holds, its schedule meets R312, and its trailer's check value is right (R84). -/
def ImageCopy.acceptable (g : ImageCopy) : Bool :=
  g.wellFormed && (g.sched.isEmpty || schedOk g.entries g.sched) && (View.allOk { ws := g.entries, sched := g.sched, next := none }) &&
    decide (g.check = checkValue g.entries g.sched)

/-- The image in a lane's staging image: as long as its length field says (R98). -/
def stagedImage (m : LaneMem) : ImageCopy :=
  let n := ofLe (cellRead m.staging 8 4)
  if 32 ≤ n ∧ n ≤ 262144 ∧ n % 16 = 0 then imageOf (cellRead m.staging 0 n) else { empty := false, wellFormed := false }

/-! ### Image writes and stores (R89 to R91, R98) -/

/-- A store or a firmware write is in progress (R89). -/
def CfgState.busy (g : CfgState) : Bool := g.storing.isSome || g.fwBusy

/-- The statuses of a block write: offset a multiple of 16, the rest of quad 0 zero, up to 254 data quads inside the
area (R98). -/
def blockFails (p : List Byte) (size : Nat) : List Nat :=
  (if 16 ≤ p.length ∧ p.length % 16 = 0 ∧ fld p 0 4 % 16 = 0 ∧ zeroFrom p 4 16 then [] else [stBadParam]) ++
  (if fld p 0 4 + (p.length - 16) ≤ size then [] else [stRange])

def attrImageWrite : OpAttr := { code := 0x3110, acc := .own }

def checksImageWrite (r : Req) (c : Chip) : List Nat :=
  blockFails r.body 262144 ++ (if c.dev.actuation then [stLocked] else []) ++ (if c.dev.cfg.busy then [stBusy] else [])

def effectImageWrite (r : Req) (s : State) : OpOut :=
  { st := LaneId.all.foldl (fun s l => if s.chip.inAuth l then
      s.onMem l (fun m => { m with staging := cellWrite m.staging (fld r.body 0 4) (r.body.drop 16) }) else s) s }

/-- CFG.IMAGE_WRITE: data quads written into the staging image of every lane in authority (R98). -/
def execImageWrite (r : Req) (s : State) : Out := .next (runOp attrImageWrite checksImageWrite effectImageWrite r s)

def attrCfgStore : OpAttr := { code := 0x3111, acc := .own, pend := true }

/-- The leading lane's staged image; the staging images of the lanes in authority are equal (R62). -/
def State.staged (s : State) : ImageCopy :=
  match s.chip.leader with
  | some l => stagedImage (s.mem.get l)
  | none => {}

def checksCfgStore (r : Req) (c : Chip) : List Nat :=
  (if r.body.length = 16 ∧ fld r.body 0 1 ≤ 1 ∧ zeroFrom r.body 1 16 then [] else [stBadParam]) ++
  (if c.dev.actuation then [stLocked] else []) ++
  (if c.dev.cfg.busy ∨ c.dev.standdown.isSome then [stBusy] else [])

/-- A lane's selected copy, if any. -/
def Nvm.selectedCopy (n : Nvm) : Option ImageCopy :=
  match n.selected with
  | some 0 => some n.copyA
  | some _ => some n.copyB
  | none => none

/-- The sequence number of the next image (R90). -/
def Nvm.nextSeq (n : Nvm) : Nat := match n.selectedCopy with | some g => (g.seq + 1) % 2 ^ 32 | none => 1

/-- The copy that the next store writes: the one not selected, A when none is (R90). -/
def Nvm.nextCopy (n : Nvm) : Nat := match n.selected with | some 0 => 1 | _ => 0

/-- A lane's image copy replaced. -/
def Nvm.setCopy (n : Nvm) (k : Nat) (g : ImageCopy) : Nvm := if k = 0 then { n with copyA := g } else { n with copyB := g }

/-- The store begins in every lane in authority: the target's header is zeroed first (R90 step 1). -/
def Chip.beginStore (c : Chip) (source : Nat) (g : ImageCopy) (r : Req) : Chip :=
  let c := c.modCfg (fun x => { x with storing := some (source, g) })
  let c := LaneId.all.foldl (fun c l => if c.inAuth l then
    c.modLane l (fun n => { n with work := { n.work with storing := true, committed := false },
                                   nvm := n.nvm.setCopy n.nvm.nextCopy { empty := false, wellFormed := false } }) else c) c
  c.addPend 0x3111 r {}

def effectCfgStore (r : Req) (s : State) : OpOut :=
  if fld r.body 0 1 = 0 then
    { st := s.onChip (fun c => c.beginStore 0 c.dev.cfg.image r), status := stPending }
  else if s.staged.acceptable then
    { st := s.onChip (fun c => c.beginStore 1 s.staged r), status := stPending }
  else { st := s, status := stImage }

/-- CFG.STORE: the working set or the staging image is taken as a snapshot and stored (R89, R90). -/
def execCfgStore (r : Req) (s : State) : Out := .next (runOp attrCfgStore checksCfgStore effectCfgStore r s)

/-- A store ended by a read-back failure or an absent sector: the copy stays invalid, NO_RESOURCE (R90). -/
def Chip.failStore (c : Chip) (l : LaneId) : Chip :=
  let c := c.localFault l 0x3102 0x17 ((c.lane l).nvm.nextCopy) l.idx
  let c := c.modCfg (fun g => { g with storing := none })
  let c := c.modLanes (fun _ n => { n with work := { n.work with storing := false, committed := false } })
  c.finishAll (fun p => p.opcode == 0x3111) stNoResource []

/-- Every lane in authority has committed: the new copy is selected and the final reply given (R90, R91). -/
def Chip.storeDone (c : Chip) : Chip :=
  match c.dev.cfg.storing with
  | none => c
  | some (source, g) =>
    let takers := c.authLanes.filter (fun l => (c.lane l).work.storing)
    if takers = [] then
      (c.modCfg (fun x => { x with storing := none })).modDev (fun d => { d with pend := d.pend.filter (fun p => p.opcode != 0x3111) })
    else if takers.all (fun l => (c.lane l).work.committed) then
      let c := c.modLanes (fun _ n => if n.work.storing then
        { n with work := { n.work with storing := false, committed := false },
                 nvm := if n.work.committed then { n.nvm with selected := some n.nvm.nextCopy } else n.nvm } else n)
      let c := c.modCfg (fun x => { x with storing := none, wsNext := if source = 1 then some g else x.wsNext })
      c.finishAll (fun p => p.opcode == 0x3111) stOk []
    else c

/-- STORE_COMMIT: the lane reads its sectors back and commits the copy by its header quad, or the store fails (R90). -/
def commitStore (l : LaneId) (readBackOk : Bool) (c : Chip) : Chip :=
  match c.dev.cfg.storing with
  | none => c
  | some (_, g) =>
    let n := c.lane l
    if n.work.storing && !n.work.committed && c.inAuth l then
      if readBackOk && !(n.bist.regions.contains (22 + n.nvm.nextCopy)) then
        let seq := n.nvm.nextSeq
        let b := imageBytes g seq
        let g' : ImageCopy := { g with empty := false, wellFormed := true, seq := seq, crc := fld b (b.length - 4) 4 }
        c.modLane l (fun n => { n with
          work := { n.work with committed := true }
          nvm := n.nvm.setCopy n.nvm.nextCopy g' })
      else c.failStore l
    else c

def execStoreCommit (l : LaneId) (readBackOk : Bool) (s : State) : Out := .next (s.onChip (commitStore l readBackOk))

/-! ### Commissioning (R95, R96, R98) -/

def attrCheckRead : OpAttr := { code := 0x3112, read := true, row := .always }

def checksCheckRead (r : Req) (_ : Chip) : List Nat := payloadFails r.body 0

/-- The reply of CFG.CHECK_READ (R98), from the leading lane's NVM. -/
def Chip.checkQuad (c : Chip) : List Byte :=
  let n : Nvm := match c.leader with | some l => (c.lane l).nvm | none => {}
  toLe 8 c.dev.cfg.check ++ toLe 1 (if c.commissioned then 1 else 0) ++ toLe 1 (n.selected.getD 0xFF) ++ toLe 2 0 ++
    toLe 4 (match n.selectedCopy with | some g => g.seq | none => 0)

def effectCheckRead (_ : Req) (s : State) : OpOut := OpOut.same s s.chip.checkQuad

/-- CFG.CHECK_READ (R98). -/
def execCheckRead (r : Req) (s : State) : Out := .next (runOp attrCheckRead checksCheckRead effectCheckRead r s)

def attrCommissionConfirm : OpAttr := { code := 0x3113, keyed := true, acc := .parked, right := some 2 }

def checksCommissionConfirm (r : Req) (c : Chip) : List Nat :=
  (if r.body.length = 16 ∧ fld r.body 8 1 ≤ 1 ∧ zeroFrom r.body 9 16 then [] else [stBadParam]) ++
  (if c.dev.actuation then [stDenied] else []) ++
  (if fld r.body 8 1 = 0 ∧ fld r.body 0 8 ≠ c.dev.cfg.check then [stMismatch] else []) ++
  (if c.dev.standdown.isSome ∨ c.dev.cfg.confirm.isSome then [stBusy] else [])

def effectCommissionConfirm (r : Req) (s : State) : OpOut :=
  { st := s.onChip (fun c =>
      let v := if fld r.body 8 1 = 0 then fld r.body 0 8 else 0
      let c := c.modCfg (fun g => { g with confirm := some v })
      let c := LaneId.all.foldl (fun c l => if c.inAuth l then
        c.modLane l (fun n => { n with work := { n.work with confirming := true } }) else c) c
      c.addPend 0x3113 r {}),
    defer := true }

/-- CFG.COMMISSION_CONFIRM: the slot writes begin, and the one reply OK comes when they are done (R95). -/
def execCommissionConfirm (r : Req) (s : State) : Out :=
  .next (runOp attrCommissionConfirm checksCommissionConfirm effectCommissionConfirm r s)

/-- The confirmation count after another, in its 4 bytes. DESIGN CHOICE (log 96): R95 gives no count past 0xFFFFFFFF, and it goes on
from 0. -/
def nextCount (n : Nat) : Nat := (n + 1) % 2 ^ 32

/-- The slot not in force written with a value and the count plus 1, or slot 0 with count 1 (R95). -/
def Nvm.confirmSlot (n : Nvm) (v : Nat) : Nvm :=
  match n.slot0, n.slot1 with
  | none, none => { n with slot0 := some { value := v, count := 1 } }
  | some x, none => { n with slot1 := some { value := v, count := nextCount x.count } }
  | none, some y => { n with slot0 := some { value := v, count := nextCount y.count } }
  | some x, some y =>
    if x.count < y.count then { n with slot0 := some { value := v, count := nextCount y.count } }
    else { n with slot1 := some { value := v, count := nextCount x.count } }

/-- The reply OK follows the slot write of the last lane that is still in authority (R95). -/
def Chip.confirmDone (c : Chip) : Chip :=
  if c.dev.cfg.confirm.isNone || c.authLanes.any (fun k => (c.lane k).work.confirming) then c
  else (c.modCfg (fun g => { g with confirm := none })).finishAll (fun p => p.opcode == 0x3113) stOk []

/-- COMMISSION_WRITE_DONE: the lane's slot is written; the reply follows the last lane in authority (R95). -/
def commissionWritten (l : LaneId) (c : Chip) : Chip :=
  match c.dev.cfg.confirm with
  | none => c
  | some v =>
    (if (c.lane l).work.confirming then
      c.modLane l (fun n => { n with work := { n.work with confirming := false }, nvm := n.nvm.confirmSlot v }) else c).confirmDone

def execCommissionWriteDone (l : LaneId) (s : State) : Out := .next (s.onChip (commissionWritten l))

/-! ### Firmware (R99 to R101) -/

/-- The bank that a lane is not running. -/
def Nvm.idleBank (n : Nvm) : Nat := if n.booted = 0 then 1 else 0

/-- The bytes of a bank. -/
def LaneMem.bank (m : LaneMem) (k : Nat) : List Host.Cell := if k = 0 then m.bank0 else m.bank1

/-- A lane's memories with bytes written into a bank. -/
def LaneMem.writeBank (m : LaneMem) (k a : Nat) (bs : List Byte) : LaneMem :=
  if k = 0 then { m with bank0 := cellWrite m.bank0 a bs } else { m with bank1 := cellWrite m.bank1 a bs }

/-- A bank's state. -/
def Nvm.bankState (n : Nvm) (k : Nat) : BankState := if k = 0 then n.bank0 else n.bank1

/-- A lane's NVM with a bank's state changed. -/
def Nvm.setBank (n : Nvm) (k : Nat) (b : BankState) : Nvm := if k = 0 then { n with bank0 := b } else { n with bank1 := b }

def attrFwWrite : OpAttr := { code := 0x3114, acc := .parked }

def checksFwWrite (r : Req) (c : Chip) : List Nat :=
  blockFails r.body 1572864 ++ (if c.dev.cfg.busy then [stBusy] else [])

def effectFwWrite (r : Req) (s : State) : OpOut :=
  let s := LaneId.all.foldl (fun s l => if s.chip.inAuth l then
    let k := (s.chip.lane l).nvm.idleBank
    (s.onMem l (fun m => m.writeBank k (fld r.body 0 4) (r.body.drop 16))).onChip (fun c =>
      c.modLane l (fun n => { n with nvm := n.nvm.setBank k { n.nvm.bankState k with delivered := false } })) else s) s
  { st := s.onChip (fun c => c.modCfg (fun g => { g with fwBusy := true })) }

/-- CFG.FW_WRITE: data quads written into the bank that is not active, in every lane in authority (R100). -/
def execFwWrite (r : Req) (s : State) : Out := .next (runOp attrFwWrite checksFwWrite effectFwWrite r s)

/-- FW_WRITE_DONE: the firmware write ends, and the next is no longer BUSY (R89). -/
def fwWriteEnds (c : Chip) : Chip := c.modCfg (fun g => { g with fwBusy := false })

def execFwWriteDone (s : State) : Out := .next (s.onChip fwWriteEnds)

/-- The firmware package in a bank passes the checks of R100 for a lane: digest, signature, key, security version. DESIGN CHOICE
(log 97): a package whose format identifier, reserved bytes, key index or body length disagree with R99 does not pass. -/
def packageOk (n : Nvm) (m : List Host.Cell) : Bool :=
  let q0 := cellRead m 0 16
  let q1 := cellRead m 16 16
  let len := fld q0 12 4
  let dig := cellRead m 32 32
  let key := fld q1 0 1
  decide (fld q0 0 4 = 0x73060F01) && decide (len ≤ 1572736) && decide (key ≤ 3) && zeroFrom q1 1 16 &&
    decide (sha256 (q0 ++ q1 ++ cellRead m 128 len) = dig) &&
    ecdsaOk (Config.publicKey key) dig (ofLe (cellRead m 64 32)) (ofLe (cellRead m 96 32)) &&
    !(hasBit n.revoked key) && decide (n.minSecurity ≤ fld q0 8 4)

/-- What a lane knows of a bank whose package it has read. -/
def bankOf (m : List Host.Cell) : BankState :=
  { version := ofLe (cellRead m 4 4), security := ofLe (cellRead m 8 4), digest := ofLe (cellRead m 32 4) }

/-- A bank passes the checks of R100, at boot or at an activation (R100, R101). The firmware that the device was delivered with has
no bytes in the model: it passes while its key, index 0, is not revoked and its security version is not below the minimum (log 11). -/
def bankPasses (n : Nvm) (m : List Host.Cell) (k : Nat) : Bool :=
  if (n.bankState k).delivered then !(hasBit n.revoked 0) && decide (n.minSecurity ≤ (n.bankState k).security) else packageOk n m

/-- What a lane knows of a bank after its checks. -/
def Nvm.checked (n : Nvm) (m : List Host.Cell) (k : Nat) : BankState := if (n.bankState k).delivered then n.bankState k else bankOf m

def attrFwActivate : OpAttr := { code := 0x3115, keyed := true, acc := .parked, pend := true, right := some 2 }

def checksFwActivate (r : Req) (c : Chip) : List Nat :=
  payloadFails r.body 0 ++ (if c.dev.cls = some 0 ∧ c.dev.actuation = false then [] else [stDenied]) ++
    (if c.dev.standdown.isSome ∨ c.dev.cfg.fwActivating then [stBusy] else [])

def effectFwActivate (r : Req) (s : State) : OpOut :=
  { st := s.onChip (fun c => (c.modCfg (fun g => { g with fwActivating := true })).addPend 0x3115 r {}), status := stPending }

/-- CFG.FW_ACTIVATE: every lane begins to verify the package in its inactive bank (R100). -/
def execFwActivate (r : Req) (s : State) : Out := .next (runOp attrFwActivate checksFwActivate effectFwActivate r s)

/-- FW_ACTIVATE_DONE: when every lane passes, each marks the bank; otherwise none does, nor into a fenced region (R100, R500,
log 39). -/
def finishActivate (s : State) : State :=
  if !s.chip.dev.cfg.fwActivating then s
  else
    let look (l : LaneId) : BankState :=
      let n := (s.chip.lane l).nvm
      n.checked ((s.mem.get l).bank n.idleBank) n.idleBank
    let ok := LaneId.all.all (fun l => s.chip.inAuth l &&
      bankPasses (s.chip.lane l).nvm ((s.mem.get l).bank (s.chip.lane l).nvm.idleBank) (s.chip.lane l).nvm.idleBank)
    let bad := LaneId.all.any (fun l => (s.chip.lane l).bist.regions.contains (20 + (s.chip.lane l).nvm.idleBank))
    s.onChip (fun c =>
      let c := c.modCfg (fun g => { g with fwActivating := false })
      if bad then c.finishAll (fun p => p.opcode == 0x3115) stNoResource []
      else if ok then
        (c.modLanes (fun l n => { n with nvm := { n.nvm.setBank n.nvm.idleBank (look l) with marked := n.nvm.idleBank } })).finishAll
          (fun p => p.opcode == 0x3115) stOk (toLe 4 (look .a).version ++ toLe 12 0)
      else c.finishAll (fun p => p.opcode == 0x3115) stSignature [])

def execFwActivateDone (s : State) : Out := .next (finishActivate s)

end Sys2Proof.Machine
end

