-- ==== Sys2Proof/Machine/Sched.lean ====
section
/-! DEFINITION. The configuration that a lane loads from its selected image copy at boot (R81, R92, R313). -/

namespace Sys2Proof.Machine

open Sys2Proof

/-! ### Boot (R81, R92, R313) -/

/-- The schedule that an image's quads give: none when they break R312 (R313). -/
def ImageCopy.schedule (g : ImageCopy) : List Byte := if schedOk g.entries g.sched then g.sched else []

/-- A stored copy is usable at boot (R92): its schedule quads are judged under R313 and not here, and the rules that name the
control period against the period that results (R550). -/
def ImageCopy.usable (g : ImageCopy) : Bool :=
  g.wellFormed && (View.allOk { ws := g.entries, sched := g.schedule, next := none }) && decide (g.check = checkValue g.entries g.sched)

/-- The copy that a lane selects at boot (R92). -/
def Nvm.select (n : Nvm) : Option Nat :=
  match n.copyA.usable, n.copyB.usable with
  | true, true => if newer n.copyB.seq n.copyA.seq then some 1 else some 0
  | true, false => some 0
  | false, true => some 1
  | false, false => none

/-- The working set, tables and schedule that a lane loads from its selected copy, or the defaults (R85, R92, R313). -/
def Nvm.loaded (n : Nvm) : CfgState :=
  match n.selectedCopy with
  | none => { check := checkValue [] [] }
  | some g =>
    let sched := g.schedule
    { ws := g.entries, sched := sched, tab0 := g.tab0, tab1 := g.tab1, check := checkValue g.entries sched }

/-- The schedule of the selected copy fails R312, so that the lane has none (R313). -/
def Nvm.schedBad (n : Nvm) : Bool :=
  match n.selectedCopy with
  | none => false
  | some g => !g.sched.isEmpty && !schedOk g.entries g.sched

end Sys2Proof.Machine
end

