-- ==== Sys2Proof/Machine/Startup.lean ====
section
/-! DEFINITION. Startup and lane join (chapter 04): power-good, boot, discovery, adoption, and forming the first class. -/

namespace Sys2Proof.Machine

open Sys2Proof

/-! ### Supplies (R102, R534, R553) -/

/-- POWER_GOOD: the lane begins its boot, its timebase running from NT 0 (R102, R553). -/
def powerGood (l : LaneId) (s : State) : State :=
  if (s.chip.lane l).boot.powerGood then s
  else
    let s := s.onChip (fun c => c.modLane l (fun n => { n with boot := { n.boot with powerGood := true }, power := {} }))
    (s.rebootLane l).onChip (fun c => c.modClock l (fun _ => { running := true }))

def execPowerGood (l : LaneId) (s : State) : Out := .next (powerGood l s)

/-- POWER_GOOD_LOST: gates and safety outputs go inert, queued records and volatile state are lost (R102, R436, R534); the
Pintle die loses its supply with the last lane's. -/
def powerGoodLost (l : LaneId) (s : State) : State :=
  if !(s.chip.lane l).boot.powerGood then s
  else
    let s := s.onChip (fun c => c.modLane l (fun n => { n with boot := { n.boot with powerGood := false } }))
    let s := (s.rebootLane l).onChip (fun c => c.modClock l (fun _ => {}))
    s.onChip (fun c =>
      if LaneId.all.all (fun k => !(c.lane k).boot.powerGood) then
        { (c.modLanes (fun _ n => { n with boot := { n.boot with readmits := 0 } })) with dev := {}, pintle := {} }
      else if c.authLanes = [l] then c.fenceLanes [(l, 0x010F)] else c)

def execPowerGoodLost (l : LaneId) (s : State) : Out := .next (powerGoodLost l s)

/-- PINTLE_POWER_UP: no lane presents, the Deadbolt is disarmed, every fence of the die is undone (R19, R36, R440). -/
def pintlePowerUp (c : Chip) : Chip := { c with pintle := { powered := true, drive := c.pintle.drive } }

def execPintlePowerUp (s : State) : Out := .next (s.onChip pintlePowerUp)

/-! ### Boot (R92, R101, R103, R435) -/

/-- The write index of the ring: the first slot that is empty or whose pass flag differs from slot 0's, else slot 0 (R435). -/
def ringIndex (ring : List (Nat × Bool × FaultRec)) : Nat :=
  match ring.find? (fun e => e.1 == 0) with
  | none => 0
  | some (_, p, _) =>
    ((List.range 4096).find? (fun i => match ring.find? (fun e => e.1 == i) with
      | none => true
      | some (_, q, _) => q != p)).getD 0

/-- The pass flag of the next write: slot 0's while the ring is on its first pass beyond it, toggled at slot 0 (R434). -/
def ringPass (ring : List (Nat × Bool × FaultRec)) : Bool :=
  match ring.find? (fun e => e.1 == 0) with
  | none => false
  | some (_, p, _) => if ringIndex ring = 0 then !p else p

/-- The bank that a lane boots: the marked one, else the other, else none (R101). -/
def bootBank (n : Nvm) (m : LaneMem) (regions : List Nat) : Option Nat :=
  if !regions.contains (20 + n.marked) && bankPasses n (m.bank n.marked) n.marked then some n.marked
  else
    let k := if n.marked = 0 then 1 else 0
    if !regions.contains (20 + k) && bankPasses n (m.bank k) k then some k else none

/-- A store as boot sees it: a copy in a fenced region is never selected (R500). -/
def Nvm.reachable (n : Nvm) (regions : List Nat) : Nvm :=
  { n with copyA := if regions.contains 22 then {} else n.copyA, copyB := if regions.contains 23 then {} else n.copyB }

/-- The regions that a repair log keeps fenced: those with a kind 5 entry (R503). -/
def regionsOf (log : List RepairEntry) : List Nat := (log.filter (fun e => e.kind == 5)).map (·.region)

/-- The units that a fenced region fences in its lane: the region itself, and the loop contexts of regions 4 to 11 (R500). -/
def regionUnits (r : Nat) : List (Nat × Nat) :=
  (0x14, r) :: (if 4 ≤ r ∧ r < 12 then (List.range 8).map (fun k => (0x08, 8 * (r - 4) + k)) else [])

/-- Fused repairs and the repair log applied before the SRAM is cleared: a region with a kind 5 entry stays fenced (R503). -/
def Chip.applyRepairs (c : Chip) (l : LaneId) : Chip :=
  let log := (c.lane l).nvm.log
  c.modLane l (fun x => { x with
    bist := { x.bist with regions := regionsOf log, ecc := [] }
    fencedNow := (regionsOf log).flatMap regionUnits
    fault := { x.fault with cap := if (regionsOf log).contains 15 then 16 else 64 } })

/-- The critical region of a kind 5 entry that keeps a lane fenced (R503). -/
def Chip.badRegion (c : Chip) (l : LaneId) : Option Nat := (c.lane l).bist.regions.find? regionCritical

/-- The image selection and its faults (R92, R313). -/
def Chip.loadLane (c : Chip) (l : LaneId) : Chip :=
  let c := c.modLane l (fun n => { n with nvm := { n.nvm with selected := (n.nvm.reachable n.bist.regions).select } })
  let n := (c.lane l).nvm
  let bad (g : ImageCopy) : Bool := !g.empty && !g.usable
  let c := if bad n.copyA then c.localFault l 0x3101 0x17 0 l.idx else c
  let c := if bad n.copyB then c.localFault l 0x3101 0x17 1 l.idx else c
  let c := if n.selected.isNone && (bad n.copyA || bad n.copyB) then c.localFault l 0x3102 0x17 0 l.idx else c
  let c := if n.schedBad then c.localFault l 0x200E 0x0C 0 l.idx else c
  c.modLane l (fun x => { x with boot := { x.boot with check := n.loaded.check } })

/-- LANE_READY: steps 1 to 5 of R103 are done, the repairs of R503 first; a lane whose repair log fails its check runs memory BIST
before (R503). -/
def laneReady (l : LaneId) (s : State) : State :=
  let n := s.chip.lane l
  if !n.boot.powerGood || !n.power.core || decide (n.bist.phase ≠ 0) || decide (n.boot.state ≠ .booting) || n.boot.fenced || !n.nvm.logOk then s
  else
  let s := s.onChip (fun c => c.applyRepairs l)
  match s.chip.badRegion l with
  | some r => s.onChip (fun c => (c.localFault l 0x3407 0x14 r l.idx).modLane l (fun n =>
      { n with boot := { n.boot with fenced := true, fenceCode := 0x3407 } }))
  | none =>
  match bootBank n.nvm (s.mem.get l) (s.chip.lane l).bist.regions with
  | none => s.onChip (fun c => c.modLane l (fun n => { n with boot := { n.boot with fenced := true, fenceCode := 0x3103 } }))
  | some k => s.onChip (fun c =>
      let c := c.modLane l (fun n => { n with
        nvm := { n.nvm.setBank k (n.nvm.checked ((s.mem.get l).bank k) k) with booted := k }
        fault := { n.fault with writeIdx := ringIndex n.fault.ring, pass := ringPass n.fault.ring }
        power := { n.power with net := true, drive := true } })
      let c := if k ≠ n.nvm.marked then c.localFault l 0x3103 0x17 (2 + n.nvm.marked) l.idx else c
      let c := if c.dev.formed then (c.loadLane l).laneInert l else c.loadLane l
      c.modLane l (fun n => { n with boot := { n.boot with
        state := .ready, waitRuns := true, step := 5,
        wait := 1000000 * (Par.laneJoinWait.at n.nvm.loaded.ws 0).toNat } }))

def execLaneReady (l : LaneId) (s : State) : Out := .next (laneReady l s)

/-- LINK_TRAINING_DONE: the port forwards from now on (R104). -/
def linkTrainingDone (l : LaneId) (port : Fin 4) (c : Chip) : Chip :=
  if (c.lane l).power.net then c.modPort l port.val (fun p => { p with trained := true }) else c

def execLinkTrainingDone (l : LaneId) (port : Fin 4) (s : State) : Out := .next (s.onChip (linkTrainingDone l port))

/-! ### Discovery (R105 to R107) -/

/-- The state code of a discovery record (R105). -/
def JoinState.code : JoinState → Nat
  | .booting => 0 | .ready => 1 | .adopting => 2 | .admitted => 3 | .refused => 4

/-- A lane's computed check value: the agreed one while it is in authority, before that its own from its boot (R94, R105). -/
def Chip.laneCheck (c : Chip) (l : LaneId) : Nat := if c.dev.formed && c.inAuth l then c.dev.cfg.check else (c.lane l).boot.check

/-- The lane is commissioned by its own slot and check value (R96, R105). -/
def Chip.laneCommissioned (c : Chip) (l : LaneId) : Bool :=
  match (c.lane l).nvm.slotInForce with
  | some x => decide (x.value ≠ 0) && decide (x.value = c.laneCheck l)
  | none => false

/-- A lane's discovery record (R105), the remaining wait in whole µs. -/
def Chip.discOf (c : Chip) (l : LaneId) : DiscRec :=
  let n := c.lane l
  let b := n.nvm.bankState n.nvm.booted
  { lane := l, state := n.boot.state.code, copy := n.nvm.selected.getD 0xFF, fwVersion := b.version, fwSecurity := b.security,
    fwDigest := b.digest, imgSeq := (n.nvm.selectedCopy.map (·.seq)).getD 0, imgCrc := (n.nvm.selectedCopy.map (·.crc)).getD 0,
    confirmCount := (n.nvm.slotInForce.map (·.count)).getD 0, wait := min (n.boot.wait / 1000) 0xFFFFFFFF, check := c.laneCheck l,
    commissioned := c.laneCommissioned l }

/-- The three quads of a discovery record but for its CRC-32C (R105). -/
def discBody (x : DiscRec) : List Byte :=
  toLe 1 x.lane.idx ++ toLe 1 x.state ++ toLe 1 x.copy ++ toLe 1 0 ++ toLe 4 x.fwVersion ++ toLe 4 x.fwSecurity ++ toLe 4 x.fwDigest ++
    (toLe 4 x.imgSeq ++ toLe 4 x.imgCrc ++ toLe 4 x.confirmCount ++ toLe 4 x.wait) ++
    (toLe 8 x.check ++ toLe 1 (if x.commissioned then 1 else 0) ++ toLe 3 0)

/-- A discovery record as it travels (R105). -/
def discBytes (x : DiscRec) : List Byte := discBody x ++ toLe 4 (crc32c (discBody x ++ toLe 4 0))

/-- A discovery record read from 48 bytes whose CRC-32C matches (R105). -/
def discOfBytes (b : List Byte) : Option DiscRec :=
  match LaneId.ofIdx (fld b 0 1) with
  | none => none
  | some l =>
    if b.length = 48 ∧ fld b 44 4 = crc32c (b.take 44 ++ toLe 4 0) then
      some { lane := l, state := fld b 1 1, copy := fld b 2 1, fwVersion := fld b 4 4, fwSecurity := fld b 8 4, fwDigest := fld b 12 4,
             imgSeq := fld b 16 4, imgCrc := fld b 20 4, confirmCount := fld b 24 4, wait := fld b 28 4, check := fld b 32 8,
             commissioned := decide (fld b 40 1 = 1) }
    else none

end Sys2Proof.Machine

namespace Sys2Proof

/-- Two records name the same firmware (R106). -/
def DiscRec.sameFw (x y : DiscRec) : Bool :=
  decide (x.fwVersion = y.fwVersion ∧ x.fwSecurity = y.fwSecurity ∧ x.fwDigest = y.fwDigest)

/-- Two records name the same configuration (R106). -/
def DiscRec.sameCfg (x y : DiscRec) : Bool :=
  decide (x.imgSeq = y.imgSeq ∧ x.imgCrc = y.imgCrc ∧ x.confirmCount = y.confirmCount ∧ x.check = y.check) &&
    (x.commissioned == y.commissioned)

/-- Two records match in firmware and configuration. -/
def DiscRec.same (x y : DiscRec) : Bool := x.sameFw y && x.sameCfg y

end Sys2Proof

namespace Sys2Proof.Machine

/-- The best of a list under a preference, the first of equals. -/
def bestOf {α : Type} (better : α → α → Bool) : List α → Option α
  | [] => none
  | x :: xs => match bestOf better xs with
    | none => some x
    | some y => if better y x then some y else some x

/-- The record that prevails in firmware among ready lanes' records in ascending index (R107). -/
def prevailFw (rs : List DiscRec) : Option DiscRec :=
  match rs.find? (fun r => decide (2 ≤ (rs.filter (fun q => q.sameFw r)).length)) with
  | some r => some r
  | none => bestOf (fun x y => decide (y.fwSecurity < x.fwSecurity) ||
      (decide (x.fwSecurity = y.fwSecurity) && decide (y.fwVersion < x.fwVersion))) rs

/-- The record that prevails in configuration among those with the prevailing firmware (R107). -/
def prevailCfg (rs : List DiscRec) : Option DiscRec :=
  match rs.find? (fun r => decide (2 ≤ (rs.filter (fun q => q.sameCfg r)).length)) with
  | some r => some r
  | none => bestOf (fun x y => if x.copy = 0xFF then false else if y.copy = 0xFF then true else newer x.imgSeq y.imgSeq) rs

/-- The records of ready lanes that a lane knows, its own among them, in ascending index. DESIGN CHOICE (log 99): no rule says when the
record of a lane that fell silent ceases to count; the last one received does until another replaces it. -/
def Chip.known (c : Chip) (l : LaneId) : List DiscRec :=
  LaneId.all.filterMap (fun k =>
    if k = l then (if (c.lane l).boot.state = .ready then some (c.discOf l) else none)
    else match (c.lane l).boot.seen.get k with
      | some r => if r.state = 1 then some r else none
      | none => none)

/-- The record that a lane must match: the lanes in authority after formation (R115), the prevailing one before (R107). -/
def Chip.target (c : Chip) (l : LaneId) : Option DiscRec :=
  if c.dev.formed then (c.authLanes.filter (fun k => k != l)).head?.map c.discOf
  else
    let rs := c.known l
    match prevailFw rs with
    | none => none
    | some f => prevailCfg (rs.filter (fun r => r.sameFw f))

/-- A lane is refused: state 4, 0x0104, held in the fenced state of R10 (R109). -/
def Chip.refuse (c : Chip) (l : LaneId) : Chip :=
  let c := (c.localFault l 0x0104 0x01 l.idx l.idx).laneInert l
  let c := c.modLane l (fun n => { n with boot := { n.boot with state := .refused, fenced := true, fenceCode := 0x0104, waiting := false } })
  let c := if c.inAuth l then (c.fenceOne l 0x0104).setClass.linkRules else c
  c.modLane l (fun n => { n with boot := { n.boot with sent := some (c.discOf l) } })

/-- A ready lane compares itself with the record it must match, and adopts, is refused, or waits to join (R108, R109, R115). -/
def Chip.compareLane (c : Chip) (l : LaneId) : Chip :=
  if (c.lane l).boot.state ≠ .ready then c
  else match c.target l with
  | none => c
  | some t =>
    let own := c.discOf l
    if own.same t then
      if c.dev.formed then c.modLane l (fun n => { n with boot := { n.boot with waiting := true } }) else c
    else if (c.lane l).boot.adopted then c.refuse l
    else c.modLane l (fun n => { n with boot := { n.boot with state := .adopting, adoptFw := !own.sameFw t, adoptFrom := some t.lane } })

/-- DISCOVERY_SEND: the lane's record, three quads, goes out on both lane links (R12, R105). -/
def discoverySend (l : LaneId) (c : Chip) : Chip :=
  if (c.lane l).boot.state = .ready ∨ (c.lane l).boot.state = .adopting then
    (c.modLane l (fun n => { n with boot := { n.boot with sent := some (c.discOf l) } })).sendLinks l l.partners .background 3
  else c

def execDiscoverySend (l : LaneId) (s : State) : Out := .next (s.onChip (discoverySend l))

/-! ### Forming the first class (R110 to R116) -/

/-- The lanes that match the formation lane among those it knows. -/
def Chip.matching (c : Chip) (l : LaneId) : List LaneId :=
  match c.target l with
  | some t => ((c.known l).filter (fun r => r.same t)).map (·.lane)
  | none => []

/-- A lane is the formation lane as it sees it: ready, matching, lowest index (R110). -/
def Chip.isFormer (c : Chip) (l : LaneId) : Bool :=
  !c.dev.formed && decide ((c.lane l).boot.state = .ready) && decide ((c.matching l).head? = some l)

/-- The HOLD record slot in force (R460). -/
def Nvm.holdInForce (n : Nvm) : Option HoldSlot :=
  match n.hold0, n.hold1 with
  | some x, some y => if x.count < y.count then some y else some x
  | some x, none => some x
  | none, o => o

/-- A HOLD record written to the slot not in force (R460). -/
def Nvm.writeHold (n : Nvm) (hold : Bool) (cause : Nat) : Nvm :=
  match n.hold0, n.hold1 with
  | none, none => { n with hold0 := some { hold := hold, cause := cause, count := 1 } }
  | some x, none => { n with hold1 := some { hold := hold, cause := cause, count := (x.count + 1) % 2 ^ 32 } }
  | none, some y => { n with hold0 := some { hold := hold, cause := cause, count := (y.count + 1) % 2 ^ 32 } }
  | some x, some y =>
    if x.count < y.count then { n with hold0 := some { hold := hold, cause := cause, count := (y.count + 1) % 2 ^ 32 } }
    else { n with hold1 := some { hold := hold, cause := cause, count := (x.count + 1) % 2 ^ 32 } }

/-- The HOLD record of every lane in authority, with SNP.HOLD_PERSIST 1 (R460). -/
def Chip.writeHold (c : Chip) (hold : Bool) : Chip :=
  if c.par Par.snpHoldPersist = 1 then
    c.modLanes (fun l n => if c.inAuth l then { n with nvm := n.nvm.writeHold hold c.dev.snow.cause } else n)
  else c

/-- The agreed data at formation: every block as its enabling leaves it (R85, R110, R285). -/
def formedDev (cfg : CfgState) (m : Mask) (nt : Nat) : Dev :=
  { formed := true, cls := some (classOf m), authority := m, cfg := cfg, sn := nt,
    joined := if (lanesOf m).length = 1 then m else 0,
    loops := (List.range 64).map (fun n =>
      if Par.loopEnable.at cfg.ws n = 1 then
        { mode := .manual, manual := Par.loopOutInit.at cfg.ws n, out := Par.loopOutInit.at cfg.ws n } else {}) }

/-- The authority is formed from the named lanes (R110, R111, R113, R116), every other lane in the states of R10 (R118), in the wake state after a wake (R472); lane n is first
due for stand-down n + 1 thirds of BIST.INTERVAL after it (R507, log 40). -/
def Chip.form (c : Chip) (l : LaneId) (m : Mask) : Chip :=
  let pacing := ((lanesOf m).head?).getD l
  let nt := (c.lane pacing).clock.nt
  let never := LaneId.all.filter (fun k => decide ((c.lane k).boot.state = .booting))
  let cfg := (c.lane l).nvm.loaded
  let power : Power := if c.sleeping then
      { state := if Par.pwrWakeState.at cfg.ws 0 = 1 then .idle else .run, left := c.dev.power.state } else {}
  let interval := 1000000000 * (Par.bistInterval.at cfg.ws 0).toNat
  let c := { c with dev := { formedDev cfg m nt with power := power } }
  let c := if power.state = .idle then
      (c.modLanes (fun k n => if hasLane m k then { n with power := { n.power with drive := false } } else n)).modPintle (fun p => { p with drive := false })
    else c.modPintle (fun p => { p with drive := true })
  let c := c.modLanes (fun k n => { n with bist := { n.bist with
    elapsed := interval - interval * (k.idx + 1) / 3 } })
  let c := c.modLanes (fun k n => if hasLane m k then
    { n with boot := { n.boot with state := .admitted, waitRuns := false, fenced := false }, clock := { n.clock with nt := nt },
             chk := {}, round := {}, arriving := [] } else n)
  let c := c.modLanes (fun k n => if hasLane m k then { n with boot := { n.boot with sent := some (c.discOf k) } } else n)
  let c := c.modBridges (fun k b => if hasLane m k then
    { b with silent := false, waking := false, closing := false, edges := b.edges ||| bitMask 6,
             ioWidth := (Par.hostIoWidth.at cfg.ws k.idx).toNat } else b)
  let c := c.reportClass
  let c := [(0, cfg.tab0), (1, cfg.tab1)].foldl (fun c t => if stepUsed cfg.ws t.1 && tableFails cfg.ws t.1 t.2 then
      (c.modStep t.1 (fun x => { x with tableBad := true })).agreedFault 0x1206 0x06 t.1 0xFF else c) c
  let c := LaneId.all.foldl (fun c k => if !(hasLane m k) && (c.lane k).boot.powerGood then c.laneInert k else c) c
  let c := never.foldl (fun c k => c.localFault l 0x0101 0x01 k.idx k.idx) c
  let c := if classOf m = 0 then
      c.modLanes (fun _ n => { n with nvm := { n.nvm with minSecurity := max n.nvm.minSecurity (n.nvm.bankState n.nvm.booted).security } })
    else c
  let held := (lanesOf m).any (fun k => ((c.lane k).nvm.holdInForce.map (·.hold)).getD false)
  if classOf m = 2 ∨ held = true then
    ((c.modSnow (fun w => { w with step := 4, cause := 12 })).agreedFault 0x0602 0 12 0xFF).writeHold true
  else c

/-- The formation lane sends a formation record that names lanes; alone, it forms at once (R110). -/
def Chip.sendFormation (c : Chip) (l : LaneId) (m : Mask) : Chip :=
  if lanesOf m = [l] then c.form l m
  else (c.modDev (fun d => { d with formation := some m, formAcks := 0 })).modLanes (fun _ n => { n with boot := { n.boot with acked := false } })

/-- The mask of a list of lanes. -/
def maskOf (ls : List LaneId) : Mask := ls.foldl (fun m l => setLaneBit m l true) 0

/-- The formation lane sends its record when all three lanes match, or when its wait has reached zero, also one that ran out before it
became the formation lane (R110). -/
def Chip.tryForm (c : Chip) (l : LaneId) : Chip :=
  if c.isFormer l && c.dev.formation.isNone && (decide ((c.matching l).length = 3) || decide ((c.lane l).boot.wait = 0)) then c.sendFormation l (maskOf (c.matching l)) else c

/-- The lower of two waits when the sender is ready and matches (R110). -/
def Chip.lowerWait (c : Chip) (rx : LaneId) (r : DiscRec) : Chip :=
  if r.state = 1 ∧ (c.discOf rx).same r = true then
    c.modLane rx (fun n => { n with boot := { n.boot with wait := min n.boot.wait (1000 * r.wait) } })
  else c

/-- A discovery record taken by a lane that is not booting. -/
def Chip.takeRecord (c : Chip) (rx : LaneId) (r : DiscRec) : Chip :=
  if (c.lane rx).boot.state = .booting ∨ (c.lane rx).boot.state = .refused then c
  else
    let c := c.modLane rx (fun n => { n with boot := { n.boot with seen := n.boot.seen.set r.lane (some r) } })
    ((c.lowerWait rx r).compareLane rx).tryForm rx

/-- DISCOVERY_RECORD: a record whose CRC-32C fails is not taken (R105, R107). -/
def discoveryRecord (rx tx : LaneId) (d : Rx (List Byte)) (c : Chip) : Chip :=
  if rx = tx then c
  else match d with
  | .corrupt => c
  | .intact => (match (c.lane tx).boot.sent with
    | some r => c.takeRecord rx r
    | none => c)
  | .other b => (match discOfBytes b with
    | some r => c.takeRecord rx { r with lane := tx }
    | none => c)

def execDiscoveryRecord (rx tx : LaneId) (d : Rx (List Byte)) (s : State) : Out := .next (s.onChip (discoveryRecord rx tx d))

/-- The configuration of a lane copied into another: image into the copy not selected, which is then selected, and slot in force into
the other slot (R108). -/
def Nvm.adopt (n src : Nvm) : Nvm :=
  let n := match src.selectedCopy with
    | some g => let k := n.nextCopy; { (n.setCopy k g) with selected := some k }
    | none => { n with selected := none }
  match src.slotInForce with
  | none => n
  | some x => match n.slot0, n.slot1 with
    | some a, some b => if a.count < b.count then { n with slot0 := some x } else { n with slot1 := some x }
    | some _, none => { n with slot1 := some x }
    | none, _ => { n with slot0 := some x }

/-- ADOPTION_DONE: the lane is ready again, reboots into the adopted firmware, whose package it has verified, or is refused (R108, R109).
The record 0x0103 is formed as the new boot begins, since a boot keeps no record that waits. -/
def adoptionDone (l : LaneId) (ok : Bool) (s : State) : State :=
  let n := s.chip.lane l
  if n.boot.state ≠ .adopting then s
  else match n.boot.adoptFrom with
  | none => s
  | some k =>
    let src := (s.chip.lane k).nvm
    if !ok then s.onChip (fun c => c.refuse l)
    else if n.boot.adoptFw then
      let b := n.nvm.idleBank
      let n' := n.nvm.setBank b (src.bankState src.booted)
      if !(bankPasses n' ((s.mem.get k).bank src.booted) b) then s.onChip (fun c => c.refuse l)
      else
      let s := s.onMem l (fun m => if b = 0 then { m with bank0 := (s.mem.get k).bank src.booted } else { m with bank1 := (s.mem.get k).bank src.booted })
      let s := s.onChip (fun c => c.modLane l (fun n => { n with nvm := { n' with marked := b } }))
      (s.rebootLane l).onChip (fun c =>
        (c.modLane l (fun n => { n with boot := { n.boot with adopted := true } })).localFault l 0x0103 0x01 l.idx l.idx)
    else s.onChip (fun c =>
      let c := (c.localFault l 0x0102 0x01 l.idx l.idx).modLane l (fun n => { n with nvm := n.nvm.adopt src })
      let c := c.modLane l (fun n => { n with boot := { n.boot with state := .ready, adopted := true, check := n.nvm.loaded.check } })
      (c.compareLane l).tryForm l)

def execAdoptionDone (l : LaneId) (ok : Bool) (s : State) : Out := .next (adoptionDone l ok s)

/-- FORMATION_WAIT_EXPIRY: the formation lane names the lanes that match it at that moment (R110). -/
def formationWaitExpiry (l : LaneId) (c : Chip) : Chip :=
  if !(c.lane l).boot.waitRuns then c
  else
    let c := c.modLane l (fun n => { n with boot := { n.boot with wait := 0, waitRuns := false } })
    if c.isFormer l && c.dev.formation.isNone then c.sendFormation l (maskOf (c.matching l)) else c

def execFormationWaitExpiry (l : LaneId) (s : State) : Out := .next (s.onChip (formationWaitExpiry l))

/-- FORMATION_RECORD: a named ready lane acknowledges it (R110). -/
def formationRecord (l : LaneId) (c : Chip) : Chip :=
  match c.dev.formation with
  | none => c
  | some m => if hasLane m l && decide ((c.lane l).boot.state = .ready) then
      c.modLane l (fun n => { n with boot := { n.boot with acked := true } }) else c

def execFormationRecord (l : LaneId) (s : State) : Out := .next (s.onChip (formationRecord l))

/-- The formation is complete when every named lane but the formation lane has acknowledged. -/
def Chip.formIfAcked (c : Chip) : Chip :=
  match c.dev.formation with
  | none => c
  | some m => match lanesOf m with
    | [] => c
    | l :: rest => if rest.all (fun k => hasLane c.dev.formAcks k) then c.form l m else c

/-- FORMATION_ACK: the formation lane receives a named lane's acknowledgement (R110). -/
def formationAck (l : LaneId) (c : Chip) : Chip :=
  if c.dev.formation.isSome && (c.lane l).boot.acked then
    (c.modDev (fun d => { d with formAcks := setLaneBit d.formAcks l true })).formIfAcked
  else c

def execFormationAck (l : LaneId) (s : State) : Out := .next (s.onChip (formationAck l))

/-- FORMATION_ACK_TIMEOUT: the lane is left out and a corrected record goes out (R110). -/
def formationAckTimeout (l : LaneId) (c : Chip) : Chip :=
  match c.dev.formation with
  | none => c
  | some m => match lanesOf m with
    | [] => c
    | f :: rest => if rest.contains l && !(hasLane c.dev.formAcks l) then c.sendFormation f (setLaneBit m l false) else c

def execFormationAckTimeout (l : LaneId) (s : State) : Out := .next (s.onChip (formationAckTimeout l))

end Sys2Proof.Machine
end

