-- ==== Sys2Proof/Machine/Fault.lean ====
section
/-! DEFINITION. Fault records and their ring, lane fencing for service and readmission, and the evidence that lanes collect
about silent partners (chapter 17). -/

namespace Sys2Proof.Machine

open Sys2Proof

/-! ### The ring and its queue (R431, R434 to R438) -/

/-- RECORD_WRITE: the oldest queued record is written to the ring, at most four in a matrix cycle; drops since the last write
are recorded as 0x0501 (R436). -/
def recordWrite (l : LaneId) (c : Chip) : Chip :=
  let q := (c.lane l).fault
  match q.queue with
  | [] => c
  | r :: rest =>
    if 4 ≤ q.writes || (c.lane l).bist.regions.contains 24 then c
    else
      let slot := q.writeIdx
      let q' : Collector := { q with
        queue := rest
        ring := (q.ring.filter (fun e => e.1 != slot)) ++ [(slot, q.pass, r)]
        writeIdx := (slot + 1) % 4096
        pass := if slot = 4095 then !q.pass else q.pass
        writes := q.writes + 1
        droppedNow := 0 }
      let c := c.modLane l (fun n => { n with fault := q' })
      if q.droppedNow = 0 then c
      else c.recordIn l { code := 0x0501, cls := 1, utype := 0x01, inst := l.idx, lane := l.idx, count := q.droppedNow, nt := (c.lane l).clock.nt }

def execRecordWrite (l : LaneId) (s : State) : Out := .next (s.onLane l (recordWrite l))

/-- MERGE_TIME_EXPIRY: an open record closes and waits to be written (R431). -/
def mergeTimeExpiry (l : LaneId) (code t i die : Nat) (agreed : Bool) (c : Chip) : Chip :=
  let key : FaultRec := { code := code, utype := t, inst := i, lane := die, agreed := agreed }
  let q := (c.lane l).fault
  match q.opened.find? (fun r => r.same key) with
  | none => c
  | some r => c.modLane l (fun n => { n with fault := { q with opened := q.opened.filter (fun x => !x.same key) }.enqueue r })

def execMergeTimeExpiry (l : LaneId) (code t i die : Nat) (agreed : Bool) (s : State) : Out :=
  .next (s.onLane l (mergeTimeExpiry l code t i die agreed))

/-- A record put before the first one that was formed earlier. -/
def insertByOrd (r : FaultRec) : List FaultRec → List FaultRec
  | [] => [r]
  | x :: xs => if x.ord < r.ord then r :: x :: xs else x :: insertByOrd r xs

/-- Records ordered from the newest formed to the oldest. -/
def sortByOrd (rs : List FaultRec) : List FaultRec := rs.foldl (fun acc r => insertByOrd r acc) []

/-- Every record of a lane, newest first: those formed since the boot by the moment of their forming, then the ring's older
ones from the write index back (R437). -/
def Collector.newestFirst (q : Collector) : List FaultRec :=
  let ring := q.ring.map (fun e => e.2.2)
  let fresh := sortByOrd (q.opened ++ q.queue ++ ring.filter (fun r => decide (0 < r.ord)))
  let old := (List.range 4096).filterMap (fun k =>
    (q.ring.find? (fun e => e.1 == (q.writeIdx + 4095 - k) % 4096 && e.2.2.ord == 0)).map (fun e => e.2.2))
  fresh ++ old

def attrRecordRead : OpAttr := { code := 0x0510, laneLocal := true, read := true, row := .always }

def checksRecordRead (r : Req) (_ : Chip) : List Nat :=
  quadFails r.body 4 ++
    (if fld r.body 2 2 = 0 ∨ 4080 < 16 * fld r.body 2 2 * r.lanes.length then [stBadParam] else [])

/-- One lane's section: count records from a start, empty quads beyond the oldest (R437). -/
def recordSection (q : Collector) (start count : Nat) : List Byte :=
  bytesAt (((q.newestFirst.drop start).take count).flatMap FaultRec.quad) 0 (16 * count)

def effectRecordRead (r : Req) (s : State) : OpOut :=
  OpOut.same s (r.lanes.flatMap (fun l => recordSection (s.chip.lane l).fault (fld r.body 0 2) (fld r.body 2 2)))

/-- FLT.RECORD_READ (R437). -/
def execRecordRead (r : Req) (s : State) : Out := .next (runOp attrRecordRead checksRecordRead effectRecordRead r s)

/-! ### Fencing for service and readmission (R442, R443) -/

def attrLaneFence : OpAttr := { code := 0x0110, laneLocal := true, keyed := true, acc := .parked, right := some 2 }

def checksLaneFence (r : Req) (c : Chip) : List Nat :=
  payloadFails r.body 0 ++ (if r.mask = 0 then [stBadParam] else []) ++
    (if c.authLanes.all (fun l => r.lanes.contains l) then [stDenied] else [])

def effectLaneFence (r : Req) (s : State) : OpOut :=
  OpOut.chip s (fun c => r.lanes.foldl (fun c l => c.pendFence l 0x010A) c)

/-- LANE.FENCE: the selected lanes are fenced from the next S (R443). -/
def execLaneFence (r : Req) (s : State) : Out := .next (runOp attrLaneFence checksLaneFence effectLaneFence r s)

/-- A unit fenced in every lane in authority stays fenced in a lane that rejoins (R440). -/
def Chip.inheritFences (c : Chip) (l : LaneId) : Chip :=
  let ks := c.authLanes.filter (fun k => k != l)
  if ks = [] then c
  else [(0x09, 8), (0x10, 8), (0x11, 2), (0x12, 4), (0x13, 1)].foldl (fun c (u : Nat × Nat) =>
    (List.range u.2).foldl (fun c i => if ks.all (fun k => c.unitFenced k u.1 i) then c.setUnitFence l u.1 i true else c) c) c

/-- A joining lane enters step 1 of R157 at the next S (R115, R160); one that wakes has finished waking (R70). -/
def Chip.startRejoin (c : Chip) (l : LaneId) : Chip :=
  ((c.inheritFences l).modLane l (fun n => { n with
    boot := { n.boot with state := .admitted, waiting := false, fenced := false, halted := false }
    chk := { n.chk with resyncPend := true, joining := true, resync := 0, resyncAge := 0, snapshot := false, source := none }
    round := {}, arriving := [] })).modBridge l (fun b =>
      { b with silent := false, waking := false, edges := if b.waking then b.edges ||| bitMask 6 else b.edges })

/-- The result of LANE.READMIT for a lane that is decided at execution (R442). -/
def Chip.readmitNow (c : Chip) (l : LaneId) : Option Nat :=
  let b := (c.lane l).boot
  if b.state = .refused then some stDenied
  else if b.fenced ∧ c.parN Par.fltReadmitMax ≤ b.readmits then some stDenied
  else if b.fenced then none
  else if b.waiting ∧ c.par Par.laneLateJoin = 0 then none
  else some stOk

/-- The payload of a final LANE.READMIT reply: one quad for each selected lane (R442). -/
def readmitPayload (lanes : List LaneId) (res : Tri (Option Nat)) : List Byte :=
  lanes.flatMap (fun l => toLe 1 ((res.get l).getD 0) ++ toLe 15 0)

/-- The status of a readmission: OK when every result is OK (R442). -/
def readmitStatus (lanes : List LaneId) (res : Tri (Option Nat)) : Nat :=
  (pickStatus ((lanes.map (fun l => (res.get l).getD 0)).filter (fun x => x != 0))).getD stOk

/-- A lane's result of a pending readmission; the reply follows when the last one is known (R442). -/
def Chip.readmitResult (c : Chip) (l : LaneId) (st : Nat) : Chip :=
  (c.dev.pend.filter (fun p => p.opcode == 0x0111 && hasLane p.lanes l && (p.results.get l).isNone)).foldl (fun c p =>
    let q := { p with results := p.results.set l (some st) }
    let c := c.modDev (fun d => { d with pend := d.pend.map (fun x => if x = p then q else x) })
    if (lanesOf q.lanes).all (fun k => (q.results.get k).isSome) then
      c.finalReply q (readmitStatus (lanesOf q.lanes) q.results) (readmitPayload (lanesOf q.lanes) q.results)
    else c) c

def attrLaneReadmit : OpAttr :=
  { code := 0x0111, laneLocal := true, anyLane := true, keyed := true, acc := .parked, pend := true, right := some 2 }

def checksLaneReadmit (r : Req) (c : Chip) : List Nat :=
  payloadFails r.body 0 ++ (if c.authLanes = [] then [stDenied] else [])

def effectLaneReadmit (r : Req) (s : State) : OpOut :=
  let res : Tri (Option Nat) := (Tri.all ()).mapIdx (fun l _ => if r.lanes.contains l then s.chip.readmitNow l else none)
  if r.lanes.all (fun l => (res.get l).isSome) then
    { st := s, status := readmitStatus r.lanes res, payload := readmitPayload r.lanes res }
  else
    { st := s.onChip (fun c =>
        let c := r.lanes.foldl (fun c l => if (res.get l).isNone then
          (if (c.lane l).boot.fenced then c.modLane l (fun n => { n with boot := { n.boot with restartSent := true } })
           else c.startRejoin l) else c) c
        c.addPend 0x0111 r { lanes := maskOf r.lanes, results := res }),
      status := stPending }

/-- LANE.READMIT: each selected lane judged on its own (R442). -/
def execLaneReadmit (r : Req) (s : State) : Out := .next (runOp attrLaneReadmit checksLaneReadmit effectLaneReadmit r s)

/-- RESTART_ACK: the AON restarts the lane, which runs phases 2 and 3 of the self-test before its boot (R442, R512). -/
def restartAck (l : LaneId) (s : State) : State :=
  if !(s.chip.lane l).boot.restartSent then s
  else
    let old := s.chip.lane l
    let s := s.rebootLane l
    s.onChip (fun c => c.modLane l (fun n => { n.keepFences old with
      boot := { n.boot with readmitting := true, readmits := n.boot.readmits + 1 }
      bist := { n.bist with phase := 2 } }))

def execRestartAck (l : LaneId) (s : State) : Out := .next (restartAck l s)

/-- READMIT_ACK_TIMEOUT: the lane's result is FENCED (R442). -/
def readmitAckTimeout (l : LaneId) (c : Chip) : Chip :=
  if (c.lane l).boot.restartSent then
    (c.modLane l (fun n => { n with boot := { n.boot with restartSent := false } })).readmitResult l stFenced
  else c

def execReadmitAckTimeout (l : LaneId) (s : State) : Out := .next (s.onChip (readmitAckTimeout l))

/-- READMIT_READY_TIMEOUT: a restarted lane that is not ready within 1 s has the result FENCED (R442). -/
def readmitReadyTimeout (l : LaneId) (c : Chip) : Chip :=
  let b := (c.lane l).boot
  if b.readmitting && decide (b.state = .booting ∨ b.state = .adopting) then
    (c.modLane l (fun n => { n with boot := { n.boot with readmitting := false } })).readmitResult l stFenced
  else c

def execReadmitReadyTimeout (l : LaneId) (s : State) : Out := .next (s.onChip (readmitReadyTimeout l))

/-- Readmissions that have failed: the lane refused or fenced again before its first passing record (R442). -/
def Chip.readmitCheck (c : Chip) : Chip :=
  LaneId.all.foldl (fun c l =>
    let b := (c.lane l).boot
    if b.fenced && !b.restartSent && c.dev.pend.any (fun p => p.opcode == 0x0111 && hasLane p.lanes l && (p.results.get l).isNone) then
      c.readmitResult l stFenced
    else c) c

/-! ### Silent and self-fenced lanes (R432, R433) -/

/-- Something has arrived from a partner: its silence mark goes. -/
def Chip.heardFrom (c : Chip) (rx tx : LaneId) : Chip :=
  c.modLane rx (fun n => { n with silent := setLaneBit n.silent tx false })

/-- KEEP_ALIVE: the receiver has heard from the sender (R432, R433). -/
def keepAlive (tx rx : LaneId) (c : Chip) : Chip :=
  if tx = rx || (c.linkAt (linkIdx tx rx)).fenced || (c.lane tx).boot.halted then c else c.heardFrom rx tx

def execKeepAlive (tx rx : LaneId) (s : State) : Out := .next (s.onChip (keepAlive tx rx))

/-- FENCE_NOTICE: a valid notice of a lane that fenced itself is held (R432, R433). -/
def fenceNotice (rx tx : LaneId) (q : Rx Nat) (c : Chip) : Chip :=
  let valid := match q with
    | .corrupt => false
    | .intact => (c.lane tx).boot.halted
    | .other _ => true
  if valid && decide (rx ≠ tx) && !(c.linkAt (linkIdx tx rx)).fenced && c.laneLive rx then
    (c.heardFrom rx tx).modLane rx (fun n => { n with notices := setLaneBit n.notices tx true })
  else c

def execFenceNotice (rx tx : LaneId) (q : Rx Nat) (s : State) : Out := .next (s.onChip (fenceNotice rx tx q))

/-- PARTNER_SILENT: a partner has sent nothing for FLT.SILENT_TIME (R433). -/
def partnerSilent (l partner : LaneId) (c : Chip) : Chip :=
  if l = partner || !(c.inAuth l) || !(c.inAuth partner) || decide (c.dev.standdown = some partner) then c
  else if hasLane (c.lane l).silent partner then c
  else c.modLane l (fun n => { n with silent := setLaneBit n.silent partner true, silentAt := n.silentAt.set partner c.dev.count })

def execPartnerSilent (l partner : LaneId) (s : State) : Out := .next (s.onChip (partnerSilent l partner))

/-- The witnesses of a lane: the other lanes in authority whose presence quads of the period have arrived (R433). -/
def Chip.witnesses (c : Chip) (n : LaneId) : List LaneId := c.authLanes.filter (fun w => w != n && (c.lane w).round.sent)

/-- The decision of R433 for one lane from its witnesses' presence quads. -/
def Chip.silenceOf (c : Chip) (n : LaneId) : Option (LaneId × Nat) :=
  let ws := (c.witnesses n).map (fun w => (c.lane w).round.presence)
  if ws.any (fun q => hasLane q.notice n) then some (n, 0x0110)
  else match ws with
    | [p, q] => if hasLane p.silent n && hasLane q.silent n then some (n, 0x010F) else none
    | [p] => if hasLane p.silent n && !(c.pintle.lanes.get n).presents then some (n, 0x010F) else none
    | _ => none

/-- The lanes that the presence quads of the period fence from its S (R433). -/
def Chip.silenceDecisions (c : Chip) : Chip := c.fenceLanes (c.authLanes.filterMap c.silenceOf)

/-- SILENT_LINK_EXPIRY: a lane marked silent by its one witness still presents two control periods after the mark was first set, and the
link is treated as fenced (R433). -/
def silentLinkExpiry (l partner : LaneId) (c : Chip) : Chip :=
  if l ≠ partner ∧ hasLane (c.lane l).silent partner = true ∧ c.inAuth l = true ∧ c.inAuth partner = true ∧
      c.witnesses partner = [l] ∧ (c.lane l).silentAt.get partner + 2 ≤ c.dev.count ∧ (c.pintle.lanes.get partner).presents = true then
    c.fenceLink (linkIdx l partner)
  else c

def execSilentLinkExpiry (l partner : LaneId) (s : State) : Out := .next (s.onChip (silentLinkExpiry l partner))

end Sys2Proof.Machine
end

