-- ==== Sys2Proof/Machine/Frames.lean ====
section
/-! DEFINITION. Frames on the wire (R304, R305, R338): the bytes of an Ocgal frame from its destination address to its FCS, and what a
port reads from them. -/

namespace Sys2Proof.Machine

open Sys2Proof

/-- The CRC-32 of IEEE 802.3, the FCS of a frame (R304). -/
def crc32 (bs : List Byte) : Nat := crcFold 0xEDB88320 0xFFFFFFFF bs ^^^ 0xFFFFFFFF

/-- Two bytes in the order of IEEE 802.3, the high one first (R304). -/
def be2 (n : Nat) : List Byte := [BitVec.ofNat 8 (n / 256), BitVec.ofNat 8 n]

/-- The destination address of Ocgal frames on a plane (R304). -/
def frameDest (plane : Nat) : List Byte := [0x03, 0x4F, 0x43, 0, 0, BitVec.ofNat 8 plane]

/-- The destination address of probe frames on a plane (R338). -/
def probeDest (plane : Nat) : List Byte := [0x03, 0x4F, 0x43, 0, 1, BitVec.ofNat 8 plane]

/-- The source address of a station on a plane (R304). -/
def frameSource (plane node : Nat) : List Byte := [0x02, 0x4F, 0x43, BitVec.ofNat 8 plane] ++ be2 node

/-- A frame closed by its FCS, the lowest byte of the CRC first on the wire (R304). -/
def frameClosed (b : List Byte) : List Byte := b ++ toLe 4 (crc32 b)

/-- The header quad of an Ocgal frame (R305). -/
structure FrameHead where
  node : Nat := 0
  typ : Nat := 1
  flags : Mask := 0
  slot : Nat := 0
  counter : Nat := 0
  quads : Nat := 0
  matrix : Nat := 0
  word : Nat := 0
  deriving DecidableEq, Repr, Inhabited

/-- The bytes of a header quad (R305). -/
def FrameHead.bytes (h : FrameHead) : List Byte :=
  toLe 2 h.node ++ toLe 1 h.typ ++ toLe 1 h.flags.toNat ++ toLe 2 h.slot ++ toLe 1 h.counter ++ toLe 1 h.quads ++ toLe 4 h.matrix ++ toLe 4 h.word

/-- A payload padded with zero quads to at least two (R304). -/
def framePayload (p : List Byte) : List Byte := p ++ List.replicate (32 - p.length) 0

/-- An Ocgal frame from its destination address to its FCS (R304). -/
def frameBytes (plane ether : Nat) (h : FrameHead) (payload : List Byte) : List Byte :=
  frameClosed (frameDest plane ++ frameSource plane h.node ++ be2 ether ++ h.bytes ++ framePayload payload)

/-- A probe frame, its body padded to the minimum frame size (R338). -/
def probeBytes (plane node ether : Nat) (body : List Byte) : List Byte :=
  frameClosed (probeDest plane ++ frameSource plane node ++ be2 ether ++ body ++ List.replicate (46 - body.length) 0)

/-- A frame as a port reads it: whether its FCS is correct, its length in bytes and its fields (R304, R305). -/
structure Frame where
  sound : Bool
  length : Nat
  dest : List Byte
  etherType : Nat
  node : Nat
  typ : Nat
  flags : Mask
  slot : Nat
  counter : Nat
  quads : Nat
  matrix : Nat
  word : Nat
  payload : List Byte
  deriving DecidableEq, Repr

/-- The frame read from its bytes (R304, R305). -/
def frameOf (b : List Byte) : Frame :=
  { sound := decide (18 ≤ b.length) && decide (fld b (b.length - 4) 4 = crc32 (b.take (b.length - 4))), length := b.length, dest := b.take 6
    etherType := 256 * fld b 12 1 + fld b 13 1, node := fld b 14 2, typ := fld b 16 1, flags := BitVec.ofNat 8 (fld b 17 1), slot := fld b 18 2
    counter := fld b 20 1, quads := fld b 21 1, matrix := fld b 22 4, word := fld b 26 4, payload := (b.drop 30).take (b.length - 34) }

/-- A frame's time on the wire in ns with its preamble (R304). -/
def frameSpan (b : List Byte) : Nat := 8 * (8 + b.length)

/-- The least idle time after a frame in ns (R304). -/
def frameIdle : Nat := 96

/-- The time from the first bit of a frame to its start-frame delimiter in ns (R304, R337). -/
def sfdLag : Nat := 56

/-- A frame sent again in another basic cycle: its counts are those of that cycle (R305). -/
def frameAgain (b : List Byte) (counter matrix : Nat) : List Byte :=
  frameClosed (b.take 20 ++ toLe 1 counter ++ bytesAt b 21 1 ++ toLe 4 matrix ++ (b.drop 26).take (b.length - 30))

/-- An own Ocgal frame sent with a further flag; another frame is left as it is (R305, R322). -/
def frameFlagged (b : List Byte) (m : Mask) : List Byte :=
  if fld b 4 1 = 0 then frameClosed (b.take 17 ++ toLe 1 ((BitVec.ofNat 8 (fld b 17 1)) ||| m).toNat ++ (b.drop 18).take (b.length - 22)) else b

end Sys2Proof.Machine
end

