-- ==== Sys2Proof/Machine/Vector.lean ====
section
/-! DEFINITION. The agreement rule (R128 to R136): each item of the lanes' sample vectors agreed by the rule of its category,
with outliers, conflicts and items without a value. -/

namespace Sys2Proof.Machine

open Sys2Proof

/-- What the rule of a category makes of the values given: the value taken, the lanes that are outliers of three, and the
two lanes that differ. -/
structure Verdict (α : Type) where
  value : Option α := none
  outliers : List LaneId := []
  differ : List LaneId := []
  givers : Nat := 0

/-- The middle of three numbers. -/
def mid3 (x y z : Int) : Int := max (min x y) (min (max x y) z)

/-- A number's distance from another. -/
def dist (x y : Int) : Int := if x ≤ y then y - x else x - y

/-- Numbers with a tolerance: mid-value, mean of two rounded toward zero, or the higher claim's (ANA, TIM). -/
def Chip.agreeNum (c : Chip) (tol : Int) (vs : List (LaneId × Int)) : Verdict Int :=
  match vs with
  | [] => {}
  | [(_, x)] => { value := some x, givers := 1 }
  | [(l, x), (m, y)] =>
    if dist x y ≤ tol then { value := some (quo (x + y) 2), givers := 2 }
    else { value := some (if c.higher l m then x else y), differ := [l, m], givers := 2 }
  | (l, x) :: (m, y) :: (n, z) :: _ =>
    let v := mid3 x y z
    { value := some v, outliers := ([(l, x), (m, y), (n, z)].filter (fun e => decide (tol < dist e.2 v))).map (·.1), givers := 3 }

/-- Counts modulo 2^32, compared as signed differences from the first lane's value (CNT, R132). -/
def Chip.agreeCnt (c : Chip) (tol : Int) (vs : List (LaneId × Int)) : Verdict Int :=
  match vs with
  | [] => {}
  | (l, r) :: rest =>
    let d := c.agreeNum tol ((l, 0) :: rest.map (fun e => (e.1, signedOf 32 (unsignedOf 32 (e.2 - r)))))
    { d with value := d.value.map (fun x => signedOf 32 (unsignedOf 32 (r + x))) }

/-- Values taken when equal (PSN numbers with the middle of three; a difference of two is a conflict). -/
def Chip.agreeEqual (c : Chip) (vs : List (LaneId × Int)) : Verdict Int := c.agreeNum 0 vs

/-- The majority of three masks, bit by bit. -/
def majority (x y z : Mask) : Mask := (x &&& y) ||| (y &&& z) ||| (x &&& z)

/-- Bits: majority of three, two taken when equal (BIT, PSN bits). -/
def Chip.agreeBits (c : Chip) (vs : List (LaneId × Mask)) : Verdict Mask :=
  match vs with
  | [] => {}
  | [(_, x)] => { value := some x, givers := 1 }
  | [(l, x), (m, y)] =>
    if x = y then { value := some x, givers := 2 }
    else { value := some (if c.higher l m then x else y), differ := [l, m], givers := 2 }
  | (l, x) :: (m, y) :: (n, z) :: _ =>
    let v := majority x y z
    { value := some v, outliers := ([(l, x), (m, y), (n, z)].filter (fun e => e.2 != v)).map (·.1), givers := 3 }

/-- One flag of each lane as a verdict. -/
def Chip.agreeFlag (c : Chip) (vs : List (LaneId × Bool)) : Verdict Bool :=
  let v := c.agreeBits (vs.map (fun e => (e.1, if e.2 then 1#8 else 0#8)))
  { value := v.value.map (fun m => m != 0#8), outliers := v.outliers, differ := v.differ, givers := v.givers }

/-- A lane has the majority's say over a list that lanes report: of three by two, of two the higher claim's list, of one its own
(PSN, R128). -/
def Chip.agreeList {α : Type} [DecidableEq α] (c : Chip) (vs : List (LaneId × List α)) : List α :=
  match vs with
  | [] => []
  | [(_, x)] => x
  | [(l, x), (m, y)] => if c.higher l m then x else y
  | (_, x) :: (_, y) :: (_, z) :: _ => ((x ++ y ++ z).filter (fun f => decide (2 ≤ ([x, y, z].filter (·.contains f)).length))).eraseDups

/-! ### Faults of the rule (R129, R136) -/

/-- Outlier records of an item's unit: 0x0301 for one of three, 0x0302 for each of two, each unit once in a period. -/
def Chip.verdictFaults (c : Chip) (t i : Nat) (out differ : List LaneId) : Chip :=
  let c := out.foldl (fun c l => c.agreedFault 0x0301 t i l.idx) c
  differ.foldl (fun c l => c.agreedFault 0x0302 t i l.idx) c

/-- A unit's fence decided now and taken at the next S (R136). -/
def Chip.pendUnit (c : Chip) (l : LaneId) (t i : Nat) : Chip :=
  c.modDev (fun d => { d with unitPend := if d.unitPend.contains (l.idx, t, i) then d.unitPend else d.unitPend ++ [(l.idx, t, i)] })

/-- The unit fences that have waited for S (R136). -/
def Chip.takeUnitFences (c : Chip) : Chip :=
  let us := c.dev.unitPend
  us.foldl (fun c u => match LaneId.ofIdx u.1 with
    | some l => c.setUnitFence l u.2.1 u.2.2 true
    | none => c) (c.modDev (fun d => { d with unitPend := [] }))

/-- The count of consecutive outliers of a unit in each lane: raised, or back to zero; at the limit the unit is fenced there
with 0x0303, from the next round on (R136). -/
def Chip.countOutliers (c : Chip) (t i : Nat) (out : List LaneId) : Chip :=
  LaneId.all.foldl (fun c l =>
    let key := (l.idx, t, i)
    let n := ((c.dev.outliers.find? (fun e => e.1 == key)).map (·.2)).getD 0
    let rest := c.dev.outliers.filter (fun e => e.1 != key)
    if out.contains l then
      let c := c.modDev (fun d => { d with outliers := rest ++ [(key, n + 1)] })
      if c.parN Par.perOutlierLimit ≤ n + 1 ∧ c.unitFenced l t i = false then (c.pendUnit l t i).agreedFault 0x0303 t i l.idx
      else c
    else if n = 0 then c else c.modDev (fun d => { d with outliers := rest })) c

/-- The faults and counts of one unit from all the verdicts of its items. -/
def Chip.unitVerdict (c : Chip) (t i : Nat) (outs differs : List (List LaneId)) : Chip :=
  let out := LaneId.all.filter (fun l => outs.any (fun x => x.contains l))
  let differ := LaneId.all.filter (fun l => differs.any (fun x => x.contains l))
  (c.verdictFaults t i out differ).countOutliers t i out

/-- An item after its verdict: the value taken, or the last one kept, older and not valid (R129). -/
def Item.take (x : Item) (v : Option Int) : Item :=
  match v with
  | some n => { v := n, valid := true, age := 0 }
  | none => { x with valid := false, age := x.age + 1 }

/-! ### The items -/

/-- The S-parts of the lanes in the agreement set. -/
def Chip.parts (c : Chip) : List (LaneId × SPart) := (lanesOf c.dev.aset).map (fun l => (l, (c.lane l).round.own))

/-- ADC inputs: shared ones agreed as ANA; every lane's own value is kept beside, and an owned input that is fenced in its lane has no
value (R128, R129). -/
def Chip.agreeAdc (c : Chip) : Chip :=
  let ps := c.parts
  (List.range 16).foldl (fun c k =>
    let own := c.dev.agreed.adcOwn.mapIdx (fun l xs => match ps.find? (fun e => e.1 == l) with
      | some (_, p) => if c.unitFenced l 0x0A k then modNth xs k (fun x => x.take none) else modNth xs k (fun x => x.take (some (nth p.adc k 0)))
      | none => modNth xs k (fun x => x.take none))
    let c := c.modDev (fun d => { d with agreed := { d.agreed with adcOwn := own } })
    if c.par Par.perAdcShare k = 1 then
      let v := c.agreeNum (c.par Par.perTolAdc k) ((ps.filter (fun e => !c.unitFenced e.1 0x0A k)).map (fun e => (e.1, (nth e.2.adc k 0 : Int))))
      let c := c.modDev (fun d => { d with agreed := { d.agreed with adc := modNth d.agreed.adc k (fun x => x.take v.value) } })
      let c := c.unitVerdict 0x0A k [v.outliers] [v.differ]
      if v.value.isNone then c.agreedFault 0x030D 0x0A k 0xFF else c
    else (ps.filter (fun e => c.unitFenced e.1 0x0A k)).foldl (fun c e => c.agreedFault 0x030D 0x0A k e.1.idx) c) c

/-- The samples of one feedback channel that count: its unit not fenced in the lane and the value marked valid. -/
def Chip.fbGivers (c : Chip) (k : Nat) : List (LaneId × FbSample) :=
  (c.parts.filter (fun e => !c.unitFenced e.1 0x09 k && (nth e.2.fb k {}).valid)).map (fun e => (e.1, nth e.2.fb k {}))

/-- An item's periods without a value: none with one, one more without (R129). -/
def ageOf {α : Type} (v : Option α) (age : Nat) : Nat := if v.isSome then 0 else age + 1

/-- The agreed frame age of a channel: the value given, or the last one a period older (R128, R129). -/
def Chip.fbAge (c : Chip) (old : Nat) (v : Option Int) : Nat :=
  match v with
  | some a => (quo a 10).toNat
  | none => old + c.period / 10

/-- The counts of a shared channel, agreed as CNT (R128, R132). -/
def Chip.agreeCounts (c : Chip) (k : Nat) (g : List (LaneId × FbSample)) : Verdict Int × Verdict Int :=
  if c.par Par.perFbShare k = 1 then
    (c.agreeCnt (c.par Par.perTolPos k) (g.map (fun e => (e.1, e.2.pos))), c.agreeCnt (c.par Par.perTolPos k) (g.map (fun e => (e.1, e.2.rev))))
  else ({}, {})

/-- One feedback channel: counts as CNT when shared, Hall states and flags as BIT, time stamps and ages as TIM. An owned count
without a value in its lane is recorded there (R128, R129). -/
def Chip.agreeFbOne (c : Chip) (k : Nat) : Chip :=
  let shared := decide (c.par Par.perFbShare k = 1)
  let g := c.fbGivers k
  let tt := c.par Par.perTolTime k
  let (pos, rev) := c.agreeCounts k g
  let stamp := c.agreeNum tt ((g.filter (fun e => e.2.latched)).map (fun e => (e.1, (e.2.stamp : Int))))
  let age := c.agreeNum tt (g.map (fun e => (e.1, 10 * (e.2.age : Int))))
  let hall := c.agreeBits (g.map (fun e => (e.1, BitVec.ofNat 8 e.2.hall)))
  let seen := c.agreeFlag (g.map (fun e => (e.1, e.2.indexSeen)))
  let lat := c.agreeFlag (g.map (fun e => (e.1, e.2.latched)))
  let c := c.modDev (fun d => { d with agreed := { d.agreed with fb := modNth d.agreed.fb k (fun f =>
    { f with
      pos := { f.pos.take pos.value with age := c.fbAge f.pos.age age.value }
      rev := f.rev.take rev.value, givers := pos.givers
      stamp := (stamp.value.map Int.toNat).getD f.stamp, stampAge := ageOf stamp.value f.stampAge
      hall := (hall.value.map (fun m => m.toNat)).getD f.hall, hallAge := ageOf hall.value f.hallAge
      hallFor := if (hall.value.map (fun m => m.toNat)).getD f.hall = f.hall then min 1000000000 (f.hallFor + c.period) else 0
      indexSeen := seen.value.getD f.indexSeen, latched := lat.value.getD f.latched, flagAge := ageOf seen.value f.flagAge
      latch := ((g.head?).map (fun e => e.2.latch)).getD f.latch }) } })
  let outs := [pos.outliers, rev.outliers, stamp.outliers, age.outliers, hall.outliers, seen.outliers, lat.outliers]
  let diffs := [pos.differ, rev.differ, stamp.differ, age.differ, hall.differ, seen.differ, lat.differ]
  let c := c.unitVerdict 0x09 k outs diffs
  let c := if (outs ++ diffs).flatten ≠ [] then c.modAgreedFb k (fun f => { f with suspect := true }) else c
  let c := if g = [] ∧ shared = true then c.agreedFault 0x030D 0x09 k 0xFF else c
  if shared then c
  else (c.parts.filter (fun e => c.unitFenced e.1 0x09 k || !(nth e.2.fb k {}).valid)).foldl (fun c e => c.agreedFault 0x030D 0x09 k e.1.idx) c

/-- The feedback channels that are in use (R128). -/
def Chip.agreeFb (c : Chip) : Chip :=
  (List.range 8).foldl (fun c k => if c.par Par.fbkMode k = 0 then c else c.agreeFbOne k) c

/-- SI levels: shared bits by majority (BIT); a bit of a lane whose input is fenced does not count, and an owned one has no value
(R128, R129, R136, R409). -/
def Chip.agreeSi (c : Chip) : Chip :=
  let ps := c.parts
  (List.range 8).foldl (fun c n =>
    if (c.parN Par.perSiShare).testBit n then
      let v := c.agreeFlag ((ps.filter (fun e => !c.unitFenced e.1 0x10 n)).map (fun e => (e.1, hasBit e.2.si n)))
      let c := c.modDev (fun d => { d with agreed := { d.agreed with
        si := match v.value with | some b => setBit d.agreed.si n b | none => d.agreed.si,
        siAge := modNth d.agreed.siAge n (ageOf v.value),
        siValid := setBit d.agreed.siValid n v.value.isSome } })
      let c := c.unitVerdict 0x10 n [v.outliers] [v.differ]
      if v.value.isNone then c.agreedFault 0x030D 0x10 n 0xFF else c
    else (ps.filter (fun e => c.unitFenced e.1 0x10 n)).foldl (fun c e => c.agreedFault 0x030D 0x10 n e.1.idx) c) c

/-- The Pintle die's data: numbers by the middle value, bits by majority, two taken when equal (PSN, R128). The unit of an
outlier is the lane's path to the die (log 25). -/
def Chip.agreePsn (c : Chip) : Chip :=
  let ps := (c.parts.filter (fun e => e.2.psn.given && !(c.pintle.lanes.get e.1).pathFailed)).map (fun e => (e.1, e.2.psn))
  if ps = [] then
    (c.modDev (fun d => { d with agreed := { d.agreed with psnAge := d.agreed.psnAge + 1 } })).agreedFault 0x030D 0x05 0 3
  else
    let old := c.dev.agreed.psn
    let num (sel : PsnSample → List Int) (n : Nat) : List (Verdict Int) :=
      (List.range n).map (fun k => c.agreeEqual (ps.map (fun e => (e.1, nth (sel e.2) k 0))))
    let coils := num (·.coils) 12
    let bm := num (·.bm) 4
    let temps := num (·.temps) 3
    let pres := c.agreeBits (ps.map (fun e => (e.1, e.2.presents)))
    let stall := c.agreeBits (ps.map (fun e => (e.1, e.2.stall)))
    let die := c.agreeFlag (ps.map (fun e => (e.1, e.2.dieFenced)))
    let hold := c.agreeFlag (ps.map (fun e => (e.1, e.2.holding)))
    let take (vs : List (Verdict Int)) (keep : List Int) : List Int := vs.mapIdx (fun k v => v.value.getD (nth keep k 0))
    let psn : PsnSample := {
      given := true, coils := take coils old.coils, bm := take bm old.bm, temps := take temps old.temps,
      presents := pres.value.getD old.presents, stall := stall.value.getD old.stall, dieFenced := die.value.getD old.dieFenced, holding := hold.value.getD old.holding }
    let c := c.modDev (fun d => { d with agreed := { d.agreed with psn := psn, psnAge := 0 } })
    let outs := (coils ++ bm ++ temps).map (·.outliers) ++ [pres.outliers, stall.outliers, die.outliers, hold.outliers]
    let diffs := (coils ++ bm ++ temps).map (·.differ) ++ [pres.differ, stall.differ, die.differ, hold.differ]
    LaneId.all.foldl (fun c l =>
      c.unitVerdict 0x03 l.idx [if outs.any (fun x => x.contains l) then [l] else []] [if diffs.any (fun x => x.contains l) then [l] else []]) c

/-- A lane's S-part as agreed: a feedback sample that is not valid, or whose channel is fenced there, keeps its last counts (R129). -/
def Chip.keepCounts (c : Chip) (l : LaneId) (old p : SPart) : SPart :=
  { p with fb := p.fb.mapIdx (fun k x =>
      if x.valid && !c.unitFenced l 0x09 k then x
      else { x with valid := false, pos := (nth old.fb k {}).pos, rev := (nth old.fb k {}).rev }) }

/-- Owned items: each lane's are taken from that lane alone; one record for a lane outside the set (R128, R129). -/
def Chip.agreeOwn (c : Chip) : Chip :=
  let ps := c.parts
  LaneId.all.foldl (fun c l =>
    match ps.find? (fun e => e.1 == l) with
    | some (_, p) => c.modDev (fun d => { d with agreed := { d.agreed with
        status := d.agreed.status.set l (c.keepCounts l (d.agreed.status.get l) p)
        ownAge := d.agreed.ownAge.set l 0
        nts := d.agreed.nts.set l p.nt
        iq := d.agreed.iq.set l p.iq
        vbr := d.agreed.vbr.set l ((d.agreed.vbr.get l).take (some p.vbr))
        vgd := d.agreed.vgd.set l ((d.agreed.vgd.get l).take (some p.vgd))
        temps := d.agreed.temps.set l ((d.agreed.temps.get l).mapIdx (fun k x => x.take (some (nth p.temps k 0)))) } })
    | none =>
      let c := c.modDev (fun d => { d with agreed := { d.agreed with
        ownAge := d.agreed.ownAge.set l (d.agreed.ownAge.get l + 1)
        vbr := d.agreed.vbr.set l ((d.agreed.vbr.get l).take none)
        vgd := d.agreed.vgd.set l ((d.agreed.vgd.get l).take none)
        temps := d.agreed.temps.set l ((d.agreed.temps.get l).map (fun x => x.take none)) } })
      if c.inAuth l && decide (c.dev.standdown ≠ some l) then c.agreedFault 0x030D 0x01 l.idx l.idx else c) c

/-- The agreed vector of the period, but for its streamed items (R128). -/
def Chip.agreeVector (c : Chip) : Chip := c.agreeOwn.agreeAdc.agreeFb.agreeSi.agreePsn

/-! ### Streamed items (R133 to R135) -/

/-- The streamed items of the lanes in the agreement set, with their lanes. -/
def Chip.streamed (c : Chip) : List (LaneId × StreamItem) :=
  (lanesOf c.dev.aset).flatMap (fun l => (c.lane l).round.items.map (fun x => (l, x)))

/-- The lanes that give a content. -/
def lanesGiving {α : Type} [DecidableEq α] (vs : List (LaneId × α)) (x : α) : List LaneId :=
  LaneId.all.filter (fun l => vs.any (fun e => decide (e = (l, x))))

/-- A content that at least two lanes give, or the only content there is; several copies of one lane count once (R133, R134). -/
def settle {α : Type} [DecidableEq α] (vs : List (LaneId × α)) : Option α :=
  match vs with
  | [] => none
  | (_, x) :: rest =>
    if rest.all (fun e => decide (e.2 = x)) then some x
    else (vs.find? (fun e => decide (2 ≤ (lanesGiving vs e.2).length))).map (·.2)

/-- Content settled by majority, else of the lane with the higher claim with fault 0x0304 (R134). -/
def Chip.settleExcl {α : Type} [DecidableEq α] (c : Chip) (vs : List (LaneId × α)) : Option α × Bool :=
  match settle vs with
  | some x => (some x, false)
  | none => match c.highest (vs.map (·.1)) with
    | some l => ((vs.find? (fun e => e.1 == l)).map (·.2), true)
    | none => (none, false)

end Sys2Proof.Machine
end

