-- ==== Sys2Proof/Machine/Authority.lean ====
section
/-! DEFINITION. Claims (R25 to R31) and the operations that enable and disable actuation (R114, R418). -/

namespace Sys2Proof.Machine

open Sys2Proof

/-! ### Health and roles (R25 to R28) -/

/-- Corrected divergences of a lane within AUTH.HEALTH_WIN (R28, R153). DESIGN CHOICE (log 88): R28 does not say whether a
divergence exactly AUTH.HEALTH_WIN matrix cycles old still counts; it does not. -/
def Chip.divCount (c : Chip) (l : LaneId) : Nat :=
  ((c.lane l).chk.divs.filter (fun m => decide (c.cyclesSince m < c.parN Par.authHealthWin))).length

/-- The deduction for them (R28). -/
def Chip.divDeduction (c : Chip) (l : LaneId) : Nat := min 6 (2 * c.divCount l)

/-- The deduction for fenced units: feedback channels, bridges, contexts, ports (R28). -/
def unitDeduction (us : List (Nat × Nat)) : Nat :=
  min 6 (2 * (us.filter (fun u => decide (u.1 = 0x07 ∨ u.1 = 0x08 ∨ u.1 = 0x09 ∨ u.1 = 0x0B))).length)

/-- A lane's health score, from its status as agreed, with the bands of its die and its part of the Pintle die (R28, R488). -/
def Chip.health (c : Chip) (l : LaneId) : Nat :=
  let st := c.dev.agreed.status.get l
  let bands := [st.bands.1, st.bands.2]
  15 - ((if st.mainPathBad then 3 else 0) + c.divDeduction l + unitDeduction st.unitsFenced + (if st.frameSeen then 0 else 4) +
    (if st.linkDown then 2 else 0) + (if bands.contains 4 then 3 else 0) +
    (if bands.contains 0 then 1 else 0))

/-- A lane is eligible for a claim (R25): in authority, not in stand-down, not in steps 1 to 4 of a resynchronisation (R157),
commissioned, with a working path. -/
def Chip.eligible (c : Chip) (l : LaneId) : Bool :=
  c.inAuth l && decide (c.dev.standdown ≠ some l) && decide (c.dev.sdNext ≠ some l) && !(c.resyncing l) && c.commissioned &&
    !(c.pintle.lanes.get l).pathFailed

/-- Whether a lane's health and rank exceed another's. -/
def Chip.fitter (c : Chip) (x y : LaneId) : Bool :=
  decide (c.health y < c.health x) || (decide (c.health x = c.health y) && decide (c.rankOf y < c.rankOf x))

/-- The lane with role 3 in D0 and D1 (R26). -/
def Chip.activeLane (c : Chip) : Option LaneId :=
  let el := LaneId.all.filter c.eligible
  let best := bestOf c.fitter el
  match c.dev.claims.active with
  | some cur =>
    if el.contains cur && !(el.any (fun l => l != cur && decide (c.health cur + c.parN Par.authHealthHyst ≤ c.health l))) then some cur
    else bestOf c.fitter (if el.contains cur then el.filter (· != cur) else el)
  | none => best

/-- A lane's role: 3 active, 2 standby, 1 degraded, 0 none (R26, R27). -/
def Chip.roleOf (c : Chip) (active : Option LaneId) (l : LaneId) : Nat :=
  if !c.eligible l then 0
  else match c.classNow with
    | 0 | 1 => if active = some l then 3 else 2
    | 2 => 1
    | _ => 0

/-- A claim number: role, health and rank, or 0x00 for a lane that is not eligible (R25). -/
def Chip.claimNum (c : Chip) (active : Option LaneId) (l : LaneId) : Nat :=
  if c.roleOf active l = 0 then 0 else 64 * c.roleOf active l + 4 * c.health l + c.rankOf l

/-- The claim vector of the period (R26, R27). -/
def Chip.computeClaims (c : Chip) : Chip :=
  let act := c.activeLane
  c.modDev (fun d => { d with claims := { d.claims with
    nums := d.claims.nums.mapIdx (fun l _ => c.claimNum act l)
    health := d.claims.health.mapIdx (fun l _ => c.health l)
    readmit := 0
    active := if c.classNow ≤ 1 then act else none } })

/-- The claim vector as bytes, with a control-period count (R18). -/
def claimBytes (nums : Tri Nat) (readmit : Mask) (count : Nat) : List Byte :=
  let b := toLe 1 nums.a ++ toLe 1 nums.b ++ toLe 1 nums.c ++ toLe 1 readmit.toNat ++ toLe 4 (count % 2 ^ 32) ++ toLe 4 0
  b ++ toLe 4 (crc32c b)

/-! ### Actuation (R114, R418) -/

def attrActuationEnable : OpAttr := { code := 0x0210, keyed := true, acc := .commissioned, right := some 0, row := .enabled }

/-- The check value that a pending change of the canonical image will give at its boundary: a stored staging image, or a schedule that
waits for its activation. -/
def Chip.checkAhead (c : Chip) : Nat :=
  let g := c.dev.cfg
  let img := match g.wsNext, g.storing with
    | some x, _ => some x
    | none, some (1, x) => some x
    | none, _ => none
  let ws := match img with | some x => x.entries | none => g.ws
  let sched := match g.schedNext, img with
    | some (b, _), _ => b
    | none, some x => x.schedule
    | none, none => g.sched
  if img.isNone && g.schedNext.isNone then g.check else checkValue ws sched

/-- The commissioned state would not outlast a change that is already pending: R96 has it never lapse while actuation is enabled
(log 94). -/
def Chip.lapses (c : Chip) : Bool := c.commissioned && decide (c.checkAhead ≠ c.dev.cfg.check)

/-- The conditions of R114, in HOLD too, with the status of each. DESIGN CHOICE (log 100): with one lane admitted R111 names IN_HOLD, and
the model takes that status, not AUTH_DENIED, for the number of lanes. -/
def checksActuationEnable (r : Req) (c : Chip) : List Nat :=
  payloadFails r.body 0 ++
    (if c.commissioned && !c.lapses then [] else [stNotCommissioned]) ++
    (if c.parN Par.laneStartMin ≤ c.authLanes.length then [] else if c.authLanes.length ≤ 1 then [stInHold] else [stDenied]) ++
    (if c.pintle.holder.isSome ∧ c.pintle.holding = false then [] else [stDenied]) ++
    (if c.dev.cfg.sched.isEmpty || c.dev.locked then [] else [stDenied]) ++
    (if c.dev.snow.step = 4 then [stInHold] else []) ++
    (if c.pintle.pads || c.authLanes.any (fun l => (c.lane l).power.pads) then [stDenied] else []) ++
    (if c.dev.power.state = .run ∧ c.dev.power.target = none then [] else [stTransition])

def effectActuationEnable (_ : Req) (s : State) : OpOut :=
  OpOut.chip s (fun c => c.modDev (fun d => { d with actuation := true }))

/-- AUTH.ACTUATION_ENABLE (R114). -/
def execActuationEnable (r : Req) (s : State) : Out :=
  .next (runOp attrActuationEnable checksActuationEnable effectActuationEnable r s)

end Sys2Proof.Machine
end

