-- ==== Sys2Proof/Machine/Feedback.lean ====
section
/-! DEFINITION. Feedback channels (chapter 07): counting, the index, SENT, SSI and sine/cosine, the sample of a channel at S,
the probe latch and presets. -/

namespace Sys2Proof.Machine

open Sys2Proof

/-- A fault of a feedback channel in one lane: a local record, and a mark for the plausibility check (R188, R193). -/
def Chip.fbFault (c : Chip) (l : LaneId) (ch code : Nat) : Chip :=
  (c.localFault l code 0x09 ch l.idx).modDev (fun d => { d with agreed := { d.agreed with
    fb := modNth d.agreed.fb ch (fun f => { f with suspect := true }) } })

/-- A feedback channel of a lane. -/
def Chip.fbOf (c : Chip) (l : LaneId) (ch : Nat) : FbChan := nth (c.lane l).fb ch {}

/-- A channel fenced in its lane with a U-class fault (R177, R183). -/
def Chip.fbFence (c : Chip) (l : LaneId) (ch code : Nat) : Chip :=
  if (c.fbOf l ch).fenced then c else (c.fbFault l ch code).ownFence l 0x09 ch

/-! ### Counting (R172, R173, R181) -/

/-- The reported count after the raw count has changed (R173). -/
def hystCount (hyst : Bool) (e e' : Int) : Int :=
  if hyst = false then e
  else if 2 ≤ e - e' then e - 1
  else if e - e' ≤ -2 then e + 1
  else e'

/-- The raw count set, with the reported count following (R173). -/
def Chip.setCount (c : Chip) (l : LaneId) (ch : Nat) (e : Int) : Chip :=
  let h := decide (c.par Par.fbkHyst ch = 1)
  c.modFb l ch (fun x => { x with e := e, e' := hystCount h e x.e' })

/-- The sign of the count direction (R172: FBK.DIR 1 reverses it). -/
def Chip.fbDir (c : Chip) (ch : Nat) : Int := if c.par Par.fbkDir ch = 1 then -1 else 1

/-- One count forward or backward. -/
def Chip.countStep (c : Chip) (l : LaneId) (ch : Nat) (n : Int) : Chip :=
  c.setCount l ch ((c.fbOf l ch).e + c.fbDir ch * n)

/-- A fault that invalidates the channel's value in the period (R183). -/
def Chip.fbSpoil (c : Chip) (l : LaneId) (ch code : Nat) : Chip :=
  (c.modFb l ch (fun x => { x with faulted := true })).fbFault l ch code

/-- The place of a Hall code in the forward sequence, none for 0 and 7 (R172). -/
def hallPlace (code : Nat) : Option Nat :=
  match code with
  | 1 => some 0 | 3 => some 1 | 2 => some 2 | 6 => some 3 | 4 => some 4 | 5 => some 5
  | _ => none

/-- A change of the Hall code: one step, or fault 0x1302 (R172). -/
def Chip.hallStep (c : Chip) (l : LaneId) (ch old new : Nat) : Chip :=
  if old = new then c
  else match hallPlace old, hallPlace new with
  | some i, some j =>
    if j = (i + 1) % 6 then c.countStep l ch 1
    else if i = (j + 1) % 6 then c.countStep l ch (-1)
    else c.fbSpoil l ch 0x1302
  | _, _ => c.fbSpoil l ch 0x1302

/-- A quadrature edge: forward is A leading B; edges on both at one tick count nothing (R172). -/
def Chip.quadStep (c : Chip) (l : LaneId) (ch : Nat) (a b a' b' : Bool) : Chip :=
  if a != a' && b != b' then c.fbSpoil l ch 0x1301
  else if a != a' then c.countStep l ch (if a' != b' then 1 else -1)
  else if b != b' then c.countStep l ch (if a' == b' then 1 else -1)
  else c

/-- A sine/cosine comparator edge: one signal quadrant, forward with a rising angle (R181). Edges on both at one tick leave
the count to the interpolation at S. -/
def Chip.scStep (c : Chip) (l : LaneId) (ch : Nat) (a b a' b' : Bool) : Chip :=
  if a != a' && b != b' then c
  else
    let q := Int.fdiv (c.fbOf l ch).e 1024
    let fwd (up : Bool) : Chip := c.setCount l ch (1024 * (q + c.fbDir ch * (if up then 1 else -1)))
    if a != a' then fwd (a' == b')
    else if b != b' then fwd (a' != b')
    else c

/-- The input filter of a channel accepts a level that has been stable for a number of ticks (R171). -/
def Chip.fbAccepts (c : Chip) (ch held : Nat) : Bool := decide (c.parN Par.fbkFilter ch ≤ held)

/-- The NT of the tick at which a lane first saw a level that has been stable for a number of ticks of 10 ns (R171). -/
def Chip.firstSeen (c : Chip) (l : LaneId) (held : Nat) : Nat := (c.lane l).clock.nt - 10 * held

/-- Levels of A, B and Z first seen at the tick of an NT, counted by the channel's mode (R171, R172, R181, R199). -/
def Chip.fbLevels (c : Chip) (l : LaneId) (ch : Fin 8) (nt : Nat) (a b z : Option Bool) : Chip :=
  let old := (c.fbOf l ch).levels
  let put (m : Mask) (n : Nat) (x : Option Bool) : Mask := match x with | some v => setBit m n v | none => m
  let new := put (put (put old 0 a) 1 b) 2 z
  let hall := decide (old.toNat % 8 ≠ new.toNat % 8)
  let c := c.modFb l ch (fun x => { x with levels := new, hallNt := if hall then nt else x.hallNt })
  match c.parN Par.fbkMode ch with
  | 1 => c.quadStep l ch (hasBit old 0) (hasBit old 1) (hasBit new 0) (hasBit new 1)
  | 2 => c.hallStep l ch (old.toNat % 8) (new.toNat % 8)
  | 5 => c.scStep l ch (hasBit old 0) (hasBit old 1) (hasBit new 0) (hasBit new 1)
  | _ => c

/-- FB_EDGE: new levels that have been stable for `held` ticks; the filter loses shorter ones (R171). -/
def fbEdge (l : LaneId) (ch : Fin 8) (held : Nat) (a b z : Option Bool) (c : Chip) : Chip :=
  if c.fbAccepts ch held then c.fbLevels l ch (c.firstSeen l held) a b z else c

def execFbEdge (l : LaneId) (ch : Fin 8) (held : Nat) (a b z : Option Bool) (s : State) : Out := .next (s.onLane l (fbEdge l ch held a b z))

/-! ### The index (R175 to R177) -/

/-- A number modulo cpr, in (−cpr/2, cpr/2]. -/
def wrapHalf (cpr x : Int) : Int :=
  let r := Int.fmod x cpr
  if cpr < 2 * r then r - cpr else r

/-- The signed 32-bit difference of two counts. -/
def diff32 (x y : Int) : Int := signedOf 32 (unsignedOf 32 (x - y))

/-- The one of three numbers with the smallest magnitude. -/
def smallest3 (x y z : Int) : Int :=
  let m := if y.natAbs < x.natAbs then y else x
  if z.natAbs < m.natAbs then z else m

/-- An index within its tolerance, or one more deviation, which fences the channel at FBK.INDEX_LIMIT (R175 to R177). -/
def Chip.indexJudge (c : Chip) (l : LaneId) (ch : Nat) (bad : Bool) : Chip :=
  if bad then
    let n := (c.fbOf l ch).indexBad + 1
    let c := (c.modFb l ch (fun x => { x with indexBad := n })).fbSpoil l ch 0x1303
    if c.parN Par.fbkIndexLimit ch ≤ n then c.fbFence l ch 0x1304 else c
  else c.modFb l ch (fun x => { x with indexBad := 0 })

/-- An index of a channel in count mode 1: the first aligns, later ones check (R175). -/
def Chip.indexAlign (c : Chip) (l : LaneId) (ch : Nat) : Chip :=
  let x := c.fbOf l ch
  let cpr := c.par Par.fbkCpr ch
  let tol := c.par Par.fbkIndexTol ch
  let delta := wrapHalf cpr ((x.e + x.base) - c.par Par.fbkIndexPos ch)
  if !x.indexRef then
    c.modFb l ch (fun x => { x with base := x.base + wrapHalf cpr (c.par Par.fbkIndexPos ch - (x.e + x.base)), indexRef := true, indexBad := 0 })
  else if delta = 0 then c.indexJudge l ch false
  else if (delta.natAbs : Int) ≤ tol then
    (c.modFb l ch (fun x => { x with base := x.base - delta, corrections := satInc 65535 x.corrections })).indexJudge l ch false
  else c.indexJudge l ch true

/-- An index of a channel in count mode 2: the latch, checked from the second on (R176). -/
def Chip.indexLatch (c : Chip) (l : LaneId) (ch : Nat) : Chip :=
  let x := c.fbOf l ch
  let cpr := c.par Par.fbkCpr ch
  let lat := x.e + x.base
  let d := smallest3 (diff32 lat x.latch) (diff32 lat (x.latch + cpr)) (diff32 lat (x.latch - cpr))
  let c := c.modFb l ch (fun x => { x with latch := signedOf 32 (unsignedOf 32 lat), indexRef := true })
  if x.indexRef then c.indexJudge l ch (decide (c.par Par.fbkIndexTol ch < (d.natAbs : Int))) else c

/-- INDEX_PULSE: an index of a counting channel, accepted once it has been stable for FBK.FILTER ticks (R171, R174 to R177). -/
def indexPulse (l : LaneId) (ch : Fin 8) (held : Nat) (c : Chip) : Chip :=
  let m := c.parN Par.fbkMode ch
  if (m ≠ 1 ∧ m ≠ 5) ∨ c.fbAccepts ch held = false then c
  else match c.parN Par.fbkCountMode ch with
  | 1 => (c.modFb l ch (fun x => { x with indexSeen := true })).indexAlign l ch
  | 2 => (c.modFb l ch (fun x => { x with indexSeen := true })).indexLatch l ch
  | _ => c

def execIndexPulse (l : LaneId) (ch : Fin 8) (held : Nat) (s : State) : Out := .next (s.onLane l (indexPulse l ch held))

/-! ### SENT (R178, R179) -/

/-- A discarded frame or an invalid sample: fault 0x1305, counted (R178, R180, R181). -/
def Chip.fbDiscard (c : Chip) (l : LaneId) (ch : Nat) : Chip :=
  (c.modFb l ch (fun x => { x with discards := satInc 65535 x.discards })).fbFault l ch 0x1305

/-- One bit step of a remainder by a polynomial of a given width, most significant bit first. -/
def msbStep (width poly r : Nat) (b : Bool) : Nat :=
  let t := (2 * r + (if b then 1 else 0))
  if 2 ^ width ≤ t then (t % 2 ^ width) ^^^ poly else t

/-- The bits of a number, most significant first. -/
def bitsOf (n v : Nat) : List Bool := (List.range n).map (fun k => v.testBit (n - 1 - k))

/-- The number that bits spell, most significant first. -/
def ofBits (bs : List Bool) : Nat := bs.foldl (fun a b => 2 * a + (if b then 1 else 0)) 0

/-- The remainder of a message extended by as many zero bits as the checksum has, from a seed: the form of J2716 (log 26). -/
def sentRemainder (width poly seed : Nat) (msg : List Bool) : Nat :=
  (msg ++ List.replicate width false).foldl (msbStep width poly) seed

/-- The 4-bit CRC of a SENT frame over nibbles (R178). -/
def sentCrc (ns : List Nat) : Nat := sentRemainder 4 0xD 0x5 (ns.flatMap (bitsOf 4))

/-- The 6-bit CRC of an enhanced serial message over 24 bits (R179). -/
def serialCrc (msg : List Bool) : Nat := sentRemainder 6 0x19 0x15 msg

/-- A pulse in whole ticks of the frame's calibration of 56 ticks, to the nearest (log 26). -/
def ticksOf (calib len : Nat) : Nat := if calib = 0 then 0 else (2 * len * 56 + calib) / (2 * calib)

/-- A pulse lies within 0.35 tick of a whole number of ticks (R546). -/
def wholeTicks (calib len : Nat) : Bool := decide (20 * dist (56 * len) (ticksOf calib len * calib) ≤ 7 * calib)

/-- No low phase of the frame is shorter than four ticks (R546). -/
def lowOk (calib low : Nat) : Bool := decide (calib ≤ 14 * low)

/-- The calibration pulse implies a tick within a fifth of the nominal one and within 1/64 of the previous frame's (R178). -/
def calibOk (nominal prev calib : Nat) : Bool :=
  decide (5 * (dist calib (56 * nominal)) ≤ 56 * nominal) && (decide (prev = 0) || decide (64 * dist calib prev ≤ prev))

/-- A nibble pulse has 12 to 27 ticks (R178). -/
def nibbleOk (t : Nat) : Bool := decide (12 ≤ t ∧ t ≤ 27)

/-- The nibbles of a frame: status, data, CRC; none when a pulse or their number is wrong (R178, R546). -/
def sentNibbles (calib n : Nat) (pulses : List Nat) : Option (List Nat) :=
  let ts := pulses.map (ticksOf calib)
  if ts.length = n + 2 ∧ ts.all nibbleOk ∧ pulses.all (wholeTicks calib) then some (ts.map (· - 12)) else none

/-- The pause pulse is there when asked for, with 12 to 768 ticks, and not there otherwise (R178). -/
def pauseOk (calib : Nat) (wanted : Bool) (pause : Option Nat) : Bool :=
  match pause with
  | none => !wanted
  | some p => wanted && wholeTicks calib p && decide (12 ≤ ticksOf calib p ∧ ticksOf calib p ≤ 768)

/-- The number that nibbles spell, most significant first. -/
def ofNibbles (ns : List Nat) : Nat := ns.foldl (fun a n => 16 * a + n) 0

/-- An enhanced serial message in the last eighteen pairs of status bits 2 and 3, oldest first: the start pattern, the form
bit, the fixed zeros, the identifier, the data and the 6-bit CRC of J2716 (R179, log 26). -/
def serialOf (ps : List (Bool × Bool)) (nt : Nat) : Option SerialMsg :=
  let b2 := ps.map (·.1)
  let b3 := ps.map (·.2)
  let at3 (k : Nat) : Bool := nth b3 k false
  let pat := decide ((b3.take 6) = [true, true, true, true, true, true]) && !at3 6 && !at3 12 && !at3 17
  let long := at3 7
  let msg := (ps.drop 6).flatMap (fun p => [p.1, p.2])
  if ps.length = 18 ∧ pat = true ∧ serialCrc msg = ofBits (b2.take 6) then
    let data12 := ofBits ((b2.drop 6).take 12)
    let hi := ofBits ((b3.drop 8).take 4)
    let lo := ofBits ((b3.drop 13).take 4)
    some (if long then { ident := hi, form := 1, data := 4096 * lo + data12, nt := nt }
      else { ident := 16 * hi + lo, form := 0, data := data12, nt := nt })
  else none

/-- A serial message stored: the latest of its identifier, at most sixteen identifiers in order of first arrival (R179). -/
def storeSerial (ms : List SerialMsg) (m : SerialMsg) : List SerialMsg :=
  if ms.any (fun x => x.ident == m.ident) then ms.map (fun x => if x.ident = m.ident then m else x)
  else if ms.length < 16 then ms ++ [m] else ms

/-- The serial bits of a passing frame taken, and a whole message stored (R179). -/
def FbChan.takeSerial (x : FbChan) (status nt : Nat) : FbChan :=
  let ps := x.serialBits ++ [(status.testBit 2, status.testBit 3)]
  let ps := ps.drop (ps.length - 18)
  match serialOf ps nt with
  | some m => { x with serialBits := [], serial := storeSerial x.serial m }
  | none => { x with serialBits := ps }

/-- The status, the data nibbles and the checks of a frame that passes (R178). -/
def Chip.sentPasses (c : Chip) (ch prev calib : Nat) (pulses : List Nat) (pause : Option Nat) : Option (Nat × List Nat) :=
  let n := c.parN Par.fbkSentNibbles ch
  let opt := c.parN Par.fbkSentOpt ch
  match sentNibbles calib n pulses with
  | none => none
  | some ns =>
    let status := nth ns 0 0
    let data := (ns.drop 1).take n
    let crc := nth ns (n + 1) 0
    let span := if opt.testBit 2 then status :: data else data
    if calibOk (c.parN Par.fbkSentTick ch) prev calib ∧ pauseOk calib (opt.testBit 0) pause ∧
        status &&& c.parN Par.fbkSentStmask ch = 0 ∧ sentCrc span = crc then some (status, data) else none

/-- SENT_FRAME: a frame with its calibration pulse and its pulses, in units of 10 ns. Its age runs from the edge that ends its CRC nibble
and begins the pause pulse (R178, R179). -/
def sentFrame (l : LaneId) (ch : Fin 8) (calib : Nat) (pulses : List Nat) (pause : Option Nat) (low : Nat) (c : Chip) : Chip :=
  if c.par Par.fbkMode ch ≠ 3 then c
  else
    let opt := c.parN Par.fbkSentOpt ch
    let nt := c.firstSeen l (pause.getD 0)
    let r := if lowOk calib low then c.sentPasses ch (c.fbOf l ch).sentCal calib pulses pause else none
    let c := c.modFb l ch (fun x => { x with sentCal := calib })
    match r with
    | none => (c.modFb l ch (fun x => { x with serialBits := [] })).fbDiscard l ch
    | some (status, data) =>
      let k := c.parN Par.fbkSentFc1 ch / 4
      let rest := data.drop k
      c.modFb l ch (fun x =>
        let x := { x with fast1 := ofNibbles (data.take k), fast2 := ofNibbles (if opt.testBit 1 then rest.reverse else rest), frameNt := some nt }
        if opt.testBit 3 then x.takeSerial status nt else x)

def execSentFrame (l : LaneId) (ch : Fin 8) (calib : Nat) (pulses : List Nat) (pause : Option Nat) (low : Nat) (s : State) : Out :=
  .next (s.onLane l (sentFrame l ch calib pulses pause low))

/-! ### SSI (R180) -/

/-- SSI_START: the timebase starts a transfer (R180). -/
def ssiStart (l : LaneId) (ch : Fin 8) (c : Chip) : Chip :=
  if c.par Par.fbkMode ch = 4 then c.modFb l ch (fun x => { x with ssiBusy := true }) else c

def execSsiStart (l : LaneId) (ch : Fin 8) (s : State) : Out := .next (s.onLane l (ssiStart l ch))

/-- Binary bits from Gray-coded ones, most significant first. -/
def fromGray (bs : List Bool) : List Bool :=
  (bs.foldl (fun (a : List Bool × Bool) b => (a.1 ++ [a.2 != b], a.2 != b)) ([], false)).1

/-- The data bits of one copy of a frame that passes its parity and error bits (R180). An error bit is the last of the
FBK.SSI_BITS and is no part of the position (log 27). -/
def ssiData (bits opt : Nat) (copy : List Bool) : Option (List Bool) :=
  let par := opt.testBit 1
  let err := opt.testBit 3
  let frame := copy.take bits
  if copy.length = bits + (if par then 1 else 0) ∧ (!par || decide ((copy.filter (· = true)).length % 2 = 0)) = true ∧
      (!err || !(frame.getLastD false)) = true then
    let d := if err then frame.dropLast else frame
    some (if opt.testBit 0 then fromGray d else d)
  else none

/-- The copies of a frame: one, or two equal ones (R180). -/
def ssiCopies (opt : Nat) (copies : List (List Bool)) : Option (List Bool) :=
  match copies with
  | [x] => if opt.testBit 2 then none else some x
  | [x, y] => if opt.testBit 2 ∧ x = y then some x else none
  | _ => none

/-- SSI_FRAME: the transfer ends and its frame passes or is discarded (R180). -/
def ssiFrame (l : LaneId) (ch : Fin 8) (idleHigh firstLow : Bool) (copies : List (List Bool)) (monoHigh : Bool) (c : Chip) : Chip :=
  if c.par Par.fbkMode ch ≠ 4 ∨ (c.fbOf l ch).ssiBusy = false then c
  else
    let opt := c.parN Par.fbkSsiOpt ch
    let nt := (c.lane l).clock.nt
    let c := c.modFb l ch (fun x => { x with ssiBusy := false })
    let d := match ssiCopies opt copies with
      | some x => ssiData (c.parN Par.fbkSsiBits ch) opt x
      | none => none
    match d, idleHigh && firstLow && monoHigh with
    | some bs, true =>
      let v := ofBits bs
      let st := 2 ^ c.parN Par.fbkSsiSt ch
      c.modFb l ch (fun x => { x with fast1 := v % st, fast2 := v / st, frameNt := some nt })
    | _, _ => c.fbDiscard l ch

def execSsiFrame (l : LaneId) (ch : Fin 8) (idleHigh firstLow : Bool) (copies : List (List Bool)) (monoHigh : Bool) (s : State) : Out :=
  .next (s.onLane l (ssiFrame l ch idleHigh firstLow copies monoHigh))

/-! ### The probe latch (R184) -/

/-- PROBE_EDGE: the first accepted edge from the S of the arming on latches the NT of the tick at which it was seen; later ones are
ignored (R171, R184). -/
def probeEdge (l : LaneId) (ch : Fin 8) (source : Fin 2) (falling : Bool) (held : Nat) (c : Chip) : Chip :=
  let x := c.fbOf l ch
  let t := c.firstSeen l held
  if c.fbAccepts ch held = true ∧ x.probeSrc = some source.val ∧ x.probeFalling = falling ∧ x.probeNt = none ∧ x.probeFrom ≤ t then
    c.modFb l ch (fun x => { x with probeNt := some t })
  else c

def execProbeEdge (l : LaneId) (ch : Fin 8) (source : Fin 2) (falling : Bool) (held : Nat) (s : State) : Out :=
  .next (s.onLane l (probeEdge l ch source falling held))

def attrProbeArm : OpAttr := { code := 0x1311 }

def checksProbeArm (r : Req) (_ : Chip) : List Nat :=
  quadFails r.body 4 ++ (if fld r.body 0 1 < 8 ∧ fld r.body 1 1 < 2 ∧ fld r.body 2 1 < 2 ∧ fld r.body 3 1 < 2 then [] else [stBadParam])

def effectProbeArm (r : Req) (s : State) : OpOut :=
  let arm : Option Nat := if fld r.body 3 1 = 0 then some (fld r.body 1 1) else none
  OpOut.chip s (fun c => c.modLanes (fun _ n => { n with
    fb := modNth n.fb (fld r.body 0 1) (fun x => { x with probePend := some (arm, decide (fld r.body 2 1 = 1)) }) }))

/-- FBK.PROBE_ARM: every lane's latch is armed, or disarmed, from the next S (R184). -/
def execProbeArm (r : Req) (s : State) : Out := .next (runOp attrProbeArm checksProbeArm effectProbeArm r s)

/-- The arming that acts from an S: the flag and the time stamp are cleared (R184). -/
def FbChan.armProbe (x : FbChan) (nt : Nat) : FbChan :=
  match x.probePend with
  | none => x
  | some (src, fall) => { x with probePend := none, probeSrc := src, probeFalling := fall, probeNt := none, probeFrom := nt }

/-! ### The sample at S (R121, R174, R181 to R183) -/

/-- Counts per revolution of a channel: C for SENT and SSI, FBK.CPR otherwise (R182). -/
def fbCpr (ws : List (Nat × Int)) (ch : Nat) : Int :=
  match (Par.fbkMode.at ws ch).toNat with
  | 3 => (2 ^ (Par.fbkSentFc1.at ws ch).toNat : Nat)
  | 4 => (2 ^ (Par.fbkSsiSt.at ws ch).toNat : Nat)
  | _ => Par.fbkCpr.at ws ch

/-- The position and revolution words of a count T (R174, R182), with the latch of count mode 2 or the second fast channel. -/
def fbWords (ws : List (Nat × Int)) (ch : Nat) (t : Int) (aux : Int) : Int × Int :=
  let c := fbCpr ws ch
  match (Par.fbkMode.at ws ch).toNat with
  | 0 => (0, 0)
  | 3 => (Int.fmod (unsignedOf 32 t) c, aux)
  | 4 => (Int.fmod (unsignedOf 32 t) c, signedOf 32 (unsignedOf 32 (Int.fdiv (unsignedOf 32 t) c)))
  | _ => if Par.fbkCountMode.at ws ch = 2 then (signedOf 32 (unsignedOf 32 t), aux)
    else (Int.fmod t c, signedOf 32 (unsignedOf 32 (Int.fdiv t c)))

/-- The raw value of a channel without a step counter (R182). -/
def rawOf (ws : List (Nat × Int)) (ch : Nat) (x : FbChan) : Int :=
  if Par.fbkMode.at ws ch = 4 then (x.fast2 : Int) * fbCpr ws ch + x.fast1 else x.fast1

/-- The words of a channel as it stands. -/
def FbChan.words (x : FbChan) (ws : List (Nat × Int)) (ch : Nat) : Int × Int :=
  match (Par.fbkMode.at ws ch).toNat with
  | 3 => fbWords ws ch (rawOf ws ch x + x.base) x.fast2
  | 4 => fbWords ws ch (rawOf ws ch x + x.base) 0
  | _ => fbWords ws ch ((if Par.fbkHyst.at ws ch = 1 then x.e' else x.e) + x.base) x.latch

/-- The count of a sine/cosine channel corrected toward a converted angle, none when the two are two quadrants apart (R181). -/
def Chip.scCount (c : Chip) (ch : Nat) (e : Int) (angle : Nat) : Option Int :=
  let ang := if c.par Par.fbkDir ch = 1 then (4096 - angle % 4096) % 4096 else angle % 4096
  let q := Int.fdiv e 1024
  let d := Int.fmod ((ang / 1024 : Nat) - q) 4
  let q' := if d = 1 then q + 1 else if d = 3 then q - 1 else q
  if d = 2 then none else some (4096 * Int.fdiv q' 4 + (ang : Nat))

/-- The interpolation of a sine/cosine channel at S: the count corrected toward the angle, or an invalid sample (R181). -/
def Chip.interpolate (c : Chip) (l : LaneId) (ch angle radius : Nat) : Chip × Bool :=
  match c.scCount ch (c.fbOf l ch).e angle with
  | none => (c.fbDiscard l ch, false)
  | some e =>
    if radius < c.parN Par.fbkScRmin ch ∨ c.parN Par.fbkScRmax ch < radius then (c.fbDiscard l ch, false) else (c.setCount l ch e, true)

/-- The validity of a channel at S from its own checks, with the faults found there (R172, R181, R183). -/
def Chip.fbValid (c : Chip) (l : LaneId) (ch : Nat) (i : SampleIn) : Chip × Bool :=
  let x := c.fbOf l ch
  match c.parN Par.fbkMode ch with
  | 0 => (c, false)
  | 2 =>
    if hallPlace (x.levels.toNat % 8) = none then (c.fbFault l ch 0x1302, false) else (c, !x.faulted)
  | 3 | 4 =>
    (match x.frameNt with
      | some t => if (c.lane l).clock.nt ≤ t + c.parN Par.fbkMaxAge ch then (c, true) else (c.fbFault l ch 0x1307, false)
      | none => (c.fbFault l ch 0x1307, false))
  | 5 =>
    let (c, ok) := c.interpolate l ch (nth i.scAngle ch 0) (nth i.scRadius ch 0)
    (c, ok && !x.faulted)
  | _ => (c, !x.faulted)

/-- Consecutive invalid periods counted: at FBK.BAD_LIMIT the channel is fenced in its lane (R183). -/
def Chip.countInvalid (c : Chip) (l : LaneId) (ch : Nat) (valid : Bool) : Chip :=
  if valid || c.par Par.fbkMode ch = 0 then c.modFb l ch (fun x => { x with badRun := 0 })
  else
    let n := (c.fbOf l ch).badRun + 1
    let c := c.modFb l ch (fun x => { x with badRun := n })
    if c.parN Par.fbkBadLimit ch ≤ n then c.fbFence l ch 0x1306 else c

/-- One channel sampled at S: its words, flags and stamps, with the flags of the period cleared (R121, R124, R184). -/
def Chip.sampleFb (c : Chip) (l : LaneId) (ch : Nat) (i : SampleIn) : Chip × FbSample :=
  let c := c.modFb l ch (fun x => x.armProbe (c.lane l).clock.nt)
  let (c, valid) := c.fbValid l ch i
  let x := c.fbOf l ch
  let nt := (c.lane l).clock.nt
  let w := x.words c.dev.cfg.ws ch
  let smp : FbSample := {
    pos := w.1, rev := w.2, valid := valid, indexSeen := x.indexSeen, latched := x.probeNt.isSome, stamp := x.probeNt.getD 0,
    hall := if c.par Par.fbkMode ch = 2 then x.levels.toNat % 8 else 0,
    age := match x.frameNt with | some t => (nt - t) / 10 | none => 0,
    latch := x.latch }
  let c := c.countInvalid l ch valid
  (c.modFb l ch (fun x => { x with indexSeen := false, faulted := false }), smp)

/-- Every channel of a lane sampled at S. -/
def Chip.sampleFbs (c : Chip) (l : LaneId) (i : SampleIn) : Chip × List FbSample :=
  (List.range 8).foldl (fun (a : Chip × List FbSample) ch =>
    let (c, x) := a.1.sampleFb l ch i
    (c, a.2 ++ [x])) (c, [])

/-! ### The continuous value and presets (R182, R185, R187) -/

/-- A number kept in its low 32 bits, signed. -/
def low32 (x : Int) : Int := signedOf 32 (unsignedOf 32 x)

/-- The continuous value of a channel from its two words (R182, R187). -/
def contValue (ws : List (Nat × Int)) (ch : Nat) (pos rev : Int) : Int :=
  match (Par.fbkMode.at ws ch).toNat with
  | 3 => pos
  | 4 => low32 (rev * fbCpr ws ch + pos)
  | _ => if Par.fbkCountMode.at ws ch = 2 then pos else low32 (rev * fbCpr ws ch + pos)

def attrPositionSet : OpAttr := { code := 0x1310, keyed := true, acc := .own, right := some 0 }

def checksPositionSet (r : Req) (c : Chip) : List Nat :=
  let ch := fld r.body 0 1
  (if r.body.length = 16 ∧ ch < 8 ∧ zeroFrom r.body 1 4 ∧ zeroFrom r.body 12 16 then [] else [stBadParam]) ++
  (if c.par Par.fbkMode ch = 3 ∧ fld r.body 8 4 ≠ 0 then [stBadParam] else []) ++
  (if fbUsed c.dev.cfg.ws ch then [stLocked] else [])

/-- The count T that two words stand for: in 64 bits where the revolution word is made of it, in count modes 0 and 1 (R174, R182). -/
def wordsCount (ws : List (Nat × Int)) (ch : Nat) (pos rev : Int) : Int :=
  if (Par.fbkMode.at ws ch = 3 ∨ Par.fbkMode.at ws ch = 4) ∨ Par.fbkCountMode.at ws ch = 2 then contValue ws ch pos rev else rev * fbCpr ws ch + pos

/-- The value that a preset gives T, from its two word fields (R185): the revolution word counts in count modes 0 and 1. -/
def presetValue (ws : List (Nat × Int)) (ch : Nat) (p : List Byte) : Int := wordsCount ws ch (sfld p 4 4) (sfld p 8 4)

/-- A lane's own base after a preset: moved by the preset value less the value agreed for S (R185). -/
def Chip.presetLane (c : Chip) (ch : Nat) (v : Int) (l : LaneId) : Chip :=
  let ws := c.dev.cfg.ws
  let f := nth c.dev.agreed.fb ch {}
  let own := nth (c.lane l).round.own.fb ch {}
  let now := if c.par Par.perFbShare ch = 1 then wordsCount ws ch f.pos.v f.rev.v else wordsCount ws ch own.pos own.rev
  c.modFb l ch (fun x => { x with base := x.base + (v - now), indexRef := false, indexBad := 0 })

/-- A reference shifted against a preset of its channel (R199). -/
def Chip.shifted (c : Chip) (k ch : Nat) (by_ : Int) (rho : Nat) : Nat :=
  unsignedOf 16 ((rho : Int) - quo (c.par Par.cmtPolePairs k * by_ * 65536) (fbCpr c.dev.cfg.ws ch))

/-- The references of the bridges that take their angle from a channel, and those that their engines have taken themselves, are shifted
with its count (R199). -/
def Chip.shiftRho (c : Chip) (ch : Nat) (by_ : Int) : Chip :=
  (List.range 4).foldl (fun c k =>
    let c := c.modMotor k (fun m => { m with
      rho := if c.parN Par.cmtAngleSrc k = ch then c.shifted k ch by_ m.rho else m.rho
      rho2 := if c.parN Par.cmtAngleSrc2 k = ch then c.shifted k ch by_ m.rho2 else m.rho2 })
    LaneId.all.foldl (fun c l => c.modEngine l k (fun e => { e with
      ownRefs := e.ownRefs.map (fun r => if r.1 = ch then (ch, c.shifted k ch by_ r.2) else r) })) c) c

def effectPositionSet (r : Req) (s : State) : OpOut :=
  OpOut.chip s (fun c =>
    let ch := fld r.body 0 1
    let v := presetValue c.dev.cfg.ws ch r.body
    let f := nth c.dev.agreed.fb ch {}
    let by_ := v - wordsCount c.dev.cfg.ws ch f.pos.v f.rev.v
    let c := LaneId.all.foldl (fun c l => c.presetLane ch v l) c
    let c := c.modDev (fun d => { d with agreed := { d.agreed with
      fb := modNth d.agreed.fb ch (fun f => { f with aligned := false, prevV := none }) } })
    (c.clearPairs ch).shiftRho ch by_)

/-- FBK.POSITION_SET: every lane sets its own base from the agreed count (R185). -/
def execPositionSet (r : Req) (s : State) : Out := .next (runOp attrPositionSet checksPositionSet effectPositionSet r s)

/-! ### Plausibility and substitution (R186 to R190) -/

/-- The agreed continuous value of a channel. -/
def Chip.contOf (c : Chip) (ch : Nat) : Int :=
  let f := nth c.dev.agreed.fb ch {}
  contValue c.dev.cfg.ws ch f.pos.v f.rev.v

/-- A channel fenced in every lane in authority. -/
def Chip.fbFencedAll (c : Chip) (ch : Nat) : Bool := c.authLanes.all (fun l => c.unitFenced l 0x09 ch)

/-- A loop context or a bridge reads a channel (R188). -/
def fbRead (ws : List (Nat × Int)) (k : Nat) : Bool :=
  (List.range 64).any (fun n => decide (Par.loopEnable.at ws n = 1) &&
    (let s := (Par.loopPvSrc.at ws n).toNat; decide (s = 0x10 + k ∨ s = 0x18 + k))) ||
  (List.range 4).any (fun b => bridgeUsed ws b && (decide (Par.cmtAngleSrc.at ws b = k) || decide (Par.cmtAngleSrc2.at ws b = k)))

/-- The suspect of a pair whose check has failed its number of periods: fenced in every lane, or fault 0x1309 (R188). -/
def Chip.plausAct (c : Chip) (x p : Nat) : Chip :=
  let fx := nth c.dev.agreed.fb x {}
  let fp := nth c.dev.agreed.fb p {}
  if fx.suspX != fx.suspP && decide (2 ≤ fx.givers ∧ 2 ≤ fp.givers) then
    let s := if fx.suspX then x else p
    (c.fenceEverywhere 0x09 s).agreedFault 0x1308 0x09 s 0xFF
  else
    let c := c.agreedFault 0x1309 0x09 x 0xFF
    if fbRead c.dev.cfg.ws x || fbRead c.dev.cfg.ws p then c.stopCause 5 else c

/-- The base of a pair (R187). -/
def Chip.pairBase (c : Chip) (x p : Nat) : Int :=
  low32 (c.contOf x - quo (c.contOf p * c.par Par.fbkPlausDen x) (c.par Par.fbkPlausNum x))

/-- The error of a pair against its base (R187). -/
def Chip.pairError (c : Chip) (x p : Nat) (base : Int) : Int :=
  let d := low32 (c.contOf x - base)
  low32 (c.contOf p - quo (d * c.par Par.fbkPlausNum x) (c.par Par.fbkPlausDen x))

/-- The value of a channel substituted from its partner (R190). -/
def Chip.substitute (c : Chip) (x p : Nat) (base : Int) : Chip :=
  let v := low32 (base + quo (c.contOf p * c.par Par.fbkPlausDen x) (c.par Par.fbkPlausNum x))
  let ws := c.dev.cfg.ws
  let w := if Par.fbkMode.at ws x = 3 then (Int.fmod v (fbCpr ws x), 0) else fbWords ws x v v
  c.modAgreedFb x (fun f => { f with pos := { v := w.1, valid := true, age := 0 }, rev := { v := w.2, valid := true, age := 0 }, substituted := true })

/-- The end of a substitution: the pair's base is captured anew (R187). -/
def Chip.endSubst (c : Chip) (x : Nat) : Chip :=
  if (nth c.dev.agreed.fb x {}).substituted then c.modAgreedFb x (fun f => { f with substituted := false, plausBase := none }) else c

/-- One run of the check of a pair with a base (R187, R188). -/
def Chip.plausRun (c : Chip) (x p : Nat) (base : Int) : Chip :=
  let e := c.pairError x p base
  let sx := (nth c.dev.agreed.fb x {}).suspect
  let sp := (nth c.dev.agreed.fb p {}).suspect
  if c.par Par.fbkPlausTol x < (e.natAbs : Int) then
    let c := c.modAgreedFb x (fun f => { f with
      plausErr := e, plausCount := satInc 255 f.plausCount, suspX := f.suspX || sx, suspP := f.suspP || sp })
    if (nth c.dev.agreed.fb x {}).plausCount = c.parN Par.fbkPlausCount x then c.plausAct x p else c
  else c.modAgreedFb x (fun f => { f with plausErr := e, plausCount := 0, suspX := false, suspP := false })

/-- A first index alignment that the period has agreed takes the base from the pairs of the channel, before any check of the period
(R175, R187). -/
def Chip.fbAlign (c : Chip) (x : Nat) : Chip :=
  let f := nth c.dev.agreed.fb x {}
  if c.par Par.fbkMode x ≠ 0 ∧ c.par Par.fbkCountMode x = 1 ∧ f.indexSeen = true ∧ f.aligned = false then
    (c.modAgreedFb x (fun f => { f with aligned := true })).clearPairs x
  else c

/-- Work item 74 + X: substitution and plausibility of channel X (R186 to R190). -/
def Chip.fbItem (c : Chip) (x : Nat) : Chip :=
  let p := c.parN Par.fbkPlausPartner x
  if c.par Par.fbkMode x = 0 ∨ p = 255 then c.endSubst x
  else
    let pv := (nth c.dev.agreed.fb p {}).pos.valid
    let xv := (nth c.dev.agreed.fb x {}).pos.valid
    match (nth c.dev.agreed.fb x {}).plausBase with
    | some base =>
      if c.fbFencedAll x && decide (c.par Par.fbkSubst x = 1) then
        (if pv then c.substitute x p base else c)
      else
        let c := c.endSubst x
        if (nth c.dev.agreed.fb x {}).plausBase.isNone then (if xv && pv then c.modAgreedFb x (fun f => { f with plausBase := some (c.pairBase x p) }) else c)
        else if xv && pv then c.plausRun x p base else c
    | none =>
      let c := c.endSubst x
      if xv && pv then c.modAgreedFb x (fun f => { f with plausBase := some (c.pairBase x p), plausCount := 0, suspX := false, suspP := false }) else c

/-- The marks of channel faults of the period are used up. -/
def Chip.clearSuspects (c : Chip) : Chip :=
  c.modDev (fun d => { d with agreed := { d.agreed with fb := d.agreed.fb.map (fun f => { f with suspect := false }) } })

/-- A channel in use is left with one lane or with none, and has no plausibility pair that helps (R189, rule F of R44). -/
def Chip.fbLeft (c : Chip) (ch : Nat) : Bool :=
  let f := nth c.dev.agreed.fb ch {}
  let paired := decide (c.parN Par.fbkPlausPartner ch ≠ 255) || (List.range 8).any (fun x => decide (c.parN Par.fbkPlausPartner x = ch))
  fbUsed c.dev.cfg.ws ch && decide (c.par Par.fbkMode ch ≠ 0) && decide (c.par Par.perFbShare ch = 1) &&
    ((f.pos.valid && decide (f.givers = 1) && !paired && !f.substituted) || (c.fbFencedAll ch && !(f.substituted && f.pos.valid)))

end Sys2Proof.Machine
end

