-- ==== Sys2Proof/Machine/Gate.lean ====
section
/-! DEFINITION. Gate drivers (chapter 09): legs and targets, leg faults and the soft turn-off, and the off-state test. -/

namespace Sys2Proof.Machine

open Sys2Proof

/-! ### Legs and targets (R225, R242) -/

/-- The target, 0 to 9, that holds a leg (R225, R242). -/
def targetOf : Leg → Nat
  | .lane _ n => n.val / 3
  | .pintle n => if n.val < 24 then 4 + n.val / 4 else if n.val < 27 then 2 else 3

/-- The first leg of a target in its die, and its number of legs (R225). -/
def targetLegs (t : Nat) : Nat × Nat :=
  if t = 0 then (0, 3) else if t = 1 then (3, 3) else if t = 2 then (24, 3) else if t = 3 then (27, 3) else (4 * (t - 4), 4)

/-- The claimed output 0 to 7 of a Pintle target (R427: ST0 to ST5, BM0, BM1). -/
def targetOut (t : Nat) : Nat := if t < 4 then t + 4 else t - 4

/-- The bridge or channel of a target is in use (R551). -/
def targetUsed (ws : List (Nat × Int)) (t : Nat) : Bool := if t < 4 then bridgeUsed ws t else stepUsed ws (t - 4)

/-- The driver group of a target (R225). -/
def targetGroup (t : Nat) : Nat := if t < 2 then t else if t < 4 then 3 else 2

/-- The state of a target in a lane, or in the Pintle die (R249). -/
def Chip.targetAt (c : Chip) (l : LaneId) (t : Nat) : Target :=
  if t < 2 then nth (c.lane l).targets t {} else nth c.pintle.targets (t - 2) {}

/-- A target changed in a lane, or in the Pintle die. -/
def Chip.modTarget (c : Chip) (l : LaneId) (t : Nat) (f : Target → Target) : Chip :=
  if t < 2 then c.modLane l (fun n => { n with targets := modNth n.targets t f })
  else c.modPintle (fun p => { p with targets := modNth p.targets (t - 2) f })

/-- A leg's state. -/
def Chip.legAt (c : Chip) : Leg → LegSt
  | .lane l n => nth (c.lane l).legs n.val {}
  | .pintle n => nth c.pintle.legs n.val {}

/-- A leg changed. -/
def Chip.modLeg (c : Chip) (g : Leg) (f : LegSt → LegSt) : Chip :=
  match g with
  | .lane l n => c.modLane l (fun x => { x with legs := modNth x.legs n.val f })
  | .pintle n => c.modPintle (fun p => { p with legs := modNth p.legs n.val f })

/-- The lane whose timebase dates an event at a leg: its own, or the first running one for the Pintle die. -/
def Chip.legNt (c : Chip) : Leg → Nat
  | .lane l _ => (c.lane l).clock.nt
  | .pintle _ => ((LaneId.all.find? (fun l => (c.lane l).clock.running)).map (fun l => (c.lane l).clock.nt)).getD 0

/-- The lane of a leg, or A for the Pintle die, whose targets are its own. -/
def legLane : Leg → LaneId
  | .lane l _ => l
  | .pintle _ => .a

/-- Legs of a target that are latched, as a mask in its own order (R249). -/
def Chip.latchMask (c : Chip) (l : LaneId) (t : Nat) : Mask :=
  let (lo, n) := targetLegs t
  let legs := if t < 2 then (c.lane l).legs else c.pintle.legs
  (List.range n).foldl (fun m j => setBit m j (nth legs (lo + j) {}).latch.isSome) 0

/-- VBRa: the mid-value of the VBR items of the lanes in the agreement set, the lower of two, or the only one (R257). -/
def Chip.vbra (c : Chip) : Nat :=
  match (lanesOf c.dev.aset).filterMap (fun l => if (c.dev.agreed.vbr.get l).valid then some (c.dev.agreed.vbr.get l).v else none) with
  | [x] => x.toNat
  | [x, y] => (min x y).toNat
  | x :: y :: z :: _ => (mid3 x y z).toNat
  | [] => 0

/-- The band that waits for a target's PWM boundary comes into force (R227). -/
def Target.takeBand (x : Target) (boundary : Nat) : Target :=
  match x.bandNext with
  | some (b, nt) => if nt ≤ boundary then { x with band := b, bandNext := none } else x
  | none => x

/-! ### Faults of a power stage (R235, R238) -/

/-- A fault of a power stage found by its driver: a local record and a winding-set fence to be agreed for a lane target; the
report's fault, and the output fenced at once, for a Pintle target (R235, R428, R429). -/
def Chip.stageFault (c : Chip) (l : LaneId) (t code : Nat) : Chip :=
  if t < 2 then
    (c.localFault l code 0x07 t l.idx).modLane l (fun n => { n with
      fencedNow := if n.fencedNow.contains (0x07, t) then n.fencedNow else n.fencedNow ++ [(0x07, t)]
      engines := modNth n.engines t (fun e => e.halt .off) })
  else
    let o := targetOut t
    (c.modPOut o (fun x => { x with fenced := true, driven := {}, lastPassed := {}, gap := false })).modPintle (fun p => { p with
      faults := p.faults ++ [(code, 0x06, o)] })

/-- The record of a stage fault that the gross-current code replaces in the same tick (R238). -/
def Chip.recode (c : Chip) (g : Leg) (old new : Nat) : Chip :=
  match g with
  | .lane l n =>
    c.modLane l (fun x => { x with fault := { x.fault with queue := x.fault.queue.map (fun r =>
      if r.code = old ∧ r.utype = 0x07 ∧ r.inst = n.val / 3 ∧ r.nt = x.clock.nt then { r with code := new } else r) } })
  | .pintle _ =>
    c.modPintle (fun p => { p with faults := p.faults.map (fun r => if r = (old, 0x06, targetOut (targetOf g)) then (new, 0x06, targetOut (targetOf g)) else r) })

/-- A leg fault latched: the leg is held off with every other gate of its bridge or channel, the stage is fenced, and a
second short in the PWM period records 0x1105 (R235, R238). A latched leg latches nothing more, but the gross-current code
stands for a leg whose two detectors act in one tick. -/
def Chip.latchLeg (c : Chip) (g : Leg) (code : Nat) (low short : Bool) : Chip :=
  let t := targetOf g
  let l := legLane g
  match (c.legAt g).latch with
  | some old =>
    if code = 0x1104 ∧ old = 0x1103 ∧ (c.legAt g).at_ = c.legNt g then
      (c.modLeg g (fun x => { x with latch := some code })).recode g old code
    else c
  | none =>
    let second := short && (c.targetAt l t).shortNow
    let c := c.modLeg g (fun x => { x with latch := some code, lowSide := low, at_ := c.legNt g })
    let c := if short then c.modTarget l t (fun x => { x with shorts := satInc 65535 x.shorts, shortNow := true }) else c
    let c := if t < 2 && low then c.modSet t l (fun w => { w with gatesOff := true }) else c
    let c := c.stageFault l t code
    if second then c.stageFault l t 0x1105 else c

/-- A field of the profile set in force for a leg (R227). -/
def Chip.profile (c : Chip) (p : PInfo) (g : Leg) : Nat := c.parN p (8 * targetGroup (targetOf g) + (c.targetAt (legLane g) (targetOf g)).band)

/-- INTERLOCK_TIMEOUT: a gate turned off for a time in ns is still at or above 2.0 V. A wait beyond the dead time is counted; after 2 µs
both switches are turned off with fault 0x1101 (R229). -/
def interlockTimeout (g : Leg) (waited : Nat) (c : Chip) : Chip :=
  let c := if 5 * c.profile Par.gdrDeadtime g < 4 * waited then
      c.modTarget (legLane g) (targetOf g) (fun x => { x with waits := satInc (2 ^ 32 - 1) x.waits }) else c
  if waited < 2000 then c else c.latchLeg g 0x1101 false false

def execInterlockTimeout (g : Leg) (waited : Nat) (s : State) : Out := .next (s.onChip (interlockTimeout g waited))

/-- BOTH_ON_COMMAND: both switches commanded on in one edge slot: both off, fault 0x1102 (R231). -/
def bothOnCommand (g : Leg) (c : Chip) : Chip := c.latchLeg g 0x1102 true false

def execBothOnCommand (g : Leg) (s : State) : Out := .next (s.onChip (bothOnCommand g))

/-- The threshold in mV of a code of GDR.VDS_TH (R232). -/
def vdsThreshold (n : Nat) : Nat := if n ≤ 16 then 100 + 25 * n else 500 + 100 * (n - 16)

/-- The VDS comparator of a commanded switch trips: above the threshold for 100 ns without a break, after the blanking time (R232). -/
def Chip.vdsTrips (c : Chip) (g : Leg) (mv since above : Nat) : Bool :=
  decide (vdsThreshold (c.profile Par.gdrVdsTh g) < mv) && decide (100 ≤ above) &&
    decide (250 * c.parN Par.gdrVdsBlank (targetGroup (targetOf g)) + 100 ≤ since)

/-- VDS_SHORT: a switch on for a time in ns has a drain-source voltage in mV for a part of it without a break. When the comparator trips,
the switch is soft turned off and the leg latched with 0x1103 (R232, R234). -/
def vdsShort (g : Leg) (highSide : Bool) (mv since above : Nat) (c : Chip) : Chip :=
  if (c.legAt g).latch.isSome ∨ c.vdsTrips g mv since above = false then c
  else (c.modLeg g (fun x => { x with soft := 1 })).latchLeg g 0x1103 (!highSide) true

def execVdsShort (g : Leg) (highSide : Bool) (mv since above : Nat) (s : State) : Out := .next (s.onChip (vdsShort g highSide mv since above))

/-- Every leg of the target that holds a leg. -/
def legsWith (g : Leg) : List Leg :=
  let (lo, n) := targetLegs (targetOf g)
  match g with
  | .lane l _ => (List.range n).filterMap (fun j => if h : lo + j < 6 then some (.lane l ⟨lo + j, h⟩) else none)
  | .pintle _ => (List.range n).filterMap (fun j => if h : lo + j < 30 then some (.pintle ⟨lo + j, h⟩) else none)

/-- The gross-current threshold of a leg in µA: GDR.GROSS_I rounded down to a multiple of 64 × CMT.I_LSB, or of 1/128 of the full scale
of the sense of a Pintle leg (R233). -/
def Chip.grossLimit (c : Chip) (g : Leg) : Nat :=
  let t := targetOf g
  let i := 1000 * c.parN Par.gdrGrossI (targetGroup t)
  let unit := match g with
    | .lane _ _ => 64 * c.parN Par.cmtILsb t
    | .pintle n => 1000 * Config.coilFullScale n.val / 128
  i / max 1 unit * max 1 unit

/-- A current in mA crosses the gross threshold of a leg (R233). -/
def Chip.grossTrips (c : Chip) (g : Leg) (ma : Int) : Bool := decide (c.grossLimit g < 1000 * ma.natAbs)

/-- The gross comparator of a leg has tripped: every gate of its bridge or channel starts its soft turn-off, and the leg is latched with
0x1104 (R233, R234). -/
def grossTrip (g : Leg) (c : Chip) : Chip :=
  ((legsWith g).foldl (fun c x => c.modLeg x (fun y => { y with soft := 1 })) c).latchLeg g 0x1104 true true

/-- GROSS_CURRENT: a current in a leg crosses the threshold, on its low side or not (R233). -/
def grossCurrent (g : Leg) (ma : Int) (lowSide : Bool) (c : Chip) : Chip :=
  if c.grossTrips g ma then (grossTrip g c).modLeg g (fun x => { x with lowSide := lowSide || x.lowSide }) else c

def execGrossCurrent (g : Leg) (ma : Int) (lowSide : Bool) (s : State) : Out := .next (s.onChip (grossCurrent g ma lowSide))

/-- SOFT_OFF_END: after 2 µs the gate goes to the strong sink (R234). -/
def softOffEnd (g : Leg) (c : Chip) : Chip := c.modLeg g (fun x => if x.soft = 1 then { x with soft := 2 } else x)

def execSoftOffEnd (g : Leg) (s : State) : Out := .next (s.onChip (softOffEnd g))

/-! ### The off-state test (R240 to R243) -/

/-- A target's die runs its automatic off-state test (R243). -/
def Chip.ostAuto (c : Chip) (t : Nat) : Bool := targetUsed c.dev.cfg.ws t && decide (c.par Par.gdrOstAuto (targetGroup t) = 1)

/-- A target's tracked speed is below CMT.CATCH_MIN; a stepper channel has none (R243). -/
def Chip.ostSlow (c : Chip) (t : Nat) : Bool :=
  decide (4 ≤ t) || decide (((nth c.dev.motors t {}).speed.natAbs : Int) < 10 * c.par Par.cmtCatchMin t)

/-- Automatic tests that are due and may run start, those of the Pintle die by its holder (R242, R243). -/
def Chip.startAutoTests (c : Chip) : Chip :=
  (List.range 10).foldl (fun c t =>
    if c.ostAuto t && !c.targetSwitches t && c.ostSlow t then
      (if t < 2 then LaneId.all else [LaneId.a]).foldl (fun c l =>
        let x := c.targetAt l t
        if x.due && x.run.isNone && (if t < 2 then c.inAuth l else c.pintle.holder.isSome && !c.pintle.holding) then c.modTarget l t (fun x => { x with run := some { auto := true } }) else c) c
    else c) c

/-- A reading of 10 mV units is high: above (1 − w) of the bus (R240). -/
def ostHigh (w vbr mv : Nat) : Bool := decide ((100 - w) * vbr < 1000 * mv)

/-- A reading is low: below w of the bus (R240). -/
def ostLow (w vbr mv : Nat) : Bool := decide (1000 * mv < w * vbr)

/-- The places of the nodes that are expected to follow the fed leg's: all of a bridge, the two ends of one coil (R240). -/
def expectedNodes (t j : Nat) : List Nat := if t < 4 then [0, 1, 2] else [2 * (j / 2), 2 * (j / 2) + 1]

/-- Whether a step of the test, 2j a source step of leg j and 2j + 1 its sink step, matches a row of R241 (1 ground, 2 bus,
3 open, 4 leakage). A step that fits no row and is no pass is judged open (log 28). -/
def ostMatch (t w vbr row k : Nat) (nodes : List Nat) : Bool :=
  let j := k / 2
  let source := decide (k % 2 = 0)
  let hi (i : Nat) : Bool := ostHigh w vbr (nth nodes i 0)
  let lo (i : Nat) : Bool := ostLow w vbr (nth nodes i 0)
  let ex := expectedNodes t j
  let all := List.range (targetLegs t).2
  match row with
  | 4 => all.any (fun i => !hi i && !lo i)
  | 1 => source && ex.all lo
  | 2 => !source && ex.all hi
  | _ => if source then !(ex.all hi) else !(ex.all lo)

/-- The verdict of a finished test: its result, the leg fed in the deciding step or 0xFF, and the readings (R241, R242). -/
def ostVerdict (t w vbr : Nat) (readings : List (List Nat)) : Nat × Nat × List Nat :=
  let steps := (List.range readings.length).map (fun k => (k, nth readings k []))
  let find (row : Nat) : Option (Nat × List Nat) := steps.find? (fun e => ostMatch t w vbr row e.1 e.2)
  let leg (k : Nat) : Nat := (targetLegs t).1 + k / 2
  match find 4, find 1, find 2, find 3 with
  | some (k, r), _, _, _ => (4, leg k, r)
  | none, some (k, r), _, _ => (1, leg k, r)
  | none, none, some (k, r), _ => (2, leg k, r)
  | none, none, none, some (k, r) => (3, leg k, r)
  | none, none, none, none => (0, 0xFF, readings.getLastD [])

/-- The fault code of a result (R241). -/
def ostFault (result : Nat) : Nat := if result = 1 then 0x1106 else if result = 2 then 0x1107 else if result = 3 then 0x1108 else 0x1109

/-- The quad of R242 for a target as a die holds it. -/
def Target.quad (x : Target) (t : Nat) : List Byte :=
  toLe 1 t ++ toLe 1 x.result ++ toLe 1 x.leg ++ toLe 1 0 ++
    ((List.range 4).flatMap (fun j => toLe 2 (nth x.nodes j 0))) ++ toLe 4 0

/-- The final reply of a test once every selected lane has its result (R242). -/
def Chip.ostFinish (c : Chip) (l : LaneId) (t : Nat) : Chip :=
  (c.dev.pend.filter (fun p => p.opcode == 0x1110 && p.arg == t)).foldl (fun c p =>
    let res := if t < 2 then p.results.set l (some 0) else Tri.all (some 0)
    let q := { p with results := res }
    let c := c.modDev (fun d => { d with pend := d.pend.map (fun x => if x = p then q else x) })
    if (lanesOf q.lanes).all (fun k => (q.results.get k).isSome) then
      c.finalReply q stOk ((lanesOf q.lanes).flatMap (fun k => (c.targetAt k t).quad t))
    else c) c

/-- The bridge supply by which a test is judged: the lane's, or VBRa for the Pintle die (R240, R257). -/
def Chip.ostVbr (c : Chip) (l : LaneId) (t : Nat) : Nat := if t < 2 then (c.lane l).vbr else c.vbra

/-- The end of a test: its result kept, a failure fencing the set or output (R241, R242). -/
def Chip.ostEnd (c : Chip) (l : LaneId) (t : Nat) (readings : List (List Nat)) : Chip :=
  let v := ostVerdict t (c.parN Par.gdrOstWindow (targetGroup t)) (c.ostVbr l t) readings
  let c := c.modTarget l t (fun x => { x with run := none, due := false, passed := x.passed || decide (v.1 = 0), result := v.1, leg := v.2.1, nodes := v.2.2 })
  let c := if v.1 = 0 then c else c.stageFault l t (ostFault v.1)
  c.ostFinish l t

/-- OST_STEP_SETTLE: the nodes are read, and the test moves on or ends (R240). -/
def ostStepSettle (l : LaneId) (target : Fin 10) (nodes : List Nat) (c : Chip) : Chip :=
  let t := target.val
  match (c.targetAt l t).run with
  | none => c
  | some run =>
    let rs := run.readings ++ [nodes]
    if run.step + 1 < 2 * (targetLegs t).2 then c.modTarget l t (fun x => { x with run := some { run with step := run.step + 1, readings := rs } })
    else c.ostEnd l t rs

def execOstStepSettle (l : LaneId) (target : Fin 10) (nodes : List Nat) (s : State) : Out :=
  .next (s.onChip (ostStepSettle l target nodes))

def attrOffstateTest : OpAttr := { code := 0x1110, laneLocal := true, keyed := true, acc := .own, pend := true, right := some 2 }

def checksOffstateTest (r : Req) (c : Chip) : List Nat :=
  let t := fld r.body 0 1
  quadFails r.body 1 ++ (if t < 10 ∧ targetUsed c.dev.cfg.ws t = true then [] else [stBadParam]) ++
    (if c.targetSwitches t then [stLocked] else []) ++ (if c.ostRuns t then [stBusy] else [])

def effectOffstateTest (r : Req) (s : State) : OpOut :=
  let t := fld r.body 0 1
  let start (c : Chip) (l : LaneId) : Chip := c.modTarget l t (fun x => { x with run := some {} })
  if t < 2 then
    { st := s.onChip (fun c => (r.lanes.foldl start c).addPend 0x1110 r { lanes := maskOf r.lanes, arg := t }), status := stPending }
  else if s.chip.pintle.holder.isSome ∧ s.chip.pintle.holding = false then
    { st := s.onChip (fun c => (start c .a).addPend 0x1110 r { lanes := maskOf r.lanes, arg := t }), status := stPending }
  else
    let st := s.onChip (fun c => c.modTarget .a t (fun x => { x with result := 5, leg := 0xFF, nodes := [] }))
    { st := st, payload := r.lanes.flatMap (fun l => (st.chip.targetAt l t).quad t) }

/-- GDR.OFFSTATE_TEST: the test of a target in each selected lane, or once in the Pintle die by its holder (R242); with no
holder to command it, the result is deferred (log 28). -/
def execOffstateTest (r : Req) (s : State) : Out := .next (runOp attrOffstateTest checksOffstateTest effectOffstateTest r s)

def attrLegClear : OpAttr := { code := 0x1111, laneLocal := true, keyed := true, acc := .parked, right := some 2 }

def checksLegClear (r : Req) (c : Chip) : List Nat :=
  let t := fld r.body 0 1
  quadFails r.body 2 ++ (if t < 10 ∧ targetUsed c.dev.cfg.ws t = true ∧ fld r.body 1 1 < 2 ^ (targetLegs t).2 then [] else [stBadParam])

/-- Latches of the legs in a mask cleared in one die, and the target marked for a test (R236). -/
def Chip.clearLegs (c : Chip) (l : LaneId) (t m : Nat) : Chip :=
  let (lo, n) := targetLegs t
  let clear (xs : List LegSt) : List LegSt := xs.mapIdx (fun i x => if lo ≤ i ∧ i < lo + n ∧ m.testBit (i - lo) = true then {} else x)
  let c := if t < 2 then c.modLane l (fun x => { x with legs := clear x.legs }) else c.modPintle (fun p => { p with legs := clear p.legs })
  c.modTarget l t (fun x => { x with due := true, passed := false })

/-- Failed lines of a lane to the legs in a mask cleared (R247). -/
def Chip.clearLines (c : Chip) (l : LaneId) (t m : Nat) : Chip :=
  let (lo, n) := targetLegs t
  let hit (i : Nat) : Bool := decide (lo ≤ i ∧ i < lo + n) && m.testBit (i - lo)
  c.modPLane l (fun p => { p with failedLines := p.failedLines.filter (fun i => !hit i), deviations := p.deviations.mapIdx (fun i k => if hit i then 0 else k) })

def effectLegClear (r : Req) (s : State) : OpOut :=
  let t := fld r.body 0 1
  let m := fld r.body 1 1
  OpOut.chip s (fun c =>
    if t < 2 then r.lanes.foldl (fun c l => c.clearLegs l t m) c
    else r.lanes.foldl (fun c l => c.clearLines l t m) (c.clearLegs .a t m))

/-- GDR.LEG_CLEAR: leg latches and failed lines cleared, and the target marked for an off-state test (R236, R247). -/
def execLegClear (r : Req) (s : State) : Out := .next (runOp attrLegClear checksLegClear effectLegClear r s)

/-- A test in the dies for whose target nothing has been tested since the formation, admission or first claim becomes due (R243). -/
def Chip.dueTests (c : Chip) (lanes : List LaneId) (pintle : Bool) : Chip :=
  let c := lanes.foldl (fun c l => [0, 1].foldl (fun c t => c.modTarget l t (fun x => { x with due := true })) c) c
  if pintle then (List.range 8).foldl (fun c k => c.modTarget .a (k + 2) (fun x => { x with due := true })) c else c

/-- The conditions of R236 on the unfence of a set or output: no leg latched, and a test passed since the last clearing. -/
def Chip.stageReady (c : Chip) (l : LaneId) (t : Nat) : Bool :=
  decide (c.latchMask l t = 0) && (c.targetAt l t).passed

end Sys2Proof.Machine
end

