-- ==== Sys2Proof/Machine/Launch.lean ====
section
/-! DEFINITION. Pending launches (R353 to R356): the boundary of a timed operation, its place in an output's queue, and the
events that discard a queue. -/

namespace Sys2Proof.Machine

open Sys2Proof

/-! ### Outputs and their grids (R354): 0 to 3 MB0, MB1, BM0, BM1; 4 to 9 ST0 to ST5; 10 to 13 SO0 to SO3 -/

/-- The unit of an output in a fault record (R360, R427). -/
def launchUnit (out : Nat) : Nat × Nat :=
  if out < 2 then (0x07, out) else if out < 4 then (0x06, out + 4) else if out < 10 then (0x06, out - 4) else (0x12, out - 10)

/-- The output number of a claimed output 0 to 7 (ST0 to ST5, BM0, BM1). -/
def claimedLaunch (o : Nat) : Nat := if o < 6 then o + 4 else o - 4

/-- The grid of an output in ns (R354). -/
def gridOf (ws : List (Nat × Int)) (out : Nat) : Nat :=
  if out < 4 then (Par.cmtPwmPeriod.at ws out).toNat
  else if out < 10 then (Par.stpPwmPeriod.at ws (out - 4)).toNat
  else 10000

/-- The quotient rounded up. -/
def ceilDiv (a b : Nat) : Nat := (a + b - 1) / b

/-- The boundary of a launch time on a grid: its control-period count and index (R354). The grid starts with the basic cycle,
PER.SAMPLE_OFFSET before S. -/
def Chip.boundaryOf (c : Chip) (grid l : Nat) : Nat × Nat :=
  let start := c.dev.sn - c.parN Par.perSampleOffset
  let at_ := ceilDiv (l - start) grid * grid
  (c.dev.count + at_ / c.period, at_ % c.period / grid)

/-- The control period whose launch point is the first one not before a launch time (R290, R354). -/
def Chip.launchPeriod (c : Chip) (l : Nat) : Nat := c.dev.count + ceilDiv (l - c.launchNt) c.period

/-- A launch queued for an output (R355). -/
def Chip.addLaunch (c : Chip) (out kind l : Nat) (args : List Byte) (session : Nat) : Chip :=
  let (n, i) := c.boundaryOf (gridOf c.dev.cfg.ws out) l
  c.modDev (fun d => { d with launches := d.launches ++ [{ out := out, count := n, index := i, kind := kind, args := args, by_ := session }] })

/-- A loop operation queued in the queue of the output at the end of its chain: it enters at a launch point (R290). -/
def Chip.addLoopLaunch (c : Chip) (out kind l : Nat) (args : List Byte) (session : Nat) : Chip :=
  c.modDev (fun d => { d with launches := d.launches ++ [{ out := out, count := c.launchPeriod l, index := 0, kind := kind, args := args, by_ := session }] })

/-- A timed request finds an output's queue full (R353). -/
def Chip.queueFails (c : Chip) (r : Req) (outs : List Nat) : List Nat :=
  if r.isTimed && outs.any c.launchFull then [stNoResource] else []

/-- Launches of output kinds 1 to 7, which take effect at a boundary of the output's grid. -/
def Launch.gridded (x : Launch) : Bool := decide (1 ≤ x.kind ∧ x.kind ≤ 7)

/-- The launches of an output that fall on its next boundary, in the order of acceptance (R356). -/
def Chip.nextLaunches (c : Chip) (out : Nat) : List Launch :=
  let xs := c.dev.launches.filter (fun x => x.gridded && x.out == out)
  xs.filter (fun x => xs.all (fun y => decide (x.count < y.count ∨ (x.count = y.count ∧ x.index ≤ y.index))))

/-- The loop and frame launches that enter at the launch point of the present period. -/
def Chip.dueLaunches (c : Chip) : List Launch := c.dev.launches.filter (fun x => !x.gridded && decide (x.count ≤ c.dev.count))

/-- Launches taken out of their queues. -/
def Chip.dropLaunches (c : Chip) (xs : List Launch) : Chip :=
  c.modDev (fun d => { d with launches := d.launches.filter (fun x => !xs.contains x) })

/-- Every pending launch of an output discarded: fault 0x2108 once for an output that has one (R356). -/
def Chip.discardLaunches (c : Chip) (out : Nat) : Chip :=
  if c.dev.launches.any (fun x => x.out == out) then
    (c.modDev (fun d => { d with launches := d.launches.filter (fun x => x.out != out) })).agreedFault 0x2108 (launchUnit out).1 (launchUnit out).2 0xFF
  else c

/-- Every output's launches discarded (R356). -/
def Chip.discardAll (c : Chip) : Chip := (List.range 14).foldl (fun c o => c.discardLaunches o) c

/-! ### PWM periods after a launch point (R262, R245) -/

/-- The index, from the first boundary at or after S, of the first PWM boundary at or after the launch point (R262). -/
def Chip.firstPwm (c : Chip) (pwm : Nat) : Nat :=
  let so := c.parN Par.perSampleOffset
  ceilDiv (c.parN Par.perLaunchOffset - (ceilDiv so pwm * pwm - so)) pwm

/-- The PWM periods of a control period. -/
def Chip.pwmCount (c : Chip) (pwm : Nat) : Nat := c.period / pwm

/-- The number j after its launch point of the PWM period with an index from S (R262). -/
def Chip.pwmAfter (c : Chip) (pwm index : Nat) : Nat :=
  let n := c.pwmCount pwm
  (index + n - c.firstPwm pwm % n) % n

/-- The PWM index in which S falls: 0 when S lies on a boundary, else the last one of the period before (R245). -/
def Chip.pwmAtS (c : Chip) (pwm : Nat) : Nat := if c.parN Par.perSampleOffset % pwm = 0 then 0 else c.pwmCount pwm - 1

/-- The number j of a launch boundary, whose index counts from the start of the basic cycle (R354). -/
def Chip.boundaryAfter (c : Chip) (pwm index : Nat) : Nat :=
  let n := c.pwmCount pwm
  c.pwmAfter pwm ((index + n - ceilDiv (c.parN Par.perSampleOffset) pwm % n) % n)

end Sys2Proof.Machine
end

