-- ==== Sys2Proof/Machine/Stepper.lean ====
section
/-! DEFINITION. Valve steppers (chapter 10): the step table, coil targets, profiles, homing, stall and lost step, the coil
loops of a lane, and the STP operations. -/

namespace Sys2Proof.Machine

open Sys2Proof

/-! ### The step table (R253, R254) -/

/-- The table in use for a channel (R254). -/
def Chip.stpTable (c : Chip) (k : Nat) : List (Nat × Nat) :=
  if Par.stpTabCrc.at c.dev.cfg.ws k = 0 then [] else if k = 0 then c.dev.cfg.tab0 else if k = 1 then c.dev.cfg.tab1 else []

/-- The coil fractions of an electrical microstep (R253). -/
def coilFractions (t : List (Nat × Nat)) (m : Nat) : Int × Int :=
  let e := tableEntry t (m % 256)
  let a : Int := e.1
  let b : Int := e.2
  match m / 256 % 4 with
  | 0 => (a, b)
  | 1 => (-b, a)
  | 2 => (-a, -b)
  | _ => (b, -a)

/-- The electrical microstep of a position (R253). -/
def elecStep (dir : Int) (x : Int) : Nat := unsignedOf 10 (x * (1 - 2 * dir))

/-- The coil-current targets in mA at a position and a current (R253). -/
def Chip.coilTargets (c : Chip) (k : Nat) (x : Int) (amp : Nat) : Int × Int :=
  let f := coilFractions (c.stpTable k) (elecStep (c.par Par.stpDir k) x)
  (quo (amp * f.1) 32767, quo (amp * f.2) 32767)

/-- The position used in PWM period j of n after a launch point, from x0 at period j0 to x1 (R262, R354). -/
def stpAt (x0 x1 : Int) (j0 j n : Nat) : Int := x0 + quo ((x1 - x0) * ((j - j0 : Nat) : Int)) ((n - j0 : Nat) : Int)

/-- The profile position at S, under the command of the launch point before it (R262, R269). -/
def Chip.stpAtS (c : Chip) (k : Nat) : Int :=
  let s := nth c.dev.steppers k {}
  let pwm := c.parN Par.stpPwmPeriod k
  stpAt s.x0 s.x1 s.j0 (c.pwmAfter pwm (c.pwmAtS pwm)) (c.pwmCount pwm)

/-- The coarse grid of a channel's rest positions (R252). -/
def stpGrid (ws : List (Nat × Int)) (k : Nat) : Int := if k < 2 then 1 else quo 256 (Par.stpStepDiv.at ws k)

/-- A profile position as whole microsteps, rounded toward zero (R262). -/
def wholeStep (x : Int) : Int := quo x 65536

/-- The sign of a number. -/
def sgn (x : Int) : Int := if x < 0 then -1 else if 0 < x then 1 else 0

/-! ### Profiles (R261, log 13) -/

/-- The change of a velocity at an acceleration in a time in ns, never zero for a nonzero acceleration. -/
def dvOf (acc : Int) (dt : Nat) : Int := if acc = 0 then 0 else max 1 (quo (acc * dt) 1000000000)

/-- The position step in 2^-16 microstep between two velocities, with the remainder of its division carried. -/
def dxOf (v0 v1 : Int) (dt : Nat) (rem : Int) : Int × Int :=
  let n := (v0 + v1) * dt * 65536 + rem
  (quo n 2000000000, n - quo n 2000000000 * 2000000000)

/-- The stopping distance in 2^-16 microstep of a velocity at a deceleration (R261). -/
def stopDist (v d : Int) : Int := quo (v * v * 65536) (2 * d)

/-- The stopping distance of a velocity and an acceleration toward the target with limited jerk (R261). -/
def stopDistJ (v a d j : Int) : Int :=
  let up := if 0 < a then quo (v * a * 65536) j + quo (a * a * a * 65536) (3 * j * j) else 0
  let w := if 0 < a then v + quo (a * a) (2 * j) else v
  up + (if d * d ≤ w * j then quo (w * w * 65536) (2 * d) + quo (w * d * 65536) (2 * j)
    else (natSqrt (w * w * w * 4294967296 / j).toNat : Nat))

/-- The stopping distance reaches the remaining distance r (R261). -/
def mustBrake (scurve : Bool) (v a r d j : Int) : Bool :=
  decide (r ≤ 0) || decide (r ≤ (if scurve then stopDistJ v a d j else stopDist v d))

/-- The next velocity and acceleration toward a target ahead, all in the direction of motion: vm is the velocity limit, am, d and
j the limits of R261. A trapezoid keeps no acceleration. -/
def nextSpeed (scurve brake : Bool) (v a vm am d j : Int) (dt : Nat) : Int × Int :=
  if scurve then
    let want := if brake then (if a < 0 ∧ 2 * j * v ≤ a * a then 0 else -d)
      else if v < vm then (if 0 < a ∧ 2 * j * (vm - v) ≤ a * a then 0 else am) else if vm < v then -d else 0
    let da := dvOf j dt
    let a1 := clip (a - da) (a + da) want
    let v1 := max 0 (v + sgn a1 * dvOf (if a1 < 0 then -a1 else a1) dt)
    (v1, if v1 = 0 then 0 else a1)
  else
    (if brake then max 0 (v - dvOf d dt) else if v < vm then min vm (v + dvOf am dt) else max vm (v - dvOf d dt), 0)

/-- A profile toward its target for a time in ns: the new state, and whether it has landed (R261). The last period lands on the
target: at rest within a microstep of it, or on a planned stop that began within one period's travel of it. -/
def Stepper.toTarget (s : Stepper) (vm am d j : Int) (dt : Nat) : Stepper × Bool :=
  let gap := s.target * 65536 - s.x
  if gap = 0 ∧ s.v = 0 then ({ s with a := 0, rem := 0, braking := false }, true)
  else
    let dir := if s.v = 0 then sgn gap else sgn s.v
    let v := s.v * dir
    let a := s.a * dir
    let r := gap * dir
    let must := mustBrake s.scurve v a r d j
    let brake := (must || s.braking) && decide (0 < v ∨ must = true)
    let (v1, a1) := nextSpeed s.scurve brake v a vm am d j dt
    let (dx, rem) := dxOf v v1 dt (s.rem * dir)
    let slack := quo (vm * dt * 65536) 1000000000
    let near := decide (v1 = 0 ∧ r ≤ dx + 65536) ||
      decide (r ≤ dx ∧ (if s.scurve then stopDistJ v a d j else stopDist v d) ≤ r + slack)
    if 0 ≤ r && near then
      ({ s with x := s.target * 65536, v := 0, a := 0, rem := 0, braking := false }, true)
    else ({ s with x := s.x + dir * dx, v := dir * v1, a := dir * a1, rem := dir * rem, braking := brake && decide (0 < v1) }, false)

/-- A profile at a commanded velocity, for a seek (R265). -/
def Stepper.atSpeed (s : Stepper) (vt am d : Int) (dt : Nat) : Stepper :=
  let v1 := if s.v < vt then (if 0 ≤ s.v then min vt (s.v + dvOf am dt) else min (min 0 vt) (s.v + dvOf d dt))
    else if vt < s.v then (if s.v ≤ 0 then max vt (s.v - dvOf am dt) else max (max 0 vt) (s.v - dvOf d dt)) else s.v
  let (dx, rem) := dxOf s.v v1 dt s.rem
  { s with x := s.x + dx, v := v1, a := 0, rem := rem }

/-- The velocity limit and the acceleration limit of the running move (R261). -/
def Chip.stpLimits (c : Chip) (k : Nat) : Int × Int :=
  let s := nth c.dev.steppers k {}
  (if s.vLim = 0 then c.par Par.stpVMax k else s.vLim, if s.aLim = 0 then c.par Par.stpAMax k else s.aLim)

/-! ### Replies, stops and moves -/

/-- The seek direction of a channel: +1 or −1. -/
def Chip.homeDir (c : Chip) (k : Nat) : Int := if c.par Par.stpHomeDir k = 1 then -1 else 1

/-- The final reply of a pending STP.HOME (R263). -/
def Chip.endHome (c : Chip) (k status : Nat) : Chip :=
  c.finishAll (fun p => decide (p.opcode = 0x1212 ∧ p.arg = k)) status
    (toLeI 4 (wholeStep (nth c.dev.steppers k {}).x) ++ List.replicate 12 0)

/-- A channel de-energised: its homed state is cleared and a pending homing ends with a status (R260, R271). -/
def Chip.stpRelease (c : Chip) (k status : Nat) : Chip :=
  let c := c.endHome k status
  c.modStep k (fun s => { s with
    energised := false, homed := false, phase := .standing, v := 0, a := 0, rem := 0, homeStage := 0, idle := true, x0 := wholeStep s.x,
    x1 := wholeStep s.x, j0 := 0, v0 := 0, amp := 0, lostBase := none, lostCount := 0, coilBad := 0, deEnergise := false })

/-- An output fault of a channel: fenced, and any move or homing dropped (R271). -/
def Chip.stpFence (c : Chip) (k code : Nat) : Chip :=
  ((c.setUnitFence .a 0x06 k true).agreedFault code 0x06 k 0xFF).stpRelease k stFenced

/-- A natural stopping point as a rest position, at or beyond it in the direction of motion (R264). -/
def restAt (grid x dir : Int) : Int :=
  let g := grid * 65536
  if 0 ≤ dir then -((-x) / g) * grid else (x / g) * grid

/-- A stop of a channel from its present velocity (R263, R264). -/
def Chip.stpStopNow (c : Chip) (k : Nat) (quick deEnergise : Bool) : Chip :=
  c.modStep k (fun s =>
    if !s.energised then s
    else
      let d := if quick then c.par Par.stpDQuick k else c.par Par.stpDMax k
      let p := s.x + sgn s.v * stopDist s.v d
      { s with
        phase := .stopping, braking := false, quick := quick, deEnergise := deEnergise, scurve := false, homeStage := 0, idle := if s.v = 0 then s.idle else false,
        target := if s.v = 0 then wholeStep s.x else restAt (stpGrid c.dev.cfg.ws k) p (sgn s.v) })

/-- Homing fails: fault 0x1205, the channel stops at STP.D_MAX and stays energised and not homed (R267). -/
def Chip.homeFail (c : Chip) (k : Nat) : Chip :=
  let c := (c.agreedFault 0x1205 0x06 k 0xFF).endHome k stNotHomed
  (c.stpStopNow k false false).modStep k (fun s => { s with homed := false })

/-- A move toward a target in microsteps (R263). -/
def Chip.stpMoveTo (c : Chip) (k : Nat) (target vLim aLim : Int) : Chip :=
  c.modStep k (fun s => { s with
    phase := .moving, braking := false, target := target, vLim := vLim, aLim := aLim, scurve := decide (c.par Par.stpProfile k = 1), quick := false,
    deEnergise := false, idle := false })

/-- A target clipped to STP.POS_MIN to STP.POS_MAX and rounded toward zero onto the coarse grid (R280). -/
def Chip.stpClip (c : Chip) (k : Nat) (x : Int) : Int :=
  let g := stpGrid c.dev.cfg.ws k
  quo (clip (c.par Par.stpPosMin k) (c.par Par.stpPosMax k) x) g * g

/-- A channel can follow a move: in use, not fenced, energised, homed, not homing, and not held by the Deadbolt. -/
def Chip.stpActs (c : Chip) (k : Nat) : Bool :=
  let s := nth c.dev.steppers k {}
  stepUsed c.dev.cfg.ws k && !c.outFenced k && s.energised && s.homed && decide (s.phase ≠ .homing) && !c.pintle.holding

/-! ### The mode and the current (R257, R259, R260) -/

/-- A current limit of a claimed output under the Pintle derating, which does not apply during a stop, in HOLD or under the
Deadbolt (R491). -/
def Chip.pintleDerate (c : Chip) (x : Int) : Int :=
  if c.dev.snow.step ≠ 0 ∨ c.pintle.holding = true then x else quo (x * c.dev.thermal.pintle) 100

/-- The channel is in the seek phase of homing to stall (R259, R260). -/
def Chip.stallSeek (c : Chip) (k : Nat) : Bool :=
  let s := nth c.dev.steppers k {}
  decide (s.phase = .homing ∧ s.homeStage = 1) && decide (c.par Par.stpHomeMethod k = 1)

/-- I_amp (R260). -/
def Chip.stpAmp (c : Chip) (k : Nat) : Nat :=
  let s := nth c.dev.steppers k {}
  (c.pintleDerate (if c.stallSeek k then c.par Par.stpHomeI k else if s.idle then c.par Par.stpIHold k else c.par Par.stpIRun k)).toNat

/-- The mode at a launch point, by the first row of R259 that applies. -/
def Chip.stpMode (c : Chip) (k : Nat) : Bool :=
  let s := nth c.dev.steppers k {}
  let speed := if s.v < 0 then -s.v else s.v
  if c.stallSeek k then true
  else match (c.par Par.stpModeSel k).toNat with
    | 0 => false
    | 1 => true
    | _ =>
      if s.strong then !(decide (speed < c.par Par.stpSwSpeed k) && decide (16 ≤ s.strongAge))
      else decide (c.par Par.stpSwSpeed k + c.par Par.stpSwHyst k ≤ speed) || (decide (0 < s.pwms) && decide (s.pwms ≤ 2 * s.clips))

/-- The mode taken, with the control periods since the last change to strong. -/
def Chip.takeMode (c : Chip) (k : Nat) : Chip :=
  let c := c.modStep k (fun s => { s with strongAge := min 16 (s.strongAge + 1) })
  let strong := c.stpMode k
  c.modStep k (fun s => { s with
    strong := strong, strongAge := if strong && !s.strong then 0 else s.strongAge, clips := 0, pwms := 0 })

/-! ### Checks of a period (R269 to R271) -/

/-- A number of counts of STP.FB_CH in microsteps: counts × STP.FB_DEN / STP.FB_NUM (R265, R269). -/
def Chip.stpCounts (c : Chip) (k : Nat) (counts : Int) : Int := quo (counts * c.par Par.stpFbDen k) (c.par Par.stpFbNum k)

/-- The agreed position word of STP.FB_CH in microsteps: vFB × STP.FB_DEN / STP.FB_NUM (R269). -/
def Chip.stpFb (c : Chip) (k : Nat) : Int := c.stpCounts k (nth c.dev.agreed.fb (c.parN Par.stpFbCh k) {}).pos.v

/-- The lost-step check of R269, suspended while the channel homes or the encoder has no value: the channel's new count, and
whether a step is lost. -/
def Chip.lostCheck (c : Chip) (k : Nat) : Chip × Bool :=
  let s := nth c.dev.steppers k {}
  let ch := c.parN Par.stpFbCh k
  match s.lostBase with
  | none => (c, false)
  | some base =>
    if 8 ≤ ch ∨ s.phase = .homing ∨ (nth c.dev.agreed.fb ch {}).pos.valid = false then (c, false)
    else
      let e := c.stpAtS k - base - c.stpFb k
      let n := if c.par Par.stpLostTol k < dist e 0 then s.lostCount + 1 else 0
      (c.modStep k (fun s => { s with lostCount := n }), decide (c.parN Par.stpLostCount k ≤ n))

/-- A stall or a lost step ends the motion at once; the second running fences the output (R270). -/
def Chip.stpLost (c : Chip) (k code : Nat) : Chip :=
  let again := (nth c.dev.steppers k {}).lastBad
  let c := (c.agreedFault code 0x06 k 0xFF).endHome k stNotHomed
  let c := c.modStep k (fun s => { s with
    phase := .standing, v := 0, a := 0, rem := 0, homed := false, homeStage := 0, lastBad := true, lostBase := none, lostCount := 0, idle := false })
  if again then c.stpFence k 0x1202 else c

/-- The coil targets of the PWM period that ended at or before S (R271). -/
def Chip.endedTargets (c : Chip) (k : Nat) : Int × Int :=
  let s := nth c.dev.steppers k {}
  let pwm := c.parN Par.stpPwmPeriod k
  let n := c.pwmCount pwm
  let i := if c.pwmAtS pwm = 0 then n - 1 else n - 2
  c.coilTargets k (stpAt s.x0 s.x1 s.j0 (c.pwmAfter pwm i) n) s.amp

/-- The coil-current check of R271: whether four consecutive periods have deviated. A period that gave no Pintle data is not judged. -/
def Chip.coilCheck (c : Chip) (k : Nat) : Chip × Bool :=
  let s := nth c.dev.steppers k {}
  if c.dev.agreed.psnAge ≠ 0 then (c, false)
  else
    let ia := nth c.dev.agreed.psn.coils (2 * k) 0
    let ib := nth c.dev.agreed.psn.coils (2 * k + 1) 0
    let t := c.endedTargets k
    let bad := if s.strong then decide (c.par Par.stpITol k < dist ia t.1 ∨ c.par Par.stpITol k < dist ib t.2)
      else decide (3 * c.par Par.stpIRun k < 2 * dist ia 0 ∨ 3 * c.par Par.stpIRun k < 2 * dist ib 0)
    let n := if bad then s.coilBad + 1 else 0
    (c.modStep k (fun s => { s with coilBad := n }), decide (4 ≤ n))

/-! ### Homing (R265, R267) -/

/-- The position set at S, and the way back begun (R265). -/
def Chip.homeSet (c : Chip) (k : Nat) (pos : Int) : Chip :=
  let shift := pos - c.stpAtS k
  let back := (if c.par Par.stpHomeMethod k = 1 then c.homeDir k else -c.homeDir k) * c.par Par.stpHomeBackoff k
  let c := c.modStep k (fun s => { s with
    x := s.x + shift * 65536, x0 := s.x0 + shift, x1 := s.x1 + shift, homed := true, homeStage := 3, braking := false, scurve := false, quick := false,
    target := restAt (stpGrid c.dev.cfg.ws k) ((pos + back) * 65536) back, lostCount := 0, lostBase := none })
  if c.parN Par.stpFbCh k < 8 then c.modStep k (fun s => { s with lostBase := some (pos - c.stpFb k) }) else c

/-- The home switch has an agreed valid level in this period (R265). -/
def Chip.homeKnown (c : Chip) (k : Nat) : Bool :=
  decide (c.parN Par.stpHomeSw k < 8) && hasBit c.dev.agreed.siValid (c.parN Par.stpHomeSw k)

/-- The home switch as agreed: active is level 1. -/
def Chip.homeActive (c : Chip) (k : Nat) : Bool := hasBit c.dev.agreed.si (c.parN Par.stpHomeSw k)

/-- What a homing channel makes of the agreed data of the period (R265). -/
def Chip.homeJudge (c : Chip) (k : Nat) (stalled : Bool) : Chip :=
  let s := nth c.dev.steppers k {}
  let stage (n : Nat) : Chip := c.modStep k (fun s => { s with homeStage := n })
  let pos := c.par Par.stpHomePos k
  match (c.par Par.stpHomeMethod k).toNat, s.homeStage with
  | _, 3 => c
  | 0, _ => c.homeSet k pos
  | 1, _ => if stalled && decide (256 * 65536 ≤ s.travelled) then c.homeSet k pos else c
  | 2, n =>
    if !c.homeKnown k then c
    else if n = 1 then (if c.homeActive k then stage 2 else c)
    else if c.homeActive k then c else c.homeSet k pos
  | 3, n =>
    if !c.homeKnown k then c
    else if n = 1 then (if c.homeActive k then stage 4 else stage 2)
    else if n = 4 then (if c.homeActive k then c else stage 2)
    else if c.homeActive k then c.homeSet k pos else c
  | _, _ =>
    let ch := c.parN Par.stpFbCh k
    let f := nth c.dev.agreed.fb ch {}
    if ch < 8 ∧ f.indexSeen = true ∧ f.flagAge = 0 then c.homeSet k (pos + c.stpCounts k (diff32 f.pos.v f.latch)) else c

/-- The commanded velocity of a homing stage (R265). -/
def Chip.homeVel (c : Chip) (k : Nat) : Int :=
  let s := nth c.dev.steppers k {}
  let v := c.par Par.stpHomeSpeed k
  match (c.par Par.stpHomeMethod k).toNat, s.homeStage with
  | 2, 2 => -c.homeDir k * quo v 8
  | 3, 2 => c.homeDir k * quo v 8
  | _, 4 => -c.homeDir k * v
  | _, _ => c.homeDir k * v

/-! ### Work item 68 + k (R261) -/

/-- The profile of a channel run for a time in ns. -/
def Chip.stpRun (c : Chip) (k dt : Nat) : Chip :=
  let s := nth c.dev.steppers k {}
  let (vm, am) := c.stpLimits k
  let d := c.par Par.stpDMax k
  let j := c.par Par.stpJMax k
  match s.phase with
  | .standing => c
  | .moving =>
    let (s', landed) := s.toTarget vm am d j dt
    c.modStep k (fun _ => if landed then { s' with phase := .standing, lastBad := false } else s')
  | .stopping =>
    let d := if s.quick then c.par Par.stpDQuick k else d
    let (s', landed) := s.toTarget (max 1 (dist s.v 0)) am d j dt
    let c := c.modStep k (fun _ => if landed then { s' with phase := .standing } else s')
    if landed && s.deEnergise then c.stpRelease k stNotHomed else c
  | .homing =>
    if s.homeStage = 3 then
      let (s', landed) := s.toTarget (c.par Par.stpHomeSpeed k) (c.par Par.stpAMax k) d j dt
      let c := c.modStep k (fun _ => if landed then { s' with phase := .standing, homeStage := 0 } else s')
      if landed then c.endHome k stOk else c
    else
      let s' := s.atSpeed (c.homeVel k) (c.par Par.stpAMax k) d dt
      let s' := { s' with travelled := s.travelled + dist s'.x s.x }
      let c := c.modStep k (fun _ => s')
      if (c.par Par.stpPosMax k - c.par Par.stpPosMin k) * 65536 < s'.travelled then c.homeFail k else c

/-- The profile of a period computed and its command formed (R262). -/
def Chip.stpCommand (c : Chip) (k : Nat) : Chip :=
  let c := c.takeMode k
  let s := nth c.dev.steppers k {}
  let c := c.stpRun k c.period
  let amp := c.stpAmp k
  c.modStep k (fun t => { t with
    x0 := wholeStep s.x, j0 := 0, v0 := s.v, x1 := wholeStep t.x, amp := if t.energised then amp else 0, vbra := c.vbra })

/-- Work item 68 + k: the checks on the agreed data, then the profile from this launch point to the next (R261 to R271). -/
def Chip.stepItem (c : Chip) (k : Nat) : Chip :=
  if !stepUsed c.dev.cfg.ws k then c
  else
    let s := nth c.dev.steppers k {}
    let flag := hasBit c.dev.agreed.psn.stall k
    let c := c.modStep k (fun s => { s with stall := flag })
    if !s.energised then c
    else if c.outFenced k then c.stpRelease k stFenced
    else if c.pintle.holding || c.dev.agreed.psn.holding then c.stpRelease k stNotHomed
    else
      let stalled := flag && !s.stall
      let seek := c.stallSeek k
      let (c, lost) := c.lostCheck k
      let (c, coil) := c.coilCheck k
      if coil then c.stpFence k 0x1204
      else
        let c := if stalled && !seek then
            (if s.phase = .homing ∧ s.homeStage ≠ 3 then c.homeFail k else c.stpLost k 0x1201)
          else if lost then c.stpLost k 0x1203
          else c
        if !(nth c.dev.steppers k {}).energised then c
        else
          let c := if (nth c.dev.steppers k {}).phase = .homing then c.homeJudge k flag else c
          c.stpCommand k

/-! ### What a lane drives (R257, R262) -/

/-- The command of a period taken by a lane at its launch point (R140, R262). -/
def Chip.launchStp (c : Chip) (l : LaneId) (k : Nat) : Chip :=
  let s := nth c.dev.steppers k {}
  c.modLane l (fun n => { n with stp := modNth n.stp k (fun d => { d with
    energised := s.energised, strong := s.strong, x0 := s.x0, x1 := s.x1, j0 := s.j0, amp := s.amp, decay := (c.par Par.stpDecay k).toNat, vbra := s.vbra, v := s.v }) })

/-- The coil targets of a lane's command in the PWM period of an index from S. -/
def Chip.driveTargets (c : Chip) (l : LaneId) (k index : Nat) : Int × Int :=
  let d := nth (c.lane l).stp k {}
  let pwm := c.parN Par.stpPwmPeriod k
  c.coilTargets k (stpAt d.x0 d.x1 d.j0 (c.pwmAfter pwm index) (c.pwmCount pwm)) d.amp

/-- The loop of one coil (R257): target and current in mA, the back-EMF voltage and the voltage limit in mV, the integrator;
the new integrator and the coil voltage. -/
def coilLoop (kp ki rc : Int) (pwm : Nat) (target i emf lim int : Int) : Int × Int :=
  let e := target - i
  let base := quo (kp * e) 1000 + quo (target * rc) 1000 + emf
  let next := int + quo (ki * pwm * e) 1000000000
  let v := base + next
  if lim < v then (if next ≤ int then next else int, lim)
  else if v < -lim then (if int ≤ next then next else int, -lim)
  else (next, v)

/-- The integrator for which the loop's voltage is a given one (R257). -/
def coilPreset (kp rc : Int) (target i emf v : Int) : Int := v - (quo (kp * (target - i)) 1000 + quo (target * rc) 1000 + emf)

/-- The back-EMF voltages of both coils, in mV: f × ω × STP.KE / 32,767 at the microstep 256 ahead in the direction of motion
(R257). -/
def Chip.coilEmf (c : Chip) (l : LaneId) (k index : Nat) : Int × Int :=
  let d := nth (c.lane l).stp k {}
  if d.v = 0 then (0, 0)
  else
    let pwm := c.parN Par.stpPwmPeriod k
    let x := stpAt d.x0 d.x1 d.j0 (c.pwmAfter pwm index) (c.pwmCount pwm)
    let m := elecStep (c.par Par.stpDir k) x
    let ahead := if 0 < d.v * (1 - 2 * c.par Par.stpDir k) then (m + 256) % 1024 else (m + 768) % 1024
    let f := coilFractions (c.stpTable k) ahead
    let w := dist d.v 0 * c.par Par.stpKe k
    (quo (f.1 * w) (32767 * 256000), quo (f.2 * w) (32767 * 256000))

/-- The coil loops of a channel in a lane after a report of the Pintle die: the holder's lane closes them, every other lane, and
every lane in strong mode, presets them to the voltage applied (R257, R259). -/
def Chip.stpLoops (c : Chip) (l : LaneId) (k : Nat) (p : PintleIn) : Chip :=
  let d := nth (c.lane l).stp k {}
  if !d.energised then
    c.modLane l (fun n => { n with stp := modNth n.stp k (fun d => { d with intA := 0, intB := 0, voltA := 0, voltB := 0 }) })
  else
    let pwm := c.parN Par.stpPwmPeriod k
    let index := ((nth c.pintle.outs k {}).index + 1) % max 1 (c.pwmCount pwm)
    let t := c.driveTargets l k index
    let e := c.coilEmf l k index
    let kp := c.par Par.stpQKp k
    let ki := c.par Par.stpQKi k
    let rc := c.par Par.stpRCoil k
    let ia := nth p.coils (2 * k) 0
    let ib := nth p.coils (2 * k + 1) 0
    let va := nth p.coilVolt (2 * k) 0
    let vb := nth p.coilVolt (2 * k + 1) 0
    let lim := quo (95 * (d.vbra : Int)) 100
    c.modLane l (fun n => { n with stp := modNth n.stp k (fun d =>
      if c.pintle.holder = some l ∧ d.strong = false then
        let a := coilLoop kp ki rc pwm t.1 ia e.1 lim d.intA
        let b := coilLoop kp ki rc pwm t.2 ib e.2 lim d.intB
        { d with intA := a.1, voltA := a.2, intB := b.1, voltB := b.2 }
      else
        { d with intA := coilPreset kp rc t.1 ia e.1 va, intB := coilPreset kp rc t.2 ib e.2 vb, voltA := va, voltB := vb }) })

/-- The PWM periods of a control period at the clip limit, counted from the reports to one lane (R259). -/
def Chip.countClips (c : Chip) (k : Nat) (p : PintleIn) : Chip :=
  let lim := quo (95 * ((nth c.dev.steppers k {}).vbra : Int)) 100
  let at_ := decide (lim ≤ dist (nth p.coilVolt (2 * k) 0) 0 ∨ lim ≤ dist (nth p.coilVolt (2 * k + 1) 0) 0)
  c.modStep k (fun s => if s.energised && !s.strong then { s with pwms := s.pwms + 1, clips := if at_ then s.clips + 1 else s.clips } else s)

/-- The width of a centre-aligned high pulse in ns, rounded to the nearer of zero and the shortest one, and kept out of the
100 ns at both ends of the PWM period (R244). -/
def pulseWidth (pwm width : Nat) : Nat := if width < 20 then 0 else min (max 40 width) (pwm - 200)

/-- A centre-aligned high pulse of a width in ns as its rise and fall in 10 ns, or none (R244, R245). -/
def pulseEntry (pwm width : Nat) : List Int :=
  let w := pulseWidth pwm width
  if w = 0 then [0, 0] else [((pwm - w) / 20 : Nat), ((pwm + w) / 20 : Nat)]

/-- The pattern a lane sends for a stepper channel in the PWM period of an index from S (R245, R257, R258). -/
def Chip.stpPattern (c : Chip) (l : LaneId) (k index : Nat) : Fallback :=
  let d := nth (c.lane l).stp k {}
  let pwm := c.parN Par.stpPwmPeriod k
  if !d.energised then {}
  else if d.strong then
    let t := c.driveTargets l k index
    { modes := 0xAA, entries := [t.1, 0, 0, 0, t.2, 0, 0, 0] }
  else
    let width (v : Int) : Nat := (clip 0 pwm (quo (pwm : Int) 2 + quo (v * pwm) (2 * max 1 (d.vbra : Int)))).toNat
    { modes := 0x55
      entries := pulseEntry pwm (width d.voltA) ++ pulseEntry pwm (width (-d.voltA)) ++ pulseEntry pwm (width d.voltB) ++ pulseEntry pwm (width (-d.voltB)) }

/-! ### Timed launches of a channel (R354) -/

/-- One launched STP operation takes effect (R355: kinds 4, 5 and 6). -/
def Chip.applyStp (c : Chip) (k : Nat) (x : Launch) : Chip :=
  let s := nth c.dev.steppers k {}
  let c := if x.kind = 6 then
      (c.endHome k stNotHomed).stpStopNow k (bitOf (fld x.args 0 1) 0) (bitOf (fld x.args 0 1) 1)
    else if c.stpActs k then
      c.stpMoveTo k (if x.kind = 5 then c.stpClip k (wholeStep s.x + sfld x.args 0 4) else sfld x.args 0 4) (sfld x.args 4 4) (sfld x.args 8 4)
    else c
  c.modStep k (fun s => { s with cmdBy := x.by_ })

/-- Launches of a channel take effect at a boundary of its grid: the profile goes on from there to the next launch point
(R261, R354). -/
def Chip.launchSteps (c : Chip) (k : Nat) (xs : List Launch) : Chip :=
  match xs.head? with
  | none => c
  | some x =>
    let pwm := c.parN Par.stpPwmPeriod k
    let n := c.pwmCount pwm
    let j := c.boundaryAfter pwm x.index
    let c := c.modStep k (fun s => { s with
      x := s.x0 * 65536 + quo ((s.x - s.x0 * 65536) * ((j - s.j0 : Nat) : Int)) ((n - s.j0 : Nat) : Int)
      v := s.v0 + quo ((s.v - s.v0) * ((j - s.j0 : Nat) : Int)) ((n - s.j0 : Nat) : Int), rem := 0 })
    let c := xs.foldl (fun c x => c.applyStp k x) c
    let s := nth c.dev.steppers k {}
    let c := c.stpRun k ((n - j) * pwm)
    let amp := c.stpAmp k
    let c := c.modStep k (fun t => { t with
      x0 := wholeStep s.x, j0 := j, v0 := s.v, x1 := wholeStep t.x, amp := if t.energised then amp else 0 })
    (c.authLanes.filter c.laneLive).foldl (fun c l => c.launchStp l k) c

/-! ### Operations (R263 to R265) -/

/-- A channel number of a payload is one in use. -/
def Chip.stpChannel (c : Chip) (p : List Byte) : Bool := decide (fld p 0 1 < 6) && stepUsed c.dev.cfg.ws (fld p 0 1)

/-- A channel that a loop context commands (R280). -/
def Chip.stpByLoop (c : Chip) (k : Nat) : Bool :=
  (List.range 64).any (fun n => decide (c.par Par.loopEnable n = 1) && decide (c.parN Par.loopStpDest n = k))

def attrStpMove : OpAttr := { code := 0x1210, keyed := true, acc := .enabled, timed := true, right := some 0, row := .enabled }

def checksStpMove (r : Req) (c : Chip) : List Nat :=
  let p := r.body
  let k := fld p 0 1
  if p.length ≠ 16 ∨ 1 < fld p 1 1 ∨ zeroFrom p 2 4 = false ∨ c.stpChannel p = false then [stBadParam]
  else
    let s := nth c.dev.steppers k {}
    let t := (if fld p 1 1 = 1 then wholeStep s.x else 0) + sfld p 4 4
    (if c.outFenced k then [stFenced] else []) ++
      (if c.stpByLoop k || c.pintle.holding then [stDenied] else []) ++
      (if s.homed then [] else [stNotHomed]) ++
      (if s.phase = .homing then [stBusy] else []) ++
      (if t < c.par Par.stpPosMin k ∨ c.par Par.stpPosMax k < t ∨ t % stpGrid c.dev.cfg.ws k ≠ 0 ∨ c.parN Par.stpVMax k < fld p 8 4 ∨
        c.parN Par.stpAMax k < fld p 12 4 then [stRange] else []) ++
      c.queueFails r [4 + k]

def effectStpMove (r : Req) (s : State) : OpOut :=
  let p := r.body
  let k := fld p 0 1
  OpOut.chip s (fun c =>
    if r.isTimed then c.addLaunch (4 + k) (if fld p 1 1 = 1 then 5 else 4) r.launchTime (bytesAt p 4 12) r.session
    else
      (c.stpMoveTo k ((if fld p 1 1 = 1 then wholeStep (nth c.dev.steppers k {}).x else 0) + sfld p 4 4) (sfld p 8 4) (sfld p 12 4)).modStep k
        (fun s => { s with cmdBy := r.session }))

/-- STP.MOVE (R263, R264). -/
def execStpMove (r : Req) (s : State) : Out := .next (runOp attrStpMove checksStpMove effectStpMove r s)

def attrStpStop : OpAttr := { code := 0x1211, timed := true }

def checksStpStop (r : Req) (c : Chip) : List Nat :=
  let p := r.body
  if p.length ≠ 16 ∨ 3 < fld p 1 1 ∨ zeroFrom p 2 16 = false ∨ c.stpChannel p = false then [stBadParam]
  else c.queueFails r [4 + fld p 0 1]

def effectStpStop (r : Req) (s : State) : OpOut :=
  let p := r.body
  let k := fld p 0 1
  OpOut.chip s (fun c =>
    if r.isTimed then c.addLaunch (4 + k) 6 r.launchTime (bytesAt p 1 1 ++ List.replicate 11 0) r.session
    else
      ((c.discardLaunches (4 + k)).endHome k stNotHomed).stpStopNow k (bitOf (fld p 1 1) 0) (bitOf (fld p 1 1) 1))

/-- STP.STOP: an untimed one discards the channel's pending launches (R264, R356). -/
def execStpStop (r : Req) (s : State) : Out := .next (runOp attrStpStop checksStpStop effectStpStop r s)

def attrStpHome : OpAttr := { code := 0x1212, keyed := true, acc := .enabled, pend := true, right := some 0, row := .enabled }

def checksStpHome (r : Req) (c : Chip) : List Nat :=
  let p := r.body
  if p.length ≠ 16 ∨ zeroFrom p 1 16 = false ∨ c.stpChannel p = false then [stBadParam]
  else
    let k := fld p 0 1
    let s := nth c.dev.steppers k {}
    (if c.outFenced k then [stFenced] else []) ++ (if c.pintle.holding then [stDenied] else []) ++
      (if s.tableBad then [stTable] else []) ++ (if s.phase = .homing then [stBusy] else [])

/-- The channel is energised and its homing begins (R265). -/
def Chip.homeBegin (c : Chip) (k : Nat) (session : Nat) : Chip :=
  c.modStep k (fun s => { s with
    energised := true, homed := false, phase := .homing, homeStage := 1, braking := false, travelled := 0, idle := false, scurve := false, quick := false,
    deEnergise := false, lostBase := none, lostCount := 0, coilBad := 0, cmdBy := session })

def effectStpHome (r : Req) (s : State) : OpOut :=
  let k := fld r.body 0 1
  { st := s.onChip (fun c => (c.homeBegin k r.session).addPend 0x1212 r { arg := k }), status := stPending }

/-- STP.HOME (R265). -/
def execStpHome (r : Req) (s : State) : Out := .next (runOp attrStpHome checksStpHome effectStpHome r s)

/-- HOME_TIMEOUT: homing has not completed within STP.HOME_TIMEOUT (R267). -/
def homeTimeout (ch : Fin 6) (c : Chip) : Chip :=
  let s := nth c.dev.steppers ch.val {}
  if s.phase = .homing ∧ s.homeStage ≠ 3 then c.homeFail ch.val else c

def execHomeTimeout (ch : Fin 6) (s : State) : Out := .next (s.onChip (homeTimeout ch))

/-- IDLE_DELAY: STP.IDLE_DELAY after the profile stopped, the hold current applies (R260). -/
def idleDelayExpiry (ch : Fin 6) (c : Chip) : Chip :=
  c.modStep ch.val (fun s => if s.energised && decide (s.phase = .standing) then { s with idle := true } else s)

def execIdleDelayExpiry (ch : Fin 6) (s : State) : Out := .next (s.onChip (idleDelayExpiry ch))

def attrTableLoad : OpAttr := { code := 0x1213, keyed := true, acc := .own, right := some 2 }

/-- The table in the data quads of an STP.TABLE_LOAD (R263). -/
def loadedTable (p : List Byte) : List (Nat × Nat) := (List.range 256).map (fun i => (fld p (16 + 4 * i) 2, fld p (18 + 4 * i) 2))

def checksTableLoad (r : Req) (c : Chip) : List Nat :=
  let p := r.body
  let k := fld p 0 1
  if p.length ≠ 1040 ∨ 1 < k ∨ zeroFrom p 1 12 = false then [stBadParam]
  else
    (if fld p 12 4 = crc32c (p.drop 16) then [] else [stBadParam]) ++
      (if stepUsed c.dev.cfg.ws k then [] else [stBadParam]) ++
      (if (nth c.dev.steppers k {}).energised then [stLocked] else []) ++
      (if c.par Par.stpTabCrc k = 0 then [stDenied] else []) ++
      (if crc32c (p.drop 16) = c.parN Par.stpTabCrc k then [] else [stMismatch]) ++
      (if tableValid (loadedTable p) then [] else [stTable])

def effectTableLoad (r : Req) (s : State) : OpOut :=
  OpOut.chip s (fun c => c.modCfg (fun g => { g with tabNext := g.tabNext ++ [(fld r.body 0 1, loadedTable r.body)] }))

/-- STP.TABLE_LOAD (R256). -/
def execTableLoad (r : Req) (s : State) : Out := .next (runOp attrTableLoad checksTableLoad effectTableLoad r s)

/-- One loaded table put in place of a channel's (R256). -/
def Chip.placeTable (c : Chip) (x : Nat × List (Nat × Nat)) : Chip :=
  (c.modCfg (fun g => if x.1 = 0 then { g with tab0 := x.2 } else { g with tab1 := x.2 })).modStep x.1 (fun s => { s with tableBad := false })

/-- Loaded tables take effect at the control-period boundary (R256). -/
def Chip.takeTable (c : Chip) : Chip := (c.dev.cfg.tabNext.foldl Chip.placeTable c).modCfg (fun g => { g with tabNext := [] })

end Sys2Proof.Machine
end

