-- ==== Sys2Proof/Machine/Commute.lean ====
section
/-! DEFINITION. Field-oriented commutation (chapter 08): angle sources and tracking, the period level of a bridge (torque, current
limits, field weakening, deviations, losses), the commands to the lanes' engines, and the CMT operations. -/

namespace Sys2Proof.Machine

open Sys2Proof

/-! ### Scales (R195, log 33) -/

/-- The electrical speed in mrad/s of a mechanical speed in 0.1 min⁻¹. -/
def omegaE (p n : Int) : Int := quo (n * p * 10471976) 1000000

/-- The electrical speed in mrad/s of angle counts per PWM period times 256. -/
def omegaOfCounts (w : Int) (pwm : Nat) : Int := quo (w * 6283185307180) (16777216 * max 1 (pwm : Int))

/-- A voltage in mV: mrad/s × nH × mA. -/
def reactive (w ind i : Int) : Int := quo (w * ind * i) 1000000000000

/-- A voltage in mV: µΩ × mA. -/
def resistive (r i : Int) : Int := quo (r * i) 1000000

/-- A voltage in mV: mrad/s × µWb. -/
def emfOf (w psi : Int) : Int := quo (w * psi) 1000000

/-- Vmax = CMT.VLIM × VBR / √3 in mV (R203). -/
def vMax (vlim vbr : Int) : Int := (natSqrt ((vlim * vlim * vbr * vbr / 30000).toNat) : Nat)

/-- A number divided by √3. -/
def overRoot3 (x : Int) : Int := quo (x * 1000000) 1732051

/-- The magnitude of a vector. -/
def magnitude (x y : Int) : Int := (natSqrt (x * x + y * y).toNat : Nat)

/-- A signed difference of two electrical angles. -/
def angleDiff (x y : Nat) : Int := signedOf 16 (unsignedOf 16 ((x : Int) - y))

/-! ### Sets and units -/

/-- The unit of a winding set in a fault record: the set for MB0 and MB1, the output for BM0 and BM1. -/
def cmtUnit (k : Nat) (l : LaneId) : Nat × Nat × Nat := if k < 2 then (0x07, k, l.idx) else (0x06, k + 4, 0xFF)

/-- A winding set, or the output, fenced from agreed data with a code. -/
def Chip.cmtFence (c : Chip) (k : Nat) (l : LaneId) (code : Nat) : Chip :=
  let (t, i, d) := cmtUnit k l
  (c.setUnitFence l t i true).agreedFault code t i d

/-- A winding set is fenced, or its output. -/
def Chip.setFenced (c : Chip) (k : Nat) (l : LaneId) : Bool :=
  if k < 2 then ((nth c.dev.motors k {}).sets.get l).fenced else c.outFenced (k + 4)

/-- The bridge is fenced in every lane in authority (R212). -/
def Chip.bridgeFenced (c : Chip) (k : Nat) : Bool :=
  ((setLanes c.dev.cfg.ws k).filter (fun l => decide (2 ≤ k) || c.inAuth l)).all (c.setFenced k)

/-- The winding set of a bridge in a lane. -/
def Chip.setAt (c : Chip) (k : Nat) (l : LaneId) : WindSet := (nth c.dev.motors k {}).sets.get l

/-- The bus voltage of a set: its own agreed VBR, or VBRa for BM0 and BM1 (R207, R257). -/
def Chip.setVbr (c : Chip) (k : Nat) (l : LaneId) : Int := if k < 2 then (c.dev.agreed.vbr.get l).v else c.vbra

/-- A lane in authority that has a set of the bridge, or lane A for a claimed one. -/
def Chip.firstSet (c : Chip) (k : Nat) : LaneId := ((setLanes c.dev.cfg.ws k).find? (fun l => decide (2 ≤ k) || c.inAuth l)).getD .a

/-- The lane whose observer counts for a set: its own, and for BM0 and BM1 the holder, or the first of the agreement set when the
holder is not in it (R199, R216, log 108). -/
def Chip.rotorLane (c : Chip) (k : Nat) (l : LaneId) : LaneId :=
  if k < 2 then l
  else match c.pintle.holder with
    | some h => if hasLane c.dev.aset h then h else ((lanesOf c.dev.aset).head?).getD h
    | none => ((lanesOf c.dev.aset).head?).getD l

/-- The observer of a set at S, as its lane has agreed it (R194, log 108). -/
def Chip.rotorOf (c : Chip) (k : Nat) (l : LaneId) : Rotor := nth (c.dev.agreed.status.get (c.rotorLane k l)).rotor k {}

/-! ### Rotor angle (R197, R199) -/

/-- What a bridge reads from a feedback channel: the position word, the continuous value, the Hall code, and the time in ns since its
last transition. -/
structure AngleReading where
  pos : Int := 0
  cont : Int := 0
  hall : Nat := 0
  since : Nat := 0
  deriving DecidableEq, Repr, Inhabited

/-- The agreed sample of a feedback channel for a lane's set: the agreed channel when it is shared, the lane's own otherwise. -/
def Chip.angleItem (c : Chip) (ch : Nat) (l : LaneId) : Option AngleReading :=
  let f := nth c.dev.agreed.fb ch {}
  if c.par Par.perFbShare ch = 1 then
    if f.pos.valid && !f.substituted then
      some { pos := f.pos.v, cont := contValue c.dev.cfg.ws ch f.pos.v f.rev.v, hall := f.hall, since := f.hallFor } else none
  else
    let x := nth (c.dev.agreed.status.get l).fb ch {}
    if x.valid && hasLane c.dev.aset l then
      some { pos := x.pos, cont := contValue c.dev.cfg.ws ch x.pos x.rev, hall := x.hall, since := f.hallFor } else none

/-- A channel takes its reference by an alignment or a catch: quadrature or sine/cosine in count mode 0 or 2 (R199). -/
def Chip.takesRef (c : Chip) (ch : Nat) : Bool :=
  decide (c.parN Par.fbkMode ch = 1 ∨ c.parN Par.fbkMode ch = 5) && decide (c.par Par.fbkCountMode ch ≠ 1)

/-- A channel is referenced for a bridge, with its reference (R199). -/
def Chip.refOf (c : Chip) (k ch : Nat) : Option Nat :=
  let off := c.parN Par.cmtAngleOffset k
  let m := nth c.dev.motors k {}
  match c.parN Par.fbkMode ch with
  | 2 | 4 => some off
  | 1 | 5 =>
    if c.par Par.fbkCountMode ch = 1 then (if (nth c.dev.agreed.fb ch {}).aligned then some off else none)
    else if c.parN Par.cmtAngleSrc k = ch then (if m.referenced then some m.rho else none)
    else if m.referenced2 then some m.rho2 else none
  | _ => none

/-- A reference taken for a channel of a bridge (R199, R200, R213). -/
def Chip.setRef (c : Chip) (k ch rho : Nat) : Chip :=
  c.modMotor k (fun m =>
    let m := if c.parN Par.cmtAngleSrc k = ch then { m with referenced := true, rho := rho } else m
    if c.parN Par.cmtAngleSrc2 k = ch then { m with referenced2 := true, rho2 := rho } else m)

/-- The electrical angle of a channel's reading, its reference not added: p × v × 65,536 / CPR (R197); for a Hall code the sector centre
plus ωe × the time since the transition, within the sector (R199). The speed is in mrad/s. -/
def Chip.angleRaw (c : Chip) (k ch : Nat) (w : Int) (r : AngleReading) : Int :=
  if c.par Par.fbkMode ch = 2 then
    let centre : Int := ((((hallPlace r.hall).getD 0) * 65536 / 6 + 5461 : Nat) : Int)
    c.fbDir ch * centre + clip (-5461) 5461 (quo (w * r.since * 65536) 6283185307180)
  else quo (c.par Par.cmtPolePairs k * unsignedOf 32 r.pos * 65536) (max 1 (fbCpr c.dev.cfg.ws ch))

/-- The agreed electrical speed of a bridge in mrad/s. -/
def Chip.omegaOf (c : Chip) (k : Nat) : Int := omegaE (c.par Par.cmtPolePairs k) (nth c.dev.motors k {}).speed

/-- The channel sources of a bridge in order of preference (R199). -/
def Chip.angleChannels (c : Chip) (k : Nat) : List Nat :=
  [c.parN Par.cmtAngleSrc k, c.parN Par.cmtAngleSrc2 k].filter (fun x => decide (x < 8))

/-- The agreed speed of a bridge allows its channel sources (R199: CMT.ANGLE_MODE). -/
def Chip.belowObs (c : Chip) (k : Nat) : Bool :=
  decide (c.par Par.cmtAngleMode k = 0) || decide (((nth c.dev.motors k {}).speed.natAbs : Int) < 10 * c.par Par.cmtObsOn k)

/-- The first usable channel source of a set, with its reading: agreed valid, not substituted and referenced (R199). -/
def Chip.usableReading (c : Chip) (k : Nat) (l : LaneId) : Option (Nat × AngleReading) :=
  if c.belowObs k then
    ((c.angleChannels k).filterMap (fun ch => match c.angleItem ch l, c.refOf k ch with
      | some r, some _ => some (ch, r)
      | _, _ => none)).head?
  else none

/-- The first usable channel source of a set (R199). -/
def Chip.usableChannel (c : Chip) (k : Nat) (l : LaneId) : Option Nat := (c.usableReading k l).map (·.1)

/-- The source of a set in the period (R199): 0 to 7, 0xFE the observer, 0xFF none. -/
def Chip.chooseSource (c : Chip) (k : Nat) (l : LaneId) : Nat :=
  match c.usableChannel k l with
  | some ch => ch
  | none =>
    if 10 * c.par Par.cmtObsOn k ≤ ((nth c.dev.motors k {}).speed.natAbs : Int) ∧ (c.rotorOf k l).locked = true then 0xFE else 0xFF

/-! ### Tracking (R211) -/

/-- α and β of three phase voltages (R211). -/
def phaseVector (u v w : Int) : Int × Int := (quo (2 * u - v - w) 3, overRoot3 (v - w))

/-- The EMF vector of a set in mV, from the owned phase voltages at S (R211). -/
def Chip.emfVector (c : Chip) (k : Nat) (l : LaneId) : Int × Int :=
  let v (j : Nat) : Int := quo ((nth (c.dev.agreed.adcOwn.get l) (8 + 3 * k + j) {}).v * c.par Par.cmtVLsb k) 1000
  phaseVector (v 0) (v 1) (v 2)

/-- The lanes whose phase voltages count for a bridge. -/
def Chip.emfLanes (c : Chip) (k : Nat) : List LaneId :=
  if k < 2 then (setLanes c.dev.cfg.ws k).filter (fun l => hasLane c.dev.aset l) else []

/-- The mid-value of three numbers, the mean of two, or the only one; zero of none. -/
def midOf : List Int → Int
  | [] => 0
  | [x] => x
  | [x, y] => quo (x + y) 2
  | x :: y :: z :: _ => mid3 x y z

/-- The EMF vector of a motor: the mid-value of its sets, the mean of two, or the only one (R211). -/
def Chip.motorEmf (c : Chip) (k : Nat) : Int × Int :=
  let es := (c.emfLanes k).map (c.emfVector k)
  (midOf (es.map (·.1)), midOf (es.map (·.2)))

/-- The speed in 0.1 min⁻¹ of an EMF angle's change in a control period (R211). -/
def Chip.emfSpeed (c : Chip) (k : Nat) (old new : Nat) : Int :=
  quo (angleDiff new old * 600000000000) (65536 * c.par Par.cmtPolePairs k * c.period)

/-- The speed in 0.1 min⁻¹ of a channel's change in a control period. -/
def Chip.channelSpeed (c : Chip) (ch : Nat) (old new : Int) : Int :=
  quo (diff32 new old * 600000000000) (max 1 (fbCpr c.dev.cfg.ws ch) * c.period)

/-- The speed in 0.1 min⁻¹ of angle counts per PWM period times 256. -/
def Chip.speedOfCounts (c : Chip) (k : Nat) (w : Int) : Int :=
  quo (omegaOfCounts w (c.parN Par.cmtPwmPeriod k) * 1000000) (10471976 * max 1 (c.par Par.cmtPolePairs k))

/-- Angle counts per PWM period times 256 of a speed in 0.1 min⁻¹. -/
def Chip.countsOfSpeed (c : Chip) (k : Nat) (n : Int) : Int :=
  quo (n * c.par Par.cmtPolePairs k * 65536 * 256 * c.par Par.cmtPwmPeriod k) 600000000000

/-- One step of EMF tracking: the old count, sign and angle with the new vector give the new ones and the speed (R211). An
amplitude below CMT.EMF_MIN counts as standstill. -/
def Chip.emfTrack (c : Chip) (k n : Nat) (sign : Int) (old : Option Nat) (e : Int × Int) : Nat × Int × Option Nat × Int :=
  if magnitude e.1 e.2 < c.par Par.cmtEmfMin k then (if sign = 0 then n + 1 else 1, 0, none, 0)
  else
    let a := angleOf e.1 e.2
    match old with
    | none => (0, 0, some a, 0)
    | some o =>
      let v := c.emfSpeed k o a
      (if sgn v = sign then n + 1 else 1, sgn v, some a, v)

/-- The angle of the rotor that an EMF angle shows: a quarter turn behind it when it turns forward, ahead of it backward (R213). -/
def rotorAngle (emf : Nat) (sign : Int) : Nat := unsignedOf 16 ((emf : Int) - (if 0 ≤ sign then 16384 else -16384))

/-- A count of control periods covers CMT.CATCH_WINDOW (R211). -/
def Chip.windowPast (c : Chip) (k n : Nat) : Bool := decide (1000000 * c.parN Par.cmtCatchWindow k ≤ n * c.period)

/-- The sets of a bridge whose observers give its speed: not fenced and in no loss action. -/
def Chip.rotorSets (c : Chip) (k : Nat) : List LaneId :=
  (setLanes c.dev.cfg.ws k).filter (fun l => (decide (2 ≤ k) || hasLane c.dev.aset l) && !c.setFenced k l && decide ((c.setAt k l).lossCase = 0))

/-- The tracking of a bridge in a period: by its channel when one is usable, by the EMF while it does not switch (R211), and by
the observers while it switches without a channel. An aligning rotor stands. -/
def Chip.track (c : Chip) (k : Nat) : Chip :=
  let m := nth c.dev.motors k {}
  let switches := decide (m.state = .switching ∨ m.state = .aligning)
  match c.usableReading k (c.firstSet k) with
  | some (ch, r) =>
    let old := m.prevPos.filter (fun p => p.1 == ch)
    let speed := match old with | some o => c.channelSpeed ch o.2 r.cont | none => m.speed
    let raw := c.angleRaw k ch (omegaE (c.par Par.cmtPolePairs k) speed) r
    let n := if m.prevPos.isSome then m.trackFor + 1 else 1
    c.modMotor k (fun m => { m with
      speed := speed, prevPos := some (ch, r.cont), theta := unsignedOf 16 (raw + ((c.refOf k ch).getD 0)), emfAngle := none,
      trackSign := sgn speed, trackFor := min 65535 n, trackValid := !switches && c.windowPast k n })
  | none =>
    if switches then
      let rs := (c.rotorSets k).map (c.rotorOf k)
      c.modMotor k (fun m => { m with
        speed := if m.state = .aligning then 0 else c.speedOfCounts k (midOf (rs.map (·.omega)))
        prevPos := none, emfAngle := none, theta := if m.state = .aligning then 0 else ((rs.head?).map (·.theta)).getD m.theta
        trackFor := 0, trackValid := false })
    else
      let (n, sign, a, v) := c.emfTrack k m.trackFor m.trackSign m.emfAngle (c.motorEmf k)
      c.modMotor k (fun m => { m with
        speed := v, prevPos := none, emfAngle := a, trackSign := sign, trackFor := min 65535 n, trackValid := c.windowPast k n,
        theta := match a with | some x => rotorAngle x sign | none => m.theta })

/-- The tracking of one freewheeling or shorted set by a usable channel or by its own EMF (R211, R217). -/
def Chip.trackSet (c : Chip) (k : Nat) (l : LaneId) : Chip :=
  let w := c.setAt k l
  if (c.usableChannel k l).isSome then
    let v := (nth c.dev.motors k {}).speed
    c.modSet k l (fun w => { w with trackFor := min 65535 (w.trackFor + 1), trackSign := sgn v, emfAngle := none, emfSpeed := v })
  else
    let (n, sign, a, v) := c.emfTrack k w.trackFor w.trackSign w.emfAngle (if k < 2 then c.emfVector k l else (0, 0))
    c.modSet k l (fun w => { w with trackFor := min 65535 n, trackSign := sign, emfAngle := a, emfSpeed := v })

/-! ### Torque, current limits and field weakening (R206 to R208, R23) -/

/-- The parameters of a set's voltage bound (R207). -/
structure BoundPar where
  rs : Int
  ld : Int
  lq : Int
  psi : Int
  w : Int
  vmax : Int

/-- The square of the steady-state voltage of a current pair (R207). -/
def BoundPar.volt (b : BoundPar) (id iq : Int) : Int :=
  let vd := resistive b.rs id - reactive b.w b.lq iq
  let vq := resistive b.rs iq + emfOf b.w b.psi + reactive b.w b.ld id
  vd * vd + vq * vq

/-- The steady-state voltage of a current pair fits within Vmax (R207). -/
def BoundPar.fits (b : BoundPar) (id iq : Int) : Bool := decide (b.volt id iq ≤ b.vmax * b.vmax)

/-- The bound of a set at the agreed speed (R207). -/
def Chip.boundOf (c : Chip) (k : Nat) (l : LaneId) : BoundPar :=
  { rs := c.par Par.cmtRs k, ld := c.par Par.cmtLd k, lq := c.par Par.cmtLq k, psi := c.par Par.cmtPsi k,
    w := c.omegaOf k, vmax := vMax (c.par Par.cmtVlim k) (c.setVbr k l) }

/-- iq* of a set: T* / (1.5 × p × n × (PSI + (LD − LQ) × id*)) in mA (R206). -/
def torqueCurrent (t p n psi ld lq id : Int) : Int :=
  let flux := psi + quo ((ld - lq) * id) 1000000
  if n = 0 ∨ flux = 0 then 0 else quo (2000000 * t) (3 * p * n * flux)

/-- The least m in a span for which a test holds, found by bisection; the top of the span when it holds nowhere below. -/
def bisect (test : Nat → Bool) : Nat → Nat → Nat → Nat
  | 0, _, hi => hi
  | fuel + 1, lo, hi =>
    if hi ≤ lo then hi
    else
      let mid := (lo + hi) / 2
      if test mid then bisect test fuel lo mid else bisect test fuel (mid + 1) hi

/-- The place of the least value of a function that falls and then rises, in a span. -/
def valley (f : Nat → Int) : Nat → Nat → Nat → Nat
  | 0, lo, _ => lo
  | fuel + 1, lo, hi =>
    if hi ≤ lo then lo
    else
      let mid := (lo + hi) / 2
      if f mid ≤ f (mid + 1) then valley f fuel lo mid else valley f fuel (mid + 1) hi

/-- id* and iq* of a set before its current limit (R207): the id* closest to zero, in steps of 10 mA down to CMT.ID_MIN, whose voltage
fits; CMT.ID_MIN with the largest iq* that fits when none does. The voltage falls and then rises along the range, so the first place
that fits lies before its lowest one. -/
def fluxCommand (b : BoundPar) (idMin : Int) (iqOf : Int → Int) : Int × Int :=
  let top := (idMin.natAbs + 9) / 10
  let idAt (m : Nat) : Int := max idMin (-10 * (m : Int))
  let fits (m : Nat) : Bool := b.fits (idAt m) (iqOf (idAt m))
  let low := valley (fun m => b.volt (idAt m) (iqOf (idAt m))) 20 0 top
  if fits 0 then (0, iqOf 0)
  else if fits low then
    let m := bisect fits 20 0 low
    (idAt m, iqOf (idAt m))
  else
    let q := iqOf idMin
    let over_ := bisect (fun n => !b.fits idMin (sgn q * n)) 20 0 (q.natAbs + 1)
    (idMin, sgn q * ((over_ - 1 : Nat) : Int))

/-- A set is over speed: no voltage fits with iq* = 0 and id* = CMT.ID_MIN (R208). -/
def Chip.overSpeedOf (c : Chip) (k : Nat) (l : LaneId) : Bool := !(c.boundOf k l).fits (c.par Par.cmtIdMin k) 0

/-- The lowest derating factor that acts on a bridge, in percent (R491). The limits of every set of one motor use one factor. -/
def Chip.bridgeFactor (c : Chip) (k : Nat) : Nat :=
  let ls := (setLanes c.dev.cfg.ws k).filter (fun l => c.inAuth l)
  let dies := if k < 2 then ls.map (fun l => c.dev.thermal.factor.get l) else [c.dev.thermal.pintle]
  let ntc := (List.range 2).flatMap (fun i =>
    if c.parN Par.thmNtcBridge i = k then (if k < 2 then ls else c.authLanes).map (fun l => (nth (c.dev.thermal.ntc.get l) i 100)) else [])
  (dies ++ ntc).foldl min 100

/-- A current limit of a bridge after derating, which does not apply to BM0 and BM1 during a stop, in HOLD or under the Deadbolt
(R491). -/
def Chip.bridgeDerate (c : Chip) (k : Nat) (x : Int) : Int :=
  if 2 ≤ k ∧ (c.dev.snow.step ≠ 0 ∨ c.pintle.holding = true) then x else quo (x * c.bridgeFactor k) 100

/-- A set carries torque (R206): in authority, not fenced, resynchronising, in stand-down, aligning, catching, in a loss action or
over speed, with a source. -/
def Chip.carries (c : Chip) (k : Nat) (l : LaneId) : Bool :=
  let m := nth c.dev.motors k {}
  let w := c.setAt k l
  decide (m.state = .switching) && !m.catching && !w.catching && !c.setFenced k l && decide (w.lossCase = 0) && !w.overSpeed && decide (w.source ≠ 0xFF) &&
    (decide (2 ≤ k) || (c.inAuth l && decide (c.dev.standdown ≠ some l) && decide (c.dev.sdNext ≠ some l) && decide ((c.lane l).chk.resync = 0) && !(c.lane l).chk.resyncPend))

/-- The torque command of a bridge: the output of its loop context, or the commanded torque; zero while it is being disabled
(R206, R219). -/
def Chip.torqueOf (c : Chip) (k : Nat) : Int :=
  let m := nth c.dev.motors k {}
  if m.disabling then 0
  else if 2 ≤ k ∧ c.dev.snow.step ≠ 0 ∧ (List.range 8).any (fun i => decide (c.parN Par.snpBrkTgt i = 0x44 + k)) = true then m.torque
  else if c.parN Par.cmtTorqueSrc k < 64 then (nth c.dev.loops (c.parN Par.cmtTorqueSrc k) {}).out
  else m.torque

/-- The nominal continuous torque of a motor with all its sets, in mN·m. -/
def Chip.nominal (c : Chip) (k : Nat) : Int :=
  quo (3 * c.par Par.cmtPolePairs k * ((setLanes c.dev.cfg.ws k).length : Int) * c.par Par.cmtPsi k * c.par Par.cmtICont k) 2000000

/-- Overload time of a motor that carries torque on fewer sets than it has: consumed above two thirds of nominal torque, restored
at a tenth of real time below; once used up, the limit falls within 1 s (R23). DESIGN CHOICE (log 89): R23 does not say how the
limit recovers after the time is used up; one period with torque at or below two thirds ends the fall. -/
def Chip.overload (c : Chip) (k : Nat) (fewer : Bool) : Chip :=
  let t : Nat := c.period / 1000
  let limit := 1000 * c.parN Par.authOvlTime k
  let above := fewer && decide (2 * c.nominal k < 3 * (c.torqueOf k).natAbs)
  c.modMotor k (fun m =>
    if above then
      let used := min limit (m.ovlUsed + t)
      { m with ovlUsed := used, ovlNow := decide (used < limit), ovlFall := if used < limit then 0 else min 1000000 (m.ovlFall + t) }
    else { m with ovlUsed := m.ovlUsed - min m.ovlUsed (t / 10), ovlNow := false, ovlFall := 0 })

/-- The current limit of each set of a motor, in mA (R206, R23). -/
def Chip.currentLimit (c : Chip) (k : Nat) (fewer : Bool) : Int :=
  let m := nth c.dev.motors k {}
  let cont := c.par Par.cmtICont k
  let lim := if fewer ∧ 0 < c.par Par.authOvlTime k ∧ k < 2 then cont + quo (cont * (1000000 - (m.ovlFall : Int))) 2000000 else cont
  c.bridgeDerate k (min lim (c.par Par.cmtIMax k))

/-- The commands of one set: id*, iq* and the current-limit flag (R206 to R208). -/
def Chip.commandSet (c : Chip) (k n : Nat) (limit : Int) (l : LaneId) : Chip :=
  let w := c.setAt k l
  let m := nth c.dev.motors k {}
  if m.state = .aligning then c.modSet k l (fun w => { w with id := c.par Par.cmtAlignI k, iq := 0, ilim := false, carry := false })
  else if m.state ≠ .switching ∨ w.lossCase ≠ 0 ∨ c.setFenced k l = true ∨ m.catching = true ∨ w.catching = true then
    c.modSet k l (fun w => { w with id := 0, iq := 0, ilim := false, carry := false })
  else if w.overSpeed then c.modSet k l (fun w => { w with id := c.par Par.cmtIdMin k, iq := 0, ilim := false, carry := false })
  else
    let b := c.boundOf k l
    let iqOf (id : Int) : Int :=
      torqueCurrent (c.torqueOf k) (c.par Par.cmtPolePairs k) n b.psi b.ld b.lq id
    let (id, iq) := fluxCommand b (c.par Par.cmtIdMin k) (if c.carries k l then iqOf else fun _ => 0)
    let room : Int := (natSqrt (limit * limit - id * id).toNat : Nat)
    let iq' := clip (-room) room iq
    c.modSet k l (fun w => { w with id := id, iq := iq', ilim := decide (iq' ≠ iq), carry := c.carries k l })

/-- The torque of a motor shared among the sets that carry it (R206). -/
def Chip.shareTorque (c : Chip) (k : Nat) : Chip :=
  let ls := setLanes c.dev.cfg.ws k
  let c := ls.foldl (fun c l => c.modSet k l (fun w => { w with overSpeed := c.overSpeedOf k l })) c
  let n := (ls.filter (c.carries k)).length
  let fewer := decide (n < ls.length)
  let limit := c.currentLimit k fewer
  ls.foldl (fun c l => c.commandSet k n limit l) c

/-! ### Sets that must agree (R209) -/

/-- The lanes that deviate among errors with a tolerance (R209). -/
def deviants (tol : Int) (es : List (LaneId × Int)) : List LaneId :=
  match es with
  | [(l, x), (m, y)] => if tol < dist x y then (if dist x 0 = dist y 0 then [] else if dist y 0 < dist x 0 then [l] else [m]) else []
  | [(l, x), (m, y), (n, z)] => (([(l, x), (m, y), (n, z)] : List (LaneId × Int)).filter (fun e => decide (tol < dist e.2 (mid3 x y z)))).map (·.1)
  | _ => []

/-- The reconciliation of a motor's sets: deviations counted and fenced. A set that is not tested does not deviate in the period
(R209). -/
def Chip.reconcile (c : Chip) (k : Nat) : Chip :=
  if 2 ≤ k then c
  else
    let ls := (setLanes c.dev.cfg.ws k).filter (fun l => (c.setAt k l).carry && !c.setFenced k l && hasLane c.dev.aset l)
    let meas (l : LaneId) : Int × Int := nth (c.dev.agreed.iq.get l) k (0, 0)
    let tol := c.par Par.cmtIqTol k
    let out := deviants tol (ls.map (fun l => (l, 10 * (meas l).1 - (c.setAt k l).iq))) ++
      deviants tol (ls.map (fun l => (l, 10 * (meas l).2 - (c.setAt k l).id)))
    LaneId.all.foldl (fun c l =>
      if out.contains l then
        let c := c.agreedFault 0x1004 0x07 k l.idx
        let n := (c.setAt k l).deviations + 1
        let c := c.modSet k l (fun w => { w with deviations := n })
        if c.parN Par.cmtIqCount k ≤ n then c.cmtFence k l 0x1005 else c
      else c.modSet k l (fun w => { w with deviations := 0 })) c

/-! ### Sources and losses (R199, R216, R217) -/

/-- A speed within the catch limits (R212, R217). -/
def Chip.catchable (c : Chip) (k : Nat) (v : Int) : Bool :=
  decide (v ≤ 10 * c.par Par.cmtCatchFwdMax k ∧ -(10 * c.par Par.cmtCatchRevMax k) ≤ v) || decide (dist v 0 < 10 * c.par Par.cmtCatchMin k)

/-- A set that has lost the rotor, as its lane has agreed it (R216): a usable channel takes over, or the set is in its loss action. A
loss within 1 s of a catch is a failed try; a set that has used its tries up is fenced (R217). -/
def Chip.takeLoss (c : Chip) (k : Nat) (l : LaneId) : Chip :=
  let w := c.setAt k l
  if (c.rotorOf k l).lost && decide (w.lossCase = 0) && !w.catching && !(c.usableChannel k l).isSome then
    let tries := if w.since < 1000000 then w.tries else 0
    if c.parN Par.cmtReacqTries k ≤ tries then (c.modSet k l (fun w => { w with tries := tries })).cmtFence k l 0x1008
    else c.modSet k l (fun w => { w with
      lossCase := if c.par Par.cmtLossAction k = 1 then 2 else 3, tries := tries, trackFor := 0, trackSign := 0, emfAngle := none })
  else c

/-- The channels of a bridge that a catch references: none while a channel is usable, else those agreed valid that take their reference
by such an event (R199, R213). -/
def Chip.refChannels (c : Chip) (k : Nat) (l : LaneId) : List (Nat × AngleReading) :=
  if (c.usableChannel k l).isSome then []
  else (c.angleChannels k).filterMap (fun ch => match c.angleItem ch l with
    | some r => if c.takesRef ch && (c.refOf k ch).isNone then some (ch, r) else none
    | none => none)

/-- The references taken from an EMF angle and the sign of its rotation: ρ such that the counts of the same S give the rotor's angle (R213). -/
def Chip.emfReference (c : Chip) (k : Nat) (l : LaneId) (emf : Option Nat) (sign : Int) : Chip :=
  match emf with
  | none => c
  | some a => (c.refChannels k l).foldl (fun c e =>
      c.setRef k e.1 (unsignedOf 16 ((rotorAngle a sign : Int) - c.angleRaw k e.1 (c.omegaOf k) e.2))) c

/-- A set in a loss action is caught again as soon as its tracking is valid and its speed within the limits (R213, R217). -/
def Chip.reacquire (c : Chip) (k : Nat) (l : LaneId) : Chip :=
  if (c.setAt k l).lossCase = 0 then c
  else
    let c := c.trackSet k l
    let w := c.setAt k l
    if c.windowPast k w.trackFor && c.catchable k w.emfSpeed && !c.ostRuns k then
      let takes := decide (c.refChannels k l ≠ []) && w.emfAngle.isSome
      (c.emfReference k l w.emfAngle w.trackSign).modSet k l (fun w => { w with
        lossCase := 0, tries := w.tries + 1, since := 0, catching := true, emfRef := takes })
    else c

/-- The source of a set while its bridge switches: a change is fault 0x100D, and a set without one is fenced (R199). -/
def Chip.takeSource (c : Chip) (k : Nat) (l : LaneId) : Chip :=
  let m := nth c.dev.motors k {}
  let w := c.setAt k l
  let new := c.chooseSource k l
  if m.state = .switching ∧ w.lossCase = 0 ∧ c.setFenced k l = false then
    let (t, i, d) := cmtUnit k l
    let c := if w.source ≠ new ∧ w.source ≠ 0xFF then c.agreedFault 0x100D t i d else c
    let c := c.modSet k l (fun w => { w with source := new })
    if new = 0xFF then c.cmtFence k l 0x1009 else c
  else c.modSet k l (fun w => { w with source := new })

/-! ### Starting (R200, R212 to R214) -/

/-- A bridge starts to switch, or to align or catch, with or without a reference from the EMF (R212, R213). -/
def Chip.startBridge (c : Chip) (k : Nat) (state : CmtState) (catching emfRef : Bool) : Chip :=
  let c := (setLanes c.dev.cfg.ws k).foldl (fun c l => c.modSet k l (fun w => { w with
    lossCase := 0, tries := 0, since := 0, deviations := 0, carry := false, catching := false, emfRef := emfRef, source := c.chooseSource k l })) c
  c.modMotor k (fun m => { m with
    enabled := true, disabling := false, state := state, catching := catching, catchWait := false, torque := 0,
    alignTry := if state = .aligning then 1 else 0, alignPos := none, alignFor := 0 })

/-- A start by a catch before a set's automatic test has run: fault 0x110A, and the test stays due (R243, log 28). -/
def Chip.deferTests (c : Chip) (k : Nat) : Chip :=
  ((setLanes c.dev.cfg.ws k).filter (fun l => decide (2 ≤ k) || c.inAuth l)).foldl (fun c l =>
    if c.ostAuto k && (c.targetAt l k).due then
      let (t, i, d) := cmtUnit k l
      (c.modTarget l k (fun x => { x with result := 5, leg := 0xFF, nodes := [] })).agreedFault 0x110A t i d
    else c) c

/-- A catch: the references come from the motor's EMF at S when its source has none, and each set's engine takes its own from its own
EMF (R213). -/
def Chip.catchBridge (c : Chip) (k : Nat) : Chip :=
  let m := nth c.dev.motors k {}
  let l := c.firstSet k
  let takes := decide (c.refChannels k l ≠ []) && m.emfAngle.isSome
  ((c.emfReference k l m.emfAngle m.trackSign).startBridge k .switching true takes).deferTests k

/-- What the speed rows of R212 decide for a tracked bridge: a failing status, or none with the start to make. -/
inductive StartPlan where
  | fail (status : Nat)
  | switch
  | align
  | catch_
  deriving DecidableEq, Repr

/-- A source of a bridge is referenced (R199, R212). -/
def Chip.referenced (c : Chip) (k : Nat) : Bool := (c.angleChannels k).any (fun ch => (c.refOf k ch).isSome)

/-- The rows of R212 from the tracked speed on. -/
def Chip.speedPlan (c : Chip) (k : Nat) : StartPlan :=
  let v := (nth c.dev.motors k {}).speed
  if dist v 0 < 10 * c.par Par.cmtCatchMin k then
    (if c.referenced k then .switch
    else if c.par Par.cmtAngleInit k = 1 then .align else .fail stDenied)
  else if 0 ≤ v then (if v ≤ 10 * c.par Par.cmtCatchFwdMax k then .catch_ else .fail stRange)
  else if -v ≤ 10 * c.par Par.cmtCatchRevMax k then .catch_ else .fail stReverse

/-- The start that R212 decides is made. -/
def Chip.runPlan (c : Chip) (k : Nat) : StartPlan → Chip
  | .fail _ => c
  | .switch => c.startBridge k .switching false false
  | .align => c.startBridge k .aligning false false
  | .catch_ => c.catchBridge k

/-- The source of a catch: the channel that tracked the rotation, or the EMF (R221). -/
def Chip.catchSource (c : Chip) (k : Nat) : Nat := (c.usableChannel k (c.firstSet k)).getD 0xFE

/-- A waiting CMT.CATCH_START is decided once tracking is valid, and is done when its sets have been caught again (R214, R217). -/
def Chip.decideCatch (c : Chip) (k : Nat) : Chip :=
  let m := nth c.dev.motors k {}
  let fin (c : Chip) (st : Nat) : Chip :=
    (c.finishAll (fun p => decide (p.opcode = 0x1013 ∧ p.arg = k)) st
      (toLeI 4 m.speed ++ toLe 1 (c.catchSource k) ++ List.replicate 11 0)).modMotor k (fun m => { m with catchWait := false })
  if !m.catchWait then c
  else if m.state = .switching then fin c stOk
  else if m.trackValid then
    match c.speedPlan k with
    | .fail st => fin c st
    | p => let c' := fin c stOk; c'.runPlan k p
  else c

/-- An alignment's time and the position at the start of its last tenth (R200). -/
def Chip.alignTick (c : Chip) (k : Nat) : Chip :=
  let m := nth c.dev.motors k {}
  if m.state ≠ .aligning then c
  else
    let t := m.alignFor + c.period / 1000
    let v := ((c.angleChannels k).head?.bind (fun ch => c.angleItem ch (c.firstSet k))).map (·.cont)
    c.modMotor k (fun m => { m with
      alignFor := t, alignPos := if m.alignPos.isNone && decide (900 * c.parN Par.cmtAlignTime k ≤ t) then v else m.alignPos })

/-- The agreed count of a bridge's source has moved by less than CPR / (64 × p) over the last tenth of an alignment (R200). -/
def Chip.alignPasses (c : Chip) (k : Nat) : Bool :=
  match (c.angleChannels k).head?, (nth c.dev.motors k {}).alignPos with
  | some ch, some p => (match c.angleItem ch (c.firstSet k) with
    | some r => decide (dist (diff32 r.cont p) 0 * 64 * c.par Par.cmtPolePairs k < fbCpr c.dev.cfg.ws ch)
    | none => false)
  | _, _ => false

/-- The sources of a bridge that take their reference at an alignment: their present counts give the angle 0 (R199, R200). -/
def Chip.alignReference (c : Chip) (k : Nat) : Chip :=
  (c.angleChannels k).foldl (fun c ch => match c.angleItem ch (c.firstSet k) with
    | some r => if c.takesRef ch then c.setRef k ch (unsignedOf 16 (-(c.angleRaw k ch 0 r))) else c
    | none => c) c

/-- ALIGNMENT_DONE: CMT.ALIGN_TIME has passed. The alignment passes, is repeated once with fault 0x100A, or leaves the bridge disabled
with fault 0x100B (R200). -/
def alignmentDone (bridge : Fin 4) (c : Chip) : Chip :=
  let k := bridge.val
  let m := nth c.dev.motors k {}
  let (t, i, d) := cmtUnit k (c.firstSet k)
  if m.state ≠ .aligning then c
  else if c.alignPasses k then
    (c.alignReference k).modMotor k (fun m => { m with state := .switching, alignTry := 0, alignPos := none, alignFor := 0 })
  else if m.alignTry ≤ 1 then (c.agreedFault 0x100A t i d).modMotor k (fun m => { m with alignTry := 2, alignPos := none, alignFor := 0 })
  else (c.agreedFault 0x100B t i d).modMotor k (fun m => { m with
    state := .tracking, enabled := false, alignTry := 0, alignPos := none, alignFor := 0, trackFor := 0, trackValid := false })

def execAlignmentDone (bridge : Fin 4) (s : State) : Out := .next (s.onChip (alignmentDone bridge))

/-! ### Disabling (R219) -/

/-- A bridge must keep switching while √3 × ωe × PSI exceeds 0.9 × VBR (R219). -/
def Chip.mustSwitch (c : Chip) (k : Nat) : Bool :=
  ((setLanes c.dev.cfg.ws k).filter (fun l => decide (2 ≤ k) || c.inAuth l)).any (fun l =>
    let e := emfOf (c.omegaOf k) (c.par Par.cmtPsi k)
    decide (81 * c.setVbr k l * c.setVbr k l < 300 * e * e))

/-- A bridge is disabled: iq* = 0 from the launch point, and its gates off once the back-EMF allows it (R219). -/
def Chip.disableBridge (c : Chip) (k : Nat) : Chip :=
  let c := c.finishAll (fun p => decide (p.opcode = 0x1013 ∧ p.arg = k)) stDenied []
  c.modMotor k (fun m => { m with
    enabled := false, torque := 0, catchWait := false, disabling := decide (m.state = .switching),
    state := if m.state = .switching then .switching else if bridgeUsed c.dev.cfg.ws k then .tracking else .disabled })

/-- A disabling bridge whose back-EMF has fallen turns its gates off (R219). -/
def Chip.endDisable (c : Chip) (k : Nat) : Chip :=
  let m := nth c.dev.motors k {}
  if m.disabling && !c.mustSwitch k then
    c.modMotor k (fun m => { m with disabling := false, state := .tracking, trackFor := 0, trackValid := false, prevPos := none, emfAngle := none })
  else c

/-! ### Work items 64 to 67 (R194) -/

/-- The state of a bridge after the period's decisions, by its sets in lanes in authority (R222). -/
def Chip.bridgeState (c : Chip) (k : Nat) : Chip :=
  let ls := (setLanes c.dev.cfg.ws k).filter (fun l => decide (2 ≤ k) || c.inAuth l)
  let m := nth c.dev.motors k {}
  let live := ls.filter (fun l => !c.setFenced k l)
  let lost (n : Nat) : Bool := live.all (fun l => decide ((c.setAt k l).lossCase = n))
  let on := decide (m.state = .switching ∨ m.state = .freewheel ∨ m.state = .short)
  if on = true ∧ live = [] then
    c.modMotor k (fun m => { m with state := .fenced, enabled := false, disabling := false, catching := false })
  else if on then
    c.modMotor k (fun m => { m with
      state := if live.any (fun l => decide ((c.setAt k l).lossCase = 0)) then .switching else if lost 2 then .short else .freewheel })
  else if m.state = .fenced ∧ live ≠ [] ∨ m.state = .disabled then c.modMotor k (fun m => { m with state := .tracking })
  else c

/-- Tracking is not valid while an off-state test drives the nodes of the bridge (R243). -/
def Chip.trackTested (c : Chip) (k : Nat) : Chip :=
  let quiet (w : WindSet) : WindSet := { w with trackFor := 0 }
  if c.ostRuns k then c.modMotor k (fun m => { m with trackFor := 0, trackValid := false, sets := m.sets.map quiet }) else c

/-- The speed and angle of every bridge in use, from the agreed vector of the period (R211, R278). -/
def Chip.trackMotors (c : Chip) : Chip :=
  (List.range 4).foldl (fun c k => if bridgeUsed c.dev.cfg.ws k then (c.track k).trackTested k else c) c

/-- Work item 64 + k: the period level of a bridge, whose speed has been tracked (R194, R206 to R219). A bridge or set that was caught
in the period before carries torque from this one (R213). -/
def Chip.motorItem (c : Chip) (k : Nat) : Chip :=
  if !bridgeUsed c.dev.cfg.ws k then c
  else
    let ls := setLanes c.dev.cfg.ws k
    let catching := (nth c.dev.motors k {}).catching
    let c := ls.foldl (fun c l => c.modSet k l (fun w => { w with catching := false })) (c.reconcile k)
    let c := ls.foldl (fun c l => (c.takeLoss k l).reacquire k l) c
    let c := c.bridgeState k
    let c := ls.foldl (fun c l => (c.takeSource k l).modSet k l (fun w => { w with since := min 1000000 (w.since + c.period / 1000) })) c
    let c := ((c.alignTick k).decideCatch k).endDisable k
    let c := if catching then c.modMotor k (fun m => { m with catching := false }) else c
    let c := c.bridgeState k
    let fewer := decide ((ls.filter (c.carries k)).length < ls.length)
    (c.overload k fewer).shareTorque k

/-- A set's gates are held off by a fault of its own driver or engine that is not yet agreed (R235, R429). -/
def Chip.heldOff (c : Chip) (l : LaneId) (k : Nat) : Bool :=
  let (t, i, _) := cmtUnit k l
  (c.lane l).fencedNow.contains (t, i) || (decide (k < 2) && decide (c.latchMask l k ≠ 0))

/-- What a lane's gates of a bridge do under the period's commands (R194, R218). -/
def Chip.gatesFor (c : Chip) (l : LaneId) (k : Nat) : GateState :=
  let m := nth c.dev.motors k {}
  let set := if k < 2 then l else .a
  let w := c.setAt k set
  if c.setFenced k set then (if k < 2 then c.fencedGates l k else .off)
  else if c.heldOff l k || !(c.lane l).driven then .off
  else if m.state = .aligning then .switching
  else if m.state = .switching ∨ m.state = .freewheel ∨ m.state = .short then
    (if w.lossCase = 2 then .short else if w.lossCase = 3 then .freewheel else .switching)
  else .off

/-- The commands of a bridge for a lane's engine, which takes them at its first PWM boundary at or after the launch point (R122, R194). -/
def Chip.launchBridge (c : Chip) (l : LaneId) (k : Nat) : Chip :=
  let m := nth c.dev.motors k {}
  let set := if k < 2 then l else .a
  let w := c.setAt k set
  if bridgeUsed c.dev.cfg.ws k && (decide (2 ≤ k) || (setLanes c.dev.cfg.ws k).contains l) then
    let cmd : EngineCmd := {
      from_ := (c.lane l).clock.nt, gates := c.gatesFor l k, iq := w.iq, id := w.id, zero := decide (m.state = .aligning), src := w.source
      rho := (c.refOf k w.source).getD 0, omega := c.countsOfSpeed k m.speed, emfRef := w.emfRef
      ack := (nth (c.dev.agreed.status.get l).rotor k {}).lost }
    c.modEngine l k (fun e => { e with next := some cmd })
  else c.modEngine l k (fun e => e.halt .off)

/-! ### Timed launches of a bridge (R354) -/

/-- The commands of a bridge computed again and put in force in every lane that launches, for a boundary within a period. -/
def Chip.relaunchBridge (c : Chip) (k : Nat) : Chip :=
  let c := c.shareTorque k
  (c.authLanes.filter c.laneLive).foldl (fun c l => c.launchBridge l k) c

/-! ### Operations (R212, R214, R219, R221) -/

/-- A bridge number of a payload is one in use. -/
def Chip.cmtBridge (c : Chip) (p : List Byte) : Bool := decide (fld p 0 1 < 4) && bridgeUsed c.dev.cfg.ws (fld p 0 1)

def attrCmtEnable : OpAttr := { code := 0x1010, keyed := true, acc := .enabled, timed := true, right := some 0, row := .enabled }

/-- What R212 decides for CMT.ENABLE on a bridge. -/
def Chip.enableFails (c : Chip) (k : Nat) : List Nat :=
  let m := nth c.dev.motors k {}
  if m.state = .switching then []
  else
    (if c.bridgeFenced k then [stFenced] else []) ++
      (if m.state = .aligning then []
      else if m.trackValid then (match c.speedPlan k with | .fail st => [st] | _ => []) else [stTransition])

def checksCmtEnable (r : Req) (c : Chip) : List Nat :=
  let p := r.body
  if p.length ≠ 16 ∨ zeroFrom p 1 16 = false ∨ c.cmtBridge p = false then [stBadParam]
  else c.enableFails (fld p 0 1) ++ c.queueFails r [fld p 0 1]

/-- CMT.ENABLE takes effect: a bridge that already switches or aligns is left as it is, one that is being disabled too (R212). -/
def Chip.enableBridge (c : Chip) (k : Nat) : Chip :=
  let m := nth c.dev.motors k {}
  if m.state = .switching ∨ m.state = .aligning ∨ c.enableFails k ≠ [] then c
  else c.runPlan k (c.speedPlan k)

def effectCmtEnable (r : Req) (s : State) : OpOut :=
  let k := fld r.body 0 1
  OpOut.chip s (fun c => if r.isTimed then c.addLaunch k 1 r.launchTime (List.replicate 12 0) r.session else c.enableBridge k)

/-- CMT.ENABLE (R212). -/
def execCmtEnable (r : Req) (s : State) : Out := .next (runOp attrCmtEnable checksCmtEnable effectCmtEnable r s)

def attrCmtDisable : OpAttr := { code := 0x1011, timed := true }

def checksCmtDisable (r : Req) (c : Chip) : List Nat :=
  let p := r.body
  if p.length ≠ 16 ∨ zeroFrom p 1 16 = false ∨ c.cmtBridge p = false then [stBadParam] else c.queueFails r [fld p 0 1]

def effectCmtDisable (r : Req) (s : State) : OpOut :=
  let k := fld r.body 0 1
  OpOut.chip s (fun c =>
    if r.isTimed then c.addLaunch k 2 r.launchTime (List.replicate 12 0) r.session else (c.discardLaunches k).disableBridge k)

/-- CMT.DISABLE: an untimed one discards the bridge's pending launches (R219, R356). -/
def execCmtDisable (r : Req) (s : State) : Out := .next (runOp attrCmtDisable checksCmtDisable effectCmtDisable r s)

def attrTorqueSet : OpAttr := { code := 0x1012, keyed := true, acc := .enabled, timed := true, right := some 0, row := .enabled }

def checksTorqueSet (r : Req) (c : Chip) : List Nat :=
  let p := r.body
  if p.length ≠ 16 ∨ zeroFrom p 1 4 = false ∨ zeroFrom p 8 16 = false ∨ c.cmtBridge p = false then [stBadParam]
  else
    let k := fld p 0 1
    let m := nth c.dev.motors k {}
    (if c.bridgeFenced k then [stFenced] else []) ++
      (if m.state = .aligning ∨ m.catching = true ∨ m.catchWait = true then [stTransition]
      else if c.parN Par.cmtTorqueSrc k < 64 ∨ m.state ≠ .switching then [stDenied] else []) ++
      c.queueFails r [k]

def effectTorqueSet (r : Req) (s : State) : OpOut :=
  let k := fld r.body 0 1
  OpOut.chip s (fun c =>
    if r.isTimed then c.addLaunch k 3 r.launchTime (bytesAt r.body 4 4 ++ List.replicate 8 0) r.session
    else c.modMotor k (fun m => { m with torque := sfld r.body 4 4, cmdBy := r.session }))

/-- CMT.TORQUE_SET (R206, R221). -/
def execTorqueSet (r : Req) (s : State) : Out := .next (runOp attrTorqueSet checksTorqueSet effectTorqueSet r s)

def attrCatchStart : OpAttr := { code := 0x1013, keyed := true, acc := .enabled, pend := true, right := some 0, row := .enabled }

def checksCatchStart (r : Req) (c : Chip) : List Nat :=
  let p := r.body
  if p.length ≠ 16 ∨ zeroFrom p 1 16 = false ∨ c.cmtBridge p = false then [stBadParam]
  else
    let k := fld p 0 1
    let m := nth c.dev.motors k {}
    (if c.bridgeFenced k then [stFenced] else []) ++ (if m.state = .switching ∨ m.state = .aligning ∨ m.catchWait = true then [stBusy] else []) ++
      (if m.enabled then [] else [stDenied])

def effectCatchStart (r : Req) (s : State) : OpOut :=
  let k := fld r.body 0 1
  { st := s.onChip (fun c => (c.modMotor k (fun m => { m with catchWait := true })).addPend 0x1013 r { arg := k })
    status := stPending }

/-- CMT.CATCH_START (R214). -/
def execCatchStart (r : Req) (s : State) : Out := .next (runOp attrCatchStart checksCatchStart effectCatchStart r s)

/-- One launched CMT operation takes effect (R355: kinds 1, 2 and 3). -/
def Chip.applyCmt (c : Chip) (k : Nat) (x : Launch) : Chip :=
  match x.kind with
  | 1 => if c.dev.actuation then c.enableBridge k else c
  | 2 => c.disableBridge k
  | _ => if (nth c.dev.motors k {}).state = .switching then c.modMotor k (fun m => { m with torque := sfld x.args 0 4, cmdBy := x.by_ }) else c

/-- Launches of a bridge take effect at one of its PWM boundaries (R354). -/
def Chip.launchMotors (c : Chip) (k : Nat) (xs : List Launch) : Chip :=
  if xs = [] then c else (xs.foldl (fun c x => c.applyCmt k x) c).relaunchBridge k

end Sys2Proof.Machine
end

