-- ==== Sys2Proof/Machine/LoopEng.lean ====
section
/-! DEFINITION. The loop engine (chapter 11): sources, link order, modes and tracking, the control law, holds and fences, and the LOOP
operations. -/

namespace Sys2Proof.Machine

open Sys2Proof

/-! ### Sources (R278, R451) -/

/-- The continuous value of an agreed channel, substituted or not, when the period gives one (R187, R190). -/
def Chip.fbValue (c : Chip) (ch : Nat) : Option Int :=
  let f := nth c.dev.agreed.fb ch {}
  if f.pos.valid || f.substituted then some (c.contOf ch) else none

/-- The raw value of a source code of R278 but a context's output. -/
def Chip.sourceRaw (c : Chip) (src : Nat) : Option Int :=
  if src < 0x10 then (if (nth c.dev.agreed.adc src {}).valid then some (nth c.dev.agreed.adc src {}).v else none)
  else if src < 0x18 then c.fbValue (src - 0x10)
  else if src < 0x20 then
    (match c.fbValue (src - 0x18), (nth c.dev.agreed.fb (src - 0x18) {}).prevV with
    | some v, some o => some (diff32 v o)
    | _, _ => none)
  else if src < 0x24 then some (nth c.dev.motors (src - 0x20) {}).speed
  else none

/-- The value of this period becomes the previous one of a velocity source (R278). -/
def Chip.keepPrevious (c : Chip) : Chip :=
  c.modDev (fun d => { d with agreed := { d.agreed with fb := d.agreed.fb.mapIdx (fun k f => { f with prevV := c.fbValue k }) } })

/-- The limit of a context's values (R281). -/
def loopLim : Int := 8388607

/-! ### Links (R279, R284) -/

/-- A context is enabled. -/
def Chip.loopOn (c : Chip) (n : Nat) : Bool := decide (c.par Par.loopEnable n = 1)

/-- The enabled contexts. -/
def Chip.loopsOn (c : Chip) : List Nat := (List.range 64).filter c.loopOn

/-- The enabled contexts in link order: by depth, then by number (R284). -/
def Chip.loopOrder (c : Chip) : List Nat :=
  let v := c.dev.cfg.view
  (List.range 10).flatMap (fun d => c.loopsOn.filter (fun n => decide (v.depth 9 n = d)))

/-- The inner contexts that a context feeds (R279). -/
def Chip.innerOf (c : Chip) (n : Nat) : List Nat := c.loopsOn.filter (fun m => decide (c.parN Par.loopSpSrc m = n))

/-- The bridges that take a context's output (R279). -/
def Chip.bridgesOf (c : Chip) (n : Nat) : List Nat :=
  (List.range 4).filter (fun k => decide (c.parN Par.cmtTorqueSrc k = n) && bridgeUsed c.dev.cfg.ws k)

/-- The output at the end of a context's chain, as a launch output (R290). -/
def Chip.chainOut (c : Chip) : Nat → Nat → Option Nat
  | 0, _ => none
  | fuel + 1, n =>
    let d := c.parN Par.loopStpDest n
    if d < 6 then some (4 + d)
    else match (c.bridgesOf n).head? with
      | some k => some k
      | none => (c.innerOf n).findSome? (c.chainOut fuel)

/-- A context is in use: it or a context downstream of it feeds a bridge or channel in use (R295). -/
def Chip.loopInUse (c : Chip) : Nat → Nat → Bool
  | 0, _ => false
  | fuel + 1, n =>
    let d := c.parN Par.loopStpDest n
    (decide (d < 6) && stepUsed c.dev.cfg.ws d) || !(c.bridgesOf n).isEmpty ||
      c.loopsOn.any (fun m => (decide (c.parN Par.loopSpSrc m = n) || decide (c.parN Par.loopPvSrc m = 0x40 + n)) && c.loopInUse fuel m)

/-- A context is fenced in every lane in authority: each one has fenced it, or it has come to mode 5 and no unfence has restarted it
(R285, R293, R296). -/
def Chip.loopFencedAll (c : Chip) (n : Nat) : Bool :=
  decide ((nth c.dev.loops n {}).mode = .fenced) || (!c.authLanes.isEmpty && c.authLanes.all (fun l => (nth c.dev.loops n {}).fenced.get l))

/-- Rule G of R44: a context in use is fenced in every lane in authority, or computed in one only, outside D2 (R295). -/
def Chip.loopLost (c : Chip) (n : Nat) : Bool :=
  c.loopOn n && c.loopInUse 9 n && decide (c.dev.cls ≠ some 2) &&
    decide ((c.authLanes.filter (fun l => !(nth c.dev.loops n {}).fenced.get l)).length ≤ 1)

/-! ### Modes (R285, R286) -/

/-- The automatic and the tracking mode are one mode commanded. -/
def LoopMode.automatic (m : LoopMode) : Bool := decide (m = .auto ∨ m = .tracking)

/-- The value that a context in automatic follows because a consumer cannot take its output: a channel, then a bridge, then an
inner context by ascending number, with the modes of the inner contexts given (R286). -/
def Chip.trackValue (c : Chip) (modes : List (Nat × LoopMode)) (n : Nat) : Option Int :=
  let d := c.parN Par.loopStpDest n
  if d < 6 ∧ c.stpActs d = false then some (wholeStep (nth c.dev.steppers d {}).x)
  else if (c.bridgesOf n).any (fun k => decide ((nth c.dev.motors k {}).state ≠ .switching)) then some 0
  else ((c.innerOf n).find? (fun m => modes.any (fun e => e.1 == m && decide (e.2 ≠ .auto)))).map (fun m => (nth c.dev.loops m {}).pv)

/-- The mode in which each enabled context is computed in the period, inner contexts first, with what a tracking one follows. -/
def Chip.loopModes (c : Chip) : List (Nat × LoopMode × Int) :=
  c.loopOrder.reverse.foldl (fun acc n =>
    let m := (nth c.dev.loops n {}).mode
    if m.automatic then
      (match c.trackValue (acc.map (fun e => (e.1, e.2.1))) n with
      | some v => acc ++ [(n, .tracking, v)]
      | none => acc ++ [(n, .auto, 0)])
    else acc ++ [(n, m, 0)]) []

/-! ### One context (R282, R283, R287, R291) -/

/-- The scaled process value, saturated, and whether it saturates (R278). -/
def Chip.scalePv (c : Chip) (n : Nat) (raw : Int) : Int × Bool :=
  let pv := quo ((raw - c.par Par.loopPvOffset n) * c.par Par.loopPvNum n) (c.par Par.loopPvDen n)
  (clip (-loopLim) loopLim pv, decide (pv < -loopLim ∨ loopLim < pv))

/-- The raw value of a context's source: an agreed one, or another context's output of the period (R278). -/
def Chip.loopRaw (c : Chip) (n : Nat) : Option Int :=
  let src := c.parN Par.loopPvSrc n
  if 0x40 ≤ src ∧ src ≤ 0x7F then
    (if c.loopOn (src - 0x40) && !c.loopFencedAll (src - 0x40) then some (nth c.dev.loops (src - 0x40) {}).out else none)
  else c.sourceRaw src

/-- The setpoint of a context: the host's, or the outer context's output of the period; none when the outer one is fenced (R279,
R293). -/
def Chip.loopSp (c : Chip) (n : Nat) : Option Int :=
  let src := c.parN Par.loopSpSrc n
  if src < 64 then (if c.loopOn src && !c.loopFencedAll src then some (nth c.dev.loops src {}).out else none)
  else some (nth c.dev.loops n {}).sp

/-- A context held in a period: fault 0x1401, and the third in a row fences it in every lane with a code (R292, R293). -/
def Chip.loopHold (c : Chip) (n code : Nat) : Chip :=
  let held := (nth c.dev.loops n {}).held + 1
  let c := (c.modLoop n (fun x => { x with held := held, isHeld := true, inhibited := false, badSrc := decide (code = 0x1404) })).agreedFault 0x1401 0x08 n 0xFF
  if 3 ≤ held then
    (c.authLanes.foldl (fun c l => c.setUnitFence l 0x08 n true) (c.modLoop n (fun x => { x with mode := .fenced }))).agreedFault code 0x08 n 0xFF
  else c

/-- The proportional and derivative terms and the new filtered value under given gains (R282). -/
def loopTerms (kp kd df e pv pf : Int) : Int × Int × Int :=
  let pf' := pf + quo (df * (pv * 256 - pf)) 65536
  (quo (kp * e) 256, quo (-kd * (pf' - pf)) 65536, pf')

/-- A context computed in a mode with its process value and setpoint (R282, R285 to R287, R291): the new context, and the integrator
before the step with KI × e when the third case of R283 may still stop it. -/
def loopStep (kp ki kd df lo hi : Int) (x : Loop) (mode : LoopMode) (follow pv sp : Int) : Loop × Option (Int × Int) :=
  let e := sp - pv
  let (p8, d8, pf') := loopTerms kp kd df e pv x.pf
  let clipI (i : Int) : Int := clip (lo * 256) (hi * 256) i
  let done (out i : Int) (inh : Bool) : Loop :=
    { x with
      mode := mode, pf := pf', out := out, i := clipI i, sp := sp, pv := pv, err := e, held := 0, isHeld := false, badSrc := false,
      inhibited := inh, hi := decide (hi ≤ out), lo := decide (out ≤ lo), toAuto := false, preset := none, oldGains := some (kp, kd, df) }
  match mode with
  | .manual => (done (clip lo hi x.manual) x.i false, none)
  | .tracking =>
    let out := clip lo hi follow
    (done out (out * 256 - p8 - d8) false, none)
  | _ =>
    if x.toAuto || decide (x.mode = .tracking) then
      let i8 := x.preset.getD (clipI (x.out * 256 - p8 - d8))
      (done (clip lo hi (quo (p8 + i8 + d8) 256)) i8 false, none)
    else
      let moved := match x.oldGains with
        | some (okp, okd, odf) =>
          if okp = kp ∧ okd = kd ∧ odf = df then x.i
          else
            let (q8, f8, _) := loopTerms okp okd odf e pv x.pf
            clipI (x.i + q8 + f8 - p8 - d8)
        | none => x.i
      let i := x.preset.getD moved
      let i8 := i + quo (ki * e) 256
      let w := quo (p8 + i8 + d8) 256
      let inh := decide ((hi < w ∧ 0 < ki * e) ∨ (w < lo ∧ ki * e < 0))
      (done (clip lo hi w) (if inh then i else i8) inh, if inh then none else some (i, ki * e))

/-- Work item n: one enabled context in a period (R277, R282 to R293), with what remains to be judged for R283. -/
def Chip.loopItem (c : Chip) (n : Nat) (mode : LoopMode) (follow : Int) : Chip × Option (Int × Int) :=
  let x := nth c.dev.loops n {}
  if c.loopFencedAll n then (c.modLoop n (fun x => { x with mode := .fenced, isHeld := true, inhibited := false }), none)
  else if mode = .stopped ∨ mode = .disabled then (c.modLoop n (fun x => { x with inhibited := false, isHeld := false }), none)
  else if c.dev.joined ≠ 0 ∧ c.dev.cls ≠ some 2 ∧ ((c.parN Par.chkJoinLoops).testBit n) = false then
    (c.modLoop n (fun x => { x with isHeld := true, inhibited := false }), none)
  else
    match c.loopRaw n, c.loopSp n with
    | some raw, some sp =>
      let (pv, sat) := c.scalePv n raw
      let c := if sat && !x.pvSat then c.agreedFault 0x1405 0x08 n 0xFF else c
      let (x', more) := loopStep (c.par Par.loopKp n) (c.par Par.loopKi n) (c.par Par.loopKd n) (c.par Par.loopDf n)
        (c.par Par.loopOutMin n) (c.par Par.loopOutMax n) x mode follow pv sp
      (c.modLoop n (fun _ => { x' with pvSat := sat }), more)
    | _, _ => (c.loopHold n 0x1404, none)

/-- The third case of R283, once the inner contexts are computed: the integration step is taken back. -/
def Chip.innerInhibit (c : Chip) (n : Nat) (i kie : Int) : Chip :=
  if (c.innerOf n).any (fun m =>
    let y := nth c.dev.loops m {}
    decide (y.mode = .auto) && (y.hi || y.lo) && decide (kie ≠ 0) && decide (sgn kie = sgn y.err)) then
    c.modLoop n (fun x => { x with inhibited := true, i := clip (c.par Par.loopOutMin n * 256) (c.par Par.loopOutMax n * 256) i })
  else c

/-- Every enabled context in link order, then the outputs handed to the stepper channels (R280, R284). -/
def Chip.runLoops (c : Chip) : Chip :=
  let modes := c.loopModes
  let (c, more) := c.loopOrder.foldl (fun (acc : Chip × List (Nat × Int × Int)) n =>
    let (mode, follow) := ((modes.find? (fun e => e.1 == n)).map (·.2)).getD (.disabled, 0)
    let (c, m) := acc.1.loopItem n mode follow
    (c, match m with | some (i, k) => acc.2 ++ [(n, i, k)] | none => acc.2)) (c, [])
  let c := more.foldl (fun c e => c.innerInhibit e.1 e.2.1 e.2.2) c
  let c := c.loopsOn.foldl (fun c n =>
    let d := c.parN Par.loopStpDest n
    if d < 6 ∧ c.stpActs d = true then
      let t := c.stpClip d (nth c.dev.loops n {}).out
      let s := nth c.dev.steppers d {}
      if s.phase = .moving ∨ t ≠ wholeStep s.x then c.modStep d (fun s => { s with
        phase := .moving, target := t, vLim := 0, aLim := 0, quick := false, deEnergise := false, idle := false,
        braking := s.braking && decide (s.target = t), scurve := if s.phase = .moving then s.scurve else decide (c.par Par.stpProfile d = 1) }) else c
    else c) c
  c.keepPrevious

/-- A context put in automatic under R287 (R453, R454). -/
def Chip.loopAuto (c : Chip) (n : Nat) : Chip :=
  c.modLoop n (fun x => if x.mode = .manual ∨ x.mode = .stopped then { x with mode := .auto, toAuto := true } else x)

/-! ### Operations (R289, R290) -/

/-- A setpoint in force. In a stop, a context that follows the host only keeps it as the value to be followed (R454). -/
def Chip.applySp (c : Chip) (n : Nat) (v : Int) (by_ : Nat) : Chip :=
  let stop := decide (c.dev.snow.step ≠ 0) && c.followsHost n
  c.modLoop n (fun x => { x with sp := if stop then x.sp else v, lastSet := v, spBy := by_ })

/-- A mode in force (R285, R289). -/
def Chip.applyMode (c : Chip) (n mode : Nat) (given : Bool) (man : Int) (by_ : Nat) : Chip :=
  c.modLoop n (fun x =>
    if mode = 1 then { x with mode := .manual, manual := if given then man else x.out, toAuto := false, modeBy := by_ }
    else if x.mode.automatic then { x with modeBy := by_ }
    else { x with mode := .auto, toAuto := true, modeBy := by_ })

/-- What the LOOP operations share: a context that is disabled or stopped, or fenced in every lane (R289). -/
def Chip.loopFails (c : Chip) (n : Nat) : List Nat :=
  (if c.loopOn n ∧ (nth c.dev.loops n {}).mode ≠ .stopped then [] else [stDenied]) ++ (if c.loopOn n && c.loopFencedAll n then [stFenced] else [])

/-- A timed LOOP operation needs an output at the end of its chain, with room (R290). -/
def Chip.chainFails (c : Chip) (r : Req) (n : Nat) : List Nat :=
  if r.isTimed then
    (match c.chainOut 9 n with
    | none => [stBadParam]
    | some o => if c.launchFull o then [stNoResource] else [])
  else []

def attrSetpointSet : OpAttr := { code := 0x1410, keyed := true, acc := .enabled, timed := true, right := some 0, row := .steer }

def checksSetpointSet (r : Req) (c : Chip) : List Nat :=
  let p := r.body
  let n := fld p 0 1
  if p.length ≠ 16 ∨ 63 < n ∨ zeroFrom p 1 4 = false ∨ zeroFrom p 8 16 = false then [stBadParam]
  else
    (if loopLim < dist (sfld p 4 4) 0 then [stRange] else []) ++ (if c.parN Par.loopSpSrc n < 64 then [stDenied] else []) ++ c.loopFails n ++
      c.chainFails r n

def effectSetpointSet (r : Req) (s : State) : OpOut :=
  let p := r.body
  let n := fld p 0 1
  OpOut.chip s (fun c =>
    if r.isTimed then
      c.addLoopLaunch ((c.chainOut 9 n).getD 0) 8 r.launchTime (bytesAt p 0 1 ++ List.replicate 3 0 ++ bytesAt p 4 4 ++ List.replicate 4 0) r.session
    else c.applySp n (sfld p 4 4) r.session)

/-- LOOP.SETPOINT_SET (R289). -/
def execSetpointSet (r : Req) (s : State) : Out := .next (runOp attrSetpointSet checksSetpointSet effectSetpointSet r s)

def attrModeSet : OpAttr := { code := 0x1411, keyed := true, acc := .enabled, timed := true, right := some 0, row := .enabled }

def checksModeSet (r : Req) (c : Chip) : List Nat :=
  let p := r.body
  let n := fld p 0 1
  if p.length ≠ 16 ∨ 63 < n ∨ (fld p 1 1 ≠ 1 ∧ fld p 1 1 ≠ 2) ∨ 1 < fld p 2 1 ∨ fld p 3 1 ≠ 0 ∨ zeroFrom p 8 16 = false then [stBadParam]
  else c.loopFails n ++ c.chainFails r n

def effectModeSet (r : Req) (s : State) : OpOut :=
  let p := r.body
  let n := fld p 0 1
  OpOut.chip s (fun c =>
    if r.isTimed then
      c.addLoopLaunch ((c.chainOut 9 n).getD 0) 9 r.launchTime (bytesAt p 0 3 ++ List.replicate 1 0 ++ bytesAt p 4 4 ++ List.replicate 4 0) r.session
    else c.applyMode n (fld p 1 1) (bitOf (fld p 2 1) 0) (sfld p 4 4) r.session)

/-- LOOP.MODE_SET (R289). -/
def execModeSet (r : Req) (s : State) : Out := .next (runOp attrModeSet checksModeSet effectModeSet r s)

def attrIntegratorPreset : OpAttr := { code := 0x1412, keyed := true, acc := .enabled, right := some 0, row := .enabled }

def checksIntegratorPreset (r : Req) (c : Chip) : List Nat :=
  let p := r.body
  let n := fld p 0 1
  if p.length ≠ 16 ∨ 63 < n ∨ zeroFrom p 1 4 = false ∨ zeroFrom p 8 16 = false then [stBadParam]
  else if c.loopOn n ∧ (nth c.dev.loops n {}).mode = .auto ∧ c.loopFencedAll n = false then [] else [stDenied]

def effectIntegratorPreset (r : Req) (s : State) : OpOut :=
  OpOut.chip s (fun c => c.modLoop (fld r.body 0 1) (fun x => { x with preset := some (sfld r.body 4 4) }))

/-- LOOP.INTEGRATOR_PRESET (R287, R289). -/
def execIntegratorPreset (r : Req) (s : State) : Out := .next (runOp attrIntegratorPreset checksIntegratorPreset effectIntegratorPreset r s)

/-- The timed LOOP operations that enter the computation of the period (R290). -/
def Chip.enterLoops (c : Chip) : Chip :=
  let xs := c.dueLaunches.filter (fun x => decide (x.kind = 8 ∨ x.kind = 9))
  let c := c.dropLaunches xs
  xs.foldl (fun c x =>
    let n := fld x.args 0 1
    if c.loopFails n ≠ [] then c
    else if x.kind = 8 then c.applySp n (sfld x.args 4 4) x.by_
    else c.applyMode n (fld x.args 1 1) (bitOf (fld x.args 2 1) 0) (sfld x.args 4 4) x.by_) c

end Sys2Proof.Machine
end

