-- ==== Sys2Proof/Machine/Pintle.lean ====
section
/-! DEFINITION. The Pintle die: the arbiter and hand-overs (R17 to R19, R30 to R36), fallback packets and lines (R244 to R248),
its stall estimate (R268), and the Deadbolt (R462 to R465). -/

namespace Sys2Proof.Machine

open Sys2Proof

/-! ### Outputs, targets and faults of the die -/

/-- The off-state target 2 to 9 of a claimed output 0 to 7 (ST0 to ST5, BM0, BM1). -/
def outTarget (k : Nat) : Nat := if k < 6 then k + 4 else k - 4

/-- The PWM period of a claimed output in ns. -/
def Chip.outPwm (c : Chip) (k : Nat) : Nat := if k < 6 then c.parN Par.stpPwmPeriod k else c.parN Par.cmtPwmPeriod (k - 4)

/-- The Pintle logic works: powered and not fenced (R17, R19). -/
def Chip.pintleUp (c : Chip) : Bool := c.pintle.powered && !c.pintle.fenced

/-- A fault found in the Pintle die, to be reported to the lanes (R428). -/
def Chip.pintleFault (c : Chip) (code t i : Nat) : Chip :=
  c.modPintle (fun p => { p with faults := p.faults ++ [(code, t, i)] })

/-- A serial link has delivered something with a matching CRC-32C (R248). -/
def Chip.pintleHeard (c : Chip) (l : LaneId) : Chip := c.modPLane l (fun p => { p with heard := true })

/-! ### Enable lines (R410) -/

/-- The enable lines follow their conditions; a rise closes the lane's enable switch (R410). -/
def Chip.enableLines (c : Chip) : Chip :=
  LaneId.all.foldl (fun c l =>
    let on := c.pintleUp && (c.pintle.lanes.get l).presents && !(c.lane l).sio.stageFenced && !c.pintle.holding
    let c := c.modPLane l (fun p => { p with enable := on })
    if on && !(c.lane l).boot.fenced then c.modSio l (fun x => { x with enabled := true }) else c) c

/-- ENABLE_LINE_FALL: every safety output of the lane de-energises, in hardware (R410). -/
def enableLineFall (l : LaneId) (c : Chip) : Chip :=
  let c := c.enableLines
  if (c.pintle.lanes.get l).enable then c else c.modSio l (fun x => { x with enabled := false })

def execEnableLineFall (l : LaneId) (s : State) : Out := .next (s.onChip (enableLineFall l))

/-! ### The vote and the holder (R30 to R32) -/

/-- The claim vectors of the presenting lanes. -/
def Pintle.vectors (p : Pintle) : List ClaimVec :=
  LaneId.all.filterMap (fun l => if (p.lanes.get l).presents then (p.lanes.get l).vec else none)

/-- The lowest of a list of numbers, 0 for none. -/
def lowestOf : List Nat → Nat
  | [] => 0
  | [x] => x
  | x :: y :: r => min x (lowestOf (y :: r))

/-- The arbiter's value of an entry: one that two presenting lanes agree on, else the lowest (R30). -/
def voteOf (xs : List Nat) : Nat :=
  match xs.find? (fun x => decide (2 ≤ (xs.filter (· == x)).length)) with
  | some x => x
  | none => lowestOf xs

/-- The voted claim numbers (R30). -/
def Pintle.votes (p : Pintle) : Tri Nat :=
  (Tri.all ()).mapIdx (fun l _ => voteOf (p.vectors.map (fun v => v.nums.get l)))

/-- The voted readmit bit of a lane (R30, R31). -/
def Pintle.readmitted (p : Pintle) (l : LaneId) : Bool :=
  decide (voteOf (p.vectors.map (fun v => if hasLane v.readmit l then 1 else 0)) = 1)

/-- The role field of a claim number (R25). -/
def roleField (n : Nat) : Nat := n / 64 % 4

/-- A lane's claim is valid (R31). -/
def Pintle.validClaim (p : Pintle) (l : LaneId) : Bool :=
  (p.lanes.get l).presents && !(p.lanes.get l).barred && decide (roleField (p.voted.get l) ≠ 0)

/-- The lane with the strictly highest valid claim (R32). -/
def Pintle.best (p : Pintle) : Option LaneId :=
  (LaneId.all.filter p.validClaim).find? (fun l =>
    (LaneId.all.filter p.validClaim).all (fun m => m == l || decide (p.voted.get m < p.voted.get l)))

/-- A valid claim exists. -/
def Pintle.anyClaim (p : Pintle) : Bool := LaneId.all.any p.validClaim

/-- The status packet that arms or disarms: the holder's, or the last holder's when no valid claim exists (R36, R464). -/
def Pintle.armingStatus (p : Pintle) : Option StatusPacket :=
  match p.holder, p.lastHolder with
  | some h, _ => (p.lanes.get h).status
  | none, some h => (p.lanes.get h).status
  | none, none => none

/-- The Deadbolt's arming follows the accepted claim and that packet (R36, R464). DESIGN CHOICE (log 90): with no status packet of
that lane yet, R36's "last valid status packet" names none, and the Deadbolt is not armed. -/
def Pintle.rearm (p : Pintle) : Pintle :=
  { p with armed := p.accepted && (match p.armingStatus with | some q => !q.disarm | none => false) }

/-- The holder set, with what follows from an accepted claim (R36). -/
def Pintle.setHolder (p : Pintle) (h : Option LaneId) : Pintle :=
  { p with holder := h, lastHolder := h.or p.lastHolder, accepted := p.accepted || h.isSome }.rearm

/-! ### Claim vectors (R18, R19) -/

/-- A claim vector read from 16 bytes with a correct CRC-32C (R18). -/
def claimVecOf (b : List Byte) : Option ClaimVec :=
  if b.length = 16 ∧ fld b 12 4 = crc32c (b.take 12) then
    some { nums := ⟨fld b 0 1, fld b 1 1, fld b 2 1⟩, readmit := BitVec.ofNat 8 (fld b 3 1), count := fld b 4 4 }
  else none

/-- A lane that sends on its serial link: admitted, not fenced, not scanned by its self-test engine (R18, R512). -/
def Chip.sendsPintle (c : Chip) (l : LaneId) : Bool :=
  decide ((c.lane l).boot.state = .admitted) && !(c.lane l).boot.fenced && decide ((c.lane l).bist.phase ≤ 1)

/-- The claim vector that a lane sends in the period: a lane that computed none sends its last one again with the readmit mask
zero (R18). -/
def Chip.sentClaims (c : Chip) (l : LaneId) : List Byte :=
  claimBytes (c.lane l).chk.claims (if (c.lane l).round.agreed then c.dev.claims.readmit else 0) c.dev.count

/-- CLAIM_VECTOR: a whole vector with a correct CRC is held for the next boundary, and its lane presents (R18, R19). -/
def claimVector (l : LaneId) (v : Rx (List Byte)) (c : Chip) : Chip :=
  let got := match v with
    | .corrupt => none
    | .intact => if c.sendsPintle l then claimVecOf (c.sentClaims l) else none
    | .other b => claimVecOf b
  match got with
  | none => c
  | some x =>
    if !c.pintle.powered then c
    else ((c.modPLane l (fun p => { p with next := some x, presents := true })).pintleHeard l).enableLines

def execClaimVector (l : LaneId) (v : Rx (List Byte)) (s : State) : Out := .next (s.onChip (claimVector l v))

/-- CLAIM_VECTOR_STALE: a lane whose last valid vector is more than 1.5 periods old does not present (R19). -/
def claimVectorStale (l : LaneId) (c : Chip) : Chip := (c.modPLane l (fun p => { p with presents := false })).enableLines

def execClaimVectorStale (l : LaneId) (s : State) : Out := .next (s.onChip (claimVectorStale l))

/-! ### Hand-overs (R34) -/

/-- An output fenced in the die: all its gates are off whatever drives it (R235, R239). -/
def POut.gated (o : POut) (f : Fallback) : Fallback := if o.fenced then {} else f

/-- The claim changes hands: every claimed output repeats its last passed pattern from its own next PWM boundary, where the period
that runs is still judged (R33, R34). -/
def Chip.startGap (c : Chip) : Chip :=
  c.modPintle (fun p => { p with outs := p.outs.map (fun o => { o with gap := true, gapPeriods := 0, limit := false }) })

/-- CLASS_CHANGE at the bridge of every lane in authority when the claim holder is another one than before (R70). -/
def Chip.holderEdge (c : Chip) (was : Option LaneId) : Chip :=
  if c.pintle.holder = was then c else c.authLanes.foldl (fun c l => c.raiseEdge l 5) (c.modDev (fun d => { d with claimAge := 0 }))

/-- A claim lost under R33: the holder is barred, and the next holder is found under R32. -/
def Chip.loseClaim (c : Chip) (h : LaneId) : Chip :=
  let was := c.pintle.holder
  let c := (c.modPLane h (fun p => { p with barred := true })).pintleFault 0x0201 0x01 h.idx
  ((c.modPintle (fun p => p.setHolder p.best)).startGap).holderEdge was

/-- The leg modes of a pattern, as a mask of n legs (R245). -/
def legMode (m : Mask) (j : Nat) : Nat := m.toNat / 4 ^ j % 4

/-- The legs of a claimed output. -/
def outLegs (k : Nat) : Nat := if k < 6 then 4 else 3

/-- The line of a leg in a PWM period of T ns is well-formed for the leg's mode (R244). -/
def lineFormed (x : LinePattern) (mode t : Nat) : Bool :=
  x.mark && !x.highAtBoundary &&
    (match x.rise, x.fall with
    | none, none => true
    | some a, some b => decide (mode = 1) && decide (80 ≤ a ∧ a + 32 ≤ b ∧ 5 * (b + 80) ≤ 4 * t)
    | _, _ => false)

/-- The period just ended passes for the lane whose pattern it drove (R33, R246): a valid packet, or whole well-formed lines for
legs last in mode 0b00 or 0b01. -/
def Chip.periodPasses (c : Chip) (l : LaneId) (k : Nat) (lines : List LinePattern) : Bool :=
  let o := nth c.pintle.outs k {}
  !o.limit &&
    (o.hasPacket ||
      (match nth (c.pintle.lanes.get l).packets k none with
      | none => false
      | some (_, q) =>
        (List.range (outLegs k)).all (fun j =>
          let m := legMode q.modes j
          decide (m ≤ 1) && !((c.pintle.lanes.get l).failedLines.contains ((targetLegs (outTarget k)).1 + j)) &&
            lineFormed (nth lines j {}) m (c.outPwm k))))

/-- The pattern that a lane's engines put on the lines and into the packet of a claimed output in the PWM period of an index
(R204, R222, R244, R257, R258). -/
def Chip.sentPattern (c : Chip) (l : LaneId) (k index : Nat) : Fallback :=
  if k < 6 then c.stpPattern l k index
  else
    let e := nth (c.lane l).engines (k - 4) {}
    let pwm := c.outPwm k
    match e.gates with
    | .switching => { modes := 0x15, entries := e.edges.flatMap (fun d => pulseEntry pwm ((d.2 - d.1) * 5 / 4)) ++ [0, 0] }
    | .short => { modes := 0x3F, entries := [] }
    | _ => {}

/-- What a period without a valid packet of the holder drives, by the modes of its last valid packet (R246): a leg last in mode
0b01 follows the line, one last in mode 0b10 or 0b11 is held low, any other is off. A leg whose line has failed follows packets alone
and is off without one (R247, log 109). -/
def Chip.noPacketPattern (c : Chip) (l : LaneId) (k : Nat) : Fallback :=
  match nth (c.pintle.lanes.get l).packets k none with
  | none => {}
  | some (_, q) =>
    let line := c.sentPattern l k (nth c.pintle.outs k {}).index
    let failed (j : Nat) : Bool := (c.pintle.lanes.get l).failedLines.contains ((targetLegs (outTarget k)).1 + j)
    let mode (j : Nat) : Nat := if legMode q.modes j = 1 then (if failed j then 0 else 1) else if legMode q.modes j = 0 then 0 else 3
    { modes := BitVec.ofNat 8 ((List.range (outLegs k)).foldl (fun m j => m + mode j * 4 ^ j) 0)
      entries := (List.range 4).flatMap (fun j =>
        if j < outLegs k ∧ mode j = 1 then [nth line.entries (2 * j) 0, nth line.entries (2 * j + 1) 0] else [0, 0]) }

/-! ### The Deadbolt (R462 to R465) -/

/-- The Deadbolt table as the lanes send it (R462). -/
def Chip.dbTable (c : Chip) : List Byte :=
  let quads := (List.range 6).flatMap (fun k =>
    toLe 1 (c.parN Par.snpDbMode k) ++ toLe 1 0 ++ toLe 2 (c.parN Par.snpDbI k) ++ toLeI 4 (c.par Par.snpDbPos k) ++
      toLe 4 (c.parN Par.snpDbSpeed k) ++ toLe 4 (c.parN Par.stpPwmPeriod k))
  let b := quads ++ toLe 1 (c.parN Par.snpDbMode 6) ++ toLe 1 (c.parN Par.snpDbMode 7) ++ toLe 2 0 ++
    toLe 4 (c.parN Par.snpDbAccel) ++ toLe 8 0 ++ toLe 12 0
  b ++ toLe 4 (crc32c (b ++ toLe 4 0))

/-- A table received whole with a matching CRC-32C (R462). -/
def tableIntact (b : List Byte) : Bool := decide (b.length = 128) && decide (fld b 124 4 = crc32c (b.take 124 ++ toLe 4 0))

/-- DEADBOLT_TABLE: a table from the holder with a matching CRC-32C is kept (R462). -/
def deadboltTable (l : LaneId) (q : Rx (List Byte)) (c : Chip) : Chip :=
  let got := match q with
    | .corrupt => none
    | .intact => if c.sendsPintle l then some c.dbTable else none
    | .other b => if tableIntact b then some b else none
  match got with
  | none => c
  | some b =>
    if !c.pintle.powered then c
    else
      let c := c.pintleHeard l
      if c.pintle.holder = some l then c.modPintle (fun p => { p with table := some b }) else c

def execDeadboltTable (l : LaneId) (q : Rx (List Byte)) (s : State) : Out := .next (s.onChip (deadboltTable l q))

/-- The status packet that a lane sends (R462, R464). -/
def Chip.sentStatus (c : Chip) (l : LaneId) : StatusPacket :=
  { disarm := !c.dev.actuation
    homed := (List.range 6).foldl (fun m k => setBit m k (nth c.dev.steppers k {}).homed) 0
    count := c.dev.count % 2 ^ 32
    tableCrc := fld c.dbTable 124 4
    xs := (c.lane l).stp.map (fun d => (d.x0, d.x1)) }

/-- A status packet read from 64 bytes with a matching CRC-32C that names the lane (R462). -/
def statusPacketOf (l : LaneId) (b : List Byte) : Option StatusPacket :=
  if b.length = 64 ∧ fld b 0 1 = l.idx ∧ fld b 12 4 = crc32c (b.take 12 ++ toLe 4 0 ++ b.drop 16) then
    some { disarm := bitOf (fld b 1 1) 0, homed := BitVec.ofNat 8 (fld b 2 1 % 64), count := fld b 4 4, tableCrc := fld b 8 4,
           xs := (List.range 6).map (fun k => (sfld b (16 + 8 * k) 4, sfld b (20 + 8 * k) 4)) }
  else none

/-- DB_STATUS_PACKET: a lane's valid status packet is kept; the holder's arms or disarms the Deadbolt (R462, R464). -/
def dbStatusPacket (l : LaneId) (q : Rx (List Byte)) (c : Chip) : Chip :=
  let got := match q with
    | .corrupt => none
    | .intact => if c.sendsPintle l then some (c.sentStatus l) else none
    | .other b => statusPacketOf l b
  match got with
  | none => c
  | some x =>
    if !c.pintle.powered then c
    else ((c.modPLane l (fun p => { p with status := some x })).pintleHeard l).modPintle (fun p => if p.fenced then p else p.rearm)

def execDbStatusPacket (l : LaneId) (q : Rx (List Byte)) (s : State) : Out := .next (s.onChip (dbStatusPacket l q))

/-- One channel as the Deadbolt starts it (R463): off without a valid table; a channel not homed travels as far as its stored
position lies from the commanded one. -/
def Chip.dbChan (c : Chip) (k : Nat) : DbChan :=
  match c.pintle.table with
  | none => {}
  | some b =>
    if k < 6 then
      let x := (nth c.pintle.outs k {}).lastPos
      let st := c.pintle.armingStatus.getD {}
      let m := fld b (16 * k) 1
      let pos := sfld b (16 * k + 4) 4
      let target := if m = 2 then x + pos else if hasBit st.homed k then pos else x + (pos - (nth st.xs k (0, 0)).2)
      { mode := m, target := target, amp := fld b (16 * k + 2) 2, speed := fld b (16 * k + 8) 4, pwm := fld b (16 * k + 12) 4,
        x := x * 65536 }
    else { mode := fld b (90 + k) 1 }

/-- The pattern that the Deadbolt drives on an output, none on one not in use (R463, R551): strong mode on the fixed table, or all low sides on. -/
def Chip.dbPattern (c : Chip) (k : Nat) : Fallback :=
  let d := nth c.pintle.db k {}
  if d.mode = 0 ∨ claimedUsed c.dev.cfg.ws k = false then {}
  else if k < 6 then
    let f := coilFractions [] (elecStep (c.par Par.stpDir k) (wholeStep d.x))
    { modes := 0xAA, entries := [quo (d.amp * f.1) 32767, 0, 0, 0, quo (d.amp * f.2) 32767, 0, 0, 0] }
  else { modes := 0x3F, entries := [] }

/-- One output driven by the Deadbolt in the coming PWM period. -/
def Chip.dbDrive (c : Chip) (k : Nat) : Chip :=
  let f := c.dbPattern k
  c.modPOut k (fun o => { o with driven := o.gated f })

/-- The Deadbolt takes every claimed output (R36, R463); a valid claim does not take them back (R37). -/
def Chip.dbTake (c : Chip) : Chip :=
  let c := c.modPintle (fun p => { p with
    holding := true
    outs := p.outs.map (fun o => { o with gap := false, limit := false, by_ := none, hasPacket := false, qA := 4, qB := 4 }) })
  let db := (List.range 8).map c.dbChan
  let c := (c.modPintle (fun p => { p with db := db })).pintleFault 0x0604 0x00 0
  let c := if c.pintle.table.isNone then
      (List.range 6).foldl (fun c k => if stepUsed c.dev.cfg.ws k then c.pintleFault 0x0607 0x06 k else c) c
    else c
  ((List.range 8).foldl Chip.dbDrive c).enableLines

/-- No valid claim at the end of a gap: the Deadbolt when it is armed, else every gate off (R36). -/
def Chip.noClaim (c : Chip) : Chip :=
  if c.pintle.armed then c.dbTake
  else c.modPintle (fun p => { p with outs := p.outs.map (fun o =>
    { o with gap := false, limit := false, by_ := none, hasPacket := false, driven := {}, lastPassed := {} }) })

/-- A channel of the running Deadbolt moves on for one PWM period (R463). -/
def Chip.dbStep (c : Chip) (k : Nat) : Chip :=
  let d := nth c.pintle.db k {}
  if 6 ≤ k ∨ d.mode = 0 then c
  else
    let acc : Int := match c.pintle.table with | some b => fld b 100 4 | none => 1
    let s : Stepper := { x := d.x, v := d.v, target := d.target, rem := d.rem, braking := d.braking }
    let (t, _) := s.toTarget d.speed acc acc acc d.pwm
    c.modPintle (fun p => { p with db := modNth p.db k (fun d => { d with x := t.x, v := t.v, rem := t.rem, braking := t.braking }) })

/-! ### PWM boundaries (R33, R34, R246 to R248, R258, R268) -/

/-- The period after a gap's limit (R34): driven as one without a packet of the new holder, or the end of the gap when no valid
claim exists. -/
def Chip.gapLimit (c : Chip) (k : Nat) : Chip :=
  match c.pintle.holder with
  | some h =>
    let f := c.noPacketPattern h k
    c.modPOut k (fun o => { o with gap := false, limit := true, by_ := some h, hasPacket := false, driven := o.gated f })
  | none => c.noClaim

/-- The coming PWM period of an output driven: the holder's pattern, a repetition, or none (R34, R246). -/
def Chip.driveNext (c : Chip) (k : Nat) : Chip :=
  let o := nth c.pintle.outs k {}
  let pwm := c.outPwm k
  let coming := match c.pintle.holder with | some h => nth (c.pintle.lanes.get h).coming k none | none => none
  match c.pintle.holder, coming with
  | some h, some q => c.modPOut k (fun o => { o with gap := false, limit := false, by_ := some h, hasPacket := true, driven := o.gated q })
  | some h, none =>
    if o.gap then
      (if (o.gapPeriods + 1) * pwm ≤ longestGap pwm then
        c.modPOut k (fun o => { o with gapPeriods := o.gapPeriods + 1, by_ := none, driven := o.gated o.lastPassed })
      else c.gapLimit k)
    else
      let f := c.noPacketPattern h k
      c.modPOut k (fun o => { o with limit := false, by_ := some h, hasPacket := false, driven := o.gated f })
  | none, _ =>
    if o.gap then
      (if (o.gapPeriods + 1) * pwm ≤ longestGap pwm then
        c.modPOut k (fun o => { o with gapPeriods := o.gapPeriods + 1, by_ := none, driven := o.gated o.lastPassed })
      else c.gapLimit k)
    else c.modPOut k (fun o => { o with by_ := none, hasPacket := false, driven := {} })

/-- Lines that deviated in the period just ended counted; at GDR.LINE_LIMIT a line is marked failed (R247). -/
def Chip.countLines (c : Chip) (k : Nat) : Chip :=
  match (nth c.pintle.outs k {}).by_ with
  | none => c
  | some h =>
    (List.range (outLegs k)).foldl (fun c j =>
      let g := (targetLegs (outTarget k)).1 + j
      let p := c.pintle.lanes.get h
      if p.devNow.contains g then
        let n := nth p.deviations g 0 + 1
        let fails := decide (c.parN Par.gdrLineLimit ≤ n) && !p.failedLines.contains g
        let c := c.modPLane h (fun p => { p with
          devNow := p.devNow.filter (· != g)
          deviations := modNth p.deviations g (fun _ => n)
          failedLines := if fails then p.failedLines ++ [g] else p.failedLines })
        if fails then c.pintleFault 0x110C 0x03 h.idx else c
      else c.modPLane h (fun p => { p with deviations := modNth p.deviations g (fun _ => 0) })) c

/-- The mixed-decay fraction of one coil after a period with a current and a target (R258). -/
def nextQ (q : Nat) (tol cur tgt : Int) : Nat :=
  if 4 * (dist cur 0 - dist tgt 0) > tol then min 8 (q + 1) else max 1 (q - 1)

/-- Mixed decay adapted at a boundary of a channel in strong mode (R258). -/
def Chip.adaptDecay (c : Chip) (k : Nat) (x : CoilPeriod) : Chip :=
  let o := nth c.pintle.outs k {}
  if 6 ≤ k then c
  else if o.driven.modes = 0xAA then
    let tol := c.par Par.stpITol k
    c.modPOut k (fun o => { o with
      qA := nextQ o.qA tol x.last.1 (nth o.driven.entries 0 0)
      qB := nextQ o.qB tol x.last.2 (nth o.driven.entries 4 0) })
  else c.modPOut k (fun o => { o with qA := 4, qB := 4 })

/-- The back-EMF of one coil in a PWM period of T ns, in mV: the mean voltage less STP.R_COIL times the mean current and STP.L_COIL times
the change of current over the period (R268). -/
def coilBackEmf (rc lc : Int) (t : Nat) (volts mean was now : Int) : Int := volts - quo (rc * mean) 1000 - quo (lc * (now - was) * 1000) t

/-- The electrical angle in 1/65,536 revolution by which the commanded vector leads the rotor in the direction of electrical motion: the
commanded angle at the mean position of the full step, and the rotor a quarter behind the EMF vector (R253, R268, log 110). -/
def loadAngle (dir posSum : Int) (n : Nat) (emf : Int × Int) (speed : Int) : Int :=
  let way := sgn speed * (1 - 2 * dir)
  let cmd : Int := 64 * elecStep dir (posSum / max 1 n)
  signedOf 16 (unsignedOf 16 (way * (cmd - ((angleOf emf.1 emf.2 : Nat) - way * 16384))))

/-- A full step shows a stall: an amplitude below STP.STALL_EMF percent of STP.KE times the commanded speed, or a load angle above
STP.STALL_ANGLE (R268). -/
def Chip.stepStalls (c : Chip) (k : Nat) (q : StallPar) (o : POut) : Bool :=
  let want := q.emf * c.parN Par.stpKe k * (dist q.speed 0).toNat * o.emfs
  let amp := (o.emf.1 * o.emf.1 + o.emf.2 * o.emf.2).toNat
  decide (amp * (25600000 * 25600000) < want * want) ||
    decide ((q.angle * 65536 : Int) < 360 * loadAngle (c.par Par.stpDir k) o.posSum o.emfs o.emf q.speed)

/-- One completed full step judged: the stall flag stands after two consecutive ones that show a stall. A full step with a gap or a change
of mode, or with no parameters received, is not judged, and one below STP.STALL_SPEED shows none (R268, log 110). -/
def Chip.stallStep (c : Chip) (k : Nat) : Chip :=
  c.modPOut k (fun o =>
    let o := match o.stallPar with
      | some q =>
        if o.spoiled then { o with stallSteps := 0 }
        else
          let bad := decide (q.least ≤ dist q.speed 0) && c.stepStalls k q o
          { o with stallSteps := if bad then min 2 (o.stallSteps + 1) else 0, stall := bad && decide (1 ≤ o.stallSteps) }
      | none => { o with stallSteps := 0 }
    { o with emf := (0, 0), emfs := 0, posSum := 0, spoiled := false })

/-- The holder's position of an output in the period just ended (R262, R463). -/
def Chip.passedPos (c : Chip) (l : LaneId) (k : Nat) : Int :=
  match (c.pintle.lanes.get l).status with
  | some st =>
    let x := nth st.xs k (0, 0)
    let pwm := c.outPwm k
    stpAt x.1 x.2 0 (c.pwmAfter pwm (nth c.pintle.outs k {}).index) (c.pwmCount pwm)
  | none => (nth c.pintle.outs k {}).lastPos

/-- The stall estimate of the PWM period just ended (R268): its back-EMF and position added to the full step that runs. When the position
has left that full step, the step is judged first. Under the Deadbolt nothing is judged (R463). -/
def Chip.stallJudge (c : Chip) (k : Nat) (x : CoilPeriod) : Chip :=
  let o := nth c.pintle.outs k {}
  let c := if 6 ≤ k ∨ c.pintle.holding = true then c.modPOut k (fun o => { o with spoiled := true })
    else
      let pos := match o.by_ with | some l => c.passedPos l k | none => o.lastPos
      let c := if pos / 256 ≠ o.lastPos / 256 then c.stallStep k else c
      let pwm := c.outPwm k
      let rc := c.par Par.stpRCoil k
      let lc := c.par Par.stpLCoil k
      let ea := coilBackEmf rc lc pwm x.volts.1 x.mean.1 o.coilEnd.1 x.last.1
      let eb := coilBackEmf rc lc pwm x.volts.2 x.mean.2 o.coilEnd.2 x.last.2
      c.modPOut k (fun o => { o with
        emf := (o.emf.1 + ea, o.emf.2 + eb), emfs := o.emfs + 1, posSum := o.posSum + pos
        spoiled := o.spoiled || o.by_.isNone || decide (o.driven.modes ≠ o.lastPassed.modes) })
  c.modPOut k (fun o => { o with coilEnd := x.last })

/-- The period just ended judged (R33): a pass keeps its pattern, a failure of the holder costs it every claimed output. -/
def Chip.judgePeriod (c : Chip) (k : Nat) (lines : List LinePattern) : Chip :=
  match (nth c.pintle.outs k {}).by_ with
  | none => c
  | some l =>
    if c.periodPasses l k lines then
      let x := if k < 6 then c.passedPos l k else 0
      c.modPOut k (fun o => { o with lastPassed := o.driven, lastPos := x })
    else if c.pintle.holder = some l then
      let atLimit := (nth c.pintle.outs k {}).limit
      let c := c.loseClaim l
      if atLimit && c.pintle.holder.isNone then c.noClaim else c
    else c

/-- The index of the output's PWM period moves on, the packets for it become the last valid ones (R245), and each lane's periods
without one are counted (R248). -/
def Chip.takePackets' (c : Chip) (k : Nat) : Chip :=
  let i := ((nth c.pintle.outs k {}).index + 1) % max 1 (c.pwmCount (c.outPwm k))
  let c := c.modPOut k (fun o => { o with index := i })
  LaneId.all.foldl (fun c l => c.modPLane l (fun p =>
    let p := { p with
      missing := modNth p.missing k (fun n => if nth p.got k false then 0 else min 16 (n + 1)), got := modNth p.got k (fun _ => false) }
    match nth p.coming k none with
    | some q => { p with packets := modNth p.packets k (fun _ => some (i, q)) }
    | none => p)) c

/-- The packets for the period that begins are used up. -/
def Chip.clearComing (c : Chip) (k : Nat) : Chip :=
  LaneId.all.foldl (fun c l => c.modPLane l (fun p => { p with coming := modNth p.coming k (fun _ => none) })) c

/-- PWM_BOUNDARY: the period just ended is judged and the coming one driven (R33, R34, R246). -/
def pwmBoundary (out : Fin 8) (lines : List LinePattern) (x : CoilPeriod) (c : Chip) : Chip :=
  let k := out.val
  if !c.pintleUp then c
  else
    let c := (c.stallJudge k x).modTarget .a (outTarget k) (fun t => { t.takeBand 0 with shortNow := false })
    let c := (c.adaptDecay k x).countLines k
    if c.pintle.holding then ((((c.takePackets' k).clearComing k).dbStep k).dbDrive k)
    else
      let c := (c.judgePeriod k lines).takePackets' k
      let c := if c.pintle.holding then c else c.driveNext k
      c.clearComing k

def execPwmBoundary (out : Fin 8) (lines : List LinePattern) (x : CoilPeriod) (s : State) : Out :=
  .next (s.onChip (pwmBoundary out lines x))

/-- CLAIM_GAP_LIMIT: the boundary at which the repetition ends without the new holder's pattern (R34, R36). -/
def claimGapLimit (out : Fin 8) (c : Chip) : Chip :=
  let k := out.val
  let o := nth c.pintle.outs k {}
  let has := match c.pintle.holder with | some h => (nth (c.pintle.lanes.get h).coming k none).isSome | none => false
  if c.pintleUp && o.gap && !has && !c.pintle.holding then ((c.takePackets' k).gapLimit k).clearComing k else c

def execClaimGapLimit (out : Fin 8) (s : State) : Out := .next (s.onChip (claimGapLimit out))

/-- A fallback packet of a lane for a PWM period of an output as its 32 bytes (R245). -/
def fallbackBytes (l : LaneId) (k index count : Nat) (f : Fallback) : List Byte :=
  let head := toLe 1 l.idx ++ toLe 1 k ++ toLe 2 index ++ toLe 4 count ++ toLe 1 f.modes.toNat ++ toLe 3 0
  let body := (List.range 8).flatMap (fun j => toLeI 2 (nth f.entries j 0))
  head ++ toLe 4 (crc32c (head ++ toLe 4 0 ++ body)) ++ body

/-- A fallback packet of a lane and output read from its bytes with a matching CRC-32C: the index, the count, and the pattern (R245). -/
def fallbackOf (l : LaneId) (k : Nat) (b : List Byte) : Option (Nat × Nat × Fallback) :=
  if b.length = 32 ∧ fld b 0 1 = l.idx ∧ fld b 1 1 = k ∧ fld b 12 4 = crc32c (b.take 12 ++ toLe 4 0 ++ b.drop 16) then
    some (fld b 2 2, fld b 4 4, { modes := BitVec.ofNat 8 (fld b 8 1), entries := (List.range 8).map (fun j => sfld b (16 + 2 * j) 2) })
  else none

/-- The index of an output's coming PWM period in its control period (R245). -/
def Chip.nextIndex (c : Chip) (k : Nat) : Nat := ((nth c.pintle.outs k {}).index + 1) % max 1 (c.pwmCount (c.outPwm k))

/-- An index and a count name an output's coming PWM period (R245). The first one of a control period belongs to that which has begun, or
to the one that begins next. -/
def Chip.namesNext (c : Chip) (k index count : Nat) : Bool :=
  decide (index = c.nextIndex k) && (decide (count = c.dev.count % 2 ^ 32) || (decide (index = 0) && decide (count = (c.dev.count + 1) % 2 ^ 32)))

/-- The fallback packet that a lane sends for an output's coming PWM period (R245). -/
def Chip.sentFallback (c : Chip) (l : LaneId) (k : Nat) : List Byte :=
  fallbackBytes l k (c.nextIndex k) (c.dev.count % 2 ^ 32) (c.sentPattern l k (c.nextIndex k))

/-- A valid packet for an output's coming PWM period held by the die. The commands of a standby lane are discarded (R32): a lane that takes
the claim later drives nothing from a packet received before, which only tells the modes of its last valid packet (R34, R246, log 63). -/
def Chip.holdPacket (c : Chip) (l : LaneId) (k index : Nat) (f : Fallback) : Chip :=
  let c := c.modPLane l (fun p => { p with got := modNth p.got k (fun _ => true) })
  if c.pintle.holder = some l then c.modPLane l (fun p => { p with coming := modNth p.coming k (fun _ => some f) })
  else c.modPLane l (fun p => { p with packets := modNth p.packets k (fun _ => some (index, f)) })

/-- FALLBACK_PACKET: a packet with a matching CRC-32C that names the coming PWM period, and is whole before it begins, is valid for it
(R245). -/
def fallbackPacket (l : LaneId) (out : Fin 8) (q : Rx (List Byte)) (c : Chip) : Chip :=
  let k := out.val
  let got := match q with
    | .corrupt => none
    | .intact => if c.sendsPintle l then fallbackOf l k (c.sentFallback l k) else none
    | .other b => fallbackOf l k b
  match got with
  | none => c
  | some (index, count, f) =>
    if !c.pintleUp then c
    else
      let c := c.pintleHeard l
      if c.namesNext k index count then c.holdPacket l k index f else c

def execFallbackPacket (l : LaneId) (out : Fin 8) (q : Rx (List Byte)) (s : State) : Out :=
  .next (s.onChip (fallbackPacket l out q))

/-- A line that has shown a pattern up to a time after the boundary, in steps of 1.25 ns, fails the check against its valid packet (R246):
no test mark, high at a boundary, another mode, or an edge more than 100 ns away or missing by then. -/
def lineFails (f : Fallback) (j : Nat) (x : LinePattern) (at_ : Nat) : Bool :=
  let want (n : Nat) : Nat := 8 * (nth f.entries (2 * j + n) 0).toNat
  let edge (n : Nat) (got : Option Nat) : Bool := match got with
    | some g => decide (80 < dist g (want n))
    | none => decide (want n + 80 < at_)
  !x.mark || x.highAtBoundary ||
    (if legMode f.modes j = 1 ∧ want 0 < want 1 then edge 0 x.rise || edge 1 x.fall else x.rise.isSome || x.fall.isSome)

/-- LINE_DEVIATION: a line that fails the check: the leg follows the packet to the end of the period; 0x110B once per lane and control
period (R246). -/
def lineDeviation (leg : Fin 30) (x : LinePattern) (at_ : Nat) (c : Chip) : Chip :=
  let t := targetOf (.pintle leg)
  let k := targetOut t
  let o := nth c.pintle.outs k {}
  match o.by_ with
  | none => c
  | some h =>
    let p := c.pintle.lanes.get h
    let sent : Fallback := ((nth p.packets k none).map (·.2)).getD {}
    if !c.pintleUp || !o.hasPacket || p.failedLines.contains leg.val || p.devNow.contains leg.val ||
        !lineFails sent (leg.val - (targetLegs t).1) x at_ then c
    else
      let c := c.modPLane h (fun p => { p with devNow := p.devNow ++ [leg.val], devRecorded := true })
      let c := c.modTarget .a t (fun x => { x with deviating := satInc 65535 x.deviating })
      if p.devRecorded then c else c.pintleFault 0x110B 0x03 h.idx

def execLineDeviation (leg : Fin 30) (x : LinePattern) (at_ : Nat) (s : State) : Out := .next (s.onChip (lineDeviation leg x at_))

/-- Both paths from a lane have failed: nothing with a matching CRC-32C in two control periods, or a failed line's leg without a valid
packet in GDR.LINE_LIMIT PWM periods (R248). -/
def Chip.pathLost (c : Chip) (l : LaneId) : Bool :=
  let p := c.pintle.lanes.get l
  decide (2 ≤ p.unheard) || p.failedLines.any (fun g => if h : g < 30 then
    decide (c.parN Par.gdrLineLimit 0 ≤ nth p.missing (targetOut (targetOf (.pintle ⟨g, h⟩))) 0) else false)

/-- PATH_FAILED: both paths from a lane have failed: fault 0x110D (R248). -/
def pathFailed (l : LaneId) (c : Chip) : Chip :=
  if !c.pintle.powered || (c.pintle.lanes.get l).pathFailed || !c.pathLost l then c
  else (c.modPLane l (fun p => { p with pathFailed := true })).pintleFault 0x110D 0x03 l.idx

def execPathFailed (l : LaneId) (s : State) : Out := .next (s.onChip (pathFailed l))

/-- What the holder sends for the stall estimate of a channel (R268). -/
def Chip.sentStall (c : Chip) (l : LaneId) (k : Nat) : StallPar :=
  { speed := (nth (c.lane l).stp k {}).v, least := c.parN Par.stpStallSpeed k, emf := c.parN Par.stpStallEmf k, angle := c.parN Par.stpStallAngle k }

/-- STALL_PARAMETERS: the holder's commanded speed and stall parameters, sent once per control period, are kept by the die (R268). -/
def stallParameters (ch : Fin 6) (q : Rx StallPar) (c : Chip) : Chip :=
  match c.pintle.holder with
  | none => c
  | some h =>
    let got := match q with
      | .corrupt => none
      | .intact => if c.sendsPintle h then some (c.sentStall h ch.val) else none
      | .other x => some x
    match got with
    | none => c
    | some x => if c.pintleUp then (c.pintleHeard h).modPOut ch.val (fun o => { o with stallPar := some x }) else c

def execStallParameters (ch : Fin 6) (q : Rx StallPar) (s : State) : Out := .next (s.onChip (stallParameters ch q))

/-! ### Replicas (R17) -/

/-- The Pintle die fenced: every gate it drives is held off, every enable line withdrawn, no Deadbolt (R17). -/
def Chip.fencePintle (c : Chip) : Chip :=
  (c.modPintle (fun p => { p with
    fenced := true, armed := false, holding := false, db := []
    outs := p.outs.map (fun o => { o with gap := false, limit := false, by_ := none, hasPacket := false, driven := {}, lastPassed := {} }) })).enableLines

/-- REPLICA_DISAGREE: one of three is rewritten, and fenced when it disagrees again within 1 s; a disagreement of the two that
remain fences the die (R17). -/
def replicaDisagree (r : Fin 3) (c : Chip) : Chip :=
  match LaneId.ofIdx r.val with
  | none => c
  | some k =>
    let p := c.pintle
    let nt := c.legNt (.pintle 0)
    if !c.pintleUp || p.replicaFenced.get k then c
    else if p.replicaFenced.toList.any id then (c.fencePintle).pintleFault 0x0204 0x05 0
    else
      let again := match p.replicaNt.get k with | some t => decide (nt ≤ t + 1000000000) | none => false
      let c := c.modPintle (fun p => { p with replicaNt := p.replicaNt.set k (some nt) })
      if again then (c.modPintle (fun p => { p with replicaFenced := p.replicaFenced.set k true })).pintleFault 0x0203 0x04 r.val
      else c.pintleFault 0x0202 0x04 r.val

def execReplicaDisagree (r : Fin 3) (s : State) : Out := .next (s.onChip (replicaDisagree r))

/-! ### The control-period boundary (R18, R30 to R36, R465, R497) -/

/-- A lane's part at a boundary: a vector received takes effect, and the link's silence is counted (R18, R248). -/
def PLane.boundary (x : PLane) : PLane :=
  { x with vec := x.next.or x.vec, devRecorded := false, unheard := if x.heard then 0 else min 3 (x.unheard + 1), heard := false }

/-- A lane's part after the vote: its bar cleared by a voted readmission, and the periods of role 0 counted (R31, R497). -/
def PLane.voted (x : PLane) (entry : Nat) (readmit : Bool) : PLane :=
  { x with barred := x.barred && !readmit, role0 := if roleField entry = 0 then min 2 (x.role0 + 1) else 0 }

/-- Vectors received take effect, entries are voted, bars cleared, and roles counted (R18, R30, R31, R497). -/
def Pintle.takeVectors (p : Pintle) : Pintle :=
  let p := { p with lanes := p.lanes.map PLane.boundary }
  let p := { p with voted := p.votes }
  { p with lanes := p.lanes.mapIdx (fun l x => x.voted (p.voted.get l) (p.readmitted l)) }

/-- The permit lines follow the roles and the holder (R497). -/
def Pintle.permits (p : Pintle) : Pintle :=
  { p with lanes := p.lanes.mapIdx (fun l x => { x with permit := decide (2 ≤ x.role0) && decide (p.holder ≠ some l) }) }

/-- A bridge disabled with its gates off at once, whatever its back-EMF (R465). -/
def Chip.bridgeOff (c : Chip) (k : Nat) : Chip :=
  let c := (c.disableBridge k).modMotor k (fun m => { m with disabling := false, state := if m.state = .switching then .tracking else m.state })
  LaneId.all.foldl (fun c l => c.modEngine l k (fun e => e.halt .off)) c

/-- The Deadbolt released: the holder takes the outputs, channels de-energised and not homed, BM0 and BM1 off (R465). -/
def Chip.dbRelease (c : Chip) : Chip :=
  let c := (c.modPintle (fun p => { p with holding := false, db := [], outs := p.outs.map (fun o => { o with driven := {}, lastPassed := {}, by_ := none, hasPacket := false }) })).startGap
  let c := (List.range 6).foldl (fun c k => c.stpRelease k stNotHomed) c
  let c := [2, 3].foldl (fun c k => if bridgeUsed c.dev.cfg.ws k then c.bridgeOff k else c) c
  ((c.modSnow (fun w => { w with dbReleasing := false })).agreedFault 0x0606 0x00 0 0xFF).enableLines

/-- What the Pintle die does at a control-period boundary. -/
def Chip.pintleBoundary (c : Chip) : Chip :=
  if !c.pintleUp then c
  else
    let old := c.pintle.lastHolder
    let was := c.pintle.holder
    let c := c.modPintle (fun p => let p := p.takeVectors; (p.setHolder p.best).permits)
    let c := c.holderEdge was
    let now := c.pintle.holder
    let c := if now.isSome ∧ old.isSome ∧ now ≠ old then
        c.pintleFault 0x0206 0x01 ((now.map LaneId.idx).getD 0) else c
    let c := if now ≠ was ∧ c.pintle.holding = false then c.startGap else c
    let c := if c.dev.snow.dbReleasing && c.pintle.holding && now.isSome then c.dbRelease else c
    c.enableLines

end Sys2Proof.Machine
end

