-- ==== Sys2Proof/Machine/NetTime.lean ====
section
/-! DEFINITION. Network time (chapter 13): the correction of a lane's clock and its time states, link and forwarding delays and
the chain of delay data, the time marks between lanes, and the TIME operations. -/

namespace Sys2Proof.Machine

open Sys2Proof

/-! ### Phases, ports and planes (R301, R316, R336) -/

/-- The code of a phase (R334). -/
def NetPhase.code : NetPhase → Nat
  | .down => 0 | .listen => 1 | .coldstart => 2 | .integrate => 3 | .service => 4 | .recovery => 5 | .test => 6

/-- A lane's Ocgal unit. -/
def Chip.netOf (c : Chip) (l : LaneId) : Ocgal := (c.lane l).net

/-- A port 0 to 3 of a lane (A.U, A.D, B.U, B.D). -/
def Chip.portOf (c : Chip) (l : LaneId) (p : Nat) : NetPort := nth (c.netOf l).ports p {}

/-- A frame that fails a check counted by its cause, and for its port (R306). -/
def NetPort.failed (p : NetPort) (cause : Nat) : NetPort :=
  { p with fails := min 65535 (p.fails + 1), causes := modNth p.causes cause (satInc 65535) }

/-- A port sends and forwards: its link is trained and it is not fenced (R104, R336). -/
def NetPort.works (p : NetPort) : Bool := p.up && p.trained && !p.fenced

/-- The port on the other side of the station, on the same channel (R303). -/
def otherPort (p : Nat) : Nat := if p % 2 = 0 then p + 1 else p - 1

/-- A lane of the device in SERVICE. -/
def Chip.inService (c : Chip) (l : LaneId) : Bool := decide ((c.netOf l).phase = .service)

/-- Another lane of the device in SERVICE, the lowest. -/
def Chip.servicePeer (c : Chip) (l : LaneId) : Option LaneId := l.partners.find? c.inService

/-- A fault of a lane's Ocgal unit (R336, R360). -/
def Chip.netFault (c : Chip) (l : LaneId) (code : Nat) : Chip := c.localFault l code 0x0C 0 l.idx

/-- A fault of a port (R336, R360). -/
def Chip.portFault (c : Chip) (l : LaneId) (p code : Nat) : Chip := c.localFault l code 0x0B p l.idx

/-- A fault of a port that forwards without its lane, recorded where the lane runs (R303, R325, R330). -/
def Chip.portNote (c : Chip) (l : LaneId) (p code : Nat) : Chip := if c.runs l then c.portFault l p code else c

/-- A port fenced with a U-class fault (R336). -/
def Chip.portFence (c : Chip) (l : LaneId) (p code : Nat) : Chip :=
  if (c.portOf l p).fenced then c else (c.portFault l p code).ownFence l 0x0B p

/-- Whether a reference, by its rank and NodeID, ranks better than another (R318, R324). -/
def ranksBetter (rank node rank' node' : Nat) : Bool := decide (rank < rank') || (decide (rank = rank') && decide (node < node'))

/-- Whether a reference ranks better than another one by rank, NodeID and plane (R346). -/
def marksBetter (rank node plane rank' node' plane' : Nat) : Bool :=
  ranksBetter rank node rank' node' || (decide (rank = rank' ∧ node = node') && decide (plane < plane'))

/-! ### Link delays (R338) -/

/-- A probe frame's body (R338). -/
def probeBody (kind seq t2 t3 : Nat) : List Byte := toLe 1 kind ++ toLe 1 seq ++ toLe 6 0 ++ toLe 8 t2 ++ toLe 8 t3 ++ toLe 8 0

/-- A frame put among those sent by the lane. -/
def Chip.netSend (c : Chip) (l : LaneId) (f : SentFrame) : Chip := c.modNet l (fun n => { n with out := n.out ++ [f] })

/-- A probe frame sent on a port: its start-frame delimiter passes at the lane's NT (R338). -/
def Chip.sendPlain (c : Chip) (l : LaneId) (p : Nat) (body : List Byte) : Chip :=
  c.netSend l { port := p, at_ := (c.lane l).clock.nt - sfdLag, bytes := probeBytes l.idx (c.parN Par.netNodeId) (c.parN Par.netEthertype) body }

/-- A probe request with the port's next sequence (R338). -/
def Chip.sendProbe (c : Chip) (l : LaneId) (p : Nat) : Chip :=
  let t := (c.lane l).clock.nt
  (c.modPort l p (fun x => { x with probeT1 := some t })).sendPlain l p (probeBody 1 (c.portOf l p).probeSeq 0 0)

/-- PHY_LINK_UP: the link is there; an X.U port measures its delay before training ends (R338). -/
def phyLinkUp (l : LaneId) (port : Fin 4) (c : Chip) : Chip :=
  if (c.lane l).power.net then
    c.modPort l port.val (fun p => { p with up := true, trained := false, probeSeq := 0, probeT1 := none, unanswered := 0, samples := [], delay := none, downAll := false })
  else c

def execPhyLinkUp (l : LaneId) (port : Fin 4) (s : State) : Out := .next (s.onChip (phyLinkUp l port))

/-- PROBE_SEND: an X.U port sends its next request until it has every sample (R338). -/
def probeSend (l : LaneId) (port : Fin 4) (c : Chip) : Chip :=
  let p := c.portOf l port.val
  if port.val % 2 = 0 ∧ p.up = true ∧ p.fenced = false ∧ p.probeT1 = none ∧ p.samples.length < c.parN Par.timeDelaySamples then
    c.sendProbe l port.val
  else c

def execProbeSend (l : LaneId) (port : Fin 4) (s : State) : Out := .next (s.onLane l (probeSend l port))

/-- PROBE_REQUEST: an X.D port answers within 2 µs, and learns its neighbour's NodeID (R338, R340). -/
def probeRequest (l : LaneId) (port : Fin 4) (seq : Fin 16) (node : Nat) (c : Chip) : Chip :=
  let p := c.portOf l port.val
  if port.val % 2 = 1 ∧ p.up = true ∧ p.fenced = false then
    let t := (c.lane l).clock.nt
    (c.modPort l port.val (fun p => { p with partner := node })).sendPlain l port.val (probeBody 2 seq.val t t)
  else c

def execProbeRequest (l : LaneId) (port : Fin 4) (seq : Fin 16) (node : Nat) (s : State) : Out :=
  .next (s.onLane l (probeRequest l port seq node))

/-- The mean of delay samples in ps, rounded toward zero (R338). -/
def meanDelay (xs : List Int) : Nat := (quo (xs.foldl (· + ·) 0) xs.length).toNat

/-- PROBE_RESPONSE: a response to the outstanding request gives a sample; the last one gives the link delay (R338). -/
def probeResponse (l : LaneId) (port : Fin 4) (seq : Fin 16) (t2 t3 t4 node : Nat) (c : Chip) : Chip :=
  let p := c.portOf l port.val
  match p.probeT1 with
  | none => c
  | some t1 =>
    if p.probeSeq ≠ seq.val ∨ p.fenced = true then c
    else
      let x : Int := (((t4 : Int) - t1) - ((t3 : Int) - t2)) * 500
      let xs := p.samples ++ [x]
      c.modPort l port.val (fun p => { p with
        partner := node, probeT1 := none, unanswered := 0, probeSeq := (p.probeSeq + 1) % 16, samples := xs
        delay := if c.parN Par.timeDelaySamples ≤ xs.length then some (meanDelay xs) else p.delay })

def execProbeResponse (l : LaneId) (port : Fin 4) (seq : Fin 16) (t2 t3 t4 node : Nat) (s : State) : Out :=
  .next (s.onLane l (probeResponse l port seq t2 t3 t4 node))

/-- A port's link lost or restarted: nothing of it is known until it is up again (R336, R338). -/
def Chip.portDown (c : Chip) (l : LaneId) (p : Nat) : Chip :=
  c.modPort l p (fun x => { x with up := false, trained := false, probeT1 := none, unanswered := 0, samples := [], delay := none, partner := 0, busy := 0, buffered := none })

/-- PROBE_TIMEOUT: the request is repeated; after three without an answer the PHY restarts the link (R338). -/
def probeTimeout (l : LaneId) (port : Fin 4) (c : Chip) : Chip :=
  let p := c.portOf l port.val
  if p.probeT1 = none then c
  else if 2 ≤ p.unanswered then (c.portFault l port.val 0x2101).portDown l port.val
  else (c.modPort l port.val (fun p => { p with unanswered := p.unanswered + 1 })).sendProbe l port.val

def execProbeTimeout (l : LaneId) (port : Fin 4) (s : State) : Out := .next (s.onLane l (probeTimeout l port))

/-- LINK_LOST: fault 0x2003, and training restarts (R336). -/
def linkLost (l : LaneId) (port : Fin 4) (c : Chip) : Chip :=
  if (c.portOf l port.val).up then (if c.runs l then c.portFault l port.val 0x2003 else c).portDown l port.val else c

def execLinkLost (l : LaneId) (port : Fin 4) (s : State) : Out := .next (s.onChip (linkLost l port))

/-! ### Delay data and the chain (R339 to R342) -/

/-- A mean forwarding delay in ps once 64 frames have been measured (R339). -/
def fwdMean (f : Nat × Nat) : Option Nat := if f.2 < 64 then none else some (f.1 / f.2)

/-- The delay data that a lane publishes for a channel (R340). -/
def Chip.ownDelay (c : Chip) (l : LaneId) (ch : Nat) : DelayData :=
  let n := c.netOf l
  let u := c.portOf l (2 * ch)
  let d := c.portOf l (2 * ch + 1)
  let ud := fwdMean (nth n.fwd (2 * ch) (0, 0))
  let du := fwdMean (nth n.fwd (2 * ch + 1) (0, 0))
  let ld : Option (Nat × Nat) := n.lineDelays.map (fun x => if ch = 0 then (x.1, x.2.1) else (x.2.2.1, x.2.2.2))
  let bit (b : Bool) (k : Nat) (m : Mask) : Mask := setBit m k b
  { node := c.parN Par.netNodeId, uNode := u.partner, dNode := d.partner, linkDelay := u.delay.getD 0, fwdUD := ud.getD 0, fwdDU := du.getD 0
    headDelay := (ld.map (·.1)).getD 0, tailDelay := (ld.map (·.2)).getD 0, phase := n.phase.code
    flags := bit (!u.up) 0 (bit (!d.up) 1 (bit u.delay.isSome 2 (bit (ud.isSome && du.isSome) 3 (bit ld.isSome 4 0)))) }

/-- Delay data as two quads (R340). -/
def delayBytes (d : DelayData) : List Byte :=
  toLe 2 d.uNode ++ toLe 2 d.dNode ++ toLe 4 d.linkDelay ++ toLe 4 d.fwdUD ++ toLe 4 d.fwdDU ++ toLe 4 d.headDelay ++ toLe 4 d.tailDelay ++
    toLe 1 d.phase ++ toLe 1 d.flags.toNat ++ toLe 6 0

/-- Delay data of a station read from two quads. -/
def delayOf (node : Nat) (b : List Byte) : DelayData :=
  { node := node, uNode := fld b 0 2, dNode := fld b 2 2, linkDelay := fld b 4 4, fwdUD := fld b 8 4, fwdDU := fld b 12 4,
    headDelay := fld b 16 4, tailDelay := fld b 20 4, phase := fld b 24 1, flags := BitVec.ofNat 8 (fld b 25 1) }

/-- Delay data put into a chain, newest of each station. -/
def chainPut (ch : List DelayData) (d : DelayData) : List DelayData := ch.filter (fun x => x.node != d.node) ++ [d]

/-- The chain of a channel with the lane's own data. -/
def Chip.chain (c : Chip) (l : LaneId) (ch : Nat) : List DelayData :=
  chainPut (if ch = 0 then (c.netOf l).chainA else (c.netOf l).chainB) (c.ownDelay l ch)

/-- A station of a chain. -/
def chainFind (ch : List DelayData) (node : Nat) : Option DelayData := ch.find? (fun d => d.node == node)

/-- A station's published delays are valid: its link delay unless it is the head, its forwarding delays unless it is an end (R342). -/
def delaySound (d : DelayData) : Bool :=
  (hasBit d.flags 0 || hasBit d.flags 2) && (hasBit d.flags 0 || hasBit d.flags 1 || hasBit d.flags 3)

/-- The path delay and hops from a station up to one that a test picks, on fuel (R342). -/
def upPath (ch : List DelayData) (stop : DelayData → Bool) : Nat → DelayData → Option (Nat × Nat)
  | 0, _ => none
  | fuel + 1, d =>
    if stop d then some (0, 0)
    else if hasBit d.flags 0 then none
    else match chainFind ch d.uNode with
      | none => none
      | some u => (upPath ch stop fuel u).map (fun r => (d.linkDelay + r.1 + (if stop u then 0 else u.fwdDU), r.2 + 1))

/-- The path delay and hops from a station down to one that a test picks, on fuel (R342). -/
def downPath (ch : List DelayData) (stop : DelayData → Bool) : Nat → DelayData → Option (Nat × Nat)
  | 0, _ => none
  | fuel + 1, d =>
    if stop d then some (0, 0)
    else if hasBit d.flags 1 then none
    else match chainFind ch d.dNode with
      | none => none
      | some n => (downPath ch stop fuel n).map (fun r => (n.linkDelay + r.1 + (if stop n then 0 else n.fwdUD), r.2 + 1))

/-- Line delays to head and tail of a channel, when the chain runs whole through sound stations (R342). -/
def Chip.lineDelays (c : Chip) (l : LaneId) (ch : Nat) : Option (Nat × Nat) :=
  let xs := c.chain l ch
  let own := c.ownDelay l ch
  let isHead (d : DelayData) : Bool := hasBit d.flags 0
  let isTail (d : DelayData) : Bool := hasBit d.flags 1
  match upPath xs isHead 256 own, downPath xs isTail 256 own with
  | some h, some t => if xs.all delaySound then some (h.1, t.1) else none
  | _, _ => none

/-- The position on a channel: the hops from the head (R302). -/
def Chip.netPosition (c : Chip) (l : LaneId) (ch : Nat) : Nat :=
  ((upPath (c.chain l ch) (fun d => hasBit d.flags 0) 256 (c.ownDelay l ch)).map (·.2)).getD 0

/-- Line delays fixed from the first cycle of SERVICE in which those of a channel with a link are valid (R309, R342). -/
def Chip.fixDelays (c : Chip) (l : LaneId) : Chip :=
  let n := c.netOf l
  let has (ch : Nat) : Bool := (c.portOf l (2 * ch)).up || (c.portOf l (2 * ch + 1)).up
  let get (ch : Nat) : Option (Nat × Nat) := if has ch then c.lineDelays l ch else some (0, 0)
  let c := c.modNet l (fun n => { n with posA := c.netPosition l 0, posB := c.netPosition l 1 })
  match n.lineDelays, get 0, get 1 with
  | none, some a, some b => if n.phase = .service then c.modNet l (fun n => { n with lineDelays := some (a.1, a.2, b.1, b.2) }) else c
  | _, _, _ => c

/-- DELAY_FRAME: delay data received on a channel enter the chain; a partner in INTEGRATE is answered (R341, R342). -/
def delayFrame (l : LaneId) (chan : Fin 2) (d : DelayData) (c : Chip) : Chip :=
  if (c.netOf l).phase = .down ∨ (c.netOf l).phase = .test then c
  else
    let c := c.modNet l (fun n => { n with
      chainA := if chan.val = 0 then chainPut n.chainA d else n.chainA
      chainB := if chan.val = 1 then chainPut n.chainB d else n.chainB
      delayAsked := if d.phase = 3 then setBit n.delayAsked chan.val true else n.delayAsked })
    c.fixDelays l

def execDelayFrame (l : LaneId) (chan : Fin 2) (d : DelayData) (s : State) : Out := .next (s.onLane l (delayFrame l chan d))

/-- The path delay in ns from a reference station to the lane's own; zero while the chain does not link the two (R342). -/
def Chip.refDelay (c : Chip) (l : LaneId) (node : Nat) : Nat :=
  let xs := c.chain l 0
  let own := c.parN Par.netNodeId
  match chainFind xs node with
  | none => 0
  | some r =>
    match downPath xs (fun d => decide (d.node = own)) 256 r, upPath xs (fun d => decide (d.node = own)) 256 r with
    | some x, _ => x.1 / 1000
    | none, some x => x.1 / 1000
    | none, none => 0

/-! ### The clock (R344, R345) -/

/-- 200 ppm at the resolution of the rate correction (R337). -/
def rateMax : Int := 858993

/-- The rate correction after an offset, before clipping (R344): o and the last offset in ns, T in ns, at a resolution of 2^-32. -/
def rateNext (rate : Int) (last : Option Int) (o : Int) (slew t : Nat) : Int :=
  let term := match last with | some p => quo ((o - p) * 4294967296) t | none => 0
  rate - term - quo (o * 4294967296) (slew * t)

/-- The time state that a valid frame with an offset leads to, with its counts (R345). -/
def Clock.judge (k : Clock) (o tol : Int) : Clock × Bool :=
  let near := decide (dist o 0 ≤ tol)
  let inTol := if near then min 16 (k.inTol + 1) else 0
  let outTol := if near then 0 else k.outTol + 1
  match k.tstate with
  | .free => ({ k with tstate := .acquiring, inTol := inTol, outTol := 0 }, false)
  | .acquiring | .lane =>
    ({ k with tstate := if 16 ≤ inTol ∧ k.clipRun < 8 then .synced else .acquiring, inTol := inTol, outTol := 0 }, false)
  | .synced =>
    if 4 ≤ outTol then ({ k with tstate := .acquiring, inTol := 0, outTol := 0 }, true) else ({ k with inTol := inTol, outTol := outTol }, false)
  | .holdover => ({ k with tstate := .synced, inTol := inTol, outTol := if near then 0 else 1, overHold := false }, false)
  | .reference => (k, false)

/-- What a unit keeps in NT follows a step of it by o: the cycle start moves with it, and the ports are taken as free (R344, log 111). -/
def Ocgal.stepped (n : Ocgal) (o : Int) : Ocgal :=
  { n with start := ((n.start : Int) - o).toNat, ports := n.ports.map (fun p => { p with busy := 0, buffered := none }) }

/-- A lane's clock corrected by an offset: a step outside SERVICE, else a rate (R344). -/
def Chip.clockOffset (c : Chip) (l : LaneId) (o : Int) : Chip :=
  let k := (c.lane l).clock
  let ph := (c.netOf l).phase
  let far := decide (c.par Par.timeStepTh < dist o 0)
  if far && decide (ph = .listen ∨ ph = .integrate ∨ ph = .recovery) then
    (c.modClock l (fun k => { k with nt := ((k.nt : Int) - o).toNat % 2 ^ 64, frac := 0, lastOff := none })).modNet l (fun n => n.stepped o)
  else
    let t := c.period
    let r := rateNext k.rate k.lastOff o (c.parN Par.timeSlewCycles) t
    let run := if rateMax < r ∨ r < -rateMax then min 8 (k.clipRun + 1) else 0
    let c := c.modClock l (fun k => { k with rate := clip (-rateMax) rateMax r, lastOff := some o, clipRun := run })
    if run = 8 ∧ k.clipRun = 7 then c.netFault l 0x2103 else c

/-- The time state after a valid frame with an offset (R345). -/
def Chip.clockJudge (c : Chip) (l : LaneId) (o : Int) : Chip :=
  let (k, left) := (c.lane l).clock.judge o (c.par Par.timeSyncTol)
  let c := c.modClock l (fun _ => { k with gotSync := true })
  if left then c.netFault l 0x210A else c

/-- The end of a cycle without a valid frame: SYNCED turns to HOLDOVER, and no rate term follows (R344, R345). -/
def Chip.clockCycle (c : Chip) (l : LaneId) : Chip :=
  c.modClock l (fun k =>
    if k.gotSync then { k with gotSync := false }
    else { k with lastOff := none, inTol := 0, outTol := 0, tstate := if k.tstate = .synced then .holdover else k.tstate })

/-- HOLDOVER_LIMIT: after TIME.HOLDOVER_MAX matrix cycles of holdover no timed operation is accepted (R352). -/
def holdoverLimit (l : LaneId) (c : Chip) : Chip :=
  if (c.lane l).clock.tstate = .holdover ∧ (c.lane l).clock.overHold = false ∧ c.parN Par.timeHoldoverMax ≤ (c.lane l).clock.holdFor then
    (c.modClock l (fun k => { k with overHold := true })).netFault l 0x2106
  else c

def execHoldoverLimit (l : LaneId) (s : State) : Out := .next (s.onLane l (holdoverLimit l))

/-! ### Time marks between lanes (R112, R324, R346, R347, R553) -/

/-- The matrix cycles that a lane has been in HOLDOVER, counted at their ends (R352). -/
def Chip.countHoldover (c : Chip) (l : LaneId) : Chip :=
  c.modClock l (fun k => { k with holdFor := if k.tstate = .holdover then min 8191 (k.holdFor + 1) else 0 })

/-- What a lane sends with its time mark (R346). -/
def Chip.sentMark (c : Chip) (src : LaneId) : TimeMark :=
  { stamp := (c.lane src).round.own.nt, rank := (c.netOf src).refRank, node := (c.netOf src).refNode }

/-- The time mark that a lane takes from another one over their lane link. -/
def Chip.gotMark (c : Chip) (l src : LaneId) (q : Rx TimeMark) : Option TimeMark :=
  if l = src ∨ (c.linkAt (linkIdx l src)).fenced = true then none
  else match q with
    | .corrupt => none
    | .intact => if c.runs src then some (c.sentMark src) else none
    | .other x => some x

/-- A plane whose timing differs from that of a better plane by more than the guard or in its counts: its reference leaves it, waits one
matrix cycle and coldstarts again (R324). -/
def Chip.planesApart (c : Chip) (l src : LaneId) (x : TimeMark) (o : Int) : Bool :=
  let n := c.netOf l
  let m := c.netOf src
  decide (n.phase = .service ∧ m.phase = .service) && n.isRef && ranksBetter x.rank x.node n.refRank n.refNode &&
    (decide ((8 * fld c.dev.cfg.sched 26 1 : Nat) < dist o 0) || decide (m.counter ≠ n.counter ∨ m.matrix ≠ n.matrix))

/-- TIME_MARK: another lane's NT of its S with its reference's rank and NodeID. A lane in RECOVERY, or the reference of a plane
whose reference ranks worse, disciplines its NT to it, with the fixed delay of the lane link (R346); a plane whose timing differs from a
better one's is left and restarted (R324). -/
def timeMark (l src : LaneId) (q : Rx TimeMark) (c : Chip) : Chip :=
  match c.gotMark l src q with
  | none => c
  | some x =>
    let n := c.netOf l
    let o : Int := (c.lane l).clock.nt - ((x.stamp : Int) + Config.laneLinkDelay)
    if c.planesApart l src x o then (c.modNet l (fun n => { n with leaving := true, restartWait := 64 })).netFault l 0x2009
    else if (c.lane src).clock.tstate.leads && (decide (n.phase = .recovery) || (n.isRef && marksBetter x.rank x.node src.idx n.refRank n.refNode l.idx)) then
      let c := (c.clockOffset l o).modClock l (fun k => { k with tstate := .lane, gotSync := true })
      if n.phase = .recovery then
        c.modNet l (fun n => { n with counter := (c.netOf src).counter, matrix := (c.netOf src).matrix, start := (c.netOf src).start })
      else c
    else c

def execTimeMark (l src : LaneId) (q : Rx TimeMark) (s : State) : Out := .next (s.onLane l (timeMark l src q))

/-- The pacing lane: the admitted lane with the lowest index (R112). -/
def Chip.pacingLane (c : Chip) : Option LaneId :=
  LaneId.all.find? (fun l => c.inAuth l && !(c.lane l).boot.fenced && decide (c.dev.standdown ≠ some l))

/-- PERIOD_MARK: a paced lane takes the pacing lane's NT of S (R112, R553). -/
def periodMark (l : LaneId) (c : Chip) : Chip :=
  match c.pacingLane with
  | none => c
  | some p =>
    if c.dev.locked || decide (p = l) || !(c.inAuth l || (c.lane l).chk.joining) || (c.linkAt (linkIdx l p)).fenced then c
    else c.modClock l (fun k => { k with nt := (c.lane p).clock.nt, frac := (c.lane p).clock.frac })

def execPeriodMark (l : LaneId) (s : State) : Out := .next (s.onChip (periodMark l))

/-- The comparison of the lanes' NT of S (R347). -/
def Chip.laneTolerance (c : Chip) : Chip :=
  let nts := c.dev.agreed.nts
  let ok := LaneId.all.all (fun l => hasLane c.dev.aset l &&
    decide (2 ≤ (c.dev.agreed.status.get l).tstate ∧ (c.dev.agreed.status.get l).tstate ≤ 5))
  if !ok then c.modLanes (fun _ n => { n with clock := { n.clock with laneTol := 0 } })
  else
    let m := mid3 nts.a nts.b nts.c
    LaneId.all.foldl (fun c l =>
      if c.par Par.timeLaneTol < dist (nts.get l) m then
        let k := min 8 ((c.lane l).clock.laneTol + 1)
        let was := (c.lane l).clock.laneTol
        let c := c.modClock l (fun x => { x with laneTol := k })
        if k = 8 ∧ was < 8 then
          (c.agreedFault 0x2107 0x0C 0 l.idx).modClock l (fun x => { x with tstate := .lane })
        else c
      else c.modClock l (fun x => { x with laneTol := 0 })) c

/-! ### TIME operations (R357) -/

/-- TIME.READ as an operation of the index. DEDUCED (log 91): R459 accepts the operations that read, and the model takes TIME.READ
for one though its name does not end in _READ. -/
def attrTimeRead : OpAttr := { code := 0x2110, read := true, row := .always }

def effectTimeRead (_ : Req) (s : State) : OpOut :=
  let c := s.chip
  OpOut.same s (toLe 8 c.dev.sn ++ toLe 1 (if c.netSynced then 1 else 0) ++ toLe 7 0 ++
    LaneId.all.flatMap (fun l => toLe 8 (if hasLane c.dev.aset l then c.dev.agreed.nts.get l else 0) ++ toLe 8 0))

/-- TIME.READ (R357). -/
def execTimeRead (r : Req) (s : State) : Out := .next (runOp attrTimeRead checksNone effectTimeRead r s)

def attrEpochSet : OpAttr := { code := 0x2111, keyed := true, acc := .commissioning, right := some 2 }

def checksEpochSet (r : Req) (_ : Chip) : List Nat := quadFails r.body 8

def effectEpochSet (r : Req) (s : State) : OpOut :=
  OpOut.chip s (fun c => (c.modCfg (fun g => { g with ws := wsSet g.ws (parKey Par.timeStartNt.id 0) (fld r.body 0 8) 0 })).recheck)

/-- TIME.EPOCH_SET: the only way to write TIME.START_NT (R357). -/
def execEpochSet (r : Req) (s : State) : Out := .next (runOp attrEpochSet checksEpochSet effectEpochSet r s)

end Sys2Proof.Machine
end

