-- ==== Sys2Proof/Machine/Ocgal.lean ====
section
/-! DEFINITION. The Ocgal unit (chapter 12): reception of frames, phases and startup, the frames of a basic cycle, agreed slots
and spare slots, and the NET operations. -/

namespace Sys2Proof.Machine

open Sys2Proof

/-! ### The schedule as a lane sees it (R310, R311, R326) -/

/-- The schedule tag (R311). -/
def Chip.schedTag (c : Chip) : Nat := schedCheck c.dev.cfg.sched % 2 ^ 32

/-- The guard of the schedule in ns (R311). -/
def Chip.netGuard (c : Chip) : Nat := 8 * fld c.dev.cfg.sched 26 1

/-- The owner of a schedule entry: its own, or the claimant of a spare slot (R311, R326). -/
def Chip.entryOwner (c : Chip) (e : SchedEntry) : Option Nat :=
  if e.spare then (c.dev.spares.find? (fun x => x.slot == e.code)).map (·.owner) else some e.owner

/-- The slots that this device sends in (R311, R326). -/
def Chip.ownEntries (c : Chip) : List SchedEntry :=
  (schedEntries c.dev.cfg.sched).filter (fun e => c.entryOwner e == some (c.parN Par.netNodeId))

/-- A slot carries a peer's PDUs, agreed under R133 (R368). -/
def Chip.keySlot (c : Chip) (code : Nat) : Bool :=
  (List.range 16).any (fun i => decide (c.parN Par.keyPeerId i ≠ 0) && decide (c.parN Par.keyRxSlot i = code))

/-- A slot is taken into agreement: set in NET.RX_MASK and not an own one, nor one of PDUs (R315, R368). -/
def Chip.rxEntry (c : Chip) (e : SchedEntry) : Bool :=
  c.dev.cfg.view.rxSet e.chan e.slot && !(c.ownEntries.contains e) && !c.keySlot e.code

/-! ### Leaving SERVICE (R309, R322) -/

/-- A lane enters a phase without SERVICE: its delays and credits are no longer kept, and it is no reference (R309, R331). -/
def Chip.netPhase (c : Chip) (l : LaneId) (ph : NetPhase) : Chip :=
  (c.modNet l (fun n => { n with
    phase := ph, lineDelays := none, isRef := false, candidate := false, firstSync := false, lastSync := none, leaving := false, left := false
    refLeft := false, integrated := 0, silent := 0, syncMissed := 0, coldFrames := 0, heard := false, out := [], waiting := [] })).modClock l (fun k =>
      if k.tstate = .reference then { k with tstate := .holdover } else k)

/-- A lane enters SERVICE: counts and credits reset, its line delays are fixed (R309, R320, R331). -/
def Chip.enterService (c : Chip) (l : LaneId) : Chip :=
  (c.modNet l (fun n => { n with phase := .service, credits := [], silent := 0, cycleSeen := true, syncMissed := 0 })).fixDelays l

/-- Slots have received nothing since their receivers entered SERVICE (R322). -/
def Chip.clearLive (c : Chip) : Chip :=
  if LaneId.all.any c.inService then c else c.modDev (fun d => { d with slots := d.slots.map (fun x => { x with live := false, empty := true }) })

/-! ### Reference time at a port (R308) -/

/-- The delay in ps that is left to a frame from its arrival at a port to the end of the line toward which it travels: the lane's own
forwarding delay and line delay, or none at the end (R308, R342). -/
def Chip.pathLeft (c : Chip) (l : LaneId) (p : Nat) : Nat :=
  if (c.portOf l (otherPort p)).up then
    let d := (c.netOf l).lineDelays.getD (0, 0, 0, 0)
    (match p with | 0 => d.2.1 | 1 => d.1 | 2 => d.2.2.2 | _ => d.2.2.1) + (fwdMean (nth (c.netOf l).fwd p (0, 0))).getD 0
  else 0

/-- The line delay in ps of a copy that leaves on a port: to the tail on X.D, to the head on X.U (R308). -/
def Chip.pathOut (c : Chip) (l : LaneId) (p : Nat) : Nat :=
  let d := (c.netOf l).lineDelays.getD (0, 0, 0, 0)
  match p with | 0 => d.1 | 1 => d.2.1 | 2 => d.2.2.1 | _ => d.2.2.2

/-- The counter and the matrix cycle count of the next basic cycle (R307). -/
def nextCounts (k m : Nat) : Nat × Nat := ((k + 1) % 64, if k = 63 then (m + 1) % 2 ^ 32 else m)

/-- Where a frame that arrives now at a port lies: its reference position in ns, with the counter and matrix cycle count of the basic
cycle in which that position falls. A copy that runs ahead of the lane's cycle start by its line delay belongs to the coming cycle (R308). -/
def Chip.arrival (c : Chip) (l : LaneId) (p : Nat) : Int × Nat × Nat :=
  let n := c.netOf l
  let ref : Int := ((c.lane l).clock.nt : Int) - sfdLag - n.start + (c.pathLeft l p / 1000 : Nat)
  if (c.period : Int) ≤ ref + (c.netGuard / 2 : Nat) then (ref - c.period, nextCounts n.counter n.matrix) else (ref, n.counter, n.matrix)

/-- A frame lies within a window of reference time, within half the guard. A lane whose line delays are not yet valid knows no reference
position and cannot tell (log 111). -/
def Chip.inWindow (c : Chip) (l : LaneId) (p : Nat) (from_ to_ span : Nat) : Bool :=
  (c.netOf l).lineDelays.isNone ||
    (let ref := (c.arrival l p).1
     let tol : Nat := c.netGuard / 2
     decide ((from_ : Int) ≤ ref + tol ∧ ref + span ≤ to_ + tol))

/-! ### Reception (R303, R306) -/

/-- A frame's type is known (R305). -/
def frameKnown (t : Nat) : Bool := decide (t = 1 ∨ t = 2 ∨ t = 3 ∨ t = 0x10 ∨ t = 0x11)

/-- The first check that fails in a list of checks with their causes (R306). -/
def firstCause (xs : List (Bool × Nat)) : Option Nat := (xs.find? (fun x => !x.1)).map (·.2)

/-- The check of R306 on every frame that fails first: FCS, destination address, length, type. -/
def frameCause (l : LaneId) (f : Frame) : Option Nat :=
  firstCause [(f.sound, 0), (decide (f.dest = frameDest l.idx), 1), (decide (f.quads ≤ 92 ∧ f.length = 34 + 16 * max f.quads 2), 2), (frameKnown f.typ, 3)]

/-- The entry of the schedule that an exclusive frame names (R306). -/
def Chip.frameEntry (c : Chip) (f : Frame) : Option SchedEntry := (schedEntries c.dev.cfg.sched).find? (fun e => e.code == f.slot)

/-- A frame's source may send in a slot: its owner, or any station of the segment in a spare slot without one (R306, R311, R326). -/
def Chip.mayOwn (c : Chip) (e : SchedEntry) (node : Nat) : Bool :=
  match c.entryOwner e with
  | some o => decide (node = o)
  | none => e.spare && decide (node / 256 = c.parN Par.netNodeId / 256)

/-- The check of R306 on an exclusive frame that fails first: tag, slot, owner, counts, arrival time. -/
def Chip.exclCause (c : Chip) (l : LaneId) (p : Nat) (f : Frame) : Option Nat :=
  let (ref, k, m) := c.arrival l p
  match c.frameEntry f with
  | none => firstCause [(decide (f.word = c.schedTag), 4), (false, 5)]
  | some e => firstCause [(decide (f.word = c.schedTag), 4), (decide (f.slot / 32768 = p / 2) && e.due k, 5), (c.mayOwn e f.node, 6),
      (decide (f.counter = k ∧ f.matrix = m), 7), ((c.netOf l).lineDelays.isNone || decide (2 * dist ref e.offset ≤ c.netGuard), 8)]

/-- The last sequence number that a lane received from a source (R306). -/
def Ocgal.seqOf (n : Ocgal) (node : Nat) : Option Nat := (n.lastSeq.find? (fun e => e.1 == node)).map (·.2)

/-- A sequence number is newer under R133. -/
def seqNewer (x y : Nat) : Bool := decide (1 ≤ seqDist x y ∧ seqDist x y ≤ 2147483647)

/-- An arbitrating frame repeats one already received (R306). -/
def Chip.frameDup (c : Chip) (l : LaneId) (f : Frame) : Bool :=
  match (c.netOf l).seqOf f.node with | some s => !seqNewer f.word s | none => false

/-- The check of R306 on an arbitrating frame, but its sequence number, that fails first: window, NodeID. -/
def Chip.arbCause (c : Chip) (l : LaneId) (p : Nat) (f : Frame) (span : Nat) : Option Nat :=
  firstCause [(c.inWindow l p (fld c.dev.cfg.sched 16 4) (fld c.dev.cfg.sched 20 4) span, 9),
    (decide (f.typ = 3) || decide (f.slot = c.parN Par.netNodeId), 10)]

/-- The check of R306 on a coldstart or sync frame that fails first: tag, and the sync window once the lane is integrated. -/
def Chip.syncCause (c : Chip) (l : LaneId) (p : Nat) (f : Frame) (span : Nat) : Option Nat :=
  firstCause [(decide (f.word = c.schedTag), 4),
    (!decide ((c.netOf l).phase = .integrate ∨ (c.netOf l).phase = .service) || c.inWindow l p 0 1600 span, 9)]

/-- Whether a lane receives frames: not in DOWN or TEST, and its frame mover not frozen (R77, R316). -/
def Chip.netReceives (c : Chip) (l : LaneId) : Bool :=
  !decide ((c.netOf l).phase = .down ∨ (c.netOf l).phase = .test) && !(c.netOf l).moverFrozen

/-- A discarded frame counted for its port and cause; fault 0x200B for a foreign tag, and 0x2001 above NET.FCS_LIMIT (R306, R336). -/
def Chip.frameFails (c : Chip) (l : LaneId) (p cause : Nat) : Chip :=
  let n := (c.portOf l p).fails + 1
  let c := (c.modPort l p (fun x => x.failed cause)).modNet l (fun n => { n with failed := satInc 65535 n.failed })
  let c := if cause = 4 then c.portFault l p 0x200B else c
  if n = c.parN Par.netFcsLimit + 1 then c.portFault l p 0x2001 else c

/-! ### Forwarding (R303, R325, R330, R339) -/

/-- The start of the arbitrating window in ns (R308, R311). -/
def Chip.arbStart (c : Chip) : Nat := fld c.dev.cfg.sched 16 4

/-- The end of the arbitrating window less the guard in ns (R330). -/
def Chip.arbStop (c : Chip) : Nat := fld c.dev.cfg.sched 20 4 - c.netGuard

/-- The first minislot boundary at or after a reference position (R330). -/
def Chip.minislot (c : Chip) (ref : Nat) : Nat :=
  let m := max 1 (fld c.dev.cfg.sched 24 2)
  c.arbStart + (ref - c.arbStart + m - 1) / m * m

/-- The reference position at a port of an instant in NT (R308). -/
def Chip.refAt (c : Chip) (l : LaneId) (p : Nat) (t : Int) : Int := t - (c.netOf l).start + (c.pathOut l p / 1000 : Nat)

/-- The NT at which a port sends what has a reference position (R308). -/
def Chip.timeOf (c : Chip) (l : LaneId) (p : Nat) (ref : Int) : Int := (c.netOf l).start + ref - (c.pathOut l p / 1000 : Nat)

/-- The type of a frame that is sent (R305). -/
def SentFrame.typ (f : SentFrame) : Nat := fld f.bytes 16 1

/-- A frame that is sent is an arbitrating one (R305). -/
def SentFrame.arb (f : SentFrame) : Bool := decide (f.typ = 2 ∨ f.typ = 3)

/-- The NT at which a frame that is sent and its idle time end (R304). -/
def SentFrame.stop (f : SentFrame) : Int := f.at_ + (frameSpan f.bytes + frameIdle : Nat)

/-- Own arbitrating frames of a port, in their order, moved behind an instant: each starts no earlier than at a minislot boundary after
what goes before it, and one that would not end in the window is left over (R330). -/
def Chip.shiftArb (c : Chip) (l : LaneId) (p : Nat) : Int → List SentFrame → List SentFrame × List SentFrame
  | _, [] => ([], [])
  | cur, f :: r =>
    let ref := if f.at_ < cur then (c.minislot (c.refAt l p cur).toNat : Int) else c.refAt l p f.at_
    if ref + frameSpan f.bytes ≤ c.arbStop then
      let g := { f with at_ := c.timeOf l p ref }
      let x := c.shiftArb l p g.stop r
      (g :: x.1, x.2)
    else
      let x := c.shiftArb l p cur r
      (x.1, f :: x.2)

/-- The own frames of a port give way to a forwarded frame that arrives at t and is sent until an end: one of the exclusive and sync windows
that has not begun is dropped with fault 0x2005 (R325), an arbitrating one starts later, or in the next window (R330). -/
def Chip.giveWay (c : Chip) (l : LaneId) (p : Nat) (t stop : Int) : Chip :=
  let later := (c.netOf l).out.filter (fun f => f.port == p && decide (t < f.at_))
  let dropped := later.filter (fun f => !f.arb && decide (f.at_ < stop))
  let (moved, left) := c.shiftArb l p stop (later.filter SentFrame.arb)
  let kept := later.filter (fun f => !f.arb && !decide (f.at_ < stop))
  let c := c.modNet l (fun n => { n with
    out := n.out.filter (fun f => !(f.port == p && decide (t < f.at_))) ++ kept ++ moved, waiting := n.waiting ++ left })
  if dropped = [] then c else c.portNote l p 0x2005

/-- A forwarded frame of a time on the wire at its outgoing port, where its first bit would leave at t: it waits in the port buffer behind an
own frame that has begun, which fault 0x2005 records, or behind another forwarded frame. The buffer holds one. In the arbitrating window a
frame that finds it full, or that would end too late, is dropped with fault 0x200A; outside it a full buffer drops a frame too (R325, R330,
log 111). -/
def Chip.passOn (c : Chip) (l : LaneId) (p : Nat) (t : Int) (span : Nat) : Chip :=
  let x := c.portOf l p
  let own := (c.netOf l).out.find? (fun f => f.port == p && decide (f.at_ ≤ t ∧ t < f.stop))
  let free : Int := max (x.busy : Int) (match own with | some f => f.stop | none => t)
  let begin_ := max t free
  let full := decide (t < free) && (match x.buffered with | some h => decide (t < h) | none => false)
  let window := (c.netOf l).lineDelays.isSome && decide ((c.arbStart : Int) ≤ c.refAt l p t ∧ c.refAt l p t < fld c.dev.cfg.sched 20 4)
  if full || (window && decide ((c.arbStop : Int) < c.refAt l p begin_ + span)) then c.portNote l p 0x200A
  else
    let stop := begin_ + (span + frameIdle : Nat)
    let c := if own.isSome then c.portNote l p 0x2005 else c
    (c.modPort l p (fun x => { x with busy := stop.toNat, buffered := if t < free then some begin_.toNat else x.buffered })).giveWay l p t stop

/-- The forwarding delay of one frame in ps: that of the direction, which lies from 296 to 400 ns, within ±0.6 ns of it (R339, log 111). -/
def forwardDelay (l : LaneId) (p x : Nat) : Nat := 296600 + Config.forwardDelay l.idx p % 102801 + x % 1201 - 600

/-- A frame forwarded in hardware, also by a fenced lane while its NET domain is powered and the fault that
fenced it is not in its network unit (R11): its forwarding delay is measured for the first 64 (R303, R339). -/
def Chip.forward (c : Chip) (l : LaneId) (p : Nat) (b : List Byte) : Chip :=
  let out := c.portOf l (otherPort p)
  if (c.portOf l p).works && out.works && (c.lane l).power.net && !((c.lane l).boot.fenced && (c.lane l).boot.fenceNet) then
    let (x, c) := c.draw
    let d := forwardDelay l p x
    let c := c.modNet l (fun n => { n with
      forwarded := n.forwarded + 1, fwd := modNth n.fwd p (fun s => if s.2 < 64 then (s.1 + d, s.2 + 1) else s) })
    c.passOn l (otherPort p) (((c.lane l).clock.nt : Int) - sfdLag + (d / 1000 : Nat)) (frameSpan b)
  else c

/-- A received item put among those that the lane streams to its partners, in its place; an item of the same slot that was carried
over from an earlier period is replaced (R126, R127). -/
def Chip.arrive (c : Chip) (l : LaneId) (x : StreamItem) : Chip :=
  let same (y : StreamItem) : Bool :=
    match x, y with
    | .excl a b _ _ _ _ _ _, .excl a' b' _ _ _ _ _ _ => decide (a = a' ∧ b = b')
    | _, _ => false
  (c.modLane l (fun n => { n.placed x.quads with
    arriving := n.arriving.filter (fun y => !(y.carried && same y.item)) ++ [{ item := x, ord := n.streamOrd, index := n.streamQuad }] })).sendLinks l
      l.partners .vectors x.quads

/-- The credit entry of a session and a station. -/
def Ocgal.credit (n : Ocgal) (s node : Nat) : Credit :=
  (n.credits.find? (fun x => x.session == s && x.node == node)).getD { session := s, node := node }

/-- A credit entry put back. -/
def Ocgal.setCredit (n : Ocgal) (x : Credit) : Ocgal :=
  { n with credits := n.credits.filter (fun y => !(y.session == x.session && y.node == x.node)) ++ [x] }

/-- The counts that an arbitrating frame brings: the sender's released count, and this lane's own for a buffer it releases (R331). -/
def Ocgal.takeCredit (n : Ocgal) (f : Frame) : Ocgal :=
  let counted := fld f.payload 2 1
  let x := n.credit counted f.node
  let n := n.setCredit { x with released := fld f.payload 3 1 }
  if f.typ = 2 ∧ fld f.payload 1 1 ≠ 4 then
    let y := n.credit (fld f.payload 0 1) f.node
    n.setCredit { y with owed := (y.owed + 1) % 256 }
  else n

/-- A valid exclusive frame taken: a spare slot without an owner goes to its sender, and a slot of NET.RX_MASK is streamed
(R315, R326, R329). -/
def Chip.takeExcl (c : Chip) (l : LaneId) (f : Frame) : Chip :=
  let slot := f.slot % 512
  let chan := f.slot / 32768
  match c.frameEntry f with
  | none => c
  | some e =>
    let c := if e.spare && (c.entryOwner e).isNone then
        c.modDev (fun d => { d with spares := d.spares ++ [{ slot := e.code, owner := f.node }] }) else c
    let c := c.modNet l (fun n => { n with cycleSeen := true, frameSeen := true })
    if c.rxEntry e && c.inService l then
      c.arrive l (.excl chan slot f.counter f.matrix (hasBit f.flags 0) (hasBit f.flags 1) (f.flags.toNat / 4) (bytesAt f.payload 0 (16 * e.quads)))
    else c

/-- The receive area of broadcasts and host frames is full: it holds 48 (R328, R332). -/
def Chip.bcastFull (c : Chip) (l : LaneId) : Bool :=
  decide (48 ≤ (c.netOf l).host.length + ((c.lane l).arriving.filter (fun a => match a.item with | .arb _ _ _ _ _ => true | _ => false)).length)

/-- A valid arbitrating frame taken: its sequence and counts, and a host frame or spare claim streamed; a Keyway PDU is checked by
itself, and delay and credit frames are not streamed (R306, R326, R331, R334, R341). A broadcast that finds its area full is dropped and
counted (R332). -/
def Chip.takeArb (c : Chip) (l : LaneId) (p : Nat) (f : Frame) : Chip :=
  let c := c.modNet l (fun n => { (n.takeCredit f) with
    lastSeq := n.lastSeq.filter (fun e => e.1 != f.node) ++ [(f.node, f.word)], frameSeen := true })
  let kind := fld f.payload 1 1
  if c.inService l && decide (kind = 2 ∨ kind = 3) then
    (if f.typ = 3 ∧ c.bcastFull l = true then c.modNet l (fun n => { n with bcDropped := n.bcDropped + 1 })
     else c.arrive l (.arb f.node f.word kind (p / 2) (bytesAt f.payload 16 (16 * f.quads - 16))))
  else c

/-- FRAME_RECEIVED: the frame is forwarded, then checked, and received or discarded (R303, R306). A valid coldstart or sync frame
is handled by its own command. -/
def frameReceived (l : LaneId) (port : Fin 4) (b : List Byte) (c : Chip) : Chip :=
  let p := port.val
  let f := frameOf b
  if (c.portOf l p).up = false ∨ (c.portOf l p).fenced = true then c
  else
    let c := c.forward l p b
    if !c.runs l then c
    else if f.etherType ≠ c.parN Par.netEthertype then c.modNet l (fun n => { n with foreign := n.foreign + 1 })
    else if !c.netReceives l then c
    else match frameCause l f with
      | some k => c.frameFails l p k
      | none =>
        if f.typ = 1 then (match c.exclCause l p f with | some k => c.frameFails l p k | none => c.takeExcl l f)
        else if f.typ = 2 ∨ f.typ = 3 then
          (match c.arbCause l p f (frameSpan b) with
          | some k => c.frameFails l p k
          | none => if c.frameDup l f then c else c.takeArb l p f)
        else (match c.syncCause l p f (frameSpan b) with
          | some k => c.frameFails l p k
          | none => c.modNet l (fun n => { n with frameSeen := true }))

def execFrameReceived (l : LaneId) (port : Fin 4) (bytes : List Byte) (s : State) : Out := .next (s.onChip (frameReceived l port bytes))

/-! ### Coldstart and sync frames (R318, R319, R343, R344, R351) -/

/-- A valid coldstart or sync frame at a port. -/
def Chip.syncValid (c : Chip) (l : LaneId) (p : Nat) (b : List Byte) (typ : Nat) : Bool :=
  let f := frameOf b
  c.runs l && !(c.portOf l p).fenced && (c.portOf l p).up && c.netReceives l && decide (f.etherType = c.parN Par.netEthertype) && (frameCause l f).isNone &&
    decide (f.typ = typ) && (c.syncCause l p f (frameSpan b)).isNone

/-- A frame that arrives at an NT follows the last one by one basic cycle, within the guard (R319). -/
def Chip.syncFollows (c : Chip) (l : LaneId) (f : Frame) (at_ : Nat) : Bool :=
  match (c.netOf l).lastSync with
  | none => false
  | some (k, m, t) => decide ((f.counter, f.matrix) = nextCounts k m) && decide (dist ((at_ : Int) - t) c.period ≤ c.netGuard)

/-- A lane in LISTEN or RECOVERY integrates on its second frame in a row (R319): arrival at an NT before its correction, and the cycle
start that the frame tells. -/
def Chip.integrate (c : Chip) (l : LaneId) (f : Frame) (at_ start : Nat) : Chip :=
  if c.syncFollows l f at_ then
    c.modNet l (fun n => { n with
      phase := .integrate, counter := f.counter, matrix := f.matrix, start := start, integrated := 0, lastSync := none, refNode := f.node, isRef := false
      heard := true, cycleSeen := true })
  else c.modNet l (fun n => { n with lastSync := some (f.counter, f.matrix, (c.lane l).clock.nt), heard := true, cycleSeen := true })

/-- The clock follows a frame whose SFD time is t: offset, correction, time state (R344, R345). A lane in SERVICE that is beyond
TIME.STEP_TH enters RECOVERY. -/
def Chip.followClock (c : Chip) (l : LaneId) (f : Frame) (t : Nat) : Chip :=
  let o : Int := ((c.lane l).clock.nt : Int) - ((t : Int) + c.refDelay l f.node)
  if (c.netOf l).phase = .service ∧ c.par Par.timeStepTh < dist o 0 then
    (((c.netFault l 0x2104).modClock l (fun k => { k with gotSync := true })).netPhase l .recovery).clearLive
  else (c.clockOffset l o).clockJudge l o

/-- A coldstart frame's own fields (R305): rank and NT. -/
def coldRank (f : Frame) : Nat := fld f.payload 0 1

/-- A coldstart frame followed (R305, R319, R344). -/
def Chip.joinCold (c : Chip) (l : LaneId) (f : Frame) : Chip :=
  let t := fld f.payload 8 8
  (c.followClock l f t).integrate l f (c.lane l).clock.nt (t - sfdLag)

/-- COLDSTART_FRAME: a lane in LISTEN or RECOVERY integrates; in COLDSTART the rank decides (R318, R319, R344). -/
def coldstartFrame (l : LaneId) (port : Fin 4) (b : List Byte) (c : Chip) : Chip :=
  let n := c.netOf l
  let f := frameOf b
  if !c.syncValid l port.val b 0x10 then c
  else
    let c := c.modNet l (fun n => { n with frameSeen := true })
    match n.phase with
    | .listen | .recovery => c.joinCold l f
    | .coldstart =>
      if 8 ≤ n.coldFrames then c.frameFails l port.val 11
      else if ranksBetter (coldRank f) f.node (c.parN Par.netColdstartRank) (c.parN Par.netNodeId) then
        ((c.netPhase l .listen).netFault l 0x2006).joinCold l f
      else c
    | .integrate =>
      if f.node = n.refNode then (c.followClock l f (fld f.payload 8 8)).modNet l (fun n => { n with refRank := (coldRank f), cycleSeen := true }) else c
    | _ => c

def execColdstartFrame (l : LaneId) (port : Fin 4) (bytes : List Byte) (s : State) : Out := .next (s.onChip (coldstartFrame l port bytes))

/-- What a lane keeps of the reference whose sync frame it follows (R343). -/
def Chip.noteRef (c : Chip) (l : LaneId) (f : Frame) : Chip :=
  c.modNet l (fun n => { n with
    refRank := fld f.payload 0 1, refNode := f.node, refClass := fld f.payload 2 1, refHops := fld f.payload 3 1
    refHold := bitOf (fld f.payload 24 1) 0, refLeft := hasBit f.flags 1, syncMissed := 0, cycleSeen := true, silent := 0
    chainA := chainPut n.chainA (delayOf f.node (bytesAt f.payload 32 32))
    chainB := chainPut n.chainB (delayOf f.node (bytesAt f.payload 64 32)) })

/-- A lane in SERVICE follows a reference: a new one is a handover, recorded once (R351). -/
def Chip.followRef (c : Chip) (l : LaneId) (f : Frame) : Chip :=
  let n := c.netOf l
  let new := decide (f.node ≠ n.refNode)
  let c := (c.noteRef l f).modNet l (fun n => { n with isRef := false, candidate := false })
  let c := if (c.lane l).clock.tstate = .reference then c.modClock l (fun k => { k with tstate := .holdover }) else c
  let c := if new then c.netFault l 0x2105 else c
  (c.followClock l f (fld f.payload 8 8)).fixDelays l

/-- A sync frame followed by a lane that is not integrated (R319, R343, R344). -/
def Chip.joinSync (c : Chip) (l : LaneId) (f : Frame) : Chip :=
  ((c.followClock l f (fld f.payload 8 8)).noteRef l f).integrate l f (c.lane l).clock.nt (fld f.payload 16 8)

/-- SYNC_FRAME: the lane integrates, or corrects its clock by its reference; a reference or candidate yields to a better one
(R319, R344, R351). A lane in COLDSTART whose frames all went out yields to a better reference only (R318, log 111). -/
def syncFrame (l : LaneId) (port : Fin 4) (b : List Byte) (c : Chip) : Chip :=
  let n := c.netOf l
  let f := frameOf b
  if !c.syncValid l port.val b 0x11 || decide (f.quads ≠ 6) then c
  else
    let c := c.modNet l (fun n => { n with frameSeen := true })
    let better := ranksBetter (fld f.payload 0 1) f.node n.refRank n.refNode
    match n.phase with
    | .listen | .recovery => c.joinSync l f
    | .integrate => if f.node = n.refNode then (c.noteRef l f).followClock l f (fld f.payload 8 8) else c
    | .coldstart =>
      if 8 ≤ n.coldFrames ∧ !(ranksBetter (fld f.payload 0 1) f.node (c.parN Par.netColdstartRank) (c.parN Par.netNodeId)) then c
      else ((c.netPhase l .listen).netFault l 0x2006).joinSync l f
    | .service =>
      if n.isRef then (if better then c.followRef l f else c)
      else if f.node = n.refNode ∨ better ∨ bitOf (fld f.payload 24 1) 1 = true ∨ 0 < n.syncMissed then c.followRef l f
      else c
    | _ => c

def execSyncFrame (l : LaneId) (port : Fin 4) (bytes : List Byte) (s : State) : Out := .next (s.onChip (syncFrame l port bytes))

/-! ### Phases (R317, R318, R323, R351) -/

/-- START_INSTANT: every condition of R317 holds, and the lane enters LISTEN. -/
def startInstant (l : LaneId) (c : Chip) : Chip :=
  let n := c.netOf l
  if n.phase = .down ∧ n.restartWait = 0 ∧ (c.lane l).power.core = true ∧ (c.lane l).bist.regions.contains 13 = false ∧ c.inAuth l = true ∧ (c.lane l).boot.state = .admitted ∧ (c.lane l).boot.fenced = false ∧ c.dev.cfg.sched ≠ [] ∧
      ((c.portOf l 0).trained = true ∨ (c.portOf l 1).trained = true) ∧ (n.requested = true ∨ c.par Par.netAutostart = 1) then
    (c.netPhase l .listen).modNet l (fun n => { n with
      requested := true, waited := 0, forwarded := 0, fwd := [(0, 0), (0, 0), (0, 0), (0, 0)], chainA := [], chainB := [] })
  else c

def execStartInstant (l : LaneId) (s : State) : Out := .next (s.onChip (startInstant l))

/-- LISTEN_TIMEOUT: a ranked lane that has heard no frame enters COLDSTART (R318, R324). -/
def listenTimeout (l : LaneId) (c : Chip) : Chip :=
  let n := c.netOf l
  let r := c.parN Par.netColdstartRank
  if (n.phase = .listen ∨ n.phase = .recovery) ∧ 1 ≤ r ∧ 24 + 2 * r ≤ n.waited ∧ n.heard = false then
    (c.netPhase l .coldstart).modNet l (fun n => { n with counter := 0, matrix := 0 })
  else c

def execListenTimeout (l : LaneId) (s : State) : Out := .next (s.onLane l (listenTimeout l))

/-- RECOVERY_ENTRY: no valid frame at its expected time for NET.LOSS_CYCLES basic cycles, and no handover has made the lane the reference
(R323, R351). -/
def recoveryEntry (l : LaneId) (c : Chip) : Chip :=
  let n := c.netOf l
  if n.phase = .service ∧ n.candidate = false ∧ c.parN Par.netLossCycles ≤ n.silent then
    (((c.netPhase l .recovery).modNet l (fun n => { n with waited := 0 })).netFault l 0x2007).clearLive
  else c

def execRecoveryEntry (l : LaneId) (s : State) : Out := .next (s.onLane l (recoveryEntry l))

/-- HANDOVER_CANDIDATE: a ranked lane sends sync frames from its own NT from the next basic cycle (R351). -/
def handoverCandidate (l : LaneId) (c : Chip) : Chip :=
  let n := c.netOf l
  if n.phase = .service ∧ n.isRef = false ∧ 1 ≤ c.parN Par.netColdstartRank ∧
      (c.parN Par.timeHandoverCycles ≤ n.syncMissed ∨ n.refLeft = true) then
    ((c.modNet l (fun n => { n with
      candidate := true, isRef := true, firstSync := true, refRank := c.parN Par.netColdstartRank, refNode := c.parN Par.netNodeId, refLeft := false })).modClock l
        (fun k => { k with tstate := .reference })).netFault l 0x2105
  else c

def execHandoverCandidate (l : LaneId) (s : State) : Out := .next (s.onLane l (handoverCandidate l))

/-- FRAME_MOVER_VIOLATION: frozen to the end of the matrix cycle; a second one within 64 matrix cycles fences the port (R77). -/
def frameMoverViolation (l : LaneId) (port : Fin 4) (c : Chip) : Chip :=
  let again := match (c.netOf l).moverViol with | some m => decide (c.cyclesSince m < 64) | none => false
  let c := c.modNet l (fun n => { n with moverFrozen := true, moverViol := some c.dev.matrix })
  if again then c.portFence l port.val 0x200D else c.portFault l port.val 0x200C

def execFrameMoverViolation (l : LaneId) (port : Fin 4) (s : State) : Out := .next (s.onLane l (frameMoverViolation l port))

/-! ### The frames of a basic cycle (R305, R308, R318, R329 to R332, R341, R343) -/

/-- The ports of a channel toward which a copy goes: those that work. -/
def Chip.sendPorts (c : Chip) (l : LaneId) (ch : Nat) : List Nat := [2 * ch, 2 * ch + 1].filter (fun p => (c.portOf l p).works)

/-- An own frame of a lane with the counts of its basic cycle (R304, R305). -/
def Chip.ownFrame (c : Chip) (l : LaneId) (typ : Nat) (flags : Mask) (slot word : Nat) (payload : List Byte) : List Byte :=
  let n := c.netOf l
  frameBytes l.idx (c.parN Par.netEthertype) {
    node := c.parN Par.netNodeId, typ := typ, flags := flags, slot := slot, counter := n.counter, quads := payload.length / 16, matrix := n.matrix, word := word } payload

/-- A copy of a frame of the sync or exclusive window planned on a port at its reference position: dropped with fault 0x2005 when a forwarded
frame occupies the port then (R308, R318, R325). A frozen frame mover sends nothing (R77). -/
def Chip.planAt (c : Chip) (l : LaneId) (p : Nat) (ref : Int) (b : List Byte) : Chip :=
  let t := c.timeOf l p ref
  if (c.netOf l).moverFrozen then c
  else if t < (c.portOf l p).busy then c.portFault l p 0x2005
  else c.netSend l { port := p, at_ := t, bytes := b }

/-- A frame of the exclusive window planned on every working port of a channel (R308). -/
def Chip.planOn (c : Chip) (l : LaneId) (ch : Nat) (ref : Int) (b : List Byte) : Chip :=
  (c.sendPorts l ch).foldl (fun c p => c.planAt l p ref b) c

/-- A copy of an arbitrating frame planned on a port: behind the forwarded frames that occupy it, or in the next window (R330). -/
def Chip.planArbAt (c : Chip) (l : LaneId) (p : Nat) (ref : Nat) (b : List Byte) : Chip :=
  if (c.netOf l).moverFrozen then c
  else
    let x := c.shiftArb l p (c.portOf l p).busy [{ port := p, at_ := c.timeOf l p ref, bytes := b }]
    c.modNet l (fun n => { n with out := n.out ++ x.1, waiting := n.waiting ++ x.2 })

/-- The flag byte of an own frame (R305): stale, leaving, age. -/
def frameFlags (stale leaving : Bool) (age : Nat) : Mask :=
  BitVec.ofNat 8 ((if stale then 1 else 0) + (if leaving then 2 else 0) + 4 * min 63 age)

/-- The NT at the start-frame delimiter of a copy that starts at a reference position (R337, R343). -/
def Chip.sfdTime (c : Chip) (l : LaneId) (p : Nat) (ref : Int) : Nat := (c.timeOf l p ref + sfdLag).toNat

/-- The coldstart frame of a lane on a port (R305). -/
def Chip.coldPayload (c : Chip) (l : LaneId) (p : Nat) : List Byte :=
  toLe 1 (c.parN Par.netColdstartRank) ++ toLe 1 l.idx ++ toLe 6 0 ++ toLe 8 (c.sfdTime l p 0) ++ toLe 16 0

/-- The sync frame of a lane on a port (R343): segment time, class 0, with the error bound a free value (log 1). -/
def Chip.syncPayload (c : Chip) (l : LaneId) (p bound : Nat) : List Byte :=
  let n := c.netOf l
  toLe 1 (c.parN Par.netColdstartRank) ++ toLe 1 l.idx ++ toLe 1 n.refClass ++ toLe 1 n.refHops ++ toLe 4 bound ++ toLe 8 (c.sfdTime l p 0) ++ toLe 8 n.start ++
    toLe 1 ((if (c.lane l).clock.tstate = .holdover ∨ n.candidate = true then 1 else 0) + (if n.firstSync then 2 else 0)) ++ toLe 7 0 ++
    delayBytes (c.ownDelay l 0) ++ delayBytes (c.ownDelay l 1)

/-- The sync or coldstart frame at the start of a cycle, on both ports of channel A (R308, R318, R343). -/
def Chip.sendSync (c : Chip) (l : LaneId) : Chip :=
  let n := c.netOf l
  if n.phase = .coldstart ∧ n.coldFrames < 8 then
    ((c.sendPorts l 0).foldl (fun c p => c.planAt l p 0 (c.ownFrame l 0x10 0 0 c.schedTag (c.coldPayload l p))) c).modNet l
      (fun n => { n with coldFrames := n.coldFrames + 1 })
  else if n.isRef || decide (n.phase = .coldstart) then
    let (b, c) := c.draw
    ((c.sendPorts l 0).foldl (fun c p => c.planAt l p 0 (c.ownFrame l 0x11 (frameFlags false n.leaving 0) 0 c.schedTag (c.syncPayload l p b))) c).modNet l
      (fun n => { n with firstSync := false })
  else c

/-- The own slots due in the cycle: the current payload, stale and older when no new one was launched (R321, R329). A slot for which no
payload has been launched yet is not sent (log 111). -/
def Chip.sendSlots (c : Chip) (l : LaneId) : Chip :=
  let n := c.netOf l
  (c.ownEntries.filter (fun e => e.due n.counter)).foldl (fun c e =>
    match (c.netOf l).ownTx.find? (fun x => x.1 == e.code) with
    | none => c
    | some (_, data, age) =>
      let c := c.planOn l e.chan e.offset (c.ownFrame l 1 (frameFlags (decide (age ≠ 0)) n.leaving age) e.code c.schedTag (bytesAt data 0 (16 * e.quads)))
      c.modNet l (fun n => { n with ownTx := n.ownTx.map (fun x => if x.1 = e.code then (x.1, x.2.1, x.2.2 + 2 ^ e.rep) else x) })) c

/-- A routing quad (R331). -/
def routing (session kind counted count : Nat) : List Byte := toLe 1 session ++ toLe 1 kind ++ toLe 1 counted ++ toLe 1 count ++ toLe 12 0

/-- The place of a queued frame in the order of service: PDUs by session, then claims, then host frames (R330). -/
def ArbTx.order (x : ArbTx) : Nat := if x.kind = 1 then x.session else if x.kind = 3 then 128 else 129

/-- A frame put before the first queued one of a later order. -/
def arbInsert (x : ArbTx) : List ArbTx → List ArbTx
  | [] => [x]
  | y :: r => if x.order < y.order then x :: y :: r else y :: arbInsert x r

/-- A frame queued in a lane; a newer PDU of a session replaces a queued one (R330). -/
def Ocgal.enqueue (n : Ocgal) (x : ArbTx) : Ocgal :=
  { n with txq := arbInsert x (if x.kind = 1 then n.txq.filter (fun y => !(y.kind == 1 && y.session == x.session)) else n.txq) }

/-- A unicast frame has the credit it needs (R331). -/
def Chip.hasCredit (c : Chip) (l : LaneId) (x : ArbTx) : Bool :=
  match x.dest with
  | none => true
  | some d =>
    let k := (c.netOf l).credit x.session d
    decide ((k.sent + 256 - k.released) % 256 < c.parN Par.netArbCredits)

/-- The arbitrating window of a cycle as it is filled: for each channel the next free reference position, whether its other broadcast and its
claim frame have been sent, and how many frames (R330, R332, R490). -/
structure ArbPlan where
  cur : Nat × Nat
  bcast : Bool × Bool := (false, false)
  claim : Bool × Bool := (false, false)
  sent : Nat × Nat := (0, 0)

/-- The part of a pair for a channel. -/
def onChan {α : Type} (x : α × α) (ch : Nat) : α := if ch = 0 then x.1 else x.2

/-- A pair with the part for a channel changed. -/
def setChan {α : Type} (x : α × α) (ch : Nat) (v : α) : α × α := if ch = 0 then (v, x.2) else (x.1, v)

/-- The empty window (R330). -/
def Chip.arbPlan (c : Chip) : ArbPlan := { cur := (c.arbStart, c.arbStart) }

/-- A frame fits the window behind what has been planned on its channel (R330). -/
def Chip.arbFits (c : Chip) (w : ArbPlan) (ch : Nat) (b : List Byte) : Bool := decide (onChan w.cur ch + frameSpan b ≤ c.arbStop)

/-- The window after a frame on a channel. -/
def Chip.arbTook (c : Chip) (w : ArbPlan) (ch : Nat) (b : List Byte) : ArbPlan :=
  { w with cur := setChan w.cur ch (c.minislot (onChan w.cur ch + frameSpan b + frameIdle)), sent := setChan w.sent ch (onChan w.sent ch + 1) }

/-- A lane in T4 or T5 sends at most THM.ARB_LIMIT own arbitrating frames on a channel in each basic cycle (R490). -/
def Chip.arbAllowed (c : Chip) (l : LaneId) (w : ArbPlan) (ch : Nat) : Bool :=
  decide (c.dev.thermal.lane.get l < 4) || decide (onChan w.sent ch < c.parN Par.thmArbLimit)

/-- An arbitrating frame planned on the working ports of its channel. -/
def Chip.planArb (c : Chip) (l : LaneId) (w : ArbPlan) (ch : Nat) (b : List Byte) : Chip × ArbPlan :=
  ((c.sendPorts l ch).foldl (fun c p => c.planArbAt l p (onChan w.cur ch) b) c, c.arbTook w ch b)

/-- The device's next number of an arbitrating frame (R305). -/
def Chip.nextArb (c : Chip) : Nat × Chip := (c.dev.arbSeq, c.modDev (fun d => { d with arbSeq := (d.arbSeq + 1) % 2 ^ 32 }))

/-- The copies that a port could not send in the last window, with the counts of this cycle (R330). -/
def Chip.sendWaiting (c : Chip) (l : LaneId) (w : ArbPlan) : Chip × ArbPlan :=
  let n := c.netOf l
  n.waiting.foldl (fun (x : Chip × ArbPlan) f =>
    let b := frameAgain f.bytes n.counter n.matrix
    if x.1.arbFits x.2 (f.port / 2) b then (x.1.planArbAt l f.port (onChan x.2.cur (f.port / 2)) b, x.1.arbTook x.2 (f.port / 2) b)
    else (x.1.modNet l (fun n => { n with waiting := n.waiting ++ [f] }), x.2)) (c.modNet l (fun n => { n with waiting := [] }), w)

/-- The delay frame of each channel that the cycle asks for (R341). A frame of one lane alone takes a number of the device's counter too
(log 111). -/
def Chip.sendDelays (c : Chip) (l : LaneId) (w : ArbPlan) : Chip × ArbPlan :=
  let n := c.netOf l
  let due (ch : Nat) : Bool := decide (n.phase = .integrate) || (decide (n.phase = .service) && (decide (n.counter = 0) || hasBit n.delayAsked ch))
  (([0, 1].filter due).foldl (fun (x : Chip × ArbPlan) ch =>
    let (q, c) := x.1.nextArb
    let b := c.ownFrame l 3 0 0 q (routing 0 5 0 0 ++ delayBytes (c.ownDelay l ch))
    if c.arbFits x.2 ch b then c.planArb l x.2 ch b else (c, x.2)) (c.modNet l (fun n => { n with delayAsked := 0 }), w))

/-- A queued frame's bytes, with the count that its routing quad carries (R331). -/
def Chip.arbBytes (c : Chip) (l : LaneId) (x : ArbTx) : List Byte :=
  match x.dest with
  | none => c.ownFrame l 3 0 0 x.fseq (routing x.session x.kind 0 0 ++ x.data)
  | some d => c.ownFrame l 2 0 d x.fseq (routing (if x.session = 0 then 0 else (c.session x.session).peerNum) x.kind x.session ((c.netOf l).credit x.session d).owed ++ x.data)

/-- The credit that a frame that is sent uses, and the count that it tells (R331). -/
def Ocgal.charge (n : Ocgal) (x : ArbTx) : Ocgal :=
  match x.dest with
  | none => n
  | some d =>
    let k := n.credit x.session d
    n.setCredit { k with sent := (k.sent + 1) % 256, told := k.owed }

/-- A queued frame may go now: credit, the limit of T4 and T5, a working port, one claim frame and one other broadcast a channel (R330 to
R332, R490). -/
def Chip.mayServe (c : Chip) (l : LaneId) (w : ArbPlan) (x : ArbTx) : Bool :=
  c.hasCredit l x && c.arbAllowed l w x.chan && decide (c.sendPorts l x.chan ≠ []) &&
    !(x.dest.isNone && decide (x.kind = 2) && onChan w.bcast x.chan) && !(decide (x.kind = 3) && onChan w.claim x.chan)

/-- The transmit queue served in its order within the window on each channel; what is not sent waits, and nothing passes a frame for which
the window has no more time (R330, R332). -/
def Chip.serveQueue (c : Chip) (l : LaneId) : List ArbTx → ArbPlan → Chip × ArbPlan
  | [], w => (c, w)
  | x :: r, w =>
    let b := c.arbBytes l x
    if c.mayServe l w x then
      (if c.arbFits w x.chan b then
        let y := c.planArb l w x.chan b
        let w := { y.2 with
          bcast := if x.dest.isNone && decide (x.kind = 2) then setChan y.2.bcast x.chan true else y.2.bcast
          claim := if x.kind = 3 then setChan y.2.claim x.chan true else y.2.claim }
        (y.1.modNet l (fun n => { n.charge x with txq := n.txq.erase x })).serveQueue l r w
      else c.serveQueue l r { w with cur := setChan w.cur x.chan (c.arbStop + 1) })
    else c.serveQueue l r w

/-- Counts owed to a station to which nothing has been sent in the cycle (R331). -/
def Chip.sendCredits (c : Chip) (l : LaneId) (w : ArbPlan) : Chip × ArbPlan :=
  ((c.netOf l).credits.filter (fun k => k.owed != k.told)).foldl (fun (x : Chip × ArbPlan) k =>
    let (q, c) := x.1.nextArb
    let b := c.ownFrame l 2 0 k.node q (routing 0 4 k.session k.owed ++ List.replicate 16 0)
    if x.1.arbAllowed l x.2 0 && x.1.arbFits x.2 0 b then
      let y := c.planArb l x.2 0 b
      (y.1.modNet l (fun n => n.setCredit { k with told := k.owed }), y.2)
    else x) (c, w)

/-- The arbitrating window of a cycle: in SERVICE with valid line delays every kind of frame, else the delay frames alone (R316, R330, R341,
R342). -/
def Chip.sendWindow (c : Chip) (l : LaneId) : Chip :=
  let full := decide ((c.netOf l).phase = .service) && (c.netOf l).lineDelays.isSome
  let x := if full then c.sendWaiting l c.arbPlan else (c, c.arbPlan)
  let x := x.1.sendDelays l x.2
  if full then
    let y := x.1.serveQueue l (x.1.netOf l).txq x.2
    (y.1.sendCredits l y.2).1
  else x.1

/-- The counters at the start of a basic cycle (R307, R317 to R319). -/
def Ocgal.count (n : Ocgal) : Ocgal :=
  match n.phase with
  | .listen | .recovery => { n with waited := n.waited + 1, lastSync := if n.cycleSeen then n.lastSync else none }
  | .coldstart => if n.coldFrames = 0 then n else { n with counter := (nextCounts n.counter n.matrix).1, matrix := (nextCounts n.counter n.matrix).2 }
  | .integrate | .service =>
    { n with
      counter := (nextCounts n.counter n.matrix).1, matrix := (nextCounts n.counter n.matrix).2
      integrated := if n.phase = .integrate then min 255 (n.integrated + 1) else n.integrated
      silent := if n.cycleSeen then 0 else min 255 (n.silent + 1) }
  | _ => n

/-- A lane that has sent its frames with the leaving flag leaves SERVICE (R322): into TEST for a stand-down, else DOWN. -/
def Chip.leaveNow (c : Chip) (l : LaneId) : Chip :=
  (c.netPhase l (if c.dev.standdown = some l then .test else .down)).clearLive

/-- Startup that every lane in authority has completed ends NET.START (R333). -/
def Chip.netStarted (c : Chip) : Chip :=
  if c.authLanes.all c.inService && !c.authLanes.isEmpty then c.finishAll (fun p => p.opcode == 0x2011) stOk [] else c

/-- The counts with which a lane's first coldstart frame goes out: zero, or those of the plane of another lane of its device in SERVICE,
whose present cycle the frame takes (R318). -/
def Chip.coldCounts (c : Chip) (l : LaneId) : Nat × Nat :=
  match c.servicePeer l with
  | none => (0, 0)
  | some p =>
    let m := c.netOf p
    if c.period ≤ 2 * ((c.lane p).clock.nt - m.start) then nextCounts m.counter m.matrix else (m.counter, m.matrix)

/-- A lane enters SERVICE at the matrix-cycle boundary, the start of the cycle with counter 0: after its eight coldstart frames, or eight
basic cycles after it integrated (R318, R319). -/
def Chip.enterPhase (c : Chip) (l : LaneId) : Chip :=
  let n := c.netOf l
  if n.counter = 0 ∧ ((n.phase = .coldstart ∧ 8 ≤ n.coldFrames) ∨ (n.phase = .integrate ∧ 8 ≤ n.integrated)) then c.enterService l else c

/-- The start of a basic cycle at the lane's NT, which is TIME.START_NT for the first cycle of a coldstart that takes no timing from
another lane (R348). -/
def Chip.startCycle (c : Chip) (l : LaneId) : Chip :=
  let n := c.netOf l
  let got := (c.lane l).clock.gotSync
  let first := decide (n.phase = .coldstart) && decide (n.coldFrames = 0)
  let counts := c.coldCounts l
  let c := c.clockCycle l
  let c := if first && (c.servicePeer l).isNone then c.modClock l (fun k => { k with nt := c.parN Par.timeStartNt, frac := 0, lastOff := none }) else c
  c.modNet l (fun n =>
    let n := n.count
    { n with
      out := [], cycleSeen := false, syncMissed := if got || n.isRef then 0 else min 255 (n.syncMissed + 1), left := n.leaving
      start := (c.lane l).clock.nt, counter := if first then counts.1 else n.counter, matrix := if first then counts.2 else n.matrix })

/-- BASIC_CYCLE_START: the counters move on and the lane plans the frames of its phase (R308, R316). A lane that left its plane waits out
its matrix cycle (R324). -/
def basicCycleStart (l : LaneId) (c : Chip) : Chip :=
  let n := c.netOf l
  if n.phase = .down ∨ n.phase = .test ∨ (c.lane l).boot.fenced = true then
    c.modNet l (fun n => { n with out := [], waiting := [], restartWait := n.restartWait - 1, requested := n.requested || decide (n.restartWait = 1) })
  else if n.leaving && n.left then c.leaveNow l
  else
    let c := ((c.startCycle l).enterPhase l).sendSync l
    let c := if (c.netOf l).phase = .coldstart ∧ 8 ≤ (c.netOf l).coldFrames ∧ (c.netOf l).isRef = false then
        (c.modNet l (fun n => { n with isRef := true, refRank := c.parN Par.netColdstartRank, refNode := c.parN Par.netNodeId })).modClock l
          (fun k => { k with tstate := .reference })
      else c
    let c := c.fixDelays l
    let c := if (c.netOf l).phase = .service ∧ (c.netOf l).lineDelays.isSome = true then c.sendSlots l else c
    (c.sendWindow l).netStarted

def execBasicCycleStart (l : LaneId) (s : State) : Out := .next (s.onChip (basicCycleStart l))

/-- The payloads launched from a period become current in a lane's own slots (R329). -/
def Chip.launchSlots (c : Chip) (l : LaneId) : Chip :=
  c.modNet l (fun n => { n with
    ownTx := n.ownTx.filter (fun x => !(c.dev.ownSlots.any (fun y => y.1 == x.1))) ++ c.dev.ownSlots.map (fun y => (y.1, y.2, 0)) })

/-! ### The matrix cycle (R307, R314, R319, R320, R326, R327, R336) -/

/-- A lane's ports judged at the end of a matrix cycle (R336): 0x2002 after two cycles above NET.FCS_LIMIT, or a link down for a
whole one. -/
def Chip.judgePorts (c : Chip) (l : LaneId) : Chip :=
  if (c.netOf l).phase = .down then c.modLane l (fun n => { n with net := { n.net with ports := n.net.ports.map (fun p => { p with fails := 0, exceeded := false, downAll := false }) } })
  else
    (List.range 4).foldl (fun c p =>
      let x := c.portOf l p
      let above := decide (c.parN Par.netFcsLimit < x.fails)
      let bad := (above && x.exceeded) || (x.downAll && decide (x.partner ≠ 0))
      let c := c.modPort l p (fun x => { x with fails := 0, exceeded := above, downAll := !x.up })
      if bad && !x.fenced then c.portFence l p 0x2002 else c) c

/-- A schedule put in force; claims on spare slots lapse (R314). -/
def Chip.putSchedule (c : Chip) (b : List Byte) : Chip :=
  (c.modDev (fun d => { d with
    cfg := { d.cfg with sched := b, schedNext := none }, slots := [], spares := [], sparesNext := [], spareClaim := none, otherClaims := [] })).recheck

/-- The mark of an activation that waits for every lane to have left SERVICE (R314). -/
def atRestart : Nat := 2 ^ 32

/-- A pending schedule activated at its matrix cycle, or at the restart of every lane (R314). -/
def Chip.activate (c : Chip) : Chip :=
  match c.dev.cfg.schedNext with
  | none => c
  | some (b, m) =>
    let go := if m = atRestart then !(LaneId.all.any c.inService)
      else LaneId.all.any (fun l => c.inService l && decide ((c.netOf l).matrix = m)) || !(LaneId.all.any c.inService)
    if go then (c.putSchedule b).finishAll (fun p => p.opcode == 0x2010) stOk [] else c

/-- The end of a spare claim: the slots won are owned, and the final reply lists them (R326). -/
def Chip.endClaim (c : Chip) (slots lost : List Nat) : Chip :=
  let won := slots.filter (fun s => !lost.contains s)
  let node := c.parN Par.netNodeId
  let c := c.modDev (fun d => { d with spareClaim := none, spares := d.spares ++ won.map (fun s => { slot := s, owner := node }) })
  let c := if won.length = slots.length then c else c.agreedFault 0x2008 0x0C 0 0xFF
  c.finishAll (fun p => p.opcode == 0x2012) (if won.length = slots.length then stOk else stNoResource) (padQuads (won.flatMap (toLe 2)))

/-- Claims at a matrix-cycle boundary: the device's own moves on, and those of other devices settle (R326, R327). -/
def Chip.spareCycle (c : Chip) : Chip :=
  let lowestNode (s : Nat) (cs : List (Nat × Nat)) : Nat := lowestOf ((cs.filter (fun e => e.2 == s)).map (·.1))
  let free (s : Nat) : Bool := !(c.dev.spares.any (fun x => x.slot == s))
  let wins := (c.dev.otherClaims.filter (fun e => free e.2 && decide (lowestNode e.2 c.dev.otherClaims = e.1))).map (fun e => (e.2, e.1))
  let own := match c.dev.spareClaim with | some (s, lost, _) => s.filter (fun x => !lost.contains x) | none => []
  let c := c.modDev (fun d => { d with
    spares := (d.spares ++ d.sparesNext.map (fun e => ({ slot := e.1, owner := e.2 } : SpareOwner))).map (fun x => { x with quiet := min 255 (x.quiet + 1) })
    sparesNext := wins.filter (fun e => !own.contains e.1), otherClaims := [] })
  match c.dev.spareClaim with
  | some (s, lost, k) => if 2 ≤ k then c.endClaim s lost else c.modDev (fun d => { d with spareClaim := some (s, lost, k + 1) })
  | none => c

/-- What the network does at a matrix-cycle boundary. -/
def Chip.netMatrix (c : Chip) : Chip :=
  let c := LaneId.all.foldl (fun c l => ((c.judgePorts l).countHoldover l).modNet l (fun n => { n with moverFrozen := false })) c
  (c.modDev (fun d => { d with netWait := min 255 (d.netWait + 1) })).activate.spareCycle.netStarted

/-- SPARE_RELEASE_EXPIRY: a claimed slot whose owner has been quiet for NET.SPARE_RELEASE matrix cycles is spare again (R327). -/
def spareReleaseExpiry (slot : Nat) (c : Chip) : Chip :=
  let kept (x : SpareOwner) : Bool := decide (x.slot ≠ slot) || decide (x.quiet < c.parN Par.netSpareRelease) ||
    (decide (x.owner = c.parN Par.netNodeId) && LaneId.all.any c.inService)
  c.modDev (fun d => { d with spares := d.spares.filter kept })

def execSpareReleaseExpiry (slot : Nat) (s : State) : Out := .next (s.onChip (spareReleaseExpiry slot))

/-! ### Agreement of slots and arbitrating frames (R134, R321, R322, R326, R334) -/

/-- The agreed data of a slot, if any yet. -/
def Chip.slotData (c : Chip) (code : Nat) : SlotData :=
  (c.dev.slots.find? (fun x => x.chan * 32768 + x.slot == code)).getD { chan := code / 32768, slot := code % 512 }

/-- The agreed data of a slot put back. -/
def Chip.putSlot (c : Chip) (x : SlotData) : Chip :=
  c.modDev (fun d => { d with slots := d.slots.filter (fun y => !(y.chan == x.chan && y.slot == x.slot)) ++ [x] })

/-- The counters of the basic cycle that ended at S, from the first lane in SERVICE. -/
def Chip.endedCycle (c : Chip) : Option Nat :=
  (LaneId.all.find? c.inService).map (fun l => ((c.netOf l).counter + 63) % 64)

/-- Slots missed or empty counted in every lane that receives (R334). -/
def Chip.countMissed (c : Chip) : Chip :=
  c.modLanes (fun l n => if hasLane c.dev.aset l then { n with net := { n.net with missed := satInc 65535 n.net.missed } } else n)

/-- A slot without a new copy: missed, with its last data older, or empty (R321, R322). -/
def Chip.missSlot (c : Chip) (e : SchedEntry) (x : SlotData) : Chip :=
  let c := c.countMissed
  if x.live && (lanesOf c.dev.aset).any c.inService then
    let age := x.age + 2 ^ e.rep
    let run := x.missRun + 1
    let c := c.putSlot { x with age := age, stale := true, missRun := run, valid := decide (age ≤ c.parN Par.netMaxAge), empty := false }
    if run = c.parN Par.netMissLimit then c.agreedFault 0x2004 0x0C 0 0xFF else c
  else c.putSlot { x with data := [], valid := false, empty := true, missRun := 0, live := false }

/-- The order of a slot's copies: matrix cycle, then basic cycle, relative to the last agreed one. -/
def copyAfter (m k m' k' : Nat) : Bool := seqNewer m m' || (decide (m = m') && decide (k' < k))

/-- One slot agreed from its copies in the lanes of the agreement set (R134, R321). -/
def Chip.agreeSlot (c : Chip) (e : SchedEntry) : Chip :=
  let x := c.slotData e.code
  let copies := c.streamed.filterMap (fun p => match p.2 with
    | .excl ch s k m st lv ag data =>
      if ch = e.chan ∧ s = e.slot ∧ (x.live = false ∨ copyAfter m k x.matrix x.counter = true) then some (p.1, ((m, k), st, lv, ag, data)) else none
    | _ => none)
  match copies with
  | [] => c.missSlot e x
  | (_, (first, _, _, _, _)) :: _ =>
    let best := copies.foldl (fun b p => if copyAfter p.2.1.1 p.2.1.2 b.1 b.2 then p.2.1 else b) first
    let (v, conflict) := c.settleExcl (copies.filter (fun p => decide (p.2.1 = best)))
    let c := if conflict then c.agreedFault 0x0304 0x0C 0 0xFF else c
    match v with
    | none => c.missSlot e x
    | some (_, st, lv, ag, data) =>
      let age := if st then ag else 0
      let c := c.modDev (fun d => { d with
        spares := d.spares.map (fun y => if y.slot = e.code then { y with quiet := 0 } else y)
        spareClaim := d.spareClaim.map (fun y => if y.2.2 ≤ 1 ∧ y.1.contains e.code then (y.1, y.2.1 ++ [e.code], y.2.2) else y) })
      c.putSlot { x with
        data := data, counter := best.2, matrix := best.1, stale := st, age := age, valid := decide (age ≤ c.parN Par.netMaxAge)
        empty := false, missRun := 0, live := !lv }

/-- Agreed arbitrating frames in the order of R134. -/
def arbBefore (x y : Nat × Nat) : Bool := decide (x.1 < y.1) || (decide (x.1 = y.1) && decide (x.2 < y.2))

/-- A key put in ascending place once. -/
def insertKey (x : Nat × Nat) : List (Nat × Nat) → List (Nat × Nat)
  | [] => [x]
  | y :: r => if x = y then y :: r else if arbBefore x y then x :: y :: r else y :: insertKey x r

/-- A host frame kept in every lane that agrees, at most sixteen (R334). -/
def Chip.keepHostFrame (c : Chip) (f : HostFrame) : Chip :=
  c.modLanes (fun l n => if hasLane c.dev.aset l then
    (if n.net.host.length < 16 then { n with net := { n.net with host := n.net.host ++ [f] } }
     else { n with net := { n.net with hostDropped := n.net.hostDropped + 1 } })
    else n)

/-- The slots that a claim frame lists, without its padding. -/
def claimSlots (data : List Byte) : List Nat :=
  match (List.range (data.length / 2)).map (fun k => fld data (2 * k) 2) with
  | [] => []
  | x :: r => x :: r.filter (· != 0)

/-- One agreed arbitrating frame (R326, R334). -/
def Chip.takeFrame (c : Chip) (node fseq kind chan : Nat) (data : List Byte) : Chip :=
  if kind = 2 then c.keepHostFrame { node := node, chan := chan, fseq := fseq, data := data }
  else if kind = 3 then
    let slots := claimSlots data
    let own := c.parN Par.netNodeId
    c.modDev (fun d => { d with
      otherClaims := d.otherClaims ++ (slots.map (fun s => (node, s))).filter (fun e => !d.otherClaims.contains e && decide (node ≠ own))
      spareClaim := d.spareClaim.map (fun y => if y.2.2 = 1 ∧ node < own then (y.1, y.2.1 ++ slots.filter y.1.contains, y.2.2) else y) })
  else c

/-- Every slot due and every arbitrating frame of the period agreed; a frame that has been taken in an earlier period is not taken again
(R134). DESIGN CHOICE (log 103): the device remembers the 64 frames that it took last. -/
def Chip.netAgree (c : Chip) : Chip :=
  let c := match c.endedCycle with
    | some k => ((schedEntries c.dev.cfg.sched).filter (fun e => c.rxEntry e && e.due k)).foldl Chip.agreeSlot c
    | none => ((schedEntries c.dev.cfg.sched).filter (fun e => c.rxEntry e)).foldl (fun c e => c.missSlot e (c.slotData e.code)) c
  let arbs := c.streamed.filterMap (fun p => match p.2 with | .arb node q kind ch data => some (p.1, ((node, q), kind, ch, data)) | _ => none)
  let keys := (arbs.foldl (fun ks p => insertKey p.2.1 ks) []).filter (fun k => !c.dev.arbTaken.contains k)
  let c := c.modDev (fun d => { d with arbTaken := (d.arbTaken ++ keys).drop ((d.arbTaken ++ keys).length - 64) })
  keys.foldl (fun c key =>
    let (v, conflict) := c.settleExcl (arbs.filter (fun p => decide (p.2.1 = key)))
    let c := if conflict then c.agreedFault 0x0304 0x0C 0 0xFF else c
    match v with
    | some (_, kind, ch, data) => c.takeFrame key.1 key.2 kind ch data
    | none => c) c

/-! ### NET operations (R313, R314, R326, R333) -/

/-- The matrix cycle count of the first lane in SERVICE. -/
def Chip.netCount (c : Chip) : Option Nat := (LaneId.all.find? c.inService).map (fun l => (c.netOf l).matrix)

def attrScheduleLoad : OpAttr := { code := 0x2010, keyed := true, acc := .own, pend := true, right := some 2 }

/-- The last part of a schedule load. -/
def schedLast (p : List Byte) : Bool := bitOf (fld p 4 1) 0

def checksScheduleLoad (r : Req) (c : Chip) : List Nat :=
  let p := r.body
  let data := p.length - 16
  let off := fld p 0 4
  if p.length < 16 ∨ p.length % 16 ≠ 0 ∨ 4064 < data ∨ off % 16 ≠ 0 ∨ 16432 < off + data ∨ 1 < fld p 4 1 ∨ zeroFrom p 5 8 = false ∨
      zeroFrom p 12 16 = false then [stBadParam]
  else (if c.dev.cfg.schedNext.isSome then [stLocked] else []) ++ (if c.dev.standdown.isSome then [stBusy] else [])

/-- The staged schedule of the leading lane, cut to its own length. -/
def State.stagedSched (s : State) : List Byte :=
  let l := s.chip.leader.getD .a
  let m := (s.mem.get l).stagingSched
  cellRead m 0 (48 + 16 * min 1024 (fld (cellRead m 6 2) 0 2))

/-- Every lane in SERVICE leaves it with the leaving flag and restarts (R314, R322). -/
def Chip.restartNet (c : Chip) : Chip :=
  LaneId.all.foldl (fun c l => if c.inService l then c.modNet l (fun n => { n with leaving := true, requested := true }) else
    if (c.netOf l).phase = .down ∨ (c.netOf l).phase = .test then c else (c.netPhase l .down).modNet l (fun n => { n with requested := true })) c

/-- The last part's effect (R314). -/
def Chip.loadSchedule (c : Chip) (b : List Byte) (count : Nat) (r : Req) : Chip × Nat :=
  let same := decide (schedCheck b = schedCheck c.dev.cfg.sched) && !c.dev.cfg.sched.isEmpty
  if !schedOk c.dev.cfg.ahead b then (c, stSchedule)
  else if same then (c, stOk)
  else if c.dev.actuation then (c, stDenied)
  else match c.netCount with
    | none => (c.putSchedule b, stOk)
    | some m =>
      let ahead := seqDist count m
      if 2 ≤ ahead ∧ ahead ≤ 2147483647 then
        ((c.modCfg (fun g => { g with schedNext := some (b, count) })).addPend 0x2010 r {}, stPending)
      else
        (((c.modCfg (fun g => { g with schedNext := some (b, atRestart) })).restartNet).addPend 0x2010 r {}, stPending)

def effectScheduleLoad (r : Req) (s : State) : OpOut :=
  let p := r.body
  let s := s.chip.authLanes.foldl (fun s l => s.onMem l (fun m => { m with stagingSched := cellWrite m.stagingSched (fld p 0 4) (p.drop 16) })) s
  if schedLast p then
    let (c, st) := s.chip.loadSchedule s.stagedSched (fld p 8 4) r
    { st := { s with chip := c }, status := st }
  else { st := s }

/-- NET.SCHEDULE_LOAD (R314). -/
def execScheduleLoad (r : Req) (s : State) : Out := .next (runOp attrScheduleLoad checksScheduleLoad effectScheduleLoad r s)

def attrNetStart : OpAttr := { code := 0x2011, pend := true }

def checksNetStart (r : Req) (c : Chip) : List Nat :=
  payloadFails r.body 0 ++ (if c.dev.cfg.sched.isEmpty then [stSchedule] else [])

def effectNetStart (r : Req) (s : State) : OpOut :=
  if s.chip.authLanes.all s.chip.inService then { st := s }
  else
    { st := s.onChip (fun c =>
        ((c.authLanes.foldl (fun c l => c.modNet l (fun n => { n with requested := true })) c).modDev (fun d => { d with netWait := 0 })).addPend 0x2011 r {}),
      status := stPending }

/-- NET.START: startup requested; the final reply comes when every lane in authority is in SERVICE (R317, R333). -/
def execNetStart (r : Req) (s : State) : Out := .next (runOp attrNetStart checksNetStart effectNetStart r s)

/-- NET_START_TIMEOUT: after 8 matrix cycles the reply is TRANSITION_PENDING, and startup goes on (R333). -/
def netStartTimeout (c : Chip) : Chip := if 8 ≤ c.dev.netWait then c.finishAll (fun p => p.opcode == 0x2011) stTransition [] else c

def execNetStartTimeout (s : State) : Out := .next (s.onChip netStartTimeout)

def attrSpareClaim : OpAttr := { code := 0x2012, pend := true }

/-- The slots that a NET.SPARE_CLAIM lists (R333). -/
def spareList (p : List Byte) : List Nat := (List.range (fld p 0 1)).map (fun k => fld p (16 + 2 * k) 2)

def checksSpareClaim (r : Req) (c : Chip) : List Nat :=
  let p := r.body
  let n := fld p 0 1
  if n = 0 ∨ 16 < n ∨ zeroFrom p 1 16 = false ∨ p.length ≠ 16 + 16 * ceilDiv (2 * n) 16 ∨ zeroFrom p (16 + 2 * n) p.length = false then [stBadParam]
  else
    (if (spareList p).all (fun s => (schedEntries c.dev.cfg.sched).any (fun e => e.spare && decide (e.code = s) && (c.entryOwner e).isNone)) then []
      else [stBadParam]) ++
    (if LaneId.all.any c.inService then [] else [stTransition]) ++ (if c.dev.spareClaim.isSome then [stBusy] else [])

def effectSpareClaim (r : Req) (s : State) : OpOut :=
  let slots := spareList r.body
  { st := s.onChip (fun c =>
      let taken := slots.filter (fun x => c.netCount.isSome && decide (some (c.slotData x).matrix = c.netCount) && (c.slotData x).live)
      (c.modDev (fun d => { d with spareClaim := some (slots, taken, 0) })).addPend 0x2012 r {}),
    status := stPending }

/-- NET.SPARE_CLAIM: a slot that has an owner is no spare one until it becomes spare again (R327); the claim runs through the next whole matrix cycle (R326). -/
def execSpareClaim (r : Req) (s : State) : Out := .next (runOp attrSpareClaim checksSpareClaim effectSpareClaim r s)

def attrFrameSend : OpAttr := { code := 0x2013, timed := true }

/-- The lanes' transmit queues have no room (R328, R333). -/
def Chip.txFull (c : Chip) : Bool := c.authLanes.any (fun l => decide (64 ≤ (c.netOf l).txq.length))

def checksFrameSend (r : Req) (c : Chip) : List Nat :=
  let p := r.body
  if p.length < 16 ∨ p.length % 16 ≠ 0 ∨ 1472 < p.length ∨ !(decide (fld p 2 1 = 1 ∨ fld p 2 1 = 2)) ∨ 1 < fld p 3 1 ∨ zeroFrom p 4 16 = false then [stBadParam]
  else if !r.isTimed && c.txFull then [stNoResource] else []

/-- The claim frame of a running spare claim, queued in each lane in SERVICE for both channels under one number, in every basic cycle of its
first whole matrix cycle (R305, R326, R330). -/
def Chip.queueClaim (c : Chip) : Chip :=
  match c.dev.spareClaim with
  | some (slots, _, 1) =>
    let (q, c) := c.nextArb
    let x (ch : Nat) : ArbTx := { kind := 3, chan := ch, fseq := q, data := padQuads (slots.flatMap (toLe 2)) }
    (LaneId.all.filter c.inService).foldl (fun c l => c.modNet l (fun n => (n.enqueue (x 0)).enqueue (x 1))) c
  | _ => c

/-- A host frame queued in every lane in authority under one sequence number (R305, R333). -/
def Chip.queueFrame (c : Chip) (p : List Byte) : Chip :=
  let (q, c) := c.nextArb
  let x : ArbTx := { kind := 2, session := 0, dest := if fld p 2 1 = 1 then some (fld p 0 2) else none, chan := fld p 3 1, fseq := q, data := p.drop 16 }
  c.authLanes.foldl (fun c l => if (c.netOf l).txq.length < 64 then c.modNet l (fun n => n.enqueue x) else c) c

def effectFrameSend (r : Req) (s : State) : OpOut :=
  OpOut.chip s (fun c => if r.isTimed then c.addLoopLaunch 99 10 r.launchTime r.body r.session else c.queueFrame r.body)

/-- NET.FRAME_SEND: a host frame enters the transmit queue, at the launch point of its launch when it is timed (R333, R354). -/
def execFrameSend (r : Req) (s : State) : Out := .next (runOp attrFrameSend checksFrameSend effectFrameSend r s)

/-! ### Status (R334, R358) -/

/-- A lane's NET status: its quad and the waiting host frames (R334). -/
def Chip.netStatus (c : Chip) (l : LaneId) : List Byte :=
  let n := c.netOf l
  let fenced := (List.range 4).foldl (fun m k => if (c.portOf l k).fenced then m + 2 ^ k else m) 0
  let b1 := (if n.isRef then 1 else 0) + (if c.dev.cfg.sched.isEmpty then 0 else 2) + (if c.dev.cfg.schedNext.isSome then 4 else 0)
  toLe 1 n.phase.code ++ toLe 1 b1 ++ toLe 1 n.posA ++ toLe 1 n.posB ++ toLe 4 n.matrix ++ toLe 2 n.failed ++ toLe 2 n.missed ++
    toLe 1 fenced ++ toLe 1 n.host.length ++ toLe 2 0 ++
    n.host.flatMap (fun f => toLe 2 f.node ++ toLe 1 f.chan ++ toLe 1 (f.data.length / 16) ++ toLe 4 f.fseq ++ toLe 8 0 ++ f.data)

/-- A lane's TIME status (R358). -/
def Chip.timeStatus (c : Chip) (l : LaneId) : List Byte :=
  let n := c.netOf l
  let k := (c.lane l).clock
  let d := n.lineDelays.getD (0, 0, 0, 0)
  toLe 1 k.tstate.code ++ toLe 1 n.refClass ++ toLe 1 n.refHops ++ toLe 1 n.refRank ++ toLe 2 n.refNode ++ toLe 2 0 ++
    toLeI 4 (clip (-2147483648) 2147483647 (k.lastOff.getD 0)) ++ toLeI 4 (quo (k.rate * 1000000000) 4294967296) ++
    toLe 4 d.1 ++ toLe 4 d.2.1 ++ toLe 4 d.2.2.1 ++ toLe 4 d.2.2.2

end Sys2Proof.Machine
end

