-- ==== Sys2Proof/Machine/Keyway.lean ====
section
/-! DEFINITION. Keyway safety sessions (chapter 14): reception of PDUs, opening and closing, the watchdog and the loss actions,
and the PDUs that the device sends. -/

namespace Sys2Proof.Machine

open Sys2Proof

/-! ### Reception (R369) -/

/-- PDU_RECEIVED: a lane checks a PDU and streams or discards it (R369). -/
def pduReceived (l : LaneId) (link : Option LaneId) (num : Fin 128) (bytes : List Byte) (c : Chip) : Chip :=
  if (c.lane l).boot.fenced then c
  else if c.pduPasses link num.val bytes then
    let (op, r) := pduOf link num.val 0 0 bytes
    c.arrive l (.pdu num.val link op r)
  else c.pduFails l num.val

def execPduReceived (l : LaneId) (link : Option LaneId) (num : Fin 128) (bytes : List Byte) (s : State) : Out :=
  .next (s.onChip (pduReceived l link num bytes))

/-! ### The PDU agreed for a session (R133) -/

/-- What two copies of a PDU must share to be one. -/
def pduKey (op : Nat) (r : Req) : Nat × Byte × Mask × PduHdr × List Byte := (op, r.tag, r.flags, r.pdu, r.payload)

/-- The PDU copies of a session in the vectors of the agreement set. -/
def Chip.pduCopies (c : Chip) (n : Nat) : List (LaneId × Nat × Req) :=
  c.streamed.filterMap (fun p => match p.2 with
    | .pdu k _ op r => if k = n then some (p.1, op, r) else none
    | _ => none)

/-- The newest of a list of sequence numbers, from one given. -/
def newestSeq (r : Nat) (xs : List Nat) : Option Nat :=
  (xs.filter (fun x => seqNewer x r)).foldl (fun b x => match b with | none => some x | some y => if seqNewer x y then some x else some y) none

/-- The agreed PDU of a session: the newest that is newer than the last agreed one, by majority; without one, fault 0x0305 (R133). -/
def Chip.agreePdu (c : Chip) (n : Nat) (copies : List (LaneId × Nat × Req)) : Option (Nat × Req) × Chip :=
  match newestSeq (c.session n).rxSeq (copies.map (fun e => e.2.2.pdu.seq)) with
  | none => (none, c)
  | some q =>
    let xs := copies.filter (fun e => decide (e.2.2.pdu.seq = q))
    match settle (xs.map (fun e => (e.1, pduKey e.2.1 e.2.2))) with
    | none => (none, c.agreedFault 0x0305 0x0D n 0xFF)
    | some key => ((xs.find? (fun e => decide (pduKey e.2.1 e.2.2 = key))).map (·.2), c)

/-- Sessions with a PDU among the streamed items, in ascending number. -/
def Chip.pduSessions (c : Chip) (packets : List Nat) : List Nat :=
  ((List.range 128).filter (fun n => decide (1 ≤ n) && (packets.contains n || (c.pduCopies n) ≠ [])))

/-! ### Loss and its actions (R373, R378) -/

/-- The units that session n last commanded are on record no longer: that session is no more (R373, R374). -/
def Chip.forgetUnits (c : Chip) (n : Nat) : Chip :=
  c.modDev (fun d => { d with
    motors := d.motors.map (fun (m : Motor) => if m.cmdBy = n then { m with cmdBy := 0 } else m)
    steppers := d.steppers.map (fun (s : Stepper) => if s.cmdBy = n then { s with cmdBy := 0 } else s)
    loops := d.loops.map (fun (x : Loop) => if x.spBy = n then { x with spBy := 0 } else x)
    launches := d.launches.map (fun (x : Launch) => if x.by_ = n then { x with by_ := 0 } else x) })

/-- A session becomes free. What it last commanded stays on record until a loss action that is due has used it (R373, R374, R378). -/
def Chip.freeSession (c : Chip) (n : Nat) : Chip :=
  let c := c.modSession n (fun _ => {})
  if c.dev.lossActs.any (fun e => e.1 == n) then c else c.forgetUnits n

/-- A command outputs' session loses its units: torque 0, stops, setpoints frozen, launches discarded (R373). -/
def Chip.lossAction (c : Chip) (n : Nat) : Chip :=
  let c := (List.range 4).foldl (fun c k => if (nth c.dev.motors k {}).cmdBy = n then c.modMotor k (fun m => { m with torque := 0 }) else c) c
  let c := (List.range 6).foldl (fun c k =>
    let s := nth c.dev.steppers k {}
    if s.cmdBy = n ∧ s.phase = .moving then c.stpStopNow k false false else c) c
  let c := c.modDev (fun d => { d with loops := d.loops.map (fun x => if x.spBy = n then { x with sp := x.pv, lastSet := x.pv } else x) })
  (List.range 14).foldl (fun c o =>
    if c.dev.launches.any (fun x => x.out == o && x.by_ == n) then
      (c.modDev (fun d => { d with launches := d.launches.filter (fun x => !(x.out == o && x.by_ == n)) })).agreedFault 0x2108 (launchUnit o).1 (launchUnit o).2 0xFF
    else c) c

/-- The loss actions due at a launch point (R379). -/
def Chip.lossActions (c : Chip) : Chip :=
  let xs := c.dev.lossActs
  let c := (xs.foldl (fun c e => if 1 ≤ e.2 then c.lossAction e.1 else c) c).modDev (fun d => { d with lossActs := [] })
  xs.foldl (fun c e => if (c.session e.1).state = .lost then c else c.forgetUnits e.1) c

/-- A session lost: fault 0x2204, its action at the launch point, and the stop of action 2 (R373). -/
def Chip.loseSession (c : Chip) (n : Nat) : Chip :=
  let act := c.parN Par.keyLossAction (c.session n).profile
  let c := (c.modSession n (fun x => { x with state := .lost })).agreedFault 0x2204 0x0D n 0xFF
  let c := c.modDev (fun d => { d with lossActs := d.lossActs ++ [(n, act)] })
  if act = 2 then c.stopCause 7 else c

/-- A session's watchdog has reached KEY.WD_TIMEOUT (R372). -/
def Chip.wdDue (c : Chip) (n : Nat) : Bool :=
  let x := c.session n
  decide (x.state = .opened) && !x.closing && decide (1000000 * c.parN Par.keyWdTimeout x.profile ≤ x.wd * c.period)

/-- WATCHDOG_EXPIRY: the session is lost (R372, R373). -/
def watchdogExpiry (num : Fin 128) (c : Chip) : Chip := if c.wdDue num.val then c.loseSession num.val else c

def execWatchdogExpiry (num : Fin 128) (s : State) : Out := .next (s.onChip (watchdogExpiry num))

/-- FREE_DELAY_EXPIRY: a lost session becomes free (R374). -/
def freeDelayExpiry (num : Fin 128) (c : Chip) : Chip :=
  if (c.session num.val).state = .lost then c.freeSession num.val else c

def execFreeDelayExpiry (num : Fin 128) (s : State) : Out := .next (s.onChip (freeDelayExpiry num))

/-- The end of a period's session events: watchdogs, then unfreezes, then closed sessions freed (R372, R378, R379). -/
def Chip.sessionCycle (c : Chip) (n : Nat) : Chip :=
  let x := c.session n
  if x.closing then c.freeSession n
  else
    let c := if x.state = .opened then
        c.modSession n (fun x => { x with wd := if x.freshNow && !x.frozen then 0 else min 65535 (x.wd + 1) }) else c
    let c := if c.wdDue n then c.loseSession n else c
    c.modSession n (fun x => { x with
      freshNow := false, unfreezeNow := false, frozen := x.frozen && !(x.unfreezeNow && !x.violatedNow && decide (x.state ≠ .lost)) })

/-! ### Opening (R375 to R377) -/

/-- The number of a new session of a peer on a carrier: a lost one of the same peer, else the lowest free one (R377). -/
def Chip.sessionNumber (c : Chip) (peer : Nat) (ocgal : Bool) : Option Nat :=
  let ns := (List.range 128).drop 1
  match ns.find? (fun n => decide ((c.session n).state = .lost) && decide ((c.session n).peer = peer) && (c.session n).ocgal == ocgal) with
  | some n => some n
  | none => ns.find? (fun n => decide ((c.session n).state = .free))

/-- The credit counts of a session start anew (R331, R375). -/
def Chip.resetCredits (c : Chip) (n : Nat) : Chip :=
  c.modLanes (fun _ x => { x with net := { x.net with credits := x.net.credits.filter (fun k => k.session != n) } })

/-- The data quad of an open request or answer (R376). -/
def openQuad (d : OpenData) : List Byte := toLe 1 d.num ++ toLe 1 d.epoch ++ toLe 1 d.rnum ++ toLe 1 0 ++ toLe 4 d.first ++ toLe 8 0

/-- An open request or answer of the device, its sequence number 0, queued for the peer (R376). -/
def Chip.sendOpen (c : Chip) (peer chan ident status : Nat) (d : OpenData) : Chip :=
  let b := pduBytes ident 0x2210 0 status 0 c.dev.sn (openQuad d) 0 0
  c.modDev (fun x => { x with openPdus := x.openPdus ++ [(peer, chan, b)] })

/-- A session put under a number (R375 to R377). A loss action due for the number keeps what it needs. -/
def Chip.putSession (c : Chip) (n : Nat) (x : Session) : Chip :=
  ((c.freeSession n).modSession n (fun _ => x)).resetCredits n

def attrSessionOpen : OpAttr := { code := 0x2210, pend := true, row := .always }

/-- The final payload of KEY.SESSION_OPEN (R383). -/
def openReply (n : Nat) (x : Session) : List Byte := toLe 1 n ++ toLe 1 x.epoch ++ toLe 1 x.peerNum ++ toLe 5 0 ++ toLe 8 x.stamp0

/-- A KEY.SESSION_OPEN of the host is well-formed (R383). -/
def openForm (p : List Byte) : Bool :=
  decide (p.length = 16) && decide (fld p 0 1 ≤ 1) && decide (fld p 2 1 ≤ 15) && zeroFrom p 3 4 && zeroFrom p 6 8 && zeroFrom p 12 16 &&
    (if fld p 0 1 = 0 then decide (fld p 1 1 ≤ 7) else decide (fld p 1 1 ≤ 1) && zeroFrom p 8 12)

/-- The profile named matches the request (R375, R376). -/
def Chip.openAllowed (c : Chip) (r : Req) : Bool :=
  let p := r.body
  let prof := fld p 2 1
  let kind := fld p 0 1
  decide (r.session = 0) && decide (c.parN Par.keyCarrier prof = kind) && decide (c.parN Par.keyPeerId prof = fld p 4 2) && decide (fld p 4 2 ≠ 0) &&
    (decide (kind = 1) || (match r.link with | some l => (fld p 1 1).testBit l.idx | none => false))

def checksSessionOpen (r : Req) (c : Chip) : List Nat :=
  (if openForm r.body then [] else [stBadParam]) ++ (if c.openAllowed r then [] else [stDenied])

def effectSessionOpen (r : Req) (s : State) : OpOut :=
  let p := r.body
  let c := s.chip
  let peer := fld p 4 2
  let og := decide (fld p 0 1 = 1)
  match c.sessionNumber peer og with
  | none => { st := s.onChip (fun c => c.agreedFault 0x2207 0x0D 0 0xFF), status := stNoResource }
  | some n =>
    let epoch := c.dev.count % 256
    if og then
      let x : Session := { state := .opening, profile := fld p 2 1, ocgal := true, byDevice := true, peer := peer, epoch := epoch, chan := fld p 1 1, stamp0 := c.dev.sn }
      { st := s.onChip (fun c =>
          ((c.putSession n x).sendOpen peer x.chan (identity (c.parN Par.netNodeId) peer n 0 epoch 1) stOk { num := n, epoch := epoch, first := 1 }).addPend
            0x2210 r { arg := n }),
        status := stPending }
    else
      let x : Session := { state := .opened, profile := fld p 2 1, carriers := BitVec.ofNat 8 (fld p 1 1), byDevice := false, peer := peer, peerNum := n,
                           epoch := epoch, rxSeq := (fld p 8 4 + 2 ^ 32 - 1) % 2 ^ 32, stamp0 := c.dev.sn }
      { st := s.onChip (fun c => (c.putSession n x).addPend 0x2210 r { arg := n, arg2 := 1, at_ := c.dev.count }), status := stPending }

/-- KEY.SESSION_OPEN (R375, R376): a host session is allocated at once, and its final reply follows in the next period. -/
def execSessionOpen (r : Req) (s : State) : Out := .next (runOp attrSessionOpen checksSessionOpen effectSessionOpen r s)

/-- Final replies of host opens of an earlier period (R375). -/
def Chip.openReplies (c : Chip) : Chip :=
  (c.dev.pend.filter (fun p => p.opcode == 0x2210 && p.arg2 == 1 && decide (p.at_ < c.dev.count))).foldl (fun c p =>
    c.finalReply p stOk (openReply p.arg (c.session p.arg))) c

/-- The lowest profile that serves a peer on Ocgal (R376). -/
def Chip.ocgalProfile (c : Chip) (peer : Nat) : Option Nat :=
  if peer = 0 then none else (List.range 16).find? (fun i => decide (c.parN Par.keyCarrier i = 1) && decide (c.parN Par.keyPeerId i = peer))

/-- OPEN_REQUEST: an agreed open request of a peer: a second one under the epoch of its open session is a violation; else a
session is opened and answered, or the refusal is (R376, R377, R381). -/
def openRequest (peer : Nat) (d : OpenData) (c : Chip) : Chip :=
  let c := c.active
  let own := c.parN Par.netNodeId
  let deny (st : Nat) (c : Chip) : Chip := c.sendOpen peer 0 (identity own peer 0 d.num d.epoch 1) st { num := 0, epoch := d.epoch, rnum := d.num }
  let twin := ((List.range 128).drop 1).find? (fun n => decide ((c.session n).state = .opened) && (c.session n).ocgal &&
    decide ((c.session n).peer = peer ∧ (c.session n).peerNum = d.num ∧ (c.session n).epoch = d.epoch) && !(c.session n).byDevice)
  match twin, c.ocgalProfile peer, c.sessionNumber peer true with
  | some n, _, _ => c.violate n
  | none, none, _ => deny stDenied c
  | none, some _, none => deny stNoResource (c.agreedFault 0x2207 0x0D 0 0xFF)
  | none, some prof, some n =>
    let x : Session := { state := .opened, profile := prof, ocgal := true, peer := peer, peerNum := d.num, epoch := d.epoch,
                         rxSeq := (d.first + 2 ^ 32 - 1) % 2 ^ 32, stamp0 := c.dev.sn }
    (c.putSession n x).sendOpen peer 0 (identity own peer n d.num d.epoch 1) stOk { num := n, epoch := d.epoch, rnum := d.num, first := 1 }

def execOpenRequest (peer : Nat) (d : OpenData) (s : State) : Out := .next (s.onChip (openRequest peer d))

/-- OPEN_ANSWER: the peer's answer opens the session, or frees it with its status (R376). -/
def openAnswer (num : Fin 128) (status : Nat) (d : OpenData) (c : Chip) : Chip :=
  let n := num.val
  let mine (p : PendOp) : Bool := p.opcode == 0x2210 && p.arg == n && p.arg2 == 0
  if (c.session n).state ≠ .opening ∨ d.rnum ≠ n ∨ d.epoch ≠ (c.session n).epoch then c
  else if status = stOk then
    let c := c.modSession n (fun x => { x with state := .opened, peerNum := d.num, rxSeq := (d.first + 2 ^ 32 - 1) % 2 ^ 32, wd := 0 })
    c.finishAll mine stOk (openReply n (c.session n))
  else (c.freeSession n).finishAll mine status []

def execOpenAnswer (num : Fin 128) (status : Nat) (d : OpenData) (s : State) : Out := .next (s.onChip (openAnswer num status d))

/-- OPEN_TIMEOUT: no answer within KEY.OPEN_TIMEOUT: freed, FENCED, fault 0x2208 (R376). -/
def openTimeout (num : Fin 128) (c : Chip) : Chip :=
  let n := num.val
  if (c.session n).state = .opening then
    ((c.freeSession n).agreedFault 0x2208 0x0D n 0xFF).finishAll (fun p => p.opcode == 0x2210 && p.arg == n && p.arg2 == 0) stFenced []
  else c

def execOpenTimeout (num : Fin 128) (s : State) : Out := .next (s.onChip (openTimeout num))

/-! ### Closing and unfreezing (R378, R382) -/

/-- The session that a KEY.SESSION_CLOSE names: 0 for the carrying one (R383). -/
def closeTarget (r : Req) : Nat := if fld r.body 0 1 = 0 then r.session else fld r.body 0 1

def attrSessionClose (r : Req) : OpAttr := { code := 0x2211, keyed := true, right := if closeTarget r = r.session then none else some 2, row := .always }

def checksSessionClose (r : Req) (_ : Chip) : List Nat :=
  quadFails r.body 1 ++ (if 127 < fld r.body 0 1 then [stBadParam] else [])

def effectSessionClose (r : Req) (s : State) : OpOut :=
  let n := closeTarget r
  OpOut.chip s (fun c =>
    if (c.session n).state = .free then c
    else
      let c := (c.modSession n (fun x => { x with closing := true })).agreedFault 0x2206 0x0D n 0xFF
      let c := c.modDev (fun d => { d with lossActs := d.lossActs ++ [(n, 1)] })
      let c := c.finishAll (fun p => p.opcode == 0x2210 && p.arg == n) stFenced []
      if n = r.session then c else c.freeSession n)

/-- KEY.SESSION_CLOSE: action 1 at the launch point, fault 0x2206, and the session is freed after its reply (R378). -/
def execSessionClose (r : Req) (s : State) : Out := .next (runOp (attrSessionClose r) checksSessionClose effectSessionClose r s)

def attrPeerUnfreeze : OpAttr := { code := 0x2212, keyed := true, right := some 2, row := .always }

def checksPeerUnfreeze (r : Req) (_ : Chip) : List Nat :=
  let n := fld r.body 0 1
  quadFails r.body 1 ++ (if n = 0 ∨ 127 < n then [stBadParam] else []) ++ (if n = r.session then [stDenied] else [])

def effectPeerUnfreeze (r : Req) (s : State) : OpOut :=
  OpOut.chip s (fun c => c.modSession (fld r.body 0 1) (fun x => { x with unfreezeNow := x.frozen }))

/-- KEY.PEER_UNFREEZE: the release follows the period's watchdog tests (R379, R382). -/
def execPeerUnfreeze (r : Req) (s : State) : Out := .next (runOp attrPeerUnfreeze checksPeerUnfreeze effectPeerUnfreeze r s)

/-! ### The device's PDUs on Ocgal (R368, R380) -/

/-- The frames of the period's PDUs, each session's and then those of openings, with the device's next frame numbers (R305, R368). -/
def Chip.pduFrames (c : Chip) : List ArbTx :=
  let xs : List ArbTx := c.dev.pdus.map (fun e => { kind := 1, session := e.session, dest := some e.peer, chan := e.chan, data := e.data }) ++
    c.dev.openPdus.map (fun e => { kind := 1, session := 0, dest := some e.1, chan := e.2.1, data := e.2.2 })
  xs.mapIdx (fun i x => { x with fseq := (c.dev.arbSeq + i) % 2 ^ 32 })

/-- The PDUs of the period queued in one lane; a session's newer one replaces its older one (R330, R368). -/
def Chip.queuePdus (c : Chip) (l : LaneId) : Chip :=
  c.modNet l (fun n => c.pduFrames.foldl (fun n x => if x.session = 0 then { n with txq := arbInsert x n.txq } else n.enqueue x) n)

/-- The payloads of own slots that carry a session's newest PDU (R368). -/
def Chip.slotPdus (c : Chip) : List (Nat × List Byte) :=
  c.dev.pdus.filterMap (fun e => if e.slot = 65535 then none else some (e.slot, routing e.peerNum 1 0 0 ++ e.data))

/-! ### Status (R362, R384) -/

/-- The state code of a session (R362). -/
def SesState.code : SesState → Nat
  | .free => 0 | .opening => 1 | .opened => 2 | .lost => 3

/-- The state quad (R362). -/
def Session.quad (x : Session) : List Byte :=
  toLe 1 (x.state.code + 16 * x.profile) ++
    toLe 1 ((x.carriers &&& 7#8).toNat + (if x.ocgal then 8 else 0) + (if x.byDevice then 16 else 0) + (if x.frozen then 128 else 0)) ++
    toLe 2 x.peer ++ toLe 4 x.rxSeq ++ toLe 4 x.txSeq ++ toLe 1 x.peerNum ++ toLe 1 x.epoch ++ toLe 2 x.wd

/-- The KEY status of a lane: two quads for each session that is not free (R384). -/
def Chip.keyStatus (c : Chip) (l : LaneId) : List Byte :=
  ((List.range 128).drop 1).flatMap (fun n =>
    let x := c.session n
    if x.state = .free then []
    else x.quad ++ toLe 2 (keyCount (c.lane l).keyFails n) ++ toLe 2 x.stale ++ toLe 2 x.gaps ++ toLe 2 x.violations ++ toLe 8 x.lastFresh)

end Sys2Proof.Machine
end

