-- ==== Sys2Proof/Machine/Sio.lean ====
section
/-! DEFINITION. Safety inputs and outputs (chapter 16): test pulses and the input filter, the judgements of the outputs,
off-pulses, and the operations of the SIO block. -/

namespace Sys2Proof.Machine

open Sys2Proof

/-! ### Supplies, outputs and their functions (R406, R410, R416, R417) -/

/-- The test-pulse supplies are on from the first claim accepted after formation; a fenced supply is off (R118, R406, log 41). -/
def Chip.tpSupplies (c : Chip) : Chip :=
  let en : Mask := BitVec.ofNat 8 (c.parN Par.sioTpEnable)
  if c.dev.claimed then
    LaneId.all.foldl (fun c l => if c.inAuth l && c.laneLive l then
      c.modSio l (fun x => { x with tpOn := en &&& ~~~x.tpFenced }) else c) c
  else c

/-- An output of a lane is energised: commanded on, its command switch not tripped, the enable switch closed (R410, R413). -/
def LaneSio.on (x : LaneSio) (n : Nat) : Bool := hasBit x.soOn n && !hasBit x.soTrip n && x.enabled

/-- A lane is to energise no output that is fenced, or whose stage is (R416). -/
def LaneSio.soBarred (x : LaneSio) (n : Nat) : Bool := x.stageFenced || hasBit x.soFenced n

/-- The outputs that serve a function (R417). -/
def Chip.funcOuts (c : Chip) (f : Nat) : List Nat := (List.range 4).filter (fun n => decide (c.par Par.sioSoFunc n = f))

/-- A function that some output serves is available in no lane in authority (R417). -/
def Chip.soFuncLost (c : Chip) (f : Nat) : Bool :=
  let outs := c.funcOuts f
  outs != [] && c.authLanes.all (fun l => outs.all (fun n => (c.lane l).sio.soBarred n))

/-- A state in force set for one output of a lane: a change releases the latch of an overcurrent trip, and a pulse that runs on the
output is not judged (R413, R415). -/
def LaneSio.setOut (x : LaneSio) (n : Nat) (v : Bool) : LaneSio :=
  let v := v && !x.soBarred n
  if hasBit x.soOn n == v then x
  else { x with
    soOn := setBit x.soOn n v, soTrip := setBit x.soTrip n false,
    offPulse := if x.offPulse = some n ∨ x.offPulse = some (n + 5) then none else x.offPulse,
    skipped := if x.offPulse = some n ∨ x.offPulse = some (n + 5) then satInc 65535 x.skipped else x.skipped }

/-- The commanded states taken at a launch point (R122, R416). -/
def LaneSio.setOuts (x : LaneSio) (m : Mask) : LaneSio := (List.range 4).foldl (fun x n => x.setOut n (hasBit m n)) x

/-! ### Test pulses and inputs (R406 to R409) -/

/-- One more in a list of counts, or back to zero. -/
def countRun (xs : List Nat) (n : Nat) (fail : Bool) : List Nat := modNth xs n (fun k => if fail then satInc 31 k else 0)

/-- TEST_PULSE_START: in its period a supply that is on is switched off, and every filtered level holds (R406, R407). -/
def testPulseStart (l : LaneId) (k : Nat) (c : Chip) : Chip :=
  let p := c.parN Par.sioTpPeriod
  if c.dev.formed ∧ hasBit (c.lane l).sio.tpOn k = true ∧ hasBit (c.lane l).sio.tpPulse k = false ∧
      c.dev.count % p = (if k = 0 then 0 else p / 2) then
    c.modSio l (fun x => { x with
      tpPulse := setBit x.tpPulse k true
      siNext := if x.hold then x.siNext else x.si
      hold := true })
  else c

def execTestPulseStart (l : LaneId) (k : Fin 2) (s : State) : Out := .next (s.onChip (testPulseStart l k.val))

/-- A supply fenced with every input on it, with fault 0x2404 (R409). -/
def Chip.fenceSupply (c : Chip) (l : LaneId) (k : Nat) : Chip :=
  if hasBit (c.lane l).sio.tpFenced k then c.localFault l 0x2404 0x11 k l.idx
  else
    let c := (c.localFault l 0x2404 0x11 k l.idx).ownFence l 0x11 k
    ((List.range 8).filter (fun n => decide (c.par Par.sioSiSrc n = (k : Int) + 1))).foldl (fun c n => c.ownFence l 0x10 n) c

/-- The judgement of one input at the end of a pulse of supply k: the fault code, or none for a pass (R408). -/
def judgeInput (src : Int) (k : Nat) (before atEnd : Bool) : Option Nat :=
  if src = (k : Int) + 1 then (if atEnd then some 0x2401 else none)
  else if before && !atEnd then some 0x2402
  else none

/-- An input's judgement taken: its fault, and its count of consecutive failures in the pulses of its own source, which fences it
at SIO.IN_LIMIT (R408, R409, log 42). -/
def Chip.takeInput (c : Chip) (l : LaneId) (k n : Nat) (verdict : Option Nat) : Chip :=
  let own := decide (c.par Par.sioSiSrc n = (k : Int) + 1)
  let c := match verdict with
    | some code => (c.localFault l code 0x10 n l.idx).modSio l (fun x => { x with inFailures := satInc 65535 x.inFailures })
    | none => c
  if own then
    let c := c.modSio l (fun x => { x with siFails := countRun x.siFails n verdict.isSome })
    if c.parN Par.sioInLimit ≤ nth (c.lane l).sio.siFails n 0 ∧ hasBit (c.lane l).sio.siFenced n = false then
      (c.localFault l 0x2403 0x10 n l.idx).ownFence l 0x10 n
    else c
  else c

/-- The readings of a pulse, with the ball held high by an injection of 0x2404 (R445). -/
def Chip.injectedPulse (c : Chip) (l : LaneId) (k : Nat) (p : PulseReading) : PulseReading :=
  if c.dev.injections.any (fun (code, mode, t, i, _, m) => decide (code = 0x2404 ∧ mode = 1 ∧ t = 0x11 ∧ i = k) && hasLane m l) then
    { p with ballEnd := true } else p

/-- A pulse judged: the inputs passed and failed and whether the supply passed (R408). -/
def Chip.judgePulse (c : Chip) (l : LaneId) (k : Nat) (p : PulseReading) : Mask × Mask × Bool × Chip :=
  let p := c.injectedPulse l k p
  if p.ballEnd || !p.ballBefore then (0, 0, false, c.fenceSupply l k)
  else
    let vs := (List.range 8).map (fun n => (n, judgeInput (c.par Par.sioSiSrc n) k (hasBit p.siBefore n) (hasBit p.siEnd n)))
    let passed := vs.foldl (fun m v => setBit m v.1 v.2.isNone) (0 : Mask)
    (passed, ~~~passed, true, vs.foldl (fun c v => c.takeInput l k v.1 v.2) c)

/-- TEST_PULSE_END: the supply and the inputs are judged (R408). -/
def testPulseEnd (l : LaneId) (k : Nat) (p : PulseReading) (c : Chip) : Chip :=
  if hasBit (c.lane l).sio.tpPulse k then
    (c.modSio l (fun x => { x with tpPulse := setBit x.tpPulse k false })).judgePulse l k p |>.2.2.2
  else c

def execTestPulseEnd (l : LaneId) (k : Fin 2) (p : PulseReading) (s : State) : Out := .next (s.onLane l (testPulseEnd l k.val p))

/-- PULSE_RECOVER_END: the held levels are released unless the other pulse runs (R407). -/
def pulseRecoverEnd (l : LaneId) (c : Chip) : Chip :=
  c.modSio l (fun x => if x.hold && x.tpPulse == 0#8 then { x with hold := false, si := x.siNext } else x)

def execPulseRecoverEnd (l : LaneId) (s : State) : Out := .next (s.onLane l (pulseRecoverEnd l))

/-- SI_LEVEL_ACCEPTED: a new level of an input that has been stable for SIO.SI_FILTER, kept back while the levels hold (R407). -/
def siLevelAccepted (l : LaneId) (n : Nat) (level : Bool) (held : Nat) (c : Chip) : Chip :=
  if held < 1000 * c.parN Par.sioSiFilter then c
  else c.modSio l (fun x => if x.hold then { x with siNext := setBit x.siNext n level } else { x with si := setBit x.si n level, siNext := setBit x.siNext n level })

def execSiLevelAccepted (l : LaneId) (n : Fin 8) (level : Bool) (held : Nat) (s : State) : Out :=
  .next (s.onLane l (siLevelAccepted l n.val level held))

/-- TP_OVERLOAD: an overload trip fences the supply at once (R409). -/
def tpOverload (l : LaneId) (k : Nat) (c : Chip) : Chip :=
  if hasBit (c.lane l).sio.tpOn k then
    (c.fenceSupply l k).modSio l (fun x => { x with tpOn := setBit x.tpOn k false, tpPulse := setBit x.tpPulse k false })
  else c

def execTpOverload (l : LaneId) (k : Fin 2) (s : State) : Out := .next (s.onChip (tpOverload l k.val))

/-! ### Judgements of the outputs (R413, R414, R416) -/

/-- A read-back level: high above 8.0 V, low below 2.0 V, open between them (R413, log 43). -/
def Chip.readLevel (c : Chip) (mv : Nat) : Bool × Chip :=
  if 8000 < mv then (true, c) else if mv < 2000 then (false, c) else let (v, c) := c.draw; (v.testBit 0, c)

/-- A fault of an output test, counted (R420). -/
def Chip.outFault (c : Chip) (l : LaneId) (code t i : Nat) : Chip :=
  (c.localFault l code t i l.idx).modSio l (fun x => { x with outFailures := satInc 65535 x.outFailures })

/-- A fence of an output or stage that is agreed at the next S and takes effect from that period's launch point: it is only named
in the lane status (R416, R429). -/
def Chip.lateFence (c : Chip) (l : LaneId) (code t i : Nat) : Chip :=
  if c.unitFenced l t i || (c.lane l).fencedNow.contains (t, i) then c
  else (c.localFault l code t i l.idx).modLane l (fun n => { n with fencedNow := n.fencedNow ++ [(t, i)] })

/-- A judgement of one kind taken for an output: its fault, its run of failures, and at SIO.OUT_LIMIT the fence of the stage
(0x2405, 0x2407) or of the output (0x2408, 0x2409) (R416). -/
def Chip.judgeOut (c : Chip) (l : LaneId) (n code : Nat) (fail : Bool) : Chip :=
  let c := if fail then c.outFault l code 0x12 n else c
  let c := c.modSio l (fun x => match code with
    | 0x2405 => { x with offFails := countRun x.offFails n fail }
    | 0x2407 => { x with highFails := countRun x.highFails n fail }
    | 0x2408 => { x with lowFails := countRun x.lowFails n fail }
    | _ => { x with openFails := countRun x.openFails n fail })
  let x := (c.lane l).sio
  let run := match code with
    | 0x2405 => nth x.offFails n 0
    | 0x2407 => nth x.highFails n 0
    | 0x2408 => nth x.lowFails n 0
    | _ => nth x.openFails n 0
  if c.parN Par.sioOutLimit ≤ run then
    (if code = 0x2405 ∨ code = 0x2407 then c.lateFence l 0x240B 0x13 0 else c.lateFence l 0x240A 0x12 n)
  else c

/-- The judgement of the enable switch (R414, R416). -/
def Chip.judgeEnable (c : Chip) (l : LaneId) (fail : Bool) : Chip :=
  let c := if fail then c.outFault l 0x2406 0x13 0 else c
  let c := c.modSio l (fun x => { x with enableFails := if fail then satInc 31 x.enableFails else 0 })
  if c.parN Par.sioOutLimit ≤ (c.lane l).sio.enableFails then c.lateFence l 0x240B 0x13 0 else c

/-- Every output judged at S: an energised one must read high, a de-energised one low (R413). -/
def Chip.sioAtS (c : Chip) (l : LaneId) (mv : List Nat) : Chip :=
  (List.range 4).foldl (fun c n =>
    let (high, c) := c.readLevel (nth mv n 0)
    let c := c.modSio l (fun x => { x with readBack := setBit x.readBack n high })
    if (c.lane l).sio.on n then c.judgeOut l n 0x2408 (!high) else c.judgeOut l n 0x2407 high) c

/-- The outputs of a lane that fail their read-back (R413). -/
def LaneSio.badOuts (x : LaneSio) : Mask :=
  (List.range 4).foldl (fun m n => setBit m n (x.on n != hasBit x.readBack n)) (0 : Mask)

/-- SO_OVERCURRENT: the output is off and latched until the next commanded change, with 0x2408 (R413). -/
def soOvercurrent (l : LaneId) (n : Nat) (c : Chip) : Chip :=
  if (c.lane l).sio.on n then
    (c.modSio l (fun x => { x with soTrip := setBit x.soTrip n true })).judgeOut l n 0x2408 true
  else c

def execSoOvercurrent (l : LaneId) (n : Fin 4) (s : State) : Out := .next (s.onChip (soOvercurrent l n.val))

/-! ### Off-pulses (R414, R415) -/

/-- The pulse that a lane's table places in the present period: 0 to 3 off-pulse or slot of SOn, 4 enable pulse (R414). -/
def Chip.pulseDue (c : Chip) (l : LaneId) : Option Nat :=
  let p := c.parN Par.sioOffpPeriod
  (List.range 5).find? (fun n => decide (c.dev.count % p = (l.idx * (p / 3) + n) % p))

/-- A pending launch of an output has its boundary within the pulse or the 10 µs after it (R415). -/
def Chip.pulseMeetsLaunch (c : Chip) (n : Nat) : Bool :=
  let start := c.parN Par.perSampleOffset + c.parN Par.sioOffpOffset
  c.dev.launches.any (fun x =>
    let t := (x.count - c.dev.count) * c.period + 10000 * x.index
    x.out == 10 + n && decide (c.dev.count ≤ x.count ∧ start ≤ t ∧ t ≤ start + c.parN Par.sioOffpWidth + 10000))

/-- A pulse skipped (R415). -/
def LaneSio.skip (x : LaneSio) : LaneSio := { x with skipped := satInc 65535 x.skipped }

/-- OFF_PULSE_START (R414, R415). -/
def offPulseStart (l : LaneId) (c : Chip) : Chip :=
  if !c.dev.formed || !c.inAuth l || (c.lane l).boot.fenced then c
  else match c.pulseDue l with
  | none => c
  | some n =>
    let x := (c.lane l).sio
    if n = 4 then
      c.modSio l (fun x => if (List.range 4).any x.on then { x with offPulse := some 4 } else x.skip)
    else if x.on n then
      c.modSio l (fun x => if c.pulseMeetsLaunch n then x.skip else { x with offPulse := some n })
    else
      let c := c.modSio l LaneSio.skip
      if c.par Par.sioOlTest n = 1 ∧ c.authLanes.all (fun k => !(c.lane k).sio.on n) = true then
        c.modSio l (fun x => { x with offPulse := some (n + 5) })
      else c

def execOffPulseStart (l : LaneId) (s : State) : Out := .next (s.onChip (offPulseStart l))

/-- OFF_PULSE_END: the balls are judged at the pulse's last tick (R414). -/
def offPulseEnd (l : LaneId) (mv : List Nat) (c : Chip) : Chip :=
  match (c.lane l).sio.offPulse with
  | none => c
  | some n =>
    let c := c.modSio l (fun x => { x with offPulse := none })
    if n = 4 then
      let (bad, c) := (List.range 4).foldl (fun (b : Bool × Chip) k =>
        let (high, c) := b.2.readLevel (nth mv k 0)
        (b.1 || (high && (c.lane l).sio.on k), c)) (false, c)
      c.judgeEnable l bad
    else if n < 4 then
      let (high, c) := c.readLevel (nth mv n 0)
      c.judgeOut l n 0x2405 high
    else
      let (high, c) := c.readLevel (nth mv (n - 5) 0)
      c.judgeOut l (n - 5) 0x2409 high

def execOffPulseEnd (l : LaneId) (mv : List Nat) (s : State) : Out := .next (s.onLane l (offPulseEnd l mv))

/-! ### SIO.OUTPUT_SET (R411) -/

def attrOutputSet : OpAttr := { code := 0x2410, keyed := true, acc := .enabled, timed := true, right := some 0, row := .output }

/-- The lanes of an OUTPUT_SET: the named ones, or every lane in authority. -/
def Chip.outputLanes (c : Chip) (p : List Byte) : List LaneId :=
  let m : Mask := BitVec.ofNat 8 (fld p 2 1)
  if m = 0 then c.authLanes else lanesOf m

/-- An output of a lane that OUTPUT_SET can act on. -/
def Chip.outputFree (c : Chip) (l : LaneId) (n : Nat) : Bool := c.inAuth l && !(c.lane l).sio.soBarred n

/-- The outputs that an OUTPUT_SET names, in a list. -/
def outputList (p : List Byte) : List Nat := (List.range 4).filter (fun n => (outputNames p).testBit n)

def checksOutputSet (r : Req) (c : Chip) : List Nat :=
  let p := r.body
  if p.length ≠ 16 ∨ 16 ≤ fld p 0 1 ∨ 16 ≤ fld p 1 1 ∨ 8 ≤ fld p 2 1 ∨ zeroFrom p 3 16 = false then [stBadParam]
  else
    (if outputList p ≠ [] ∧ (c.outputLanes p).all (fun l => (outputList p).all (fun n => !c.outputFree l n)) = true then [stFenced] else []) ++
      c.queueFails r ((outputList p).map (· + 10))

/-- The commanded state of one output set in the named lanes, where it is not fenced (R411). -/
def Chip.commandOut (c : Chip) (p : List Byte) (session n : Nat) : Chip :=
  let v := (fld p 1 1).testBit n
  (c.outputLanes p).foldl (fun c l => if c.outputFree l n then
      c.modDev (fun d => { d with so := d.so.set l (setBit (d.so.get l) n v) }) else c)
    (c.modDev (fun d => { d with soBy := setNth d.soBy n session }))

def effectOutputSet (r : Req) (s : State) : OpOut :=
  OpOut.chip s (fun c => (outputList r.body).foldl (fun c n =>
    if r.isTimed then c.addLaunch (10 + n) 7 r.launchTime (r.body.take 12) r.session else c.commandOut r.body r.session n) c)

/-- SIO.OUTPUT_SET, at once or as a pending launch of kind 7 in each output (R354, R411). -/
def execOutputSet (r : Req) (s : State) : Out := .next (runOp attrOutputSet checksOutputSet effectOutputSet r s)

/-- A pending launch of kind 7 takes effect for its output: the commanded state and the state in force (R354, R411). -/
def Chip.launchOut (c : Chip) (n : Nat) (x : Launch) : Chip :=
  let c := c.commandOut x.args x.by_ n
  (c.outputLanes x.args).foldl (fun c l => if c.outputFree l n && c.laneLive l then
    c.modSio l (fun y => y.setOut n (hasBit (c.dev.so.get l) n)) else c) c

/-- Every output commanded off: actuation has ceased (R418). -/
def Chip.outsOff (c : Chip) : Chip := c.modDev (fun d => { d with so := Tri.all 0 })

/-- The outputs of a function commanded off (R418, R452). -/
def Chip.funcOff (c : Chip) (f : Nat) : Chip :=
  c.modDev (fun d => { d with so := d.so.map (fun m => (c.funcOuts f).foldl (fun m n => setBit m n false) m) })

/-! ### SIO.PULSE_TEST (R419) -/

def attrPulseTest : OpAttr := { code := 0x2411, laneLocal := true, pend := true }

def checksPulseTest (r : Req) (c : Chip) : List Nat := payloadFails r.body 0 ++ (if c.dev.actuation then [stLocked] else [])

def effectPulseTest (r : Req) (s : State) : OpOut :=
  { st := s.onChip (fun c => c.addPend 0x2411 r { lanes := r.lanes.foldl (fun m l => setLaneBit m l true) 0 }), status := stPending }

/-- SIO.PULSE_TEST: the run begins in each selected lane (R419). -/
def execPulseTest (r : Req) (s : State) : Out := .next (runOp attrPulseTest checksPulseTest effectPulseTest r s)

/-- The pulse of one supply in a requested run, when the supply is enabled (R419): passes and fails so far. An input on the other supply
passes in that one's pulse only. -/
def testSupply (l : LaneId) (x : Mask × Mask × Mask × Bool × Chip) (e : Nat × PulseReading) : Mask × Mask × Mask × Bool × Chip :=
  let (passed, failed, tps, ran, c) := x
  if (c.parN Par.sioTpEnable).testBit e.1 then
    let (p, f, ok, c) := c.judgePulse l e.1 e.2
    let proven := (List.range 8).foldl (fun m n => setBit m n (decide (c.par Par.sioSiSrc n = 0 ∨ c.par Par.sioSiSrc n = (e.1 : Int) + 1))) (0 : Mask)
    (passed ||| p &&& proven, failed ||| f, setBit tps e.1 ok, true, c)
  else (passed, failed, tps, ran, c)

/-- The open-load slots of a requested run (R415, R419): outputs tested and outputs failed. -/
def testSlots (l : LaneId) (olHigh : Mask) (c : Chip) : Mask × Mask × Chip :=
  (List.range 4).foldl (fun (x : Mask × Mask × Chip) n =>
    let (tested, failed, c) := x
    if c.par Par.sioOlTest n = 1 ∧ c.authLanes.all (fun k => !(c.lane k).sio.on n) = true then
      (setBit tested n true, setBit failed n (hasBit olHigh n), c.judgeOut l n 0x2409 (hasBit olHigh n))
    else (tested, failed, c)) (0, 0, c)

/-- One lane's part of a pending PULSE_TEST, with the quad of its results; the reply follows with the last lane's (R419). -/
def Chip.pulseResult (c : Chip) (l : LaneId) (quad : Nat) : Chip :=
  (c.dev.pend.filter (fun p => p.opcode == 0x2411 && hasLane p.lanes l && (p.results.get l).isNone)).foldl (fun c p =>
    let q := { p with results := p.results.set l (some quad) }
    let c := c.modDev (fun d => { d with pend := d.pend.map (fun x => if x = p then q else x) })
    if (lanesOf q.lanes).all (fun k => (q.results.get k).isSome) then
      c.finalReply q stOk ((lanesOf q.lanes).flatMap (fun k => toLe 16 ((q.results.get k).getD 0)))
    else c) c

/-- PULSE_TEST_DONE: a lane's run is judged; an output stage passes when an output was tested and none failed (R419, log 44). -/
def pulseTestDone (l : LaneId) (tp0 tp1 : PulseReading) (olHigh : Mask) (c : Chip) : Chip :=
  if c.dev.pend.any (fun p => p.opcode == 0x2411 && hasLane p.lanes l && (p.results.get l).isNone) then
    let (passed, failed, tps, ran, c) := [(0, tp0), (1, tp1)].foldl (testSupply l) (0, 0, 0, false, c)
    let (tested, bad, c) := testSlots l olHigh c
    let passed := if ran then passed &&& ~~~failed else 0
    let good := tested &&& ~~~bad
    let c := c.modSio l (fun x => { x with
      siPassed := passed, tpPassed := tps, soPassed := good, stagePassed := tested != 0#8 && bad == 0#8 })
    c.pulseResult l (ofLe [passed, failed, tps, good, bad])
  else c

def execPulseTestDone (l : LaneId) (tp0 tp1 : PulseReading) (olHigh : Mask) (s : State) : Out :=
  .next (s.onChip (pulseTestDone l tp0 tp1 olHigh))

/-! ### Status (R420) -/

/-- The quad of SIO.STATUS_READ of one lane. -/
def Chip.sioStatus (c : Chip) (l : LaneId) : List Byte :=
  let x := (c.lane l).sio
  toLe 1 x.si.toNat ++ toLe 1 x.siFenced.toNat ++ toLe 1 (x.tpOn.toNat % 4 + 4 * (x.tpFenced.toNat % 4)) ++
    toLe 1 ((c.dev.so.get l).toNat % 16 + 16 * (x.soFenced.toNat % 16)) ++
    toLe 1 (x.readBack.toNat % 16 + (if x.stageFenced then 16 else 0) + (if x.enabled then 32 else 0)) ++ toLe 3 0 ++
    toLe 2 x.inFailures ++ toLe 2 x.outFailures ++ toLe 2 x.skipped ++ toLe 2 0

end Sys2Proof.Machine
end

