-- ==== Sys2Proof/Machine/Snow.lean ====
section
/-! DEFINITION. The Snowplough stop and HOLD (chapter 18): speed, standstill and parked, the causes that hold as conditions, the
sequence of work item 87 with its brake targets and steering, stop notices, and the operations of the SNP block. -/

namespace Sys2Proof.Machine

open Sys2Proof

/-! ### Speed, standstill, parked (R451) -/

/-- The raw value of the speed source: a context's output of the period before, or an agreed value of R278. -/
def Chip.speedRaw (c : Chip) : Option Int :=
  let src := c.parN Par.snpSpeedSrc
  if 0x40 ≤ src ∧ src ≤ 0x7F then
    (if c.loopOn (src - 0x40) && !c.loopFencedAll (src - 0x40) then some (nth c.dev.loops (src - 0x40) {}).out else none)
  else c.sourceRaw src

/-- A speed source is named. -/
def Chip.hasSpeed (c : Chip) : Bool := decide (c.parN Par.snpSpeedSrc ≠ 0xFF)

/-- No bridge of the device switches and no stepper channel moves or homes (R451). -/
def Chip.nothingMoves (c : Chip) : Bool :=
  c.dev.motors.all (fun m => decide (m.state ≠ .switching ∧ m.state ≠ .aligning)) && c.dev.steppers.all (fun s => decide (s.phase = .standing))

/-- The conditions of R451 besides standstill. -/
def Chip.parkMarks (c : Chip) : Bool :=
  c.authLanes.all (fun l => (c.funcOuts 1).all (fun n => !(c.lane l).sio.on n)) &&
    (let n := c.parN Par.snpParkSi
     decide (n = 0xFF) || (hasBit c.dev.agreed.siValid n && hasBit c.dev.agreed.si n))

/-- Speed, standstill and parked from the agreed data of the period (R451). -/
def Chip.snowSense (c : Chip) : Chip :=
  let c := if c.hasSpeed then
      (match c.speedRaw with
      | some raw =>
        let v := quo (raw * c.par Par.snpSpeedNum) (c.par Par.snpSpeedDen)
        let slow := decide (dist v 0 ≤ c.par Par.snpParkV)
        c.modSnow (fun w => { w with v := v, vValid := true, slow := slow, standstill := w.standstill && slow })
      | none => c.modSnow (fun w => { w with vValid := false, slow := false, standstill := false }))
    else
      let still := c.nothingMoves
      c.modSnow (fun w => { w with v := 0, vValid := false, slow := false, standstill := still })
  let marks := c.parkMarks
  c.modSnow (fun w => { w with parked := w.standstill && marks })

/-- PARK_TIME_EXPIRY: the speed has stayed low through SNP.PARK_TIME (R451). -/
def parkTimeExpiry (c : Chip) : Chip :=
  if c.dev.snow.slow then
    let marks := c.parkMarks
    c.modSnow (fun w => { w with standstill := true, parked := marks })
  else c

def execParkTimeExpiry (s : State) : Out := .next (s.onChip parkTimeExpiry)

/-! ### Causes that hold as conditions (R449) -/

/-- The conditions of R449 that hold, each with its cause and unit. -/
def Chip.levelCauses (c : Chip) : List (Nat × Nat) :=
  ((List.range 2).filter c.motorShort).map (fun k => (2, k)) ++
  ((List.range 8).filter c.essentialLost).map (fun o => (3, o)) ++
  ((List.range 8).filter c.fbLeft).map (fun k => (5, k)) ++
  ((List.range 64).filter c.loopLost).map (fun n => (6, n)) ++
  ([1, 2].filter c.soFuncLost).map (fun f => (8, f)) ++
  (if c.dev.agreed.psn.dieFenced then [(9, 0)] else []) ++
  (if c.dev.agreed.psn.holding ∧ c.dev.authority ≠ 0 then [(10, 0)] else [])

/-- A condition that begins to hold is a cause; a channel left with one lane records 0x1309 (R189, R449). -/
def Chip.takeCause (c : Chip) (e : Nat × Nat) : Chip :=
  (if e.1 = 5 then c.agreedFault 0x1309 0x09 e.2 0xFF else c).stopCause e.1

/-- Each condition that begins to hold is a cause (R449, R450). -/
def Chip.newCauses (c : Chip) : Chip :=
  let now := c.levelCauses
  let fresh := now.filter (fun e => !c.dev.snow.held.contains e)
  fresh.foldl Chip.takeCause (c.modSnow (fun w => { w with held := now }))

/-! ### Brake targets and steering (R453, R454) -/

/-- The demand of step 2 at the present speed and time (R453). -/
def Chip.demand (c : Chip) : Int :=
  let d := c.par Par.snpDecel
  let a := if c.hasSpeed then
      let vRef := max 0 (c.dev.snow.v0 - quo (d * (c.dev.snow.t : Int)) 1000000000)
      d + quo (c.par Par.snpKv * (dist c.dev.snow.v 0 - vRef)) 65536
    else d
  clip 0 (c.par Par.snpDecelFull) a

/-- A brake target can act: it exists, is not fenced, de-energised, not homed or held by the Deadbolt (R453). -/
def Chip.brakeActs (c : Chip) (t : Nat) : Bool :=
  let claimed := !c.dev.agreed.psn.holding && !c.dev.agreed.psn.dieFenced
  if t < 64 then c.loopOn t && !c.loopFencedAll t
  else if t < 0x46 then claimed && c.stpActs (t - 0x40)
  else if t < 0x48 then
    let m := nth c.dev.motors (t - 0x44) {}
    claimed && bridgeUsed c.dev.cfg.ws (t - 0x44) && decide (m.enabled = true ∧ m.state = .switching) && !c.bridgeFenced (t - 0x44) && !c.pintle.holding
  else false

/-- A command applied to a brake target (R453, R280). -/
def Chip.brakeTo (c : Chip) (t : Nat) (cmd : Int) : Chip :=
  if !c.brakeActs t then c
  else if t < 64 then c.modLoop t (fun x => { x with sp := cmd })
  else if t < 0x46 then
    let k := t - 0x40
    let goal := c.stpClip k cmd
    let s := nth c.dev.steppers k {}
    if (s.phase = .moving ∧ s.target = goal ∧ s.vLim = 0 ∧ s.aLim = 0) ∨ (s.phase = .standing ∧ wholeStep s.x = goal) then c
    else c.stpMoveTo k goal 0 0
  else c.modMotor (t - 0x44) (fun m => { m with torque := cmd })

/-- The brake targets of the device, by instance. -/
def Chip.brakeTargets (c : Chip) : List (Nat × Nat) := (List.range 8).map (fun i => (i, c.parN Par.snpBrkTgt i))

/-- The commands of step 2 at a demand (R453). -/
def Chip.brakeDemand (c : Chip) (a : Int) : Chip :=
  (c.brakeTargets).foldl (fun c e =>
    let z := c.par Par.snpBrkZero e.1
    c.brakeTo e.2 (z + quo ((c.par Par.snpBrkFull e.1 - z) * a) (c.par Par.snpDecelFull))) (c.modSnow (fun w => { w with aDem := a }))

/-- Every brake target at SNP.BRK_FULL (R452, R459). -/
def Chip.brakeFull (c : Chip) : Chip := (c.brakeTargets).foldl (fun c e => c.brakeTo e.2 (c.par Par.snpBrkFull e.1)) c

/-- The setpoints of the steering contexts move on for one period (R454). -/
def Chip.steerOn (c : Chip) : Chip :=
  (List.range 4).foldl (fun c j =>
    let n := c.parN Par.snpSteerCtx j
    match c.dev.snow.steer[j]? with
    | none => c
    | some x =>
      if 63 < n then c
      else
        let goal := match c.parN Par.snpSteerMode j with
          | 0 => x
          | 1 => c.par Par.snpSteerHold j * 1000000000
          | _ => (nth c.dev.loops n {}).lastSet * 1000000000
        let d := c.par Par.snpSteerRate j * (c.period : Int)
        let y := clip (x - d) (x + d) goal
        (c.modSnow (fun w => { w with steer := setNth w.steer j y })).modLoop n (fun z => { z with sp := quo y 1000000000 })) c

/-! ### The sequence (R450, R452) -/

/-- The data quad of a stop notice (R456). -/
def Chip.noticeQuad (c : Chip) : List Byte :=
  let w := c.dev.snow
  toLe 1 w.step ++ toLe 1 w.cause ++ toLe 1 c.classNow ++ toLe 1 0 ++ toLeI 4 w.v ++ toLe 8 w.entryNt

/-- A step begins: an event with the notice's quad on every host link (R456). -/
def Chip.snowEnter (c : Chip) (step : Nat) : Chip :=
  let c := c.modSnow (fun w => { w with step := step })
  c.authLanes.foldl (fun c l => c.event l 3 c.noticeQuad) c

/-- The contexts that a stop commands put in automatic (R453, R454). -/
def Chip.stopContexts (c : Chip) : Chip :=
  let ts := (c.brakeTargets.map (·.2)).filter (· < 64)
  let ss := ((List.range 4).map (fun j => c.parN Par.snpSteerCtx j)).filter (· < 64)
  (ts ++ ss).foldl Chip.loopAuto c

/-- A stop starts at the launch point of the period: v0 captured, function 2 off, host torques at 0, the running stand-down
aborted, and steps 1 and 2 begin (R450, R452, R454, R458). -/
def Chip.startStop (c : Chip) (cause : Nat) : Chip :=
  let nt := c.launchNt
  let c := c.modSnow (fun w => { w with
    pend := none, cause := cause, v0 := w.v, t := 0, entryNt := nt, timedOut := false, applied := false, aDem := 0, releasing := false
    steer := (List.range 4).map (fun j => (nth c.dev.loops (c.parN Par.snpSteerCtx j) {}).sp * 1000000000) })
  let c := c.modDev (fun d => { d with sdAbort := d.sdAbort || d.standdown.isSome, sdNext := none })
  let c := (List.range 4).foldl (fun c k => if c.parN Par.cmtTorqueSrc k = 0xFF then c.modMotor k (fun m => { m with torque := 0 }) else c) c
  ((c.funcOff 2).stopContexts.snowEnter 1).snowEnter 2

/-- Step 2 ends (R452, R453, R458). -/
def Chip.brakingEnds (c : Chip) : Bool :=
  let w := c.dev.snow
  (c.hasSpeed && w.standstill) || w.timedOut || c.brakeTargets.all (fun e => !c.brakeActs e.2) || c.dev.agreed.psn.holding

/-- The step of the period: the changes that fall at its launch point (R452). -/
def Chip.snowAdvance (c : Chip) : Chip :=
  let c : Chip := match c.dev.snow.step, c.dev.snow.pend with
    | 0, some cause => c.startStop cause
    | 0, none => c
    | _, _ => c.modSnow (fun w => { w with t := w.t + c.period })
  let c : Chip := if c.dev.snow.step = 2 ∧ c.brakingEnds = true then
      let late := c.hasSpeed && c.dev.snow.timedOut && !c.dev.snow.standstill
      let c := if late then c.agreedFault 0x0603 0 0 0xFF else c
      ((c.modSnow (fun w => { w with applied := false, timedOut := false })).funcOff 1).snowEnter 3
    else c
  if c.dev.snow.step = 3 ∧ (c.dev.snow.applied = true ∨ c.par Par.snpApplyTime = 0) then
    ((c.snowEnter 4).agreedFault 0x0602 0 0 0xFF).writeHold true
  else c

/-- What the step of the period commands (R453, R454, R459). -/
def Chip.snowCommand (c : Chip) : Chip :=
  match c.dev.snow.step with
  | 0 => c
  | 2 => (c.brakeDemand c.demand).steerOn
  | _ => c.brakeFull.steerOn

/-- A stop notice on one session: its next PDU, with the opcode of SNP.STOP_NOTICE, on every carrier (R456). -/
def Chip.noticeOn (c : Chip) (n : Nat) : Chip :=
  let x := c.session n
  let (b, c) := c.ownPdu n 0x0680 0 0 c.noticeQuad
  if x.ocgal then c.putPdu n b
  else (c.authLanes.filter (fun l => hasLane x.carriers l)).foldl (fun c l =>
    let seq := (c.dev.hosts.get l).events
    let p : OutPacket := { opcode := 0x0680, seq := seq, session := n, payload := b, isEvent := true }
    (c.modHost l (fun h => { h with events := (seq + 1) % 2 ^ 32 })).modLane l (fun m => { m with txq := m.txq ++ [p] })) c

/-- The stop notices of a period (R456). -/
def Chip.notices (c : Chip) : Chip :=
  if c.dev.snow.step = 0 then c
  else ((List.range 128).drop 1).foldl (fun c n =>
    let x := c.session n
    if x.state = .opened ∧ (c.parN Par.snpNotifyProf).testBit x.profile = true then c.noticeOn n else c) c

/-- Work item 87: causes, the step and its commands. -/
def Chip.snowItem (c : Chip) : Chip := (c.newCauses.snowAdvance).snowCommand

/-- A cause found by the work items of the period themselves starts the stop at the same launch point (R450). -/
def Chip.snowLate (c : Chip) : Chip :=
  let c := c.newCauses
  if c.dev.snow.step = 0 ∧ c.dev.snow.pend.isSome then c.snowAdvance.snowCommand else c

/-- STOP_TIMEOUT: SNP.STOP_TIMEOUT has passed in step 2 (R452, R453). -/
def stopTimeout (c : Chip) : Chip := if c.dev.snow.step = 2 then c.modSnow (fun w => { w with timedOut := true }) else c

def execStopTimeout (s : State) : Out := .next (s.onChip stopTimeout)

/-- APPLY_TIME_EXPIRY: SNP.APPLY_TIME has passed in step 3 (R452). -/
def applyTimeExpiry (c : Chip) : Chip := if c.dev.snow.step = 3 then c.modSnow (fun w => { w with applied := true }) else c

def execApplyTimeExpiry (s : State) : Out := .next (s.onChip applyTimeExpiry)

/-- The first launch point of a stop: every pending launch is discarded (R356, R450). -/
def Chip.stopLaunches (c : Chip) : Chip :=
  if c.dev.snow.step ≠ 0 ∧ c.dev.snow.cause ≠ 12 ∧ c.dev.snow.entryNt = c.launchNt then c.discardAll else c

/-! ### Operations (R450, R461, R465) -/

def attrStopRequest : OpAttr := { code := 0x0610, row := .always }

def effectStopRequest (_ : Req) (s : State) : OpOut := OpOut.chip s (fun c => c.stopCause 11)

/-- SNP.STOP_REQUEST: cause 11 (R449, R450). -/
def execStopRequest (r : Req) (s : State) : Out := .next (runOp attrStopRequest checksNone effectStopRequest r s)

def attrHoldRelease : OpAttr := { code := 0x0611, keyed := true, acc := .own, pend := true, right := some 2, row := .release }

/-- A cause of R449 is still present (R461). -/
def Chip.causePresent (c : Chip) : Bool :=
  (List.range 2).any c.motorShort || (List.range 8).any c.essentialLost || [1, 2].any c.soFuncLost ||
    ((List.range 128).drop 1).any (fun n => decide ((c.session n).state = .lost) && decide (c.parN Par.keyLossAction (c.session n).profile = 2))

/-- The first failing row of R461 decides. -/
def checksHoldRelease (r : Req) (c : Chip) : List Nat :=
  payloadFails r.body 0 ++
    (if !c.isParked then [stNotParked]
     else if 1 < c.classNow ∨ c.authLanes.length < c.parN Par.laneStartMin then [stDenied]
     else if c.causePresent then [stDenied]
     else if c.pintle.holding then [stDenied]
     else [])

def effectHoldRelease (r : Req) (s : State) : OpOut :=
  if s.chip.dev.snow.step = 4 then
    { st := s.onChip (fun c => (c.modSnow (fun w => { w with releasing := true })).addPend 0x0611 r {}), status := stPending }
  else OpOut.same s

/-- SNP.HOLD_RELEASE: HOLD ends at the next boundary (R461). -/
def execHoldRelease (r : Req) (s : State) : Out := .next (runOp attrHoldRelease checksHoldRelease effectHoldRelease r s)

/-- A stopped context after HOLD: manual, at its frozen output (R288). -/
def Loop.afterHold (x : Loop) : Loop := if x.mode = .stopped then { x with mode := .manual, manual := x.out } else x

/-- HOLD left at a boundary (R461). -/
def Chip.leaveHold (c : Chip) : Chip :=
  if c.dev.snow.releasing ∧ c.dev.snow.step = 4 then
    let c := (c.agreedFault 0x0605 0 0 0xFF).writeHold false
    let c := c.modSnow (fun w => { w with step := 0, cause := 0, releasing := false, pend := none, steer := [], aDem := 0 })
    let c := c.modDev (fun d => { d with loops := d.loops.map Loop.afterHold })
    c.finishAll (fun p => p.opcode == 0x0611) stOk []
  else c

def attrDeadboltRelease : OpAttr := { code := 0x0612, keyed := true, acc := .own, pend := true, right := some 2, row := .release }

/-- NOT_PARKED only when nothing but parking is missing (R465). -/
def checksDeadboltRelease (r : Req) (c : Chip) : List Nat :=
  payloadFails r.body 0 ++
    (if c.dev.snow.step ≠ 4 ∨ c.pintle.anyClaim = false then [stDenied] else if !c.isParked then [stNotParked] else [])

def effectDeadboltRelease (r : Req) (s : State) : OpOut :=
  if s.chip.pintle.holding then
    { st := s.onChip (fun c => (c.modSnow (fun w => { w with dbReleasing := true })).addPend 0x0612 r {}), status := stPending }
  else OpOut.same s

/-- SNP.DEADBOLT_RELEASE: the holder takes the claimed outputs at the next boundary (R465). -/
def execDeadboltRelease (r : Req) (s : State) : Out := .next (runOp attrDeadboltRelease checksDeadboltRelease effectDeadboltRelease r s)

/-- The final reply once the Pintle die has let the outputs go (R465). -/
def Chip.dbReplies (c : Chip) : Chip :=
  if c.pintle.holding || c.dev.snow.dbReleasing then c else c.finishAll (fun p => p.opcode == 0x0612) stOk []

/-- The quad of SNP.STATUS_READ (R466). -/
def Chip.snpStatus (c : Chip) : List Byte :=
  let w := c.dev.snow
  let db := if c.pintle.holding then 2 else if c.pintle.armed then 1 else 0
  let rec' := match c.leader with
    | some l => (((c.lane l).nvm.holdInForce.map (fun h => if h.hold then 1 else 0)).getD 0)
    | none => 0
  toLe 1 w.step ++ toLe 1 w.cause ++ toLe 1 db ++ toLe 1 rec' ++ toLeI 4 w.v ++ toLe 8 w.entryNt

end Sys2Proof.Machine
end

