-- ==== Sys2Proof/Machine/Power.lean ====
section
/-! DEFINITION. Disabling actuation (R418), and power states (chapter 19): requests, the steps of every transition, the idle timer,
wake sources, the Glide cycle, waking, pads, and the operations of the PWR block. -/

namespace Sys2Proof.Machine

open Sys2Proof

/-! ### Actuation ceases to be enabled (R260, R288, R356, R418, R464) -/

/-- A context in manual with LOOP.OUT_INIT (R288). -/
def Chip.loopInit (c : Chip) (n : Nat) : Chip :=
  let u := c.par Par.loopOutInit n
  c.modLoop n (fun x => if x.mode = .disabled ∨ x.mode = .fenced then x else { x with mode := .manual, manual := u, toAuto := false, preset := none })

/-- Actuation is disabled: from the launch point of the period every output is off, bridges are disabled, channels de-energised,
contexts in manual, and no launch stays pending. The status packet of the next period asks for the disarming (R464). -/
def Chip.actuationOff (c : Chip) : Chip :=
  if !c.dev.actuation then c
  else
    let c := (c.modDev (fun d => { d with actuation := false })).outsOff.discardAll
    let c := (List.range 4).foldl (fun c k => if bridgeUsed c.dev.cfg.ws k then c.disableBridge k else c) c
    let c := (List.range 6).foldl (fun c k => if (nth c.dev.steppers k {}).energised then c.stpRelease k stNotHomed else c) c
    c.loopsOn.foldl Chip.loopInit c

def attrActuationDisable : OpAttr := { code := 0x0211, row := .disable }

def effectActuationDisable (_ : Req) (s : State) : OpOut := OpOut.chip s Chip.actuationOff

/-- AUTH.ACTUATION_DISABLE (R418). -/
def execActuationDisable (r : Req) (s : State) : Out := .next (runOp attrActuationDisable checksNone effectActuationDisable r s)

/-! ### Requests (R472 to R474) -/

/-- The code of a power state (R473). -/
def PowerState.code : PowerState → Nat
  | .run => 0 | .idle => 1 | .glide => 2 | .sleep => 3 | .off => 4

/-- The power state of a code (R473). -/
def PowerState.ofCode : Nat → PowerState
  | 0 => .run | 1 => .idle | 2 => .glide | 3 => .sleep | _ => .off

/-- A state whose control period has stopped (R471). -/
def PowerState.stops (p : PowerState) : Bool := decide (p = .glide ∨ p = .sleep ∨ p = .off)

/-- A transition begins (R474, R475, R477). -/
def Chip.beginPower (c : Chip) (t : PowerState) (auto : Bool) : Chip :=
  let c := c.modDev (fun d => { d with power := { d.power with target := some t, step := 1, auto := auto, since := 0, idleRuns := false } })
  if c.dev.power.state = .run then c.actuationOff else c

/-- The refusals of R473 besides parking. -/
def powerFails (c : Chip) : List Nat :=
  (if c.dev.power.target.isSome then [stTransition] else []) ++ (if c.dev.standdown.isSome then [stBusy] else [])

def attrStateSet : OpAttr := { code := 0x3210, acc := .parked, pend := true }

def checksStateSet (r : Req) (c : Chip) : List Nat :=
  quadFails r.body 1 ++ (if 4 < fld r.body 0 1 then [stBadParam] else []) ++ powerFails c

def effectStateSet (r : Req) (s : State) : OpOut :=
  let t := PowerState.ofCode (fld r.body 0 1)
  if s.chip.dev.power.state = t then OpOut.same s
  else { st := s.onChip (fun c => (c.beginPower t false).addPend 0x3210 r {}), status := stPending }

/-- PWR.STATE_SET (R472, R473). -/
def execStateSet (r : Req) (s : State) : Out := .next (runOp attrStateSet checksStateSet effectStateSet r s)

/-! ### The idle timer (R476) -/

/-- Whether the idle timer counts in the period. -/
def Chip.idleCounts (c : Chip) : Bool :=
  decide (c.par Par.pwrIdleTime ≠ 0) && decide (c.dev.power.state = .run ∨ c.dev.power.state = .idle) && c.isParked &&
    c.dev.power.target.isNone && !c.dev.power.activity

/-- The idle timer at the end of a period's operations. -/
def Chip.idleTimer (c : Chip) : Chip :=
  let on := c.idleCounts
  c.modDev (fun d => { d with power := { d.power with idleRuns := on } })

/-- IDLE_TIMER_EXPIRY: automatic entry into PWR.AUTO_STATE, unless the request would be refused or names the present state (R476). -/
def idleTimerExpiry (c : Chip) : Chip :=
  let t := PowerState.ofCode (c.parN Par.pwrAutoState)
  if !c.dev.power.idleRuns then c
  else if powerFails c ≠ [] ∨ c.isParked = false ∨ (1 ≤ c.dev.snow.step ∧ c.dev.snow.step ≤ 3) ∨ 2 < c.classNow ∨ c.dev.power.state = t then
    c.modDev (fun d => { d with power := { d.power with idleRuns := false } })
  else (c.agreedFault 0x3204 0 0 0xFF).beginPower t true

def execIdleTimerExpiry (s : State) : Out := .next (s.onChip idleTimerExpiry)

/-! ### Steps of a transition (R475, R477, R478) -/

/-- The final reply of a requested transition. -/
def Chip.powerReply (c : Chip) (status : Nat) : Chip := c.finishAll (fun p => p.opcode == 0x3210) status []

/-- The transition ended in a state. -/
def Chip.endPower (c : Chip) : Chip :=
  c.modDev (fun d => { d with power := { d.power with target := none, step := 0, auto := false, since := 0 } })

/-- Every open session closed (R378, R477). -/
def Chip.closeSessions (c : Chip) : Chip :=
  ((List.range 128).drop 1).foldl (fun c n =>
    if (c.session n).state = .opened then
      let c := (c.modSession n (fun x => { x with closing := true })).agreedFault 0x2206 0x0D n 0xFF
      c.modDev (fun d => { d with lossActs := d.lossActs ++ [(n, 1)] })
    else c) c

/-- The whole queue of records of a lane written out, outside the limit of four (R477). -/
def Chip.flushRecords (c : Chip) (l : LaneId) : Chip :=
  (List.range 65).foldl (fun c _ =>
    if (c.lane l).fault.queue = [] then c
    else recordWrite l (c.modLane l (fun n => { n with fault := { n.fault with writes := 0 } }))) c

/-- The present period is the last one before M (R477): the period after the execution without a schedule; with one, the last period
of a matrix cycle, no less than two launch points on. -/
def Chip.lastBeforeM (c : Chip) : Bool :=
  if c.dev.cfg.sched.isEmpty then decide (1 ≤ c.dev.power.since) else decide (c.dev.cycle = 64 ∧ 2 ≤ c.dev.power.since)

/-- A stop has begun in the period or runs (R478). -/
def Chip.stopBegun (c : Chip) : Bool :=
  decide (1 ≤ c.dev.snow.step ∧ c.dev.snow.step ≤ 3) || (decide (c.dev.snow.step = 4) && decide (c.dev.snow.entryNt = c.launchNt))

/-- An entry abandoned for a stop cause (R478). -/
def Chip.abandonEntry (c : Chip) : Chip :=
  let c := c.modLanes (fun _ n => { n with net := { n.net with leaving := false }, power := { n.power with wake := none } })
  (((c.powerReply stDenied).agreedFault 0x3205 0 0 0xFF)).endPower

/-- The power work of a period, after its operations and its stop sequence (R475 to R478). -/
def Chip.powerPeriod (c : Chip) : Chip :=
  match c.dev.power.target with
  | none => c.idleTimer
  | some .run => c
  | some .idle => if c.dev.power.step = 2 then (c.powerReply stOk).endPower else c
  | some _ =>
    if c.stopBegun then c.abandonEntry
    else if c.dev.power.step = 1 ∧ c.lastBeforeM = true then
      let c := c.authLanes.foldl Chip.flushRecords c.closeSessions
      (c.powerReply stOk).modDev (fun d => { d with power := { d.power with step := 2 } })
    else if c.dev.power.step = 1 ∧ c.dev.cfg.sched ≠ [] ∧ c.dev.cycle = 63 ∧ 1 ≤ c.dev.power.since then
      c.authLanes.foldl (fun c l => c.modNet l (fun n => { n with leaving := decide (n.phase = .service) })) c
    else c

/-- Every gate of the device's drive domains reads off (R475). -/
def Chip.gatesOff (c : Chip) : Bool :=
  c.authLanes.all (fun l => (c.lane l).engines.all (fun e => decide (e.gates = .off))) && c.pintle.outs.all (fun o => decide (o.driven.modes = 0))

/-- The drive domains switched (R475). -/
def Chip.driveTo (c : Chip) (on : Bool) : Chip :=
  (c.authLanes.foldl (fun c l => c.modLane l (fun n => { n with power := { n.power with drive := on } })) c).modPintle (fun p => { p with drive := on })

/-- The transitions between RUN and IDLE at a control-period boundary (R475). -/
def Chip.powerBoundary (c : Chip) : Chip :=
  let w := c.dev.power
  if w.step = 1 ∧ w.target = some .idle ∧ 1 ≤ w.since ∧ c.gatesOff = true then
    (c.driveTo false).modDev (fun d => { d with power := { d.power with state := .idle, left := d.power.state, step := 2 } })
  else if w.step = 1 ∧ w.target = some .run ∧ 1 ≤ w.since then
    (c.driveTo true).modDev (fun d => { d with power := { d.power with step := 2 } })
  else c

/-- DRIVE_DOMAINS_GOOD: RUN is entered, and the automatic off-state tests are due again (R475). -/
def driveDomainsGood (c : Chip) : Chip :=
  if c.dev.power.target = some .run ∧ c.dev.power.step = 2 then
    let c := c.modDev (fun d => { d with power := { d.power with state := .run, left := d.power.state } })
    ((c.powerReply stOk).endPower).dueTests c.authLanes true
  else c

def execDriveDomainsGood (s : State) : Out := .next (s.onChip driveDomainsGood)

/-! ### M and the power-down (R469, R477, R481) -/

/-- A lane past the point of no return: its pads latched, its engines and outputs off, its domains down (R469, R477, R481). -/
def Lane.powerDown (n : Lane) (glide keep : Bool) : Lane :=
  { n with
    power := { n.power with core := false, mem := if glide then 1 else 0, net := keep, drive := false, pads := true,
                            glideSi := n.sio.si, glideFb := none, cycles := 0, waking := false }
    round := {}, arriving := [], txq := []
    engines := n.engines.map (fun e => e.halt .off)
    sio := { n.sio with soOn := 0, tpOn := 0, tpPulse := 0, hold := false, enabled := false, offPulse := none }
    clock := { n.clock with running := false, tstate := .free }
    net := { n.net with phase := .down, out := [], txq := [], leaving := false, left := false, isRef := false, ports := if keep then n.net.ports else n.net.ports.map (fun p => { p with up := false, trained := false }) } }

/-- The agreed data that stay known to AON in SLEEP and OFF: the power state and the settings that AON needs (R469, R479). -/
def Dev.asleep (d : Dev) : Dev :=
  { power := d.power, cfg := { ws := d.cfg.ws.filter (fun e => decide (e.1 / 65536 = 0x32 ∨ e.1 / 256 = Par.sioSiSrc.id)) } }

/-- POINT_OF_NO_RETURN: M (R477). -/
def pointOfNoReturn (c : Chip) : Chip :=
  match c.dev.power.target with
  | none => c
  | some t =>
    if c.dev.power.step ≠ 2 ∨ t.stops = false then c
    else
      let keep := decide (c.par Par.pwrNetKeep = 1) && decide (t ≠ .off)
      let ls := c.authLanes
      let c := ls.foldl Chip.handOver c
      let c := ls.foldl (fun c l => (c.modLane l (fun n => n.powerDown (decide (t = .glide)) keep)).modBridge l (fun b => { b with closing := true })) c
      let c := c.modPintle (fun p => { p with pads := true, drive := false })
      let c := c.modDev (fun d => { d with
        power := { d.power with state := t, left := d.power.state, step := 3 }
        aset := 0, sampled := 0, computed := false, replies := [], pdus := [], openPdus := [], locked := false })
      if t = .glide then c else c.modDev Dev.asleep

def execPointOfNoReturn (s : State) : Out := .next (s.onChip pointOfNoReturn)

/-- A lane that the low-power state has switched off. -/
def Chip.laneOff (c : Chip) (l : LaneId) : Bool := c.sleeping && (c.lane l).boot.powerGood && !(c.lane l).power.core

/-- A latched wake begins in a lane once the entry is complete: its record is written, HLINK is on, and from SLEEP or OFF it boots
(R480, R483, R484). The time spent in the state comes from the low-power timer. -/
def State.wakeLane (s : State) (l : LaneId) : State :=
  match (s.chip.lane l).power.wake with
  | none => s
  | some (src, inst) =>
    if !s.chip.laneOff l || s.chip.dev.power.target.isSome || (s.chip.lane l).power.waking then s
    else
      let glide := decide (s.chip.dev.power.state = .glide)
      let (t, c) := s.chip.draw
      let record : WakeRecord := { src := src, inst := inst, left := c.dev.power.state.code, entered := c.parN Par.pwrWakeState,
                                   cycles := (c.lane l).power.cycles, time := t % 2 ^ 64 }
      let c := c.modLane l (fun n => { n with power := { n.power with wake := none, waking := glide, record := record } })
      let s : State := { s with chip := c }
      let s := if glide then s else s.rebootLane l
      s.onChip (fun c => c.modBridge l (fun b => { b with hlinkOn := true, waking := true, silent := true, closing := false }))

/-- A wake source latched in a lane that watches it; the first one is kept (R478, R479). -/
def State.wakeBy (s : State) (l : LaneId) (src inst : Nat) : State := (s.onChip (fun c => c.latchWake l src inst)).wakeLane l

/-- HLINK_OFF: the host link of a lane goes off; with the last one the entry is complete, and a wake latched meanwhile begins (R477,
R478). -/
def hlinkOff (l : LaneId) (s : State) : State :=
  if s.chip.dev.power.step ≠ 3 ∨ s.chip.laneOff l = false then s
  else
    let s := s.onChip (fun c => c.modBridge l (fun b => { b with hlinkOn := false, queue := [], rx := [], closing := false, silent := true }))
    if LaneId.all.any (fun k => s.chip.laneOff k && (s.chip.bridges.get k).hlinkOn) then s
    else LaneId.all.foldl State.wakeLane (s.onChip Chip.endPower)

def execHlinkOff (l : LaneId) (s : State) : Out := .next (hlinkOff l s)

/-! ### Host frames that wake (R48, R478, R479) -/

/-- READ_FRAME, and the wake that its address match begins. -/
def execReadFrame (l : LaneId) (address : Byte) (nbytes : Nat) (s : State) : Out :=
  .next ((s.onChip (readFrame l address nbytes)).wakeLane l)

/-- WRITE_FRAME, and the wake that its address match begins. -/
def execWriteFrame (l : LaneId) (bytes : List Byte) (s : State) : Out := .next ((s.onChip (writeFrame l bytes)).wakeLane l)

/-! ### Wake sources (R479, R480, R482) -/

/-- The low-power state whose wake sources a lane watches: the present one, or the one being entered once step 1 has passed
(R478). -/
def Chip.watchState (c : Chip) : PowerState :=
  match c.dev.power.target with
  | some t => if t.stops then t else c.dev.power.state
  | none => c.dev.power.state

/-- Whether a source wakes the lane, with its code and instance (R479). -/
def Chip.wakeCode (c : Chip) (l : LaneId) (w : WakeSource) : Option (Nat × Nat) :=
  let st := c.watchState
  let mine := c.laneOff l || (c.inAuth l && c.dev.power.target.isSome)
  match w with
  | .power => if st.stops && mine then some (1, 0) else none
  | .spi => if c.laneOff l then some (2, l.idx) else none
  | .si n => if st = .sleep ∧ mine = true ∧ (c.parN Par.pwrGlideSi).testBit n.val = true ∧ c.par Par.sioSiSrc n.val = 0 then some (3, n.val) else none
  | .line p => if (st = .glide ∨ st = .sleep) ∧ mine = true ∧ c.par Par.pwrLineWake = 1 ∧ c.par Par.pwrNetKeep = 0 then some (7, p.val) else none

/-- WAKE_EVENT (R479). -/
def wakeEvent (l : LaneId) (w : WakeSource) (s : State) : State :=
  match s.chip.wakeCode l w with
  | some (src, inst) => s.wakeBy l src inst
  | none => s

def execWakeEvent (l : LaneId) (w : WakeSource) (s : State) : Out := .next (wakeEvent l w s)

/-- WAKE_LINE: a wake line from another lane that has a wake (R480). -/
def wakeLine (l src : LaneId) (s : State) : State :=
  let c := s.chip
  let p := (c.lane src).power
  if l ≠ src ∧ c.laneOff l = true ∧ (p.wake.isSome = true ∨ p.waking = true ∨ (c.bridges.get src).waking = true) then s.wakeBy l 8 src.idx else s

def execWakeLine (l src : LaneId) (s : State) : Out := .next (wakeLine l src s)

/-- WAKE_TIMER_EXPIRY: PWR.WAKE_TIMER has elapsed in GLIDE or SLEEP (R479). -/
def wakeTimerExpiry (l : LaneId) (s : State) : State :=
  let c := s.chip
  if c.laneOff l = true ∧ (c.dev.power.state = .glide ∨ c.dev.power.state = .sleep) ∧ c.par Par.pwrWakeTimer ≠ 0 then s.wakeBy l 6 0 else s

def execWakeTimerExpiry (l : LaneId) (s : State) : Out := .next (wakeTimerExpiry l s)

/-- The first difference of a Glide sample, inputs before windows before channels (R482). -/
def Chip.glideDiff (c : Chip) (l : LaneId) (si : Mask) (adc fb : List Nat) : Option (Nat × Nat) :=
  let p := (c.lane l).power
  match (List.range 8).find? (fun n => (c.parN Par.pwrGlideSi).testBit n && hasBit si n != hasBit p.glideSi n) with
  | some n => some (3, n)
  | none =>
    match (List.range 4).find? (fun k => decide (c.parN Par.pwrGlideAdc k < 16) &&
        !decide (c.parN Par.pwrGlideLo k ≤ nth adc k 0 ∧ nth adc k 0 ≤ c.parN Par.pwrGlideHi k)) with
    | some k => some (4, k)
    | none =>
      match p.glideFb with
      | none => none
      | some old => ((List.range 8).find? (fun n => (c.parN Par.pwrGlideFb).testBit n && decide (nth fb n 0 ≠ nth old n 0))).map (fun n => (5, n))

/-- The levels that a Glide sample gives from its readings at 20, 30 and 40 µs: the first two must agree on the watched inputs, or the
third counts (R482). -/
def Chip.glideLevels (c : Chip) (si : List Mask) : Mask :=
  let watched : Mask := BitVec.ofNat 8 (c.parN Par.pwrGlideSi)
  if nth si 0 0 &&& watched = nth si 1 0 &&& watched then nth si 1 0 else nth si 2 0

/-- GLIDE_CYCLE: one sample compared; `si` holds the readings of the inputs, `adc` the code of each window's input, `fb` the A, B and Z
states of each channel (R482). -/
def glideCycle (l : LaneId) (si : List Mask) (adc fb : List Nat) (s : State) : State :=
  let c := s.chip
  if c.laneOff l = true ∧ c.dev.power.state = .glide ∧ c.dev.power.target = none ∧ (c.lane l).power.waking = false then
    let d := c.glideDiff l (c.glideLevels si) adc fb
    let s := s.onChip (fun c => c.modLane l (fun n => { n with power := { n.power with cycles := satInc (2 ^ 32 - 1) n.power.cycles, glideFb := some fb } }))
    match d with
    | some (src, inst) => s.wakeBy l src inst
    | none => s
  else s

def execGlideCycle (l : LaneId) (si : List Mask) (adc fb : List Nat) (s : State) : Out := .next (glideCycle l si adc fb s)

/-! ### Waking from GLIDE (R483) -/

/-- The device resumes when every lane in authority is up: the wake state is entered, and WAKE_DONE raised (R483). -/
def Chip.resume (c : Chip) : Chip :=
  if c.dev.power.state = .glide ∧ c.authLanes ≠ [] ∧ c.authLanes.all (fun l => (c.lane l).power.core) = true then
    let run := decide (c.par Par.pwrWakeState = 0)
    let c := c.modDev (fun d => { d with
      power := { state := if run then .run else .idle, left := .glide }, cycle := 0, computed := false, decided := false, voted := false, launched := false })
    let c := c.driveTo run
    let c := if run then c.dueTests c.authLanes true else c
    c.authLanes.foldl (fun c l => (c.modBridge l (fun b => { b with waking := false, silent := false, cls := c.classNow })).raiseEdge l 6) c
  else c

/-- WAKE_DONE: a lane that left GLIDE is up again, its timebase running from an open value (R483). -/
def wakeDone (l : LaneId) (c : Chip) : Chip :=
  if c.laneOff l && (c.lane l).power.waking && decide (c.dev.power.state = .glide) then
    let (t, c) := c.draw
    let c := c.modLane l (fun n => { n with
      power := { n.power with core := true, mem := 2, net := true, waking := false }
      clock := { running := true, nt := t % 2 ^ 64 }, round := {}, chk := { n.chk with resync := 0, resyncPend := false } })
    c.resume
  else c

def execWakeDone (l : LaneId) (s : State) : Out := .next (s.onChip (wakeDone l))

/-- The retained state of a lane fails its check at the wake: it boots, records 0x3201 and joins late; the others resume without it
(R483). -/
def State.retainFails (s : State) (l : LaneId) : State :=
  let c := s.chip
  if c.laneOff l && (c.lane l).power.waking && decide (c.dev.power.state = .glide) then
    let s := s.onChip (fun c => c.modLane l (fun n => { n with power := { n.power with waking := false } }))
    let s := s.rebootLane l
    s.onChip (fun c =>
      let c := (c.localFault l 0x3201 0x01 l.idx l.idx).modBridge l (fun b => { b with waking := true })
      let c := c.modDev (fun d => { d with authority := setLaneBit d.authority l false, joined := setLaneBit d.joined l false })
      if c.authLanes = [] then c.modDev Dev.asleep else c.setClass.resume)
  else s

/-- DOMAIN_GOOD_TIMEOUT: a domain just switched on is not good within 1 ms, and its lane is fenced (R470). -/
def domainGoodTimeout (l : LaneId) (c : Chip) : Chip :=
  if (c.dev.power.target = some .run ∧ c.dev.power.step = 2 ∧ c.inAuth l = true) ∨ (c.bridges.get l).waking = true then
    let c := (c.modLane l (fun n => { n with power := { n.power with waking := false } })).selfFence l 0x3203 0x01 l.idx
    if c.sleeping ∧ c.inAuth l = true then
      let c := c.modDev (fun d => { d with authority := setLaneBit d.authority l false, joined := setLaneBit d.joined l false })
      c.setClass.resume
    else c
  else c

def execDomainGoodTimeout (l : LaneId) (s : State) : Out := .next (s.onChip (domainGoodTimeout l))

/-! ### Operations (R481, R484) -/

def attrPadsRelease : OpAttr := { code := 0x3211 }

def effectPadsRelease (_ : Req) (s : State) : OpOut :=
  OpOut.chip s (fun c => (c.authLanes.foldl (fun c l => c.modLane l (fun n => { n with power := { n.power with pads := false } })) c).modPintle
    (fun p => { p with pads := false }))

/-- PWR.PADS_RELEASE (R481). -/
def execPadsRelease (r : Req) (s : State) : Out := .next (runOp attrPadsRelease checksNone effectPadsRelease r s)

def attrWakeSourceRead : OpAttr := { code := 0x3212, laneLocal := true, read := true, row := .always }

/-- The quad of a wake record (R484). -/
def WakeRecord.quad (w : WakeRecord) : List Byte :=
  toLe 1 w.src ++ toLe 1 w.inst ++ toLe 1 w.left ++ toLe 1 w.entered ++ toLe 4 w.cycles ++ toLe 8 w.time

def effectWakeSourceRead (r : Req) (s : State) : OpOut := OpOut.same s (r.lanes.flatMap (fun l => (s.chip.lane l).power.record.quad))

/-- PWR.WAKE_SOURCE_READ (R484). -/
def execWakeSourceRead (r : Req) (s : State) : Out := .next (runOp attrWakeSourceRead checksNone effectWakeSourceRead r s)

end Sys2Proof.Machine
end

