-- ==== Sys2Proof/Machine/Thermal.lean ====
section
/-! DEFINITION. Thermal management (chapter 20): broken sensors, bands, derating factors, the fence of a lane in T5, and THM.READ. -/

namespace Sys2Proof.Machine

open Sys2Proof

/-! ### Readings (R487) -/

/-- A reading lies outside −55.0 °C to +175.0 °C. -/
def outOfScale (x : Int) : Bool := decide (x < -550 ∨ 1750 < x)

/-- A reading of a die's three is broken: out of scale, or far from both others while those two agree (R487). -/
def dieBroken (tol : Int) (xs : List Int) (k : Nat) : Bool :=
  let x := nth xs k 0
  let y := nth xs ((k + 1) % 3) 0
  let z := nth xs ((k + 2) % 3) 0
  outOfScale x || (decide (10 * tol < dist x y ∧ 10 * tol < dist x z) && decide (dist y z ≤ 10 * tol))

/-- The agreed readings of a lane: three of its die and two NTC inputs, in 0.1 °C. -/
def Chip.laneTemps (c : Chip) (l : LaneId) : List Int := (c.dev.agreed.temps.get l).map (·.v)

/-- The present reading of a lane's sensor 0 to 4 is broken. -/
def Chip.tempBroken (c : Chip) (l : LaneId) (k : Nat) : Bool :=
  let xs := c.laneTemps l
  if k < 3 then dieBroken (c.par Par.thmSensorTol) xs k else outOfScale (nth xs k 0)

/-- A lane's sensor counts as broken: its reading is, or it is fenced (R487). -/
def Chip.tempBad (c : Chip) (l : LaneId) (k : Nat) : Bool := c.unitFenced l 0x18 k || c.tempBroken l k

/-- The present reading of P0, P1 or P2 is broken. -/
def Chip.partBroken (c : Chip) (k : Nat) : Bool := dieBroken (c.par Par.thmSensorTol) c.dev.agreed.psn.temps k

/-- A Pintle sensor counts as broken. -/
def Chip.partBad (c : Chip) (k : Nat) : Bool := hasBit c.dev.thermal.pintleFenced k || c.partBroken k

/-- One period of a lane's sensor: 0x3301 for a broken reading, and the fence at THM.BROKEN_COUNT (R487). -/
def Chip.senseLane (c : Chip) (l : LaneId) (k : Nat) : Chip :=
  if c.unitFenced l 0x18 k then c
  else if c.tempBroken l k then
    let n := nth (c.lane l).sensorBad k 0 + 1
    let c := (c.agreedFault 0x3301 0x18 k l.idx).modLane l (fun x => { x with sensorBad := setNth x.sensorBad k (min 255 n) })
    if c.parN Par.thmBrokenCount ≤ n then (c.setUnitFence l 0x18 k true).agreedFault 0x3302 0x18 k l.idx else c
  else c.modLane l (fun x => { x with sensorBad := setNth x.sensorBad k 0 })

/-- One period of a Pintle sensor (R487). -/
def Chip.sensePart (c : Chip) (k : Nat) : Chip :=
  if hasBit c.dev.thermal.pintleFenced k then c
  else if c.partBroken k then
    let n := nth c.dev.thermal.pintleBad k 0 + 1
    let c := (c.agreedFault 0x3301 0x18 k 3).modDev (fun d => { d with thermal := { d.thermal with pintleBad := setNth d.thermal.pintleBad k (min 255 n) } })
    if c.parN Par.thmBrokenCount ≤ n then
      (c.modDev (fun d => { d with thermal := { d.thermal with pintleFenced := setBit d.thermal.pintleFenced k true } })).agreedFault 0x3302 0x18 k 3
    else c
  else c.modDev (fun d => { d with thermal := { d.thermal with pintleBad := setNth d.thermal.pintleBad k 0 } })

/-! ### Bands (R488) -/

/-- The band of a reading. -/
def bandOf (x : Int) : Nat :=
  if x < -200 then 0 else if x < 400 then 1 else if x < 900 then 2 else if x < 1250 then 3 else if x < 1500 then 4 else 5

/-- The lower boundary of a band. -/
def bandLow : Nat → Int
  | 1 => -200 | 2 => 400 | 3 => 900 | 4 => 1250 | 5 => 1500 | _ => -10000

/-- The next band from the present one and the hottest reading, with the hysteresis in °C. -/
def bandNext (hyst : Int) (now : Nat) (x : Int) : Nat :=
  if now < bandOf x then bandOf x else if x < bandLow now - 10 * hyst then now - 1 else now

/-- The greatest of a list of readings, none of an empty one. -/
def hottest : List Int → Option Int
  | [] => none
  | x :: xs => match hottest xs with | none => some x | some y => some (max x y)

/-- The readings of a lane die that are not broken. -/
def Chip.dieGood (c : Chip) (l : LaneId) : List Int :=
  (List.range 3).filterMap (fun k => if c.tempBad l k then none else some (nth (c.laneTemps l) k 0))

/-- The readings of the Pintle die that are not broken. -/
def Chip.pintleGood (c : Chip) : List Int :=
  (List.range 3).filterMap (fun k => if c.partBad k then none else some (nth c.dev.agreed.psn.temps k 0))

/-- The band of a die of three sensors after a period. -/
def dieBand (hyst : Int) (now : Nat) (good : List Int) : Nat :=
  match hottest good with
  | none => 5
  | some x => if good.length < 3 then max 4 (bandNext hyst now x) else bandNext hyst now x

/-- The number of a lane die's hottest sensor that is not broken. -/
def Chip.hotSensor (c : Chip) (l : LaneId) : Nat :=
  (((List.range 3).find? (fun k => !c.tempBad l k && decide (some (nth (c.laneTemps l) k 0) = hottest (c.dieGood l)))).getD 0)

/-- The number of the Pintle die's hottest sensor. -/
def Chip.hotPart (c : Chip) : Nat :=
  (((List.range 3).find? (fun k => !c.partBad k && decide (some (nth c.dev.agreed.psn.temps k 0) = hottest c.pintleGood))).getD 0)

/-- The band of the Pintle die: the highest of its parts, T5 with every sensor broken (R488). -/
def Chip.pintleBand (c : Chip) : Nat :=
  if c.pintleGood = [] then 5 else c.dev.thermal.part.toList.foldl max 0

/-! ### Factors (R491) -/

/-- The factor that falls linearly from 100 % at one reading to the minimum at another. -/
def fallFactor (lowest start stop x : Int) : Nat :=
  (if x < start then 100 else if stop ≤ x then lowest else lowest + quo ((100 - lowest) * (stop - x)) (stop - start)).toNat

/-- The derating factor of a die. -/
def dieFactor (lowest : Int) (band : Nat) (good : List Int) : Nat :=
  match hottest good with
  | none => lowest.toNat
  | some x => if band = 5 then lowest.toNat else fallFactor lowest 1250 1500 (if good.length < 3 then max 1375 x else x)

/-- The factor of an NTC input of a lane. -/
def Chip.ntcFactor (c : Chip) (l : LaneId) (i : Nat) : Nat :=
  if c.parN Par.thmNtcBridge i = 0xFF then 100
  else if c.tempBad l (3 + i) then c.parN Par.thmDerateMin
  else fallFactor (c.par Par.thmDerateMin) (c.par Par.thmNtcStart i) (c.par Par.thmNtcEnd i) (nth (c.laneTemps l) (3 + i) 0)

/-! ### The period (R487 to R492) -/

/-- The bands and factors of one lane die. -/
def Chip.bandLane (c : Chip) (l : LaneId) : Chip :=
  let old := c.dev.thermal.lane.get l
  let good := c.dieGood l
  let b := dieBand (c.par Par.thmHyst) old good
  let f := dieFactor (c.par Par.thmDerateMin) b good
  let n := [c.ntcFactor l 0, c.ntcFactor l 1]
  let c := c.modDev (fun d => { d with thermal := { d.thermal with
    lane := d.thermal.lane.set l b, factor := d.thermal.factor.set l f, ntc := d.thermal.ntc.set l n } })
  if old < 4 ∧ 4 ≤ b then c.agreedFault 0x3306 0 (c.hotSensor l) l.idx else c

/-- The bands and the factor of the Pintle die. -/
def Chip.bandPintle (c : Chip) : Chip :=
  let old := c.pintleBand
  let part := c.dev.thermal.part.mapIdx (fun l b =>
    if c.partBad l.idx then 4 else bandNext (c.par Par.thmHyst) b (nth c.dev.agreed.psn.temps l.idx 0))
  let c := c.modDev (fun d => { d with thermal := { d.thermal with part := part } })
  let b := c.pintleBand
  let f := dieFactor (c.par Par.thmDerateMin) b c.pintleGood
  let was := c.dev.thermal.pintleT5
  let c := c.modDev (fun d => { d with thermal := { d.thermal with pintle := f, pintleT5 := decide (b = 5) } })
  let c := if old < 4 ∧ 4 ≤ b then c.agreedFault 0x3306 0 c.hotPart 3 else c
  if b = 5 ∧ was = false then c.agreedFault 0x3305 0 0 3 else c

/-- The lane with the lowest claim of a list. -/
def Chip.lowestClaim (c : Chip) : List LaneId → Option LaneId
  | [] => none
  | l :: r => match c.lowestClaim r with
    | none => some l
    | some m => if c.higher l m then some m else some l

/-- The rule of T5: one lane fenced while another in authority is cooler; else 0x3304 once for each entry (R492). -/
def Chip.hotLanes (c : Chip) : Chip :=
  let hot := c.authLanes.filter (fun l => decide (c.dev.thermal.lane.get l = 5))
  let cooler := c.authLanes.any (fun l => decide (c.dev.thermal.lane.get l < 5))
  let c := match c.lowestClaim hot, cooler with
    | some l, true => c.pendFence l 0x3303
    | _, _ => c
  let now (l : LaneId) : Bool := hot.contains l && !cooler
  let c := LaneId.all.foldl (fun c l => if now l && !c.dev.thermal.t5.get l then c.agreedFault 0x3304 0x01 l.idx l.idx else c) c
  c.modDev (fun d => { d with thermal := { d.thermal with t5 := d.thermal.t5.mapIdx (fun l _ => now l) } })

/-- The thermal work of a period, from the agreed vector: the lanes of the agreement set, then the Pintle die. -/
def Chip.thermalPeriod (c : Chip) : Chip :=
  let c := (lanesOf c.dev.aset).foldl (fun c l => ((List.range 5).foldl (fun c k => c.senseLane l k) c).bandLane l) c
  let c := if c.dev.agreed.psn.temps = [] then c else ((List.range 3).foldl Chip.sensePart c).bandPintle
  c.hotLanes

/-- The gate profile sets of the bands agreed, for the first PWM boundary of each output at or after the launch point (R227): a die in
T5 uses its T4 set. -/
def Chip.bandLaunch (c : Chip) (l : LaneId) : Chip :=
  let b := min 4 (c.dev.thermal.lane.get l)
  c.modLane l (fun n => { n with targets := n.targets.map (fun t => { t with bandNext := some (b, n.clock.nt) }) })

/-- The same of the Pintle die. -/
def Chip.bandPintleLaunch (c : Chip) : Chip :=
  let b := min 4 c.pintleBand
  c.modPintle (fun p => { p with targets := p.targets.map (fun t => { t with bandNext := some (b, 0) }) })

/-! ### THM.READ (R493) -/

/-- THM.READ as an operation of the index. DEDUCED (log 91): R459 accepts the operations that read, and the model takes THM.READ for
one though its name does not end in _READ. -/
def attrThmRead : OpAttr := { code := 0x3310, laneLocal := true, read := true, row := .always }

/-- A mask of those numbers below n that a test picks. -/
def maskWhere (n : Nat) (p : Nat → Bool) : Nat := (List.range n).foldl (fun m k => if p k then m + 2 ^ k else m) 0

/-- The two quads of one lane. -/
def Chip.thmQuads (c : Chip) (l : LaneId) : List Byte :=
  let th := c.dev.thermal
  (List.range 5).flatMap (fun k => toLeI 2 (nth (c.laneTemps l) k 0)) ++ toLe 1 (th.lane.get l) ++ toLe 1 (maskWhere 5 (c.tempBad l)) ++
    toLe 1 (min (c.bridgeFactor 0) (c.bridgeFactor 1)) ++ toLe 1 ((if 4 ≤ th.lane.get l then 1 else 0) + (if th.t5.get l then 2 else 0)) ++ toLe 2 0 ++
    (List.range 3).flatMap (fun k => toLeI 2 (nth c.dev.agreed.psn.temps k 0)) ++ toLe 1 c.pintleBand ++ toLe 1 (maskWhere 3 c.partBad) ++
    toLe 1 th.pintle ++ toLe 7 0

def effectThmRead (r : Req) (s : State) : OpOut := OpOut.same s (r.lanes.flatMap s.chip.thmQuads)

/-- THM.READ (R493). -/
def execThmRead (r : Req) (s : State) : Out := .next (runOp attrThmRead checksNone effectThmRead r s)

end Sys2Proof.Machine
end

