-- ==== Sys2Proof/Machine/Bist.lean ====
section
/-! DEFINITION. Self-test and repair (chapter 21): memory regions and their fences, spares and the repair log, stand-down, and the
violations of cores and self-test engines (R77). -/

namespace Sys2Proof.Machine

open Sys2Proof

/-! ### The repair log and its spares (R501, R502, R504, R505) -/

/-- The place of a failing cell that bytes 2 and 3 of an entry name: the SRAM bank, the NVM sector, and for a cache the way that the
report names (R501, R502). -/
def placeOf (x : FailCell) : Nat := if x.region < 16 then x.addr / 262144 else if x.region < 20 then x.bank else x.addr / 4096

/-- The memories that share spares: the SRAM, each cache, the NVM (R501). -/
def spareGroup (r : Nat) : Nat := if r < 16 then 0 else if r < 20 then r else 20

/-- Whether an entry of the log or of the fuses already covers a cell. -/
def RepairEntry.covers (e : RepairEntry) (x : FailCell) : Bool :=
  decide (spareGroup e.region = spareGroup x.region) &&
    (match e.kind with
    | 1 => decide (e.addr / 256 = x.addr / 256)
    | 2 => decide (e.bank = placeOf x ∧ e.bit = x.bit)
    | 3 => decide (e.region = x.region ∧ e.bank = placeOf x)
    | 4 => decide (e.bank = placeOf x)
    | _ => false)

/-- The first of n spares that no entry of the given ones uses. -/
def firstSpare (n : Nat) (es : List RepairEntry) : Option Nat := (List.range n).find? (fun i => !(es.any (fun e => e.spare == i)))

/-- The entries that use spares: those of the log and those of the fuses. -/
def Nvm.repairs (n : Nvm) : List RepairEntry := n.log ++ n.fuses

/-- The first free spare that covers a cell, with its kind (R501, R504): a column spare when the bank already holds two failing cells
in the same bit position. -/
def Nvm.spareFor (n : Nvm) (x : FailCell) : Option (Nat × Nat) :=
  let es := n.repairs
  let kind (k : Nat) : List RepairEntry := es.filter (fun e => decide (e.kind = k ∧ spareGroup e.region = spareGroup x.region))
  let row (k : Nat) : Option (Nat × Nat) := (firstSpare k ((kind 1).filter (fun e => decide (16 ≤ x.region ∨ e.bank = placeOf x)))).map (fun i => (1, i))
  if x.region < 16 then
    let col := (firstSpare 2 ((kind 2).filter (fun e => e.bank == placeOf x))).map (fun i => (2, i))
    if 2 ≤ ((kind 1).filter (fun e => decide (e.bank = placeOf x ∧ e.bit = x.bit))).length then col.or (row 8) else row 8
  else if x.region < 20 then (row 2).or (if kind 3 = [] then some (3, 0) else none)
  else (firstSpare 64 (kind 4)).map (fun i => (4, i))

/-- An entry put into the log of 255 entries: over a fused one when no slot is free (R502, R505). -/
def Nvm.addEntry (n : Nvm) (e : RepairEntry) : Option Nvm :=
  if n.log.length < 255 then some { n with log := n.log ++ [e] }
  else match n.log.find? (·.fused) with
    | some x => some { n with log := (n.log.erase x) ++ [e] }
    | none => none

/-! ### Fences of regions (R500, R505) -/

/-- What a fenced region that is not critical does in its lane at once (R500). -/
def Chip.regionStops (c : Chip) (l : LaneId) (r : Nat) : Chip :=
  if 4 ≤ r ∧ r < 12 then
    (List.range 8).foldl (fun c k =>
      let n := 8 * (r - 4) + k
      if (nth c.dev.loops n {}).fenced.get l then c else (c.localFault l 0x1403 0x08 n l.idx).ownFence l 0x08 n) c
  else if r = 13 then c.netPhase l .down
  else if r = 15 then
    c.modLane l (fun n => { n with
      fault := { n.fault with cap := 16 }, net := { n.net with host := [] }, fb := n.fb.map (fun x => { x with serial := [] }) })
  else c

/-- A readmitted lane that fails its self-test is fenced again, and its readmission with FENCED (R512); any other lane fences
itself. -/
def Chip.bistFence (c : Chip) (l : LaneId) (code t i : Nat) : Chip :=
  if (c.lane l).boot.readmitting then
    ((c.localFault l code t i l.idx).modLane l (fun n => { n with
      boot := { n.boot with fenced := true, fenceCode := code, readmitting := false }
      bist := { n.bist with phase := 0 } })).readmitResult l stFenced
  else (c.selfFence l code t i).modLane l (fun n => { n with bist := { n.bist with phase := 0 } })

/-- A region without a spare is fenced, with a kind 5 entry (R505). -/
def Chip.fenceRegion (c : Chip) (l : LaneId) (r foundBy : Nat) : Chip :=
  let log := (c.lane l).nvm
  let log := if log.log.any (fun e => decide (e.kind = 5 ∧ e.region = r)) then log
    else (log.addEntry { kind := 5, region := r, foundBy := foundBy }).getD log
  let c := c.modLane l (fun n => { n with nvm := log })
  if regionCritical r then c.bistFence l 0x3407 0x14 r
  else if (c.lane l).bist.regions.contains r then c
  else ((c.localFault l 0x3406 0x14 r l.idx).ownFence l 0x14 r).regionStops l r

/-- A repair candidate (R504, R505): the chip, and the action of R513, 0 repaired, 1 spare already in place, 2 region fenced. -/
def Chip.repairCell (c : Chip) (l : LaneId) (x : FailCell) (foundBy : Nat) : Chip × Nat :=
  let n := (c.lane l).nvm
  if n.repairs.any (fun e => e.covers x) then (c, 1)
  else
    let found := (n.spareFor x).bind (fun k => n.addEntry
      { kind := k.1, region := x.region, bank := placeOf x, addr := x.addr, bit := x.bit, foundBy := foundBy, spare := k.2 })
    match found with
    | some n' => ((c.modLane l (fun m => { m with nvm := n' })).localFault l 0x3404 0x14 x.region l.idx, 0)
    | none => (c.fenceRegion l x.region foundBy, 2)

/-! ### Errors in service (R77, R294, R445, R500, R504) -/

/-- A lane whose memories work: powered, and not halted. -/
def Chip.memUp (c : Chip) (l : LaneId) : Bool := c.runs l && (c.lane l).power.core

/-- The corrections of one quad counted. -/
def countEcc (es : List ((Nat × Nat) × Nat)) (k : Nat × Nat) : List ((Nat × Nat) × Nat) :=
  if es.any (fun e => e.1 == k) then es.map (fun e => if e.1 = k then (e.1, e.2 + 1) else e) else es ++ [(k, 1)]

/-- ECC_CORRECTION: 0x010B; the quad corrected BIST.ECC_REPEAT times since the boot becomes a candidate (R504). -/
def eccCorrection (l : LaneId) (region quad : Nat) (cell : FailCell) (c : Chip) : Chip :=
  if !(c.memUp l) then c
  else
    let c := c.localFault l 0x010B 0x14 region l.idx
    let c := c.modLane l (fun n => { n with bist := { n.bist with ecc := countEcc n.bist.ecc (region, quad) } })
    if (c.lane l).bist.ecc.any (fun e => decide (e = ((region, quad), c.parN Par.bistEccRepeat))) then
      (c.repairCell l { cell with region := region } 2).1
    else c

def execEccCorrection (l : LaneId) (region quad : Nat) (cell : FailCell) (s : State) : Out :=
  .next (s.onChip (eccCorrection l region quad cell))

/-- UNCORRECTABLE_ERROR: a critical region fences the lane with 0x010D; a region of loop contexts fences the context whose state was
hit, with 0x1403; any other region is fenced with 0x010C (R294, R445, R500). -/
def uncorrectableError (l : LaneId) (region : Nat) (ctx : Option (Fin 64)) (c : Chip) : Chip :=
  if !(c.memUp l) || (c.lane l).boot.fenced then c
  else if regionCritical region then c.selfFence l 0x010D 0x14 region
  else if 4 ≤ region ∧ region < 12 then
    match ctx with
    | some n =>
      if (nth c.dev.loops n.val {}).fenced.get l then c
      else (c.localFault l 0x1403 0x08 n.val l.idx).ownFence l 0x08 n.val
    | none => c.localFault l 0x010C 0x14 region l.idx
  else
    let c := c.localFault l 0x010C 0x14 region l.idx
    if (c.lane l).bist.regions.contains region then c else (c.ownFence l 0x14 region).regionStops l region

def execUncorrectableError (l : LaneId) (region : Nat) (ctx : Option (Fin 64)) (s : State) : Out :=
  .next (s.onChip (uncorrectableError l region ctx))

/-- CORE_ACCESS_VIOLATION: the lane is fenced with 0x010E (R77, R448). -/
def coreAccessViolation (l : LaneId) (c : Chip) : Chip := if c.memUp l then c.coreViolation l else c

def execCoreAccessViolation (l : LaneId) (s : State) : Out := .next (s.onChip (coreAccessViolation l))

/-- ENGINE_ACCESS_VIOLATION: 0x3409; the engine is frozen to the lane's next boot, and its stand-down suspended (R77, R515). -/
def engineAccessViolation (l : LaneId) (c : Chip) : Chip :=
  if !(c.memUp l) || (c.lane l).bist.frozen then c
  else (c.localFault l 0x3409 0x15 0 l.idx).ownFence l 0x15 0

def execEngineAccessViolation (l : LaneId) (s : State) : Out := .next (s.onChip (engineAccessViolation l))

/-- The NVM region of a sector (R88, R500). -/
def sectorRegion (sector : Nat) : Nat :=
  if sector < 384 then 20 else if sector < 768 then 21 else if sector < 832 then 22 else if sector < 896 then 23
  else if sector < 912 then 24 else if sector < 913 then 25 else if sector < 914 then 26 else 27

/-- NVM_VERIFY_FAIL: the sector is remapped at once (R504). -/
def nvmVerifyFail (l : LaneId) (sector : Nat) (c : Chip) : Chip :=
  if c.memUp l then (c.repairCell l { region := sectorRegion sector, bank := sector, addr := 4096 * sector } 3).1 else c

def execNvmVerifyFail (l : LaneId) (sector : Nat) (s : State) : Out := .next (s.onChip (nvmVerifyFail l sector))

/-! ### Results (R513) -/

/-- Row spares of the SRAM that are free: eight for each of 32 banks. -/
def Nvm.freeRows (n : Nvm) : Nat :=
  (List.range 32).foldl (fun t b =>
    t + ((List.range 8).filter (fun i => !(n.repairs.any (fun e => decide (e.kind = 1 ∧ e.region < 16 ∧ e.bank = b ∧ e.spare = i))))).length) 0

/-- Quad 0 of BIST.RESULT_READ. -/
def Chip.bistQuad (c : Chip) (l : LaneId) : List Byte :=
  let b := (c.lane l).bist
  toLe 1 b.outcome ++ toLe 1 b.lastPhase ++ toLe 1 (min 255 b.cells.length) ++ toLe 1 (min 255 (c.lane l).nvm.freeRows) ++
    toLe 4 b.completed ++ toLe 8 b.endNt

/-- One lane's section of BIST.RESULT_READ. -/
def Chip.bistResult (c : Chip) (l : LaneId) : List Byte :=
  let b := (c.lane l).bist
  c.bistQuad l ++ toLe 16 b.signature ++
    (b.cells.take 16).flatMap (fun e => toLe 4 e.1.addr ++ toLe 1 e.1.bit ++ toLe 1 e.1.region ++ toLe 1 e.2 ++ toLe 9 0)

def attrResultRead : OpAttr := { code := 0x3411, laneLocal := true, read := true, row := .always }

def checksResultRead (r : Req) (_ : Chip) : List Nat := payloadFails r.body 0

def effectResultRead (r : Req) (s : State) : OpOut := OpOut.same s (r.lanes.flatMap s.chip.bistResult)

/-- BIST.RESULT_READ (R513). -/
def execResultRead (r : Req) (s : State) : Out := .next (runOp attrResultRead checksResultRead effectResultRead r s)

/-! ### Stand-down (R507 to R511, R513) -/

/-- A lane is due: its interval has passed, a stand-down was aborted, or one was requested (R507, R511, R513). -/
def Chip.sdDue (c : Chip) (l : LaneId) : Bool :=
  let b := (c.lane l).bist
  let interval := 1000000000 * c.parN Par.bistInterval
  c.inAuth l && (b.requested || b.due || (decide (interval ≠ 0) && decide (interval ≤ b.elapsed) && c.commissioned))

/-- The conditions of R507 for one lane, in the agreed data of the present period. -/
def Chip.sdAllowed (c : Chip) (l : LaneId) : Bool :=
  decide (c.classNow = 0) && c.inAuth l && c.dev.standdown.isNone &&
    LaneId.all.all (fun k => decide ((c.lane k).chk.resync = 0) && !(c.lane k).chk.resyncPend) &&
    decide (c.dev.power.state = .run ∨ c.dev.power.state = .idle) && c.dev.power.target.isNone &&
    decide (c.dev.snow.step = 0) && c.dev.snow.pend.isNone && decide (c.dev.thermal.lane.get l < 4) &&
    !c.dev.cfg.busy && !c.dev.cfg.fwActivating && (c.dev.cfg.sched.isEmpty || c.inService l)

/-- The lane that stands down at the next boundary: the most overdue, the lower index of equals (R507). -/
def Chip.sdChoice (c : Chip) : Option LaneId :=
  bestOf (fun x y => decide ((c.lane y).bist.elapsed < (c.lane x).bist.elapsed)) (LaneId.all.filter (fun l => c.sdDue l && c.sdAllowed l))

/-- The last agreement before a matrix-cycle boundary decides a stand-down, before the claims of the period are computed: the lane's
own frames carry the leaving flag (R322, R507, R508). -/
def Chip.sdDecide (c : Chip) : Chip :=
  if c.dev.cycle = 64 ∧ c.dev.standdown = none ∧ c.dev.fencePend.isEmpty then
    match c.sdChoice with
    | none => c
    | some l =>
      (c.modDev (fun d => { d with sdNext := some l })).modNet l (fun n =>
        if n.phase = .service then
          { n with leaving := true, left := true, out := n.out.map (fun f => { f with bytes := frameFlagged f.bytes (bitMask 1) }) }
        else n)
  else c

/-- A stand-down that was decided does not start: the lane stays in its network. -/
def Chip.sdCancel (c : Chip) (l : LaneId) : Chip :=
  (c.modDev (fun d => { d with sdNext := none })).modNet l (fun n => { n with leaving := false, left := false })

/-- A stand-down begins at a matrix-cycle boundary: phase 1, isolation (R508, R509). -/
def Chip.sdStart (c : Chip) : Chip :=
  match c.dev.sdNext with
  | none => c
  | some l =>
    if !(c.inAuth l) || decide (c.classNow ≠ 0) || decide (c.dev.snow.step ≠ 0) then c.sdCancel l
    else
      let c := c.modDev (fun d => { d with standdown := some l, sdNext := none })
      let c := c.modLane l (fun n => { n with
        bist := { n.bist with
          phase := 1, lastPhase := 1, repeated := false, cells := [], outcome := 0, due := false, deferred := false
          elapsed := if n.bist.requested then 0 else n.bist.elapsed }
        round := {}, arriving := [] })
      ((c.modBridge l (fun b => { b with silent := true })).setRx l []).netPhase l .test

/-- The final reply of a stand-down that was requested (R513). -/
def Chip.sdReply (c : Chip) (l : LaneId) (status : Nat) : Chip :=
  (c.finishAll (fun p => p.opcode == 0x3410 && p.arg == l.idx) status (c.bistQuad l)).modLane l (fun n => { n with bist := { n.bist with requested := false } })

/-- The stand-down of a fenced lane is ended: the lane was fenced by it, or while it ran (R513). -/
def Chip.sdFenced (c : Chip) : Chip :=
  match c.dev.standdown with
  | none => c
  | some l =>
    if (c.lane l).boot.fenced then
      ((c.modDev (fun d => { d with standdown := none, sdAbort := false })).modLane l (fun n =>
        { n with bist := { n.bist with phase := 0, endNt := n.clock.nt } })).sdReply l stFenced
    else c

/-- A stand-down aborted at S: the engine stops and phase 4 begins; phases 4 and 5 continue (R511). -/
def Chip.sdAbortNow (c : Chip) : Chip :=
  let c := c.sdFenced
  match c.dev.standdown with
  | some l =>
    if c.dev.sdAbort = true ∧ (c.lane l).bist.outcome ≠ 3 then
      let c := c.modDev (fun d => { d with sdAbort := false })
      let c := c.modLane l (fun n => { n with bist := { n.bist with
        phase := if n.bist.phase < 4 then 4 else n.bist.phase, lastPhase := max 4 n.bist.lastPhase
        outcome := 3, due := true, endNt := n.clock.nt } })
      (c.agreedFault 0x3403 0x01 l.idx l.idx).sdReply l stDenied
    else c.modDev (fun d => { d with sdAbort := false })
  | none => c.modDev (fun d => { d with sdAbort := false })

/-- Phase 5 of a stand-down ends with step 6 of R157: 0x3401, and the final reply (R507, R508, R513). An aborted stand-down has
had its reply. -/
def Chip.sdComplete (c : Chip) (l : LaneId) : Chip :=
  if c.dev.standdown ≠ some l then c
  else
    let c := c.modDev (fun d => { d with standdown := none, sdAbort := false })
    if (c.lane l).bist.outcome = 3 then c.modLane l (fun n => { n with bist := { n.bist with phase := 0 } })
    else
      let c := c.modLane l (fun n => { n with bist := { n.bist with
        phase := 0, elapsed := 0, completed := (n.bist.completed + 1) % 2 ^ 32, endNt := n.clock.nt
        outcome := if n.bist.cells.any (fun e => e.2 == 2) then 5 else if n.bist.cells.any (fun e => e.2 == 0) then 2 else 1 } })
      (c.agreedFault 0x3401 0x01 l.idx l.idx).sdReply l stOk

/-- The time that a period in RUN or IDLE adds to the intervals (R507). -/
def Chip.sdElapse (c : Chip) : Chip :=
  if c.commissioned && decide (c.dev.power.state = .run ∨ c.dev.power.state = .idle) then
    c.modLanes (fun l n => if c.inAuth l then { n with bist := { n.bist with elapsed := n.bist.elapsed + c.period } } else n)
  else c

/-- Phase 2 begins at a period boundary once both signals of the interlock are true (R497, R508). -/
def Chip.sdPermit (c : Chip) : Chip :=
  match c.dev.standdown with
  | some l =>
    if (c.lane l).bist.phase = 1 ∧ (c.pintle.lanes.get l).permit = true ∧ roleField (c.dev.claims.nums.get l) = 0 then
      c.modLane l (fun n => { n with bist := { n.bist with phase := 2, lastPhase := 2 } })
    else c
  | none => c

/-- STANDDOWN_DEFER: a due lane has waited beyond BIST.MAX_DEFER (R507). -/
def standdownDefer (l : LaneId) (c : Chip) : Chip :=
  if c.sdDue l && decide (c.dev.standdown ≠ some l) && !(c.lane l).bist.deferred then
    (c.modLane l (fun n => { n with bist := { n.bist with deferred := true } })).agreedFault 0x3402 0x01 l.idx l.idx
  else c

def execStanddownDefer (l : LaneId) (s : State) : Out := .next (s.onChip (standdownDefer l))

/-- LOGIC_BIST_DONE: the signature judged; a first mismatch repeats the run, a second fences the lane (R498, R512). A run started
without both signals is refused and counted (R77, R497). -/
def logicBistDone (l : LaneId) (sigOk : Bool) (signature : Nat) (c : Chip) : Chip :=
  let b := (c.lane l).bist
  if !(c.memUp l) || b.frozen then c
  else if b.phase = 2 then
    let c := c.modLane l (fun n => { n with bist := { n.bist with signature := signature % 2 ^ 128 } })
    if sigOk then c.modLane l (fun n => { n with bist := { n.bist with phase := 3, lastPhase := 3 } })
    else if b.repeated then
      ((c.modLane l (fun n => { n with bist := { n.bist with outcome := 4 } })).bistFence l 0x3405 0x01 l.idx).sdFenced
    else c.modLane l (fun n => { n with bist := { n.bist with repeated := true } })
  else if b.phase = 1 ∨ c.inAuth l = true then
    (c.modLane l (fun n => { n with bist := { n.bist with refused := n.bist.refused + 1 } })).localFault l 0x340A 0x15 0 l.idx
  else c

def execLogicBistDone (l : LaneId) (sigOk : Bool) (signature : Nat) (s : State) : Out :=
  .next (s.onChip (logicBistDone l sigOk signature))

/-- The kind 5 entries of regions that memory BIST passes are cleared (R505). -/
def clearPassed (cells : List FailCell) (log : List RepairEntry) : List RepairEntry :=
  log.filter (fun e => decide (e.kind ≠ 5) || cells.any (fun x => x.region == e.region))

/-- One failing cell in a log that is written new: a spare, or a kind 5 entry of its region, with the fault that records it (R504,
R505); a critical region's fault is recorded when the log is applied. -/
def Nvm.noteCell (n : Nvm) (x : FailCell) : Nvm × Option Nat :=
  if n.repairs.any (fun e => e.covers x) then (n, none)
  else match (n.spareFor x).bind (fun k => n.addEntry
      { kind := k.1, region := x.region, bank := placeOf x, addr := x.addr, bit := x.bit, foundBy := 1, spare := k.2 }) with
    | some n' => (n', some 0x3404)
    | none =>
      if n.log.any (fun e => decide (e.kind = 5 ∧ e.region = x.region)) then (n, none)
      else ((n.addEntry { kind := 5, region := x.region, foundBy := 1 }).getD n, if regionCritical x.region then none else some 0x3406)

/-- A repair log that failed its check is written new from the fuses and the results of memory BIST, with fault 0x3408 (R503). -/
def Chip.rebuildLog (c : Chip) (l : LaneId) (cells : List FailCell) : Chip :=
  let c := (c.modLane l (fun n => { n with nvm := { n.nvm with log := n.nvm.fuses, logOk := true } })).localFault l 0x3408 0x01 l.idx l.idx
  cells.foldl (fun c x =>
    let (n', code) := (c.lane l).nvm.noteCell x
    let c := c.modLane l (fun n => { n with nvm := n' })
    match code with
    | some f => c.localFault l f 0x14 x.region l.idx
    | none => c) c

/-- A lane that runs step 1 of R103 with a repair log that failed its check: memory BIST runs in place of it (R503). -/
def Chip.rebuilds (c : Chip) (l : LaneId) : Bool :=
  let n := c.lane l
  n.boot.powerGood && n.power.core && !n.boot.fenced && !n.nvm.logOk &&
    decide ((n.boot.state = .booting ∧ n.bist.phase = 0) ∨ n.bist.phase = 4)

/-- MEMORY_BIST_DONE: failing cells repaired or their regions fenced (R499, R504, R505), or the repair log written new (R503). -/
def memoryBistDone (l : LaneId) (cells : List FailCell) (c : Chip) : Chip :=
  let b := (c.lane l).bist
  if c.rebuilds l then c.rebuildLog l cells
  else if !(c.memUp l) || b.frozen || decide (b.phase ≠ 3) then c
  else
    let c := c.modLane l (fun n => { n with nvm := { n.nvm with log := clearPassed cells n.nvm.log }, bist := { n.bist with cells := [] } })
    let c := cells.foldl (fun c x =>
      let (c, act) := c.repairCell l x 1
      c.modLane l (fun n => { n with bist := { n.bist with cells := n.bist.cells ++ [(x, act)] } })) c
    if (c.lane l).boot.fenced then (c.modLane l (fun n => { n with bist := { n.bist with outcome := 5 } })).sdFenced
    else if (c.lane l).boot.readmitting then c.modLane l (fun n => { n with bist := { n.bist with phase := 0 } })
    else c.modLane l (fun n => { n with bist := { n.bist with phase := 4, lastPhase := 4 } })

def execMemoryBistDone (l : LaneId) (cells : List FailCell) (s : State) : Out := .next (s.onChip (memoryBistDone l cells))

/-- What a lane under test keeps through its re-initialisation: its NVM and ring, its AON state, timebase, ports and the results of the
self-test (R496, R508). -/
def Lane.reinit (n : Lane) : Lane :=
  { n.rebooted.keepFences n with
    power := n.power
    net := { phase := .down, ports := n.net.ports.map (fun p => { p with fails := 0, exceeded := false }) }
    bist := { n.bist with frozen := false, ecc := [], repeated := false } }

/-- The lane that has finished phase 4 rejoins when it matches, and adopts first when it does not (R106, R108, R160, R508). -/
def Chip.sdRejoin (c : Chip) (l : LaneId) : Chip :=
  let c := c.modLane l (fun n => { n with boot := { n.boot with state := .ready } })
  let match' := match c.target l with
    | some t => (c.discOf l).same t
    | none => false
  if match' then (c.startRejoin l).modLane l (fun n => { n with bist := { n.bist with phase := 5, lastPhase := 5 } })
  else c.compareLane l

/-- REINIT_DONE: steps 1 to 3 of R103 with the repairs of R503, then the rejoin (R508). A lane without a valid bank stays fenced and
leaves authority (R41, R101). -/
def reinitDone (l : LaneId) (s : State) : State :=
  if s.chip.dev.standdown ≠ some l ∨ (s.chip.lane l).bist.phase ≠ 4 ∨ s.chip.memUp l = false ∨ (s.chip.lane l).nvm.logOk = false then s
  else
    let s := (s.onMem l LaneMem.cleared).onChip (fun c => (c.modLane l Lane.reinit).applyRepairs l)
    match s.chip.badRegion l with
    | some r => s.onChip (fun c => (c.bistFence l 0x3407 0x14 r).sdFenced)
    | none =>
      let n := (s.chip.lane l).nvm
      match bootBank n (s.mem.get l) (s.chip.lane l).bist.regions with
      | none => s.onChip (fun c => (c.fenceOne l 0x3103).setClass.linkRules.sdFenced)
      | some k => s.onChip (fun c =>
          let c := c.modLane l (fun n => { n with
            nvm := { n.nvm.setBank k (n.nvm.checked ((s.mem.get l).bank k) k) with booted := k }
            fault := { n.fault with writeIdx := ringIndex n.fault.ring, pass := ringPass n.fault.ring } })
          let c := if k ≠ n.marked then c.localFault l 0x3103 0x17 (2 + n.marked) l.idx else c
          (c.loadLane l).sdRejoin l)

def execReinitDone (l : LaneId) (s : State) : Out := .next (reinitDone l s)

def attrStanddownNow : OpAttr := { code := 0x3410, laneLocal := true, keyed := true, pend := true, right := some 2 }

/-- The lane of a mask that selects exactly one. -/
def oneLane (r : Req) : Option LaneId := match lanesOf r.mask with | [l] => some l | _ => none

def checksStanddownNow (r : Req) (c : Chip) : List Nat :=
  payloadFails r.body 0 ++
    (match oneLane r with
    | none => [stBadParam]
    | some l => if c.dev.standdown.isSome then [stBusy] else if c.sdAllowed l then [] else [stDenied])

def effectStanddownNow (r : Req) (s : State) : OpOut :=
  match oneLane r with
  | none => OpOut.same s
  | some l =>
    { st := s.onChip (fun c => (c.modLane l (fun n => { n with bist := { n.bist with requested := true } })).addPend 0x3410 r { arg := l.idx }),
      status := stPending }

/-- BIST.STANDDOWN_NOW: the lane is due at the next matrix-cycle boundary (R513). -/
def execStanddownNow (r : Req) (s : State) : Out := .next (runOp attrStanddownNow checksStanddownNow effectStanddownNow r s)

/-! ### Fuses (R506, R513) -/

def attrFuseRepair : OpAttr :=
  { code := 0x3412, laneLocal := true, anyLane := true, keyed := true, acc := .parked, pend := true, right := some 2 }

/-- The entries of the log that wait for a fuse (R506). -/
def Nvm.unfused (n : Nvm) : List RepairEntry := n.log.filter (fun e => !e.fused)

def checksFuseRepair (r : Req) (c : Chip) : List Nat :=
  payloadFails r.body 0 ++
    (match oneLane r with
    | none => [stBadParam]
    | some l => if c.dev.actuation = false ∧ (c.lane l).boot.fenced = true ∧ (c.lane l).boot.fenceCode = 0x010A then [] else [stDenied])

def effectFuseRepair (r : Req) (s : State) : OpOut :=
  match oneLane r with
  | none => OpOut.same s
  | some l =>
    { st := s.onChip (fun c => (c.modLane l (fun n => { n with bist := { n.bist with fusing := true } })).addPend 0x3412 r { arg := l.idx }),
      status := stPending }

/-- BIST.FUSE_REPAIR: the request goes to the fenced lane's AON (R506). -/
def execFuseRepair (r : Req) (s : State) : Out := .next (runOp attrFuseRepair checksFuseRepair effectFuseRepair r s)

/-- FUSE_REPAIR_DONE: the entries that were fused and verified, 0x340B, and the final reply (R506, R513). -/
def fuseRepairDone (l : LaneId) (failed : Nat) (c : Chip) : Chip :=
  if !(c.lane l).bist.fusing then c
  else
    let n := (c.lane l).nvm
    let tried := n.unfused.take (48 - n.fuses.length)
    let fused := tried.take (tried.length - failed)
    let n' := { n with
      log := n.log.map (fun e => if fused.contains e then { e with fused := true } else e)
      fuses := n.fuses ++ fused.map (fun e => { e with fused := true }) }
    let c := c.modLane l (fun m => { m with nvm := n', bist := { m.bist with fusing := false } })
    (c.agreedFault 0x340B 0x01 l.idx l.idx).finishAll (fun p => p.opcode == 0x3412 && p.arg == l.idx) stOk
      (toLe 1 fused.length ++ toLe 1 (48 - n'.fuses.length) ++ toLe 1 (tried.length - fused.length) ++ toLe 13 0)

def execFuseRepairDone (l : LaneId) (failed : Nat) (s : State) : Out := .next (s.onChip (fuseRepairDone l failed))

end Sys2Proof.Machine
end

