-- ==== Sys2Proof/Machine/Detect.lean ====
section
/-! DEFINITION. A lane's own detectors, the injection of faults, and the return of fenced units (R423, R428, R429, R440, R441, R445). -/

namespace Sys2Proof.Machine

open Sys2Proof

/-! ### Detections (R423, R428, R429) -/

/-- A fault detected in the Pintle die: reported to the lanes, its unit fenced in the die when its class asks for it (R17, R235, R445). -/
def Chip.pintleDetect (c : Chip) (code t i : Nat) : Chip :=
  let c := c.pintleFault code t i
  match faultClass code, t with
  | 3, _ => c.fencePintle
  | 2, 0x04 => c.setUnitFence .a 0x04 i true
  | 2, 0x05 => c.fencePintle
  | 2, 0x06 => c.modPOut i (fun x => { x with fenced := true, driven := {}, lastPassed := {}, gap := false })
  | _, _ => c

/-- The containment of a U-class fault of a lane's own detector: its unit stops in the lane at once and enters the lane status (R423,
R429). A lane, an Ocgal unit, a session and a host link have no fence of this kind. -/
def Chip.contain (c : Chip) (l : LaneId) (t i : Nat) : Chip :=
  match t with
  | 0x00 | 0x01 | 0x0C | 0x0D | 0x0E => c
  | 0x02 => (c.ownFence l 0x02 i).linkRules
  | 0x07 => c.modLane l (fun n => { n with
      fencedNow := if n.fencedNow.contains (0x07, i) then n.fencedNow else n.fencedNow ++ [(0x07, i)]
      engines := modNth n.engines i (fun e => e.halt .off) })
  | 0x0F =>
    let c := c.ownFence l 0x0F i
    if 2 ≤ ((c.lane l).cv.filter (fun u => u.fenced)).length then c.selfFence l 0x2303 0x01 l.idx else c
  | 0x14 => if regionCritical i then c.selfFence l 0x010D 0x14 i else (c.ownFence l 0x14 i).regionStops l i
  | _ => c.ownFence l t i

/-- A fault found by a lane's own detector (R423, R428, R429, R432). -/
def Chip.detect (c : Chip) (l : LaneId) (code t i die : Nat) : Chip :=
  if t = 0x04 ∨ t = 0x05 ∨ t = 0x06 then c.pintleDetect code t i
  else if faultClass code = 3 then (if (c.lane l).boot.fenced then c else c.selfFence l code t i)
  else
    let c := c.localFault l code t i die
    if faultClass code = 2 then c.contain l t i else c

/-- FAULT_DETECTED: a fault of a table of the spec, in a unit that exists; 0x3201 is the check of a lane's retained state at a wake. -/
def faultDetected (l : LaneId) (code t i die : Nat) (s : State) : State :=
  if !(codeDefined code && unitExists t i) || !(s.chip.runs l) then s
  else if code = 0x3201 then s.retainFails l
  else s.onChip (fun c => c.detect l code t i die)

def execFaultDetected (l : LaneId) (code t i die : Nat) (s : State) : Out := .next (faultDetected l code t i die s)

/-! ### FLT.INJECT (R445, R446) -/

/-- The first lane address of a memory region (R500). -/
def regionStart (r : Nat) : Nat :=
  match r with
  | 0 => 0 | 1 => 0x180000 | 2 => 0x200000 | 3 => 0x280000 | 12 => 0x2C8000 | 13 => 0x300000 | 14 => 0x500000 | 15 => 0x600000
  | 20 => 0 | 21 => 0x180000 | 22 => 0x300000 | 23 => 0x340000 | 24 => 0x380000 | 25 => 0x390000 | 26 => 0x391000 | 27 => 0x392000
  | r => if 4 ≤ r ∧ r < 12 then 0x2C0000 + 4096 * (r - 4) else 0

/-- The lowest enabled context of a region of loop contexts (R445). -/
def Chip.regionCtx (c : Chip) (r : Nat) : Option (Fin 64) :=
  ((List.finRange 64).find? (fun n => decide (8 * (r - 4) ≤ n.val ∧ n.val < 8 * (r - 4) + 8) && c.loopOn n.val))

/-- The leg named by a winding set or a claimed output: the first one of its power stage. -/
def Chip.unitLeg (l : LaneId) (t i : Nat) : Option Leg :=
  if t = 0x07 then (if h : 3 * i < 6 then some (.lane l ⟨3 * i, h⟩) else none)
  else
    let g := (targetLegs (outTarget i)).1
    if h : g < 30 then some (.pintle ⟨g, h⟩) else none

/-- Whether a unit suits a code of the table of mode 1 (R445). -/
def sourceFits (code t i : Nat) : Bool :=
  match code with
  | 0x010B => decide (t = 0x14)
  | 0x010C => decide (t = 0x14) && !(regionCritical i)
  | 0x010D => decide (t = 0x14) && regionCritical i
  | 0x0106 => decide (t = 0x02)
  | 0x0202 => decide (t = 0x04)
  | 0x1104 => decide (t = 0x07 ∨ t = 0x06)
  | 0x2301 => decide (t = 0x0F)
  | 0x2404 => decide (t = 0x11)
  | _ => false

/-- A fault raised at its source in one lane (R445). The TP ball is held by its pulse, and CV_INJECT by the next test. -/
def Chip.injectSource (c : Chip) (l : LaneId) (code t i : Nat) : Chip :=
  match code with
  | 0x010B => eccCorrection l i 0 { region := i, addr := regionStart i, bit := 128 } c
  | 0x010C => uncorrectableError l i (c.regionCtx i) c
  | 0x010D => uncorrectableError l i none c
  | 0x1104 => (match Chip.unitLeg l t i with | some g => grossTrip g c | none => c)
  | 0x2301 => c.modCv l i (fun u => { u with injectNext := true })
  | _ => c

/-- A fault raised at a source that the lanes share: a lane link, a Pintle replica (R445). -/
def Chip.injectShared (c : Chip) (code i : Nat) : Chip :=
  if h : i < 3 then
    (match code with
    | 0x0106 => linkTransferFailed ⟨i, h⟩ false c
    | 0x0202 => replicaDisagree ⟨i, h⟩ c
    | _ => c)
  else c

/-- The injections of a period that are made once, whatever the lanes: those of the Pintle die and of shared sources. -/
def Chip.injectOnce (c : Chip) : Chip :=
  c.dev.injections.foldl (fun c x =>
    let (code, mode, t, i, n, _) := x
    if n = 0 then c
    else if mode = 0 then (if t = 0x04 ∨ t = 0x05 ∨ t = 0x06 then c.pintleDetect code t i else c)
    else if code = 0x1104 ∧ t = 0x06 then c.injectSource .a code t i
    else c.injectShared code i) c

/-- The injections of a period in one lane at its S. -/
def Chip.injectLane (c : Chip) (l : LaneId) : Chip :=
  c.dev.injections.foldl (fun c x =>
    let (code, mode, t, i, n, m) := x
    if n = 0 || !(hasLane m l) then c
    else if mode = 0 then (if t = 0x04 ∨ t = 0x05 ∨ t = 0x06 then c else c.detect l code t i l.idx)
    else if code = 0x1104 ∧ t = 0x06 then c
    else c.injectSource l code t i) c

/-- The periods of the injections counted at the S that begins a period: a new one waits for it. -/
def Chip.injectCount (c : Chip) : Chip :=
  c.modDev (fun d => { d with injections := (d.injections.filter (fun x => decide (1 < x.2.2.2.2.1 ∨ 256 ≤ x.2.2.2.2.1))).map (fun x =>
    if 256 ≤ x.2.2.2.2.1 then (x.1, x.2.1, x.2.2.1, x.2.2.2.1, x.2.2.2.2.1 - 256, x.2.2.2.2.2)
    else (x.1, x.2.1, x.2.2.1, x.2.2.2.1, x.2.2.2.2.1 - 1, x.2.2.2.2.2)) })

def attrInject : OpAttr := { code := 0x0512, laneLocal := true, keyed := true, acc := .commissioning, right := some 2 }

def checksInject (r : Req) (_ : Chip) : List Nat :=
  let p := r.body
  let (code, mode, t, i) := (fld p 0 2, fld p 2 1, fld p 3 1, fld p 4 1)
  quadFails p 6 ++ (if codeDefined code && unitExists t i then [] else [stBadParam]) ++
    (if 1 < mode ∨ fld p 5 1 = 0 then [stRange] else []) ++ (if mode = 1 ∧ sourceFits code t i = false then [stBadParam] else [])

def effectInject (r : Req) (s : State) : OpOut :=
  let p := r.body
  OpOut.chip s (fun c =>
    let c := r.lanes.foldl (fun c l => c.localFault l 0x0505 (fld p 3 1) (fld p 4 1) l.idx) c
    c.modDev (fun d => { d with injections := d.injections ++ [(fld p 0 2, fld p 2 1, fld p 3 1, fld p 4 1, fld p 5 1 + 256, maskOf r.lanes)] }))

/-- FLT.INJECT: the injection periods are those whose sample instants follow (R445). -/
def execInject (r : Req) (s : State) : Out := .next (runOp attrInject checksInject effectInject r s)

/-! ### FLT.UNIT_UNFENCE (R440, R441) -/

/-- A unit counts as fenced in a selected lane: a sensor number stands for the Pintle die's sensor too. -/
def Chip.heldFenced (c : Chip) (l : LaneId) (t i : Nat) : Bool :=
  c.unitFenced l t i || (decide (t = 0x06) && (nth c.pintle.outs i {}).fenced) ||
    (decide (t = 0x18 ∧ i < 3) && hasBit c.dev.thermal.pintleFenced i)

/-- The condition of a unit's row in R440, in one lane. -/
def Chip.mayUnfence (c : Chip) (l : LaneId) (t i : Nat) : Bool :=
  match t with
  | 0x02 | 0x08 | 0x09 | 0x0A | 0x0B | 0x16 => true
  | 0x03 => (match LaneId.ofIdx i with | some k => decide ((c.pintle.lanes.get k).failedLines = []) | none => false)
  | 0x06 => c.stageReady l (outTarget i)
  | 0x07 => c.stageReady l i
  | 0x10 => hasBit (c.lane l).sio.siPassed i
  | 0x11 => hasBit (c.lane l).sio.tpPassed i
  | 0x12 => hasBit (c.lane l).sio.soPassed i
  | 0x13 => (c.lane l).sio.stagePassed
  | 0x18 =>
    (!(c.unitFenced l 0x18 i) || !(c.tempBroken l i)) && (!(hasBit c.dev.thermal.pintleFenced i) || !(c.partBroken i) || decide (3 ≤ i))
  | _ => false

def attrUnitUnfence : OpAttr :=
  { code := 0x0511, laneLocal := true, anyLane := true, keyed := true, acc := .parked, pend := true, right := some 2 }

def checksUnitUnfence (r : Req) (c : Chip) : List Nat :=
  let (t, i) := (fld r.body 0 1, fld r.body 1 1)
  let held := r.lanes.filter (fun l => c.heldFenced l t i)
  let typed := [0x02, 0x03, 0x06, 0x07, 0x08, 0x09, 0x0A, 0x0B, 0x10, 0x11, 0x12, 0x13, 0x16, 0x18].contains t
  quadFails r.body 2 ++ (if unitExists t i then [] else [stBadParam]) ++
    (if r.lanes.any (fun l => !(c.inAuth l)) then [stFenced] else []) ++
    (if !typed || !(held.all (fun l => c.mayUnfence l t i)) then [stDenied] else [])

def effectUnitUnfence (r : Req) (s : State) : OpOut :=
  let (t, i) := (fld r.body 0 1, fld r.body 1 1)
  let held := r.lanes.filter (fun l => s.chip.heldFenced l t i)
  if held = [] then OpOut.same s
  else
    { st := s.onChip (fun c => (c.modDev (fun d => { d with unfences := d.unfences ++ held.map (fun l => (l.idx, t, i)) })).addPend 0x0511 r {}),
      status := stPending }

/-- FLT.UNIT_UNFENCE: the unit returns at the next boundary (R441). -/
def execUnitUnfence (r : Req) (s : State) : Out := .next (runOp attrUnitUnfence checksUnitUnfence effectUnitUnfence r s)

/-- Counts toward the limits of a unit that returns start from zero (R441), and a loop context restarts in manual with its last
output (R296). -/
def Chip.freshUnit (c : Chip) (l : LaneId) (t i : Nat) : Chip :=
  let c := c.modDev (fun d => { d with outliers := d.outliers.filter (fun o => decide (o.1 ≠ (l.idx, t, i))) })
  let c := c.modLane l (fun n => { n with fencedNow := n.fencedNow.filter (fun u => u != (t, i)) })
  match t with
  | 0x02 => c.modLink i (fun x => { x with failedNow := false, failedLast := false })
  | 0x03 => (match LaneId.ofIdx i with | some k => c.modPLane k (fun p => { p with unheard := 0 }) | none => c)
  | 0x06 =>
    if i < 6 then c.modStep i (fun x => { x with lostCount := 0, coilBad := 0, lostBase := none })
    else c.modSet (i - 4) .a (fun w => { w with gatesOff := false, lossCase := 0, tries := 0, deviations := 0 })
  | 0x07 => c.modSet i l (fun w => { w with gatesOff := false, lossCase := 0, tries := 0, deviations := 0 })
  | 0x08 => c.modLoop i (fun x => { x with mode := .manual, manual := x.out, held := 0 })
  | 0x09 => c.modFb l i (fun x => { x with badRun := 0, indexBad := 0 })
  | 0x0B => c.modPort l i (fun p => { p with trained := false, fails := 0, exceeded := false, downAll := false })
  | 0x10 => c.modSio l (fun x => { x with siFails := setNth x.siFails i 0 })
  | 0x12 => c.modSio l (fun x => { x with
      offFails := setNth x.offFails i 0, highFails := setNth x.highFails i 0, lowFails := setNth x.lowFails i 0, openFails := setNth x.openFails i 0 })
  | 0x13 => c.modSio l (fun x => { x with enableFails := 0 })
  | 0x16 => c.modDev (fun d => { d with itemMiss := setNth d.itemMiss i 0 })
  | 0x18 =>
    (c.modLane l (fun n => { n with sensorBad := setNth n.sensorBad i 0 })).modDev (fun d => { d with
      thermal := { d.thermal with pintleFenced := setBit d.thermal.pintleFenced i false, pintleBad := setNth d.thermal.pintleBad i 0 } })
  | _ => c

/-- A port that returns restarts its link training (R440), a claimed output takes its commands again, and the units that every lane
shares are recorded once. -/
def Chip.takeUnfences (c : Chip) : Chip :=
  match c.dev.unfences with
  | [] => c
  | us =>
    let c := c.modDev (fun d => { d with unfences := [] })
    let c := us.foldl (fun c (u : Nat × Nat × Nat) =>
      match LaneId.ofIdx u.1 with
      | some l => (c.setUnitFence l u.2.1 u.2.2 false).freshUnit l u.2.1 u.2.2
      | none => c) c
    let shared (t : Nat) : Bool := [0x02, 0x03, 0x06, 0x16].contains t
    let rs := (us.map (fun u => (u.2.1, u.2.2, if shared u.2.1 then 0xFF else u.1))).eraseDups
    (rs.foldl (fun c u => c.agreedFault 0x0506 u.1 u.2.1 u.2.2) c).finishAll (fun p => p.opcode == 0x0511) stOk []

end Sys2Proof.Machine
end

