-- ==== Sys2Proof/Machine/Status.lean ====
section
/-! DEFINITION. BLOCK.STATUS_READ of every block, and the reads of timing and signatures (R75, R554). A block whose layout the spec does
not give answers with free bytes (log 22). -/

namespace Sys2Proof.Machine

open Sys2Proof

/-- A byte from its bits, bit 0 first. -/
def flagByte (bs : List Bool) : List Byte := toLe 1 (maskWhere bs.length (fun k => nth bs k false))

/-- One channel's quads of FBK.STATUS_READ (R191). -/
def Chip.fbkStatus (c : Chip) (l : LaneId) (k : Nat) : List Byte :=
  let x := nth (c.lane l).fb k {}
  let g := nth c.dev.agreed.fb k {}
  toLe 1 (c.parN Par.fbkMode k) ++ flagByte [x.fenced, g.substituted, g.plausBase.isSome, x.indexRef] ++ toLe 1 g.plausCount ++
    toLe 1 x.serial.length ++ toLeI 4 x.e ++ toLe 2 x.corrections ++ toLe 2 x.discards ++ toLeI 4 g.plausErr ++
    x.serial.flatMap (fun m => toLe 1 m.ident ++ toLe 1 m.form ++ toLe 2 0 ++ toLe 4 m.data ++ toLe 8 m.nt)

/-- The state code of a bridge (R222). -/
def CmtState.code : CmtState → Nat
  | .disabled => 0 | .tracking => 1 | .aligning => 2 | .switching => 3 | .freewheel => 4 | .short => 5 | .fenced => 6

/-- One bridge's quad of CMT.STATUS_READ in a lane (R222). -/
def Chip.cmtStatus (c : Chip) (l : LaneId) (k : Nat) : List Byte :=
  let m := nth c.dev.motors k {}
  let w := if k < 2 then m.sets.get l else m.sets.get .a
  let e := nth (c.lane l).engines k {}
  let state := if (if k < 2 then c.setFenced k l else c.bridgeFenced k) then 6 else m.state.code
  toLe 1 state ++ toLe 1 w.source ++ flagByte [e.vlim, decide (w.id < 0), w.ilim, m.ovlNow, c.referenced k, m.trackValid] ++
    toLe 1 w.tries ++ toLeI 4 m.speed ++ toLeI 2 (quo e.iq 10) ++ toLeI 2 (quo e.id 10) ++ toLe 2 m.theta ++ toLe 2 (m.ovlUsed / 1000)

/-- One target's quad of GDR.STATUS_READ for a lane (R249). -/
def Chip.gdrStatus (c : Chip) (l : LaneId) (t : Nat) : List Byte :=
  let x := c.targetAt l t
  let (lo, n) := targetLegs t
  let lines := if t < 2 then 0 else maskWhere n (fun j => (c.pintle.lanes.get l).failedLines.contains (lo + j))
  toLe 1 t ++ toLe 1 (c.latchMask l t).toNat ++ toLe 1 x.band ++ toLe 1 lines ++ toLe 4 x.waits ++ toLe 2 x.shorts ++
    toLe 2 x.deviating ++ toLe 1 x.result ++ toLe 3 0

/-- The state code of a stepper channel (R274). -/
def Chip.stpState (c : Chip) (k : Nat) : Nat :=
  let x := nth c.dev.steppers k {}
  if c.pintle.holding then 6
  else if x.fenced || (nth c.pintle.outs k {}).fenced then 5
  else if !x.energised then 0
  else match x.phase with
    | .homing => 1 | .standing => 2 | .moving => 3 | .stopping => 4

/-- One channel's quad of STP.STATUS_READ (R274). -/
def Chip.stpStatus (c : Chip) (k : Nat) : List Byte :=
  let x := nth c.dev.steppers k {}
  let place := decide (x.phase = .standing) && decide (wholeStep x.x = x.target)
  toLe 1 k ++ toLe 1 (c.stpState k) ++ flagByte [x.homed, x.strong, place, x.stall, decide (c.stpTable k ≠ []), x.lastBad] ++ toLe 1 0 ++
    toLeI 4 (wholeStep x.x) ++ toLeI 4 x.v ++ toLeI 2 (nth c.dev.agreed.psn.coils (2 * k) 0) ++ toLeI 2 (nth c.dev.agreed.psn.coils (2 * k + 1) 0)

/-- The mode code of a context (R285). -/
def LoopMode.code : LoopMode → Nat
  | .disabled => 0 | .manual => 1 | .auto => 2 | .tracking => 3 | .stopped => 4 | .fenced => 5

/-- One context's quad of LOOP.STATUS_READ in a lane (R298). -/
def Chip.loopStatus (c : Chip) (l : LaneId) (n : Nat) : List Byte :=
  let x := nth c.dev.loops n {}
  let timed := c.dev.launches.any (fun q => decide (q.kind = 8 ∨ q.kind = 9) && decide (fld q.args 0 1 = n))
  toLe 1 n ++ toLe 1 x.mode.code ++ flagByte [x.hi, x.lo, x.inhibited, x.isHeld, x.badSrc, x.pvSat, x.fenced.get l, timed] ++ toLe 1 x.held ++
    toLeI 4 x.sp ++ toLeI 4 x.pv ++ toLeI 4 x.out

/-- One lane's quads of CRC.STATUS_READ (R402). -/
def Chip.crcStatus (c : Chip) (l : LaneId) : List Byte :=
  (List.range 4).flatMap (fun k =>
    let u := c.cvUnit l k
    toLe 1 k ++ toLe 1 u.statusByte ++ toLe 1 (cvOwner u.cfg) ++ toLe 1 (u.carrier k) ++ toLe 4 u.run ++ toLe 2 u.failed ++ toLe 2 u.abandoned ++
      toLe 4 0)

/-- One lane's quad of FLT.STATUS_READ (R438). -/
def Chip.fltStatus (c : Chip) (l : LaneId) : List Byte :=
  let q := (c.lane l).fault
  toLe 2 q.writeIdx ++ toLe 1 (if q.pass then 1 else 0) ++ toLe 1 q.queue.length ++ toLe 4 q.formed ++ toLe 2 q.dropped ++
    toLe 2 q.opened.length ++ toLe 4 0

/-- A lane's section of a block's status, none for a block whose layout the spec does not give. -/
def Chip.blockStatus (c : Chip) (blk : Block) (l : LaneId) : Option (List Byte) :=
  match blk with
  | .fbk => some ((List.range 8).flatMap (c.fbkStatus l))
  | .cmt => some ((List.range 4).flatMap (c.cmtStatus l))
  | .gdr => some ((List.range 10).flatMap (c.gdrStatus l))
  | .stp => some ((List.range 6).flatMap c.stpStatus)
  | .loop => some ((List.range 64).flatMap (c.loopStatus l))
  | .net => some (c.netStatus l)
  | .time => some (c.timeStatus l)
  | .key => some (c.keyStatus l)
  | .crc => some (c.crcStatus l)
  | .sio => some (c.sioStatus l)
  | .flt => some (c.fltStatus l)
  | .snp => some c.snpStatus
  | .sys | .lane | .auth | .per | .chk | .host | .cfg | .pwr | .thm | .bist => none

/-- Whether the spec gives a block's status its layout. -/
def Block.laidOut : Block → Bool
  | .fbk | .cmt | .gdr | .stp | .loop | .net | .time | .key | .crc | .sio | .flt | .snp => true
  | .sys | .lane | .auth | .per | .chk | .host | .cfg | .pwr | .thm | .bist => false

def attrStatusRead (blk : Block) : OpAttr := { code := blk.code * 256 + 3, laneLocal := true, read := true, row := .always }

def effectStatusRead (blk : Block) (r : Req) (s : State) : OpOut :=
  if Block.laidOut blk then
    let sections := r.lanes.flatMap (fun l => (s.chip.blockStatus blk l).getD [])
    if blk = .net then OpOut.chip s (fun c => r.lanes.foldl (fun c l => c.modNet l (fun n => { n with host := [] })) c) sections
    else OpOut.same s sections
  else freeRead r.lanes.length s

/-- BLOCK.STATUS_READ; the frames that NET.STATUS_READ returns are removed (R75, R334). -/
def execStatusRead (blk : Block) (r : Req) (s : State) : Out :=
  .next (runOp (attrStatusRead blk) checksNone (effectStatusRead blk) r s)

def attrTimingRead : OpAttr := { code := 0x0310, laneLocal := true, read := true, row := .always }

def effectTimingRead (r : Req) (s : State) : OpOut := freeRead r.lanes.length s

/-- PER.TIMING_READ: phase times and deadline-miss counts in a layout that the spec does not give (log 22). -/
def execTimingRead (r : Req) (s : State) : Out := .next (runOp attrTimingRead checksNone effectTimingRead r s)

def attrSignatureRead : OpAttr := { code := 0x0410, laneLocal := true, read := true, row := .always }

def effectSignatureRead (r : Req) (s : State) : OpOut := freeRead r.lanes.length s

/-- CHK.SIGNATURE_READ: the last signatures and votes in a layout that the spec does not give (log 22). -/
def execSignatureRead (r : Req) (s : State) : Out := .next (runOp attrSignatureRead checksNone effectSignatureRead r s)

end Sys2Proof.Machine
end

