-- ==== Sys2Proof/Machine/Mirror.lean ====
section
/-! DEFINITION. What lanes hold and send as bytes in a period (R124, R153, R156): the S-part, the agreed vector, the mirrored set, the
remainder of a resynchronisation copy, and a mirrored set applied. -/

namespace Sys2Proof.Machine

open Sys2Proof

/-- Bits as a number, bit 0 first. -/
def packBits (bs : List Bool) : Nat := bs.foldr (fun b n => (if b then 1 else 0) + 2 * n) 0

/-! ### The S-part (R124) -/

/-- The mask of a lane's fenced bridges, contexts, feedback channels and ports (R28, R124). -/
def SPart.unitMask (p : SPart) : Nat :=
  packBits ([(0x07, 2), (0x08, 64), (0x09, 8), (0x0B, 4)].flatMap (fun (u : Nat × Nat) => (List.range u.2).map (fun i => p.unitsFenced.contains (u.1, i))))

/-- The mask of the units that the lane has fenced on its own detection, by type and number in ascending order (R429). -/
def SPart.ownMask (p : SPart) : Nat :=
  packBits ([(0x07, 2), (0x09, 8), (0x0A, 16), (0x0B, 4), (0x0E, 3), (0x0F, 4), (0x10, 8), (0x11, 2), (0x12, 4), (0x13, 1)].flatMap
    (fun (u : Nat × Nat) => (List.range u.2).map (fun i => p.fencedHere.contains (u.1, i))))

/-- Quads 1 and 2 of the S-part. DESIGN CHOICE (log 101): the spec names what the lane status holds and not where. -/
def SPart.statusBytes (p : SPart) : List Byte :=
  bytesAt (toLe 1 (packBits [p.mainPathBad, p.frameSeen, p.linkDown] + 16 * p.tstate) ++ toLe 1 (p.bands.1 + 16 * p.bands.2) ++
    toLe 10 p.unitMask ++ toLe 11 p.missed.toNat ++ toLe 1 p.misses ++ toLe 7 p.ownMask) 0 32

/-- Quad 3 of the S-part (R124). The places of the Pintle status bits are the model's (log 101). -/
def SPart.flagBytes (p : SPart) : List Byte :=
  let chans (f : FbSample → List Bool) : Nat := packBits ((List.range 8).flatMap (fun k => f (nth p.fb k {})))
  toLe 1 p.si.toNat ++ toLe 3 (chans (fun x => [bitOf x.hall 0, bitOf x.hall 1, bitOf x.hall 2])) ++
    toLe 3 (chans (fun x => [x.valid, x.indexSeen, x.latched])) ++ toLe 1 0 ++
    toLe 1 (p.psn.presents.toNat % 8 + packBits [false, false, false, p.psn.dieFenced, p.psn.holding, p.psn.given]) ++ toLe 1 p.psn.stall.toNat ++
    bytesAt (p.psn.temps.flatMap (toLeI 2)) 0 6

/-- The S-part as bytes: quads 0 to 18, with the manifest after them in whole quads (R124, R125). -/
def SPart.bytes (p : SPart) : List Byte :=
  toLe 1 p.lane ++ toLe 1 p.manifest.length ++ toLe 2 0 ++ toLe 4 p.count ++ toLe 8 p.nt ++ p.statusBytes ++ p.flagBytes ++
    bytesAt (p.adc.flatMap (toLe 2)) 0 32 ++ bytesAt (p.fb.flatMap (fun x => toLeI 4 x.pos)) 0 32 ++
    bytesAt (p.fb.flatMap (fun x => toLeI 4 x.rev)) 0 32 ++ bytesAt (p.fb.flatMap (fun x => toLe 8 x.stamp)) 0 64 ++
    bytesAt ((p.psn.coils ++ p.psn.bm).flatMap (toLeI 2)) 0 32 ++
    bytesAt (p.iq.flatMap (fun e => toLeI 2 e.1 ++ toLeI 2 e.2)) 0 8 ++ toLe 4 p.vbr ++ toLe 4 p.vgd ++
    bytesAt (p.temps.flatMap (toLeI 2)) 0 16 ++ bytesAt (p.fb.flatMap (fun x => toLe 2 (min 65535 x.age))) 0 16 ++
    padQuads (p.manifest.flatMap (toLe 4))

/-! ### The agreed vector (R128, R129) -/

/-- An agreed channel as a sample. -/
def FbAgreed.sample (f : FbAgreed) : FbSample :=
  { pos := f.pos.v, rev := f.rev.v, valid := f.pos.valid, indexSeen := f.indexSeen, latched := f.latched, stamp := f.stamp, hall := f.hall, age := f.pos.age }

/-- The items that the lanes share, in the layout of an S-part (R124, R128). -/
def Chip.sharedPart (c : Chip) : SPart :=
  { count := c.dev.count, nt := c.dev.sn, si := c.dev.agreed.si, adc := c.dev.agreed.adc.map (fun x => x.v.toNat)
    fb := c.dev.agreed.fb.map FbAgreed.sample, psn := c.dev.agreed.psn }

/-- The agreed vector of an agreement set as bytes. DESIGN CHOICE (log 104): R146 names the vector and not its layout; the set leads,
then come the shared items and the S-part of each lane of the set. -/
def Chip.vectorBytes (c : Chip) (aset : Mask) : List Byte :=
  toLe 16 aset.toNat ++ c.sharedPart.bytes ++ (lanesOf aset).flatMap (fun l => (c.dev.agreed.status.get l).bytes)

/-! ### The mirrored set (R153) -/

/-- The lane whose mirror the fold of a period names: the holder, else the lane of the set with the highest claim (log 104). -/
def Chip.mirrorLane (c : Chip) : Option LaneId := c.pintle.holder.or (c.highest (lanesOf c.dev.aset))

/-- Quad 1: the claim history (R153). -/
def Chip.mirrorClaims (c : Chip) : List Byte :=
  (c.dev.claims.last.toList).flatMap (toLe 1) ++ toLe 1 ((c.pintle.holder.map LaneId.idx).getD 0xFF) ++
    toLe 1 (LaneId.all.foldl (fun m l => setLaneBit m l (c.pintle.lanes.get l).barred) (0 : Mask)).toNat ++ toLe 1 c.dev.claims.readmit.toNat ++
    toLe 1 c.classNow ++ toLe 1 c.dev.joined.toNat ++ LaneId.all.flatMap (fun l => toLe 1 (c.divCount l)) ++ toLe 1 0 ++ toLe 4 c.dev.claimAge

/-- One quad of a feedback channel: counts, the base of R187, flags (R153); the places of the flags are the model's (log 104). -/
def FbAgreed.quad (f : FbAgreed) : List Byte :=
  toLeI 4 f.pos.v ++ toLeI 4 f.rev.v ++ toLeI 4 (f.plausBase.getD 0) ++
    toLe 1 (packBits [f.pos.valid, f.plausBase.isSome, f.aligned, f.substituted, f.suspX, f.suspP]) ++ toLe 1 f.plausCount ++ toLe 2 0

/-- The number of a stepper's phase (R274). -/
def StpPhase.num : StpPhase → Nat
  | .standing => 0 | .moving => 1 | .stopping => 2 | .homing => 3

/-- One quad of a stepper channel: position, velocity, phase and flags, homing offset (R153); the places of the flags are the model's,
and the homing offset is the way travelled in the homing (log 104). -/
def Stepper.quad (x : Stepper) : List Byte :=
  toLeI 4 (wholeStep x.x) ++ toLeI 4 x.v ++ toLe 1 (x.phase.num + 4 * x.homeStage) ++
    toLe 1 (packBits [x.energised, x.homed, x.strong, x.idle, x.scurve, x.braking, x.quick, x.deEnergise]) ++
    toLe 1 (packBits [x.stall, x.lastBad, x.fenced, x.tableBad]) ++ toLe 1 0 ++ toLeI 4 (wholeStep x.travelled)

/-- One quad of a bridge: electrical angle, speed estimate, observer state, overload time used (R153). The reference of CMT.ANGLE_SRC is
kept in the observer-state word (R199); the place of the second one and of the flags are the model's (log 104). -/
def Motor.quad (m : Motor) : List Byte :=
  toLe 2 m.theta ++ toLe 2 m.rho2 ++ toLeI 4 m.speed ++ toLe 2 m.rho ++
    toLe 1 (packBits [m.referenced, m.trackValid, m.enabled, m.catchWait, m.catching, m.disabling, m.ovlNow, m.fenced]) ++
    toLe 1 (m.state.code + (if m.referenced2 then 128 else 0)) ++ toLe 4 m.ovlUsed

/-- One quad of a loop context (R297). -/
def Chip.loopQuad (c : Chip) (n : Nat) : List Byte :=
  let x := nth c.dev.loops n {}
  let timed := c.dev.launches.any (fun q => decide (q.kind = 8 ∨ q.kind = 9) && decide (fld q.args 0 1 = n))
  toLeI 4 x.i ++ toLeI 4 x.pf ++ toLeI 3 x.out ++ toLeI 3 x.sp ++ toLe 1 (x.mode.code + 8 * min 3 x.held) ++
    flagByte [x.hi, x.lo, x.inhibited, x.isHeld, x.badSrc, x.pvSat, x.fenced.a || x.fenced.b || x.fenced.c, timed]

/-- Quad 84: the stop sequencer and HOLD (R153), in places of the model's (log 104). -/
def Snow.quad (w : Snow) : List Byte :=
  toLe 1 w.step ++ toLe 1 w.cause ++ toLe 1 (w.pend.getD 0xFF) ++
    toLe 1 (packBits [w.vValid, w.slow, w.standstill, w.parked, w.timedOut, w.applied, w.releasing, w.dbReleasing]) ++
    toLeI 4 w.v ++ toLeI 4 w.v0 ++ toLe 4 (w.t / 1000)

/-- Quads 1 to 84 of the mirrored set (R153). -/
def Chip.mirrorData (c : Chip) : List Byte :=
  c.mirrorClaims ++ (List.range 8).flatMap (fun k => (nth c.dev.agreed.fb k {}).quad) ++
    (List.range 6).flatMap (fun k => (nth c.dev.steppers k {}).quad) ++ (List.range 4).flatMap (fun k => (nth c.dev.motors k {}).quad) ++
    (List.range 64).flatMap c.loopQuad ++ c.dev.snow.quad

/-- The whole mirrored set of a source: quad 0 with its CRC-32C, and the data quads (R153). -/
def mirrorBytes (source count : Nat) (quads : List Byte) : List Byte :=
  let h := toLe 1 source ++ toLe 1 1 ++ toLe 2 85 ++ toLe 4 (count % 2 ^ 32) ++ toLe 4 0
  h ++ toLe 4 (crc32c (h ++ toLe 4 0 ++ quads)) ++ quads

/-- The data quads of a mirrored set received whole with a correct CRC-32C (R153). -/
def mirrorOf (b : List Byte) : Option (List Byte) :=
  if b.length = 1360 ∧ fld b 1 1 = 1 ∧ fld b 2 2 = 85 ∧ fld b 12 4 = crc32c (b.take 12 ++ toLe 4 0 ++ b.drop 16) then some (b.drop 16) else none

/-! ### A mirrored set applied (R157, R159, R164) -/

/-- The stepper phase of a number. -/
def StpPhase.ofNum : Nat → StpPhase
  | 0 => .standing | 1 => .moving | 2 => .stopping | _ => .homing

/-- The bridge state of a code (R222). -/
def CmtState.ofCode : Nat → CmtState
  | 0 => .disabled | 1 => .tracking | 2 => .aligning | 3 => .switching | 4 => .freewheel | 5 => .short | _ => .fenced

/-- The loop mode of a code (R285). -/
def LoopMode.ofCode : Nat → LoopMode
  | 0 => .disabled | 1 => .manual | 2 => .auto | 3 => .tracking | 4 => .stopped | _ => .fenced

/-- A feedback channel from its quad. -/
def FbAgreed.mirrored (f : FbAgreed) (b : List Byte) : FbAgreed :=
  let g := fld b 12 1
  { f with
    pos := { f.pos with v := sfld b 0 4, valid := bitOf g 0 }, rev := { f.rev with v := sfld b 4 4 },
    plausBase := if bitOf g 1 then some (sfld b 8 4) else none, aligned := bitOf g 2, substituted := bitOf g 3, suspX := bitOf g 4, suspP := bitOf g 5,
    plausCount := fld b 13 1 }

/-- A stepper channel from its quad. -/
def Stepper.mirrored (x : Stepper) (b : List Byte) : Stepper :=
  let g := fld b 9 1
  { x with
    x := if wholeStep x.x = sfld b 0 4 then x.x else 65536 * sfld b 0 4
    v := sfld b 4 4, phase := StpPhase.ofNum (fld b 8 1 % 4), homeStage := fld b 8 1 / 4
    energised := bitOf g 0, homed := bitOf g 1, strong := bitOf g 2, idle := bitOf g 3, scurve := bitOf g 4, braking := bitOf g 5,
    quick := bitOf g 6, deEnergise := bitOf g 7, stall := bitOf (fld b 10 1) 0, lastBad := bitOf (fld b 10 1) 1
    travelled := if wholeStep x.travelled = sfld b 12 4 then x.travelled else 65536 * sfld b 12 4 }

/-- A bridge from its quad. -/
def Motor.mirrored (m : Motor) (b : List Byte) : Motor :=
  let g := fld b 10 1
  { m with theta := fld b 0 2, speed := sfld b 4 4, rho := fld b 8 2, rho2 := fld b 2 2, referenced := bitOf g 0, referenced2 := decide (128 ≤ fld b 11 1), trackValid := bitOf g 1, enabled := bitOf g 2,
           catchWait := bitOf g 3, catching := bitOf g 4, disabling := bitOf g 5, ovlNow := bitOf g 6, state := CmtState.ofCode (fld b 11 1 % 128),
           ovlUsed := fld b 12 4 }

/-- A loop context from its quad (R297). -/
def Loop.mirrored (x : Loop) (b : List Byte) : Loop :=
  let g := fld b 15 1
  { x with i := sfld b 0 4, pf := sfld b 4 4, out := sfld b 8 3, sp := sfld b 11 3, mode := LoopMode.ofCode (fld b 14 1 % 8), held := fld b 14 1 / 8 % 4,
           hi := bitOf g 0, lo := bitOf g 1, inhibited := bitOf g 2, isHeld := bitOf g 3, badSrc := bitOf g 4, pvSat := bitOf g 5 }

/-- The sequencer from its quad. -/
def Snow.mirrored (w : Snow) (b : List Byte) : Snow :=
  let g := fld b 3 1
  { w with step := fld b 0 1, cause := fld b 1 1, pend := if fld b 2 1 = 0xFF then none else some (fld b 2 1)
           vValid := bitOf g 0, slow := bitOf g 1, standstill := bitOf g 2, parked := bitOf g 3, timedOut := bitOf g 4, applied := bitOf g 5,
           releasing := bitOf g 6, dbReleasing := bitOf g 7, v := sfld b 4 4, v0 := sfld b 8 4, t := if w.t / 1000 = fld b 12 4 then w.t else 1000 * fld b 12 4 }

/-- The state of every unit taken from the data quads of a mirrored set (R153, R159). -/
def Chip.applyMirror (c : Chip) (b : List Byte) : Chip :=
  let quad (k : Nat) : List Byte := bytesAt b (16 * k) 16
  c.modDev (fun d => { d with
    agreed := { d.agreed with fb := d.agreed.fb.mapIdx (fun k f => f.mirrored (quad (1 + k))) }
    steppers := d.steppers.mapIdx (fun k x => x.mirrored (quad (9 + k)))
    motors := d.motors.mapIdx (fun k m => m.mirrored (quad (15 + k)))
    loops := d.loops.mapIdx (fun n x => x.mirrored (quad (19 + n)))
    snow := d.snow.mirrored (quad 83) })

/-! ### The resynchronisation copy (R156) -/

/-- Keyway session states, a quad each. -/
def Chip.copySessions (c : Chip) : List Byte := bytesAt (((List.range 128).drop 1).flatMap (fun n => (c.session n).quad)) 0 (16 * 127)

/-- Pending launches, a quad each, sixteen places for each output. -/
def Chip.copyLaunches (c : Chip) : List Byte :=
  (List.range 14).flatMap (fun o => bytesAt ((c.dev.launches.filter (fun x => x.out == o)).flatMap (fun x =>
    toLe 4 x.count ++ toLe 2 x.index ++ toLe 1 x.kind ++ toLe 1 x.by_ ++ toLe 8 (ofLe x.args))) 0 256)

/-- The last agreed S-part, item ages, outlier and miss counters. -/
def Chip.copyVector (c : Chip) : List Byte :=
  bytesAt (c.sharedPart.bytes ++ c.dev.agreed.fb.flatMap (fun f => toLe 1 f.stampAge ++ toLe 1 f.hallAge ++ toLe 1 f.flagAge) ++
    c.dev.agreed.siAge.flatMap (toLe 1) ++ toLe 1 c.dev.agreed.psnAge ++ c.dev.itemMiss.flatMap (toLe 1) ++
    c.dev.outliers.flatMap (fun e => toLe 1 e.1.1 ++ toLe 1 e.1.2.1 ++ toLe 1 e.1.2.2 ++ toLe 1 e.2)) 0 640

/-- The last agreed exclusive-slot data with their ages. -/
def Chip.copySlots (c : Chip) : List Byte :=
  bytesAt (c.dev.slots.flatMap (fun x => toLe 2 (32768 * x.chan + x.slot) ++ toLe 1 x.counter ++ toLe 1 (packBits [x.stale, x.valid, x.empty, x.live]) ++
    toLe 4 x.matrix ++ toLe 4 x.age ++ toLe 4 x.missRun ++ padQuads x.data)) 0 8192

/-- Host link state: expected sequence, event counter, flags and pending tags. -/
def Chip.copyHosts (c : Chip) : List Byte :=
  bytesAt (LaneId.all.flatMap (fun l =>
    let h := c.dev.hosts.get l
    bytesAt (toLe 4 h.expected ++ toLe 4 h.events ++ toLe 1 (packBits [h.synced, h.frozen]) ++ toLe 1 h.tags.length ++ h.tags) 0 40)) 0 128

/-- Shadowed parameter writes that wait for their boundary. -/
def Chip.copyShadows (c : Chip) : List Byte := bytesAt (c.dev.cfg.shadow.flatMap (fun e => toLe 4 e.1 ++ toLeI 8 e.2 ++ toLe 4 0)) 0 1024

/-- Fault-collection counters of the leading lane. -/
def Chip.copyFaults (c : Chip) : List Byte :=
  let q := (c.lane (c.leader.getD .a)).fault
  bytesAt (toLe 4 q.formed ++ toLe 2 q.dropped ++ toLe 2 q.droppedNow ++ q.opened.flatMap FaultRec.quad) 0 512

/-- The remainder without a working set: 1,007 quads in places that do not move (R156). DESIGN CHOICE (log 104): the spec names the
parts with their sizes and not their layout. -/
def Chip.remainder (c : Chip) : List Byte :=
  c.copySessions ++ c.copyLaunches ++ c.copyVector ++ c.copySlots ++ c.copyHosts ++ c.copyShadows ++ c.copyFaults

/-- The quads of a remainder. -/
def remainderQuads : Nat := 1007

/-- The quads of which two byte sequences of one length differ. -/
def changedQuads : Nat → List Byte → List Byte → Nat
  | 0, _, _ => 0
  | n + 1, x, y => (if x.take 16 = y.take 16 then 0 else 1) + changedQuads n (x.drop 16) (y.drop 16)

/-- A working set with its schedule as bytes. -/
def wsBytes (ws : List (Nat × Int)) (sched : List Byte) : List Byte := ws.flatMap (fun e => toLe 4 e.1 ++ toLeI 8 e.2 ++ toLe 4 0) ++ sched

/-- The working set that a lane has loaded differs from the one in force, by CRC-32C (R156, R160). -/
def Chip.wsDiffers (c : Chip) (l : LaneId) : Bool :=
  let g := (c.lane l).nvm.loaded
  decide (crc32c (wsBytes g.ws g.sched) ≠ crc32c (wsBytes c.dev.cfg.ws c.dev.cfg.sched))

/-- The source sends a lane the snapshot, with the working set when that differs (R12, R156, R157 step 3). -/
def Chip.sendSnapshot (c : Chip) (src : Option LaneId) (l : LaneId) : Chip :=
  match src with
  | some k => c.sendLink k l .background (remainderQuads +
      (if (c.lane l).chk.wsDiffers then (wsBytes c.dev.cfg.ws c.dev.cfg.sched).length / 16 else 0))
  | none => c

end Sys2Proof.Machine
end

