-- ==== Sys2Proof/Machine/Round.lean ====
section
/-! DEFINITION. The control period up to its agreement set (chapter 05): the sample instant, the lane's vector, the streamed items, the
presence quads and the lanes that miss the round. -/

namespace Sys2Proof.Machine

open Sys2Proof

/-! ### The end of a period and the start of the next (R120, R139, R444) -/

/-- The NT of S: on the network-time grid once the sample instant is locked to it, else the pacing lane's (R120, R348, R553). -/
def Chip.nominalS (c : Chip) (l : LaneId) : Nat :=
  let nt := (c.lane ((c.pacingLane).getD l)).clock.nt
  let t := max 1 c.period
  let base := c.parN Par.timeStartNt + c.parN Par.perSampleOffset
  if c.dev.locked ∧ base ≤ nt + t / 2 then base + (nt + t / 2 - base) / t * t else nt

/-- The period that has ended judged from what it left: one in which no lane completed the round or the checkpoint is recorded with
0x030B, or with 0x0405 in its place, and at PER.MISS_LIMIT with the stop of 0x030C. Two records that differ are a completed
checkpoint (R139, R150, R152); an exempt period is not counted (R112). -/
def Chip.closePeriod (c : Chip) (d : Dev) : Chip :=
  if d.exempt || decide (d.authority = 0) then c.modDev (fun d => { d with exempt := false })
  else if d.passed ≠ 0 || d.differed then c.modDev (fun d => { d with devMiss := 0 })
  else
    let c := if d.split405 then c else c.agreedFault 0x030B 0 0 0xFF
    let n := d.devMiss + 1
    let c := c.modDev (fun d => { d with devMiss := min 31 n })
    if n = c.parN Par.perMissLimit then (c.agreedFault 0x030C 0 0 0xFF).stopCause 4 else c

/-- The round of the new period is empty in every lane; a lane that catches up has taken the mirrored set it received, and one that
received another than was sent differs from the others (R155). What a held item keeps is that of the last period in which a lane
passed (R140). -/
def Chip.clearRounds (c : Chip) : Chip :=
  (c.modLanes (fun _ n => { n with round := {}, chk := { n.chk with
    catchUp := false, skewed := if n.chk.catchUp then decide (n.chk.mirror ≠ c.dev.copy.take 1344) else n.chk.skewed } })).modDev (fun d => { d with
    sampled := 0, aset := 0, computed := false, decided := false, voted := false, launched := false, passed := 0, split405 := false
    differed := false, events := [], heldNow := 0, heldLast := d.heldNow
    unpassed := if d.computed then decide (d.passed = 0) else d.unpassed
    claims := { d.claims with last := d.claims.nums } })

/-- A lane that can be a resynchronisation source: in authority, not fenced, not resynchronising itself (R159). -/
def Chip.canSource (c : Chip) (l k : LaneId) : Bool :=
  decide (k ≠ l) && c.inAuth k && !(c.lane k).boot.fenced && !c.resyncing k && decide (c.dev.standdown ≠ some k)

/-- The source that a lane follows: kept while it can serve, else another that passed in the period, the highest claim of them
(R151, R159). -/
def Chip.sourceFor (c : Chip) (l : LaneId) (passed : Mask) : Option LaneId :=
  match (c.lane l).chk.source with
  | some k => if c.canSource l k then some k else c.highest ((lanesOf passed).filter (c.canSource l))
  | none => (c.highest ((lanesOf passed).filter (c.canSource l))).or (c.highest (LaneId.all.filter (c.canSource l)))

/-- The copy starts anew from a source: its snapshot goes out, and deltas sent before it do not count (R157 step 3, R159). -/
def Chip.restartCopy (c : Chip) (l : LaneId) (src : Option LaneId) : Chip :=
  (c.modLane l (fun n => { n with chk := { n.chk with source := src, snapshot := false, owed := 0 } })).sendSnapshot src l

/-- Step 1 of a resynchronisation begins at S, where the lane applies the mirrored set of the divergence (R157 steps 1 and 2). A lane
that joins has no snapshot on its way yet, and its working set is compared (R160). -/
def Chip.startResync (c : Chip) (passed : Mask) (l : LaneId) : Chip :=
  let k := (c.lane l).chk
  let src := c.sourceFor l passed
  let c := c.modLane l (fun n => { n with chk := { n.chk with resync := 1, resyncPend := false, resyncAge := 0, source := src } })
  if k.joining then (c.modLane l (fun n => { n with chk := { n.chk with wsDiffers := c.wsDiffers l } })).restartCopy l src else c

/-- Step 5: with the snapshot and every delta held, the lane applies them and computes again from this S (R157). -/
def Chip.applyCopy (c : Chip) (l : LaneId) : Chip :=
  c.modLane l (fun n => { n with chk := { n.chk with resync := 5, wsDiffers := false, skewed := decide (n.chk.mirror ≠ c.dev.copy.take 1344) } })

/-- A resynchronisation without a source: the lane goes on from its own state, with the last mirrored set that it received, and 0x040A
(R159). -/
def Chip.ownState (c : Chip) (l : LaneId) : Chip :=
  let m := (c.lane l).chk.mirror
  let alone := (LaneId.all.filter (fun k => k != l && c.inRound k && !c.resyncing k)).isEmpty
  let c := if alone && m != [] then c.applyMirror m else c
  (c.localFault l 0x040A 0x01 l.idx l.idx).modLane l (fun n => { n with chk := { n.chk with
    resync := 5, source := none, skewed := !alone && decide (m ≠ c.dev.copy.take 1344) } })

/-- A resynchronisation at the S of a new period: it begins, its copy is applied, or its source is looked after; a new source starts
the copy again (R157, R159). -/
def Chip.resyncStep (c : Chip) (passed : Mask) (l : LaneId) : Chip :=
  let k := (c.lane l).chk
  if k.resyncPend then c.startResync passed l
  else if k.resync = 0 then c
  else
    let src := c.sourceFor l passed
    let c := c.modLane l (fun n => { n with chk := { n.chk with resyncAge := min 255 (k.resyncAge + 1) } })
    if k.resync ≠ 1 then c
    else if k.snapshot && decide (k.owed = 0) then c.applyCopy l
    else if src.isNone then c.ownState l
    else if src = k.source then c else c.restartCopy l src

def LaneLink.nextPeriod (k : LaneLink) : LaneLink := { k with failedLast := k.failedNow, failedNow := false }

def HostLink.clearMark (k : HostLink) : HostLink := { k with violatedNow := false }

def Session.clearMark (k : Session) : Session := { k with violatedNow := false }

/-- Marks of the period that ended: link failures of R13, violations of R79, activity of R476. Replies of a lane that has left authority
are lost (R20). -/
def Chip.clearMarks (c : Chip) : Chip :=
  let c := { c with links := c.links.map LaneLink.nextPeriod }
  c.modDev (fun d => { d with
    replies := d.replies.filter (fun e => c.inAuth e.1)
    hosts := d.hosts.map HostLink.clearMark
    sessions := d.sessions.map Session.clearMark
    power := { d.power with activity := false } })

/-- The Pintle die counts its PWM periods from S (R245), and drops the faults that every lane's reports have carried. -/
def Chip.pintleAtS (c : Chip) : Chip :=
  let n := c.authLanes.foldl (fun n l => if (c.pintle.lanes.get l).pathFailed then n else min n (c.pintle.lanes.get l).told) c.pintle.faults.length
  c.modPintle (fun p => { p with
    outs := p.outs.mapIdx (fun k o => { o with index := c.pwmCount (c.outPwm k) - 1 })
    faults := p.faults.drop n, lanes := p.lanes.map (fun x => { x with told := x.told - n }) })

/-- The period that begins is the one that ends at the lock to network time: the last of a matrix cycle while that is synchronised
(R112). -/
def Chip.lockAhead (c : Chip) : Bool := !c.dev.locked && c.netSynced && decide (c.dev.cfg.sched ≠ []) && decide (c.dev.cycle = 64)

/-- A new control period: the one before it is judged, fences decided in it take effect, and what waits for S begins. -/
def Chip.newPeriod (c : Chip) (l : LaneId) : Chip :=
  let old := c.dev
  let c := c.clearRounds.closePeriod old
  let c := c.modDev (fun d => { d with count := (d.count + 1) % 2 ^ 64, cycle := min 64 (d.cycle + 1), claimAge := satInc (2 ^ 32 - 1) d.claimAge })
  let c := c.modDev (fun d => { d with sn := c.nominalS l, exempt := c.lockAhead })
  let fs := c.dev.fencePend
  let c := ((c.modDev (fun d => { d with fencePend := [] })).fenceLanes fs).takeUnitFences
  let c := c.sdAbortNow.readmitCheck
  let c := LaneId.all.foldl (fun c k => c.resyncStep old.passed k) c
  let c := c.clearMarks.storeDone.confirmDone
  c.injectCount.injectOnce.sdElapse.pintleAtS

/-- The first period after formation: the automatic off-state tests are due (R243). -/
def Chip.firstPeriod (c : Chip) (l : LaneId) : Chip :=
  (c.modDev (fun d => { d with sn := c.nominalS l })).dueTests c.authLanes true

/-! ### The S-part (R121, R124) -/

/-- The units that a lane reports as fenced: bridges, contexts, feedback channels, network ports (R28, R124). -/
def Chip.statusUnits (c : Chip) (l : LaneId) : List (Nat × Nat) :=
  [(0x07, 2), (0x08, 64), (0x09, 8), (0x0B, 4)].flatMap (fun (u : Nat × Nat) =>
    ((List.range u.2).filter (fun i => c.unitFenced l u.1 i)).map (fun i => (u.1, i)))

/-- The Pintle die's last report received before S, with the status bits that it brought (R121). -/
def Chip.samplePsn (c : Chip) (l : LaneId) : PsnSample :=
  let b := (c.lane l).reportBits
  match (c.lane l).report with
  | none => {}
  | some r => { given := true, coils := r.coils, bm := r.bm, temps := r.temps, presents := b.presents, stall := b.stall, dieFenced := b.dieFenced, holding := b.holding }

/-- One of a lane's links is fenced (R28). -/
def Chip.linkDown (c : Chip) (l : LaneId) : Bool := l.partners.any (fun p => (c.linkAt (linkIdx l p)).fenced)

/-- The currents iq and id of an engine in units of 10 mA for the last PWM period that has ended at or before an S (R124, R202). -/
def Engine.endedAt (e : Engine) (delay pwm s : Nat) : Int × Int :=
  if e.sampleNt + pwm ≤ s + delay then (quo e.iq 10, quo e.id 10) else (quo e.endIq 10, quo e.endId 10)

/-- The observer of an engine at S. -/
def Engine.rotor (e : Engine) : Rotor := { locked := e.obsLocked, lost := e.lost, theta := e.obsAngle, omega := e.obsOmega }

/-- The S-part of a lane, but for its manifest. The currents are in units of 10 mA (R124). -/
def Chip.spart (c : Chip) (l : LaneId) (i : SampleIn) (fb : List FbSample) : SPart :=
  let n := c.lane l
  { lane := l.idx, nt := n.clock.nt, count := c.dev.count, mainPathBad := decide ((c.pintle.lanes.get l).failedLines ≠ []), frameSeen := n.net.frameSeen
    linkDown := c.linkDown l, bands := (c.dev.thermal.lane.get l, c.dev.thermal.part.get l), missed := c.dev.heldLast, misses := n.chk.misses
    tstate := n.clock.tstate.code, unitsFenced := c.statusUnits l, fencedHere := n.fencedNow, si := n.sio.si, adc := i.adc, fb := fb
    iq := (n.engines.take 2).mapIdx (fun k e => e.endedAt (c.parN Par.cmtIsampleDelay k) (c.parN Par.cmtPwmPeriod k) n.clock.nt)
    rotor := n.engines.map Engine.rotor, vbr := i.vbr, vgd := i.vgd, temps := i.temps, psn := c.samplePsn l
    pintleFaults := n.reportBits.faults }

/-! ### Streamed items (R62, R125 to R127) -/

/-- The lanes that take part in the round beside a lane. -/
def Chip.roundPartners (c : Chip) (l : LaneId) : List LaneId := l.partners.filter c.inRound

/-- Host packets offered to the period, in order: a long one in parts of HOST.AGREE_QUADS (R62). -/
def offerPackets (whole : RxPacket → Bool) : Nat → List RxPacket → List RxPacket
  | _, [] => []
  | q, p :: ps =>
    let rest := p.quads - p.carried
    let n := if whole p then min rest q else 0
    { p with offered := n } :: offerPackets whole (if n = rest then q - n else 0) ps

/-- One item of a lane's vector: its place among the arrivals, the place at which its streaming ended, its quads and its manifest
word less the length (R125, R127). -/
structure Offer where
  ord : Nat
  ended : Nat
  quads : Nat
  kind : Nat
  source : Nat
  index : Nat
  deriving DecidableEq, Repr, Inhabited

/-- The kind and the source of a streamed item (R125). -/
def StreamItem.label (ord : Nat) : StreamItem → Nat × Nat
  | .packet l _ => (1, l.idx)
  | .pdu n _ _ _ => (2, n)
  | .excl _ slot _ _ _ _ _ _ => (3, slot)
  | .arb _ _ _ _ _ => (4, ord % 4096)

/-- A manifest word (R125). -/
def Offer.word (o : Offer) : Nat := 2 ^ 28 * o.kind + 2 ^ 16 * (o.source % 4096) + 256 * (o.quads % 256) + o.index % 256

/-- Offers put in order by a number. -/
def insertOffer (key : Offer → Nat) (x : Offer) : List Offer → List Offer
  | [] => [x]
  | y :: ys => if key x < key y then x :: y :: ys else y :: insertOffer key x ys

def sortOffers (key : Offer → Nat) (xs : List Offer) : List Offer := xs.foldl (fun acc x => insertOffer key x acc) []

/-- The offers that still fit, in order of arrival, within a number of quads and of items (R127). -/
def fitOffers : Nat → Nat → List Offer → List Offer
  | _, _, [] => []
  | q, k, x :: xs => if x.quads ≤ q ∧ 0 < k then x :: fitOffers (q - x.quads) (k - 1) xs else []

/-- The offer of a host packet's part (R62, R125). -/
def RxPacket.offer (l : LaneId) (p : RxPacket) : Offer :=
  { ord := p.ord, ended := p.ended.getD (p.ord + 2 ^ 64), quads := p.offered, kind := 1, source := l.idx, index := p.index + p.carried }

/-- The offer of another streamed item. -/
def Arriving.offer (a : Arriving) : Offer :=
  let (k, s) := a.item.label a.ord
  { ord := a.ord, ended := a.ended.getD (a.ord + 2 ^ 64), quads := a.item.quads, kind := k, source := s, index := a.index }

/-- The streamed part of a lane's vector: what has been streamed to every partner before S, as far as it fits in order of arrival;
the manifest lists it in the order in which the streaming ended (R125 to R127). -/
def Chip.offerItems (c : Chip) (l : LaneId) : Chip :=
  let to_ := c.roundPartners l
  let full (m : Mask) : Bool := to_.all (hasLane m)
  let limit := if c.replyHeld l then 0 else c.parN Par.hostAgreeQuads l.idx
  let rx := offerPackets (fun p => full p.streamed) limit (c.bridges.get l).rx
  let all := (rx.filter (fun p => decide (0 < p.offered))).map (RxPacket.offer l) ++
    ((c.lane l).arriving.filter (fun a => full a.streamed)).map Arriving.offer
  let fit := fitOffers 224 52 (sortOffers (·.ord) all)
  let taken (ord : Nat) : Bool := fit.any (fun o => o.ord == ord)
  (c.modBridge l (fun b => { b with rx := rx.map (fun p => if taken p.ord then p else { p with offered := 0 }) })).modLane l (fun n => { n with
    arriving := n.arriving.map (fun a => if full a.streamed && !taken a.ord then { a with carried := true } else a)
    round := { n.round with
      items := (n.arriving.filter (fun a => full a.streamed && taken a.ord)).map (·.item)
      own := { n.round.own with manifest := (sortOffers (·.ended) fit).map Offer.word } } })

/-- The first element that meets a test changed. -/
def changeFirst {α : Type} (p : α → Bool) (f : α → α) : List α → List α
  | [] => []
  | x :: xs => if p x then f x :: xs else x :: changeFirst p f xs

/-- The arrival place of the oldest item of a lane that a partner still waits for. -/
def Chip.oldestFor (c : Chip) (tx rx : LaneId) : Option Nat :=
  (((c.bridges.get tx).rx.filter (fun p => !(hasLane p.streamed rx))).map (·.ord) ++
    ((c.lane tx).arriving.filter (fun a => !(hasLane a.streamed rx))).map (·.ord)).foldl (fun m x => match m with
      | none => some x
      | some y => some (min y x)) none

/-- The mark that a partner holds an item, and the end of its streaming once every partner of the round does (R125, R126). -/
def markStreamed (partners : List LaneId) (rx : LaneId) (at_ : Nat) (m : Mask) (ended : Option Nat) : Mask × Option Nat :=
  let m := setLaneBit m rx true
  (m, if ended.isNone && partners.all (hasLane m) then some at_ else ended)

/-- STREAMED_ITEM: the oldest item that a partner has not yet sent to the receiver has arrived there (R126). -/
def streamedItem (rx tx : LaneId) (c : Chip) : Chip :=
  if rx = tx || !(c.inRound rx) || !(c.inRound tx) then c
  else
    let c := c.heardFrom rx tx
    match c.oldestFor tx rx with
    | none => c
    | some k =>
      let mark := markStreamed (c.roundPartners tx) rx (c.lane tx).streamOrd
      (c.modBridge tx (fun b => { b with rx := changeFirst (fun p => p.ord == k && !(hasLane p.streamed rx)) (fun p =>
        { p with streamed := (mark p.streamed p.ended).1, ended := (mark p.streamed p.ended).2 }) b.rx })).modLane tx (fun n => { n with
          streamOrd := n.streamOrd + 1
          arriving := changeFirst (fun a => a.ord == k && !(hasLane a.streamed rx)) (fun a =>
            { a with streamed := (mark a.streamed a.ended).1, ended := (mark a.streamed a.ended).2 }) n.arriving })

def execStreamedItem (rx tx : LaneId) (s : State) : Out := .next (s.onChip (streamedItem rx tx))

/-! ### Presence (R130) -/

/-- A lane sends its presence quad with the vectors it holds and its marks of R433. -/
def Chip.sendPresence (c : Chip) (l : LaneId) : Chip :=
  (c.sendLinks l (c.roundPartners l) .vectors 1).modLane l (fun n =>
    let held := LaneId.all.foldl (fun m k => setLaneBit m k (n.round.held.get k).isSome) (0 : Mask)
    { n with round := { n.round with
        sent := true
        presence := { held := held, silent := n.silent, notice := n.notices, crcs := n.round.held.map (fun x => x.getD 0) } } })

/-- The presence quad goes out once every partner's vector is held. -/
def Chip.presenceIfAll (c : Chip) (l : LaneId) : Chip :=
  let n := (c.lane l).round
  if !n.sent && (c.roundPartners l).all (fun k => (n.held.get k).isSome) then c.sendPresence l else c

/-- The S-part's CRC-32C in the lane's round, and the S-part on its way to the partners (R124, R130). -/
def Chip.sendVector (c : Chip) (l : LaneId) : Chip :=
  let b := (c.lane l).round.own.bytes
  let crc := crc32c b
  (c.modLane l (fun n => { n with round := { n.round with crc := crc, held := n.round.held.set l (some crc) } })).sendLinks l
    (c.roundPartners l) .vectors (b.length / 16)

/-- The lane's own vector built and sent at S (R121, R124). -/
def Chip.sampleLane (c : Chip) (l : LaneId) (i : SampleIn) : Chip :=
  let c := c.injectLane l
  let c := if (c.lane l).chk.joining && !c.dev.locked then c.modClock l (fun k => { k with nt := c.dev.sn }) else c
  let (c, fb) := c.sampleFbs l i
  let c := c.sioAtS l i.soMv
  let own := c.spart l i fb
  let c := c.modLane l (fun n => { n with
    vbr := i.vbr
    net := { n.net with frameSeen := false }
    reportBits := { n.reportBits with faults := [] }
    round := { n.round with sampled := true, own := own } })
  (((c.offerItems l).sendVector l).modDev (fun d => { d with sampled := setLaneBit d.sampled l true })).presenceIfAll l

/-- A lane runs its timebase and can sample. -/
def Chip.canSample (c : Chip) (l : LaneId) : Bool :=
  let n := c.lane l
  c.dev.formed && c.inRound l && n.boot.powerGood && n.power.core && !n.boot.halted && !c.sleeping

/-- SAMPLE_INSTANT: the first lane to sample begins the period; a lane samples for itself (R120, R121, R444). -/
def sampleInstant (l : LaneId) (i : SampleIn) (c : Chip) : Chip :=
  if !(c.canSample l) then c
  else
    let c := if hasLane c.dev.sampled l || (c.lane l).chk.resyncPend then c.newPeriod l
      else if c.dev.sampled = 0 ∧ c.dev.count = 0 then c.firstPeriod l else c
    if c.canSample l then c.sampleLane l i else c

def execSampleInstant (l : LaneId) (i : SampleIn) (s : State) : Out := .next (s.onChip (sampleInstant l i))

/-- A lane is in the round of the present period: it has sampled. -/
def Chip.sampledIn (c : Chip) (l : LaneId) : Bool := c.inRound l && (c.lane l).round.sampled

/-- SAMPLE_VECTOR: a partner's S-part is held with the CRC-32C of what arrived; the presence quad follows when all are held
(R130). -/
def sampleVector (rx tx : LaneId) (v : Rx Nat) (c : Chip) : Chip :=
  if rx = tx || !(c.sampledIn rx) || !(c.sampledIn tx) || (c.lane rx).round.sent then c
  else
    let crc := match v with
      | .intact => some (c.lane tx).round.crc
      | .corrupt => none
      | .other x => some (x % 2 ^ 32)
    match crc with
    | none => c
    | some x => ((c.heardFrom rx tx).modLane rx (fun n => { n with round := { n.round with held := n.round.held.set tx (some x) } })).presenceIfAll rx

def execSampleVector (rx tx : LaneId) (v : Rx Nat) (s : State) : Out := .next (s.onChip (sampleVector rx tx v))

/-- VECTOR_DEADLINE: at S + 7.0 µs the presence quad goes out with what is held (R130). -/
def vectorDeadline (l : LaneId) (c : Chip) : Chip := if c.sampledIn l && !(c.lane l).round.sent then c.sendPresence l else c

def execVectorDeadline (l : LaneId) (s : State) : Out := .next (s.onChip (vectorDeadline l))

/-- PRESENCE_QUAD: a partner's quad has arrived, directly or by relay (R130). -/
def presenceQuad (rx tx : LaneId) (q : Rx Presence) (c : Chip) : Chip :=
  if rx = tx || !(c.sampledIn rx) || !(c.sampledIn tx) || (c.lane rx).round.aset.isSome then c
  else
    let got := match q with
      | .intact => if (c.lane tx).round.sent then some (c.lane tx).round.presence else none
      | .corrupt => none
      | .other x => some x
    match got with
    | none => c
    | some x => (c.heardFrom rx tx).modLane rx (fun n => { n with round := { n.round with quads := n.round.quads.set tx (some x) } })

def execPresenceQuad (rx tx : LaneId) (q : Rx Presence) (s : State) : Out := .next (s.onChip (presenceQuad rx tx q))

/-! ### The agreement set and missed rounds (R130, R131, R137) -/

/-- The presence quads that a lane goes by: its own and those that have arrived. -/
def Chip.quadsOfRound (c : Chip) (l : LaneId) : List (LaneId × Presence) :=
  let r := (c.lane l).round
  (LaneId.all.filter c.inRound).filterMap (fun k =>
    if k = l then (if r.sent then some (k, r.presence) else none) else (r.quads.get k).map (fun q => (k, q)))

/-- The agreement set as a lane finds it: the lanes whose presence quads have arrived, whose vectors every lane in authority that has sent
one holds, with one CRC-32C (R130). -/
def Chip.findSet (c : Chip) (l : LaneId) : Mask :=
  let all := c.quadsOfRound l
  let qs := all.filter (fun e => c.inAuth e.1)
  maskOf ((LaneId.all.filter c.inRound).filter (fun k =>
    all.any (fun e => e.1 == k) && qs.all (fun e => hasLane e.2.held k) &&
      qs.all (fun e => qs.all (fun f => decide (e.2.crcs.get k = f.2.crcs.get k)))))

/-- The agreement set of the period: the one that most of the lanes in it have found, the lowest index deciding. -/
def Chip.takeSet (c : Chip) : Chip :=
  if c.dev.computed then c
  else
    let found := (LaneId.all.filter c.inRound).filterMap (fun l => match (c.lane l).round.aset with
      | some m => if hasLane m l then some m else none
      | none => none)
    let votes (m : Mask) : Nat := (found.filter (fun x => decide (x = m))).length
    match bestOf (fun x y => decide (votes y < votes x)) found with
    | some m => c.modDev (fun d => { d with aset := m &&& maskOf (LaneId.all.filter c.inRound) })
    | none => c

/-- A lane that misses the round: its absent record, 0x0306, and the fence of 0x0307 at PER.MISS_LIMIT. A lane in steps 1 to 4 of a
resynchronisation counts no miss (R137, R157), and no miss counts in a period that R112 exempts. -/
def Chip.missRound (c : Chip) (l : LaneId) : Chip :=
  let c := c.modLane l (fun n => { n with round := { n.round with absent := true, record := some { kind := 2, count := c.dev.count % 2 ^ 32 } } })
  if c.resyncing l || c.dev.exempt then c
  else
    let k := (c.lane l).chk.misses + 1
    let c := (c.localFault l 0x0306 0x01 l.idx l.idx).modLane l (fun n => { n with
      chk := { n.chk with misses := min 31 k, deadlineMisses := satInc 65535 n.chk.deadlineMisses } })
    if k = c.parN Par.perMissLimit then c.pendFence l 0x0307 else c

/-- PRESENCE_DEADLINE: at S + 9.0 µs the set is fixed, silent lanes are fenced, and a lane outside the set misses the round (R130,
R131, R433). -/
def presenceDeadline (l : LaneId) (c : Chip) : Chip :=
  if !(c.sampledIn l) || (c.lane l).round.aset.isSome then c
  else
    let m := c.findSet l
    let c := c.modLane l (fun n => { n with round := { n.round with aset := some m } })
    let c := (if hasLane m l || (c.lane l).round.absent then c else c.missRound l).silenceDecisions
    c.takeSet

def execPresenceDeadline (l : LaneId) (s : State) : Out := .next (s.onChip (presenceDeadline l))

/-- AGREEMENT_DEADLINE: at S + 12.0 µs a lane that has not finished the agreement rule computes nothing (R137). -/
def agreementDeadline (l : LaneId) (c : Chip) : Chip :=
  if c.sampledIn l && !(c.lane l).round.agreed && !(c.lane l).round.absent then c.missRound l else c

def execAgreementDeadline (l : LaneId) (s : State) : Out := .next (s.onChip (agreementDeadline l))

end Sys2Proof.Machine
end

