-- ==== Sys2Proof/Machine/Agree.lean ====
section
/-! DEFINITION. The agreement rule and the period's computation (R62, R128, R133, R138, R143): the agreed vector, the operations of the
period in their order, and the work items. -/

namespace Sys2Proof.Machine

open Sys2Proof

/-! ### Running an operation by its opcode (R74, R75) -/

/-- The next state of a meaning that answers one. -/
def afterOf (o : Out) (s : State) : State := match o with
  | .next t => t
  | .fault _ => s
  | .refused _ => s

/-- The meaning of an opcode other than the generic ones of a block. -/
def opOf (code : Nat) (r : Req) (s : State) : Option Out :=
  match code with
  | 0x0010 => some (execSysIdentify r s)
  | 0x0011 => some (execSysEcho r s)
  | 0x0012 => some (execSysReset r s)
  | 0x0110 => some (execLaneFence r s)
  | 0x0111 => some (execLaneReadmit r s)
  | 0x0210 => some (execActuationEnable r s)
  | 0x0211 => some (execActuationDisable r s)
  | 0x0310 => some (execTimingRead r s)
  | 0x0410 => some (execSignatureRead r s)
  | 0x0510 => some (execRecordRead r s)
  | 0x0511 => some (execUnitUnfence r s)
  | 0x0512 => some (execInject r s)
  | 0x0610 => some (execStopRequest r s)
  | 0x0611 => some (execHoldRelease r s)
  | 0x0612 => some (execDeadboltRelease r s)
  | 0x1010 => some (execCmtEnable r s)
  | 0x1011 => some (execCmtDisable r s)
  | 0x1012 => some (execTorqueSet r s)
  | 0x1013 => some (execCatchStart r s)
  | 0x1110 => some (execOffstateTest r s)
  | 0x1111 => some (execLegClear r s)
  | 0x1210 => some (execStpMove r s)
  | 0x1211 => some (execStpStop r s)
  | 0x1212 => some (execStpHome r s)
  | 0x1213 => some (execTableLoad r s)
  | 0x1310 => some (execPositionSet r s)
  | 0x1311 => some (execProbeArm r s)
  | 0x1410 => some (execSetpointSet r s)
  | 0x1411 => some (execModeSet r s)
  | 0x1412 => some (execIntegratorPreset r s)
  | _ => none

/-- The same for the blocks from NET on. -/
def opOfNet (code : Nat) (r : Req) (s : State) : Option Out :=
  match code with
  | 0x2010 => some (execScheduleLoad r s)
  | 0x2011 => some (execNetStart r s)
  | 0x2012 => some (execSpareClaim r s)
  | 0x2013 => some (execFrameSend r s)
  | 0x2110 => some (execTimeRead r s)
  | 0x2111 => some (execEpochSet r s)
  | 0x2210 => some (execSessionOpen r s)
  | 0x2211 => some (execSessionClose r s)
  | 0x2212 => some (execPeerUnfreeze r s)
  | 0x2310 => some (execUnitTest r ⟨[], [], []⟩ s)
  | 0x2410 => some (execOutputSet r s)
  | 0x2411 => some (execPulseTest r s)
  | 0x3010 => some (execLinkSync r s)
  | 0x3011 => some (execHostUnfreeze r s)
  | 0x3110 => some (execImageWrite r s)
  | 0x3111 => some (execCfgStore r s)
  | 0x3112 => some (execCheckRead r s)
  | 0x3113 => some (execCommissionConfirm r s)
  | 0x3114 => some (execFwWrite r s)
  | 0x3115 => some (execFwActivate r s)
  | 0x3210 => some (execStateSet r s)
  | 0x3211 => some (execPadsRelease r s)
  | 0x3212 => some (execWakeSourceRead r s)
  | 0x3310 => some (execThmRead r s)
  | 0x3410 => some (execStanddownNow r s)
  | 0x3411 => some (execResultRead r s)
  | 0x3412 => some (execFuseRepair r s)
  | _ => none

/-- The generic operations of a block (R75, R554). -/
def opOfBlock (code : Nat) (r : Req) (s : State) : Option Out :=
  match Block.ofCode (code / 256), code % 256 with
  | some b, 1 => some (execParamRead b r s)
  | some b, 2 => some (execParamWrite b r s)
  | some b, 3 => some (execStatusRead b r s)
  | _, _ => none

/-- A command packet executed by its opcode. -/
def runCode (code : Nat) (r : Req) (s : State) : State :=
  afterOf ((((opOf code r s).or (opOfNet code r s)).or (opOfBlock code r s)).getD (execOpcodeNotInIndex (BitVec.ofNat 16 code) r s)) s

/-! ### The agreed inputs of the period -/

/-- What a lane's vector gave is taken: host packets whose last quad is agreed leave their buffers, streamed items are used up (R62,
R66, R126). -/
def Chip.takeStreams (c : Chip) (l : LaneId) : Chip :=
  let rx := (c.bridges.get l).rx.map (fun p => { p with carried := p.carried + p.offered, offered := 0 })
  let whole (p : RxPacket) : Bool := decide (p.quads ≤ p.carried)
  let c := c.setRx l (rx.filter (fun p => !whole p))
  c.modLane l (fun n => { n with
    round := { n.round with packets := rx.filter whole }
    arriving := n.arriving.filter (fun e => !n.round.items.contains e.item) })

/-- Units fenced by a lane's own detectors, agreed: 0x0503 with the unit's type, number and lane (R429). -/
def Chip.agreeFences (c : Chip) (l : LaneId) : Chip :=
  let us := (c.lane l).round.own.fencedHere
  let c := us.foldl (fun c (u : Nat × Nat) => (c.setUnitFence l u.1 u.2 true).agreedFault 0x0503 u.1 u.2 l.idx) c
  c.modLane l (fun n => { n with fencedNow := n.fencedNow.filter (fun u => !us.contains u) })

/-- The lane byte of a fault that the Pintle die reports: the lane for a lane or path, else the die (R427, R428). -/
def pintleByte (t i : Nat) : Nat := if t = 0x01 ∨ t = 0x03 then i else 3

/-- The faults that the lanes' reports from the Pintle die have brought, agreed like its other data (PSN); a claimed output that the die fences is fenced for every lane (R428). -/
def Chip.agreePintle (c : Chip) : Chip :=
  let ps := (c.parts.filter (fun e => e.2.psn.given && !(c.pintle.lanes.get e.1).pathFailed)).map (fun e => (e.1, e.2.pintleFaults))
  (c.agreeList ps).foldl (fun c (f : Nat × Nat × Nat) =>
    let c := c.agreedFault f.1 f.2.1 f.2.2 (pintleByte f.2.1 f.2.2)
    if f.2.1 = 0x06 ∧ faultClass f.1 = 2 then c.setUnitFence .a 0x06 f.2.2 true else c) c

/-- The states to which a held item returns. -/
def Chip.unitsNow (c : Chip) : Units :=
  let d := c.dev
  { loops := d.loops, motors := d.motors, steppers := d.steppers, fb := d.agreed.fb, so := d.so, ownSlots := d.ownSlots, claims := d.claims,
    snow := d.snow, launches := d.launches }

/-- The claim vector of the period is computed, and held by the lanes that compute (R25 to R28). -/
def Chip.claimItem (c : Chip) : Chip :=
  let c := c.sdDecide.computeClaims
  c.modLanes (fun l n => if hasLane c.dev.aset l && c.computes l then { n with chk := { n.chk with claims := c.dev.claims.nums } } else n)

/-- The period up to its operations. What a held item keeps stays that of the last period in which a lane passed (R140). First the vector, the temperatures, the fences, the network data, and the items that the operations go
by. -/
def Chip.periodInputs (c : Chip) : Chip :=
  let ls := lanesOf c.dev.aset
  let c := c.modDev (fun d => { d with computed := true })
  let c := (ls.foldl Chip.takeStreams c.gapRecords).agreeVector
  let c := c.modDev (fun d => { d with before := if d.unpassed then { d.before with fb := c.unitsNow.fb, launches := d.launches } else c.unitsNow })
  let c := (ls.foldl Chip.agreeFences c.thermalPeriod.laneTolerance.netAgree).agreePintle
  let c := (List.range 8).foldl (fun c k => c.fbItem k) ((List.range 8).foldl (fun c k => c.fbAlign k) c)
  c.trackMotors.snowSense.claimItem.newCauses.openReplies

/-! ### Host packets (R62) -/

/-- The host packets of the period that go by no session, link by link in arrival order. HOST.LINK_SYNC never goes by one (R60). -/
def plainPackets (s : State) : List RxPacket :=
  (lanesOf s.chip.dev.aset).flatMap (fun l => (s.chip.lane l).round.packets.filter (fun p => decide (p.req.session = 0 ∨ p.opcode = 0x3010)))

def runPackets (s : State) : State := (plainPackets s).foldl (fun s p => runCode p.opcode p.req s) s

/-! ### Keyway PDUs (R133, R367, R369, R371, R380) -/

/-- A host packet of session n through its link's gate: answered, sent again, discarded by R369, or a copy of the session's PDU. -/
def Chip.gatePacket (c : Chip) (n : Nat) (p : RxPacket) : Option (LaneId × Nat × Req) × Chip :=
  match p.req.link with
  | none => (none, c)
  | some l =>
    match c.linkGate p.crc p.req with
    | .answer st => (none, (c.reply p.opcode p.req st []).linkAccount p.req st)
    | .again =>
      (none, c.linkAgain p.req)
    | .go =>
      let (op, r) := pduOf (some l) n p.req.mask p.req.seq p.req.payload
      if c.pduPasses (some l) n p.req.payload && headersMatch p op r then (some (l, op, r), c.linkAdvance p.crc p.req)
      else (none, c.pduFails l n)

/-- A streamed PDU: one that came on a host link counts as the packet that the link expects. -/
def Chip.gatePdu (c : Chip) (e : LaneId × Nat × Req) : Option (LaneId × Nat × Req) × Chip :=
  match e.2.2.link with
  | none => (some e, c)
  | some l =>
    let r : Req := { e.2.2 with seq := (c.dev.hosts.get l).expected }
    let crc := c.reqCrc e.2.1 r
    if c.linkGate crc r = .go then (some (e.1, e.2.1, r), c.linkAdvance crc r) else (none, c)

/-- Every copy of session n's PDUs that the period agrees, through the gates of their links. -/
def Chip.gateAll (c : Chip) (n : Nat) : List (LaneId × Nat × Req) × Chip :=
  let ps := (lanesOf c.dev.aset).flatMap (fun l => (c.lane l).round.packets.filter (fun p => decide (p.req.session = n ∧ p.opcode ≠ 0x3010)))
  let a := ps.foldl (fun (a : List (LaneId × Nat × Req) × Chip) p =>
    let (x, c) := a.2.gatePacket n p
    (a.1 ++ x.toList, c)) (([] : List (LaneId × Nat × Req)), c)
  (a.2.pduCopies n).foldl (fun (a : List (LaneId × Nat × Req) × Chip) e =>
    let (x, c) := a.2.gatePdu e
    (a.1 ++ x.toList, c)) a

/-- An agreed PDU executed; its link has already let it pass, so that the link's account stays as it is. -/
def runPdu (op : Nat) (r : Req) (s : State) : State :=
  match r.link with
  | none => runCode op r s
  | some l =>
    let h := s.chip.dev.hosts.get l
    let s := runCode op r (s.onChip (fun c => c.modHost l (fun h => { h with expected := r.seq, synced := true, frozen := false })))
    s.onChip (fun c => c.modHost l (fun g => { g with
      expected := h.expected, synced := h.synced, lastCrc := h.lastCrc, frozen := h.frozen || g.frozen
      lastReply := if (r.seq + 1) % 2 ^ 32 = h.expected then g.lastReply else none }))

/-- The reply's PDU goes out on every further link that carried a copy, under that packet's own header (R380). -/
def Chip.copyReplies (c : Chip) (first : LaneId) (p : OutPacket) (copies : List (LaneId × Req)) : Chip :=
  (copies.foldl (fun (a : Chip × List LaneId) e =>
    if a.2.contains e.1 then a
    else
      let q : OutPacket := { p with seq := e.2.seq, mask := e.2.mask }
      ((a.1.modDev (fun d => { d with replies := d.replies ++ [(e.1, q)] })).modHost e.1 (fun h => { h with lastReply := some q }), a.2 ++ [e.1]))
    (c, [first])).1

/-- The reply that an operation has just given on a link. -/
def Chip.replyOn (c : Chip) (l : LaneId) (before : Nat) : Option OutPacket :=
  (((c.dev.replies.drop before).filter (fun e => e.1 == l)).map (·.2)).head?

/-- The one PDU of session n that the period executes (R133, R371). -/
def runSessionPdu (n : Nat) (s : State) : State :=
  let (copies, c) := s.chip.gateAll n
  let (won, c) := c.agreePdu n copies
  let s := { s with chip := c }
  match won with
  | none => s
  | some (op, r) =>
    let before := s.chip.dev.replies.length
    let s := runPdu op r s
    match r.link with
    | none => s
    | some l =>
      match s.chip.replyOn l before with
      | none => s
      | some p =>
        let same := copies.filterMap (fun e => if pduKey e.2.1 e.2.2 = pduKey op r then e.2.2.link.map (fun k => (k, e.2.2)) else none)
        s.onChip (fun c => c.copyReplies l p same)

/-- The Keyway PDUs of the period in ascending session number (R62). -/
def runSessions (s : State) : State :=
  let named := (lanesOf s.chip.dev.aset).flatMap (fun l => (s.chip.lane l).round.packets.map (fun p => p.req.session))
  (s.chip.pduSessions named).foldl (fun s n => runSessionPdu n s) s

/-! ### The order of agreed records (R430) -/

/-- What decides the place of an agreed record in its period: device-wide first, then lane byte, code, unit type, instance. -/
def recBefore (x y : FaultRec) : Bool :=
  let key (r : FaultRec) : List Nat := [if r.lane = 0xFF then 0 else r.lane + 1, r.code, r.utype, r.inst]
  decide (List.lex (key x) (key y) = true)

/-- A record put in its place. -/
def recInsert (x : FaultRec) : List FaultRec → List FaultRec
  | [] => [x]
  | y :: ys => if recBefore x y then x :: y :: ys else y :: recInsert x ys

/-- The picked records of a list replaced one after another by others. -/
def replacePicked (pick : FaultRec → Bool) : List FaultRec → List FaultRec → List FaultRec
  | [], _ => []
  | x :: xs, new =>
    if pick x then (match new with
      | [] => x :: replacePicked pick xs []
      | y :: ys => y :: replacePicked pick xs ys)
    else x :: replacePicked pick xs new

/-- The agreed records of the period put in their order: places and order numbers. -/
def Collector.orderAgreed (q : Collector) (sn : Nat) : Collector :=
  let pick (r : FaultRec) : Bool := r.agreed && decide (r.nt = sn)
  let xs := (sortByOrd (q.opened ++ q.queue)).filter pick
  let sorted := xs.foldl (fun acc x => recInsert x acc) []
  let new := (sorted.zip (xs.map (·.ord))).map (fun e => (e.1.ord, { e.1 with ord := e.2 }))
  let of_ (rs : List FaultRec) : List FaultRec := (new.filter (fun e => rs.any (fun r => pick r && decide (r.ord = e.1)))).map (·.2)
  { q with opened := replacePicked pick q.opened (of_ q.opened), queue := replacePicked pick q.queue (of_ q.queue) }

/-- The same in every lane. -/
def Chip.orderAgreed (c : Chip) : Chip := c.modLanes (fun _ n => { n with fault := n.fault.orderAgreed c.dev.sn })

/-! ### The work items (R138, R143) -/

/-- A stand-down that a stop of this period has overtaken. -/
def Chip.sdOvertaken (c : Chip) (was : Option LaneId) : Chip :=
  match was with
  | some l => if c.dev.sdNext.isNone then c.sdCancel l else c
  | none => c

/-- The period after its operations: the stop sequence, loops, bridges, steppers, power, sessions. -/
def Chip.periodItems (c : Chip) : Chip :=
  let sd := c.dev.sdNext
  let c := c.snowItem.enterLoops.runLoops
  let c := (List.range 4).foldl (fun c k => c.motorItem k) c
  let c := (List.range 6).foldl (fun c k => c.stepItem k) c
  let c := ((c.snowLate.sdOvertaken sd).notices).powerPeriod
  let c := ((List.range 128).drop 1).foldl (fun c n => c.sessionCycle n) c
  c.clearSuspects.startAutoTests.orderAgreed

/-- The agreement rule and the work of a period. -/
def computePeriod (s : State) : State :=
  (runSessions (runPackets (s.onChip Chip.periodInputs))).onChip Chip.periodItems

/-- AGREEMENT_DONE: the lane has finished the agreement rule; the first lane that computes carries out the period's work, which is the
same in every lane of the set (R128, R137). -/
def agreementDone (l : LaneId) (s : State) : State :=
  let c := s.chip
  let n := (c.lane l).round
  if !(c.sampledIn l) || n.agreed || n.absent || n.aset.isNone then s
  else
    let s := s.onChip (fun c => c.modLane l (fun n => { n with round := { n.round with agreed := true }, chk := { n.chk with misses := 0 } }))
    if !c.dev.computed && c.computes l && hasLane c.dev.aset l then computePeriod s else s

def execAgreementDone (l : LaneId) (s : State) : Out := .next (agreementDone l s)

end Sys2Proof.Machine
end

