-- ==== Sys2Proof/Machine/Fold.lean ====
section
/-! DEFINITION. The fold stream of a period, its signature, and the quads that the checkpoint sends (R144 to R149). -/

namespace Sys2Proof.Machine

open Sys2Proof

/-! ### Completion masks as quads (R144) -/

/-- A completion mask's quad: one bit per item, the lane index, a CRC-32C over both (R144). -/
def maskQuad (l : LaneId) (m : BitVec 88) : List Byte :=
  let b := toLe 11 m.toNat ++ toLe 1 l.idx
  b ++ toLe 4 (crc32c b)

/-- The mask of a lane in a quad that arrived: none when the CRC or the lane index is wrong (R144). -/
def maskOfQuad (l : LaneId) (b : List Byte) : Option (BitVec 88) :=
  if b.length = 16 ∧ fld b 12 4 = crc32c (b.take 12) ∧ fld b 11 1 = l.idx then some (BitVec.ofNat 88 (fld b 0 11)) else none

/-! ### The sections (R146) -/

/-- A section: its header quad and its items, each in whole quads (R146). -/
def foldSection (num : Nat) (items : List (List Byte)) : List Byte :=
  let d := items.flatMap padQuads
  toLe 2 num ++ toLe 2 (d.length / 16) ++ toLe 12 0 ++ d

/-- Section 1 of a lane that found an agreement set and a completion mask. -/
def Chip.foldHead (c : Chip) (aset : Mask) (done : BitVec 88) : List Byte :=
  toLe 8 c.dev.count ++ toLe 1 c.classNow ++ LaneId.all.flatMap (fun l => toLe 1 (if hasLane c.dev.joined l then 1 else 0)) ++
    toLe 4 (crc32c (c.vectorBytes aset)) ++ toLe 11 done.toNat

/-- Section 3: the current commands of the winding sets of MB0 and MB1. -/
def Chip.foldSets (c : Chip) : List (List Byte) :=
  [0, 1].flatMap (fun k => LaneId.all.map (fun l =>
    let w := (nth c.dev.motors k {}).sets.get l
    toLeI 4 w.iq ++ toLeI 4 w.id))

/-- Section 4: the commands of BM0, BM1 and ST0 to ST5 with their mode fields. -/
def Chip.foldClaimed (c : Chip) : List (List Byte) :=
  [2, 3].map (fun k =>
    let m := nth c.dev.motors k {}
    toLeI 4 (m.sets.get .a).iq ++ toLeI 4 (m.sets.get .a).id ++ toLe 1 m.state.code ++ toLe 1 (packBits [m.enabled, m.fenced])) ++
  (List.range 6).map (fun k =>
    let x := nth c.dev.steppers k {}
    toLeI 4 x.x0 ++ toLeI 4 x.x1 ++ toLe 2 x.j0 ++ toLe 2 x.amp ++ toLe 1 (packBits [x.energised, x.strong, x.idle, x.fenced]))

/-- Section 6: the timed launches accepted in the period. -/
def Chip.foldLaunches (c : Chip) : List (List Byte) :=
  (c.dev.launches.filter (fun x => !c.dev.before.launches.contains x)).map (fun x =>
    toLe 1 x.out ++ toLe 1 x.kind ++ toLe 2 x.index ++ toLe 8 x.count ++ toLe 1 x.by_ ++ x.args)

/-- Section 7: an identity quad and a quad with the CRC-64/XZ of its payload for each frame to send: own slots, then host frames. -/
def Chip.foldFrames (c : Chip) : List (List Byte) :=
  c.dev.ownSlots.flatMap (fun e => [toLe 2 e.1 ++ toLe 2 e.2.length, toLe 8 (crc64xz e.2)]) ++
  (c.dueLaunches.filter (fun x => decide (x.kind = 10))).flatMap (fun x => [toLe 2 0xFFFF ++ toLe 2 x.args.length, toLe 8 (crc64xz x.args)])

/-- Section 8: the Keyway PDUs to send, in full. -/
def Chip.foldPdus (c : Chip) : List (List Byte) := c.dev.pdus.map (·.data) ++ c.dev.openPdus.map (·.2.2)

/-- Section 9: the header quad and a quad with the CRC-64/XZ of the payload for each reply and event. -/
def Chip.foldReplies (c : Chip) : List (List Byte) :=
  (c.dev.replies ++ c.dev.events).flatMap (fun e => [e.2.bytes.take 16, toLe 8 (crc64xz (padQuads e.2.payload))])

/-- The agreed records of the period, in their order (R430). -/
def Chip.agreedRecords (c : Chip) : List FaultRec :=
  let q := (c.lane (c.leader.getD .a)).fault
  ((sortByOrd (q.opened ++ q.queue)).reverse).filter (fun r => r.agreed && decide (r.nt = c.dev.sn))

/-- Section 10: the parameter values that take effect at the coming boundary, and the records agreed in the period. -/
def Chip.foldValues (c : Chip) : List (List Byte) :=
  c.dev.cfg.shadow.map (fun e => toLe 2 (e.1 / 256) ++ toLe 1 (e.1 % 256) ++ toLe 5 0 ++ toLeI 8 e.2) ++
    (match c.dev.cfg.wsNext with | some g => [toLe 4 g.seq ++ toLe 4 g.crc] | none => []) ++ c.agreedRecords.map FaultRec.quad

/-- The mirrored set of the period with its quad 0. -/
def Chip.mirrorSet (c : Chip) (data : List Byte) : List Byte := mirrorBytes ((c.mirrorLane.map LaneId.idx).getD 0xFF) c.dev.count data

/-- The sections that every lane folds alike, 2 to 11. DESIGN CHOICE (log 105): where R146 names an item and no chapter gives its
layout, the model's stands. -/
def Chip.foldRest (c : Chip) (mirror : List Byte) : List Byte :=
  foldSection 2 [(claimBytes c.dev.claims.nums c.dev.claims.readmit c.dev.count).take 8] ++ foldSection 3 c.foldSets ++ foldSection 4 c.foldClaimed ++
    foldSection 5 (LaneId.all.map (fun l => toLe 1 (c.dev.so.get l).toNat)) ++ foldSection 6 c.foldLaunches ++ foldSection 7 c.foldFrames ++
    foldSection 8 c.foldPdus ++ foldSection 9 c.foldReplies ++ foldSection 10 c.foldValues ++ foldSection 11 [c.mirrorSet mirror]

/-- The signature of a fold stream: CRC-64/XZ and the CRC-64 of polynomial 0x1B (R148). -/
def signatureOf (b : List Byte) : Nat × Nat := (crc64xz b, crc64iso b)

/-! ### Signature records (R149) -/

/-- Quad 0 of a record with a value in its CRC field. -/
def headQuad (q : SigRec) (crc : Nat) : List Byte :=
  toLe 1 q.lane ++ toLe 1 q.kind ++ toLe 2 q.quads ++ toLe 4 q.count ++ toLe 4 0 ++ toLe 4 crc

/-- Quad 1 of a record: the signature, or zero for kinds 2 and 3. -/
def tailQuad (q : SigRec) : List Byte := if q.kind = 1 then toLe 8 q.sigLo ++ toLe 8 q.sigHi else toLe 16 0

/-- A record as two quads, with the CRC-32C over both (R149). -/
def sigRecBytes (q : SigRec) : List Byte := headQuad q (crc32c (headQuad q 0 ++ tailQuad q)) ++ tailQuad q

/-- A record read from two quads; one that fails its CRC counts as kind 2 (R149). -/
def sigRecOf (b : List Byte) : SigRec :=
  if b.length = 32 ∧ fld b 12 4 = crc32c (b.take 12 ++ toLe 4 0 ++ b.drop 16) then
    { lane := fld b 0 1, kind := fld b 1 1, quads := fld b 2 2, count := fld b 4 4, sigLo := fld b 16 8, sigHi := fld b 24 8 }
  else {}

end Sys2Proof.Machine
end

