-- ==== Sys2Proof/Machine/Checkpoint.lean ====
section
/-! DEFINITION. The checkpoint (chapter 06): completion masks and held items, signature records and the vote, divergences, core pairs,
resynchronisation and the mirrored set. -/

namespace Sys2Proof.Machine

open Sys2Proof

/-! ### Work items (R138, R143) -/

/-- The unit of a work item, by type and number (R427). -/
def itemUnit (i : Nat) : Nat × Nat :=
  if i < 64 then (0x08, i) else if i < 66 then (0x07, i - 64) else if i < 68 then (0x06, i - 60) else if i < 74 then (0x06, i - 68)
  else if i < 82 then (0x09, i - 74) else (0x16, i)

/-- The device has a work item: a context enabled, a bridge, channel or feedback channel in use. -/
def Chip.itemExists (c : Chip) (i : Nat) : Bool :=
  if i < 64 then c.loopOn i
  else if i < 68 then bridgeUsed c.dev.cfg.ws (i - 64)
  else if i < 74 then stepUsed c.dev.cfg.ws (i - 68)
  else if i < 82 then decide (c.par Par.fbkMode (i - 74) ≠ 0)
  else decide (i < 88)

/-- The reduced service set of joined cores (R161). -/
def Chip.reducedSet (c : Chip) (i : Nat) : Bool := decide (64 ≤ i) || (c.parN Par.chkJoinLoops).testBit i

/-- The judging lanes of an item: the lanes of the set that do not send records of kind 3; of a context those in which it is not
fenced (R138, R294). -/
def Chip.judges (c : Chip) (i : Nat) : List LaneId :=
  (lanesOf c.dev.aset).filter (fun l => !c.resyncing l && !(decide (i < 64) && (nth c.dev.loops i {}).fenced.get l))

/-- The completion masks that a lane goes by: its own, those received, none finished for one that is missing (R145). -/
def Chip.maskOfLane (c : Chip) (l k : LaneId) : BitVec 88 :=
  let r := (c.lane l).round
  if k = l then r.mask.getD 0 else (r.masks.get k).getD 0

/-- An item counts as completed in the view of a lane: a majority of the judging lanes finished it (R138). -/
def Chip.itemDone (c : Chip) (l : LaneId) (i : Nat) : Bool :=
  let js := c.judges i
  decide (js.length < 2 * (js.filter (fun k => (c.maskOfLane l k).getLsbD i)).length)

/-- An item is left out of the judgement: not there, fenced as a work item, outside the set of a joined lane, or without a judge. -/
def Chip.itemIdle (c : Chip) (i : Nat) : Bool :=
  !c.itemExists i || c.dev.itemFenced.contains i || (decide (c.dev.joined ≠ 0) && !c.reducedSet i) || (c.judges i).isEmpty

/-- The items that a lane sees as completed. -/
def Chip.doneMask (c : Chip) (l : LaneId) : BitVec 88 :=
  (List.range 88).foldl (fun m i => if !c.itemIdle i && c.itemDone l i then m ||| (1#88 <<< i) else m) 0

/-- A held item's unit returns to its state before the period's computation (R140). The stop sequence keeps a cause that waits. -/
def Chip.restoreItem (c : Chip) (i : Nat) : Chip :=
  let b := c.dev.before
  if i < 64 then c.modLoop i (fun _ => nth b.loops i {})
  else if i < 68 then c.modMotor (i - 64) (fun _ => nth b.motors (i - 64) {})
  else if i < 74 then c.modStep (i - 68) (fun _ => nth b.steppers (i - 68) {})
  else if i < 82 then c.modAgreedFb (i - 74) (fun _ => nth b.fb (i - 74) {})
  else if i = 82 then c.modDev (fun d => { d with so := b.so })
  else if i = 83 then c.modDev (fun d => { d with ownSlots := b.ownSlots })
  else if i = 86 then c.modDev (fun d => { d with claims := b.claims })
  else if i = 87 then
    c.modSnow (fun w => { b.snow with
      pend := if w.pend.isSome then w.pend else if b.snow.step = 0 ∧ w.step ≠ 0 then some w.cause else b.snow.pend })
  else c

/-- The fence of an item's unit (R138). -/
def Chip.fenceItem (c : Chip) (i : Nat) : Chip :=
  let (t, k) := itemUnit i
  let c := c.agreedFault 0x0309 t k 0xFF
  if t = 0x07 ∨ t = 0x09 then c.fenceEverywhere t k else c.setUnitFence .a t k true

/-- A held item: 0x0308 and its count of misses; a context counts them as R292 has it (R138, R140). An exempt period counts none
(R112). -/
def Chip.holdItem (c : Chip) (i : Nat) : Chip :=
  if c.dev.exempt then c.restoreItem i
  else
  let (t, k) := itemUnit i
  let c := ((c.restoreItem i).modDev (fun d => { d with heldNow := d.heldNow ||| (1#88 <<< i) })).agreedFault 0x0308 t k 0xFF
  if i < 64 then c.loopHold i 0x1402
  else
    let n := nth c.dev.itemMiss i 0 + 1
    let c := c.modDev (fun d => { d with itemMiss := setNth d.itemMiss i (min 31 n) })
    if n = c.parN Par.perMissLimit then c.fenceItem i else c

/-- One item of the period's decision: completed, held and counted, or held without a count (R138, R140, R165). -/
def Chip.decideItem (c : Chip) (done : BitVec 88) (i : Nat) : Chip :=
  if c.itemIdle i then
    (if c.dev.itemFenced.contains i || (c.itemExists i && decide (c.dev.joined ≠ 0) && !c.reducedSet i && decide (c.classNow ≠ 2)) then
      c.restoreItem i else c)
  else if done.getLsbD i then c.modDev (fun d => { d with itemMiss := setNth d.itemMiss i 0 })
  else c.holdItem i

/-- Completion is decided and the fold of the period built, with its mirrored set and its signature (R138, R145 to R148). -/
def Chip.decidePeriod (c : Chip) (l : LaneId) : Chip :=
  let done := c.doneMask l
  let c := ((List.range 88).foldl (fun c i => c.decideItem done i) (c.modDev (fun d => { d with decided := true, done := done }))).orderAgreed
  let mirror := c.mirrorData
  let fold := foldSection 1 [c.foldHead c.dev.aset done] ++ c.foldRest mirror
  c.modDev (fun d => { d with mirror := mirror, fold := fold, sig := signatureOf fold })

/-! ### Signature records (R148, R149) -/

/-- The fold stream of a lane: the period's, with a section 1 of its own when it found another agreement set or decision (R146). -/
def Chip.foldOf (c : Chip) (l : LaneId) (view : BitVec 88) : List Byte :=
  let r := (c.lane l).round
  if r.aset = some c.dev.aset ∧ view = c.dev.done then c.dev.fold
  else foldSection 1 [c.foldHead (r.aset.getD 0) view] ++ c.dev.fold.drop 48

/-- A lane's state is not the agreed one: an item that counts as completed and that the lane did not finish, or a mirrored set applied
that was another (R138, R155). -/
def Chip.ownStateDiffers (c : Chip) (l : LaneId) : Bool :=
  let n := c.lane l
  n.chk.skewed || decide (c.dev.done &&& ~~~(n.round.mask.getD 0) ≠ 0)

/-- The record that a lane sends for the period (R149). What a lane with other state folds is open: its signature is a free value
that no other lane has (log 17). -/
def Chip.ownRecord (c : Chip) (l : LaneId) (view : BitVec 88) : SigRec × Chip :=
  let fold := c.foldOf l view
  let sig := if fold = c.dev.fold then c.dev.sig else signatureOf fold
  let q : SigRec := { lane := l.idx, kind := 1, quads := fold.length / 16, count := c.dev.count % 2 ^ 32, sigLo := sig.1, sigHi := sig.2 }
  if c.ownStateDiffers l then
    let (x, c) := c.draw
    ({ q with sigLo := (sig.1 + 1 + l.idx + 3 * (x % 2 ^ 62)) % 2 ^ 64 }, c)
  else (q, c)

/-- The lanes outside the computation of a period have a record of kind 3 (R157). -/
def Chip.resyncRecords (c : Chip) : Chip :=
  c.modLanes (fun l n => if hasLane c.dev.aset l && c.resyncing l && n.round.record.isNone then
    { n with round := { n.round with record := some { lane := l.idx, kind := 3, count := c.dev.count % 2 ^ 32 } } } else n)

/-- A record of kind 2 or 3, without a signature. -/
def Chip.bareRecord (c : Chip) (l : LaneId) (kind : Nat) : SigRec := { lane := l.idx, kind := kind, count := c.dev.count % 2 ^ 32 }

/-- What a lane's record is made of the signature that its core 1 gives: in a joined lane a record of kind 2 where it is another, in a
split lane that of the one fold of both cores (R161). -/
def Chip.coreRecord (c : Chip) (l : LaneId) (q : SigRec) : Option (Nat × Nat × Nat) → SigRec
  | none => q
  | some (n, lo, hi) =>
    if hasLane c.dev.joined l then (if lo = q.sigLo ∧ hi = q.sigHi then q else c.bareRecord l 2)
    else { q with quads := n, sigLo := lo, sigHi := hi }

/-- A lane builds its fold and its record, and sends the record on both its links (R146, R149). -/
def Chip.foldLane (c : Chip) (l : LaneId) : Chip :=
  let first := !c.dev.decided
  let view := if first then 0 else c.doneMask l
  let c := if first then (c.decidePeriod l).resyncRecords else c
  let (own, c) := c.ownRecord l (if first then c.dev.done else view)
  let q := c.coreRecord l own (c.lane l).round.core1
  (c.modLane l (fun n => { n with
    round := { n.round with record := n.round.record.or (some q) }
    chk := { n.chk with lastSig := (q.sigLo, q.sigHi) } })).sendLinks l l.partners .signatures 2

/-- The masks of every computing lane of the set are held (R145). -/
def Chip.masksHeld (c : Chip) (l : LaneId) : Bool :=
  let r := (c.lane l).round
  r.mask.isSome && (lanesOf c.dev.aset).all (fun k => k == l || c.resyncing k || (r.masks.get k).isSome)

/-! ### The vote (R150 to R152, R164) -/

/-- A record as one lane goes by it: its two copies, or the direct one where no relay exists, or the relayed one where the link is
fenced; of kind 2 when the copies differ or the count is wrong (R13, R14, R149). -/
def Chip.recordAt (c : Chip) (l k : LaneId) : Option SigRec :=
  if k = l then (c.lane l).round.record
  else
    let h := (c.lane l).round.records.get k
    let relay := match thirdLane l k with
      | some t => c.inRound t && !(c.linkAt (linkIdx k t)).fenced && !(c.linkAt (linkIdx t l)).fenced
      | none => false
    let got := if (c.linkAt (linkIdx l k)).fenced then h.relayed
      else match h.direct, h.relayed with
        | some d, some r => some (if d = r then d else { d with kind := 2 })
        | some d, none => if relay then none else some d
        | none, _ => none
    got.map (fun q => if q.count = c.dev.count % 2 ^ 32 then q else { q with kind := 2 })

/-- The lanes whose records a vote counts: those of the set that do not send records of kind 3 (R150). -/
def Chip.voters (c : Chip) : List LaneId := (lanesOf c.dev.aset).filter (fun l => !c.resyncing l)

/-- The records of a vote, when a lane holds them all. -/
def Chip.ballots (c : Chip) (l : LaneId) : Option (List (LaneId × SigRec)) :=
  let rs := (c.voters).map (fun k => (k, c.recordAt l k))
  if rs.all (fun e => e.2.isSome) then some (rs.map (fun e => (e.1, e.2.getD {}))) else none

/-- What a vote finds (R150). -/
inductive VoteResult where
  /-- these lanes pass -/
  | pass (ls : List LaneId)
  /-- these pass, and this one is the odd lane -/
  | odd (ls : List LaneId) (l : LaneId)
  /-- two records differ, with no third -/
  | pair (x y : LaneId)
  /-- no majority, or a single split record -/
  | split
  /-- the cores of a joined lane disagree -/
  | cores (l : LaneId)
  /-- no record of kind 1 -/
  | none_
  deriving DecidableEq, Repr

/-- Two signatures are equal. -/
def sameSig (x y : SigRec) : Bool := decide (x.sigLo = y.sigLo ∧ x.sigHi = y.sigHi)

/-- The outcome of R150. -/
def Chip.voteOf (c : Chip) (rs : List (LaneId × SigRec)) : VoteResult :=
  match rs.filter (fun e => e.2.kind == 1) with
  | [(x, p), (y, q), (z, r)] =>
    if sameSig p q && sameSig q r then .pass [x, y, z]
    else if sameSig p q then .odd [x, y] z
    else if sameSig p r then .odd [x, z] y
    else if sameSig q r then .odd [y, z] x
    else .split
  | [(x, p), (y, q)] => if sameSig p q then .pass [x, y] else .pair x y
  | [(x, _)] => if hasLane c.dev.joined x then .pass [x] else .split
  | _ =>
    match rs with
    | [(x, _)] => if hasLane c.dev.joined x && !(c.lane x).round.absent then .cores x else .none_
    | _ => .none_

/-- The lanes that pass. -/
def VoteResult.passing : VoteResult → List LaneId
  | .pass ls => ls
  | .odd ls _ => ls
  | _ => []

/-- A divergence within CHK.DIV_WINDOW matrix cycles of an earlier one (R151, R152, R164). -/
def Chip.inDivWindow (c : Chip) (m : Option Nat) : Bool :=
  match m with
  | some k => decide (c.cyclesSince k ≤ c.parN Par.chkDivWindow)
  | none => false

/-- A lane is to be resynchronised from a source, which sends the remainder as it stands at this checkpoint (R155, R157 step 3). -/
def Chip.resyncFrom (c : Chip) (l : LaneId) (source : Option LaneId) : Chip :=
  (c.modLane l (fun n => { n with chk := { n.chk with resyncPend := true, source := source, snapshot := false, owed := 0 } })).sendSnapshot source l

/-- A divergence corrected: the lane is resynchronised from a source (R28, R151, R152). -/
def Chip.correct (c : Chip) (l : LaneId) (source : Option LaneId) : Chip :=
  (c.modLane l (fun n => { n with chk := { n.chk with
    lastDiv := some c.dev.matrix, divs := n.chk.divs ++ [c.dev.matrix] } })).resyncFrom l source

/-- The matrix cycle of the last corrected divergence of a pair of lanes (R152). -/
def Chip.pairDiv (c : Chip) (pair : Nat) : Option Nat := ((c.dev.pairDivs.filter (fun e => e.1 == pair)).map (·.2)).head?

/-- Both cores of a joined lane take the state of the last period in which they agreed: that from before this period's computation, with
the mirrored set of its checkpoint (R153, R164). -/
def Chip.reloadUnits (c : Chip) : Chip :=
  let c := ((List.range 88).filter c.reducedSet).foldl (fun c i => c.restoreItem i) c
  if c.dev.copy = [] then c else c.applyMirror (c.dev.copy.take 1344)

/-- What a vote brings about in every lane (R150 to R152, R164). -/
def Chip.voteEvents (c : Chip) (v : VoteResult) : Chip :=
  match v with
  | .pass _ => c
  | .odd ls l =>
    if c.inDivWindow (c.lane l).chk.lastDiv then c.pendFence l 0x0402
    else (c.agreedFault 0x0401 0x01 l.idx l.idx).correct l (c.highest ls)
  | .pair x y =>
    let low := if c.higher x y then y else x
    let high := if c.higher x y then x else y
    let m := (maskOf [x, y]).toNat
    let c := c.modDev (fun d => { d with differed := true })
    if c.inDivWindow (c.pairDiv m) then c.pendFence low 0x0404
    else ((c.agreedFault 0x0403 0x01 low.idx low.idx).correct low (some high)).modDev (fun d => { d with
      pairDivs := (m, d.matrix) :: d.pairDivs.filter (fun e => e.1 != m) })
  | .split => (c.agreedFault 0x0405 0 0 0xFF).modDev (fun d => { d with split405 := true })
  | .cores l =>
    if c.inDivWindow (c.lane l).chk.coreDiv then c.pendFence l 0x0407
    else
      ((c.agreedFault 0x0406 0x01 l.idx l.idx).modLane l (fun n => { n with chk := { n.chk with coreDiv := some c.dev.matrix } })).reloadUnits
  | .none_ => c

/-! ### The mirror of a period (R154) -/

/-- The mirror source among lanes that passed: the holder, else the one with the highest claim (R154). -/
def Chip.mirrorSource (c : Chip) (passed : Mask) : Option LaneId :=
  match c.pintle.holder with
  | some l => if hasLane passed l then some l else c.highest (lanesOf passed)
  | none => c.highest (lanesOf passed)

/-- The copy as it stands at the first checkpoint of the period that passes, and the delta to that of the last mirror; each
resynchronising lane is owed that delta (R154, R157 step 4). Without an earlier mirror every quad belongs to the delta (log 104). -/
def Chip.formCopy (c : Chip) : Chip :=
  let new := c.dev.mirror ++ c.remainder
  let delta := changedQuads (new.length / 16) c.dev.copy new
  (c.modDev (fun d => { d with copy := new, delta := delta })).modLanes (fun _ n =>
    if n.chk.resync = 1 then { n with chk := { n.chk with owed := min 255 (n.chk.owed + 1) } } else n)

/-- The source sends the mirrored set to every other lane in the rounds, with the delta to those that catch up or are
resynchronised (R12, R154). -/
def Chip.sendMirror (c : Chip) (l : LaneId) : Chip :=
  (LaneId.all.filter (fun k => k != l && c.inRound k)).foldl (fun c k =>
    c.sendLink l k .mirror (85 + (if c.resyncing k || (c.lane k).round.absent then c.dev.delta else 0))) c

/-- Step 6 of a resynchronisation ends with a passing record: a joining lane enters authority, a stand-down ends, and a barred lane is
given its readmit bit (R157, R160, R442). -/
def Chip.endResync (c : Chip) (l : LaneId) : Chip :=
  let k := (c.lane l).chk
  let back := (c.lane l).boot.readmitting
  let c := c.modLane l (fun n => { n with chk := { n.chk with resync := 0, resyncAge := 0, snapshot := false, source := none, joining := false } })
  let c := if (c.pintle.lanes.get l).barred then
      c.modDev (fun d => { d with claims := { d.claims with readmit := setLaneBit d.claims.readmit l true } }) else c
  if !k.joining then c
  else if c.dev.standdown = some l then c.sdComplete l
  else
    let c := (c.modDev (fun d => { d with authority := setLaneBit d.authority l true })).setClass
    let c := c.agreedFault (if back then 0x0111 else 0x0105) 0x01 l.idx l.idx
    let c := (c.modLane l (fun n => { n with boot := { n.boot with readmitting := false } })).readmitResult l stOk
    c.dueTests [l] false

/-- The replies of the period queued in a lane, once the work item of the host replies has been completed (R63, R158). -/
def Chip.queueReplies (c : Chip) (l : LaneId) : Chip :=
  if c.dev.done.getLsbD 85 then
    let mine := (c.dev.replies.filter (fun e => e.1 == l)).map (·.2)
    let c := c.takeWidths (fun by_ => by_.isNone)
    (c.modLane l (fun n => { n with txq := n.txq ++ mine })).modDev (fun d => { d with replies := d.replies.filter (fun e => e.1 != l) })
  else c

/-- The vote of one lane from its own records. What it brings about is taken once for the device (R150). -/
def Chip.voteLane (c : Chip) (l : LaneId) (rs : List (LaneId × SigRec)) : Chip :=
  let v := c.voteOf rs
  let mine := v.passing.contains l
  let c := c.modLane l (fun n => { n with round := { n.round with voted := true, passed := mine } })
  let c := if mine && decide (c.dev.passed = 0) then c.formCopy else c
  let c := if mine then c.modDev (fun d => { d with passed := setLaneBit d.passed l true }) else c
  let c := if c.dev.voted then c
    else ((c.modDev (fun d => { d with voted := true })).voteEvents v).orderAgreed
  if mine then
    let c := if c.mirrorSource (maskOf v.passing) = some l then c.sendMirror l else c
    let c := if (c.lane l).chk.resync = 5 then (c.endResync l).orderAgreed else c
    let c := c.queueReplies l
    (LaneId.all.filter c.resyncing).foldl Chip.queueReplies c
  else c

/-- The vote is taken once the lane's own record and those of the others are in. -/
def Chip.tryVote (c : Chip) (l : LaneId) : Chip :=
  let r := (c.lane l).round
  if r.voted || r.absent || !c.computes l || !hasLane c.dev.aset l || !c.dev.decided then c
  else match c.ballots l with
    | some rs => c.voteLane l rs
    | none => c

/-! ### COMPUTE_END to CHECKPOINT_DEADLINE (R138, R144, R145, R149, R150) -/

/-- A lane computes in the present period. -/
def Chip.computing (c : Chip) (l : LaneId) : Bool :=
  let r := (c.lane l).round
  c.sampledIn l && r.agreed && !r.absent && c.computes l && c.dev.computed && hasLane c.dev.aset l

/-- The fold is built once every mask is held. -/
def Chip.foldIfHeld (c : Chip) (l : LaneId) : Chip :=
  if c.computing l && ((c.lane l).round.record.isNone || !c.dev.decided) && c.masksHeld l then (c.foldLane l).tryVote l else c

/-- The mask of a lane is sent on both its links, and behind it the claim vector with the measured torque currents (R12, R144). -/
def Chip.sendMask (c : Chip) (l : LaneId) (mask : BitVec 88) : Chip :=
  ((c.modLane l (fun n => { n with round := { n.round with mask := some mask } })).sendLinks l l.partners .signatures 1).sendLinks
    l l.partners .claims 2

/-- COMPUTE_END: the lane sends the mask of the items that it has finished (R144). -/
def computeEnd (l : LaneId) (mask : BitVec 88) (c : Chip) : Chip :=
  if c.computing l && (c.lane l).round.mask.isNone then
    (c.sendMask l mask).foldIfHeld l
  else c

def execComputeEnd (l : LaneId) (mask : BitVec 88) (s : State) : Out := .next (s.onChip (computeEnd l mask))

/-- COMPUTE_DEADLINE: a lane that has not ended sends what it has finished, and completion is decided with the masks that are held
(R144, R145). -/
def computeDeadline (l : LaneId) (mask : BitVec 88) (c : Chip) : Chip :=
  if !(c.computing l) then c
  else
    let c := if (c.lane l).round.mask.isNone then c.sendMask l mask else c
    if (c.lane l).round.record.isNone || !c.dev.decided then (c.foldLane l).tryVote l else c

def execComputeDeadline (l : LaneId) (mask : BitVec 88) (s : State) : Out := .next (s.onChip (computeDeadline l mask))

/-- COMPLETION_MASK: a partner's mask is held when its quad is whole; when all are, completion is decided and the fold built (R144,
R145). -/
def completionMask (rx tx : LaneId) (m : Rx (List Byte)) (c : Chip) : Chip :=
  if rx = tx || !(c.sampledIn rx) || !(c.sampledIn tx) then c
  else
    let got := match m with
      | .intact => (c.lane tx).round.mask.map (maskQuad tx)
      | .corrupt => none
      | .other b => some b
    match got.bind (maskOfQuad tx) with
    | none => c
    | some x => ((c.heardFrom rx tx).modLane rx (fun n => { n with round := { n.round with masks := n.round.masks.set tx (some x) } })).foldIfHeld rx

def execCompletionMask (rx tx : LaneId) (m : Rx (List Byte)) (s : State) : Out := .next (s.onChip (completionMask rx tx m))

/-- One copy of a record kept. -/
def HeldSig.put (h : HeldSig) (relayed : Bool) (q : SigRec) : HeldSig := if relayed then { h with relayed := some q } else { h with direct := some q }

/-- The signature of core 1 in a lane: kept for the record to come, or the record made of it (R161). -/
def Chip.coreFold (c : Chip) (l : LaneId) (b : List Byte) : Chip :=
  let sig := signatureOf b
  let x := (b.length / 16, sig.1, sig.2)
  match (c.lane l).round.record with
  | some q => c.modLane l (fun n => { n with round := { n.round with core1 := some x, record := some (c.coreRecord l q (some x)) } })
  | none => c.modLane l (fun n => { n with round := { n.round with core1 := some x } })

/-- SIGNATURE_RECORD: a copy of a partner's record is held, of kind 2 when it is not whole, and relayed to the other partner; the vote
is taken when all are in. In a lane itself it is the fold stream of its core 1 (R149, R161). -/
def signatureRecord (rx tx : LaneId) (relayed : Bool) (q : Rx (List Byte)) (c : Chip) : Chip :=
  if !(c.sampledIn rx) || !(c.sampledIn tx) || (c.lane rx).round.voted then c
  else if rx = tx then
    (match q with
    | .intact => c
    | .corrupt => c.modLane rx (fun n => { n with round := { n.round with record := some (c.bareRecord rx 2) } })
    | .other b => c.coreFold rx b)
  else
    let got := match q with
      | .intact => (c.lane tx).round.record.map sigRecBytes
      | .corrupt => some []
      | .other b => some b
    match got with
    | none => c
    | some b =>
      let c := (c.heardFrom rx tx).modLane rx (fun n => { n with
        round := { n.round with records := n.round.records.set tx ((n.round.records.get tx).put relayed (sigRecOf b)) } })
      let c := match thirdLane rx tx with
        | some t => if relayed || !c.inRound t then c else c.sendLink rx t .signatures 2
        | none => c
      c.tryVote rx

def execSignatureRecord (rx tx : LaneId) (relayed : Bool) (q : Rx (List Byte)) (s : State) : Out :=
  .next (s.onChip (signatureRecord rx tx relayed q))

/-- CHECKPOINT_DEADLINE: a lane whose vote is not complete launches nothing from the period and holds, with 0x030A unless the period
is exempt (R112, R139). -/
def checkpointDeadline (l : LaneId) (c : Chip) : Chip :=
  let r := (c.lane l).round
  if c.sampledIn l && !r.voted && !r.absent && !c.resyncing l then
    let c := c.modLane l (fun n => { n with round := { n.round with voted := true, passed := false } })
    if c.dev.exempt then c
    else (c.localFault l 0x030A 0x01 l.idx l.idx).modLane l (fun n => { n with
      chk := { n.chk with deadlineMisses := satInc 65535 n.chk.deadlineMisses } })
  else c

def execCheckpointDeadline (l : LaneId) (s : State) : Out := .next (s.onChip (checkpointDeadline l))

/-! ### Mirror and resynchronisation (R153 to R160) -/

/-- A full resynchronisation of a lane that cannot catch up: 0x040B (R155). -/
def Chip.noCatchUp (c : Chip) (l : LaneId) : Chip :=
  (c.localFault l 0x040B 0x01 l.idx l.idx).resyncFrom l (c.mirrorSource c.dev.passed)

/-- A mirrored set received whole: a passing lane compares it with section 11 of its own fold and discards it, an absent one keeps it
for the next S or is resynchronised when its delta is above 128 quads, a resynchronising one keeps it with the delta that came along
(R155, R157). -/
def Chip.takeMirror (c : Chip) (l : LaneId) (count : Nat) (data : List Byte) : Chip :=
  let r := (c.lane l).round
  let c := c.modLane l (fun n => { n with round := { n.round with mirrored := true } })
  if r.passed then (if count = c.dev.count % 2 ^ 32 ∧ data = c.dev.mirror then c else c.localFault l 0x0409 0x01 l.idx l.idx)
  else if c.resyncing l then c.modLane l (fun n => { n with chk := { n.chk with mirror := data, owed := n.chk.owed - 1 } })
  else if !r.absent then c
  else if 128 < c.dev.delta then c.noCatchUp l
  else c.modLane l (fun n => { n with chk := { n.chk with mirror := data, catchUp := true } })

/-- MIRRORED_SET: the set of the period as it reaches a lane; one that fails its CRC-32C has not been received (R153, R155). -/
def mirroredSet (l : LaneId) (q : Rx (List Byte)) (c : Chip) : Chip :=
  if !(c.sampledIn l) || (c.lane l).round.mirrored || decide (c.dev.passed = 0) || decide (c.mirrorSource c.dev.passed = some l) then c
  else
    let b := match q with
      | .intact => mirrorBytes (((c.mirrorSource c.dev.passed).map LaneId.idx).getD 0xFF) c.dev.count c.dev.mirror
      | .corrupt => []
      | .other b => b
    match mirrorOf b with
    | some data => c.takeMirror l (fld b 4 4) data
    | none => c

def execMirroredSet (l : LaneId) (q : Rx (List Byte)) (s : State) : Out := .next (s.onChip (mirroredSet l q))

/-- MIRROR_DEADLINE: an absent lane that has received no mirror by the next S − 3 µs is resynchronised (R155). -/
def mirrorDeadline (l : LaneId) (c : Chip) : Chip :=
  let r := (c.lane l).round
  if c.sampledIn l && r.absent && !r.mirrored && !c.resyncing l && decide (c.dev.passed ≠ 0) then c.noCatchUp l else c

def execMirrorDeadline (l : LaneId) (s : State) : Out := .next (s.onChip (mirrorDeadline l))

/-- RESYNC_COPY_DONE: the lane holds the whole snapshot, which it applies at the first S at which it holds every delta too (R157). -/
def resyncCopyDone (l : LaneId) (c : Chip) : Chip :=
  if c.resyncing l = true ∧ c.inRound l = true then c.modLane l (fun n => { n with chk := { n.chk with snapshot := true } }) else c

def execResyncCopyDone (l : LaneId) (s : State) : Out := .next (s.onChip (resyncCopyDone l))

/-- RESYNC_LIMIT: a resynchronisation that has not ended within CHK.RESYNC_LIMIT periods of step 1 fences the lane (R159). -/
def resyncLimit (l : LaneId) (c : Chip) : Chip :=
  let k := (c.lane l).chk
  if k.resync ≠ 0 ∧ c.parN Par.chkResyncLimit ≤ k.resyncAge then c.pendFence l 0x0408 else c

def execResyncLimit (l : LaneId) (s : State) : Out := .next (s.onChip (resyncLimit l))

end Sys2Proof.Machine
end

