-- ==== Sys2Proof/Machine/Period.lean ====
section
/-! DEFINITION. The launch point and the boundaries (R122, R307, R354, R524): what takes effect from a period, and what changes
between periods and matrix cycles. -/

namespace Sys2Proof.Machine

open Sys2Proof

/-! ### LAUNCH_POINT (R122, R140, R158) -/

/-- The host frames whose launch falls on the launch point (R333, R354); from a period in which no lane passed only those that an
earlier one accepted (R122). -/
def Chip.launchFrames (c : Chip) : Chip :=
  let xs := c.dueLaunches.filter (fun x => decide (x.kind = 10) && (decide (c.dev.passed ≠ 0) || c.dev.before.launches.contains x))
  xs.foldl (fun c x => c.queueFrame x.args) (c.dropLaunches xs)

/-- The device's PDUs go into the transmit queues of the lanes that passed, once the work item of the sessions has been completed
(R368, R380). -/
def Chip.launchPdus (c : Chip) : Chip :=
  if c.dev.done.getLsbD 84 then
    ((lanesOf c.dev.passed).foldl Chip.queuePdus c).modDev (fun d => { d with
      arbSeq := (d.arbSeq + d.pdus.length + d.openPdus.length) % 2 ^ 32, pdus := [], openPdus := [] })
  else c

/-- The payloads of own slots that the sessions give (R368). -/
def Chip.launchSlotPdus (c : Chip) : Chip :=
  let xs := c.slotPdus
  c.modDev (fun d => { d with ownSlots := d.ownSlots.filter (fun y => !(xs.any (fun x => x.1 == y.1))) ++ xs })

/-- What is launched once for the device, from a period in which some lane passed (R356, R373). -/
def Chip.launchDevice (c : Chip) : Chip :=
  let c := c.modDev (fun d => { d with launched := true, power := { d.power with since := if d.power.target.isSome then d.power.since + 1 else 0 } })
  if c.dev.passed = 0 then c.launchFrames
  else (c.stopLaunches.lossActions.launchFrames.launchSlotPdus.launchPdus).queueClaim.bandPintleLaunch

/-- What a lane that passed puts into effect (R122). -/
def Chip.launchLane (c : Chip) (l : LaneId) : Chip :=
  let c := (List.range 4).foldl (fun c k => c.launchBridge l k) c
  let c := (List.range 6).foldl (fun c k => c.launchStp l k) c
  ((c.modSio l (fun x => x.setOuts (c.dev.so.get l))).launchSlots l).bandLaunch l

/-- A resynchronising lane's own winding sets follow their commands, which are zero torque current; all else holds (R158). -/
def Chip.launchResync (c : Chip) (l : LaneId) : Chip :=
  if c.dev.passed = 0 then c else [0, 1].foldl (fun c k => c.launchBridge l k) c

/-- LAUNCH_POINT: the outputs of the period take effect in a lane that passed; any other lane holds (R122, R140, R150). -/
def launchPoint (l : LaneId) (c : Chip) : Chip :=
  let r := (c.lane l).round
  if !(c.sampledIn l) || r.launched then c
  else
    let c := c.modLane l (fun n => { n with round := { n.round with launched := true } })
    let c := if c.dev.launched then c else (c.modCfg (fun g => g.launched (c.lane l).clock.nt)).launchDevice
    if r.passed then c.launchLane l else if (c.lane l).chk.resync = 1 then c.launchResync l else c

def execLaunchPoint (l : LaneId) (s : State) : Out := .next (s.onChip (launchPoint l))

/-! ### LAUNCH_BOUNDARY (R354 to R356) -/

/-- The launches that fall on the boundary of an output, one of MB0, MB1, BM0, BM1, ST0 to ST5, SO0 to SO3. -/
def Chip.launchAt (c : Chip) (out : Nat) : Chip :=
  let xs := c.nextLaunches out
  let c := c.dropLaunches xs
  if out < 4 then c.launchMotors out xs
  else if out < 10 then c.launchSteps (out - 4) xs
  else xs.foldl (fun c x => c.launchOut (out - 10) x) c

/-- LAUNCH_BOUNDARY: an accepted timed launch takes effect (R354). -/
def launchBoundary (out : Fin 14) (c : Chip) : Chip := c.launchAt out.val

def execLaunchBoundary (out : Fin 14) (s : State) : Out := .next (s.onChip (launchBoundary out))

/-! ### PERIOD_BOUNDARY (R86, R90, R162, R524) -/

/-- Every shadowed value takes effect (R86, R524). -/
def Chip.takeShadows (c : Chip) : Chip :=
  if c.dev.cfg.shadow = [] then c else (c.modCfg (fun g => { g.keepOld with ws := g.ahead, shadow := [] })).recheck

/-- The keys on which two sparse sets differ. -/
def changedKeys (x y : List (Nat × Int)) : List Nat :=
  ((x.filter (fun e => !y.contains e)).map (·.1) ++ (y.filter (fun e => !x.contains e)).map (·.1)).eraseDups

/-- A stored staging image replaces the working set; the units that it changes restart (R90, R526). DESIGN CHOICE (log 98): values
shadowed for the same boundary are dropped, since the image is taken last. -/
def Chip.takeImage (c : Chip) : Chip :=
  match c.dev.cfg.wsNext with
  | none => c
  | some g =>
    let old := c.dev.cfg.ws
    let sched := g.schedule
    let c := c.modCfg (fun x => { x.keepOld with ws := g.entries, shadow := [], tab0 := g.tab0, tab1 := g.tab1, wsNext := none })
    let c := if c.dev.cfg.sched = sched then c.recheck else c.putSchedule sched
    (changedKeys old g.entries).foldl (fun c k => c.restartUnit (k / 256) (k % 256)) c

/-- The state of the reduced service set as a core keeps it: the mirrored quads, without those of loop contexts outside the set (R161). -/
def Chip.reducedState (c : Chip) : List Byte :=
  let d := c.mirrorData
  d.take 304 ++ ((List.range 64).filter c.reducedSet).flatMap (fun n => bytesAt d (304 + 16 * n) 16) ++ d.drop 1328

/-- A core pair joins: the state of the reduced service set is copied into both regions and compared by CRC-32C, once more on a
mismatch; a second one fences the lane (R163). PRESUMED (log 106): the copy itself does not err, so that a mismatch of the hardware's
comes in as FAULT_DETECTED with 0x0407. -/
def Chip.joinCores (c : Chip) (l : LaneId) : Chip :=
  let copy := fun (c : Chip) => c.modLane l (fun n => { n with chk := { n.chk with regions := (c.reducedState, c.reducedState) } })
  let equal := fun (c : Chip) => decide (crc32c (c.lane l).chk.regions.1 = crc32c (c.lane l).chk.regions.2)
  let c := copy c
  if equal c then c
  else
    let c := copy c
    if equal c then c else c.pendFence l 0x0407

/-- The pair mode of each lane for the next period: joined when it is the only lane in authority that is neither resynchronising nor
in stand-down. A lane that joins hands over first (R162, R163). -/
def Chip.pairModes (c : Chip) : Chip :=
  let ls := c.authLanes.filter (fun l => decide ((c.lane l).chk.resync = 0) && !(c.lane l).chk.resyncPend && decide (c.dev.standdown ≠ some l))
  let c := match ls with
    | [l] => if hasLane c.dev.joined l then c else c.joinCores l
    | _ => c
  c.modDev (fun d => { d with joined := if ls.length = 1 then maskOf ls else 0 })

/-- A lane whose memory region of received frames and serial messages is fenced keeps none (R500). -/
def Chip.regionStores (c : Chip) : Chip :=
  c.modLanes (fun _ n => if n.bist.regions.contains 15 then
    { n with net := { n.net with host := [] }, fb := n.fb.map (fun x => { x with serial := [] }) } else n)

/-- The first claim accepted after formation is known (R113, R118). -/
def Chip.takeClaim (c : Chip) : Chip :=
  if c.pintle.holder.isSome then c.modDev (fun d => { d with claimed := true }) else c

/-- What changes between two periods but for SYS.RESET. -/
def Chip.boundary (c : Chip) : Chip :=
  let first := c.dev.claimed
  let c := c.takeShadows.takeImage.takeTable.pintleBoundary.takeClaim.sdPermit.tpSupplies
  let c := if c.dev.claimed && !first then c.dueTests [] true else c
  let c := c.takeUnfences.leaveHold.dbReplies.powerBoundary
  c.pairModes.regionStores.orderAgreed

/-- PERIOD_BOUNDARY: shadowed values, the voted claim vector and the pair modes take effect; a requested reset restarts every lane
(R18, R75, R162, R524). -/
def periodBoundary (s : State) : State :=
  if !s.chip.dev.formed then s.onChip Chip.pintleBoundary
  else
    let s := s.onChip Chip.boundary
    if s.chip.resetDue then s.rebootAll else s

def execPeriodBoundary (s : State) : Out := .next (periodBoundary s)

/-! ### MATRIX_CYCLE_BOUNDARY (R112, R115, R307, R436) -/

/-- The sample instant moves onto network time at the first matrix-cycle boundary at which it is synchronised; the period that ends
there is not counted (R112). -/
def Chip.lockTime (c : Chip) : Chip :=
  if !c.dev.locked && c.netSynced && c.dev.cfg.sched != [] then c.modDev (fun d => { d with locked := true, exempt := true }) else c

/-- A late lane joins while the device is parked and no stand-down runs but its own, by itself with LANE.LATE_JOIN or on LANE.READMIT
(R115, R160, R442). -/
def Chip.lateJoin (c : Chip) (l : LaneId) : Chip :=
  let n := c.lane l
  let own := decide (c.dev.standdown = some l)
  let asked := decide (c.par Par.laneLateJoin = 1) || n.boot.readmitting || own
  if n.boot.waiting && asked && (own || (c.isParked && c.dev.standdown.isNone)) && c.dev.authority != 0 then
    (c.startRejoin l).modLane l (fun n => if own then { n with bist := { n.bist with phase := 5, lastPhase := 5 } } else n)
  else c

/-- MATRIX_CYCLE_BOUNDARY: a matrix cycle begins with its joins, phase entries, activations and stand-down (R307, R314, R508). -/
def matrixCycleBoundary (c : Chip) : Chip :=
  if !c.dev.formed then c
  else
    let c := c.modDev (fun d => { d with
      matrix := (d.matrix + 1) % 2 ^ 32, cycle := 0 })
    let c := c.modLanes (fun _ n => { n with keyNoted := [], fault := { n.fault with writes := 0 } })
    (LaneId.all.foldl Chip.lateJoin c.netMatrix.lockTime).sdStart

def execMatrixCycleBoundary (s : State) : Out := .next (s.onChip matrixCycleBoundary)

end Sys2Proof.Machine
end

