-- ==== Sys2Proof/Machine/PwmEngine.lean ====
section
/-! DEFINITION. The PWM-level engine of a lane (chapter 08): its own readings, the current loops, space-vector modulation, the checks
of its own set, the observer with the loss of the rotor, and the commands CURRENT_SAMPLE and PINTLE_REPORT that run it. -/

namespace Sys2Proof.Machine

open Sys2Proof

/-! ### Transforms and modulation (R202, R204) -/

/-- α and β of a dq vector at an angle (R202, R204). -/
def fromDq (d q : Int) (theta : Nat) : Int × Int :=
  (quo (d * cosOf theta - q * sinOf theta) 32767, quo (d * sinOf theta + q * cosOf theta) 32767)

/-- d and q of an αβ vector at an angle (R202). -/
def toDq (a b : Int) (theta : Nat) : Int × Int :=
  (quo (a * cosOf theta + b * sinOf theta) 32767, quo (b * cosOf theta - a * sinOf theta) 32767)

/-- The PWM period in steps of 1.25 ns (R204). -/
def pwmSteps (pwm : Nat) : Nat := pwm * 4 / 5

/-- The edges of each phase's centre-aligned high pulse, in steps of 1.25 ns from the PWM boundary, for an αβ voltage: half of VBR with
the common offset that centres the phases, and the dead time in the direction of the phase's current (R196, R204). -/
def edgesOf (va vb vbr : Int) (dead pwm : Nat) (is : List Int) : List (Nat × Nat) :=
  let t := pwmSteps pwm
  let vs := [va, quo (-va + quo (vb * 1732051) 1000000) 2, quo (-va - quo (vb * 1732051) 1000000) 2]
  let off := -quo (vs.foldl max (nth vs 0 0) + vs.foldl min (nth vs 0 0)) 2
  vs.mapIdx (fun j v =>
    let high := (clip 0 t (quo (t : Int) 2 + quo ((v + off) * t) (max 1 vbr) + sgn (nth is j 0) * dead)).toNat
    ((t - high) / 2, (t + high) / 2))

/-- The αβ voltage of applied high times in steps of 1.25 ns, the dead time taken off in the direction of each current (R204, R220). -/
def appliedVoltage (high : List Nat) (vbr : Int) (dead pwm : Nat) (is : List Int) : Int × Int :=
  let v (j : Nat) : Int := quo (((nth high j 0 : Int) - sgn (nth is j 0) * dead) * vbr) (max 1 (pwmSteps pwm : Int))
  phaseVector (v 0) (v 1) (v 2)

/-- The phase-locked loop of the observer follows the angle of the EMF vector (R215): its error and its new angle and speed, in
counts and counts per PWM period times 256, with a natural frequency of one twentieth of the PWM frequency (log 34). -/
def pllStep (angle : Nat) (omega : Int) (seen : Nat) : Int × Nat × Int :=
  let err := angleDiff seen angle
  let w := omega + quo (err * 256 * 987) 10000
  (err, unsignedOf 16 ((angle : Int) + quo w 256 + quo (err * 440) 1000), w)

/-! ### The engine's own readings (R198, R201) -/

/-- A lane's own reading of a channel at a sampling instant, without its reference: a sine/cosine channel by its converter, a Hall
channel by the time since its last transition (R198, R199). -/
def Chip.ownReading (c : Chip) (l : LaneId) (k ch : Nat) (w : Int) (sc : List Nat) : Nat :=
  if 8 ≤ ch then 0
  else
    let x := c.fbOf l ch
    let h := decide (c.par Par.fbkHyst ch = 1)
    let x := if c.parN Par.fbkMode ch = 5 then (match c.scCount ch x.e (nth sc ch 0) with
      | some e => { x with e := e, e' := hystCount h e x.e' }
      | none => x) else x
    let (pos, rev) := x.words c.dev.cfg.ws ch
    unsignedOf 16 (c.angleRaw k ch w { pos := pos, cont := contValue c.dev.cfg.ws ch pos rev, hall := x.levels.toNat % 8, since := (c.lane l).clock.nt - x.hallNt })

/-- The bus voltage of an engine: its lane's latest measurement, or VBRa for BM0 and BM1 (R203, R257). -/
def Chip.engineVbr (c : Chip) (l : LaneId) (k : Nat) : Int := if k < 2 then (c.lane l).vbr else c.vbra

/-- The dead time in force for a bridge in a lane, in steps of 1.25 ns (R227, R230). -/
def Chip.deadTime (c : Chip) (l : LaneId) (k : Nat) : Nat := c.parN Par.gdrDeadtime (8 * bridgeGroup k + (c.targetAt l k).band)

/-- What an engine has sampled: the phase currents in mA, the measured αβ voltage in mV, and the sine/cosine converters. -/
structure PwmIn where
  iu : Int := 0
  iv : Int := 0
  iw : Int := 0
  volt : Int × Int := (0, 0)
  sc : List Nat := []
  deriving DecidableEq, Repr, Inhabited

/-! ### Taking a command (R122, R212, R213, R216) -/

/-- A lane's own check of its set has failed for the last time: the set is fenced at once, to be agreed (R210, R212, R429). -/
def Chip.engineFence (c : Chip) (l : LaneId) (k code : Nat) : Chip :=
  let (t, i, d) := cmtUnit k l
  if c.heldOff l k || c.setFenced k l then c
  else
    (c.localFault l code t i d).modLane l (fun n => { n with
      fencedNow := n.fencedNow ++ [(t, i)]
      engines := modNth n.engines k (fun e => e.halt .off) })

/-- The current offsets: the mean over the last CMT.CATCH_WINDOW with gates off (R212). -/
def Engine.offsets (e : Engine) (need : Nat) : Int × Int × Int :=
  let n := e.offWin.length
  if n < need ∨ n = 0 then e.offs
  else
    let mean (f : Int × Int × Int → Int) : Int := quo ((e.offWin.map f).foldl (· + ·) 0) n
    (mean (·.1), mean (·.2.1), mean (·.2.2))

/-- The references that an engine takes from its own EMF at its last sample without switching, for the two channels (R213). -/
def Engine.takeRefs (e : Engine) (src src2 : Nat) (sign : Int) : List (Nat × Nat) :=
  match e.emf with
  | none => []
  | some (a, r, r2) =>
    let theta : Int := rotorAngle a sign
    [(src, unsignedOf 16 (theta - r)), (src2, unsignedOf 16 (theta - r2))].filter (fun x => decide (x.1 < 8))

/-- A start: Id = Iq = 0, the tracked speed, the offsets, and for a catch without a reference the engine's own (R212, R213). -/
def Engine.start (e : Engine) (x : EngineCmd) (need src src2 : Nat) : Engine :=
  { e with
    intD := 0, intQ := 0, omega := x.omega, applied := false, vlim := false, obsBad := 0, resBad := 0, offs := e.offsets need, offWin := []
    ownRefs := if x.emfRef then e.takeRefs src src2 x.omega else [] }

/-- A command taken: an engine that has lost the rotor keeps its own action until the period has agreed the loss (R216). -/
def Engine.obey (e : Engine) (x : EngineCmd) (need src src2 : Nat) : Engine :=
  let keeps := e.lost && !x.ack
  let gates := if keeps && decide (x.gates = .switching) then e.gates else x.gates
  let e := if gates = .switching ∧ e.gates ≠ .switching then e.start x need src src2 else e
  { e with
    next := none, gates := gates, cmdOn := decide (gates = .switching), cmdIq := x.iq, cmdId := x.id, cmdZero := x.zero, cmdOmega := x.omega
    cmdSrc := if keeps then e.cmdSrc else x.src, cmdRho := if keeps then e.cmdRho else x.rho, lost := keeps }

/-- The command that waits is taken at the first PWM boundary at or after its launch point; a start with an offset beyond CMT.IQ_TOL
fences the set with fault 0x1001 (R122, R212). -/
def Chip.takeCmd (c : Chip) (l : LaneId) (k boundary : Nat) : Chip :=
  let e := nth (c.lane l).engines k {}
  match e.next with
  | none => c
  | some x =>
    if boundary < x.from_ then c
    else
      let need := 1000000 * c.parN Par.cmtCatchWindow k / max 1 (c.parN Par.cmtPwmPeriod k)
      let e' := e.obey x need (c.parN Par.cmtAngleSrc k) (c.parN Par.cmtAngleSrc2 k)
      let starts := decide (e'.gates = .switching ∧ e.gates ≠ .switching)
      let tol := c.par Par.cmtIqTol k
      let c := c.modEngine l k (fun _ => e')
      if starts && decide (tol < dist e'.offs.1 0 ∨ tol < dist e'.offs.2.1 0 ∨ tol < dist e'.offs.2.2 0) then c.engineFence l k 0x1001 else c

/-! ### One PWM period (R202 to R204, R210, R215) -/

/-- The reference of an engine's channel: its own from a catch, or the one in force (R199, R213). -/
def Engine.refNow (e : Engine) : Nat := ((e.ownRefs.find? (fun x => x.1 == e.cmdSrc)).map (·.2)).getD e.cmdRho

/-- The electrical angle and speed of an engine at its sampling instant (R198, R199, R200). -/
def Chip.engineAngle (c : Chip) (l : LaneId) (k : Nat) (e : Engine) (sc : List Nat) : Nat × Int :=
  if e.cmdZero then (0, 0)
  else if 8 ≤ e.cmdSrc then (e.obsAngle, if e.gates = .switching ∧ e.applied = false then e.omega else e.obsOmega)
  else
    let w := omegaOfCounts e.cmdOmega (c.parN Par.cmtPwmPeriod k)
    let theta := unsignedOf 16 ((c.ownReading l k e.cmdSrc w sc : Int) + e.refNow)
    (theta, if e.gates = .switching ∧ e.applied = false then e.omega
      else if c.par Par.fbkMode e.cmdSrc = 2 then e.cmdOmega else angleDiff theta e.theta * 256)

/-- The EMF vector that the observer sees: the voltage less the drops of R and L. The voltage is the one placed while the gates switch,
the measured one while they are off, zero in an active short circuit (R215). -/
def Chip.engineEmf (c : Chip) (k : Nat) (e : Engine) (volt i : Int × Int) : Int × Int :=
  let pwm : Int := max 1 (c.parN Par.cmtPwmPeriod k)
  let rs := c.par Par.cmtRs k
  let lq := c.par Par.cmtLq k
  let drop (x y : Int) : Int := resistive rs x + quo (lq * (x - y)) pwm
  match e.gates with
  | .switching => (e.placed.1 - drop i.1 e.prevI.1, e.placed.2 - drop i.2 e.prevI.2)
  | .short => (-drop i.1 e.prevI.1, -drop i.2 e.prevI.2)
  | _ => volt

/-- The measurement of a PWM period: the angle, the currents id and iq, the observer, and the angle of the EMF while the gates do not
switch (R198, R202, R213, R215). -/
def Chip.measure (c : Chip) (l : LaneId) (k : Nat) (x : PwmIn) : Engine :=
  let e := nth (c.lane l).engines k {}
  let (iu, iv) := (x.iu - e.offs.1, x.iv - e.offs.2.1)
  let (ia, ib) := (iu, overRoot3 (iu + 2 * iv))
  let (theta, omega) := c.engineAngle l k e x.sc
  let (id, iq) := toDq ia ib theta
  let (ea, eb) := c.engineEmf k e x.volt (ia, ib)
  let (err, angle, speed) := pllStep e.obsAngle e.obsOmega (rotorAngle (angleOf ea eb) e.obsOmega)
  let bad := decide (c.par Par.cmtObsLoss k < dist err 0)
  let w := omegaOfCounts e.cmdOmega (c.parN Par.cmtPwmPeriod k)
  let read (ch : Nat) : Nat := c.ownReading l k ch w x.sc
  let still := decide (e.gates ≠ .switching)
  { e with
    theta := theta, omega := omega, endIq := e.iq, endId := e.id, id := id, iq := iq, prevI := (ia, ib), sampleNt := (c.lane l).clock.nt
    obsAngle := angle, obsOmega := speed, obsLocked := !bad && decide (c.par Par.cmtEmfMin k ≤ magnitude ea eb)
    obsBad := if bad then min 255 (e.obsBad + 1) else 0
    sumBad := if c.par Par.cmtIqTol k < dist (iu + iv + (x.iw - e.offs.2.2)) 0 then min 255 (e.sumBad + 1) else 0
    emf := if still then some (angleOf ea eb, read (c.parN Par.cmtAngleSrc k), read (c.parN Par.cmtAngleSrc2 k)) else e.emf }

/-- A PWM period without switching: the loops rest, and the currents with the gates off are kept for the offsets (R212). -/
def Chip.rest (c : Chip) (k : Nat) (x : PwmIn) (e : Engine) : Engine :=
  let need := 1000000 * c.parN Par.cmtCatchWindow k / max 1 (c.parN Par.cmtPwmPeriod k)
  { e with
    vd := 0, vq := 0, vlim := false, applied := false, resBad := 0, placed := if e.gates = .short then (0, 0) else x.volt
    edges := [(0, 0), (0, 0), (0, 0)], offWin := if e.gates = .short then [] else ((x.iu, x.iv, x.iw) :: e.offWin).take need }

/-- The voltages that an engine's loops add to their integrators: the proportional and the decoupling terms (R202). -/
def Chip.loopTerms (c : Chip) (k : Nat) (e : Engine) : Int × Int :=
  let w := omegaOfCounts e.omega (c.parN Par.cmtPwmPeriod k)
  let kp := c.par Par.cmtKp k
  (quo (kp * (e.cmdId - e.id)) 1000 - reactive w (c.par Par.cmtLq k) e.iq,
   quo (kp * (e.cmdIq - e.iq)) 1000 + reactive w (c.par Par.cmtLd k) e.id + emfOf w (c.par Par.cmtPsi k))

/-- The voltages applied last differ from those of the model by more than CMT.V_TOL; not judged while the voltage is limited or before
the first voltages have been applied (R210). -/
def Chip.residualBad (c : Chip) (k : Nat) (e : Engine) : Bool :=
  let w := omegaOfCounts e.omega (c.parN Par.cmtPwmPeriod k)
  let rs := c.par Par.cmtRs k
  let tol := c.par Par.cmtVTol k
  e.applied && !e.vlim &&
    decide (tol < dist e.vq (resistive rs e.iq + emfOf w (c.par Par.cmtPsi k) + reactive w (c.par Par.cmtLd k) e.id) ∨
      tol < dist e.vd (resistive rs e.id - reactive w (c.par Par.cmtLq k) e.iq))

/-- The current loops of a switching set with the voltage limit, and the edges of its phases (R198, R202 to R204). -/
def Chip.drive (c : Chip) (l : LaneId) (k : Nat) (x : PwmIn) (e : Engine) : Engine :=
  let pwm := c.parN Par.cmtPwmPeriod k
  let ki := c.par Par.cmtKi k
  let vbr := c.engineVbr l k
  let (fd, fq) := c.loopTerms k e
  let nd := e.intD + quo (ki * pwm * (e.cmdId - e.id)) 1000000000
  let nq := e.intQ + quo (ki * pwm * (e.cmdIq - e.iq)) 1000000000
  let vm := vMax (c.par Par.cmtVlim k) vbr
  let vd := clip (-vm) vm (fd + nd)
  let room : Int := (natSqrt (vm * vm - vd * vd).toNat : Nat)
  let vq := clip (-room) room (fq + nq)
  let (va, vb) := fromDq vd vq (unsignedOf 16 ((e.theta : Int) + quo (e.omega * c.par Par.cmtAngleLead k) 25600))
  let res := c.residualBad k e
  { e with
    vd := vd, vq := vq, vlim := decide (vd ≠ fd + nd ∨ vq ≠ fq + nq), intD := vd - fd, intQ := vq - fq, placed := (va, vb), applied := true
    edges := edgesOf va vb vbr (c.deadTime l k) pwm [x.iu - e.offs.1, x.iv - e.offs.2.1, x.iw - e.offs.2.2]
    resBad := if res then min 255 (e.resBad + 1) else 0 }

/-- What the engine does with a loss of the rotor (R216): a channel that was usable takes over, or the loss action. -/
def Chip.engineLoss (c : Chip) (l : LaneId) (k : Nat) : Chip :=
  let (t, i, d) := cmtUnit k l
  let c := c.localFault l 0x1007 t i d
  match c.usableChannel k (if k < 2 then l else .a) with
  | some ch => c.modEngine l k (fun e => { e with cmdSrc := ch, cmdRho := (c.refOf k ch).getD 0, obsBad := 0, lost := true })
  | none => c.modEngine l k (fun e => { e with
      gates := if c.par Par.cmtLossAction k = 1 then .short else .freewheel, cmdOn := false, obsBad := 0, lost := true })

/-- What follows from a PWM period: the faults of the engine's own checks, the fence at CMT.IQ_COUNT, and the loss of the rotor (R210,
R216). -/
def Chip.engineVerdict (c : Chip) (l : LaneId) (k : Nat) : Chip :=
  let e := nth (c.lane l).engines k {}
  let (t, i, d) := cmtUnit k l
  let lim := c.parN Par.cmtIqCount k
  let c := if 0 < e.sumBad then c.localFault l 0x1002 t i d else c
  let c := if 0 < e.resBad then c.localFault l 0x1003 t i d else c
  if lim ≤ e.sumBad ∨ lim ≤ e.resBad then c.engineFence l k 0x1005
  else if e.gates = .switching ∧ e.cmdSrc = 0xFE ∧ c.parN Par.cmtObsLossN k ≤ e.obsBad then c.engineLoss l k
  else c

/-- One PWM period of a lane's engine, which began at a boundary. -/
def Chip.runEngine (c : Chip) (l : LaneId) (k : Nat) (boundary : Nat) (x : PwmIn) : Chip :=
  let c := c.takeCmd l k boundary
  let e := c.measure l k x
  let e := if e.gates = .switching then c.drive l k x e else c.rest k x e
  (c.modEngine l k (fun _ => e)).engineVerdict l k

/-! ### CURRENT_SAMPLE (R201) -/

/-- A phase current in mA from its code (R201). -/
def Chip.currentOf (c : Chip) (k code : Nat) : Int := quo (((code : Int) - 8192) * c.par Par.cmtILsb k) 1000

/-- The conversions of a sampling instant in mA and mV (R201). -/
def Chip.pwmIn (c : Chip) (k : Nat) (i : PhaseIn) : PwmIn :=
  let v (j : Nat) : Int := quo ((nth i.volts j 0 : Int) * c.par Par.cmtVLsb k) 1000
  { iu := c.currentOf k (nth i.codes 0 8192), iv := c.currentOf k (nth i.codes 1 8192), iw := c.currentOf k (nth i.codes 2 8192)
    volt := phaseVector (v 0) (v 1) (v 2), sc := i.sc }

/-- CURRENT_SAMPLE: CMT.ISAMPLE_DELAY after a PWM boundary of MB0 or MB1 the engine samples and runs (R198, R201). The gross-current window
of the PWM period begins anew. -/
def currentSample (l : LaneId) (bridge : Fin 2) (i : PhaseIn) (c : Chip) : Chip :=
  let k := bridge.val
  if !bridgeUsed c.dev.cfg.ws k then c
  else
    let boundary := (c.lane l).clock.nt - c.parN Par.cmtIsampleDelay k
    (c.modTarget l k (fun x => { x.takeBand boundary with shortNow := false })).asEngine boundary (fun c =>
      c.runEngine l k boundary (c.pwmIn k i))

def execCurrentSample (l : LaneId) (bridge : Fin 2) (i : PhaseIn) (s : State) : Out := .next (s.onLane l (currentSample l bridge i))

/-! ### PINTLE_REPORT (R121, R220, R257) -/

/-- A standby engine sets its integrators so that its loop output equals the duties applied to a claimed motor (R220). -/
def Chip.presetEngine (c : Chip) (l : LaneId) (k : Nat) (v : Int × Int) : Chip :=
  c.modEngine l k (fun e =>
    let lead := unsignedOf 16 ((e.theta : Int) + quo (e.omega * c.par Par.cmtAngleLead k) 25600)
    let (vd, vq) := toDq v.1 v.2 lead
    let (fd, fq) := c.loopTerms k e
    { e with vd := vd, vq := vq, intD := vd - fd, intQ := vq - fq, placed := v })

/-- A report taken by a lane: its values, the die's status bits, and the faults that no report to the lane has carried yet (R121,
R428). -/
def Chip.takeReport (c : Chip) (l : LaneId) (p : PintleIn) : Chip :=
  let d := c.pintle
  let bits : ReportBits :=
    { presents := LaneId.all.foldl (fun m k => setLaneBit m k (d.lanes.get k).presents) 0
      stall := (List.range 6).foldl (fun m k => setBit m k (nth d.outs k {}).stall) (0 : Mask)
      dieFenced := d.fenced, holding := d.holding
      faults := (c.lane l).reportBits.faults ++ d.faults.drop (d.lanes.get l).told }
  (c.modLane l (fun n => { n with report := some p, reportBits := bits })).modPLane l (fun x => { x with told := d.faults.length })

/-- A claimed bridge's engine runs on a report; a standby one follows the duties that were applied (R220). -/
def Chip.reportBridge (c : Chip) (l : LaneId) (k : Nat) (p : PintleIn) (sc : List Nat) : Chip :=
  if bridgeUsed c.dev.cfg.ws k then
    let iu := nth p.bm (2 * (k - 2)) 0
    let iv := nth p.bm (2 * (k - 2) + 1) 0
    let iw := -(iu + iv)
    let c := c.runEngine l k (c.lane l).clock.nt { iu := iu, iv := iv, iw := iw, sc := sc }
    if c.pintle.holder = some l ∨ (nth (c.lane l).engines k {}).gates ≠ .switching then c
    else c.presetEngine l k (appliedVoltage (p.bmHigh.drop (3 * (k - 2))) (c.engineVbr l k) (c.deadTime l k) (c.parN Par.cmtPwmPeriod k) [iu, iv, iw])
  else c

/-- PINTLE_REPORT: the Pintle die's report for a PWM period reaches a lane: kept for the sample (R121), and run through the loops of
BM0 and BM1 (R220) and of the stepper coils (R257). -/
def pintleReport (l : LaneId) (p : PintleIn) (sc : List Nat) (c : Chip) : Chip :=
  if !c.pintle.powered || (c.pintle.lanes.get l).pathFailed then c
  else
    (c.takeReport l p).asEngine (c.lane l).clock.nt (fun c =>
      let c := [2, 3].foldl (fun c k => c.reportBridge l k p sc) c
      (List.range 6).foldl (fun c k =>
        if stepUsed c.dev.cfg.ws k then
          let c := c.stpLoops l k p
          if c.leader = some l then c.countClips k p else c
        else c) c)

def execPintleReport (l : LaneId) (p : PintleIn) (sc : List Nat) (s : State) : Out := .next (s.onLane l (pintleReport l p sc))

end Sys2Proof.Machine
end

