-- ==== Sys2Proof/Machine/Dispatch.lean ====
section
/-! DEFINITION. The meaning of every command: one arm for each constructor of Instr, a direct call of its meaning. -/

namespace Sys2Proof.Machine

def exec (i : Instr) (s : State) : Host.Outcome State Fault Refusal :=
  match i with
  | .paramRead blk r => Sys2Proof.Machine.execParamRead blk r s
  | .paramWrite blk r => Sys2Proof.Machine.execParamWrite blk r s
  | .statusRead blk r => Sys2Proof.Machine.execStatusRead blk r s
  | .sysIdentify r => Sys2Proof.Machine.execSysIdentify r s
  | .sysEcho r => Sys2Proof.Machine.execSysEcho r s
  | .sysReset r => Sys2Proof.Machine.execSysReset r s
  | .laneFence r => Sys2Proof.Machine.execLaneFence r s
  | .laneReadmit r => Sys2Proof.Machine.execLaneReadmit r s
  | .restartAck l => Sys2Proof.Machine.execRestartAck l s
  | .readmitAckTimeout l => Sys2Proof.Machine.execReadmitAckTimeout l s
  | .readmitReadyTimeout l => Sys2Proof.Machine.execReadmitReadyTimeout l s
  | .actuationEnable r => Sys2Proof.Machine.execActuationEnable r s
  | .actuationDisable r => Sys2Proof.Machine.execActuationDisable r s
  | .timingRead r => Sys2Proof.Machine.execTimingRead r s
  | .signatureRead r => Sys2Proof.Machine.execSignatureRead r s
  | .recordRead r => Sys2Proof.Machine.execRecordRead r s
  | .unitUnfence r => Sys2Proof.Machine.execUnitUnfence r s
  | .inject r => Sys2Proof.Machine.execInject r s
  | .stopRequest r => Sys2Proof.Machine.execStopRequest r s
  | .holdRelease r => Sys2Proof.Machine.execHoldRelease r s
  | .deadboltRelease r => Sys2Proof.Machine.execDeadboltRelease r s
  | .cmtEnable r => Sys2Proof.Machine.execCmtEnable r s
  | .cmtDisable r => Sys2Proof.Machine.execCmtDisable r s
  | .torqueSet r => Sys2Proof.Machine.execTorqueSet r s
  | .catchStart r => Sys2Proof.Machine.execCatchStart r s
  | .offstateTest r => Sys2Proof.Machine.execOffstateTest r s
  | .ostStepSettle l target nodes => Sys2Proof.Machine.execOstStepSettle l target nodes s
  | .legClear r => Sys2Proof.Machine.execLegClear r s
  | .stpMove r => Sys2Proof.Machine.execStpMove r s
  | .stpStop r => Sys2Proof.Machine.execStpStop r s
  | .stpHome r => Sys2Proof.Machine.execStpHome r s
  | .homeTimeout ch => Sys2Proof.Machine.execHomeTimeout ch s
  | .tableLoad r => Sys2Proof.Machine.execTableLoad r s
  | .positionSet r => Sys2Proof.Machine.execPositionSet r s
  | .probeArm r => Sys2Proof.Machine.execProbeArm r s
  | .setpointSet r => Sys2Proof.Machine.execSetpointSet r s
  | .modeSet r => Sys2Proof.Machine.execModeSet r s
  | .integratorPreset r => Sys2Proof.Machine.execIntegratorPreset r s
  | .scheduleLoad r => Sys2Proof.Machine.execScheduleLoad r s
  | .netStart r => Sys2Proof.Machine.execNetStart r s
  | .netStartTimeout => Sys2Proof.Machine.execNetStartTimeout s
  | .spareClaim r => Sys2Proof.Machine.execSpareClaim r s
  | .frameSend r => Sys2Proof.Machine.execFrameSend r s
  | .timeRead r => Sys2Proof.Machine.execTimeRead r s
  | .epochSet r => Sys2Proof.Machine.execEpochSet r s
  | .sessionOpen r => Sys2Proof.Machine.execSessionOpen r s
  | .openRequest peer d => Sys2Proof.Machine.execOpenRequest peer d s
  | .openAnswer num status d => Sys2Proof.Machine.execOpenAnswer num status d s
  | .openTimeout num => Sys2Proof.Machine.execOpenTimeout num s
  | .sessionClose r => Sys2Proof.Machine.execSessionClose r s
  | .peerUnfreeze r => Sys2Proof.Machine.execPeerUnfreeze r s
  | .unitTest r defects => Sys2Proof.Machine.execUnitTest r defects s
  | .outputSet r => Sys2Proof.Machine.execOutputSet r s
  | .pulseTest r => Sys2Proof.Machine.execPulseTest r s
  | .pulseTestDone l tp0 tp1 olHigh => Sys2Proof.Machine.execPulseTestDone l tp0 tp1 olHigh s
  | .linkSync r => Sys2Proof.Machine.execLinkSync r s
  | .hostUnfreeze r => Sys2Proof.Machine.execHostUnfreeze r s
  | .imageWrite r => Sys2Proof.Machine.execImageWrite r s
  | .cfgStore r => Sys2Proof.Machine.execCfgStore r s
  | .storeCommit l readBackOk => Sys2Proof.Machine.execStoreCommit l readBackOk s
  | .checkRead r => Sys2Proof.Machine.execCheckRead r s
  | .commissionConfirm r => Sys2Proof.Machine.execCommissionConfirm r s
  | .fwWrite r => Sys2Proof.Machine.execFwWrite r s
  | .fwActivate r => Sys2Proof.Machine.execFwActivate r s
  | .fwActivateDone => Sys2Proof.Machine.execFwActivateDone s
  | .stateSet r => Sys2Proof.Machine.execStateSet r s
  | .padsRelease r => Sys2Proof.Machine.execPadsRelease r s
  | .wakeSourceRead r => Sys2Proof.Machine.execWakeSourceRead r s
  | .thmRead r => Sys2Proof.Machine.execThmRead r s
  | .standdownNow r => Sys2Proof.Machine.execStanddownNow r s
  | .resultRead r => Sys2Proof.Machine.execResultRead r s
  | .fuseRepair r => Sys2Proof.Machine.execFuseRepair r s
  | .fuseRepairDone l failed => Sys2Proof.Machine.execFuseRepairDone l failed s
  | .writeFrame l bytes => Sys2Proof.Machine.execWriteFrame l bytes s
  | .readFrame l address nbytes => Sys2Proof.Machine.execReadFrame l address nbytes s
  | .replyTransfer l q => Sys2Proof.Machine.execReplyTransfer l q s
  | .laneUnavailable l => Sys2Proof.Machine.execLaneUnavailable l s
  | .freezeQuietExpiry l => Sys2Proof.Machine.execFreezeQuietExpiry l s
  | .haonPowerUp l straps vddh33 => Sys2Proof.Machine.execHaonPowerUp l straps vddh33 s
  | .powerGood l => Sys2Proof.Machine.execPowerGood l s
  | .powerGoodLost l => Sys2Proof.Machine.execPowerGoodLost l s
  | .laneReady l => Sys2Proof.Machine.execLaneReady l s
  | .linkTrainingDone l port => Sys2Proof.Machine.execLinkTrainingDone l port s
  | .pintlePowerUp => Sys2Proof.Machine.execPintlePowerUp s
  | .discoverySend l => Sys2Proof.Machine.execDiscoverySend l s
  | .discoveryRecord rx tx d => Sys2Proof.Machine.execDiscoveryRecord rx tx d s
  | .adoptionDone l ok => Sys2Proof.Machine.execAdoptionDone l ok s
  | .formationWaitExpiry l => Sys2Proof.Machine.execFormationWaitExpiry l s
  | .formationRecord l => Sys2Proof.Machine.execFormationRecord l s
  | .formationAck l => Sys2Proof.Machine.execFormationAck l s
  | .formationAckTimeout l => Sys2Proof.Machine.execFormationAckTimeout l s
  | .periodMark l => Sys2Proof.Machine.execPeriodMark l s
  | .sampleInstant l inp => Sys2Proof.Machine.execSampleInstant l inp s
  | .streamedItem rx tx => Sys2Proof.Machine.execStreamedItem rx tx s
  | .sampleVector rx tx v => Sys2Proof.Machine.execSampleVector rx tx v s
  | .vectorDeadline l => Sys2Proof.Machine.execVectorDeadline l s
  | .presenceQuad rx tx q => Sys2Proof.Machine.execPresenceQuad rx tx q s
  | .presenceDeadline l => Sys2Proof.Machine.execPresenceDeadline l s
  | .agreementDone l => Sys2Proof.Machine.execAgreementDone l s
  | .agreementDeadline l => Sys2Proof.Machine.execAgreementDeadline l s
  | .computeEnd l mask => Sys2Proof.Machine.execComputeEnd l mask s
  | .computeDeadline l mask => Sys2Proof.Machine.execComputeDeadline l mask s
  | .completionMask rx tx m => Sys2Proof.Machine.execCompletionMask rx tx m s
  | .signatureRecord rx tx relayed q => Sys2Proof.Machine.execSignatureRecord rx tx relayed q s
  | .checkpointDeadline l => Sys2Proof.Machine.execCheckpointDeadline l s
  | .launchPoint l => Sys2Proof.Machine.execLaunchPoint l s
  | .mirroredSet l q => Sys2Proof.Machine.execMirroredSet l q s
  | .mirrorDeadline l => Sys2Proof.Machine.execMirrorDeadline l s
  | .resyncCopyDone l => Sys2Proof.Machine.execResyncCopyDone l s
  | .resyncLimit l => Sys2Proof.Machine.execResyncLimit l s
  | .periodBoundary => Sys2Proof.Machine.execPeriodBoundary s
  | .matrixCycleBoundary => Sys2Proof.Machine.execMatrixCycleBoundary s
  | .launchBoundary out => Sys2Proof.Machine.execLaunchBoundary out s
  | .linkTransferFailed k back => Sys2Proof.Machine.execLinkTransferFailed k back s
  | .keepAlive tx rx => Sys2Proof.Machine.execKeepAlive tx rx s
  | .fenceNotice rx tx q => Sys2Proof.Machine.execFenceNotice rx tx q s
  | .partnerSilent l partner => Sys2Proof.Machine.execPartnerSilent l partner s
  | .silentLinkExpiry l partner => Sys2Proof.Machine.execSilentLinkExpiry l partner s
  | .claimVector l v => Sys2Proof.Machine.execClaimVector l v s
  | .claimVectorStale l => Sys2Proof.Machine.execClaimVectorStale l s
  | .pathFailed l => Sys2Proof.Machine.execPathFailed l s
  | .fallbackPacket l out q => Sys2Proof.Machine.execFallbackPacket l out q s
  | .lineDeviation leg x at_ => Sys2Proof.Machine.execLineDeviation leg x at_ s
  | .pwmBoundary out lines x => Sys2Proof.Machine.execPwmBoundary out lines x s
  | .claimGapLimit out => Sys2Proof.Machine.execClaimGapLimit out s
  | .deadboltTable l q => Sys2Proof.Machine.execDeadboltTable l q s
  | .dbStatusPacket l q => Sys2Proof.Machine.execDbStatusPacket l q s
  | .replicaDisagree r => Sys2Proof.Machine.execReplicaDisagree r s
  | .enableLineFall l => Sys2Proof.Machine.execEnableLineFall l s
  | .interlockTimeout leg waited => Sys2Proof.Machine.execInterlockTimeout leg waited s
  | .bothOnCommand leg => Sys2Proof.Machine.execBothOnCommand leg s
  | .vdsShort leg highSide mv since above => Sys2Proof.Machine.execVdsShort leg highSide mv since above s
  | .grossCurrent leg ma lowSide => Sys2Proof.Machine.execGrossCurrent leg ma lowSide s
  | .softOffEnd leg => Sys2Proof.Machine.execSoftOffEnd leg s
  | .currentSample l bridge ph => Sys2Proof.Machine.execCurrentSample l bridge ph s
  | .alignmentDone bridge => Sys2Proof.Machine.execAlignmentDone bridge s
  | .fbEdge l ch held a b z => Sys2Proof.Machine.execFbEdge l ch held a b z s
  | .indexPulse l ch held => Sys2Proof.Machine.execIndexPulse l ch held s
  | .sentFrame l ch calib pulses pause low => Sys2Proof.Machine.execSentFrame l ch calib pulses pause low s
  | .ssiStart l ch => Sys2Proof.Machine.execSsiStart l ch s
  | .ssiFrame l ch idleHigh firstLow copies monoHigh => Sys2Proof.Machine.execSsiFrame l ch idleHigh firstLow copies monoHigh s
  | .probeEdge l ch source falling held => Sys2Proof.Machine.execProbeEdge l ch source falling held s
  | .frameReceived l port bytes => Sys2Proof.Machine.execFrameReceived l port bytes s
  | .coldstartFrame l port bytes => Sys2Proof.Machine.execColdstartFrame l port bytes s
  | .syncFrame l port bytes => Sys2Proof.Machine.execSyncFrame l port bytes s
  | .delayFrame l chan d => Sys2Proof.Machine.execDelayFrame l chan d s
  | .phyLinkUp l port => Sys2Proof.Machine.execPhyLinkUp l port s
  | .probeSend l port => Sys2Proof.Machine.execProbeSend l port s
  | .probeRequest l port seq node => Sys2Proof.Machine.execProbeRequest l port seq node s
  | .probeResponse l port seq t2 t3 t4 node => Sys2Proof.Machine.execProbeResponse l port seq t2 t3 t4 node s
  | .probeTimeout l port => Sys2Proof.Machine.execProbeTimeout l port s
  | .linkLost l port => Sys2Proof.Machine.execLinkLost l port s
  | .startInstant l => Sys2Proof.Machine.execStartInstant l s
  | .listenTimeout l => Sys2Proof.Machine.execListenTimeout l s
  | .basicCycleStart l => Sys2Proof.Machine.execBasicCycleStart l s
  | .recoveryEntry l => Sys2Proof.Machine.execRecoveryEntry l s
  | .handoverCandidate l => Sys2Proof.Machine.execHandoverCandidate l s
  | .holdoverLimit l => Sys2Proof.Machine.execHoldoverLimit l s
  | .spareReleaseExpiry slot => Sys2Proof.Machine.execSpareReleaseExpiry slot s
  | .frameMoverViolation l port => Sys2Proof.Machine.execFrameMoverViolation l port s
  | .pduReceived l link num bytes => Sys2Proof.Machine.execPduReceived l link num bytes s
  | .watchdogExpiry num => Sys2Proof.Machine.execWatchdogExpiry num s
  | .freeDelayExpiry num => Sys2Proof.Machine.execFreeDelayExpiry num s
  | .cvCfgWrite l u m v => Sys2Proof.Machine.execCvCfgWrite l u m v s
  | .cvStateAccess l u m write => Sys2Proof.Machine.execCvStateAccess l u m write s
  | .cvFeedWrite l u m item => Sys2Proof.Machine.execCvFeedWrite l u m item s
  | .cvLenWrite l u m len => Sys2Proof.Machine.execCvLenWrite l u m len s
  | .memoryFeedDone l u readError => Sys2Proof.Machine.execMemoryFeedDone l u readError s
  | .cvResultRead l u => Sys2Proof.Machine.execCvResultRead l u s
  | .cvRegisterWrite l u m reg v => Sys2Proof.Machine.execCvRegisterWrite l u m reg v s
  | .unitTestInterval l u failStep => Sys2Proof.Machine.execUnitTestInterval l u failStep s
  | .testPulseStart l k => Sys2Proof.Machine.execTestPulseStart l k s
  | .testPulseEnd l k p => Sys2Proof.Machine.execTestPulseEnd l k p s
  | .pulseRecoverEnd l => Sys2Proof.Machine.execPulseRecoverEnd l s
  | .siLevelAccepted l n level held => Sys2Proof.Machine.execSiLevelAccepted l n level held s
  | .tpOverload l k => Sys2Proof.Machine.execTpOverload l k s
  | .offPulseStart l => Sys2Proof.Machine.execOffPulseStart l s
  | .offPulseEnd l mv => Sys2Proof.Machine.execOffPulseEnd l mv s
  | .soOvercurrent l n => Sys2Proof.Machine.execSoOvercurrent l n s
  | .faultDetected l code utype inst dieLane => Sys2Proof.Machine.execFaultDetected l code utype inst dieLane s
  | .eccCorrection l region quad cell => Sys2Proof.Machine.execEccCorrection l region quad cell s
  | .uncorrectableError l region ctx => Sys2Proof.Machine.execUncorrectableError l region ctx s
  | .coreAccessViolation l => Sys2Proof.Machine.execCoreAccessViolation l s
  | .engineAccessViolation l => Sys2Proof.Machine.execEngineAccessViolation l s
  | .nvmVerifyFail l sector => Sys2Proof.Machine.execNvmVerifyFail l sector s
  | .mergeTimeExpiry l code utype inst die agreed => Sys2Proof.Machine.execMergeTimeExpiry l code utype inst die agreed s
  | .recordWrite l => Sys2Proof.Machine.execRecordWrite l s
  | .parkTimeExpiry => Sys2Proof.Machine.execParkTimeExpiry s
  | .stopTimeout => Sys2Proof.Machine.execStopTimeout s
  | .applyTimeExpiry => Sys2Proof.Machine.execApplyTimeExpiry s
  | .idleDelayExpiry ch => Sys2Proof.Machine.execIdleDelayExpiry ch s
  | .idleTimerExpiry => Sys2Proof.Machine.execIdleTimerExpiry s
  | .driveDomainsGood => Sys2Proof.Machine.execDriveDomainsGood s
  | .pointOfNoReturn => Sys2Proof.Machine.execPointOfNoReturn s
  | .hlinkOff l => Sys2Proof.Machine.execHlinkOff l s
  | .domainGoodTimeout l => Sys2Proof.Machine.execDomainGoodTimeout l s
  | .wakeEvent l w => Sys2Proof.Machine.execWakeEvent l w s
  | .wakeLine l src => Sys2Proof.Machine.execWakeLine l src s
  | .wakeTimerExpiry l => Sys2Proof.Machine.execWakeTimerExpiry l s
  | .glideCycle l si adc fb => Sys2Proof.Machine.execGlideCycle l si adc fb s
  | .wakeDone l => Sys2Proof.Machine.execWakeDone l s
  | .standdownDefer l => Sys2Proof.Machine.execStanddownDefer l s
  | .logicBistDone l sigOk signature => Sys2Proof.Machine.execLogicBistDone l sigOk signature s
  | .memoryBistDone l cells => Sys2Proof.Machine.execMemoryBistDone l cells s
  | .reinitDone l => Sys2Proof.Machine.execReinitDone l s
  | .opcodeNotInIndex opcode r => Sys2Proof.Machine.execOpcodeNotInIndex opcode r s
  | .fwWriteDone => Sys2Proof.Machine.execFwWriteDone s
  | .commissionWriteDone l => Sys2Proof.Machine.execCommissionWriteDone l s
  | .pintleReport l p sc => Sys2Proof.Machine.execPintleReport l p sc s
  | .stallParameters ch q => Sys2Proof.Machine.execStallParameters ch q s
  | .timeMark l src q => Sys2Proof.Machine.execTimeMark l src q s
  | .hostBridgeLost l => Sys2Proof.Machine.execHostBridgeLost l s

end Sys2Proof.Machine
end

