-- ==== Sys2Proof/Machine/Tick.lean ====
section
/-! DEFINITION. One tick of the timebases (R337). -/

namespace Sys2Proof.Machine

open Sys2Proof

/-- A timebase after one tick of 10 ns: NT advances by 10 ns × (1 + c), with c in 2^−32 (R337). -/
def Clock.tick (k : Clock) : Clock :=
  if k.running then
    let t := ((k.nt * 2 ^ 32 + k.frac + 10 * 2 ^ 32 : Nat) : Int) + 10 * k.rate
    { k with nt := t.toNat / 2 ^ 32 % 2 ^ 64, frac := t.toNat % 2 ^ 32 }
  else k

/-- A lane's part of a tick: its timebase, and its remaining formation wait while that runs; the timebase of a fenced lane is halted
(R10, R110). -/
def Lane.tick (n : Lane) : Lane :=
  if n.boot.fenced then n
  else { n with clock := n.clock.tick, boot := { n.boot with wait := if n.boot.waitRuns && n.clock.running then n.boot.wait - 10 else n.boot.wait } }

/-- With no command waiting, the running timebase of every lane that is not fenced advances by one tick, and the lane links serve
their traffic (R10, R12, log 19). -/
def tick (s : State) : Out := .next (s.onChip (fun c => (c.modLanes (fun _ n => n.tick)).tickLinks))

end Sys2Proof.Machine
end

