-- ==== Sys2Proof/Machine/Step.lean ====
section
/-! DEFINITION. One step: the command at the front of the queue, or one tick of the timebases on an empty queue. -/

namespace Sys2Proof.Machine

open Sys2Proof

/-- One step of the module: the command at the front of the queue is taken and executed with the queue's rest; with no
command waiting, the running timebases advance by one tick of 10 ns (R337, log 19). -/
def step (s : State) : Host.Outcome State Fault Refusal :=
  match s.pending with
  | [] => Sys2Proof.Machine.tick s
  | i :: rest => Sys2Proof.Machine.exec i { s with pending := rest }

/-- The state with the command that a word spells at the front of its queue; unchanged where the word spells none. -/
def State.withFetchWord (s : State) (nbits w : Nat) : State :=
  match decodeTableWord nbits w with
  | some i => { s with pending := i :: s.pending }
  | none => s

end Sys2Proof.Machine
end

