-- ==== Sys2Proof/Machine/OpTable.lean ====
section
/-! DEFINITION. The operations of the opcode index (R75) as one table: for each command that carries a packet, what the index says of it,
its own checks, its effect and the packet. -/

namespace Sys2Proof.Machine

open Sys2Proof

/-- An operation and the packet that asks for it. -/
structure OpRow where
  attr : OpAttr
  checks : Req → Chip → List Nat
  effect : Req → State → OpOut
  req : Req

/-- The operation of a command that carries a packet, less HOST.LINK_SYNC, which no sequence number gates (R60), and a packet whose opcode
is not in the index (R554). -/
def opRow : Instr → Option OpRow
  | .paramRead b r => some ⟨attrParamRead b, checksParamRead, effectParamRead, r⟩
  | .paramWrite b r => some ⟨attrParamWrite b, checksParamWrite, effectParamWrite, r⟩
  | .statusRead blk r => some ⟨attrStatusRead blk, checksNone, effectStatusRead blk, r⟩
  | .sysIdentify r => some ⟨attrSysIdentify, checksNone, effectSysIdentify, r⟩
  | .sysEcho r => some ⟨attrSysEcho, checksSysEcho, effectSysEcho, r⟩
  | .sysReset r => some ⟨attrSysReset, checksNone, effectSysReset, r⟩
  | .laneFence r => some ⟨attrLaneFence, checksLaneFence, effectLaneFence, r⟩
  | .laneReadmit r => some ⟨attrLaneReadmit, checksLaneReadmit, effectLaneReadmit, r⟩
  | .restartAck _ => none
  | .readmitAckTimeout _ => none
  | .readmitReadyTimeout _ => none
  | .actuationEnable r => some ⟨attrActuationEnable, checksActuationEnable, effectActuationEnable, r⟩
  | .actuationDisable r => some ⟨attrActuationDisable, checksNone, effectActuationDisable, r⟩
  | .timingRead r => some ⟨attrTimingRead, checksNone, effectTimingRead, r⟩
  | .signatureRead r => some ⟨attrSignatureRead, checksNone, effectSignatureRead, r⟩
  | .recordRead r => some ⟨attrRecordRead, checksRecordRead, effectRecordRead, r⟩
  | .unitUnfence r => some ⟨attrUnitUnfence, checksUnitUnfence, effectUnitUnfence, r⟩
  | .inject r => some ⟨attrInject, checksInject, effectInject, r⟩
  | .stopRequest r => some ⟨attrStopRequest, checksNone, effectStopRequest, r⟩
  | .holdRelease r => some ⟨attrHoldRelease, checksHoldRelease, effectHoldRelease, r⟩
  | .deadboltRelease r => some ⟨attrDeadboltRelease, checksDeadboltRelease, effectDeadboltRelease, r⟩
  | .cmtEnable r => some ⟨attrCmtEnable, checksCmtEnable, effectCmtEnable, r⟩
  | .cmtDisable r => some ⟨attrCmtDisable, checksCmtDisable, effectCmtDisable, r⟩
  | .torqueSet r => some ⟨attrTorqueSet, checksTorqueSet, effectTorqueSet, r⟩
  | .catchStart r => some ⟨attrCatchStart, checksCatchStart, effectCatchStart, r⟩
  | .offstateTest r => some ⟨attrOffstateTest, checksOffstateTest, effectOffstateTest, r⟩
  | .ostStepSettle _ _ _ => none
  | .legClear r => some ⟨attrLegClear, checksLegClear, effectLegClear, r⟩
  | .stpMove r => some ⟨attrStpMove, checksStpMove, effectStpMove, r⟩
  | .stpStop r => some ⟨attrStpStop, checksStpStop, effectStpStop, r⟩
  | .stpHome r => some ⟨attrStpHome, checksStpHome, effectStpHome, r⟩
  | .homeTimeout _ => none
  | .tableLoad r => some ⟨attrTableLoad, checksTableLoad, effectTableLoad, r⟩
  | .positionSet r => some ⟨attrPositionSet, checksPositionSet, effectPositionSet, r⟩
  | .probeArm r => some ⟨attrProbeArm, checksProbeArm, effectProbeArm, r⟩
  | .setpointSet r => some ⟨attrSetpointSet, checksSetpointSet, effectSetpointSet, r⟩
  | .modeSet r => some ⟨attrModeSet, checksModeSet, effectModeSet, r⟩
  | .integratorPreset r => some ⟨attrIntegratorPreset, checksIntegratorPreset, effectIntegratorPreset, r⟩
  | .scheduleLoad r => some ⟨attrScheduleLoad, checksScheduleLoad, effectScheduleLoad, r⟩
  | .netStart r => some ⟨attrNetStart, checksNetStart, effectNetStart, r⟩
  | .netStartTimeout => none
  | .spareClaim r => some ⟨attrSpareClaim, checksSpareClaim, effectSpareClaim, r⟩
  | .frameSend r => some ⟨attrFrameSend, checksFrameSend, effectFrameSend, r⟩
  | .timeRead r => some ⟨attrTimeRead, checksNone, effectTimeRead, r⟩
  | .epochSet r => some ⟨attrEpochSet, checksEpochSet, effectEpochSet, r⟩
  | .sessionOpen r => some ⟨attrSessionOpen, checksSessionOpen, effectSessionOpen, r⟩
  | .openRequest _ _ => none
  | .openAnswer _ _ _ => none
  | .openTimeout _ => none
  | .sessionClose r => some ⟨attrSessionClose r, checksSessionClose, effectSessionClose, r⟩
  | .peerUnfreeze r => some ⟨attrPeerUnfreeze, checksPeerUnfreeze, effectPeerUnfreeze, r⟩
  | .unitTest r defects => some ⟨attrUnitTest, checksUnitTest, effectUnitTest defects, r⟩
  | .outputSet r => some ⟨attrOutputSet, checksOutputSet, effectOutputSet, r⟩
  | .pulseTest r => some ⟨attrPulseTest, checksPulseTest, effectPulseTest, r⟩
  | .pulseTestDone _ _ _ _ => none
  | .linkSync _ => none
  | .hostUnfreeze r => some ⟨attrHostUnfreeze, checksHostUnfreeze, effectHostUnfreeze, r⟩
  | .imageWrite r => some ⟨attrImageWrite, checksImageWrite, effectImageWrite, r⟩
  | .cfgStore r => some ⟨attrCfgStore, checksCfgStore, effectCfgStore, r⟩
  | .storeCommit _ _ => none
  | .checkRead r => some ⟨attrCheckRead, checksCheckRead, effectCheckRead, r⟩
  | .commissionConfirm r => some ⟨attrCommissionConfirm, checksCommissionConfirm, effectCommissionConfirm, r⟩
  | .fwWrite r => some ⟨attrFwWrite, checksFwWrite, effectFwWrite, r⟩
  | .fwActivate r => some ⟨attrFwActivate, checksFwActivate, effectFwActivate, r⟩
  | .fwActivateDone => none
  | .stateSet r => some ⟨attrStateSet, checksStateSet, effectStateSet, r⟩
  | .padsRelease r => some ⟨attrPadsRelease, checksNone, effectPadsRelease, r⟩
  | .wakeSourceRead r => some ⟨attrWakeSourceRead, checksNone, effectWakeSourceRead, r⟩
  | .thmRead r => some ⟨attrThmRead, checksNone, effectThmRead, r⟩
  | .standdownNow r => some ⟨attrStanddownNow, checksStanddownNow, effectStanddownNow, r⟩
  | .resultRead r => some ⟨attrResultRead, checksResultRead, effectResultRead, r⟩
  | .fuseRepair r => some ⟨attrFuseRepair, checksFuseRepair, effectFuseRepair, r⟩
  | .fuseRepairDone _ _ => none
  | .writeFrame _ _ => none
  | .readFrame _ _ _ => none
  | .replyTransfer _ _ => none
  | .laneUnavailable _ => none
  | .freezeQuietExpiry _ => none
  | .haonPowerUp _ _ _ => none
  | .powerGood _ => none
  | .powerGoodLost _ => none
  | .laneReady _ => none
  | .linkTrainingDone _ _ => none
  | .pintlePowerUp => none
  | .discoverySend _ => none
  | .discoveryRecord _ _ _ => none
  | .adoptionDone _ _ => none
  | .formationWaitExpiry _ => none
  | .formationRecord _ => none
  | .formationAck _ => none
  | .formationAckTimeout _ => none
  | .periodMark _ => none
  | .sampleInstant _ _ => none
  | .streamedItem _ _ => none
  | .sampleVector _ _ _ => none
  | .vectorDeadline _ => none
  | .presenceQuad _ _ _ => none
  | .presenceDeadline _ => none
  | .agreementDone _ => none
  | .agreementDeadline _ => none
  | .computeEnd _ _ => none
  | .computeDeadline _ _ => none
  | .completionMask _ _ _ => none
  | .signatureRecord _ _ _ _ => none
  | .checkpointDeadline _ => none
  | .launchPoint _ => none
  | .mirroredSet _ _ => none
  | .mirrorDeadline _ => none
  | .resyncCopyDone _ => none
  | .resyncLimit _ => none
  | .periodBoundary => none
  | .matrixCycleBoundary => none
  | .launchBoundary _ => none
  | .linkTransferFailed _ _ => none
  | .keepAlive _ _ => none
  | .fenceNotice _ _ _ => none
  | .partnerSilent _ _ => none
  | .silentLinkExpiry _ _ => none
  | .claimVector _ _ => none
  | .claimVectorStale _ => none
  | .pathFailed _ => none
  | .fallbackPacket _ _ _ => none
  | .lineDeviation _ _ _ => none
  | .pwmBoundary _ _ _ => none
  | .claimGapLimit _ => none
  | .deadboltTable _ _ => none
  | .dbStatusPacket _ _ => none
  | .replicaDisagree _ => none
  | .enableLineFall _ => none
  | .interlockTimeout _ _ => none
  | .bothOnCommand _ => none
  | .vdsShort _ _ _ _ _ => none
  | .grossCurrent _ _ _ => none
  | .softOffEnd _ => none
  | .currentSample _ _ _ => none
  | .alignmentDone _ => none
  | .fbEdge _ _ _ _ _ _ => none
  | .indexPulse _ _ _ => none
  | .sentFrame _ _ _ _ _ _ => none
  | .ssiStart _ _ => none
  | .ssiFrame _ _ _ _ _ _ => none
  | .probeEdge _ _ _ _ _ => none
  | .frameReceived _ _ _ => none
  | .coldstartFrame _ _ _ => none
  | .syncFrame _ _ _ => none
  | .delayFrame _ _ _ => none
  | .phyLinkUp _ _ => none
  | .probeSend _ _ => none
  | .probeRequest _ _ _ _ => none
  | .probeResponse _ _ _ _ _ _ _ => none
  | .probeTimeout _ _ => none
  | .linkLost _ _ => none
  | .startInstant _ => none
  | .listenTimeout _ => none
  | .basicCycleStart _ => none
  | .recoveryEntry _ => none
  | .handoverCandidate _ => none
  | .holdoverLimit _ => none
  | .spareReleaseExpiry _ => none
  | .frameMoverViolation _ _ => none
  | .pduReceived _ _ _ _ => none
  | .watchdogExpiry _ => none
  | .freeDelayExpiry _ => none
  | .cvCfgWrite _ _ _ _ => none
  | .cvStateAccess _ _ _ _ => none
  | .cvFeedWrite _ _ _ _ => none
  | .cvLenWrite _ _ _ _ => none
  | .memoryFeedDone _ _ _ => none
  | .cvResultRead _ _ => none
  | .cvRegisterWrite _ _ _ _ _ => none
  | .unitTestInterval _ _ _ => none
  | .testPulseStart _ _ => none
  | .testPulseEnd _ _ _ => none
  | .pulseRecoverEnd _ => none
  | .siLevelAccepted _ _ _ _ => none
  | .tpOverload _ _ => none
  | .offPulseStart _ => none
  | .offPulseEnd _ _ => none
  | .soOvercurrent _ _ => none
  | .faultDetected _ _ _ _ _ => none
  | .eccCorrection _ _ _ _ => none
  | .uncorrectableError _ _ _ => none
  | .coreAccessViolation _ => none
  | .engineAccessViolation _ => none
  | .nvmVerifyFail _ _ => none
  | .mergeTimeExpiry _ _ _ _ _ _ => none
  | .recordWrite _ => none
  | .parkTimeExpiry => none
  | .stopTimeout => none
  | .applyTimeExpiry => none
  | .idleDelayExpiry _ => none
  | .idleTimerExpiry => none
  | .driveDomainsGood => none
  | .pointOfNoReturn => none
  | .hlinkOff _ => none
  | .domainGoodTimeout _ => none
  | .wakeEvent _ _ => none
  | .wakeLine _ _ => none
  | .wakeTimerExpiry _ => none
  | .glideCycle _ _ _ _ => none
  | .wakeDone _ => none
  | .standdownDefer _ => none
  | .logicBistDone _ _ _ => none
  | .memoryBistDone _ _ => none
  | .reinitDone _ => none
  | .opcodeNotInIndex _ _ => none
  | .fwWriteDone => none
  | .commissionWriteDone _ => none
  | .pintleReport _ _ _ => none
  | .stallParameters _ _ => none
  | .timeMark _ _ _ => none
  | .hostBridgeLost _ => none

end Sys2Proof.Machine
end

