-- ==== Sys2Proof/Safety.lean ====
section
/-! DEFINITION. What counts as a safe run, in the terms that statements use: an inert module, memories in their canonical form, and
steps that stop. -/

namespace Sys2Proof.Machine

open Sys2Proof

/-- A lane drives nothing: no winding set switches, no stepper coil is energised, no safety output, test supply or Pintle enable line
is on (R102, R118). -/
def Lane.inert (n : Lane) : Bool :=
  n.engines.all (fun e => decide (e.gates = .off)) && n.stp.all (fun x => !x.energised) && decide (n.sio.soOn = 0) &&
    decide (n.sio.tpOn = 0) && !n.sio.enabled

/-- The Pintle die drives nothing: no output has a holder, and every pattern in force is off (R17, R33). -/
def Pintle.inert (p : Pintle) : Bool :=
  decide (p.holder = none) && !p.holding && p.outs.all (fun o => decide (o.driven = {}))

/-- The module drives nothing. -/
def State.inert (s : State) : Bool :=
  !s.chip.dev.actuation && s.chip.lanes.toList.all Lane.inert && s.chip.pintle.inert

/-- A step stops: with a fault or a refusal. -/
def State.stops (s : State) : Prop := ∀ t, step s ≠ .next t

/-! ### The state less the accounts of packet traffic -/

/-- A lane less its fault collector and the events on their way to its host (R63, R65, R434). -/
def Lane.plain (n : Lane) : Lane := { n with fault := {}, txq := [] }

/-- The agreed data less what every packet changes on its way: the accounts of host links and sessions (R60, R362), the replies and events
of the period (R63, R65, R380) and the mark of activity (R476). -/
def Dev.plain (d : Dev) : Dev :=
  { d with hosts := ⟨{}, {}, {}⟩, sessions := [], replies := [], events := [], pdus := [], power := { d.power with activity := false } }

/-- The chip less the accounts of packet traffic and the fault collectors. -/
def Chip.plain (c : Chip) : Chip := { c with lanes := c.lanes.map Lane.plain, dev := c.dev.plain }

/-- The state less the accounts of packet traffic and the fault collectors: two states with the same plain part agree in every unit,
mode, parameter, memory and output. -/
def State.plain (s : State) : State := { s with chip := s.chip.plain }

/-! ### Packets that pass the shared checks -/

/-- The state past the gates of the host link (R60, R77) and of the session (R370), where both let the packet go on. -/
def State.gated (a : OpAttr) (r : Req) (s : State) : Option State :=
  match s.chip.linkGate (s.chip.reqCrc a.code r) r with
  | .go =>
    let s := s.onChip (fun c => c.linkAdvance (c.reqCrc a.code r) r)
    if r.session = 0 then some s
    else match s.chip.sessionGate a.right r.session r.pdu with
      | (.go, c) => some { s with chip := c }
      | _ => none
  | _ => none

/-- The mark of activity that every agreed operation but a read leaves (R476). -/
def State.marked (a : OpAttr) (s : State) : State := if a.read then s else s.onChip Chip.active

/-- The end of an operation: its reply, unless that comes later (R63, R64). -/
def OpOut.finish (a : OpAttr) (r : Req) (o : OpOut) : State :=
  if o.defer then o.st else o.st.onChip (fun c => c.reply a.code r o.status o.payload)

/-- A packet that passes the gates and every check that operations share: flags, lane mask and session byte (R57 to R59), tag (R61), the
Accepted column and the stop table (R75, R459), and the launch time (R353). -/
def State.admits (a : OpAttr) (r : Req) (s : State) : Bool :=
  match s.gated a r with
  | some g => decide (formFails a r g.chip ++ tagFails r g.chip ++ stopFails a r g.chip ++ timedFails r g.chip = [])
  | none => false

end Sys2Proof.Machine
end

