-- ==== Sys2Proof/WellFormed.lean ====
section
/-! DEFINITION. Well-formed commands: operands within the widths that the spec gives them. The meanings take every operand; these
checks say which operands a packet, a record or a report can carry. -/

namespace Sys2Proof

/-- A command packet whose fields fit their places in the header and the PDU (R56, R364). -/
def Req.wf (r : Req) : Bool :=
  decide (r.session < 256) && decide (r.seq < 2 ^ 32) && decide (r.payload.length ≤ 4080) && decide (r.pdu.seq < 2 ^ 32) &&
    decide (r.pdu.stamp < 2 ^ 64) && decide (r.pdu.echo < 2 ^ 32) && decide (r.pdu.echoTime < 2 ^ 32)

/-- The sample of one lane: sixteen ADC codes of 14 bits, five temperatures, four angles, four radii and four output voltages (R121,
R124). -/
def SampleIn.wf (x : SampleIn) : Bool :=
  decide (x.adc.length = 16) && x.adc.all (fun n => decide (n < 16384)) && decide (x.temps.length = 5) &&
    decide (x.scAngle.length = 4) && x.scAngle.all (fun n => decide (n < 4096)) && decide (x.scRadius.length = 4) &&
    decide (x.soMv.length = 4)

/-- The conversions of a sampling instant: three codes of 14 bits for the currents and three for the voltages, and four angles (R201). -/
def PhaseIn.wf (x : PhaseIn) : Bool :=
  decide (x.codes.length = 3) && x.codes.all (fun n => decide (n < 16384)) && decide (x.volts.length = 3) &&
    x.volts.all (fun n => decide (n < 16384)) && decide (x.sc.length = 4) && x.sc.all (fun n => decide (n < 4096))

/-- A Pintle report: twelve coil currents and voltages, four currents and six high times of BM0 and BM1, three temperatures (R121). -/
def PintleIn.wf (x : PintleIn) : Bool :=
  decide (x.coils.length = 12) && decide (x.coilVolt.length = 12) && decide (x.bm.length = 4) && decide (x.bmHigh.length = 6) &&
    decide (x.temps.length = 3) && x.coils.all (fun i => decide (-8192 ≤ i ∧ i ≤ 8192))

/-- The currents of two coils within the ±8,192 mA of the sense (R258). -/
def CoilPeriod.wf (x : CoilPeriod) : Bool :=
  [x.mean.1, x.mean.2, x.last.1, x.last.2].all (fun i => decide (-8192 ≤ i ∧ i ≤ 8192))

/-- Stall parameters in the ranges of R275. -/
def StallPar.wf (x : StallPar) : Bool :=
  decide (x.least ≤ 2560000) && decide (10 ≤ x.emf ∧ x.emf ≤ 90) && decide (45 ≤ x.angle ∧ x.angle ≤ 180)

/-- A frame on the wire: no more than its 92 payload quads need (R304). -/
def frameWf (b : List Byte) : Bool := decide (b.length ≤ 1506)

/-- A time mark: the widths of its values (R346). -/
def TimeMark.wf (x : TimeMark) : Bool := decide (x.stamp < 2 ^ 64) && decide (x.rank < 16) && decide (x.node < 2 ^ 16)

/-- A message of at most n whole quads (R12). -/
def quadsWf (n : Nat) (b : List Byte) : Bool := decide (b.length % 16 = 0) && decide (b.length ≤ 16 * n)

/-- A presence quad: masks of three lanes and CRC-32C values (R130). -/
def Presence.wf (x : Presence) : Bool :=
  decide (x.held.toNat < 8) && x.crcs.toList.all (fun n => decide (n < 2 ^ 32))

/-- An open request or answer (R376). -/
def OpenData.wf (x : OpenData) : Bool :=
  decide (x.num < 256) && decide (x.epoch < 256) && decide (x.rnum < 256) && decide (x.first < 2 ^ 32)

/-- Delay data whose NodeIDs fit 16 bits (R340). -/
def DelayData.wf (x : DelayData) : Bool := decide (x.node < 2 ^ 16) && decide (x.uNode < 2 ^ 16) && decide (x.dNode < 2 ^ 16)

/-- A failing cell: bit 0 to 136 of a place in a region of R500. -/
def FailCell.wf (x : FailCell) : Bool := decide (x.region < 28) && decide (x.bit < 137)

/-- A message whose other content is well-formed. -/
def Rx.wfWith {α : Type} (f : α → Bool) : Rx α → Bool
  | .intact => true
  | .corrupt => true
  | .other x => f x

/-- A command whose operands fit the widths that the spec gives them. -/
def Instr.wf : Instr → Bool
  | .paramRead _ r => r.wf
  | .paramWrite _ r => r.wf
  | .statusRead _ r => r.wf
  | .sysIdentify r => r.wf
  | .sysEcho r => r.wf
  | .sysReset r => r.wf
  | .laneFence r => r.wf
  | .laneReadmit r => r.wf
  | .restartAck _ => true
  | .readmitAckTimeout _ => true
  | .readmitReadyTimeout _ => true
  | .actuationEnable r => r.wf
  | .actuationDisable r => r.wf
  | .timingRead r => r.wf
  | .signatureRead r => r.wf
  | .recordRead r => r.wf
  | .unitUnfence r => r.wf
  | .inject r => r.wf
  | .stopRequest r => r.wf
  | .holdRelease r => r.wf
  | .deadboltRelease r => r.wf
  | .cmtEnable r => r.wf
  | .cmtDisable r => r.wf
  | .torqueSet r => r.wf
  | .catchStart r => r.wf
  | .offstateTest r => r.wf
  | .ostStepSettle _ _ _ => true
  | .legClear r => r.wf
  | .stpMove r => r.wf
  | .stpStop r => r.wf
  | .stpHome r => r.wf
  | .homeTimeout _ => true
  | .tableLoad r => r.wf
  | .positionSet r => r.wf
  | .probeArm r => r.wf
  | .setpointSet r => r.wf
  | .modeSet r => r.wf
  | .integratorPreset r => r.wf
  | .scheduleLoad r => r.wf
  | .netStart r => r.wf
  | .netStartTimeout => true
  | .spareClaim r => r.wf
  | .frameSend r => r.wf
  | .timeRead r => r.wf
  | .epochSet r => r.wf
  | .sessionOpen r => r.wf
  | .openRequest _ d => d.wf
  | .openAnswer _ _ d => d.wf
  | .openTimeout _ => true
  | .sessionClose r => r.wf
  | .peerUnfreeze r => r.wf
  | .unitTest r _ => r.wf
  | .outputSet r => r.wf
  | .pulseTest r => r.wf
  | .pulseTestDone _ _ _ _ => true
  | .linkSync r => r.wf
  | .hostUnfreeze r => r.wf
  | .imageWrite r => r.wf
  | .cfgStore r => r.wf
  | .storeCommit _ _ => true
  | .checkRead r => r.wf
  | .commissionConfirm r => r.wf
  | .fwWrite r => r.wf
  | .fwActivate r => r.wf
  | .fwActivateDone => true
  | .stateSet r => r.wf
  | .padsRelease r => r.wf
  | .wakeSourceRead r => r.wf
  | .thmRead r => r.wf
  | .standdownNow r => r.wf
  | .resultRead r => r.wf
  | .fuseRepair r => r.wf
  | .fuseRepairDone _ _ => true
  | .writeFrame _ _ => true
  | .readFrame _ _ _ => true
  | .replyTransfer _ _ => true
  | .laneUnavailable _ => true
  | .freezeQuietExpiry _ => true
  | .haonPowerUp _ _ _ => true
  | .powerGood _ => true
  | .powerGoodLost _ => true
  | .laneReady _ => true
  | .linkTrainingDone _ _ => true
  | .pintlePowerUp => true
  | .discoverySend _ => true
  | .discoveryRecord _ _ d => d.wfWith (quadsWf 3)
  | .adoptionDone _ _ => true
  | .formationWaitExpiry _ => true
  | .formationRecord _ => true
  | .formationAck _ => true
  | .formationAckTimeout _ => true
  | .periodMark _ => true
  | .sampleInstant _ inp => inp.wf
  | .streamedItem _ _ => true
  | .sampleVector _ _ v => v.wfWith (fun n => decide (n < 2 ^ 32))
  | .vectorDeadline _ => true
  | .presenceQuad _ _ q => q.wfWith Presence.wf
  | .presenceDeadline _ => true
  | .agreementDone _ => true
  | .agreementDeadline _ => true
  | .computeEnd _ _ => true
  | .computeDeadline _ _ => true
  | .completionMask _ _ m => m.wfWith (quadsWf 1)
  | .signatureRecord _ _ _ q => q.wfWith (quadsWf 1024)
  | .checkpointDeadline _ => true
  | .launchPoint _ => true
  | .mirroredSet _ q => q.wfWith (quadsWf 85)
  | .mirrorDeadline _ => true
  | .resyncCopyDone _ => true
  | .resyncLimit _ => true
  | .periodBoundary => true
  | .matrixCycleBoundary => true
  | .launchBoundary _ => true
  | .linkTransferFailed _ _ => true
  | .keepAlive _ _ => true
  | .fenceNotice _ _ q => q.wfWith (fun n => decide (n < 2 ^ 32))
  | .partnerSilent _ _ => true
  | .silentLinkExpiry _ _ => true
  | .claimVector _ _ => true
  | .claimVectorStale _ => true
  | .pathFailed _ => true
  | .fallbackPacket _ _ q => q.wfWith (fun b => decide (b.length = 32))
  | .lineDeviation _ _ _ => true
  | .pwmBoundary _ _ x => x.wf
  | .claimGapLimit _ => true
  | .deadboltTable _ _ => true
  | .dbStatusPacket _ _ => true
  | .replicaDisagree _ => true
  | .enableLineFall _ => true
  | .interlockTimeout _ _ => true
  | .bothOnCommand _ => true
  | .vdsShort _ _ _ _ _ => true
  | .grossCurrent _ _ _ => true
  | .softOffEnd _ => true
  | .currentSample _ _ i => i.wf
  | .alignmentDone _ => true
  | .fbEdge _ _ _ _ _ _ => true
  | .indexPulse _ _ _ => true
  | .sentFrame _ _ _ _ _ _ => true
  | .ssiStart _ _ => true
  | .ssiFrame _ _ _ _ _ _ => true
  | .probeEdge _ _ _ _ _ => true
  | .frameReceived _ _ b => frameWf b
  | .coldstartFrame _ _ b => frameWf b
  | .syncFrame _ _ b => frameWf b
  | .delayFrame _ _ d => d.wf
  | .phyLinkUp _ _ => true
  | .probeSend _ _ => true
  | .probeRequest _ _ _ _ => true
  | .probeResponse _ _ _ _ _ _ _ => true
  | .probeTimeout _ _ => true
  | .linkLost _ _ => true
  | .startInstant _ => true
  | .listenTimeout _ => true
  | .basicCycleStart _ => true
  | .recoveryEntry _ => true
  | .handoverCandidate _ => true
  | .holdoverLimit _ => true
  | .spareReleaseExpiry _ => true
  | .frameMoverViolation _ _ => true
  | .pduReceived _ _ _ _ => true
  | .watchdogExpiry _ => true
  | .freeDelayExpiry _ => true
  | .cvCfgWrite _ _ _ _ => true
  | .cvStateAccess _ _ _ _ => true
  | .cvFeedWrite _ _ _ _ => true
  | .cvLenWrite _ _ _ _ => true
  | .memoryFeedDone _ _ _ => true
  | .cvResultRead _ _ => true
  | .cvRegisterWrite _ _ _ _ _ => true
  | .unitTestInterval _ _ _ => true
  | .testPulseStart _ _ => true
  | .testPulseEnd _ _ _ => true
  | .pulseRecoverEnd _ => true
  | .siLevelAccepted _ _ _ _ => true
  | .tpOverload _ _ => true
  | .offPulseStart _ => true
  | .offPulseEnd _ _ => true
  | .soOvercurrent _ _ => true
  | .faultDetected _ _ _ _ _ => true
  | .eccCorrection _ _ _ cell => cell.wf
  | .uncorrectableError _ _ _ => true
  | .coreAccessViolation _ => true
  | .engineAccessViolation _ => true
  | .nvmVerifyFail _ _ => true
  | .mergeTimeExpiry _ _ _ _ _ _ => true
  | .recordWrite _ => true
  | .parkTimeExpiry => true
  | .stopTimeout => true
  | .applyTimeExpiry => true
  | .idleDelayExpiry _ => true
  | .idleTimerExpiry => true
  | .driveDomainsGood => true
  | .pointOfNoReturn => true
  | .hlinkOff _ => true
  | .domainGoodTimeout _ => true
  | .wakeEvent _ _ => true
  | .wakeLine _ _ => true
  | .wakeTimerExpiry _ => true
  | .glideCycle _ si adc fb => decide (si.length = 3 ∧ adc.length = 4 ∧ fb.length = 8) && adc.all (fun n => decide (n < 16384))
  | .wakeDone _ => true
  | .standdownDefer _ => true
  | .logicBistDone _ _ _ => true
  | .memoryBistDone _ cells => cells.all FailCell.wf
  | .reinitDone _ => true
  | .opcodeNotInIndex _ r => r.wf
  | .fwWriteDone => true
  | .commissionWriteDone _ => true
  | .pintleReport _ p sc => p.wf && decide (sc.length = 4) && sc.all (fun n => decide (n < 4096))
  | .stallParameters _ q => q.wfWith StallPar.wf
  | .timeMark _ _ q => q.wfWith TimeMark.wf
  | .hostBridgeLost _ => true

end Sys2Proof
end

