-- ==== Sys2Proof/Certificates/Slice0/Obligations.lean ====
section
/-! DEFINITION. The statements for the provers. -/

open Sys2Proof Sys2Proof.Machine

/-- A step of the block runs the command at the front of its queue: step with c in front is exec of c on the state with the rest. -/
def Obligations.StepRunsFrontCommand : Prop :=
  ∀ (c : Instr) (rest : List Instr) (s : State), step { s with pending := c :: rest } = exec c { s with pending := rest }

/-- With no command waiting, one step is one tick. The running timebase of a lane that is not fenced adds 10 ns and the rate correction's
part of them to NT with its fraction, and its remaining formation wait runs down while that runs; a stopped timebase and a fenced lane stay
as they are (R7, R10, R110, R337). The lane links serve their traffic: of two transfers that wait in one direction the one of the higher
priority is served a quad, and the other waits (R12). No other part of the module changes. That the tick is the idle step is the model's
choice (log 19). -/
def Obligations.IdleStepAdvancesTimebases : Prop :=
  (∀ s : State, s.pending = [] → ∃ t, step s = .next t ∧ t.mem = s.mem ∧ t.pending = [] ∧ t.chip.dev = s.chip.dev ∧
    t.chip.pintle = s.chip.pintle ∧ t.chip.bridges = s.chip.bridges ∧ t.chip.fresh = s.chip.fresh ∧
    (∀ k, k < 3 → (t.chip.linkAt k).fenced = (s.chip.linkAt k).fenced ∧ (t.chip.linkAt k).failedNow = (s.chip.linkAt k).failedNow ∧
      (t.chip.linkAt k).failedLast = (s.chip.linkAt k).failedLast) ∧
    ∀ l, ((s.chip.lane l).boot.fenced = true → t.chip.lane l = s.chip.lane l) ∧
      ((s.chip.lane l).boot.fenced = false →
        t.chip.lane l = { s.chip.lane l with
          clock := (t.chip.lane l).clock
          boot := { (s.chip.lane l).boot with wait := (t.chip.lane l).boot.wait } } ∧
        ((s.chip.lane l).clock.running = false → (t.chip.lane l).clock = (s.chip.lane l).clock ∧
          (t.chip.lane l).boot.wait = (s.chip.lane l).boot.wait) ∧
        ((s.chip.lane l).clock.running = true →
          (t.chip.lane l).boot.wait = (if (s.chip.lane l).boot.waitRuns then (s.chip.lane l).boot.wait - 10 else (s.chip.lane l).boot.wait) ∧
          ((s.chip.lane l).clock.rate = 0 → (s.chip.lane l).clock.frac < 2 ^ 32 →
            (t.chip.lane l).clock.nt = ((s.chip.lane l).clock.nt + 10) % 2 ^ 64 ∧
            (t.chip.lane l).clock.frac = (s.chip.lane l).clock.frac)))) ∧
  (∀ (d : LinkDir) (x y : LinkXfer), d.waiting = [x, y] → 54 ≤ d.phase → y.traffic.priority < x.traffic.priority → 1 < y.quads →
    d.tick = ({ waiting := [x, { y with quads := y.quads - 1 }], phase := d.phase - 54, last := d.last }, none))

/-- The module right after reset: nothing formed, actuation disabled, every output inert, every field side silent, no lane synchronised to
a host, and no command waiting (R102, R118).
The memories of the module have their canonical form after reset, and every byte of them reads as zero (R98, R103). -/
def Obligations.ResetIsInertUnformedAndBlank : Prop :=
  (State.reset.pending = [] ∧ State.reset.inert = true ∧ State.reset.chip.dev.formed = false ∧ State.reset.chip.dev.authority = 0 ∧
     (∀ l, (State.reset.chip.lane l).boot.state = .booting ∧ (State.reset.chip.lane l).boot.powerGood = false) ∧
     (∀ l, (State.reset.chip.bridges.get l).silent = true ∧ (State.reset.chip.dev.hosts.get l).synced = false) ∧
     (∀ l, (State.reset.chip.lane l).clock.running = false ∧ (State.reset.chip.lane l).clock.nt = 0)) ∧
  (State.reset.memWf = true ∧ ∀ (l : LaneId) (a : Nat), cellGet (State.reset.mem.get l).sram a = 0 ∧
     cellGet (State.reset.mem.get l).staging a = 0 ∧ cellGet (State.reset.mem.get l).stagingSched a = 0 ∧
     cellGet (State.reset.mem.get l).bank0 a = 0 ∧ cellGet (State.reset.mem.get l).bank1 a = 0)

/-- Every step keeps the canonical form of every addressed memory: whichever of the commands is in front, and on an idle step. -/
def Obligations.EveryStepKeepsMemoriesCanonical : Prop :=
  ∀ s t : State, s.memWf = true → step s = .next t → t.memWf = true

/-- Every step that goes on takes exactly the front command off the queue: no command's effect puts commands into the queue or takes more
out of it. -/
def Obligations.EveryStepConsumesOneCommand : Prop :=
  ∀ s t : State, step s = .next t → t.pending = s.pending.tail

/-- Bytes written from an address upward are read back from there, and every byte outside them reads as before.
In canonical memories equal contents are equal data: two memories in canonical form that read alike at every address are one list. -/
def Obligations.MemoriesReadBackAndAreTheirReads : Prop :=
  (∀ (m : List Host.Cell) (a : Nat) (bs : List Byte),
     cellRead (cellWrite m a bs) a bs.length = bs ∧
     ∀ b, (b < a ∨ a + bs.length ≤ b) → cellGet (cellWrite m a bs) b = cellGet m b) ∧
  (∀ m n : List Host.Cell, Memory.wf m = true → Memory.wf n = true → (∀ a, cellGet m a = cellGet n a) → m = n)

/-- A packet that its host link answers at once (from a lane out of authority or fenced, on a frozen link, not synchronised, or out of
sequence: R20, R60, R77) is answered under its own opcode and tag with the status that R73 picks among the link's and the operation's own
failing ones, and no unit, mode, parameter, memory or output changes: for every operation of the opcode index but HOST.LINK_SYNC.
A packet that passes the gates but fails some of the checks is answered with the status that R73 picks among the failing ones, and no
unit, mode, parameter, memory or output changes: for every operation of the opcode index but HOST.LINK_SYNC. -/
def Obligations.PacketsTurnedAwayHaveNoEffect : Prop :=
  (∀ (i : Instr) (o : OpRow) (l : LaneId) (st : Nat) (s : State), opRow i = some o → o.req.link = some l →
     s.chip.linkGate (s.chip.reqCrc o.attr.code o.req) o.req = .answer st →
     ∃ t p, exec i s = .next t ∧ t.plain = s.plain ∧ t.chip.dev.replies = s.chip.dev.replies ++ [(l, p)] ∧
       p.opcode = o.attr.code ∧ p.tag = o.req.tag ∧ pickStatus (st :: opFails o.attr o.checks o.req s.chip) = some p.status) ∧
  (∀ (i : Instr) (o : OpRow) (l : LaneId) (st : Nat) (s g : State), opRow i = some o → o.req.link = some l → st ≠ 0 →
     s.gated o.attr o.req = some g → pickStatus (opFails o.attr o.checks o.req (g.marked o.attr).chip) = some st →
     ∃ t p, exec i s = .next t ∧ t.plain = s.plain ∧ t.chip.dev.replies = s.chip.dev.replies ++ [(l, p)] ∧
       p.opcode = o.attr.code ∧ p.tag = o.req.tag ∧ p.status = st)

/-- Every operation of the opcode index but HOST.LINK_SYNC completes: when its packet passes the gates of its link and its session and
none of the checks of R57 to R61, R73, R76, R353 and R459 and of its own table fails, exec answers the state that its effect gives, with
its reply. The commands are PARAM_READ, PARAM_WRITE, STATUS_READ, SYS_IDENTIFY, SYS_ECHO, SYS_RESET, LANE_FENCE, LANE_READMIT,
ACTUATION_ENABLE, ACTUATION_DISABLE, TIMING_READ, SIGNATURE_READ, RECORD_READ, UNIT_UNFENCE, INJECT, STOP_REQUEST, HOLD_RELEASE,
DEADBOLT_RELEASE, CMT_ENABLE, CMT_DISABLE, TORQUE_SET, CATCH_START, OFFSTATE_TEST, LEG_CLEAR, STP_MOVE, STP_STOP, STP_HOME, TABLE_LOAD,
POSITION_SET, PROBE_ARM, SETPOINT_SET, MODE_SET, INTEGRATOR_PRESET, SCHEDULE_LOAD, NET_START, SPARE_CLAIM, FRAME_SEND, TIME_READ,
EPOCH_SET, SESSION_OPEN, SESSION_CLOSE, PEER_UNFREEZE, UNIT_TEST, OUTPUT_SET, PULSE_TEST, HOST_UNFREEZE, IMAGE_WRITE, CFG_STORE,
CHECK_READ, COMMISSION_CONFIRM, FW_WRITE, FW_ACTIVATE, STATE_SET, PADS_RELEASE, WAKE_SOURCE_READ, THM_READ, STANDDOWN_NOW, RESULT_READ and
FUSE_REPAIR; what each effect does, the statements about its block say. -/
def Obligations.OperationsThatPassTakeEffect : Prop :=
  ∀ (i : Instr) (o : OpRow) (s g : State), opRow i = some o → s.gated o.attr o.req = some g →
    opFails o.attr o.checks o.req (g.marked o.attr).chip = [] →
    exec i s = .next ((o.effect o.req (g.marked o.attr)).finish o.attr o.req) ∧ (g.marked o.attr).plain = s.plain

/-- The status picked among several failing ones is one of them; FENCED goes before all, FROZEN before all but FENCED, SEQ_ERROR before
all but these two, and without any of the three it is the lowest code (R73). -/
def Obligations.StatusPriority : Prop :=
  ∀ xs : List Nat,
    (xs = [] → pickStatus xs = none) ∧ (xs ≠ [] → ∃ x ∈ xs, pickStatus xs = some x) ∧
    (stFenced ∈ xs → pickStatus xs = some stFenced) ∧
    (stFenced ∉ xs → stFrozen ∈ xs → pickStatus xs = some stFrozen) ∧
    (stFenced ∉ xs → stFrozen ∉ xs → stSeqError ∈ xs → pickStatus xs = some stSeqError) ∧
    (stFenced ∉ xs → stFrozen ∉ xs → stSeqError ∉ xs → ∀ x, pickStatus xs = some x → ∀ y ∈ xs, x ≤ y)

/-- HOST.LINK_SYNC (0x3010) is accepted with any sequence number n, and answered OK. On a link that is not frozen it synchronises the link
that carried it and sets its expected number to n + 1 modulo 2^32 (R60); on a frozen one the freeze stays, and the number is the one at
which a release synchronises the link (R80). It changes no other link and no unit.
HOST.UNFREEZE that passes its checks releases every host link it names (every other one for a zero mask) that did not freeze in the same
control period; silence of HOST.FREEZE_QUIET releases its link the same. No unit changes (R79, R80, R555). -/
def Obligations.HostLinksSynchroniseAndUnfreeze : Prop :=
  (∀ (r : Req) (l : LaneId) (s : State), r.link = some l → s.chip.inAuth l = true → (s.chip.lane l).boot.fenced = false →
     r.flags = 0 → r.payload = [] → (r.mask = 0 ∨ r.mask = bitMask l.idx) → r.session = 0 →
     (s.chip.dev.hosts.get l).tags.contains r.tag = false →
     ∃ t p, exec (.linkSync r) s = .next t ∧ (t.chip.dev.hosts.get l).expected = (r.seq + 1) % 2 ^ 32 ∧
       ((s.chip.dev.hosts.get l).frozen = false → (t.chip.dev.hosts.get l).synced = true ∧ (t.chip.dev.hosts.get l).frozen = false) ∧
       ((s.chip.dev.hosts.get l).frozen = true → (t.chip.dev.hosts.get l).frozen = true ∧
         (t.chip.dev.hosts.get l).freezeSync = some ((r.seq + 1) % 2 ^ 32)) ∧
       t.chip.dev.replies = s.chip.dev.replies ++ [(l, p)] ∧ p.status = 0 ∧
       t.plain = s.plain ∧ t.chip.lanes = s.chip.lanes ∧ ∀ k, k ≠ l → t.chip.dev.hosts.get k = s.chip.dev.hosts.get k) ∧
  (∀ s : State,
     (∀ r : Req, s.admits attrHostUnfreeze r = true → r.body.length = 16 → fld r.body 0 1 < 8 → zeroFrom r.body 1 16 = true →
       (r.session = 0 → ∀ l ∈ unfreezeLinks r, some l ≠ r.link) →
       ∃ t, exec (.hostUnfreeze r) s = .next t ∧ t.plain = s.plain ∧
         ∀ l ∈ unfreezeLinks r, some l ≠ r.link → (s.chip.dev.hosts.get l).violatedNow = false → (t.chip.dev.hosts.get l).frozen = false) ∧
     (∀ l : LaneId, (s.chip.dev.hosts.get l).violatedNow = false →
       ∃ t, exec (.freezeQuietExpiry l) s = .next t ∧ t.plain = s.plain ∧ (t.chip.dev.hosts.get l).frozen = false ∧
         ∀ k, k ≠ l → (t.chip.dev.hosts.get k).frozen = (s.chip.dev.hosts.get k).frozen))

/-- A packet of a host link without SUPPRESS that passes the shared checks and is a read of the SYS block: SYS.ECHO answers OK with the
request's payload, SYS.IDENTIFY answers OK with one quad; a packet whose opcode is not in the index is answered BAD_OPCODE (0x10). Nothing
else changes, but the counter of free values for the quad whose layout the spec does not give (R75, R554; log 22). -/
def Obligations.EchoIdentifyAndUnknownOpcodes : Prop :=
  ∀ (r : Req) (l : LaneId) (s : State), r.link = some l → r.session = 0 → hasBit r.flags 0 = false →
    (s.admits attrSysEcho r = true → ∃ t p, exec (.sysEcho r) s = .next t ∧ t.plain = s.plain ∧
      t.chip.dev.replies = s.chip.dev.replies ++ [(l, p)] ∧ p.opcode = 0x0011 ∧ p.tag = r.tag ∧ p.status = 0 ∧ p.payload = r.body) ∧
    (s.admits attrSysIdentify r = true → r.body = [] → ∃ t p, exec (.sysIdentify r) s = .next t ∧
      t.plain = { s.plain with chip := { s.chip.plain with fresh := s.chip.fresh + 16 } } ∧
      t.chip.dev.replies = s.chip.dev.replies ++ [(l, p)] ∧ p.opcode = 0x0010 ∧ p.status = 0 ∧ p.payload.length = 16) ∧
    (∀ code : BitVec 16, inIndex code.toNat = false → s.admits (attrUnknown code.toNat) r = true →
      ∃ t p, exec (.opcodeNotInIndex code r) s = .next t ∧ t.plain = s.plain ∧ t.chip.dev.replies = s.chip.dev.replies ++ [(l, p)] ∧
        p.opcode = code.toNat ∧ p.status = 0x10)

/-- Bridge events. At HAON power-up a bridge reads its address from the straps and the VDDH range, holds nothing, and its link is not
synchronised (R48, R60). When the field side falls silent, its bridge discards the packets not yet agreed (R55). A reply that crosses the
barrier intact goes from the lane's queue to the end of the bridge's; in place of a damaged one its reply-lost event is queued, with the
link's event counter (R54, R65, R68). A lost bridge drops what it holds and loses its power (R444). Other lanes' bridges and all memories
stay.
A read frame that matches the bridge's address gives the link status quad first, then the queued packets, then 0xFF; the packets that
fit whole into the frame leave the queue, and the edge causes and the counts of filter rejects and dropped events are cleared. It changes
nothing but that bridge (R50, R52). -/
def Obligations.BridgeEventsAndReadFrames : Prop :=
  (∀ (s : State) (l : LaneId),
     (∀ (straps : BitVec 7) (v : Bool), ∃ t, exec (.haonPowerUp l straps v) s = .next t ∧ t.mem = s.mem ∧ t.chip.lanes = s.chip.lanes ∧
       (t.chip.bridges.get l).powered = true ∧ (t.chip.bridges.get l).address = straps.toNat ∧ (t.chip.bridges.get l).vddh33 = v ∧
       (t.chip.bridges.get l).rx = [] ∧ (t.chip.bridges.get l).queue = [] ∧ (t.chip.dev.hosts.get l).synced = false ∧
       ∀ k, k ≠ l → t.chip.bridges.get k = s.chip.bridges.get k ∧ t.chip.dev.hosts.get k = s.chip.dev.hosts.get k) ∧
     (∃ t, exec (.laneUnavailable l) s = .next t ∧ t.mem = s.mem ∧ t.chip.lanes = s.chip.lanes ∧ t.chip.dev = s.chip.dev ∧
       (t.chip.bridges.get l).silent = true ∧ (t.chip.bridges.get l).rx = [] ∧
       (t.chip.bridges.get l).queue = (s.chip.bridges.get l).queue ∧ ∀ k, k ≠ l → t.chip.bridges.get k = s.chip.bridges.get k) ∧
     (∀ p ps, (s.chip.lane l).txq = p :: ps → p.isEvent = false → p.opcode % 256 ≠ 2 → (s.chip.bridges.get l).silent = false →
       (s.chip.bridges.get l).lost = false → (s.chip.bridges.get l).powered = true →
       (queueUsed (s.chip.bridges.get l).queue + p.size ≤ queueBytes →
         ∃ t, exec (.replyTransfer l .intact) s = .next t ∧ t.mem = s.mem ∧ t.chip.dev = s.chip.dev ∧
           t.chip.lanes = s.chip.lanes.set l { s.chip.lane l with txq := ps } ∧
           t.chip.bridges = s.chip.bridges.set l { s.chip.bridges.get l with queue := (s.chip.bridges.get l).queue ++ [p] }) ∧
       (queueUsed (s.chip.bridges.get l).queue + 32 ≤ queueBytes →
         ∃ t, exec (.replyTransfer l .corrupt) s = .next t ∧ t.mem = s.mem ∧
           t.chip.lanes = s.chip.lanes.set l { s.chip.lane l with txq := ps } ∧
           (t.chip.dev.hosts.get l).events = ((s.chip.dev.hosts.get l).events + 1) % 2 ^ 32 ∧
           t.chip.bridges = s.chip.bridges.set l { s.chip.bridges.get l with
             queue := (s.chip.bridges.get l).queue ++ [lostEvent p (s.chip.dev.hosts.get l).events] })) ∧
     ((s.chip.bridges.get l).lost = false → ∃ t, exec (.hostBridgeLost l) s = .next t ∧ t.mem = s.mem ∧
       (t.chip.bridges.get l).lost = true ∧ (t.chip.bridges.get l).powered = false ∧ (t.chip.bridges.get l).queue = [] ∧
       (t.chip.bridges.get l).rx = [] ∧ ∀ k, k ≠ l → t.chip.bridges.get k = s.chip.bridges.get k)) ∧
  (∀ (l : LaneId) (s : State) (n : Nat), (s.chip.bridges.get l).matches = true → (s.chip.bridges.get l).address < 128 →
     (s.chip.bridges.get l).hlinkOn = true → s.chip.sleeping = false → 16 ≤ n →
     let out := s.chip.statusQuad l ++ (s.chip.bridges.get l).queue.flatMap (fun p => p.bytes)
     ∃ t, exec (.readFrame l (BitVec.ofNat 8 (2 * (s.chip.bridges.get l).address + 1)) n) s = .next t ∧
       (t.chip.bridges.get l).ioOut = out.take n ++ List.replicate (n - out.length) 0xFF#8 ∧
       (∃ k, (t.chip.bridges.get l).queue = (s.chip.bridges.get l).queue.drop k ∧
         16 + queueUsed ((s.chip.bridges.get l).queue.take k) ≤ n ∧
         ∀ p ps, (s.chip.bridges.get l).queue.drop k = p :: ps → n < 16 + queueUsed ((s.chip.bridges.get l).queue.take k) + p.size) ∧
       (t.chip.bridges.get l).edges = 0 ∧ (t.chip.bridges.get l).rejects = 0 ∧ (t.chip.bridges.get l).dropped = 0 ∧
       t.chip.lanes = s.chip.lanes ∧ t.chip.dev = s.chip.dev ∧ t.mem = s.mem ∧
       ∀ k, k ≠ l → t.chip.bridges.get k = s.chip.bridges.get k)

/-- A whole packet in a write frame is received as it was sent: for every opcode, tag, flags, session byte, lane mask, sequence number and
payload of whole quads that the header can carry, a frame of the bridge's address byte and the packet's bytes with its CRC-32C (R47, R56)
puts exactly that packet at the end of the receive buffers and of its lane's stream, for a bridge that takes packets and has the buffers
free (R53, R66), when a PDU that the packet carries passes the lane's checks on reception (R126, R369). Nothing else changes. -/
def Obligations.WrittenPacketIsReceivedAsSent : Prop :=
  ∀ (l : LaneId) (s : State) (opcode : Nat) (tag flags mask : Byte) (session seq : Nat) (payload : List Byte),
    opcode < 2 ^ 16 → session < 256 → mask.toNat < 8 → seq < 2 ^ 32 → payload.length % 16 = 0 → payload.length ≤ 4080 →
    (s.chip.bridges.get l).matches = true → (s.chip.bridges.get l).address < 128 → (s.chip.bridges.get l).hlinkOn = true →
    s.chip.sleeping = false → s.chip.unavailable l = false → (s.chip.bridges.get l).closing = false →
    buffersOf payload.length ≤ (s.chip.bridges.get l).credits →
    s.chip.receptionPasses l { opcode := opcode, req := { link := some l, tag := tag, flags := flags, session := session, mask := mask, seq := seq, payload := payload } } = true →
    ∃ t p, exec (.writeFrame l (BitVec.ofNat 8 (2 * (s.chip.bridges.get l).address) ::
        packetBytes opcode tag.toNat flags.toNat session mask.toNat seq payload)) s = .next t ∧
      t.chip.dev = s.chip.dev ∧ t.chip.lanes = s.chip.lanes.set l ((s.chip.lane l).placed p.quads) ∧
      t.chip.pintle = s.chip.pintle ∧ t.mem = s.mem ∧
      (t.chip.bridges.get l).rx = (s.chip.bridges.get l).rx ++ [p] ∧ p.opcode = opcode ∧
      p.req = { link := some l, tag := tag, flags := flags, session := session, mask := mask, seq := seq, payload := payload } ∧
      p.buffers = buffersOf payload.length ∧ p.quads = 1 + payload.length / 16 ∧ p.ord = (s.chip.lane l).streamOrd ∧
      ∀ k, k ≠ l → t.chip.bridges.get k = s.chip.bridges.get k

/-- Power-good starts a lane's boot: its timebase runs from NT 0, its SRAM and staging stores read as zero, its NVM stays, its host link is
unavailable and not synchronised, and no other lane changes (R98, R102, R103, R553). When power-good is lost the lane's outputs are off, its
volatile state is lost and its timebase stops, and with the last lane the Pintle die and everything agreed are lost too (R102, R534). At
Pintle power-up no lane presents, nothing is fenced in the die and the Deadbolt is disarmed (R19, R36, R440). -/
def Obligations.SuppliesStartAndStopLanes : Prop :=
  ∀ (s : State) (l : LaneId),
    ((s.chip.lane l).boot.powerGood = false → ∃ t, exec (.powerGood l) s = .next t ∧ (t.chip.lane l).boot.powerGood = true ∧
      (t.chip.lane l).boot.state = .booting ∧ (t.chip.lane l).clock = { running := true } ∧ (t.chip.lane l).nvm = (s.chip.lane l).nvm ∧
      (t.mem.get l).sram = [] ∧ (t.mem.get l).staging = [] ∧ (t.mem.get l).bank0 = (s.mem.get l).bank0 ∧
      (t.chip.bridges.get l).silent = true ∧ (t.chip.dev.hosts.get l).synced = false ∧ t.chip.pintle = s.chip.pintle ∧
      ∀ k, k ≠ l → t.chip.lanes.get k = s.chip.lanes.get k ∧ t.mem.get k = s.mem.get k ∧ t.chip.bridges.get k = s.chip.bridges.get k) ∧
    ((s.chip.lane l).boot.powerGood = true → (∃ k, k ≠ l ∧ (s.chip.lane k).boot.powerGood = true) → s.chip.authLanes ≠ [l] →
      ∃ t, exec (.powerGoodLost l) s = .next t ∧ (t.chip.lane l).inert = true ∧ (t.chip.lane l).boot.powerGood = false ∧
        (t.chip.lane l).boot.state = .booting ∧ (t.chip.lane l).clock = {} ∧ (t.chip.lane l).nvm = (s.chip.lane l).nvm ∧
        (t.mem.get l).sram = [] ∧ t.chip.pintle = s.chip.pintle ∧ ∀ k, k ≠ l → t.chip.lanes.get k = s.chip.lanes.get k) ∧
    ((s.chip.lane l).boot.powerGood = true → (∀ k, k ≠ l → (s.chip.lane k).boot.powerGood = false) →
      ∃ t, exec (.powerGoodLost l) s = .next t ∧ (t.chip.lane l).inert = true ∧ t.chip.dev = {} ∧ t.chip.pintle = {} ∧
        ∀ k, (t.chip.lane k).nvm = (s.chip.lane k).nvm) ∧
    (exec .pintlePowerUp s = .next { s with chip := { s.chip with pintle := { powered := true, drive := s.chip.pintle.drive } } })

/-- A lane whose repair log is valid and empty and of whose firmware banks one passes is ready after its boot: it booted the marked bank if
that one passes, its formation wait starts at LANE.JOIN_WAIT and runs, and no other lane changes (R101, R103, R110). A port whose training
ends forwards from then on (R104). A ready or adopting lane's discovery record is kept as the lane stands and goes out to both partners in
three quads (R105); every field of a record survives its 48 bytes (R105); a record that arrives whole is held under its sender (R107).
Adoption and formation. A failed adoption refuses the lane, which stays fenced with code 0x0104; one of the firmware marks the idle bank
with the sender's booted bytes when that bank passes, and otherwise refuses the lane; one of the configuration has the lane compare itself
again, once (R101, R108, R109). A named ready lane acknowledges a formation record; the last acknowledgement forms the authority from the
named lanes with its class; a lane that does not acknowledge is left out of the corrected record; at the end of the wait the formation lane
names the lanes that match, and forms the authority at once when it is the only one; any other lane's wait is over (R110, R111). -/
def Obligations.LanesBootAdoptAndForm : Prop :=
  ((∀ (s : State) (l : LaneId),
     (∀ k, (s.chip.lane l).boot.powerGood = true → (s.chip.lane l).power.core = true → (s.chip.lane l).bist.phase = 0 →
       (s.chip.lane l).boot.state = .booting → (s.chip.lane l).boot.fenced = false → (s.chip.lane l).nvm.logOk = true →
       (s.chip.lane l).nvm.log = [] → bootBank (s.chip.lane l).nvm (s.mem.get l) [] = some k →
       ∃ t, exec (.laneReady l) s = .next t ∧ (t.chip.lane l).boot.state = .ready ∧ (t.chip.lane l).boot.waitRuns = true ∧
         (t.chip.lane l).nvm.booted = k ∧
         (bankPasses (s.chip.lane l).nvm ((s.mem.get l).bank (s.chip.lane l).nvm.marked) (s.chip.lane l).nvm.marked = true →
           k = (s.chip.lane l).nvm.marked) ∧
         (t.chip.lane l).boot.wait = 1000000 * (Par.laneJoinWait.at (t.chip.lane l).nvm.loaded.ws 0).toNat ∧ t.mem = s.mem ∧
         t.chip.bridges = s.chip.bridges ∧ t.chip.pintle = s.chip.pintle ∧ ∀ j, j ≠ l → t.chip.lanes.get j = s.chip.lanes.get j) ∧
     (∀ port : Fin 4, (s.chip.lane l).power.net = true → exec (.linkTrainingDone l port) s =
       .next (s.onChip (fun c => c.modPort l port.val (fun p => { p with trained := true })))) ∧
     (((s.chip.lane l).boot.state = .ready ∨ (s.chip.lane l).boot.state = .adopting) → exec (.discoverySend l) s =
       .next (s.onChip (fun c => (c.modLane l (fun n => { n with boot := { n.boot with sent := some (c.discOf l) } })).sendLinks l l.partners
         .background 3))) ∧
     (∀ (tx : LaneId) (d : DiscRec), l ≠ tx → (s.chip.lane l).boot.state ≠ .booting → (s.chip.lane l).boot.state ≠ .refused →
       (∀ b, discOfBytes b = some d →
         ∃ t, exec (.discoveryRecord l tx (.other b)) s = .next t ∧ (t.chip.lane l).boot.seen.get tx = some { d with lane := tx } ∧
           t.mem = s.mem) ∧
       ((s.chip.lane tx).boot.sent = some d → d.lane = tx →
         ∃ t, exec (.discoveryRecord l tx .intact) s = .next t ∧ (t.chip.lane l).boot.seen.get tx = some d ∧ t.mem = s.mem))) ∧
   (∀ d : DiscRec, d.state < 256 → d.copy < 256 → d.fwVersion < 2 ^ 32 → d.fwSecurity < 2 ^ 32 → d.fwDigest < 2 ^ 32 → d.imgSeq < 2 ^ 32 →
     d.imgCrc < 2 ^ 32 → d.confirmCount < 2 ^ 32 → d.wait < 2 ^ 32 → d.check < 2 ^ 64 →
     (discBytes d).length = 48 ∧ discOfBytes (discBytes d) = some d)) ∧
  (∀ (s : State) (l : LaneId),
     (∀ k, (s.chip.lane l).boot.state = .adopting → (s.chip.lane l).boot.adoptFrom = some k →
       (∃ t, exec (.adoptionDone l false) s = .next t ∧ (t.chip.lane l).boot.state = .refused ∧ (t.chip.lane l).boot.fenced = true ∧
         (t.chip.lane l).boot.fenceCode = 0x0104 ∧ t.mem = s.mem) ∧
       ((s.chip.lane l).boot.adoptFw = true → k ≠ l → ∃ t, exec (.adoptionDone l true) s = .next t ∧ t.mem.get k = s.mem.get k ∧
         (bankPasses ((s.chip.lane l).nvm.setBank (s.chip.lane l).nvm.idleBank ((s.chip.lane k).nvm.bankState (s.chip.lane k).nvm.booted))
             ((s.mem.get k).bank (s.chip.lane k).nvm.booted) (s.chip.lane l).nvm.idleBank = true →
           (t.chip.lane l).nvm.marked = (s.chip.lane l).nvm.idleBank ∧ (t.chip.lane l).boot.adopted = true ∧
           (t.chip.lane l).boot.state = .booting ∧
           (t.mem.get l).bank (s.chip.lane l).nvm.idleBank = (s.mem.get k).bank (s.chip.lane k).nvm.booted) ∧
         (bankPasses ((s.chip.lane l).nvm.setBank (s.chip.lane l).nvm.idleBank ((s.chip.lane k).nvm.bankState (s.chip.lane k).nvm.booted))
             ((s.mem.get k).bank (s.chip.lane k).nvm.booted) (s.chip.lane l).nvm.idleBank = false →
           (t.chip.lane l).boot.state = .refused)) ∧
       ((s.chip.lane l).boot.adoptFw = false → ∃ t, exec (.adoptionDone l true) s = .next t ∧ (t.chip.lane l).boot.adopted = true ∧
         (t.chip.lane l).boot.state ≠ .adopting)) ∧
     (∀ m, s.chip.dev.formation = some m → hasLane m l = true → (s.chip.lane l).boot.state = .ready →
       exec (.formationRecord l) s = .next (s.onChip (fun c => c.modLane l (fun n => { n with boot := { n.boot with acked := true } })))) ∧
     (∀ m f rest, s.chip.dev.formation = some m → lanesOf m = f :: rest → (s.chip.lane l).boot.acked = true →
       ((∀ k ∈ rest, k ≠ l → hasLane s.chip.dev.formAcks k = true) →
         ∃ t, exec (.formationAck l) s = .next t ∧ t.chip.dev.formed = true ∧ t.chip.dev.authority = m ∧
           t.chip.dev.cls = some (classOf m) ∧ t.mem = s.mem) ∧
       ((∃ k ∈ rest, k ≠ l ∧ hasLane s.chip.dev.formAcks k = false) →
         exec (.formationAck l) s = .next (s.onChip (fun c => c.modDev (fun d => { d with formAcks := setLaneBit d.formAcks l true }))))) ∧
     (∀ m f rest, s.chip.dev.formation = some m → lanesOf m = f :: rest → l ∈ rest → hasLane s.chip.dev.formAcks l = false →
       lanesOf (setLaneBit m l false) ≠ [f] →
       ∃ t, exec (.formationAckTimeout l) s = .next t ∧ t.chip.dev.formation = some (setLaneBit m l false) ∧ t.chip.dev.formAcks = 0) ∧
     (∀ c, c = s.chip.modLane l (fun n => { n with boot := { n.boot with wait := 0, waitRuns := false } }) →
       (s.chip.lane l).boot.waitRuns = true →
       (c.isFormer l = true → s.chip.dev.formation = none → lanesOf (maskOf (c.matching l)) ≠ [l] →
         ∃ t, exec (.formationWaitExpiry l) s = .next t ∧ t.chip.dev.formation = some (maskOf (c.matching l)) ∧
           (t.chip.lane l).boot.waitRuns = false) ∧
       (c.isFormer l = true → s.chip.dev.formation = none → lanesOf (maskOf (c.matching l)) = [l] →
         ∃ t, exec (.formationWaitExpiry l) s = .next t ∧ t.chip.dev.formed = true ∧ t.chip.dev.authority = maskOf (c.matching l)) ∧
       (c.isFormer l = false → exec (.formationWaitExpiry l) s = .next { s with chip := c })))

/-- Fault records on their way to the ring. With room in the matrix cycle and no drop to record, the oldest queued record goes to the slot of
the write index under the pass flag, and index, flag and count advance (R434 to R436). An open record whose merge time ends closes and waits
to be written (R431). No other lane changes. Reading records changes no unit and answers with one section for each selected lane in ascending
index: the records of its collector from the newest on, the start and the count as requested, and empty quads beyond the oldest (R437). -/
def Obligations.RecordsReachTheRing : Prop :=
  ∀ (s : State) (l : LaneId),
    (∀ (r : FaultRec) (rest : List FaultRec), s.chip.runs l = true → (s.chip.lane l).fault.queue = r :: rest → (s.chip.lane l).fault.writes < 4 →
      (s.chip.lane l).bist.regions.contains 24 = false → (s.chip.lane l).fault.droppedNow = 0 →
      ∃ t, exec (.recordWrite l) s = .next t ∧ (t.chip.lane l).fault = { (s.chip.lane l).fault with
          queue := rest
          ring := ((s.chip.lane l).fault.ring.filter (fun e => e.1 != (s.chip.lane l).fault.writeIdx)) ++
            [((s.chip.lane l).fault.writeIdx, (s.chip.lane l).fault.pass, r)]
          writeIdx := ((s.chip.lane l).fault.writeIdx + 1) % 4096
          pass := if (s.chip.lane l).fault.writeIdx = 4095 then !(s.chip.lane l).fault.pass else (s.chip.lane l).fault.pass
          writes := (s.chip.lane l).fault.writes + 1 } ∧ t.plain = s.plain ∧ ∀ k, k ≠ l → t.chip.lanes.get k = s.chip.lanes.get k) ∧
    (∀ (code t i die : Nat) (agreed : Bool) (r : FaultRec), s.chip.runs l = true → (s.chip.lane l).fault.opened.find? (fun x => x.same
        { code := code, utype := t, inst := i, lane := die, agreed := agreed }) = some r →
      ∃ u, exec (.mergeTimeExpiry l code t i die agreed) s = .next u ∧ u.plain = s.plain ∧
        (∀ x ∈ (u.chip.lane l).fault.opened, x.same { code := code, utype := t, inst := i, lane := die, agreed := agreed } = false) ∧
        ((s.chip.lane l).fault.queue.length < (s.chip.lane l).fault.cap → (u.chip.lane l).fault.queue = (s.chip.lane l).fault.queue ++ [r]) ∧
        ∀ k, k ≠ l → u.chip.lanes.get k = s.chip.lanes.get k) ∧
    (∀ (r : Req) (k : LaneId), r.link = some k → r.session = 0 → hasBit r.flags 0 = false → s.admits attrRecordRead r = true →
      r.body.length = 16 → zeroFrom r.body 4 16 = true → fld r.body 2 2 ≠ 0 → 16 * fld r.body 2 2 * r.lanes.length ≤ 4080 →
      ∃ t p, exec (.recordRead r) s = .next t ∧ t.plain = s.plain ∧ t.chip.dev.replies = s.chip.dev.replies ++ [(k, p)] ∧ p.status = 0 ∧
        p.payload.length = 16 * fld r.body 2 2 * r.lanes.length ∧
        p.payload = r.lanes.flatMap (fun m => bytesAt
          ((((s.chip.lane m).fault.newestFirst.drop (fld r.body 0 2)).take (fld r.body 2 2)).flatMap FaultRec.quad) 0 (16 * fld r.body 2 2)))

/-- Fencing for service and readmission. LANE.FENCE marks every selected lane for the fence at the next S and changes no unit at once
(R443). LANE.READMIT of one fenced lane that is not refused and below FLT.READMIT_MAX has it restart and leaves the reply pending (R442).
The acknowledged restart boots the lane with its self-test phases and counts it, and its channels stay fenced as they were (R440); a restart that nobody acknowledges, or a lane that is not
ready in time, gives the one waiting operation the reply FENCED (R442, R512). SYS.RESET waits for the boundary (R75).
Evidence about partners. A keep-alive clears the receiver's silence mark for its sender; the notice of a halted lane is held and is also
something heard; a partner that has sent nothing is marked silent with the period of the mark; each changes only the receiving lane's marks
(R432, R433). A partner marked silent by its one witness that still presents two periods after the mark has its link fenced (R433). A failed
transfer is sent again and marks the link, and failures in a second consecutive control period fence it, when nothing waits on it any more
(R13). -/
def Obligations.ServiceFencingAndPartnerEvidence : Prop :=
  (∀ (s : State) (l : LaneId),
     (∀ r : Req, s.admits attrLaneFence r = true → r.body = [] → r.mask ≠ 0 → (∃ k ∈ s.chip.authLanes, k ∉ r.lanes) →
       ∃ t, exec (.laneFence r) s = .next t ∧ (∀ k ∈ r.lanes, t.chip.dev.fencePend.any (fun f => f.1 == k) = true) ∧
         t.plain = (s.onChip (fun c => c.modDev (fun d => { d with fencePend := t.chip.dev.fencePend }))).plain) ∧
     (∀ r : Req, s.admits attrLaneReadmit r = true → r.body = [] → r.lanes = [l] → s.chip.authLanes ≠ [] →
       (s.chip.lane l).boot.fenced = true → (s.chip.lane l).boot.state ≠ .refused →
       (s.chip.lane l).boot.readmits < s.chip.parN Par.fltReadmitMax →
       ∃ t, exec (.laneReadmit r) s = .next t ∧ (t.chip.lane l).boot.restartSent = true ∧
         t.chip.dev.pend.length = s.chip.dev.pend.length + 1 ∧ t.mem = s.mem ∧
         (t.chip.lane l).plain = { (s.chip.lane l).plain with boot := { (s.chip.lane l).boot with restartSent := true } }) ∧
     ((s.chip.lane l).boot.restartSent = true →
       (∃ t, exec (.restartAck l) s = .next t ∧ (t.chip.lane l).boot.state = .booting ∧ (t.chip.lane l).boot.readmitting = true ∧
         (t.chip.lane l).boot.readmits = (s.chip.lane l).boot.readmits + 1 ∧ (t.chip.lane l).bist.phase = 2 ∧
         (t.chip.lane l).nvm = (s.chip.lane l).nvm ∧
         (∀ i : Fin 8, (nth (t.chip.lane l).fb i.val {}).fenced = (nth (s.chip.lane l).fb i.val {}).fenced) ∧ ∀ k, k ≠ l → t.chip.lanes.get k = s.chip.lanes.get k) ∧
       (∀ (p : PendOp) (k : LaneId), s.chip.dev.pend = [p] → p.opcode = 0x0111 → lanesOf p.lanes = [l] → p.results.get l = none →
         p.link = some k → ∃ t q, exec (.readmitAckTimeout l) s = .next t ∧ (t.chip.lane l).boot.restartSent = false ∧
           t.chip.dev.pend = [] ∧ t.chip.dev.replies = s.chip.dev.replies ++ [(k, q)] ∧ q.status = stFenced)) ∧
     ((s.chip.lane l).boot.readmitting = true → (s.chip.lane l).boot.state = .booting →
       ∀ (p : PendOp) (k : LaneId), s.chip.dev.pend = [p] → p.opcode = 0x0111 → lanesOf p.lanes = [l] → p.results.get l = none →
         p.link = some k → ∃ t q, exec (.readmitReadyTimeout l) s = .next t ∧ (t.chip.lane l).boot.readmitting = false ∧
           t.chip.dev.pend = [] ∧ t.chip.dev.replies = s.chip.dev.replies ++ [(k, q)] ∧ q.status = stFenced) ∧
     (∀ r : Req, s.admits attrSysReset r = true → r.body = [] → ∃ t, exec (.sysReset r) s = .next t ∧
       t.plain = (s.onChip (fun c => c.addPend 0x0012 r {})).plain)) ∧
  (∀ (s : State) (x y : LaneId), x ≠ y →
     ((s.chip.linkAt (linkIdx y x)).fenced = false → (s.chip.lane y).boot.halted = false → exec (.keepAlive y x) s =
       .next (s.onChip (fun c => c.modLane x (fun n => { n with silent := setLaneBit n.silent y false })))) ∧
     ((s.chip.lane y).boot.halted = true → (s.chip.linkAt (linkIdx y x)).fenced = false → s.chip.laneLive x = true →
       exec (.fenceNotice x y .intact) s = .next (s.onChip (fun c => c.modLane x (fun n => { n with
         silent := setLaneBit n.silent y false, notices := setLaneBit n.notices y true })))) ∧
     (s.chip.inAuth x = true → s.chip.inAuth y = true → s.chip.dev.standdown ≠ some y → hasLane (s.chip.lane x).silent y = false →
       exec (.partnerSilent x y) s = .next (s.onChip (fun c => c.modLane x (fun n => { n with
         silent := setLaneBit n.silent y true, silentAt := n.silentAt.set y s.chip.dev.count })))) ∧
     (hasLane (s.chip.lane x).silent y = true → s.chip.inAuth x = true → s.chip.inAuth y = true →
       s.chip.witnesses y = [x] → (s.chip.lane x).silentAt.get y + 2 ≤ s.chip.dev.count → (s.chip.pintle.lanes.get y).presents = true →
       ∃ t, exec (.silentLinkExpiry x y) s = .next t ∧ (t.chip.linkAt (linkIdx x y)).fenced = true ∧ t.mem = s.mem ∧
         t.chip.pintle = s.chip.pintle) ∧
     (∀ (k : Fin 3) (back : Bool), (s.chip.linkAt k.val).fenced = false → ∃ t, exec (.linkTransferFailed k back) s = .next t ∧
       (t.chip.linkAt k.val).failedNow = true ∧ (t.chip.linkAt k.val).fenced = (s.chip.linkAt k.val).failedLast ∧ t.mem = s.mem ∧
       ((s.chip.linkAt k.val).failedLast = false →
         (t.chip.linkAt k.val).out = (if back then (s.chip.linkAt k.val).out else (s.chip.linkAt k.val).out.repeatLast) ∧
         (t.chip.linkAt k.val).back = (if back then (s.chip.linkAt k.val).back.repeatLast else (s.chip.linkAt k.val).back)) ∧
       ((s.chip.linkAt k.val).failedLast = true → (t.chip.linkAt k.val).out = {} ∧ (t.chip.linkAt k.val).back = {}) ∧
       t.chip.pintle = s.chip.pintle ∧ t.chip.bridges = s.chip.bridges))

/-- Detections and unit fences. A C-class fault of a lane's own detector changes nothing but the records (R423); a U-class fault of a
feedback channel fences that channel in its lane at once and names it in the lane status (R429); an F-class fault of a lane unit fences and
halts the lane (R432). FLT.INJECT, at a detector or at a source of R445's table, records 0x0505 and takes the injection up (R445); FLT.UNIT_UNFENCE of a fenced unit has it return at the
next boundary, with the reply pending (R441). -/
def Obligations.DetectionsContainAndUnfencesWait : Prop :=
  ∀ (s : State) (l : LaneId) (code t i die : Nat), s.chip.runs l = true → codeDefined code = true → unitExists t i = true →
    code ≠ 0x3201 → t ≠ 0x04 → t ≠ 0x05 → t ≠ 0x06 →
    (faultClass code = 1 → ∃ u, exec (.faultDetected l code t i die) s = .next u ∧ u.plain = s.plain) ∧
    (faultClass code = 2 → t = 0x09 → ∃ u y, exec (.faultDetected l code t i die) s = .next u ∧
      (u.chip.lane l).fb = modNth (s.chip.lane l).fb i (fun _ => y) ∧ y.fenced = true ∧ (u.chip.lane l).fencedNow.contains (t, i) = true ∧ u.mem = s.mem ∧
      u.chip.pintle = s.chip.pintle ∧ ∀ k, k ≠ l → (u.chip.lane k).plain = (s.chip.lane k).plain) ∧
    (faultClass code = 3 → (s.chip.lane l).boot.fenced = false → s.chip.authLanes ≠ [l] →
      ∃ u, exec (.faultDetected l code t i die) s = .next u ∧
      (u.chip.lane l).boot.fenced = true ∧ (u.chip.lane l).boot.halted = true ∧ (u.chip.lane l).boot.fenceCode = code ∧
      (u.chip.lane l).sio.soOn = 0 ∧ u.mem = s.mem ∧ u.chip.pintle = s.chip.pintle) ∧
    (∀ r : Req, s.admits attrInject r = true → r.body.length = 16 → zeroFrom r.body 6 16 = true → codeDefined (fld r.body 0 2) = true →
      unitExists (fld r.body 3 1) (fld r.body 4 1) = true → fld r.body 5 1 ≠ 0 →
      (fld r.body 2 1 = 0 ∨ fld r.body 2 1 = 1 ∧ sourceFits (fld r.body 0 2) (fld r.body 3 1) (fld r.body 4 1) = true) →
      ∃ u, exec (.inject r) s = .next u ∧ u.plain = (s.onChip (fun c => c.modDev (fun d => { d with
        injections := d.injections ++ [(fld r.body 0 2, fld r.body 2 1, fld r.body 3 1, fld r.body 4 1, fld r.body 5 1 + 256, maskOf r.lanes)] }))).plain) ∧
    (∀ r : Req, s.admits attrUnitUnfence r = true → r.body.length = 16 → zeroFrom r.body 2 16 = true → fld r.body 0 1 = 0x09 →
      fld r.body 1 1 < 8 → (∀ k ∈ r.lanes, s.chip.inAuth k = true) →
      r.lanes.filter (fun k => s.chip.heldFenced k 0x09 (fld r.body 1 1)) ≠ [] →
      ∃ u, exec (.unitUnfence r) s = .next u ∧ u.plain = (s.onChip (fun c => (c.modDev (fun d => { d with
        unfences := d.unfences ++ (r.lanes.filter (fun k => s.chip.heldFenced k 0x09 (fld r.body 1 1))).map (fun k =>
          (k.idx, 0x09, fld r.body 1 1)) })).addPend 0x0511 r {})).plain)

/-- Test pulses and the input filter of a lane. In its period a supply that is on goes into its pulse and every filtered level holds (R406,
R407); a level that has been stable for SIO.SI_FILTER waits while they hold and else is taken at once, a shorter one changes nothing; the end of the recovery releases the newest levels unless the other
pulse runs (R407). At a pulse's end a ball that stayed high fences the supply (R408, R409), and so does an overload at once (R409). Nothing
but that lane's safety inputs and outputs changes.
Safety outputs of a lane. An overcurrent latches its output off until the next commanded change (R413). The off-pulse due in the period
runs on an energised output whose pending launch it does not meet (R414, R415), and at its end a ball that reads low passes: the output's
run of failures ends (R414, R416). A requested pulse test waits for its lanes, and the last lane's result gives the reply, one quad a lane
(R419). -/
def Obligations.SafetyInputsAndOutputsAreTested : Prop :=
  (∀ (s : State) (l : LaneId) (k : Fin 2),
     (s.chip.dev.formed = true → hasBit (s.chip.lane l).sio.tpOn k.val = true → hasBit (s.chip.lane l).sio.tpPulse k.val = false →
       s.chip.dev.count % s.chip.parN Par.sioTpPeriod = (if k.val = 0 then 0 else s.chip.parN Par.sioTpPeriod / 2) →
       exec (.testPulseStart l k) s = .next (s.onChip (fun c => c.modSio l (fun x => { x with
         tpPulse := setBit x.tpPulse k.val true, siNext := if x.hold then x.siNext else x.si, hold := true })))) ∧
     (∀ (n : Fin 8) (v : Bool) (held : Nat), s.chip.runs l = true → 1000 * s.chip.parN Par.sioSiFilter ≤ held →
       ((s.chip.lane l).sio.hold = true → exec (.siLevelAccepted l n v held) s =
         .next (s.onChip (fun c => c.modSio l (fun x => { x with siNext := setBit x.siNext n.val v })))) ∧
       ((s.chip.lane l).sio.hold = false → exec (.siLevelAccepted l n v held) s =
         .next (s.onChip (fun c => c.modSio l (fun x => { x with si := setBit x.si n.val v, siNext := setBit x.siNext n.val v }))))) ∧
     (∀ (n : Fin 8) (v : Bool) (held : Nat), held < 1000 * s.chip.parN Par.sioSiFilter → exec (.siLevelAccepted l n v held) s = .next s) ∧
     (s.chip.runs l = true → (s.chip.lane l).sio.hold = true → (s.chip.lane l).sio.tpPulse = 0 → exec (.pulseRecoverEnd l) s =
       .next (s.onChip (fun c => c.modSio l (fun x => { x with hold := false, si := x.siNext })))) ∧
     (∀ p : PulseReading, s.chip.runs l = true → hasBit (s.chip.lane l).sio.tpPulse k.val = true → (p.ballEnd = true ∨ p.ballBefore = false) →
       ∃ t, exec (.testPulseEnd l k p) s = .next t ∧ hasBit (t.chip.lane l).sio.tpPulse k.val = false ∧
         hasBit (t.chip.lane l).sio.tpFenced k.val = true ∧ t.mem = s.mem ∧ t.chip.pintle = s.chip.pintle ∧
         ∀ j, j ≠ l → t.chip.lanes.get j = s.chip.lanes.get j) ∧
     (hasBit (s.chip.lane l).sio.tpOn k.val = true → ∃ t, exec (.tpOverload l k) s = .next t ∧
       hasBit (t.chip.lane l).sio.tpOn k.val = false ∧ hasBit (t.chip.lane l).sio.tpFenced k.val = true ∧ t.mem = s.mem ∧
       t.chip.pintle = s.chip.pintle ∧ ∀ j, j ≠ l → t.chip.lanes.get j = s.chip.lanes.get j)) ∧
  (∀ (s : State) (l : LaneId),
     (∀ n : Fin 4, (s.chip.lane l).sio.on n.val = true → ∃ t, exec (.soOvercurrent l n) s = .next t ∧
       hasBit (t.chip.lane l).sio.soTrip n.val = true ∧ (t.chip.lane l).sio.on n.val = false ∧
       (t.chip.lane l).sio.soOn = (s.chip.lane l).sio.soOn ∧ t.mem = s.mem ∧ t.chip.pintle = s.chip.pintle ∧
       ∀ j, j ≠ l → t.chip.lanes.get j = s.chip.lanes.get j) ∧
     (∀ n, s.chip.dev.formed = true → s.chip.inAuth l = true → (s.chip.lane l).boot.fenced = false → s.chip.pulseDue l = some n → n < 4 →
       (s.chip.lane l).sio.on n = true → s.chip.pulseMeetsLaunch n = false →
       exec (.offPulseStart l) s = .next (s.onChip (fun c => c.modSio l (fun x => { x with offPulse := some n })))) ∧
     (∀ (n : Nat) (mv : List Nat), s.chip.runs l = true → (s.chip.lane l).sio.offPulse = some n → n < 4 →
       nth mv n 0 < 2000 → ∃ t, exec (.offPulseEnd l mv) s = .next t ∧ (t.chip.lane l).sio.offPulse = none ∧
         (t.chip.lane l).sio.offFails = modNth (s.chip.lane l).sio.offFails n (fun _ => 0) ∧ (t.chip.lane l).sio.soOn = (s.chip.lane l).sio.soOn ∧ t.mem = s.mem ∧
         t.chip.pintle = s.chip.pintle ∧ t.chip.fresh = s.chip.fresh ∧ ∀ j, j ≠ l → t.chip.lanes.get j = s.chip.lanes.get j) ∧
     (∀ r : Req, s.admits attrPulseTest r = true → r.body = [] → s.chip.dev.actuation = false →
       ∃ t, exec (.pulseTest r) s = .next t ∧ t.plain = (s.onChip (fun c => c.addPend 0x2411 r
         { lanes := r.lanes.foldl (fun m j => setLaneBit m j true) 0 })).plain) ∧
     (∀ (tp0 tp1 : PulseReading) (ol : Mask) (p : PendOp) (k : LaneId), s.chip.dev.pend = [p] → p.opcode = 0x2411 →
       lanesOf p.lanes = [l] → p.results.get l = none → p.link = some k → p.suppress = false →
       ∃ t q, exec (.pulseTestDone l tp0 tp1 ol) s = .next t ∧ t.chip.dev.pend = [] ∧
         t.chip.dev.replies = s.chip.dev.replies ++ [(k, q)] ∧ q.status = 0 ∧ (p.session = 0 → q.payload.length = 16) ∧
         (t.chip.lane l).sio.soOn = (s.chip.lane l).sio.soOn ∧ t.mem = s.mem ∧ t.chip.pintle = s.chip.pintle))

/-- SIO.OUTPUT_SET that passes its checks: untimed, the commanded state of each named output that is not fenced becomes the given one in
every lane that the operation names (all in authority for a zero mask), and no other commanded state changes; timed, it is queued once for
each named output and no commanded state changes yet (R354, R411). Besides these only the record of the commanding session changes. -/
def Obligations.OutputSetCommandsNamedOutputs : Prop :=
  ∀ (s : State) (r : Req), s.admits attrOutputSet r = true → r.body.length = 16 → fld r.body 0 1 < 16 → fld r.body 1 1 < 16 →
    fld r.body 2 1 < 8 → zeroFrom r.body 3 16 = true →
    (∃ l ∈ s.chip.outputLanes r.body, ∃ n ∈ outputList r.body, s.chip.outputFree l n = true) →
    (r.isTimed = false → ∃ t, exec (.outputSet r) s = .next t ∧
      t.plain = (s.onChip (fun c => c.modDev (fun d => { d with so := t.chip.dev.so, soBy := t.chip.dev.soBy }))).plain ∧
      ∀ l n, n < 4 → hasBit (t.chip.dev.so.get l) n =
        if n ∈ outputList r.body ∧ l ∈ s.chip.outputLanes r.body ∧ s.chip.outputFree l n = true then (fld r.body 1 1).testBit n
        else hasBit (s.chip.dev.so.get l) n) ∧
    (r.isTimed = true → (∀ n ∈ outputList r.body, s.chip.launchFull (n + 10) = false) → ∃ t, exec (.outputSet r) s = .next t ∧
      t.chip.dev.so = s.chip.dev.so ∧ t.chip.dev.launches.length = s.chip.dev.launches.length + (outputList r.body).length ∧
      t.plain = (s.onChip (fun c => c.modDev (fun d => { d with launches := t.chip.dev.launches }))).plain)

/-- Register writes of a check-value unit by its owner, with no memory feed running: CV_CFG is taken (the start bit reads 0) and a start with
a good configuration latches it and sets the running value from CV_INIT at its width (R392); a write of CV_STATE sets the running value and
latches the configuration, a read changes nothing (R393); the other registers take what is written; a CV_LEN that is a multiple of the item
size starts a memory feed, unless the unit takes no item (R390, R392). A core claims a unit without an owner by its CV_CFG (R394). A register
write by any other master is refused and fences the lane with 0x010E (R394).
A memory feed whose addresses would leave the 8 MB of lane SRAM stops the machine with the fault sramAddress, at its end and at an access
that looks at its progress, and only such a feed does (R500). -/
def Obligations.CheckValueRegistersAndMemoryFeeds : Prop :=
  (∀ (s : State) (l : LaneId) (k : Fin 4) (m : CvMaster) (u : CvUnit), u = s.chip.cvUnit l k.val →
     let changed (t : State) (y : CvUnit) : Prop := (t.chip.lane l).cv = modNth (s.chip.lane l).cv k.val (fun _ => y)
     s.chip.runs l = true → u.busy = false →
     (cvOwner u.cfg = cvMaster m → u.waiting = [] →
       (∀ v : BitVec 32, v.getLsbD 31 = false → exec (.cvCfgWrite l k m v) s =
         .next (s.onChip (fun c => c.modCv l k.val (fun x => { x with cfg := v &&& 0x7FFFFFFF#32 })))) ∧
       (∀ v : BitVec 32, v.getLsbD 31 = true → v.getLsbD 15 = false → v.getLsbD 14 = false → v.toNat / 16777216 % 128 = 0 →
         2 ≤ v.toNat % 64 → cvGuard v < 2 → ∃ t y, exec (.cvCfgWrite l k m v) s = .next t ∧ changed t y ∧ y.started = true ∧
           y.cfgErr = false ∧ y.lat = ⟨v &&& 0x7FFFFFFF#32, u.poly, u.init, u.xorout⟩ ∧
           y.state.toNat = u.init.toNat % 2 ^ cvWidth v ∧ t.mem = s.mem ∧ t.chip.dev = s.chip.dev ∧
           ∀ j, j ≠ l → t.chip.lanes.get j = s.chip.lanes.get j) ∧
       (∀ v : BitVec 64, ∃ t y, exec (.cvStateAccess l k m (some v)) s = .next t ∧ changed t y ∧ y.state = v ∧
         y.started = true ∧ y.lat.cfg = u.cfg ∧ t.plain.chip.dev = s.plain.chip.dev) ∧
       (∀ (reg : CvReg) (v : BitVec 64), exec (.cvRegisterWrite l k m reg v) s =
         .next (s.onChip (fun c => c.modCv l k.val (fun x => x.setReg reg v)))) ∧
       (∀ v : BitVec 32, v ≠ 0 → v.toNat % cvItemSize u.lat.cfg = 0 → exec (.cvLenWrite l k m v) s =
         .next (s.onChip (fun c => c.modCv l k.val (fun x => { x with len := v, busy := !u.cfgErr && !u.fenced }))))) ∧
     (cvOwner u.cfg = 0 → m ≠ .engine → ∀ v : BitVec 32, cvOwner v = cvMaster m → v.getLsbD 31 = false → exec (.cvCfgWrite l k m v) s =
       .next (s.onChip (fun c => c.modCv l k.val (fun x => { x with cfg := v &&& 0x7FFFFFFF#32 })))) ∧
     exec (.cvStateAccess l k m none) s = .next s ∧
     (cvOwner u.cfg ≠ cvMaster m → (s.chip.lane l).boot.fenced = false → ∀ (reg : CvReg) (v : BitVec 64),
       ∃ t, exec (.cvRegisterWrite l k m reg v) s = .next t ∧ (t.chip.lane l).boot.fenced = true ∧
         (t.chip.lane l).boot.fenceCode = 0x010E ∧ t.mem = s.mem)) ∧
  (∀ (s : State) (l : LaneId) (k : Fin 4) (e : Bool),
     ((s.chip.cvUnit l k.val).busy = true → 8388608 < (s.chip.cvUnit l k.val).src.toNat + (s.chip.cvUnit l k.val).len.toNat →
       exec (.memoryFeedDone l k e) s = .fault .sramAddress ∧ exec (.cvResultRead l k) s = .fault .sramAddress) ∧
     (∀ (i : Instr) (f : Fault), exec i s = .fault f → ∃ (j : LaneId) (n : Fin 4), (s.chip.cvUnit j n.val).busy = true ∧
       8388608 < (s.chip.cvUnit j n.val).src.toNat + (s.chip.cvUnit j n.val).len.toNat))

/-- Feeding a check-value unit. An item that the owner writes while a check runs enters the running value byte by byte (R388, R390); a memory
feed takes its items from lane SRAM at CV_SRC and ends with its length used up (R390); reading CV_RESULT gives the finished value, ends the
check and raises the alive counter by one modulo 256 (R396). Only that unit of that lane changes.
The running value of a check does not depend on how its bytes are divided into items: feeding two byte strings one after another is
feeding them as one (R388). -/
def Obligations.CheckValueFeedsAndResults : Prop :=
  (∀ (s : State) (l : LaneId) (k : Fin 4) (u : CvUnit), u = s.chip.cvUnit l k.val →
     s.chip.runs l = true → u.waiting = [] → u.cfgErr = false → u.fenced = false → u.started = true → u.lat.cfg.getLsbD 14 = false →
     (∀ (m : CvMaster) (item : BitVec 128), u.busy = false → cvOwner u.cfg = cvMaster m →
       exec (.cvFeedWrite l k m item) s = .next (s.onChip (fun c => c.modCv l k.val (fun x =>
         { x with state := cvFeed u.lat u.state (cvItem u.lat.cfg u.src.toNat (toLe (cvItemSize u.lat.cfg) item.toNat)) })))) ∧
     (u.busy = true → u.len.toNat = cvItemSize u.lat.cfg → u.src.toNat + u.len.toNat ≤ 8388608 →
       exec (.memoryFeedDone l k false) s = .next (s.onChip (fun c => c.modCv l k.val (fun x =>
         { x with
           state := cvFeed u.lat u.state (cvItem u.lat.cfg u.src.toNat (cellRead (s.mem.get l).sram u.src.toNat (cvItemSize u.lat.cfg)))
           src := u.src + BitVec.ofNat 32 (cvItemSize u.lat.cfg), len := 0, busy := false })))) ∧
     (u.busy = false → exec (.cvResultRead l k) s = .next (s.onChip (fun c => c.modCv l k.val (fun x =>
       { x with readOut := u.finished, started := false, alive := u.alive + 1 }))))) ∧
  (∀ (lat : CvLatch) (x : BitVec 64) (xs ys : List Byte), cvFeed lat (cvFeed lat x xs) ys = cvFeed lat x (xs ++ ys) ∧
     (cvFeed lat x xs).toNat < 2 ^ cvWidth lat.cfg)

/-- Unit tests. At its interval an unowned unit is tested: a pass counts the run, and a first failure counts and is recorded without a fence;
a unit that a core holds is not tested, and the abandoned test counts (R398 to R400). CRC.UNIT_TEST does the same in its lane at once and
answers one quad (R399, R401). -/
def Obligations.CheckValueUnitTests : Prop :=
  ∀ (s : State) (l : LaneId) (k : Fin 4) (u : CvUnit), u = s.chip.cvUnit l k.val →
    let changed (t : State) (y : CvUnit) : Prop := (t.chip.lane l).cv = modNth (s.chip.lane l).cv k.val (fun _ => y)
    u.fenced = false → u.injectNext = false → (s.chip.lane l).boot.fenced = false → s.chip.dev.standdown ≠ some l →
    (s.chip.par Par.crcTestInterval ≠ 0 → s.chip.inAuth l = true →
      (cvOwner u.cfg = 0 → ∃ t y, exec (.unitTestInterval l k none) s = .next t ∧ changed t y ∧
        y.run = satInc (2 ^ 32 - 1) u.run ∧ y.failed = u.failed ∧
        y.fenced = false ∧ t.mem = s.mem ∧ t.chip.dev = s.chip.dev) ∧
      (∀ n, cvOwner u.cfg = 0 → u.lastFail = none → ∃ t y, exec (.unitTestInterval l k (some n)) s = .next t ∧ changed t y ∧
        y.run = satInc (2 ^ 32 - 1) u.run ∧ y.failed = satInc 65535 u.failed ∧
        y.fenced = false ∧ y.lastFail = some s.chip.dev.matrix ∧ t.mem = s.mem) ∧
      (∀ f, cvOwner u.cfg ≠ 0 → exec (.unitTestInterval l k f) s = .next (s.onChip (fun c => c.modCv l k.val (fun x =>
        { x with abandoned := satInc 65535 x.abandoned }))))) ∧
    (∀ (r : Req) (j : LaneId), r.link = some j → r.session = 0 → hasBit r.flags 0 = false → s.admits attrUnitTest r = true →
      r.body.length = 16 → fld r.body 0 1 = 2 ^ k.val → zeroFrom r.body 1 16 = true → s.chip.dev.actuation = false → r.lanes = [l] →
      cvOwner u.cfg = 0 → ∃ t p y, exec (.unitTest r ⟨[], [], []⟩) s = .next t ∧ changed t y ∧ y.run = satInc (2 ^ 32 - 1) u.run ∧
        y.failed = u.failed ∧ t.mem = s.mem ∧ t.chip.dev.replies = s.chip.dev.replies ++ [(j, p)] ∧ p.status = 0 ∧
        p.payload = toLe 1 (2 ^ k.val) ++ toLe 1 0 ++ toLe 1 0xFF ++ toLe 1 0 ++ toLe 1 0 ++ toLe 11 0)

/-- Counting channels. Levels that have been stable for FBK.FILTER are accepted and count at the tick they were first seen, and shorter ones
change nothing (R171). In quadrature mode one accepted edge counts one, forward while A leads B, reversed by FBK.DIR; edges on both at one
tick count nothing and spoil the period with fault 0x1301 (R172). In Hall mode a change to a neighbouring code counts one, and any other
change spoils the period with fault 0x1302 (R172). In sine/cosine mode an edge counts one signal quadrant (R181). The reported count follows
with the hysteresis (R173); the other modes only take the levels. Nothing else changes.
The index of a counting channel, once it has been stable for FBK.FILTER (R171). In count mode 0 it is ignored (R174). In count mode 1 the
first index moves the base by less than a revolution, and E + B then stands at FBK.INDEX_POS; at a later one a deviation within the
tolerance is taken from the base and counted, and a larger one spoils the period and leaves the base (R175). In count mode 2 the latch takes
E + B in every case (R176). Only that channel of that lane changes, but for the records of a deviation. -/
def Obligations.CountingChannelsFollowEdgesAndIndex : Prop :=
  (∀ (s : State) (l : LaneId) (ch : Fin 8) (held : Nat) (v w : Bool) (z : Option Bool),
     let x := s.chip.fbOf l ch
     let hyst := decide (s.chip.par Par.fbkHyst ch = 1)
     let dir : Int := if s.chip.par Par.fbkDir ch = 1 then -1 else 1
     let seen (m : Mask) : Mask := match z with | some q => setBit m 2 q | none => m
     let at_ (m : Mask) : Nat := if x.levels.toNat % 8 ≠ m.toNat % 8 then (s.chip.lane l).clock.nt - 10 * held else x.hallNt
     (∀ a b : Option Bool, held < s.chip.parN Par.fbkFilter ch → exec (.fbEdge l ch held a b z) s = .next s) ∧
     (s.chip.runs l = true → s.chip.parN Par.fbkFilter ch ≤ held →
       (s.chip.parN Par.fbkMode ch = 1 →
         (hasBit x.levels 0 ≠ v → exec (.fbEdge l ch held (some v) none z) s = .next (s.onChip (fun c => c.modFb l ch (fun y => { y with
           levels := seen (setBit y.levels 0 v), hallNt := at_ (seen (setBit y.levels 0 v))
           e := y.e + dir * (if v != hasBit x.levels 1 then 1 else -1)
           e' := hystCount hyst (y.e + dir * (if v != hasBit x.levels 1 then 1 else -1)) y.e' })))) ∧
         (hasBit x.levels 1 ≠ w → exec (.fbEdge l ch held none (some w) z) s = .next (s.onChip (fun c => c.modFb l ch (fun y => { y with
           levels := seen (setBit y.levels 1 w), hallNt := at_ (seen (setBit y.levels 1 w))
           e := y.e + dir * (if w == hasBit x.levels 0 then 1 else -1)
           e' := hystCount hyst (y.e + dir * (if w == hasBit x.levels 0 then 1 else -1)) y.e' })))) ∧
         (hasBit x.levels 0 ≠ v → hasBit x.levels 1 ≠ w → exec (.fbEdge l ch held (some v) (some w) z) s = .next (s.onChip (fun c =>
           (c.modFb l ch (fun y => { y with levels := seen (setBit (setBit y.levels 0 v) 1 w)
                                            hallNt := at_ (seen (setBit (setBit y.levels 0 v) 1 w)), faulted := true })).fbFault l ch 0x1301)))) ∧
       (s.chip.parN Par.fbkMode ch = 2 → ∀ old new : Nat, x.levels.toNat % 8 = old →
         (seen (setBit (setBit x.levels 0 v) 1 w)).toNat % 8 = new → old ≠ new →
         ((old, new) ∈ [(1, 3), (3, 2), (2, 6), (6, 4), (4, 5), (5, 1)] →
           exec (.fbEdge l ch held (some v) (some w) z) s = .next (s.onChip (fun c => c.modFb l ch (fun y => { y with
             levels := seen (setBit (setBit y.levels 0 v) 1 w), hallNt := (s.chip.lane l).clock.nt - 10 * held
             e := y.e + dir, e' := hystCount hyst (y.e + dir) y.e' })))) ∧
         ((new, old) ∈ [(1, 3), (3, 2), (2, 6), (6, 4), (4, 5), (5, 1)] →
           exec (.fbEdge l ch held (some v) (some w) z) s = .next (s.onChip (fun c => c.modFb l ch (fun y => { y with
             levels := seen (setBit (setBit y.levels 0 v) 1 w), hallNt := (s.chip.lane l).clock.nt - 10 * held
             e := y.e - dir, e' := hystCount hyst (y.e - dir) y.e' })))) ∧
         ((old, new) ∉ [(1, 3), (3, 2), (2, 6), (6, 4), (4, 5), (5, 1)] → (new, old) ∉ [(1, 3), (3, 2), (2, 6), (6, 4), (4, 5), (5, 1)] →
           exec (.fbEdge l ch held (some v) (some w) z) s = .next (s.onChip (fun c =>
             (c.modFb l ch (fun y => { y with levels := seen (setBit (setBit y.levels 0 v) 1 w)
                                              hallNt := (s.chip.lane l).clock.nt - 10 * held, faulted := true })).fbFault l ch 0x1302)))) ∧
       (s.chip.parN Par.fbkMode ch = 5 → hasBit x.levels 0 ≠ v →
         exec (.fbEdge l ch held (some v) none z) s = .next (s.onChip (fun c => c.modFb l ch (fun y => { y with
           levels := seen (setBit y.levels 0 v), hallNt := at_ (seen (setBit y.levels 0 v))
           e := 1024 * (Int.fdiv y.e 1024 + dir * (if v == hasBit x.levels 1 then 1 else -1))
           e' := hystCount hyst (1024 * (Int.fdiv y.e 1024 + dir * (if v == hasBit x.levels 1 then 1 else -1))) y.e' })))) ∧
       ((s.chip.parN Par.fbkMode ch = 0 ∨ s.chip.parN Par.fbkMode ch = 3 ∨ s.chip.parN Par.fbkMode ch = 4) →
         exec (.fbEdge l ch held (some v) (some w) z) s = .next (s.onChip (fun c => c.modFb l ch (fun y => { y with
           levels := seen (setBit (setBit y.levels 0 v) 1 w), hallNt := at_ (seen (setBit (setBit y.levels 0 v) 1 w)) })))))) ∧
  (∀ (s : State) (l : LaneId) (ch : Fin 8) (held : Nat), (s.chip.parN Par.fbkMode ch = 1 ∨ s.chip.parN Par.fbkMode ch = 5) →
     0 < s.chip.par Par.fbkCpr ch → s.chip.runs l = true → s.chip.parN Par.fbkFilter ch ≤ held →
     let x := s.chip.fbOf l ch
     let cpr := s.chip.par Par.fbkCpr ch
     let pos := s.chip.par Par.fbkIndexPos ch
     (s.chip.parN Par.fbkCountMode ch = 0 → exec (.indexPulse l ch held) s = .next s) ∧
     (s.chip.parN Par.fbkCountMode ch = 1 →
       (x.indexRef = false → 0 ≤ pos → pos < cpr → ∃ t b, exec (.indexPulse l ch held) s = .next t ∧
         t = s.onChip (fun c => c.modFb l ch (fun y => { y with indexSeen := true, base := b, indexRef := true, indexBad := 0 })) ∧
         (x.e + b) % cpr = pos ∧ -cpr < 2 * (b - x.base) ∧ 2 * (b - x.base) ≤ cpr) ∧
       (∀ d : Int, x.indexRef = true → -cpr < 2 * d → 2 * d ≤ cpr → (x.e + x.base - pos - d) % cpr = 0 →
         (d = 0 → exec (.indexPulse l ch held) s = .next (s.onChip (fun c => c.modFb l ch (fun y => { y with indexSeen := true, indexBad := 0 })))) ∧
         (d ≠ 0 → (d.natAbs : Int) ≤ s.chip.par Par.fbkIndexTol ch → exec (.indexPulse l ch held) s = .next (s.onChip (fun c =>
           c.modFb l ch (fun y => { y with
             indexSeen := true, base := y.base - d, corrections := satInc 65535 y.corrections, indexBad := 0 })))) ∧
         (s.chip.par Par.fbkIndexTol ch < (d.natAbs : Int) → d ≠ 0 → x.indexBad + 1 < s.chip.parN Par.fbkIndexLimit ch →
           exec (.indexPulse l ch held) s = .next (s.onChip (fun c => (c.modFb l ch (fun y => { y with
             indexSeen := true, indexBad := y.indexBad + 1, faulted := true })).fbFault l ch 0x1303))))) ∧
     (s.chip.parN Par.fbkCountMode ch = 2 →
       ∃ t y, exec (.indexPulse l ch held) s = .next t ∧ (t.chip.lane l).fb = modNth (s.chip.lane l).fb ch (fun _ => y) ∧
         y.latch = low32 (x.e + x.base) ∧ y.indexRef = true ∧ y.e = x.e ∧ y.base = x.base ∧ t.mem = s.mem ∧
         ∀ j, j ≠ l → t.chip.lanes.get j = s.chip.lanes.get j))

/-- SENT and SSI channels, and the probe latch. A SENT frame that passes its checks, with no pulse off a whole tick by more than 0.35 tick and
no low phase under four ticks, stores its two fast channels and the time at which its CRC nibble ended, before any pause pulse (R178, R546);
one that fails is counted, records fault 0x1305 and stores nothing (R178). SSI.START marks the transfer; a frame that passes is split at
FBK.SSI_ST, one that fails its levels records fault 0x1305 (R180). The first probe edge of the armed kind that was seen at the S of the
arming or later latches the NT of its tick, any other edge changes nothing, and FBK.PROBE_ARM takes effect at the next S, in every lane (R171,
R184).
FBK.POSITION_SET of a channel that nothing uses moves the base of every lane by the preset value less the value for the S of the period,
the agreed one of a shared channel and else the lane's own, clears the index reference in each and the plausibility base of the channel's
pairs, and shifts the references that the lanes' engines hold for the channel; the count, the samples and every other channel stay (R185,
R199). -/
def Obligations.FramesProbesAndPositionSets : Prop :=
  (∀ (s : State) (l : LaneId) (ch : Fin 8),
     let opt := s.chip.parN Par.fbkSentOpt ch
     (∀ (calib : Nat) (pulses : List Nat) (pause : Option Nat) (low : Nat), s.chip.runs l = true → s.chip.par Par.fbkMode ch = 3 →
       (∀ status data, s.chip.sentPasses ch (s.chip.fbOf l ch).sentCal calib pulses pause = some (status, data) → calib ≤ 14 * low →
         opt.testBit 3 = false → opt.testBit 1 = false →
         (∀ p ∈ pulses, 1120 * p ≤ (20 * ticksOf calib p + 7) * calib ∧ 20 * ticksOf calib p * calib ≤ 1120 * p + 7 * calib) ∧
         exec (.sentFrame l ch calib pulses pause low) s = .next (s.onChip (fun c => c.modFb l ch (fun y => { y with
           sentCal := calib
           fast1 := ofNibbles (data.take (s.chip.parN Par.fbkSentFc1 ch / 4))
           fast2 := ofNibbles (data.drop (s.chip.parN Par.fbkSentFc1 ch / 4))
           frameNt := some ((s.chip.lane l).clock.nt - 10 * pause.getD 0) })))) ∧
       (s.chip.sentPasses ch (s.chip.fbOf l ch).sentCal calib pulses pause = none ∨ 14 * low < calib →
         exec (.sentFrame l ch calib pulses pause low) s = .next (s.onChip (fun c => (c.modFb l ch (fun y => { y with
           sentCal := calib, serialBits := [], discards := satInc 65535 y.discards })).fbFault l ch 0x1305)))) ∧
     (s.chip.runs l = true → s.chip.par Par.fbkMode ch = 4 →
       exec (.ssiStart l ch) s = .next (s.onChip (fun c => c.modFb l ch (fun y => { y with ssiBusy := true }))) ∧
       (∀ bits : List Bool, (s.chip.fbOf l ch).ssiBusy = true → s.chip.parN Par.fbkSsiOpt ch = 0 → bits.length = s.chip.parN Par.fbkSsiBits ch →
         exec (.ssiFrame l ch true true [bits] true) s = .next (s.onChip (fun c => c.modFb l ch (fun y => { y with
           ssiBusy := false
           fast1 := ofBits bits % 2 ^ s.chip.parN Par.fbkSsiSt ch
           fast2 := ofBits bits / 2 ^ s.chip.parN Par.fbkSsiSt ch
           frameNt := some (s.chip.lane l).clock.nt })))) ∧
       (∀ (i f m : Bool) (copies : List (List Bool)), (s.chip.fbOf l ch).ssiBusy = true → (i && f && m) = false →
         exec (.ssiFrame l ch i f copies m) s = .next (s.onChip (fun c => (c.modFb l ch (fun y => { y with
           ssiBusy := false, discards := satInc 65535 y.discards })).fbFault l ch 0x1305)))) ∧
     (∀ (src : Fin 2) (fall : Bool) (held : Nat),
       (s.chip.runs l = true → s.chip.parN Par.fbkFilter ch ≤ held → (s.chip.fbOf l ch).probeSrc = some src.val →
         (s.chip.fbOf l ch).probeFalling = fall → (s.chip.fbOf l ch).probeNt = none →
         (s.chip.fbOf l ch).probeFrom ≤ (s.chip.lane l).clock.nt - 10 * held →
         exec (.probeEdge l ch src fall held) s = .next (s.onChip (fun c => c.modFb l ch (fun y => { y with
           probeNt := some ((s.chip.lane l).clock.nt - 10 * held) })))) ∧
       ((s.chip.fbOf l ch).probeSrc ≠ some src.val ∨ (s.chip.fbOf l ch).probeFalling ≠ fall ∨ (s.chip.fbOf l ch).probeNt ≠ none ∨
         held < s.chip.parN Par.fbkFilter ch ∨ (s.chip.lane l).clock.nt - 10 * held < (s.chip.fbOf l ch).probeFrom →
         exec (.probeEdge l ch src fall held) s = .next s)) ∧
     (∀ r : Req, s.admits attrProbeArm r = true → r.body.length = 16 → fld r.body 0 1 < 8 → fld r.body 1 1 < 2 → fld r.body 2 1 < 2 →
       fld r.body 3 1 < 2 → zeroFrom r.body 4 16 = true → ∃ t, exec (.probeArm r) s = .next t ∧
         t.plain = (s.onChip (fun c => c.modLanes (fun _ n => { n with fb := modNth n.fb (fld r.body 0 1) (fun x => { x with
           probePend := some (if fld r.body 3 1 = 0 then some (fld r.body 1 1) else none, decide (fld r.body 2 1 = 1)) }) }))).plain)) ∧
  (∀ (s : State) (r : Req), s.admits attrPositionSet r = true → r.body.length = 16 → fld r.body 0 1 < 8 →
     zeroFrom r.body 1 4 = true → zeroFrom r.body 12 16 = true → (s.chip.par Par.fbkMode (fld r.body 0 1) = 3 → fld r.body 8 4 = 0) →
     fbUsed s.chip.dev.cfg.ws (fld r.body 0 1) = false →
     let ch := fld r.body 0 1
     let f := nth s.chip.dev.agreed.fb ch {}
     let agreed := wordsCount s.chip.dev.cfg.ws ch f.pos.v f.rev.v
     let now (l : LaneId) : Int := if s.chip.par Par.perFbShare ch = 1 then agreed else
       wordsCount s.chip.dev.cfg.ws ch (nth (s.chip.lane l).round.own.fb ch {}).pos (nth (s.chip.lane l).round.own.fb ch {}).rev
     let v := presetValue s.chip.dev.cfg.ws ch r.body
     ∃ t, exec (.positionSet r) s = .next t ∧ t.mem = s.mem ∧ t.chip.pintle = s.chip.pintle ∧ t.chip.bridges = s.chip.bridges ∧
       t.chip.dev.cfg = s.chip.dev.cfg ∧
       (∀ x : Fin 8, (x.val = ch ∨ s.chip.parN Par.fbkPlausPartner x.val = ch) → (nth t.chip.dev.agreed.fb x.val {}).plausBase = none) ∧
       ∀ l : LaneId, (t.chip.lane l).plain = { (s.chip.lane l).plain with
         fb := modNth (s.chip.lane l).fb ch (fun x => { x with base := x.base + (v - now l), indexRef := false, indexBad := 0 })
         engines := (t.chip.lane l).engines } ∧
         ∀ k : Fin 4, nth (t.chip.lane l).engines k.val {} = { nth (s.chip.lane l).engines k.val {} with
           ownRefs := (nth (s.chip.lane l).engines k.val {}).ownRefs.map (fun e =>
             if e.1 = ch then (ch, s.chip.shifted k.val ch (v - agreed) e.2) else e) })

/-- The measurement of link delays. A link that comes up starts it afresh; an X.U port sends a request while samples are missing and notes its
departure, as a whole probe frame with its delimiter at the lane's NT; an X.D port answers and learns its neighbour; the response to the outstanding request gives the sample ((t4 - t1) - (t3 - t2)) / 2
in ps and takes the next sequence number, and TIME.DELAY_SAMPLES of them give the delay; an unanswered request is repeated, and the third unanswered one records fault 0x2101 and restarts the
link; a lost link records fault 0x2003 where the lane runs and loses its delay (R336, R338, R340). Nothing but that port and the frames sent changes.
The mean of link delay samples is rounded toward zero (R338). -/
def Obligations.LinkDelaysAreMeasured : Prop :=
  (∀ (s : State) (l : LaneId) (k : Fin 4),
     let p := s.chip.portOf l k.val
     let nt := (s.chip.lane l).clock.nt
     let wire := probeBytes l.idx (s.chip.parN Par.netNodeId) (s.chip.parN Par.netEthertype)
     let sent (body : List Byte) : SentFrame := { port := k.val, at_ := nt - sfdLag, bytes := wire body }
     ((s.chip.lane l).power.net = true → exec (.phyLinkUp l k) s = .next (s.onChip (fun c => c.modPort l k.val (fun x => { x with
       up := true, trained := false, probeSeq := 0, probeT1 := none, unanswered := 0, samples := [], delay := none, downAll := false })))) ∧
     (s.chip.runs l = true → k.val % 2 = 0 → p.up = true → p.fenced = false → p.probeT1 = none → p.samples.length < s.chip.parN Par.timeDelaySamples →
       exec (.probeSend l k) s = .next (s.onChip (fun c => (c.modPort l k.val (fun x => { x with probeT1 := some nt })).modNet l (fun n => { n with
         out := n.out ++ [sent (probeBody 1 p.probeSeq 0 0)] })))) ∧
     (∀ (q : Fin 16) (node : Nat), s.chip.runs l = true → k.val % 2 = 1 → p.up = true → p.fenced = false →
       exec (.probeRequest l k q node) s = .next (s.onChip (fun c => (c.modPort l k.val (fun x => { x with partner := node })).modNet l (fun n =>
         { n with out := n.out ++ [sent (probeBody 2 q.val nt nt)] })))) ∧
     (∀ (q : Fin 16) (t1 t2 t3 t4 node : Nat), s.chip.runs l = true → p.probeT1 = some t1 → p.probeSeq = q.val → p.fenced = false →
       exec (.probeResponse l k q t2 t3 t4 node) s = .next (s.onChip (fun c => c.modPort l k.val (fun x => { x with
         partner := node, probeT1 := none, unanswered := 0, probeSeq := (x.probeSeq + 1) % 16
         samples := x.samples ++ [(((t4 : Int) - t1) - ((t3 : Int) - t2)) * 500]
         delay := if s.chip.parN Par.timeDelaySamples ≤ p.samples.length + 1
           then some (meanDelay (p.samples ++ [(((t4 : Int) - t1) - ((t3 : Int) - t2)) * 500])) else x.delay })))) ∧
     (s.chip.runs l = true → p.probeT1 ≠ none →
       (p.unanswered < 2 → exec (.probeTimeout l k) s = .next (s.onChip (fun c => (c.modPort l k.val (fun x => { x with
         unanswered := x.unanswered + 1, probeT1 := some nt })).modNet l (fun n => { n with
           out := n.out ++ [sent (probeBody 1 p.probeSeq 0 0)] })))) ∧
       (2 ≤ p.unanswered → ∃ t, exec (.probeTimeout l k) s = .next t ∧
         t.plain = (s.onChip (fun c => (c.localFault l 0x2101 0x0B k.val l.idx).portDown l k.val)).plain ∧
         (t.chip.portOf l k.val).up = false ∧ (t.chip.portOf l k.val).delay = none)) ∧
     (p.up = true → ∃ t, exec (.linkLost l k) s = .next t ∧
       t = s.onChip (fun c => (if c.runs l then c.localFault l 0x2003 0x0B k.val l.idx else c).portDown l k.val) ∧
       (t.chip.portOf l k.val).up = false ∧ (t.chip.portOf l k.val).trained = false ∧ (t.chip.portOf l k.val).delay = none)) ∧
  (∀ xs : List Int, xs ≠ [] → (∀ x ∈ xs, 0 ≤ x) →
     (meanDelay xs : Int) * xs.length ≤ xs.foldl (· + ·) 0 ∧ xs.foldl (· + ·) 0 < ((meanDelay xs : Int) + 1) * xs.length)

/-- Network time in a device. Delay data received enter the chain of their channel, newest of each station (R342). Holdover for TIME.HOLDOVER_MAX matrix
cycles records fault 0x2106 and bars timed operations (R352). A lane in RECOVERY takes its correction, its cycle and the state LANE from the time
mark of a lane that leads, as sent or as it arrives (R344, R346). A paced lane takes the pacing lane's NT at the period mark (R553). TIME.READ answers Sn, the synchronisation and
the lanes' NT; TIME.EPOCH_SET alone writes TIME.START_NT (R357). -/
def Obligations.LanesFollowNetworkTime : Prop :=
  ∀ (s : State) (l : LaneId),
    (∀ (ch : Fin 2) (d : DelayData), s.chip.runs l = true → (s.chip.netOf l).phase ≠ .down → (s.chip.netOf l).phase ≠ .test → (s.chip.netOf l).lineDelays.isSome = true →
      ∃ t, exec (.delayFrame l ch d) s = .next t ∧
        (t.chip.netOf l).chainA = (if ch.val = 0 then (s.chip.netOf l).chainA.filter (fun x => x.node != d.node) ++ [d] else (s.chip.netOf l).chainA) ∧
        (t.chip.netOf l).chainB = (if ch.val = 1 then (s.chip.netOf l).chainB.filter (fun x => x.node != d.node) ++ [d] else (s.chip.netOf l).chainB) ∧
        (t.chip.netOf l).lineDelays = (s.chip.netOf l).lineDelays ∧
        t = s.onChip (fun c => c.modNet l (fun _ => t.chip.netOf l))) ∧
    (s.chip.runs l = true → s.chip.parN Par.timeHoldoverMax ≤ (s.chip.lane l).clock.holdFor → (s.chip.lane l).clock.tstate = .holdover → (s.chip.lane l).clock.overHold = false → exec (.holdoverLimit l) s =
      .next (s.onChip (fun c => (c.modClock l (fun k => { k with overHold := true })).localFault l 0x2106 0x0C 0 l.idx))) ∧
    (∀ (src : LaneId) (q : Rx TimeMark) (x : TimeMark), s.chip.runs l = true → l ≠ src → (s.chip.linkAt (linkIdx l src)).fenced = false →
      (q = .other x ∨ q = .intact ∧ s.chip.runs src = true ∧
        x = { stamp := (s.chip.lane src).round.own.nt, rank := (s.chip.netOf src).refRank, node := (s.chip.netOf src).refNode }) →
      (s.chip.netOf l).phase = .recovery → (s.chip.lane src).clock.tstate.leads = true →
      let o : Int := (s.chip.lane l).clock.nt - ((x.stamp : Int) + Config.laneLinkDelay)
      s.chip.par Par.timeStepTh < Sys2Proof.Machine.dist o 0 →
      exec (.timeMark l src q) s = .next (s.onChip (fun c => (c.modClock l (fun k => { k with
          nt := ((k.nt : Int) - o).toNat % 2 ^ 64, frac := 0, lastOff := none
          tstate := .lane, gotSync := true })).modNet l (fun n => { n with
            ports := n.ports.map (fun p => { p with busy := 0, buffered := none })
            counter := (s.chip.netOf src).counter, matrix := (s.chip.netOf src).matrix, start := (s.chip.netOf src).start })))) ∧
    (∀ p : LaneId, s.chip.pacingLane = some p → p ≠ l → s.chip.dev.locked = false → s.chip.inAuth l = true →
      (s.chip.linkAt (linkIdx l p)).fenced = false → exec (.periodMark l) s =
        .next (s.onChip (fun c => c.modClock l (fun k => { k with nt := (s.chip.lane p).clock.nt, frac := (s.chip.lane p).clock.frac })))) ∧
    (∀ (r : Req) (k : LaneId), r.link = some k → r.session = 0 → hasBit r.flags 0 = false → s.admits attrTimeRead r = true → r.body = [] →
      ∃ t p, exec (.timeRead r) s = .next t ∧ t.plain = s.plain ∧ t.chip.dev.replies = s.chip.dev.replies ++ [(k, p)] ∧ p.status = 0 ∧
        p.payload.length = 64 ∧ fld p.payload 0 8 = s.chip.dev.sn % 2 ^ 64 ∧
        fld p.payload 8 1 = (if s.chip.netSynced then 1 else 0) ∧
        ∀ j : LaneId, fld p.payload (16 + 16 * j.idx) 8 = (if hasLane s.chip.dev.aset j then s.chip.dev.agreed.nts.get j % 2 ^ 64 else 0)) ∧
    (∀ r : Req, s.admits attrEpochSet r = true → r.body.length = 16 → zeroFrom r.body 8 16 = true →
      ∃ t, exec (.epochSet r) s = .next t ∧ Par.timeStartNt.at t.chip.dev.cfg.ws 0 = fld r.body 0 8 ∧
        t.plain = (s.onChip (fun c => c.modDev (fun d => { d with cfg := t.chip.dev.cfg }))).plain ∧
        t.chip.dev.cfg.sched = s.chip.dev.cfg.sched ∧
        ∀ (p : PInfo) (i : Nat), parKey p.id i ≠ parKey Par.timeStartNt.id 0 → p.at t.chip.dev.cfg.ws i = p.at s.chip.dev.cfg.ws i)

/-- Frames at a port of a lane, from their bytes. At a port that is down or fenced nothing is received. A frame between two working ports is
forwarded, also by a fenced lane whose network unit is sound, and a lane fenced for its network unit does nothing (R11, R303). A frame that
the plane does not know is only counted; one that fails a check of R306 is counted for its port and its cause and gives nothing. A valid
exclusive frame of a received slot joins the items that the lane streams, in place of a carried-over one of its slot (R126, R127, R315), and
in a spare slot without an owner makes its sender the owner (R326); a valid host frame that is new joins them too (R330, R334). A valid
coldstart or sync frame brings a lane in LISTEN that heard its predecessor to INTEGRATE with the frame's counts and cycle start (R319); a lower
rank ends COLDSTART (R318); and a reference in SERVICE that hears a better one is a reference no more and follows it (R346, R351). Other lanes,
memories and the Pintle stay. The checks of arrival time apply past the forwarding of the frame. -/
def Obligations.FramesReachTheirLane : Prop :=
  ∀ (s : State) (l : LaneId) (k : Fin 4) (b : List Byte),
    let p := s.chip.portOf l k.val
    let f := frameOf b
    let past := s.chip.forward l k.val b
    let nt := (s.chip.lane l).clock.nt
    let frame (t : State) : Prop := t.mem = s.mem ∧ t.chip.pintle = s.chip.pintle ∧ t.chip.bridges = s.chip.bridges ∧
      ∀ j, j ≠ l → t.chip.lanes.get j = s.chip.lanes.get j
    ((p.up = false ∨ p.fenced = true) → exec (.frameReceived l k b) s = .next s ∧ exec (.coldstartFrame l k b) s = .next s ∧
      exec (.syncFrame l k b) s = .next s) ∧
    ((s.chip.lane l).boot.fenced = true → (s.chip.lane l).boot.fenceNet = true → exec (.frameReceived l k b) s = .next s) ∧
    (p.works = true → (s.chip.portOf l (otherPort k.val)).works = true → (s.chip.lane l).power.net = true →
      ((s.chip.lane l).boot.fenced = false ∨ (s.chip.lane l).boot.fenceNet = false) → ∃ t, exec (.frameReceived l k b) s = .next t ∧ frame t ∧
        (t.chip.netOf l).forwarded = (s.chip.netOf l).forwarded + 1 ∧
        ((s.chip.lane l).boot.fenced = true → (t.chip.lane l).arriving = (s.chip.lane l).arriving)) ∧
    (p.up = true → p.fenced = false → s.chip.runs l = true → f.etherType ≠ s.chip.parN Par.netEthertype →
      ∃ t, exec (.frameReceived l k b) s = .next t ∧
        frame t ∧ t.chip.dev.plain = s.chip.dev.plain ∧ (t.chip.netOf l).foreign = (s.chip.netOf l).foreign + 1 ∧
        (t.chip.lane l).arriving = (s.chip.lane l).arriving ∧ (t.chip.netOf l).phase = (s.chip.netOf l).phase) ∧
    (p.up = true → p.fenced = false → s.chip.runs l = true → f.etherType = s.chip.parN Par.netEthertype → s.chip.netReceives l = true →
      (∀ cause, frameCause l f = some cause → ∃ t q, exec (.frameReceived l k b) s = .next t ∧ frame t ∧
        (t.chip.netOf l).ports = modNth (modNth (s.chip.netOf l).ports (otherPort k.val) (fun _ => q)) k.val (fun x => { x with
          fails := min 65535 (x.fails + 1), causes := modNth x.causes cause (satInc 65535) }) ∧
        (t.chip.netOf l).failed = satInc 65535 (s.chip.netOf l).failed ∧ (t.chip.lane l).arriving = (s.chip.lane l).arriving) ∧
      (∀ e, frameCause l f = none → f.typ = 1 → past.exclCause l k.val f = none → s.chip.frameEntry f = some e →
        (e.spare = false → s.chip.rxEntry e = true → s.chip.inService l = true →
          ∃ t, exec (.frameReceived l k b) s = .next t ∧ frame t ∧ t.chip.dev.plain = s.chip.dev.plain ∧
            (t.chip.lane l).arriving = (s.chip.lane l).arriving.filter (fun y => !(y.carried && (match y.item with
                | .excl c n _ _ _ _ _ _ => decide (f.slot / 32768 = c ∧ f.slot % 512 = n)
                | _ => false))) ++
              [{ item := .excl (f.slot / 32768) (f.slot % 512) f.counter f.matrix (hasBit f.flags 0) (hasBit f.flags 1) (f.flags.toNat / 4)
                   (bytesAt f.payload 0 (16 * e.quads)), ord := (s.chip.lane l).streamOrd, index := (s.chip.lane l).streamQuad }]) ∧
        (e.spare = true → s.chip.entryOwner e = none → ∃ t, exec (.frameReceived l k b) s = .next t ∧ frame t ∧
          t.chip.dev.plain = { s.chip.dev.plain with spares := s.chip.dev.spares ++ [{ slot := e.code, owner := f.node }] })) ∧
      (frameCause l f = none → (f.typ = 2 ∨ f.typ = 3) → past.arbCause l k.val f (frameSpan b) = none → s.chip.frameDup l f = false →
        ∃ t, exec (.frameReceived l k b) s = .next t ∧ frame t ∧ t.chip.dev.plain = s.chip.dev.plain ∧
          (t.chip.netOf l).lastSeq = (s.chip.netOf l).lastSeq.filter (fun e => e.1 != f.node) ++ [(f.node, f.word)] ∧
          (fld f.payload 1 1 = 2 → s.chip.inService l = true → (f.typ = 2 ∨ s.chip.bcastFull l = false) →
            (t.chip.lane l).arriving = (s.chip.lane l).arriving ++
              [{ item := .arb f.node f.word 2 (k.val / 2) (bytesAt f.payload 16 (16 * f.quads - 16)), ord := (s.chip.lane l).streamOrd
                 index := (s.chip.lane l).streamQuad }]))) ∧
    (s.chip.syncValid l k.val b 0x10 = true →
      ((s.chip.netOf l).phase = .listen → s.chip.syncFollows l f nt = true → ∃ t, exec (.coldstartFrame l k b) s = .next t ∧ frame t ∧
        (t.chip.netOf l).phase = .integrate ∧ (t.chip.netOf l).counter = f.counter ∧ (t.chip.netOf l).matrix = f.matrix ∧
        (t.chip.netOf l).start = fld f.payload 8 8 - sfdLag ∧ (t.chip.netOf l).refNode = f.node) ∧
      ((s.chip.netOf l).phase = .listen → s.chip.syncFollows l f nt = false → ∃ t, exec (.coldstartFrame l k b) s = .next t ∧ frame t ∧
        (t.chip.netOf l).phase = .listen ∧ (t.chip.netOf l).lastSync = some (f.counter, f.matrix, (t.chip.lane l).clock.nt)) ∧
      ((s.chip.netOf l).phase = .coldstart → (s.chip.netOf l).coldFrames < 8 →
        ranksBetter (fld f.payload 0 1) f.node (s.chip.parN Par.netColdstartRank) (s.chip.parN Par.netNodeId) = true →
        ∃ t, exec (.coldstartFrame l k b) s = .next t ∧ frame t ∧ (t.chip.netOf l).phase = .listen)) ∧
    (s.chip.syncValid l k.val b 0x11 = true → f.quads = 6 →
      ((s.chip.netOf l).phase = .recovery → s.chip.syncFollows l f nt = true → ∃ t, exec (.syncFrame l k b) s = .next t ∧ frame t ∧
        (t.chip.netOf l).phase = .integrate ∧ (t.chip.netOf l).counter = f.counter ∧ (t.chip.netOf l).matrix = f.matrix ∧
        (t.chip.netOf l).start = fld f.payload 16 8 ∧ (t.chip.netOf l).refNode = f.node ∧ (t.chip.netOf l).refRank = fld f.payload 0 1) ∧
      ((s.chip.netOf l).phase = .service → (s.chip.netOf l).isRef = true →
        ranksBetter (fld f.payload 0 1) f.node (s.chip.netOf l).refRank (s.chip.netOf l).refNode = true →
        ∃ t, exec (.syncFrame l k b) s = .next t ∧ frame t ∧ (t.chip.netOf l).isRef = false ∧ (t.chip.netOf l).refNode = f.node ∧
          ((t.chip.netOf l).phase = .service ∨ (t.chip.netOf l).phase = .recovery)))

/-- Phases of a plane. The start instant of R317 leads from DOWN to LISTEN with its counts at zero; silence leads a ranked lane to COLDSTART
(R318) and a lane in SERVICE to RECOVERY with fault 0x2007 (R323), unless it is a candidate (R351); a ranked lane whose reference is lost becomes the reference (R351). A basic
cycle counts the wait of a listening lane, begins the coldstart of one that takes no timing from another lane at TIME.START_NT (R318, R348),
moves on the counts of an integrated one, which enters SERVICE with the matrix-cycle boundary eight cycles on (R307, R319), and takes a lane
that has sent its leaving flags out of SERVICE (R322). A lane that left its plane waits its cycles in DOWN (R324). A frame mover violation freezes the lane's mover, and a second one in 64 matrix cycles fences the port (R77). A
spare slot whose owner was quiet for NET.SPARE_RELEASE matrix cycles has no owner (R327). -/
def Obligations.PlanePhases : Prop :=
  ∀ (s : State) (l : LaneId),
    let n := s.chip.netOf l
    let frame (t : State) : Prop := t.mem = s.mem ∧ t.chip.pintle = s.chip.pintle ∧ t.chip.bridges = s.chip.bridges ∧
      ∀ j, j ≠ l → t.chip.lanes.get j = s.chip.lanes.get j
    (n.phase = .down → n.restartWait = 0 → (s.chip.lane l).power.core = true → (s.chip.lane l).bist.regions.contains 13 = false → s.chip.inAuth l = true →
      (s.chip.lane l).boot.state = .admitted → (s.chip.lane l).boot.fenced = false → s.chip.dev.cfg.sched ≠ [] →
      ((s.chip.portOf l 0).trained = true ∨ (s.chip.portOf l 1).trained = true) → (n.requested = true ∨ s.chip.par Par.netAutostart = 1) →
      ∃ t, exec (.startInstant l) s = .next t ∧ frame t ∧ t.chip.dev = s.chip.dev ∧ (t.chip.netOf l).phase = .listen ∧
        (t.chip.netOf l).waited = 0 ∧ (t.chip.netOf l).forwarded = 0 ∧ (t.chip.netOf l).lineDelays = none ∧ (t.chip.netOf l).isRef = false) ∧
    (s.chip.runs l = true → (n.phase = .listen ∨ n.phase = .recovery) → 1 ≤ s.chip.parN Par.netColdstartRank →
      24 + 2 * s.chip.parN Par.netColdstartRank ≤ n.waited → n.heard = false →
      ∃ t, exec (.listenTimeout l) s = .next t ∧ frame t ∧ t.chip.dev = s.chip.dev ∧ (t.chip.netOf l).phase = .coldstart ∧
        (t.chip.netOf l).coldFrames = 0 ∧ (t.chip.netOf l).counter = 0 ∧ (t.chip.netOf l).matrix = 0) ∧
    (s.chip.runs l = true → n.phase = .service → n.candidate = false → s.chip.parN Par.netLossCycles ≤ n.silent →
      ∃ t, exec (.recoveryEntry l) s = .next t ∧ frame t ∧ (t.chip.netOf l).phase = .recovery ∧ (t.chip.netOf l).waited = 0 ∧
        t.chip.dev.cfg = s.chip.dev.cfg) ∧
    (s.chip.runs l = true → n.phase = .service → n.isRef = false → 1 ≤ s.chip.parN Par.netColdstartRank →
      (s.chip.parN Par.timeHandoverCycles ≤ n.syncMissed ∨ n.refLeft = true) →
      exec (.handoverCandidate l) s = .next (s.onChip (fun c => ((c.modNet l (fun n => { n with
        candidate := true, isRef := true, firstSync := true, refRank := s.chip.parN Par.netColdstartRank
        refNode := s.chip.parN Par.netNodeId, refLeft := false })).modClock l (fun k => { k with tstate := .reference })).localFault
          l 0x2105 0x0C 0 l.idx))) ∧
    (∀ k : Fin 4, s.chip.runs l = true → ∃ t, exec (.frameMoverViolation l k) s = .next t ∧ frame t ∧ (t.chip.netOf l).moverFrozen = true ∧
      (t.chip.netOf l).moverViol = some s.chip.dev.matrix ∧
      ((∃ m, n.moverViol = some m ∧ s.chip.cyclesSince m < 64) →
        (t.chip.netOf l).ports = modNth n.ports k.val (fun p => { p with fenced := true })) ∧
      (¬ (∃ m, n.moverViol = some m ∧ s.chip.cyclesSince m < 64) → (t.chip.netOf l).ports = n.ports)) ∧
    ((n.phase = .down ∨ n.phase = .test ∨ (s.chip.lane l).boot.fenced = true) → exec (.basicCycleStart l) s =
      .next (s.onChip (fun c => c.modNet l (fun n => { n with
        out := [], waiting := [], restartWait := n.restartWait - 1, requested := n.requested || decide (n.restartWait = 1) })))) ∧
    ((s.chip.lane l).boot.fenced = false → (n.leaving && n.left) = false →
      (n.phase = .listen → ∃ t, exec (.basicCycleStart l) s = .next t ∧ frame t ∧ t.chip.dev.cfg = s.chip.dev.cfg ∧
        (t.chip.netOf l).phase = .listen ∧ (t.chip.netOf l).waited = n.waited + 1 ∧ (t.chip.netOf l).start = (s.chip.lane l).clock.nt) ∧
      (n.phase = .coldstart → n.coldFrames = 0 → s.chip.servicePeer l = none → ∃ t, exec (.basicCycleStart l) s = .next t ∧ frame t ∧
        (t.chip.netOf l).phase = .coldstart ∧ (t.chip.netOf l).counter = 0 ∧ (t.chip.netOf l).matrix = 0 ∧ (t.chip.netOf l).coldFrames = 1 ∧
        (t.chip.lane l).clock.nt = s.chip.parN Par.timeStartNt) ∧
      ((n.phase = .integrate ∨ n.phase = .service) → n.counter < 64 → ∃ t, exec (.basicCycleStart l) s = .next t ∧ frame t ∧ t.chip.dev.cfg = s.chip.dev.cfg ∧
        (t.chip.netOf l).phase = (if n.phase = .integrate ∧ n.counter = 63 ∧ 7 ≤ n.integrated then .service else n.phase) ∧ (t.chip.netOf l).counter = (n.counter + 1) % 64 ∧
        (t.chip.netOf l).matrix = (if n.counter = 63 then (n.matrix + 1) % 2 ^ 32 else n.matrix))) ∧
    (n.phase = .service → (s.chip.lane l).boot.fenced = false → n.leaving = true → n.left = true →
      ∃ t, exec (.basicCycleStart l) s = .next t ∧ frame t ∧
        (t.chip.netOf l).phase = (if s.chip.dev.standdown = some l then .test else .down) ∧ (t.chip.netOf l).lineDelays = none) ∧
    (∀ slot : Nat, ∃ t, exec (.spareReleaseExpiry slot) s = .next t ∧ t.chip.dev.spares.Sublist s.chip.dev.spares ∧
      (∀ x, x ∈ t.chip.dev.spares ↔ x ∈ s.chip.dev.spares ∧ (x.slot ≠ slot ∨ x.quiet < s.chip.parN Par.netSpareRelease ∨
        (x.owner = s.chip.parN Par.netNodeId ∧ ∃ j : LaneId, s.chip.inService j = true))) ∧
      t = s.onChip (fun c => c.modDev (fun d => { d with spares := t.chip.dev.spares })))

/-- NET operations that pass their checks. A part of a schedule load is stored in every lane in authority; the last part rejects an unsound
schedule and puts a sound new one in force at once where no lane is in SERVICE and actuation is off (R314). NET.START requests startup in every
lane in authority and waits (R317, R333); its wait ends after 8 matrix cycles with TRANSITION_PENDING (R333). NET.SPARE_CLAIM starts the one claim, without the slots that have been
used in the matrix cycle (R326), and an
untimed NET.FRAME_SEND takes one sequence number and queues its frame in every lane in authority (R305, R333); a timed one waits as a launch (R354). -/
def Obligations.NetworkOperations : Prop :=
  ∀ (s : State) (r : Req),
    (s.admits attrScheduleLoad r = true → 16 ≤ r.body.length → r.body.length % 16 = 0 → r.body.length ≤ 4080 → fld r.body 0 4 % 16 = 0 →
      fld r.body 0 4 + r.body.length ≤ 16448 → fld r.body 4 1 ≤ 1 → zeroFrom r.body 5 8 = true → zeroFrom r.body 12 16 = true →
      s.chip.dev.cfg.schedNext = none → s.chip.dev.standdown = none →
      ∃ t, exec (.scheduleLoad r) s = .next t ∧
        (∀ l, t.mem.get l = if s.chip.inAuth l then { s.mem.get l with
          stagingSched := cellWrite (s.mem.get l).stagingSched (fld r.body 0 4) (r.body.drop 16) } else s.mem.get l) ∧
        ((fld r.body 4 1 = 0 ∨ schedOk s.chip.dev.cfg.ahead t.stagedSched = false) → t.chip.plain = s.chip.plain) ∧
        (fld r.body 4 1 = 1 → schedOk s.chip.dev.cfg.ahead t.stagedSched = true → s.chip.dev.cfg.sched = [] → s.chip.dev.actuation = false →
          s.chip.netCount = none → t.chip.dev.cfg.sched = t.stagedSched ∧ t.chip.dev.spares = [] ∧ t.chip.dev.slots = [] ∧
          t.chip.dev.cfg.ws = s.chip.dev.cfg.ws)) ∧
    (s.admits attrNetStart r = true → r.body = [] → s.chip.dev.cfg.sched ≠ [] → s.chip.authLanes.all s.chip.inService = false →
      ∃ t, exec (.netStart r) s = .next t ∧ (∀ l ∈ s.chip.authLanes, (t.chip.netOf l).requested = true) ∧ t.chip.dev.netWait = 0 ∧
        t.chip.dev.pend.length = s.chip.dev.pend.length + 1 ∧ (t.chip.dev.pend.getLast?.map (·.opcode)) = some 0x2011 ∧ t.mem = s.mem ∧
        ∀ l, (t.chip.lane l).plain = { (s.chip.lane l).plain with net := { (s.chip.netOf l) with requested := (t.chip.netOf l).requested } }) ∧
    (∀ (p : PendOp) (k : LaneId), 8 ≤ s.chip.dev.netWait → s.chip.dev.pend = [p] → p.opcode = 0x2011 → p.link = some k → p.suppress = false →
      ∃ t q, exec .netStartTimeout s = .next t ∧ t.chip.dev.pend = [] ∧ t.chip.dev.replies = s.chip.dev.replies ++ [(k, q)] ∧
        q.status = stTransition ∧ t.mem = s.mem ∧ t.chip.lanes = s.chip.lanes ∧ t.chip.pintle = s.chip.pintle) ∧
    (s.admits attrSpareClaim r = true → checksSpareClaim r s.chip = [] → ∃ t taken, exec (.spareClaim r) s = .next t ∧
      t.chip.dev.spareClaim = some (spareList r.body, taken, 0) ∧ taken.Sublist (spareList r.body) ∧
      (∀ x ∈ spareList r.body, x ∈ taken ↔ (∃ m, s.chip.netCount = some m ∧ (s.chip.slotData x).matrix = m) ∧ (s.chip.slotData x).live = true) ∧
      t.mem = s.mem ∧
      t.plain = (s.onChip (fun c => (c.modDev (fun d => { d with spareClaim := some (spareList r.body, taken, 0) })).addPend 0x2012 r {})).plain) ∧
    (s.admits attrFrameSend r = true → r.isTimed = false → checksFrameSend r s.chip = [] → ∃ t, exec (.frameSend r) s = .next t ∧
      t.mem = s.mem ∧ t.chip.dev.arbSeq = (s.chip.dev.arbSeq + 1) % 2 ^ 32 ∧
      ∀ l, (t.chip.lane l).plain = if s.chip.inAuth l then { (s.chip.lane l).plain with net := (s.chip.netOf l).enqueue {
        kind := 2, dest := if fld r.body 2 1 = 1 then some (fld r.body 0 2) else none, chan := fld r.body 3 1, fseq := s.chip.dev.arbSeq
        data := r.body.drop 16 } } else (s.chip.lane l).plain) ∧
    (s.admits attrFrameSend r = true → r.isTimed = true → checksFrameSend r s.chip = [] → ∃ t, exec (.frameSend r) s = .next t ∧
      t.chip.dev.launches.length = s.chip.dev.launches.length + 1 ∧
      t.plain = (s.onChip (fun c => c.modDev (fun d => { d with launches := t.chip.dev.launches }))).plain)

/-- Reception and loss in Keyway sessions. A PDU that passes the checks of R369 joins the items that its lane streams; one that fails is
counted for its session in that lane (R384), and a fenced lane takes none. A watchdog that has reached its limit makes the session lost, with its action for the
launch point and fault 0x2204, and no unit changes yet (R372, R373, R379); one that has not does nothing. After its delay a lost session is
free, and commands no unit any more unless its loss action is still due (R374); that the record of its commands ends there is the model's
choice (log 112). -/
def Obligations.SessionReceptionAndLoss : Prop :=
  ∀ (s : State) (l : LaneId) (n : Fin 128),
    (∀ (link : Option LaneId) (b : List Byte),
      ((s.chip.lane l).boot.fenced = true → exec (.pduReceived l link n b) s = .next s) ∧
      ((s.chip.lane l).boot.fenced = false → s.chip.pduPasses link n.val b = true →
        let r := (pduOf link n.val 0 0 b).2
        let quads := 2 + (r.payload.length + 15) / 16
        ∃ t, exec (.pduReceived l link n b) s = .next t ∧ t.mem = s.mem ∧ t.chip.dev = s.chip.dev ∧ t.chip.pintle = s.chip.pintle ∧
          t.chip.bridges = s.chip.bridges ∧ t.chip.lanes = (s.chip.modLane l (fun x => { x with
            arriving := x.arriving ++ [{ item := .pdu n.val link (fld b 0 2) r, ord := x.streamOrd, index := x.streamQuad }]
            streamOrd := x.streamOrd + 1, streamQuad := (x.streamQuad + quads) % 256 })).lanes) ∧
      ((s.chip.lane l).boot.fenced = false → s.chip.pduPasses link n.val b = false → n.val ≠ 0 →
        ∃ t, exec (.pduReceived l link n b) s = .next t ∧ t.plain = (s.onChip (fun c => c.modLane l (fun x => { x with
          keyFails := (n.val, satInc 65535 (keyCount x.keyFails n.val)) :: x.keyFails.filter (fun e => e.1 != n.val)
          keyNoted := if x.keyNoted.contains n.val then x.keyNoted else n.val :: x.keyNoted }))).plain)) ∧
    (s.chip.wdDue n.val = false → exec (.watchdogExpiry n) s = .next s) ∧
    (s.chip.wdDue n.val = true → n.val ≠ 0 → ∃ t, exec (.watchdogExpiry n) s = .next t ∧
      t.chip.dev.sessions = modNth s.chip.dev.sessions (n.val - 1) (fun x => { x with state := .lost }) ∧
      t.chip.dev.lossActs = s.chip.dev.lossActs ++ [(n.val, s.chip.parN Par.keyLossAction (s.chip.session n.val).profile)] ∧ t.mem = s.mem ∧
      t.chip.pintle = s.chip.pintle ∧ (∀ k, (t.chip.lane k).plain = (s.chip.lane k).plain) ∧
      (s.chip.parN Par.keyLossAction (s.chip.session n.val).profile ≠ 2 → t.plain = (s.onChip (fun c => c.modDev (fun d => { d with
        lossActs := t.chip.dev.lossActs }))).plain)) ∧
    ((s.chip.session n.val).state ≠ .lost → exec (.freeDelayExpiry n) s = .next s) ∧
    ((s.chip.session n.val).state = .lost → ∃ t, exec (.freeDelayExpiry n) s = .next t ∧ t.mem = s.mem ∧ t.chip.lanes = s.chip.lanes ∧
      t.chip.pintle = s.chip.pintle ∧ t.chip.bridges = s.chip.bridges ∧
      t.chip.dev.sessions = modNth s.chip.dev.sessions (n.val - 1) (fun _ => {}) ∧
      ((∃ e ∈ s.chip.dev.lossActs, e.1 = n.val) → t.chip.dev.motors = s.chip.dev.motors ∧ t.chip.dev.steppers = s.chip.dev.steppers ∧
        t.chip.dev.loops = s.chip.dev.loops ∧ t.chip.dev.launches = s.chip.dev.launches) ∧
      ((∀ e ∈ s.chip.dev.lossActs, e.1 ≠ n.val) → (∀ m ∈ t.chip.dev.motors, m.cmdBy ≠ n.val) ∧ (∀ m ∈ t.chip.dev.steppers, m.cmdBy ≠ n.val) ∧
        (∀ m ∈ t.chip.dev.loops, m.spBy ≠ n.val) ∧ ∀ m ∈ t.chip.dev.launches, m.by_ ≠ n.val))

/-- Opening a session toward Ocgal. A peer's open request that no open session repeats is served by the lowest profile of the peer and takes a
session number, opened under the peer's number and epoch and answered; without a profile or a number it is answered and no session changes; a
repeated one is a violation (R376, R377, R381). A peer's answer opens the device's session, or frees it, and gives the one waiting operation
its reply; silence frees it with FENCED (R376). No unit changes.
KEY operations that pass their checks. A host session is allocated at once under the number of R377, opened on its links with the profile,
the peer and the epoch of its control period, and its reply waits (R375). One on Ocgal takes its number too and sends the peer an open request
(R376). Closing a session that is not free gives it action 1 for the launch point and frees it, the carrying one at the end of the period after
its reply; closing a free one changes nothing (R378). KEY.PEER_UNFREEZE marks a frozen session for the end
of the period and does nothing to another (R379, R382). No unit changes at once. -/
def Obligations.SessionsOpenAndClose : Prop :=
  (∀ s : State,
     (∀ (peer : Nat) (d : OpenData),
       let twin (n : Nat) : Prop := (s.chip.session n).state = .opened ∧ (s.chip.session n).ocgal = true ∧ (s.chip.session n).peer = peer ∧
         (s.chip.session n).peerNum = d.num ∧ (s.chip.session n).epoch = d.epoch ∧ (s.chip.session n).byDevice = false
       ((∀ n, 1 ≤ n → n ≤ 127 → ¬ twin n) →
         (∀ prof n, s.chip.ocgalProfile peer = some prof → s.chip.sessionNumber peer true = some n →
           ∃ t b, exec (.openRequest peer d) s = .next t ∧ t.mem = s.mem ∧ t.chip.pintle = s.chip.pintle ∧
             t.chip.dev.sessions = modNth s.chip.dev.sessions (n - 1) (fun _ => {
               state := .opened, profile := prof, ocgal := true, peer := peer, peerNum := d.num, epoch := d.epoch, rxSeq := (d.first + 2 ^ 32 - 1) % 2 ^ 32, stamp0 := s.chip.dev.sn }) ∧
             t.chip.dev.openPdus = s.chip.dev.openPdus ++ [(peer, 0, b)] ∧ fld b 0 2 = 0x2210) ∧
         (s.chip.ocgalProfile peer = none ∨ s.chip.sessionNumber peer true = none →
           ∃ t b, exec (.openRequest peer d) s = .next t ∧ t.mem = s.mem ∧ t.chip.dev.sessions = s.chip.dev.sessions ∧
             t.chip.dev.openPdus = s.chip.dev.openPdus ++ [(peer, 0, b)] ∧
             t.plain = (s.onChip (fun c => c.modDev (fun d => { d with openPdus := t.chip.dev.openPdus }))).plain)) ∧
       (∀ n, 1 ≤ n → n ≤ 127 → twin n → (∀ m, 1 ≤ m → m < n → ¬ twin m) → ∃ t, exec (.openRequest peer d) s = .next t ∧ t.plain = s.plain ∧
         t.chip.dev.sessions = modNth s.chip.dev.sessions (n - 1) (fun x => { x with
           frozen := true, violatedNow := true, violations := satInc 65535 x.violations }))) ∧
     (∀ (n : Fin 128) (st : Nat) (d : OpenData) (p : PendOp) (k : LaneId), (s.chip.session n.val).state = .opening → n.val ≠ 0 →
       s.chip.dev.pend = [p] → p.opcode = 0x2210 → p.arg = n.val → p.arg2 = 0 → p.link = some k → p.session = 0 → p.suppress = false →
       (d.rnum = n.val → d.epoch = (s.chip.session n.val).epoch → ∃ t q, exec (.openAnswer n st d) s = .next t ∧ t.mem = s.mem ∧
         t.chip.lanes = s.chip.lanes ∧ t.chip.dev.pend = [] ∧ t.chip.dev.replies = s.chip.dev.replies ++ [(k, q)] ∧ q.status = st ∧
         t.chip.dev.sessions = modNth s.chip.dev.sessions (n.val - 1) (fun x =>
           if st = stOk then { x with state := .opened, peerNum := d.num, rxSeq := (d.first + 2 ^ 32 - 1) % 2 ^ 32, wd := 0 } else {})) ∧
       (d.rnum ≠ n.val ∨ d.epoch ≠ (s.chip.session n.val).epoch → exec (.openAnswer n st d) s = .next s) ∧
       (∃ t q, exec (.openTimeout n) s = .next t ∧ t.mem = s.mem ∧ t.chip.dev.pend = [] ∧
         t.chip.dev.replies = s.chip.dev.replies ++ [(k, q)] ∧ q.status = stFenced ∧
         t.chip.dev.sessions = modNth s.chip.dev.sessions (n.val - 1) (fun _ => {})))) ∧
  (∀ (s : State) (r : Req),
     (∀ n, s.admits attrSessionOpen r = true → r.session = 0 → openForm r.body = true → s.chip.openAllowed r = true → fld r.body 0 1 = 0 →
       s.chip.sessionNumber (fld r.body 4 2) false = some n → ∃ t, exec (.sessionOpen r) s = .next t ∧ t.mem = s.mem ∧
         t.chip.pintle = s.chip.pintle ∧ t.chip.dev.pend.length = s.chip.dev.pend.length + 1 ∧
         t.chip.dev.sessions = modNth s.chip.dev.sessions (n - 1) (fun _ => {
           state := .opened, profile := fld r.body 2 1, carriers := BitVec.ofNat 8 (fld r.body 1 1), peer := fld r.body 4 2, peerNum := n, epoch := s.chip.dev.count % 256
           rxSeq := (fld r.body 8 4 + 2 ^ 32 - 1) % 2 ^ 32, stamp0 := s.chip.dev.sn }) ∧
         ∀ l, (t.chip.lane l).plain = { (s.chip.lane l).plain with net := (t.chip.netOf l) } ∧
           (t.chip.netOf l) = { s.chip.netOf l with credits := (s.chip.netOf l).credits.filter (fun k => k.session != n) }) ∧
     (∀ n, s.admits attrSessionOpen r = true → r.session = 0 → openForm r.body = true → s.chip.openAllowed r = true → fld r.body 0 1 = 1 →
       s.chip.sessionNumber (fld r.body 4 2) true = some n → ∃ t b, exec (.sessionOpen r) s = .next t ∧ t.mem = s.mem ∧
         t.chip.pintle = s.chip.pintle ∧ t.chip.dev.pend.length = s.chip.dev.pend.length + 1 ∧
         t.chip.dev.sessions = modNth s.chip.dev.sessions (n - 1) (fun _ => {
           state := .opening, profile := fld r.body 2 1, ocgal := true, byDevice := true, peer := fld r.body 4 2, epoch := s.chip.dev.count % 256
           chan := fld r.body 1 1, stamp0 := s.chip.dev.sn }) ∧
         t.chip.dev.openPdus = s.chip.dev.openPdus ++ [(fld r.body 4 2, fld r.body 1 1, b)] ∧ fld b 0 2 = 0x2210) ∧
     (s.admits attrSessionOpen r = true → r.session = 0 → openForm r.body = true → s.chip.openAllowed r = true →
       s.chip.sessionNumber (fld r.body 4 2) (decide (fld r.body 0 1 = 1)) = none →
       ∃ t, exec (.sessionOpen r) s = .next t ∧ t.plain = s.plain ∧ t.chip.dev.sessions = s.chip.dev.sessions) ∧
     (s.admits (attrSessionClose r) r = true → r.body.length = 16 → zeroFrom r.body 1 16 = true → fld r.body 0 1 ≤ 127 →
       ((s.chip.session (closeTarget r)).state = .free →
         ∃ t, exec (.sessionClose r) s = .next t ∧ t.plain = s.plain ∧ (t.chip.session (closeTarget r)).state = .free) ∧
       ((s.chip.session (closeTarget r)).state ≠ .free → ∃ t, exec (.sessionClose r) s = .next t ∧ t.mem = s.mem ∧
         t.chip.pintle = s.chip.pintle ∧ (∀ l, (t.chip.lane l).plain = (s.chip.lane l).plain) ∧
         t.chip.dev.lossActs = s.chip.dev.lossActs ++ [(closeTarget r, 1)] ∧
         (closeTarget r = r.session → (t.chip.session (closeTarget r)).closing = true ∧
           (t.chip.session (closeTarget r)).state = (s.chip.session (closeTarget r)).state) ∧
         (closeTarget r ≠ r.session → (t.chip.session (closeTarget r)).state = .free) ∧
         ∀ n, n ≠ closeTarget r → (t.chip.session n).state = (s.chip.session n).state)) ∧
     (s.admits attrPeerUnfreeze r = true → r.body.length = 16 → zeroFrom r.body 1 16 = true → 1 ≤ fld r.body 0 1 → fld r.body 0 1 ≤ 127 →
       fld r.body 0 1 ≠ r.session → ∃ t, exec (.peerUnfreeze r) s = .next t ∧ t.plain = s.plain ∧
         (t.chip.session (fld r.body 0 1)).unfreezeNow = (s.chip.session (fld r.body 0 1)).frozen ∧
         (t.chip.session (fld r.body 0 1)).frozen = (s.chip.session (fld r.body 0 1)).frozen))

/-- Faults of a leg. A gate that is not low 2 µs after its turn-off (a shorter wait only counts, R229), a command for both switches (R231), a
drain-source voltage over the profile's threshold for 100 ns after the blanking time (R232) or a current over the gross threshold (R233)
latches an unlatched leg with its own code, turns its bridge or channel off and fences the stage: the winding set of a lane leg, with a local
record, or the Pintle output of a Pintle leg, with a fault in the report (R234, R235, R238). A latched leg latches nothing more on a VDS short,
and below its thresholds neither comparator does anything. The soft turn-off goes to the strong sink at its end (R234). Other lanes, or all
lanes for a Pintle leg, and the memories stay. -/
def Obligations.LegFaultsLatchAndFence : Prop :=
  ∀ (s : State) (g : Leg),
    let t := targetOf g
    let latched (code : Nat) (soft : Nat) (u : State) : Prop := u.mem = s.mem ∧ u.chip.bridges = s.chip.bridges ∧ match g with
      | .lane l n => (u.chip.lane l).legs[n.val]?.map (fun x => (x.latch, x.soft)) = (s.chip.lane l).legs[n.val]?.map (fun _ => (some code, soft)) ∧
        (0x07, t) ∈ (u.chip.lane l).fencedNow ∧
        (u.chip.lane l).engines = modNth (s.chip.lane l).engines t (fun e => { e with gates := .off, cmdOn := false, next := none }) ∧
        u.chip.pintle = s.chip.pintle ∧ ∀ j, j ≠ l → u.chip.lanes.get j = s.chip.lanes.get j
      | .pintle n => u.chip.pintle.legs[n.val]?.map (fun x => (x.latch, x.soft)) = s.chip.pintle.legs[n.val]?.map (fun _ => (some code, soft)) ∧
        u.chip.pintle.outs = modNth s.chip.pintle.outs (targetOut t) (fun x => { x with
          fenced := true, driven := {}, lastPassed := {}, gap := false }) ∧
        (code, 0x06, targetOut t) ∈ u.chip.pintle.faults ∧ u.chip.lanes = s.chip.lanes
    ((s.chip.legAt g).latch = none →
      (∀ waited : Nat, 2000 ≤ waited → ∃ u, exec (.interlockTimeout g waited) s = .next u ∧ latched 0x1101 (s.chip.legAt g).soft u) ∧
      (∃ u, exec (.bothOnCommand g) s = .next u ∧ latched 0x1102 (s.chip.legAt g).soft u) ∧
      (∀ (hi : Bool) (mv since above : Nat), vdsThreshold (s.chip.profile Par.gdrVdsTh g) < mv → 100 ≤ above →
        250 * s.chip.parN Par.gdrVdsBlank (targetGroup t) + 100 ≤ since →
        ∃ u, exec (.vdsShort g hi mv since above) s = .next u ∧ latched 0x1103 1 u) ∧
      (∀ (ma : Int) (lo : Bool), s.chip.grossLimit g < 1000 * ma.natAbs →
        ∃ u, exec (.grossCurrent g ma lo) s = .next u ∧ latched 0x1104 1 u)) ∧
    (∀ waited : Nat, waited < 2000 → exec (.interlockTimeout g waited) s = .next (s.onChip (fun c =>
      c.modTarget (legLane g) t (fun x => if 5 * s.chip.profile Par.gdrDeadtime g < 4 * waited then
        { x with waits := satInc (2 ^ 32 - 1) x.waits } else x)))) ∧
    (∀ (hi : Bool) (mv since above : Nat), ((s.chip.legAt g).latch ≠ none ∨ mv ≤ vdsThreshold (s.chip.profile Par.gdrVdsTh g) ∨ above < 100 ∨
      since < 250 * s.chip.parN Par.gdrVdsBlank (targetGroup t) + 100) → exec (.vdsShort g hi mv since above) s = .next s) ∧
    (∀ (ma : Int) (lo : Bool), 1000 * ma.natAbs ≤ s.chip.grossLimit g → exec (.grossCurrent g ma lo) s = .next s) ∧
    exec (.softOffEnd g) s = .next (s.onChip (fun c => c.modLeg g (fun x => if x.soft = 1 then { x with soft := 2 } else x)))

/-- The off-state test. While steps remain, the readings of a step are kept and the next step follows (R240). After the last step of a test with
no operation waiting, the target has the verdict of all readings and no run, and a pass fences nothing (R241, R242); the verdict is a pass
exactly when every expected node is high in every source step and low in every sink step and no reading lies between (R241).
GDR operations that pass their checks. GDR.OFFSTATE_TEST of a lane target that does not switch starts the test in every selected lane and
waits for the results (R242); of a Pintle target it starts one test in the Pintle die, and with no holder to command it, it answers one
deferred result for each lane (R242; the reply at once is the model's choice of log 28). GDR.LEG_CLEAR clears the latches of the named legs
of a lane target in the selected lanes, or of a Pintle target with the failed lines of those lanes to these legs (R247), and makes a test due
there (R236, R243). -/
def Obligations.OffStateTestsAndGateOperations : Prop :=
  ((∀ (s : State) (l : LaneId) (k : Fin 10) (nodes : List Nat) (run : OstRun), (s.chip.targetAt l k.val).run = some run →
     let vbr := if k.val < 2 then (s.chip.lane l).vbr else s.chip.vbra
     let v := ostVerdict k.val (s.chip.parN Par.gdrOstWindow (targetGroup k.val)) vbr (run.readings ++ [nodes])
     (run.step + 1 < 2 * (targetLegs k.val).2 → exec (.ostStepSettle l k nodes) s = .next (s.onChip (fun c =>
       c.modTarget l k.val (fun x => { x with run := some { run with step := run.step + 1, readings := run.readings ++ [nodes] } })))) ∧
     (2 * (targetLegs k.val).2 ≤ run.step + 1 → s.chip.dev.pend = [] → ∃ t, exec (.ostStepSettle l k nodes) s = .next t ∧ t.mem = s.mem ∧
       t.chip.dev.motors = s.chip.dev.motors ∧
       (v.1 = 0 → t = s.onChip (fun c => c.modTarget l k.val (fun x => { x with
         run := none, due := false, passed := true, result := 0, leg := v.2.1, nodes := v.2.2 }))) ∧
       (v.1 ≠ 0 → k.val < 2 → (0x07, k.val) ∈ (t.chip.lane l).fencedNow ∧
         (t.chip.lane l).targets = modNth (s.chip.lane l).targets k.val (fun x => { x with
           run := none, due := false, result := v.1, leg := v.2.1, nodes := v.2.2 })))) ∧
   (∀ (t w vbr : Nat) (readings : List (List Nat)), t < 10 → w ≤ 50 → readings.length ≤ 2 * (targetLegs t).2 →
     ((ostVerdict t w vbr readings).1 = 0 ↔ ∀ k, k < readings.length →
       (∀ i, i < (targetLegs t).2 → ostHigh w vbr (nth (nth readings k []) i 0) = true ∨ ostLow w vbr (nth (nth readings k []) i 0) = true) ∧
       (k % 2 = 0 → ∀ i ∈ expectedNodes t (k / 2), ostHigh w vbr (nth (nth readings k []) i 0) = true) ∧
       (k % 2 = 1 → ∀ i ∈ expectedNodes t (k / 2), ostLow w vbr (nth (nth readings k []) i 0) = true)))) ∧
  (∀ (s : State) (r : Req), r.body.length = 16 → targetUsed s.chip.dev.cfg.ws (fld r.body 0 1) = true →
     (s.admits attrOffstateTest r = true → zeroFrom r.body 1 16 = true → s.chip.targetSwitches (fld r.body 0 1) = false →
       s.chip.ostRuns (fld r.body 0 1) = false →
       (fld r.body 0 1 < 2 → ∃ t, exec (.offstateTest r) s = .next t ∧ t.mem = s.mem ∧ t.chip.pintle = s.chip.pintle ∧
         t.chip.dev.pend.length = s.chip.dev.pend.length + 1 ∧
         ∀ l, (t.chip.lane l).plain = { (s.chip.lane l).plain with
           targets := if l ∈ r.lanes then modNth (s.chip.lane l).targets (fld r.body 0 1) (fun x => { x with run := some {} })
             else (s.chip.lane l).targets }) ∧
       (2 ≤ fld r.body 0 1 → fld r.body 0 1 < 10 → s.chip.pintle.holder = none → ∃ t, exec (.offstateTest r) s = .next t ∧ t.mem = s.mem ∧
         t.plain = (s.onChip (fun c => c.modTarget .a (fld r.body 0 1) (fun x => { x with result := 5, leg := 0xFF, nodes := [] }))).plain) ∧
       (2 ≤ fld r.body 0 1 → fld r.body 0 1 < 10 → s.chip.pintle.holder ≠ none → s.chip.pintle.holding = false →
         ∃ t, exec (.offstateTest r) s = .next t ∧ t.mem = s.mem ∧ t.chip.dev.pend.length = s.chip.dev.pend.length + 1 ∧
           t.chip.pintle = { s.chip.pintle with targets := modNth s.chip.pintle.targets (fld r.body 0 1 - 2) (fun x => { x with run := some {} }) } ∧
           ∀ l, (t.chip.lane l).plain = (s.chip.lane l).plain)) ∧
     (s.admits attrLegClear r = true → zeroFrom r.body 2 16 = true → fld r.body 0 1 < 2 → fld r.body 1 1 < 8 →
       ∃ t, exec (.legClear r) s = .next t ∧ t.mem = s.mem ∧ t.chip.pintle = s.chip.pintle ∧
         ∀ l, (l ∉ r.lanes → (t.chip.lane l).plain = (s.chip.lane l).plain) ∧
           (l ∈ r.lanes → (t.chip.lane l).targets = modNth (s.chip.lane l).targets (fld r.body 0 1) (fun x => { x with due := true, passed := false }) ∧
             ∀ i x, (s.chip.lane l).legs[i]? = some x → (t.chip.lane l).legs[i]? = some (if 3 * fld r.body 0 1 ≤ i ∧ i < 3 * fld r.body 0 1 + 3 ∧
               (fld r.body 1 1).testBit (i - 3 * fld r.body 0 1) = true then {} else x))) ∧
     (s.admits attrLegClear r = true → zeroFrom r.body 2 16 = true → 2 ≤ fld r.body 0 1 → fld r.body 0 1 < 10 →
       fld r.body 1 1 < 2 ^ (targetLegs (fld r.body 0 1)).2 →
       let lo := (targetLegs (fld r.body 0 1)).1
       let hit (i : Nat) : Bool := decide (lo ≤ i ∧ i < lo + (targetLegs (fld r.body 0 1)).2) && (fld r.body 1 1).testBit (i - lo)
       ∃ t, exec (.legClear r) s = .next t ∧ t.mem = s.mem ∧ (∀ l, (t.chip.lane l).plain = (s.chip.lane l).plain) ∧
         t.chip.pintle.targets = modNth s.chip.pintle.targets (fld r.body 0 1 - 2) (fun x => { x with due := true, passed := false }) ∧
         t.chip.pintle.legs = s.chip.pintle.legs.mapIdx (fun i x => if hit i then {} else x) ∧ t.chip.pintle.outs = s.chip.pintle.outs ∧
         ∀ l, (t.chip.pintle.lanes.get l).failedLines = (if l ∈ r.lanes then
           (s.chip.pintle.lanes.get l).failedLines.filter (fun i => !hit i) else (s.chip.pintle.lanes.get l).failedLines)))

/-- The PWM-level engine of a bridge. A current sample of a bridge that is not in use, or in a halted lane, does nothing (R10, R194). A command
that waits is taken at the first PWM boundary at or after its launch point (R122). While the gates do not switch, the voltages rest at zero and
the currents (code − 8,192) × CMT.I_LSB enter the window of the lane's offsets, but not in an active short circuit (R201, R212). While they switch,
the offsets are subtracted, the flux and torque currents are those of the rotor's angle (R202), the voltage vector stays within Vmax (R203), and the
pulses are centred in the PWM period in steps of 1.25 ns (R204). A Pintle report is kept by the lane, with every fault that no earlier report told
it (R121, R428), and not where the die is off or the lane's path has failed. No other lane, no motor and no memory changes. -/
def Obligations.EnginesSampleAndLimit : Prop :=
  (∀ (s : State) (l : LaneId) (k : Fin 2) (i : PhaseIn),
    let boundary := (s.chip.lane l).clock.nt - s.chip.parN Par.cmtIsampleDelay k.val
    let c := s.chip.modCfg (fun g => { g with ws := g.engineWs boundary })
    let e := nth (s.chip.lane l).engines k.val {}
    let current (j : Nat) : Int := quo (((nth i.codes j 8192 : Int) - 8192) * c.par Par.cmtILsb k.val) 1000
    let used := bridgeUsed s.chip.dev.cfg.ws k.val = true ∧ s.chip.runs l = true
    let need := 1000000 * c.parN Par.cmtCatchWindow k.val / max 1 (c.parN Par.cmtPwmPeriod k.val)
    let ends (t : State) (y : Engine) : Prop := t.mem = s.mem ∧ t.chip.bridges = s.chip.bridges ∧ t.chip.pintle = s.chip.pintle ∧
      t.chip.dev.plain = s.chip.dev.plain ∧ (∀ j, j ≠ l → t.chip.lanes.get j = s.chip.lanes.get j) ∧
      (t.chip.lane l).engines = modNth (s.chip.lane l).engines k.val (fun _ => y)
    (¬used → exec (.currentSample l k i) s = .next s) ∧
    (∀ x, used → e.next = some x → x.from_ ≤ boundary → ∃ t y, exec (.currentSample l k i) s = .next t ∧ ends t y ∧
      y.cmdIq = x.iq ∧ y.cmdId = x.id ∧ y.cmdZero = x.zero ∧ y.cmdOmega = x.omega ∧ y.next = none) ∧
    (used → (∀ x, e.next = some x → boundary < x.from_) → e.gates ≠ .switching → ∃ t y, exec (.currentSample l k i) s = .next t ∧ ends t y ∧
      y.vd = 0 ∧ y.vq = 0 ∧ y.intD = e.intD ∧ y.intQ = e.intQ ∧ y.offs = e.offs ∧
      y.offWin = if e.gates = .short then [] else ((current 0, current 1, current 2) :: e.offWin).take need) ∧
    (used → (∀ x, e.next = some x → boundary < x.from_) → e.gates = .switching →
      let w := omegaOfCounts e.cmdOmega (c.parN Par.cmtPwmPeriod k.val)
      let theta := if e.cmdZero then 0 else if 8 ≤ e.cmdSrc then e.obsAngle
        else unsignedOf 16 ((c.ownReading l k.val e.cmdSrc w i.sc : Int) + e.refNow)
      let ia := current 0 - e.offs.1
      let ib := overRoot3 (ia + 2 * (current 1 - e.offs.2.1))
      let vm := vMax (c.par Par.cmtVlim k.val) (s.chip.lane l).vbr
      ∃ t y, exec (.currentSample l k i) s = .next t ∧ ends t y ∧ y.theta = theta ∧ y.endIq = e.iq ∧ y.endId = e.id ∧
        y.id = quo (ia * cosOf theta + ib * sinOf theta) 32767 ∧ y.iq = quo (ib * cosOf theta - ia * sinOf theta) 32767 ∧
        -vm ≤ y.vd ∧ y.vd ≤ vm ∧ y.vd * y.vd + y.vq * y.vq ≤ vm * vm ∧ y.edges.length = 3 ∧
        ∀ x ∈ y.edges, x.1 ≤ x.2 ∧ x.1 + x.2 ≤ pwmSteps (c.parN Par.cmtPwmPeriod k.val) ∧
          pwmSteps (c.parN Par.cmtPwmPeriod k.val) ≤ x.1 + x.2 + 1)) ∧
  (∀ (s : State) (l : LaneId) (p : PintleIn) (sc : List Nat),
    let path := s.chip.pintle.powered = true ∧ (s.chip.pintle.lanes.get l).pathFailed = false ∧ s.chip.runs l = true
    (¬path → exec (.pintleReport l p sc) s = .next s) ∧
    (path → ∃ t, exec (.pintleReport l p sc) s = .next t ∧ t.mem = s.mem ∧ t.chip.bridges = s.chip.bridges ∧
      t.chip.dev.motors = s.chip.dev.motors ∧ (∀ j, j ≠ l → t.chip.lanes.get j = s.chip.lanes.get j) ∧ (t.chip.lane l).report = some p ∧
      (t.chip.lane l).reportBits.faults = (s.chip.lane l).reportBits.faults ++ s.chip.pintle.faults.drop (s.chip.pintle.lanes.get l).told ∧
      t.chip.pintle = { s.chip.pintle with lanes := s.chip.pintle.lanes.set l { s.chip.pintle.lanes.get l with
        told := s.chip.pintle.faults.length } }))

/-- The end of an alignment. A bridge that is not aligning is left alone. One whose agreed count has moved by less than CPR / (64 × p) over the last
tenth switches, and every channel of it that takes its reference by such an event is referenced so that its present position gives angle 0. One
that has no channel, no valid count or too much motion fails: the first failure records 0x100A and repeats the alignment, the second records 0x100B
and leaves the bridge disabled (R199, R200). Beside the faults no other bridge and no other unit changes.
What R212 decides for CMT.ENABLE. A switching bridge is left as it is. A fenced one that neither switches nor aligns answers FENCED, beside what
the later rows say. An unfenced one that is not yet tracked answers IN_TRANSITION. A tracked one is decided by its speed in 0.1 per minute: below
CMT.CATCH_MIN with a referenced channel it may switch; without one it aligns where CMT.ANGLE_INIT is 1 and is denied otherwise; within the catch limit
of its direction it is caught; beyond it the status is OUT_OF_RANGE forward and REVERSE_TOO_FAST backward. -/
def Obligations.AlignmentsAndEnabling : Prop :=
  (∀ (s : State) (k : Fin 4),
     let m := nth s.chip.dev.motors k.val {}
     let l := s.chip.firstSet k.val
     let u := cmtUnit k.val l
     let ends (t : State) (code : Nat) (f : Motor → Motor) : Prop := t.plain = (s.onChip (fun c => c.modMotor k.val f)).plain ∧
       t = s.onChip (fun c => (c.agreedFault code u.1 u.2.1 u.2.2).modMotor k.val f)
     let moved (ch : Nat) : Bool := match s.chip.angleItem ch l, m.alignPos with
       | some r, some p => decide (fbCpr s.chip.dev.cfg.ws ch ≤ Sys2Proof.Machine.dist (diff32 r.cont p) 0 * 64 * s.chip.par Par.cmtPolePairs k.val)
       | _, _ => true
     (m.state ≠ .aligning → exec (.alignmentDone k) s = .next s) ∧
     (m.state = .aligning →
       (∀ ch, (s.chip.angleChannels k.val).head? = some ch → moved ch = false → ∃ t y, exec (.alignmentDone k) s = .next t ∧ t.mem = s.mem ∧
         t = s.onChip (fun c => c.modMotor k.val (fun _ => y)) ∧
         { y with referenced := m.referenced, referenced2 := m.referenced2, rho := m.rho, rho2 := m.rho2 } =
           { m with state := .switching, alignTry := 0, alignPos := none, alignFor := 0 } ∧
         ∀ j r, j ∈ s.chip.angleChannels k.val → s.chip.takesRef j = true → s.chip.angleItem j l = some r →
           t.chip.refOf k.val j = some (unsignedOf 16 (-(s.chip.angleRaw k.val j 0 r)))) ∧
       ((∀ ch, (s.chip.angleChannels k.val).head? = some ch → moved ch = true) → ∃ t, exec (.alignmentDone k) s = .next t ∧
         (m.alignTry ≤ 1 → ends t 0x100A (fun x => { x with alignTry := 2, alignPos := none, alignFor := 0 })) ∧
         (1 < m.alignTry → ends t 0x100B (fun x => { x with
           state := .tracking, enabled := false, alignTry := 0, alignPos := none, alignFor := 0, trackFor := 0, trackValid := false }))))) ∧
  (∀ (s : State) (k : Nat),
     let m := nth s.chip.dev.motors k {}
     let fails := s.chip.enableFails k
     (m.state = .switching → fails = [] ∧ s.chip.enableBridge k = s.chip) ∧
     (m.state = .aligning → s.chip.bridgeFenced k = false → fails = [] ∧ s.chip.enableBridge k = s.chip) ∧
     (m.state ≠ .switching → s.chip.bridgeFenced k = true → stFenced ∈ fails) ∧
     (m.state ≠ .switching → m.state ≠ .aligning → s.chip.bridgeFenced k = false →
       (m.trackValid = false → fails = [stTransition]) ∧
       (m.trackValid = true →
         ((m.speed.natAbs : Int) < 10 * s.chip.par Par.cmtCatchMin k →
           (s.chip.referenced k = true → fails = [] ∧ s.chip.speedPlan k = .switch) ∧
           (s.chip.referenced k = false → s.chip.par Par.cmtAngleInit k = 1 → fails = [] ∧ s.chip.speedPlan k = .align) ∧
           (s.chip.referenced k = false → s.chip.par Par.cmtAngleInit k ≠ 1 → fails = [stDenied])) ∧
         (10 * s.chip.par Par.cmtCatchMin k ≤ (m.speed.natAbs : Int) →
           (0 ≤ m.speed → m.speed ≤ 10 * s.chip.par Par.cmtCatchFwdMax k → fails = [] ∧ s.chip.speedPlan k = .catch_) ∧
           (0 ≤ m.speed → 10 * s.chip.par Par.cmtCatchFwdMax k < m.speed → fails = [stRange]) ∧
           (m.speed < 0 → -m.speed ≤ 10 * s.chip.par Par.cmtCatchRevMax k → fails = [] ∧ s.chip.speedPlan k = .catch_) ∧
           (m.speed < 0 → 10 * s.chip.par Par.cmtCatchRevMax k < -m.speed → fails = [stReverse])))))

/-- CMT operations that pass their checks, untimed: CMT.ENABLE changes nothing on a bridge that already switches or aligns and starts any other as R212
decides, with torque 0; CMT.DISABLE takes its torque away, discards its pending launches and leaves a switching bridge to turn off later (R219, R356);
CMT.TORQUE_SET sets the torque of a switching bridge (R206, R221); CMT.CATCH_START waits on an enabled bridge that does not switch, pending, until its
tracking is valid (R214). Timed, each is queued once and the bridge does not change (R354). No other bridge changes. -/
def Obligations.BridgeOperations : Prop :=
  ∀ (s : State) (r : Req) (k : Nat), k = fld r.body 0 1 → r.body.length = 16 → k < 4 → bridgeUsed s.chip.dev.cfg.ws k = true →
    let m := nth s.chip.dev.motors k {}
    let only (t : State) : Prop := t.mem = s.mem ∧ t.plain = (s.onChip (fun c => c.modDev (fun d => { d with motors := t.chip.dev.motors }))).plain
    let queued (t : State) : Prop := t.chip.dev.motors = s.chip.dev.motors ∧ t.chip.dev.launches.length = s.chip.dev.launches.length + 1 ∧
      t.plain = (s.onChip (fun c => c.modDev (fun d => { d with launches := t.chip.dev.launches }))).plain
    (s.admits attrCmtEnable r = true → zeroFrom r.body 1 16 = true →
      ((m.state = .switching ∨ m.state = .aligning ∧ s.chip.bridgeFenced k = false) → r.isTimed = false → ∃ t, exec (.cmtEnable r) s = .next t ∧
        t.mem = s.mem ∧ t.plain = s.plain) ∧
      (m.state ≠ .switching → m.state ≠ .aligning → r.isTimed = false → s.chip.enableFails k = [] → ∃ t y, exec (.cmtEnable r) s = .next t ∧
        (s.chip.speedPlan k ≠ .catch_ ∨ s.chip.ostAuto k = false → only t) ∧ t.mem = s.mem ∧ t.chip.bridges = s.chip.bridges ∧
        t.chip.dev.motors = modNth s.chip.dev.motors k (fun _ => y) ∧ y.enabled = true ∧ y.torque = 0 ∧ y.catchWait = false ∧
        (s.chip.speedPlan k = .switch → y.state = .switching ∧ y.catching = false) ∧
        (s.chip.speedPlan k = .align → y.state = .aligning ∧ y.alignTry = 1) ∧
        (s.chip.speedPlan k = .catch_ → y.state = .switching ∧ y.catching = true)) ∧
      (r.isTimed = true → s.chip.enableFails k = [] → s.chip.launchFull k = false → ∃ t, exec (.cmtEnable r) s = .next t ∧ queued t)) ∧
    (s.admits attrCmtDisable r = true → zeroFrom r.body 1 16 = true →
      (r.isTimed = false → ∃ t, exec (.cmtDisable r) s = .next t ∧ t.mem = s.mem ∧ (∀ x ∈ t.chip.dev.launches, x.out ≠ k) ∧
        t.chip.dev.motors = modNth s.chip.dev.motors k (fun x => { x with
          enabled := false, torque := 0, catchWait := false, disabling := decide (x.state = .switching)
          state := if x.state = .switching then .switching else .tracking })) ∧
      (r.isTimed = true → s.chip.launchFull k = false → ∃ t, exec (.cmtDisable r) s = .next t ∧ queued t)) ∧
    (s.admits attrTorqueSet r = true → zeroFrom r.body 1 4 = true → zeroFrom r.body 8 16 = true → s.chip.bridgeFenced k = false →
      m.state = .switching → m.catching = false → m.catchWait = false → m.disabling = false → 64 ≤ s.chip.parN Par.cmtTorqueSrc k →
      (r.isTimed = false → ∃ t, exec (.torqueSet r) s = .next t ∧ only t ∧
        t.chip.dev.motors = modNth s.chip.dev.motors k (fun x => { x with torque := sfld r.body 4 4, cmdBy := r.session })) ∧
      (r.isTimed = true → s.chip.launchFull k = false → ∃ t, exec (.torqueSet r) s = .next t ∧ queued t)) ∧
    (s.admits attrCatchStart r = true → zeroFrom r.body 1 16 = true → s.chip.bridgeFenced k = false → m.state ≠ .switching →
      m.state ≠ .aligning → m.catchWait = false → m.enabled = true → ∃ t, exec (.catchStart r) s = .next t ∧ t.mem = s.mem ∧
        t.chip.dev.motors = modNth s.chip.dev.motors k (fun x => { x with
          catchWait := true }) ∧
        t.chip.dev.pend.length = s.chip.dev.pend.length + 1 ∧ t.chip.lanes.map Lane.plain = s.chip.lanes.map Lane.plain)

/-- STP operations that pass their checks. An untimed STP.MOVE of a homed channel starts or replaces the move, absolute or from the profile's
position; an untimed STP.STOP plans the stop at STP.D_QUICK or STP.D_MAX, or does nothing on a de-energised channel, and discards the
channel's launches (R263, R264, R356); timed ones are queued once (R354). STP.HOME energises the channel and begins its homing (R265). A
table load waits for the boundary (R256). No other channel changes. -/
def Obligations.StepperOperations : Prop :=
  ∀ (s : State) (r : Req) (k : Nat), k = fld r.body 0 1 →
    let x := nth s.chip.dev.steppers k {}
    let steppers (t : State) (f : Stepper → Stepper) : Prop := t.mem = s.mem ∧ t.chip.dev.steppers = modNth s.chip.dev.steppers k f
    let queued (t : State) : Prop := t.chip.dev.steppers = s.chip.dev.steppers ∧
      t.chip.dev.launches.length = s.chip.dev.launches.length + 1 ∧
      t.plain = (s.onChip (fun c => c.modDev (fun d => { d with launches := t.chip.dev.launches }))).plain
    (∀ target : Int, s.admits attrStpMove r = true → r.body.length = 16 → fld r.body 1 1 ≤ 1 → zeroFrom r.body 2 4 = true → k < 6 →
      stepUsed s.chip.dev.cfg.ws k = true → s.chip.outFenced k = false → s.chip.stpByLoop k = false → s.chip.pintle.holding = false →
      x.homed = true → x.phase ≠ .homing → target = (if fld r.body 1 1 = 1 then wholeStep x.x else 0) + sfld r.body 4 4 →
      s.chip.par Par.stpPosMin k ≤ target → target ≤ s.chip.par Par.stpPosMax k → target % stpGrid s.chip.dev.cfg.ws k = 0 →
      fld r.body 8 4 ≤ s.chip.parN Par.stpVMax k → fld r.body 12 4 ≤ s.chip.parN Par.stpAMax k →
      (r.isTimed = false → ∃ t, exec (.stpMove r) s = .next t ∧ steppers t (fun y => { y with
        phase := .moving, braking := false, target := target, vLim := sfld r.body 8 4, aLim := sfld r.body 12 4
        scurve := decide (s.chip.par Par.stpProfile k = 1), quick := false, deEnergise := false, idle := false, cmdBy := r.session })) ∧
      (r.isTimed = true → s.chip.launchFull (4 + k) = false → ∃ t, exec (.stpMove r) s = .next t ∧ queued t)) ∧
    (s.admits attrStpStop r = true → r.body.length = 16 → fld r.body 1 1 ≤ 3 → zeroFrom r.body 2 16 = true → k < 6 →
      stepUsed s.chip.dev.cfg.ws k = true →
      (r.isTimed = false → x.energised = false → ∃ t, exec (.stpStop r) s = .next t ∧ t.chip.dev.steppers = s.chip.dev.steppers ∧
        ∀ y ∈ t.chip.dev.launches, y.out ≠ 4 + k) ∧
      (r.isTimed = false → x.energised = true → ∃ t, exec (.stpStop r) s = .next t ∧ (∀ y ∈ t.chip.dev.launches, y.out ≠ 4 + k) ∧
        steppers t (fun y => { y with
          phase := .stopping, braking := false, quick := bitOf (fld r.body 1 1) 0, deEnergise := bitOf (fld r.body 1 1) 1, scurve := false
          homeStage := 0, idle := if y.v = 0 then y.idle else false
          target := if y.v = 0 then wholeStep y.x else restAt (stpGrid s.chip.dev.cfg.ws k) (y.x + sgn y.v * stopDist y.v
            (if bitOf (fld r.body 1 1) 0 then s.chip.par Par.stpDQuick k else s.chip.par Par.stpDMax k)) (sgn y.v) })) ∧
      (r.isTimed = true → s.chip.launchFull (4 + k) = false → ∃ t, exec (.stpStop r) s = .next t ∧ queued t)) ∧
    (s.admits attrStpHome r = true → r.body.length = 16 → zeroFrom r.body 1 16 = true → k < 6 → stepUsed s.chip.dev.cfg.ws k = true →
      s.chip.outFenced k = false → s.chip.pintle.holding = false → x.tableBad = false → x.phase ≠ .homing →
      ∃ t y, exec (.stpHome r) s = .next t ∧ steppers t (fun _ => y) ∧ y.energised = true ∧ y.homed = false ∧ y.phase = .homing ∧
        y.homeStage = 1 ∧ y.travelled = 0 ∧ y.x = x.x ∧ t.chip.dev.pend.length = s.chip.dev.pend.length + 1) ∧
    (s.admits attrTableLoad r = true → r.body.length = 1040 → k < 2 → zeroFrom r.body 1 12 = true → fld r.body 12 4 = crc32c (r.body.drop 16) →
      stepUsed s.chip.dev.cfg.ws k = true → x.energised = false → s.chip.par Par.stpTabCrc k ≠ 0 → crc32c (r.body.drop 16) = s.chip.parN Par.stpTabCrc k →
      tableValid (loadedTable r.body) = true → ∃ t, exec (.tableLoad r) s = .next t ∧
        t.plain = (s.onChip (fun c => c.modDev (fun d => { d with cfg := { d.cfg with tabNext := d.cfg.tabNext ++ [(k, loadedTable r.body)] } }))).plain)

/-- Timers of a stepper channel. A homing still seeking at STP.HOME_TIMEOUT fails: the channel stops at STP.D_MAX, stays energised and not homed,
and the one waiting operation has the reply NOT_HOMED (R267); else nothing happens. At STP.IDLE_DELAY a standing energised channel takes the
hold current (R260).
Positions of a stepper channel. Within a period the position goes from that of one launch point to that of the next (R262); a stop on a coarse
grid ends on the grid at or beyond the natural stopping point in the direction of motion (R264); a profile that lands stands exactly on its
target (R261); and a quarter of an electrical revolution on, coil B has the fraction that coil A had, and coil A the reverse of the one that
coil B had (R253). -/
def Obligations.StepperTimersAndPositions : Prop :=
  (∀ (s : State) (k : Fin 6),
     let x := nth s.chip.dev.steppers k.val {}
     ((x.phase ≠ .homing ∨ x.homeStage = 3) → exec (.homeTimeout k) s = .next s) ∧
     (∀ (p : PendOp) (l : LaneId), x.phase = .homing → x.homeStage ≠ 3 → x.energised = true → s.chip.dev.pend = [p] → p.opcode = 0x1212 →
       p.arg = k.val → p.link = some l → p.suppress = false → ∃ t q y, exec (.homeTimeout k) s = .next t ∧ t.mem = s.mem ∧
         t.chip.dev.steppers = modNth s.chip.dev.steppers k.val (fun _ => y) ∧ y.phase = .stopping ∧ y.energised = true ∧ y.homed = false ∧
         y.quick = false ∧ y.x = x.x ∧ t.chip.dev.pend = [] ∧ t.chip.dev.replies = s.chip.dev.replies ++ [(l, q)] ∧ q.status = stNotHomed ∧
         (p.session = 0 → fld q.payload 0 4 = unsignedOf 32 (wholeStep x.x))) ∧
     exec (.idleDelayExpiry k) s = .next (s.onChip (fun c => c.modStep k.val (fun y =>
       if y.energised = true ∧ y.phase = .standing then { y with idle := true } else y)))) ∧
  ((∀ (x0 x1 : Int) (j0 n : Nat), j0 < n → stpAt x0 x1 j0 j0 n = x0 ∧ stpAt x0 x1 j0 n n = x1) ∧
   (∀ grid x : Int, 0 < grid → (restAt grid x 1) % grid = 0 ∧ x ≤ restAt grid x 1 * 65536 ∧ restAt grid x 1 * 65536 < x + grid * 65536 ∧
     (restAt grid x (-1)) % grid = 0 ∧ restAt grid x (-1) * 65536 ≤ x ∧ x < restAt grid x (-1) * 65536 + grid * 65536) ∧
   (∀ (s : Stepper) (vm am d j : Int) (dt : Nat), (s.toTarget vm am d j dt).2 = true →
     (s.toTarget vm am d j dt).1.x = s.target * 65536 ∧ (s.toTarget vm am d j dt).1.v = 0 ∧ (s.toTarget vm am d j dt).1.target = s.target) ∧
   (∀ (tab : List (Nat × Nat)) (m : Nat), (coilFractions tab (m + 256)).2 = (coilFractions tab m).1 ∧
     (coilFractions tab (m + 256)).1 = -(coilFractions tab m).2))

/-- The control law of a context in automatic with unchanged gains: output, integrator and filter are those of R282; the integration step is
taken unless the unclipped output is beyond a limit on the side of KI × e (R283); manual gives the clipped manual value and keeps the
integrator, and tracking follows its consumer, with the integrator of R285; a change from manual or tracking to automatic takes
the preset u_prev × 256 − p8 − d8, clipped, in place of the integration step, so that the output stays where neither value is clipped, and an
explicit preset replaces it (R287). Every output lies within the limits. -/
def Obligations.ControlLaw : Prop :=
  ∀ (kp ki kd df lo hi : Int) (x : Loop) (follow pv sp : Int), lo ≤ hi →
    let e := sp - pv
    let p8 := quo (kp * e) 256
    let pf := x.pf + quo (df * (pv * 256 - x.pf)) 65536
    let d8 := quo (-kd * (pf - x.pf)) 65536
    let i8 := x.i + quo (ki * e) 256
    let w := quo (p8 + i8 + d8) 256
    let y (m : LoopMode) : Loop := (loopStep kp ki kd df lo hi x m follow pv sp).1
    (∀ m, lo ≤ (y m).out ∧ (y m).out ≤ hi ∧ lo * 256 ≤ (y m).i ∧ (y m).i ≤ hi * 256 ∧ (y m).sp = sp ∧ (y m).pv = pv ∧ (y m).err = e ∧
      (y m).pf = pf ∧ (y m).held = 0) ∧
    (x.toAuto = false → x.mode ≠ .tracking → x.preset = none → x.oldGains = some (kp, kd, df) →
      (y .auto).out = clip lo hi w ∧
      (((hi < w ∧ 0 < ki * e) ∨ (w < lo ∧ ki * e < 0)) → (y .auto).i = clip (lo * 256) (hi * 256) x.i ∧ (y .auto).inhibited = true) ∧
      (¬ ((hi < w ∧ 0 < ki * e) ∨ (w < lo ∧ ki * e < 0)) → (y .auto).i = clip (lo * 256) (hi * 256) i8 ∧ (y .auto).inhibited = false)) ∧
    (y .manual).out = clip lo hi x.manual ∧ (y .manual).i = clip (lo * 256) (hi * 256) x.i ∧
    (y .tracking).out = clip lo hi follow ∧
    (y .tracking).i = clip (lo * 256) (hi * 256) ((y .tracking).out * 256 - p8 - d8) ∧
    (x.mode = .tracking ∨ x.toAuto = true →
      let j := clip (lo * 256) (hi * 256) (x.out * 256 - p8 - d8)
      (∀ v, x.preset = some v → (y .auto).i = clip (lo * 256) (hi * 256) v ∧ (y .auto).out = clip lo hi (quo (p8 + v + d8) 256)) ∧
      (x.preset = none → (y .auto).i = j ∧ (y .auto).out = clip lo hi (quo (p8 + j + d8) 256)) ∧
      (x.preset = none → lo ≤ x.out → x.out ≤ hi → lo * 256 ≤ x.out * 256 - p8 - d8 → x.out * 256 - p8 - d8 ≤ hi * 256 →
        (y .auto).out = x.out))

/-- LOOP operations that pass their checks: a setpoint is in force at once but for a stop, a mode as it is given, and a preset replaces the next
integration step (R287, R289, R290); a timed setpoint or mode is queued once for the output at the end of the chain (R290). No other context
changes. -/
def Obligations.LoopOperations : Prop :=
  ∀ (s : State) (r : Req) (n : Nat), n = fld r.body 0 1 → r.body.length = 16 → n ≤ 63 → s.chip.loopOn n = true →
    (nth s.chip.dev.loops n {}).mode ≠ .stopped → s.chip.loopFencedAll n = false →
    let loops (t : State) (f : Loop → Loop) : Prop := t.mem = s.mem ∧ t.chip.dev.loops = modNth s.chip.dev.loops n f ∧
      t.plain = (s.onChip (fun c => c.modDev (fun d => { d with loops := t.chip.dev.loops }))).plain
    let queued (t : State) (o : Nat) : Prop := ∃ x, t.chip.dev.launches = s.chip.dev.launches ++ [x] ∧ x.out = o ∧
      t.plain = (s.onChip (fun c => c.modDev (fun d => { d with launches := s.chip.dev.launches ++ [x] }))).plain
    (s.admits attrSetpointSet r = true → zeroFrom r.body 1 4 = true → zeroFrom r.body 8 16 = true →
      -8388607 ≤ sfld r.body 4 4 → sfld r.body 4 4 ≤ 8388607 → 64 ≤ s.chip.parN Par.loopSpSrc n →
      (r.isTimed = false → s.chip.dev.snow.step = 0 → ∃ t, exec (.setpointSet r) s = .next t ∧
        loops t (fun x => { x with sp := sfld r.body 4 4, lastSet := sfld r.body 4 4, spBy := r.session })) ∧
      (∀ o, r.isTimed = true → s.chip.chainOut 9 n = some o → s.chip.launchFull o = false →
        ∃ t, exec (.setpointSet r) s = .next t ∧ queued t o)) ∧
    (s.admits attrModeSet r = true → (fld r.body 1 1 = 1 ∨ fld r.body 1 1 = 2) → fld r.body 2 1 ≤ 1 → fld r.body 3 1 = 0 →
      zeroFrom r.body 8 16 = true →
      (r.isTimed = false → fld r.body 1 1 = 1 → ∃ t, exec (.modeSet r) s = .next t ∧ loops t (fun x => { x with
        mode := .manual, manual := if fld r.body 2 1 = 1 then sfld r.body 4 4 else x.out, toAuto := false, modeBy := r.session })) ∧
      (r.isTimed = false → fld r.body 1 1 = 2 → ∃ t, exec (.modeSet r) s = .next t ∧ loops t (fun x =>
        if x.mode = .auto ∨ x.mode = .tracking then { x with modeBy := r.session }
        else { x with mode := .auto, toAuto := true, modeBy := r.session })) ∧
      (∀ o, r.isTimed = true → s.chip.chainOut 9 n = some o → s.chip.launchFull o = false →
        ∃ t, exec (.modeSet r) s = .next t ∧ queued t o)) ∧
    (s.admits attrIntegratorPreset r = true → zeroFrom r.body 1 4 = true → zeroFrom r.body 8 16 = true →
      (nth s.chip.dev.loops n {}).mode = .auto → ∃ t, exec (.integratorPreset r) s = .next t ∧
        loops t (fun x => { x with preset := some (sfld r.body 4 4) }))

/-- What a lane sends to the Pintle die. A whole claim vector is held for the next boundary, and its lane presents (R18, R19); a stale one ends
that (R19). A valid status packet is kept, and arms or disarms the Deadbolt (R462, R464); the holder's intact table is kept (R462). A fallback packet
that names the output's coming PWM period by its index and count is valid for it: the holder's is kept to be driven, and a standby lane's command is
discarded but for the modes of its last valid packet (R32, R245, R246); one that names another period changes nothing. The stall parameters are those
of a die with a holder (R268). A corrupt message changes nothing, and an intact one is what the lane sends. A withdrawn enable line opens the lane's
switch (R410). Of the lanes only the enable switches can change. The bytes of a fallback packet are read back as they were laid out (R245). -/
def Obligations.PintleLinksDeliver : Prop :=
  (∀ (s : State) (l : LaneId), s.chip.pintle.powered = true →
    let d (t : State) : PLane := t.chip.pintle.lanes.get l
    let sio (t : State) : Prop := t.mem = s.mem ∧ t.chip.dev = s.chip.dev ∧ t.chip.bridges = s.chip.bridges ∧
      ∀ j, t.chip.lane j = { s.chip.lane j with sio := { (s.chip.lane j).sio with enabled := (t.chip.lane j).sio.enabled } }
    let other (t : State) : Prop := t.mem = s.mem ∧ t.chip.dev = s.chip.dev ∧ t.chip.bridges = s.chip.bridges ∧ t.chip.lanes = s.chip.lanes ∧
      ∀ j, j ≠ l → t.chip.pintle.lanes.get j = s.chip.pintle.lanes.get j
    (∀ (b : List Byte) (x : ClaimVec), claimVecOf b = some x → ∃ t, exec (.claimVector l (.other b)) s = .next t ∧ sio t ∧
      (d t).next = some x ∧ (d t).presents = true ∧ t.chip.pintle.holder = s.chip.pintle.holder ∧ t.chip.pintle.outs = s.chip.pintle.outs) ∧
    (∃ t, exec (.claimVectorStale l) s = .next t ∧ sio t ∧ (d t).presents = false ∧ (d t).enable = false ∧ t.chip.pintle.holder = s.chip.pintle.holder) ∧
    (∀ (b : List Byte) (x : StatusPacket), statusPacketOf l b = some x → ∃ t, exec (.dbStatusPacket l (.other b)) s = .next t ∧ other t ∧
      (d t).status = some x ∧ t.chip.pintle.holder = s.chip.pintle.holder ∧
      (s.chip.pintle.fenced = false → s.chip.pintle.holder = some l → s.chip.pintle.accepted = true → t.chip.pintle.armed = !x.disarm)) ∧
    (∀ b : List Byte, tableIntact b = true → ∃ t, exec (.deadboltTable l (.other b)) s = .next t ∧ other t ∧
      t.chip.pintle.table = (if s.chip.pintle.holder = some l then some b else s.chip.pintle.table)) ∧
    (∀ (k : Fin 8) (b : List Byte) (i n : Nat) (f : Fallback), s.chip.pintle.fenced = false → fallbackOf l k.val b = some (i, n, f) →
      ∃ t, exec (.fallbackPacket l k (.other b)) s = .next t ∧ other t ∧ t.chip.pintle.outs = s.chip.pintle.outs ∧ (d t).heard = true ∧
        (s.chip.namesNext k.val i n = true → s.chip.pintle.holder = some l →
          (d t).coming = modNth (d s).coming k.val (fun _ => some f) ∧ (d t).packets = (d s).packets) ∧
        (s.chip.namesNext k.val i n = true → s.chip.pintle.holder ≠ some l →
          (d t).coming = (d s).coming ∧ (d t).packets = modNth (d s).packets k.val (fun _ => some (i, f))) ∧
        (s.chip.namesNext k.val i n = false → (d t).coming = (d s).coming ∧ (d t).packets = (d s).packets)) ∧
    (exec (.claimVector l .corrupt) s = .next s ∧ exec (.dbStatusPacket l .corrupt) s = .next s ∧
      exec (.deadboltTable l .corrupt) s = .next s ∧ (∀ k : Fin 8, exec (.fallbackPacket l k .corrupt) s = .next s) ∧
      ∀ k : Fin 6, exec (.stallParameters k .corrupt) s = .next s) ∧
    (s.chip.sendsPintle l = true → exec (.claimVector l .intact) s = exec (.claimVector l (.other (s.chip.sentClaims l))) s ∧
      (∃ t, exec (.dbStatusPacket l .intact) s = .next t ∧ other t ∧ (d t).status = some (s.chip.sentStatus l)) ∧
      exec (.deadboltTable l .intact) s = exec (.deadboltTable l (.other s.chip.dbTable)) s ∧
      (∀ k : Fin 8, exec (.fallbackPacket l k .intact) s = exec (.fallbackPacket l k (.other (s.chip.sentFallback l k.val))) s) ∧
      ∀ k : Fin 6, s.chip.pintle.holder = some l →
        exec (.stallParameters k .intact) s = exec (.stallParameters k (.other (s.chip.sentStall l k.val))) s) ∧
    (∀ (k : Fin 6) (x : StallPar), s.chip.pintle.fenced = false → s.chip.pintle.holder = some l →
      exec (.stallParameters k (.other x)) s = .next (s.onChip (fun c => (c.modPLane l (fun p => { p with heard := true })).modPOut k.val (fun o =>
        { o with stallPar := some x })))) ∧
    (∀ (k : Fin 6) (q : Rx StallPar), s.chip.pintle.holder = none → exec (.stallParameters k q) s = .next s) ∧
    ((d s).presents = false → ∃ t, exec (.enableLineFall l) s = .next t ∧ sio t ∧
      (t.chip.lane l).sio.enabled = false ∧ (d t).enable = false ∧ t.chip.pintle.outs = s.chip.pintle.outs)) ∧
  (∀ (l : LaneId) (k i n : Nat) (f : Fallback), k < 8 → i < 2 ^ 16 → n < 2 ^ 32 → f.entries.length = 8 →
    (∀ x ∈ f.entries, -(2 ^ 15) ≤ x ∧ x < 2 ^ 15) → fallbackOf l k (fallbackBytes l k i n f) = some (i, n, f))

/-- Faults of the paths and replicas of a working Pintle die. A line of a period with a valid packet deviates when it has no test mark, is high at a
boundary, shows a pulse that the packet's mode has not, or has an edge more than 100 ns (80 steps) from the packet's time or missing by then (R246). It
is marked for its period and reported once in a control period; one that does not deviate changes nothing (R246). A path that has failed, by silence
for two control periods or by a failed line without valid packets, is reported once (R248). A replica that disagrees is rewritten, with a report; one
that disagrees again within 1 s is fenced; with one fenced a further disagreement fences the die, and every gate of it is off (R17). -/
def Obligations.PintleFaultsAreReported : Prop :=
  ∀ (s : State), s.chip.pintle.powered = true → s.chip.pintle.fenced = false →
    (∀ (g : Fin 30) (h : LaneId) (i : Nat) (f : Fallback) (x : LinePattern) (at_ : Nat),
      let k := targetOut (targetOf (.pintle g))
      let j := g.val - (targetLegs (targetOf (.pintle g))).1
      let edge (n : Nat) : Nat := 8 * (nth f.entries (2 * j + n) 0).toNat
      let off (n : Nat) (e : Option Nat) : Bool := match e with
        | some y => decide (80 < Sys2Proof.Machine.dist y (edge n))
        | none => decide (edge n + 80 < at_)
      let deviates : Prop := x.mark = false ∨ x.highAtBoundary = true ∨
        (legMode f.modes j = 1 ∧ edge 0 < edge 1 ∧ (off 0 x.rise = true ∨ off 1 x.fall = true)) ∨
        (¬(legMode f.modes j = 1 ∧ edge 0 < edge 1) ∧ (x.rise.isSome = true ∨ x.fall.isSome = true))
      (nth s.chip.pintle.outs k {}).by_ = some h → (nth s.chip.pintle.outs k {}).hasPacket = true →
      nth (s.chip.pintle.lanes.get h).packets k none = some (i, f) →
      (¬deviates → exec (.lineDeviation g x at_) s = .next s) ∧
      (deviates → (s.chip.pintle.lanes.get h).failedLines.contains g.val = false → (s.chip.pintle.lanes.get h).devNow.contains g.val = false →
        ∃ t, exec (.lineDeviation g x at_) s = .next t ∧ t.mem = s.mem ∧ t.chip.dev = s.chip.dev ∧ t.chip.lanes = s.chip.lanes ∧
          (t.chip.pintle.lanes.get h).devNow = (s.chip.pintle.lanes.get h).devNow ++ [g.val] ∧ (t.chip.pintle.lanes.get h).devRecorded = true ∧
          t.chip.pintle.faults = s.chip.pintle.faults ++ (if (s.chip.pintle.lanes.get h).devRecorded then [] else [(0x110B, 0x03, h.idx)]) ∧
          t.chip.pintle.outs = s.chip.pintle.outs)) ∧
    (∀ l : LaneId, (((s.chip.pintle.lanes.get l).pathFailed = true ∨
        (s.chip.pintle.lanes.get l).unheard < 2 ∧ (s.chip.pintle.lanes.get l).failedLines = []) → exec (.pathFailed l) s = .next s) ∧
      ((s.chip.pintle.lanes.get l).pathFailed = false → (2 ≤ (s.chip.pintle.lanes.get l).unheard ∨
          ∃ g : Fin 30, g.val ∈ (s.chip.pintle.lanes.get l).failedLines ∧
            s.chip.parN Par.gdrLineLimit ≤ nth (s.chip.pintle.lanes.get l).missing (targetOut (targetOf (.pintle g))) 0) →
        exec (.pathFailed l) s = .next (s.onChip (fun c => c.modPintle (fun p => { p with
          lanes := p.lanes.set l { p.lanes.get l with pathFailed := true }, faults := p.faults ++ [(0x110D, 0x03, l.idx)] }))))) ∧
    (∀ (r : Fin 3) (k : LaneId), LaneId.ofIdx r.val = some k → s.chip.pintle.replicaFenced.get k = false →
      (s.chip.pintle.replicaFenced.toList.any id = false →
        (s.chip.pintle.replicaNt.get k = none → exec (.replicaDisagree r) s = .next (s.onChip (fun c => c.modPintle (fun p => { p with
          replicaNt := p.replicaNt.set k (some (s.chip.legNt (.pintle 0))), faults := p.faults ++ [(0x0202, 0x04, r.val)] })))) ∧
        (∀ t0, s.chip.pintle.replicaNt.get k = some t0 → s.chip.legNt (.pintle 0) ≤ t0 + 1000000000 →
          exec (.replicaDisagree r) s = .next (s.onChip (fun c => c.modPintle (fun p => { p with
            replicaNt := p.replicaNt.set k (some (s.chip.legNt (.pintle 0))), replicaFenced := p.replicaFenced.set k true
            faults := p.faults ++ [(0x0203, 0x04, r.val)] }))))) ∧
      (s.chip.pintle.replicaFenced.toList.any id = true → ∃ t, exec (.replicaDisagree r) s = .next t ∧ t.mem = s.mem ∧
        t.chip.pintle.fenced = true ∧ t.chip.pintle.armed = false ∧ t.chip.pintle.holding = false ∧
        (∀ o ∈ t.chip.pintle.outs, o.driven = {}) ∧ (∀ l : LaneId, (t.chip.pintle.lanes.get l).enable = false) ∧
        (0x0204, 0x05, 0) ∈ t.chip.pintle.faults))

/-- A PWM boundary of a claimed output in a die that works and that the Deadbolt does not hold. A fenced or unpowered die does nothing. A period of
the holder that passes becomes the last passed pattern, and the holder's packet for the coming period is driven, or nothing on a fenced output (R33,
R235, R245); a period that fails costs the holder every claimed output: it is barred and reported, the best remaining claim holds, and every output
repeats until that one's pattern comes (R32 to R34). At the limit of a gap without a valid claim every gate is off, or the Deadbolt takes the outputs
where it is armed (R36); with one, the coming period is driven as one without a packet (R34). No lane and no agreed data change but the age of the
claim.
The arbiter's vote takes a value that two presenting lanes agree on, and else the lowest that any gives (R30); the holder found among the
valid claims is the lane with the strictly highest, and none when the highest is shared or none is valid (R31, R32). -/
def Obligations.PwmBoundariesAndVotes : Prop :=
  (∀ (s : State) (k : Fin 8) (lines : List LinePattern) (x : CoilPeriod) (h : LaneId),
     let o := nth s.chip.pintle.outs k.val {}
     let coming := nth (s.chip.pintle.lanes.get h).coming k.val none
     ((s.chip.pintle.powered = false ∨ s.chip.pintle.fenced = true) → exec (.pwmBoundary k lines x) s = .next s ∧
       exec (.claimGapLimit k) s = .next s) ∧
     (s.chip.pintle.powered = true → s.chip.pintle.fenced = false → s.chip.pintle.holding = false → s.chip.pintle.holder = some h →
       o.by_ = some h →
       (∀ q, s.chip.periodPasses h k.val lines = true → (o.hasPacket = true ∨ (s.chip.pintle.lanes.get h).devNow = []) → coming = some q →
         ∃ t y, exec (.pwmBoundary k lines x) s = .next t ∧ t.mem = s.mem ∧ t.chip.lanes = s.chip.lanes ∧ t.chip.dev = s.chip.dev ∧
           t.chip.pintle.holder = some h ∧ t.chip.pintle.outs = modNth s.chip.pintle.outs k.val (fun _ => y) ∧ y.lastPassed = o.driven ∧
           y.driven = (if o.fenced then {} else q) ∧ y.hasPacket = true ∧ y.by_ = some h ∧ y.gap = false) ∧
       (s.chip.periodPasses h k.val lines = false → o.limit = false → s.chip.outPwm k.val ≤ 100000 → ∃ t, exec (.pwmBoundary k lines x) s = .next t ∧
         t.mem = s.mem ∧ t.chip.lanes = s.chip.lanes ∧ t.chip.dev = { s.chip.dev with claimAge := 0 } ∧ (t.chip.pintle.lanes.get h).barred = true ∧
         t.chip.pintle.holder ≠ some h ∧ t.chip.pintle.holder = t.chip.pintle.best ∧ (0x0201, 0x01, h.idx) ∈ t.chip.pintle.faults ∧
         (∀ j, j < s.chip.pintle.outs.length → j ≠ k.val → (nth t.chip.pintle.outs j {}).gap = true ∧
           (nth t.chip.pintle.outs j {}).driven = (nth s.chip.pintle.outs j {}).driven) ∧
         (t.chip.pintle.holder = none → (nth t.chip.pintle.outs k.val {}).driven = if o.fenced then {} else o.lastPassed))) ∧
     (s.chip.pintle.powered = true → s.chip.pintle.fenced = false → s.chip.pintle.holding = false →
       ((o.gap = false ∨ s.chip.pintle.holder = some h ∧ coming ≠ none) → exec (.claimGapLimit k) s = .next s) ∧
       (o.gap = true → s.chip.pintle.holder = none → s.chip.pintle.armed = false → ∃ t, exec (.claimGapLimit k) s = .next t ∧ t.mem = s.mem ∧
         t.chip.lanes = s.chip.lanes ∧ (∀ x ∈ t.chip.pintle.outs, x.driven = {} ∧ x.gap = false)) ∧
       (o.gap = true → s.chip.pintle.holder = none → s.chip.pintle.armed = true → ∃ t, exec (.claimGapLimit k) s = .next t ∧ t.mem = s.mem ∧
         t.chip.dev = s.chip.dev ∧ t.chip.pintle.holding = true ∧ (0x0604, 0x00, 0) ∈ t.chip.pintle.faults ∧
         (∀ l : LaneId, (t.chip.pintle.lanes.get l).enable = false)) ∧
       (o.gap = true → s.chip.pintle.holder = some h → coming = none → ∃ t y, exec (.claimGapLimit k) s = .next t ∧
         t.mem = s.mem ∧ t.chip.lanes = s.chip.lanes ∧ t.chip.pintle.outs = modNth s.chip.pintle.outs k.val (fun _ => y) ∧ y.gap = false ∧
         y.limit = true ∧ y.by_ = some h ∧ (nth (s.chip.pintle.lanes.get h).packets k.val none = none → y.driven = {})))) ∧
  ((∀ x y z : Nat, (x = y → voteOf [x, y, z] = x) ∧ (x = z → voteOf [x, y, z] = x) ∧ (y = z → voteOf [x, y, z] = y) ∧
     (x ≠ y → x ≠ z → y ≠ z → voteOf [x, y, z] = min x (min y z)) ∧ (x ≠ y → voteOf [x, y] = min x y) ∧ voteOf [x] = x) ∧
   (∀ (p : Pintle) (l : LaneId), p.best = some l ↔
     (p.validClaim l = true ∧ ∀ m, m ≠ l → p.validClaim m = true → p.voted.get m < p.voted.get l)))

/-- Operations on actuation and power that pass their checks. AUTH.ACTUATION_ENABLE enables actuation of a commissioned device, whose commissioning no pending
change ends (R96), in RUN with a holder, the network locked
where a schedule is stored, no stop in HOLD and no pad latched (R114). AUTH.ACTUATION_DISABLE turns every output off, discards the launches,
de-energises the steppers, disables the bridges and leaves the running contexts in manual with LOOP.OUT_INIT (R418, R288, R356).
PWR.STATE_SET answers OK for the present state and else begins the transition, disabling actuation in RUN (R472 to R475).
PWR.PADS_RELEASE releases the pads and PWR.WAKE_SOURCE_READ answers the records (R481, R484). -/
def Obligations.ActuationAndPowerOperations : Prop :=
  ∀ (s : State) (r : Req),
    let c := s.chip
    (s.admits attrActuationEnable r = true → r.body = [] → c.commissioned = true → c.lapses = false → c.parN Par.laneStartMin ≤ c.authLanes.length → c.pintle.holder ≠ none →
      c.pintle.holding = false → (c.dev.cfg.sched = [] ∨ c.dev.locked = true) → c.dev.snow.step ≠ 4 → c.pintle.pads = false →
      (∀ l, c.inAuth l = true → (c.lane l).power.pads = false) → c.dev.power.state = .run → c.dev.power.target = none →
      ∃ t, exec (.actuationEnable r) s = .next t ∧ t.plain = (s.onChip (fun c => c.modDev (fun d => { d with actuation := true }))).plain) ∧
    (s.admits attrActuationDisable r = true → r.body = [] →
      (c.dev.actuation = false → ∃ t, exec (.actuationDisable r) s = .next t ∧ t.plain = s.plain) ∧
      (c.dev.actuation = true → ∃ t, exec (.actuationDisable r) s = .next t ∧ t.mem = s.mem ∧ t.chip.pintle = c.pintle ∧
        t.chip.bridges = c.bridges ∧ t.chip.dev.cfg = c.dev.cfg ∧ (∀ l, (t.chip.lane l).plain = (c.lane l).plain) ∧ t.chip.dev.actuation = false ∧
        t.chip.dev.so = Tri.all 0 ∧ (∀ y ∈ t.chip.dev.launches, 14 ≤ y.out) ∧
        (∀ k, k < 6 → (nth t.chip.dev.steppers k {}).energised = false) ∧
        (∀ k, k < 4 → bridgeUsed c.dev.cfg.ws k = true → k < c.dev.motors.length → (nth t.chip.dev.motors k {}).enabled = false ∧
          (nth t.chip.dev.motors k {}).torque = 0) ∧
        (∀ n, n < 64 → c.loopOn n = true → n < c.dev.loops.length → (nth c.dev.loops n {}).mode ≠ .disabled → (nth c.dev.loops n {}).mode ≠ .fenced →
          (nth t.chip.dev.loops n {}).mode = .manual ∧ (nth t.chip.dev.loops n {}).manual = c.par Par.loopOutInit n))) ∧
    (s.admits attrStateSet r = true → r.body.length = 16 → zeroFrom r.body 1 16 = true → fld r.body 0 1 ≤ 4 → c.dev.power.target = none →
      c.dev.standdown = none →
      (PowerState.ofCode (fld r.body 0 1) = c.dev.power.state → ∃ t, exec (.stateSet r) s = .next t ∧ t.plain = s.plain) ∧
      (PowerState.ofCode (fld r.body 0 1) ≠ c.dev.power.state → ∃ t, exec (.stateSet r) s = .next t ∧ t.mem = s.mem ∧
        t.chip.pintle = c.pintle ∧ t.chip.dev.power.target = some (PowerState.ofCode (fld r.body 0 1)) ∧ t.chip.dev.power.step = 1 ∧
        t.chip.dev.power.auto = false ∧ t.chip.dev.power.since = 0 ∧ t.chip.dev.power.state = c.dev.power.state ∧
        (∃ p ∈ t.chip.dev.pend, p.opcode = 0x3210 ∧ p.tag = r.tag ∧ p.link = r.link) ∧
        (c.dev.power.state = .run → t.chip.dev.actuation = false) ∧
        (c.dev.power.state ≠ .run → t.chip.dev.actuation = c.dev.actuation ∧ t.chip.dev.steppers = c.dev.steppers))) ∧
    (s.admits attrPadsRelease r = true → r.body = [] → ∃ t, exec (.padsRelease r) s = .next t ∧ t.mem = s.mem ∧
      t.chip.dev.plain = c.dev.plain ∧ t.chip.pintle = { c.pintle with pads := false } ∧ (∀ l, (t.chip.lane l).plain =
        (if c.inAuth l then { c.lane l with power := { (c.lane l).power with pads := false } } else c.lane l).plain)) ∧
    (∀ k, s.admits attrWakeSourceRead r = true → r.body = [] → r.session = 0 → r.link = some k → hasBit r.flags 0 = false →
      ∃ t p, exec (.wakeSourceRead r) s = .next t ∧ t.plain = s.plain ∧ t.chip.dev.replies = c.dev.replies ++ [(k, p)] ∧ p.status = stOk ∧
        p.payload = r.lanes.flatMap (fun l => (c.lane l).power.record.quad))

/-- Power transitions. The idle timer, where it runs and its request would not be refused, begins the automatic entry (R476). With the drive
domains good RUN is entered, with the reply and the off-state tests due (R475). At M every lane in authority powers down with its gates and
outputs off and its pads latched, and the host links close (R469, R477, R481); each link then goes off, and the last one completes the
entry (R477, R478). Without a transition in that step nothing happens. A domain that is not good in time fences its lane (R470). -/
def Obligations.PowerTransitions : Prop :=
  ∀ s : State,
    let c := s.chip
    (c.dev.power.idleRuns = false → exec .idleTimerExpiry s = .next s) ∧
    (c.dev.power.idleRuns = true → c.dev.power.target = none → c.dev.standdown = none → c.isParked = true → c.dev.snow.step = 0 →
      c.classNow ≤ 2 → c.dev.power.state ≠ PowerState.ofCode (c.parN Par.pwrAutoState) →
      ∃ t, exec .idleTimerExpiry s = .next t ∧ t.mem = s.mem ∧ t.chip.pintle = c.pintle ∧ t.chip.dev.power.idleRuns = false ∧
        t.chip.dev.power.target = some (PowerState.ofCode (c.parN Par.pwrAutoState)) ∧ t.chip.dev.power.auto = true ∧ t.chip.dev.power.step = 1 ∧
        (c.dev.power.state = .run → t.chip.dev.actuation = false)) ∧
    (c.dev.power.target ≠ some .run ∨ c.dev.power.step ≠ 2 → exec .driveDomainsGood s = .next s) ∧
    (∀ p k, c.dev.power.target = some .run → c.dev.power.step = 2 → c.dev.pend = [p] → p.opcode = 0x3210 → p.link = some k → p.suppress = false → ∃ t q, exec .driveDomainsGood s = .next t ∧ t.mem = s.mem ∧ t.chip.dev.power.state = .run ∧
        t.chip.dev.power.left = c.dev.power.state ∧ t.chip.dev.power.target = none ∧ t.chip.dev.pend = [] ∧
        t.chip.dev.replies = c.dev.replies ++ [(k, q)] ∧ q.status = stOk ∧ (p.session = 0 → q.payload = [])) ∧
    (c.dev.power.target = none ∨ c.dev.power.step ≠ 2 ∨ c.dev.power.target = some .run ∨ c.dev.power.target = some .idle →
      exec .pointOfNoReturn s = .next s) ∧
    (∀ p, c.dev.power.target = some p → p.stops = true → c.dev.power.step = 2 → ∃ t, exec .pointOfNoReturn s = .next t ∧ t.mem = s.mem ∧
      t.chip.dev.power.state = p ∧ t.chip.dev.power.left = c.dev.power.state ∧ t.chip.dev.power.step = 3 ∧ t.chip.pintle = { c.pintle with pads := true, drive := false } ∧
      t.chip.dev.replies = [] ∧ (∀ l, c.inAuth l = true → (t.chip.lane l).power.core = false ∧ (t.chip.lane l).power.drive = false ∧
        (t.chip.lane l).power.pads = true ∧ (t.chip.lane l).sio.soOn = 0 ∧ (t.chip.lane l).sio.tpOn = 0 ∧ (t.chip.lane l).clock.running = false ∧
        (∀ e ∈ (t.chip.lane l).engines, e.gates = .off) ∧ (t.chip.bridges.get l).closing = true) ∧
      (∀ l, c.inAuth l = false → t.chip.lane l = c.lane l ∧ t.chip.bridges.get l = c.bridges.get l)) ∧
    (∀ l : LaneId,
      (c.dev.power.step ≠ 3 ∨ c.laneOff l = false → exec (.hlinkOff l) s = .next s) ∧
      (c.dev.power.step = 3 → c.laneOff l = true → ∃ t, exec (.hlinkOff l) s = .next t ∧ (t.chip.bridges.get l).closing = false ∧
        ((∃ k, k ≠ l ∧ c.laneOff k = true ∧ (c.bridges.get k).hlinkOn = true) →
          t.mem = s.mem ∧ t.chip.dev = c.dev ∧ t.chip.lanes = c.lanes ∧ (t.chip.bridges.get l).hlinkOn = false ∧
          ∀ k, k ≠ l → t.chip.bridges.get k = c.bridges.get k) ∧
        ((∀ k, k ≠ l → c.laneOff k = true → (c.bridges.get k).hlinkOn = false) → (∀ k, (c.lane k).power.wake = none) →
          t.mem = s.mem ∧ t.chip.lanes = c.lanes ∧ t.chip.dev.power.state = c.dev.power.state ∧ t.chip.dev.power.target = none ∧
          t.chip.dev.power.step = 0 ∧ (t.chip.bridges.get l).hlinkOn = false)) ∧
      (c.dev.power.target = none → (c.bridges.get l).waking = false → exec (.domainGoodTimeout l) s = .next s) ∧
      (c.dev.power.target = some .run → c.dev.power.step = 2 → c.inAuth l = true → c.authLanes ≠ [l] → c.dev.power.state = .idle →
        ∃ t, exec (.domainGoodTimeout l) s = .next t ∧ t.mem = s.mem ∧ (t.chip.lane l).boot.fenced = true ∧ (t.chip.lane l).boot.fenceCode = 0x3203 ∧
          ∀ k, k ≠ l → t.chip.lane k = c.lane k))

/-- Waking. A source that the state watches is latched in its lane, the first one kept, while the entry is not complete (R478, R479). Once it
is complete the latched wake begins: the record is written, the host link is on, in GLIDE the lane waits for its domains, and in SLEEP or
OFF it boots with its memory cleared (R480, R483, R484). A Glide sample takes the levels of its first two readings where
they agree on the watched inputs, else of the third, and one without a difference only counts (R482). A lane whose domains are
good again resumes alone while another lane in authority is still down (R483). No other lane changes. -/
def Obligations.WakesAreLatchedThenRun : Prop :=
  ∀ (s : State) (l : LaneId),
    let c := s.chip
    let woken (t : State) (src inst : Nat) : Prop := (∀ k, k ≠ l → t.chip.lane k = c.lane k ∧ t.mem.get k = s.mem.get k) ∧
      t.chip.pintle = c.pintle ∧
      (c.dev.power.target ≠ none → t.mem = s.mem ∧ t.chip.bridges = c.bridges ∧ t.chip.dev = c.dev ∧
        (t.chip.lane l).power.wake = some ((c.lane l).power.wake.getD (src, inst)) ∧ (t.chip.lane l).power.record = (c.lane l).power.record) ∧
      (c.dev.power.target = none → c.laneOff l = true → (c.lane l).power.waking = false → (c.lane l).power.wake = none →
        (t.chip.lane l).power.wake = none ∧ (t.chip.bridges.get l).hlinkOn = true ∧ (t.chip.bridges.get l).waking = true ∧
        (t.chip.lane l).power.record.src = src ∧ (t.chip.lane l).power.record.inst = inst ∧ (t.chip.lane l).power.record.left = c.dev.power.state.code ∧
        (c.dev.power.state = .glide → (t.chip.lane l).power.waking = true ∧ (t.chip.lane l).power.core = false ∧ t.mem = s.mem) ∧
        (c.dev.power.state ≠ .glide → (t.chip.lane l).boot.state = .booting ∧ (t.chip.lane l).boot.powerGood = true ∧
          (t.chip.lane l).power.core = true ∧ (t.mem.get l).sram = [] ∧ (t.mem.get l).staging = []))
    let asleep : Prop := c.laneOff l = true ∧ c.dev.power.target = none
    (∀ w, c.wakeCode l w = none → exec (.wakeEvent l w) s = .next s) ∧
    (∀ w src inst, c.wakeCode l w = some (src, inst) → ∃ t, exec (.wakeEvent l w) s = .next t ∧ woken t src inst) ∧
    (c.laneOff l = true → c.wakeCode l .spi = some (2, l.idx)) ∧
    (∀ n : Fin 8, c.laneOff l = true → c.dev.power.target = none → c.dev.power.state = .sleep → (c.parN Par.pwrGlideSi).testBit n.val = true →
      c.par Par.sioSiSrc n.val = 0 → c.wakeCode l (.si n) = some (3, n.val)) ∧
    (∀ k : LaneId, l ≠ k → c.laneOff l = true → ((c.lane k).power.wake.isSome = true ∨ (c.lane k).power.waking = true ∨
        (c.bridges.get k).waking = true) → ∃ t, exec (.wakeLine l k) s = .next t ∧ woken t 8 k.idx) ∧
    (∀ k : LaneId, l = k ∨ c.laneOff l = false → exec (.wakeLine l k) s = .next s) ∧
    (asleep → c.dev.power.state = .glide ∨ c.dev.power.state = .sleep → c.par Par.pwrWakeTimer ≠ 0 →
      ∃ t, exec (.wakeTimerExpiry l) s = .next t ∧ woken t 6 0) ∧
    (c.par Par.pwrWakeTimer = 0 → exec (.wakeTimerExpiry l) s = .next s) ∧
    (∀ (si : List Mask) (adc fb : List Nat), asleep → c.dev.power.state = .glide → (c.lane l).power.waking = false →
      let watched := BitVec.ofNat 8 (c.parN Par.pwrGlideSi)
      let level := if nth si 0 0 &&& watched = nth si 1 0 &&& watched then nth si 1 0 else nth si 2 0
      (c.glideDiff l level adc fb = none → exec (.glideCycle l si adc fb) s = .next (s.onChip (fun c => c.modLane l (fun n => { n with
        power := { n.power with cycles := satInc (2 ^ 32 - 1) n.power.cycles, glideFb := some fb } })))) ∧
      (∀ src inst, c.glideDiff l level adc fb = some (src, inst) → ∃ t, exec (.glideCycle l si adc fb) s = .next t ∧ woken t src inst)) ∧
    ((c.lane l).power.waking = false → exec (.wakeDone l) s = .next s) ∧
    (c.laneOff l = true → (c.lane l).power.waking = true → c.dev.power.state = .glide →
      (∃ k, k ≠ l ∧ c.inAuth k = true ∧ (c.lane k).power.core = false) → ∃ t, exec (.wakeDone l) s = .next t ∧ t.mem = s.mem ∧
        t.chip.dev = c.dev ∧ (t.chip.lane l).power.core = true ∧ (t.chip.lane l).power.waking = false ∧ (t.chip.lane l).clock.running = true ∧
        ∀ k, k ≠ l → t.chip.lane k = c.lane k) ∧
    (c.laneOff l = true → (c.lane l).power.waking = true → c.dev.power.state = .glide → c.authLanes = [l] →
      ∃ t, exec (.wakeDone l) s = .next t ∧ t.mem = s.mem ∧ t.chip.dev.power.left = .glide ∧
        t.chip.dev.power.state = (if c.par Par.pwrWakeState = 0 then .run else .idle) ∧ (t.chip.lane l).power.core = true)

/-- Memory errors of a lane that works. A correction is counted, and the quad that reaches BIST.ECC_REPEAT writes the repair of its cell to the
log, or does nothing where an entry covers it (R504). An uncorrectable error fences the lane in a critical region and the context hit in a
region of contexts (R294, R500). A core violation fences the lane, and one of its self-test engine freezes the engine (R77). A sector that
fails its verify takes the first free spare sector at once (R504). Reads and fuse requests answer as R513 says; the fusing marks the entries
that were fused and answers with their count (R506). No other lane changes. -/
def Obligations.MemoryErrorsAndRepairs : Prop :=
  ∀ (s : State) (l : LaneId),
    let n := s.chip.lane l
    let alone (t : State) : Prop := t.mem = s.mem ∧ t.chip.dev.plain = s.chip.dev.plain ∧ t.chip.pintle = s.chip.pintle ∧ ∀ k, k ≠ l → t.chip.lane k = s.chip.lane k
    let fencedBy (i : Instr) (code : Nat) : Prop := n.boot.fenced = false → s.chip.authLanes ≠ [l] → ∃ t, exec i s = .next t ∧ alone t ∧
      (t.chip.lane l).boot.fenced = true ∧ (t.chip.lane l).boot.halted = true ∧ (t.chip.lane l).boot.fenceCode = code ∧
      (t.chip.lane l).sio.soOn = 0 ∧ (t.chip.lane l).nvm = n.nvm
    (s.chip.memUp l = true →
      (∀ (region quad : Nat) (cell : FailCell),
        let before := countEcc n.bist.ecc (region, quad)
        (((region, quad), s.chip.parN Par.bistEccRepeat) ∉ before → ∃ t, exec (.eccCorrection l region quad cell) s = .next t ∧ alone t ∧
          (t.chip.lane l).bist = { n.bist with ecc := before } ∧ (t.chip.lane l).nvm = n.nvm) ∧
        (∀ k m, ((region, quad), s.chip.parN Par.bistEccRepeat) ∈ before → n.nvm.repairs.any (fun e => e.covers { cell with region := region }) = false →
          n.nvm.spareFor { cell with region := region } = some k → n.nvm.addEntry { kind := k.1, region := region, bank := placeOf { cell with region := region }, addr := cell.addr, bit := cell.bit, foundBy := 2, spare := k.2 } = some m →
          ∃ t, exec (.eccCorrection l region quad cell) s = .next t ∧ alone t ∧ (t.chip.lane l).nvm = m ∧
            (t.chip.lane l).bist = { n.bist with ecc := before })) ∧
      (∀ (region : Nat) (ctx : Option (Fin 64)), regionCritical region = true → fencedBy (.uncorrectableError l region ctx) 0x010D) ∧
      (∀ (region : Nat) (ctx : Fin 64), 4 ≤ region → region < 12 → n.boot.fenced = false → ctx.val < s.chip.dev.loops.length →
        (nth s.chip.dev.loops ctx.val {}).fenced.get l = false →
        ∃ t, exec (.uncorrectableError l region (some ctx)) s = .next t ∧ t.mem = s.mem ∧ (nth t.chip.dev.loops ctx.val {}).fenced.get l = true ∧
          (8, ctx.val) ∈ (t.chip.lane l).fencedNow ∧ ∀ k, k ≠ l → t.chip.lane k = s.chip.lane k) ∧
      fencedBy (.coreAccessViolation l) 0x010E ∧
      (n.bist.frozen = true → exec (.engineAccessViolation l) s = .next s) ∧
      (n.bist.frozen = false → ∃ t, exec (.engineAccessViolation l) s = .next t ∧ alone t ∧ (t.chip.lane l).bist = { n.bist with frozen := true } ∧
        (0x15, 0) ∈ (t.chip.lane l).fencedNow) ∧
      (∀ (sector : Nat) (i : Nat), sector < 1024 → n.nvm.log.length < 255 → n.nvm.spareFor { region := sectorRegion sector, bank := sector, addr := 4096 * sector } = some (4, i) →
        n.nvm.repairs.any (fun e => e.covers { region := sectorRegion sector, bank := sector, addr := 4096 * sector }) = false →
        ∃ t, exec (.nvmVerifyFail l sector) s = .next t ∧ alone t ∧ (t.chip.lane l).nvm = { n.nvm with log := n.nvm.log ++
          [{ kind := 4, region := sectorRegion sector, bank := sector, addr := 4096 * sector, bit := 0, foundBy := 3, spare := i }] })) ∧
    (s.chip.memUp l = false → ∀ (i : Instr), ((∃ a b c, i = .eccCorrection l a b c) ∨ (∃ a b, i = .uncorrectableError l a b) ∨
      i = .coreAccessViolation l ∨ i = .engineAccessViolation l ∨ ∃ a, i = .nvmVerifyFail l a) → exec i s = .next s) ∧
    (∀ (r : Req) (k : LaneId), s.admits attrResultRead r = true → r.body = [] → r.session = 0 → r.link = some k → hasBit r.flags 0 = false →
      ∃ t p, exec (.resultRead r) s = .next t ∧ t.plain = s.plain ∧ t.chip.dev.replies = s.chip.dev.replies ++ [(k, p)] ∧ p.status = stOk ∧
        p.payload = r.lanes.flatMap s.chip.bistResult) ∧
    (∀ r : Req, s.admits attrFuseRepair r = true → r.body = [] → lanesOf r.mask = [l] → s.chip.dev.actuation = false → n.boot.fenced = true →
      n.boot.fenceCode = 0x010A → ∃ t, exec (.fuseRepair r) s = .next t ∧ (t.chip.lane l).bist = { n.bist with fusing := true } ∧
        (∃ p ∈ t.chip.dev.pend, p.opcode = 0x3412 ∧ p.arg = l.idx ∧ p.tag = r.tag) ∧ t.mem = s.mem ∧ t.chip.pintle = s.chip.pintle ∧
        ∀ k, k ≠ l → (t.chip.lane k).plain = (s.chip.lane k).plain) ∧
    (n.bist.fusing = false → ∀ failed, exec (.fuseRepairDone l failed) s = .next s) ∧
    (∀ (p : PendOp) (k : LaneId) (failed : Nat), n.bist.fusing = true → s.chip.dev.pend = [p] → p.opcode = 0x3412 → p.arg = l.idx → p.link = some k → p.suppress = false → ∃ t q, exec (.fuseRepairDone l failed) s = .next t ∧ t.mem = s.mem ∧
        (t.chip.lane l).bist.fusing = false ∧ (t.chip.lane l).nvm.log.length = n.nvm.log.length ∧
        (t.chip.lane l).nvm.fuses.length = n.nvm.fuses.length + ((n.nvm.unfused.take (48 - n.nvm.fuses.length)).length - failed) ∧
        t.chip.dev.pend = [] ∧ t.chip.dev.replies = s.chip.dev.replies ++ [(k, q)] ∧ q.status = stOk ∧
        (p.session = 0 → fld q.payload 0 1 = ((n.nvm.unfused.take (48 - n.nvm.fuses.length)).length - failed) % 256))

/-- Stand-down. A request for one lane whose conditions hold marks the lane, and the reply waits (R513); a due lane that waits too long is
reported once (R507). A matching signature ends logic BIST, a first mismatch repeats it and a second fences the lane (R498); a run without
the interlock's signals is refused and counted (R497). Memory BIST without failing cells clears the region fences and goes on to
re-initialisation (R499, R505, R508); a failing cell that no entry covers takes a free spare, with an entry of the log and the action "repaired"
among the results (R504, R513). A lane that boots, or is re-initialised, with a log that failed its check writes it new from its fuses and these
results, with fault 0x3408 (R503). Re-initialisation clears the memory of the lane in stand-down; elsewhere nothing happens. No other lane changes. -/
def Obligations.StandDownPhases : Prop :=
  ∀ (s : State) (l : LaneId),
    let n := s.chip.lane l
    let alone (t : State) : Prop := t.mem = s.mem ∧ t.chip.dev.plain = s.chip.dev.plain ∧ t.chip.pintle = s.chip.pintle ∧ ∀ k, k ≠ l → t.chip.lane k = s.chip.lane k
    (∀ r : Req, s.admits attrStanddownNow r = true → r.body = [] → lanesOf r.mask = [l] → s.chip.dev.standdown = none → s.chip.sdAllowed l = true →
      ∃ t, exec (.standdownNow r) s = .next t ∧ t.mem = s.mem ∧ t.chip.pintle = s.chip.pintle ∧
        (t.chip.lane l).bist = { n.bist with requested := true } ∧ (∃ p ∈ t.chip.dev.pend, p.opcode = 0x3410 ∧ p.arg = l.idx ∧ p.tag = r.tag) ∧
        ∀ k, k ≠ l → (t.chip.lane k).plain = (s.chip.lane k).plain) ∧
    (s.chip.sdDue l = true → s.chip.dev.standdown ≠ some l →
      (n.bist.deferred = true → exec (.standdownDefer l) s = .next s) ∧
      (n.bist.deferred = false → ∃ t, exec (.standdownDefer l) s = .next t ∧
        t.plain = (s.onChip (fun c => c.modLane l (fun m => { m with bist := { m.bist with deferred := true } }))).plain)) ∧
    (s.chip.sdDue l = false → exec (.standdownDefer l) s = .next s) ∧
    (∀ (ok : Bool) (sig : Nat), (n.bist.frozen = true ∨ s.chip.memUp l = false) → exec (.logicBistDone l ok sig) s = .next s) ∧
    (s.chip.memUp l = true → n.bist.frozen = false → n.bist.phase = 2 → ∀ sig : Nat,
      (exec (.logicBistDone l true sig) s = .next (s.onChip (fun c => c.modLane l (fun m => { m with bist := { m.bist with
        signature := sig % 2 ^ 128, phase := 3, lastPhase := 3 } })))) ∧
      (n.bist.repeated = false → exec (.logicBistDone l false sig) s = .next (s.onChip (fun c => c.modLane l (fun m => { m with
        bist := { m.bist with signature := sig % 2 ^ 128, repeated := true } })))) ∧
      (n.bist.repeated = true → n.boot.readmitting = false → s.chip.authLanes ≠ [l] → s.chip.dev.standdown = none → ∃ t, exec (.logicBistDone l false sig) s = .next t ∧
        alone t ∧ (t.chip.lane l).boot.fenced = true ∧ (t.chip.lane l).boot.fenceCode = 0x3405 ∧ (t.chip.lane l).bist.outcome = 4)) ∧
    (∀ (ok : Bool) (sig : Nat), s.chip.memUp l = true → n.bist.frozen = false → n.bist.phase = 1 → ∃ t, exec (.logicBistDone l ok sig) s = .next t ∧
      alone t ∧ (t.chip.lane l).bist = { n.bist with refused := n.bist.refused + 1 }) ∧
    (∀ cells, n.nvm.logOk = true → n.bist.phase ≠ 3 → exec (.memoryBistDone l cells) s = .next s) ∧
    (s.chip.memUp l = true → n.bist.frozen = false → n.bist.phase = 3 → n.boot.fenced = false → n.boot.readmitting = false →
      ∃ t, exec (.memoryBistDone l []) s = .next t ∧ alone t ∧ (t.chip.lane l).nvm.log = n.nvm.log.filter (fun e => decide (e.kind ≠ 5)) ∧
        (t.chip.lane l).bist = { n.bist with cells := [], phase := 4, lastPhase := 4 }) ∧
    (∀ x k m, let kept := { n.nvm with log := n.nvm.log.filter (fun e => decide (e.kind ≠ 5) || decide (x.region = e.region)) };
      s.chip.memUp l = true → n.bist.frozen = false → n.bist.phase = 3 → n.boot.readmitting = false → kept.repairs.any (fun e => e.covers x) = false →
      kept.spareFor x = some k → kept.addEntry { kind := k.1, region := x.region, bank := placeOf x, addr := x.addr, bit := x.bit, foundBy := 1, spare := k.2 } = some m →
      ∃ t, exec (.memoryBistDone l [x]) s = .next t ∧ alone t ∧ (t.chip.lane l).nvm = m ∧
        (t.chip.lane l).bist = { n.bist with cells := [(x, 0)], phase := 4, lastPhase := 4 }) ∧
    (n.boot.powerGood = true → n.power.core = true → n.boot.fenced = false → n.nvm.logOk = false →
      (n.boot.state = .booting ∧ n.bist.phase = 0 ∨ n.bist.phase = 4) → ∃ t, exec (.memoryBistDone l []) s = .next t ∧ alone t ∧
        (t.chip.lane l).nvm = { n.nvm with log := n.nvm.fuses, logOk := true } ∧ (t.chip.lane l).bist = n.bist ∧
        (t.chip.lane l).fault = (n.fault.take { code := 0x3408, cls := faultClass 0x3408, utype := 0x01, inst := l.idx, lane := l.idx, nt := n.clock.nt }).1) ∧
    (s.chip.dev.standdown ≠ some l → exec (.reinitDone l) s = .next s) ∧
    (s.chip.dev.standdown = some l → n.bist.phase = 4 → s.chip.memUp l = true → n.nvm.logOk = true →
      (∀ e ∈ n.nvm.log, e.kind = 5 → regionCritical e.region = false) → ∃ t, exec (.reinitDone l) s = .next t ∧
        (t.mem.get l).sram = [] ∧ (t.mem.get l).staging = [] ∧ (t.mem.get l).bank0 = (s.mem.get l).bank0 ∧ (t.mem.get l).bank1 = (s.mem.get l).bank1 ∧
        (t.chip.lane l).bist.regions = regionsOf n.nvm.log ∧ ∀ k, k ≠ l → t.mem.get k = s.mem.get k ∧ (t.chip.lane k).plain = (s.chip.lane k).plain)

/-- Parameters in force. A read of named parameters answers their values (R75, R82). A write of one entry that passes its checks takes effect by
its class: a boundary value goes to its shadow and the value in force stays, the others change the value in force, and a commissioning value
recomputes the check value over the canonical image (R86, R94); where FBK.HYST (0x1303) changes, the reported count starts from the raw one (R173). A write with a failing entry changes nothing, and its reply names the first
one (R552). CFG.CHECK_READ answers the check value, and whether the device is commissioned (R98). -/
def Obligations.ParametersReadAndWrite : Prop :=
  ∀ (s : State) (r : Req) (k : LaneId), r.link = some k → hasBit r.flags 0 = false →
    let g := s.chip.dev.cfg
    (∀ (b : Block) (p : List Byte), s.admits (attrParamRead b) r = true → quadForm r.body = true → s.chip.readQuads (quadsOf r.body) = some p →
      ∃ t q, exec (.paramRead b r) s = .next t ∧ t.plain = s.plain ∧ t.chip.dev.replies = s.chip.dev.replies ++ [(k, q)] ∧ q.status = stOk ∧
        (r.session = 0 → q.payload = p)) ∧
    (∀ (b : Block) (p : PInfo) (i : Nat) (x : Int), s.admits (attrParamWrite b) r = true → r.body.length = 16 → entryOf r.body = some (p, i, x) →
      s.chip.entryFails { g.view with ws := wsApply g.view.ws [(parKey p.id i, x)] } r.session r.body = [] →
      ∃ t, exec (.paramWrite b r) s = .next t ∧ t.mem = s.mem ∧ t.chip.pintle = s.chip.pintle ∧ t.chip.dev.cfg.sched = g.sched ∧
        (p.cls = .boundary → t.plain = (s.onChip (fun c => c.modCfg (fun g => { g with
          shadow := g.shadow.filter (fun y => y.1 != parKey p.id i) ++ [(parKey p.id i, x)] }))).plain) ∧
        (p.cls = .anyTime ∨ p.cls = .idle ∧ p.id ≠ 0x1303 → t.plain = (s.onChip (fun c => c.modCfg (fun g => { g with
          ws := wsSet g.ws (parKey p.id i) x (p.dfltOf i) }))).plain) ∧
        (p.id = 0x1303 → t.chip.dev.cfg = { g with ws := wsSet g.ws (parKey p.id i) x (p.dfltOf i) } ∧
          (s.chip.par p i ≠ x → ∀ l, (t.chip.lane l).fb = modNth (s.chip.lane l).fb i (fun y => { y with e' := y.e }))) ∧
        (p.cls = .commissioning → t.chip.dev.cfg.ws = wsSet g.ws (parKey p.id i) x (p.dfltOf i) ∧ t.chip.dev.cfg.shadow = g.shadow ∧
          t.chip.dev.cfg.check = checkValue (wsSet g.ws (parKey p.id i) x (p.dfltOf i)) g.sched)) ∧
    (∀ (b : Block) (n st : Nat) (q : List Byte), s.admits (attrParamWrite b) r = true → quadForm r.body = true → st ≠ stOk →
      s.chip.firstFail { g.view with ws := wsApply g.view.ws (writeKeys (quadsOf r.body)) } r.session 0 (quadsOf r.body) = some (n, st, q) →
      ∃ t p, exec (.paramWrite b r) s = .next t ∧ t.plain = s.plain ∧ t.chip.dev.replies = s.chip.dev.replies ++ [(k, p)] ∧ p.status = st ∧
        (r.session = 0 → p.payload = failQuad n q)) ∧
    (s.admits attrCheckRead r = true → r.body = [] → ∃ t p, exec (.checkRead r) s = .next t ∧ t.plain = s.plain ∧
      t.chip.dev.replies = s.chip.dev.replies ++ [(k, p)] ∧ p.status = stOk ∧ (r.session = 0 → fld p.payload 0 8 = g.check % 2 ^ 64) ∧
      (r.session = 0 → fld p.payload 8 1 = (if s.chip.commissioned then 1 else 0)))

/-- Images and stores. CFG.IMAGE_WRITE puts its data quads into the staging image of every lane in authority (R98). CFG.STORE of the working set
takes it as a snapshot and invalidates the copy that each lane in authority will write; a staged image that is not acceptable is refused and
nothing changes (R84, R89, R90). A lane in authority whose sectors read back commits its copy, and one that fails, or whose copy lies in a fenced
region, ends the store with NO_RESOURCE (R90, R500). A confirmation of the check value, or a withdrawal, which writes 0, waits for the slot writes; the last lane in authority gives the one waiting operation its reply (R95).
Firmware. CFG.FW_WRITE puts its data quads into the bank that each lane in authority does not run, and that bank no longer holds the delivered
firmware; the write is in progress until it ends (R89, R100). CFG.FW_ACTIVATE in D0 begins the checks (R100); at their end, with every lane's package good
every lane marks its bank for the next boot, and with one that fails, or whose bank lies in a fenced region, none does (R100, R500). -/
def Obligations.StoresConfirmationsAndFirmware : Prop :=
  (∀ (s : State) (r : Req) (k : LaneId),
     (s.admits attrImageWrite r = true → blockFails r.body 262144 = [] → s.chip.dev.actuation = false → s.chip.dev.cfg.busy = false →
       ∃ t, exec (.imageWrite r) s = .next t ∧ t.chip.plain = s.chip.plain ∧ ∀ l, t.mem.get l = (if s.chip.inAuth l then
         { s.mem.get l with staging := cellWrite (s.mem.get l).staging (fld r.body 0 4) (r.body.drop 16) } else s.mem.get l)) ∧
     (s.admits attrCfgStore r = true → r.body.length = 16 → zeroFrom r.body 1 16 = true → s.chip.dev.actuation = false → s.chip.dev.cfg.busy = false →
       s.chip.dev.standdown = none →
       (fld r.body 0 1 = 0 → ∃ t, exec (.cfgStore r) s = .next t ∧ t.mem = s.mem ∧
         t.chip.dev.cfg = { s.chip.dev.cfg with storing := some (0, s.chip.dev.cfg.image) } ∧
         t.chip.dev.pend.length = s.chip.dev.pend.length + 1 ∧ (∀ l, s.chip.inAuth l = true → (t.chip.lane l).work.storing = true ∧
           (t.chip.lane l).nvm = (s.chip.lane l).nvm.setCopy (s.chip.lane l).nvm.nextCopy { empty := false, wellFormed := false }) ∧
         (∀ l, s.chip.inAuth l = false → (t.chip.lane l).plain = (s.chip.lane l).plain)) ∧
       (fld r.body 0 1 = 1 → s.staged.acceptable = false → r.link = some k → ∃ t p, exec (.cfgStore r) s = .next t ∧
         t.plain = s.plain ∧ t.chip.dev.replies = s.chip.dev.replies ++ [(k, p)] ∧ p.status = stImage)) ∧
     (∀ (l : LaneId) (ok : Bool),
       ((s.chip.dev.cfg.storing = none ∨ (s.chip.lane l).work.storing = false ∨ (s.chip.lane l).work.committed = true ∨
         s.chip.inAuth l = false) →
         exec (.storeCommit l ok) s = .next s) ∧
       (∀ x, s.chip.dev.cfg.storing = some x → (s.chip.lane l).work.storing = true → (s.chip.lane l).work.committed = false → s.chip.inAuth l = true →
         (ok = true → (s.chip.lane l).bist.regions.contains (22 + (s.chip.lane l).nvm.nextCopy) = false → ∃ t g, exec (.storeCommit l ok) s = .next t ∧
           t = s.onChip (fun c => c.modLane l (fun n => { n with
             work := { n.work with committed := true }, nvm := n.nvm.setCopy n.nvm.nextCopy g })) ∧
           g.wellFormed = true ∧ g.entries = x.2.entries ∧ g.sched = x.2.sched ∧ g.check = x.2.check ∧ g.seq = (s.chip.lane l).nvm.nextSeq) ∧
         (∀ p j, (ok = false ∨ (s.chip.lane l).bist.regions.contains (22 + (s.chip.lane l).nvm.nextCopy) = true) → s.chip.dev.pend = [p] → p.opcode = 0x3111 → p.link = some j → ∃ t q, exec (.storeCommit l ok) s = .next t ∧
           t.mem = s.mem ∧ t.chip.dev.cfg.storing = none ∧ t.chip.dev.pend = [] ∧ t.chip.dev.replies = s.chip.dev.replies ++ [(j, q)] ∧
           q.status = stNoResource ∧ (∀ l, (t.chip.lane l).work.storing = false ∧ (t.chip.lane l).nvm = (s.chip.lane l).nvm)))) ∧
     (s.admits attrCommissionConfirm r = true → r.body.length = 16 → fld r.body 8 1 ≤ 1 → zeroFrom r.body 9 16 = true → s.chip.dev.actuation = false →
       (fld r.body 8 1 = 0 → fld r.body 0 8 = s.chip.dev.cfg.check) → s.chip.dev.standdown = none → s.chip.dev.cfg.confirm = none →
       ∃ t, exec (.commissionConfirm r) s = .next t ∧ t.mem = s.mem ∧ t.chip.dev.cfg = { s.chip.dev.cfg with
           confirm := some (if fld r.body 8 1 = 0 then fld r.body 0 8 else 0) } ∧
         t.chip.dev.replies = s.chip.dev.replies ∧ t.chip.dev.pend.length = s.chip.dev.pend.length + 1 ∧
         ∀ l, (t.chip.lane l).plain = (if s.chip.inAuth l then { s.chip.lane l with work := { (s.chip.lane l).work with confirming := true } }
           else s.chip.lane l).plain) ∧
     (s.chip.dev.cfg.confirm = none → exec (.commissionWriteDone k) s = .next s) ∧
     (∀ v, s.chip.dev.cfg.confirm = some v → (s.chip.lane k).work.confirming = true →
       ((∃ j, j ≠ k ∧ s.chip.inAuth j = true ∧ (s.chip.lane j).work.confirming = true) → exec (.commissionWriteDone k) s = .next (s.onChip (fun c =>
         c.modLane k (fun n => { n with work := { n.work with confirming := false }, nvm := n.nvm.confirmSlot v })))) ∧
       (∀ p j, (∀ i, i ≠ k → (s.chip.lane i).work.confirming = false) → s.chip.dev.pend = [p] → p.opcode = 0x3113 → p.link = some j →
         p.suppress = false → ∃ t q, exec (.commissionWriteDone k) s = .next t ∧ t.mem = s.mem ∧ t.chip.dev.cfg = { s.chip.dev.cfg with confirm := none } ∧
           (t.chip.lane k).nvm = (s.chip.lane k).nvm.confirmSlot v ∧ t.chip.dev.pend = [] ∧ t.chip.dev.replies = s.chip.dev.replies ++ [(j, q)] ∧
           q.status = stOk ∧ ∀ i, i ≠ k → t.chip.lane i = s.chip.lane i))) ∧
  (∀ (s : State) (r : Req),
     (s.admits attrFwWrite r = true → blockFails r.body 1572864 = [] → s.chip.dev.cfg.busy = false → ∃ t, exec (.fwWrite r) s = .next t ∧
       t.chip.dev.cfg = { s.chip.dev.cfg with fwBusy := true } ∧ (∀ l, s.chip.inAuth l = true →
         t.mem.get l = (s.mem.get l).writeBank (s.chip.lane l).nvm.idleBank (fld r.body 0 4) (r.body.drop 16) ∧
         ((t.chip.lane l).nvm.bankState (s.chip.lane l).nvm.idleBank).delivered = false ∧ (t.chip.lane l).nvm.booted = (s.chip.lane l).nvm.booted) ∧
       (∀ l, s.chip.inAuth l = false → t.mem.get l = s.mem.get l ∧ (t.chip.lane l).plain = (s.chip.lane l).plain)) ∧
     exec .fwWriteDone s = .next (s.onChip (fun c => c.modCfg (fun g => { g with fwBusy := false }))) ∧
     (s.admits attrFwActivate r = true → r.body = [] → s.chip.dev.cls = some 0 → s.chip.dev.actuation = false → s.chip.dev.standdown = none →
       s.chip.dev.cfg.fwActivating = false → ∃ t, exec (.fwActivate r) s = .next t ∧ t.mem = s.mem ∧
         t.chip.dev.cfg = { s.chip.dev.cfg with fwActivating := true } ∧ t.chip.dev.pend.length = s.chip.dev.pend.length + 1 ∧
         ∀ l, (t.chip.lane l).plain = (s.chip.lane l).plain) ∧
     (s.chip.dev.cfg.fwActivating = false → exec .fwActivateDone s = .next s) ∧
     (∀ p k, s.chip.dev.cfg.fwActivating = true → s.chip.dev.pend = [p] → p.opcode = 0x3115 → p.link = some k → p.suppress = false →
       let idle (l : LaneId) : Nat := (s.chip.lane l).nvm.idleBank
       let bank (l : LaneId) : List Host.Cell := (s.mem.get l).bank (idle l)
       let passes (l : LaneId) : Bool := if ((s.chip.lane l).nvm.bankState (idle l)).delivered then
           !(hasBit (s.chip.lane l).nvm.revoked 0) && decide ((s.chip.lane l).nvm.minSecurity ≤ ((s.chip.lane l).nvm.bankState (idle l)).security)
         else packageOk (s.chip.lane l).nvm (bank l)
       let fenced := LaneId.all.any (fun l => (s.chip.lane l).bist.regions.contains (20 + idle l))
       let good := !fenced && LaneId.all.all (fun l => s.chip.inAuth l && passes l)
       ∃ t q, exec .fwActivateDone s = .next t ∧ t.mem = s.mem ∧ t.chip.dev.cfg = { s.chip.dev.cfg with fwActivating := false } ∧ t.chip.dev.pend = [] ∧
         t.chip.dev.replies = s.chip.dev.replies ++ [(k, q)] ∧ q.status = (if fenced then stNoResource else if good then stOk else stSignature) ∧
         (good = false → t.chip.lanes = s.chip.lanes) ∧
         (good = true → ∀ l : LaneId, (t.chip.lane l).nvm.marked = idle l ∧ (t.chip.lane l).nvm.booted = (s.chip.lane l).nvm.booted ∧
           (t.chip.lane l).nvm.bankState (idle l) = (if ((s.chip.lane l).nvm.bankState (idle l)).delivered then (s.chip.lane l).nvm.bankState (idle l)
             else { version := ofLe (cellRead (bank l) 4 4), security := ofLe (cellRead (bank l) 8 4), digest := ofLe (cellRead (bank l) 32 4) }))))

/-- The Snowplough's operations and timers. SNP.STOP_REQUEST names cause 11 where no cause waits and no stop runs, and changes nothing else
(R449, R450). SNP.HOLD_RELEASE in HOLD with every row of R461 met waits for the boundary, and one that fails a row is answered with that
row's status and no effect. SNP.DEADBOLT_RELEASE in HOLD of a parked machine with a valid claim waits for the boundary (R465).
The timers of R451 to R453 mark what they time: standstill, with parked as the other marks allow; the end of step 2; the end of step 3. -/
def Obligations.StopOperationsAndTimers : Prop :=
  ∀ (s : State) (r : Req),
    let c := s.chip
    (s.admits attrStopRequest r = true → r.body = [] → ∃ t, exec (.stopRequest r) s = .next t ∧
      t.plain = (s.onChip (fun c => c.modSnow (fun w =>
        if w.step = 0 ∧ w.pend = none then { w with pend := some 11 } else w))).plain) ∧
    (s.admits attrHoldRelease r = true → r.body = [] → c.isParked = true → c.classNow ≤ 1 → c.parN Par.laneStartMin ≤ c.authLanes.length →
      c.causePresent = false → c.pintle.holding = false → c.dev.snow.step = 4 → ∃ t, exec (.holdRelease r) s = .next t ∧ t.mem = s.mem ∧
        t.chip.dev.snow = { c.dev.snow with releasing := true } ∧ t.chip.dev.pend.length = c.dev.pend.length + 1 ∧ t.chip.pintle = c.pintle ∧
        (∀ l, (t.chip.lane l).plain = (c.lane l).plain)) ∧
    (∀ k, s.admits attrHoldRelease r = true → r.body = [] → r.link = some k →
      (c.isParked = false → ∃ t p, exec (.holdRelease r) s = .next t ∧ t.plain = s.plain ∧ t.chip.dev.replies = c.dev.replies ++ [(k, p)] ∧
        p.status = stNotParked) ∧
      (c.isParked = true → (2 ≤ c.classNow ∨ c.pintle.holding = true ∨ c.causePresent = true) → ∃ t p, exec (.holdRelease r) s = .next t ∧
        t.plain = s.plain ∧ t.chip.dev.replies = c.dev.replies ++ [(k, p)] ∧ p.status = stDenied)) ∧
    (s.admits attrDeadboltRelease r = true → r.body = [] → c.dev.snow.step = 4 → c.pintle.anyClaim = true → c.isParked = true → c.pintle.holding = true →
      ∃ t, exec (.deadboltRelease r) s = .next t ∧ t.mem = s.mem ∧ t.chip.dev.snow = { c.dev.snow with dbReleasing := true } ∧
        t.chip.dev.pend.length = c.dev.pend.length + 1 ∧ t.chip.pintle = c.pintle ∧ ∀ l, (t.chip.lane l).plain = (c.lane l).plain) ∧
    (∀ k, s.admits attrDeadboltRelease r = true → r.body = [] → r.link = some k → c.dev.snow.step ≠ 4 → ∃ t p,
      exec (.deadboltRelease r) s = .next t ∧ t.plain = s.plain ∧ t.chip.dev.replies = c.dev.replies ++ [(k, p)] ∧ p.status = stDenied) ∧
    exec .parkTimeExpiry s = .next (s.onChip (fun c => if c.dev.snow.slow then c.modSnow (fun w => { w with
      standstill := true, parked := c.parkMarks }) else c)) ∧
    exec .stopTimeout s = .next (s.onChip (fun c => if c.dev.snow.step = 2 then c.modSnow (fun w => { w with timedOut := true }) else c)) ∧
    exec .applyTimeExpiry s = .next (s.onChip (fun c => if c.dev.snow.step = 3 then c.modSnow (fun w => { w with applied := true }) else c))

/-- The start of a stop: the speed and the time of entry are captured, host torques go to 0, function 2 is off, and the stop stands in step 2
(R450, R452). A cause agreed during a stop or in HOLD leaves every unit as it is (R450). The braking demand stays between 0 and
SNP.DECEL_FULL (R453). -/
def Obligations.StopSequenceStartsAndStays : Prop :=
  ∀ (c : Chip) (cause : Nat),
    (c.startStop cause).dev.snow.step = 2 ∧ (c.startStop cause).dev.snow.cause = cause ∧ (c.startStop cause).dev.snow.v0 = c.dev.snow.v ∧
      (c.startStop cause).dev.snow.t = 0 ∧ (c.startStop cause).dev.snow.pend = none ∧ (c.startStop cause).dev.snow.entryNt = c.launchNt ∧
      (∀ k, k < 4 → c.parN Par.cmtTorqueSrc k = 0xFF → k < c.dev.motors.length → (nth (c.startStop cause).dev.motors k {}).torque = 0) ∧
      (∀ l n, n ∈ c.funcOuts 2 → hasBit ((c.startStop cause).dev.so.get l) n = false) ∧
    (c.dev.snow.step ≠ 0 → (c.stopCause cause).plain = c.plain) ∧
    (0 ≤ c.par Par.snpDecelFull → 0 ≤ c.demand ∧ c.demand ≤ c.par Par.snpDecelFull)

/-- Status reads that pass their checks answer one section for each selected lane in lane order, as the spec lays a block's status out, and
change no unit; NET.STATUS_READ removes the host frames that it returns (R75, R334, R437, R466, R493). A status whose layout the spec does not give,
PER.TIMING_READ and CHK.SIGNATURE_READ answer one quad for each lane with free values (log 22). -/
def Obligations.StatusReadsAnswer : Prop :=
  ∀ (s : State) (r : Req) (k : LaneId), r.link = some k → r.session = 0 → hasBit r.flags 0 = false → r.body = [] →
    let answered (t : State) (p : OutPacket) : Prop := t.mem = s.mem ∧ t.chip.dev.replies = s.chip.dev.replies ++ [(k, p)] ∧ p.status = stOk
    let free (i : Instr) : Prop := ∃ t p, exec i s = .next t ∧ answered t p ∧ p.payload.length = 16 * r.lanes.length ∧
      t.chip.lanes.map Lane.plain = s.chip.lanes.map Lane.plain ∧ t.chip.pintle = s.chip.pintle ∧ t.chip.dev.plain = s.chip.dev.plain
    (∀ b : Block, s.admits (attrStatusRead b) r = true →
      (Block.laidOut b = true → ∃ t p, exec (.statusRead b r) s = .next t ∧ answered t p ∧
        p.payload = r.lanes.flatMap (fun l => (s.chip.blockStatus b l).getD []) ∧
        (b ≠ .net → t.plain = s.plain) ∧
        (b = .net → t.chip.pintle = s.chip.pintle ∧ t.chip.dev.plain = s.chip.dev.plain ∧ ∀ l, (t.chip.lane l).plain =
          (if l ∈ r.lanes then { s.chip.lane l with net := { s.chip.netOf l with host := [] } } else s.chip.lane l).plain)) ∧
      (Block.laidOut b = false → free (.statusRead b r))) ∧
    (s.admits attrTimingRead r = true → free (.timingRead r)) ∧
    (s.admits attrSignatureRead r = true → free (.signatureRead r)) ∧
    (s.admits attrThmRead r = true → ∃ t p, exec (.thmRead r) s = .next t ∧ answered t p ∧ t.plain = s.plain ∧
      p.payload = r.lanes.flatMap s.chip.thmQuads)

/-- Bands and derating factors. A reading's band is that of the table, a reading on a boundary in the upper one; the band rises at once and falls
by one, only below the present band's lower boundary less THM.HYST (R488). The factor is 100 % below the start, the minimum at the end, and
between them never outside the two; in T5 it is the minimum (R491). A reading far from two that agree is broken (R487). -/
def Obligations.BandsAndFactors : Prop :=
  (∀ x : Int, bandOf x ≤ 5 ∧ (bandOf x = 0 ↔ x < -200) ∧ (bandOf x = 5 ↔ 1500 ≤ x) ∧ (1 ≤ bandOf x → bandLow (bandOf x) ≤ x) ∧
    ∀ b, bandOf x < b → b ≤ 5 → x < bandLow b) ∧
  (∀ (hyst : Int) (now : Nat) (x : Int), now ≤ 5 → 0 ≤ hyst →
    (now ≤ bandOf x → bandNext hyst now x = bandOf x) ∧
    (bandOf x < now → (bandNext hyst now x = now ∨ bandNext hyst now x + 1 = now) ∧
      (bandNext hyst now x = now ↔ bandLow now - 10 * hyst ≤ x))) ∧
  (∀ lowest start stop x : Int, 0 ≤ lowest → lowest ≤ 100 → start < stop →
    (x < start → fallFactor lowest start stop x = 100) ∧ (stop ≤ x → fallFactor lowest start stop x = lowest.toNat) ∧
    lowest.toNat ≤ fallFactor lowest start stop x ∧ fallFactor lowest start stop x ≤ 100) ∧
  (∀ (lowest : Int) (good : List Int), dieFactor lowest 5 good = lowest.toNat) ∧
  (∀ tol x y z : Int, Sys2Proof.Machine.dist y z ≤ 10 * tol → 10 * tol < Sys2Proof.Machine.dist x y → 10 * tol < Sys2Proof.Machine.dist x z → dieBroken tol [x, y, z] 0 = true) ∧
  (∀ tol x y z : Int, (x < -550 ∨ 1750 < x) → dieBroken tol [x, y, z] 0 = true)

/-- The Tumbler round up to the agreement set. A lane that samples joins the period's set of sampled lanes with its own readings and holds
the CRC-32C of its own S-part (R121, R124). The oldest item that a lane waits for reaches it, clears its mark of silence and takes its place in the
order of streaming once every partner holds it (R126); an intact vector is held with its CRC-32C, a damaged one is not (R130). At the
vector deadline the presence quad goes out with what is held; a presence quad that arrives is held (R130). At the presence deadline the lane
fixes its set (R130, R131). A lane that misses the round writes an absent record and counts a miss, and PER.MISS_LIMIT misses fence it (R137); a lane
in steps 1 to 4 of a resynchronisation and an exempt period count none (R112, R157). No
other lane and no memory changes, and a lane out of its turn does nothing. -/
def Obligations.RoundUpToTheAgreementSet : Prop :=
  ∀ (s : State) (l k : LaneId), l ≠ k →
    let c := s.chip
    let r := (c.lane l).round
    let heard (f : Lane → Lane) : Instr → Prop := fun i => exec i s = .next (s.onChip (fun c => c.modLane l (fun n => f { n with
      silent := setLaneBit n.silent k false })))
    (∀ i : SampleIn,
      (c.canSample l = false → exec (.sampleInstant l i) s = .next s) ∧
      (c.canSample l = true → hasLane c.dev.sampled l = false → (c.lane l).chk.resyncPend = false → c.dev.sampled ≠ 0 →
        ∃ t, exec (.sampleInstant l i) s = .next t ∧ t.mem = s.mem ∧ (t.chip.lane l).round.sampled = true ∧ hasLane t.chip.dev.sampled l = true ∧
          (t.chip.lane l).round.own.adc = i.adc ∧ (t.chip.lane l).round.own.vbr = i.vbr ∧ (t.chip.lane l).round.own.temps = i.temps ∧
          (t.chip.lane l).vbr = i.vbr ∧ (t.chip.lane l).round.crc = crc32c (t.chip.lane l).round.own.bytes ∧
          (t.chip.lane l).round.held.get l = some (t.chip.lane l).round.crc)) ∧
    ((c.inRound l = false ∨ c.inRound k = false) → exec (.streamedItem l k) s = .next s) ∧
    (c.inRound l = true → c.inRound k = true → ∃ t, exec (.streamedItem l k) s = .next t ∧ t.mem = s.mem ∧ t.chip.dev = c.dev ∧
      hasLane (t.chip.lane l).silent k = false ∧ (∀ j, j ≠ k → t.chip.bridges.get j = c.bridges.get j) ∧
      (∀ p ps, (c.bridges.get k).rx = p :: ps → hasLane p.streamed l = false → (∀ q ∈ ps, p.ord ≤ q.ord) → (∀ e ∈ (c.lane k).arriving, p.ord < e.ord) →
        let m := setLaneBit p.streamed l true
        (t.chip.lane k).arriving = (c.lane k).arriving ∧ (t.chip.lane k).streamOrd = (c.lane k).streamOrd + 1 ∧
        (t.chip.bridges.get k).rx = { p with
          streamed := m
          ended := if p.ended = none ∧ (∀ j ∈ c.roundPartners k, hasLane m j = true) then some (c.lane k).streamOrd else p.ended } :: ps) ∧
      (∀ e es, (c.lane k).arriving = e :: es → hasLane e.streamed l = false → (∀ x ∈ es, e.ord ≤ x.ord) → (∀ p ∈ (c.bridges.get k).rx, e.ord < p.ord) →
        let m := setLaneBit e.streamed l true
        (t.chip.bridges.get k).rx = (c.bridges.get k).rx ∧ (t.chip.lane k).streamOrd = (c.lane k).streamOrd + 1 ∧
        (t.chip.lane k).arriving = { e with
          streamed := m
          ended := if e.ended = none ∧ (∀ j ∈ c.roundPartners k, hasLane m j = true) then some (c.lane k).streamOrd else e.ended } :: es)) ∧
    (c.sampledIn l = true → c.sampledIn k = true → r.sent = false →
      exec (.sampleVector l k .corrupt) s = .next s ∧
      (∀ j, j ≠ l → j ≠ k → c.inRound j = true → (r.held.get j) = none → ∀ x, heard (fun n => { n with
        round := { n.round with held := n.round.held.set k (some (x % 2 ^ 32)) } }) (.sampleVector l k (.other x))) ∧
      (∃ t, exec (.sampleVector l k .intact) s = .next t ∧ t.mem = s.mem ∧ t.chip.dev = c.dev ∧
        (t.chip.lane l).round.held.get k = some (c.lane k).round.crc ∧ ∀ j, j ≠ l → t.chip.lane j = c.lane j) ∧
      (∃ t, exec (.vectorDeadline l) s = .next t ∧ t.mem = s.mem ∧ t.chip.dev = c.dev ∧ (t.chip.lane l).round.sent = true ∧
        (t.chip.lane l).round.presence.silent = (c.lane l).silent ∧ (t.chip.lane l).round.presence.notice = (c.lane l).notices ∧
        (∀ j, hasLane (t.chip.lane l).round.presence.held j = (r.held.get j).isSome ∧
          (t.chip.lane l).round.presence.crcs.get j = (r.held.get j).getD 0) ∧ ∀ j, j ≠ l → t.chip.lane j = c.lane j)) ∧
    ((c.sampledIn l = false ∨ r.sent = true) → exec (.vectorDeadline l) s = .next s) ∧
    (c.sampledIn l = true → c.sampledIn k = true → r.aset = none → exec (.presenceQuad l k .corrupt) s = .next s ∧
      ((c.lane k).round.sent = true → heard (fun n => { n with
        round := { n.round with quads := n.round.quads.set k (some (c.lane k).round.presence) } }) (.presenceQuad l k .intact))) ∧
    (c.sampledIn l = true → r.aset = none → (∀ j, c.silenceOf j = none) → ∃ t, exec (.presenceDeadline l) s = .next t ∧ t.mem = s.mem ∧
      (t.chip.lane l).round.aset = some (c.findSet l) ∧ (hasLane (c.findSet l) l = true → (t.chip.lane l).round.absent = r.absent) ∧
      (hasLane (c.findSet l) l = false → (t.chip.lane l).round.absent = true) ∧ ∀ j, j ≠ l → t.chip.lane j = c.lane j) ∧
    (c.sampledIn l = false → exec (.presenceDeadline l) s = .next s ∧ exec (.agreementDeadline l) s = .next s) ∧
    (c.sampledIn l = true → r.agreed = false → r.absent = false → ∃ t, exec (.agreementDeadline l) s = .next t ∧ t.mem = s.mem ∧
      (t.chip.lane l).round.absent = true ∧ (t.chip.lane l).round.record = some { kind := 2, count := c.dev.count % 2 ^ 32 } ∧
      ((c.resyncing l = true ∨ c.dev.exempt = true) → (t.chip.lane l).chk = (c.lane l).chk) ∧
      (c.resyncing l = false → c.dev.exempt = false → (t.chip.lane l).chk.misses = min 31 ((c.lane l).chk.misses + 1) ∧
        ((c.lane l).chk.misses + 1 = c.parN Par.perMissLimit → t.chip.dev.fencePend.any (fun f => f.1 == l) = true)) ∧
      ∀ j, j ≠ l → t.chip.lane j = c.lane j)

/-- The end of the agreement rule. A lane that has finished it resets its count of misses (R137); where the period's work is done already, or
the lane does not compute, nothing else happens, and the first lane that computes carries it out once for the device: the inputs, then the host
packets, then the Keyway PDUs in ascending session number, then the work items (R62, R128, R133, R143). A lane that has no set does nothing. -/
def Obligations.AgreementRunsThePeriodOnce : Prop :=
  ∀ (s : State) (l : LaneId),
    let r := (s.chip.lane l).round
    let marked := s.onChip (fun c => c.modLane l (fun n => { n with round := { n.round with agreed := true }, chk := { n.chk with misses := 0 } }))
    ((s.chip.sampledIn l = false ∨ r.agreed = true ∨ r.absent = true ∨ r.aset = none) → exec (.agreementDone l) s = .next s) ∧
    (s.chip.sampledIn l = true → r.agreed = false → r.absent = false → r.aset ≠ none →
      ((s.chip.dev.computed = true ∨ s.chip.computes l = false ∨ hasLane s.chip.dev.aset l = false) → exec (.agreementDone l) s = .next marked) ∧
      (s.chip.dev.computed = false → s.chip.computes l = true → hasLane s.chip.dev.aset l = true →
        exec (.agreementDone l) s = .next ((runSessions (runPackets (marked.onChip Chip.periodInputs))).onChip Chip.periodItems)))

/-- The checkpoint's quads and deadlines; `sends` is what a lane changes in itself while it puts quads on the lane links. A lane sends its mask
once, and holds its partners' masks and records until its own are in; a mask whose CRC-32C or lane index is wrong is not held, and a record that
fails its CRC-32C counts as of kind 2 (R144, R145, R149). At the compute deadline completion is decided with the masks that are held and the vote
tried (R144, R145). At the checkpoint deadline a vote that is not complete passes nothing, with the lane's fault and miss unless the period is
exempt (R112, R139). A whole mirrored set is compared by a passing lane, with fault 0x0409 when it differs, kept by an absent one to catch up with
unless the delta is above 128 quads, and kept by a resynchronising one with its delta; without one by the deadline the absent lane is
resynchronised (R155). The snapshot of a resynchronisation is marked as held, and applied at the S at which every delta is held too (R157); its
limit fences the lane (R159). -/
def Obligations.CheckpointQuadsAndDeadlines : Prop :=
  ∀ (s : State) (l k : LaneId) (mask : BitVec 88), l ≠ k →
    let c := s.chip
    let r := (c.lane l).round
    let src := c.mirrorSource c.dev.passed
    let own (f : Lane → Lane) : State := s.onChip (fun c => c.modLane l f)
    let sends (i : Instr) (f : Lane → Lane) : Prop := ∃ t, exec i s = .next t ∧ t.mem = s.mem ∧ { t.chip with links := c.links } = (own f).chip
    let heard (f : Lane → Lane) (n : Lane) : Lane := f { n with silent := setLaneBit n.silent k false }
    (c.computing l = false → exec (.computeEnd l mask) s = .next s ∧ exec (.computeDeadline l mask) s = .next s) ∧
    (c.computing l = true → r.mask = none → hasLane c.dev.aset k = true → c.resyncing k = false → r.masks.get k = none →
      sends (.computeEnd l mask) (fun n => { n with round := { n.round with mask := some mask } })) ∧
    (c.computing l = true → r.mask ≠ none → exec (.computeEnd l mask) s = .next s) ∧
    (c.computing l = true → r.record ≠ none → c.dev.decided = true →
      sends (.computeDeadline l mask) (fun n => { n with round := { n.round with mask := some (r.mask.getD mask) } })) ∧
    (c.computing l = true → c.dev.decided = false → exec (.computeDeadline l mask) s = .next (s.onChip (fun c =>
      ((if r.mask = none then c.sendMask l mask else c).foldLane l).tryVote l))) ∧
    (c.sampledIn l = true → c.sampledIn k = true → exec (.completionMask l k .corrupt) s = .next s ∧
      (∀ b, maskOfQuad k b = none → exec (.completionMask l k (.other b)) s = .next s) ∧
      (r.mask = none → ∀ m, exec (.completionMask l k (.other (maskQuad k m))) s = .next (own (heard (fun n => { n with
        round := { n.round with masks := n.round.masks.set k (some m) } }))))) ∧
    (c.sampledIn l = true → c.sampledIn k = true → r.voted = false → c.dev.decided = false → ∀ relayed : Bool,
      (∀ q : SigRec, q.lane < 256 → 0 < q.kind → q.kind < 256 → q.quads < 65536 → q.count < 2 ^ 32 → q.sigLo < 2 ^ 64 → q.sigHi < 2 ^ 64 →
        (q.kind ≠ 1 → q.sigLo = 0 ∧ q.sigHi = 0) →
        sends (.signatureRecord l k relayed (.other (sigRecBytes q))) (heard (fun n => { n with
          round := { n.round with records := n.round.records.set k (HeldSig.put (n.round.records.get k) relayed q) } }))) ∧
      ∃ q : SigRec, q.kind = 2 ∧ sends (.signatureRecord l k relayed .corrupt) (heard (fun n => { n with
          round := { n.round with records := n.round.records.set k (HeldSig.put (n.round.records.get k) relayed q) } }))) ∧
    ((c.sampledIn l = false ∨ r.voted = true ∨ r.absent = true ∨ c.resyncing l = true) → exec (.checkpointDeadline l) s = .next s) ∧
    (c.sampledIn l = true → r.voted = false → r.absent = false → c.resyncing l = false →
      let t := own (fun n => { n with round := { n.round with voted := true, passed := false } })
      (c.dev.exempt = true → exec (.checkpointDeadline l) s = .next t) ∧
      (c.dev.exempt = false → exec (.checkpointDeadline l) s = .next (t.onChip (fun c => (c.localFault l 0x030A 0x01 l.idx l.idx).modLane l (fun n => { n with
        chk := { n.chk with deadlineMisses := satInc 65535 n.chk.deadlineMisses } }))))) ∧
    (c.sampledIn l = true → r.mirrored = false → c.dev.passed ≠ 0 → src ≠ some l →
      let data := c.dev.mirror
      exec (.mirroredSet l .corrupt) s = .next s ∧
      (r.passed = true → ∀ b got, mirrorOf b = some got →
        let t := own (fun n => { n with round := { n.round with mirrored := true } })
        (got = data → fld b 4 4 = c.dev.count % 2 ^ 32 → exec (.mirroredSet l (.other b)) s = .next t) ∧
        (got ≠ data → exec (.mirroredSet l (.other b)) s = .next (t.onChip (fun c => c.localFault l 0x0409 0x01 l.idx l.idx)))) ∧
      (r.passed = false → data.length = 1344 →
        (c.resyncing l = true → exec (.mirroredSet l .intact) s = .next (own (fun n => { n with
          round := { n.round with mirrored := true }, chk := { n.chk with mirror := data, owed := n.chk.owed - 1 } }))) ∧
        (c.resyncing l = false → r.absent = true → c.dev.delta ≤ 128 → exec (.mirroredSet l .intact) s = .next (own (fun n => { n with
          round := { n.round with mirrored := true }, chk := { n.chk with mirror := data, catchUp := true } }))) ∧
        (c.resyncing l = false → r.absent = true → 128 < c.dev.delta → ∃ t, exec (.mirroredSet l .intact) s = .next t ∧
          (t.chip.lane l).chk.resyncPend = true ∧ (t.chip.lane l).chk.source = src ∧ t.mem = s.mem ∧ ∀ j, j ≠ l → t.chip.lane j = c.lane j))) ∧
    (r.absent = false → exec (.mirrorDeadline l) s = .next s) ∧
    (c.sampledIn l = true → r.absent = true → r.mirrored = false → c.resyncing l = false → c.dev.passed ≠ 0 → ∃ t, exec (.mirrorDeadline l) s = .next t ∧
      t.mem = s.mem ∧ { t.chip with links := c.links }.plain =
        (own (fun n => { n with chk := { n.chk with resyncPend := true, source := src, snapshot := false, owed := 0 } })).chip.plain) ∧
    ((c.resyncing l = false ∨ c.inRound l = false) → exec (.resyncCopyDone l) s = .next s) ∧
    (c.resyncing l = true → c.inRound l = true → exec (.resyncCopyDone l) s = .next (own (fun n => { n with chk := { n.chk with snapshot := true } }))) ∧
    ((c.lane l).chk.resyncPend = false → (c.lane l).chk.resync = 1 → ∀ m, ((c.resyncStep m l).lane l).chk.resync =
      (if ((c.lane l).chk.snapshot = true ∧ (c.lane l).chk.owed = 0) ∨ c.sourceFor l m = none then 5 else 1)) ∧
    ((c.lane l).chk.resync = 0 → exec (.resyncLimit l) s = .next s) ∧
    ((c.lane l).chk.resync ≠ 0 → c.parN Par.chkResyncLimit ≤ (c.lane l).chk.resyncAge → ∃ t, exec (.resyncLimit l) s = .next t ∧
      t.chip.dev.fencePend.any (fun f => f.1 == l) = true ∧ t.mem = s.mem ∧ t.chip.lanes = c.lanes)

/-- The vote. With three records of kind 1 the equal ones pass and a single one that differs names the odd lane, and three that differ are a
split; with two, equal ones pass and unequal ones are a divergence of the pair; one alone passes only in a lane that runs joined, and is else
a split; a joined lane's single record of another kind says that its cores disagree (R150). The first divergence of an odd lane is recorded as 0x0401
(C class), and the lane is resynchronised from the passing lane with the highest claim; one within CHK.DIV_WINDOW matrix cycles of its last corrected
divergence fences it with 0x0402 (F class) (R151). A first divergence of a pair resynchronises the lane of the lower claim from the other, one of the same
pair within the window fences it, and another pair's last divergence stays known (R152). Cores that disagree again within the window fence their
lane (R164). -/
def Obligations.VotesAndDivergences : Prop :=
  ∀ (c : Chip) (x y z : LaneId) (p q r : SigRec), p.kind = 1 → q.kind = 1 → r.kind = 1 →
    (c.voteOf [(x, p), (y, q), (z, r)] =
      (if sameSig p q ∧ sameSig q r then .pass [x, y, z] else if sameSig p q then .odd [x, y] z else if sameSig p r then .odd [x, z] y
        else if sameSig q r then .odd [y, z] x else .split)) ∧
    (∀ a : SigRec, a.kind ≠ 1 → c.voteOf [(x, p), (y, a), (z, r)] = (if sameSig p r then .pass [x, z] else .pair x z) ∧
      c.voteOf [(x, a), (y, q), (z, a)] = (if hasLane c.dev.joined y then .pass [y] else .split) ∧
      c.voteOf [(x, a)] = (if hasLane c.dev.joined x ∧ (c.lane x).round.absent = false then .cores x else .none_)) ∧
    c.voteOf [(x, p), (y, q)] = (if sameSig p q then .pass [x, y] else .pair x y) ∧
    (c.inDivWindow (c.lane z).chk.lastDiv = false → faultClass 0x0401 = 1 ∧
      c.voteEvents (.odd [x, y] z) = (c.agreedFault 0x0401 0x01 z.idx z.idx).correct z (c.highest [x, y]) ∧ ((c.voteEvents (.odd [x, y] z)).lane z).chk.resyncPend = true ∧
      ((c.voteEvents (.odd [x, y] z)).lane z).chk.source = c.highest [x, y] ∧ ((c.voteEvents (.odd [x, y] z)).lane z).chk.lastDiv = some c.dev.matrix ∧
      (c.voteEvents (.odd [x, y] z)).dev.fencePend = c.dev.fencePend) ∧
    (c.inDivWindow (c.lane z).chk.lastDiv = true → faultClass 0x0402 = 3 ∧ c.voteEvents (.odd [x, y] z) = c.pendFence z 0x0402 ∧
      (c.voteEvents (.odd [x, y] z)).dev.fencePend.any (fun f => f.1 == z) = true ∧
      (c.voteEvents (.odd [x, y] z)).lanes = c.lanes) ∧
    (c.higher x y = true →
      let m := (maskOf [x, y]).toNat
      let d := c.voteEvents (.pair x y)
      (c.inDivWindow (c.pairDiv m) = false → (d.lane y).chk.resyncPend = true ∧ (d.lane y).chk.source = some x ∧ d.dev.fencePend = c.dev.fencePend ∧
        ∀ k, d.pairDiv k = if k = m then some c.dev.matrix else c.pairDiv k) ∧
      (c.inDivWindow (c.pairDiv m) = true → d.dev.fencePend.any (fun f => f.1 == y) = true ∧ d.lanes = c.lanes)) ∧
    (c.inDivWindow (c.lane x).chk.coreDiv = false → ((c.voteEvents (.cores x)).lane x).chk.coreDiv = some c.dev.matrix ∧
      (c.voteEvents (.cores x)).dev.fencePend = c.dev.fencePend) ∧
    (c.inDivWindow (c.lane x).chk.coreDiv = true → (c.voteEvents (.cores x)).dev.fencePend.any (fun f => f.1 == x) = true)

/-- Launch points and boundaries. A lane launches a period once, and only a lane that passed puts its outputs into effect: its safety outputs and
steppers follow the commands (R122, R140). A launch of a queue takes effect once, and a boundary of an output without one changes nothing
(R354). From a period in which no lane passed no safety output, stepper or engine of any lane changes (R140). At a control-period boundary the
shadowed values come into force, or the stored image that waits (R86, R90, R524), and a requested reset boots every powered lane (R75). A
matrix-cycle boundary counts the matrix cycle and begins its period count (R307), and each lane may record 0x2201 anew for every session (R369). -/
def Obligations.LaunchesAndBoundaries : Prop :=
  ∀ (s : State) (l : LaneId),
    let c := s.chip
    let r := (c.lane l).round
    ((c.sampledIn l = false ∨ r.launched = true) → exec (.launchPoint l) s = .next s) ∧
    (c.sampledIn l = true → r.launched = false → c.dev.launched = true → r.passed = false → c.resyncing l = false →
      exec (.launchPoint l) s = .next (s.onChip (fun c => c.modLane l (fun n => { n with round := { n.round with launched := true } })))) ∧
    (c.sampledIn l = true → r.launched = false → c.dev.launched = true → r.passed = true → ∃ t, exec (.launchPoint l) s = .next t ∧ t.mem = s.mem ∧
      (t.chip.lane l).round.launched = true ∧ (t.chip.lane l).sio = (c.lane l).sio.setOuts (c.dev.so.get l) ∧
      (∀ k, k < 6 → k < (c.lane l).stp.length → (nth (t.chip.lane l).stp k {}).energised = (nth c.dev.steppers k {}).energised ∧
        (nth (t.chip.lane l).stp k {}).x1 = (nth c.dev.steppers k {}).x1) ∧ ∀ j, j ≠ l → t.chip.lane j = c.lane j) ∧
    (c.sampledIn l = true → r.launched = false → c.dev.launched = false → c.dev.passed = 0 → c.resyncing l = false → r.passed = false →
      ∃ t, exec (.launchPoint l) s = .next t ∧ t.mem = s.mem ∧ t.chip.dev.launched = true ∧ t.chip.pintle = c.pintle ∧
        ∀ j, (t.chip.lane j).sio = (c.lane j).sio ∧ (t.chip.lane j).stp = (c.lane j).stp ∧ (t.chip.lane j).engines = (c.lane j).engines) ∧
    (∀ o : Fin 14, (c.nextLaunches o.val = [] → exec (.launchBoundary o) s = .next s) ∧
      ∃ t, exec (.launchBoundary o) s = .next t ∧ t.mem = s.mem ∧ ∀ x ∈ t.chip.dev.launches, x ∈ c.dev.launches ∧ x ∉ c.nextLaunches o.val) ∧
    (c.dev.formed = false → exec .periodBoundary s = .next (s.onChip Chip.pintleBoundary) ∧ exec .matrixCycleBoundary s = .next s) ∧
    (c.dev.formed = true → c.dev.cfg.wsNext = none → (∀ p ∈ c.dev.pend, p.opcode ≠ 0x0012) → ∃ t, exec .periodBoundary s = .next t ∧ t.mem = s.mem ∧
      t.chip.dev.cfg.shadow = [] ∧ t.chip.dev.cfg.ws = (if c.dev.cfg.shadow = [] then c.dev.cfg.ws else c.dev.cfg.ahead) ∧
      t.chip.dev.count = c.dev.count) ∧
    (∀ g, c.dev.formed = true → c.dev.cfg.wsNext = some g → (∀ p ∈ c.dev.pend, p.opcode ≠ 0x0012) → ∃ t, exec .periodBoundary s = .next t ∧
      t.mem = s.mem ∧ t.chip.dev.cfg.ws = g.entries ∧ t.chip.dev.cfg.shadow = [] ∧ t.chip.dev.cfg.wsNext = none) ∧
    (c.dev.formed = true → (∃ p ∈ c.dev.pend, p.opcode = 0x0012) → ∃ t, exec .periodBoundary s = .next t ∧ t.chip.dev.formed = false ∧
      t.chip.dev.authority = 0 ∧ t.chip.dev.cfg.ws = [] ∧ ((c.lane l).boot.powerGood = true → (t.chip.lane l).boot.state = .booting ∧
        (t.mem.get l).sram = [] ∧ (t.mem.get l).staging = [] ∧ (t.chip.bridges.get l).silent = true)) ∧
    (c.dev.formed = true → ∃ t, exec .matrixCycleBoundary s = .next t ∧ t.mem = s.mem ∧ t.chip.dev.matrix = (c.dev.matrix + 1) % 2 ^ 32 ∧
      t.chip.dev.cycle = 0 ∧ t.chip.dev.count = c.dev.count ∧ (t.chip.lane l).keyNoted = [])
end

