-- ==== Sys2Proof/Laws/Tables.lean ====
section
/-! SUPPORT. The table that STP.TABLE_LOAD carries is read back entry by entry (R263). -/

namespace Sys2Proof.Machine

/-- The four bytes of a table entry. -/
def entryBytes (e : Nat × Nat) : List Byte := toLe 2 e.1 ++ toLe 2 e.2

theorem entries_drop (t : List (Nat × Nat)) : ∀ i, (t.flatMap entryBytes).drop (4 * i) = (t.drop i).flatMap entryBytes := by
  induction t with
  | nil => simp
  | cons e t ih =>
    intro i
    cases i with
    | zero => rfl
    | succ i =>
      have h : (List.flatMap entryBytes (e :: t)) = entryBytes e ++ List.flatMap entryBytes t := rfl
      have l : (entryBytes e).length = 4 := rfl
      rw [h, show 4 * (i + 1) = (entryBytes e).length + 4 * i by omega, List.drop_length_add_append, List.drop_succ_cons, ih]

theorem bytesAt_add (h b : List Byte) (k n : Nat) : bytesAt (h ++ b) (h.length + k) n = bytesAt b k n := by
  simp only [bytesAt, List.drop_length_add_append]

theorem entry_low (e : Nat × Nat) (r : List Byte) (h : e.1 < 65536) : ofLe (bytesAt (entryBytes e ++ r) 0 2) = e.1 := by
  simp [bytesAt, entryBytes, toLe, ofLe]; omega
theorem entry_high (e : Nat × Nat) (r : List Byte) (h : e.2 < 65536) : ofLe (bytesAt (entryBytes e ++ r) 2 2) = e.2 := by
  simp [bytesAt, entryBytes, toLe, ofLe]; omega

theorem loaded_entries (hd : List Byte) (t : List (Nat × Nat)) (hl : hd.length = 16) (ht : t.length = 256)
    (hw : ∀ e ∈ t, e.1 < 65536 ∧ e.2 < 65536) : loadedTable (hd ++ t.flatMap entryBytes) = t := by
  apply List.ext_getElem (by simp [loadedTable, ht])
  intro i h1 h2
  have hd' : t.drop i = t[i] :: t.drop (i + 1) := List.drop_eq_getElem_cons h2
  have key (k : Nat) : bytesAt (hd ++ t.flatMap entryBytes) (16 + 4 * i + k) 2 = bytesAt (entryBytes t[i] ++ (t.drop (i + 1)).flatMap entryBytes) k 2 := by
    rw [show 16 + 4 * i + k = hd.length + (4 * i + k) by omega, bytesAt_add]
    have e : (t.flatMap entryBytes).drop (4 * i + k) = (entryBytes t[i] ++ (t.drop (i + 1)).flatMap entryBytes).drop k := by
      rw [← List.drop_drop, entries_drop, hd', List.flatMap_cons]
    unfold bytesAt; rw [e]
  have a := hw _ (List.getElem_mem h2)
  simp only [loadedTable, List.getElem_map, List.getElem_range, fld]
  rw [show 18 + 4 * i = 16 + 4 * i + 2 by omega, key 2, show bytesAt (hd ++ t.flatMap entryBytes) (16 + 4 * i) 2 = _ from key 0,
    entry_low _ _ a.1, entry_high _ _ a.2]

end Sys2Proof.Machine
end

