-- ==== Sys2Proof/Laws/Bytes.lean ====
section
/-! SUPPORT. Little-endian fields laid one behind another are read back, so that a record survives its bytes (R5): the
completion mask's quad, the mirrored set and the signature record are read as they were sent (R144, R149, R153). -/

namespace Sys2Proof.Machine

open Sys2Proof

@[simp] theorem toLe_length (n v : Nat) : (toLe n v).length = n := by
  induction n generalizing v with
  | zero => rfl
  | succ n ih => simp [toLe, ih]

theorem ofLe_toLe (n v : Nat) (h : v < 256 ^ n) : ofLe (toLe n v) = v := by
  induction n generalizing v with
  | zero => simp at h; simp [toLe, ofLe, h]
  | succ n ih =>
    rw [Nat.pow_succ] at h
    simp only [toLe, ofLe]
    rw [ih (v / 256) (by omega)]
    simp
    omega

theorem bytesAt_head (h b : List Byte) : bytesAt (h ++ b) 0 h.length = h := by
  simp [bytesAt]

/-- The first field of a record. -/
theorem fld_head (n v : Nat) (b : List Byte) (h : v < 256 ^ n) : fld (toLe n v ++ b) 0 n = v := by
  have e := bytesAt_head (toLe n v) b
  rw [toLe_length] at e
  unfold fld
  rw [e, ofLe_toLe n v h]

/-- A field behind the first n bytes. -/
theorem fld_skip (n v k m : Nat) (b : List Byte) : fld (toLe n v ++ b) (n + k) m = fld b k m := by
  have e := bytesAt_add (toLe n v) b k m
  rw [toLe_length] at e
  unfold fld
  rw [e]

/-- A field behind the first n bytes, whatever they hold. -/
theorem fld_at (a : List Byte) (k m : Nat) (b : List Byte) : fld (a ++ b) (a.length + k) m = fld b k m := by
  unfold fld
  rw [bytesAt_add]

/-- One byte keeps the register of a reflected CRC within its width. -/
theorem crcByte_lt (rp c n : Nat) (b : Byte) (hn : 8 ≤ n) (hr : rp < 2 ^ n) (hc : c < 2 ^ n) : crcByte rp c b < 2 ^ n := by
  have bit : ∀ x, x < 2 ^ n → crcBit rp x < 2 ^ n := by
    intro x hx
    unfold crcBit
    split
    · exact Nat.xor_lt_two_pow (by omega) hr
    · omega
  have hb : b.toNat < 2 ^ n := Nat.lt_of_lt_of_le b.isLt (Nat.pow_le_pow_right (by decide) hn)
  exact bit _ (bit _ (bit _ (bit _ (bit _ (bit _ (bit _ (bit _ (Nat.xor_lt_two_pow hc hb))))))))

theorem crcFold_lt (rp n : Nat) (hn : 8 ≤ n) (hr : rp < 2 ^ n) (bs : List Byte) : ∀ c, c < 2 ^ n → crcFold rp c bs < 2 ^ n := by
  induction bs with
  | nil => exact fun c h => h
  | cons b bs ih => exact fun c h => ih _ (crcByte_lt rp c n b hn hr h)

/-- A CRC-32C has 32 bits. -/
theorem crc32c_lt (bs : List Byte) : crc32c bs < 2 ^ 32 :=
  Nat.xor_lt_two_pow (crcFold_lt _ 32 (by decide) (by decide) bs _ (by decide)) (by decide)

/-- A completion mask's quad is read as it was sent (R144). -/
theorem maskOfQuad_maskQuad (l : LaneId) (m : BitVec 88) : maskOfQuad l (maskQuad l m) = some m := by
  have hm : m.toNat < 256 ^ 11 := m.isLt
  have hb : (toLe 11 m.toNat ++ toLe 1 l.idx).length = 12 := by simp
  have h1 : fld (maskQuad l m) 12 4 = crc32c (toLe 11 m.toNat ++ toLe 1 l.idx) := by
    have := fld_at (toLe 11 m.toNat ++ toLe 1 l.idx) 0 4 (toLe 4 (crc32c (toLe 11 m.toNat ++ toLe 1 l.idx)))
    rw [hb] at this
    simp only [maskQuad]
    rw [this, ← List.append_nil (toLe 4 _), fld_head 4 _ _ (crc32c_lt _)]
  have h2 : fld (maskQuad l m) 11 1 = l.idx := by
    simp only [maskQuad, List.append_assoc]
    rw [fld_skip 11 m.toNat 0 1, fld_head 1 _ _ (by cases l <;> decide)]
  have h3 : fld (maskQuad l m) 0 11 = m.toNat := by
    simp only [maskQuad, List.append_assoc]
    rw [fld_head 11 _ _ hm]
  have h4 : (maskQuad l m).take 12 = toLe 11 m.toNat ++ toLe 1 l.idx := by
    simp only [maskQuad]
    rw [← hb, List.take_left']
    rfl
  unfold maskOfQuad
  rw [h1, h2, h3, h4, if_pos ⟨by simp [maskQuad], rfl, rfl⟩, BitVec.ofNat_toNat, BitVec.setWidth_eq]

/-- The data quads of a mirrored set are read as they were sent (R153). -/
theorem mirrorOf_mirrorBytes (source count : Nat) (d : List Byte) (h : d.length = 1344) : mirrorOf (mirrorBytes source count d) = some d := by
  generalize hh : toLe 1 source ++ toLe 1 1 ++ toLe 2 85 ++ toLe 4 (count % 2 ^ 32) ++ toLe 4 0 = a
  have ha : a.length = 12 := by rw [← hh]; simp
  have e : mirrorBytes source count d = a ++ (toLe 4 (crc32c (a ++ toLe 4 0 ++ d)) ++ d) := by
    unfold mirrorBytes
    simp only
    rw [hh, List.append_assoc]
  generalize hz : crc32c (a ++ toLe 4 0 ++ d) = z at e
  have hzl : z < 256 ^ 4 := hz ▸ crc32c_lt _
  have f1 : fld (mirrorBytes source count d) 1 1 = 1 := by
    rw [e, ← hh]
    simp only [List.append_assoc]
    rw [fld_skip 1 source 0 1, fld_head 1 _ _ (by decide)]
  have f2 : fld (mirrorBytes source count d) 2 2 = 85 := by
    rw [e, ← hh]
    simp only [List.append_assoc]
    rw [fld_skip 1 source 1 2, fld_skip 1 1 0 2, fld_head 2 _ _ (by decide)]
  have f3 : fld (mirrorBytes source count d) 12 4 = z := by
    rw [e]
    have := fld_at a 0 4 (toLe 4 z ++ d)
    rw [ha] at this
    rw [this, fld_head 4 _ _ hzl]
  have t1 : (mirrorBytes source count d).take 12 = a := by rw [e, ← ha, List.take_left']; rfl
  have t2 : (mirrorBytes source count d).drop 16 = d := by
    rw [e, ← List.append_assoc]
    have : (a ++ toLe 4 z).length = 16 := by simp [ha]
    rw [← this, List.drop_left']
    rfl
  unfold mirrorOf
  rw [f1, f2, f3, t1, t2, hz, if_pos ⟨by rw [e]; simp [ha, h], rfl, rfl, rfl⟩]

/-- A signature record is read as it was sent, when its fields fit and only a record of kind 1 has a signature (R149). -/
theorem sigRecOf_sigRecBytes (q : SigRec) (hl : q.lane < 256) (hk : q.kind < 256) (hq : q.quads < 65536) (hc : q.count < 2 ^ 32)
    (h1 : q.sigLo < 2 ^ 64) (h2 : q.sigHi < 2 ^ 64) (hz : q.kind ≠ 1 → q.sigLo = 0 ∧ q.sigHi = 0) : sigRecOf (sigRecBytes q) = q := by
  have ht : tailQuad q = toLe 8 q.sigLo ++ toLe 8 q.sigHi := by
    unfold tailQuad
    split
    · rfl
    · rw [(hz ‹_›).1, (hz ‹_›).2]
      rfl
  generalize ha : toLe 1 q.lane ++ toLe 1 q.kind ++ toLe 2 q.quads ++ toLe 4 q.count ++ toLe 4 0 = a
  have hal : a.length = 12 := by rw [← ha]; simp
  have hh : ∀ z, headQuad q z = a ++ toLe 4 z := fun z => by rw [← ha]; rfl
  generalize hw : crc32c (headQuad q 0 ++ tailQuad q) = z
  have hzl : z < 256 ^ 4 := hw ▸ crc32c_lt _
  have e : sigRecBytes q = a ++ (toLe 4 z ++ (toLe 8 q.sigLo ++ toLe 8 q.sigHi)) := by
    unfold sigRecBytes
    rw [hw, hh, ht, List.append_assoc]
  have e16 : sigRecBytes q = (a ++ toLe 4 z) ++ (toLe 8 q.sigLo ++ toLe 8 q.sigHi) := by rw [e, List.append_assoc]
  have l16 : (a ++ toLe 4 z).length = 16 := by simp [hal]
  have f0 : fld (sigRecBytes q) 0 1 = q.lane := by
    rw [e, ← ha]
    simp only [List.append_assoc]
    rw [fld_head 1 _ _ hl]
  have f1 : fld (sigRecBytes q) 1 1 = q.kind := by
    rw [e, ← ha]
    simp only [List.append_assoc]
    rw [fld_skip 1 q.lane 0 1, fld_head 1 _ _ hk]
  have f2 : fld (sigRecBytes q) 2 2 = q.quads := by
    rw [e, ← ha]
    simp only [List.append_assoc]
    rw [fld_skip 1 q.lane 1 2, fld_skip 1 q.kind 0 2, fld_head 2 _ _ hq]
  have f4 : fld (sigRecBytes q) 4 4 = q.count := by
    rw [e, ← ha]
    simp only [List.append_assoc]
    rw [fld_skip 1 q.lane 3 4, fld_skip 1 q.kind 2 4, fld_skip 2 q.quads 0 4, fld_head 4 _ _ hc]
  have f12 : fld (sigRecBytes q) 12 4 = z := by
    have := fld_at a 0 4 (toLe 4 z ++ (toLe 8 q.sigLo ++ toLe 8 q.sigHi))
    rw [hal] at this
    rw [e, this, fld_head 4 _ _ hzl]
  have f16 : fld (sigRecBytes q) 16 8 = q.sigLo := by
    have := fld_at (a ++ toLe 4 z) 0 8 (toLe 8 q.sigLo ++ toLe 8 q.sigHi)
    rw [l16] at this
    rw [e16, this, fld_head 8 _ _ h1]
  have f24 : fld (sigRecBytes q) 24 8 = q.sigHi := by
    have := fld_at (a ++ toLe 4 z) 8 8 (toLe 8 q.sigLo ++ toLe 8 q.sigHi)
    rw [l16] at this
    rw [e16, this, fld_skip 8 q.sigLo 0 8, ← List.append_nil (toLe 8 q.sigHi), fld_head 8 _ _ h2]
  have t1 : (sigRecBytes q).take 12 = a := by rw [e, ← hal, List.take_left']; rfl
  have t2 : (sigRecBytes q).drop 16 = tailQuad q := by
    rw [e16, ← l16, List.drop_left', ht]
    rfl
  unfold sigRecOf
  rw [f12, t1, t2, ← hh 0, hw, if_pos ⟨by rw [e]; simp [hal], rfl⟩, f0, f1, f2, f4, f16, f24]

end Sys2Proof.Machine
end

