-- ==== Sys2Proof/Laws/Crc.lean ====
section
/-! SUPPORT. A form of the CRC fold in which every step looks at the register, so that the kernel evaluates it step by step and a
long sequence stays a shallow term. -/

namespace Sys2Proof.Machine

/-- The fold of crcFold, the register compared with a bound before each byte; both answers go on the same way. -/
def crcForced (rp : Nat) : Nat → List Byte → Nat
  | c, [] => c
  | c, b :: bs => if c < 2 ^ 64 then crcForced rp (crcByte rp c b) bs else crcForced rp (crcByte rp c b) bs

theorem crcFold_forced (rp c : Nat) (bs : List Byte) : crcFold rp c bs = crcForced rp c bs := by
  induction bs generalizing c with
  | nil => rfl
  | cons b bs ih => simp only [crcForced, ite_self]; exact ih _

end Sys2Proof.Machine
end

