-- ==== Sys2Proof/Laws/State.lean ====
section
/-! SUPPORT. What each named update of the state changes and leaves: one lemma for each field and update, so that no later proof unfolds
a record update. -/

namespace Sys2Proof.Machine

open Sys2Proof

/-! ### Triples -/

@[simp] theorem tri_get_set_same {α : Type} (t : Tri α) (l : LaneId) (x : α) : (t.set l x).get l = x := by cases l <;> rfl

theorem tri_get_set_ne {α : Type} (t : Tri α) (l k : LaneId) (x : α) (h : k ≠ l) : (t.set l x).get k = t.get k := by
  cases l <;> cases k <;> first | rfl | exact absurd rfl h

theorem tri_get_set {α : Type} (t : Tri α) (l k : LaneId) (x : α) : (t.set l x).get k = if k = l then x else t.get k := by
  cases l <;> cases k <;> rfl

@[simp] theorem tri_set_get {α : Type} (t : Tri α) (l : LaneId) : t.set l (t.get l) = t := by cases l <;> rfl

@[simp] theorem tri_set_set {α : Type} (t : Tri α) (l : LaneId) (x y : α) : (t.set l x).set l y = t.set l y := by cases l <;> rfl

@[simp] theorem tri_get_map {α β : Type} (f : α → β) (t : Tri α) (l : LaneId) : (t.map f).get l = f (t.get l) := by cases l <;> rfl

@[simp] theorem tri_get_mapIdx {α β : Type} (f : LaneId → α → β) (t : Tri α) (l : LaneId) :
    (t.mapIdx f).get l = f l (t.get l) := by cases l <;> rfl

@[simp] theorem tri_map_set {α β : Type} (f : α → β) (t : Tri α) (l : LaneId) (x : α) : (t.set l x).map f = (t.map f).set l (f x) := by
  cases l <;> rfl

theorem tri_ext {α : Type} {t u : Tri α} (h : ∀ l, t.get l = u.get l) : t = u := by
  have ha := h .a
  have hb := h .b
  have hc := h .c
  cases t
  cases u
  simp only [Tri.get] at ha hb hc
  rw [ha, hb, hc]

/-! ### The state -/

@[simp] theorem onChip_chip (s : State) (f : Chip → Chip) : (s.onChip f).chip = f s.chip := rfl
@[simp] theorem onChip_mem (s : State) (f : Chip → Chip) : (s.onChip f).mem = s.mem := rfl
@[simp] theorem onChip_pending (s : State) (f : Chip → Chip) : (s.onChip f).pending = s.pending := rfl
@[simp] theorem onMem_chip (s : State) (l : LaneId) (f : LaneMem → LaneMem) : (s.onMem l f).chip = s.chip := rfl
@[simp] theorem onMem_pending (s : State) (l : LaneId) (f : LaneMem → LaneMem) : (s.onMem l f).pending = s.pending := rfl
@[simp] theorem onMem_mem (s : State) (l : LaneId) (f : LaneMem → LaneMem) : (s.onMem l f).mem = s.mem.set l (f (s.mem.get l)) := rfl

/-! ### The chip, part by part -/

@[simp] theorem modLane_lanes (c : Chip) (l : LaneId) (f : Lane → Lane) : (c.modLane l f).lanes = c.lanes.set l (f (c.lanes.get l)) := rfl
@[simp] theorem modLane_bridges (c : Chip) (l : LaneId) (f : Lane → Lane) : (c.modLane l f).bridges = c.bridges := rfl
@[simp] theorem modLane_links (c : Chip) (l : LaneId) (f : Lane → Lane) : (c.modLane l f).links = c.links := rfl
@[simp] theorem modLane_pintle (c : Chip) (l : LaneId) (f : Lane → Lane) : (c.modLane l f).pintle = c.pintle := rfl
@[simp] theorem modLane_dev (c : Chip) (l : LaneId) (f : Lane → Lane) : (c.modLane l f).dev = c.dev := rfl
@[simp] theorem modLane_fresh (c : Chip) (l : LaneId) (f : Lane → Lane) : (c.modLane l f).fresh = c.fresh := rfl
@[simp] theorem modLanes_lanes (c : Chip) (f : LaneId → Lane → Lane) : (c.modLanes f).lanes = c.lanes.mapIdx f := rfl
@[simp] theorem modLanes_bridges (c : Chip) (f : LaneId → Lane → Lane) : (c.modLanes f).bridges = c.bridges := rfl
@[simp] theorem modLanes_links (c : Chip) (f : LaneId → Lane → Lane) : (c.modLanes f).links = c.links := rfl
@[simp] theorem modLanes_pintle (c : Chip) (f : LaneId → Lane → Lane) : (c.modLanes f).pintle = c.pintle := rfl
@[simp] theorem modLanes_dev (c : Chip) (f : LaneId → Lane → Lane) : (c.modLanes f).dev = c.dev := rfl
@[simp] theorem modLanes_fresh (c : Chip) (f : LaneId → Lane → Lane) : (c.modLanes f).fresh = c.fresh := rfl
@[simp] theorem modBridge_lanes (c : Chip) (l : LaneId) (f : Bridge → Bridge) : (c.modBridge l f).lanes = c.lanes := rfl
@[simp] theorem modBridge_bridges (c : Chip) (l : LaneId) (f : Bridge → Bridge) : (c.modBridge l f).bridges = c.bridges.set l (f (c.bridges.get l)) := rfl
@[simp] theorem modBridge_links (c : Chip) (l : LaneId) (f : Bridge → Bridge) : (c.modBridge l f).links = c.links := rfl
@[simp] theorem modBridge_pintle (c : Chip) (l : LaneId) (f : Bridge → Bridge) : (c.modBridge l f).pintle = c.pintle := rfl
@[simp] theorem modBridge_dev (c : Chip) (l : LaneId) (f : Bridge → Bridge) : (c.modBridge l f).dev = c.dev := rfl
@[simp] theorem modBridge_fresh (c : Chip) (l : LaneId) (f : Bridge → Bridge) : (c.modBridge l f).fresh = c.fresh := rfl
@[simp] theorem modBridges_lanes (c : Chip) (f : LaneId → Bridge → Bridge) : (c.modBridges f).lanes = c.lanes := rfl
@[simp] theorem modBridges_bridges (c : Chip) (f : LaneId → Bridge → Bridge) : (c.modBridges f).bridges = c.bridges.mapIdx f := rfl
@[simp] theorem modBridges_links (c : Chip) (f : LaneId → Bridge → Bridge) : (c.modBridges f).links = c.links := rfl
@[simp] theorem modBridges_pintle (c : Chip) (f : LaneId → Bridge → Bridge) : (c.modBridges f).pintle = c.pintle := rfl
@[simp] theorem modBridges_dev (c : Chip) (f : LaneId → Bridge → Bridge) : (c.modBridges f).dev = c.dev := rfl
@[simp] theorem modBridges_fresh (c : Chip) (f : LaneId → Bridge → Bridge) : (c.modBridges f).fresh = c.fresh := rfl
@[simp] theorem modPintle_lanes (c : Chip) (f : Pintle → Pintle) : (c.modPintle f).lanes = c.lanes := rfl
@[simp] theorem modPintle_bridges (c : Chip) (f : Pintle → Pintle) : (c.modPintle f).bridges = c.bridges := rfl
@[simp] theorem modPintle_links (c : Chip) (f : Pintle → Pintle) : (c.modPintle f).links = c.links := rfl
@[simp] theorem modPintle_pintle (c : Chip) (f : Pintle → Pintle) : (c.modPintle f).pintle = f c.pintle := rfl
@[simp] theorem modPintle_dev (c : Chip) (f : Pintle → Pintle) : (c.modPintle f).dev = c.dev := rfl
@[simp] theorem modPintle_fresh (c : Chip) (f : Pintle → Pintle) : (c.modPintle f).fresh = c.fresh := rfl
@[simp] theorem modPLane_lanes (c : Chip) (l : LaneId) (f : PLane → PLane) : (c.modPLane l f).lanes = c.lanes := rfl
@[simp] theorem modPLane_bridges (c : Chip) (l : LaneId) (f : PLane → PLane) : (c.modPLane l f).bridges = c.bridges := rfl
@[simp] theorem modPLane_links (c : Chip) (l : LaneId) (f : PLane → PLane) : (c.modPLane l f).links = c.links := rfl
@[simp] theorem modPLane_pintle (c : Chip) (l : LaneId) (f : PLane → PLane) : (c.modPLane l f).pintle = { c.pintle with lanes := c.pintle.lanes.set l (f (c.pintle.lanes.get l)) } := rfl
@[simp] theorem modPLane_dev (c : Chip) (l : LaneId) (f : PLane → PLane) : (c.modPLane l f).dev = c.dev := rfl
@[simp] theorem modPLane_fresh (c : Chip) (l : LaneId) (f : PLane → PLane) : (c.modPLane l f).fresh = c.fresh := rfl
@[simp] theorem modPOut_lanes (c : Chip) (k : Nat) (f : POut → POut) : (c.modPOut k f).lanes = c.lanes := rfl
@[simp] theorem modPOut_bridges (c : Chip) (k : Nat) (f : POut → POut) : (c.modPOut k f).bridges = c.bridges := rfl
@[simp] theorem modPOut_links (c : Chip) (k : Nat) (f : POut → POut) : (c.modPOut k f).links = c.links := rfl
@[simp] theorem modPOut_pintle (c : Chip) (k : Nat) (f : POut → POut) : (c.modPOut k f).pintle = { c.pintle with outs := modNth c.pintle.outs k f } := rfl
@[simp] theorem modPOut_dev (c : Chip) (k : Nat) (f : POut → POut) : (c.modPOut k f).dev = c.dev := rfl
@[simp] theorem modPOut_fresh (c : Chip) (k : Nat) (f : POut → POut) : (c.modPOut k f).fresh = c.fresh := rfl
@[simp] theorem modDev_lanes (c : Chip) (f : Dev → Dev) : (c.modDev f).lanes = c.lanes := rfl
@[simp] theorem modDev_bridges (c : Chip) (f : Dev → Dev) : (c.modDev f).bridges = c.bridges := rfl
@[simp] theorem modDev_links (c : Chip) (f : Dev → Dev) : (c.modDev f).links = c.links := rfl
@[simp] theorem modDev_pintle (c : Chip) (f : Dev → Dev) : (c.modDev f).pintle = c.pintle := rfl
@[simp] theorem modDev_dev (c : Chip) (f : Dev → Dev) : (c.modDev f).dev = f c.dev := rfl
@[simp] theorem modDev_fresh (c : Chip) (f : Dev → Dev) : (c.modDev f).fresh = c.fresh := rfl
@[simp] theorem modCfg_lanes (c : Chip) (f : CfgState → CfgState) : (c.modCfg f).lanes = c.lanes := rfl
@[simp] theorem modCfg_bridges (c : Chip) (f : CfgState → CfgState) : (c.modCfg f).bridges = c.bridges := rfl
@[simp] theorem modCfg_links (c : Chip) (f : CfgState → CfgState) : (c.modCfg f).links = c.links := rfl
@[simp] theorem modCfg_pintle (c : Chip) (f : CfgState → CfgState) : (c.modCfg f).pintle = c.pintle := rfl
@[simp] theorem modCfg_dev (c : Chip) (f : CfgState → CfgState) : (c.modCfg f).dev = { c.dev with cfg := f c.dev.cfg } := rfl
@[simp] theorem modCfg_fresh (c : Chip) (f : CfgState → CfgState) : (c.modCfg f).fresh = c.fresh := rfl
@[simp] theorem modHost_lanes (c : Chip) (l : LaneId) (f : HostLink → HostLink) : (c.modHost l f).lanes = c.lanes := rfl
@[simp] theorem modHost_bridges (c : Chip) (l : LaneId) (f : HostLink → HostLink) : (c.modHost l f).bridges = c.bridges := rfl
@[simp] theorem modHost_links (c : Chip) (l : LaneId) (f : HostLink → HostLink) : (c.modHost l f).links = c.links := rfl
@[simp] theorem modHost_pintle (c : Chip) (l : LaneId) (f : HostLink → HostLink) : (c.modHost l f).pintle = c.pintle := rfl
@[simp] theorem modHost_dev (c : Chip) (l : LaneId) (f : HostLink → HostLink) : (c.modHost l f).dev = { c.dev with hosts := c.dev.hosts.set l (f (c.dev.hosts.get l)) } := rfl
@[simp] theorem modHost_fresh (c : Chip) (l : LaneId) (f : HostLink → HostLink) : (c.modHost l f).fresh = c.fresh := rfl
@[simp] theorem modLoop_lanes (c : Chip) (n : Nat) (f : Loop → Loop) : (c.modLoop n f).lanes = c.lanes := rfl
@[simp] theorem modLoop_bridges (c : Chip) (n : Nat) (f : Loop → Loop) : (c.modLoop n f).bridges = c.bridges := rfl
@[simp] theorem modLoop_links (c : Chip) (n : Nat) (f : Loop → Loop) : (c.modLoop n f).links = c.links := rfl
@[simp] theorem modLoop_pintle (c : Chip) (n : Nat) (f : Loop → Loop) : (c.modLoop n f).pintle = c.pintle := rfl
@[simp] theorem modLoop_dev (c : Chip) (n : Nat) (f : Loop → Loop) : (c.modLoop n f).dev = { c.dev with loops := modNth c.dev.loops n f } := rfl
@[simp] theorem modLoop_fresh (c : Chip) (n : Nat) (f : Loop → Loop) : (c.modLoop n f).fresh = c.fresh := rfl
@[simp] theorem modStep_lanes (c : Chip) (k : Nat) (f : Stepper → Stepper) : (c.modStep k f).lanes = c.lanes := rfl
@[simp] theorem modStep_bridges (c : Chip) (k : Nat) (f : Stepper → Stepper) : (c.modStep k f).bridges = c.bridges := rfl
@[simp] theorem modStep_links (c : Chip) (k : Nat) (f : Stepper → Stepper) : (c.modStep k f).links = c.links := rfl
@[simp] theorem modStep_pintle (c : Chip) (k : Nat) (f : Stepper → Stepper) : (c.modStep k f).pintle = c.pintle := rfl
@[simp] theorem modStep_dev (c : Chip) (k : Nat) (f : Stepper → Stepper) : (c.modStep k f).dev = { c.dev with steppers := modNth c.dev.steppers k f } := rfl
@[simp] theorem modStep_fresh (c : Chip) (k : Nat) (f : Stepper → Stepper) : (c.modStep k f).fresh = c.fresh := rfl
@[simp] theorem modMotor_lanes (c : Chip) (k : Nat) (f : Motor → Motor) : (c.modMotor k f).lanes = c.lanes := rfl
@[simp] theorem modMotor_bridges (c : Chip) (k : Nat) (f : Motor → Motor) : (c.modMotor k f).bridges = c.bridges := rfl
@[simp] theorem modMotor_links (c : Chip) (k : Nat) (f : Motor → Motor) : (c.modMotor k f).links = c.links := rfl
@[simp] theorem modMotor_pintle (c : Chip) (k : Nat) (f : Motor → Motor) : (c.modMotor k f).pintle = c.pintle := rfl
@[simp] theorem modMotor_dev (c : Chip) (k : Nat) (f : Motor → Motor) : (c.modMotor k f).dev = { c.dev with motors := modNth c.dev.motors k f } := rfl
@[simp] theorem modMotor_fresh (c : Chip) (k : Nat) (f : Motor → Motor) : (c.modMotor k f).fresh = c.fresh := rfl
@[simp] theorem modSet_lanes (c : Chip) (k : Nat) (l : LaneId) (f : WindSet → WindSet) : (c.modSet k l f).lanes = c.lanes := rfl
@[simp] theorem modSet_bridges (c : Chip) (k : Nat) (l : LaneId) (f : WindSet → WindSet) : (c.modSet k l f).bridges = c.bridges := rfl
@[simp] theorem modSet_links (c : Chip) (k : Nat) (l : LaneId) (f : WindSet → WindSet) : (c.modSet k l f).links = c.links := rfl
@[simp] theorem modSet_pintle (c : Chip) (k : Nat) (l : LaneId) (f : WindSet → WindSet) : (c.modSet k l f).pintle = c.pintle := rfl
@[simp] theorem modSet_dev (c : Chip) (k : Nat) (l : LaneId) (f : WindSet → WindSet) : (c.modSet k l f).dev = { c.dev with motors := modNth c.dev.motors k (fun m => { m with sets := m.sets.set l (f (m.sets.get l)) }) } := rfl
@[simp] theorem modSet_fresh (c : Chip) (k : Nat) (l : LaneId) (f : WindSet → WindSet) : (c.modSet k l f).fresh = c.fresh := rfl
@[simp] theorem modSnow_lanes (c : Chip) (f : Snow → Snow) : (c.modSnow f).lanes = c.lanes := rfl
@[simp] theorem modSnow_bridges (c : Chip) (f : Snow → Snow) : (c.modSnow f).bridges = c.bridges := rfl
@[simp] theorem modSnow_links (c : Chip) (f : Snow → Snow) : (c.modSnow f).links = c.links := rfl
@[simp] theorem modSnow_pintle (c : Chip) (f : Snow → Snow) : (c.modSnow f).pintle = c.pintle := rfl
@[simp] theorem modSnow_dev (c : Chip) (f : Snow → Snow) : (c.modSnow f).dev = { c.dev with snow := f c.dev.snow } := rfl
@[simp] theorem modSnow_fresh (c : Chip) (f : Snow → Snow) : (c.modSnow f).fresh = c.fresh := rfl
@[simp] theorem modEngine_lanes (c : Chip) (l : LaneId) (k : Nat) (f : Engine → Engine) : (c.modEngine l k f).lanes = c.lanes.set l { c.lanes.get l with engines := modNth (c.lanes.get l).engines k f } := rfl
@[simp] theorem modEngine_bridges (c : Chip) (l : LaneId) (k : Nat) (f : Engine → Engine) : (c.modEngine l k f).bridges = c.bridges := rfl
@[simp] theorem modEngine_links (c : Chip) (l : LaneId) (k : Nat) (f : Engine → Engine) : (c.modEngine l k f).links = c.links := rfl
@[simp] theorem modEngine_pintle (c : Chip) (l : LaneId) (k : Nat) (f : Engine → Engine) : (c.modEngine l k f).pintle = c.pintle := rfl
@[simp] theorem modEngine_dev (c : Chip) (l : LaneId) (k : Nat) (f : Engine → Engine) : (c.modEngine l k f).dev = c.dev := rfl
@[simp] theorem modEngine_fresh (c : Chip) (l : LaneId) (k : Nat) (f : Engine → Engine) : (c.modEngine l k f).fresh = c.fresh := rfl
@[simp] theorem modFb_lanes (c : Chip) (l : LaneId) (k : Nat) (f : FbChan → FbChan) : (c.modFb l k f).lanes = c.lanes.set l { c.lanes.get l with fb := modNth (c.lanes.get l).fb k f } := rfl
@[simp] theorem modFb_bridges (c : Chip) (l : LaneId) (k : Nat) (f : FbChan → FbChan) : (c.modFb l k f).bridges = c.bridges := rfl
@[simp] theorem modFb_links (c : Chip) (l : LaneId) (k : Nat) (f : FbChan → FbChan) : (c.modFb l k f).links = c.links := rfl
@[simp] theorem modFb_pintle (c : Chip) (l : LaneId) (k : Nat) (f : FbChan → FbChan) : (c.modFb l k f).pintle = c.pintle := rfl
@[simp] theorem modFb_dev (c : Chip) (l : LaneId) (k : Nat) (f : FbChan → FbChan) : (c.modFb l k f).dev = c.dev := rfl
@[simp] theorem modFb_fresh (c : Chip) (l : LaneId) (k : Nat) (f : FbChan → FbChan) : (c.modFb l k f).fresh = c.fresh := rfl
@[simp] theorem modPort_lanes (c : Chip) (l : LaneId) (k : Nat) (f : NetPort → NetPort) : (c.modPort l k f).lanes = c.lanes.set l { c.lanes.get l with net := { (c.lanes.get l).net with ports := modNth (c.lanes.get l).net.ports k f } } := rfl
@[simp] theorem modPort_bridges (c : Chip) (l : LaneId) (k : Nat) (f : NetPort → NetPort) : (c.modPort l k f).bridges = c.bridges := rfl
@[simp] theorem modPort_links (c : Chip) (l : LaneId) (k : Nat) (f : NetPort → NetPort) : (c.modPort l k f).links = c.links := rfl
@[simp] theorem modPort_pintle (c : Chip) (l : LaneId) (k : Nat) (f : NetPort → NetPort) : (c.modPort l k f).pintle = c.pintle := rfl
@[simp] theorem modPort_dev (c : Chip) (l : LaneId) (k : Nat) (f : NetPort → NetPort) : (c.modPort l k f).dev = c.dev := rfl
@[simp] theorem modPort_fresh (c : Chip) (l : LaneId) (k : Nat) (f : NetPort → NetPort) : (c.modPort l k f).fresh = c.fresh := rfl
@[simp] theorem modCv_lanes (c : Chip) (l : LaneId) (k : Nat) (f : CvUnit → CvUnit) : (c.modCv l k f).lanes = c.lanes.set l { c.lanes.get l with cv := modNth (c.lanes.get l).cv k f } := rfl
@[simp] theorem modCv_bridges (c : Chip) (l : LaneId) (k : Nat) (f : CvUnit → CvUnit) : (c.modCv l k f).bridges = c.bridges := rfl
@[simp] theorem modCv_links (c : Chip) (l : LaneId) (k : Nat) (f : CvUnit → CvUnit) : (c.modCv l k f).links = c.links := rfl
@[simp] theorem modCv_pintle (c : Chip) (l : LaneId) (k : Nat) (f : CvUnit → CvUnit) : (c.modCv l k f).pintle = c.pintle := rfl
@[simp] theorem modCv_dev (c : Chip) (l : LaneId) (k : Nat) (f : CvUnit → CvUnit) : (c.modCv l k f).dev = c.dev := rfl
@[simp] theorem modCv_fresh (c : Chip) (l : LaneId) (k : Nat) (f : CvUnit → CvUnit) : (c.modCv l k f).fresh = c.fresh := rfl
@[simp] theorem modSio_lanes (c : Chip) (l : LaneId) (f : LaneSio → LaneSio) : (c.modSio l f).lanes = c.lanes.set l { c.lanes.get l with sio := f (c.lanes.get l).sio } := rfl
@[simp] theorem modSio_bridges (c : Chip) (l : LaneId) (f : LaneSio → LaneSio) : (c.modSio l f).bridges = c.bridges := rfl
@[simp] theorem modSio_links (c : Chip) (l : LaneId) (f : LaneSio → LaneSio) : (c.modSio l f).links = c.links := rfl
@[simp] theorem modSio_pintle (c : Chip) (l : LaneId) (f : LaneSio → LaneSio) : (c.modSio l f).pintle = c.pintle := rfl
@[simp] theorem modSio_dev (c : Chip) (l : LaneId) (f : LaneSio → LaneSio) : (c.modSio l f).dev = c.dev := rfl
@[simp] theorem modSio_fresh (c : Chip) (l : LaneId) (f : LaneSio → LaneSio) : (c.modSio l f).fresh = c.fresh := rfl
@[simp] theorem modNet_lanes (c : Chip) (l : LaneId) (f : Ocgal → Ocgal) : (c.modNet l f).lanes = c.lanes.set l { c.lanes.get l with net := f (c.lanes.get l).net } := rfl
@[simp] theorem modNet_bridges (c : Chip) (l : LaneId) (f : Ocgal → Ocgal) : (c.modNet l f).bridges = c.bridges := rfl
@[simp] theorem modNet_links (c : Chip) (l : LaneId) (f : Ocgal → Ocgal) : (c.modNet l f).links = c.links := rfl
@[simp] theorem modNet_pintle (c : Chip) (l : LaneId) (f : Ocgal → Ocgal) : (c.modNet l f).pintle = c.pintle := rfl
@[simp] theorem modNet_dev (c : Chip) (l : LaneId) (f : Ocgal → Ocgal) : (c.modNet l f).dev = c.dev := rfl
@[simp] theorem modNet_fresh (c : Chip) (l : LaneId) (f : Ocgal → Ocgal) : (c.modNet l f).fresh = c.fresh := rfl
@[simp] theorem modClock_lanes (c : Chip) (l : LaneId) (f : Clock → Clock) : (c.modClock l f).lanes = c.lanes.set l { c.lanes.get l with clock := f (c.lanes.get l).clock } := rfl
@[simp] theorem modClock_bridges (c : Chip) (l : LaneId) (f : Clock → Clock) : (c.modClock l f).bridges = c.bridges := rfl
@[simp] theorem modClock_links (c : Chip) (l : LaneId) (f : Clock → Clock) : (c.modClock l f).links = c.links := rfl
@[simp] theorem modClock_pintle (c : Chip) (l : LaneId) (f : Clock → Clock) : (c.modClock l f).pintle = c.pintle := rfl
@[simp] theorem modClock_dev (c : Chip) (l : LaneId) (f : Clock → Clock) : (c.modClock l f).dev = c.dev := rfl
@[simp] theorem modClock_fresh (c : Chip) (l : LaneId) (f : Clock → Clock) : (c.modClock l f).fresh = c.fresh := rfl

@[simp] theorem lane_eq (c : Chip) (l : LaneId) : c.lane l = c.lanes.get l := rfl

/-! ### Updates with a condition -/

theorem modSession_eq (c : Chip) (n : Nat) (f : Session → Session) :
    c.modSession n f = c.modDev (fun d => { d with sessions := if n = 0 then d.sessions else modNth d.sessions (n - 1) f }) := by
  unfold Chip.modSession
  split <;> rfl

@[simp] theorem modSession_lanes (c : Chip) (n : Nat) (f : Session → Session) : (c.modSession n f).lanes = c.lanes := by rw [modSession_eq]; rfl
@[simp] theorem modSession_bridges (c : Chip) (n : Nat) (f : Session → Session) : (c.modSession n f).bridges = c.bridges := by rw [modSession_eq]; rfl
@[simp] theorem modSession_links (c : Chip) (n : Nat) (f : Session → Session) : (c.modSession n f).links = c.links := by rw [modSession_eq]; rfl
@[simp] theorem modSession_pintle (c : Chip) (n : Nat) (f : Session → Session) : (c.modSession n f).pintle = c.pintle := by rw [modSession_eq]; rfl
@[simp] theorem modSession_fresh (c : Chip) (n : Nat) (f : Session → Session) : (c.modSession n f).fresh = c.fresh := by rw [modSession_eq]; rfl
@[simp] theorem modSession_dev (c : Chip) (n : Nat) (f : Session → Session) :
    (c.modSession n f).dev = { c.dev with sessions := if n = 0 then c.dev.sessions else modNth c.dev.sessions (n - 1) f } := by
  rw [modSession_eq]; rfl

@[simp] theorem modLink_lanes (c : Chip) (k : Nat) (f : LaneLink → LaneLink) : (c.modLink k f).lanes = c.lanes := by unfold Chip.modLink; split <;> rfl
@[simp] theorem modLink_bridges (c : Chip) (k : Nat) (f : LaneLink → LaneLink) : (c.modLink k f).bridges = c.bridges := by unfold Chip.modLink; split <;> rfl
@[simp] theorem modLink_pintle (c : Chip) (k : Nat) (f : LaneLink → LaneLink) : (c.modLink k f).pintle = c.pintle := by unfold Chip.modLink; split <;> rfl
@[simp] theorem modLink_dev (c : Chip) (k : Nat) (f : LaneLink → LaneLink) : (c.modLink k f).dev = c.dev := by unfold Chip.modLink; split <;> rfl
@[simp] theorem modLink_fresh (c : Chip) (k : Nat) (f : LaneLink → LaneLink) : (c.modLink k f).fresh = c.fresh := by unfold Chip.modLink; split <;> rfl

/-! ### Lists changed in one place -/

@[simp] theorem modNth_length {α : Type} (xs : List α) (k : Nat) (f : α → α) : (modNth xs k f).length = xs.length := by
  simp [modNth]

theorem nth_modNth_same {α : Type} (xs : List α) (k : Nat) (f : α → α) (d : α) (h : k < xs.length) :
    nth (modNth xs k f) k d = f (nth xs k d) := by
  induction xs generalizing k with
  | nil => exact absurd h (Nat.not_lt_zero _)
  | cons x r ih => cases k with
    | zero => rfl
    | succ n => exact ih n (by simpa using h)

theorem nth_modNth_ne {α : Type} (xs : List α) (k j : Nat) (f : α → α) (d : α) (h : j ≠ k) :
    nth (modNth xs k f) j d = nth xs j d := by
  induction xs generalizing k j with
  | nil => cases k <;> rfl
  | cons x r ih => cases k with
    | zero => cases j with
      | zero => exact absurd rfl h
      | succ n => rfl
    | succ n => cases j with
      | zero => rfl
      | succ m => exact ih n m (fun e => h (by rw [e]))

end Sys2Proof.Machine
end

