-- ==== Sys2Proof/Laws/Faults.lean ====
section
/-! SUPPORT. Everything that recording a fault can change: the collectors, the events on their way to the hosts, the links' event
counters, and the period's agreed events. -/

namespace Sys2Proof.Machine

open Sys2Proof

/-- What recording faults leaves of a chip: all but the fault collectors, the lanes' queues of events, the event counters of the
host links and the period's agreed events. -/
structure RecordsOnly (c d : Chip) : Prop where
  bridges : d.bridges = c.bridges
  links : d.links = c.links
  pintle : d.pintle = c.pintle
  fresh : d.fresh = c.fresh
  dev : d.dev = { c.dev with hosts := d.dev.hosts, events := d.dev.events }
  hosts : ∀ l, d.dev.hosts.get l = { c.dev.hosts.get l with events := (d.dev.hosts.get l).events }
  lanes : ∀ l, d.lanes.get l = { c.lanes.get l with fault := (d.lanes.get l).fault, txq := (d.lanes.get l).txq }

theorem RecordsOnly.refl (c : Chip) : RecordsOnly c c := ⟨rfl, rfl, rfl, rfl, rfl, fun _ => rfl, fun _ => rfl⟩

theorem RecordsOnly.trans {c d e : Chip} (h : RecordsOnly c d) (k : RecordsOnly d e) : RecordsOnly c e where
  bridges := k.bridges.trans h.bridges
  links := k.links.trans h.links
  pintle := k.pintle.trans h.pintle
  fresh := k.fresh.trans h.fresh
  dev := by rw [k.dev, h.dev]
  hosts := fun l => by rw [k.hosts l, h.hosts l]
  lanes := fun l => by rw [k.lanes l, h.lanes l]

/-- A change of one lane's collector and queue only. -/
theorem recordsOnly_lane (c : Chip) (l : LaneId) (f : Lane → Lane) (h : ∀ n, f n = { n with fault := (f n).fault, txq := (f n).txq }) :
    RecordsOnly c (c.modLane l f) where
  bridges := rfl
  links := rfl
  pintle := rfl
  fresh := rfl
  dev := rfl
  hosts := fun _ => rfl
  lanes := fun k => by
    simp only [modLane_lanes, tri_get_set]
    split
    · rename_i e
      subst e
      exact h _
    · rfl

theorem recordsOnly_host (c : Chip) (l : LaneId) (n : Nat) : RecordsOnly c (c.modHost l (fun h => { h with events := n })) where
  bridges := rfl
  links := rfl
  pintle := rfl
  fresh := rfl
  dev := rfl
  hosts := fun k => by
    simp only [modHost_dev, tri_get_set]
    split
    · rename_i e
      subst e
      rfl
    · rfl
  lanes := fun _ => rfl

theorem pushEvent_only (c : Chip) (l : LaneId) (q : List Byte) : RecordsOnly c (c.pushEvent l q) := by
  unfold Chip.pushEvent
  exact (recordsOnly_host c l _).trans (recordsOnly_lane _ l _ (fun _ => rfl))

theorem event_only (c : Chip) (l : LaneId) (n : Nat) (d : List Byte) : RecordsOnly c (c.event l n d) := pushEvent_only ..

theorem recordIn_only (c : Chip) (l : LaneId) (r : FaultRec) : RecordsOnly c (c.recordIn l r) := by
  unfold Chip.recordIn
  split
  simp only
  split
  · exact (recordsOnly_lane c l _ (fun _ => rfl)).trans (event_only ..)
  · exact recordsOnly_lane c l _ (fun _ => rfl)

/-- A local record changes nothing but the accounts of faults and events. -/
theorem localFault_only (c : Chip) (l : LaneId) (code t i lane : Nat) : RecordsOnly c (c.localFault l code t i lane) := recordIn_only ..

theorem closeGap_only (c : Chip) (l : LaneId) (nt : Nat) : RecordsOnly c (c.closeGap l nt) := by
  unfold Chip.closeGap
  split
  · exact (recordsOnly_lane c l _ (fun _ => rfl)).trans (recordIn_only ..)
  · exact RecordsOnly.refl c

theorem recordsOnly_events (c : Chip) (f : List (LaneId × OutPacket) → List (LaneId × OutPacket)) :
    RecordsOnly c (c.modDev (fun d => { d with events := f d.events })) := ⟨rfl, rfl, rfl, rfl, rfl, fun _ => rfl, fun _ => rfl⟩

theorem noteEvents_only (c : Chip) (l : LaneId) (f : Chip → Chip) (h : RecordsOnly c (f c)) : RecordsOnly c (c.noteEvents l f) :=
  h.trans (recordsOnly_events (f c) (· ++ (((f c).lane l).txq.drop (c.lane l).txq.length).map (fun p => (l, p))))

theorem agreedIn_only (c : Chip) (l : LaneId) (r : FaultRec) : RecordsOnly c (c.agreedIn l r) :=
  noteEvents_only c l _ ((closeGap_only c l r.nt).trans (recordIn_only ..))

theorem foldl_only {α : Type} (f : Chip → α → Chip) (h : ∀ c x, RecordsOnly c (f c x)) (xs : List α) (c : Chip) :
    RecordsOnly c (xs.foldl f c) := by
  induction xs generalizing c with
  | nil => exact RecordsOnly.refl c
  | cons x r ih => exact (h c x).trans (ih (f c x))

/-- An agreed record changes nothing but the accounts of faults and events. -/
theorem agreedFault_only (c : Chip) (code t i lane count : Nat) : RecordsOnly c (c.agreedFault code t i lane count) := by
  unfold Chip.agreedFault
  refine foldl_only _ (fun c l => ?_) _ c
  simp only
  split
  · exact agreedIn_only ..
  · split
    · exact recordsOnly_lane c l _ (fun _ => rfl)
    · exact RecordsOnly.refl c

/-- A stop cause changes besides these accounts only the pending cause of a stop (R449). -/
theorem stopCause_dev (c : Chip) (cause : Nat) :
    (c.stopCause cause).dev = { c.dev with
      hosts := (c.stopCause cause).dev.hosts, events := (c.stopCause cause).dev.events, snow := (c.stopCause cause).dev.snow } := by
  have h := (agreedFault_only c 0x0601 0 cause 0xFF 1).dev
  unfold Chip.stopCause
  simp only
  split
  · rw [h]
  · split
    · rw [h]
    · simp only [modSnow_dev]
      rw [h]

end Sys2Proof.Machine
end

