-- ==== Sys2Proof/Laws/Links.lean ====
section
/-! SUPPORT. What the shared operations of the host bridges and of the lane links change: the receive buffers, the edge causes and the
queue of one bridge, and the traffic of the links. -/

namespace Sys2Proof.Machine

open Sys2Proof

/-- A change of the held packets touches only that bridge's packets and its edge causes (R66, R70). -/
theorem setRx_eq (c : Chip) (l : LaneId) (rx : List RxPacket) :
    ∃ e : Mask, c.setRx l rx = c.modBridge l (fun b => { b with rx := rx, edges := e }) := by
  unfold Chip.setRx Chip.raiseEdge
  simp only
  split
  · refine ⟨(c.bridges.get l).edges ||| bitMask 2, ?_⟩
    unfold Chip.modBridge
    simp
  · exact ⟨(c.bridges.get l).edges, rfl⟩

@[simp] theorem setRx_lanes (c : Chip) (l : LaneId) (rx : List RxPacket) : (c.setRx l rx).lanes = c.lanes := by
  obtain ⟨e, h⟩ := setRx_eq c l rx
  rw [h]
  rfl

@[simp] theorem setRx_links (c : Chip) (l : LaneId) (rx : List RxPacket) : (c.setRx l rx).links = c.links := by
  obtain ⟨e, h⟩ := setRx_eq c l rx
  rw [h]
  rfl

@[simp] theorem setRx_pintle (c : Chip) (l : LaneId) (rx : List RxPacket) : (c.setRx l rx).pintle = c.pintle := by
  obtain ⟨e, h⟩ := setRx_eq c l rx
  rw [h]
  rfl

@[simp] theorem setRx_dev (c : Chip) (l : LaneId) (rx : List RxPacket) : (c.setRx l rx).dev = c.dev := by
  obtain ⟨e, h⟩ := setRx_eq c l rx
  rw [h]
  rfl

@[simp] theorem setRx_fresh (c : Chip) (l : LaneId) (rx : List RxPacket) : (c.setRx l rx).fresh = c.fresh := by
  obtain ⟨e, h⟩ := setRx_eq c l rx
  rw [h]
  rfl

@[simp] theorem setRx_rx (c : Chip) (l : LaneId) (rx : List RxPacket) : ((c.setRx l rx).bridges.get l).rx = rx := by
  obtain ⟨e, h⟩ := setRx_eq c l rx
  rw [h, modBridge_bridges, tri_get_set_same]

@[simp] theorem setRx_silent (c : Chip) (l : LaneId) (rx : List RxPacket) :
    ((c.setRx l rx).bridges.get l).silent = (c.bridges.get l).silent := by
  obtain ⟨e, h⟩ := setRx_eq c l rx
  rw [h, modBridge_bridges, tri_get_set_same]

@[simp] theorem setRx_queue (c : Chip) (l : LaneId) (rx : List RxPacket) :
    ((c.setRx l rx).bridges.get l).queue = (c.bridges.get l).queue := by
  obtain ⟨e, h⟩ := setRx_eq c l rx
  rw [h, modBridge_bridges, tri_get_set_same]

theorem setRx_ne (c : Chip) (l k : LaneId) (rx : List RxPacket) (h : k ≠ l) : (c.setRx l rx).bridges.get k = c.bridges.get k := by
  obtain ⟨e, he⟩ := setRx_eq c l rx
  rw [he, modBridge_bridges, tri_get_set_ne _ _ _ _ h]

/-! ### Traffic of the lane links -/

/-- What link traffic leaves of a chip: all but the transfers that wait (R12). -/
structure TrafficOnly (c d : Chip) : Prop where
  lanes : d.lanes = c.lanes
  bridges : d.bridges = c.bridges
  pintle : d.pintle = c.pintle
  dev : d.dev = c.dev
  fresh : d.fresh = c.fresh
  fenced : ∀ k, (d.linkAt k).fenced = (c.linkAt k).fenced
  failedNow : ∀ k, (d.linkAt k).failedNow = (c.linkAt k).failedNow
  failedLast : ∀ k, (d.linkAt k).failedLast = (c.linkAt k).failedLast

theorem TrafficOnly.refl (c : Chip) : TrafficOnly c c := ⟨rfl, rfl, rfl, rfl, rfl, fun _ => rfl, fun _ => rfl, fun _ => rfl⟩

theorem TrafficOnly.trans {c d e : Chip} (h : TrafficOnly c d) (k : TrafficOnly d e) : TrafficOnly c e where
  lanes := k.lanes.trans h.lanes
  bridges := k.bridges.trans h.bridges
  pintle := k.pintle.trans h.pintle
  dev := k.dev.trans h.dev
  fresh := k.fresh.trans h.fresh
  fenced := fun j => (k.fenced j).trans (h.fenced j)
  failedNow := fun j => (k.failedNow j).trans (h.failedNow j)
  failedLast := fun j => (k.failedLast j).trans (h.failedLast j)

/-- A change of the transfers that wait on one link. -/
theorem modLink_traffic (c : Chip) (j : Nat) (f : LaneLink → LaneLink)
    (h : ∀ x, (f x).fenced = x.fenced ∧ (f x).failedNow = x.failedNow ∧ (f x).failedLast = x.failedLast) : TrafficOnly c (c.modLink j f) := by
  have key : ∀ k, (c.modLink j f).linkAt k = c.linkAt k ∨ (c.modLink j f).linkAt k = f (c.linkAt k) := by
    intro k
    unfold Chip.modLink Chip.linkAt
    cases LaneId.ofIdx j with
    | none => exact Or.inl rfl
    | some l =>
      cases LaneId.ofIdx k with
      | none => exact Or.inl rfl
      | some m =>
        simp only [tri_get_set]
        split
        · rename_i e
          subst e
          exact Or.inr rfl
        · exact Or.inl rfl
  refine ⟨by simp, by simp, by simp, by simp, by simp, fun k => ?_, fun k => ?_, fun k => ?_⟩ <;>
    rcases key k with e | e <;> rw [e] <;> simp [h]

theorem pushLink_traffic (c : Chip) (tx rx : LaneId) (x : LinkXfer) : TrafficOnly c (c.pushLink tx rx x) :=
  modLink_traffic _ _ _ (fun x => by split <;> exact ⟨rfl, rfl, rfl⟩)

/-- A transfer sent, directly or relayed, only waits (R12, R14). -/
theorem sendLink_traffic (c : Chip) (tx rx : LaneId) (t : Traffic) (q : Nat) : TrafficOnly c (c.sendLink tx rx t q) := by
  unfold Chip.sendLink
  split
  · exact TrafficOnly.refl c
  · split
    · split
      · split
        · exact TrafficOnly.refl c
        · exact pushLink_traffic ..
      · exact TrafficOnly.refl c
    · exact pushLink_traffic ..

theorem sendLinks_traffic (tx : LaneId) (rxs : List LaneId) (t : Traffic) (q : Nat) : ∀ c : Chip, TrafficOnly c (c.sendLinks tx rxs t q) := by
  induction rxs with
  | nil => exact TrafficOnly.refl
  | cons r rs ih => exact fun c => (sendLink_traffic c tx r t q).trans (ih _)

theorem relayOn_traffic (c : Chip) (l : LaneId) (x : Option LinkXfer) : TrafficOnly c (c.relayOn l x) := by
  unfold Chip.relayOn
  split
  · split
    · exact TrafficOnly.refl c
    · exact pushLink_traffic ..
  · exact TrafficOnly.refl c

theorem tickLink_traffic (c : Chip) (k : Nat) : TrafficOnly c (c.tickLink k) :=
  ((modLink_traffic c k (fun x => { x with out := (c.linkAt k).out.tick.1, back := (c.linkAt k).back.tick.1 })
    (fun _ => ⟨rfl, rfl, rfl⟩)).trans (relayOn_traffic ..)).trans (relayOn_traffic ..)

/-- A tick of the links serves their traffic and changes nothing else (R12). -/
theorem tickLinks_traffic (c : Chip) : TrafficOnly c c.tickLinks :=
  ((tickLink_traffic c 0).trans (tickLink_traffic _ 1)).trans (tickLink_traffic _ 2)

end Sys2Proof.Machine
end

