-- ==== Sys2Proof/Laws/Memory.lean ====
section
/-! SUPPORT. The addressed memories: reading after writing, and the canonical form that every operation keeps. -/

namespace Sys2Proof.Machine

open Sys2Proof

/-! ### Reading after writing -/

theorem cellGet_erase_same (m : List Host.Cell) (a : Nat) : cellGet (cellErase m a) a = unlisted := by
  induction m with
  | nil => rfl
  | cons e r ih =>
    unfold cellErase at ih ⊢
    by_cases h : e.1 = a
    · simp [h, ih]
    · simp [h, cellGet, ih]

theorem cellGet_erase_ne (m : List Host.Cell) (a b : Nat) (h : b ≠ a) : cellGet (cellErase m a) b = cellGet m b := by
  induction m with
  | nil => rfl
  | cons e r ih =>
    unfold cellErase at ih ⊢
    by_cases he : e.1 = a
    · have : e.1 ≠ b := fun x => h (x ▸ he)
      simp [he, cellGet, ih]
      intro x
      exact absurd x.symm h
    · have hk : (e :: r).filter (fun x => x.1 != a) = e :: r.filter (fun x => x.1 != a) := by simp [he]
      rw [hk]
      simp only [cellGet, ih]

theorem cellGet_insert_same (m : List Host.Cell) (a : Nat) (v : Byte) : cellGet (cellInsert m a v) a = v := by
  induction m with
  | nil => simp [cellInsert, cellGet]
  | cons e r ih =>
    unfold cellInsert
    split
    · simp [cellGet]
    · split
      · simp [cellGet]
      · rename_i h1 h2
        have : e.1 ≠ a := fun x => h2 x.symm
        simp [cellGet, this, ih]

theorem cellGet_insert_ne (m : List Host.Cell) (a b : Nat) (v : Byte) (h : b ≠ a) : cellGet (cellInsert m a v) b = cellGet m b := by
  have h' : ¬ a = b := fun x => h x.symm
  induction m with
  | nil => simp [cellInsert, cellGet, h']
  | cons e r ih =>
    unfold cellInsert
    split
    · simp [cellGet, h']
    · split
      · rename_i h1 h2
        have : ¬ e.1 = b := fun x => h (x ▸ h2.symm)
        simp [cellGet, h', this]
      · simp only [cellGet, ih]

/-- A byte written is read back. -/
theorem cellGet_set_same (m : List Host.Cell) (a : Nat) (v : Byte) : cellGet (cellSet m a v) a = v := by
  unfold cellSet
  split
  · rename_i h
    rw [h, cellGet_erase_same]
  · exact cellGet_insert_same m a v

/-- A write of one byte leaves every other byte. -/
theorem cellGet_set_ne (m : List Host.Cell) (a b : Nat) (v : Byte) (h : b ≠ a) : cellGet (cellSet m a v) b = cellGet m b := by
  unfold cellSet
  split
  · exact cellGet_erase_ne m a b h
  · exact cellGet_insert_ne m a b v h

/-- A write leaves every byte below and beyond it. -/
theorem cellGet_write_outside (m : List Host.Cell) (a b : Nat) (bs : List Byte) (h : b < a ∨ a + bs.length ≤ b) :
    cellGet (cellWrite m a bs) b = cellGet m b := by
  induction bs generalizing m a with
  | nil => rfl
  | cons x r ih =>
    simp only [List.length_cons] at h
    rw [cellWrite, ih _ _ (by omega), cellGet_set_ne _ _ _ _ (by omega)]

/-! ### The canonical form -/

/-- The canonical form as a chain: every address beyond a bound, strictly rising, no byte listed that an unlisted address reads as. -/
def Memory.Above : Nat → List Host.Cell → Prop
  | _, [] => True
  | n, e :: r => n ≤ e.1 ∧ e.2 ≠ unlisted ∧ Memory.Above (e.1 + 1) r

theorem wf_cons_iff (e : Host.Cell) (r : List Host.Cell) :
    Memory.wf (e :: r) = true ↔ e.2 ≠ unlisted ∧ (∀ f, r.head? = some f → e.1 < f.1) ∧ Memory.wf r = true := by
  cases r with
  | nil => simp [Memory.wf]
  | cons f s =>
    simp only [Memory.wf, Bool.and_eq_true, decide_eq_true_eq, bne_iff_ne, ne_eq, List.head?_cons, Option.some.injEq, forall_eq']
    tauto

theorem above_iff_cons (r : List Host.Cell) : ∀ n, Memory.Above n r ↔ (∀ f, r.head? = some f → n ≤ f.1) ∧ Memory.wf r = true := by
  induction r with
  | nil => intro n; simp [Memory.Above, Memory.wf]
  | cons f s ih =>
    intro n
    rw [Memory.Above, wf_cons_iff, ih]
    simp only [List.head?_cons, Option.some.injEq, Nat.succ_le_iff, forall_eq']

theorem wf_iff_above (m : List Host.Cell) : Memory.wf m = true ↔ Memory.Above 0 m := by
  rw [above_iff_cons]
  simp

theorem above_mono {n k : Nat} {m : List Host.Cell} (h : Memory.Above k m) (hn : n ≤ k) : Memory.Above n m := by
  cases m with
  | nil => trivial
  | cons e r => exact ⟨Nat.le_trans hn h.1, h.2⟩

theorem above_erase (m : List Host.Cell) (a : Nat) : ∀ n, Memory.Above n m → Memory.Above n (cellErase m a) := by
  induction m with
  | nil => intro n h; exact h
  | cons e r ih =>
    intro n h
    have hr := ih _ h.2.2
    unfold cellErase at hr ⊢
    by_cases he : e.1 = a
    · simp only [List.filter_cons, he, bne_self_eq_false, Bool.false_eq_true, if_false]
      have h1 := h.1
      exact above_mono (he ▸ hr) (by omega)
    · simp only [List.filter_cons, bne_iff_ne, ne_eq, he, not_false_eq_true, if_true]
      exact ⟨h.1, h.2.1, hr⟩

theorem above_insert (m : List Host.Cell) (a : Nat) (v : Byte) (hv : v ≠ unlisted) :
    ∀ n, n ≤ a → Memory.Above n m → Memory.Above n (cellInsert m a v) := by
  induction m with
  | nil => intro n hn _; exact ⟨hn, hv, trivial⟩
  | cons e r ih =>
    intro n hn h
    unfold cellInsert
    split
    · rename_i hlt
      exact ⟨hn, hv, Nat.succ_le_of_lt hlt, h.2⟩
    · split
      · rename_i he
        exact ⟨hn, hv, he ▸ h.2.2⟩
      · rename_i h1 h2
        exact ⟨h.1, h.2.1, ih _ (by omega) h.2.2⟩

/-- Writing one byte keeps the canonical form. -/
theorem wf_cellSet (m : List Host.Cell) (a : Nat) (v : Byte) (h : Memory.wf m = true) : Memory.wf (cellSet m a v) = true := by
  rw [wf_iff_above] at h ⊢
  unfold cellSet
  split
  · exact above_erase m a 0 h
  · rename_i hv
    exact above_insert m a v hv 0 (Nat.zero_le _) h

/-- Writing bytes keeps the canonical form. -/
theorem wf_cellWrite (m : List Host.Cell) (a : Nat) (bs : List Byte) (h : Memory.wf m = true) :
    Memory.wf (cellWrite m a bs) = true := by
  induction bs generalizing m a with
  | nil => exact h
  | cons x r ih => exact ih _ _ (wf_cellSet m a x h)

/-! ### The memories of the module -/

theorem memWf_iff (s : State) : s.memWf = true ↔ ∀ l, (s.mem.get l).wf = true := by
  unfold State.memWf
  constructor
  · intro h l
    simp only [Bool.and_eq_true] at h
    cases l
    · exact h.1.1
    · exact h.1.2
    · exact h.2
  · intro h
    simp only [Bool.and_eq_true]
    exact ⟨⟨h .a, h .b⟩, h .c⟩

theorem memWf_onMem (s : State) (l : LaneId) (f : LaneMem → LaneMem) (hf : ∀ m, m.wf = true → (f m).wf = true)
    (h : s.memWf = true) : (s.onMem l f).memWf = true := by
  rw [memWf_iff] at h ⊢
  intro k
  rw [onMem_mem, tri_get_set]
  split
  · exact hf _ (h l)
  · exact h k

theorem memWf_of_mem {s t : State} (e : t.mem = s.mem) (h : s.memWf = true) : t.memWf = true := by
  unfold State.memWf at h ⊢
  rw [e]
  exact h

end Sys2Proof.Machine
end

