-- ==== Sys2Proof/Laws/Packets.lean ====
section
/-! SUPPORT. What the shared operations over packets and fault records leave alone, and what a packet that passes the shared checks
comes to. -/

namespace Sys2Proof.Machine

open Sys2Proof

/-! ### Operations that touch accounts only -/

@[simp] theorem modHost_plain (c : Chip) (l : LaneId) (f : HostLink → HostLink) : (c.modHost l f).plain = c.plain := rfl

@[simp] theorem modSession_plain (c : Chip) (n : Nat) (f : Session → Session) : (c.modSession n f).plain = c.plain := by
  rw [modSession_eq]
  rfl

theorem modDev_plain_of (c : Chip) (f : Dev → Dev) (h : (f c.dev).plain = c.dev.plain) : (c.modDev f).plain = c.plain := by
  simp only [Chip.plain, modDev_lanes, modDev_bridges, modDev_links, modDev_pintle, modDev_dev, modDev_fresh, h]

theorem modLane_plain_of (c : Chip) (l : LaneId) (f : Lane → Lane) (h : (f (c.lanes.get l)).plain = (c.lanes.get l).plain) :
    (c.modLane l f).plain = c.plain := by
  simp only [Chip.plain, modLane_lanes, modLane_bridges, modLane_links, modLane_pintle, modLane_dev, modLane_fresh, tri_map_set, h]
  rw [← tri_get_map Lane.plain c.lanes l, tri_set_get]

@[simp] theorem pushEvent_plain (c : Chip) (l : LaneId) (q : List Byte) : (c.pushEvent l q).plain = c.plain :=
  (modLane_plain_of _ l _ rfl).trans rfl

@[simp] theorem event_plain (c : Chip) (l : LaneId) (n : Nat) (d : List Byte) : (c.event l n d).plain = c.plain := pushEvent_plain ..

@[simp] theorem recordIn_plain (c : Chip) (l : LaneId) (r : FaultRec) : (c.recordIn l r).plain = c.plain := by
  unfold Chip.recordIn
  split
  simp only
  split
  · rw [event_plain]
    exact modLane_plain_of _ l _ rfl
  · exact modLane_plain_of _ l _ rfl

@[simp] theorem localFault_plain (c : Chip) (l : LaneId) (code t i lane : Nat) : (c.localFault l code t i lane).plain = c.plain :=
  recordIn_plain ..

@[simp] theorem closeGap_plain (c : Chip) (l : LaneId) (nt : Nat) : (c.closeGap l nt).plain = c.plain := by
  unfold Chip.closeGap
  split
  · rw [recordIn_plain]
    exact modLane_plain_of _ l _ rfl
  · rfl

theorem noteEvents_plain (c : Chip) (l : LaneId) (f : Chip → Chip) (h : (f c).plain = c.plain) : (c.noteEvents l f).plain = c.plain :=
  (modDev_plain_of _ _ rfl).trans h

@[simp] theorem agreedIn_plain (c : Chip) (l : LaneId) (r : FaultRec) : (c.agreedIn l r).plain = c.plain :=
  noteEvents_plain c l _ ((recordIn_plain ..).trans (closeGap_plain ..))

/-- A fold whose every step keeps the plain part keeps it. -/
theorem foldl_plain {α : Type} (f : Chip → α → Chip) (h : ∀ c x, (f c x).plain = c.plain) (xs : List α) (c : Chip) :
    (xs.foldl f c).plain = c.plain := by
  induction xs generalizing c with
  | nil => rfl
  | cons x r ih => exact (ih (f c x)).trans (h c x)

@[simp] theorem agreedFault_plain (c : Chip) (code t i lane count : Nat) : (c.agreedFault code t i lane count).plain = c.plain := by
  unfold Chip.agreedFault
  refine foldl_plain _ (fun c l => ?_) _ c
  simp only
  split
  · exact agreedIn_plain ..
  · split
    · exact modLane_plain_of _ l _ rfl
    · rfl

@[simp] theorem ownPdu_plain (c : Chip) (n op tag st : Nat) (d : List Byte) : (c.ownPdu n op tag st d).2.plain = c.plain := by
  unfold Chip.ownPdu
  exact modSession_plain ..

@[simp] theorem sendReply_plain (c : Chip) (link : Option LaneId) (op : Nat) (tag : Byte) (n : Nat) (m : Mask) (seq st : Nat)
    (p : List Byte) : (c.sendReply link op tag n m seq st p).2.plain = c.plain := by
  unfold Chip.sendReply
  by_cases h : n = 0
  · cases link
    · simp [h]
    · simp only [h, if_true]
      exact modDev_plain_of _ _ rfl
  · cases link <;> simp only [h, if_false]
    · exact (modDev_plain_of _ _ rfl).trans (ownPdu_plain ..)
    · exact (modDev_plain_of _ _ rfl).trans (ownPdu_plain ..)

@[simp] theorem reply_plain (c : Chip) (code : Nat) (r : Req) (st : Nat) (p : List Byte) : (c.reply code r st p).plain = c.plain := by
  unfold Chip.reply
  split
  · split <;> rfl
  · simp only
    split
    · exact (modHost_plain ..).trans (sendReply_plain ..)
    · exact sendReply_plain ..

@[simp] theorem linkAdvance_plain (c : Chip) (crc : Nat) (r : Req) : (c.linkAdvance crc r).plain = c.plain := by
  unfold Chip.linkAdvance
  split <;> rfl

@[simp] theorem freezeLink_plain (c : Chip) (l : LaneId) : (c.freezeLink l).plain = c.plain := by
  unfold Chip.freezeLink
  split
  · rfl
  · exact (agreedFault_plain ..).trans (modHost_plain ..)

@[simp] theorem releaseLink_plain (c : Chip) (l : LaneId) : (c.releaseLink l).plain = c.plain := by
  unfold Chip.releaseLink
  split
  · exact (agreedFault_plain ..).trans (modHost_plain ..)
  · rfl

@[simp] theorem countSeqError_plain (c : Chip) (l : LaneId) (st : Nat) : (c.countSeqError l st).plain = c.plain := by
  unfold Chip.countSeqError
  split
  · simp only
    split
    · exact (freezeLink_plain ..).trans (modHost_plain ..)
    · rfl
  · rfl

@[simp] theorem linkAccount_plain (c : Chip) (r : Req) (st : Nat) : (c.linkAccount r st).plain = c.plain := by
  unfold Chip.linkAccount
  split
  · rfl
  · split
    · exact (freezeLink_plain ..).trans (countSeqError_plain ..)
    · exact countSeqError_plain ..

@[simp] theorem violate_plain (c : Chip) (n : Nat) : (c.violate n).plain = c.plain :=
  (agreedFault_plain ..).trans (modSession_plain ..)

@[simp] theorem advance_plain (c : Chip) (n : Nat) (p : PduHdr) : (c.advance n p).plain = c.plain := modSession_plain ..

theorem ite_plain {α : Type} (q : Prop) [Decidable q] (x y : α × Chip) (c : Chip) (hx : x.2.plain = c.plain) (hy : y.2.plain = c.plain) :
    (if q then x else y).2.plain = c.plain := by
  split
  · exact hx
  · exact hy

@[simp] theorem sessionGate_plain (c : Chip) (right : Option Nat) (n : Nat) (p : PduHdr) :
    (c.sessionGate right n p).2.plain = c.plain := by
  unfold Chip.sessionGate
  simp only
  split
  · rfl
  · rfl
  · rfl
  · refine ite_plain _ _ _ _ (violate_plain ..) (ite_plain _ _ _ _ (advance_plain ..) (ite_plain _ _ _ _ (violate_plain ..)
      (ite_plain _ _ _ _ ?_ (ite_plain _ _ _ _ (violate_plain ..) (ite_plain _ _ _ _ ?_ ?_)))))
    · exact (agreedFault_plain ..).trans ((modSession_plain ..).trans (advance_plain ..))
    · exact (agreedFault_plain ..).trans ((modSession_plain ..).trans ((modSession_plain ..).trans (advance_plain ..)))
    · exact (modSession_plain ..).trans (advance_plain ..)

/-! ### What a packet that passes comes to -/

@[simp] theorem onChip_plain_of (s : State) (f : Chip → Chip) (h : (f s.chip).plain = s.chip.plain) : (s.onChip f).plain = s.plain := by
  simp only [State.plain, onChip_chip, onChip_mem, onChip_pending, h]

/-- Past the gates the plain part of the state is what it was. -/
theorem gated_plain (a : OpAttr) (r : Req) (s t : State) (h : s.gated a r = some t) : t.plain = s.plain := by
  unfold State.gated at h
  split at h
  · simp only at h
    have e : (s.onChip (fun c => c.linkAdvance (c.reqCrc a.code r) r)).plain = s.plain := onChip_plain_of _ _ (linkAdvance_plain ..)
    split at h
    · exact (Option.some.inj h) ▸ e
    · split at h
      · rename_i c hg
        have hc : c.plain = (s.onChip (fun c => c.linkAdvance (c.reqCrc a.code r) r)).chip.plain := by
          have := sessionGate_plain (s.onChip (fun c => c.linkAdvance (c.reqCrc a.code r) r)).chip a.right r.session r.pdu
          rw [hg] at this
          exact this
        rw [← Option.some.inj h, ← e]
        simp only [State.plain, hc]
      · cases h
  · cases h

@[simp] theorem finish_plain (a : OpAttr) (r : Req) (o : OpOut) : (o.finish a r).plain = o.st.plain := by
  unfold OpOut.finish
  split
  · rfl
  · exact onChip_plain_of _ _ (reply_plain ..)

@[simp] theorem marked_plain (a : OpAttr) (s : State) : (s.marked a).plain = s.plain := by
  unfold State.marked
  split
  · rfl
  · exact onChip_plain_of _ _ (modDev_plain_of _ _ rfl)

theorem pickStatus_nil : pickStatus [] = none := rfl

/-- The mark of activity changes no check that operations share. -/
theorem active_fails (a : OpAttr) (r : Req) (c : Chip) :
    formFails a r c.active ++ tagFails r c.active ++ stopFails a r c.active ++ timedFails r c.active =
      formFails a r c ++ tagFails r c ++ stopFails a r c ++ timedFails r c := rfl

theorem marked_fails (a : OpAttr) (r : Req) (g : State) :
    formFails a r (g.marked a).chip ++ tagFails r (g.marked a).chip ++ stopFails a r (g.marked a).chip ++ timedFails r (g.marked a).chip =
      formFails a r g.chip ++ tagFails r g.chip ++ stopFails a r g.chip ++ timedFails r g.chip := by
  unfold State.marked
  split
  · rfl
  · exact active_fails a r g.chip

/-- An operation past its gates is its checked run. -/
theorem runOp_of_gated (a : OpAttr) (checks : Req → Chip → List Nat) (effect : Req → State → OpOut) (r : Req) (s t : State)
    (h : s.gated a r = some t) : runOp a checks effect r s = runChecked a checks effect r t := by
  unfold State.gated at h
  unfold runOp
  split at h
  · rename_i hl
    simp only [hl]
    unfold runSession
    simp only at h
    split at h
    · rename_i h0
      simp only [h0, if_true]
      rw [Option.some.inj h]
    · rename_i h0
      simp only [h0, if_false]
      split at h
      · rename_i c hs
        simp only [hs]
        rw [Option.some.inj h]
      · cases h
  · cases h

/-- A packet that passes the shared checks has a state past the gates in which none of them fails. -/
theorem admits_gated (a : OpAttr) (r : Req) (s : State) (h : s.admits a r = true) :
    ∃ g, s.gated a r = some g ∧ formFails a r g.chip ++ tagFails r g.chip ++ stopFails a r g.chip ++ timedFails r g.chip = [] := by
  unfold State.admits at h
  cases hg : s.gated a r with
  | none => rw [hg] at h; cases h
  | some t => rw [hg] at h; exact ⟨t, rfl, of_decide_eq_true h⟩

/-- Past the gates and without a failing check, an operation is its effect and then its reply. -/
theorem runOp_completes (a : OpAttr) (checks : Req → Chip → List Nat) (effect : Req → State → OpOut) (r : Req) (s g : State)
    (hg : s.gated a r = some g) (hf : opFails a checks r (g.marked a).chip = []) :
    runOp a checks effect r s = (effect r (g.marked a)).finish a r := by
  rw [runOp_of_gated _ _ _ _ _ _ hg]
  unfold runChecked
  change (match pickStatus (opFails a checks r (g.marked a).chip) with
    | some st => (g.marked a).onChip (fun c => c.reply a.code r st [])
    | none => (effect r (g.marked a)).finish a r) = _
  rw [hf, pickStatus_nil]

/-- Past the gates with a failing check, an operation is only its reply. -/
theorem runOp_fails (a : OpAttr) (checks : Req → Chip → List Nat) (effect : Req → State → OpOut) (r : Req) (s g : State) (st : Nat)
    (hg : s.gated a r = some g) (hf : pickStatus (opFails a checks r (g.marked a).chip) = some st) :
    runOp a checks effect r s = (g.marked a).onChip (fun c => c.reply a.code r st []) := by
  rw [runOp_of_gated _ _ _ _ _ _ hg]
  unfold runChecked
  change (match pickStatus (opFails a checks r (g.marked a).chip) with
    | some st => (g.marked a).onChip (fun c => c.reply a.code r st [])
    | none => (effect r (g.marked a)).finish a r) = _
  rw [hf]

/-- A packet that passes the shared checks, and whose own checks pass in the marked state past the gates, has its operation's effect and
then its reply. The state named agrees with the given one in its plain part. -/
theorem runOp_of_admits (a : OpAttr) (checks : Req → Chip → List Nat) (effect : Req → State → OpOut) (r : Req) (s : State)
    (h : s.admits a r = true) :
    ∃ t : State, t.plain = s.plain ∧
      (checks r t.chip = [] → runOp a checks effect r s = (effect r t).finish a r) := by
  obtain ⟨g, hg, hf⟩ := admits_gated a r s h
  refine ⟨g.marked a, (marked_plain a g).trans (gated_plain a r s g hg), fun hc => runOp_completes a checks effect r s g hg ?_⟩
  unfold opFails
  rw [marked_fails, hf, hc]
  rfl

/-- The same, for what a statement needs: the plain part after the operation is that of its effect. -/
theorem runOp_plain (a : OpAttr) (checks : Req → Chip → List Nat) (effect : Req → State → OpOut) (r : Req) (s : State)
    (h : s.admits a r = true) :
    ∃ t : State, t.plain = s.plain ∧
      (checks r t.chip = [] → (runOp a checks effect r s).plain = (effect r t).st.plain) := by
  obtain ⟨t, h1, h2⟩ := runOp_of_admits a checks effect r s h
  exact ⟨t, h1, fun hc => by rw [h2 hc, finish_plain]⟩

/-- What every change of the chip keeps, and the operation's effect keeps, an operation keeps from its packet to its reply. -/
theorem runOp_keeps (P : State → Prop) (a : OpAttr) (checks : Req → Chip → List Nat) (effect : Req → State → OpOut) (r : Req)
    (hc : ∀ (s : State) (c : Chip), P s → P { s with chip := c }) (he : ∀ s : State, P s → P (effect r s).st)
    (s : State) (h : P s) : P (runOp a checks effect r s) := by
  have fin : ∀ u : State, P u → P ((effect r u).finish a r) := by
    intro u hu
    unfold OpOut.finish
    split
    · exact he _ hu
    · exact hc _ _ (he _ hu)
  have hchk : ∀ u : State, P u → P (runChecked a checks effect r u) := by
    intro u hu
    have hm : P (u.marked a) := by
      unfold State.marked
      split
      · exact hu
      · exact hc _ _ hu
    unfold runChecked
    change P (match pickStatus (opFails a checks r (u.marked a).chip) with
      | some st => (u.marked a).onChip (fun c => c.reply a.code r st [])
      | none => (effect r (u.marked a)).finish a r)
    split
    · exact hc _ _ hm
    · exact fin _ hm
  unfold runOp
  split
  · exact hc _ _ h
  · exact hc _ _ h
  · unfold runSession
    split
    · exact hchk _ (hc _ _ h)
    · split
      simp only
      split
      · exact hc _ _ (hc _ _ h)
      · exact hc _ _ (hc _ _ (hc _ _ h))
      · exact hchk _ (hc _ _ (hc _ _ h))

/-! ### The reply of a packet on a host link -/

/-- A reply that is not suppressed goes to the end of the period's replies, on its link, under the request's header (R63). -/
theorem reply_link (c : Chip) (code : Nat) (r : Req) (st : Nat) (data : List Byte) (l : LaneId) (hl : r.link = some l)
    (hs : c.suppressed r.session (hasBit r.flags 0) st = false) :
    ∃ p : OutPacket, (c.reply code r st data).dev.replies = c.dev.replies ++ [(l, p)] ∧ p.opcode = code ∧ p.tag = r.tag ∧ p.status = st ∧
      p.session = r.session ∧ p.seq = r.seq ∧ (r.session = 0 → p.payload = data) := by
  unfold Chip.reply Chip.sendReply
  simp only [hl, hs]
  by_cases h0 : r.session = 0
  · simp only [h0, if_true]
    exact ⟨_, rfl, rfl, rfl, rfl, rfl, rfl, fun _ => rfl⟩
  · simp only [h0, if_false]
    refine ⟨{ opcode := code, tag := r.tag, status := st, session := r.session, mask := r.mask, seq := r.seq,
              payload := (c.ownPdu r.session code r.tag.toNat st data).1 }, ?_, rfl, rfl, rfl, rfl, rfl, False.elim⟩
    simp only [Chip.ownPdu, Bool.false_eq_true, if_false, modHost_dev, modDev_dev, modSession_dev]

/-- Only a reply with status OK is ever suppressed (R57). -/
theorem not_suppressed (c : Chip) (n : Nat) (b : Bool) (st : Nat) (h : st ≠ 0) : c.suppressed n b st = false := by
  simp [Chip.suppressed, h]

theorem not_suppressed_flag (c : Chip) (n : Nat) (st : Nat) : c.suppressed n false st = false := rfl

theorem freezeLink_replies (c : Chip) (l : LaneId) : (c.freezeLink l).dev.replies = c.dev.replies := by
  unfold Chip.freezeLink
  split
  · rfl
  · rw [(agreedFault_only _ 0x3001 0x0E l.idx l.idx 1).dev]
    rfl

theorem countSeqError_replies (c : Chip) (l : LaneId) (st : Nat) : (c.countSeqError l st).dev.replies = c.dev.replies := by
  unfold Chip.countSeqError
  split
  · simp only
    split
    · exact (freezeLink_replies ..).trans rfl
    · rfl
  · rfl

theorem linkAccount_replies (c : Chip) (r : Req) (st : Nat) : (c.linkAccount r st).dev.replies = c.dev.replies := by
  unfold Chip.linkAccount
  split
  · rfl
  · split
    · exact (freezeLink_replies ..).trans (countSeqError_replies ..)
    · exact countSeqError_replies ..

theorem modSession_replies (c : Chip) (n : Nat) (f : Session → Session) : (c.modSession n f).dev.replies = c.dev.replies := by
  rw [modSession_dev]

theorem agreedFault_replies (c : Chip) (code t i lane count : Nat) : (c.agreedFault code t i lane count).dev.replies = c.dev.replies := by
  rw [(agreedFault_only c code t i lane count).dev]

theorem ite_replies {α : Type} (q : Prop) [Decidable q] (x y : α × Chip) (c : Chip) (hx : x.2.dev.replies = c.dev.replies)
    (hy : y.2.dev.replies = c.dev.replies) : (if q then x else y).2.dev.replies = c.dev.replies := by
  split
  · exact hx
  · exact hy

theorem sessionGate_replies (c : Chip) (right : Option Nat) (n : Nat) (p : PduHdr) :
    (c.sessionGate right n p).2.dev.replies = c.dev.replies := by
  have hv : ∀ d : Chip, (d.violate n).dev.replies = d.dev.replies := fun d => (agreedFault_replies ..).trans (modSession_replies ..)
  have ha : ∀ d : Chip, (d.advance n p).dev.replies = d.dev.replies := fun d => modSession_replies ..
  unfold Chip.sessionGate
  simp only
  split
  · rfl
  · rfl
  · rfl
  · refine ite_replies _ _ _ _ (hv c) (ite_replies _ _ _ _ (ha c) (ite_replies _ _ _ _ (hv c)
      (ite_replies _ _ _ _ ?_ (ite_replies _ _ _ _ (hv c) (ite_replies _ _ _ _ ?_ ?_)))))
    · exact (agreedFault_replies ..).trans ((modSession_replies ..).trans (ha c))
    · exact (agreedFault_replies ..).trans ((modSession_replies ..).trans ((modSession_replies ..).trans (ha c)))
    · exact (modSession_replies ..).trans (ha c)

/-- The gates put no reply among those of the period. -/
theorem gated_replies (a : OpAttr) (r : Req) (s t : State) (h : s.gated a r = some t) : t.chip.dev.replies = s.chip.dev.replies := by
  have e : (s.chip.linkAdvance (s.chip.reqCrc a.code r) r).dev.replies = s.chip.dev.replies := by
    unfold Chip.linkAdvance
    split <;> rfl
  unfold State.gated at h
  split at h
  · simp only at h
    split at h
    · rw [← Option.some.inj h]
      exact e
    · split at h
      · rename_i c hg
        have hr := sessionGate_replies (s.onChip (fun c => c.linkAdvance (c.reqCrc a.code r) r)).chip a.right r.session r.pdu
        rw [hg] at hr
        rw [← Option.some.inj h]
        exact hr.trans e
      · cases h
  · cases h

end Sys2Proof.Machine
end

