-- ==== Sys2Proof/Laws/Operations.lean ====
section
/-! SUPPORT. A command that carries an operation of the opcode index runs as its row of the table of operations says. -/

namespace Sys2Proof.Machine

open Sys2Proof

/-- Exec of a command with a row is that row's operation, from its link to its reply. -/
theorem exec_of_row (i : Instr) (o : OpRow) (s : State) (h : opRow i = some o) :
    exec i s = .next (runOp o.attr o.checks o.effect o.req s) := by
  cases i <;> cases h <;> rfl

end Sys2Proof.Machine
end

