-- ==== Sys2Proof/Laws/Units.lean ====
section
/-! SUPPORT. Changing one unit twice is changing it once, and a change depends only on what it does to the unit as it stands. -/

namespace Sys2Proof.Machine

open Sys2Proof

theorem modNth_modNth {α : Type} (xs : List α) (k : Nat) (f g : α → α) : modNth (modNth xs k f) k g = modNth xs k (fun x => g (f x)) := by
  unfold modNth; rw [List.modify_modify_eq]; rfl

theorem modNth_congr {α : Type} (xs : List α) (k : Nat) (f g : α → α) (d : α) (h : f (nth xs k d) = g (nth xs k d)) :
    modNth xs k f = modNth xs k g := by
  unfold modNth nth at *
  apply List.ext_getElem?
  intro i
  simp only [List.getElem?_modify]
  split
  · subst_vars
    cases hk : xs[i]? with
    | none => simp
    | some x => simp [List.getD, hk] at h ⊢; exact h
  · rfl

/-! ### A feedback channel -/

theorem modFb_modFb (c : Chip) (l : LaneId) (k : Nat) (f g : FbChan → FbChan) : (c.modFb l k f).modFb l k g = c.modFb l k (fun x => g (f x)) := by
  unfold Chip.modFb Chip.modLane
  simp [modNth_modNth]

theorem modFb_congr (c : Chip) (l : LaneId) (k : Nat) (f g : FbChan → FbChan) (h : f (c.fbOf l k) = g (c.fbOf l k)) :
    c.modFb l k f = c.modFb l k g := by
  have := modNth_congr (c.lane l).fb k f g {} h
  unfold Chip.modFb Chip.modLane
  simp only [Chip.lane] at this ⊢
  rw [this]

/-- A field of a channel that a change keeps reads as before, whether the channel exists or not. -/
theorem fbOf_modFb_field {α : Type} (c : Chip) (l : LaneId) (k : Nat) (f : FbChan → FbChan) (p : FbChan → α) (h : ∀ x, p (f x) = p x) :
    p ((c.modFb l k f).fbOf l k) = p (c.fbOf l k) := by
  unfold Chip.fbOf Chip.lane
  simp only [modFb_lanes, tri_get_set_same]
  by_cases hk : k < (c.lanes.get l).fb.length
  · rw [nth_modNth_same _ _ _ _ hk, h]
  · have : modNth (c.lanes.get l).fb k f = (c.lanes.get l).fb := by
      unfold modNth; exact List.modify_eq_self (Nat.le_of_not_lt hk)
    rw [this]

/-! ### Engines, motors, stepper channels and loop contexts -/

theorem modEngine_modEngine (c : Chip) (l : LaneId) (k : Nat) (f g : Engine → Engine) :
    (c.modEngine l k f).modEngine l k g = c.modEngine l k (fun x => g (f x)) := by
  unfold Chip.modEngine Chip.modLane
  simp [modNth_modNth]

theorem modMotor_modMotor (c : Chip) (k : Nat) (f g : Motor → Motor) : (c.modMotor k f).modMotor k g = c.modMotor k (fun x => g (f x)) := by
  unfold Chip.modMotor Chip.modDev
  simp [modNth_modNth]

theorem modMotor_congr (c : Chip) (k : Nat) (f g : Motor → Motor) (h : f (nth c.dev.motors k {}) = g (nth c.dev.motors k {})) :
    c.modMotor k f = c.modMotor k g := by
  unfold Chip.modMotor Chip.modDev
  simp only [modNth_congr _ _ _ _ _ h]

theorem modStep_modStep (c : Chip) (k : Nat) (f g : Stepper → Stepper) : (c.modStep k f).modStep k g = c.modStep k (fun x => g (f x)) := by
  unfold Chip.modStep Chip.modDev
  simp [modNth_modNth]

theorem modStep_congr (c : Chip) (k : Nat) (f g : Stepper → Stepper) (h : f (nth c.dev.steppers k {}) = g (nth c.dev.steppers k {})) :
    c.modStep k f = c.modStep k g := by
  unfold Chip.modStep Chip.modDev
  simp only [modNth_congr _ _ _ _ _ h]

theorem modLoop_modLoop (c : Chip) (k : Nat) (f g : Loop → Loop) : (c.modLoop k f).modLoop k g = c.modLoop k (fun x => g (f x)) := by
  unfold Chip.modLoop Chip.modDev
  simp [modNth_modNth]

theorem modLoop_congr (c : Chip) (k : Nat) (f g : Loop → Loop) (h : f (nth c.dev.loops k {}) = g (nth c.dev.loops k {})) :
    c.modLoop k f = c.modLoop k g := by
  unfold Chip.modLoop Chip.modDev
  simp only [modNth_congr _ _ _ _ _ h]

end Sys2Proof.Machine
end

