-- ==== Sys2Proof/Tests/Slice0.lean ====
section
/-! SUPPORT. Tests of the model: well-formedness refuses an ill-formed command of each kind, worked figures of the spec, and for every
obligation with premises a witness that meets the premises of each of its clauses. -/

-- The theorems of this file are elaborated one after the other: many at once would each take a thread of their own.
set_option Elab.async false

/-! ### Well-formedness refuses -/

namespace Sys2Proof.Tests.Form
open Sys2Proof

def sample : SampleIn := { adc := List.replicate 16 0, temps := List.replicate 5 0, scAngle := List.replicate 4 0,
                           scRadius := List.replicate 4 0, soMv := List.replicate 4 0 }

theorem test_wf_takes : (Instr.sysEcho { payload := List.replicate 4080 0 }).wf = true ∧ (Instr.sampleInstant .a sample).wf = true := by
  decide +kernel
theorem test_wf_packet : (Instr.sysEcho { payload := List.replicate 4081 0 }).wf = false ∧ (Instr.linkSync { seq := 2 ^ 32 }).wf = false ∧
    (Instr.cmtEnable { session := 256 }).wf = false ∧ (Instr.cmtEnable { pdu := { seq := 2 ^ 32 } }).wf = false ∧
    (Instr.cmtEnable { pdu := { stamp := 2 ^ 64 } }).wf = false ∧ (Instr.cmtEnable { pdu := { echo := 2 ^ 32 } }).wf = false ∧
    (Instr.cmtEnable { pdu := { echoTime := 2 ^ 32 } }).wf = false := by decide +kernel
theorem test_wf_sample : (Instr.sampleInstant .a { sample with adc := [] }).wf = false ∧
    (Instr.sampleInstant .a { sample with adc := List.replicate 16 16384 }).wf = false ∧
    (Instr.sampleInstant .a { sample with temps := [0] }).wf = false ∧
    (Instr.sampleInstant .a { sample with scAngle := [4096, 0, 0, 0] }).wf = false ∧
    (Instr.sampleInstant .a { sample with scRadius := [] }).wf = false ∧ (Instr.sampleInstant .a { sample with soMv := [] }).wf = false := by
  decide +kernel
theorem test_wf_report : (Instr.pintleReport .a {} [0, 0, 0, 0]).wf = false ∧
    (Instr.pwmBoundary 0 [] { mean := (9000, 0) }).wf = false ∧ (Instr.currentSample .a 0 { codes := [0, 0, 16384] }).wf = false ∧
    (Instr.glideCycle .a [] [] []).wf = false ∧ (Instr.stallParameters 0 (.other { emf := 91 })).wf = false := by decide +kernel
theorem test_wf_round : (Instr.sampleVector .a .b (.other (2 ^ 32))).wf = false ∧
    (Instr.presenceQuad .a .b (.other { held := 8 })).wf = false ∧ (Instr.completionMask .a .b (.other [0])).wf = false ∧
    (Instr.signatureRecord .a .b false (.other [0])).wf = false ∧ (Instr.mirroredSet .a (.other (List.replicate 1376 0))).wf = false ∧
    (Instr.fenceNotice .a .b (.other (2 ^ 32))).wf = false ∧ (Instr.timeMark .a .b (.other { stamp := 2 ^ 64 })).wf = false ∧
    (Instr.discoveryRecord .a .b (.other (List.replicate 64 0))).wf = false := by decide +kernel
theorem test_wf_pattern : (Instr.fallbackPacket .a 0 (.other (List.replicate 33 0))).wf = false := by decide +kernel
theorem test_wf_frames : (Instr.frameReceived .a 0 (List.replicate 1507 0)).wf = false ∧ (Instr.syncFrame .a 0 (List.replicate 1507 0)).wf = false ∧
    (Instr.coldstartFrame .a 0 (List.replicate 1507 0)).wf = false ∧ (Instr.delayFrame .a 0 { node := 2 ^ 16 }).wf = false ∧
    (Instr.openRequest 1 { num := 256 }).wf = false ∧ (Instr.openAnswer 1 0 { first := 2 ^ 32 }).wf = false := by decide +kernel
theorem test_wf_cells : (Instr.eccCorrection .a 0 0 { region := 64 }).wf = false ∧
    (Instr.memoryBistDone .a [{}, { bit := 137 }]).wf = false := by decide +kernel
theorem test_no_word_is_a_command (n w : Nat) : decodeTableWord n w = none := rfl

end Sys2Proof.Tests.Form

/-! ### A device to test -/

namespace Sys2Proof.Tests
open Sys2Proof Sys2Proof.Machine
/-- A lane that is up, admitted and commissioned. -/
def lane : Lane :=
  { boot := { powerGood := true, state := .admitted }, power := { core := true, mem := 2, net := true, drive := true }
    clock := { running := true, nt := 1000000000 }, nvm := { slot0 := some { value := 5, count := 1 } } }

/-- A formed device in D0 with three lanes, host links in step, one session open, parked, actuation disabled. -/
def up : State :=
  { chip := {
      lanes := ⟨lane, lane, lane⟩, bridges := Tri.all { powered := true, silent := false }, pintle := { powered := true, drive := true }
      dev := { formed := true, cls := some 0, authority := 7, aset := 7, count := 1000, sn := 1000000000, cfg := { check := 5, ws := [(0x2203 * 256, 7)] }
               hosts := Tri.all { synced := true }
               sessions := { state := .opened, carriers := 7 } :: List.replicate 126 {}
               snow := { standstill := true, parked := true } } } }

/-- A packet on link A. -/
def op (p : List Byte) (mask : Mask := 0) : Req := { mask := mask, payload := p }

/-- The same in the open session. -/
def keyed (p : List Byte) (mask : Mask := 0) : Req := { mask := mask, payload := p, session := 1, pdu := { seq := 1, stamp := 1000000000, echoTime := 1000000000 } }

/-- One quad of bytes, filled up with zero. -/
def q (p : List Byte) : List Byte := padQuads p
end Sys2Proof.Tests

def Sys2Proof.Machine.State.withDev (s : Sys2Proof.Machine.State) (f : Sys2Proof.Machine.Dev → Sys2Proof.Machine.Dev) : Sys2Proof.Machine.State :=
  s.onChip (fun c => c.modDev f)
def Sys2Proof.Machine.State.withPintle (s : Sys2Proof.Machine.State) (f : Sys2Proof.Machine.Pintle → Sys2Proof.Machine.Pintle) :
    Sys2Proof.Machine.State := s.onChip (fun c => c.modPintle f)
def Sys2Proof.Machine.State.withLane (s : Sys2Proof.Machine.State) (l : Sys2Proof.LaneId) (f : Sys2Proof.Machine.Lane → Sys2Proof.Machine.Lane) :
    Sys2Proof.Machine.State := s.onChip (fun c => c.modLane l f)
def Sys2Proof.Machine.State.withWs (s : Sys2Proof.Machine.State) (es : List (Nat × Int)) : Sys2Proof.Machine.State :=
  s.onChip (fun c => c.modCfg (fun g => { g with ws := es.foldl (fun w e => Sys2Proof.Machine.wsInsert w e.1 e.2) g.ws }))
def Sys2Proof.Machine.State.withPend (s : Sys2Proof.Machine.State) (p : Sys2Proof.Machine.PendOp) : Sys2Proof.Machine.State :=
  s.onChip (fun c => c.modDev (fun d => { d with pend := [p] }))

namespace Sys2Proof.Tests
open Sys2Proof Sys2Proof.Machine
/-- The device with actuation enabled. -/
def act : State := up.onChip (fun c => c.modDev (fun d => { d with actuation := true }))
/-- The device with every bridge and stepper channel in use. -/
def full : State := up.withWs ([(parKey Par.authMbArrange.id 0, 1), (parKey Par.authMbArrange.id 1, 1), (parKey Par.authMbLanes.id 0, 7), (parKey Par.authMbLanes.id 1, 7), (parKey Par.authBmEnable.id 0, 1), (parKey Par.authBmEnable.id 1, 1)] ++
  (List.range 6).map (fun k => (parKey Par.stpEnable.id k, 1)))

/-- A slot entry of a schedule. -/
def slot (chan n owner off len quads rep ro sp : Nat) : List Byte :=
  toLe 2 (n + 32768 * chan) ++ toLe 2 owner ++ toLe 4 off ++ toLe 2 len ++ toLe 1 quads ++ toLe 1 rep ++ toLe 1 ro ++ toLe 1 sp ++ toLe 2 0

/-- A schedule of 1 ms with its check value and CRC. -/
def sched (es : List (List Byte)) : List Byte :=
  let h := toLe 4 0x73060002 ++ toLe 1 0 ++ toLe 1 0 ++ toLe 2 es.length ++ toLe 4 1000000 ++ toLe 4 0 ++ toLe 4 800000 ++ toLe 4 900000 ++ toLe 2 500 ++ toLe 1 8 ++ toLe 5 0
  let b := h ++ es.flatten
  let b := b ++ toLe 8 (crc64xz b) ++ toLe 4 0
  b ++ toLe 4 (crc32c (b ++ toLe 4 0))

/-- A schedule with one slot of this module, one of node 5 and a spare one. -/
def sched1 : List Byte := sched [slot 0 1 0 2000 100 2 0 0 0, slot 0 2 5 4000 100 2 0 0 0, slot 0 3 0 6000 100 2 0 0 1]

/-- The same with network time synchronised. -/
def synced : State := act.onChip (fun c => { c with
  lanes := c.lanes.map (fun n => { n with clock := { n.clock with tstate := .synced } })
  dev := { c.dev with agreed := { c.dev.agreed with status := Tri.map (fun x => { x with tstate := 2 }) c.dev.agreed.status } } })

/-- A timed operation in the open session. -/
def timed (p : List Byte) (nt : Nat) (mask : Mask := 0) : Req := { keyed (toLe 8 nt ++ List.replicate 8 0 ++ p) mask with flags := 2 }
end Sys2Proof.Tests

/-! ### Worked figures of the spec -/

namespace Sys2Proof.Tests.Figures
open Sys2Proof Sys2Proof.Machine Sys2Proof.Tests

/-- The nine ASCII bytes "123456789". -/
def digits : List Byte := [0x31, 0x32, 0x33, 0x34, 0x35, 0x36, 0x37, 0x38, 0x39]

-- chapter 15: "the CRC-32C of the nine ASCII bytes is 0xE3069283, and their CRC-64/XZ is 0x995DC9BBDF1939FA"
theorem test_crc32c : crc32c digits = 0xE3069283 := by decide +kernel
theorem test_crc64xz : crc64xz digits = 0x995DC9BBDF1939FA := by decide +kernel

-- chapter 02: the header of FLT.RECORD_READ, 10 05 2C 00 10 00 00 01 07 01 00 00 before its CRC-32C
theorem test_header : (headerQuad 0x0510 0x2C 0 16 0 1 0x107 0).take 12 = [0x10, 0x05, 0x2C, 0, 0x10, 0, 0, 1, 7, 1, 0, 0] := by decide +kernel

-- chapter 03: AUTH.MB_ARRANGE #0 = 3 as an entry quad
theorem test_entry_quad : entryQuad Par.authMbArrange.id 0 Par.authMbArrange.width 3 = [5, 2, 0, 0, 0, 0, 0, 0, 3, 0, 0, 0, 0, 0, 0, 0] := by
  decide +kernel

-- chapter 14: identity 0x013C050901010180 of session 5, known to the peer as 9, of epoch 0x3C
theorem test_identity : identity 0x0180 0x0101 9 5 0x3C 1 = 0x013C050901010180 := by decide +kernel

-- chapter 01: claims A 0xFE, B 0xBD and C 0xBC with default ranks, every lane healthy and lane A active
theorem test_claims : ((up.withDev (fun d => { d with claims := { d.claims with active := some .a }, agreed := { d.agreed with
    status := d.agreed.status.map (fun x => { x with frameSeen := true }) } })).chip.computeClaims).dev.claims.nums = ⟨0xFE, 0xBD, 0xBC⟩ := by
  decide +kernel

-- chapter 08: MB0 in D0 at 3,000 and 4,500 per minute: iq* 100.0 A and 66.82 A, id* 0 at the lower speed
def fieldWeak (w : Int) : BoundPar := { rs := 20000, ld := 60000, lq := 60000, psi := 15880, w := w, vmax := vMax 95 48000 }
theorem test_flux_none : fluxCommand (fieldWeak (omegaE 4 30000)) (-80000) (torqueCurrent 28600 4 3 15880 60000 60000) = (0, 100055) := by
  decide +kernel
theorem test_flux_fits : (fieldWeak (omegaE 4 45000)).fits (-56800) 66820 = true ∧ (fieldWeak (omegaE 4 45000)).fits (-56000) 66820 = false := by
  decide +kernel

-- chapter 11: the pressure loop from manual to automatic and into its limit: output and integrator in periods k - 1 to k + 2
def pressure (x : Loop) (m : LoopMode) (sp : Int) : Loop := (loopStep 163840 16384 0 65536 0 51200 x m 0 6000 sp).1
def periodA : Loop := pressure { manual := 20000 } .manual 8000
def periodB : Loop := pressure { periodA with toAuto := true } .auto 8000
def periodC : Loop := pressure periodB .auto 8000
def periodD : Loop := pressure periodC .auto 25000
theorem test_loop_starts : [periodA, periodB].map (fun x => (x.out, x.i)) = [(20000, 0), (20000, 3840000)] := by decide +kernel
theorem test_loop_integrates : [periodC, periodD].map (fun x => (x.out, x.i)) = [(20500, 3968000), (51200, 3968000)] := by decide +kernel
-- chapter 11: code 4,784 gives pv 6,000; context 2 of the cascade gives 5,615 mN·m
theorem test_scale : (up.withWs [(parKey Par.loopPvOffset.id 0, 1638), (parKey Par.loopPvNum.id 0, 25000), (parKey Par.loopPvDen.id 0, 13107)]).chip.scalePv 0 4784
    = (6000, false) := by decide +kernel
theorem test_cascade : (loopStep 131072 3277 0 65536 (-28600) 28600 { mode := .auto, i := 1280000 } .auto 0 4100 4400).1.out = 5615 := by decide +kernel

-- chapter 07: FB0 at 17,970,752 against base -40,827,328 and FB2 at 2,871: the pair's error is 0
theorem test_plausibility : ((up.withWs [(parKey Par.fbkMode.id 0, 2), (parKey Par.fbkCpr.id 0, 2097152), (parKey Par.fbkMode.id 2, 3),
    (parKey Par.fbkPlausNum.id 0, 1), (parKey Par.fbkPlausDen.id 0, 20480)]).withDev (fun d => { d with agreed := { d.agreed with fb :=
      [{ pos := { v := 1193536 }, rev := { v := 8 } }, {}, { pos := { v := 2871 } }] } })).chip.pairError 0 2 (-40827328) = 0 := by decide +kernel

-- chapter 13: L = 4,813,012,345 ns on the 50 µs grid of MB0: control-period count 0x24B3C, index 1, kind 3
theorem test_launch_boundary : (up.withDev (fun d => { d with count := 0x24B3A, sn := 4812500000 })).chip.boundaryOf 50000 4813012345 = (0x24B3C, 1) := by
  decide +kernel

-- chapter 20: 130.2 °C under THM.DERATE_MIN 50 derates to 89 %
theorem test_derating : dieFactor 50 4 [1302, 1290, 1280] = 89 := by decide +kernel

-- R73: FROZEN goes before SEQ_ERROR, which goes before the rest; of others the lowest code
theorem test_status_order : pickStatus [stBadParam, stSeqError, stFrozen] = some stFrozen ∧ pickStatus [stRange, stBadParam] = some stBadParam := by
  decide +kernel

-- the front command is run and leaves the queue; an empty queue idles
theorem test_front_command : (match step { up with pending := [.laneReady .a, .laneReady .b] } with | .next t => t.pending | _ => []) = [.laneReady .b] := by
  decide +kernel
theorem test_echo : (match exec (.sysEcho (op (q [1, 2]))) up with | .next t => t.chip.dev.replies.map (fun e => (e.1, e.2.status, e.2.payload)) | _ => [])
    = [(.a, 0, q [1, 2])] := by decide +kernel

end Sys2Proof.Tests.Figures

/-! ### Witnesses of the statements of Slice0 -/

namespace Sys2Proof.Tests.General
open Sys2Proof Sys2Proof.Machine Sys2Proof.Tests

/-- Every premise of IdleStepAdvancesTimebases is met. -/
theorem witness_IdleStepAdvancesTimebases : ∃ s : State, s.pending = [] := ⟨up, rfl⟩
/-- Every premise of EveryStepKeepsMemoriesCanonical is met, with a command in the queue. -/
theorem witness_EveryStepKeepsMemoriesCanonical : ∃ s t : State, s.memWf = true ∧ s.pending ≠ [] ∧ step s = .next t :=
  ⟨{ up with pending := [.laneReady .a] }, _, by decide +kernel, by decide, rfl⟩
/-- Every premise of EveryStepConsumesOneCommand is met, on an empty queue too. -/
theorem witness_EveryStepConsumesOneCommand : ∃ s t : State, step s = .next t := ⟨State.reset, _, rfl⟩
/-- Every premise of conjunct 2 of MemoriesReadBackAndAreTheirReads is met. -/
theorem witness_MemoriesReadBackAndAreTheirReads_2 : ∃ m n : List Host.Cell, Memory.wf m = true ∧ Memory.wf n = true ∧ ∀ a, cellGet m a = cellGet n a :=
  ⟨[(3, 7), (9, 1)], [(3, 7), (9, 1)], by decide, by decide, fun _ => rfl⟩
/-- Every premise of conjunct 1 of MemoriesReadBackAndAreTheirReads is met, at both ends of the written bytes. -/
theorem witness_MemoriesReadBackAndAreTheirReads_1 : (∃ (a b : Nat) (bs : List Byte), bs ≠ [] ∧ b < a) ∧ ∃ (a b : Nat) (bs : List Byte), bs ≠ [] ∧ a + bs.length ≤ b :=
  ⟨⟨4, 3, [1], by decide, by decide⟩, ⟨4, 5, [1], by decide, by decide⟩⟩
/-- Every premise of conjunct 1 of PacketsTurnedAwayHaveNoEffect is met. -/
theorem witness_PacketsTurnedAwayHaveNoEffect_1 : ∃ (i : Instr) (o : OpRow) (l : LaneId) (st : Nat) (s : State), opRow i = some o ∧ o.req.link = some l ∧
    s.chip.linkGate (s.chip.reqCrc o.attr.code o.req) o.req = .answer st :=
  ⟨.sysEcho { op [] with seq := 9 }, _, .a, _, up, rfl, rfl, rfl⟩
/-- Every premise of conjunct 2 of PacketsTurnedAwayHaveNoEffect is met. -/
theorem witness_PacketsTurnedAwayHaveNoEffect_2 : ∃ (i : Instr) (o : OpRow) (l : LaneId) (st : Nat) (s g : State), opRow i = some o ∧ o.req.link = some l ∧ st ≠ 0 ∧
    s.gated o.attr o.req = some g ∧ pickStatus (formFails o.attr o.req g.chip ++ tagFails o.req g.chip ++ stopFails o.attr o.req g.chip ++
      timedFails o.req g.chip ++ o.checks o.req g.chip) = some st :=
  ⟨.laneFence (op (q [1])), _, .a, stBadParam, up, (up.gated attrLaneFence (op (q [1]))).getD up, rfl, rfl, by decide, rfl, rfl⟩
/-- Every premise of OperationsThatPassTakeEffect is met. -/
theorem witness_OperationsThatPassTakeEffect : ∃ (i : Instr) (o : OpRow) (s g : State), opRow i = some o ∧ s.gated o.attr o.req = some g ∧
    opFails o.attr o.checks o.req (g.marked o.attr).chip = [] :=
  ⟨.sysEcho (op []), _, up, (up.gated attrSysEcho (op [])).getD up, rfl, rfl, rfl⟩

end Sys2Proof.Tests.General

namespace Sys2Proof.Tests.Packets
open Sys2Proof Sys2Proof.Machine Sys2Proof.Tests
def pk : OutPacket := { opcode := 0x11, payload := [1,2,3] }
def states : List State := [up, up.withDev (fun d => { d with hosts := d.hosts.set .b { synced := true, frozen := true } }),
  up.withLane .a (fun n => { n with txq := [pk, pk] }), up.withDev (fun d => { d with hosts := d.hosts.set .b { synced := true, frozen := true, violatedNow := true } }),
  { up with chip := { up.chip with bridges := up.chip.bridges.set .a { powered := true, silent := false, address := 5, queue := [{ pk with payload := (List.replicate 48 7) }], edges := 3, rejects := 4 } } }]
def reqs : List Req := [op [], op (q [1,2,3]), { op [] with link := some .b, seq := 7, mask := 2 }, op (q [2]), op (q [0]), op (q [9]), keyed (q [0]), op (q [3])]
def poolS : List (State) := states
def getS (k : Nat) : State := poolS.getD k up
def poolR : List (Req) := reqs
def getR (k : Nat) : Req := poolR.getD k (op [])
def poolB : List (List Byte) := [[], List.replicate 32 9]
def getB (k : Nat) : List Byte := poolB.getD k []

/-- Every premise of StatusPriority is met. -/
theorem witness_StatusPriority :
    (∃ xs : List Nat, (xs = [])) ∧
    (∃ xs : List Nat, (xs ≠ [])) ∧
    (∃ xs : List Nat, (stFenced ∈ xs)) ∧
    (∃ xs : List Nat, (stFenced ∉ xs) ∧ (stFrozen ∈ xs)) ∧
    (∃ xs : List Nat, (stFenced ∉ xs) ∧ (stFrozen ∉ xs) ∧ (stSeqError ∈ xs)) ∧
    (∃ xs : List Nat, ∃ x, ∃ y, (stFenced ∉ xs) ∧ (stFrozen ∉ xs) ∧ (stSeqError ∉ xs) ∧ (pickStatus xs = some x) ∧ (y ∈ xs)) :=
  ⟨⟨([]), by decide +kernel⟩,
   ⟨([27]), by decide +kernel⟩,
   ⟨([27]), by decide +kernel⟩,
   ⟨([30, 32, 16]), by decide +kernel⟩,
   ⟨([32, 17]), by decide +kernel⟩,
   ⟨([39, 17, 18]), 17, 17, by decide +kernel⟩⟩

/-- Every premise of conjunct 1 of HostLinksSynchroniseAndUnfreeze is met. -/
theorem witness_HostLinksSynchroniseAndUnfreeze_1 :
    (∃ r : Req, ∃ l : LaneId, ∃ s : State, (r.link = some l) ∧ (s.chip.inAuth l = true) ∧ ((s.chip.lane l).boot.fenced = false) ∧ (r.flags = 0) ∧ (r.payload = []) ∧ ((r.mask = 0 ∨ r.mask = bitMask l.idx)) ∧ (r.session = 0) ∧ ((s.chip.dev.hosts.get l).tags.contains r.tag = false)) :=
  ⟨(getR 0), .a, (getS 0), by decide +kernel⟩

/-- Every premise of EchoIdentifyAndUnknownOpcodes is met. -/
theorem witness_EchoIdentifyAndUnknownOpcodes :
    (∃ r : Req, ∃ l : LaneId, ∃ s : State, (r.link = some l) ∧ (r.session = 0) ∧ (hasBit r.flags 0 = false) ∧ (s.admits attrSysEcho r = true)) ∧
    (∃ r : Req, ∃ l : LaneId, ∃ s : State, (r.link = some l) ∧ (r.session = 0) ∧ (hasBit r.flags 0 = false) ∧ (s.admits attrSysIdentify r = true) ∧ (r.body = [])) ∧
    (∃ r : Req, ∃ l : LaneId, ∃ s : State, ∃ code : BitVec 16, (r.link = some l) ∧ (r.session = 0) ∧ (hasBit r.flags 0 = false) ∧ (inIndex code.toNat = false) ∧ (s.admits (attrUnknown code.toNat) r = true)) :=
  ⟨⟨(getR 0), .a, (getS 0), by decide +kernel⟩,
   ⟨(getR 0), .a, (getS 0), by decide +kernel⟩,
   ⟨(getR 0), .a, (getS 0), (0x7777#16), by decide +kernel⟩⟩

/-- Every premise of conjunct 2 of HostLinksSynchroniseAndUnfreeze is met. -/
theorem witness_HostLinksSynchroniseAndUnfreeze_2 :
    (∃ s : State, ∃ r : Req, (s.admits attrHostUnfreeze r = true) ∧ (r.body.length = 16) ∧ (fld r.body 0 1 < 8) ∧ (zeroFrom r.body 1 16 = true) ∧ ((r.session = 0 → ∀ l ∈ unfreezeLinks r, some l ≠ r.link))) ∧
    (∃ s : State, ∃ l : LaneId, ((s.chip.dev.hosts.get l).violatedNow = false)) :=
  ⟨⟨(getS 0), (getR 3), by decide +kernel⟩,
   ⟨(getS 0), .a, by decide +kernel⟩⟩

/-- Every premise of conjunct 1 of BridgeEventsAndReadFrames is met. -/
theorem witness_BridgeEventsAndReadFrames_1 :
    (∃ s : State, ∃ l : LaneId, ∃ p, ∃ ps, ((s.chip.lane l).txq = p :: ps) ∧ (p.isEvent = false) ∧ (p.opcode % 256 ≠ 2) ∧ ((s.chip.bridges.get l).silent = false) ∧ ((s.chip.bridges.get l).lost = false) ∧ ((s.chip.bridges.get l).powered = true) ∧ (queueUsed (s.chip.bridges.get l).queue + p.size ≤ queueBytes)) ∧
    (∃ s : State, ∃ l : LaneId, ∃ p, ∃ ps, ((s.chip.lane l).txq = p :: ps) ∧ (p.isEvent = false) ∧ (p.opcode % 256 ≠ 2) ∧ ((s.chip.bridges.get l).silent = false) ∧ ((s.chip.bridges.get l).lost = false) ∧ ((s.chip.bridges.get l).powered = true) ∧ (queueUsed (s.chip.bridges.get l).queue + 32 ≤ queueBytes)) ∧
    (∃ s : State, ∃ l : LaneId, ((s.chip.bridges.get l).lost = false)) :=
  ⟨⟨(getS 2), .a, ({ opcode := 17, tag := 0x00#8, status := 0, session := 0, mask := 0x00#8, seq := 0, payload := [0x01#8, 0x02#8, 0x03#8], isEvent := false }), ([{ opcode := 17, tag := 0x00#8, status := 0, session := 0, mask := 0x00#8, seq := 0, payload := [0x01#8, 0x02#8, 0x03#8], isEvent := false }]), by decide +kernel⟩,
   ⟨(getS 2), .a, ({ opcode := 17, tag := 0x00#8, status := 0, session := 0, mask := 0x00#8, seq := 0, payload := [0x01#8, 0x02#8, 0x03#8], isEvent := false }), ([{ opcode := 17, tag := 0x00#8, status := 0, session := 0, mask := 0x00#8, seq := 0, payload := [0x01#8, 0x02#8, 0x03#8], isEvent := false }]), by decide +kernel⟩,
   ⟨(getS 0), .a, by decide +kernel⟩⟩

/-- Every premise of WrittenPacketIsReceivedAsSent is met. -/
theorem witness_WrittenPacketIsReceivedAsSent :
    (∃ l : LaneId, ∃ s : State, ∃ opcode : Nat, ∃ tag : Byte, ∃ flags : Byte, ∃ mask : Byte, ∃ session : Nat, ∃ seq : Nat, ∃ payload : List Byte, (opcode < 2 ^ 16) ∧ (session < 256) ∧ (mask.toNat < 8) ∧ (seq < 2 ^ 32) ∧ (payload.length % 16 = 0) ∧ (payload.length ≤ 4080) ∧ ((s.chip.bridges.get l).matches = true) ∧ ((s.chip.bridges.get l).address < 128) ∧ ((s.chip.bridges.get l).hlinkOn = true) ∧ (s.chip.sleeping = false) ∧ (s.chip.unavailable l = false) ∧ ((s.chip.bridges.get l).closing = false) ∧ (buffersOf payload.length ≤ (s.chip.bridges.get l).credits) ∧ (s.chip.receptionPasses l { opcode := opcode, req := { link := some l, tag := tag, flags := flags, session := session, mask := mask, seq := seq, payload := payload } } = true)) :=
  ⟨.a, (getS 4), 0, (0x00#8), (0x00#8), (0x00#8), 0, 0, (getB 0), by decide +kernel⟩

/-- Every premise of conjunct 2 of BridgeEventsAndReadFrames is met. -/
theorem witness_BridgeEventsAndReadFrames_2 :
    (∃ l : LaneId, ∃ s : State, ∃ n : Nat, ((s.chip.bridges.get l).matches = true) ∧ ((s.chip.bridges.get l).address < 128) ∧ ((s.chip.bridges.get l).hlinkOn = true) ∧ (s.chip.sleeping = false) ∧ (16 ≤ n)) :=
  ⟨.a, (getS 4), 16, by decide +kernel⟩

end Sys2Proof.Tests.Packets

namespace Sys2Proof.Tests.Startup
open Sys2Proof Sys2Proof.Machine Sys2Proof.Tests
def dead : State := { up with chip := { up.chip with lanes := up.chip.lanes.set .a {} } }
def boot : Lane := { lane with boot := { powerGood := true } }
def rdy : Lane := { lane with boot := { powerGood := true, state := .ready } }
def unf (f : LaneId → Lane → Lane) : State := { up with chip := { up.chip with dev := {}, lanes := up.chip.lanes.mapIdx (fun l _ => f l rdy) } }
def states : List State := [up, dead, { up with chip := { up.chip with lanes := ⟨lane, {}, {}⟩ } }, up.withLane .a (fun _ => boot),
  unf (fun _ n => n), unf (fun l n => if l = .b then { n with boot := { n.boot with state := .adopting, adoptFrom := some .a } } else n),
  unf (fun l n => if l = .b then { n with boot := { n.boot with state := .adopting, adoptFrom := some .a, adoptFw := true } } else n),
  (unf (fun _ n => { n with boot := { n.boot with acked := true } })).withDev (fun d => { d with formation := some 7, formAcks := 0 }),
  (unf (fun _ n => { n with boot := { n.boot with acked := true } })).withDev (fun d => { d with formation := some 7, formAcks := 2 }),
  unf (fun _ n => { n with boot := { n.boot with waitRuns := true, seen := Tri.mk (some { state := 1 }) (some { state := 1 }) (some { state := 1 }) } }),
  (unf (fun _ n => n)).withLane .b (fun n => { n with boot := { n.boot with sent := some { lane := .b, state := 1 } } }),
  unf (fun _ n => { n with boot := { n.boot with waitRuns := true } })]
def poolS : List (State) := states ++ [(states.getLastD up)].map (fun s => { s with chip := { s.chip with lanes := s.chip.lanes.map (fun n => { n with boot := { n.boot with seen := Tri.mk (some (s.chip.discOf .a)) (some (s.chip.discOf .b)) (some (s.chip.discOf .c)) } }) } })
def getS (k : Nat) : State := poolS.getD k up
def poolC : List (Chip) := poolS.flatMap (fun s => LaneId.all.map (fun l => s.chip.modLane l (fun n => { n with boot := { n.boot with wait := 0, waitRuns := false } })))
def getC (k : Nat) : Chip := poolC.getD k full.chip
def poolB : List (List Byte) := [[], discBytes {}, discBytes { state := 1, check := 7 }]
def getB (k : Nat) : List Byte := poolB.getD k []

/-- Every premise of SuppliesStartAndStopLanes is met. -/
theorem witness_SuppliesStartAndStopLanes :
    (∃ s : State, ∃ l : LaneId, ((s.chip.lane l).boot.powerGood = false)) ∧
    (∃ s : State, ∃ l : LaneId, ((s.chip.lane l).boot.powerGood = true) ∧ ((∃ k, k ≠ l ∧ (s.chip.lane k).boot.powerGood = true)) ∧ (s.chip.authLanes ≠ [l])) ∧
    (∃ s : State, ∃ l : LaneId, ((s.chip.lane l).boot.powerGood = true) ∧ ((∀ k, k ≠ l → (s.chip.lane k).boot.powerGood = false))) :=
  ⟨⟨(getS 1), .a, by decide +kernel⟩,
   ⟨(getS 0), .a, by decide +kernel, ⟨.b, by decide +kernel⟩, by decide +kernel⟩,
   ⟨(getS 2), .a, by decide +kernel, by intro k; cases k <;> decide +kernel⟩⟩

/-- Every premise of conjunct 1 of LanesBootAdoptAndForm is met. -/
theorem witness_LanesBootAdoptAndForm_1 :
    (∃ s : State, ∃ l : LaneId, ∃ k, ((s.chip.lane l).boot.powerGood = true) ∧ ((s.chip.lane l).power.core = true) ∧ ((s.chip.lane l).bist.phase = 0) ∧ ((s.chip.lane l).boot.state = .booting) ∧ ((s.chip.lane l).boot.fenced = false) ∧ ((s.chip.lane l).nvm.logOk = true) ∧ ((s.chip.lane l).nvm.log = []) ∧ (bootBank (s.chip.lane l).nvm (s.mem.get l) [] = some k)) ∧
    (∃ s : State, ∃ l : LaneId, ((s.chip.lane l).power.net = true)) ∧
    (∃ s : State, ∃ l : LaneId, (((s.chip.lane l).boot.state = .ready ∨ (s.chip.lane l).boot.state = .adopting))) ∧
    (∃ s : State, ∃ l : LaneId, ∃ tx : LaneId, ∃ d : DiscRec, ∃ b, (l ≠ tx) ∧ ((s.chip.lane l).boot.state ≠ .booting) ∧ ((s.chip.lane l).boot.state ≠ .refused) ∧ (discOfBytes b = some d)) ∧
    (∃ s : State, ∃ l : LaneId, ∃ tx : LaneId, ∃ d : DiscRec, (l ≠ tx) ∧ ((s.chip.lane l).boot.state ≠ .booting) ∧ ((s.chip.lane l).boot.state ≠ .refused) ∧ ((s.chip.lane tx).boot.sent = some d) ∧ (d.lane = tx)) ∧
    (∃ d : DiscRec, (d.state < 256) ∧ (d.copy < 256) ∧ (d.fwVersion < 2 ^ 32) ∧ (d.fwSecurity < 2 ^ 32) ∧ (d.fwDigest < 2 ^ 32) ∧ (d.imgSeq < 2 ^ 32) ∧ (d.imgCrc < 2 ^ 32) ∧ (d.confirmCount < 2 ^ 32) ∧ (d.wait < 2 ^ 32) ∧ (d.check < 2 ^ 64)) :=
  ⟨⟨(getS 3), .a, 0, by decide +kernel⟩,
   ⟨(getS 0), .a, by decide +kernel⟩,
   ⟨(getS 4), .a, by decide +kernel⟩,
   ⟨(getS 0), .a, .b, ({ lane := .a, state := 0, copy := 255, fwVersion := 0, fwSecurity := 0, fwDigest := 0, imgSeq := 0, imgCrc := 0, confirmCount := 0, wait := 0, check := 0, commissioned := false }), (getB 1), by decide +kernel⟩,
   ⟨(getS 10), .a, .b, ({ lane := .b, state := 1, copy := 255, fwVersion := 0, fwSecurity := 0, fwDigest := 0, imgSeq := 0, imgCrc := 0, confirmCount := 0, wait := 0, check := 0, commissioned := false }), by decide +kernel⟩,
   ⟨({ lane := .b, state := 1, copy := 255, fwVersion := 0, fwSecurity := 0, fwDigest := 0, imgSeq := 0, imgCrc := 0, confirmCount := 0, wait := 0, check := 0, commissioned := false }), by decide +kernel⟩⟩

/-- Every premise of conjunct 2 of LanesBootAdoptAndForm is met. -/
theorem witness_LanesBootAdoptAndForm_2 :
    (∃ s : State, ∃ l : LaneId, ∃ k, ((s.chip.lane l).boot.state = .adopting) ∧ ((s.chip.lane l).boot.adoptFrom = some k) ∧ ((s.chip.lane l).boot.adoptFw = true) ∧ (k ≠ l)) ∧
    (∃ s : State, ∃ l : LaneId, ∃ k, ((s.chip.lane l).boot.state = .adopting) ∧ ((s.chip.lane l).boot.adoptFrom = some k) ∧ ((s.chip.lane l).boot.adoptFw = false)) ∧
    (∃ s : State, ∃ l : LaneId, ∃ m, (s.chip.dev.formation = some m) ∧ (hasLane m l = true) ∧ ((s.chip.lane l).boot.state = .ready)) ∧
    (∃ s : State, ∃ l : LaneId, ∃ m, ∃ f, ∃ rest, (s.chip.dev.formation = some m) ∧ (lanesOf m = f :: rest) ∧ ((s.chip.lane l).boot.acked = true) ∧ ((∀ k ∈ rest, k ≠ l → hasLane s.chip.dev.formAcks k = true))) ∧
    (∃ s : State, ∃ l : LaneId, ∃ m, ∃ f, ∃ rest, (s.chip.dev.formation = some m) ∧ (lanesOf m = f :: rest) ∧ ((s.chip.lane l).boot.acked = true) ∧ ((∃ k ∈ rest, k ≠ l ∧ hasLane s.chip.dev.formAcks k = false))) ∧
    (∃ s : State, ∃ l : LaneId, ∃ m, ∃ f, ∃ rest, (s.chip.dev.formation = some m) ∧ (lanesOf m = f :: rest) ∧ (l ∈ rest) ∧ (hasLane s.chip.dev.formAcks l = false) ∧ (lanesOf (setLaneBit m l false) ≠ [f])) ∧
    (∃ s : State, ∃ l : LaneId, ∃ c, (c = s.chip.modLane l (fun n => { n with boot := { n.boot with wait := 0, waitRuns := false } })) ∧ ((s.chip.lane l).boot.waitRuns = true) ∧ (c.isFormer l = true) ∧ (s.chip.dev.formation = none) ∧ (lanesOf (maskOf (c.matching l)) ≠ [l])) ∧
    (∃ s : State, ∃ l : LaneId, ∃ c, (c = s.chip.modLane l (fun n => { n with boot := { n.boot with wait := 0, waitRuns := false } })) ∧ ((s.chip.lane l).boot.waitRuns = true) ∧ (c.isFormer l = true) ∧ (s.chip.dev.formation = none) ∧ (lanesOf (maskOf (c.matching l)) = [l])) ∧
    (∃ s : State, ∃ l : LaneId, ∃ c, (c = s.chip.modLane l (fun n => { n with boot := { n.boot with wait := 0, waitRuns := false } })) ∧ ((s.chip.lane l).boot.waitRuns = true) ∧ (c.isFormer l = false)) :=
  ⟨⟨(getS 6), .b, .a, by decide +kernel⟩,
   ⟨(getS 5), .b, .a, by decide +kernel⟩,
   ⟨(getS 7), .a, (0x07#8), by decide +kernel⟩,
   ⟨(getS 8), .c, (0x07#8), .a, ([.b, .c]), by decide +kernel⟩,
   ⟨(getS 7), .a, (0x07#8), .a, ([.b, .c]), by decide +kernel⟩,
   ⟨(getS 7), .b, (0x07#8), .a, ([.b, .c]), by decide +kernel⟩,
   ⟨(getS 12), .a, (getC 36), by decide +kernel⟩,
   ⟨(getS 9), .a, (getC 27), by decide +kernel⟩,
   ⟨(getS 9), .b, (getC 28), by decide +kernel⟩⟩

end Sys2Proof.Tests.Startup

namespace Sys2Proof.Tests.Faults
open Sys2Proof Sys2Proof.Machine Sys2Proof.Tests
def fltLane (f : Collector) : State := up.withLane .a (fun n => { n with fault := f })
def states : List State := [up, fltLane { queue := [{ code := 0x0105 }, { code := 0x0106 }], writeIdx := 4095 }, fltLane { queue := [{ code := 0x0105 }], writeIdx := 7, ring := [(7, true, {})], writes := 3 },
  fltLane { opened := [{ code := 0x0105, utype := 1, inst := 0, lane := 0 }, { code := 0x0106 }] },
  up.withLane .a (fun n => { n with boot := { n.boot with fenced := true, halted := true } }),
  (up.withLane .a (fun n => { n with boot := { n.boot with fenced := true, halted := true } })).withDev (fun d => { d with authority := 6, aset := 6 }),
  ((up.withLane .a (fun n => { n with boot := { n.boot with fenced := true, restartSent := true } })).withDev (fun d => { d with authority := 6, aset := 6 })).withPend { opcode := 0x0111, link := some .b, lanes := 1 },
  ((up.withLane .a (fun n => { n with boot := { n.boot with fenced := true, readmitting := true, state := .booting } })).withDev (fun d => { d with authority := 6, aset := 6 })).withPend { opcode := 0x0111, link := some .b, lanes := 1 },
  (((up.withLane .a (fun n => { n with silent := 6, round := { n.round with sent := true } })).withPintle (fun p => { p with lanes := Tri.all { presents := true } })).withDev (fun d => { d with authority := 3 })),
  ((up.withLane .c (fun n => { n with boot := { n.boot with halted := true } })).withLane .b (fun n => { n with silent := 4 })),
  up.onChip (fun c => { c with links := c.links.map (fun k => { k with failedLast := true }) }),
  up.withLane .a (fun n => { n with fb := modNth n.fb 3 (fun x => { x with fenced := true }) }),
  up.withDev (fun d => { d with authority := 1, aset := 1 })]
def reqs : List Req := [op [], op [] 1, op [] 2, keyed [] 1, keyed [] 2, keyed [] 7, op (q [0,0,1,0]), op (q [0,0,1,0]) 1, op (q [0,0,3,0]) 3, op (q [5,1,85,0]) 5, op (q [9,3]) 1, keyed (q [9,3]) 1,
  keyed (q [1,5,0,1,0,3]), keyed (q [1,2,0,9,3,3]) 1, keyed (q [0x0B,1,1,20,3,3]) 1, keyed [], { keyed [] 1 with link := some .b }]
def poolS : List (State) := states
def getS (k : Nat) : State := poolS.getD k up
def poolR : List (Req) := reqs
def getR (k : Nat) : Req := poolR.getD k (op [])

/-- Every premise of RecordsReachTheRing is met. -/
theorem witness_RecordsReachTheRing :
    (∃ s : State, ∃ l : LaneId, ∃ r : FaultRec, ∃ rest : List FaultRec, (s.chip.runs l = true) ∧ ((s.chip.lane l).fault.queue = r :: rest) ∧ ((s.chip.lane l).fault.writes < 4) ∧ ((s.chip.lane l).bist.regions.contains 24 = false) ∧ ((s.chip.lane l).fault.droppedNow = 0)) ∧
    (∃ s : State, ∃ l : LaneId, ∃ code : Nat, ∃ t : Nat, ∃ i : Nat, ∃ die : Nat, ∃ agreed : Bool, ∃ r : FaultRec, (s.chip.runs l = true) ∧ ((s.chip.lane l).fault.opened.find? (fun x => x.same { code := code, utype := t, inst := i, lane := die, agreed := agreed }) = some r)) ∧
    (∃ s : State, ∃ r : Req, ∃ k : LaneId, (r.link = some k) ∧ (r.session = 0) ∧ (hasBit r.flags 0 = false) ∧ (s.admits attrRecordRead r = true) ∧ (r.body.length = 16) ∧ (zeroFrom r.body 4 16 = true) ∧ (fld r.body 2 2 ≠ 0) ∧ (16 * fld r.body 2 2 * r.lanes.length ≤ 4080)) :=
  ⟨⟨(getS 1), .a, ({ code := 261, cls := 1, utype := 0, inst := 0, lane := 255, count := 1, nt := 0, agreed := false, ord := 0 }), ([{ code := 262, cls := 1, utype := 0, inst := 0, lane := 255, count := 1, nt := 0, agreed := false, ord := 0 }]), by decide +kernel⟩,
   ⟨(getS 3), .a, 261, 1, 0, 0, false, ({ code := 261, cls := 1, utype := 1, inst := 0, lane := 0, count := 1, nt := 0, agreed := false, ord := 0 }), by decide +kernel⟩,
   ⟨(getS 0), (getR 6), .a, by decide +kernel⟩⟩

/-- Every premise of conjunct 1 of ServiceFencingAndPartnerEvidence is met. -/
theorem witness_ServiceFencingAndPartnerEvidence_1 :
    (∃ s : State, ∃ r : Req, (s.admits attrLaneFence r = true) ∧ (r.body = []) ∧ (r.mask ≠ 0) ∧ ((∃ k ∈ s.chip.authLanes, k ∉ r.lanes))) ∧
    (∃ s : State, ∃ l : LaneId, ∃ r : Req, (s.admits attrLaneReadmit r = true) ∧ (r.body = []) ∧ (r.lanes = [l]) ∧ (s.chip.authLanes ≠ []) ∧ ((s.chip.lane l).boot.fenced = true) ∧ ((s.chip.lane l).boot.state ≠ .refused) ∧ ((s.chip.lane l).boot.readmits < s.chip.parN Par.fltReadmitMax)) ∧
    (∃ s : State, ∃ l : LaneId, ∃ p : PendOp, ∃ k : LaneId, ((s.chip.lane l).boot.restartSent = true) ∧ (s.chip.dev.pend = [p]) ∧ (p.opcode = 0x0111) ∧ (lanesOf p.lanes = [l]) ∧ (p.results.get l = none) ∧ (p.link = some k)) ∧
    (∃ s : State, ∃ l : LaneId, ∃ p : PendOp, ∃ k : LaneId, ((s.chip.lane l).boot.readmitting = true) ∧ ((s.chip.lane l).boot.state = .booting) ∧ (s.chip.dev.pend = [p]) ∧ (p.opcode = 0x0111) ∧ (lanesOf p.lanes = [l]) ∧ (p.results.get l = none) ∧ (p.link = some k)) ∧
    (∃ s : State, ∃ r : Req, (s.admits attrSysReset r = true) ∧ (r.body = [])) :=
  ⟨⟨(getS 0), (getR 3), by decide +kernel⟩,
   ⟨(getS 4), .a, (getR 16), by decide +kernel⟩,
   ⟨(getS 6), .a, ({ opcode := 273, link := some (.b), tag := 0x00#8, session := 0, mask := 0x00#8, seq := 0, suppress := false, lanes := 0x01#8, results := { a := none, b := none, c := none }, arg := 0, arg2 := 0, at_ := 0 }), .b, by decide +kernel⟩,
   ⟨(getS 7), .a, ({ opcode := 273, link := some (.b), tag := 0x00#8, session := 0, mask := 0x00#8, seq := 0, suppress := false, lanes := 0x01#8, results := { a := none, b := none, c := none }, arg := 0, arg2 := 0, at_ := 0 }), .b, by decide +kernel⟩,
   ⟨(getS 0), (getR 15), by decide +kernel⟩⟩

/-- Every premise of conjunct 2 of ServiceFencingAndPartnerEvidence is met. -/
theorem witness_ServiceFencingAndPartnerEvidence_2 :
    (∃ s : State, ∃ x : LaneId, ∃ y : LaneId, (x ≠ y) ∧ ((s.chip.linkAt (linkIdx y x)).fenced = false) ∧ ((s.chip.lane y).boot.halted = false)) ∧
    (∃ s : State, ∃ x : LaneId, ∃ y : LaneId, (x ≠ y) ∧ ((s.chip.lane y).boot.halted = true) ∧ ((s.chip.linkAt (linkIdx y x)).fenced = false) ∧ (s.chip.laneLive x = true)) ∧
    (∃ s : State, ∃ x : LaneId, ∃ y : LaneId, (x ≠ y) ∧ (s.chip.inAuth x = true) ∧ (s.chip.inAuth y = true) ∧ (s.chip.dev.standdown ≠ some y) ∧ (hasLane (s.chip.lane x).silent y = false)) ∧
    (∃ s : State, ∃ x : LaneId, ∃ y : LaneId, (x ≠ y) ∧ (hasLane (s.chip.lane x).silent y = true) ∧ (s.chip.inAuth x = true) ∧ (s.chip.inAuth y = true) ∧ (s.chip.witnesses y = [x]) ∧ ((s.chip.lane x).silentAt.get y + 2 ≤ s.chip.dev.count) ∧ ((s.chip.pintle.lanes.get y).presents = true)) ∧
    (∃ s : State, ∃ x : LaneId, ∃ y : LaneId, ∃ k : Fin 3, (x ≠ y) ∧ ((s.chip.linkAt k.val).fenced = false)) :=
  ⟨⟨(getS 0), .a, .b, by decide +kernel⟩,
   ⟨(getS 4), .b, .a, by decide +kernel⟩,
   ⟨(getS 0), .a, .b, by decide +kernel⟩,
   ⟨(getS 8), .a, .b, by decide +kernel⟩,
   ⟨(getS 0), .a, .b, 0, by decide +kernel⟩⟩

/-- Every premise of DetectionsContainAndUnfencesWait is met. -/
theorem witness_DetectionsContainAndUnfencesWait :
    (∃ s : State, ∃ l : LaneId, ∃ code : Nat, ∃ t : Nat, ∃ i : Nat, (s.chip.runs l = true) ∧ (codeDefined code = true) ∧ (unitExists t i = true) ∧ (code ≠ 0x3201) ∧ (t ≠ 0x04) ∧ (t ≠ 0x05) ∧ (t ≠ 0x06) ∧ (faultClass code = 1)) ∧
    (∃ s : State, ∃ l : LaneId, ∃ code : Nat, ∃ t : Nat, ∃ i : Nat, (s.chip.runs l = true) ∧ (codeDefined code = true) ∧ (unitExists t i = true) ∧ (code ≠ 0x3201) ∧ (t ≠ 0x04) ∧ (t ≠ 0x05) ∧ (t ≠ 0x06) ∧ (faultClass code = 2) ∧ (t = 0x09)) ∧
    (∃ s : State, ∃ l : LaneId, ∃ code : Nat, ∃ t : Nat, ∃ i : Nat, (s.chip.runs l = true) ∧ (codeDefined code = true) ∧ (unitExists t i = true) ∧ (code ≠ 0x3201) ∧ (t ≠ 0x04) ∧ (t ≠ 0x05) ∧ (t ≠ 0x06) ∧ (faultClass code = 3) ∧ ((s.chip.lane l).boot.fenced = false) ∧ (s.chip.authLanes ≠ [l])) ∧
    (∃ s : State, ∃ l : LaneId, ∃ code : Nat, ∃ t : Nat, ∃ i : Nat, ∃ r : Req, (s.chip.runs l = true) ∧ (codeDefined code = true) ∧ (unitExists t i = true) ∧ (code ≠ 0x3201) ∧ (t ≠ 0x04) ∧ (t ≠ 0x05) ∧ (t ≠ 0x06) ∧ (s.admits attrInject r = true) ∧ (r.body.length = 16) ∧ (zeroFrom r.body 6 16 = true) ∧ (codeDefined (fld r.body 0 2) = true) ∧ (unitExists (fld r.body 3 1) (fld r.body 4 1) = true) ∧ (fld r.body 5 1 ≠ 0) ∧ ((fld r.body 2 1 = 0 ∨ fld r.body 2 1 = 1 ∧ sourceFits (fld r.body 0 2) (fld r.body 3 1) (fld r.body 4 1) = true))) ∧
    (∃ s : State, ∃ l : LaneId, ∃ code : Nat, ∃ t : Nat, ∃ i : Nat, ∃ r : Req, (s.chip.runs l = true) ∧ (codeDefined code = true) ∧ (unitExists t i = true) ∧ (code ≠ 0x3201) ∧ (t ≠ 0x04) ∧ (t ≠ 0x05) ∧ (t ≠ 0x06) ∧ (s.admits attrUnitUnfence r = true) ∧ (r.body.length = 16) ∧ (zeroFrom r.body 2 16 = true) ∧ (fld r.body 0 1 = 0x09) ∧ (fld r.body 1 1 < 8) ∧ ((∀ k ∈ r.lanes, s.chip.inAuth k = true)) ∧ (r.lanes.filter (fun k => s.chip.heldFenced k 0x09 (fld r.body 1 1)) ≠ [])) :=
  ⟨⟨(getS 0), .a, 261, 0, 0, by decide +kernel⟩,
   ⟨(getS 0), .a, 4353, 9, 0, by decide +kernel⟩,
   ⟨(getS 0), .a, 1026, 0, 0, by decide +kernel⟩,
   ⟨(getS 0), .a, 261, 0, 0, (getR 12), by decide +kernel⟩,
   ⟨(getS 11), .a, 261, 0, 0, (getR 11), by decide +kernel⟩⟩

end Sys2Proof.Tests.Faults

namespace Sys2Proof.Tests.Sio
open Sys2Proof Sys2Proof.Machine Sys2Proof.Tests
def sl (f : LaneSio → LaneSio) : State := act.withLane .a (fun n => { n with sio := f n.sio })
def states : List State := [up, act, sl (fun x => { x with tpOn := 3 }), (sl (fun x => { x with tpOn := 3 })).withDev (fun d => { d with count := 1020 }),
  sl (fun x => { x with tpOn := 3, tpPulse := 3, hold := true, siNext := 0x55 }), sl (fun x => { x with hold := true, siNext := 0x55 }),
  (sl (fun x => { x with soOn := 15, enabled := true })).withDev (fun d => { d with count := 801, so := Tri.all 5 }),
  sl (fun x => { x with soOn := 15, enabled := true, offPulse := some 1, offFails := [0,3,0,0] }),
  (sl (fun x => { x with soFenced := 1, offPulse := some 2 })).withDev (fun d => { d with so := Tri.all 9, launches := [{ out := 11 }] }),
  up.withPend { opcode := 0x2411, link := some .b, lanes := 1 },
  synced]
def reqs : List Req := [op [], op [] 1, op [] 7, keyed (q [1, 1]), keyed (q [15, 10, 5]), keyed (q [15, 10, 0]), keyed (q []), timed (q [3, 1]) 1001000000, { keyed (toLe 8 1001000000 ++ List.replicate 8 0 ++ q [1,1]) with flags := 1 }]
def poolS : List (State) := states
def getS (k : Nat) : State := poolS.getD k up
def poolR : List (Req) := reqs
def getR (k : Nat) : Req := poolR.getD k (op [])

/-- Every premise of conjunct 1 of SafetyInputsAndOutputsAreTested is met. -/
theorem witness_SafetyInputsAndOutputsAreTested_1 :
    (∃ s : State, ∃ l : LaneId, ∃ k : Fin 2, (s.chip.dev.formed = true) ∧ (hasBit (s.chip.lane l).sio.tpOn k.val = true) ∧ (hasBit (s.chip.lane l).sio.tpPulse k.val = false) ∧ (s.chip.dev.count % s.chip.parN Par.sioTpPeriod = (if k.val = 0 then 0 else s.chip.parN Par.sioTpPeriod / 2))) ∧
    (∃ s : State, ∃ l : LaneId, ∃ held : Nat, (s.chip.runs l = true) ∧ (1000 * s.chip.parN Par.sioSiFilter ≤ held) ∧ ((s.chip.lane l).sio.hold = true)) ∧
    (∃ s : State, ∃ l : LaneId, ∃ held : Nat, (s.chip.runs l = true) ∧ (1000 * s.chip.parN Par.sioSiFilter ≤ held) ∧ ((s.chip.lane l).sio.hold = false)) ∧
    (∃ s : State, ∃ held : Nat, (held < 1000 * s.chip.parN Par.sioSiFilter)) ∧
    (∃ s : State, ∃ l : LaneId, (s.chip.runs l = true) ∧ ((s.chip.lane l).sio.hold = true) ∧ ((s.chip.lane l).sio.tpPulse = 0)) ∧
    (∃ s : State, ∃ l : LaneId, ∃ k : Fin 2, ∃ p : PulseReading, (s.chip.runs l = true) ∧ (hasBit (s.chip.lane l).sio.tpPulse k.val = true) ∧ ((p.ballEnd = true ∨ p.ballBefore = false))) ∧
    (∃ s : State, ∃ l : LaneId, ∃ k : Fin 2, (hasBit (s.chip.lane l).sio.tpOn k.val = true)) :=
  ⟨⟨(getS 2), .a, 0, by decide +kernel⟩,
   ⟨(getS 4), .a, 200000, by decide +kernel⟩,
   ⟨(getS 0), .a, 200000, by decide +kernel⟩,
   ⟨(getS 0), 0, by decide +kernel⟩,
   ⟨(getS 5), .a, by decide +kernel⟩,
   ⟨(getS 4), .a, 0, ({ ballBefore := true, ballEnd := true, siBefore := 0x00#8, siEnd := 0x00#8 }), by decide +kernel⟩,
   ⟨(getS 2), .a, 0, by decide +kernel⟩⟩

/-- Every premise of conjunct 2 of SafetyInputsAndOutputsAreTested is met. -/
theorem witness_SafetyInputsAndOutputsAreTested_2 :
    (∃ s : State, ∃ l : LaneId, ∃ n : Fin 4, ((s.chip.lane l).sio.on n.val = true)) ∧
    (∃ s : State, ∃ l : LaneId, ∃ n, (s.chip.dev.formed = true) ∧ (s.chip.inAuth l = true) ∧ ((s.chip.lane l).boot.fenced = false) ∧ (s.chip.pulseDue l = some n) ∧ (n < 4) ∧ ((s.chip.lane l).sio.on n = true) ∧ (s.chip.pulseMeetsLaunch n = false)) ∧
    (∃ s : State, ∃ l : LaneId, ∃ n : Nat, ∃ mv : List Nat, (s.chip.runs l = true) ∧ ((s.chip.lane l).sio.offPulse = some n) ∧ (n < 4) ∧ (nth mv n 0 < 2000)) ∧
    (∃ s : State, ∃ r : Req, (s.admits attrPulseTest r = true) ∧ (r.body = []) ∧ (s.chip.dev.actuation = false)) ∧
    (∃ s : State, ∃ l : LaneId, ∃ p : PendOp, ∃ k : LaneId, (s.chip.dev.pend = [p]) ∧ (p.opcode = 0x2411) ∧ (lanesOf p.lanes = [l]) ∧ (p.results.get l = none) ∧ (p.link = some k) ∧ (p.suppress = false)) :=
  ⟨⟨(getS 6), .a, 0, by decide +kernel⟩,
   ⟨(getS 6), .a, 1, by decide +kernel⟩,
   ⟨(getS 7), .a, 1, ([]), by decide +kernel⟩,
   ⟨(getS 0), (getR 0), by decide +kernel⟩,
   ⟨(getS 9), .a, ({ opcode := 9233, link := some (.b), tag := 0x00#8, session := 0, mask := 0x00#8, seq := 0, suppress := false, lanes := 0x01#8, results := { a := none, b := none, c := none }, arg := 0, arg2 := 0, at_ := 0 }), .b, by decide +kernel⟩⟩

/-- Every premise of OutputSetCommandsNamedOutputs is met. -/
theorem witness_OutputSetCommandsNamedOutputs :
    (∃ s : State, ∃ r : Req, (s.admits attrOutputSet r = true) ∧ (r.body.length = 16) ∧ (fld r.body 0 1 < 16) ∧ (fld r.body 1 1 < 16) ∧ (fld r.body 2 1 < 8) ∧ (zeroFrom r.body 3 16 = true) ∧ ((∃ l ∈ s.chip.outputLanes r.body, ∃ n ∈ outputList r.body, s.chip.outputFree l n = true)) ∧ (r.isTimed = false)) ∧
    (∃ s : State, ∃ r : Req, (s.admits attrOutputSet r = true) ∧ (r.body.length = 16) ∧ (fld r.body 0 1 < 16) ∧ (fld r.body 1 1 < 16) ∧ (fld r.body 2 1 < 8) ∧ (zeroFrom r.body 3 16 = true) ∧ ((∃ l ∈ s.chip.outputLanes r.body, ∃ n ∈ outputList r.body, s.chip.outputFree l n = true)) ∧ (r.isTimed = true) ∧ ((∀ n ∈ outputList r.body, s.chip.launchFull (n + 10) = false))) :=
  ⟨⟨(getS 1), (getR 3), by decide +kernel⟩,
   ⟨(getS 10), (getR 7), by decide +kernel⟩⟩

end Sys2Proof.Tests.Sio

namespace Sys2Proof.Tests.Cv
open Sys2Proof Sys2Proof.Machine Sys2Proof.Tests
def cu (f : CvUnit → CvUnit) : State := up.withLane .a (fun n => { n with cv := modNth n.cv 1 f })
def states : List State := [up, cu (fun x => { x with cfg := 0x0001031F#32, poly := 0x04C11DB7, init := 0xFFFFFFFFFF, lat := ⟨0x0001031F#32, 0x04C11DB7, 0, 0⟩, started := true, state := 0x12345678 }),
  cu (fun x => { x with cfg := 0x00010207#32, poly := 0x2F, init := 0xFF, lat := ⟨0x00010207#32, 0x2F, 0xFF, 0xFF⟩, started := true, state := 0x56, src := 8388604, len := 4, busy := true }),
  cu (fun x => { x with cfg := 0x00010207#32, lat := ⟨0x00010207#32, 0x2F, 0xFF, 0xFF⟩, started := true, src := 8388605, len := 4, busy := true }), 
  cu (fun x => { x with cfg := 0x00010207#32, lat := ⟨0x00010207#32, 0x2F, 0xFF, 0xFF⟩, started := true, src := 0, len := 4, busy := true }), 
  cu (fun x => { x with lastFail := some 0, run := 4294967295, failed := 3 }), cu (fun x => { x with cfg := 0x00020000 }),
   { up with mem := { up.mem with a := { up.mem.a with sram := cellWrite [] 0 [1, 2, 3, 4] } } }]
def poolS : List (State) := states ++ states.map (fun s => s.withWs [(Par.crcTestInterval.id * 256, 7)]) ++ (states.map (fun s => { s with mem := { s.mem with a := { s.mem.a with sram := cellWrite [] 8388604 [1, 2, 3, 4] } } }))
def getS (k : Nat) : State := poolS.getD k up
def poolU : List (CvUnit) := (states.flatMap (fun s => LaneId.all.flatMap (fun l => (s.chip.lane l).cv))).dedup
def getU (k : Nat) : CvUnit := poolU.getD k {}
def poolR : List (Req) := [op (q [1]), op (q [2]), op (q [2]) 1, op (q [8]) 4]
def getR (k : Nat) : Req := poolR.getD k (op [])
def poolB : List (List Byte) := [[], [1], [1,2,255,4]]
def getB (k : Nat) : List Byte := poolB.getD k []

/-- Every premise of conjunct 1 of CheckValueRegistersAndMemoryFeeds is met. -/
theorem witness_CheckValueRegistersAndMemoryFeeds_1 :
    (∃ s : State, ∃ l : LaneId, ∃ k : Fin 4, ∃ m : CvMaster, ∃ u : CvUnit, ∃ v : BitVec 32, (u = s.chip.cvUnit l k.val) ∧ (s.chip.runs l = true) ∧ (u.busy = false) ∧ (cvOwner u.cfg = cvMaster m) ∧ (u.waiting = []) ∧ (v.getLsbD 31 = false)) ∧
    (∃ s : State, ∃ l : LaneId, ∃ k : Fin 4, ∃ m : CvMaster, ∃ u : CvUnit, ∃ v : BitVec 32, (u = s.chip.cvUnit l k.val) ∧ (s.chip.runs l = true) ∧ (u.busy = false) ∧ (cvOwner u.cfg = cvMaster m) ∧ (u.waiting = []) ∧ (v.getLsbD 31 = true) ∧ (v.getLsbD 15 = false) ∧ (v.getLsbD 14 = false) ∧ (v.toNat / 16777216 % 128 = 0) ∧ (2 ≤ v.toNat % 64) ∧ (cvGuard v < 2)) ∧
    (∃ s : State, ∃ l : LaneId, ∃ k : Fin 4, ∃ m : CvMaster, ∃ u : CvUnit, ∃ v : BitVec 32, (u = s.chip.cvUnit l k.val) ∧ (s.chip.runs l = true) ∧ (u.busy = false) ∧ (cvOwner u.cfg = cvMaster m) ∧ (u.waiting = []) ∧ (v ≠ 0) ∧ (v.toNat % cvItemSize u.lat.cfg = 0)) ∧
    (∃ s : State, ∃ l : LaneId, ∃ k : Fin 4, ∃ m : CvMaster, ∃ u : CvUnit, ∃ v : BitVec 32, (u = s.chip.cvUnit l k.val) ∧ (s.chip.runs l = true) ∧ (u.busy = false) ∧ (cvOwner u.cfg = 0) ∧ (m ≠ .engine) ∧ (cvOwner v = cvMaster m) ∧ (v.getLsbD 31 = false)) ∧
    (∃ s : State, ∃ l : LaneId, ∃ k : Fin 4, ∃ m : CvMaster, ∃ u : CvUnit, (u = s.chip.cvUnit l k.val) ∧ (s.chip.runs l = true) ∧ (u.busy = false) ∧ (cvOwner u.cfg ≠ cvMaster m) ∧ ((s.chip.lane l).boot.fenced = false)) :=
  ⟨⟨(getS 1), .a, 1, (Sys2Proof.CvMaster.core0), (getU 0), (0x00000000#32), by decide +kernel⟩,
   ⟨(getS 1), .a, 1, (Sys2Proof.CvMaster.core0), (getU 0), (0x8000001f#32), by decide +kernel⟩,
   ⟨(getS 6), .a, 1, (Sys2Proof.CvMaster.core1), (getU 5), (0x00000004#32), by decide +kernel⟩,
   ⟨(getS 0), .a, 0, (Sys2Proof.CvMaster.core0), (getU 6), (0x0001031f#32), by decide +kernel⟩,
   ⟨(getS 0), .a, 0, (Sys2Proof.CvMaster.core0), (getU 6), by decide +kernel⟩⟩

/-- Every premise of conjunct 1 of CheckValueFeedsAndResults is met. -/
theorem witness_CheckValueFeedsAndResults_1 :
    (∃ s : State, ∃ l : LaneId, ∃ k : Fin 4, ∃ u : CvUnit, ∃ m : CvMaster, (u = s.chip.cvUnit l k.val) ∧ (s.chip.runs l = true) ∧ (u.waiting = []) ∧ (u.cfgErr = false) ∧ (u.fenced = false) ∧ (u.started = true) ∧ (u.lat.cfg.getLsbD 14 = false) ∧ (u.busy = false) ∧ (cvOwner u.cfg = cvMaster m)) ∧
    (∃ s : State, ∃ l : LaneId, ∃ k : Fin 4, ∃ u : CvUnit, (u = s.chip.cvUnit l k.val) ∧ (s.chip.runs l = true) ∧ (u.waiting = []) ∧ (u.cfgErr = false) ∧ (u.fenced = false) ∧ (u.started = true) ∧ (u.lat.cfg.getLsbD 14 = false) ∧ (u.busy = true) ∧ (u.len.toNat = cvItemSize u.lat.cfg) ∧ (u.src.toNat + u.len.toNat ≤ 8388608)) ∧
    (∃ s : State, ∃ l : LaneId, ∃ k : Fin 4, ∃ u : CvUnit, (u = s.chip.cvUnit l k.val) ∧ (s.chip.runs l = true) ∧ (u.waiting = []) ∧ (u.cfgErr = false) ∧ (u.fenced = false) ∧ (u.started = true) ∧ (u.lat.cfg.getLsbD 14 = false) ∧ (u.busy = false)) :=
  ⟨⟨(getS 1), .a, 1, (getU 0), (Sys2Proof.CvMaster.core0), by decide +kernel⟩,
   ⟨(getS 2), .a, 1, (getU 1), by decide +kernel⟩,
   ⟨(getS 1), .a, 1, (getU 0), by decide +kernel⟩⟩

/-- Every premise of conjunct 2 of CheckValueRegistersAndMemoryFeeds is met. -/
theorem witness_CheckValueRegistersAndMemoryFeeds_2 :
    (∃ s : State, ∃ l : LaneId, ∃ k : Fin 4, ((s.chip.cvUnit l k.val).busy = true) ∧ (8388608 < (s.chip.cvUnit l k.val).src.toNat + (s.chip.cvUnit l k.val).len.toNat)) ∧
    (∃ s : State, ∃ i : Instr, ∃ f : Fault, (exec i s = .fault f)) :=
  ⟨⟨(getS 3), .a, 1, by decide +kernel⟩,
   ⟨(getS 3), (Sys2Proof.Instr.memoryFeedDone (.a) 1 false), (Fault.sramAddress), rfl⟩⟩

/-- Every premise of CheckValueUnitTests is met. -/
theorem witness_CheckValueUnitTests :
    (∃ s : State, ∃ l : LaneId, ∃ k : Fin 4, ∃ u : CvUnit, (u = s.chip.cvUnit l k.val) ∧ (u.fenced = false) ∧ (u.injectNext = false) ∧ ((s.chip.lane l).boot.fenced = false) ∧ (s.chip.dev.standdown ≠ some l) ∧ (s.chip.par Par.crcTestInterval ≠ 0) ∧ (s.chip.inAuth l = true) ∧ (cvOwner u.cfg = 0)) ∧
    (∃ s : State, ∃ l : LaneId, ∃ k : Fin 4, ∃ u : CvUnit, (u = s.chip.cvUnit l k.val) ∧ (u.fenced = false) ∧ (u.injectNext = false) ∧ ((s.chip.lane l).boot.fenced = false) ∧ (s.chip.dev.standdown ≠ some l) ∧ (s.chip.par Par.crcTestInterval ≠ 0) ∧ (s.chip.inAuth l = true) ∧ (cvOwner u.cfg = 0) ∧ (u.lastFail = none)) ∧
    (∃ s : State, ∃ l : LaneId, ∃ k : Fin 4, ∃ u : CvUnit, (u = s.chip.cvUnit l k.val) ∧ (u.fenced = false) ∧ (u.injectNext = false) ∧ ((s.chip.lane l).boot.fenced = false) ∧ (s.chip.dev.standdown ≠ some l) ∧ (s.chip.par Par.crcTestInterval ≠ 0) ∧ (s.chip.inAuth l = true) ∧ (cvOwner u.cfg ≠ 0)) ∧
    (∃ s : State, ∃ l : LaneId, ∃ k : Fin 4, ∃ u : CvUnit, ∃ r : Req, ∃ j : LaneId, (u = s.chip.cvUnit l k.val) ∧ (u.fenced = false) ∧ (u.injectNext = false) ∧ ((s.chip.lane l).boot.fenced = false) ∧ (s.chip.dev.standdown ≠ some l) ∧ (r.link = some j) ∧ (r.session = 0) ∧ (hasBit r.flags 0 = false) ∧ (s.admits attrUnitTest r = true) ∧ (r.body.length = 16) ∧ (fld r.body 0 1 = 2 ^ k.val) ∧ (zeroFrom r.body 1 16 = true) ∧ (s.chip.dev.actuation = false) ∧ (r.lanes = [l]) ∧ (cvOwner u.cfg = 0)) :=
  ⟨⟨(getS 8), .a, 0, (getU 6), by decide +kernel⟩,
   ⟨(getS 8), .a, 0, (getU 6), by decide +kernel⟩,
   ⟨(getS 9), .a, 1, (getU 0), by decide +kernel⟩,
   ⟨(getS 0), .a, 0, (getU 6), (getR 0), .a, by decide +kernel⟩⟩

end Sys2Proof.Tests.Cv

namespace Sys2Proof.Tests.Feedback
open Sys2Proof Sys2Proof.Machine Sys2Proof.Tests
def fx (mode : Int) (ws : List (Nat × Int)) (f : FbChan → FbChan) : State := ((up.withWs ((Par.fbkMode.id * 256 + 2, mode) :: ws)).withLane .a (fun n => { n with fb := modNth n.fb 2 f }))
def sentOk : List Nat := let ns := [5,1,2,3,4,5,6]; let c := sentCrc [1,2,3,4,5,6]; (ns ++ [c]).map (fun n => (n + 12) * 300)
def S (p : PInfo) (v : Int) : Nat × Int := (p.id * 256 + 2, v)
def states : List State := [fx 0 [] id, fx 1 [] id, fx 1 [S Par.fbkDir 1, S Par.fbkHyst 1] (fun x => { x with levels := 1, e := 4, e' := 3 }), fx 1 [] (fun x => { x with levels := 3 }),
  fx 1 [] (fun x => { x with levels := 2, e := -7 }), 
  fx 2 [] id, fx 2 [] (fun x => { x with levels := 1 }), fx 2 [] (fun x => { x with levels := 3 }), fx 2 [S Par.fbkDir 1] (fun x => { x with levels := 2 }), fx 2 [] (fun x => { x with levels := 6 }), fx 2 [] (fun x => { x with levels := 4 }), fx 2 [] (fun x => { x with levels := 5 }),
  fx 5 [] (fun x => { x with levels := 5, e := 5000 }), fx 5 [S Par.fbkDir 1] (fun x => { x with levels := 2, e := -1 }),
  fx 1 [S Par.fbkCountMode 1, S Par.fbkIndexPos 100] (fun x => { x with e := 90000, base := -7 }), fx 1 [S Par.fbkCountMode 1, S Par.fbkIndexPos 100] (fun x => { x with e := -90003, base := 7 }),
  fx 1 [S Par.fbkCountMode 1, S Par.fbkIndexPos 100] (fun x => { x with e := 8292 + 2048, base := 0 }),
  fx 1 [S Par.fbkCountMode 1, S Par.fbkIndexPos 100] (fun x => { x with e := 8292, base := 0, indexRef := true, indexBad := 1 }),
  fx 1 [S Par.fbkCountMode 1, S Par.fbkIndexPos 100] (fun x => { x with e := 8290, base := 0, indexRef := true, indexBad := 1 }),
  fx 1 [S Par.fbkCountMode 1, S Par.fbkIndexPos 100] (fun x => { x with e := 8300, base := 0, indexRef := true, indexBad := 1 }),
  fx 1 [S Par.fbkCountMode 2] (fun x => { x with e := 2147483647, base := 2 }),  fx 1 [S Par.fbkCountMode 2] (fun x => { x with e := 5, base := 2, indexRef := true, latch := 4000 }),
  fx 3 [] id, fx 3 [S Par.fbkSentOpt 4] id, fx 4 [] id, fx 4 [S Par.fbkSsiOpt 0] (fun x => { x with ssiBusy := true }), fx 0 [] (fun x => { x with probeSrc := some 1, probeFalling := true }),
  fx 0 [] (fun x => { x with probeSrc := some 1, probeFalling := true, probeNt := some 4 }), fx 1 [S Par.perFbShare 1] id, fx 1 [S Par.fbkFilter 5] (fun x => { x with probeSrc := some 0, probeFrom := 999999990 }), (fx 1 [S Par.perFbShare 1] id).withLane .b (fun n => { n with engines := n.engines.map (fun e => { e with ownRefs := [(2, 700), (3, 5)] }) }), fx 5 [S Par.perFbShare 1] id]
def poolS : List (State) := states
def getS (k : Nat) : State := poolS.getD k up
def poolR : List (Req) := [op (q [2]), op (q [2, 1, 1]), op (q [2, 1, 1, 1]), keyed (q [2, 1, 1]), keyed (q [2, 0, 0, 0, 9, 1]), keyed (q [2, 0, 0, 0, 9, 1, 0, 0, 255, 255, 255, 255])]
def getR (k : Nat) : Req := poolR.getD k (op [])

/-- Every premise of conjunct 1 of CountingChannelsFollowEdgesAndIndex is met. -/
theorem witness_CountingChannelsFollowEdgesAndIndex_1 :
    (∃ s : State, ∃ ch : Fin 8, ∃ held : Nat, (held < s.chip.parN Par.fbkFilter ch)) ∧
    (∃ s : State, ∃ l : LaneId, ∃ ch : Fin 8, ∃ held : Nat, ∃ v : Bool, let x := s.chip.fbOf l ch; (s.chip.runs l = true) ∧ (s.chip.parN Par.fbkFilter ch ≤ held) ∧ (s.chip.parN Par.fbkMode ch = 1) ∧ (hasBit x.levels 0 ≠ v)) ∧
    (∃ s : State, ∃ l : LaneId, ∃ ch : Fin 8, ∃ held : Nat, ∃ w : Bool, let x := s.chip.fbOf l ch; (s.chip.runs l = true) ∧ (s.chip.parN Par.fbkFilter ch ≤ held) ∧ (s.chip.parN Par.fbkMode ch = 1) ∧ (hasBit x.levels 1 ≠ w)) ∧
    (∃ s : State, ∃ l : LaneId, ∃ ch : Fin 8, ∃ held : Nat, ∃ v : Bool, ∃ w : Bool, let x := s.chip.fbOf l ch; (s.chip.runs l = true) ∧ (s.chip.parN Par.fbkFilter ch ≤ held) ∧ (s.chip.parN Par.fbkMode ch = 1) ∧ (hasBit x.levels 0 ≠ v) ∧ (hasBit x.levels 1 ≠ w)) ∧
    (∃ s : State, ∃ l : LaneId, ∃ ch : Fin 8, ∃ held : Nat, ∃ v : Bool, ∃ w : Bool, ∃ z : Option Bool, ∃ old : Nat, ∃ new : Nat, let x := s.chip.fbOf l ch; let seen (m : Mask) : Mask := match z with | some q => setBit m 2 q | none => m; (s.chip.runs l = true) ∧ (s.chip.parN Par.fbkFilter ch ≤ held) ∧ (s.chip.parN Par.fbkMode ch = 2) ∧ (x.levels.toNat % 8 = old) ∧ ((seen (setBit (setBit x.levels 0 v) 1 w)).toNat % 8 = new) ∧ (old ≠ new) ∧ ((old, new) ∈ [(1, 3), (3, 2), (2, 6), (6, 4), (4, 5), (5, 1)])) ∧
    (∃ s : State, ∃ l : LaneId, ∃ ch : Fin 8, ∃ held : Nat, ∃ v : Bool, ∃ w : Bool, ∃ z : Option Bool, ∃ old : Nat, ∃ new : Nat, let x := s.chip.fbOf l ch; let seen (m : Mask) : Mask := match z with | some q => setBit m 2 q | none => m; (s.chip.runs l = true) ∧ (s.chip.parN Par.fbkFilter ch ≤ held) ∧ (s.chip.parN Par.fbkMode ch = 2) ∧ (x.levels.toNat % 8 = old) ∧ ((seen (setBit (setBit x.levels 0 v) 1 w)).toNat % 8 = new) ∧ (old ≠ new) ∧ ((new, old) ∈ [(1, 3), (3, 2), (2, 6), (6, 4), (4, 5), (5, 1)])) ∧
    (∃ s : State, ∃ l : LaneId, ∃ ch : Fin 8, ∃ held : Nat, ∃ v : Bool, ∃ w : Bool, ∃ z : Option Bool, ∃ old : Nat, ∃ new : Nat, let x := s.chip.fbOf l ch; let seen (m : Mask) : Mask := match z with | some q => setBit m 2 q | none => m; (s.chip.runs l = true) ∧ (s.chip.parN Par.fbkFilter ch ≤ held) ∧ (s.chip.parN Par.fbkMode ch = 2) ∧ (x.levels.toNat % 8 = old) ∧ ((seen (setBit (setBit x.levels 0 v) 1 w)).toNat % 8 = new) ∧ (old ≠ new) ∧ ((old, new) ∉ [(1, 3), (3, 2), (2, 6), (6, 4), (4, 5), (5, 1)]) ∧ ((new, old) ∉ [(1, 3), (3, 2), (2, 6), (6, 4), (4, 5), (5, 1)])) ∧
    (∃ s : State, ∃ l : LaneId, ∃ ch : Fin 8, ∃ held : Nat, ∃ v : Bool, let x := s.chip.fbOf l ch; (s.chip.runs l = true) ∧ (s.chip.parN Par.fbkFilter ch ≤ held) ∧ (s.chip.parN Par.fbkMode ch = 5) ∧ (hasBit x.levels 0 ≠ v)) ∧
    (∃ s : State, ∃ l : LaneId, ∃ ch : Fin 8, ∃ held : Nat, (s.chip.runs l = true) ∧ (s.chip.parN Par.fbkFilter ch ≤ held) ∧ ((s.chip.parN Par.fbkMode ch = 0 ∨ s.chip.parN Par.fbkMode ch = 3 ∨ s.chip.parN Par.fbkMode ch = 4))) :=
  ⟨⟨(getS 0), 2, 0, by decide +kernel⟩,
   ⟨(getS 1), .a, 2, 4, true, by decide +kernel⟩,
   ⟨(getS 1), .a, 2, 4, true, by decide +kernel⟩,
   ⟨(getS 1), .a, 2, 4, true, true, by decide +kernel⟩,
   ⟨(getS 6), .a, 2, 4, true, true, none, 1, 3, by decide +kernel⟩,
   ⟨(getS 6), .a, 2, 4, true, false, (some true), 1, 5, by decide +kernel⟩,
   ⟨(getS 5), .a, 2, 4, false, false, (some true), 0, 4, by decide +kernel⟩,
   ⟨(getS 12), .a, 2, 4, false, by decide +kernel⟩,
   ⟨(getS 0), .a, 2, 4, by decide +kernel⟩⟩

/-- Every premise of conjunct 2 of CountingChannelsFollowEdgesAndIndex is met. -/
theorem witness_CountingChannelsFollowEdgesAndIndex_2 :
    (∃ s : State, ∃ l : LaneId, ∃ ch : Fin 8, ∃ held : Nat, ((s.chip.parN Par.fbkMode ch = 1 ∨ s.chip.parN Par.fbkMode ch = 5)) ∧ (0 < s.chip.par Par.fbkCpr ch) ∧ (s.chip.runs l = true) ∧ (s.chip.parN Par.fbkFilter ch ≤ held) ∧ (s.chip.parN Par.fbkCountMode ch = 0)) ∧
    (∃ s : State, ∃ l : LaneId, ∃ ch : Fin 8, ∃ held : Nat, let x := s.chip.fbOf l ch; let cpr := s.chip.par Par.fbkCpr ch; let pos := s.chip.par Par.fbkIndexPos ch; ((s.chip.parN Par.fbkMode ch = 1 ∨ s.chip.parN Par.fbkMode ch = 5)) ∧ (0 < s.chip.par Par.fbkCpr ch) ∧ (s.chip.runs l = true) ∧ (s.chip.parN Par.fbkFilter ch ≤ held) ∧ (s.chip.parN Par.fbkCountMode ch = 1) ∧ (x.indexRef = false) ∧ (0 ≤ pos) ∧ (pos < cpr)) ∧
    (∃ s : State, ∃ l : LaneId, ∃ ch : Fin 8, ∃ held : Nat, ∃ d : Int, let x := s.chip.fbOf l ch; let cpr := s.chip.par Par.fbkCpr ch; let pos := s.chip.par Par.fbkIndexPos ch; ((s.chip.parN Par.fbkMode ch = 1 ∨ s.chip.parN Par.fbkMode ch = 5)) ∧ (0 < s.chip.par Par.fbkCpr ch) ∧ (s.chip.runs l = true) ∧ (s.chip.parN Par.fbkFilter ch ≤ held) ∧ (s.chip.parN Par.fbkCountMode ch = 1) ∧ (x.indexRef = true) ∧ (-cpr < 2 * d) ∧ (2 * d ≤ cpr) ∧ ((x.e + x.base - pos - d) % cpr = 0) ∧ (d = 0)) ∧
    (∃ s : State, ∃ l : LaneId, ∃ ch : Fin 8, ∃ held : Nat, ∃ d : Int, let x := s.chip.fbOf l ch; let cpr := s.chip.par Par.fbkCpr ch; let pos := s.chip.par Par.fbkIndexPos ch; ((s.chip.parN Par.fbkMode ch = 1 ∨ s.chip.parN Par.fbkMode ch = 5)) ∧ (0 < s.chip.par Par.fbkCpr ch) ∧ (s.chip.runs l = true) ∧ (s.chip.parN Par.fbkFilter ch ≤ held) ∧ (s.chip.parN Par.fbkCountMode ch = 1) ∧ (x.indexRef = true) ∧ (-cpr < 2 * d) ∧ (2 * d ≤ cpr) ∧ ((x.e + x.base - pos - d) % cpr = 0) ∧ (d ≠ 0) ∧ ((d.natAbs : Int) ≤ s.chip.par Par.fbkIndexTol ch)) ∧
    (∃ s : State, ∃ l : LaneId, ∃ ch : Fin 8, ∃ held : Nat, ∃ d : Int, let x := s.chip.fbOf l ch; let cpr := s.chip.par Par.fbkCpr ch; let pos := s.chip.par Par.fbkIndexPos ch; ((s.chip.parN Par.fbkMode ch = 1 ∨ s.chip.parN Par.fbkMode ch = 5)) ∧ (0 < s.chip.par Par.fbkCpr ch) ∧ (s.chip.runs l = true) ∧ (s.chip.parN Par.fbkFilter ch ≤ held) ∧ (s.chip.parN Par.fbkCountMode ch = 1) ∧ (x.indexRef = true) ∧ (-cpr < 2 * d) ∧ (2 * d ≤ cpr) ∧ ((x.e + x.base - pos - d) % cpr = 0) ∧ (s.chip.par Par.fbkIndexTol ch < (d.natAbs : Int)) ∧ (d ≠ 0) ∧ (x.indexBad + 1 < s.chip.parN Par.fbkIndexLimit ch)) ∧
    (∃ s : State, ∃ l : LaneId, ∃ ch : Fin 8, ∃ held : Nat, ((s.chip.parN Par.fbkMode ch = 1 ∨ s.chip.parN Par.fbkMode ch = 5)) ∧ (0 < s.chip.par Par.fbkCpr ch) ∧ (s.chip.runs l = true) ∧ (s.chip.parN Par.fbkFilter ch ≤ held) ∧ (s.chip.parN Par.fbkCountMode ch = 2)) :=
  ⟨⟨(getS 1), .a, 2, 4, by decide +kernel⟩,
   ⟨(getS 14), .a, 2, 4, by decide +kernel⟩,
   ⟨(getS 17), .a, 2, 4, 0, by decide +kernel⟩,
   ⟨(getS 18), .a, 2, 4, (-2), by decide +kernel⟩,
   ⟨(getS 19), .a, 2, 4, 8, by decide +kernel⟩,
   ⟨(getS 20), .a, 2, 4, by decide +kernel⟩⟩

/-- Every premise of conjunct 1 of FramesProbesAndPositionSets is met. -/
theorem witness_FramesProbesAndPositionSets_1 :
    (∃ s : State, ∃ l : LaneId, ∃ ch : Fin 8, ∃ calib : Nat, ∃ pulses : List Nat, ∃ pause : Option Nat, ∃ low : Nat, ∃ status, ∃ data, ∃ p, let opt := s.chip.parN Par.fbkSentOpt ch; (s.chip.runs l = true) ∧ (s.chip.par Par.fbkMode ch = 3) ∧ (s.chip.sentPasses ch (s.chip.fbOf l ch).sentCal calib pulses pause = some (status, data)) ∧ (calib ≤ 14 * low) ∧ (opt.testBit 3 = false) ∧ (opt.testBit 1 = false) ∧ (p ∈ pulses)) ∧
    (∃ s : State, ∃ l : LaneId, ∃ ch : Fin 8, ∃ calib : Nat, ∃ pulses : List Nat, ∃ pause : Option Nat, ∃ low : Nat, (s.chip.runs l = true) ∧ (s.chip.par Par.fbkMode ch = 3) ∧ (s.chip.sentPasses ch (s.chip.fbOf l ch).sentCal calib pulses pause = none ∨ 14 * low < calib)) ∧
    (∃ s : State, ∃ l : LaneId, ∃ ch : Fin 8, (s.chip.runs l = true) ∧ (s.chip.par Par.fbkMode ch = 4)) ∧
    (∃ s : State, ∃ l : LaneId, ∃ ch : Fin 8, ∃ bits : List Bool, (s.chip.runs l = true) ∧ (s.chip.par Par.fbkMode ch = 4) ∧ ((s.chip.fbOf l ch).ssiBusy = true) ∧ (s.chip.parN Par.fbkSsiOpt ch = 0) ∧ (bits.length = s.chip.parN Par.fbkSsiBits ch)) ∧
    (∃ s : State, ∃ l : LaneId, ∃ ch : Fin 8, ∃ i : Bool, ∃ f : Bool, ∃ m : Bool, (s.chip.runs l = true) ∧ (s.chip.par Par.fbkMode ch = 4) ∧ ((s.chip.fbOf l ch).ssiBusy = true) ∧ ((i && f && m) = false)) ∧
    (∃ s : State, ∃ l : LaneId, ∃ ch : Fin 8, ∃ src : Fin 2, ∃ fall : Bool, ∃ held : Nat, (s.chip.runs l = true) ∧ (s.chip.parN Par.fbkFilter ch ≤ held) ∧ ((s.chip.fbOf l ch).probeSrc = some src.val) ∧ ((s.chip.fbOf l ch).probeFalling = fall) ∧ ((s.chip.fbOf l ch).probeNt = none) ∧ ((s.chip.fbOf l ch).probeFrom ≤ (s.chip.lane l).clock.nt - 10 * held)) ∧
    (∃ s : State, ∃ l : LaneId, ∃ ch : Fin 8, ∃ src : Fin 2, ∃ fall : Bool, ∃ held : Nat, ((s.chip.fbOf l ch).probeSrc ≠ some src.val ∨ (s.chip.fbOf l ch).probeFalling ≠ fall ∨ (s.chip.fbOf l ch).probeNt ≠ none ∨ held < s.chip.parN Par.fbkFilter ch ∨ (s.chip.lane l).clock.nt - 10 * held < (s.chip.fbOf l ch).probeFrom)) ∧
    (∃ s : State, ∃ r : Req, (s.admits attrProbeArm r = true) ∧ (r.body.length = 16) ∧ (fld r.body 0 1 < 8) ∧ (fld r.body 1 1 < 2) ∧ (fld r.body 2 1 < 2) ∧ (fld r.body 3 1 < 2) ∧ (zeroFrom r.body 4 16 = true)) :=
  ⟨⟨(getS 22), .a, 2, 16800, ([5100, 3900, 4200, 4500, 4800, 5100, 5400, 4200]), none, 1200, 5, ([1, 2, 3, 4, 5, 6]), 3900, by decide +kernel⟩,
   ⟨(getS 22), .a, 2, 0, ([]), none, 0, by decide +kernel⟩,
   ⟨(getS 24), .a, 2, by decide +kernel⟩,
   ⟨(getS 25), .a, 2, ([true, true, true, true, true, true, true, true, true, true, true, true, true, true, true, true, true, true, true, true, true, true, true, true, true]), by decide +kernel⟩,
   ⟨(getS 25), .a, 2, false, false, false, by decide +kernel⟩,
   ⟨(getS 26), .a, 2, 1, true, 4, by decide +kernel⟩,
   ⟨(getS 0), .a, 2, 0, false, 0, by decide +kernel⟩,
   ⟨(getS 0), (getR 0), by decide +kernel⟩⟩

/-- Every premise of conjunct 2 of FramesProbesAndPositionSets is met. -/
theorem witness_FramesProbesAndPositionSets_2 :
    (∃ s : State, ∃ r : Req, (s.admits attrPositionSet r = true) ∧ (r.body.length = 16) ∧ (fld r.body 0 1 < 8) ∧ (zeroFrom r.body 1 4 = true) ∧ (zeroFrom r.body 12 16 = true) ∧ ((s.chip.par Par.fbkMode (fld r.body 0 1) = 3 → fld r.body 8 4 = 0)) ∧ (fbUsed s.chip.dev.cfg.ws (fld r.body 0 1) = false)) :=
  ⟨(getS 0), (getR 4), by decide +kernel⟩

end Sys2Proof.Tests.Feedback

namespace Sys2Proof.Tests.Nettime
open Sys2Proof Sys2Proof.Machine Sys2Proof.Tests
def nx (f : Ocgal → Ocgal) (g : Clock → Clock := id) : State := up.withLane .a (fun n => { n with net := f n.net, clock := g n.clock })
def pt (k : Nat) (p : NetPort) : State := nx (fun n => { n with ports := setNth n.ports k p })
def states : List State := [up, pt 0 { up := true }, pt 1 { up := true }, pt 2 { up := true, probeT1 := some 999999000, probeSeq := 15, samples := [100, 200] },
  pt 2 { up := true, probeT1 := some 999999000, probeSeq := 1, samples := List.replicate 15 1000 }, pt 2 { up := true, probeT1 := some 999999000, probeSeq := 3, unanswered := 2, delay := some 5 },
  nx (fun n => { n with phase := .service, lineDelays := some (1,2,3,4), chainA := [{ node := 3 }] }), nx id (fun k => { k with tstate := .holdover, holdFor := 8191 }),
  (nx (fun n => { n with phase := .recovery }) (fun k => { k with tstate := .free })).withLane .b (fun n => { n with clock := { n.clock with tstate := .synced }, net := { n.net with counter := 5, matrix := 9 } }),
  (((nx (fun n => { n with phase := .recovery }) (fun k => { k with tstate := .free })).withLane .b (fun n => { n with clock := { n.clock with tstate := .synced }, net := { n.net with counter := 5, matrix := 9 } }))).withLane .a (fun n => { n with round := { n.round with own := { n.round.own with nt := 5000000 } } }),
  up.withLane .b (fun n => { n with clock := { n.clock with nt := 99, frac := 5 } }), (up.withWs [(parKey Par.netAutostart.id 0, 1)])]
def far : State := ((nx (fun n => { n with phase := .recovery }) (fun k => { k with tstate := .free, nt := Config.laneLinkDelay + 2 ^ 40 })).withLane .b (fun n => { n with clock := { n.clock with tstate := .synced } })).withLane .b (fun n => { n with round := {} })
def poolS : List (State) := states
def getS (k : Nat) : State := poolS.getD k up
def poolR : List (Req) := [op [], keyed [], keyed (toLe 8 77 ++ List.replicate 8 0), op (toLe 8 77 ++ List.replicate 8 0)]
def getR (k : Nat) : Req := poolR.getD k (op [])

/-- Every premise of conjunct 1 of LinkDelaysAreMeasured is met. -/
theorem witness_LinkDelaysAreMeasured_1 :
    (∃ s : State, ∃ l : LaneId, ((s.chip.lane l).power.net = true)) ∧
    (∃ s : State, ∃ l : LaneId, ∃ k : Fin 4, let p := s.chip.portOf l k.val; (s.chip.runs l = true) ∧ (k.val % 2 = 0) ∧ (p.up = true) ∧ (p.fenced = false) ∧ (p.probeT1 = none) ∧ (p.samples.length < s.chip.parN Par.timeDelaySamples)) ∧
    (∃ s : State, ∃ l : LaneId, ∃ k : Fin 4, let p := s.chip.portOf l k.val; (s.chip.runs l = true) ∧ (k.val % 2 = 1) ∧ (p.up = true) ∧ (p.fenced = false)) ∧
    (∃ s : State, ∃ l : LaneId, ∃ k : Fin 4, ∃ q : Fin 16, ∃ t1 : Nat, let p := s.chip.portOf l k.val; (s.chip.runs l = true) ∧ (p.probeT1 = some t1) ∧ (p.probeSeq = q.val) ∧ (p.fenced = false)) ∧
    (∃ s : State, ∃ l : LaneId, ∃ k : Fin 4, let p := s.chip.portOf l k.val; (s.chip.runs l = true) ∧ (p.probeT1 ≠ none) ∧ (p.unanswered < 2)) ∧
    (∃ s : State, ∃ l : LaneId, ∃ k : Fin 4, let p := s.chip.portOf l k.val; (s.chip.runs l = true) ∧ (p.probeT1 ≠ none) ∧ (2 ≤ p.unanswered)) ∧
    (∃ s : State, ∃ l : LaneId, ∃ k : Fin 4, let p := s.chip.portOf l k.val; (p.up = true)) :=
  ⟨⟨(getS 0), .a, by decide +kernel⟩,
   ⟨(getS 1), .a, 0, by decide +kernel⟩,
   ⟨(getS 2), .a, 1, by decide +kernel⟩,
   ⟨(getS 3), .a, 2, 15, 999999000, by decide +kernel⟩,
   ⟨(getS 3), .a, 2, by decide +kernel⟩,
   ⟨(getS 5), .a, 2, by decide +kernel⟩,
   ⟨(getS 1), .a, 0, by decide +kernel⟩⟩

/-- Every premise of conjunct 2 of LinkDelaysAreMeasured is met. -/
theorem witness_LinkDelaysAreMeasured_2 :
    (∃ xs : List Int, (xs ≠ []) ∧ ((∀ x ∈ xs, 0 ≤ x))) :=
  ⟨([1, 2, 4]), by decide +kernel⟩

/-- Every premise of LanesFollowNetworkTime is met. -/
theorem witness_LanesFollowNetworkTime :
    (∃ s : State, ∃ l : LaneId, (s.chip.runs l = true) ∧ ((s.chip.netOf l).phase ≠ .down) ∧ ((s.chip.netOf l).phase ≠ .test) ∧ ((s.chip.netOf l).lineDelays.isSome = true)) ∧
    (∃ s : State, ∃ l : LaneId, (s.chip.runs l = true) ∧ (s.chip.parN Par.timeHoldoverMax ≤ (s.chip.lane l).clock.holdFor) ∧ ((s.chip.lane l).clock.tstate = .holdover) ∧ ((s.chip.lane l).clock.overHold = false)) ∧
    (∃ s : State, ∃ l : LaneId, ∃ src : LaneId, ∃ q : Rx TimeMark, ∃ x : TimeMark, let o : Int := (s.chip.lane l).clock.nt - ((x.stamp : Int) + Config.laneLinkDelay); (s.chip.runs l = true) ∧ (l ≠ src) ∧ ((s.chip.linkAt (linkIdx l src)).fenced = false) ∧ ((q = .other x ∨ q = .intact ∧ s.chip.runs src = true ∧ x = { stamp := (s.chip.lane src).round.own.nt, rank := (s.chip.netOf src).refRank, node := (s.chip.netOf src).refNode })) ∧ ((s.chip.netOf l).phase = .recovery) ∧ ((s.chip.lane src).clock.tstate.leads = true) ∧ (s.chip.par Par.timeStepTh < Sys2Proof.Machine.dist o 0)) ∧
    (∃ s : State, ∃ l : LaneId, ∃ p : LaneId, (s.chip.pacingLane = some p) ∧ (p ≠ l) ∧ (s.chip.dev.locked = false) ∧ (s.chip.inAuth l = true) ∧ ((s.chip.linkAt (linkIdx l p)).fenced = false)) ∧
    (∃ s : State, ∃ r : Req, ∃ k : LaneId, (r.link = some k) ∧ (r.session = 0) ∧ (hasBit r.flags 0 = false) ∧ (s.admits attrTimeRead r = true) ∧ (r.body = [])) ∧
    (∃ s : State, ∃ r : Req, (s.admits attrEpochSet r = true) ∧ (r.body.length = 16) ∧ (zeroFrom r.body 8 16 = true)) :=
  ⟨⟨(getS 6), .a, by decide +kernel⟩,
   ⟨(getS 7), .a, by decide +kernel⟩,
   ⟨far, .a, .b, .intact, {}, by decide +kernel, by decide, by decide +kernel, .inr ⟨rfl, by decide +kernel, by decide +kernel⟩, by decide +kernel,
    by decide +kernel, by
    change _ < Sys2Proof.Machine.dist (((Config.laneLinkDelay + 2 ^ 40 : Nat) : Int) - (((0 : Nat) : Int) + Config.laneLinkDelay)) 0
    rw [show ((Config.laneLinkDelay + 2 ^ 40 : Nat) : Int) - (((0 : Nat) : Int) + Config.laneLinkDelay) = 2 ^ 40 by omega]
    decide +kernel⟩,
   ⟨(getS 0), .b, .a, by decide +kernel⟩,
   ⟨(getS 0), (getR 0), .a, by decide +kernel⟩,
   ⟨(getS 0), (getR 2), by decide +kernel⟩⟩

end Sys2Proof.Tests.Nettime

namespace Sys2Proof.Tests.Ocgal
open Sys2Proof Sys2Proof.Machine Sys2Proof.Tests
def nst (f : Ocgal → Ocgal) : State := ((up.withDev (fun d => { d with cfg := { d.cfg with sched := sched1, ws := wsInsert (wsInsert d.cfg.ws (parKey Par.netColdstartRank.id 0) 3) (parKey Par.netRxMask.id 0) 4 }, locked := true })).onChip (fun c => { c with lanes := c.lanes.map (fun n => { n with power := { n.power with net := true }, net := { n.net with start := 999997944, ports := List.replicate 4 { up := true, trained := true } } }) })).withLane .a (fun n => { n with net := f n.net })
def tag : Nat := (nst id).chip.schedTag
def et : Nat := up.chip.parN Par.netEthertype
def hd : FrameHead := { node := 5, typ := 1, slot := 2, counter := 5, quads := 2, matrix := 9, word := tag }
def fr (h : FrameHead) (p : List Byte) : List Byte := frameBytes 0 et h p
def p32 : List Byte := List.replicate 32 7
def stg : State := let m : Tri LaneMem := up.mem.map (fun m => { m with stagingSched := cellWrite [] 0 (sched1.take 64) }); { up with mem := m }
def states : List State := [up, nst id, nst (fun n => { n with ports := modNth n.ports 0 (fun p => { p with fenced := true }) }), nst (fun n => { n with ports := modNth n.ports 0 (fun p => { p with up := false }) }),
  nst (fun n => { n with phase := .service, counter := 5, matrix := 9, ports := modNth n.ports 1 (fun p => { p with up := false }) }), nst (fun n => { n with phase := .service, counter := 5, matrix := 9 }), (nst (fun n => { n with phase := .service, counter := 5, matrix := 9 })).withLane .a (fun n => { n with arriving := [{ item := .excl 0 2 1 1 false false 0 [], carried := true }, { item := .excl 0 2 1 1 false false 0 [] }] }),
  (nst (fun n => { n with phase := .service })).withLane .a (fun n => { n with boot := { n.boot with fenced := true } }), (nst (fun n => { n with phase := .service })).withLane .a (fun n => { n with boot := { n.boot with fenced := true, fenceNet := true } }), nst (fun n => { n with phase := .coldstart }),
  nst (fun n => { n with phase := .integrate, counter := 63, integrated := 9 }), nst (fun n => { n with phase := .integrate, counter := 4, integrated := 9, matrix := 9 }), nst (fun n => { n with phase := .down, restartWait := 1 }),
  nst (fun n => { n with phase := .listen }), nst (fun n => { n with phase := .listen, lastSync := some (4, 9, 999000000) }), nst (fun n => { n with phase := .listen, waited := 40 }), nst (fun n => { n with phase := .coldstart, coldFrames := 2 }),
  nst (fun n => { n with phase := .recovery, lastSync := some (4, 9, 999000000) }), nst (fun n => { n with phase := .service, isRef := true, start := 999999944, refRank := 3, refNode := 9, counter := 5, matrix := 9, lineDelays := some (1,2,3,4) }),
  nst (fun n => { n with phase := .service, isRef := false, silent := 200, syncMissed := 100, counter := 63, matrix := 4294967295 }), (nst (fun n => { n with phase := .listen, moverViol := some 0 })), (nst (fun n => { n with requested := true })),
  nst (fun n => { n with phase := .integrate, counter := 63, matrix := 9 }), nst (fun n => { n with phase := .service, leaving := true, left := true, lineDelays := some (1,2,3,4) }),
  (nst (fun n => { n with phase := .service, leaving := true, left := true, lineDelays := some (1,2,3,4) })).withDev (fun d => { d with standdown := some .a }),
  (nst (fun n => { n with phase := .service })).withDev (fun d => { d with spares := [{ slot := 3, owner := 5, quiet := 100 }, { slot := 3, owner := 0, quiet := 100 }, { slot := 4, owner := 5, quiet := 100 }, { slot := 3, owner := 6, quiet := 0 }] }),
  ((nst id).withPend { opcode := 0x2011, link := some .b }).withDev (fun d => { d with netWait := 8 }), 
  stg, (nst id).onChip (fun c => { c with lanes := c.lanes.map (fun n => { n with clock := { n.clock with tstate := .synced } }), dev := { c.dev with agreed := { c.dev.agreed with status := Tri.map (fun x => { x with tstate := 2 }) c.dev.agreed.status } } }),
  stg.withDev (fun d => { d with authority := 3, aset := 3 }) ]
def poolS : List (State) := states
def getS (k : Nat) : State := poolS.getD k up
def poolB : List (List Byte) := [fr hd p32, frameBytes 0 (et + 1) hd p32, (fr hd p32).take 60, fr { hd with word := 0 } p32, fr { hd with typ := 0x10 } p32, fr { hd with typ := 0x11, quads := 6 } (List.replicate 96 1),
   fr { hd with typ := 0x10 } (List.replicate 32 1), fr { hd with slot := 3 } p32, fr { hd with typ := 2, slot := 0, word := 6 } (toLe 1 0 ++ toLe 1 2 ++ toLe 14 0 ++ List.replicate 16 9),
   fr { hd with typ := 3, slot := 0, word := 7 } (toLe 1 0 ++ toLe 1 2 ++ toLe 14 0 ++ List.replicate 16 9)]
def getB (k : Nat) : List Byte := poolB.getD k []
def ld (off act : Nat) (b : List Byte) : List Byte := toLe 4 off ++ toLe 1 act ++ toLe 3 0 ++ toLe 4 0 ++ toLe 4 0 ++ b
def poolR : List (Req) := [keyed [], op [], keyed (ld 0 0 (sched1.take 48)), keyed (ld 64 0 (sched1.drop 64)), keyed (ld 64 1 (sched1.drop 64)), keyed (ld 0 1 (sched1.take 48)), op (q [1] ++ q [3]), op (q [2] ++ q [3, 0, 7]),
  op (q [5, 0, 1, 1] ++ q [9, 9]), op (q [5, 0, 2, 0] ++ q [9, 9]), { op (toLe 8 1004000000 ++ toLe 8 0 ++ (q [5, 0, 2, 0] ++ q [9, 9])) with flags := 2 }, keyed (q [1] ++ q [3])]
def getR (k : Nat) : Req := poolR.getD k (op [])

/-- Every premise of FramesReachTheirLane is met. -/
theorem witness_FramesReachTheirLane :
    (∃ s : State, ∃ l : LaneId, ∃ k : Fin 4, let p := s.chip.portOf l k.val; ((p.up = false ∨ p.fenced = true))) ∧
    (∃ s : State, ∃ l : LaneId, ((s.chip.lane l).boot.fenced = true) ∧ ((s.chip.lane l).boot.fenceNet = true)) ∧
    (∃ s : State, ∃ l : LaneId, ∃ k : Fin 4, let p := s.chip.portOf l k.val; (p.works = true) ∧ ((s.chip.portOf l (otherPort k.val)).works = true) ∧ ((s.chip.lane l).power.net = true) ∧ (((s.chip.lane l).boot.fenced = false ∨ (s.chip.lane l).boot.fenceNet = false))) ∧
    (∃ s : State, ∃ l : LaneId, ∃ k : Fin 4, ∃ b : List Byte, let p := s.chip.portOf l k.val; let f := frameOf b; (p.up = true) ∧ (p.fenced = false) ∧ (s.chip.runs l = true) ∧ (f.etherType ≠ s.chip.parN Par.netEthertype)) ∧
    (∃ s : State, ∃ l : LaneId, ∃ k : Fin 4, ∃ b : List Byte, ∃ cause, let p := s.chip.portOf l k.val; let f := frameOf b; (p.up = true) ∧ (p.fenced = false) ∧ (s.chip.runs l = true) ∧ (f.etherType = s.chip.parN Par.netEthertype) ∧ (s.chip.netReceives l = true) ∧ (frameCause l f = some cause)) ∧
    (∃ s : State, ∃ l : LaneId, ∃ k : Fin 4, ∃ b : List Byte, ∃ e, let p := s.chip.portOf l k.val; let f := frameOf b; let past := s.chip.forward l k.val b; (p.up = true) ∧ (p.fenced = false) ∧ (s.chip.runs l = true) ∧ (f.etherType = s.chip.parN Par.netEthertype) ∧ (s.chip.netReceives l = true) ∧ (frameCause l f = none) ∧ (f.typ = 1) ∧ (past.exclCause l k.val f = none) ∧ (s.chip.frameEntry f = some e) ∧ (e.spare = false) ∧ (s.chip.rxEntry e = true) ∧ (s.chip.inService l = true)) ∧
    (∃ s : State, ∃ l : LaneId, ∃ k : Fin 4, ∃ b : List Byte, ∃ e, let p := s.chip.portOf l k.val; let f := frameOf b; let past := s.chip.forward l k.val b; (p.up = true) ∧ (p.fenced = false) ∧ (s.chip.runs l = true) ∧ (f.etherType = s.chip.parN Par.netEthertype) ∧ (s.chip.netReceives l = true) ∧ (frameCause l f = none) ∧ (f.typ = 1) ∧ (past.exclCause l k.val f = none) ∧ (s.chip.frameEntry f = some e) ∧ (e.spare = true) ∧ (s.chip.entryOwner e = none)) ∧
    (∃ s : State, ∃ l : LaneId, ∃ k : Fin 4, ∃ b : List Byte, let p := s.chip.portOf l k.val; let f := frameOf b; let past := s.chip.forward l k.val b; (p.up = true) ∧ (p.fenced = false) ∧ (s.chip.runs l = true) ∧ (f.etherType = s.chip.parN Par.netEthertype) ∧ (s.chip.netReceives l = true) ∧ (frameCause l f = none) ∧ ((f.typ = 2 ∨ f.typ = 3)) ∧ (past.arbCause l k.val f (frameSpan b) = none) ∧ (s.chip.frameDup l f = false)) ∧
    (∃ s : State, ∃ l : LaneId, ∃ k : Fin 4, ∃ b : List Byte, let f := frameOf b; let nt := (s.chip.lane l).clock.nt; (s.chip.syncValid l k.val b 0x10 = true) ∧ ((s.chip.netOf l).phase = .listen) ∧ (s.chip.syncFollows l f nt = true)) ∧
    (∃ s : State, ∃ l : LaneId, ∃ k : Fin 4, ∃ b : List Byte, let f := frameOf b; let nt := (s.chip.lane l).clock.nt; (s.chip.syncValid l k.val b 0x10 = true) ∧ ((s.chip.netOf l).phase = .listen) ∧ (s.chip.syncFollows l f nt = false)) ∧
    (∃ s : State, ∃ l : LaneId, ∃ k : Fin 4, ∃ b : List Byte, let f := frameOf b; (s.chip.syncValid l k.val b 0x10 = true) ∧ ((s.chip.netOf l).phase = .coldstart) ∧ ((s.chip.netOf l).coldFrames < 8) ∧ (ranksBetter (fld f.payload 0 1) f.node (s.chip.parN Par.netColdstartRank) (s.chip.parN Par.netNodeId) = true)) ∧
    (∃ s : State, ∃ l : LaneId, ∃ k : Fin 4, ∃ b : List Byte, let f := frameOf b; let nt := (s.chip.lane l).clock.nt; (s.chip.syncValid l k.val b 0x11 = true) ∧ (f.quads = 6) ∧ ((s.chip.netOf l).phase = .recovery) ∧ (s.chip.syncFollows l f nt = true)) ∧
    (∃ s : State, ∃ l : LaneId, ∃ k : Fin 4, ∃ b : List Byte, let f := frameOf b; (s.chip.syncValid l k.val b 0x11 = true) ∧ (f.quads = 6) ∧ ((s.chip.netOf l).phase = .service) ∧ ((s.chip.netOf l).isRef = true) ∧ (ranksBetter (fld f.payload 0 1) f.node (s.chip.netOf l).refRank (s.chip.netOf l).refNode = true)) :=
  ⟨⟨(getS 0), .a, 0, by decide +kernel⟩,
   ⟨(getS 8), .a, by decide +kernel⟩,
   ⟨(getS 1), .a, 0, by decide +kernel⟩,
   ⟨(getS 1), .a, 0, (getB 1), by decide +kernel⟩,
   ⟨(getS 4), .a, 0, (getB 2), 0, by decide +kernel⟩,
   ⟨(getS 4), .a, 0, (getB 0), ({ slot := 2, chan := 0, owner := 5, offset := 4000, len := 100, quads := 2, rep := 0, repOff := 0, spare := false }), by decide +kernel⟩,
   ⟨(getS 4), .a, 0, (getB 7), ({ slot := 3, chan := 0, owner := 0, offset := 6000, len := 100, quads := 2, rep := 0, repOff := 0, spare := true }), by decide +kernel⟩,
   ⟨(getS 4), .a, 0, (getB 8), by decide +kernel⟩,
   ⟨(getS 14), .a, 0, (getB 4), by decide +kernel⟩,
   ⟨(getS 13), .a, 0, (getB 4), by decide +kernel⟩,
   ⟨(getS 9), .a, 0, (getB 6), by decide +kernel⟩,
   ⟨(getS 17), .a, 0, (getB 5), by decide +kernel⟩,
   ⟨(getS 18), .a, 0, (getB 5), by decide +kernel⟩⟩

/-- Every premise of PlanePhases is met. -/
theorem witness_PlanePhases :
    (∃ s : State, ∃ l : LaneId, let n := s.chip.netOf l; (n.phase = .down) ∧ (n.restartWait = 0) ∧ ((s.chip.lane l).power.core = true) ∧ ((s.chip.lane l).bist.regions.contains 13 = false) ∧ (s.chip.inAuth l = true) ∧ ((s.chip.lane l).boot.state = .admitted) ∧ ((s.chip.lane l).boot.fenced = false) ∧ (s.chip.dev.cfg.sched ≠ []) ∧ (((s.chip.portOf l 0).trained = true ∨ (s.chip.portOf l 1).trained = true)) ∧ ((n.requested = true ∨ s.chip.par Par.netAutostart = 1))) ∧
    (∃ s : State, ∃ l : LaneId, let n := s.chip.netOf l; (s.chip.runs l = true) ∧ ((n.phase = .listen ∨ n.phase = .recovery)) ∧ (1 ≤ s.chip.parN Par.netColdstartRank) ∧ (24 + 2 * s.chip.parN Par.netColdstartRank ≤ n.waited) ∧ (n.heard = false)) ∧
    (∃ s : State, ∃ l : LaneId, let n := s.chip.netOf l; (s.chip.runs l = true) ∧ (n.phase = .service) ∧ (n.candidate = false) ∧ (s.chip.parN Par.netLossCycles ≤ n.silent)) ∧
    (∃ s : State, ∃ l : LaneId, let n := s.chip.netOf l; (s.chip.runs l = true) ∧ (n.phase = .service) ∧ (n.isRef = false) ∧ (1 ≤ s.chip.parN Par.netColdstartRank) ∧ ((s.chip.parN Par.timeHandoverCycles ≤ n.syncMissed ∨ n.refLeft = true))) ∧
    (∃ s : State, ∃ l : LaneId, (s.chip.runs l = true)) ∧
    (∃ s : State, ∃ l : LaneId, let n := s.chip.netOf l; ((n.phase = .down ∨ n.phase = .test ∨ (s.chip.lane l).boot.fenced = true))) ∧
    (∃ s : State, ∃ l : LaneId, let n := s.chip.netOf l; ((s.chip.lane l).boot.fenced = false) ∧ ((n.leaving && n.left) = false) ∧ (n.phase = .listen)) ∧
    (∃ s : State, ∃ l : LaneId, let n := s.chip.netOf l; ((s.chip.lane l).boot.fenced = false) ∧ ((n.leaving && n.left) = false) ∧ (n.phase = .coldstart) ∧ (n.coldFrames = 0) ∧ (s.chip.servicePeer l = none)) ∧
    (∃ s : State, ∃ l : LaneId, let n := s.chip.netOf l; ((s.chip.lane l).boot.fenced = false) ∧ ((n.leaving && n.left) = false) ∧ ((n.phase = .integrate ∨ n.phase = .service)) ∧ (n.counter < 64)) ∧
    (∃ s : State, ∃ l : LaneId, let n := s.chip.netOf l; (n.phase = .service) ∧ ((s.chip.lane l).boot.fenced = false) ∧ (n.leaving = true) ∧ (n.left = true)) :=
  ⟨⟨(getS 21), .a, by decide +kernel⟩,
   ⟨(getS 15), .a, by decide +kernel⟩,
   ⟨(getS 19), .a, by decide +kernel⟩,
   ⟨(getS 19), .a, by decide +kernel⟩,
   ⟨(getS 0), .a, by decide +kernel⟩,
   ⟨(getS 0), .a, by decide +kernel⟩,
   ⟨(getS 13), .a, by decide +kernel⟩,
   ⟨(getS 9), .a, by decide +kernel⟩,
   ⟨(getS 4), .a, by decide +kernel⟩,
   ⟨(getS 23), .a, by decide +kernel⟩⟩

/-- Every premise of NetworkOperations is met. -/
theorem witness_NetworkOperations :
    (∃ s : State, ∃ r : Req, (s.admits attrScheduleLoad r = true) ∧ (16 ≤ r.body.length) ∧ (r.body.length % 16 = 0) ∧ (r.body.length ≤ 4080) ∧ (fld r.body 0 4 % 16 = 0) ∧ (fld r.body 0 4 + r.body.length ≤ 16448) ∧ (fld r.body 4 1 ≤ 1) ∧ (zeroFrom r.body 5 8 = true) ∧ (zeroFrom r.body 12 16 = true) ∧ (s.chip.dev.cfg.schedNext = none) ∧ (s.chip.dev.standdown = none)) ∧
    (∃ s : State, ∃ r : Req, (s.admits attrNetStart r = true) ∧ (r.body = []) ∧ (s.chip.dev.cfg.sched ≠ []) ∧ (s.chip.authLanes.all s.chip.inService = false)) ∧
    (∃ s : State, ∃ p : PendOp, ∃ k : LaneId, (8 ≤ s.chip.dev.netWait) ∧ (s.chip.dev.pend = [p]) ∧ (p.opcode = 0x2011) ∧ (p.link = some k) ∧ (p.suppress = false)) ∧
    (∃ s : State, ∃ r : Req, (s.admits attrSpareClaim r = true) ∧ (checksSpareClaim r s.chip = [])) ∧
    (∃ s : State, ∃ r : Req, (s.admits attrFrameSend r = true) ∧ (r.isTimed = false) ∧ (checksFrameSend r s.chip = [])) ∧
    (∃ s : State, ∃ r : Req, (s.admits attrFrameSend r = true) ∧ (r.isTimed = true) ∧ (checksFrameSend r s.chip = [])) :=
  ⟨⟨(getS 0), (getR 2), by decide +kernel⟩,
   ⟨(getS 1), (getR 0), by decide +kernel⟩,
   ⟨(getS 26), ({ opcode := 8209, link := some (.b), tag := 0x00#8, session := 0, mask := 0x00#8, seq := 0, suppress := false, lanes := 0x00#8, results := { a := none, b := none, c := none }, arg := 0, arg2 := 0, at_ := 0 }), .b, by decide +kernel⟩,
   ⟨(getS 4), (getR 6), by decide +kernel⟩,
   ⟨(getS 0), (getR 8), by decide +kernel⟩,
   ⟨(getS 28), (getR 10), by decide +kernel⟩⟩

end Sys2Proof.Tests.Ocgal

namespace Sys2Proof.Tests.Keyway
open Sys2Proof Sys2Proof.Machine Sys2Proof.Tests
def ses (n : Nat) (x : Session) (ws : List (Nat × Int) := []) : State := (up.withDev (fun d => { d with sessions := setNth d.sessions (n - 1) x })).withWs ws
def kp (p : PInfo) (i : Nat) (v : Int) : Nat × Int := (parKey p.id i, v)
def pdu2 : List Byte := pduBytes ((ses 2 { state := .opened, carriers := 1 }).chip.peerIdentity 2) 0x0010 3 0 1 1000000000 (List.replicate 16 9) 0 1000000000
def prof : List (Nat × Int) := [kp Par.keyCarrier 3 1, kp Par.keyPeerId 3 5, kp Par.keyPeerId 4 6, kp Par.keyLossAction 0 2]
def states : List State := [up, ses 2 { state := .opened, carriers := 1 }, ses 2 { state := .opened, carriers := 1, wd := 1000 }, ses 2 { state := .opened, carriers := 1, wd := 1000 } prof, ses 2 { state := .lost, peer := 5, ocgal := true } prof, ses 2 { state := .lost, peer := 6 } prof, (ses 2 { state := .lost, peer := 6 } prof).withDev (fun d => { d with lossActs := [(2, 1)], motors := d.motors.map (fun m => { m with cmdBy := 2 }) }), (ses 2 { state := .lost, peer := 6 } prof).withDev (fun d => { d with motors := d.motors.map (fun m => { m with cmdBy := 2 }) }),
  up.withLane .a (fun n => { n with boot := { n.boot with fenced := true } }), up.withDev (fun d => { d with sessions := List.replicate 127 { state := .opened, carriers := 7 } }),
  (ses 1 {} prof).withDev (fun d => { d with sessions := List.replicate 127 { state := .opened, carriers := 7 } }),
  ses 2 { state := .opened, ocgal := true, peer := 5, peerNum := 9, epoch := 3 } prof,
  (ses 2 { state := .opening, ocgal := true, peer := 5, epoch := 3, byDevice := true } prof).withPend { opcode := 0x2210, arg := 2, link := some .b, tag := 7 },
  ses 2 { state := .opened, carriers := 7, frozen := true }]
def poolS : List (State) := states
def getS (k : Nat) : State := poolS.getD k up
def poolB : List (List Byte) := [[], pdu2]
def getB (k : Nat) : List Byte := poolB.getD k []
def opn (kind links prof peer first : Nat) : Req := op (toLe 1 kind ++ toLe 1 links ++ toLe 1 prof ++ toLe 1 0 ++ toLe 2 peer ++ toLe 2 0 ++ toLe 4 first ++ toLe 4 0)
def poolR : List (Req) := [opn 0 1 4 6 0, opn 0 7 4 6 88, opn 1 0 3 5 0, keyed (q []), keyed (q [1]), keyed (q [2]), keyed (q [4]), op (q [2]), op (q [1])]
def getR (k : Nat) : Req := poolR.getD k (op [])

/-- Every premise of SessionReceptionAndLoss is met. -/
theorem witness_SessionReceptionAndLoss :
    (∃ s : State, ∃ l : LaneId, ((s.chip.lane l).boot.fenced = true)) ∧
    (∃ s : State, ∃ l : LaneId, ∃ n : Fin 128, ∃ link : Option LaneId, ∃ b : List Byte, ((s.chip.lane l).boot.fenced = false) ∧ (s.chip.pduPasses link n.val b = true)) ∧
    (∃ s : State, ∃ l : LaneId, ∃ n : Fin 128, ∃ link : Option LaneId, ∃ b : List Byte, ((s.chip.lane l).boot.fenced = false) ∧ (s.chip.pduPasses link n.val b = false) ∧ (n.val ≠ 0)) ∧
    (∃ s : State, ∃ n : Fin 128, (s.chip.wdDue n.val = false)) ∧
    (∃ s : State, ∃ n : Fin 128, (s.chip.wdDue n.val = true) ∧ (n.val ≠ 0)) ∧
    (∃ s : State, ∃ n : Fin 128, ((s.chip.session n.val).state ≠ .lost)) ∧
    (∃ s : State, ∃ n : Fin 128, ((s.chip.session n.val).state = .lost)) :=
  ⟨⟨(getS 8), .a, by decide +kernel⟩,
   ⟨(getS 1), .a, 2, (some (.a)), (getB 1), by decide +kernel⟩,
   ⟨(getS 0), .a, 1, none, (getB 0), by decide +kernel⟩,
   ⟨(getS 0), 0, by decide +kernel⟩,
   ⟨(getS 2), 2, by decide +kernel⟩,
   ⟨(getS 0), 0, by decide +kernel⟩,
   ⟨(getS 4), 2, by decide +kernel⟩⟩

/-- Every premise of conjunct 1 of SessionsOpenAndClose is met. -/
theorem witness_SessionsOpenAndClose_1 :
    (∃ s : State, ∃ peer : Nat, ∃ d : OpenData, ∃ prof, ∃ n, let twin (n : Nat) : Prop := (s.chip.session n).state = .opened ∧ (s.chip.session n).ocgal = true ∧ (s.chip.session n).peer = peer ∧ (s.chip.session n).peerNum = d.num ∧ (s.chip.session n).epoch = d.epoch ∧ (s.chip.session n).byDevice = false; ((∀ n, 1 ≤ n → n ≤ 127 → ¬ twin n)) ∧ (s.chip.ocgalProfile peer = some prof) ∧ (s.chip.sessionNumber peer true = some n)) ∧
    (∃ s : State, ∃ peer : Nat, ∃ d : OpenData, let twin (n : Nat) : Prop := (s.chip.session n).state = .opened ∧ (s.chip.session n).ocgal = true ∧ (s.chip.session n).peer = peer ∧ (s.chip.session n).peerNum = d.num ∧ (s.chip.session n).epoch = d.epoch ∧ (s.chip.session n).byDevice = false; ((∀ n, 1 ≤ n → n ≤ 127 → ¬ twin n)) ∧ (s.chip.ocgalProfile peer = none ∨ s.chip.sessionNumber peer true = none)) ∧
    (∃ s : State, ∃ peer : Nat, ∃ d : OpenData, ∃ n, let twin (n : Nat) : Prop := (s.chip.session n).state = .opened ∧ (s.chip.session n).ocgal = true ∧ (s.chip.session n).peer = peer ∧ (s.chip.session n).peerNum = d.num ∧ (s.chip.session n).epoch = d.epoch ∧ (s.chip.session n).byDevice = false; (1 ≤ n) ∧ (n ≤ 127) ∧ (twin n) ∧ ((∀ m, 1 ≤ m → m < n → ¬ twin m))) ∧
    (∃ s : State, ∃ n : Fin 128, ∃ d : OpenData, ∃ p : PendOp, ∃ k : LaneId, ((s.chip.session n.val).state = .opening) ∧ (n.val ≠ 0) ∧ (s.chip.dev.pend = [p]) ∧ (p.opcode = 0x2210) ∧ (p.arg = n.val) ∧ (p.arg2 = 0) ∧ (p.link = some k) ∧ (p.session = 0) ∧ (p.suppress = false) ∧ (d.rnum = n.val) ∧ (d.epoch = (s.chip.session n.val).epoch)) ∧
    (∃ s : State, ∃ n : Fin 128, ∃ d : OpenData, ∃ p : PendOp, ∃ k : LaneId, ((s.chip.session n.val).state = .opening) ∧ (n.val ≠ 0) ∧ (s.chip.dev.pend = [p]) ∧ (p.opcode = 0x2210) ∧ (p.arg = n.val) ∧ (p.arg2 = 0) ∧ (p.link = some k) ∧ (p.session = 0) ∧ (p.suppress = false) ∧ (d.rnum ≠ n.val ∨ d.epoch ≠ (s.chip.session n.val).epoch)) :=
  ⟨⟨(getS 3), 5, ({ num := 0, epoch := 0, rnum := 0, first := 0 }), 3, 3, by decide +kernel, by decide +kernel, by decide +kernel⟩,
   ⟨(getS 0), 0, ({ num := 0, epoch := 0, rnum := 0, first := 0 }), by decide +kernel, by decide +kernel⟩,
   ⟨(getS 11), 5, ({ num := 9, epoch := 3, rnum := 2, first := 7 }), 2, by decide +kernel, by decide +kernel, by decide +kernel, by decide +kernel⟩,
   ⟨(getS 12), 2, ({ num := 9, epoch := 3, rnum := 2, first := 7 }), ({ opcode := 8720, link := some (.b), tag := 0x07#8, session := 0, mask := 0x00#8, seq := 0, suppress := false, lanes := 0x00#8, results := { a := none, b := none, c := none }, arg := 2, arg2 := 0, at_ := 0 }), .b, by decide +kernel⟩,
   ⟨(getS 12), 2, ({ num := 0, epoch := 0, rnum := 0, first := 0 }), ({ opcode := 8720, link := some (.b), tag := 0x07#8, session := 0, mask := 0x00#8, seq := 0, suppress := false, lanes := 0x00#8, results := { a := none, b := none, c := none }, arg := 2, arg2 := 0, at_ := 0 }), .b, by decide +kernel⟩⟩

/-- Every premise of conjunct 2 of SessionsOpenAndClose is met. -/
theorem witness_SessionsOpenAndClose_2 :
    (∃ s : State, ∃ r : Req, ∃ n, (s.admits attrSessionOpen r = true) ∧ (r.session = 0) ∧ (openForm r.body = true) ∧ (s.chip.openAllowed r = true) ∧ (fld r.body 0 1 = 0) ∧ (s.chip.sessionNumber (fld r.body 4 2) false = some n)) ∧
    (∃ s : State, ∃ r : Req, ∃ n, (s.admits attrSessionOpen r = true) ∧ (r.session = 0) ∧ (openForm r.body = true) ∧ (s.chip.openAllowed r = true) ∧ (fld r.body 0 1 = 1) ∧ (s.chip.sessionNumber (fld r.body 4 2) true = some n)) ∧
    (∃ s : State, ∃ r : Req, (s.admits attrSessionOpen r = true) ∧ (r.session = 0) ∧ (openForm r.body = true) ∧ (s.chip.openAllowed r = true) ∧ (s.chip.sessionNumber (fld r.body 4 2) (decide (fld r.body 0 1 = 1)) = none)) ∧
    (∃ s : State, ∃ r : Req, (s.admits (attrSessionClose r) r = true) ∧ (r.body.length = 16) ∧ (zeroFrom r.body 1 16 = true) ∧ (fld r.body 0 1 ≤ 127) ∧ ((s.chip.session (closeTarget r)).state = .free)) ∧
    (∃ s : State, ∃ r : Req, (s.admits (attrSessionClose r) r = true) ∧ (r.body.length = 16) ∧ (zeroFrom r.body 1 16 = true) ∧ (fld r.body 0 1 ≤ 127) ∧ ((s.chip.session (closeTarget r)).state ≠ .free)) ∧
    (∃ s : State, ∃ r : Req, (s.admits attrPeerUnfreeze r = true) ∧ (r.body.length = 16) ∧ (zeroFrom r.body 1 16 = true) ∧ (1 ≤ fld r.body 0 1) ∧ (fld r.body 0 1 ≤ 127) ∧ (fld r.body 0 1 ≠ r.session)) :=
  ⟨⟨(getS 3), (getR 0), 3, by decide +kernel⟩,
   ⟨(getS 3), (getR 2), 3, by decide +kernel⟩,
   ⟨(getS 10), (getR 0), by decide +kernel⟩,
   ⟨(getS 0), (getR 5), by decide +kernel⟩,
   ⟨(getS 0), (getR 4), by decide +kernel⟩,
   ⟨(getS 0), (getR 5), by decide +kernel⟩⟩

end Sys2Proof.Tests.Keyway

namespace Sys2Proof.Tests.Gate
open Sys2Proof Sys2Proof.Machine Sys2Proof.Tests
def tg (k : Nat) (x : Target) : State := full.withLane .a (fun n => { n with targets := setNth n.targets k x, vbr := 24000 })
def states : List State := [up, full, full.withPintle (fun p => { p with holder := some .b, legs := p.legs.map (fun _ => { latch := some 0x1102 }), lanes := p.lanes.map (fun x => { x with failedLines := [0, 13, 24] }) }), full.withDev (fun d => { d with actuation := true }), full.withLane .a (fun n => { n with legs := setNth n.legs 4 { latch := some 0x1101, soft := 1 } }), full.withPintle (fun n => { n with legs := setNth n.legs 13 { latch := some 0x1101, soft := 1 } }),
  tg 0 { run := some {} }, tg 0 { run := some { step := 5, readings := [] } }, tg 0 { run := some { step := 5, readings := [[2390,2390,2390],[0,0,0],[2390,2390,2390],[0,0,0],[2390,2390,2390]] } }]
def poolS : List (State) := states
def getS (k : Nat) : State := poolS.getD k up
def poolR : List (Req) := [op (q [0]), op (q [1]) 3, op (q [2]), op (q [7]), keyed (q [0, 3]), keyed (q [1, 7]) 5, keyed (q [0]), keyed (q [2]), keyed (q [2]) 1, keyed (q [7, 9]) 5]
def getR (k : Nat) : Req := poolR.getD k (op [])

/-- Every premise of LegFaultsLatchAndFence is met. -/
theorem witness_LegFaultsLatchAndFence :
    (∃ s : State, ∃ g : Leg, ∃ waited : Nat, ((s.chip.legAt g).latch = none) ∧ (2000 ≤ waited)) ∧
    (∃ s : State, ∃ g : Leg, ∃ mv : Nat, ∃ since : Nat, ∃ above : Nat, let t := targetOf g; ((s.chip.legAt g).latch = none) ∧ (vdsThreshold (s.chip.profile Par.gdrVdsTh g) < mv) ∧ (100 ≤ above) ∧ (250 * s.chip.parN Par.gdrVdsBlank (targetGroup t) + 100 ≤ since)) ∧
    (∃ s : State, ∃ g : Leg, ∃ ma : Int, ((s.chip.legAt g).latch = none) ∧ (s.chip.grossLimit g < 1000 * ma.natAbs)) ∧
    (∃ waited : Nat, (waited < 2000)) ∧
    (∃ s : State, ∃ g : Leg, ∃ mv : Nat, ∃ since : Nat, ∃ above : Nat, let t := targetOf g; (((s.chip.legAt g).latch ≠ none ∨ mv ≤ vdsThreshold (s.chip.profile Par.gdrVdsTh g) ∨ above < 100 ∨ since < 250 * s.chip.parN Par.gdrVdsBlank (targetGroup t) + 100))) ∧
    (∃ s : State, ∃ g : Leg, ∃ ma : Int, (1000 * ma.natAbs ≤ s.chip.grossLimit g)) :=
  ⟨⟨(getS 0), (Sys2Proof.Leg.lane (.a) 0), 4000, by decide +kernel⟩,
   ⟨(getS 0), (Sys2Proof.Leg.lane (.a) 0), 1999, 4000, 100, by decide +kernel⟩,
   ⟨(getS 0), (Sys2Proof.Leg.lane (.a) 0), 2000000, by decide +kernel⟩,
   ⟨0, by decide +kernel⟩,
   ⟨(getS 0), (Sys2Proof.Leg.lane (.a) 0), 0, 0, 0, by decide +kernel⟩,
   ⟨(getS 0), (Sys2Proof.Leg.lane (.a) 0), 0, by decide +kernel⟩⟩

/-- Every premise of conjunct 1 of OffStateTestsAndGateOperations is met. -/
theorem witness_OffStateTestsAndGateOperations_1 :
    (∃ s : State, ∃ l : LaneId, ∃ k : Fin 10, ∃ run : OstRun, ((s.chip.targetAt l k.val).run = some run) ∧ (run.step + 1 < 2 * (targetLegs k.val).2)) ∧
    (∃ s : State, ∃ l : LaneId, ∃ k : Fin 10, ∃ run : OstRun, ((s.chip.targetAt l k.val).run = some run) ∧ (2 * (targetLegs k.val).2 ≤ run.step + 1) ∧ (s.chip.dev.pend = [])) ∧
    (∃ t : Nat, ∃ w : Nat, ∃ readings : List (List Nat), (t < 10) ∧ (w ≤ 50) ∧ (readings.length ≤ 2 * (targetLegs t).2)) :=
  ⟨⟨(getS 6), .a, 0, ({ step := 0, readings := [], auto := false }), by decide +kernel⟩,
   ⟨(getS 7), .a, 0, ({ step := 5, readings := [], auto := false }), by decide +kernel⟩,
   ⟨0, 0, ([]), by decide +kernel⟩⟩

/-- Every premise of conjunct 2 of OffStateTestsAndGateOperations is met. -/
theorem witness_OffStateTestsAndGateOperations_2 :
    (∃ s : State, ∃ r : Req, (r.body.length = 16) ∧ (targetUsed s.chip.dev.cfg.ws (fld r.body 0 1) = true) ∧ (s.admits attrOffstateTest r = true) ∧ (zeroFrom r.body 1 16 = true) ∧ (s.chip.targetSwitches (fld r.body 0 1) = false) ∧ (s.chip.ostRuns (fld r.body 0 1) = false) ∧ (fld r.body 0 1 < 2)) ∧
    (∃ s : State, ∃ r : Req, (r.body.length = 16) ∧ (targetUsed s.chip.dev.cfg.ws (fld r.body 0 1) = true) ∧ (s.admits attrOffstateTest r = true) ∧ (zeroFrom r.body 1 16 = true) ∧ (s.chip.targetSwitches (fld r.body 0 1) = false) ∧ (s.chip.ostRuns (fld r.body 0 1) = false) ∧ (2 ≤ fld r.body 0 1) ∧ (fld r.body 0 1 < 10) ∧ (s.chip.pintle.holder = none)) ∧
    (∃ s : State, ∃ r : Req, (r.body.length = 16) ∧ (targetUsed s.chip.dev.cfg.ws (fld r.body 0 1) = true) ∧ (s.admits attrOffstateTest r = true) ∧ (zeroFrom r.body 1 16 = true) ∧ (s.chip.targetSwitches (fld r.body 0 1) = false) ∧ (s.chip.ostRuns (fld r.body 0 1) = false) ∧ (2 ≤ fld r.body 0 1) ∧ (fld r.body 0 1 < 10) ∧ (s.chip.pintle.holder ≠ none) ∧ (s.chip.pintle.holding = false)) ∧
    (∃ s : State, ∃ r : Req, (r.body.length = 16) ∧ (targetUsed s.chip.dev.cfg.ws (fld r.body 0 1) = true) ∧ (s.admits attrLegClear r = true) ∧ (zeroFrom r.body 2 16 = true) ∧ (fld r.body 0 1 < 2) ∧ (fld r.body 1 1 < 8)) ∧
    (∃ s : State, ∃ r : Req, (r.body.length = 16) ∧ (targetUsed s.chip.dev.cfg.ws (fld r.body 0 1) = true) ∧ (s.admits attrLegClear r = true) ∧ (zeroFrom r.body 2 16 = true) ∧ (2 ≤ fld r.body 0 1) ∧ (fld r.body 0 1 < 10) ∧ (fld r.body 1 1 < 2 ^ (targetLegs (fld r.body 0 1)).2)) :=
  ⟨⟨(getS 1), (getR 6), by decide +kernel⟩,
   ⟨(getS 1), (getR 7), by decide +kernel⟩,
   ⟨(getS 2), (getR 7), by decide +kernel⟩,
   ⟨(getS 1), (getR 4), by decide +kernel⟩,
   ⟨(getS 1), (getR 7), by decide +kernel⟩⟩

end Sys2Proof.Tests.Gate

namespace Sys2Proof.Tests.Commute
open Sys2Proof Sys2Proof.Machine Sys2Proof.Tests
def kp (p : PInfo) (i : Nat) (v : Int) : Nat × Int := (parKey p.id i, v)
def mo (k : Nat) (f : Motor → Motor) (ws : List (Nat × Int) := []) : State := (full.withDev (fun d => { d with actuation := true, motors := modNth d.motors k f })).withWs ws
def eng (k : Nat) (f : Engine → Engine) (ws : List (Nat × Int) := []) : State := ((full.withWs ws).withLane .a (fun n => { n with vbr := 24000, engines := modNth n.engines k f }))
def chan (ws : List (Nat × Int)) : List (Nat × Int) := [kp Par.cmtAngleSrc 0 2, kp Par.fbkMode 2 1, kp Par.perFbShare 2 1] ++ ws
def fbv (s : State) (v : Int) : State := s.withDev (fun d => { d with agreed := { d.agreed with fb := modNth d.agreed.fb 2 (fun f => { f with pos := { v := v, valid := true }, givers := 3 }) } })
def catch_ : List (Nat × Int) := [kp Par.cmtCatchFwdMax 0 1000, kp Par.cmtCatchRevMax 0 900, kp Par.cmtCatchMin 0 50]
def sync (s : State) : State := s.withDev (fun d => { d with agreed := synced.chip.dev.agreed })
def states0 : List State := [up, act, full, eng 0 (fun e => { e with offs := (3, 4, 5) }), eng 0 (fun e => { e with gates := .switching, cmdOn := true, cmdIq := 50000, offs := (3,4,5), cmdSrc := 2, cmdRho := 100 }) [kp Par.cmtKp 0 100000, kp Par.cmtKi 0 100000],
  eng 0 (fun e => { e with gates := .switching, cmdOn := true, cmdIq := -9000, intD := 99999999, intQ := 8888888, cmdSrc := 0xFE, obsAngle := 5000 }), eng 2 (fun e => { e with gates := .switching, cmdZero := true }),
  full.withPintle (fun p => { p with powered := false }), full.withPintle (fun p => { p with lanes := p.lanes.map (fun x => { x with pathFailed := true }) }),
  mo 0 (fun m => { m with state := .aligning, alignTry := 1, enabled := true }), mo 0 (fun m => { m with state := .aligning, alignTry := 2, enabled := true }), 
  fbv (mo 0 (fun m => { m with state := .aligning, alignTry := 1, alignPos := some 70, enabled := true }) (chan [])) 70,
  mo 0 (fun m => { m with trackValid := true, state := .tracking }) (catch_), mo 0 (fun m => { m with trackValid := true, state := .tracking }) (kp Par.cmtAngleInit 0 1 :: catch_), fbv (mo 0 (fun m => { m with trackValid := true, state := .tracking, enabled := true, referenced := true }) (chan catch_)) 6,
   mo 0 (fun m => { m with trackValid := true, state := .tracking, speed := 9000, enabled := true }) (chan catch_),  mo 0 (fun m => { m with trackValid := true, state := .tracking, speed := 10001 }) (chan catch_), mo 0 (fun m => { m with trackValid := true, state := .tracking, speed := -9000 }) (chan catch_),  mo 0 (fun m => { m with trackValid := true, state := .tracking, speed := -9001 }) (chan catch_),
   mo 0 (fun m => { m with state := .switching, enabled := true, torque := 8 }) (kp Par.cmtIMax 0 100000 :: kp Par.cmtICont 0 50000 :: catch_), mo 0 (fun m => { m with state := .switching, enabled := true, torque := 8 }) [kp Par.cmtTorqueSrc 0 255], 
   (mo 0 (fun m => { m with state := .switching, enabled := true, torque := 8 }) [kp Par.cmtTorqueSrc 0 255]).withDev (fun d => { d with launches := [{ out := 0 }, { out := 1 }] })]
def cmd1 : EngineCmd := { from_ := 5, gates := .switching, iq := 900, id := -8, src := 2, rho := 9, omega := 77 }
def states : List State := states0 ++ (states0.drop 12).map sync ++ [eng 0 (fun e => { e with next := some cmd1 }), eng 0 (fun e => { e with next := some { cmd1 with gates := .off }, gates := .switching }), eng 0 (fun e => { e with gates := .short, offWin := [(1,1,1)] }), eng 0 (fun e => { e with gates := .freewheel, offWin := [(1,1,1)], sumBad := 9 }),
  up, full.withPintle (fun p => { p with faults := [(1,2,3)] }), full.withLane .a (fun n => { n with boot := { n.boot with fenced := true } }),
  fbv (mo 0 (fun m => { m with state := .aligning, alignTry := 1, alignPos := some 70, enabled := true }) (chan [kp Par.fbkCountMode 2 0, kp Par.fbkCpr 2 4096, kp Par.cmtPolePairs 0 4])) 70,
  fbv (mo 0 (fun m => { m with state := .aligning, alignTry := 1, alignPos := some 7000, enabled := true }) (chan [kp Par.fbkCountMode 2 0, kp Par.fbkCpr 2 4096, kp Par.cmtPolePairs 0 4])) 70,
  sync (fbv (mo 0 (fun m => { m with trackValid := true, state := .tracking, enabled := true, referenced := true }) (chan (kp Par.cmtAngleSrc2 0 3 :: catch_))) 6),
  (sync (mo 0 (fun m => { m with trackValid := true, state := .tracking, enabled := false, sets := m.sets.map (fun w => { w with fenced := true }) }) (catch_))), (sync (mo 0 (fun m => { m with trackValid := true, state := .aligning, enabled := false, sets := m.sets.map (fun w => { w with fenced := true }) }) (catch_)))]
def poolS : List (State) := states
def getS (k : Nat) : State := poolS.getD k up
def ph (a b c : Nat) : PhaseIn := { codes := [a, b, c] }
def tq (k : Nat) (v : Int) : List Byte := toLe 1 k ++ toLe 3 0 ++ toLe 4 (unsignedOf 32 v) ++ toLe 8 0
def poolR : List (Req) := [op (q [0]), keyed (q [0]), keyed (q [2]), timed (q [0]) 1001000000, keyed (tq 0 (-700)), timed (tq 0 (-700)) 1001000000, keyed (tq 0 70000)]
def getR (k : Nat) : Req := poolR.getD k (op [])

/-- Every premise of EnginesSampleAndLimit is met. -/
theorem witness_EnginesSampleAndLimit :
    (∃ s : State, ∃ l : LaneId, ∃ k : Fin 2, let used := bridgeUsed s.chip.dev.cfg.ws k.val = true ∧ s.chip.runs l = true; (¬used)) ∧
    (∃ s : State, ∃ l : LaneId, ∃ k : Fin 2, ∃ x, let boundary := (s.chip.lane l).clock.nt - s.chip.parN Par.cmtIsampleDelay k.val; let e := nth (s.chip.lane l).engines k.val {}; let used := bridgeUsed s.chip.dev.cfg.ws k.val = true ∧ s.chip.runs l = true; (used) ∧ (e.next = some x) ∧ (x.from_ ≤ boundary)) ∧
    (∃ s : State, ∃ l : LaneId, ∃ k : Fin 2, let boundary := (s.chip.lane l).clock.nt - s.chip.parN Par.cmtIsampleDelay k.val; let e := nth (s.chip.lane l).engines k.val {}; let used := bridgeUsed s.chip.dev.cfg.ws k.val = true ∧ s.chip.runs l = true; (used) ∧ ((∀ x, e.next = some x → boundary < x.from_)) ∧ (e.gates ≠ .switching)) ∧
    (∃ s : State, ∃ l : LaneId, ∃ k : Fin 2, let boundary := (s.chip.lane l).clock.nt - s.chip.parN Par.cmtIsampleDelay k.val; let e := nth (s.chip.lane l).engines k.val {}; let used := bridgeUsed s.chip.dev.cfg.ws k.val = true ∧ s.chip.runs l = true; (used) ∧ ((∀ x, e.next = some x → boundary < x.from_)) ∧ (e.gates = .switching)) ∧
    (∃ s : State, ∃ l : LaneId, let path := s.chip.pintle.powered = true ∧ (s.chip.pintle.lanes.get l).pathFailed = false ∧ s.chip.runs l = true; (¬path)) ∧
    (∃ s : State, ∃ l : LaneId, let path := s.chip.pintle.powered = true ∧ (s.chip.pintle.lanes.get l).pathFailed = false ∧ s.chip.runs l = true; (path)) :=
  ⟨⟨(getS 0), .a, 0, by decide +kernel⟩,
   ⟨(getS 32), .a, 0, ({ from_ := 5, gates := GateState.switching, iq := 900, id := -8, zero := false, src := 2, rho := 9, omega := 77, emfRef := false, ack := false }), by decide +kernel⟩,
   ⟨(getS 2), .a, 0, by decide +kernel, by decide +kernel, by decide +kernel⟩,
   ⟨(getS 4), .a, 0, by decide +kernel, by decide +kernel, by decide +kernel⟩,
   ⟨(getS 7), .a, by decide +kernel⟩,
   ⟨(getS 0), .a, by decide +kernel⟩⟩

/-- Every premise of conjunct 1 of AlignmentsAndEnabling is met. -/
theorem witness_AlignmentsAndEnabling_1 :
    (∃ s : State, ∃ k : Fin 4, let m := nth s.chip.dev.motors k.val {}; (m.state ≠ .aligning)) ∧
    (∃ s : State, ∃ k : Fin 4, ∃ ch, let m := nth s.chip.dev.motors k.val {}; let l := s.chip.firstSet k.val; let moved (ch : Nat) : Bool := match s.chip.angleItem ch l, m.alignPos with | some r, some p => decide (fbCpr s.chip.dev.cfg.ws ch ≤ Sys2Proof.Machine.dist (diff32 r.cont p) 0 * 64 * s.chip.par Par.cmtPolePairs k.val) | _, _ => true; (m.state = .aligning) ∧ ((s.chip.angleChannels k.val).head? = some ch) ∧ (moved ch = false)) ∧
    (∃ s : State, ∃ k : Fin 4, let m := nth s.chip.dev.motors k.val {}; let l := s.chip.firstSet k.val; let moved (ch : Nat) : Bool := match s.chip.angleItem ch l, m.alignPos with | some r, some p => decide (fbCpr s.chip.dev.cfg.ws ch ≤ Sys2Proof.Machine.dist (diff32 r.cont p) 0 * 64 * s.chip.par Par.cmtPolePairs k.val) | _, _ => true; (m.state = .aligning) ∧ ((∀ ch, (s.chip.angleChannels k.val).head? = some ch → moved ch = true))) :=
  ⟨⟨(getS 0), 0, by decide +kernel⟩,
   ⟨(getS 11), 0, 2, by decide +kernel⟩,
   ⟨(getS 9), 0, by decide +kernel, by decide +kernel⟩⟩

/-- Every premise of conjunct 2 of AlignmentsAndEnabling is met. -/
theorem witness_AlignmentsAndEnabling_2 :
    (∃ s : State, ∃ k : Nat, let m := nth s.chip.dev.motors k {}; (m.state = .switching)) ∧
    (∃ s : State, ∃ k : Nat, let m := nth s.chip.dev.motors k {}; (m.state = .aligning) ∧ (s.chip.bridgeFenced k = false)) ∧
    (∃ s : State, ∃ k : Nat, let m := nth s.chip.dev.motors k {}; (m.state ≠ .switching) ∧ (s.chip.bridgeFenced k = true)) ∧
    (∃ s : State, ∃ k : Nat, let m := nth s.chip.dev.motors k {}; (m.state ≠ .switching) ∧ (m.state ≠ .aligning) ∧ (s.chip.bridgeFenced k = false) ∧ (m.trackValid = false)) ∧
    (∃ s : State, ∃ k : Nat, let m := nth s.chip.dev.motors k {}; (m.state ≠ .switching) ∧ (m.state ≠ .aligning) ∧ (s.chip.bridgeFenced k = false) ∧ (m.trackValid = true) ∧ ((m.speed.natAbs : Int) < 10 * s.chip.par Par.cmtCatchMin k) ∧ (s.chip.referenced k = true)) ∧
    (∃ s : State, ∃ k : Nat, let m := nth s.chip.dev.motors k {}; (m.state ≠ .switching) ∧ (m.state ≠ .aligning) ∧ (s.chip.bridgeFenced k = false) ∧ (m.trackValid = true) ∧ ((m.speed.natAbs : Int) < 10 * s.chip.par Par.cmtCatchMin k) ∧ (s.chip.referenced k = false) ∧ (s.chip.par Par.cmtAngleInit k = 1)) ∧
    (∃ s : State, ∃ k : Nat, let m := nth s.chip.dev.motors k {}; (m.state ≠ .switching) ∧ (m.state ≠ .aligning) ∧ (s.chip.bridgeFenced k = false) ∧ (m.trackValid = true) ∧ ((m.speed.natAbs : Int) < 10 * s.chip.par Par.cmtCatchMin k) ∧ (s.chip.referenced k = false) ∧ (s.chip.par Par.cmtAngleInit k ≠ 1)) ∧
    (∃ s : State, ∃ k : Nat, let m := nth s.chip.dev.motors k {}; (m.state ≠ .switching) ∧ (m.state ≠ .aligning) ∧ (s.chip.bridgeFenced k = false) ∧ (m.trackValid = true) ∧ (10 * s.chip.par Par.cmtCatchMin k ≤ (m.speed.natAbs : Int)) ∧ (0 ≤ m.speed) ∧ (m.speed ≤ 10 * s.chip.par Par.cmtCatchFwdMax k)) ∧
    (∃ s : State, ∃ k : Nat, let m := nth s.chip.dev.motors k {}; (m.state ≠ .switching) ∧ (m.state ≠ .aligning) ∧ (s.chip.bridgeFenced k = false) ∧ (m.trackValid = true) ∧ (10 * s.chip.par Par.cmtCatchMin k ≤ (m.speed.natAbs : Int)) ∧ (0 ≤ m.speed) ∧ (10 * s.chip.par Par.cmtCatchFwdMax k < m.speed)) ∧
    (∃ s : State, ∃ k : Nat, let m := nth s.chip.dev.motors k {}; (m.state ≠ .switching) ∧ (m.state ≠ .aligning) ∧ (s.chip.bridgeFenced k = false) ∧ (m.trackValid = true) ∧ (10 * s.chip.par Par.cmtCatchMin k ≤ (m.speed.natAbs : Int)) ∧ (m.speed < 0) ∧ (-m.speed ≤ 10 * s.chip.par Par.cmtCatchRevMax k)) ∧
    (∃ s : State, ∃ k : Nat, let m := nth s.chip.dev.motors k {}; (m.state ≠ .switching) ∧ (m.state ≠ .aligning) ∧ (s.chip.bridgeFenced k = false) ∧ (m.trackValid = true) ∧ (10 * s.chip.par Par.cmtCatchMin k ≤ (m.speed.natAbs : Int)) ∧ (m.speed < 0) ∧ (10 * s.chip.par Par.cmtCatchRevMax k < -m.speed)) :=
  ⟨⟨(getS 19), 0, by decide +kernel⟩,
   ⟨(getS 9), 0, by decide +kernel⟩,
   ⟨(getS 0), 0, by decide +kernel⟩,
   ⟨(getS 0), 2, by decide +kernel⟩,
   ⟨(getS 14), 0, by decide +kernel⟩,
   ⟨(getS 13), 0, by decide +kernel⟩,
   ⟨(getS 12), 0, by decide +kernel⟩,
   ⟨(getS 15), 0, by decide +kernel⟩,
   ⟨(getS 16), 0, by decide +kernel⟩,
   ⟨(getS 17), 0, by decide +kernel⟩,
   ⟨(getS 18), 0, by decide +kernel⟩⟩

/-- Every premise of BridgeOperations is met. -/
theorem witness_BridgeOperations :
    (∃ s : State, ∃ r : Req, ∃ k : Nat, let m := nth s.chip.dev.motors k {}; (k = fld r.body 0 1) ∧ (r.body.length = 16) ∧ (k < 4) ∧ (bridgeUsed s.chip.dev.cfg.ws k = true) ∧ (s.admits attrCmtEnable r = true) ∧ (zeroFrom r.body 1 16 = true) ∧ ((m.state = .switching ∨ m.state = .aligning ∧ s.chip.bridgeFenced k = false)) ∧ (r.isTimed = false)) ∧
    (∃ s : State, ∃ r : Req, ∃ k : Nat, let m := nth s.chip.dev.motors k {}; (k = fld r.body 0 1) ∧ (r.body.length = 16) ∧ (k < 4) ∧ (bridgeUsed s.chip.dev.cfg.ws k = true) ∧ (s.admits attrCmtEnable r = true) ∧ (zeroFrom r.body 1 16 = true) ∧ (m.state ≠ .switching) ∧ (m.state ≠ .aligning) ∧ (r.isTimed = false) ∧ (s.chip.enableFails k = [])) ∧
    (∃ s : State, ∃ r : Req, ∃ k : Nat, (k = fld r.body 0 1) ∧ (r.body.length = 16) ∧ (k < 4) ∧ (bridgeUsed s.chip.dev.cfg.ws k = true) ∧ (s.admits attrCmtEnable r = true) ∧ (zeroFrom r.body 1 16 = true) ∧ (r.isTimed = true) ∧ (s.chip.enableFails k = []) ∧ (s.chip.launchFull k = false)) ∧
    (∃ s : State, ∃ r : Req, ∃ k : Nat, (k = fld r.body 0 1) ∧ (r.body.length = 16) ∧ (k < 4) ∧ (bridgeUsed s.chip.dev.cfg.ws k = true) ∧ (s.admits attrCmtDisable r = true) ∧ (zeroFrom r.body 1 16 = true) ∧ (r.isTimed = false)) ∧
    (∃ s : State, ∃ r : Req, ∃ k : Nat, (k = fld r.body 0 1) ∧ (r.body.length = 16) ∧ (k < 4) ∧ (bridgeUsed s.chip.dev.cfg.ws k = true) ∧ (s.admits attrCmtDisable r = true) ∧ (zeroFrom r.body 1 16 = true) ∧ (r.isTimed = true) ∧ (s.chip.launchFull k = false)) ∧
    (∃ s : State, ∃ r : Req, ∃ k : Nat, let m := nth s.chip.dev.motors k {}; (k = fld r.body 0 1) ∧ (r.body.length = 16) ∧ (k < 4) ∧ (bridgeUsed s.chip.dev.cfg.ws k = true) ∧ (s.admits attrTorqueSet r = true) ∧ (zeroFrom r.body 1 4 = true) ∧ (zeroFrom r.body 8 16 = true) ∧ (s.chip.bridgeFenced k = false) ∧ (m.state = .switching) ∧ (m.catching = false) ∧ (m.catchWait = false) ∧ (m.disabling = false) ∧ (64 ≤ s.chip.parN Par.cmtTorqueSrc k) ∧ (r.isTimed = false)) ∧
    (∃ s : State, ∃ r : Req, ∃ k : Nat, let m := nth s.chip.dev.motors k {}; (k = fld r.body 0 1) ∧ (r.body.length = 16) ∧ (k < 4) ∧ (bridgeUsed s.chip.dev.cfg.ws k = true) ∧ (s.admits attrTorqueSet r = true) ∧ (zeroFrom r.body 1 4 = true) ∧ (zeroFrom r.body 8 16 = true) ∧ (s.chip.bridgeFenced k = false) ∧ (m.state = .switching) ∧ (m.catching = false) ∧ (m.catchWait = false) ∧ (m.disabling = false) ∧ (64 ≤ s.chip.parN Par.cmtTorqueSrc k) ∧ (r.isTimed = true) ∧ (s.chip.launchFull k = false)) ∧
    (∃ s : State, ∃ r : Req, ∃ k : Nat, let m := nth s.chip.dev.motors k {}; (k = fld r.body 0 1) ∧ (r.body.length = 16) ∧ (k < 4) ∧ (bridgeUsed s.chip.dev.cfg.ws k = true) ∧ (s.admits attrCatchStart r = true) ∧ (zeroFrom r.body 1 16 = true) ∧ (s.chip.bridgeFenced k = false) ∧ (m.state ≠ .switching) ∧ (m.state ≠ .aligning) ∧ (m.catchWait = false) ∧ (m.enabled = true)) :=
  ⟨⟨(getS 9), (getR 1), 0, by decide +kernel⟩,
   ⟨(getS 13), (getR 1), 0, by decide +kernel⟩,
   ⟨(getS 23), (getR 3), 0, by decide +kernel⟩,
   ⟨(getS 2), (getR 0), 0, by decide +kernel⟩,
   ⟨(getS 22), (getR 3), 0, by decide +kernel⟩,
   ⟨(getS 19), (getR 1), 0, by decide +kernel⟩,
   ⟨(getS 29), (getR 3), 0, by decide +kernel⟩,
   ⟨(getS 14), (getR 1), 0, by decide +kernel⟩⟩

end Sys2Proof.Tests.Commute

namespace Sys2Proof.Tests.Stepper
open Sys2Proof Sys2Proof.Machine Sys2Proof.Tests
def kp (p : PInfo) (i : Nat) (v : Int) : Nat × Int := (parKey p.id i, v)
def st (k : Nat) (f : Stepper → Stepper) (ws : List (Nat × Int) := []) : State := (full.withDev (fun d => { d with actuation := true, agreed := synced.chip.dev.agreed, steppers := modNth d.steppers k f })).withPintle (fun p => { p with holder := some .a }) |>.withWs ws
/-- A table of two straight lines, which R255 takes. -/
def line : List (Nat × Nat) := (List.range 256).map (fun i => (32767 - 127 * i, 128 * i))
def tab : List Byte := line.flatMap entryBytes
def tabR : Req := keyed (toLe 1 0 ++ toLe 11 0 ++ toLe 4 4169421785 ++ tab)
theorem tab_crc : crc32c (tabR.body.drop 16) = 4169421785 := by
  rw [crc32c, crcFold_forced]; decide +kernel
theorem tab_loaded : loadedTable tabR.body = line :=
  loaded_entries (toLe 1 0 ++ toLe 11 0 ++ toLe 4 4169421785) line rfl (by decide +kernel) (by decide +kernel)
def mv (k rel : Nat) (tgt : Int) (v a : Nat) : List Byte := toLe 1 k ++ toLe 1 rel ++ toLe 2 0 ++ toLe 4 (unsignedOf 32 tgt) ++ toLe 4 v ++ toLe 4 a
def states : List State := [full, st 0 (fun x => { x with energised := true, homed := true, x := 65536 * 100 }), st 2 (fun x => { x with energised := true, homed := true, x := 65536 * 64, v := 500 * 65536 }), st 2 (fun x => { x with energised := true, homed := true, x := 65536 * 64 + 7, v := -500000 * 65536 }),
  st 2 id, st 2 (fun x => { x with energised := true, phase := .homing, homeStage := 1, x := -70000 }), (st 2 (fun x => { x with energised := true, phase := .homing, homeStage := 1, x := -70000, v := -8888888 })).withPend { opcode := 0x1212, arg := 2, link := some .b, tag := 3 },
  full.withWs [kp Par.stpTabCrc 0 4169421785], (st 2 (fun x => { x with energised := true })).withDev (fun d => { d with launches := [{ out := 6 }, { out := 3 }] })]
def poolS : List (State) := states
def getS (k : Nat) : State := poolS.getD k up
def poolR : List (Req) := [keyed (mv 0 0 128 1000 2000), keyed (mv 2 1 16 1000 2000), keyed (mv 2 1 100 1000 2000), timed (mv 0 0 128 1000 2000) 1001000000, op (q [2, 3]), op (q [2, 0]), op (q [0, 1]), timed (q [2, 1]) 1001000000, keyed (q [2]), keyed (q [0]), tabR, keyed (q [])]
def getR (k : Nat) : Req := poolR.getD k (op [])

/-- Every premise of StepperOperations is met. -/
theorem witness_StepperOperations :
    (∃ s : State, ∃ r : Req, ∃ k : Nat, ∃ target : Int, let x := nth s.chip.dev.steppers k {}; (k = fld r.body 0 1) ∧ (s.admits attrStpMove r = true) ∧ (r.body.length = 16) ∧ (fld r.body 1 1 ≤ 1) ∧ (zeroFrom r.body 2 4 = true) ∧ (k < 6) ∧ (stepUsed s.chip.dev.cfg.ws k = true) ∧ (s.chip.outFenced k = false) ∧ (s.chip.stpByLoop k = false) ∧ (s.chip.pintle.holding = false) ∧ (x.homed = true) ∧ (x.phase ≠ .homing) ∧ (target = (if fld r.body 1 1 = 1 then wholeStep x.x else 0) + sfld r.body 4 4) ∧ (s.chip.par Par.stpPosMin k ≤ target) ∧ (target ≤ s.chip.par Par.stpPosMax k) ∧ (target % stpGrid s.chip.dev.cfg.ws k = 0) ∧ (fld r.body 8 4 ≤ s.chip.parN Par.stpVMax k) ∧ (fld r.body 12 4 ≤ s.chip.parN Par.stpAMax k) ∧ (r.isTimed = false)) ∧
    (∃ s : State, ∃ r : Req, ∃ k : Nat, ∃ target : Int, let x := nth s.chip.dev.steppers k {}; (k = fld r.body 0 1) ∧ (s.admits attrStpMove r = true) ∧ (r.body.length = 16) ∧ (fld r.body 1 1 ≤ 1) ∧ (zeroFrom r.body 2 4 = true) ∧ (k < 6) ∧ (stepUsed s.chip.dev.cfg.ws k = true) ∧ (s.chip.outFenced k = false) ∧ (s.chip.stpByLoop k = false) ∧ (s.chip.pintle.holding = false) ∧ (x.homed = true) ∧ (x.phase ≠ .homing) ∧ (target = (if fld r.body 1 1 = 1 then wholeStep x.x else 0) + sfld r.body 4 4) ∧ (s.chip.par Par.stpPosMin k ≤ target) ∧ (target ≤ s.chip.par Par.stpPosMax k) ∧ (target % stpGrid s.chip.dev.cfg.ws k = 0) ∧ (fld r.body 8 4 ≤ s.chip.parN Par.stpVMax k) ∧ (fld r.body 12 4 ≤ s.chip.parN Par.stpAMax k) ∧ (r.isTimed = true) ∧ (s.chip.launchFull (4 + k) = false)) ∧
    (∃ s : State, ∃ r : Req, ∃ k : Nat, let x := nth s.chip.dev.steppers k {}; (k = fld r.body 0 1) ∧ (s.admits attrStpStop r = true) ∧ (r.body.length = 16) ∧ (fld r.body 1 1 ≤ 3) ∧ (zeroFrom r.body 2 16 = true) ∧ (k < 6) ∧ (stepUsed s.chip.dev.cfg.ws k = true) ∧ (r.isTimed = false) ∧ (x.energised = false)) ∧
    (∃ s : State, ∃ r : Req, ∃ k : Nat, let x := nth s.chip.dev.steppers k {}; (k = fld r.body 0 1) ∧ (s.admits attrStpStop r = true) ∧ (r.body.length = 16) ∧ (fld r.body 1 1 ≤ 3) ∧ (zeroFrom r.body 2 16 = true) ∧ (k < 6) ∧ (stepUsed s.chip.dev.cfg.ws k = true) ∧ (r.isTimed = false) ∧ (x.energised = true)) ∧
    (∃ s : State, ∃ r : Req, ∃ k : Nat, (k = fld r.body 0 1) ∧ (s.admits attrStpStop r = true) ∧ (r.body.length = 16) ∧ (fld r.body 1 1 ≤ 3) ∧ (zeroFrom r.body 2 16 = true) ∧ (k < 6) ∧ (stepUsed s.chip.dev.cfg.ws k = true) ∧ (r.isTimed = true) ∧ (s.chip.launchFull (4 + k) = false)) ∧
    (∃ s : State, ∃ r : Req, ∃ k : Nat, let x := nth s.chip.dev.steppers k {}; (k = fld r.body 0 1) ∧ (s.admits attrStpHome r = true) ∧ (r.body.length = 16) ∧ (zeroFrom r.body 1 16 = true) ∧ (k < 6) ∧ (stepUsed s.chip.dev.cfg.ws k = true) ∧ (s.chip.outFenced k = false) ∧ (s.chip.pintle.holding = false) ∧ (x.tableBad = false) ∧ (x.phase ≠ .homing)) ∧
    (∃ s : State, ∃ r : Req, ∃ k : Nat, let x := nth s.chip.dev.steppers k {}; (k = fld r.body 0 1) ∧ (s.admits attrTableLoad r = true) ∧ (r.body.length = 1040) ∧ (k < 2) ∧ (zeroFrom r.body 1 12 = true) ∧ (fld r.body 12 4 = crc32c (r.body.drop 16)) ∧ (stepUsed s.chip.dev.cfg.ws k = true) ∧ (x.energised = false) ∧ (s.chip.par Par.stpTabCrc k ≠ 0) ∧ (crc32c (r.body.drop 16) = s.chip.parN Par.stpTabCrc k) ∧ (tableValid (loadedTable r.body) = true)) :=
  ⟨⟨(getS 1), (getR 0), 0, 128, by decide +kernel⟩,
   ⟨(getS 1), (getR 3), 0, 128, by decide +kernel⟩,
   ⟨(getS 0), (getR 4), 2, by decide +kernel⟩,
   ⟨(getS 1), (getR 6), 0, by decide +kernel⟩,
   ⟨(getS 1), (getR 7), 2, by decide +kernel⟩,
   ⟨(getS 1), (getR 8), 2, by decide +kernel⟩,
   ⟨(getS 7), tabR, 0, by decide +kernel, by decide +kernel, by decide +kernel, by decide +kernel, by decide +kernel,
    (by decide +kernel : fld tabR.body 12 4 = 4169421785).trans tab_crc.symm, by decide +kernel, by decide +kernel, by decide +kernel,
    tab_crc.trans (by decide +kernel), (congrArg tableValid tab_loaded).trans (by decide +kernel)⟩⟩

/-- Every premise of conjunct 1 of StepperTimersAndPositions is met. -/
theorem witness_StepperTimersAndPositions_1 :
    (∃ s : State, ∃ k : Fin 6, let x := nth s.chip.dev.steppers k.val {}; ((x.phase ≠ .homing ∨ x.homeStage = 3))) ∧
    (∃ s : State, ∃ k : Fin 6, ∃ p : PendOp, ∃ l : LaneId, let x := nth s.chip.dev.steppers k.val {}; (x.phase = .homing) ∧ (x.homeStage ≠ 3) ∧ (x.energised = true) ∧ (s.chip.dev.pend = [p]) ∧ (p.opcode = 0x1212) ∧ (p.arg = k.val) ∧ (p.link = some l) ∧ (p.suppress = false)) :=
  ⟨⟨(getS 0), 0, by decide +kernel⟩,
   ⟨(getS 6), 2, ({ opcode := 4626, link := some (.b), tag := 0x03#8, session := 0, mask := 0x00#8, seq := 0, suppress := false, lanes := 0x00#8, results := { a := none, b := none, c := none }, arg := 2, arg2 := 0, at_ := 0 }), .b, by decide +kernel⟩⟩

/-- Every premise of conjunct 2 of StepperTimersAndPositions is met. -/
theorem witness_StepperTimersAndPositions_2 :
    (∃ j0 : Nat, ∃ n : Nat, (j0 < n)) ∧
    (∃ grid : Int, (0 < grid)) ∧
    (∃ s : Stepper, ∃ vm : Int, ∃ am : Int, ∃ d : Int, ∃ j : Int, ∃ dt : Nat, ((s.toTarget vm am d j dt).2 = true)) :=
  ⟨⟨0, 2, by decide +kernel⟩,
   ⟨16, by decide +kernel⟩,
   ⟨({ energised := false, homed := false, strong := false, strongAge := 16, phase := StpPhase.standing, x := 0, v := 0, a := 0, target := 0, vLim := 0, aLim := 0, scurve := false, braking := false, quick := false, deEnergise := false, x0 := 0, x1 := 0, j0 := 0, v0 := 0, idle := true, homeStage := 0, travelled := 0, lostBase := none, lostCount := 0, coilBad := 0, stall := false, lastBad := false, fenced := false, tableBad := false, rem := 0, amp := 0, vbra := 0, clips := 0, pwms := 0, cmdBy := 0 }), 0, 0, 0, 0, 0, by decide +kernel⟩⟩

end Sys2Proof.Tests.Stepper

namespace Sys2Proof.Tests.Loops
open Sys2Proof Sys2Proof.Machine Sys2Proof.Tests
def kp' (p : PInfo) (i : Nat) (v : Int) : Nat × Int := (parKey p.id i, v)
def lpS (n : Nat) (f : Loop → Loop) (ws : List (Nat × Int) := []) : State := (full.withWs ([kp' Par.loopEnable n 1, kp' Par.loopSpSrc n 255, kp' Par.loopOutMin n (-1000), kp' Par.loopOutMax n 1000] ++ ws)).withDev (fun d => { d with actuation := true, agreed := synced.chip.dev.agreed, loops := modNth d.loops n f })
def states : List State := [full, lpS 3 id, lpS 3 (fun x => { x with mode := .manual, out := 9 }), lpS 3 (fun x => { x with mode := .auto }) [kp' Par.loopStpDest 3 2],  lpS 3 (fun x => { x with mode := .tracking }) [kp' Par.loopStpDest 3 2]]
def poolS : List (State) := states
def getS (k : Nat) : State := poolS.getD k up
def poolL : List (Loop) := [{}, { mode := .auto, oldGains := some (20, 20, 20), out := 30, i := 7000 }, { mode := .auto, toAuto := true, oldGains := some (400, -3000, 400), out := 20, i := -800 }, { mode := .auto, oldGains := some (20, -3000, 400), pf := 88888, i := -60000 }, { mode := .auto, oldGains := some (400, 400, 20), pf := -88888, i := 60000 },
   { mode := .tracking, out := 30, manual := 77, pf := 444 }, { mode := .tracking, out := 20, preset := some 400, pf := -5000 }]
def getL (k : Nat) : Loop := poolL.getD k {}
def ls (n b1 b2 : Nat) (v : Int) : List Byte := toLe 1 n ++ toLe 1 b1 ++ toLe 1 b2 ++ toLe 1 0 ++ toLe 4 (unsignedOf 32 v) ++ toLe 8 0
def poolR : List (Req) := [op (ls 3 0 0 9), keyed (ls 3 0 0 9), timed (ls 3 0 0 (-9)) 1001000000, keyed (ls 3 1 0 9), keyed (ls 3 1 1 9), keyed (ls 3 2 0 0), timed (ls 3 2 0 0) 1001000000]
def getR (k : Nat) : Req := poolR.getD k (op [])

/-- Every premise of ControlLaw is met. -/
theorem witness_ControlLaw :
    (∃ lo : Int, ∃ hi : Int, (lo ≤ hi)) ∧
    (∃ kp : Int, ∃ ki : Int, ∃ kd : Int, ∃ df : Int, ∃ lo : Int, ∃ hi : Int, ∃ x : Loop, ∃ pv : Int, ∃ sp : Int, let e := sp - pv; let p8 := quo (kp * e) 256; let pf := x.pf + quo (df * (pv * 256 - x.pf)) 65536; let d8 := quo (-kd * (pf - x.pf)) 65536; let i8 := x.i + quo (ki * e) 256; let w := quo (p8 + i8 + d8) 256; (lo ≤ hi) ∧ (x.toAuto = false) ∧ (x.mode ≠ .tracking) ∧ (x.preset = none) ∧ (x.oldGains = some (kp, kd, df)) ∧ (((hi < w ∧ 0 < ki * e) ∨ (w < lo ∧ ki * e < 0)))) ∧
    (∃ kp : Int, ∃ ki : Int, ∃ kd : Int, ∃ df : Int, ∃ lo : Int, ∃ hi : Int, ∃ x : Loop, ∃ pv : Int, ∃ sp : Int, let e := sp - pv; let p8 := quo (kp * e) 256; let pf := x.pf + quo (df * (pv * 256 - x.pf)) 65536; let d8 := quo (-kd * (pf - x.pf)) 65536; let i8 := x.i + quo (ki * e) 256; let w := quo (p8 + i8 + d8) 256; (lo ≤ hi) ∧ (x.toAuto = false) ∧ (x.mode ≠ .tracking) ∧ (x.preset = none) ∧ (x.oldGains = some (kp, kd, df)) ∧ (¬ ((hi < w ∧ 0 < ki * e) ∨ (w < lo ∧ ki * e < 0)))) ∧
    (∃ lo : Int, ∃ hi : Int, ∃ x : Loop, ∃ v, (lo ≤ hi) ∧ (x.mode = .tracking ∨ x.toAuto = true) ∧ (x.preset = some v)) ∧
    (∃ lo : Int, ∃ hi : Int, ∃ x : Loop, (lo ≤ hi) ∧ (x.mode = .tracking ∨ x.toAuto = true) ∧ (x.preset = none)) ∧
    (∃ kp : Int, ∃ kd : Int, ∃ df : Int, ∃ lo : Int, ∃ hi : Int, ∃ x : Loop, ∃ pv : Int, ∃ sp : Int, let e := sp - pv; let p8 := quo (kp * e) 256; let pf := x.pf + quo (df * (pv * 256 - x.pf)) 65536; let d8 := quo (-kd * (pf - x.pf)) 65536; (lo ≤ hi) ∧ (x.mode = .tracking ∨ x.toAuto = true) ∧ (x.preset = none) ∧ (lo ≤ x.out) ∧ (x.out ≤ hi) ∧ (lo * 256 ≤ x.out * 256 - p8 - d8) ∧ (x.out * 256 - p8 - d8 ≤ hi * 256)) :=
  ⟨⟨(-3000), (-3000), by decide +kernel⟩,
   ⟨20, (-3000), (-3000), 400, (-3000), (-3000), (getL 3), 20, (-3000), by decide +kernel⟩,
   ⟨20, (-3000), (-3000), 400, (-3000), (-3000), (getL 3), (-3000), (-3000), by decide +kernel⟩,
   ⟨(-3000), (-3000), (getL 6), 400, by decide +kernel⟩,
   ⟨(-3000), (-3000), (getL 2), by decide +kernel⟩,
   ⟨(-3000), (-3000), (-3000), (-3000), 20, (getL 2), (-3000), (-3000), by decide +kernel⟩⟩

/-- Every premise of LoopOperations is met. -/
theorem witness_LoopOperations :
    (∃ s : State, ∃ r : Req, ∃ n : Nat, (n = fld r.body 0 1) ∧ (r.body.length = 16) ∧ (n ≤ 63) ∧ (s.chip.loopOn n = true) ∧ ((nth s.chip.dev.loops n {}).mode ≠ .stopped) ∧ (s.chip.loopFencedAll n = false) ∧ (s.admits attrSetpointSet r = true) ∧ (zeroFrom r.body 1 4 = true) ∧ (zeroFrom r.body 8 16 = true) ∧ (-8388607 ≤ sfld r.body 4 4) ∧ (sfld r.body 4 4 ≤ 8388607) ∧ (64 ≤ s.chip.parN Par.loopSpSrc n) ∧ (r.isTimed = false) ∧ (s.chip.dev.snow.step = 0)) ∧
    (∃ s : State, ∃ r : Req, ∃ n : Nat, ∃ o, (n = fld r.body 0 1) ∧ (r.body.length = 16) ∧ (n ≤ 63) ∧ (s.chip.loopOn n = true) ∧ ((nth s.chip.dev.loops n {}).mode ≠ .stopped) ∧ (s.chip.loopFencedAll n = false) ∧ (s.admits attrSetpointSet r = true) ∧ (zeroFrom r.body 1 4 = true) ∧ (zeroFrom r.body 8 16 = true) ∧ (-8388607 ≤ sfld r.body 4 4) ∧ (sfld r.body 4 4 ≤ 8388607) ∧ (64 ≤ s.chip.parN Par.loopSpSrc n) ∧ (r.isTimed = true) ∧ (s.chip.chainOut 9 n = some o) ∧ (s.chip.launchFull o = false)) ∧
    (∃ s : State, ∃ r : Req, ∃ n : Nat, (n = fld r.body 0 1) ∧ (r.body.length = 16) ∧ (n ≤ 63) ∧ (s.chip.loopOn n = true) ∧ ((nth s.chip.dev.loops n {}).mode ≠ .stopped) ∧ (s.chip.loopFencedAll n = false) ∧ (s.admits attrModeSet r = true) ∧ ((fld r.body 1 1 = 1 ∨ fld r.body 1 1 = 2)) ∧ (fld r.body 2 1 ≤ 1) ∧ (fld r.body 3 1 = 0) ∧ (zeroFrom r.body 8 16 = true) ∧ (r.isTimed = false) ∧ (fld r.body 1 1 = 1)) ∧
    (∃ s : State, ∃ r : Req, ∃ n : Nat, (n = fld r.body 0 1) ∧ (r.body.length = 16) ∧ (n ≤ 63) ∧ (s.chip.loopOn n = true) ∧ ((nth s.chip.dev.loops n {}).mode ≠ .stopped) ∧ (s.chip.loopFencedAll n = false) ∧ (s.admits attrModeSet r = true) ∧ ((fld r.body 1 1 = 1 ∨ fld r.body 1 1 = 2)) ∧ (fld r.body 2 1 ≤ 1) ∧ (fld r.body 3 1 = 0) ∧ (zeroFrom r.body 8 16 = true) ∧ (r.isTimed = false) ∧ (fld r.body 1 1 = 2)) ∧
    (∃ s : State, ∃ r : Req, ∃ n : Nat, ∃ o, (n = fld r.body 0 1) ∧ (r.body.length = 16) ∧ (n ≤ 63) ∧ (s.chip.loopOn n = true) ∧ ((nth s.chip.dev.loops n {}).mode ≠ .stopped) ∧ (s.chip.loopFencedAll n = false) ∧ (s.admits attrModeSet r = true) ∧ ((fld r.body 1 1 = 1 ∨ fld r.body 1 1 = 2)) ∧ (fld r.body 2 1 ≤ 1) ∧ (fld r.body 3 1 = 0) ∧ (zeroFrom r.body 8 16 = true) ∧ (r.isTimed = true) ∧ (s.chip.chainOut 9 n = some o) ∧ (s.chip.launchFull o = false)) ∧
    (∃ s : State, ∃ r : Req, ∃ n : Nat, (n = fld r.body 0 1) ∧ (r.body.length = 16) ∧ (n ≤ 63) ∧ (s.chip.loopOn n = true) ∧ ((nth s.chip.dev.loops n {}).mode ≠ .stopped) ∧ (s.chip.loopFencedAll n = false) ∧ (s.admits attrIntegratorPreset r = true) ∧ (zeroFrom r.body 1 4 = true) ∧ (zeroFrom r.body 8 16 = true) ∧ ((nth s.chip.dev.loops n {}).mode = .auto)) :=
  ⟨⟨(getS 1), (getR 1), 3, by decide +kernel⟩,
   ⟨(getS 3), (getR 2), 3, 6, by decide +kernel⟩,
   ⟨(getS 1), (getR 3), 3, by decide +kernel⟩,
   ⟨(getS 1), (getR 5), 3, by decide +kernel⟩,
   ⟨(getS 3), (getR 6), 3, 6, by decide +kernel⟩,
   ⟨(getS 3), (getR 1), 3, by decide +kernel⟩⟩

end Sys2Proof.Tests.Loops

namespace Sys2Proof.Tests.Pintle
open Sys2Proof Sys2Proof.Machine Sys2Proof.Tests
def pn (f : Pintle → Pintle) : State := full.withPintle (fun p => f { p with holder := some .a, lastHolder := some .a, accepted := true, voted := ⟨0x82, 0x41, 0⟩, lanes := p.lanes.mapIdx (fun l x => if l = .c then x else { x with presents := true, enable := true }) })
def fb1 : Fallback := { modes := 0x55, entries := [1000, 2000, 3000, 4000, 0, 0, 0, 0] }
def drv (f : POut → POut) (g : PLane → PLane) : State := pn (fun p => { p with outs := modNth p.outs 0 (fun o => f { o with by_ := some .a, driven := fb1 }), lanes := p.lanes.set .a (g (p.lanes.get .a)) })
def states : List State := [full, pn id, pn (fun p => { p with fenced := true }), full.withPintle (fun p => { p with powered := false }), pn (fun p => { p with replicaNt := ⟨some 5, some 999999000, none⟩ }), pn (fun p => { p with replicaFenced := ⟨false, false, true⟩, replicaNt := ⟨some 999999000, none, none⟩ }),
  pn (fun p => { p with lanes := p.lanes.map (fun x => { x with pathFailed := true, devRecorded := true }) }), 
  drv (fun o => { o with hasPacket := true }) (fun x => { x with coming := setNth x.coming 0 (some fb1) }),
  drv (fun o => { o with hasPacket := true, fenced := true }) (fun x => { x with coming := setNth x.coming 0 (some fb1) }),
  drv (fun o => { o with hasPacket := true }) (fun x => { x with devNow := [0], devRecorded := true, coming := setNth x.coming 0 (some fb1) }),
  drv (fun o => { o with hasPacket := false }) (fun x => { x with coming := setNth x.coming 0 (some fb1) }),
  drv (fun o => { o with hasPacket := false }) (fun x => { x with packets := setNth x.packets 0 (some (0, fb1)), coming := setNth x.coming 0 (some fb1) }),
  drv (fun o => { o with limit := true, hasPacket := true }) id,
  (drv (fun o => { o with gap := true }) id), (drv (fun o => { o with gap := true }) id).withPintle (fun p => { p with holder := none }), (drv (fun o => { o with gap := true }) id).withPintle (fun p => { p with holder := none, armed := true })]
def states2 : List State := states ++ [drv (fun o => { o with hasPacket := true }) (fun x => { x with packets := setNth x.packets 0 (some (0, fb1)) }), drv (fun o => { o with hasPacket := true, gap := true }) (fun x => { x with coming := setNth x.coming 0 (some fb1) }), drv id (fun x => { x with unheard := 2, failedLines := [1], missing := setNth x.missing 0 9 }), (drv (fun o => { o with gap := true }) id).withPintle (fun p => { p with holder := none, lanes := p.lanes.map (fun x => { x with failedLines := [1], missing := setNth x.missing 0 900 }) })]
def poolS : List (State) := states2 ++ [(drv id (fun x => { x with presents := true })).withPintle (fun p => { p with lanes := p.lanes.set .b { p.lanes.get .b with presents := false } })]
def getS (k : Nat) : State := poolS.getD k up
def pay : List Byte := claimBytes ⟨3, 4, 5⟩ 2 9
def stp : List Byte := let b := toLe 1 0 ++ toLe 1 0 ++ toLe 1 63 ++ toLe 1 0 ++ toLe 4 9 ++ toLe 4 77 ++ toLe 4 0 ++ List.replicate 48 3; b.take 12 ++ toLe 4 (crc32c b) ++ b.drop 16
def tb : List Byte := let b := List.replicate 124 (5 : Byte); b ++ toLe 4 (crc32c (b ++ toLe 4 0))
def fbb : List (List Byte) := [fallbackBytes .a 0 1 1000 fb1, fallbackBytes .a 0 7 1000 fb1, fallbackBytes .b 0 1 1000 fb1]
def poolB : List (List Byte) := [[], pay, stp, tb] ++ fbb
def getB (k : Nat) : List Byte := poolB.getD k []
def poolP : List (Pintle) := states.map (fun s => s.chip.pintle)
def getP (k : Nat) : Pintle := poolP.getD k {}

/-- Every premise of PintleLinksDeliver is met. -/
theorem witness_PintleLinksDeliver :
    (∃ s : State, ∃ b : List Byte, ∃ x : ClaimVec, (s.chip.pintle.powered = true) ∧ (claimVecOf b = some x)) ∧
    (∃ s : State, ∃ l : LaneId, ∃ b : List Byte, ∃ x : StatusPacket, (s.chip.pintle.powered = true) ∧ (statusPacketOf l b = some x)) ∧
    (∃ s : State, ∃ b : List Byte, (s.chip.pintle.powered = true) ∧ (tableIntact b = true)) ∧
    (∃ s : State, ∃ l : LaneId, ∃ k : Fin 8, ∃ b : List Byte, ∃ i : Nat, ∃ n : Nat, ∃ f : Fallback, (s.chip.pintle.powered = true) ∧ (s.chip.pintle.fenced = false) ∧ (fallbackOf l k.val b = some (i, n, f))) ∧
    (∃ s : State, ∃ l : LaneId, (s.chip.pintle.powered = true) ∧ (s.chip.sendsPintle l = true)) ∧
    (∃ s : State, ∃ l : LaneId, (s.chip.pintle.powered = true) ∧ (s.chip.sendsPintle l = true) ∧ (s.chip.pintle.holder = some l)) ∧
    (∃ s : State, ∃ l : LaneId, (s.chip.pintle.powered = true) ∧ (s.chip.pintle.fenced = false) ∧ (s.chip.pintle.holder = some l)) ∧
    (∃ s : State, (s.chip.pintle.powered = true) ∧ (s.chip.pintle.holder = none)) ∧
    (∃ s : State, ∃ l : LaneId, let d (t : State) : PLane := t.chip.pintle.lanes.get l; (s.chip.pintle.powered = true) ∧ ((d s).presents = false)) ∧
    (∃ k : Nat, ∃ i : Nat, ∃ n : Nat, ∃ f : Fallback, (k < 8) ∧ (i < 2 ^ 16) ∧ (n < 2 ^ 32) ∧ (f.entries.length = 8) ∧ ((∀ x ∈ f.entries, -(2 ^ 15) ≤ x ∧ x < 2 ^ 15))) :=
  ⟨⟨(getS 0), (getB 1), ({ nums := { a := 3, b := 4, c := 5 }, readmit := 0x02#8, count := 9 }), by decide +kernel⟩,
   ⟨(getS 0), .a, (getB 2), ({ disarm := false, homed := 0x3f#8, count := 9, tableCrc := 77, xs := [(50529027, 50529027), (50529027, 50529027), (50529027, 50529027), (50529027, 50529027), (50529027, 50529027), (50529027, 50529027)] }), by decide +kernel⟩,
   ⟨(getS 0), (getB 3), by decide +kernel⟩,
   ⟨(getS 0), .a, 0, (getB 4), 1, 1000, ({ modes := 0x55#8, entries := [1000, 2000, 3000, 4000, 0, 0, 0, 0] }), by decide +kernel⟩,
   ⟨(getS 0), .a, by decide +kernel⟩,
   ⟨(getS 1), .a, by decide +kernel⟩,
   ⟨(getS 1), .a, by decide +kernel⟩,
   ⟨(getS 0), by decide +kernel⟩,
   ⟨(getS 0), .a, by decide +kernel⟩,
   ⟨0, 0, 0, ({ modes := 0x55#8, entries := [1000, 2000, 3000, 4000, 0, 0, 0, 0] }), by decide +kernel⟩⟩

/-- Every premise of PintleFaultsAreReported is met. -/
theorem witness_PintleFaultsAreReported :
    (∃ s : State, ∃ g : Fin 30, ∃ h : LaneId, ∃ i : Nat, ∃ f : Fallback, ∃ x : LinePattern, ∃ at_ : Nat, let k := targetOut (targetOf (.pintle g)); let j := g.val - (targetLegs (targetOf (.pintle g))).1; let edge (n : Nat) : Nat := 8 * (nth f.entries (2 * j + n) 0).toNat; let off (n : Nat) (e : Option Nat) : Bool := match e with | some y => decide (80 < Sys2Proof.Machine.dist y (edge n)) | none => decide (edge n + 80 < at_); let deviates : Prop := x.mark = false ∨ x.highAtBoundary = true ∨ (legMode f.modes j = 1 ∧ edge 0 < edge 1 ∧ (off 0 x.rise = true ∨ off 1 x.fall = true)) ∨ (¬(legMode f.modes j = 1 ∧ edge 0 < edge 1) ∧ (x.rise.isSome = true ∨ x.fall.isSome = true)); (s.chip.pintle.powered = true) ∧ (s.chip.pintle.fenced = false) ∧ ((nth s.chip.pintle.outs k {}).by_ = some h) ∧ ((nth s.chip.pintle.outs k {}).hasPacket = true) ∧ (nth (s.chip.pintle.lanes.get h).packets k none = some (i, f)) ∧ (¬deviates)) ∧
    (∃ s : State, ∃ g : Fin 30, ∃ h : LaneId, ∃ i : Nat, ∃ f : Fallback, ∃ x : LinePattern, ∃ at_ : Nat, let k := targetOut (targetOf (.pintle g)); let j := g.val - (targetLegs (targetOf (.pintle g))).1; let edge (n : Nat) : Nat := 8 * (nth f.entries (2 * j + n) 0).toNat; let off (n : Nat) (e : Option Nat) : Bool := match e with | some y => decide (80 < Sys2Proof.Machine.dist y (edge n)) | none => decide (edge n + 80 < at_); let deviates : Prop := x.mark = false ∨ x.highAtBoundary = true ∨ (legMode f.modes j = 1 ∧ edge 0 < edge 1 ∧ (off 0 x.rise = true ∨ off 1 x.fall = true)) ∨ (¬(legMode f.modes j = 1 ∧ edge 0 < edge 1) ∧ (x.rise.isSome = true ∨ x.fall.isSome = true)); (s.chip.pintle.powered = true) ∧ (s.chip.pintle.fenced = false) ∧ ((nth s.chip.pintle.outs k {}).by_ = some h) ∧ ((nth s.chip.pintle.outs k {}).hasPacket = true) ∧ (nth (s.chip.pintle.lanes.get h).packets k none = some (i, f)) ∧ (deviates) ∧ ((s.chip.pintle.lanes.get h).failedLines.contains g.val = false) ∧ ((s.chip.pintle.lanes.get h).devNow.contains g.val = false)) ∧
    (∃ s : State, ∃ l : LaneId, (s.chip.pintle.powered = true) ∧ (s.chip.pintle.fenced = false) ∧ (((s.chip.pintle.lanes.get l).pathFailed = true ∨ (s.chip.pintle.lanes.get l).unheard < 2 ∧ (s.chip.pintle.lanes.get l).failedLines = []))) ∧
    (∃ s : State, ∃ l : LaneId, (s.chip.pintle.powered = true) ∧ (s.chip.pintle.fenced = false) ∧ ((s.chip.pintle.lanes.get l).pathFailed = false) ∧ ((2 ≤ (s.chip.pintle.lanes.get l).unheard ∨ ∃ g : Fin 30, g.val ∈ (s.chip.pintle.lanes.get l).failedLines ∧ s.chip.parN Par.gdrLineLimit ≤ nth (s.chip.pintle.lanes.get l).missing (targetOut (targetOf (.pintle g))) 0))) ∧
    (∃ s : State, ∃ r : Fin 3, ∃ k : LaneId, (s.chip.pintle.powered = true) ∧ (s.chip.pintle.fenced = false) ∧ (LaneId.ofIdx r.val = some k) ∧ (s.chip.pintle.replicaFenced.get k = false) ∧ (s.chip.pintle.replicaFenced.toList.any id = false) ∧ (s.chip.pintle.replicaNt.get k = none)) ∧
    (∃ s : State, ∃ r : Fin 3, ∃ k : LaneId, ∃ t0, (s.chip.pintle.powered = true) ∧ (s.chip.pintle.fenced = false) ∧ (LaneId.ofIdx r.val = some k) ∧ (s.chip.pintle.replicaFenced.get k = false) ∧ (s.chip.pintle.replicaFenced.toList.any id = false) ∧ (s.chip.pintle.replicaNt.get k = some t0) ∧ (s.chip.legNt (.pintle 0) ≤ t0 + 1000000000)) ∧
    (∃ s : State, ∃ r : Fin 3, ∃ k : LaneId, (s.chip.pintle.powered = true) ∧ (s.chip.pintle.fenced = false) ∧ (LaneId.ofIdx r.val = some k) ∧ (s.chip.pintle.replicaFenced.get k = false) ∧ (s.chip.pintle.replicaFenced.toList.any id = true)) :=
  ⟨⟨(getS 16), 0, .a, 0, ({ modes := 0x55#8, entries := [1000, 2000, 3000, 4000, 0, 0, 0, 0] }), ({ mark := true, highAtBoundary := false, rise := some 8000, fall := some 16080 }), 0, by decide +kernel⟩,
   ⟨(getS 16), 0, .a, 0, ({ modes := 0x55#8, entries := [1000, 2000, 3000, 4000, 0, 0, 0, 0] }), ({ mark := false, highAtBoundary := false, rise := none, fall := none }), 0, by decide +kernel⟩,
   ⟨(getS 0), .a, by decide +kernel⟩,
   ⟨(getS 18), .a, by decide +kernel, by decide +kernel, by decide +kernel, by decide +kernel⟩,
   ⟨(getS 0), 0, .a, by decide +kernel⟩,
   ⟨(getS 4), 1, .b, 999999000, by decide +kernel⟩,
   ⟨(getS 5), 0, .a, by decide +kernel⟩⟩

/-- Every premise of conjunct 1 of PwmBoundariesAndVotes is met. -/
theorem witness_PwmBoundariesAndVotes_1 :
    (∃ s : State, ((s.chip.pintle.powered = false ∨ s.chip.pintle.fenced = true))) ∧
    (∃ s : State, ∃ k : Fin 8, ∃ lines : List LinePattern, ∃ h : LaneId, ∃ q, let o := nth s.chip.pintle.outs k.val {}; let coming := nth (s.chip.pintle.lanes.get h).coming k.val none; (s.chip.pintle.powered = true) ∧ (s.chip.pintle.fenced = false) ∧ (s.chip.pintle.holding = false) ∧ (s.chip.pintle.holder = some h) ∧ (o.by_ = some h) ∧ (s.chip.periodPasses h k.val lines = true) ∧ ((o.hasPacket = true ∨ (s.chip.pintle.lanes.get h).devNow = [])) ∧ (coming = some q)) ∧
    (∃ s : State, ∃ k : Fin 8, ∃ lines : List LinePattern, ∃ h : LaneId, let o := nth s.chip.pintle.outs k.val {}; (s.chip.pintle.powered = true) ∧ (s.chip.pintle.fenced = false) ∧ (s.chip.pintle.holding = false) ∧ (s.chip.pintle.holder = some h) ∧ (o.by_ = some h) ∧ (s.chip.periodPasses h k.val lines = false) ∧ (o.limit = false) ∧ (s.chip.outPwm k.val ≤ 100000)) ∧
    (∃ s : State, ∃ k : Fin 8, ∃ h : LaneId, let o := nth s.chip.pintle.outs k.val {}; let coming := nth (s.chip.pintle.lanes.get h).coming k.val none; (s.chip.pintle.powered = true) ∧ (s.chip.pintle.fenced = false) ∧ (s.chip.pintle.holding = false) ∧ ((o.gap = false ∨ s.chip.pintle.holder = some h ∧ coming ≠ none))) ∧
    (∃ s : State, ∃ k : Fin 8, let o := nth s.chip.pintle.outs k.val {}; (s.chip.pintle.powered = true) ∧ (s.chip.pintle.fenced = false) ∧ (s.chip.pintle.holding = false) ∧ (o.gap = true) ∧ (s.chip.pintle.holder = none) ∧ (s.chip.pintle.armed = false)) ∧
    (∃ s : State, ∃ k : Fin 8, let o := nth s.chip.pintle.outs k.val {}; (s.chip.pintle.powered = true) ∧ (s.chip.pintle.fenced = false) ∧ (s.chip.pintle.holding = false) ∧ (o.gap = true) ∧ (s.chip.pintle.holder = none) ∧ (s.chip.pintle.armed = true)) ∧
    (∃ s : State, ∃ k : Fin 8, ∃ h : LaneId, let o := nth s.chip.pintle.outs k.val {}; let coming := nth (s.chip.pintle.lanes.get h).coming k.val none; (s.chip.pintle.powered = true) ∧ (s.chip.pintle.fenced = false) ∧ (s.chip.pintle.holding = false) ∧ (o.gap = true) ∧ (s.chip.pintle.holder = some h) ∧ (coming = none)) :=
  ⟨⟨(getS 2), by decide +kernel⟩,
   ⟨(getS 7), 0, ([]), .a, ({ modes := 0x55#8, entries := [1000, 2000, 3000, 4000, 0, 0, 0, 0] }), by decide +kernel⟩,
   ⟨(getS 10), 0, ([]), .a, by decide +kernel⟩,
   ⟨(getS 0), 0, .a, by decide +kernel⟩,
   ⟨(getS 14), 0, by decide +kernel⟩,
   ⟨(getS 15), 0, by decide +kernel⟩,
   ⟨(getS 13), 0, .a, by decide +kernel⟩⟩

/-- Every premise of conjunct 2 of PwmBoundariesAndVotes is met. -/
theorem witness_PwmBoundariesAndVotes_2 :
    (∃ x : Nat, ∃ y : Nat, (x = y)) ∧
    (∃ x : Nat, ∃ z : Nat, (x = z)) ∧
    (∃ y : Nat, ∃ z : Nat, (y = z)) ∧
    (∃ x : Nat, ∃ y : Nat, ∃ z : Nat, (x ≠ y) ∧ (x ≠ z) ∧ (y ≠ z)) ∧
    (∃ x : Nat, ∃ y : Nat, (x ≠ y)) :=
  ⟨⟨0, 0, by decide +kernel⟩,
   ⟨0, 0, by decide +kernel⟩,
   ⟨0, 0, by decide +kernel⟩,
   ⟨0, 1, 1000, by decide +kernel⟩,
   ⟨0, 1, by decide +kernel⟩⟩

end Sys2Proof.Tests.Pintle

namespace Sys2Proof.Tests.Power
open Sys2Proof Sys2Proof.Machine Sys2Proof.Tests
def hold : State := up.onChip (fun c => c.modPintle (fun p => { p with holder := some .a }))
def slp (st : PowerState) (tgt : Option PowerState) (step : Nat) : State := { up with chip := { up.chip with
  lanes := up.chip.lanes.map (fun n => { n with power := { n.power with core := false } })
  dev := { up.chip.dev with power := { state := st, target := tgt, step := step } } } }
def pw (p : Power) : State := { up with chip := { up.chip with dev := { up.chip.dev with power := p } } }
def states : List State := [up, hold, act, pw { idleRuns := true }, (pw { state := .idle, target := some .run, step := 2 }).withPend { opcode := 0x3210, link := some .a },
  pw { target := some .sleep, step := 2 }, (pw { target := some .sleep, step := 2 }).withDev (fun d => { d with authority := 3 }), pw { target := some .glide, step := 2 }, pw { target := some .off, step := 2, state := .idle },
  slp .sleep (some .sleep) 3, slp .sleep none 0, slp .glide none 0, slp .off none 0, (slp .sleep (some .sleep) 3).onChip (fun c => { c with bridges := Tri.all { powered := true, hlinkOn := false } }),
  (slp .glide none 0).withLane .a (fun n => { n with power := { n.power with waking := true } }),
  ((slp .glide none 0).withDev (fun d => { d with authority := 1 })).withLane .a (fun n => { n with power := { n.power with waking := true } }),
  (slp .sleep none 0).withWs [(Par.pwrGlideSi.id * 256, 255), (Par.pwrWakeTimer.id * 256, 10)] ,
  (slp .glide none 0).withWs [(Par.pwrGlideSi.id * 256, 255), (Par.pwrWakeTimer.id * 256, 10)],
  (slp .sleep none 0).onChip (fun c => c.modBridge .b (fun b => { b with waking := true })), (slp .sleep (some .sleep) 3).withLane .b (fun n => { n with power := { n.power with wake := some (2, 1) } }),
  act.withWs [(Par.authMbArrange.id * 256, 1), (Par.loopEnable.id * 256 + 3, 1), (Par.loopOutInit.id * 256 + 3, 77)] |>.withDev (fun d => { d with loops := modNth d.loops 3 (fun x => { x with mode := .auto }), motors := modNth d.motors 0 (fun m => { m with enabled := true, torque := 4 }), steppers := modNth d.steppers 2 (fun s => { s with energised := true }), so := Tri.all 3, launches := [{ out := 2 }] })]
def reqs : List Req := [keyed [], op [], op [] 1, op (q [0]), op (q [1]), op (q [3]), op [] 7]
def poolS : List (State) := states
def getS (k : Nat) : State := poolS.getD k up
def poolR : List (Req) := reqs
def getR (k : Nat) : Req := poolR.getD k (op [])

/-- Every premise of ActuationAndPowerOperations is met. -/
theorem witness_ActuationAndPowerOperations :
    (∃ s : State, ∃ r : Req, let c := s.chip; (s.admits attrActuationEnable r = true) ∧ (r.body = []) ∧ (c.commissioned = true) ∧ (c.lapses = false) ∧ (c.parN Par.laneStartMin ≤ c.authLanes.length) ∧ (c.pintle.holder ≠ none) ∧ (c.pintle.holding = false) ∧ ((c.dev.cfg.sched = [] ∨ c.dev.locked = true)) ∧ (c.dev.snow.step ≠ 4) ∧ (c.pintle.pads = false) ∧ ((∀ l, c.inAuth l = true → (c.lane l).power.pads = false)) ∧ (c.dev.power.state = .run) ∧ (c.dev.power.target = none)) ∧
    (∃ s : State, ∃ r : Req, let c := s.chip; (s.admits attrActuationDisable r = true) ∧ (r.body = []) ∧ (c.dev.actuation = false)) ∧
    (∃ s : State, ∃ r : Req, let c := s.chip; (s.admits attrActuationDisable r = true) ∧ (r.body = []) ∧ (c.dev.actuation = true)) ∧
    (∃ s : State, ∃ r : Req, let c := s.chip; (s.admits attrStateSet r = true) ∧ (r.body.length = 16) ∧ (zeroFrom r.body 1 16 = true) ∧ (fld r.body 0 1 ≤ 4) ∧ (c.dev.power.target = none) ∧ (c.dev.standdown = none) ∧ (PowerState.ofCode (fld r.body 0 1) = c.dev.power.state)) ∧
    (∃ s : State, ∃ r : Req, let c := s.chip; (s.admits attrStateSet r = true) ∧ (r.body.length = 16) ∧ (zeroFrom r.body 1 16 = true) ∧ (fld r.body 0 1 ≤ 4) ∧ (c.dev.power.target = none) ∧ (c.dev.standdown = none) ∧ (PowerState.ofCode (fld r.body 0 1) ≠ c.dev.power.state)) ∧
    (∃ s : State, ∃ r : Req, (s.admits attrPadsRelease r = true) ∧ (r.body = [])) ∧
    (∃ s : State, ∃ r : Req, ∃ k, (s.admits attrWakeSourceRead r = true) ∧ (r.body = []) ∧ (r.session = 0) ∧ (r.link = some k) ∧ (hasBit r.flags 0 = false)) :=
  ⟨⟨(getS 1), (getR 0), by decide +kernel, by decide +kernel, by decide +kernel, by decide +kernel, by decide +kernel, by decide +kernel, by decide +kernel, by decide +kernel, by decide +kernel, by decide +kernel, by intro k; cases k <;> decide +kernel, by decide +kernel, by decide +kernel⟩,
   ⟨(getS 0), (getR 0), by decide +kernel⟩,
   ⟨(getS 2), (getR 0), by decide +kernel⟩,
   ⟨(getS 0), (getR 3), by decide +kernel⟩,
   ⟨(getS 0), (getR 4), by decide +kernel⟩,
   ⟨(getS 0), (getR 0), by decide +kernel⟩,
   ⟨(getS 0), (getR 1), .a, by decide +kernel⟩⟩

/-- Every premise of PowerTransitions is met. -/
theorem witness_PowerTransitions :
    (∃ s : State, let c := s.chip; (c.dev.power.idleRuns = false)) ∧
    (∃ s : State, let c := s.chip; (c.dev.power.idleRuns = true) ∧ (c.dev.power.target = none) ∧ (c.dev.standdown = none) ∧ (c.isParked = true) ∧ (c.dev.snow.step = 0) ∧ (c.classNow ≤ 2) ∧ (c.dev.power.state ≠ PowerState.ofCode (c.parN Par.pwrAutoState))) ∧
    (∃ s : State, let c := s.chip; (c.dev.power.target ≠ some .run ∨ c.dev.power.step ≠ 2)) ∧
    (∃ s : State, ∃ p, ∃ k, let c := s.chip; (c.dev.power.target = some .run) ∧ (c.dev.power.step = 2) ∧ (c.dev.pend = [p]) ∧ (p.opcode = 0x3210) ∧ (p.link = some k) ∧ (p.suppress = false)) ∧
    (∃ s : State, let c := s.chip; (c.dev.power.target = none ∨ c.dev.power.step ≠ 2 ∨ c.dev.power.target = some .run ∨ c.dev.power.target = some .idle)) ∧
    (∃ s : State, ∃ p, let c := s.chip; (c.dev.power.target = some p) ∧ (p.stops = true) ∧ (c.dev.power.step = 2)) ∧
    (∃ s : State, ∃ l : LaneId, let c := s.chip; (c.dev.power.step ≠ 3 ∨ c.laneOff l = false)) ∧
    (∃ s : State, ∃ l : LaneId, let c := s.chip; (c.dev.power.step = 3) ∧ (c.laneOff l = true)) ∧
    (∃ s : State, ∃ l : LaneId, let c := s.chip; (c.dev.power.target = none) ∧ ((c.bridges.get l).waking = false)) ∧
    (∃ s : State, ∃ l : LaneId, let c := s.chip; (c.dev.power.target = some .run) ∧ (c.dev.power.step = 2) ∧ (c.inAuth l = true) ∧ (c.authLanes ≠ [l]) ∧ (c.dev.power.state = .idle)) :=
  ⟨⟨(getS 0), by decide +kernel⟩,
   ⟨(getS 3), by decide +kernel⟩,
   ⟨(getS 0), by decide +kernel⟩,
   ⟨(getS 4), ({ opcode := 12816, link := some (.a), tag := 0x00#8, session := 0, mask := 0x00#8, seq := 0, suppress := false, lanes := 0x00#8, results := { a := none, b := none, c := none }, arg := 0, arg2 := 0, at_ := 0 }), .a, by decide +kernel⟩,
   ⟨(getS 0), by decide +kernel⟩,
   ⟨(getS 5), (PowerState.sleep), by decide +kernel⟩,
   ⟨(getS 0), .a, by decide +kernel⟩,
   ⟨(getS 9), .a, by decide +kernel⟩,
   ⟨(getS 0), .a, by decide +kernel⟩,
   ⟨(getS 4), .a, by decide +kernel⟩⟩

/-- Every premise of WakesAreLatchedThenRun is met. -/
theorem witness_WakesAreLatchedThenRun :
    (∃ s : State, ∃ l : LaneId, ∃ w, let c := s.chip; (c.wakeCode l w = none)) ∧
    (∃ s : State, ∃ l : LaneId, ∃ w, ∃ src, ∃ inst, let c := s.chip; (c.wakeCode l w = some (src, inst))) ∧
    (∃ s : State, ∃ l : LaneId, let c := s.chip; (c.laneOff l = true)) ∧
    (∃ s : State, ∃ l : LaneId, ∃ n : Fin 8, let c := s.chip; (c.laneOff l = true) ∧ (c.dev.power.target = none) ∧ (c.dev.power.state = .sleep) ∧ ((c.parN Par.pwrGlideSi).testBit n.val = true) ∧ (c.par Par.sioSiSrc n.val = 0)) ∧
    (∃ s : State, ∃ l : LaneId, ∃ k : LaneId, let c := s.chip; (l ≠ k) ∧ (c.laneOff l = true) ∧ (((c.lane k).power.wake.isSome = true ∨ (c.lane k).power.waking = true ∨ (c.bridges.get k).waking = true))) ∧
    (∃ s : State, ∃ l : LaneId, ∃ k : LaneId, let c := s.chip; (l = k ∨ c.laneOff l = false)) ∧
    (∃ s : State, ∃ l : LaneId, let c := s.chip; let asleep : Prop := c.laneOff l = true ∧ c.dev.power.target = none; (asleep) ∧ (c.dev.power.state = .glide ∨ c.dev.power.state = .sleep) ∧ (c.par Par.pwrWakeTimer ≠ 0)) ∧
    (∃ s : State, let c := s.chip; (c.par Par.pwrWakeTimer = 0)) ∧
    (∃ s : State, ∃ l : LaneId, ∃ si : List Mask, ∃ adc : List Nat, ∃ fb : List Nat, let c := s.chip; let asleep : Prop := c.laneOff l = true ∧ c.dev.power.target = none; let watched := BitVec.ofNat 8 (c.parN Par.pwrGlideSi); let level := if nth si 0 0 &&& watched = nth si 1 0 &&& watched then nth si 1 0 else nth si 2 0; (asleep) ∧ (c.dev.power.state = .glide) ∧ ((c.lane l).power.waking = false) ∧ (c.glideDiff l level adc fb = none)) ∧
    (∃ s : State, ∃ l : LaneId, ∃ si : List Mask, ∃ adc : List Nat, ∃ fb : List Nat, ∃ src, ∃ inst, let c := s.chip; let asleep : Prop := c.laneOff l = true ∧ c.dev.power.target = none; let watched := BitVec.ofNat 8 (c.parN Par.pwrGlideSi); let level := if nth si 0 0 &&& watched = nth si 1 0 &&& watched then nth si 1 0 else nth si 2 0; (asleep) ∧ (c.dev.power.state = .glide) ∧ ((c.lane l).power.waking = false) ∧ (c.glideDiff l level adc fb = some (src, inst))) ∧
    (∃ s : State, ∃ l : LaneId, let c := s.chip; ((c.lane l).power.waking = false)) ∧
    (∃ s : State, ∃ l : LaneId, let c := s.chip; (c.laneOff l = true) ∧ ((c.lane l).power.waking = true) ∧ (c.dev.power.state = .glide) ∧ ((∃ k, k ≠ l ∧ c.inAuth k = true ∧ (c.lane k).power.core = false))) ∧
    (∃ s : State, ∃ l : LaneId, let c := s.chip; (c.laneOff l = true) ∧ ((c.lane l).power.waking = true) ∧ (c.dev.power.state = .glide) ∧ (c.authLanes = [l])) :=
  ⟨⟨(getS 0), .a, (Sys2Proof.WakeSource.power), by decide +kernel⟩,
   ⟨(getS 5), .a, (Sys2Proof.WakeSource.power), 1, 0, by decide +kernel⟩,
   ⟨(getS 9), .a, by decide +kernel⟩,
   ⟨(getS 16), .a, 0, by decide +kernel⟩,
   ⟨(getS 14), .b, .a, by decide +kernel⟩,
   ⟨(getS 0), .a, .a, by decide +kernel⟩,
   ⟨(getS 16), .a, by decide +kernel⟩,
   ⟨(getS 0), by decide +kernel⟩,
   ⟨(getS 11), .a, ([0x00#8, 0x00#8]), ([]), ([]), by decide +kernel⟩,
   ⟨(getS 17), .a, ([0x03#8, 0x03#8, 0x00#8]), ([]), ([]), 3, 0, by decide +kernel⟩,
   ⟨(getS 0), .a, by decide +kernel⟩,
   ⟨(getS 14), .a, by decide +kernel, by decide +kernel, by decide +kernel, ⟨.b, by decide +kernel⟩⟩,
   ⟨(getS 15), .a, by decide +kernel⟩⟩

end Sys2Proof.Tests.Power

namespace Sys2Proof.Tests.Bist
open Sys2Proof Sys2Proof.Machine Sys2Proof.Tests
def ln (f : Lane → Lane) : State := full.withLane .a f
def bi (f : Bist → Bist) : State := ln (fun n => { n with bist := f n.bist })
def e1 : RepairEntry := { kind := 1, region := 2, addr := 512, bank := 0, spare := 0 }
def states : List State := [full, bi (fun b => { b with ecc := [((2, 7), 3)] }), bi (fun b => { b with ecc := [((2, 7), 1)] }), ln (fun n => { n with boot := { n.boot with powerGood := false } }),
  bi (fun b => { b with frozen := true }), (ln (fun n => { n with boot := { n.boot with fenced := true, fenceCode := 0x010A }, nvm := { n.nvm with log := [e1] } })).withDev (fun d => { d with authority := 6, aset := 6 }),
  ((ln (fun n => { n with bist := { n.bist with fusing := true }, nvm := { n.nvm with log := [e1, { e1 with addr := 1024, spare := 1 }] } }))).withPend { opcode := 0x3412, arg := 0, link := some .b },
  bi (fun b => { b with due := true, elapsed := 100000000 }), bi (fun b => { b with due := true, elapsed := 100000000, deferred := true }), bi (fun b => { b with phase := 2 }), bi (fun b => { b with phase := 2, repeated := true }), bi (fun b => { b with phase := 1 }), 
   ln (fun n => { n with bist := { n.bist with phase := 3 }, nvm := { n.nvm with log := [e1, { kind := 5, region := 9 }] } }),
   let m : Tri LaneMem := full.mem.map (fun m => { m with sram := [(7, 7)], bank0 := [(3, 3)] }); { (ln (fun n => { n with bist := { n.bist with phase := 4 }, nvm := { n.nvm with log := [e1, { kind := 5, region := 9 }] } })).withDev (fun d => { d with standdown := some .a, authority := 6, aset := 6 }) with mem := m },
   (full.withPintle (fun p => { p with holder := some .b })), bi (fun b => { b with phase := 3 }), ln (fun n => { n with boot := { n.boot with state := .booting }, nvm := { n.nvm with logOk := false, log := [e1] } }), ln (fun n => { n with bist := { n.bist with phase := 4 }, nvm := { n.nvm with logOk := false, log := [e1] } })]
def poolS : List (State) := states
def getS (k : Nat) : State := poolS.getD k up
def poolR : List (Req) := [op [] 1, op [], op [] 7, keyed [] 1, keyed [] 2, { keyed [] 1 with link := some .b }]
def getR (k : Nat) : Req := poolR.getD k (op [])

/-- Every premise of MemoryErrorsAndRepairs is met. -/
theorem witness_MemoryErrorsAndRepairs :
    (∃ s : State, ∃ l : LaneId, ∃ region : Nat, ∃ quad : Nat, let n := s.chip.lane l; let before := countEcc n.bist.ecc (region, quad); (s.chip.memUp l = true) ∧ (((region, quad), s.chip.parN Par.bistEccRepeat) ∉ before)) ∧
    (∃ s : State, ∃ l : LaneId, ∃ region : Nat, ∃ quad : Nat, ∃ cell : FailCell, ∃ k, ∃ m, let n := s.chip.lane l; let before := countEcc n.bist.ecc (region, quad); (s.chip.memUp l = true) ∧ (((region, quad), s.chip.parN Par.bistEccRepeat) ∈ before) ∧ (n.nvm.repairs.any (fun e => e.covers { cell with region := region }) = false) ∧ (n.nvm.spareFor { cell with region := region } = some k) ∧ (n.nvm.addEntry { kind := k.1, region := region, bank := placeOf { cell with region := region }, addr := cell.addr, bit := cell.bit, foundBy := 2, spare := k.2 } = some m)) ∧
    (∃ s : State, ∃ l : LaneId, ∃ region : Nat, (s.chip.memUp l = true) ∧ (regionCritical region = true)) ∧
    (∃ s : State, ∃ l : LaneId, ∃ region : Nat, ∃ ctx : Fin 64, let n := s.chip.lane l; (s.chip.memUp l = true) ∧ (4 ≤ region) ∧ (region < 12) ∧ (n.boot.fenced = false) ∧ (ctx.val < s.chip.dev.loops.length) ∧ ((nth s.chip.dev.loops ctx.val {}).fenced.get l = false)) ∧
    (∃ s : State, ∃ l : LaneId, let n := s.chip.lane l; (s.chip.memUp l = true) ∧ (n.bist.frozen = true)) ∧
    (∃ s : State, ∃ l : LaneId, let n := s.chip.lane l; (s.chip.memUp l = true) ∧ (n.bist.frozen = false)) ∧
    (∃ s : State, ∃ l : LaneId, ∃ sector : Nat, ∃ i : Nat, let n := s.chip.lane l; (s.chip.memUp l = true) ∧ (sector < 1024) ∧ (n.nvm.log.length < 255) ∧ (n.nvm.spareFor { region := sectorRegion sector, bank := sector, addr := 4096 * sector } = some (4, i)) ∧ (n.nvm.repairs.any (fun e => e.covers { region := sectorRegion sector, bank := sector, addr := 4096 * sector }) = false)) ∧
    (∃ s : State, ∃ l : LaneId, ∃ i : Instr, (s.chip.memUp l = false) ∧ (((∃ a b c, i = .eccCorrection l a b c) ∨ (∃ a b, i = .uncorrectableError l a b) ∨ i = .coreAccessViolation l ∨ i = .engineAccessViolation l ∨ ∃ a, i = .nvmVerifyFail l a))) ∧
    (∃ s : State, ∃ r : Req, ∃ k : LaneId, (s.admits attrResultRead r = true) ∧ (r.body = []) ∧ (r.session = 0) ∧ (r.link = some k) ∧ (hasBit r.flags 0 = false)) ∧
    (∃ s : State, ∃ l : LaneId, ∃ r : Req, let n := s.chip.lane l; (s.admits attrFuseRepair r = true) ∧ (r.body = []) ∧ (lanesOf r.mask = [l]) ∧ (s.chip.dev.actuation = false) ∧ (n.boot.fenced = true) ∧ (n.boot.fenceCode = 0x010A)) ∧
    (∃ s : State, ∃ l : LaneId, let n := s.chip.lane l; (n.bist.fusing = false)) ∧
    (∃ s : State, ∃ l : LaneId, ∃ p : PendOp, ∃ k : LaneId, let n := s.chip.lane l; (n.bist.fusing = true) ∧ (s.chip.dev.pend = [p]) ∧ (p.opcode = 0x3412) ∧ (p.arg = l.idx) ∧ (p.link = some k) ∧ (p.suppress = false)) :=
  ⟨⟨(getS 0), .a, 0, 0, by decide +kernel⟩,
   ⟨(getS 1), .a, 2, 7, ({ region := 2, bank := 0, addr := 512, bit := 4 }), ((1, 0)), ((((getS 1).chip.lane .a).nvm.addEntry { kind := 1, region := 2, bank := placeOf { region := 2, bank := 0, addr := 512, bit := 4 }, addr := 512, bit := 4, foundBy := 2, spare := 0 }).getD {}), by decide +kernel⟩,
   ⟨(getS 0), .a, 0, by decide +kernel⟩,
   ⟨(getS 0), .a, 5, 0, by decide +kernel⟩,
   ⟨(getS 4), .a, by decide +kernel⟩,
   ⟨(getS 0), .a, by decide +kernel⟩,
   ⟨(getS 0), .a, 0, 0, by decide +kernel⟩,
   ⟨(getS 3), .a, (Instr.coreAccessViolation .a), by decide +kernel, .inr (.inr (.inl rfl))⟩,
   ⟨(getS 0), (getR 0), .a, by decide +kernel⟩,
   ⟨(getS 5), .a, (getR 5), by decide +kernel⟩,
   ⟨(getS 0), .a, by decide +kernel⟩,
   ⟨(getS 6), .a, ({ opcode := 13330, link := some (.b), tag := 0x00#8, session := 0, mask := 0x00#8, seq := 0, suppress := false, lanes := 0x00#8, results := { a := none, b := none, c := none }, arg := 0, arg2 := 0, at_ := 0 }), .b, by decide +kernel⟩⟩

/-- Every premise of StandDownPhases is met. -/
theorem witness_StandDownPhases :
    (∃ s : State, ∃ l : LaneId, ∃ r : Req, (s.admits attrStanddownNow r = true) ∧ (r.body = []) ∧ (lanesOf r.mask = [l]) ∧ (s.chip.dev.standdown = none) ∧ (s.chip.sdAllowed l = true)) ∧
    (∃ s : State, ∃ l : LaneId, let n := s.chip.lane l; (s.chip.sdDue l = true) ∧ (s.chip.dev.standdown ≠ some l) ∧ (n.bist.deferred = true)) ∧
    (∃ s : State, ∃ l : LaneId, let n := s.chip.lane l; (s.chip.sdDue l = true) ∧ (s.chip.dev.standdown ≠ some l) ∧ (n.bist.deferred = false)) ∧
    (∃ s : State, ∃ l : LaneId, (s.chip.sdDue l = false)) ∧
    (∃ s : State, ∃ l : LaneId, let n := s.chip.lane l; ((n.bist.frozen = true ∨ s.chip.memUp l = false))) ∧
    (∃ s : State, ∃ l : LaneId, let n := s.chip.lane l; (s.chip.memUp l = true) ∧ (n.bist.frozen = false) ∧ (n.bist.phase = 2) ∧ (n.bist.repeated = false)) ∧
    (∃ s : State, ∃ l : LaneId, let n := s.chip.lane l; (s.chip.memUp l = true) ∧ (n.bist.frozen = false) ∧ (n.bist.phase = 2) ∧ (n.bist.repeated = true) ∧ (n.boot.readmitting = false) ∧ (s.chip.authLanes ≠ [l]) ∧ (s.chip.dev.standdown = none)) ∧
    (∃ s : State, ∃ l : LaneId, let n := s.chip.lane l; (s.chip.memUp l = true) ∧ (n.bist.frozen = false) ∧ (n.bist.phase = 1)) ∧
    (∃ s : State, ∃ l : LaneId, let n := s.chip.lane l; (n.nvm.logOk = true) ∧ (n.bist.phase ≠ 3)) ∧
    (∃ s : State, ∃ l : LaneId, let n := s.chip.lane l; (s.chip.memUp l = true) ∧ (n.bist.frozen = false) ∧ (n.bist.phase = 3) ∧ (n.boot.fenced = false) ∧ (n.boot.readmitting = false)) ∧
    (∃ s : State, ∃ l : LaneId, ∃ x : FailCell, ∃ k : Nat × Nat, ∃ m : Nvm, let n := s.chip.lane l; let kept := { n.nvm with log := n.nvm.log.filter (fun e => decide (e.kind ≠ 5) || decide (x.region = e.region)) }; (s.chip.memUp l = true) ∧ (n.bist.frozen = false) ∧ (n.bist.phase = 3) ∧ (n.boot.readmitting = false) ∧ (kept.repairs.any (fun e => e.covers x) = false) ∧ (kept.spareFor x = some k) ∧ (kept.addEntry { kind := k.1, region := x.region, bank := placeOf x, addr := x.addr, bit := x.bit, foundBy := 1, spare := k.2 } = some m)) ∧
    (∃ s : State, ∃ l : LaneId, let n := s.chip.lane l; (n.boot.powerGood = true) ∧ (n.power.core = true) ∧ (n.boot.fenced = false) ∧ (n.nvm.logOk = false) ∧ ((n.boot.state = .booting ∧ n.bist.phase = 0 ∨ n.bist.phase = 4))) ∧
    (∃ s : State, ∃ l : LaneId, (s.chip.dev.standdown ≠ some l)) ∧
    (∃ s : State, ∃ l : LaneId, let n := s.chip.lane l; (s.chip.dev.standdown = some l) ∧ (n.bist.phase = 4) ∧ (s.chip.memUp l = true) ∧ (n.nvm.logOk = true) ∧ ((∀ e ∈ n.nvm.log, e.kind = 5 → regionCritical e.region = false))) :=
  ⟨⟨(getS 0), .a, (getR 3), by decide +kernel⟩,
   ⟨(getS 8), .a, by decide +kernel⟩,
   ⟨(getS 7), .a, by decide +kernel⟩,
   ⟨(getS 0), .a, by decide +kernel⟩,
   ⟨(getS 3), .a, by decide +kernel⟩,
   ⟨(getS 9), .a, by decide +kernel⟩,
   ⟨(getS 10), .a, by decide +kernel⟩,
   ⟨(getS 11), .a, by decide +kernel⟩,
   ⟨(getS 0), .a, by decide +kernel⟩,
   ⟨(getS 12), .a, by decide +kernel⟩,
   ⟨(getS 12), .a, ({ region := 2, bank := 0, addr := 262144, bit := 136 }), ((1, 0)), ({ ((getS 12).chip.lane .a).nvm with log := ((getS 12).chip.lane .a).nvm.log.filter (fun e => decide (e.kind ≠ 5)) ++ [{ kind := 1, region := 2, bank := placeOf { region := 2, bank := 0, addr := 262144, bit := 136 }, addr := 262144, bit := 136, foundBy := 1 }] }), by decide +kernel⟩,
   ⟨(getS 16), .a, by decide +kernel⟩,
   ⟨(getS 0), .a, by decide +kernel⟩,
   ⟨(getS 13), .a, by decide +kernel⟩⟩

end Sys2Proof.Tests.Bist

namespace Sys2Proof.Tests.Cfg
open Sys2Proof Sys2Proof.Machine Sys2Proof.Tests
def nl (f : Lane → Lane) : State := full.withLane .a f
def cf (f : CfgState → CfgState) : State := full.withDev (fun d => { d with cfg := f d.cfg })
def actf : State := full.withDev (fun d => { d with actuation := true })
def allL (s : State) (f : Lane → Lane) : State := s.onChip (fun c => { c with lanes := c.lanes.map f })
def g0 : ImageCopy := full.chip.dev.cfg.image
def stor : State := allL (cf (fun g => { g with storing := some (0, g.image) })) (fun n => { n with work := { n.work with storing := true } })
def conf (ls : LaneId → Bool) : State := (cf (fun g => { g with confirm := some 2 })).onChip (fun c => { c with lanes := c.lanes.mapIdx (fun l n => { n with work := { n.work with confirming := ls l } }) })
def fwa : State := (cf (fun g => { g with fwActivating := true })).withPend { opcode := 0x3115, link := some .b }
def g1 : State := (fwa.onChip (fun c => { c with lanes := c.lanes.map (fun n => { n with nvm := { n.nvm with bank1 := { delivered := true } } }) }))
def hy : State := allL full (fun n => { n with fb := n.fb.map (fun x => { x with e := 5, e' := 4 }) })
def states : List State := [full, g1, hy,  actf, stor, stor.withPend { opcode := 0x3111, link := some .b }, conf (fun _ => true), conf (fun l => l = .a), (conf (fun l => l = .a)).withPend { opcode := 0x3113, link := some .c, session := 0 }, fwa, full.withDev (fun d => { d with authority := 3, aset := 3 })]
def poolS : List (State) := states
def getS (k : Nat) : State := poolS.getD k up
def ent (p : PInfo) (i v : Nat) : List Byte := entryQuad p.id i p.width v
def rd (p : PInfo) (i : Nat) : List Byte := toLe 2 p.id ++ toLe 1 i ++ toLe 1 p.width ++ toLe 12 0
def poolB : List (List Byte) := [[], ent Par.fbkMode 2 9, ent Par.fbkMode 2 1, ent Par.fbkMode 2 1] ++ ((full.chip.readQuads (quadsOf (rd Par.fbkMode 2 ++ rd Par.gdrDeadtime 1))).toList)
def getB (k : Nat) : List Byte := poolB.getD k []
def poolR : List (Req) := [op [], keyed [], op (rd Par.fbkMode 2 ++ rd Par.gdrDeadtime 1), keyed (ent Par.fbkMode 2 1), keyed (ent Par.fbkBadLimit 2 9), keyed (ent Par.fbkFilter 2 9), keyed (ent Par.fbkHyst 2 1), keyed (ent Par.hostIoWidth 1 1),keyed (toLe 8 5 ++ toLe 1 1 ++ toLe 7 0), keyed (ent Par.fbkMode 2 9), keyed (ent Par.fbkBadLimit 2 9 ++ ent Par.fbkMode 2 9), op (ent Par.fbkMode 2 1),
  op (toLe 4 32 ++ toLe 12 0 ++ List.replicate 32 7), op (q [0]), op (q [1]), { op (q [1]) with link := some .b }, keyed (toLe 8 5 ++ toLe 8 0), keyed (toLe 8 6 ++ toLe 8 0)]
def getR (k : Nat) : Req := poolR.getD k (op [])

/-- Every premise of ParametersReadAndWrite is met. -/
theorem witness_ParametersReadAndWrite :
    (∃ s : State, ∃ r : Req, ∃ k : LaneId, ∃ b : Block, ∃ p : List Byte, (r.link = some k) ∧ (hasBit r.flags 0 = false) ∧ (s.admits (attrParamRead b) r = true) ∧ (quadForm r.body = true) ∧ (s.chip.readQuads (quadsOf r.body) = some p)) ∧
    (∃ s : State, ∃ r : Req, ∃ k : LaneId, ∃ b : Block, ∃ p : PInfo, ∃ i : Nat, ∃ x : Int, let g := s.chip.dev.cfg; (r.link = some k) ∧ (hasBit r.flags 0 = false) ∧ (s.admits (attrParamWrite b) r = true) ∧ (r.body.length = 16) ∧ (entryOf r.body = some (p, i, x)) ∧ (s.chip.entryFails { g.view with ws := wsApply g.view.ws [(parKey p.id i, x)] } r.session r.body = [])) ∧
    (∃ s : State, ∃ r : Req, ∃ k : LaneId, ∃ b : Block, ∃ n : Nat, ∃ st : Nat, ∃ q : List Byte, let g := s.chip.dev.cfg; (r.link = some k) ∧ (hasBit r.flags 0 = false) ∧ (s.admits (attrParamWrite b) r = true) ∧ (quadForm r.body = true) ∧ (st ≠ stOk) ∧ (s.chip.firstFail { g.view with ws := wsApply g.view.ws (writeKeys (quadsOf r.body)) } r.session 0 (quadsOf r.body) = some (n, st, q))) ∧
    (∃ s : State, ∃ r : Req, ∃ k : LaneId, (r.link = some k) ∧ (hasBit r.flags 0 = false) ∧ (s.admits attrCheckRead r = true) ∧ (r.body = [])) :=
  ⟨⟨(getS 0), (getR 2), .a, (Sys2Proof.Block.sys), (getB 4), by decide +kernel⟩,
   ⟨(getS 0), (getR 3), .a, .fbk, (Par.fbkMode), 2, 1, by decide +kernel⟩,
   ⟨(getS 0), (getR 9), .a, (Sys2Proof.Block.sys), 0, 18, (getB 1), by decide +kernel⟩,
   ⟨(getS 0), (getR 0), .a, by decide +kernel⟩⟩

/-- Every premise of conjunct 1 of StoresConfirmationsAndFirmware is met. -/
theorem witness_StoresConfirmationsAndFirmware_1 :
    (∃ s : State, ∃ r : Req, (s.admits attrImageWrite r = true) ∧ (blockFails r.body 262144 = []) ∧ (s.chip.dev.actuation = false) ∧ (s.chip.dev.cfg.busy = false)) ∧
    (∃ s : State, ∃ r : Req, (s.admits attrCfgStore r = true) ∧ (r.body.length = 16) ∧ (zeroFrom r.body 1 16 = true) ∧ (s.chip.dev.actuation = false) ∧ (s.chip.dev.cfg.busy = false) ∧ (s.chip.dev.standdown = none) ∧ (fld r.body 0 1 = 0)) ∧
    (∃ s : State, ∃ r : Req, ∃ k : LaneId, (s.admits attrCfgStore r = true) ∧ (r.body.length = 16) ∧ (zeroFrom r.body 1 16 = true) ∧ (s.chip.dev.actuation = false) ∧ (s.chip.dev.cfg.busy = false) ∧ (s.chip.dev.standdown = none) ∧ (fld r.body 0 1 = 1) ∧ (s.staged.acceptable = false) ∧ (r.link = some k)) ∧
    (∃ s : State, ∃ l : LaneId, ((s.chip.dev.cfg.storing = none ∨ (s.chip.lane l).work.storing = false ∨ (s.chip.lane l).work.committed = true ∨ s.chip.inAuth l = false))) ∧
    (∃ s : State, ∃ l : LaneId, ∃ ok : Bool, ∃ x, (s.chip.dev.cfg.storing = some x) ∧ ((s.chip.lane l).work.storing = true) ∧ ((s.chip.lane l).work.committed = false) ∧ (s.chip.inAuth l = true) ∧ (ok = true) ∧ ((s.chip.lane l).bist.regions.contains (22 + (s.chip.lane l).nvm.nextCopy) = false)) ∧
    (∃ s : State, ∃ l : LaneId, ∃ ok : Bool, ∃ x, ∃ p, ∃ j, (s.chip.dev.cfg.storing = some x) ∧ ((s.chip.lane l).work.storing = true) ∧ ((s.chip.lane l).work.committed = false) ∧ (s.chip.inAuth l = true) ∧ ((ok = false ∨ (s.chip.lane l).bist.regions.contains (22 + (s.chip.lane l).nvm.nextCopy) = true)) ∧ (s.chip.dev.pend = [p]) ∧ (p.opcode = 0x3111) ∧ (p.link = some j)) ∧
    (∃ s : State, ∃ r : Req, (s.admits attrCommissionConfirm r = true) ∧ (r.body.length = 16) ∧ (fld r.body 8 1 ≤ 1) ∧ (zeroFrom r.body 9 16 = true) ∧ (s.chip.dev.actuation = false) ∧ ((fld r.body 8 1 = 0 → fld r.body 0 8 = s.chip.dev.cfg.check)) ∧ (s.chip.dev.standdown = none) ∧ (s.chip.dev.cfg.confirm = none)) ∧
    (∃ s : State, (s.chip.dev.cfg.confirm = none)) ∧
    (∃ s : State, ∃ k : LaneId, ∃ v, (s.chip.dev.cfg.confirm = some v) ∧ ((s.chip.lane k).work.confirming = true) ∧ ((∃ j, j ≠ k ∧ s.chip.inAuth j = true ∧ (s.chip.lane j).work.confirming = true))) ∧
    (∃ s : State, ∃ k : LaneId, ∃ v, ∃ p, ∃ j, (s.chip.dev.cfg.confirm = some v) ∧ ((s.chip.lane k).work.confirming = true) ∧ ((∀ i, i ≠ k → (s.chip.lane i).work.confirming = false)) ∧ (s.chip.dev.pend = [p]) ∧ (p.opcode = 0x3113) ∧ (p.link = some j) ∧ (p.suppress = false)) :=
  ⟨⟨(getS 0), (getR 12), by decide +kernel⟩,
   ⟨(getS 0), (getR 13), by decide +kernel⟩,
   ⟨(getS 0), (getR 14), .a, by decide +kernel⟩,
   ⟨(getS 0), .a, by decide +kernel⟩,
   ⟨(getS 4), .a, true, ((0, g0)), by decide +kernel⟩,
   ⟨(getS 5), .a, false, ((0, g0)), ({ opcode := 0x3111, link := some .b }), .b, by decide +kernel⟩,
   ⟨(getS 0), (getR 16), by decide +kernel⟩,
   ⟨(getS 0), by decide +kernel⟩,
   ⟨(getS 6), .a, 2, by decide +kernel, by decide +kernel, ⟨.b, by decide +kernel⟩⟩,
   ⟨(getS 8), .a, 2, ({ opcode := 0x3113, link := some .c }), .c, by decide +kernel, by decide +kernel, by intro k; cases k <;> decide +kernel, by decide +kernel, by decide +kernel, by decide +kernel, by decide +kernel⟩⟩

/-- Every premise of conjunct 2 of StoresConfirmationsAndFirmware is met. -/
theorem witness_StoresConfirmationsAndFirmware_2 :
    (∃ s : State, ∃ r : Req, (s.admits attrFwWrite r = true) ∧ (blockFails r.body 1572864 = []) ∧ (s.chip.dev.cfg.busy = false)) ∧
    (∃ s : State, ∃ r : Req, (s.admits attrFwActivate r = true) ∧ (r.body = []) ∧ (s.chip.dev.cls = some 0) ∧ (s.chip.dev.actuation = false) ∧ (s.chip.dev.standdown = none) ∧ (s.chip.dev.cfg.fwActivating = false)) ∧
    (∃ s : State, (s.chip.dev.cfg.fwActivating = false)) ∧
    (∃ s : State, ∃ p, ∃ k, (s.chip.dev.cfg.fwActivating = true) ∧ (s.chip.dev.pend = [p]) ∧ (p.opcode = 0x3115) ∧ (p.link = some k) ∧ (p.suppress = false)) :=
  ⟨⟨(getS 0), (getR 12), by decide +kernel⟩,
   ⟨(getS 0), (getR 1), by decide +kernel⟩,
   ⟨(getS 0), by decide +kernel⟩,
   ⟨(getS 1), ({ opcode := 12565, link := some (.b), tag := 0x00#8, session := 0, mask := 0x00#8, seq := 0, suppress := false, lanes := 0x00#8, results := { a := none, b := none, c := none }, arg := 0, arg2 := 0, at_ := 0 }), .b, by decide +kernel⟩⟩

end Sys2Proof.Tests.Cfg

namespace Sys2Proof.Tests.Snow
open Sys2Proof Sys2Proof.Machine Sys2Proof.Tests
def sn (f : Snow → Snow) (ws : List (Nat × Int) := []) : State := (full.withPintle (fun p => { p with holder := some .a, accepted := true, voted := ⟨0x82, 0x41, 0⟩, lanes := p.lanes.map (fun x => { x with presents := true }) })).withWs ws |>.withDev (fun d => { d with snow := f d.snow, motors := modNth d.motors 1 (fun m => { m with torque := 9, enabled := true }), so := Tri.all 5 })
def kp (p : PInfo) (i : Nat) (v : Int) : Nat × Int := (parKey p.id i, v)
def states : List State := [full, sn id, sn (fun w => { w with step := 4 }), sn (fun w => { w with step := 4, standstill := true, parked := true }), (sn (fun w => { w with step := 4, standstill := true, parked := true })).withPintle (fun p => { p with holding := true }), (sn (fun w => { w with step := 4 })).withDev (fun d => { d with authority := 1, aset := 1 }),
  sn (fun w => { w with slow := true, standstill := false, parked := false }), sn (fun w => { w with step := 2, v := 900, v0 := 1000, vValid := true, t := 400000, pend := some 4 }), sn (fun w => { w with step := 3 }), sn (fun w => { w with step := 0, v := 4000 }) [kp Par.sioSoFunc 0 2, kp Par.cmtTorqueSrc 1 255, kp Par.snpDecelFull 0 500], full.withDev (fun d => { d with snow := {} }),
  (sn (fun w => { w with step := 4, standstill := true, parked := true })).withDev (fun d => { d with sn := 7, agreed := synced.chip.dev.agreed })]
def poolS : List (State) := states
def getS (k : Nat) : State := poolS.getD k up
def poolC : List (Chip) := states.map (·.chip)
def getC (k : Nat) : Chip := poolC.getD k full.chip
def poolR : List (Req) := [op [], keyed []]
def getR (k : Nat) : Req := poolR.getD k (op [])

/-- Every premise of StopOperationsAndTimers is met. -/
theorem witness_StopOperationsAndTimers :
    (∃ s : State, ∃ r : Req, (s.admits attrStopRequest r = true) ∧ (r.body = [])) ∧
    (∃ s : State, ∃ r : Req, let c := s.chip; (s.admits attrHoldRelease r = true) ∧ (r.body = []) ∧ (c.isParked = true) ∧ (c.classNow ≤ 1) ∧ (c.parN Par.laneStartMin ≤ c.authLanes.length) ∧ (c.causePresent = false) ∧ (c.pintle.holding = false) ∧ (c.dev.snow.step = 4)) ∧
    (∃ s : State, ∃ r : Req, ∃ k, let c := s.chip; (s.admits attrHoldRelease r = true) ∧ (r.body = []) ∧ (r.link = some k) ∧ (c.isParked = false)) ∧
    (∃ s : State, ∃ r : Req, ∃ k, let c := s.chip; (s.admits attrHoldRelease r = true) ∧ (r.body = []) ∧ (r.link = some k) ∧ (c.isParked = true) ∧ ((2 ≤ c.classNow ∨ c.pintle.holding = true ∨ c.causePresent = true))) ∧
    (∃ s : State, ∃ r : Req, let c := s.chip; (s.admits attrDeadboltRelease r = true) ∧ (r.body = []) ∧ (c.dev.snow.step = 4) ∧ (c.pintle.anyClaim = true) ∧ (c.isParked = true) ∧ (c.pintle.holding = true)) ∧
    (∃ s : State, ∃ r : Req, ∃ k, let c := s.chip; (s.admits attrDeadboltRelease r = true) ∧ (r.body = []) ∧ (r.link = some k) ∧ (c.dev.snow.step ≠ 4)) :=
  ⟨⟨(getS 0), (getR 0), by decide +kernel⟩,
   ⟨(getS 2), (getR 1), by decide +kernel⟩,
   ⟨(getS 6), (getR 1), .a, by decide +kernel⟩,
   ⟨(getS 4), (getR 1), .a, by decide +kernel⟩,
   ⟨(getS 4), (getR 1), by decide +kernel⟩,
   ⟨(getS 0), (getR 1), .a, by decide +kernel⟩⟩

/-- Every premise of StopSequenceStartsAndStays is met. -/
theorem witness_StopSequenceStartsAndStays :
    (∃ c : Chip, ∃ k, (k < 4) ∧ (c.parN Par.cmtTorqueSrc k = 0xFF) ∧ (k < c.dev.motors.length)) ∧
    (∃ c : Chip, ∃ n, (n ∈ c.funcOuts 2)) ∧
    (∃ c : Chip, (c.dev.snow.step ≠ 0)) ∧
    (∃ c : Chip, (0 ≤ c.par Par.snpDecelFull)) :=
  ⟨⟨(getC 0), 0, by decide +kernel⟩,
   ⟨(getC 9), 0, by decide +kernel⟩,
   ⟨(getC 2), by decide +kernel⟩,
   ⟨(getC 0), by decide +kernel⟩⟩

end Sys2Proof.Tests.Snow

namespace Sys2Proof.Tests.Status
open Sys2Proof Sys2Proof.Machine Sys2Proof.Tests
def states : List State := [full, full.withLane .a (fun n => { n with net := { n.net with host := [{ node := 3, chan := 1, fseq := 7, data := List.replicate 32 4 }] } }), full.withDev (fun d => { d with authority := 1, aset := 1 })]
def poolS : List (State) := states
def getS (k : Nat) : State := poolS.getD k up
def poolR : List (Req) := [op [], op [] 7, op [] 5]
def getR (k : Nat) : Req := poolR.getD k (op [])

/-- Every premise of StatusReadsAnswer is met. -/
theorem witness_StatusReadsAnswer :
    (∃ s : State, ∃ r : Req, ∃ k : LaneId, ∃ b : Block, (r.link = some k) ∧ (r.session = 0) ∧ (hasBit r.flags 0 = false) ∧ (r.body = []) ∧ (s.admits (attrStatusRead b) r = true) ∧ (Block.laidOut b = true)) ∧
    (∃ s : State, ∃ r : Req, ∃ k : LaneId, ∃ b : Block, (r.link = some k) ∧ (r.session = 0) ∧ (hasBit r.flags 0 = false) ∧ (r.body = []) ∧ (s.admits (attrStatusRead b) r = true) ∧ (Block.laidOut b = false)) ∧
    (∃ s : State, ∃ r : Req, ∃ k : LaneId, (r.link = some k) ∧ (r.session = 0) ∧ (hasBit r.flags 0 = false) ∧ (r.body = []) ∧ (s.admits attrTimingRead r = true)) ∧
    (∃ s : State, ∃ r : Req, ∃ k : LaneId, (r.link = some k) ∧ (r.session = 0) ∧ (hasBit r.flags 0 = false) ∧ (r.body = []) ∧ (s.admits attrSignatureRead r = true)) ∧
    (∃ s : State, ∃ r : Req, ∃ k : LaneId, (r.link = some k) ∧ (r.session = 0) ∧ (hasBit r.flags 0 = false) ∧ (r.body = []) ∧ (s.admits attrThmRead r = true)) :=
  ⟨⟨(getS 0), (getR 0), .a, (Sys2Proof.Block.flt), by decide +kernel⟩,
   ⟨(getS 0), (getR 0), .a, (Sys2Proof.Block.sys), by decide +kernel⟩,
   ⟨(getS 0), (getR 0), .a, by decide +kernel⟩,
   ⟨(getS 0), (getR 0), .a, by decide +kernel⟩,
   ⟨(getS 0), (getR 0), .a, by decide +kernel⟩⟩

/-- Every premise of BandsAndFactors is met. -/
theorem witness_BandsAndFactors :
    (∃ x : Int, (1 ≤ bandOf x)) ∧
    (∃ x : Int, ∃ b, (bandOf x < b) ∧ (b ≤ 5)) ∧
    (∃ hyst : Int, ∃ now : Nat, ∃ x : Int, (now ≤ 5) ∧ (0 ≤ hyst) ∧ (now ≤ bandOf x)) ∧
    (∃ hyst : Int, ∃ now : Nat, ∃ x : Int, (now ≤ 5) ∧ (0 ≤ hyst) ∧ (bandOf x < now)) ∧
    (∃ lowest : Int, ∃ start : Int, ∃ stop : Int, ∃ x : Int, (0 ≤ lowest) ∧ (lowest ≤ 100) ∧ (start < stop) ∧ (x < start)) ∧
    (∃ lowest : Int, ∃ start : Int, ∃ stop : Int, ∃ x : Int, (0 ≤ lowest) ∧ (lowest ≤ 100) ∧ (start < stop) ∧ (stop ≤ x)) ∧
    (∃ lowest : Int, ∃ start : Int, ∃ stop : Int, (0 ≤ lowest) ∧ (lowest ≤ 100) ∧ (start < stop)) ∧
    (∃ tol : Int, ∃ x : Int, ∃ y : Int, ∃ z : Int, (Sys2Proof.Machine.dist y z ≤ 10 * tol) ∧ (10 * tol < Sys2Proof.Machine.dist x y) ∧ (10 * tol < Sys2Proof.Machine.dist x z)) ∧
    (∃ x : Int, ((x < -550 ∨ 1750 < x))) :=
  ⟨⟨(-200), by decide +kernel⟩,
   ⟨(-560), 1, by decide +kernel⟩,
   ⟨0, 0, (-560), by decide +kernel⟩,
   ⟨0, 1, (-560), by decide +kernel⟩,
   ⟨0, (-550), (-200), (-560), by decide +kernel⟩,
   ⟨0, (-560), (-550), (-550), by decide +kernel⟩,
   ⟨0, (-560), (-550), by decide +kernel⟩,
   ⟨0, (-560), (-550), (-550), by decide +kernel⟩,
   ⟨(-560), by decide +kernel⟩⟩

end Sys2Proof.Tests.Status

namespace Sys2Proof.Tests.Round
open Sys2Proof Sys2Proof.Machine Sys2Proof.Tests
abbrev sendsP (s : State) (l : LaneId) (i : Instr) (f : Lane → Lane) : Prop := ∃ t, exec i s = .next t ∧ t.mem = s.mem ∧ { t.chip with links := s.chip.links } = (s.onChip (fun c => c.modLane l f)).chip
abbrev heardP (s : State) (l k : LaneId) (f : Lane → Lane) (i : Instr) : Prop := exec i s = .next (s.onChip (fun c => c.modLane l (fun n => f { n with
      silent := setLaneBit n.silent k false })))
def si : SampleIn := { adc := [1, 2], vbr := 24000, temps := [300, 300, 300, 250, 250] }
def g0 := full.chip.dev.cfg.image
def rnd (d : Dev → Dev) (f : LaneId → Round → Round) : State :=
  full.onChip (fun c => { c with dev := d { c.dev with sampled := 7 }, lanes := c.lanes.mapIdx (fun l n => { n with round := f l { sampled := true } }) })
def sA : State := rnd (fun d => { d with sampled := 1 }) (fun l r => { r with sampled := decide (l = .a) })
def sAll : State := rnd id (fun _ r => r)
def sentB : State := rnd id (fun l r => { r with sent := decide (l = .c) })
def found : State := rnd id (fun _ r => { r with sent := true, aset := some 7 })
def agr : State := rnd (fun d => { d with computed := true }) (fun l r => { r with sent := true, aset := some 7, agreed := decide (l ≠ .c) })
def folded : State := rnd (fun d => { d with computed := true, decided := true }) (fun _ r => { r with sent := true, aset := some 7, agreed := true, record := some {} })
def quadsOfMirror : List Byte := List.replicate 1344 7
def behindBy (delta : Nat) : State := rnd (fun d => { d with computed := true, decided := true, passed := 6, mirror := quadsOfMirror, delta := delta }) (fun l r => { r with agreed := true, voted := true, absent := decide (l = .a), passed := decide (l ≠ .a) })
def gone : State := rnd (fun d => { d with computed := true, decided := true, passed := 5, launched := true, mirror := quadsOfMirror }) (fun l r => { r with agreed := true, voted := true, passed := decide (l ≠ .b) })
def catching : State := sAll.withLane .a (fun n => { n with chk := { n.chk with resync := 1, resyncAge := 10000 } })
def away : State := rnd (fun d => { d with computed := true, decided := true, passed := 5, launched := true }) (fun _ r => { r with agreed := true, voted := true, passed := true })
def items (p : List RxPacket) (a : List Arriving) : State :=
  (full.onChip (fun c => { c with bridges := c.bridges.set .b { c.bridges.b with rx := p } })).withLane .b (fun n => { n with arriving := a })
def states0 : List State := [up, full, sA, sAll, sentB, found, agr, folded, behindBy 5, behindBy 129, gone, catching, away,
  (behindBy 5).withLane .a (fun n => { n with chk := { n.chk with resync := 1, owed := 2 } }),
  sAll.withDev (fun d => { d with exempt := true }), sAll.withLane .a (fun n => { n with chk := { n.chk with resync := 1, snapshot := true } }),
  (sAll.withDev (fun d => { d with authority := 1 })).withLane .a (fun n => { n with chk := { n.chk with resync := 1 } }),
  full.withDev (fun d => { d with cfg := { d.cfg with wsNext := some g0 } }), full.withLane .a (fun n => { n with keyNoted := [3] }),
  rnd (fun d => { d with computed := true }) (fun _ r => { r with sent := true, aset := some 7, agreed := true }),
  rnd (fun d => { d with computed := true }) (fun _ r => { r with sent := true, aset := some 7, agreed := true, mask := some 5 }),
  items [{ ord := 4 }] [], items [{ ord := 4, streamed := 4 }, { ord := 5 }] [{ item := .arb 0 1 2 0 [], ord := 7 }], items [] [{ item := .arb 0 1 2 0 [] }], items [{ ord := 4 }] [{ item := .arb 0 1 2 0 [], streamed := 4 }],
  sAll.withLane .a (fun n => { n with chk := { n.chk with misses := 2 } }), full.withDev (fun d => { d with formed := false }),
  full.withDev (fun d => { d with launches := [{ out := 3 }, { out := 3, count := 7 }], cfg := { d.cfg with shadow := [(0x1309 * 256, 4)] } }), full.withPend { opcode := 0x0012 },
  rnd (fun d => { d with computed := true, decided := true }) (fun _ r => { r with sent := true, aset := some 7, agreed := true, absent := true }),
  rnd (fun d => { d with computed := true, decided := true, launched := true }) (fun _ r => { r with agreed := true, voted := true }),
  rnd (fun d => { d with computed := true, decided := true, launched := true }) (fun _ r => { r with agreed := true, voted := true, launched := true }),
  full.withDev (fun d => { d with authority := 3, aset := 3 })]
def poolS : List (State) := states0
def getS (k : Nat) : State := poolS.getD k up
def poolC : List (Chip) := [full.chip, (full.withLane .c (fun n => { n with chk := { n.chk with lastDiv := some 0, coreDiv := some 0 } })).chip, (full.withDev (fun d => { d with pairDivs := [(3, 0), (6, 0)] })).chip, (full.withDev (fun d => { d with pairDivs := [(3, 0)], matrix := 1000000 })).chip,  (full.withDev (fun d => { d with joined := 2 })).chip]
def getC (k : Nat) : Chip := poolC.getD k full.chip
def poolB : List (List Byte) := [[], maskQuad .a 5, maskQuad .b 5 ++ [0], mirrorBytes 0 1000 quadsOfMirror, mirrorBytes 0 1000 (List.replicate 1344 1), quadsOfMirror, List.replicate 1344 1]
def getB (k : Nat) : List Byte := poolB.getD k []

/-- Every premise of RoundUpToTheAgreementSet is met. -/
theorem witness_RoundUpToTheAgreementSet :
    (∃ s : State, ∃ l : LaneId, ∃ k : LaneId, let c := s.chip; (l ≠ k) ∧ (c.canSample l = false)) ∧
    (∃ s : State, ∃ l : LaneId, ∃ k : LaneId, let c := s.chip; (l ≠ k) ∧ (c.canSample l = true) ∧ (hasLane c.dev.sampled l = false) ∧ ((c.lane l).chk.resyncPend = false) ∧ (c.dev.sampled ≠ 0)) ∧
    (∃ s : State, ∃ l : LaneId, ∃ k : LaneId, let c := s.chip; (l ≠ k) ∧ ((c.inRound l = false ∨ c.inRound k = false))) ∧
    (∃ s : State, ∃ l : LaneId, ∃ k : LaneId, let c := s.chip; (l ≠ k) ∧ (c.inRound l = true) ∧ (c.inRound k = true)) ∧
    (∃ s : State, ∃ l : LaneId, ∃ k : LaneId, ∃ j, let c := s.chip; let r := (c.lane l).round; (l ≠ k) ∧ (c.sampledIn l = true) ∧ (c.sampledIn k = true) ∧ (r.sent = false) ∧ (j ≠ l) ∧ (j ≠ k) ∧ (c.inRound j = true) ∧ ((r.held.get j) = none)) ∧
    (∃ s : State, ∃ l : LaneId, ∃ k : LaneId, let c := s.chip; let r := (c.lane l).round; (l ≠ k) ∧ ((c.sampledIn l = false ∨ r.sent = true))) ∧
    (∃ s : State, ∃ l : LaneId, ∃ k : LaneId, let c := s.chip; let r := (c.lane l).round; (l ≠ k) ∧ (c.sampledIn l = true) ∧ (c.sampledIn k = true) ∧ (r.aset = none)) ∧
    (∃ s : State, ∃ l : LaneId, ∃ k : LaneId, let c := s.chip; let r := (c.lane l).round; (l ≠ k) ∧ (c.sampledIn l = true) ∧ (c.sampledIn k = true) ∧ (r.aset = none) ∧ ((c.lane k).round.sent = true)) ∧
    (∃ s : State, ∃ l : LaneId, ∃ k : LaneId, let c := s.chip; let r := (c.lane l).round; (l ≠ k) ∧ (c.sampledIn l = true) ∧ (r.aset = none) ∧ ((∀ j, c.silenceOf j = none))) ∧
    (∃ s : State, ∃ l : LaneId, ∃ k : LaneId, let c := s.chip; (l ≠ k) ∧ (c.sampledIn l = false)) ∧
    (∃ s : State, ∃ l : LaneId, ∃ k : LaneId, let c := s.chip; let r := (c.lane l).round; (l ≠ k) ∧ (c.sampledIn l = true) ∧ (r.agreed = false) ∧ (r.absent = false)) :=
  ⟨⟨(getS 16), .b, .a, by decide +kernel⟩,
   ⟨(getS 2), .b, .a, by decide +kernel⟩,
   ⟨(full.withDev (fun d => { d with authority := 3, aset := 3 })), .a, .c, by decide +kernel⟩,
   ⟨(getS 0), .a, .b, by decide +kernel⟩,
   ⟨(getS 3), .a, .b, .c, by decide +kernel⟩,
   ⟨(getS 0), .a, .b, by decide +kernel⟩,
   ⟨(getS 3), .a, .b, by decide +kernel⟩,
   ⟨(getS 4), .a, .c, by decide +kernel⟩,
   ⟨(getS 2), .a, .b, by decide +kernel, by decide +kernel, by decide +kernel, by intro k; cases k <;> decide +kernel⟩,
   ⟨(getS 0), .a, .b, by decide +kernel⟩,
   ⟨(getS 2), .a, .b, by decide +kernel⟩⟩

/-- Every premise of AgreementRunsThePeriodOnce is met. -/
theorem witness_AgreementRunsThePeriodOnce :
    (∃ s : State, ∃ l : LaneId, let r := (s.chip.lane l).round; ((s.chip.sampledIn l = false ∨ r.agreed = true ∨ r.absent = true ∨ r.aset = none))) ∧
    (∃ s : State, ∃ l : LaneId, let r := (s.chip.lane l).round; (s.chip.sampledIn l = true) ∧ (r.agreed = false) ∧ (r.absent = false) ∧ (r.aset ≠ none) ∧ ((s.chip.dev.computed = true ∨ s.chip.computes l = false ∨ hasLane s.chip.dev.aset l = false))) ∧
    (∃ s : State, ∃ l : LaneId, let r := (s.chip.lane l).round; (s.chip.sampledIn l = true) ∧ (r.agreed = false) ∧ (r.absent = false) ∧ (r.aset ≠ none) ∧ (s.chip.dev.computed = false) ∧ (s.chip.computes l = true) ∧ (hasLane s.chip.dev.aset l = true)) :=
  ⟨⟨(getS 0), .a, by decide +kernel⟩,
   ⟨(getS 6), .c, by decide +kernel⟩,
   ⟨(getS 5), .a, by decide +kernel⟩⟩

/-- Every premise of CheckpointQuadsAndDeadlines is met. -/
theorem witness_CheckpointQuadsAndDeadlines :
    (∃ s : State, ∃ l : LaneId, ∃ k : LaneId, let c := s.chip; (l ≠ k) ∧ (c.computing l = false)) ∧
    (∃ s : State, ∃ l : LaneId, ∃ k : LaneId, let c := s.chip; let r := (c.lane l).round; (l ≠ k) ∧ (c.computing l = true) ∧ (r.mask = none) ∧ (hasLane c.dev.aset k = true) ∧ (c.resyncing k = false) ∧ (r.masks.get k = none)) ∧
    (∃ s : State, ∃ l : LaneId, ∃ k : LaneId, let c := s.chip; let r := (c.lane l).round; (l ≠ k) ∧ (c.computing l = true) ∧ (r.mask ≠ none)) ∧
    (∃ s : State, ∃ l : LaneId, ∃ k : LaneId, let c := s.chip; let r := (c.lane l).round; (l ≠ k) ∧ (c.computing l = true) ∧ (r.record ≠ none) ∧ (c.dev.decided = true)) ∧
    (∃ s : State, ∃ l : LaneId, ∃ k : LaneId, let c := s.chip; (l ≠ k) ∧ (c.computing l = true) ∧ (c.dev.decided = false)) ∧
    (∃ s : State, ∃ l : LaneId, ∃ k : LaneId, ∃ b, let c := s.chip; (l ≠ k) ∧ (c.sampledIn l = true) ∧ (c.sampledIn k = true) ∧ (maskOfQuad k b = none)) ∧
    (∃ s : State, ∃ l : LaneId, ∃ k : LaneId, let c := s.chip; let r := (c.lane l).round; (l ≠ k) ∧ (c.sampledIn l = true) ∧ (c.sampledIn k = true) ∧ (r.mask = none)) ∧
    (∃ s : State, ∃ l : LaneId, ∃ k : LaneId, ∃ q : SigRec, let c := s.chip; let r := (c.lane l).round; (l ≠ k) ∧ (c.sampledIn l = true) ∧ (c.sampledIn k = true) ∧ (r.voted = false) ∧ (c.dev.decided = false) ∧ (q.lane < 256) ∧ (0 < q.kind) ∧ (q.kind < 256) ∧ (q.quads < 65536) ∧ (q.count < 2 ^ 32) ∧ (q.sigLo < 2 ^ 64) ∧ (q.sigHi < 2 ^ 64) ∧ ((q.kind ≠ 1 → q.sigLo = 0 ∧ q.sigHi = 0))) ∧
    (∃ s : State, ∃ l : LaneId, ∃ k : LaneId, let c := s.chip; let r := (c.lane l).round; (l ≠ k) ∧ ((c.sampledIn l = false ∨ r.voted = true ∨ r.absent = true ∨ c.resyncing l = true))) ∧
    (∃ s : State, ∃ l : LaneId, ∃ k : LaneId, let c := s.chip; let r := (c.lane l).round; (l ≠ k) ∧ (c.sampledIn l = true) ∧ (r.voted = false) ∧ (r.absent = false) ∧ (c.resyncing l = false) ∧ (c.dev.exempt = true)) ∧
    (∃ s : State, ∃ l : LaneId, ∃ k : LaneId, let c := s.chip; let r := (c.lane l).round; (l ≠ k) ∧ (c.sampledIn l = true) ∧ (r.voted = false) ∧ (r.absent = false) ∧ (c.resyncing l = false) ∧ (c.dev.exempt = false)) ∧
    (∃ s : State, ∃ l : LaneId, ∃ k : LaneId, ∃ b, ∃ got, let c := s.chip; let r := (c.lane l).round; let src := c.mirrorSource c.dev.passed; let data := c.dev.mirror; (l ≠ k) ∧ (c.sampledIn l = true) ∧ (r.mirrored = false) ∧ (c.dev.passed ≠ 0) ∧ (src ≠ some l) ∧ (r.passed = true) ∧ (mirrorOf b = some got) ∧ (got = data) ∧ (fld b 4 4 = c.dev.count % 2 ^ 32)) ∧
    (∃ s : State, ∃ l : LaneId, ∃ k : LaneId, ∃ b, ∃ got, let c := s.chip; let r := (c.lane l).round; let src := c.mirrorSource c.dev.passed; let data := c.dev.mirror; (l ≠ k) ∧ (c.sampledIn l = true) ∧ (r.mirrored = false) ∧ (c.dev.passed ≠ 0) ∧ (src ≠ some l) ∧ (r.passed = true) ∧ (mirrorOf b = some got) ∧ (got ≠ data)) ∧
    (∃ s : State, ∃ l : LaneId, ∃ k : LaneId, let c := s.chip; let r := (c.lane l).round; let src := c.mirrorSource c.dev.passed; let data := c.dev.mirror; (l ≠ k) ∧ (c.sampledIn l = true) ∧ (r.mirrored = false) ∧ (c.dev.passed ≠ 0) ∧ (src ≠ some l) ∧ (r.passed = false) ∧ (data.length = 1344) ∧ (c.resyncing l = true)) ∧
    (∃ s : State, ∃ l : LaneId, ∃ k : LaneId, let c := s.chip; let r := (c.lane l).round; let src := c.mirrorSource c.dev.passed; let data := c.dev.mirror; (l ≠ k) ∧ (c.sampledIn l = true) ∧ (r.mirrored = false) ∧ (c.dev.passed ≠ 0) ∧ (src ≠ some l) ∧ (r.passed = false) ∧ (data.length = 1344) ∧ (c.resyncing l = false) ∧ (r.absent = true) ∧ (c.dev.delta ≤ 128)) ∧
    (∃ s : State, ∃ l : LaneId, ∃ k : LaneId, let c := s.chip; let r := (c.lane l).round; let src := c.mirrorSource c.dev.passed; let data := c.dev.mirror; (l ≠ k) ∧ (c.sampledIn l = true) ∧ (r.mirrored = false) ∧ (c.dev.passed ≠ 0) ∧ (src ≠ some l) ∧ (r.passed = false) ∧ (data.length = 1344) ∧ (c.resyncing l = false) ∧ (r.absent = true) ∧ (128 < c.dev.delta)) ∧
    (∃ s : State, ∃ l : LaneId, ∃ k : LaneId, let c := s.chip; let r := (c.lane l).round; (l ≠ k) ∧ (r.absent = false)) ∧
    (∃ s : State, ∃ l : LaneId, ∃ k : LaneId, let c := s.chip; let r := (c.lane l).round; (l ≠ k) ∧ (c.sampledIn l = true) ∧ (r.absent = true) ∧ (r.mirrored = false) ∧ (c.resyncing l = false) ∧ (c.dev.passed ≠ 0)) ∧
    (∃ s : State, ∃ l : LaneId, ∃ k : LaneId, let c := s.chip; (l ≠ k) ∧ ((c.resyncing l = false ∨ c.inRound l = false))) ∧
    (∃ s : State, ∃ l : LaneId, ∃ k : LaneId, let c := s.chip; (l ≠ k) ∧ (c.resyncing l = true) ∧ (c.inRound l = true)) ∧
    (∃ s : State, ∃ l : LaneId, ∃ k : LaneId, let c := s.chip; (l ≠ k) ∧ ((c.lane l).chk.resyncPend = false) ∧ ((c.lane l).chk.resync = 1)) ∧
    (∃ s : State, ∃ l : LaneId, ∃ k : LaneId, let c := s.chip; (l ≠ k) ∧ ((c.lane l).chk.resync = 0)) ∧
    (∃ s : State, ∃ l : LaneId, ∃ k : LaneId, let c := s.chip; (l ≠ k) ∧ ((c.lane l).chk.resync ≠ 0) ∧ (c.parN Par.chkResyncLimit ≤ (c.lane l).chk.resyncAge)) :=
  ⟨⟨(getS 0), .a, .b, by decide +kernel⟩,
   ⟨(getS 6), .a, .b, by decide +kernel⟩,
   ⟨(getS 20), .a, .b, by decide +kernel⟩,
   ⟨(getS 7), .a, .b, by decide +kernel⟩,
   ⟨(getS 6), .a, .b, by decide +kernel⟩,
   ⟨(getS 3), .a, .b, (getB 0), by decide +kernel⟩,
   ⟨(getS 3), .a, .b, by decide +kernel⟩,
   ⟨(getS 3), .a, .b, ({ lane := 0, kind := 1, quads := 0, count := 0, sigLo := 4, sigHi := 0 }), by decide +kernel⟩,
   ⟨(getS 0), .a, .b, by decide +kernel⟩,
   ⟨(getS 14), .a, .b, by decide +kernel⟩,
   ⟨(getS 2), .a, .b, by decide +kernel⟩,
   ⟨gone, .c, .a, mirrorBytes 0 1000 quadsOfMirror, quadsOfMirror, by decide, by decide +kernel, by decide +kernel, by decide +kernel,
    by decide +kernel, by decide +kernel, mirrorOf_mirrorBytes _ _ _ (by decide +kernel), rfl, by decide +kernel⟩,
   ⟨gone, .c, .a, mirrorBytes 0 1000 (List.replicate 1344 1), List.replicate 1344 1, by decide, by decide +kernel, by decide +kernel, by decide +kernel,
    by decide +kernel, by decide +kernel, mirrorOf_mirrorBytes _ _ _ (by decide +kernel), by decide +kernel⟩,
   ⟨(getS 13), .a, .b, by decide +kernel⟩,
   ⟨(getS 8), .a, .b, by decide +kernel⟩,
   ⟨(getS 9), .a, .b, by decide +kernel⟩,
   ⟨(getS 0), .a, .b, by decide +kernel⟩,
   ⟨(getS 8), .a, .b, by decide +kernel⟩,
   ⟨(getS 0), .a, .b, by decide +kernel⟩,
   ⟨(getS 11), .a, .b, by decide +kernel⟩,
   ⟨(getS 11), .a, .b, by decide +kernel⟩,
   ⟨(getS 0), .a, .b, by decide +kernel⟩,
   ⟨(getS 11), .a, .b, by decide +kernel⟩⟩

/-- Every premise of VotesAndDivergences is met. -/
theorem witness_VotesAndDivergences :
    (∃ p : SigRec, ∃ q : SigRec, ∃ r : SigRec, ∃ a : SigRec, (p.kind = 1) ∧ (q.kind = 1) ∧ (r.kind = 1) ∧ (a.kind ≠ 1)) ∧
    (∃ c : Chip, ∃ z : LaneId, ∃ p : SigRec, ∃ q : SigRec, ∃ r : SigRec, (p.kind = 1) ∧ (q.kind = 1) ∧ (r.kind = 1) ∧ (c.inDivWindow (c.lane z).chk.lastDiv = false)) ∧
    (∃ c : Chip, ∃ z : LaneId, ∃ p : SigRec, ∃ q : SigRec, ∃ r : SigRec, (p.kind = 1) ∧ (q.kind = 1) ∧ (r.kind = 1) ∧ (c.inDivWindow (c.lane z).chk.lastDiv = true)) ∧
    (∃ c : Chip, ∃ x : LaneId, ∃ y : LaneId, ∃ p : SigRec, ∃ q : SigRec, ∃ r : SigRec, let m := (maskOf [x, y]).toNat; (p.kind = 1) ∧ (q.kind = 1) ∧ (r.kind = 1) ∧ (c.higher x y = true) ∧ (c.inDivWindow (c.pairDiv m) = false)) ∧
    (∃ c : Chip, ∃ x : LaneId, ∃ y : LaneId, ∃ p : SigRec, ∃ q : SigRec, ∃ r : SigRec, let m := (maskOf [x, y]).toNat; (p.kind = 1) ∧ (q.kind = 1) ∧ (r.kind = 1) ∧ (c.higher x y = true) ∧ (c.inDivWindow (c.pairDiv m) = true)) ∧
    (∃ c : Chip, ∃ x : LaneId, ∃ p : SigRec, ∃ q : SigRec, ∃ r : SigRec, (p.kind = 1) ∧ (q.kind = 1) ∧ (r.kind = 1) ∧ (c.inDivWindow (c.lane x).chk.coreDiv = false)) ∧
    (∃ c : Chip, ∃ x : LaneId, ∃ p : SigRec, ∃ q : SigRec, ∃ r : SigRec, (p.kind = 1) ∧ (q.kind = 1) ∧ (r.kind = 1) ∧ (c.inDivWindow (c.lane x).chk.coreDiv = true)) :=
  ⟨⟨({ lane := 0, kind := 1, quads := 0, count := 0, sigLo := 4, sigHi := 0 }), ({ lane := 0, kind := 1, quads := 0, count := 0, sigLo := 4, sigHi := 0 }), ({ lane := 0, kind := 1, quads := 0, count := 0, sigLo := 4, sigHi := 0 }), ({ lane := 0, kind := 2, quads := 0, count := 0, sigLo := 0, sigHi := 0 }), by decide +kernel⟩,
   ⟨(getC 0), .a, ({ lane := 0, kind := 1, quads := 0, count := 0, sigLo := 4, sigHi := 0 }), ({ lane := 0, kind := 1, quads := 0, count := 0, sigLo := 4, sigHi := 0 }), ({ lane := 0, kind := 1, quads := 0, count := 0, sigLo := 4, sigHi := 0 }), by decide +kernel⟩,
   ⟨(getC 1), .c, ({ lane := 0, kind := 1, quads := 0, count := 0, sigLo := 4, sigHi := 0 }), ({ lane := 0, kind := 1, quads := 0, count := 0, sigLo := 4, sigHi := 0 }), ({ lane := 0, kind := 1, quads := 0, count := 0, sigLo := 4, sigHi := 0 }), by decide +kernel⟩,
   ⟨(getC 0), .a, .b, ({ lane := 0, kind := 1, quads := 0, count := 0, sigLo := 4, sigHi := 0 }), ({ lane := 0, kind := 1, quads := 0, count := 0, sigLo := 4, sigHi := 0 }), ({ lane := 0, kind := 1, quads := 0, count := 0, sigLo := 4, sigHi := 0 }), by decide +kernel⟩,
   ⟨(getC 2), .a, .b, ({ lane := 0, kind := 1, quads := 0, count := 0, sigLo := 4, sigHi := 0 }), ({ lane := 0, kind := 1, quads := 0, count := 0, sigLo := 4, sigHi := 0 }), ({ lane := 0, kind := 1, quads := 0, count := 0, sigLo := 4, sigHi := 0 }), by decide +kernel⟩,
   ⟨(getC 0), .a, ({ lane := 0, kind := 1, quads := 0, count := 0, sigLo := 4, sigHi := 0 }), ({ lane := 0, kind := 1, quads := 0, count := 0, sigLo := 4, sigHi := 0 }), ({ lane := 0, kind := 1, quads := 0, count := 0, sigLo := 4, sigHi := 0 }), by decide +kernel⟩,
   ⟨(getC 1), .c, ({ lane := 0, kind := 1, quads := 0, count := 0, sigLo := 4, sigHi := 0 }), ({ lane := 0, kind := 1, quads := 0, count := 0, sigLo := 4, sigHi := 0 }), ({ lane := 0, kind := 1, quads := 0, count := 0, sigLo := 4, sigHi := 0 }), by decide +kernel⟩⟩

/-- Every premise of LaunchesAndBoundaries is met. -/
theorem witness_LaunchesAndBoundaries :
    (∃ s : State, ∃ l : LaneId, let c := s.chip; let r := (c.lane l).round; ((c.sampledIn l = false ∨ r.launched = true))) ∧
    (∃ s : State, ∃ l : LaneId, let c := s.chip; let r := (c.lane l).round; (c.sampledIn l = true) ∧ (r.launched = false) ∧ (c.dev.launched = true) ∧ (r.passed = false) ∧ (c.resyncing l = false)) ∧
    (∃ s : State, ∃ l : LaneId, let c := s.chip; let r := (c.lane l).round; (c.sampledIn l = true) ∧ (r.launched = false) ∧ (c.dev.launched = true) ∧ (r.passed = true)) ∧
    (∃ s : State, ∃ l : LaneId, let c := s.chip; let r := (c.lane l).round; (c.sampledIn l = true) ∧ (r.launched = false) ∧ (c.dev.launched = false) ∧ (c.dev.passed = 0) ∧ (c.resyncing l = false) ∧ (r.passed = false)) ∧
    (∃ s : State, ∃ o : Fin 14, let c := s.chip; (c.nextLaunches o.val = [])) ∧
    (∃ s : State, let c := s.chip; (c.dev.formed = false)) ∧
    (∃ s : State, let c := s.chip; (c.dev.formed = true) ∧ (c.dev.cfg.wsNext = none) ∧ ((∀ p ∈ c.dev.pend, p.opcode ≠ 0x0012))) ∧
    (∃ s : State, ∃ g, let c := s.chip; (c.dev.formed = true) ∧ (c.dev.cfg.wsNext = some g) ∧ ((∀ p ∈ c.dev.pend, p.opcode ≠ 0x0012))) ∧
    (∃ s : State, let c := s.chip; (c.dev.formed = true) ∧ ((∃ p ∈ c.dev.pend, p.opcode = 0x0012))) :=
  ⟨⟨(getS 0), .a, by decide +kernel⟩,
   ⟨(getS 10), .b, by decide +kernel⟩,
   ⟨(getS 10), .a, by decide +kernel⟩,
   ⟨(getS 2), .a, by decide +kernel⟩,
   ⟨(getS 0), 0, by decide +kernel⟩,
   ⟨(getS 26), by decide +kernel⟩,
   ⟨(getS 0), by decide +kernel⟩,
   ⟨(getS 17), ({ empty := false, wellFormed := true, seq := 0, crc := 0, check := 5, entries := [(132352, 1), (132353, 1), (132608, 7), (132609, 7), (133120, 1), (133121, 1), (1179904, 1), (1179905, 1), (1179906, 1), (1179907, 1), (1179908, 1), (1179909, 1), (2228992, 7)], sched := [], tab0 := [], tab1 := [], quads := [] }), by decide +kernel⟩,
   ⟨(getS 28), by decide +kernel⟩⟩

end Sys2Proof.Tests.Round
end

/-! ### The status of a packet that fails for several reasons (R73) -/

namespace Sys2Proof.Machine
open Sys2Proof

/-- The model's lowest code is the library's minimum of a list. -/
theorem lowest_eq_min? (xs : List Nat) : lowest xs = xs.min? := by
  induction xs with
  | nil => rfl
  | cons x xs ih =>
    rw [lowest, ih, List.min?_cons]
    cases xs.min? <;> rfl

theorem lowest_eq_some_iff {xs : List Nat} {x : Nat} : lowest xs = some x ↔ x ∈ xs ∧ ∀ y ∈ xs, x ≤ y := by
  rw [lowest_eq_min?, List.min?_eq_some_iff]

theorem exists_lowest_of_ne_nil {xs : List Nat} (h : xs ≠ []) : ∃ x, lowest xs = some x := by
  rw [lowest_eq_min?]
  exact ⟨_, List.min?_eq_some_min h⟩

theorem pickStatus_of_fenced {xs : List Nat} (h : stFenced ∈ xs) : pickStatus xs = some stFenced :=
  if_pos (List.contains_iff_mem.2 h)

theorem pickStatus_of_frozen {xs : List Nat} (hfenced : stFenced ∉ xs) (h : stFrozen ∈ xs) :
    pickStatus xs = some stFrozen := by
  simp [pickStatus, hfenced, h]

theorem pickStatus_of_seqError {xs : List Nat} (hfenced : stFenced ∉ xs) (hfrozen : stFrozen ∉ xs)
    (h : stSeqError ∈ xs) : pickStatus xs = some stSeqError := by
  simp [pickStatus, hfenced, hfrozen, h]

theorem pickStatus_eq_lowest {xs : List Nat} (hfenced : stFenced ∉ xs) (hfrozen : stFrozen ∉ xs)
    (hseq : stSeqError ∉ xs) : pickStatus xs = lowest xs := by
  simp [pickStatus, hfenced, hfrozen, hseq]

/-- Some status is picked from a list that holds one, and it stands in the list: a case for each rank of R73. -/
theorem exists_mem_pickStatus_of_ne_nil {xs : List Nat} (h : xs ≠ []) : ∃ x ∈ xs, pickStatus xs = some x := by
  by_cases hfenced : stFenced ∈ xs
  · exact ⟨_, hfenced, pickStatus_of_fenced hfenced⟩
  by_cases hfrozen : stFrozen ∈ xs
  · exact ⟨_, hfrozen, pickStatus_of_frozen hfenced hfrozen⟩
  by_cases hseq : stSeqError ∈ xs
  · exact ⟨_, hseq, pickStatus_of_seqError hfenced hfrozen hseq⟩
  · obtain ⟨x, hx⟩ := exists_lowest_of_ne_nil h
    exact ⟨x, (lowest_eq_some_iff.1 hx).1, (pickStatus_eq_lowest hfenced hfrozen hseq).trans hx⟩

/-- Settles O9: one lemma per rank of R73, and the minimum of the list below them. -/
theorem statusPriority : Obligations.StatusPriority := by
  intro xs
  refine ⟨?_, exists_mem_pickStatus_of_ne_nil, pickStatus_of_fenced, pickStatus_of_frozen, pickStatus_of_seqError, ?_⟩
  · rintro rfl
    exact pickStatus_nil
  · intro hfenced hfrozen hseq x hx
    rw [pickStatus_eq_lowest hfenced hfrozen hseq] at hx
    exact (lowest_eq_some_iff.1 hx).2

end Sys2Proof.Machine

/-! ### The checkpoint vote and what it brings about (R150 to R152, R164) -/

namespace Sys2Proof.Machine
open Sys2Proof

section Vote

variable (c : Chip) {rs : List (LaneId × SigRec)} {x y z : LaneId} {p q r : SigRec}

theorem voteOf_of_three (h : rs.filter (fun e => e.2.kind == 1) = [(x, p), (y, q), (z, r)]) :
    c.voteOf rs = if sameSig p q ∧ sameSig q r then .pass [x, y, z] else if sameSig p q then .odd [x, y] z
      else if sameSig p r then .odd [x, z] y else if sameSig q r then .odd [y, z] x else .split := by
  simp only [Chip.voteOf, h, Bool.and_eq_true]

theorem voteOf_of_two (h : rs.filter (fun e => e.2.kind == 1) = [(x, p), (y, q)]) :
    c.voteOf rs = if sameSig p q then .pass [x, y] else .pair x y := by
  simp only [Chip.voteOf, h]

theorem voteOf_of_one (h : rs.filter (fun e => e.2.kind == 1) = [(x, p)]) :
    c.voteOf rs = if hasLane c.dev.joined x then .pass [x] else .split := by
  simp only [Chip.voteOf, h]

/-- A single record that is not of kind 1 comes from disagreeing cores only where its lane is joined and not absent (R150, R164). -/
theorem voteOf_singleton_of_kind_ne (h : p.kind ≠ 1) :
    c.voteOf [(x, p)] = if hasLane c.dev.joined x ∧ (c.lane x).round.absent = false then .cores x else .none_ := by
  have hnone : [(x, p)].filter (fun e => e.2.kind == 1) = [] := by simp [h]
  simp only [Chip.voteOf, hnone]
  exact if_congr (by simp) rfl rfl

end Vote

/-! #### The operations that a vote calls -/

theorem sendSnapshot_traffic (c : Chip) (src : Option LaneId) (l : LaneId) : TrafficOnly c (c.sendSnapshot src l) := by
  cases src with
  | none => exact TrafficOnly.refl c
  | some k => exact sendLink_traffic ..

@[simp] theorem correct_dev (c : Chip) (l : LaneId) (src : Option LaneId) : (c.correct l src).dev = c.dev :=
  (sendSnapshot_traffic _ src l).dev

theorem correct_lane (c : Chip) (l : LaneId) (src : Option LaneId) :
    (c.correct l src).lane l = { c.lane l with chk := { (c.lane l).chk with
      lastDiv := some c.dev.matrix, divs := (c.lane l).chk.divs ++ [c.dev.matrix],
      resyncPend := true, source := src, snapshot := false, owed := 0 } } := by
  have hlanes : (c.correct l src).lanes = _ := (sendSnapshot_traffic _ src l).lanes
  simp only [lane_eq, hlanes, modLane_lanes, tri_get_set_same]

@[simp] theorem pendFence_lanes (c : Chip) (l : LaneId) (code : Nat) : (c.pendFence l code).lanes = c.lanes := by
  unfold Chip.pendFence
  split <;> rfl

/-- After a fence is decided the lane stands among those to be fenced, whether it did before or not (R444). -/
theorem pendFence_any (c : Chip) (l : LaneId) (code : Nat) : (c.pendFence l code).dev.fencePend.any (fun f => f.1 == l) = true := by
  unfold Chip.pendFence
  split
  case isTrue h =>
    obtain ⟨f, hf, hl⟩ := List.any_eq_true.1 h
    exact List.any_eq_true.2 ⟨f, hf, (Bool.and_eq_true _ _ ▸ hl).1⟩
  case isFalse => simp

@[simp] theorem agreedFault_matrix (c : Chip) (code t i lane count : Nat) :
    (c.agreedFault code t i lane count).dev.matrix = c.dev.matrix := by
  rw [(agreedFault_only c code t i lane count).dev]

@[simp] theorem agreedFault_fencePend (c : Chip) (code t i lane count : Nat) :
    (c.agreedFault code t i lane count).dev.fencePend = c.dev.fencePend := by
  rw [(agreedFault_only c code t i lane count).dev]

@[simp] theorem agreedFault_pairDivs (c : Chip) (code t i lane count : Nat) :
    (c.agreedFault code t i lane count).dev.pairDivs = c.dev.pairDivs := by
  rw [(agreedFault_only c code t i lane count).dev]

/-! #### Cores that reload (R164) -/

/-- What a reload of the units leaves of a chip: the lanes and the fences that wait. -/
structure LanesAndFencesKept (c d : Chip) : Prop where
  lanes : d.lanes = c.lanes
  fencePend : d.dev.fencePend = c.dev.fencePend

theorem LanesAndFencesKept.trans {c d e : Chip} (h : LanesAndFencesKept c d) (k : LanesAndFencesKept d e) : LanesAndFencesKept c e :=
  ⟨k.lanes.trans h.lanes, k.fencePend.trans h.fencePend⟩

/-- Each kind of item returns one part of the agreed data to its earlier value. -/
theorem restoreItem_kept (c : Chip) (i : Nat) : LanesAndFencesKept c (c.restoreItem i) := by
  unfold Chip.restoreItem
  iterate 8 refine iteInduction (motive := LanesAndFencesKept c) (fun _ => ⟨rfl, rfl⟩) (fun _ => ?_)
  exact ⟨rfl, rfl⟩

theorem reloadUnits_kept (c : Chip) : LanesAndFencesKept c c.reloadUnits := by
  have hitems (is : List Nat) : LanesAndFencesKept c (is.foldl (fun d i => d.restoreItem i) c) :=
    List.foldlRecOn is _ ⟨rfl, rfl⟩ fun d hd i _ => hd.trans (restoreItem_kept d i)
  unfold Chip.reloadUnits
  exact iteInduction (motive := LanesAndFencesKept c) (fun _ => hitems _) (fun _ => (hitems _).trans ⟨rfl, rfl⟩)

/-! #### The last divergences of the pairs (R152) -/

/-- A divergence noted for one pair is that pair's last one, and the other pairs keep theirs. -/
theorem pairDiv_of_noted {c d : Chip} {m n : Nat}
    (h : d.dev.pairDivs = (m, n) :: c.dev.pairDivs.filter (fun e => e.1 != m)) (k : Nat) :
    d.pairDiv k = if k = m then some n else c.pairDiv k := by
  unfold Chip.pairDiv
  rw [h]
  by_cases hk : k = m
  · simp [hk]
  · have hother : ∀ e : Nat × Nat, ((e.1 == k) && (e.1 != m)) = (e.1 == k) := by
      intro e
      by_cases he : e.1 = k <;> simp [he, hk]
    simp [hk, Ne.symm hk, List.filter_filter, hother]

/-! #### What each divergence brings about, the first and the repeated -/

section Events

variable (c : Chip) {ls : List LaneId} {x y z : LaneId}

theorem voteEvents_odd_first (h : c.inDivWindow (c.lane z).chk.lastDiv = false) :
    c.voteEvents (.odd ls z) = (c.agreedFault 0x0401 0x01 z.idx z.idx).correct z (c.highest ls) :=
  if_neg (Bool.eq_false_iff.1 h)

theorem voteEvents_odd_again (h : c.inDivWindow (c.lane z).chk.lastDiv = true) :
    c.voteEvents (.odd ls z) = c.pendFence z 0x0402 :=
  if_pos h

/-- With the lower claim known, a pair's divergence fences that lane or corrects it and notes the correction (R152). -/
theorem voteEvents_pair (hxy : c.higher x y = true) :
    c.voteEvents (.pair x y) =
      let m := (maskOf [x, y]).toNat
      let d := c.modDev (fun d => { d with differed := true })
      if c.inDivWindow (c.pairDiv m) then d.pendFence y 0x0404
      else ((d.agreedFault 0x0403 0x01 y.idx y.idx).correct y (some x)).modDev (fun d => { d with
        pairDivs := (m, d.matrix) :: d.pairDivs.filter (fun e => e.1 != m) }) := by
  simp only [Chip.voteEvents, hxy, if_true]
  rfl

theorem voteEvents_cores_first (h : c.inDivWindow (c.lane x).chk.coreDiv = false) :
    c.voteEvents (.cores x) =
      ((c.agreedFault 0x0406 0x01 x.idx x.idx).modLane x (fun n => { n with chk := { n.chk with
        coreDiv := some c.dev.matrix } })).reloadUnits :=
  if_neg (Bool.eq_false_iff.1 h)

theorem voteEvents_cores_again (h : c.inDivWindow (c.lane x).chk.coreDiv = true) :
    c.voteEvents (.cores x) = c.pendFence x 0x0407 :=
  if_pos h

/-- The first divergence of an odd lane: its resynchronisation is pending, and no fence is decided (R151). -/
theorem voteEvents_odd_first_effect (h : c.inDivWindow (c.lane z).chk.lastDiv = false) :
    ((c.voteEvents (.odd ls z)).lane z).chk.resyncPend = true ∧
      ((c.voteEvents (.odd ls z)).lane z).chk.source = c.highest ls ∧
      ((c.voteEvents (.odd ls z)).lane z).chk.lastDiv = some c.dev.matrix ∧
      (c.voteEvents (.odd ls z)).dev.fencePend = c.dev.fencePend := by
  rw [voteEvents_odd_first c h, correct_lane, correct_dev]
  exact ⟨rfl, rfl, by rw [agreedFault_matrix], agreedFault_fencePend ..⟩

/-- The first divergence of a pair: the lower claim resynchronises from the higher, and the pair's correction is noted (R152). -/
theorem voteEvents_pair_first_effect (hxy : c.higher x y = true) (h : c.inDivWindow (c.pairDiv (maskOf [x, y]).toNat) = false) :
    ((c.voteEvents (.pair x y)).lane y).chk.resyncPend = true ∧
      ((c.voteEvents (.pair x y)).lane y).chk.source = some x ∧
      (c.voteEvents (.pair x y)).dev.fencePend = c.dev.fencePend ∧
      ∀ k, (c.voteEvents (.pair x y)).pairDiv k = if k = (maskOf [x, y]).toNat then some c.dev.matrix else c.pairDiv k := by
  rw [voteEvents_pair c hxy, if_neg (Bool.eq_false_iff.1 h)]
  have hlane := correct_lane ((c.modDev (fun d => { d with differed := true })).agreedFault 0x0403 0x01 y.idx y.idx) y (some x)
  refine ⟨congrArg (·.chk.resyncPend) hlane, congrArg (·.chk.source) hlane, ?_, pairDiv_of_noted ?_⟩ <;>
    simp only [modDev_dev, correct_dev, agreedFault_fencePend, agreedFault_matrix, agreedFault_pairDivs]

/-- The first disagreement of a joined lane's cores is noted in the lane, and the reload keeps the note (R164). -/
theorem voteEvents_cores_first_effect (h : c.inDivWindow (c.lane x).chk.coreDiv = false) :
    ((c.voteEvents (.cores x)).lane x).chk.coreDiv = some c.dev.matrix ∧
      (c.voteEvents (.cores x)).dev.fencePend = c.dev.fencePend := by
  rw [voteEvents_cores_first c h]
  obtain ⟨hlanes, hfence⟩ := reloadUnits_kept ((c.agreedFault 0x0406 0x01 x.idx x.idx).modLane x (fun n =>
    { n with chk := { n.chk with coreDiv := some c.dev.matrix } }))
  exact ⟨by rw [lane_eq, hlanes, modLane_lanes, tri_get_set_same], hfence.trans (agreedFault_fencePend ..)⟩

end Events

/-- Settles O59: the records of kind 1 decide the vote, and each divergence has a rule for the first and one for the repeated. -/
theorem votesAndDivergences : Obligations.VotesAndDivergences := by
  intro c x y z p q r hp hq hr
  refine ⟨voteOf_of_three c (by simp [hp, hq, hr]), fun a ha => ⟨voteOf_of_two c (by simp [hp, ha, hr]),
    voteOf_of_one c (p := q) (by simp [hq, ha]), voteOf_singleton_of_kind_ne c ha⟩, voteOf_of_two c (by simp [hp, hq]), ?_, ?_, ?_, ?_, ?_⟩
  · exact fun h => ⟨by decide, voteEvents_odd_first c h, voteEvents_odd_first_effect c h⟩
  · intro h
    rw [voteEvents_odd_again c h]
    exact ⟨by decide, rfl, pendFence_any .., pendFence_lanes ..⟩
  · intro hxy
    refine ⟨voteEvents_pair_first_effect c hxy, fun h => ?_⟩
    rw [voteEvents_pair c hxy, if_pos h]
    exact ⟨pendFence_any .., pendFence_lanes ..⟩
  · exact voteEvents_cores_first_effect c
  · intro h
    rw [voteEvents_cores_again c h]
    exact pendFence_any ..

end Sys2Proof.Machine

/-! ### The control law of a loop context (R282, R283, R285, R287) -/

namespace Sys2Proof.Machine
open Sys2Proof

/-! #### Clipping and the scale of 256 -/

theorem le_clip {lo hi : Int} (h : lo ≤ hi) (v : Int) : lo ≤ clip lo hi v := by
  unfold clip
  split_ifs <;> omega

theorem clip_le {lo hi : Int} (h : lo ≤ hi) (v : Int) : clip lo hi v ≤ hi := by
  unfold clip
  split_ifs <;> omega

theorem clip_of_mem {lo hi v : Int} (hlo : lo ≤ v) (hhi : v ≤ hi) : clip lo hi v = v := by
  rw [clip, if_neg (Int.not_lt.2 hlo), if_neg (Int.not_lt.2 hhi)]

theorem clip_clip {lo hi : Int} (h : lo ≤ hi) (v : Int) : clip lo hi (clip lo hi v) = clip lo hi v :=
  clip_of_mem (le_clip h v) (clip_le h v)

theorem quo_mul_cancel (a : Int) {b : Int} (h : b ≠ 0) : quo (a * b) b = a :=
  Int.mul_tdiv_cancel a h

/-- The terms p8 and d8 that a preset takes off an output are those that the law adds to it again (R287). -/
theorem quo_preset_add_terms (u p8 d8 : Int) : quo (p8 + (u * 256 - p8 - d8) + d8) 256 = u := by
  rw [show p8 + (u * 256 - p8 - d8) + d8 = u * 256 by ring, quo_mul_cancel u (by decide)]

/-! #### A context computed in a mode -/

section LoopStep

variable (kp ki kd df lo hi : Int) (x : Loop) (follow pv sp : Int)

/-- What every mode does: output and integrator are clipped values, the filter follows the process value, and the hold ends. -/
theorem loopStep_computed (m : LoopMode) :
    let y := (loopStep kp ki kd df lo hi x m follow pv sp).1
    ∃ u j, y.out = clip lo hi u ∧ y.i = clip (lo * 256) (hi * 256) j ∧ y.sp = sp ∧ y.pv = pv ∧ y.err = sp - pv ∧
      y.pf = (loopTerms kp kd df (sp - pv) pv x.pf).2.2 ∧ y.held = 0 := by
  cases m with
  | manual | tracking => exact ⟨_, _, rfl, rfl, rfl, rfl, rfl, rfl, rfl⟩
  | disabled | auto | stopped | fenced =>
    simp only [loopStep]
    split <;> exact ⟨_, _, rfl, rfl, rfl, rfl, rfl, rfl, rfl⟩

/-- Manual keeps the integrator (R285). -/
theorem loopStep_manual :
    let y := (loopStep kp ki kd df lo hi x .manual follow pv sp).1
    y.out = clip lo hi x.manual ∧ y.i = clip (lo * 256) (hi * 256) x.i :=
  ⟨rfl, rfl⟩

variable {x} {p8 d8 pf : Int} (hterms : loopTerms kp kd df (sp - pv) pv x.pf = (p8, d8, pf))
include hterms

/-- Tracking follows the consumer and sets the integrator for a return without a step (R285, R286). -/
theorem loopStep_tracking :
    let y := (loopStep kp ki kd df lo hi x .tracking follow pv sp).1
    y.out = clip lo hi follow ∧ y.i = clip (lo * 256) (hi * 256) (y.out * 256 - p8 - d8) := by
  simp [loopStep, hterms]

/-- A period in automatic with the gains of the last one, without a change of mode or a preset (R282, R283). -/
theorem loopStep_auto_steady (hmode : x.mode ≠ .tracking) (hauto : x.toAuto = false) (hpreset : x.preset = none)
    (hgains : x.oldGains = some (kp, kd, df)) :
    let i8 := x.i + quo (ki * (sp - pv)) 256
    let w := quo (p8 + i8 + d8) 256
    let inh := decide ((hi < w ∧ 0 < ki * (sp - pv)) ∨ (w < lo ∧ ki * (sp - pv) < 0))
    let y := (loopStep kp ki kd df lo hi x .auto follow pv sp).1
    y.out = clip lo hi w ∧ y.i = clip (lo * 256) (hi * 256) (if inh then x.i else i8) ∧ y.inhibited = inh := by
  simp [loopStep, hterms, hmode, hauto, hpreset, hgains]

/-- The period of a change to automatic: the preset stands in place of the integration step (R287). -/
theorem loopStep_auto_change (hchange : x.mode = .tracking ∨ x.toAuto = true) :
    let i8 := x.preset.getD (clip (lo * 256) (hi * 256) (x.out * 256 - p8 - d8))
    let y := (loopStep kp ki kd df lo hi x .auto follow pv sp).1
    y.out = clip lo hi (quo (p8 + i8 + d8) 256) ∧ y.i = clip (lo * 256) (hi * 256) i8 := by
  have hbranch : (x.toAuto || decide (x.mode = .tracking)) = true := by simpa using hchange.symm
  simp [loopStep, hterms, hbranch]

end LoopStep

/-- Settles O40: each mode by its rule, and the bounds from the clipping that all of them share. -/
theorem controlLaw : Obligations.ControlLaw := by
  intro kp ki kd df lo hi x follow pv sp hlim e p8 pf d8 i8 w y
  have hlim256 : lo * 256 ≤ hi * 256 := by omega
  have hterms : loopTerms kp kd df e pv x.pf = (p8, d8, pf) := rfl
  obtain ⟨hmanOut, hmanInt⟩ := loopStep_manual kp ki kd df lo hi x follow pv sp
  obtain ⟨htrackOut, htrackInt⟩ := loopStep_tracking kp ki kd df lo hi follow pv sp hterms
  refine ⟨fun m => ?bounds, fun hauto hmode hpreset hgains => ?steady, hmanOut, hmanInt, htrackOut, htrackInt,
    fun hchange => ?change⟩
  case bounds =>
    obtain ⟨u, j, hout, hint, hrest⟩ := loopStep_computed kp ki kd df lo hi x follow pv sp m
    exact ⟨hout ▸ le_clip hlim u, hout ▸ clip_le hlim u, hint ▸ le_clip hlim256 j, hint ▸ clip_le hlim256 j, hrest⟩
  case steady =>
    obtain ⟨hout, hint, hinh⟩ := loopStep_auto_steady kp ki kd df lo hi follow pv sp hterms hmode hauto hpreset hgains
    refine ⟨hout, fun h => ?_, fun h => ?_⟩
    · rw [decide_eq_true h] at hint hinh
      exact ⟨hint, hinh⟩
    · rw [decide_eq_false h] at hint hinh
      exact ⟨hint, hinh⟩
  case change =>
    obtain ⟨hout, hint⟩ := loopStep_auto_change kp ki kd df lo hi follow pv sp hterms hchange
    refine ⟨fun v hv => ?_, fun hnone => ?_, fun hnone hlo hhi hlo256 hhi256 => ?_⟩
    · rw [hv] at hout hint
      exact ⟨hint, hout⟩
    · rw [hnone] at hout hint
      exact ⟨hint.trans (clip_clip hlim256 _), hout⟩
    · rw [hnone, Option.getD_none, clip_of_mem hlo256 hhi256, quo_preset_add_terms] at hout
      exact hout.trans (clip_of_mem hlo hhi)

end Sys2Proof.Machine

namespace Sys2Proof.Machine
open Sys2Proof

/-! ### What every command keeps: the queue, and the canonical form of the memories -/

/-- The second state has the queue of the first, and its memories are canonical where those of the first are. -/
structure Kept (s t : State) : Prop where
  pending : t.pending = s.pending
  memWf : s.memWf = true → t.memWf = true

theorem Kept.refl (s : State) : Kept s s := ⟨rfl, id⟩

theorem Kept.trans {s t u : State} (h : Kept s t) (k : Kept t u) : Kept s u :=
  ⟨k.pending.trans h.pending, k.memWf ∘ h.memWf⟩

theorem kept_chip (s : State) (c : Chip) : Kept s { s with chip := c } := ⟨rfl, memWf_of_mem rfl⟩

theorem kept_onChip (s : State) (f : Chip → Chip) : Kept s (s.onChip f) := kept_chip s _

theorem Kept.onChip {s t : State} (h : Kept s t) (f : Chip → Chip) : Kept s (t.onChip f) := h.trans (kept_onChip t f)

theorem kept_onLane (s : State) (l : LaneId) (f : Chip → Chip) : Kept s (s.onLane l f) := by
  unfold State.onLane
  split
  · exact kept_onChip s f
  · exact .refl s

theorem kept_onMem (s : State) (l : LaneId) (f : LaneMem → LaneMem) (h : ∀ m, m.wf = true → (f m).wf = true) :
    Kept s (s.onMem l f) := ⟨rfl, memWf_onMem s l f h⟩

theorem kept_ite {p : Prop} [Decidable p] {s t u : State} (ht : Kept s t) (hu : Kept s u) : Kept s (if p then t else u) := by
  split
  · exact ht
  · exact hu

theorem kept_foldl {α : Type} (f : State → α → State) (h : ∀ s x, Kept s (f s x)) (xs : List α) (s : State) :
    Kept s (xs.foldl f s) := by
  induction xs generalizing s with
  | nil => exact .refl s
  | cons x xs ih => exact (h s x).trans (ih _)

/-! #### The memories of a lane -/

theorem laneMem_wf_iff (m : LaneMem) : m.wf = true ↔ Memory.wf m.sram = true ∧ Memory.wf m.staging = true ∧
    Memory.wf m.stagingSched = true ∧ Memory.wf m.bank0 = true ∧ Memory.wf m.bank1 = true := by
  simp only [LaneMem.wf, Bool.and_eq_true, and_assoc]

theorem laneMem_wf_staging {m : LaneMem} {xs : List Host.Cell} (h : m.wf = true) (hx : Memory.wf xs = true) :
    { m with staging := xs }.wf = true := by
  obtain ⟨hsram, -, hsched, h0, h1⟩ := (laneMem_wf_iff m).1 h
  exact (laneMem_wf_iff _).2 ⟨hsram, hx, hsched, h0, h1⟩

theorem laneMem_wf_stagingSched {m : LaneMem} {xs : List Host.Cell} (h : m.wf = true) (hx : Memory.wf xs = true) :
    { m with stagingSched := xs }.wf = true := by
  obtain ⟨hsram, hstaging, -, h0, h1⟩ := (laneMem_wf_iff m).1 h
  exact (laneMem_wf_iff _).2 ⟨hsram, hstaging, hx, h0, h1⟩

theorem laneMem_wf_bank0 {m : LaneMem} {xs : List Host.Cell} (h : m.wf = true) (hx : Memory.wf xs = true) :
    { m with bank0 := xs }.wf = true := by
  obtain ⟨hsram, hstaging, hsched, -, h1⟩ := (laneMem_wf_iff m).1 h
  exact (laneMem_wf_iff _).2 ⟨hsram, hstaging, hsched, hx, h1⟩

theorem laneMem_wf_bank1 {m : LaneMem} {xs : List Host.Cell} (h : m.wf = true) (hx : Memory.wf xs = true) :
    { m with bank1 := xs }.wf = true := by
  obtain ⟨hsram, hstaging, hsched, h0, -⟩ := (laneMem_wf_iff m).1 h
  exact (laneMem_wf_iff _).2 ⟨hsram, hstaging, hsched, h0, hx⟩

theorem laneMem_wf_cleared {m : LaneMem} (h : m.wf = true) : m.cleared.wf = true := by
  obtain ⟨-, -, -, h0, h1⟩ := (laneMem_wf_iff m).1 h
  exact (laneMem_wf_iff _).2 ⟨rfl, rfl, rfl, h0, h1⟩

theorem laneMem_wf_bank {m : LaneMem} (h : m.wf = true) (k : Nat) : Memory.wf (m.bank k) = true := by
  obtain ⟨-, -, -, h0, h1⟩ := (laneMem_wf_iff m).1 h
  unfold LaneMem.bank
  split <;> assumption

theorem laneMem_wf_writeBank {m : LaneMem} (h : m.wf = true) (k a : Nat) (bs : List Byte) : (m.writeBank k a bs).wf = true := by
  obtain ⟨-, -, -, h0, h1⟩ := (laneMem_wf_iff m).1 h
  unfold LaneMem.writeBank
  split
  · exact laneMem_wf_bank0 h (wf_cellWrite _ _ _ h0)
  · exact laneMem_wf_bank1 h (wf_cellWrite _ _ _ h1)

theorem laneMem_wf_writeStaging {m : LaneMem} (h : m.wf = true) (a : Nat) (bs : List Byte) :
    { m with staging := cellWrite m.staging a bs }.wf = true :=
  laneMem_wf_staging h (wf_cellWrite _ _ _ ((laneMem_wf_iff m).1 h).2.1)

theorem laneMem_wf_writeSched {m : LaneMem} (h : m.wf = true) (a : Nat) (bs : List Byte) :
    { m with stagingSched := cellWrite m.stagingSched a bs }.wf = true :=
  laneMem_wf_stagingSched h (wf_cellWrite _ _ _ ((laneMem_wf_iff m).1 h).2.2.1)

/-! #### Boots -/

theorem kept_rebootLane (s : State) (l : LaneId) : Kept s (s.rebootLane l) :=
  (kept_onMem s l _ fun _ => laneMem_wf_cleared).onChip _

theorem kept_rebootAll (s : State) : Kept s s.rebootAll :=
  (kept_onChip s _).trans (kept_foldl _ (fun s l => kept_ite (kept_rebootLane s l) (.refl s)) _ _)

theorem kept_powerGood (l : LaneId) (s : State) : Kept s (powerGood l s) :=
  kept_ite (.refl s) (((kept_onChip s _).trans (kept_rebootLane _ l)).onChip _)

theorem kept_powerGoodLost (l : LaneId) (s : State) : Kept s (powerGoodLost l s) :=
  kept_ite (.refl s) ((((kept_onChip s _).trans (kept_rebootLane _ l)).onChip _).onChip _)

theorem kept_laneReady (l : LaneId) (s : State) : Kept s (laneReady l s) := by
  unfold laneReady
  refine kept_ite (.refl s) ?_
  dsimp only
  split
  · exact (kept_onChip s _).onChip _
  · split <;> exact (kept_onChip s _).onChip _

/-- A bank of another lane copied into the bank that a lane does not run (R109). -/
theorem kept_copyBank (s : State) (l k : LaneId) (b booted : Nat) : Kept s (s.onMem l (fun m =>
    if b = 0 then { m with bank0 := (s.mem.get k).bank booted } else { m with bank1 := (s.mem.get k).bank booted })) := by
  refine ⟨rfl, fun h => memWf_onMem s l _ (fun m hm => ?_) h⟩
  have hbank := laneMem_wf_bank ((memWf_iff s).1 h k) booted
  split
  · exact laneMem_wf_bank0 hm hbank
  · exact laneMem_wf_bank1 hm hbank

theorem kept_adoptionDone (l : LaneId) (ok : Bool) (s : State) : Kept s (adoptionDone l ok s) := by
  unfold adoptionDone
  refine kept_ite (.refl s) ?_
  split
  · exact .refl s
  · rename_i k hk
    refine kept_ite (kept_onChip s _) (kept_ite (kept_ite (kept_onChip s _) ?_) (kept_onChip s _))
    exact (((kept_copyBank s l k _ _).onChip _).trans (kept_rebootLane _ l)).onChip _

theorem kept_restartAck (l : LaneId) (s : State) : Kept s (restartAck l s) :=
  kept_ite (.refl s) ((kept_rebootLane s l).onChip _)

theorem kept_reinitDone (l : LaneId) (s : State) : Kept s (reinitDone l s) := by
  unfold reinitDone
  refine kept_ite (.refl s) ?_
  have h := (kept_onMem s l LaneMem.cleared fun _ => laneMem_wf_cleared).onChip (fun c => (c.modLane l Lane.reinit).applyRepairs l)
  dsimp only
  split
  · exact h.onChip _
  · split <;> exact h.onChip _

theorem kept_periodBoundary (s : State) : Kept s (periodBoundary s) :=
  kept_ite (kept_onChip s _) (kept_ite ((kept_onChip s _).trans (kept_rebootAll _)) (kept_onChip s _))

theorem kept_finishActivate (s : State) : Kept s (finishActivate s) := kept_ite (.refl s) (kept_onChip s _)

theorem kept_retainFails (s : State) (l : LaneId) : Kept s (s.retainFails l) :=
  kept_ite (((kept_onChip s _).trans (kept_rebootLane _ l)).onChip _) (.refl s)

theorem kept_faultDetected (l : LaneId) (code t i die : Nat) (s : State) : Kept s (faultDetected l code t i die s) :=
  kept_ite (.refl s) (kept_ite (kept_retainFails s l) (kept_onChip s _))

/-! #### Wakes -/

theorem kept_wakeLane (s : State) (l : LaneId) : Kept s (s.wakeLane l) := by
  unfold State.wakeLane
  split
  · exact .refl s
  · exact kept_ite (.refl s) (((kept_chip s _).trans (kept_ite (.refl _) (kept_rebootLane _ l))).onChip _)

theorem kept_wakeBy (s : State) (l : LaneId) (src inst : Nat) : Kept s (s.wakeBy l src inst) :=
  (kept_onChip s _).trans (kept_wakeLane _ l)

theorem kept_hlinkOff (l : LaneId) (s : State) : Kept s (hlinkOff l s) :=
  kept_ite (.refl s) (kept_ite (kept_onChip s _) (((kept_onChip s _).onChip _).trans (kept_foldl _ kept_wakeLane _ _)))

theorem kept_wakeEvent (l : LaneId) (w : WakeSource) (s : State) : Kept s (wakeEvent l w s) := by
  unfold wakeEvent
  split
  · exact kept_wakeBy ..
  · exact .refl s

theorem kept_glideCycle (l : LaneId) (si : List Mask) (adc fb : List Nat) (s : State) : Kept s (glideCycle l si adc fb s) := by
  unfold glideCycle
  refine kept_ite ?_ (.refl s)
  dsimp only
  split
  · exact (kept_onChip s _).trans (kept_wakeBy ..)
  · exact kept_onChip s _

/-! #### Check-value units -/

theorem kept_cvItems (l : LaneId) (k n : Nat) (s : State) : Kept s (cvItems l k n s) := by
  induction n generalizing s with
  | zero => exact .refl s
  | succ n ih => exact (kept_onChip s _).trans (ih _)

theorem kept_cvProgress (l : LaneId) (k : Nat) (s : State) : Kept s (cvProgress l k s) :=
  kept_ite ((kept_chip s _).trans (kept_cvItems ..)) (.refl s)

theorem kept_cvOwned {f : State → State} (hf : ∀ s, Kept s (f s)) (l : LaneId) (k : Nat) (m : CvMaster) (s : State) :
    Kept s (cvOwned l k m s f) :=
  kept_ite (.refl s) (kept_ite (hf s) (kept_onChip s _))

theorem kept_cvSetCfg (l : LaneId) (k : Nat) (v : BitVec 32) (s : State) : Kept s (cvSetCfg l k v s) := by
  unfold cvSetCfg
  exact .onChip (kept_ite (kept_cvProgress l k s) (.refl s)) _

theorem kept_cvCfgWrite (l : LaneId) (k : Nat) (m : CvMaster) (v : BitVec 32) (s : State) : Kept s (cvCfgWrite l k m v s) :=
  kept_ite (kept_ite (kept_cvSetCfg ..) (.refl s)) (kept_cvOwned (kept_cvSetCfg l k v) l k m s)

theorem kept_cvStateAccess (l : LaneId) (k : Nat) (m : CvMaster) (write : Option (BitVec 64)) (s : State) :
    Kept s (cvStateAccess l k m write s) := by
  cases write with
  | none => exact .refl s
  | some v => exact kept_cvOwned (fun s => (kept_cvProgress l k s).onChip _) l k m s

theorem kept_memoryFeedDone (l : LaneId) (k : Nat) (readError : Bool) (s : State) : Kept s (memoryFeedDone l k readError s) :=
  kept_ite (.refl s) ((kept_ite (kept_cvProgress ..) (kept_cvItems ..)).onChip _)

theorem kept_cvResultRead (l : LaneId) (k : Nat) (s : State) : Kept s (cvResultRead l k s) :=
  kept_ite (.refl s) ((kept_cvProgress ..).onChip _)

/-! #### Operations of the opcode index -/

theorem kept_runOp {a : OpAttr} {checks : Req → Chip → List Nat} {effect : Req → State → OpOut} {r : Req}
    (h : ∀ s, Kept s (effect r s).st) (s : State) : Kept s (runOp a checks effect r s) :=
  runOp_keeps (Kept s) a checks effect r (fun _ c hu => hu.trans (kept_chip _ c)) (fun u hu => hu.trans (h u)) s (.refl s)

theorem kept_opOut_ite {p : Prop} [Decidable p] {s : State} {x y : OpOut} (hx : Kept s x.st) (hy : Kept s y.st) :
    Kept s (if p then x else y).st := by
  split
  · exact hx
  · exact hy

theorem kept_effectParamWrite (r : Req) (s : State) : Kept s (effectParamWrite r s).st := by
  unfold effectParamWrite
  dsimp only
  split
  · exact .refl s
  · exact kept_chip s _

theorem kept_effectSessionOpen (r : Req) (s : State) : Kept s (effectSessionOpen r s).st := by
  unfold effectSessionOpen
  dsimp only
  split
  · exact kept_chip s _
  · exact kept_opOut_ite (kept_chip s _) (kept_chip s _)

theorem kept_effectStanddownNow (r : Req) (s : State) : Kept s (effectStanddownNow r s).st := by
  unfold effectStanddownNow
  split
  · exact .refl s
  · exact kept_chip s _

theorem kept_effectFuseRepair (r : Req) (s : State) : Kept s (effectFuseRepair r s).st := by
  unfold effectFuseRepair
  split
  · exact .refl s
  · exact kept_chip s _

theorem kept_effectImageWrite (r : Req) (s : State) : Kept s (effectImageWrite r s).st :=
  kept_foldl _ (fun s l => kept_ite (kept_onMem s l _ fun _ h => laneMem_wf_writeStaging h _ _) (.refl s)) _ s

theorem kept_effectFwWrite (r : Req) (s : State) : Kept s (effectFwWrite r s).st := by
  unfold effectFwWrite
  dsimp only
  refine .onChip (kept_foldl _ (fun s l => ?_) _ s) _
  exact kept_ite ((kept_onMem s l _ fun _ h => laneMem_wf_writeBank h _ _ _).onChip _) (.refl s)

theorem kept_effectScheduleLoad (r : Req) (s : State) : Kept s (effectScheduleLoad r s).st := by
  have h := kept_foldl (fun s l => s.onMem l (fun m => { m with stagingSched := cellWrite m.stagingSched (fld r.body 0 4) (r.body.drop 16) }))
    (fun s l => kept_onMem s l _ fun _ h => laneMem_wf_writeSched h _ _) s.chip.authLanes s
  unfold effectScheduleLoad
  dsimp only
  split
  · exact h.trans (kept_chip _ _)
  · exact h

/-- The effect of every operation keeps the queue and the canonical form; only the three that write a memory change more than the chip. -/
theorem kept_effect {i : Instr} {o : OpRow} (h : opRow i = some o) (s : State) : Kept s (o.effect o.req s).st := by
  cases i <;> cases h
  case imageWrite r => exact kept_effectImageWrite r s
  case fwWrite r => exact kept_effectFwWrite r s
  case scheduleLoad r => exact kept_effectScheduleLoad r s
  case paramWrite r => exact kept_effectParamWrite r s
  case sessionOpen r => exact kept_effectSessionOpen r s
  case standdownNow r => exact kept_effectStanddownNow r s
  case fuseRepair r => exact kept_effectFuseRepair r s
  case laneReadmit | unitUnfence | holdRelease | deadboltRelease | netStart | stateSet =>
    exact kept_opOut_ite (kept_chip s _) (kept_chip s _)
  case statusRead => exact kept_opOut_ite (kept_opOut_ite (kept_chip s _) (kept_chip s _)) (kept_chip s _)
  case cfgStore | offstateTest =>
    exact kept_opOut_ite (kept_chip s _) (kept_opOut_ite (kept_chip s _) (kept_chip s _))
  all_goals exact kept_chip s _

/-- An outcome that goes on from a state keeps its queue and the canonical form of its memories. -/
def OutKept (s : State) (o : Out) : Prop := ∀ t, o = .next t → Kept s t

theorem outKept_next {s t : State} (h : Kept s t) : OutKept s (.next t) := by
  rintro _ ⟨⟩
  exact h

theorem outKept_row {i : Instr} {o : OpRow} (h : opRow i = some o) (s : State) : OutKept s (exec i s) := by
  rw [exec_of_row i o s h]
  exact outKept_next (kept_runOp (kept_effect h) s)

theorem outKept_cvAccess {f : State → State} (hf : ∀ s, Kept s (f s)) (l : LaneId) (k : Nat) (s : State) :
    OutKept s (cvAccess l k s f) := by
  unfold cvAccess
  split
  · rintro _ ⟨⟩
  · exact outKept_next (hf s)

/-! #### The period's work -/

theorem outKept_cmd (i : Instr) (s : State) (h : (opRow i).isSome = true) : ∀ o ∈ some (exec i s), OutKept s o := by
  rintro _ ⟨⟩
  obtain ⟨o, ho⟩ := Option.isSome_iff_exists.1 h
  exact outKept_row ho s

theorem outKept_none (s : State) : ∀ o ∈ (none : Option Out), OutKept s o := by
  rintro _ ⟨⟩

theorem outKept_linkSync (r : Req) (s : State) : ∀ o ∈ some (execLinkSync r s), OutKept s o := by
  rintro _ ⟨⟩
  exact outKept_next (kept_onChip s _)

theorem outKept_opcodeNotInIndex (code : BitVec 16) (r : Req) (s : State) : OutKept s (execOpcodeNotInIndex code r s) :=
  outKept_next (kept_ite (.refl s) (kept_runOp (fun s => .refl s) s))

theorem outKept_opOf (code : Nat) (r : Req) (s : State) : ∀ o ∈ opOf code r s, OutKept s o := by
  unfold opOf
  split
  exacts [outKept_cmd (.sysIdentify r) s rfl, outKept_cmd (.sysEcho r) s rfl, outKept_cmd (.sysReset r) s rfl,
    outKept_cmd (.laneFence r) s rfl, outKept_cmd (.laneReadmit r) s rfl, outKept_cmd (.actuationEnable r) s rfl,
    outKept_cmd (.actuationDisable r) s rfl, outKept_cmd (.timingRead r) s rfl, outKept_cmd (.signatureRead r) s rfl,
    outKept_cmd (.recordRead r) s rfl, outKept_cmd (.unitUnfence r) s rfl, outKept_cmd (.inject r) s rfl,
    outKept_cmd (.stopRequest r) s rfl, outKept_cmd (.holdRelease r) s rfl, outKept_cmd (.deadboltRelease r) s rfl,
    outKept_cmd (.cmtEnable r) s rfl, outKept_cmd (.cmtDisable r) s rfl, outKept_cmd (.torqueSet r) s rfl,
    outKept_cmd (.catchStart r) s rfl, outKept_cmd (.offstateTest r) s rfl, outKept_cmd (.legClear r) s rfl,
    outKept_cmd (.stpMove r) s rfl, outKept_cmd (.stpStop r) s rfl, outKept_cmd (.stpHome r) s rfl, outKept_cmd (.tableLoad r) s rfl,
    outKept_cmd (.positionSet r) s rfl, outKept_cmd (.probeArm r) s rfl, outKept_cmd (.setpointSet r) s rfl,
    outKept_cmd (.modeSet r) s rfl, outKept_cmd (.integratorPreset r) s rfl, outKept_none s]

theorem outKept_opOfNet (code : Nat) (r : Req) (s : State) : ∀ o ∈ opOfNet code r s, OutKept s o := by
  unfold opOfNet
  split
  exacts [outKept_cmd (.scheduleLoad r) s rfl, outKept_cmd (.netStart r) s rfl, outKept_cmd (.spareClaim r) s rfl,
    outKept_cmd (.frameSend r) s rfl, outKept_cmd (.timeRead r) s rfl, outKept_cmd (.epochSet r) s rfl,
    outKept_cmd (.sessionOpen r) s rfl, outKept_cmd (.sessionClose r) s rfl, outKept_cmd (.peerUnfreeze r) s rfl,
    outKept_cmd (.unitTest r ⟨[], [], []⟩) s rfl, outKept_cmd (.outputSet r) s rfl, outKept_cmd (.pulseTest r) s rfl,
    outKept_linkSync r s, outKept_cmd (.hostUnfreeze r) s rfl, outKept_cmd (.imageWrite r) s rfl, outKept_cmd (.cfgStore r) s rfl,
    outKept_cmd (.checkRead r) s rfl, outKept_cmd (.commissionConfirm r) s rfl, outKept_cmd (.fwWrite r) s rfl,
    outKept_cmd (.fwActivate r) s rfl, outKept_cmd (.stateSet r) s rfl, outKept_cmd (.padsRelease r) s rfl,
    outKept_cmd (.wakeSourceRead r) s rfl, outKept_cmd (.thmRead r) s rfl, outKept_cmd (.standdownNow r) s rfl,
    outKept_cmd (.resultRead r) s rfl, outKept_cmd (.fuseRepair r) s rfl, outKept_none s]

theorem outKept_opOfBlock (code : Nat) (r : Req) (s : State) : ∀ o ∈ opOfBlock code r s, OutKept s o := by
  unfold opOfBlock
  split
  · exact outKept_cmd (.paramRead _ r) s rfl
  · exact outKept_cmd (.paramWrite _ r) s rfl
  · exact outKept_cmd (.statusRead _ r) s rfl
  · exact outKept_none s

theorem kept_afterOf {s : State} {o : Out} (h : OutKept s o) : Kept s (afterOf o s) := by
  cases o with
  | next t => exact h t rfl
  | fault | refused => exact .refl s

theorem kept_runCode (code : Nat) (r : Req) (s : State) : Kept s (runCode code r s) := by
  refine kept_afterOf ?_
  cases h : ((opOf code r s).or (opOfNet code r s)).or (opOfBlock code r s) with
  | none => exact outKept_opcodeNotInIndex _ r s
  | some o =>
    simp only [Option.or_eq_some_iff] at h
    obtain (h | ⟨-, h⟩) | ⟨-, h⟩ := h
    · exact outKept_opOf code r s o h
    · exact outKept_opOfNet code r s o h
    · exact outKept_opOfBlock code r s o h

theorem kept_runPdu (op : Nat) (r : Req) (s : State) : Kept s (runPdu op r s) := by
  unfold runPdu
  split
  · exact kept_runCode ..
  · exact ((kept_onChip s _).trans (kept_runCode ..)).onChip _

theorem kept_runSessionPdu (n : Nat) (s : State) : Kept s (runSessionPdu n s) := by
  unfold runSessionPdu
  dsimp only
  split
  · exact kept_chip s _
  · have h := (kept_chip s ((s.chip.gateAll n).2.agreePdu n (s.chip.gateAll n).1).2).trans (kept_runPdu ‹_› ‹_› _)
    split
    · exact h
    · split
      · exact h
      · exact h.onChip _

theorem kept_computePeriod (s : State) : Kept s (computePeriod s) := by
  have hpackets : Kept s (runPackets (s.onChip Chip.periodInputs)) :=
    (kept_onChip s _).trans (kept_foldl _ (fun s (p : RxPacket) => kept_runCode p.opcode p.req s) _ _)
  exact (hpackets.trans (kept_foldl _ (fun s n => kept_runSessionPdu n s) _ _)).onChip _

theorem kept_agreementDone (l : LaneId) (s : State) : Kept s (agreementDone l s) :=
  kept_ite (.refl s) (kept_ite ((kept_onChip s _).trans (kept_computePeriod _)) (kept_onChip s _))

/-! #### Every command -/

/-- What a command can change: the chip, and the memories in canonical form. -/
theorem outKept_exec (i : Instr) (s : State) : OutKept s (exec i s) := by
  cases hrow : opRow i with
  | some o => exact outKept_row hrow s
  | none =>
    cases i
    case agreementDone l => exact outKept_next (kept_agreementDone l s)
    case restartAck l => exact outKept_next (kept_restartAck l s)
    case fwActivateDone => exact outKept_next (kept_finishActivate s)
    case writeFrame l bytes => exact outKept_next ((kept_onChip s _).trans (kept_wakeLane _ l))
    case readFrame l address n => exact outKept_next ((kept_onChip s _).trans (kept_wakeLane _ l))
    case powerGood l => exact outKept_next (kept_powerGood l s)
    case powerGoodLost l => exact outKept_next (kept_powerGoodLost l s)
    case laneReady l => exact outKept_next (kept_laneReady l s)
    case adoptionDone l ok => exact outKept_next (kept_adoptionDone l ok s)
    case periodBoundary => exact outKept_next (kept_periodBoundary s)
    case hlinkOff l => exact outKept_next (kept_hlinkOff l s)
    case wakeEvent l w => exact outKept_next (kept_wakeEvent l w s)
    case wakeLine l src => exact outKept_next (kept_ite (kept_wakeBy ..) (.refl s))
    case wakeTimerExpiry l => exact outKept_next (kept_ite (kept_wakeBy ..) (.refl s))
    case glideCycle l si adc fb => exact outKept_next (kept_glideCycle l si adc fb s)
    case reinitDone l => exact outKept_next (kept_reinitDone l s)
    case faultDetected l code t i die => exact outKept_next (kept_faultDetected l code t i die s)
    case opcodeNotInIndex code r => exact outKept_opcodeNotInIndex code r s
    case cvCfgWrite l u m v => exact outKept_cvAccess (kept_cvCfgWrite l u m v) l u s
    case cvStateAccess l u m write => exact outKept_cvAccess (kept_cvStateAccess l u m write) l u s
    case cvFeedWrite l u m item => exact outKept_next (kept_cvOwned (fun s => kept_onChip s _) l u m s)
    case cvLenWrite l u m len => exact outKept_cvAccess (kept_cvOwned (fun s => (kept_cvProgress l u s).onChip _) l u m) l u s
    case memoryFeedDone l u e => exact outKept_cvAccess (kept_memoryFeedDone l u e) l u s
    case cvResultRead l u => exact outKept_cvAccess (kept_cvResultRead l u) l u s
    case cvRegisterWrite l u m reg v =>
      exact outKept_cvAccess (kept_cvOwned (fun s => (kept_cvProgress l u s).onChip _) l u m) l u s
    case recordWrite | mergeTimeExpiry | currentSample | pintleReport | fbEdge | indexPulse | sentFrame | ssiStart | ssiFrame |
        probeEdge | delayFrame | probeSend | probeRequest | probeResponse | probeTimeout | listenTimeout | recoveryEntry |
        handoverCandidate | holdoverLimit | frameMoverViolation | testPulseEnd | pulseRecoverEnd | siLevelAccepted | offPulseEnd |
        timeMark =>
      exact outKept_next (kept_onLane s _ _)
    all_goals cases hrow
    all_goals exact outKept_next (kept_chip s _)

/-! #### A step -/

theorem step_eq_tick {s : State} (h : s.pending = []) : step s = tick s := by
  rw [step, h]

theorem step_eq_exec {s : State} {i : Instr} {rest : List Instr} (h : s.pending = i :: rest) :
    step s = exec i { s with pending := rest } := by
  rw [step, h]

/-- A step is a change that keeps the queue and the canonical form, once the front command is taken off. -/
theorem kept_of_step {s t : State} (h : step s = .next t) : Kept { s with pending := s.pending.tail } t := by
  cases hp : s.pending with
  | nil =>
    rw [step_eq_tick hp] at h
    cases h
    exact ⟨hp, memWf_of_mem rfl⟩
  | cons i rest => exact outKept_exec i _ t (step_eq_exec hp ▸ h)

/-- Settles O1: the queue's front decides which equation of step applies. -/
theorem stepRunsFrontCommand : Obligations.StepRunsFrontCommand := fun _ _ _ => rfl

/-- Settles O4: commands change memories only by canonical writes, clearing and copies of banks. -/
theorem everyStepKeepsMemoriesCanonical : Obligations.EveryStepKeepsMemoriesCanonical :=
  fun _ _ hwf hstep => (kept_of_step hstep).memWf hwf

/-- Settles O5: no command's effect touches the queue. -/
theorem everyStepConsumesOneCommand : Obligations.EveryStepConsumesOneCommand :=
  fun _ _ hstep => (kept_of_step hstep).pending

/-! #### The module after reset -/

/-- Settles O3: the fields of the reset state, and its empty memories. -/
theorem resetIsInertUnformedAndBlank : Obligations.ResetIsInertUnformedAndBlank := by
  refine ⟨⟨rfl, by decide, rfl, rfl, ?_, ?_, ?_⟩, by decide, fun l a => ?_⟩
  · intro l; cases l <;> exact ⟨rfl, rfl⟩
  · intro l; cases l <;> exact ⟨rfl, rfl⟩
  · intro l; cases l <;> exact ⟨rfl, rfl⟩
  · cases l <;> exact ⟨rfl, rfl, rfl, rfl, rfl⟩

/-! #### One tick (R7, R10, R12, R337) -/

theorem clock_tick_of_stopped {k : Clock} (h : k.running = false) : k.tick = k := by
  rw [Clock.tick, h]
  rfl

/-- Without a rate correction a tick is 10 ns and the fraction stays (R337). -/
theorem clock_tick_of_rate_zero {k : Clock} (h : k.running = true) (hr : k.rate = 0) (hf : k.frac < 2 ^ 32) :
    k.tick.nt = (k.nt + 10) % 2 ^ 64 ∧ k.tick.frac = k.frac := by
  rw [Clock.tick, h, hr]
  simp only [if_true, mul_zero, add_zero, Int.toNat_natCast]
  constructor <;> omega

theorem lane_tick_of_fenced {n : Lane} (h : n.boot.fenced = true) : n.tick = n := by
  rw [Lane.tick, h]
  rfl

theorem lane_tick_of_unfenced {n : Lane} (h : n.boot.fenced = false) : n.tick = { n with
    clock := n.clock.tick
    boot := { n.boot with wait := if n.boot.waitRuns && n.clock.running then n.boot.wait - 10 else n.boot.wait } } := by
  rw [Lane.tick, h]
  rfl

theorem traffic_priority_lt (t : Traffic) : t.priority < 7 := by
  cases t <;> decide

/-- Of two transfers that wait for a free slot, the one of the higher priority is served a quad (R12). -/
theorem linkDir_tick_serves_higher {d : LinkDir} {x y : LinkXfer} (hw : d.waiting = [x, y]) (hp : 54 ≤ d.phase)
    (hpri : y.traffic.priority < x.traffic.priority) (hq : 1 < y.quads) :
    d.tick = ({ waiting := [x, { y with quads := y.quads - 1 }], phase := d.phase - 54, last := d.last }, none) := by
  have htop : topPriority [x, y] = y.traffic.priority := by
    have := traffic_priority_lt y.traffic
    simp only [topPriority]
    omega
  have hserve : serveQuad y.traffic.priority [x, y] = ([x, { y with quads := y.quads - 1 }], none) := by
    simp [serveQuad, hpri.ne', Nat.not_le.2 hq]
  rw [LinkDir.tick, if_neg (by simp [hw]), if_neg (by omega), hw, htop, hserve]
  simp only [Option.none_or, show d.phase + 10 - 64 = d.phase - 54 by omega]

/-- Settles O2: the tick of each lane, and link traffic that touches nothing else. -/
theorem idleStepAdvancesTimebases : Obligations.IdleStepAdvancesTimebases := by
  refine ⟨fun s hs => ?_, fun d x y hw hp hpri hq => linkDir_tick_serves_higher hw hp hpri hq⟩
  have htraffic := tickLinks_traffic (s.chip.modLanes (fun _ n => n.tick))
  refine ⟨_, step_eq_tick hs, rfl, hs, htraffic.dev, htraffic.pintle, htraffic.bridges, htraffic.fresh,
    fun k _ => ⟨htraffic.fenced k, htraffic.failedNow k, htraffic.failedLast k⟩, fun l => ?_⟩
  have hlane : ((s.onChip (fun c => (c.modLanes (fun _ n => n.tick)).tickLinks)).chip.lane l) = (s.chip.lane l).tick := by
    rw [lane_eq, onChip_chip, htraffic.lanes, modLanes_lanes, tri_get_mapIdx]
    rfl
  rw [hlane]
  refine ⟨lane_tick_of_fenced, fun hf => ?_⟩
  rw [lane_tick_of_unfenced hf]
  refine ⟨rfl, fun hr => ⟨clock_tick_of_stopped hr, by rw [hr, Bool.and_false]; rfl⟩, fun hr => ⟨by rw [hr, Bool.and_true], clock_tick_of_rate_zero hr⟩⟩

/-! ### Addressed memories as functions -/

theorem cellRead_congr {m n : List Host.Cell} (k : Nat) : ∀ a, (∀ b, a ≤ b → cellGet m b = cellGet n b) → cellRead m a k = cellRead n a k := by
  induction k with
  | zero => exact fun _ _ => rfl
  | succ k ih => exact fun a h => congrArg₂ _ (h a le_rfl) (ih _ fun b hb => h b (by omega))

theorem cellRead_cellWrite (bs : List Byte) : ∀ m a, cellRead (cellWrite m a bs) a bs.length = bs := by
  induction bs with
  | nil => exact fun _ _ => rfl
  | cons b bs ih =>
    intro m a
    rw [cellWrite, List.length_cons, cellRead, ih, cellGet_write_outside _ _ _ _ (.inl (Nat.lt_succ_self a)), cellGet_set_same]

/-- Below its first address a canonical memory reads as unlisted. -/
theorem cellGet_of_above {m : List Host.Cell} : ∀ {n a : Nat}, Memory.Above n m → a < n → cellGet m a = unlisted := by
  induction m with
  | nil => exact fun _ _ => rfl
  | cons e r ih =>
    intro n a h ha
    obtain ⟨hle, -, hr⟩ := h
    rw [cellGet, if_neg (by omega), ih hr (by omega)]

theorem cellGet_cons_ne {e : Host.Cell} {r : List Host.Cell} {a : Nat} (h : e.1 ≠ a) : cellGet (e :: r) a = cellGet r a := if_neg h

theorem cellGet_cons_same (e : Host.Cell) (r : List Host.Cell) : cellGet (e :: r) e.1 = e.2 := if_pos rfl

/-- Canonical memories above a bound that read alike are one list: their first addresses agree, since each is listed in both. -/
theorem eq_of_above_of_cellGet {m : List Host.Cell} : ∀ {k : List Host.Cell} {n : Nat}, Memory.Above n m → Memory.Above n k →
    (∀ a, cellGet m a = cellGet k a) → m = k := by
  induction m with
  | nil =>
    intro k n _ hk h
    cases k with
    | nil => rfl
    | cons f t => exact absurd ((h f.1).trans (cellGet_cons_same f t)).symm hk.2.1
  | cons e r ih =>
    intro k n hm hk h
    cases k with
    | nil => exact absurd ((cellGet_cons_same e r).symm.trans (h e.1)) hm.2.1
    | cons f t =>
      obtain ⟨hne, hee, hr⟩ := hm
      obtain ⟨hnf, hff, ht⟩ := hk
      have haddr : e.1 = f.1 := by
        rcases Nat.lt_trichotomy e.1 f.1 with hlt | heq | hlt
        · refine absurd ((cellGet_cons_same e r).symm.trans (h e.1)) ?_
          rw [cellGet_cons_ne (by omega), cellGet_of_above ht (by omega)]
          exact hee
        · exact heq
        · refine absurd ((cellGet_cons_same f t).symm.trans (h f.1).symm) ?_
          rw [cellGet_cons_ne (by omega), cellGet_of_above hr (by omega)]
          exact hff
      have hval : e.2 = f.2 := by
        rw [← cellGet_cons_same e r, h e.1, haddr, cellGet_cons_same]
      have hrest : r = t := by
        refine ih (n := e.1 + 1) hr (haddr ▸ ht) fun a => ?_
        by_cases ha : e.1 = a
        · rw [cellGet_of_above hr (by omega), cellGet_of_above (haddr ▸ ht) (by omega : a < e.1 + 1)]
        · rw [← cellGet_cons_ne ha, h a, cellGet_cons_ne (haddr ▸ ha)]
      rw [hrest, Prod.ext haddr hval]

/-- Settles O6: reading back by induction on the bytes, and extensionality of canonical memories. -/
theorem memoriesReadBackAndAreTheirReads : Obligations.MemoriesReadBackAndAreTheirReads :=
  ⟨fun m a bs => ⟨cellRead_cellWrite bs m a, fun _ => cellGet_write_outside m a _ bs⟩,
    fun m n hm hn h => eq_of_above_of_cellGet ((wf_iff_above m).1 hm) ((wf_iff_above n).1 hn) h⟩

/-! ### Operations of the opcode index, from their packet to their reply (R63, R73) -/

/-- A packet that its host link answers at once is answered and accounted for, and nothing else happens (R60, R77). -/
theorem runOp_of_answer (a : OpAttr) (checks : Req → Chip → List Nat) (effect : Req → State → OpOut) (r : Req) (s : State) {st : Nat}
    (h : s.chip.linkGate (s.chip.reqCrc a.code r) r = .answer st) :
    runOp a checks effect r s = s.onChip (fun c =>
      (c.reply a.code r (answerOf st (opFails a checks r c)) []).linkAccount r (answerOf st (opFails a checks r c))) := by
  rw [runOp, h]

theorem pickStatus_cons (st : Nat) (xs : List Nat) : pickStatus (st :: xs) = some (answerOf st xs) := by
  obtain ⟨x, -, hx⟩ := exists_mem_pickStatus_of_ne_nil (List.cons_ne_nil st xs)
  rw [answerOf, hx]
  rfl

/-- The statuses of R73 that go before all others. -/
def urgentStatuses : List Nat := [stFenced, stFrozen, stSeqError]

theorem linkGate_urgent {c : Chip} {crc : Nat} {r : Req} {st : Nat} (h : c.linkGate crc r = .answer st) : st ∈ urgentStatuses := by
  unfold Chip.linkGate at h
  split at h
  · cases h
  · dsimp only at h
    split_ifs at h <;> cases h <;> decide

theorem answerOf_urgent {st : Nat} (h : st ∈ urgentStatuses) (xs : List Nat) : answerOf st xs ∈ urgentStatuses := by
  have hpick := pickStatus_cons st xs
  by_cases hfenced : stFenced ∈ st :: xs
  · rw [pickStatus_of_fenced hfenced] at hpick
    exact Option.some.inj hpick ▸ by decide
  by_cases hfrozen : stFrozen ∈ st :: xs
  · rw [pickStatus_of_frozen hfenced hfrozen] at hpick
    exact Option.some.inj hpick ▸ by decide
  have hseq : stSeqError ∈ st :: xs := by
    simp only [urgentStatuses, List.mem_cons, List.not_mem_nil, or_false] at h
    obtain rfl | rfl | rfl := h
    · exact absurd List.mem_cons_self hfenced
    · exact absurd List.mem_cons_self hfrozen
    · exact List.mem_cons_self
  rw [pickStatus_of_seqError hfenced hfrozen hseq] at hpick
  exact Option.some.inj hpick ▸ by decide

theorem ne_zero_of_urgent {st : Nat} (h : st ∈ urgentStatuses) : st ≠ 0 := by
  rintro rfl
  exact absurd h (by decide)

theorem marked_replies (a : OpAttr) (s : State) : (s.marked a).chip.dev.replies = s.chip.dev.replies := by
  unfold State.marked
  split <;> rfl

/-- Settles O7: the gates and the checks lead to a reply, and a reply changes only the accounts. -/
theorem packetsTurnedAwayHaveNoEffect : Obligations.PacketsTurnedAwayHaveNoEffect := by
  constructor
  · intro i o l st s hrow hlink hgate
    have hne := ne_zero_of_urgent (answerOf_urgent (linkGate_urgent hgate) (opFails o.attr o.checks o.req s.chip))
    obtain ⟨p, hreplies, hop, htag, hst, -⟩ := reply_link s.chip o.attr.code o.req _ [] l hlink (not_suppressed s.chip _ _ _ hne)
    refine ⟨_, p, (exec_of_row i o s hrow).trans (congrArg _ (runOp_of_answer _ _ _ _ _ hgate)),
      onChip_plain_of _ _ ((linkAccount_plain ..).trans (reply_plain ..)), (linkAccount_replies ..).trans hreplies, hop, htag, ?_⟩
    rw [pickStatus_cons, hst]
  · intro i o l st s g hrow hlink hne hg hpick
    obtain ⟨p, hreplies, hop, htag, hst, -⟩ :=
      reply_link (g.marked o.attr).chip o.attr.code o.req st [] l hlink (not_suppressed _ _ _ _ hne)
    refine ⟨_, p, (exec_of_row i o s hrow).trans (congrArg _ (runOp_fails _ _ _ _ _ _ _ hg hpick)),
      (onChip_plain_of _ _ (reply_plain ..)).trans ((marked_plain ..).trans (gated_plain _ _ _ _ hg)), hreplies.trans ?_, hop, htag, hst⟩
    rw [marked_replies, gated_replies _ _ _ _ hg]

/-- Settles O8: an operation past its gates and checks is its effect and then its reply. -/
theorem operationsThatPassTakeEffect : Obligations.OperationsThatPassTakeEffect := by
  intro i o s g hrow hg hf
  exact ⟨(exec_of_row i o s hrow).trans (congrArg _ (runOp_completes _ _ _ _ _ _ hg hf)),
    (marked_plain ..).trans (gated_plain _ _ _ _ hg)⟩

end Sys2Proof.Machine

namespace Sys2Proof.Machine
open Sys2Proof

/-! ### A packet in a write frame (R47, R53, R56, R66) -/

/-! #### The fields of a header quad are read back -/

section Header

variable {op tag b3 len ses mask seq crc : Nat} (p : List Byte)

theorem headerQuad_append : headerQuad op tag b3 len ses mask seq crc ++ p = toLe 2 op ++ (toLe 1 tag ++ (toLe 1 b3 ++
    (toLe 2 len ++ (toLe 1 ses ++ (toLe 1 mask ++ (toLe 4 seq ++ (toLe 4 crc ++ p))))))) := by
  simp only [headerQuad, List.append_assoc]

theorem headerQuad_length : (headerQuad op tag b3 len ses mask seq crc).length = 16 := by
  simp only [headerQuad, List.length_append, toLe_length]

theorem headerQuad_opcode (h : op < 256 ^ 2) : fld (headerQuad op tag b3 len ses mask seq crc ++ p) 0 2 = op := by
  rw [headerQuad_append, fld_head 2 _ _ h]

theorem headerQuad_tag (h : tag < 256 ^ 1) : fld (headerQuad op tag b3 len ses mask seq crc ++ p) 2 1 = tag := by
  rw [headerQuad_append, fld_skip 2 _ 0, fld_head 1 _ _ h]

theorem headerQuad_flags (h : b3 < 256 ^ 1) : fld (headerQuad op tag b3 len ses mask seq crc ++ p) 3 1 = b3 := by
  rw [headerQuad_append, fld_skip 2 _ 1, fld_skip 1 _ 0, fld_head 1 _ _ h]

theorem headerQuad_len (h : len < 256 ^ 2) : fld (headerQuad op tag b3 len ses mask seq crc ++ p) 4 2 = len := by
  rw [headerQuad_append, fld_skip 2 _ 2, fld_skip 1 _ 1, fld_skip 1 _ 0, fld_head 2 _ _ h]

theorem headerQuad_session (h : ses < 256 ^ 1) : fld (headerQuad op tag b3 len ses mask seq crc ++ p) 6 1 = ses := by
  rw [headerQuad_append, fld_skip 2 _ 4, fld_skip 1 _ 3, fld_skip 1 _ 2, fld_skip 2 _ 0, fld_head 1 _ _ h]

theorem headerQuad_mask (h : mask < 256 ^ 1) : fld (headerQuad op tag b3 len ses mask seq crc ++ p) 7 1 = mask := by
  rw [headerQuad_append, fld_skip 2 _ 5, fld_skip 1 _ 4, fld_skip 1 _ 3, fld_skip 2 _ 1, fld_skip 1 _ 0, fld_head 1 _ _ h]

theorem headerQuad_seq (h : seq < 256 ^ 4) : fld (headerQuad op tag b3 len ses mask seq crc ++ p) 8 4 = seq := by
  rw [headerQuad_append, fld_skip 2 _ 6, fld_skip 1 _ 5, fld_skip 1 _ 4, fld_skip 2 _ 2, fld_skip 1 _ 1, fld_skip 1 _ 0, fld_head 4 _ _ h]

theorem headerQuad_crc (h : crc < 256 ^ 4) : fld (headerQuad op tag b3 len ses mask seq crc ++ p) 12 4 = crc := by
  rw [headerQuad_append, fld_skip 2 _ 10, fld_skip 1 _ 9, fld_skip 1 _ 8, fld_skip 2 _ 6, fld_skip 1 _ 5, fld_skip 1 _ 4,
    fld_skip 4 _ 0, fld_head 4 _ _ h]

theorem headerQuad_drop : (headerQuad op tag b3 len ses mask seq crc ++ p).drop 16 = p :=
  List.drop_left' headerQuad_length

/-- The bytes under the CRC: the packet with its CRC field zero (R56). -/
theorem headerQuad_unsealed : (headerQuad op tag b3 len ses mask seq crc ++ p).take 12 ++ toLe 4 0 ++
    (headerQuad op tag b3 len ses mask seq crc ++ p).drop 16 = headerQuad op tag b3 len ses mask seq 0 ++ p := by
  have hsplit : ∃ a, a.length = 12 ∧ ∀ z, headerQuad op tag b3 len ses mask seq z = a ++ toLe 4 z :=
    ⟨toLe 2 op ++ toLe 1 tag ++ toLe 1 b3 ++ toLe 2 len ++ toLe 1 ses ++ toLe 1 mask ++ toLe 4 seq,
      by simp only [List.length_append, toLe_length], fun _ => rfl⟩
  obtain ⟨a, ha, hz⟩ := hsplit
  rw [headerQuad_drop, hz crc, hz 0, List.append_assoc a, List.take_left' ha]

end Header

theorem padQuads_of_whole {p : List Byte} (h : p.length % 16 = 0) : padQuads p = p := by
  simp [padQuads, h]

/-- A packet whose payload is whole quads, with its CRC-32C. -/
theorem packetBytes_of_whole (op tag b3 ses mask seq : Nat) {p : List Byte} (h : p.length % 16 = 0) :
    packetBytes op tag b3 ses mask seq p = headerQuad op tag b3 p.length ses mask seq
      (crc32c (headerQuad op tag b3 p.length ses mask seq 0 ++ p)) ++ p := by
  simp only [packetBytes, padQuads_of_whole h]

/-! #### Reception -/

/-- Reception looks at the opcode and the request only (R126, R369). -/
theorem receptionPasses_of_eq {c : Chip} {l : LaneId} {p q : RxPacket} (hop : p.opcode = q.opcode) (hreq : p.req = q.req) :
    c.receptionPasses l p = c.receptionPasses l q := by
  simp only [Chip.receptionPasses, headersMatch, hop, hreq]

theorem takePacket_of_taken {c : Chip} {l : LaneId} {p : RxPacket} (hun : c.unavailable l = false)
    (hcl : (c.bridges.get l).closing = false) (hrec : c.receptionPasses l { opcode := p.opcode, req := p.req } = true) :
    c.takePacket l p = (c.modLane l (fun n => n.placed p.quads)).setRx l
      ((c.bridges.get l).rx ++ [{ p with ord := (c.lane l).streamOrd, index := (c.lane l).streamQuad }]) := by
  have hp : c.receptionPasses l p = true := (receptionPasses_of_eq rfl rfl).trans hrec
  simp [Chip.takePacket, hun, hcl, hp]

/-- A write frame that holds one whole packet whose header fits and whose CRC stands hands that packet on (R49, R53). -/
theorem takePackets_single {l : LaneId} {c : Chip} {p : List Byte} {op tag b3 ses mask seq n : Nat} (hn : 0 < n)
    (hop : op < 256 ^ 2) (htag : tag < 256 ^ 1) (hb3 : b3 < 256 ^ 1) (hses : ses < 256 ^ 1) (hmask : mask < 8) (hseq : seq < 256 ^ 4)
    (hwhole : p.length % 16 = 0) (hlen : p.length ≤ 4080) (hcred : buffersOf p.length ≤ (c.bridges.get l).credits) :
    Chip.takePackets l n c (packetBytes op tag b3 ses mask seq p) = c.takePacket l {
      opcode := op, crc := crc32c (headerQuad op tag b3 p.length ses mask seq 0 ++ p), buffers := buffersOf p.length
      quads := 1 + p.length / 16
      req := { link := some l, tag := BitVec.ofNat 8 tag, flags := BitVec.ofNat 8 b3, session := ses, mask := BitVec.ofNat 8 mask,
               seq := seq, payload := p } } := by
  obtain ⟨n, rfl⟩ := Nat.exists_eq_add_of_lt hn
  rw [packetBytes_of_whole _ _ _ _ _ _ hwhole]
  generalize hz : crc32c (headerQuad op tag b3 p.length ses mask seq 0 ++ p) = z
  have hzlt : z < 256 ^ 4 := hz ▸ crc32c_lt _
  have htotal : (headerQuad op tag b3 p.length ses mask seq z ++ p).length = 16 + p.length := by
    rw [List.length_append, headerQuad_length]
  have hlenf : fld (headerQuad op tag b3 p.length ses mask seq z ++ p) 4 2 = p.length := headerQuad_len _ (by omega)
  have hmaskf : fld (headerQuad op tag b3 p.length ses mask seq z ++ p) 7 1 = mask := headerQuad_mask _ (by omega)
  have hcrcf : fld (headerQuad op tag b3 p.length ses mask seq z ++ p) 12 4 = z := headerQuad_crc _ hzlt
  have htake : (headerQuad op tag b3 p.length ses mask seq z ++ p).take (16 + p.length) = headerQuad op tag b3 p.length ses mask seq z ++ p :=
    List.take_of_length_le htotal.le
  have hdrop : (headerQuad op tag b3 p.length ses mask seq z ++ p).drop (16 + p.length) = [] :=
    List.drop_eq_nil_of_le htotal.le
  have hrx : rxPacketOf l (headerQuad op tag b3 p.length ses mask seq z ++ p) = {
      opcode := op, crc := z, buffers := buffersOf p.length, quads := 1 + p.length / 16
      req := { link := some l, tag := BitVec.ofNat 8 tag, flags := BitVec.ofNat 8 b3, session := ses, mask := BitVec.ofNat 8 mask,
               seq := seq, payload := p } } := by
    simp only [rxPacketOf, hlenf, hmaskf, hcrcf, headerQuad_opcode p hop, headerQuad_tag p htag, headerQuad_flags p hb3,
      headerQuad_session p hses, headerQuad_seq p hseq, headerQuad_drop, List.take_length]
  have hne : headerQuad op tag b3 p.length ses mask seq z ++ p ≠ [] := List.ne_nil_of_length_pos (by omega)
  have hend : ∀ d : Chip, Chip.takePackets l (0 + n) d [] = d := by
    intro d
    cases n <;> rfl
  rw [Chip.takePackets, if_neg hne, if_neg (by omega), hlenf, hmaskf, if_neg (by omega), if_neg (by omega)]
  simp only [htake, headerQuad_unsealed, hz, hcrcf, ne_eq, not_true_eq_false, if_false, hdrop, hrx, hend]
  rw [if_neg (by omega)]

/-- Where the device does not sleep, no lane is switched off and no wake begins (R479, R480). -/
theorem wakeLane_of_awake {s : State} (h : s.chip.sleeping = false) (l : LaneId) : s.wakeLane l = s := by
  unfold State.wakeLane
  split
  · rfl
  · rw [if_pos]
    simp [Chip.laneOff, h]

theorem sleeping_of_dev {c d : Chip} (h : d.dev = c.dev) : d.sleeping = c.sleeping := by
  rw [Chip.sleeping, Chip.sleeping, h]

theorem exec_writeFrame_of_awake {s : State} {l : LaneId} {bytes : List Byte} {c : Chip} (hc : writeFrame l bytes s.chip = c)
    (hs : c.sleeping = false) : exec (.writeFrame l bytes) s = .next { s with chip := c } := by
  subst hc
  exact congrArg Host.Outcome.next (wakeLane_of_awake hs l)

theorem exec_readFrame_of_awake {s : State} {l : LaneId} {address : Byte} {n : Nat} {c : Chip} (hc : readFrame l address n s.chip = c)
    (hs : c.sleeping = false) : exec (.readFrame l address n) s = .next { s with chip := c } := by
  subst hc
  exact congrArg Host.Outcome.next (wakeLane_of_awake hs l)

/-- The address byte of a bridge: its 7 bits, and bit 0 for the direction (R47). -/
theorem frameAddress {a : Nat} (ha : a < 128) {d : Nat} (hd : d < 2) : (BitVec.ofNat 8 (2 * a + d)).toNat = 2 * a + d := by
  rw [BitVec.toNat_ofNat, Nat.mod_eq_of_lt (by omega)]

/-- A write frame with the bridge's address, while the device does not sleep, goes through the filter (R47, R49). -/
theorem writeFrame_of_matches {l : LaneId} {c : Chip} {bytes : List Byte} (hm : (c.bridges.get l).matches = true)
    (ha : (c.bridges.get l).address < 128) (hon : (c.bridges.get l).hlinkOn = true) (hs : c.sleeping = false) :
    writeFrame l (BitVec.ofNat 8 (2 * (c.bridges.get l).address) :: bytes) c = Chip.takePackets l bytes.length c bytes := by
  have haddr := frameAddress ha (d := 0) (by decide)
  rw [Nat.add_zero] at haddr
  unfold writeFrame
  simp only [haddr]
  rw [if_neg (by simp [hm]), if_neg (by omega), hs]
  simp only [Bool.false_and, Bool.false_eq_true, if_false, hon, if_true]

/-- Settles O13: the header's fields and its CRC are read back, and the packet passes every check of the filter. -/
theorem writtenPacketIsReceivedAsSent : Obligations.WrittenPacketIsReceivedAsSent := by
  intro l s op tag flags mask ses seq p hop hses hmask hseq hwhole hlen hm ha hon hs hun hcl hcred hrec
  have htake := takePackets_single (c := s.chip) (l := l) (n := (packetBytes op tag.toNat flags.toNat ses mask.toNat seq p).length)
    (by simp [packetBytes_of_whole _ _ _ _ _ _ hwhole, headerQuad_length]) hop tag.isLt flags.isLt hses hmask hseq hwhole hlen hcred
  simp only [BitVec.ofNat_toNat, BitVec.setWidth_eq] at htake
  rw [takePacket_of_taken hun hcl hrec] at htake
  have hexec := exec_writeFrame_of_awake ((writeFrame_of_matches hm ha hon hs).trans htake) ((sleeping_of_dev (setRx_dev ..)).trans hs)
  exact ⟨_, _, hexec, setRx_dev .., by exact setRx_lanes .., setRx_pintle .., rfl, setRx_rx .., rfl, rfl, rfl, rfl, rfl,
    fun k hk => setRx_ne _ l k _ hk⟩

end Sys2Proof.Machine

namespace Sys2Proof.Machine
open Sys2Proof

/-! ### States that agree but for the accounts of packet traffic -/

/-- The agreed data with the accounts of packet traffic of others. -/
def Dev.withAccounts (d a : Dev) : Dev :=
  { d with hosts := a.hosts, sessions := a.sessions, replies := a.replies, events := a.events, pdus := a.pdus
           power := { d.power with activity := a.power.activity } }

/-- A lane with the fault collector and the queued events of another. -/
def Lane.withAccounts (n a : Lane) : Lane := { n with fault := a.fault, txq := a.txq }

/-- The second state differs from the first in the accounts of packet traffic and the fault collectors only. -/
structure Alike (s t : State) : Prop where
  mem : t.mem = s.mem
  pending : t.pending = s.pending
  bridges : t.chip.bridges = s.chip.bridges
  links : t.chip.links = s.chip.links
  pintle : t.chip.pintle = s.chip.pintle
  fresh : t.chip.fresh = s.chip.fresh
  dev : t.chip.dev = s.chip.dev.withAccounts t.chip.dev
  lanes : ∀ l, t.chip.lanes.get l = (s.chip.lanes.get l).withAccounts (t.chip.lanes.get l)

theorem dev_withAccounts_of_plain {d e : Dev} (h : e.plain = d.plain) : e = d.withAccounts e :=
  calc e = e.plain.withAccounts e := rfl
    _ = d.plain.withAccounts e := by rw [h]
    _ = d.withAccounts e := rfl

theorem lane_withAccounts_of_plain {n m : Lane} (h : m.plain = n.plain) : m = n.withAccounts m :=
  calc m = m.plain.withAccounts m := rfl
    _ = n.plain.withAccounts m := by rw [h]
    _ = n.withAccounts m := rfl

theorem alike_iff_plain {s t : State} : Alike s t ↔ t.plain = s.plain := by
  constructor
  · rintro ⟨hmem, hpending, hbridges, hlinks, hpintle, hfresh, hdev, hlanes⟩
    have hlanes' : t.chip.lanes.map Lane.plain = s.chip.lanes.map Lane.plain :=
      tri_ext fun l => by rw [tri_get_map, tri_get_map, hlanes l]; rfl
    have hdev' : t.chip.dev.plain = s.chip.dev.plain := by rw [hdev]; rfl
    simp only [State.plain, Chip.plain, hmem, hpending, hbridges, hlinks, hpintle, hfresh, hdev', hlanes']
  · intro h
    have hchip : t.chip.plain = s.chip.plain := congrArg (fun x => x.chip) h
    have hlanes : t.chip.lanes.map Lane.plain = s.chip.lanes.map Lane.plain := congrArg (fun x => x.lanes) hchip
    exact ⟨congrArg (fun x => x.mem) h, congrArg (fun x => x.pending) h, congrArg (fun x => x.bridges) hchip,
      congrArg (fun x => x.links) hchip, congrArg (fun x => x.pintle) hchip, congrArg (fun x => x.fresh) hchip,
      dev_withAccounts_of_plain (congrArg (fun x => x.dev) hchip),
      fun l => lane_withAccounts_of_plain (by simpa using congrArg (fun x => x.get l) hlanes)⟩

theorem Alike.plain {s t : State} (h : Alike s t) : t.plain = s.plain := alike_iff_plain.1 h

theorem alike_of_plain {s t : State} (h : t.plain = s.plain) : Alike s t := alike_iff_plain.2 h

theorem Alike.trans {s t u : State} (h : Alike s t) (k : Alike t u) : Alike s u := alike_of_plain (k.plain.trans h.plain)

theorem Alike.symm {s t : State} (h : Alike s t) : Alike t s := alike_of_plain h.plain.symm

section Reads

variable {s t : State} (h : Alike s t)
include h

theorem Alike.cfg : t.chip.dev.cfg = s.chip.dev.cfg := by rw [h.dev]; rfl
theorem Alike.ws : t.chip.dev.cfg.ws = s.chip.dev.cfg.ws := by rw [h.cfg]

theorem Alike.par (p : PInfo) (i : Nat) : t.chip.par p i = s.chip.par p i := by rw [Chip.par, Chip.par, h.ws]
theorem Alike.parN (p : PInfo) (i : Nat) : t.chip.parN p i = s.chip.parN p i := by rw [Chip.parN, Chip.parN, h.par]

theorem Alike.authority : t.chip.dev.authority = s.chip.dev.authority := by rw [h.dev]; rfl
theorem Alike.inAuth (l : LaneId) : t.chip.inAuth l = s.chip.inAuth l := by rw [Chip.inAuth, Chip.inAuth, h.authority]
theorem Alike.authLanes : t.chip.authLanes = s.chip.authLanes := by rw [Chip.authLanes, Chip.authLanes, h.authority]

end Reads

/-! ### An operation that is admitted -/

/-- A packet that passes the shared checks, and whose own checks pass, has its operation's effect in a state that agrees with the given
one but for the accounts, and then its reply. -/
theorem exec_of_admits {i : Instr} {o : OpRow} (hrow : opRow i = some o) {s : State} (h : s.admits o.attr o.req = true) :
    ∃ t, Alike s t ∧ t.chip.dev.replies = s.chip.dev.replies ∧
      (o.checks o.req t.chip = [] → exec i s = .next ((o.effect o.req t).finish o.attr o.req)) := by
  obtain ⟨g, hg, hf⟩ := admits_gated _ _ _ h
  refine ⟨g.marked o.attr, alike_of_plain ((marked_plain ..).trans (gated_plain _ _ _ _ hg)),
    (marked_replies ..).trans (gated_replies _ _ _ _ hg), fun hc => ?_⟩
  rw [exec_of_row i o s hrow, runOp_completes _ _ _ _ _ _ hg]
  unfold opFails
  rw [marked_fails, hf, hc]
  rfl

theorem finish_eq_of_not_defer {a : OpAttr} {r : Req} {o : OpOut} (h : o.defer = false) :
    o.finish a r = o.st.onChip (fun c => c.reply a.code r o.status o.payload) := by
  rw [OpOut.finish, h]
  rfl

@[simp] theorem finish_mem (a : OpAttr) (r : Req) (o : OpOut) : (o.finish a r).mem = o.st.mem := by
  unfold OpOut.finish
  split <;> rfl

theorem alike_finish (a : OpAttr) (r : Req) (o : OpOut) : Alike o.st (o.finish a r) := alike_of_plain (finish_plain a r o)

/-! ### A reply to a packet that carries no session -/

/-- The packet that answers a request of a host link outside sessions. -/
def replyPacket (code : Nat) (r : Req) (st : Nat) (data : List Byte) : OutPacket :=
  { opcode := code, tag := r.tag, status := st, session := 0, mask := r.mask, seq := r.seq, payload := data }

theorem reply_eq {c : Chip} {r : Req} {l : LaneId} (hl : r.link = some l) (h0 : r.session = 0) {code st : Nat} {data : List Byte}
    (hs : c.suppressed 0 (hasBit r.flags 0) st = false) :
    c.reply code r st data = (c.modDev (fun d => { d with replies := d.replies ++ [(l, replyPacket code r st data)] })).modHost l
      (fun h => { h with lastReply := some (replyPacket code r st data) }) := by
  simp only [Chip.reply, h0, hs, Chip.sendReply, hl, replyPacket, Bool.false_eq_true, if_false, if_true]

theorem finish_link {a : OpAttr} {r : Req} {o : OpOut} {l : LaneId} (hl : r.link = some l) (h0 : r.session = 0)
    (hflag : hasBit r.flags 0 = false) (hd : o.defer = false) : (o.finish a r).chip.dev.replies =
      o.st.chip.dev.replies ++ [(l, replyPacket a.code r o.status o.payload)] := by
  rw [finish_eq_of_not_defer hd, onChip_chip, reply_eq hl h0 (by rw [hflag]; exact not_suppressed_flag ..)]
  rfl

/-! ### Free values -/

@[simp] theorem drawBytes_chip (n : Nat) : ∀ c : Chip, (c.drawBytes n).2 = { c with fresh := c.fresh + n } := by
  induction n with
  | zero => exact fun _ => rfl
  | succ n ih =>
    intro c
    rw [Chip.drawBytes]
    simp only [ih, Chip.draw, Nat.add_assoc, Nat.add_comm 1 n]

@[simp] theorem drawBytes_length (n : Nat) : ∀ c : Chip, (c.drawBytes n).1.length = n := by
  induction n with
  | zero => exact fun _ => rfl
  | succ n ih =>
    intro c
    rw [Chip.drawBytes]
    simp only [List.length_cons, ih]

@[simp] theorem freeRead_st (n : Nat) (s : State) : (freeRead n s).st = { s with chip := { s.chip with fresh := s.chip.fresh + 16 * n } } := by
  simp only [freeRead, drawBytes_chip]

@[simp] theorem freeRead_payload_length (n : Nat) (s : State) : (freeRead n s).payload.length = 16 * n := by
  simp only [freeRead, drawBytes_length]

/-- Settles O11: each of the three operations passes its own checks, and its effect is no more than free values. -/
theorem echoIdentifyAndUnknownOpcodes : Obligations.EchoIdentifyAndUnknownOpcodes := by
  intro r l s hl h0 hflag
  refine ⟨fun hadm => ?echo, fun hadm hbody => ?identify, fun code hcode hadm => ?unknown⟩
  case echo =>
    obtain ⟨t, halike, hreplies, hexec⟩ := exec_of_admits (i := .sysEcho r) rfl hadm
    exact ⟨_, _, hexec rfl, (finish_plain ..).trans halike.plain,
      (finish_link hl h0 hflag rfl).trans (congrArg (· ++ _) hreplies), rfl, rfl, rfl, rfl⟩
  case identify =>
    obtain ⟨t, halike, hreplies, hexec⟩ := exec_of_admits (i := .sysIdentify r) rfl hadm
    refine ⟨_, _, hexec (by simp [checksNone, payloadFails, hbody]), (finish_plain ..).trans ?_,
      (finish_link hl h0 hflag rfl).trans (congrArg (· ++ _) ?_), rfl, rfl, freeRead_payload_length 1 t⟩
    · show _ = ({ s.plain with chip := { s.plain.chip with fresh := s.chip.fresh + 16 } } : State)
      rw [show (effectSysIdentify r t).st = _ from freeRead_st 1 t, ← halike.fresh, ← halike.plain]
      rfl
    · rw [show (effectSysIdentify r t).st = _ from freeRead_st 1 t]
      exact hreplies
  case unknown =>
    obtain ⟨g, hg, hf⟩ := admits_gated _ _ _ hadm
    have hpick : pickStatus (opFails (attrUnknown code.toNat) checksUnknown r (g.marked (attrUnknown code.toNat)).chip) = some 0x10 := by
      rw [opFails, marked_fails, hf]
      rfl
    have hexec : exec (.opcodeNotInIndex code r) s = _ := (congrArg Host.Outcome.next (if_neg (by simp [hcode]))).trans
      (congrArg Host.Outcome.next (runOp_fails _ _ effectUnknown _ _ _ _ hg hpick))
    refine ⟨_, replyPacket code.toNat r 0x10 [], hexec, (onChip_plain_of _ _ (reply_plain ..)).trans ((marked_plain ..).trans (gated_plain _ _ _ _ hg)), ?_, rfl, rfl⟩
    rw [onChip_chip, reply_eq hl h0 (not_suppressed _ _ _ _ (by decide))]
    exact congrArg (· ++ _) ((marked_replies ..).trans (gated_replies _ _ _ _ hg))

end Sys2Proof.Machine

namespace Sys2Proof.Machine
open Sys2Proof

/-! ### Host links: synchronisation, freeze and release (R60, R77, R79, R80) -/

theorem recordsOnly_frozen {c d : Chip} (h : RecordsOnly c d) (k : LaneId) : (d.dev.hosts.get k).frozen = (c.dev.hosts.get k).frozen := by
  rw [h.hosts k]

theorem recordsOnly_violatedNow {c d : Chip} (h : RecordsOnly c d) (k : LaneId) :
    (d.dev.hosts.get k).violatedNow = (c.dev.hosts.get k).violatedNow := by
  rw [h.hosts k]

/-- A release ends the freeze of its own link, unless that froze in the same period (R79, R80). -/
theorem releaseLink_frozen (c : Chip) (l k : LaneId) : ((c.releaseLink l).dev.hosts.get k).frozen =
    ((c.dev.hosts.get k).frozen && (decide (k ≠ l) || (c.dev.hosts.get k).violatedNow)) := by
  unfold Chip.releaseLink
  split
  · rename_i h
    rw [recordsOnly_frozen (agreedFault_only ..), modHost_dev, tri_get_set]
    by_cases hk : k = l
    · subst hk
      simp only [Bool.and_eq_true, Bool.not_eq_true'] at h
      rw [if_pos rfl, h.2]
      split <;> simp
    · simp [hk]
  · rename_i h
    by_cases hk : k = l
    · subst hk
      revert h
      cases (c.dev.hosts.get k).frozen <;> cases (c.dev.hosts.get k).violatedNow <;> simp
    · simp [hk]

theorem releaseLink_violatedNow (c : Chip) (l k : LaneId) :
    ((c.releaseLink l).dev.hosts.get k).violatedNow = (c.dev.hosts.get k).violatedNow := by
  unfold Chip.releaseLink
  split
  · rw [recordsOnly_violatedNow (agreedFault_only ..), modHost_dev, tri_get_set]
    split
    · rename_i hk
      subst hk
      split <;> rfl
    · rfl
  · rfl

theorem releaseLinks_violatedNow (ls : List LaneId) (k : LaneId) : ∀ c : Chip,
    ((ls.foldl (fun c l => c.releaseLink l) c).dev.hosts.get k).violatedNow = (c.dev.hosts.get k).violatedNow := by
  induction ls with
  | nil => exact fun _ => rfl
  | cons l ls ih => exact fun c => (ih _).trans (releaseLink_violatedNow c l k)

/-- Of several links released, each that did not freeze in the same period is released. -/
theorem releaseLinks_frozen (ls : List LaneId) {k : LaneId} : ∀ c : Chip, (c.dev.hosts.get k).violatedNow = false →
    (k ∈ ls ∨ (c.dev.hosts.get k).frozen = false) → ((ls.foldl (fun c l => c.releaseLink l) c).dev.hosts.get k).frozen = false := by
  induction ls with
  | nil => exact fun c _ h => h.resolve_left List.not_mem_nil
  | cons l ls ih =>
    intro c hv h
    refine ih _ ((releaseLink_violatedNow c l k).trans hv) ?_
    rw [releaseLink_frozen, hv]
    by_cases hk : k = l
    · simp [hk]
    · simpa [hk] using h

/-! #### The hosts past the gates -/

theorem keeps_ite {α : Type} (P : Chip → Prop) {q : Prop} [Decidable q] {x y : α × Chip} (hx : P x.2) (hy : P y.2) :
    P (if q then x else y).2 := by
  split
  · exact hx
  · exact hy

/-- What changes of the session and agreed records keep, the session's gate keeps. -/
theorem sessionGate_keeps (P : Chip → Prop) (n : Nat) (hses : ∀ (c : Chip) f, P c → P (c.modSession n f))
    (hfault : ∀ (c : Chip) code t i lane k, P c → P (c.agreedFault code t i lane k)) (right : Option Nat) (p : PduHdr) {c : Chip} (h : P c) :
    P (c.sessionGate right n p).2 := by
  have hadv : P (c.advance n p) := hses _ _ h
  have hviol : P (c.violate n) := hfault _ _ _ _ _ _ (hses _ _ h)
  unfold Chip.sessionGate
  dsimp only
  split
  · exact h
  · exact h
  · exact h
  · refine keeps_ite P hviol (keeps_ite P hadv (keeps_ite P hviol (keeps_ite P (hfault _ _ _ _ _ _ (hses _ _ hadv))
      (keeps_ite P hviol (keeps_ite P (hfault _ _ _ _ _ _ (hses _ _ (hses _ _ hadv))) (hses _ _ hadv))))))

theorem sessionGate_violatedNow (c : Chip) (right : Option Nat) (n : Nat) (p : PduHdr) (k : LaneId) :
    ((c.sessionGate right n p).2.dev.hosts.get k).violatedNow = (c.dev.hosts.get k).violatedNow :=
  sessionGate_keeps (fun d => (d.dev.hosts.get k).violatedNow = (c.dev.hosts.get k).violatedNow) n
    (fun d f hd => by rw [modSession_dev]; exact hd) (fun d _ _ _ _ _ hd => (recordsOnly_violatedNow (agreedFault_only ..) k).trans hd) right p rfl

theorem linkAdvance_violatedNow (c : Chip) (crc : Nat) (r : Req) (k : LaneId) :
    ((c.linkAdvance crc r).dev.hosts.get k).violatedNow = (c.dev.hosts.get k).violatedNow := by
  unfold Chip.linkAdvance
  split
  · rfl
  · rw [modHost_dev, tri_get_set]
    split
    · rename_i hk
      rw [hk]
    · rfl

theorem gated_violatedNow {a : OpAttr} {r : Req} {s g : State} (h : s.gated a r = some g) (k : LaneId) :
    (g.chip.dev.hosts.get k).violatedNow = (s.chip.dev.hosts.get k).violatedNow := by
  unfold State.gated at h
  split at h
  · dsimp only at h
    split at h
    · rw [← Option.some.inj h]
      exact linkAdvance_violatedNow ..
    · split at h
      · rename_i c hg
        have hc := sessionGate_violatedNow (s.onChip (fun c => c.linkAdvance (c.reqCrc a.code r) r)).chip a.right r.session r.pdu k
        rw [hg] at hc
        rw [← Option.some.inj h]
        exact hc.trans (linkAdvance_violatedNow ..)
      · cases h
  · cases h

theorem marked_hosts (a : OpAttr) (s : State) : (s.marked a).chip.dev.hosts = s.chip.dev.hosts := by
  unfold State.marked
  split <;> rfl

/-- A packet that passes the shared checks, with the state past its gates named. -/
theorem exec_of_admits_gated {i : Instr} {o : OpRow} (hrow : opRow i = some o) {s : State} (h : s.admits o.attr o.req = true) :
    ∃ g, s.gated o.attr o.req = some g ∧
      (o.checks o.req (g.marked o.attr).chip = [] → exec i s = .next ((o.effect o.req (g.marked o.attr)).finish o.attr o.req)) := by
  obtain ⟨g, hg, hf⟩ := admits_gated _ _ _ h
  refine ⟨g, hg, fun hc => ?_⟩
  rw [exec_of_row i o s hrow, runOp_completes _ _ _ _ _ _ hg]
  rw [opFails, marked_fails, hf, hc]
  rfl

/-- A reply changes of the host links only the last reply of the link that carried the packet. -/
theorem reply_frozen (c : Chip) (code : Nat) (r : Req) (st : Nat) (data : List Byte) (k : LaneId) :
    ((c.reply code r st data).dev.hosts.get k).frozen = (c.dev.hosts.get k).frozen := by
  have hlast : ∀ (d : Chip) l x, ((d.modHost l (fun h => { h with lastReply := x })).dev.hosts.get k).frozen = (d.dev.hosts.get k).frozen := by
    intro d l x
    rw [modHost_dev, tri_get_set]
    split
    · rename_i hk
      rw [hk]
    · rfl
  have hsend : ((c.sendReply r.link code r.tag r.session r.mask r.seq st data).2.dev.hosts.get k).frozen = (c.dev.hosts.get k).frozen := by
    unfold Chip.sendReply Chip.ownPdu Chip.putPdu
    cases r.link <;> by_cases h0 : r.session = 0 <;> simp [h0]
  unfold Chip.reply
  split
  · split
    · exact hlast ..
    · rfl
  · dsimp only
    split
    · exact (hlast ..).trans hsend
    · exact hsend

/-! #### HOST.LINK_SYNC (R60) -/

theorem syncFails_nil {r : Req} {l : LaneId} {c : Chip} (hl : r.link = some l) (ha : c.inAuth l = true) (hf : (c.lane l).boot.fenced = false)
    (hflags : r.flags = 0) (hp : r.payload = []) (hm : r.mask = 0 ∨ r.mask = bitMask l.idx) (h0 : r.session = 0) : syncFails r c = [] := by
  have hm' : r.mask = 0#8 ∨ r.mask = bitMask l.idx := hm
  rw [lane_eq] at hf
  simp [syncFails, hl, ha, hf, hflags, hp, h0, hm']

theorem linkSync_of_passes {r : Req} {l : LaneId} {c : Chip} (hl : r.link = some l) (h0 : r.session = 0) (hflags : r.flags = 0)
    (hsync : syncFails r c = []) (htag : (c.dev.hosts.get l).tags.contains r.tag = false) :
    linkSync r c = ((c.modHost l (fun h =>
        if h.frozen then { h with expected := (r.seq + 1) % 2 ^ 32, freezeSync := some ((r.seq + 1) % 2 ^ 32), lastCrc := none, lastReply := none, seqErrors := 0 }
        else { h with synced := true, expected := (r.seq + 1) % 2 ^ 32, lastCrc := none, lastReply := none, seqErrors := 0 })).modDev
          (fun d => { d with replies := d.replies ++ [(l, replyPacket 0x3010 r stOk [])] })).modHost l
      (fun h => { h with lastReply := some (replyPacket 0x3010 r stOk []) }) := by
  have htags : tagFails r c = [] := by
    rw [tagFails, hl]
    exact if_neg (Bool.eq_false_iff.1 htag)
  unfold linkSync
  rw [hsync, htags]
  simp only [List.append_nil, pickStatus_nil, hl]
  exact reply_eq hl h0 (by rw [hflags]; exact not_suppressed_flag ..)

theorem queueReply_plain (c : Chip) (e : LaneId × OutPacket) :
    (c.modDev (fun d => { d with replies := d.replies ++ [e] })).plain = c.plain := modDev_plain_of _ _ rfl

/-- Settles O10: LINK_SYNC by its one equation, and both releases by what releaseLink does to a freeze. -/
theorem hostLinksSynchroniseAndUnfreeze : Obligations.HostLinksSynchroniseAndUnfreeze := by
  refine ⟨fun r l s hl ha hf hflags hp hm h0 htag => ?sync, fun s => ⟨fun r hadm hlen hmask hzero hown => ?unfreeze, fun l hv => ?quiet⟩⟩
  case sync =>
    have heq := linkSync_of_passes hl h0 hflags (syncFails_nil hl ha hf hflags hp hm h0) htag
    have hexec : exec (.linkSync r) s = .next { s with chip := linkSync r s.chip } := rfl
    have hplain : ({ s with chip := linkSync r s.chip } : State).plain = s.plain :=
      onChip_plain_of s (linkSync r) (by rw [heq, modHost_plain, queueReply_plain, modHost_plain])
    rw [heq] at hexec hplain
    refine ⟨_, replyPacket 0x3010 r stOk [], hexec, ?_, fun h => ?_, fun h => ?_, ?_, rfl, ?_, ?_, fun k hk => ?_⟩
    · simp only [modHost_dev, modDev_dev, tri_get_set_same]
      split <;> rfl
    · simp [h]
    · simp [h]
    · simp only [modHost_dev, modDev_dev]
    · exact hplain
    · simp only [modHost_lanes, modDev_lanes]
    · simp only [modHost_dev, modDev_dev]
      rw [tri_get_set_ne _ _ _ _ hk, tri_get_set_ne _ _ _ _ hk]
  case unfreeze =>
    have hchecks : ∀ c, checksHostUnfreeze r c = [] := by
      intro c
      rw [checksHostUnfreeze, if_pos ⟨hlen, hmask, hzero⟩, if_neg]
      · rfl
      · rintro ⟨h0, hany⟩
        obtain ⟨l, hmem, hl⟩ := List.any_eq_true.1 hany
        exact hown h0 l hmem (of_decide_eq_true hl)
    obtain ⟨g, hg, hexec⟩ := exec_of_admits_gated (i := .hostUnfreeze r) rfl hadm
    refine ⟨_, hexec (hchecks (g.marked attrHostUnfreeze).chip), ?_, fun l hl _ hv => ?_⟩
    · exact (finish_plain ..).trans ((onChip_plain_of _ _ (foldl_plain _ releaseLink_plain _ _)).trans
        ((marked_plain ..).trans (gated_plain _ _ _ _ hg)))
    · refine (reply_frozen ..).trans (releaseLinks_frozen _ _ ?_ (.inl hl))
      rw [marked_hosts, gated_violatedNow hg, hv]
  case quiet =>
    refine ⟨_, rfl, onChip_plain_of _ _ (releaseLink_plain ..), ?_, fun k hk => ?_⟩
    · rw [onChip_chip, freezeQuietExpiry, releaseLink_frozen, hv]
      simp
    · rw [onChip_chip, freezeQuietExpiry, releaseLink_frozen]
      simp [hk]

end Sys2Proof.Machine

namespace Sys2Proof.Machine
open Sys2Proof

/-! ### Fault records leave the bridges, links, Pintle die and lanes' own state -/

@[simp] theorem localFault_bridges (c : Chip) (l : LaneId) (code t i k : Nat) : (c.localFault l code t i k).bridges = c.bridges :=
  (localFault_only ..).bridges
@[simp] theorem localFault_links (c : Chip) (l : LaneId) (code t i k : Nat) : (c.localFault l code t i k).links = c.links :=
  (localFault_only ..).links
@[simp] theorem localFault_pintle (c : Chip) (l : LaneId) (code t i k : Nat) : (c.localFault l code t i k).pintle = c.pintle :=
  (localFault_only ..).pintle
@[simp] theorem localFault_fresh (c : Chip) (l : LaneId) (code t i k : Nat) : (c.localFault l code t i k).fresh = c.fresh :=
  (localFault_only ..).fresh

@[simp] theorem agreedFault_bridges (c : Chip) (code t i k n : Nat) : (c.agreedFault code t i k n).bridges = c.bridges :=
  (agreedFault_only ..).bridges
@[simp] theorem agreedFault_links (c : Chip) (code t i k n : Nat) : (c.agreedFault code t i k n).links = c.links :=
  (agreedFault_only ..).links
@[simp] theorem agreedFault_pintle (c : Chip) (code t i k n : Nat) : (c.agreedFault code t i k n).pintle = c.pintle :=
  (agreedFault_only ..).pintle
@[simp] theorem agreedFault_fresh (c : Chip) (code t i k n : Nat) : (c.agreedFault code t i k n).fresh = c.fresh :=
  (agreedFault_only ..).fresh

@[simp] theorem setRx_lost (c : Chip) (l : LaneId) (rx : List RxPacket) : ((c.setRx l rx).bridges.get l).lost = (c.bridges.get l).lost := by
  obtain ⟨e, he⟩ := setRx_eq c l rx
  rw [he, modBridge_bridges, tri_get_set_same]
@[simp] theorem setRx_powered (c : Chip) (l : LaneId) (rx : List RxPacket) :
    ((c.setRx l rx).bridges.get l).powered = (c.bridges.get l).powered := by
  obtain ⟨e, he⟩ := setRx_eq c l rx
  rw [he, modBridge_bridges, tri_get_set_same]

/-! ### Bridge events (R48, R54, R55, R65, R68, R444) -/

theorem haonPowerUp_bridges_same (l : LaneId) (straps : BitVec 7) (v : Bool) (c : Chip) : (haonPowerUp l straps v c).bridges.get l =
    { powered := true, address := straps.toNat, vddh33 := v, hlinkOn := true, silent := !(c.inAuth l),
      ioWidth := if c.inAuth l then c.parN Par.hostIoWidth l.idx else 1 } := tri_get_set_same ..

/-- A packet that the bridge makes room for crosses the barrier whole: with no I/O width waiting on it, nothing else changes. -/
theorem replyTransfer_intact {l : LaneId} {c : Chip} {p : OutPacket} {ps : List OutPacket} (hq : (c.lane l).txq = p :: ps)
    (hev : p.isEvent = false) (hop : p.opcode % 256 ≠ 2) (hs : (c.bridges.get l).silent = false) (hl : (c.bridges.get l).lost = false)
    (hp : (c.bridges.get l).powered = true) (hroom : queueUsed (c.bridges.get l).queue + p.size ≤ queueBytes) :
    replyTransfer l .intact c = (c.modLane l (fun x => { x with txq := ps })).queuePacket l p := by
  have hkept : p.kept = true := by simp [OutPacket.kept, hev]
  rw [lane_eq] at hq
  simp [replyTransfer, hs, hl, hp, hq, receivedOut, hkept, hop, Nat.not_lt.2 hroom]

/-- In place of a damaged reply its reply-lost event is kept (R54). -/
theorem replyTransfer_corrupt {l : LaneId} {c : Chip} {p : OutPacket} {ps : List OutPacket} (hq : (c.lane l).txq = p :: ps)
    (hop : p.opcode % 256 ≠ 2) (hs : (c.bridges.get l).silent = false) (hl : (c.bridges.get l).lost = false)
    (hp : (c.bridges.get l).powered = true) (hroom : queueUsed (c.bridges.get l).queue + 32 ≤ queueBytes) :
    replyTransfer l .corrupt c = ((c.modHost l (fun h => { h with events := ((c.dev.hosts.get l).events + 1) % 2 ^ 32 })).modLane l
      (fun x => { x with txq := ps })).queuePacket l (lostEvent p (c.dev.hosts.get l).events) := by
  have hkept : ∀ n, (lostEvent p n).kept = true := by
    intro n
    have : fld (lostEvent p n).payload 0 2 = 1 := by
      simp only [lostEvent, List.append_assoc]
      exact fld_head 2 1 _ (by decide)
    simp [OutPacket.kept, this]
  have hsize : ∀ n, (lostEvent p n).size = 32 := by
    intro n
    simp only [OutPacket.size, lostEvent, padQuads, List.length_append, toLe_length, List.length_replicate]
  rw [lane_eq] at hq
  simp [replyTransfer, hs, hl, hp, hq, receivedOut, hkept, hsize, hop, Nat.not_lt.2 hroom]

/-- A lost bridge: its lane's record and fence touch no bridge. -/
theorem hostBridgeLost_bridges {l : LaneId} {c : Chip} (h : (c.bridges.get l).lost = false) : (hostBridgeLost l c).bridges =
    ((c.modBridge l (fun b => { b with lost := true, powered := false, queue := [], waking := false })).setRx l []).bridges := by
  unfold hostBridgeLost
  rw [h]
  simp only [Bool.false_eq_true, if_false]
  split
  · rfl
  · simp [Chip.ownFence, Chip.setUnitFence]

/-! ### Read frames (R50, R52) -/

theorem queueUsed_cons (p : OutPacket) (q : List OutPacket) : queueUsed (p :: q) = p.size + queueUsed q := by
  have hacc : ∀ (q : List OutPacket) n, q.foldl (fun n p => n + p.size) n = n + queueUsed q := by
    intro q
    induction q with
    | nil => exact fun _ => rfl
    | cons x q ih => exact fun n => by rw [queueUsed, List.foldl_cons, List.foldl_cons, ih, ih, Nat.zero_add, Nat.add_assoc]
  rw [queueUsed, List.foldl_cons, hacc, Nat.zero_add]

/-- How a read frame of n bytes goes over the queue: the packets left over, the bytes used, and whether the frame has room (R50). -/
def frameStep (n : Nat) (a : List OutPacket × Nat × Bool) (p : OutPacket) : List OutPacket × Nat × Bool :=
  if a.2.2 && decide (a.2.1 + p.size ≤ n) then (a.1, a.2.1 + p.size, true) else (a.1 ++ [p], a.2.1, false)

theorem frameFold_full (n : Nat) (q : List OutPacket) : ∀ left used,
    q.foldl (frameStep n) (left, used, false) = (left ++ q, used, false) := by
  induction q with
  | nil => exact fun left used => by rw [List.append_nil]; rfl
  | cons p q ih =>
    intro left used
    rw [List.foldl_cons, frameStep, if_neg (by simp), ih, List.append_assoc]
    rfl

/-- The packets that fit leave the queue from its front on, up to the first that does not fit. -/
theorem frameFold_fits (n : Nat) (q : List OutPacket) : ∀ used, used ≤ n → ∃ k,
    (q.foldl (frameStep n) ([], used, true)).1 = q.drop k ∧ used + queueUsed (q.take k) ≤ n ∧
      ∀ p ps, q.drop k = p :: ps → n < used + queueUsed (q.take k) + p.size := by
  induction q with
  | nil => exact fun used h => ⟨0, rfl, h, by rintro _ _ ⟨⟩⟩
  | cons p q ih =>
    intro used h
    by_cases hfit : used + p.size ≤ n
    · obtain ⟨k, hk, hle, hnext⟩ := ih (used + p.size) hfit
      refine ⟨k + 1, ?_, ?_, fun x xs hx => ?_⟩
      · rw [List.foldl_cons, frameStep, if_pos (by simp [hfit]), hk, List.drop_succ_cons]
      · rw [List.take_succ_cons, queueUsed_cons]
        omega
      · rw [List.drop_succ_cons] at hx
        have := hnext x xs hx
        rw [List.take_succ_cons, queueUsed_cons]
        omega
    · refine ⟨0, ?_, h, ?_⟩
      · rw [List.foldl_cons, frameStep, if_neg (by simp [hfit]), frameFold_full]
        rfl
      · rintro x xs ⟨⟩
        exact Nat.not_le.1 hfit

/-- The frame that a bridge drives: its status quad, its packets, then 0xFF (R50, R52). -/
def readFrameBytes (c : Chip) (l : LaneId) (n : Nat) : List Byte :=
  let out := c.statusQuad l ++ (c.bridges.get l).queue.flatMap (fun p => p.bytes)
  out.take n ++ List.replicate (n - out.length) 0xFF#8

theorem readFrame_of_matches {l : LaneId} {c : Chip} {n : Nat} (hm : (c.bridges.get l).matches = true)
    (ha : (c.bridges.get l).address < 128) (hon : (c.bridges.get l).hlinkOn = true) (hs : c.sleeping = false) (hn : 16 ≤ n) :
    readFrame l (BitVec.ofNat 8 (2 * (c.bridges.get l).address + 1)) n c = c.modBridge l (fun b =>
      { b.drive (readFrameBytes c l n) with
        queue := ((c.bridges.get l).queue.foldl (frameStep n) ([], 16, true)).1, edges := 0, rejects := 0, dropped := 0 }) := by
  have haddr := frameAddress ha (d := 1) (by decide)
  unfold readFrame
  simp only [haddr]
  rw [if_neg (by simp [hm]; omega)]
  simp only [hs, Bool.false_and, Bool.false_eq_true, if_false, hon]
  rw [if_neg (by simp)]
  simp only [hn, if_true]
  rfl

/-- Settles O12: each bridge event by its equation, and a read frame by the fold over its queue. -/
theorem bridgeEventsAndReadFrames : Obligations.BridgeEventsAndReadFrames := by
  refine ⟨fun s l => ⟨fun straps v => ?powerUp, ?silent, fun p ps hq hev hop hs hlost hp => ⟨fun hroom => ?intact, fun hroom => ?damaged⟩,
    fun hlost => ?lost⟩, fun l s n hm ha hon hs hn => ?read⟩
  case powerUp =>
    have hb := haonPowerUp_bridges_same l straps v s.chip
    refine ⟨_, rfl, rfl, rfl, congrArg Bridge.powered hb, congrArg Bridge.address hb, congrArg Bridge.vddh33 hb, congrArg Bridge.rx hb,
      congrArg Bridge.queue hb, ?_, fun k hk => ⟨tri_get_set_ne _ _ _ _ hk, tri_get_set_ne _ _ _ _ hk⟩⟩
    exact congrArg HostLink.synced (tri_get_set_same ..)
  case silent =>
    refine ⟨_, rfl, rfl, setRx_lanes .., setRx_dev .., (setRx_silent ..).trans ?_, setRx_rx .., (setRx_queue ..).trans ?_, fun k hk => ?_⟩
    · exact congrArg Bridge.silent (tri_get_set_same ..)
    · rw [modBridge_bridges, tri_get_set_same]
    · exact (setRx_ne _ l k _ hk).trans (tri_get_set_ne _ _ _ _ hk)
  case intact =>
    have h := replyTransfer_intact hq hev hop hs hlost hp hroom
    refine ⟨_, rfl, rfl, ?_, ?_, ?_⟩ <;> rw [onChip_chip, h] <;> rfl
  case damaged =>
    have h := replyTransfer_corrupt hq hop hs hlost hp hroom
    refine ⟨_, rfl, rfl, ?_, ?_, ?_⟩ <;> rw [onChip_chip, h]
    · rfl
    · exact congrArg HostLink.events (tri_get_set_same ..)
    · rfl
  case lost =>
    have h := hostBridgeLost_bridges hlost
    refine ⟨_, rfl, rfl, ?_, ?_, ?_, ?_, fun k hk => ?_⟩ <;> rw [onChip_chip, h]
    · exact (setRx_lost ..).trans (congrArg Bridge.lost (tri_get_set_same ..))
    · exact (setRx_powered ..).trans (congrArg Bridge.powered (tri_get_set_same ..))
    · exact (setRx_queue ..).trans (congrArg Bridge.queue (tri_get_set_same ..))
    · exact setRx_rx ..
    · exact (setRx_ne _ l k _ hk).trans (tri_get_set_ne _ _ _ _ hk)
  case read =>
    have hexec := exec_readFrame_of_awake (readFrame_of_matches hm ha hon hs hn) hs
    have hsame := tri_get_set_same s.chip.bridges l
    obtain ⟨k, hk, hle, hnext⟩ := frameFold_fits n (s.chip.bridges.get l).queue 16 hn
    exact ⟨_, hexec, congrArg Bridge.ioOut (hsame _), ⟨k, (congrArg Bridge.queue (hsame _)).trans hk, hle, hnext⟩,
      congrArg Bridge.edges (hsame _), congrArg Bridge.rejects (hsame _), congrArg Bridge.dropped (hsame _), rfl, rfl, rfl,
      fun j hj => tri_get_set_ne _ _ _ _ hj⟩

end Sys2Proof.Machine

namespace Sys2Proof.Machine
open Sys2Proof

theorem mem_allLanes (l : LaneId) : l ∈ LaneId.all := by cases l <;> decide

theorem next_congr {s t : State} (h : s = t) : (.next s : Out) = .next t := congrArg _ h

/-! ### Reboots and supplies (R98, R102, R103, R534, R553) -/

theorem rebootLane_lanes (s : State) (l : LaneId) :
    (s.rebootLane l).chip.lanes = s.chip.lanes.set l (Lane.rebooted (s.chip.lanes.get l)) := by
  simp [State.rebootLane]

theorem rebootLane_mem (s : State) (l : LaneId) : (s.rebootLane l).mem = s.mem.set l (s.mem.get l).cleared := rfl

@[simp] theorem rebootLane_pintle (s : State) (l : LaneId) : (s.rebootLane l).chip.pintle = s.chip.pintle := by
  simp [State.rebootLane]

theorem rebootLane_silent (s : State) (l : LaneId) : ((s.rebootLane l).chip.bridges.get l).silent = true := by
  simp [State.rebootLane]

theorem rebootLane_bridge_ne (s : State) {l k : LaneId} (h : k ≠ l) : (s.rebootLane l).chip.bridges.get k = s.chip.bridges.get k := by
  simp [State.rebootLane, setRx_ne _ _ _ _ h, tri_get_set_ne _ _ _ _ h]

theorem rebootLane_synced (s : State) (l : LaneId) : ((s.rebootLane l).chip.dev.hosts.get l).synced = false := by
  simp [State.rebootLane, HostLink.unsync]

theorem rebootLane_authority (s : State) (l : LaneId) : (s.rebootLane l).chip.dev.authority = s.chip.dev.authority := by
  simp [State.rebootLane]

/-- A lane without its supplies: rebooted, its timebase stopped at zero. -/
def Lane.unpowered (n : Lane) : Lane := { Lane.rebooted { n with boot := { n.boot with powerGood := false } } with clock := {} }

/-- The chip of a lane whose power-good is lost, before the consequences for the device. -/
theorem powerGoodLost_of_good {l : LaneId} {s : State} (h : (s.chip.lane l).boot.powerGood = true) : ∃ t : State,
    t.chip.lanes = s.chip.lanes.set l (s.chip.lanes.get l).unpowered ∧ t.chip.pintle = s.chip.pintle ∧
    t.chip.dev.authority = s.chip.dev.authority ∧ (t.mem.get l).sram = [] ∧
    powerGoodLost l s = t.onChip (fun c =>
      if LaneId.all.all (fun k => !(c.lane k).boot.powerGood) then
        { (c.modLanes (fun _ n => { n with boot := { n.boot with readmits := 0 } })) with dev := {}, pintle := {} }
      else if c.authLanes = [l] then c.fenceLanes [(l, 0x010F)] else c) := by
  refine ⟨_, ?_, ?_, ?_, ?_, by rw [powerGoodLost, h]; rfl⟩
  · simp [Chip.modClock, rebootLane_lanes, Lane.unpowered, Lane.rebooted]
  · simp [Chip.modClock]
  · simp [Chip.modClock, rebootLane_authority]
  · simp [rebootLane_mem, LaneMem.cleared]

theorem unpowered_inert (n : Lane) : n.unpowered.inert = true := rfl

/-- Settles O14: a reboot clears the lane's volatile state alone, and the device follows its last supply. -/
theorem suppliesStartAndStopLanes : Obligations.SuppliesStartAndStopLanes := by
  refine fun s l => ⟨fun h => ?good, fun h hother hauth => ?lost, fun h hnone => ?last, rfl⟩
  case good =>
    have hgood : powerGood l s = ((s.onChip (fun c => c.modLane l (fun n =>
        { n with boot := { n.boot with powerGood := true }, power := {} }))).rebootLane l).onChip
        (fun c => c.modClock l (fun _ => { running := true })) := by rw [powerGood, h]; rfl
    refine ⟨_, next_congr hgood, ?_, ?_, ?_, ?_, ?_, ?_, ?_, ?_, ?_, ?_, fun k hk => ⟨?_, ?_, ?_⟩⟩ <;>
      simp [Chip.modClock, lane_eq, rebootLane_lanes, rebootLane_mem, LaneMem.cleared, Lane.rebooted, rebootLane_silent,
        rebootLane_synced, rebootLane_bridge_ne, tri_get_set_ne, *]
  case lost =>
    obtain ⟨t, hlanes, hpintle, hauthority, hmem, heq⟩ := powerGoodLost_of_good h
    have hsome : LaneId.all.all (fun k => !(t.chip.lane k).boot.powerGood) = false := by
      obtain ⟨k, hk, hgood⟩ := hother
      refine List.all_eq_false.2 ⟨k, mem_allLanes k, ?_⟩
      simpa [lane_eq, hlanes, tri_get_set_ne _ _ _ _ hk] using hgood
    have hlone : t.chip.authLanes ≠ [l] := by rwa [Chip.authLanes, hauthority]
    have hl : t.chip.lanes.get l = (s.chip.lanes.get l).unpowered := by rw [hlanes, tri_get_set_same]
    refine ⟨t, next_congr (heq.trans ?_), ?_, ?_, ?_, ?_, ?_, hmem, hpintle, fun k hk => ?_⟩
    · simp only [State.onChip, hsome, Bool.false_eq_true, if_false, hlone]
    · rw [lane_eq, hl]
      exact unpowered_inert _
    all_goals simp [Lane.unpowered, Lane.rebooted, tri_get_set_ne, *]
  case last =>
    obtain ⟨t, hlanes, hpintle, hauthority, hmem, heq⟩ := powerGoodLost_of_good h
    have hall : LaneId.all.all (fun k => !(t.chip.lane k).boot.powerGood) = true := by
      refine List.all_eq_true.2 fun k _ => ?_
      by_cases hk : k = l
      · simp [lane_eq, hlanes, hk, Lane.unpowered, Lane.rebooted]
      · simpa [lane_eq, hlanes, tri_get_set_ne _ _ _ _ hk] using hnone k hk
    refine ⟨_, next_congr heq, ?_, ?_, ?_, fun k => ?_⟩ <;> simp only [onChip_chip, hall, if_true]
    · simp only [lane_eq, modLanes_lanes, tri_get_mapIdx, hlanes, tri_get_set_same]
      exact unpowered_inert (s.chip.lanes.get l)
    · simp only [lane_eq, modLanes_lanes, tri_get_mapIdx, hlanes, tri_get_set]
      split <;> simp [Lane.unpowered, Lane.rebooted, *]

end Sys2Proof.Machine

namespace Sys2Proof.Machine
open Sys2Proof

/-! ### A check-value unit (chapter 15) -/

theorem modCv_modCv (c : Chip) (l : LaneId) (k : Nat) (f g : CvUnit → CvUnit) :
    (c.modCv l k f).modCv l k g = c.modCv l k (fun x => g (f x)) := by
  unfold Chip.modCv Chip.modLane
  simp [modNth_modNth]

theorem modCv_congr (c : Chip) (l : LaneId) (k : Nat) (f g : CvUnit → CvUnit) (h : f (c.cvUnit l k) = g (c.cvUnit l k)) :
    c.modCv l k f = c.modCv l k g := by
  have := modNth_congr (c.lane l).cv k f g {} h
  unfold Chip.modCv Chip.modLane
  simp only [Chip.lane] at this ⊢
  rw [this]

theorem modNth_self {α : Type} (xs : List α) (k : Nat) (d : α) (f : α → α) (h : f (nth xs k d) = nth xs k d) : modNth xs k f = xs :=
  (modNth_congr xs k f id d h).trans (List.modify_id k xs)

theorem modCv_self (c : Chip) (l : LaneId) (k : Nat) (f : CvUnit → CvUnit) (h : f (c.cvUnit l k) = c.cvUnit l k) : c.modCv l k f = c := by
  have := modNth_self (c.lane l).cv k {} f h
  have hlane : ({ c.lanes.get l with cv := modNth (c.lanes.get l).cv k f } : Lane) = c.lanes.get l := by rw [← lane_eq, this]
  exact congrArg (fun x => ({ c with lanes := x } : Chip)) ((congrArg _ hlane).trans (tri_set_get c.lanes l))

/-- A unit that a change reads from is one that the lane has, where it does not read as blank. -/
theorem cvUnit_modCv {c : Chip} {l : LaneId} {k : Nat} (f : CvUnit → CvUnit) (h : c.cvUnit l k ≠ {}) :
    (c.modCv l k f).cvUnit l k = f (c.cvUnit l k) := by
  have hk : k < (c.lanes.get l).cv.length := by
    refine Nat.lt_of_not_le fun hle => h ?_
    rw [Chip.cvUnit, nth, List.getD_eq_default]
    exact hle
  simp [Chip.cvUnit, nth_modNth_same _ _ _ _ hk]

/-- A field of a unit that a change keeps reads as before, whether the unit exists or not. -/
theorem cvUnit_modCv_field {α : Type} (c : Chip) (l : LaneId) (k : Nat) (f : CvUnit → CvUnit) (p : CvUnit → α) (h : ∀ x, p (f x) = p x) :
    p ((c.modCv l k f).cvUnit l k) = p (c.cvUnit l k) := by
  by_cases hu : c.cvUnit l k = {}
  · by_cases hk : k < (c.lanes.get l).cv.length
    · simp [Chip.cvUnit, nth_modNth_same _ _ _ _ hk, h]
    · have : modNth (c.lanes.get l).cv k f = (c.lanes.get l).cv := List.modify_eq_self (Nat.le_of_not_lt hk)
      simp [Chip.cvUnit, this]
  · rw [cvUnit_modCv f hu, h]

theorem ne_blank_of_started {u : CvUnit} (h : u.started = true) : u ≠ {} := by
  rintro rfl
  cases h

/-- With no register feed waiting, the end of a memory feed brings none (R390). -/
theorem cvWaiting_of_nil {c : Chip} {l : LaneId} {k : Nat} (h : (c.cvUnit l k).waiting = []) : c.cvWaiting l k = c := by
  unfold Chip.cvWaiting
  rw [h]
  exact modCv_self c l k _ (by rw [← h])

theorem cvWaiting_modCv {c : Chip} {l : LaneId} {k : Nat} {f : CvUnit → CvUnit} (hf : ∀ x, (f x).waiting = x.waiting)
    (h : (c.cvUnit l k).waiting = []) : (c.modCv l k f).cvWaiting l k = c.modCv l k f :=
  cvWaiting_of_nil ((cvUnit_modCv_field c l k f CvUnit.waiting hf).trans h)

/-- An item enters the running value of a running check in an unpaired unit (R388, R390). -/
theorem cvEat_of_runs {c : Chip} {l : LaneId} {k addr : Nat} {item : List Byte} (herr : (c.cvUnit l k).cfgErr = false)
    (hfenced : (c.cvUnit l k).fenced = false) (hstarted : (c.cvUnit l k).started = true)
    (hpair : (c.cvUnit l k).lat.cfg.getLsbD 14 = false) :
    c.cvEat l k addr item = c.modCv l k (fun x => { x with state := cvFeed x.lat x.state (cvItem x.lat.cfg addr item) }) := by
  simp [Chip.cvEat, Chip.cvTake, herr, hfenced, hstarted, -BitVec.getLsbD_eq_getElem, hpair]

theorem cvItemSize_pos (cfg : BitVec 32) : 0 < cvItemSize cfg := by
  unfold cvItemSize
  split <;> decide

/-- A write by the unit's owner in a lane that runs (R394). -/
theorem cvOwned_of_owner {l : LaneId} {k : Nat} {m : CvMaster} {s : State} {f : State → State} (hrun : s.chip.runs l = true)
    (hown : cvOwner (s.chip.cvUnit l k).cfg = cvMaster m) : cvOwned l k m s f = f s := by
  simp [cvOwned, hrun, hown]

theorem cvProgress_of_idle {l : LaneId} {k : Nat} {s : State} (h : (s.chip.cvUnit l k).busy = false) : cvProgress l k s = s := by
  simp [cvProgress, h]

theorem cvAccess_of_idle {l : LaneId} {k : Nat} {s : State} {f : State → State} (h : (s.chip.cvUnit l k).busy = false) :
    cvAccess l k s f = .next (f s) := by
  simp [cvAccess, CvUnit.outside, h]

/-! ### The computation (R388) -/

theorem cvBit_lt {w poly s : Nat} {b : Bool} : cvBit w poly s b < 2 ^ w := by
  have hs : s * 2 % 2 ^ w < 2 ^ w := Nat.mod_lt _ (Nat.two_pow_pos w)
  unfold cvBit
  dsimp only
  split
  · exact Nat.xor_lt_two_pow hs (Nat.mod_lt _ (Nat.two_pow_pos w))
  · exact hs

theorem cvFold_lt {w poly : Nat} (bs : List Bool) : ∀ {s : Nat}, s < 2 ^ w → bs.foldl (cvBit w poly) s < 2 ^ w := by
  induction bs with
  | nil => exact id
  | cons b bs ih => exact fun _ => ih cvBit_lt

theorem cvFeed_toNat (lat : CvLatch) (x : BitVec 64) (bs : List Byte) : (cvFeed lat x bs).toNat =
    (bs.flatMap (cvBits (lat.cfg.getLsbD 6))).foldl (cvBit (cvWidth lat.cfg) lat.poly.toNat) (x.toNat % 2 ^ cvWidth lat.cfg) := by
  have hw : cvWidth lat.cfg ≤ 64 := Nat.succ_le_of_lt (Nat.mod_lt _ (by decide))
  rw [cvFeed, BitVec.toNat_ofNat, Nat.mod_eq_of_lt]
  exact lt_of_lt_of_le (cvFold_lt _ (Nat.mod_lt _ (Nat.two_pow_pos _))) (Nat.pow_le_pow_right (by decide) hw)

theorem cvFeed_lt (lat : CvLatch) (x : BitVec 64) (bs : List Byte) : (cvFeed lat x bs).toNat < 2 ^ cvWidth lat.cfg := by
  rw [cvFeed_toNat]
  exact cvFold_lt _ (Nat.mod_lt _ (Nat.two_pow_pos _))

theorem cvFeed_append (lat : CvLatch) (x : BitVec 64) (xs ys : List Byte) : cvFeed lat (cvFeed lat x xs) ys = cvFeed lat x (xs ++ ys) := by
  apply BitVec.eq_of_toNat_eq
  rw [cvFeed_toNat, Nat.mod_eq_of_lt (cvFeed_lt ..), cvFeed_toNat, cvFeed_toNat, List.flatMap_append, List.foldl_append]

/-- A memory feed with one item left ends with it, its length used up (R390). -/
theorem memoryFeedDone_of_last {s : State} {l : LaneId} {k : Nat} {u : CvUnit} (hu : u = s.chip.cvUnit l k) (hwait : u.waiting = [])
    (herr : u.cfgErr = false) (hfenced : u.fenced = false) (hstarted : u.started = true) (hpair : u.lat.cfg.getLsbD 14 = false)
    (hbusy : u.busy = true) (hlen : u.len.toNat = cvItemSize u.lat.cfg) :
    memoryFeedDone l k false s = s.onChip (fun c => c.modCv l k (fun x => { x with
      state := cvFeed u.lat u.state (cvItem u.lat.cfg u.src.toNat (cellRead (s.mem.get l).sram u.src.toNat (cvItemSize u.lat.cfg)))
      src := u.src + BitVec.ofNat 32 (cvItemSize u.lat.cfg), len := 0, busy := false })) := by
  have hone : u.itemsLeft = 1 := by simp [CvUnit.itemsLeft, hbusy, hlen, cvItemSize_pos]
  have hzero : u.len - BitVec.ofNat 32 (cvItemSize u.lat.cfg) = 0 := by rw [← hlen]; simp
  subst hu
  simp only [memoryFeedDone, hbusy, Bool.not_true, Bool.false_eq_true, if_false, hone, cvItems]
  refine congrArg (fun c => ({ s with chip := c } : State)) ?_
  simp only [onChip_chip, cvEat_of_runs herr hfenced hstarted hpair, modCv_modCv]
  refine Eq.trans (cvWaiting_modCv (fun _ => ?_) hwait) ?_
  · rfl
  exact modCv_congr _ _ _ _ _ (by simp [hzero])

/-- Settles O22: each feed is one change of the unit, and the fold over bits does not see where items end. -/
theorem checkValueFeedsAndResults : Obligations.CheckValueFeedsAndResults := by
  refine ⟨fun s l k u hu hrun hwait herr hfenced hstarted hpair => ⟨fun m item hbusy hown => ?feed, fun hbusy hlen hin => ?memory,
    fun hbusy => ?result⟩, fun lat x xs ys => ⟨cvFeed_append .., cvFeed_lt ..⟩⟩
  case feed =>
    subst hu
    refine next_congr ((cvOwned_of_owner hrun hown).trans ?_)
    simp only [State.onChip, hbusy, Bool.false_eq_true, if_false, cvEat_of_runs herr hfenced hstarted hpair]
    exact congrArg (fun c => ({ s with chip := c } : State)) (modCv_congr _ _ _ _ _ rfl)
  case memory =>
    have hinside : u.outside = false := by simp [CvUnit.outside, Nat.not_lt.2 hin]
    rw [← memoryFeedDone_of_last hu hwait herr hfenced hstarted hpair hbusy hlen]
    exact if_neg (by rw [← hu, hinside]; decide)
  case result =>
    subst hu
    refine (cvAccess_of_idle hbusy).trans (next_congr ?_)
    rw [cvResultRead, if_neg (by simp [hrun]), cvProgress_of_idle hbusy]
    refine congrArg (fun c => ({ s with chip := c } : State)) ?_
    refine Eq.trans (cvWaiting_modCv (fun _ => ?_) hwait) ?_
    · rfl
    exact modCv_congr _ _ _ _ _ (by simp [hbusy])

end Sys2Proof.Machine

namespace Sys2Proof.Machine
open Sys2Proof

/-! ### Tests of a check-value unit (R398 to R401) -/

/-- After a test a unit's registers are open, and its counts and fence stay (R398, log 38). -/
theorem cvTested_eq (c : Chip) (l : LaneId) (k : Nat) : ∃ f : CvUnit → CvUnit,
    (∀ u, (f u).run = u.run ∧ (f u).failed = u.failed ∧ (f u).fenced = u.fenced ∧ (f u).lastFail = u.lastFail) ∧
    c.cvTested l k = ({ c with fresh := c.fresh + 9 } : Chip).modCv l k f := by
  refine ⟨_, ?_, rfl⟩
  exact fun _ => ⟨rfl, rfl, rfl, rfl⟩

/-- What a test of an unowned unit leaves of the unit: one more run, with the registers open (R398). -/
theorem cvTest_of_unowned {c : Chip} {l : LaneId} {k : Nat} (hown : cvOwner (c.cvUnit l k).cfg = 0) (hinject : (c.cvUnit l k).injectNext = false) :
    ∃ f : CvUnit → CvUnit, (∀ u, (f u).run = satInc (2 ^ 32 - 1) u.run ∧ (f u).failed = u.failed ∧ (f u).fenced = u.fenced ∧
      (f u).lastFail = u.lastFail) ∧
      c.cvTest l k none = (0, none, ({ c with fresh := c.fresh + 9 } : Chip).modCv l k f) ∧
      ∀ n, c.cvTest l k (some n) = (1, some n, (({ c with fresh := c.fresh + 9 } : Chip).modCv l k f).cvFailed l k) := by
  obtain ⟨f, hf, htested⟩ := cvTested_eq c l k
  refine ⟨fun u => { f u with run := satInc (2 ^ 32 - 1) (f u).run, injectNext := false }, fun u => ?_, ?_, fun n => ?_⟩
  · obtain ⟨hrun, hfailed, hfenced, hlast⟩ := hf u
    exact ⟨by rw [← hrun], hfailed, hfenced, hlast⟩
  all_goals simp only [Chip.cvTest, hown, hinject, htested, modCv_modCv, ne_eq, not_true_eq_false, if_false, Bool.false_eq_true]

/-- The first failure of a unit is counted and recorded, and fences nothing (R400). -/
theorem cvFailed_of_first {c : Chip} {l : LaneId} {k : Nat} (h : (c.cvUnit l k).lastFail = none) : c.cvFailed l k =
    (c.modCv l k (fun u => { u with failed := satInc 65535 u.failed, lastFail := some c.dev.matrix })).localFault l 0x2301 0x0F k l.idx := by
  simp only [Chip.cvFailed, h, Bool.false_eq_true, if_false]

theorem localFault_cv (c : Chip) (l : LaneId) (code t i lane : Nat) (j : LaneId) :
    ((c.localFault l code t i lane).lanes.get j).cv = (c.lanes.get j).cv := by
  rw [(localFault_only c l code t i lane).lanes j]

/-- A change of a unit, as the change to what it makes of the unit as it stands. -/
theorem modCv_cv (c : Chip) (l : LaneId) (k : Nat) (f : CvUnit → CvUnit) :
    ((c.modCv l k f).lanes.get l).cv = modNth (c.lanes.get l).cv k (fun _ => f (c.cvUnit l k)) := by
  rw [modCv_lanes, tri_get_set_same]
  exact modNth_congr _ _ _ _ {} rfl

theorem unitTestInterval_of_due {c : Chip} {l : LaneId} {k : Nat} (hint : c.par Par.crcTestInterval ≠ 0) (hauth : c.inAuth l = true)
    (hsd : c.dev.standdown ≠ some l) (hlane : (c.lane l).boot.fenced = false) (hunit : (c.cvUnit l k).fenced = false) (step : Option Nat) :
    unitTestInterval l k step c = (c.cvTest l k step).2.2 := if_neg (by simp only [lane_eq] at hlane; simp [hint, hauth, hsd, hlane, hunit])

theorem exec_unitTestInterval {s : State} {l : LaneId} {k : Fin 4} {step : Option Nat} {c : Chip} (h : unitTestInterval l k step s.chip = c) :
    exec (.unitTestInterval l k step) s = .next { s with chip := c } := next_congr (congrArg (fun c => ({ s with chip := c } : State)) h)

/-- The result quad of a lane whose one named unit passed (R401). -/
def passedQuad (k : Nat) : List Byte := toLe 1 (2 ^ k) ++ toLe 1 0 ++ toLe 1 0xFF ++ toLe 1 0 ++ toLe 1 0 ++ toLe 11 0

/-- The quad of a lane in which one unit was tested and passed (R401). -/
theorem testLane_of_pass {c d : Chip} {l : LaneId} {k : Fin 4} (hlane : (c.lane l).boot.fenced = false) (hsd : c.dev.standdown ≠ some l)
    (hunit : (c.cvUnit l k).fenced = false) (hafter : (d.cvUnit l k).fenced = false) (htest : c.cvTest l k none = (0, none, d)) :
    testLane (2 ^ k.val) ⟨[], [], []⟩ ([], c) l = (passedQuad k, d) := by
  have hunits : (List.range 4).filter (fun j => (2 ^ k.val).testBit j) = [k.val] :=
    (by decide : ∀ n : Fin 4, (List.range 4).filter (fun j => (2 ^ n.val).testBit j) = [n.val]) k
  have hdefects : nth ((⟨[], [], []⟩ : Tri (List Nat)).get l) k.val 0 = 0 := by cases l <;> rfl
  have hfences : ∀ j ∈ List.range 4, ((2 ^ k.val).testBit j && (d.cvUnit l j).fenced) = false := by
    intro j hj
    by_cases h : (2 ^ k.val).testBit j
    · have : j = k.val := by simpa [hunits] using List.mem_filter.2 ⟨hj, h⟩
      rw [this, hafter, Bool.and_false]
    · simp [h]
  have hmask : (List.range 4).foldl (fun m j => setBit m j ((2 ^ k.val).testBit j && (d.cvUnit l j).fenced)) (0 : Mask) = 0 := by
    rw [List.foldl_ext (g := fun m j => setBit m j false) _ _ (fun m j hj => by rw [hfences j hj])]
    decide
  have hpassed : (setBit (0 : Mask) k.val true).toNat = 2 ^ k.val :=
    (by decide : ∀ n : Fin 4, (setBit (0 : Mask) n.val true).toNat = 2 ^ n.val) k
  simp only [lane_eq] at hlane
  simp only [testLane, hunits, List.foldl_cons, List.foldl_nil, testUnit, hunit, lane_eq, hlane, hsd, hdefects, htest, hmask, hpassed,
    Bool.or_false, decide_false, Bool.false_eq_true, if_false, if_true]
  rfl

/-- Settles O23: a test of an unowned unit is one change of the unit, and a first failure one more. -/
theorem checkValueUnitTests : Obligations.CheckValueUnitTests := by
  intro s l k u hu changed hfenced hinject hlane hsd
  subst hu
  refine ⟨fun hint hauth => ⟨fun hown => ?pass, fun n hown hlast => ?fail, fun f hown => ?held⟩,
    fun r j hlink h0 hflag hadm hbody hunits hzero hact hlanes hown => ?command⟩
  case pass =>
    obtain ⟨f, hf, htest, -⟩ := cvTest_of_unowned hown hinject
    obtain ⟨hrun, hfailed, hfence, -⟩ := hf (s.chip.cvUnit l k)
    have hexec := exec_unitTestInterval ((unitTestInterval_of_due hint hauth hsd hlane hfenced none).trans (congrArg (fun x => x.2.2) htest))
    exact ⟨_, f (s.chip.cvUnit l k), hexec, modCv_cv .., hrun, hfailed, hfence.trans hfenced, rfl, rfl⟩
  case fail =>
    obtain ⟨f, hf, -, htest⟩ := cvTest_of_unowned hown hinject
    obtain ⟨hrun, hfailed, hfence, -⟩ := hf (s.chip.cvUnit l k)
    have hfirst := (cvUnit_modCv_field { s.chip with fresh := s.chip.fresh + 9 } l k f CvUnit.lastFail fun x => (hf x).2.2.2).trans hlast
    have hexec := exec_unitTestInterval ((unitTestInterval_of_due hint hauth hsd hlane hfenced (some n)).trans
        ((congrArg (fun x => x.2.2) (htest n)).trans (cvFailed_of_first hfirst)))
    refine ⟨_, { f (s.chip.cvUnit l k) with failed := satInc 65535 (f (s.chip.cvUnit l k)).failed, lastFail := some s.chip.dev.matrix },
      hexec, ?_, hrun, congrArg (satInc 65535) hfailed, hfence.trans hfenced, rfl, rfl⟩
    refine (localFault_cv ..).trans ?_
    rw [modCv_modCv]
    exact modCv_cv ..
  case held =>
    refine exec_unitTestInterval ((unitTestInterval_of_due hint hauth hsd hlane hfenced f).trans ?_)
    simp only [Chip.cvTest, hown, ne_eq, not_false_eq_true, if_true]
  case command =>
    obtain ⟨t, halike, hreplies, hexec⟩ := exec_of_admits (i := .unitTest r ⟨[], [], []⟩) rfl hadm
    have hlanes' : t.chip.lanes.get l = (s.chip.lanes.get l).withAccounts (t.chip.lanes.get l) := halike.lanes l
    have hunit : t.chip.cvUnit l k = s.chip.cvUnit l k := by rw [Chip.cvUnit, lane_eq, hlanes']; rfl
    obtain ⟨f, hf, htest, -⟩ := cvTest_of_unowned (c := t.chip) (l := l) (k := k.val) (by rwa [hunit]) (by rwa [hunit])
    obtain ⟨hrun, hfailed, hfence, -⟩ := hf (s.chip.cvUnit l k)
    have hquad := testLane_of_pass (c := t.chip) (l := l) (k := k) (by rw [lane_eq, hlanes']; exact hlane) (by rw [halike.dev]; exact hsd)
      (by rwa [hunit]) ((cvUnit_modCv_field { t.chip with fresh := t.chip.fresh + 9 } l k f CvUnit.fenced fun x => (hf x).2.2.1).trans ((congrArg CvUnit.fenced hunit).trans hfenced)) htest
    have heffect : effectUnitTest ⟨[], [], []⟩ r t =
        { st := { t with chip := ({ t.chip with fresh := t.chip.fresh + 9 } : Chip).modCv l k f }, payload := passedQuad k } := by
      rw [effectUnitTest, hlanes, hunits, List.foldl_cons, List.foldl_nil, hquad]
    have hchecks : checksUnitTest r t.chip = [] := by
      rw [checksUnitTest, if_pos ⟨hbody, by rw [hunits]; exact Nat.pow_lt_pow_right (by decide) k.isLt, hzero⟩, if_neg]
      · rfl
      · rw [halike.dev]
        exact Bool.eq_false_iff.1 hact
    refine ⟨_, _, f (s.chip.cvUnit l k), (hexec hchecks).trans (next_congr (congrArg (fun o => o.finish attrUnitTest r) heffect)), ?_, hrun, hfailed, ?_,
      (finish_link hlink h0 hflag rfl).trans (congrArg (· ++ _) hreplies), rfl, rfl⟩
    · refine (congrArg Lane.cv ((alike_finish ..).lanes l)).trans ((modCv_cv { t.chip with fresh := t.chip.fresh + 9 } l k f).trans ?_)
      rw [lane_eq, ← hunit]
      exact congrArg (fun n => modNth n.cv _ _) hlanes'
    · exact (finish_mem ..).trans halike.mem

end Sys2Proof.Machine

namespace Sys2Proof.Machine
open Sys2Proof

/-! ### Lanes that agree but for their fault collectors and queued events -/

/-- Every lane of the second chip is that of the first, but for its fault collector and queued events. -/
def LanesAlike (c d : Chip) : Prop := ∀ l, d.lanes.get l = (c.lanes.get l).withAccounts (d.lanes.get l)

theorem LanesAlike.refl (c : Chip) : LanesAlike c c := fun _ => rfl

theorem LanesAlike.trans {c d e : Chip} (h : LanesAlike c d) (k : LanesAlike d e) : LanesAlike c e := fun l => by
  rw [k l, h l]
  rfl

theorem lanesAlike_of_eq {c d : Chip} (h : d.lanes = c.lanes) : LanesAlike c d := fun l => by
  rw [h]
  rfl

theorem RecordsOnly.lanesAlike {c d : Chip} (h : RecordsOnly c d) : LanesAlike c d := h.lanes

theorem foldl_lanes {α : Type} (f : Chip → α → Chip) (h : ∀ c x, (f c x).lanes = c.lanes) (xs : List α) :
    ∀ c : Chip, (xs.foldl f c).lanes = c.lanes := by
  induction xs with
  | nil => exact fun _ => rfl
  | cons x xs ih => exact fun c => (ih (f c x)).trans (h c x)

@[simp] theorem raiseEdge_lanes (c : Chip) (l : LaneId) (n : Nat) : (c.raiseEdge l n).lanes = c.lanes := rfl

@[simp] theorem reportClass_lanes (c : Chip) : c.reportClass.lanes = c.lanes := by
  unfold Chip.reportClass
  exact foldl_lanes _ (fun c l => by rw [raiseEdge_lanes]; rfl) _ c

/-- A stop cause writes records and the causes of the Snowplough (R449). -/
theorem stopCause_lanesAlike (c : Chip) (cause : Nat) : LanesAlike c (c.stopCause cause) := by
  have h := (agreedFault_only c 0x0601 0 cause 0xFF 1).lanesAlike
  unfold Chip.stopCause
  dsimp only
  split
  · exact h
  · split
    · exact h
    · exact h.trans (lanesAlike_of_eq rfl)

theorem enterD3_lanes (c : Chip) : c.enterD3.lanes = c.lanes := rfl

theorem stopLoops_lanes (c : Chip) : c.stopLoops.lanes = c.lanes := rfl

/-- The class that follows from the lanes in authority changes no lane but for records (R39, R42). -/
theorem setClass_lanesAlike (c : Chip) : LanesAlike c c.setClass := by
  unfold Chip.setClass
  dsimp only
  split
  · exact .refl c
  · have h : LanesAlike c (((c.modDev (fun d => { d with cls := some (classOf c.dev.authority) })).agreedFault 0x0205 0
        (classOf c.dev.authority) 0xFF).reportClass) :=
      (agreedFault_only (c.modDev _) ..).lanesAlike.trans (lanesAlike_of_eq (reportClass_lanes _))
    split
    · exact h.trans (lanesAlike_of_eq (enterD3_lanes _))
    · split
      · exact (h.trans (lanesAlike_of_eq (stopLoops_lanes _))).trans (stopCause_lanesAlike _ 1)
      · exact h

theorem linkRules_lanes (c : Chip) : c.linkRules.lanes = c.lanes := by
  have h : ∀ c : Chip, (LaneId.all.foldl (fun (c : Chip) l =>
      if c.inAuth l && (l.partners.all (fun p => (c.linkAt (linkIdx l p)).fenced)) then c.pendFence l 0x0108 else c) c).lanes = c.lanes :=
    fun c => foldl_lanes _ (fun c l => by split <;> simp) _ c
  unfold Chip.linkRules
  dsimp only
  split
  · split
    · rw [pendFence_lanes, h]
    · exact h c
  · exact h c

/-! ### A lane that fences itself (R10, R432) -/

theorem fenceOne_boot (c : Chip) (l : LaneId) (code : Nat) :
    ((c.fenceOne l code).lanes.get l).boot.fenced = true ∧ ((c.fenceOne l code).lanes.get l).boot.fenceCode = code := by
  unfold Chip.fenceOne
  simp

theorem mem_authLanes {c : Chip} {l : LaneId} : l ∈ c.authLanes ↔ c.inAuth l = true := by
  rw [Chip.authLanes, lanesOf, List.mem_filter]
  exact and_iff_right (mem_allLanes l)

/-- A lane that is alone in authority is fenced with the given code (R42). -/
theorem fenceLanes_boot {c : Chip} {l : LaneId} {code : Nat} (h : c.inAuth l = true) :
    ((c.fenceLanes [(l, code)]).lanes.get l).boot.fenced = true ∧ ((c.fenceLanes [(l, code)]).lanes.get l).boot.fenceCode = code := by
  have hmem : [(l, code)].filter (fun f => c.inAuth f.1 || (c.lane f.1).chk.joining) = [(l, code)] := by simp [h]
  have hlanes : LanesAlike (c.fenceOne l code) (c.fenceLanes [(l, code)]) := by
    unfold Chip.fenceLanes
    simp only [hmem, reduceCtorEq, if_false, List.foldl_cons, List.foldl_nil]
    exact ((agreedFault_only ..).lanesAlike.trans (setClass_lanesAlike _)).trans (lanesAlike_of_eq (linkRules_lanes _))
  rw [hlanes l]
  exact fenceOne_boot c l code

theorem selfFence_boot (c : Chip) (l : LaneId) (code t i : Nat) :
    ((c.selfFence l code t i).lanes.get l).boot.fenced = true ∧ ((c.selfFence l code t i).lanes.get l).boot.fenceCode = code := by
  unfold Chip.selfFence
  dsimp only
  split
  · rename_i h
    refine fenceLanes_boot (mem_authLanes.1 ?_)
    rw [h]
    exact List.mem_singleton_self l
  · rw [(sendLinks_traffic ..).lanes]
    simp

/-! ### Registers of a check-value unit (R391 to R397) -/

theorem cvMaster_ne_zero (m : CvMaster) : cvMaster m ≠ 0 := by cases m <;> decide

theorem ne_blank_of_owner {u : CvUnit} {m : CvMaster} (h : cvOwner u.cfg = cvMaster m) : u ≠ {} := by
  rintro rfl
  exact cvMaster_ne_zero m h.symm

/-- The configuration that a write leaves: the start bit reads 0 (R392). -/
def cvKept (v : BitVec 32) : BitVec 32 := v &&& 0x7FFFFFFF#32

theorem cvKept_toNat (v : BitVec 32) : (cvKept v).toNat = v.toNat % 2 ^ 31 := by
  rw [cvKept, BitVec.toNat_and]
  exact Nat.and_two_pow_sub_one_eq_mod _ 31

theorem cvKept_width (v : BitVec 32) : cvWidth (cvKept v) = cvWidth v := by
  unfold cvWidth
  rw [cvKept_toNat]
  omega

theorem cvKept_guard (v : BitVec 32) : cvGuard (cvKept v) = cvGuard v := by
  unfold cvGuard
  rw [cvKept_toNat]
  omega

/-- A configuration within the rules of R392, for an unpaired unit, sets no error. -/
theorem cvBad_of_good {c : Chip} {l : LaneId} {v : BitVec 32} (h15 : v.getLsbD 15 = false) (h14 : v.getLsbD 14 = false)
    (hfree : v.toNat / 16777216 % 128 = 0) (hwidth : 2 ≤ v.toNat % 64) (hguard : cvGuard v < 2) : c.cvBad l (cvKept v) = false := by
  have hbit : ∀ n < 31, v.getLsbD n = false → (cvKept v).getLsbD n = false := fun n _ h => by rw [cvKept, BitVec.getLsbD_and, h, Bool.false_and]
  unfold Chip.cvBad
  simp only [cvKept_guard, cvKept_toNat, hbit 15 (by decide) h15, hbit 14 (by decide) h14, Bool.false_and, Bool.or_false, Bool.or_eq_false_iff,
    decide_eq_false_iff_not]
  omega


theorem onChip_congr {s : State} {f g : Chip → Chip} (h : f s.chip = g s.chip) : s.onChip f = s.onChip g :=
  congrArg (fun c => ({ s with chip := c } : State)) h

/-- A write of CV_CFG by the unit's owner (R392, R393). -/
theorem exec_cvCfgWrite_of_owner {s : State} {l : LaneId} {k : Fin 4} {m : CvMaster} (v : BitVec 32) (hrun : s.chip.runs l = true)
    (hbusy : (s.chip.cvUnit l k).busy = false) (hown : cvOwner (s.chip.cvUnit l k).cfg = cvMaster m) :
    exec (.cvCfgWrite l k m v) s = .next (cvSetCfg l k v s) := by
  refine (cvAccess_of_idle hbusy).trans (next_congr ?_)
  rw [cvCfgWrite, if_neg (fun h => cvMaster_ne_zero m (hown ▸ h.1)), cvOwned_of_owner hrun hown]

/-- A write without the start bit takes the configuration and nothing else (R392). -/
theorem cvSetCfg_of_no_start {s : State} {l : LaneId} {k : Nat} {v : BitVec 32} (h : v.getLsbD 31 = false) :
    cvSetCfg l k v s = s.onChip (fun c => c.modCv l k (fun x => { x with cfg := cvKept v })) := by
  simp only [cvSetCfg, h, Bool.false_eq_true, if_false, cvKept]

/-- A good configuration is latched without a fault (R392). -/
theorem cvLatch_of_good {c : Chip} {l : LaneId} {k : Nat} (h : c.cvBad l (c.cvUnit l k).cfg = false) : c.cvLatch l k =
    c.modCv l k (fun u => { u with lat := ⟨u.cfg, u.poly, u.init, u.xorout⟩, started := true }) := by
  simp only [Chip.cvLatch, h, Bool.false_eq_true, if_false, Bool.or_false]

/-- A started check of a unit without the alive-counter guard (R392, R396). -/
def CvUnit.begun (u : CvUnit) (v : BitVec 32) : CvUnit :=
  { u with cfg := cvKept v, cfgErr := false, readErr := false, busy := false, started := true, lat := ⟨cvKept v, u.poly, u.init, u.xorout⟩
           state := BitVec.ofNat 64 (u.init.toNat % 2 ^ cvWidth v) }

/-- A unit with its configuration taken, before it is latched. -/
def CvUnit.configured (u : CvUnit) (v : BitVec 32) : CvUnit := { u with cfg := cvKept v, cfgErr := false, readErr := false, busy := false }

/-- A write with the start bit and a good configuration starts the check (R392, R393). -/
theorem cvSetCfg_of_start {s : State} {l : LaneId} {k : Nat} {v : BitVec 32} (hbusy : (s.chip.cvUnit l k).busy = false)
    (hwait : (s.chip.cvUnit l k).waiting = []) (hunit : s.chip.cvUnit l k ≠ {}) (h31 : v.getLsbD 31 = true) (h15 : v.getLsbD 15 = false)
    (h14 : v.getLsbD 14 = false) (hfree : v.toNat / 16777216 % 128 = 0) (hwidth : 2 ≤ v.toNat % 64) (hguard : cvGuard v < 2) :
    cvSetCfg l k v s = s.onChip (fun c => c.modCv l k (fun u => u.begun v)) := by
  have hcfg : ((s.chip.modCv l k (fun u => u.configured v)).cvUnit l k).cfg = cvKept v := by
    rw [cvUnit_modCv _ hunit, CvUnit.configured]
  simp only [cvSetCfg, h31, if_true, cvProgress_of_idle hbusy]
  refine onChip_congr ?_
  rw [cvWaiting_of_nil hwait, Chip.cvStart]
  dsimp only
  rw [modCv_modCv]
  show ((s.chip.modCv l k (fun u => u.configured v)).cvLatch l k).modCv l k _ = _
  rw [cvLatch_of_good ((congrArg (Chip.cvBad _ l) hcfg).trans (cvBad_of_good h15 h14 hfree hwidth hguard)), modCv_modCv, modCv_modCv]
  refine modCv_congr _ _ _ _ _ ?_
  have h2 : ¬ (cvGuard (cvKept v) = 2 ∧ (false : Bool) = false) := by
    rw [cvKept_guard]
    omega
  show (if cvGuard (cvKept v) = 2 ∧ (false : Bool) = false then _ else _) = _
  rw [if_neg h2, CvUnit.begun, ← cvKept_width v]
  rfl

/-- The registers latched from the unit, good or bad (R392). -/
theorem cvLatch_cv {c : Chip} {l : LaneId} {k : Nat} : LanesAlike (c.modCv l k (fun u => { u with
    lat := ⟨u.cfg, u.poly, u.init, u.xorout⟩, started := true, cfgErr := u.cfgErr || c.cvBad l (c.cvUnit l k).cfg })) (c.cvLatch l k) := by
  unfold Chip.cvLatch
  dsimp only
  split
  · exact (localFault_only ..).lanesAlike
  · exact .refl _

theorem cvLatch_plain_dev (c : Chip) (l : LaneId) (k : Nat) : (c.cvLatch l k).dev.plain = c.dev.plain := by
  unfold Chip.cvLatch
  dsimp only
  split
  · exact congrArg Chip.dev (localFault_plain ..)
  · rfl

theorem next_ne_fault {s : State} {f : Fault} : (.next s : Out) ≠ .fault f := by
  rintro ⟨⟩

theorem outside_iff {u : CvUnit} : u.outside = true ↔ u.busy = true ∧ 8388608 < u.src.toNat + u.len.toNat := by
  simp [CvUnit.outside]

theorem outside_of_cvAccess_fault {l : LaneId} {k : Nat} {s : State} {g : State → State} {f : Fault} (h : cvAccess l k s g = .fault f) :
    (s.chip.cvUnit l k).outside = true := by
  by_contra hout
  exact next_ne_fault ((if_neg hout).symm.trans h)

/-- Only an access that looks at a memory feed leaving the lane SRAM stops the machine with a fault (R500). -/
theorem exists_outside_of_exec_fault {i : Instr} {s : State} {f : Fault} (h : exec i s = .fault f) :
    ∃ (j : LaneId) (n : Fin 4), (s.chip.cvUnit j n.val).outside = true := by
  cases i
  case cvCfgWrite l u m v => exact ⟨l, u, outside_of_cvAccess_fault h⟩
  case cvStateAccess l u m write => exact ⟨l, u, outside_of_cvAccess_fault h⟩
  case cvLenWrite l u m len => exact ⟨l, u, outside_of_cvAccess_fault h⟩
  case memoryFeedDone l u e => exact ⟨l, u, outside_of_cvAccess_fault h⟩
  case cvResultRead l u => exact ⟨l, u, outside_of_cvAccess_fault h⟩
  case cvRegisterWrite l u m reg v => exact ⟨l, u, outside_of_cvAccess_fault h⟩
  all_goals exact absurd h next_ne_fault

/-- Settles O21: with no memory feed running each register access is one change of the unit; a foreign write fences the lane; a fault needs a
feed that leaves the SRAM. -/
theorem checkValueRegistersAndMemoryFeeds : Obligations.CheckValueRegistersAndMemoryFeeds := by
  refine ⟨?_, fun s l k e => ⟨fun hb hout => ?outside, fun i f h => ?faults⟩⟩
  case outside =>
    have hout := outside_iff.2 ⟨hb, hout⟩
    exact ⟨if_pos hout, if_pos hout⟩
  case faults =>
    obtain ⟨j, n, hout⟩ := exists_outside_of_exec_fault h
    exact ⟨j, n, outside_iff.1 hout⟩
  intro s l k m u hu changed hrun hbusy
  subst hu
  refine ⟨fun hown hwait => ⟨fun v h31 => ?cfg, fun v h31 h15 h14 hfree hwidth hguard => ?start, fun v => ?state, fun reg v => ?register,
    fun v hv hsize => ?length⟩, fun hnone hm v hv h31 => ?claim, ?read, fun hother hlane reg v => ?foreign⟩
  case cfg => exact (exec_cvCfgWrite_of_owner v hrun hbusy hown).trans (next_congr (cvSetCfg_of_no_start h31))
  case start =>
    have hunit := ne_blank_of_owner hown
    refine ⟨_, (s.chip.cvUnit l k).begun v, (exec_cvCfgWrite_of_owner v hrun hbusy hown).trans (next_congr
      (cvSetCfg_of_start hbusy hwait hunit h31 h15 h14 hfree hwidth hguard)), modCv_cv .., rfl, rfl, rfl, ?_, rfl, rfl, fun j hj => ?_⟩
    · have : (s.chip.cvUnit l k).init.toNat % 2 ^ cvWidth v < 2 ^ 64 := (Nat.mod_le _ _).trans_lt (BitVec.isLt _)
      exact (BitVec.toNat_ofNat ..).trans (Nat.mod_eq_of_lt this)
    · exact tri_get_set_ne _ _ _ _ hj
  case state =>
    have hexec : exec (.cvStateAccess l k m (some v)) s = .next (s.onChip (fun c => (c.cvLatch l k).modCv l k (fun u => { u with state := v }))) := by
      refine (cvAccess_of_idle hbusy).trans (next_congr ?_)
      rw [cvStateAccess, cvOwned_of_owner hrun hown, cvProgress_of_idle hbusy]
    have hlatch := cvLatch_cv (c := s.chip) (l := l) (k := k)
    refine ⟨_, { s.chip.cvUnit l k with
        lat := ⟨(s.chip.cvUnit l k).cfg, (s.chip.cvUnit l k).poly, (s.chip.cvUnit l k).init, (s.chip.cvUnit l k).xorout⟩, started := true,
        cfgErr := (s.chip.cvUnit l k).cfgErr || s.chip.cvBad l (s.chip.cvUnit l k).cfg, state := v }, hexec, ?_, rfl, rfl, rfl, ?_⟩
    · have hcv : ((s.chip.cvLatch l k).lanes.get l).cv = _ := (congrArg Lane.cv (hlatch l)).trans (modCv_cv ..)
      refine (congrArg Lane.cv (tri_get_set_same ..)).trans ?_
      dsimp only
      rw [hcv, modNth_modNth]
      rfl
    · exact cvLatch_plain_dev ..
  case register =>
    refine (cvAccess_of_idle hbusy).trans (next_congr ?_)
    rw [cvRegisterWrite, cvOwned_of_owner hrun hown, cvProgress_of_idle hbusy]
  case length =>
    refine (cvAccess_of_idle hbusy).trans (next_congr ?_)
    rw [cvLenWrite, cvOwned_of_owner hrun hown, cvProgress_of_idle hbusy]
    refine onChip_congr ?_
    dsimp only
    rw [if_neg (not_not.2 hsize), modCv_modCv]
    have hv' : v.toNat ≠ 0 := fun h => hv (BitVec.eq_of_toNat_eq h)
    exact modCv_congr _ _ _ _ _ (by simp [hv'])
  case claim =>
    refine (cvAccess_of_idle hbusy).trans (next_congr ?_)
    rw [cvCfgWrite, if_pos ⟨hnone, hm, hv⟩, if_pos hrun]
    exact cvSetCfg_of_no_start h31
  case read => exact cvAccess_of_idle hbusy
  case foreign =>
    have hexec : exec (.cvRegisterWrite l k m reg v) s = .next (s.onChip (fun c => c.selfFence l 0x010E 0x01 l.idx)) := by
      refine (cvAccess_of_idle hbusy).trans (next_congr ?_)
      rw [cvRegisterWrite, cvOwned, if_neg (by simp [hrun]), if_neg hother]
      refine onChip_congr ?_
      rw [Chip.coreViolation, hlane]
      rfl
    obtain ⟨hfenced, hcode⟩ := selfFence_boot s.chip l 0x010E 0x01 l.idx
    exact ⟨_, hexec, hfenced, hcode, rfl⟩

end Sys2Proof.Machine

namespace Sys2Proof.Machine
open Sys2Proof

/-! ### Bits of a mask -/

theorem hasBit_bitMask {k n : Nat} (h : k < 8) : hasBit (bitMask n) k = decide (k = n) := by
  rw [hasBit, bitMask, BitVec.getLsbD_shiftLeft, BitVec.getLsbD_one]
  by_cases hk : k = n
  · simp [hk]
    omega
  · simp only [hk, decide_false]
    simp
    omega

@[simp] theorem hasBit_setBit {m : Mask} {n k : Nat} {v : Bool} (h : k < 8) : hasBit (setBit m n v) k = if k = n then v else hasBit m k := by
  have hb := hasBit_bitMask (n := n) h
  unfold hasBit at hb ⊢
  unfold setBit
  cases v
  · simp only [Bool.false_eq_true, if_false, BitVec.getLsbD_and, BitVec.getLsbD_not, hb, h, decide_true, Bool.true_and]
    by_cases hk : k = n <;> simp [hk]
  · simp only [if_true, BitVec.getLsbD_or, hb]
    by_cases hk : k = n <;> simp [hk]

/-! ### A change of the agreed data in states that agree but for the accounts -/

/-- A change of the agreed data that leaves the accounts aside makes of alike states alike states. -/
theorem plain_modDev {s t : State} (h : Alike s t) (f : Dev → Dev) (hf : ∀ d a : Dev, (f (d.withAccounts a)).plain = (f d).plain) :
    (t.onChip (fun c => c.modDev f)).plain = (s.onChip (fun c => c.modDev f)).plain := by
  have hdev : (f t.chip.dev).plain = (f s.chip.dev).plain := by rw [h.dev]; exact hf ..
  calc (t.onChip (fun c => c.modDev f)).plain = { t.plain with chip := { t.plain.chip with dev := (f t.chip.dev).plain } } := rfl
    _ = { s.plain with chip := { s.plain.chip with dev := (f s.chip.dev).plain } } := by rw [h.plain, hdev]
    _ = _ := rfl

/-! ### SIO.OUTPUT_SET (R354, R411) -/

/-- The second chip differs from the first in the commanded states of the outputs and the sessions that commanded them. -/
def OutsOnly (c d : Chip) : Prop := d = c.modDev (fun x => { x with so := d.dev.so, soBy := d.dev.soBy })

theorem OutsOnly.refl (c : Chip) : OutsOnly c c := rfl

theorem OutsOnly.trans {c d e : Chip} (h : OutsOnly c d) (k : OutsOnly d e) : OutsOnly c e := by
  unfold OutsOnly at *
  rw [h] at k
  exact k

theorem OutsOnly.outputFree {c d : Chip} (h : OutsOnly c d) (l : LaneId) (n : Nat) : d.outputFree l n = c.outputFree l n := by rw [h]; rfl
theorem OutsOnly.outputLanes {c d : Chip} (h : OutsOnly c d) (p : List Byte) : d.outputLanes p = c.outputLanes p := by rw [h]; rfl

/-- What setting one output in some lanes does to the commanded states. -/
def SetsOutput (c d : Chip) (ls : List LaneId) (ns : List Nat) (v : Nat → Bool) : Prop :=
  OutsOnly c d ∧ ∀ l n, n < 4 → hasBit (d.dev.so.get l) n =
    if n ∈ ns ∧ l ∈ ls ∧ c.outputFree l n = true then v n else hasBit (c.dev.so.get l) n

/-- One output set in one lane after another. -/
theorem setsOutput_lanes (v : Nat → Bool) (n : Nat) (ls : List LaneId) : ∀ c : Chip, SetsOutput c (ls.foldl (fun c l =>
    if c.outputFree l n then c.modDev (fun d => { d with so := d.so.set l (setBit (d.so.get l) n (v n)) }) else c) c) ls [n] v := by
  induction ls with
  | nil => exact fun c => ⟨.refl c, by simp⟩
  | cons j ls ih =>
    intro c
    have hone : SetsOutput c (if c.outputFree j n then c.modDev (fun d => { d with so := d.so.set j (setBit (d.so.get j) n (v n)) }) else c)
        [j] [n] v := by
      split
      · refine ⟨rfl, fun l k hk => ?_⟩
        simp only [modDev_dev, tri_get_set, List.mem_singleton]
        grind [hasBit_setBit]
      · exact ⟨.refl c, by grind⟩
    obtain ⟨honly, hbits⟩ := hone
    obtain ⟨honly', hbits'⟩ := ih (if c.outputFree j n then c.modDev (fun d => { d with so := d.so.set j (setBit (d.so.get j) n (v n)) }) else c)
    refine ⟨honly.trans honly', fun l k hk => ?_⟩
    rw [List.foldl_cons, hbits' l k hk, hbits l k hk, honly.outputFree]
    grind

theorem setsOutput_commandOut (c : Chip) (p : List Byte) (session n : Nat) :
    SetsOutput c (c.commandOut p session n) (c.outputLanes p) [n] (fun n => (fld p 1 1).testBit n) := by
  obtain ⟨honly, hbits⟩ := setsOutput_lanes (fun n => (fld p 1 1).testBit n) n (c.outputLanes p) (c.modDev (fun d => { d with soBy := setNth d.soBy n session }))
  exact ⟨OutsOnly.trans (d := c.modDev (fun d => { d with soBy := setNth d.soBy n session })) rfl honly, hbits⟩

theorem setsOutput_list (p : List Byte) (session : Nat) (ns : List Nat) : ∀ c : Chip,
    SetsOutput c (ns.foldl (fun c n => c.commandOut p session n) c) (c.outputLanes p) ns (fun n => (fld p 1 1).testBit n) := by
  induction ns with
  | nil => exact fun c => ⟨.refl c, by simp⟩
  | cons n ns ih =>
    intro c
    obtain ⟨honly, hbits⟩ := setsOutput_commandOut c p session n
    obtain ⟨honly', hbits'⟩ := ih (c.commandOut p session n)
    refine ⟨honly.trans honly', fun l k hk => ?_⟩
    rw [List.foldl_cons, hbits' l k hk, hbits l k hk, honly.outputFree, honly.outputLanes]
    grind

/-- The launches of a timed setting, one for each output in turn. -/
def setLaunches (c : Chip) (p : List Byte) (time session : Nat) (n : Nat) : Launch :=
  let b := c.boundaryOf (gridOf c.dev.cfg.ws (10 + n)) time
  { out := 10 + n, count := b.1, index := b.2, kind := 7, args := p, by_ := session }

theorem addLaunch_list (p : List Byte) (time session : Nat) (ns : List Nat) : ∀ c : Chip,
    ns.foldl (fun c n => c.addLaunch (10 + n) 7 time p session) c =
      c.modDev (fun d => { d with launches := d.launches ++ ns.map (setLaunches c p time session) }) := by
  induction ns with
  | nil => exact fun c => by simp [Chip.modDev]
  | cons n ns ih =>
    intro c
    rw [List.foldl_cons, ih]
    simp only [Chip.addLaunch, Chip.modDev, List.map_cons, List.append_assoc, List.singleton_append]
    rfl

/-- Settles O20: the outputs are set one after another, and each setting of one output spares the others. -/
theorem outputSetCommandsNamedOutputs : Obligations.OutputSetCommandsNamedOutputs := by
  intro s r hadm hbody hnames hstates hmask hzero hfree
  obtain ⟨g, halike, -, hexec⟩ := exec_of_admits (i := .outputSet r) rfl hadm
  have hlanes : g.chip.outputLanes r.body = s.chip.outputLanes r.body := by rw [Chip.outputLanes, halike.authLanes]; rfl
  have hout : ∀ l n, g.chip.outputFree l n = s.chip.outputFree l n := fun l n => by
    rw [Chip.outputFree, halike.inAuth, lane_eq, halike.lanes l]
    rfl
  have hfull : ∀ n, g.chip.launchFull n = s.chip.launchFull n := fun n => by rw [Chip.launchFull, halike.dev]; rfl
  have hchecks (hq : g.chip.queueFails r ((outputList r.body).map (· + 10)) = []) : checksOutputSet r g.chip = [] := by
    have hany : ¬ (outputList r.body ≠ [] ∧ (g.chip.outputLanes r.body).all (fun l =>
        (outputList r.body).all (fun n => !g.chip.outputFree l n)) = true) := by
      obtain ⟨l, hl, n, hn, hln⟩ := hfree
      rintro ⟨-, hall⟩
      have := List.all_eq_true.1 (List.all_eq_true.1 hall l (hlanes ▸ hl)) n hn
      rw [hout, hln] at this
      cases this
    rw [checksOutputSet, if_neg (by simp [hbody, hzero]; omega), if_neg hany, hq]
    rfl
  refine ⟨fun huntimed => ?now, fun htimed hqueue => ?later⟩
  case now =>
    have heffect : effectOutputSet r g = OpOut.chip g (fun c => (outputList r.body).foldl (fun c n => c.commandOut r.body r.session n) c) := by
      simp only [effectOutputSet, huntimed, Bool.false_eq_true, if_false]
    obtain ⟨honly, hbits⟩ := setsOutput_list r.body r.session (outputList r.body) g.chip
    have hfinish := alike_finish attrOutputSet r (OpOut.chip g (fun c => (outputList r.body).foldl (fun c n => c.commandOut r.body r.session n) c))
    have hso := (congrArg Dev.so hfinish.dev :)
    have hsoBy := (congrArg Dev.soBy hfinish.dev :)
    refine ⟨_, (hexec (hchecks (by simp [Chip.queueFails, huntimed]))).trans (next_congr (congrArg (fun o => o.finish attrOutputSet r) heffect)), ?_,
      fun l n hn => ?_⟩
    · rw [hso, hsoBy]
      have honly' : (OpOut.chip g (fun c => (outputList r.body).foldl (fun c n => c.commandOut r.body r.session n) c)).st = _ :=
        congrArg (fun c => ({ g with chip := c } : State)) honly
      exact (hfinish.plain.trans (congrArg State.plain honly')).trans (plain_modDev halike _ fun _ _ => rfl)
    · rw [hso]
      refine (hbits l n hn).trans ?_
      rw [hout, hlanes, halike.dev]
      rfl
  case later =>
    have heffect : effectOutputSet r g = OpOut.chip g (fun c => c.modDev (fun d => { d with
        launches := d.launches ++ (outputList r.body).map (setLaunches g.chip (r.body.take 12) r.launchTime r.session) })) := by
      simp only [effectOutputSet, htimed, if_true, OpOut.chip]
      exact congrArg (fun s => ({ st := s } : OpOut)) (onChip_congr (addLaunch_list ..))
    have hroom : g.chip.queueFails r ((outputList r.body).map (· + 10)) = [] := by
      simp [Chip.queueFails, hfull]
      exact fun _ n hn => hqueue n hn
    have hfinish := alike_finish attrOutputSet r (OpOut.chip g (fun c => c.modDev (fun d => { d with
        launches := d.launches ++ (outputList r.body).map (setLaunches g.chip (r.body.take 12) r.launchTime r.session) })))
    have hlaunches := (congrArg Dev.launches hfinish.dev :)
    refine ⟨_, (hexec (hchecks hroom)).trans (next_congr (congrArg (fun o => o.finish attrOutputSet r) heffect)), ?_, ?_, ?_⟩
    · have hso := (congrArg Dev.so hfinish.dev :)
      rw [hso]
      exact (congrArg Dev.so halike.dev :)
    · rw [hlaunches]
      show (g.chip.dev.launches ++ _).length = _
      rw [List.length_append, List.length_map, halike.dev]
      rfl
    · rw [hlaunches]
      refine hfinish.plain.trans (.trans ?_ (plain_modDev halike _ fun _ _ => rfl))
      rfl

end Sys2Proof.Machine

namespace Sys2Proof.Machine
open Sys2Proof

/-! ### Operations whose effect is a change of the agreed data -/

/-- A chip that agrees with another but for the accounts, spelled out. -/
theorem Alike.chip {s t : State} (h : Alike s t) :
    t.chip = { s.chip with lanes := t.chip.lanes, dev := s.chip.dev.withAccounts t.chip.dev } := by
  show _ = ({ lanes := t.chip.lanes, bridges := s.chip.bridges, links := s.chip.links, pintle := s.chip.pintle,
                 dev := s.chip.dev.withAccounts t.chip.dev, fresh := s.chip.fresh } : Chip)
  rw [← h.bridges, ← h.links, ← h.pintle, ← h.fresh, ← h.dev]

/-- An operation that passes its checks and changes the agreed data alone, as every state past the gates sees it. -/
theorem exec_modDev {i : Instr} {o : OpRow} (hrow : opRow i = some o) {s : State} (hadm : s.admits o.attr o.req = true) (f : Dev → Dev)
    (hf : ∀ d a : Dev, (f (d.withAccounts a)).plain = (f d).plain) (hchecks : ∀ g, Alike s g → o.checks o.req g.chip = [])
    (heffect : ∀ g, Alike s g → o.effect o.req g = OpOut.chip g (fun c => c.modDev f)) :
    ∃ t, exec i s = .next t ∧ t.mem = s.mem ∧ t.plain = (s.onChip (fun c => c.modDev f)).plain := by
  obtain ⟨g, halike, -, hexec⟩ := exec_of_admits hrow hadm
  refine ⟨_, hexec (hchecks g halike), (finish_mem ..).trans ?_, (finish_plain ..).trans ?_⟩
  · rw [heffect g halike]
    exact halike.mem
  · rw [heffect g halike]
    exact plain_modDev halike f hf

/-- A field of the agreed data outside the accounts, read from the plain part. -/
theorem dev_of_plain {s t : State} (h : t.plain = s.plain) {α : Type} (p : Dev → α) (hp : ∀ d a : Dev, p (d.withAccounts a) = p d) :
    p t.chip.dev = p s.chip.dev := by
  rw [(alike_of_plain h).dev, hp]

/-! ### LOOP operations (R287, R289, R290) -/

theorem chainOut_congr {c d : Chip} (h : d.dev.cfg = c.dev.cfg) : ∀ fuel n, d.chainOut fuel n = c.chainOut fuel n := by
  have hpar : ∀ (p : PInfo) i, d.parN p i = c.parN p i := fun p i => by rw [Chip.parN, Chip.parN, Chip.par, Chip.par, h]
  have hbridges : ∀ n, d.bridgesOf n = c.bridgesOf n := fun n => by simp only [Chip.bridgesOf, hpar, h]
  have hinner : ∀ n, d.innerOf n = c.innerOf n := fun n => by
    simp only [Chip.innerOf, Chip.loopsOn, hpar]
    have : d.loopOn = c.loopOn := funext fun m => by rw [Chip.loopOn, Chip.loopOn, Chip.par, Chip.par, h]
    rw [this]
  intro fuel
  induction fuel with
  | zero => exact fun _ => rfl
  | succ fuel ih =>
    intro n
    have hfuel : d.chainOut fuel = c.chainOut fuel := funext ih
    simp only [Chip.chainOut, hpar, hbridges, hinner, hfuel]

theorem loopFencedAll_alike {s g : State} (h : Alike s g) (n : Nat) : g.chip.loopFencedAll n = s.chip.loopFencedAll n :=
  (congrArg (fun c : Chip => c.loopFencedAll n) h.chip).trans rfl

theorem loopOn_alike {s g : State} (h : Alike s g) (n : Nat) : g.chip.loopOn n = s.chip.loopOn n := by
  rw [Chip.loopOn, h.par, ← Chip.loopOn]

theorem loops_alike {s g : State} (h : Alike s g) : g.chip.dev.loops = s.chip.dev.loops := by rw [h.dev]; rfl
theorem launchFull_alike {s g : State} (h : Alike s g) (o : Nat) : g.chip.launchFull o = s.chip.launchFull o := by
  rw [Chip.launchFull, h.dev]
  rfl

theorem loopFails_of_runs {s g : State} (h : Alike s g) {n : Nat} (hon : s.chip.loopOn n = true)
    (hmode : (nth s.chip.dev.loops n {}).mode ≠ .stopped) (hfree : s.chip.loopFencedAll n = false) : g.chip.loopFails n = [] := by
  simp [Chip.loopFails, loopOn_alike h, loops_alike h, loopFencedAll_alike h, hon, hmode, hfree]

theorem chainFails_of_room {s g : State} (h : Alike s g) {r : Req} {n : Nat}
    (hroom : r.isTimed = true → ∃ o, s.chip.chainOut 9 n = some o ∧ s.chip.launchFull o = false) : g.chip.chainFails r n = [] := by
  unfold Chip.chainFails
  split
  · obtain ⟨o, hchain, hfull⟩ := hroom ‹_›
    simp [chainOut_congr h.cfg, hchain, launchFull_alike h, hfull]
  · rfl

/-- A timed operation of a loop waits in the queue of its chain's output, under the period of its launch point (R290). -/
def loopLaunch (c : Chip) (out kind time : Nat) (args : List Byte) (session : Nat) : Launch :=
  { out := out, count := c.launchPeriod time, index := 0, kind := kind, args := args, by_ := session }

theorem addLoopLaunch_alike {s g : State} (h : Alike s g) (out kind time : Nat) (args : List Byte) (session : Nat) :
    g.chip.addLoopLaunch out kind time args session =
      g.chip.modDev (fun d => { d with launches := d.launches ++ [loopLaunch s.chip out kind time args session] }) := by
  have : g.chip.launchPeriod time = s.chip.launchPeriod time := (congrArg (fun c : Chip => c.launchPeriod time) h.chip).trans rfl
  simp only [Chip.addLoopLaunch, loopLaunch, this]

/-- Settles O41: each operation passes its checks and changes its context, or the queue at the end of its chain. -/
theorem loopOperations : Obligations.LoopOperations := by
  intro s r n hn hbody hmax hon hmode hfree loops queued
  have hloops {i : Instr} {f : Loop → Loop} (h : ∃ t, exec i s = .next t ∧ t.mem = s.mem ∧
      t.plain = (s.onChip (fun c => c.modDev (fun d => { d with loops := modNth d.loops n f }))).plain) : ∃ t, exec i s = .next t ∧ loops t f := by
    obtain ⟨t, hexec, hmem, hplain⟩ := h
    have hdev : t.chip.dev.loops = _ := dev_of_plain hplain Dev.loops fun _ _ => rfl
    refine ⟨t, hexec, hmem, hdev, ?_⟩
    rw [hdev]
    exact hplain
  have hqueued {i : Instr} {o : Nat} {x : Launch} (hx : x.out = o) (h : ∃ t, exec i s = .next t ∧ t.mem = s.mem ∧
      t.plain = (s.onChip (fun c => c.modDev (fun d => { d with launches := d.launches ++ [x] }))).plain) : ∃ t, exec i s = .next t ∧ queued t o := by
    obtain ⟨t, hexec, hmem, hplain⟩ := h
    exact ⟨t, hexec, x, dev_of_plain hplain Dev.launches fun _ _ => rfl, hx, hplain⟩
  refine ⟨fun hadm hz1 hz8 hlo hhi hsrc => ?setpoint, fun hadm hcode hgiven hzero hz8 => ?mode, fun hadm hz1 hz8 hauto => ?preset⟩
  case setpoint =>
    have hchecks : (r.isTimed = true → ∃ o, s.chip.chainOut 9 n = some o ∧ s.chip.launchFull o = false) → ∀ g, Alike s g →
        checksSetpointSet r g.chip = [] := by
      intro hroom g halike
      have hlim : ¬ loopLim < dist (sfld r.body 4 4) 0 := by simp only [loopLim, dist]; omega
      rw [checksSetpointSet, ← hn, if_neg (by simp [hbody, hz1, hz8]; omega), if_neg hlim, halike.parN, if_neg (Nat.not_lt.2 hsrc), loopFails_of_runs halike hon hmode hfree,
        chainFails_of_room halike hroom]
      rfl
    refine ⟨fun huntimed hstep => ?_, fun o htimed hchain hfull => ?_⟩
    · refine hloops (exec_modDev (i := .setpointSet r) rfl hadm _ (fun _ _ => ?_) (hchecks (by simp [huntimed])) fun g halike => ?_)
      · rfl
      · have hstep' : g.chip.dev.snow.step = 0 := by rw [halike.dev]; exact hstep
        show effectSetpointSet r g = _
        simp only [effectSetpointSet, huntimed, Bool.false_eq_true, if_false, OpOut.chip, State.onChip, Chip.applySp, hstep', ne_eq,
          not_true_eq_false, decide_false, Bool.false_and, hn]
        rfl
    · refine hqueued ?_ (exec_modDev (i := .setpointSet r) rfl hadm (fun d => { d with launches := d.launches ++ [loopLaunch s.chip o 8 r.launchTime
          (bytesAt r.body 0 1 ++ List.replicate 3 0 ++ bytesAt r.body 4 4 ++ List.replicate 4 0) r.session] }) (fun _ _ => rfl)
          (hchecks fun _ => ⟨o, hchain, hfull⟩) fun g halike => ?_)
      · rfl
      · show effectSetpointSet r g = _
        simp only [effectSetpointSet, htimed, if_true, OpOut.chip, State.onChip, ← hn, chainOut_congr halike.cfg, hchain, Option.getD_some,
          addLoopLaunch_alike halike]
  case mode =>
    have hchecks : (r.isTimed = true → ∃ o, s.chip.chainOut 9 n = some o ∧ s.chip.launchFull o = false) → ∀ g, Alike s g →
        checksModeSet r g.chip = [] := by
      intro hroom g halike
      rw [checksModeSet, ← hn, if_neg (by simp [hbody, hzero, hz8]; omega), loopFails_of_runs halike hon hmode hfree,
        chainFails_of_room halike hroom]
      rfl
    have happly (huntimed : r.isTimed = false) {f : Loop → Loop} (hf : ∀ g : State, g.chip.applyMode n (fld r.body 1 1) (bitOf (fld r.body 2 1) 0)
        (sfld r.body 4 4) r.session = g.chip.modLoop n f) : ∃ t, exec (.modeSet r) s = .next t ∧ loops t f := by
      refine hloops (exec_modDev (i := .modeSet r) rfl hadm (fun d => { d with loops := modNth d.loops n f }) (fun _ _ => rfl)
        (hchecks (by simp [huntimed])) fun g halike => ?_)
      show effectModeSet r g = _
      simp only [effectModeSet, huntimed, Bool.false_eq_true, if_false, OpOut.chip, State.onChip, ← hn, hf]
      rfl
    refine ⟨fun huntimed hone => happly huntimed fun g => ?_, fun huntimed htwo => happly huntimed fun g => ?_, fun o htimed hchain hfull => ?_⟩
    · have hbit : bitOf (fld r.body 2 1) 0 = decide (fld r.body 2 1 = 1) := by
        have : fld r.body 2 1 = 0 ∨ fld r.body 2 1 = 1 := by omega
        obtain h | h := this <;> rw [h] <;> rfl
      simp only [Chip.applyMode, hone, if_true, hbit, decide_eq_true_eq]
    · have htwo' : ¬ fld r.body 1 1 = 1 := by omega
      simp only [Chip.applyMode, htwo', if_false, LoopMode.automatic, decide_eq_true_eq]
    · refine hqueued ?_ (exec_modDev (i := .modeSet r) rfl hadm (fun d => { d with launches := d.launches ++ [loopLaunch s.chip o 9 r.launchTime
          (bytesAt r.body 0 3 ++ List.replicate 1 0 ++ bytesAt r.body 4 4 ++ List.replicate 4 0) r.session] }) (fun _ _ => rfl)
          (hchecks fun _ => ⟨o, hchain, hfull⟩) fun g halike => ?_)
      · rfl
      · show effectModeSet r g = _
        simp only [effectModeSet, htimed, if_true, OpOut.chip, State.onChip, ← hn, chainOut_congr halike.cfg, hchain, Option.getD_some,
          addLoopLaunch_alike halike]
  case preset =>
    refine hloops (exec_modDev (i := .integratorPreset r) rfl hadm (fun d => { d with loops := modNth d.loops n (fun x =>
      { x with preset := some (sfld r.body 4 4) }) }) (fun _ _ => rfl) (fun g halike => ?_) fun g halike => ?_)
    · show checksIntegratorPreset r g.chip = []
      rw [checksIntegratorPreset, ← hn, if_neg (by simp [hbody, hz1, hz8]; omega), loopOn_alike halike, loops_alike halike,
        loopFencedAll_alike halike, if_pos ⟨hon, hauto, hfree⟩]
    · show effectIntegratorPreset r g = _
      rw [effectIntegratorPreset, ← hn]
      rfl

end Sys2Proof.Machine

namespace Sys2Proof.Machine
open Sys2Proof

/-! ### What records, replies and pending operations change -/

/-- The second chip differs from the first in the accounts of packet traffic, the fault collectors and the pending operations only. -/
structure Noted (c d : Chip) : Prop where
  lanes : LanesAlike c d
  bridges : d.bridges = c.bridges
  links : d.links = c.links
  pintle : d.pintle = c.pintle
  fresh : d.fresh = c.fresh
  dev : d.dev = { c.dev.withAccounts d.dev with pend := d.dev.pend }

theorem Noted.refl (c : Chip) : Noted c c := ⟨.refl c, rfl, rfl, rfl, rfl, rfl⟩

theorem Noted.trans {c d e : Chip} (h : Noted c d) (k : Noted d e) : Noted c e where
  lanes := h.lanes.trans k.lanes
  bridges := k.bridges.trans h.bridges
  links := k.links.trans h.links
  pintle := k.pintle.trans h.pintle
  fresh := k.fresh.trans h.fresh
  dev := by
    rw [k.dev, h.dev]
    rfl

/-- A change of the accounts and the pending operations of the agreed data alone. -/
theorem noted_modDev {c : Chip} {f : Dev → Dev} (h : f c.dev = { c.dev.withAccounts (f c.dev) with pend := (f c.dev).pend }) :
    Noted c (c.modDev f) := ⟨.refl c, rfl, rfl, rfl, rfl, h⟩

theorem noted_modHost (c : Chip) (l : LaneId) (f : HostLink → HostLink) : Noted c (c.modHost l f) := noted_modDev rfl

theorem noted_modSession (c : Chip) (n : Nat) (f : Session → Session) : Noted c (c.modSession n f) := by
  rw [modSession_eq]
  exact noted_modDev rfl

theorem RecordsOnly.noted {c d : Chip} (h : RecordsOnly c d) : Noted c d where
  lanes := h.lanesAlike
  bridges := h.bridges
  links := h.links
  pintle := h.pintle
  fresh := h.fresh
  dev := by
    have := h.dev
    rw [this]
    rfl

theorem noted_foldl {α : Type} (f : Chip → α → Chip) (h : ∀ c x, Noted c (f c x)) (xs : List α) : ∀ c : Chip, Noted c (xs.foldl f c) := by
  induction xs with
  | nil => exact .refl
  | cons x xs ih => exact fun c => (h c x).trans (ih (f c x))

theorem noted_ownPdu (c : Chip) (n op tag st : Nat) (data : List Byte) : Noted c (c.ownPdu n op tag st data).2 := noted_modSession ..

theorem noted_putPdu (c : Chip) (n : Nat) (b : List Byte) : Noted c (c.putPdu n b) := by
  unfold Chip.putPdu
  exact noted_modDev rfl

theorem noted_queue (c : Chip) (e : LaneId × OutPacket) : Noted c (c.modDev (fun d => { d with replies := d.replies ++ [e] })) := noted_modDev rfl

theorem noted_sendReply (c : Chip) (link : Option LaneId) (op : Nat) (tag : Byte) (session : Nat) (mask : Mask) (seq st : Nat) (data : List Byte) :
    Noted c (c.sendReply link op tag session mask seq st data).2 := by
  have hown := noted_ownPdu c session op tag.toNat st data
  unfold Chip.sendReply
  by_cases h0 : session = 0
  · rw [if_pos h0]
    cases link with
    | some l => exact noted_queue c _
    | none => simp only [if_pos h0]; exact .refl c
  · rw [if_neg h0]
    cases link with
    | some l => exact hown.trans (noted_queue _ _)
    | none => simp only [if_neg h0]; exact hown.trans (noted_putPdu ..)

theorem noted_keepReply (c : Chip) (p : PendOp) (q : Option OutPacket) : Noted c (c.keepReply p q) := by
  unfold Chip.keepReply
  split
  · exact noted_modHost ..
  · exact .refl c

/-- A pending operation taken out, and its tag released. -/
def Chip.releasePend (c : Chip) (p : PendOp) : Chip :=
  let c := c.modDev (fun d => { d with pend := d.pend.erase p })
  match p.link with
  | some l => c.modHost l (fun h => { h with tags := h.tags.erase p.tag })
  | none => c

theorem noted_releasePend (c : Chip) (p : PendOp) : Noted c (c.releasePend p) := by
  have h : Noted c (c.modDev (fun d => { d with pend := d.pend.erase p })) := noted_modDev rfl
  unfold Chip.releasePend
  dsimp only
  split
  · exact h.trans (noted_modHost ..)
  · exact h

theorem noted_finalReply (c : Chip) (p : PendOp) (st : Nat) (data : List Byte) : Noted c (c.finalReply p st data) := by
  have h := noted_releasePend c p
  show Noted c (if (c.releasePend p).suppressed p.session p.suppress st then c.releasePend p else _)
  split
  · exact h
  · exact (h.trans (noted_sendReply ..)).trans (noted_keepReply ..)

theorem noted_finishAll (c : Chip) (test : PendOp → Bool) (st : Nat) (data : List Byte) : Noted c (c.finishAll test st data) :=
  noted_foldl _ (fun c p => noted_finalReply c p st data) _ c

/-- An operation registered for its final reply. -/
def pendOf (code : Nat) (r : Req) (p : PendOp) : PendOp :=
  { p with opcode := code, link := r.link, tag := r.tag, session := r.session, mask := r.mask, seq := r.seq, suppress := hasBit r.flags 0 }

theorem addPend_pend (c : Chip) (code : Nat) (r : Req) (p : PendOp) : (c.addPend code r p).dev.pend = c.dev.pend ++ [pendOf code r p] := by
  unfold Chip.addPend
  dsimp only
  split <;> rfl

theorem noted_addPend (c : Chip) (code : Nat) (r : Req) (p : PendOp) : Noted c (c.addPend code r p) := by
  have h : Noted c (c.modDev (fun d => { d with pend := d.pend ++ [pendOf code r p] })) := noted_modDev rfl
  unfold Chip.addPend
  dsimp only
  split
  · exact h.trans (noted_modHost ..)
  · exact h

/-! ### The final reply of the one operation that waits -/

/-- The final reply that a host link carries: the packet in the link's queue, the operation no longer pending. -/
theorem finalReply_link {c : Chip} {p : PendOp} {l : LaneId} (hl : p.link = some l) {st : Nat}
    (hunsuppressed : ∀ d : Chip, d.suppressed p.session p.suppress st = false) (data : List Byte) :
    ∃ q : OutPacket, (c.finalReply p st data).dev.replies = c.dev.replies ++ [(l, q)] ∧ (c.finalReply p st data).dev.pend = c.dev.pend.erase p ∧
      q.opcode = p.opcode ∧ q.status = st ∧ (p.session = 0 → q.payload = data) := by
  have hkeep : ∀ (d : Chip) q, (d.keepReply p q).dev.replies = d.dev.replies ∧ (d.keepReply p q).dev.pend = d.dev.pend := fun d q => by
    rw [Chip.keepReply, hl]
    exact ⟨rfl, rfl⟩
  have hrel : (c.releasePend p).dev.replies = c.dev.replies ∧ (c.releasePend p).dev.pend = c.dev.pend.erase p := by
    rw [Chip.releasePend, hl]
    exact ⟨rfl, rfl⟩
  have hfinal : c.finalReply p st data = ((c.releasePend p).sendReply p.link p.opcode p.tag p.session p.mask p.seq st data).2.keepReply p
      ((c.releasePend p).sendReply p.link p.opcode p.tag p.session p.mask p.seq st data).1 :=
    if_neg (by rw [hunsuppressed]; decide)
  rw [hfinal, (hkeep ..).1, (hkeep ..).2]
  unfold Chip.sendReply
  rw [hl]
  dsimp only
  by_cases h0 : p.session = 0
  · rw [if_pos h0]
    exact ⟨_, congrArg (· ++ _) hrel.1, hrel.2, rfl, rfl, fun _ => rfl⟩
  · rw [if_neg h0]
    refine ⟨_, congrArg (· ++ _) ((modSession_replies ..).trans hrel.1), ?_, rfl, rfl, fun h => absurd h h0⟩
    exact (congrArg Dev.pend (modSession_dev ..)).trans hrel.2

/-- With one operation pending and the test picking it, it gets the final reply. -/
theorem finishAll_single {c : Chip} {p : PendOp} (hp : c.dev.pend = [p]) {test : PendOp → Bool} (ht : test p = true) (st : Nat) (data : List Byte) :
    c.finishAll test st data = c.finalReply p st data := by
  rw [Chip.finishAll, hp, List.filter_cons_of_pos ht]
  rfl

/-- The one pending operation of a host link gets its reply, unless that is withheld, and none is pending then. -/
theorem finishAll_link_of {c : Chip} {p : PendOp} {l : LaneId} (hp : c.dev.pend = [p]) (hl : p.link = some l) {st : Nat}
    (hs : ∀ d : Chip, d.suppressed p.session p.suppress st = false) {test : PendOp → Bool} (ht : test p = true) (data : List Byte) :
    ∃ q : OutPacket, (c.finishAll test st data).dev.replies = c.dev.replies ++ [(l, q)] ∧ (c.finishAll test st data).dev.pend = [] ∧
      q.opcode = p.opcode ∧ q.status = st ∧ (p.session = 0 → q.payload = data) := by
  obtain ⟨q, hr, hpend, hop, hst, hdata⟩ := finalReply_link (c := c) hl hs data
  rw [finishAll_single hp ht]
  exact ⟨q, hr, by rw [hpend, hp, List.erase_cons_head], hop, hst, hdata⟩

theorem finishAll_link {c : Chip} {p : PendOp} {l : LaneId} (hp : c.dev.pend = [p]) (hl : p.link = some l) (hs : p.suppress = false)
    {test : PendOp → Bool} (ht : test p = true) (st : Nat) (data : List Byte) :
    ∃ q : OutPacket, (c.finishAll test st data).dev.replies = c.dev.replies ++ [(l, q)] ∧ (c.finishAll test st data).dev.pend = [] ∧
      q.opcode = p.opcode ∧ q.status = st ∧ (p.session = 0 → q.payload = data) :=
  finishAll_link_of hp hl (fun d => by rw [hs]; rfl) ht data

end Sys2Proof.Machine

namespace Sys2Proof.Machine
open Sys2Proof

/-! ### Reading a chip past records and replies -/

/-- A field of the agreed data outside the accounts and the pending operations. -/
theorem Noted.field {c d : Chip} (h : Noted c d) {α : Type} (p : Dev → α)
    (hp : ∀ (x a : Dev) pend, p { x.withAccounts a with pend := pend } = p x) : p d.dev = p c.dev := by
  rw [h.dev, hp]

theorem Noted.par {c d : Chip} (h : Noted c d) (p : PInfo) (i : Nat) : d.par p i = c.par p i := by
  rw [Chip.par, Chip.par, h.field Dev.cfg fun _ _ _ => rfl]

/-- A field of the agreed data outside the accounts, in a state alike. -/
theorem Alike.field {s t : State} (h : Alike s t) {α : Type} (p : Dev → α) (hp : ∀ d a : Dev, p (d.withAccounts a) = p d) :
    p t.chip.dev = p s.chip.dev := dev_of_plain h.plain p hp

/-- A chip-valued reading that looks at neither lanes nor accounts, in a state alike. -/
theorem Alike.reads {s t : State} (h : Alike s t) {α : Type} (p : Chip → α)
    (hp : ∀ (c : Chip) (ls : Tri Lane) (a : Dev), p { c with lanes := ls, dev := c.dev.withAccounts a } = p c) : p t.chip = p s.chip :=
  (congrArg p h.chip).trans (hp ..)

theorem opOut_chip_congr {s : State} {f g : Chip → Chip} (h : f s.chip = g s.chip) : OpOut.chip s f = OpOut.chip s g :=
  congrArg (fun s => ({ st := s } : OpOut)) (onChip_congr h)

/-! ### Pending launches (R355, R356) -/

/-- A timed operation waits in its output's queue under the boundary of its launch time (R354, R355). -/
def gridLaunch (c : Chip) (out kind time : Nat) (args : List Byte) (session : Nat) : Launch :=
  let b := c.boundaryOf (gridOf c.dev.cfg.ws out) time
  { out := out, count := b.1, index := b.2, kind := kind, args := args, by_ := session }

theorem addLaunch_alike {s g : State} (h : Alike s g) (out kind time : Nat) (args : List Byte) (session : Nat) :
    g.chip.addLaunch out kind time args session =
      g.chip.modDev (fun d => { d with launches := d.launches ++ [gridLaunch s.chip out kind time args session] }) := by
  have hbound : g.chip.boundaryOf (gridOf g.chip.dev.cfg.ws out) time = s.chip.boundaryOf (gridOf s.chip.dev.cfg.ws out) time :=
    h.reads (fun c => c.boundaryOf (gridOf c.dev.cfg.ws out) time) fun _ _ _ => rfl
  simp only [Chip.addLaunch, gridLaunch, hbound]

theorem queueFails_of_room {s g : State} (h : Alike s g) {r : Req} {outs : List Nat}
    (hroom : r.isTimed = true → ∀ o ∈ outs, s.chip.launchFull o = false) : g.chip.queueFails r outs = [] := by
  have hfull : g.chip.launchFull = s.chip.launchFull := funext fun o => launchFull_alike h o
  rw [Chip.queueFails, hfull, if_neg]
  simpa using hroom

/-- The launches of an output are gone, with a record where it had any (R356). -/
theorem discardLaunches_noted (c : Chip) (o : Nat) :
    Noted (c.modDev (fun d => { d with launches := d.launches.filter (fun x => x.out != o) })) (c.discardLaunches o) := by
  unfold Chip.discardLaunches
  split
  · exact (agreedFault_only ..).noted
  · rename_i h
    have : c.dev.launches.filter (fun x => x.out != o) = c.dev.launches := by
      rw [List.filter_eq_self]
      intro x hx
      simp only [List.any_eq_true, not_exists, not_and] at h
      simpa using h x hx
    rw [Chip.modDev, this]
    exact .refl c

/-! ### STP operations (R256, R263 to R265) -/

theorem stpChannel_alike {s g : State} (h : Alike s g) (p : List Byte) : g.chip.stpChannel p = s.chip.stpChannel p :=
  h.reads (fun c => c.stpChannel p) fun _ _ _ => rfl

theorem outFenced_alike {s g : State} (h : Alike s g) (o : Nat) : g.chip.outFenced o = s.chip.outFenced o :=
  h.reads (fun c => c.outFenced o) fun _ _ _ => rfl

theorem stpByLoop_alike {s g : State} (h : Alike s g) (k : Nat) : g.chip.stpByLoop k = s.chip.stpByLoop k :=
  h.reads (fun c => c.stpByLoop k) fun _ _ _ => rfl

theorem steppers_alike {s g : State} (h : Alike s g) : g.chip.dev.steppers = s.chip.dev.steppers := by rw [h.dev]; rfl

/-- Where a stop of a moving channel comes to rest, and how (R264). -/
def Stepper.stopped (y : Stepper) (grid d : Int) (quick deEnergise : Bool) : Stepper :=
  { y with
    phase := .stopping, braking := false, quick := quick, deEnergise := deEnergise, scurve := false, homeStage := 0
    idle := if y.v = 0 then y.idle else false
    target := if y.v = 0 then wholeStep y.x else restAt grid (y.x + sgn y.v * stopDist y.v d) (sgn y.v) }

theorem stpStopNow_of_energised {c : Chip} {k : Nat} (h : (nth c.dev.steppers k {}).energised = true) (quick deEnergise : Bool) :
    c.stpStopNow k quick deEnergise = c.modStep k (fun y => y.stopped (stpGrid c.dev.cfg.ws k)
      (if quick then c.par Par.stpDQuick k else c.par Par.stpDMax k) quick deEnergise) :=
  modStep_congr _ _ _ _ (if_neg (by simp [h]))

theorem modStep_self (c : Chip) (k : Nat) (f : Stepper → Stepper) (h : f (nth c.dev.steppers k {}) = nth c.dev.steppers k {}) :
    (c.modStep k f).dev.steppers = c.dev.steppers := modNth_self _ k {} f h

theorem stpStopNow_of_idle {c : Chip} {k : Nat} (h : (nth c.dev.steppers k {}).energised = false) (quick deEnergise : Bool) :
    (c.stpStopNow k quick deEnergise).dev.steppers = c.dev.steppers := modStep_self c k _ (by simp [h])

/-- An untimed stop: the launches and a pending homing go, with records and a reply, and then the stop is planned (R264, R356). -/
theorem effectStpStop_now {r : Req} (h : r.isTimed = false) (g : State) : ∃ c : Chip,
    Noted (g.chip.modDev (fun d => { d with launches := d.launches.filter (fun x => x.out != 4 + fld r.body 0 1) })) c ∧
    effectStpStop r g = { st := { g with chip := c.stpStopNow (fld r.body 0 1) (bitOf (fld r.body 1 1) 0) (bitOf (fld r.body 1 1) 1) } } := by
  refine ⟨(g.chip.discardLaunches (4 + fld r.body 0 1)).endHome (fld r.body 0 1) stNotHomed, (discardLaunches_noted ..).trans (noted_finishAll ..), ?_⟩
  simp only [effectStpStop, h, Bool.false_eq_true, if_false]
  rfl

/-- Settles O38: each operation passes its checks and changes its channel, or its output's queue. -/
theorem stepperOperations : Obligations.StepperOperations := by
  intro s r k hk x steppers queued
  have hsteppers {i : Instr} {f : Stepper → Stepper} (h : ∃ t, exec i s = .next t ∧ t.mem = s.mem ∧
      t.plain = (s.onChip (fun c => c.modDev (fun d => { d with steppers := modNth d.steppers k f }))).plain) : ∃ t, exec i s = .next t ∧ steppers t f := by
    obtain ⟨t, hexec, hmem, hplain⟩ := h
    exact ⟨t, hexec, hmem, dev_of_plain hplain Dev.steppers fun _ _ => rfl⟩
  have hqueued {i : Instr} {y : Launch} (h : ∃ t, exec i s = .next t ∧ t.mem = s.mem ∧
      t.plain = (s.onChip (fun c => c.modDev (fun d => { d with launches := d.launches ++ [y] }))).plain) : ∃ t, exec i s = .next t ∧ queued t := by
    obtain ⟨t, hexec, hmem, hplain⟩ := h
    have hlaunches : t.chip.dev.launches = s.chip.dev.launches ++ [y] := dev_of_plain hplain Dev.launches fun _ _ => rfl
    refine ⟨t, hexec, dev_of_plain hplain Dev.steppers fun _ _ => rfl, by rw [hlaunches, List.length_append, List.length_singleton], ?_⟩
    rw [hlaunches]
    exact hplain
  refine ⟨fun target hadm hbody hrel hzero hk6 hused hfree hloop hhold hhomed hphase htarget hmin hmax hgrid hv ha => ?move,
    fun hadm hbody hmode hzero hk6 hused => ?stop, fun hadm hbody hzero hk6 hused hfree hhold htab hphase => ?home,
    fun hadm hbody hk2 hzero hcrc hused hoff htab hmatch hvalid => ?table⟩
  case move =>
    have hchecks : (r.isTimed = true → ∀ o ∈ [4 + k], s.chip.launchFull o = false) → ∀ g, Alike s g → checksStpMove r g.chip = [] := by
      intro hroom g halike
      have hchan : s.chip.stpChannel r.body = true := by simp [Chip.stpChannel, ← hk, hk6, hused]
      have hpintle : g.chip.pintle.holding = false := by rw [halike.pintle]; exact hhold
      have hrange : ¬ (target < s.chip.par Par.stpPosMin k ∨ s.chip.par Par.stpPosMax k < target ∨ target % stpGrid s.chip.dev.cfg.ws k ≠ 0 ∨
          s.chip.parN Par.stpVMax k < fld r.body 8 4 ∨ s.chip.parN Par.stpAMax k < fld r.body 12 4) := by omega
      rw [checksStpMove, ← hk, if_neg (by simp [hbody, hzero, stpChannel_alike halike, hchan]; omega)]
      simp only [outFenced_alike halike, stpByLoop_alike halike, steppers_alike halike, halike.par, halike.parN, halike.cfg, hpintle]
      rw [← htarget, if_neg hrange, queueFails_of_room halike hroom]
      simp [hfree, hloop, x, hhomed, hphase]
    refine ⟨fun huntimed => hsteppers (exec_modDev (i := .stpMove r) rfl hadm _ ?_ (hchecks (by simp [huntimed])) fun g halike => ?_),
      fun htimed hfull => hqueued (exec_modDev (i := .stpMove r) rfl hadm (fun d => { d with launches := d.launches ++ [gridLaunch s.chip (4 + k)
        (if fld r.body 1 1 = 1 then 5 else 4) r.launchTime (bytesAt r.body 4 12) r.session] }) (fun _ _ => rfl)
        (hchecks (by simp [hfull])) fun g halike => ?_)⟩
    · exact fun _ _ => rfl
    · show effectStpMove r g = _
      simp only [effectStpMove, huntimed, Bool.false_eq_true, if_false, ← hk]
      refine opOut_chip_congr ?_
      rw [steppers_alike halike, ← htarget, Chip.stpMoveTo, modStep_modStep, halike.par]
      rfl
    · show effectStpMove r g = _
      simp only [effectStpMove, htimed, if_true, OpOut.chip, State.onChip, ← hk, addLaunch_alike halike]
  case stop =>
    have hchecks : (r.isTimed = true → ∀ o ∈ [4 + k], s.chip.launchFull o = false) → ∀ g, Alike s g → checksStpStop r g.chip = [] := by
      intro hroom g halike
      have hchan : s.chip.stpChannel r.body = true := by simp [Chip.stpChannel, ← hk, hk6, hused]
      rw [checksStpStop, ← hk, if_neg (by simp [hbody, hzero, stpChannel_alike halike, hchan]; omega), queueFails_of_room halike hroom]
    have hnow (huntimed : r.isTimed = false) : ∃ (t : State) (c : Chip), exec (.stpStop r) s = .next t ∧ t.mem = s.mem ∧
        (∀ y ∈ t.chip.dev.launches, y.out ≠ 4 + k) ∧ c.dev.steppers = s.chip.dev.steppers ∧ c.dev.cfg = s.chip.dev.cfg ∧
        t.chip.dev.steppers = (c.stpStopNow k (bitOf (fld r.body 1 1) 0) (bitOf (fld r.body 1 1) 1)).dev.steppers := by
      obtain ⟨g, halike, -, hexec⟩ := exec_of_admits (i := .stpStop r) rfl hadm
      obtain ⟨c, hnoted, heffect⟩ := effectStpStop_now huntimed g
      have hfinish := alike_finish attrStpStop r (effectStpStop r g)
      rw [← hk] at hnoted heffect
      rw [heffect] at hfinish
      have hlaunches : c.dev.launches = g.chip.dev.launches.filter (fun x => x.out != 4 + k) := hnoted.field Dev.launches fun _ _ _ => rfl
      refine ⟨_, c, (hexec (hchecks (by simp [huntimed]) g halike)).trans (next_congr (congrArg (fun o : OpOut => o.finish attrStpStop r) heffect)),
        (finish_mem ..).trans halike.mem, ?_, (hnoted.field Dev.steppers fun _ _ _ => rfl).trans (steppers_alike halike),
        (hnoted.field Dev.cfg fun _ _ _ => rfl).trans halike.cfg, hfinish.field Dev.steppers fun _ _ => rfl⟩
      rw [hfinish.dev]
      show ∀ y ∈ c.dev.launches, _
      rw [hlaunches]
      simp
    refine ⟨fun huntimed hoff => ?_, fun huntimed hon => ?_, fun htimed hfull => hqueued (exec_modDev (i := .stpStop r) rfl hadm (fun d =>
      { d with launches := d.launches ++ [gridLaunch s.chip (4 + k) 6 r.launchTime (bytesAt r.body 1 1 ++ List.replicate 11 0) r.session] })
      (fun _ _ => rfl) (hchecks (by simp [hfull])) fun g halike => ?_)⟩
    · obtain ⟨t, c, hexec, hmem, hlaunches, hsteps, hcfg, heq⟩ := hnow huntimed
      exact ⟨t, hexec, heq.trans ((stpStopNow_of_idle (by rw [hsteps]; exact hoff) ..).trans hsteps), hlaunches⟩
    · obtain ⟨t, c, hexec, hmem, hlaunches, hsteps, hcfg, heq⟩ := hnow huntimed
      refine ⟨t, hexec, hlaunches, hmem, heq.trans ?_⟩
      rw [stpStopNow_of_energised (by rw [hsteps]; exact hon)]
      rw [modStep_dev, hsteps, Chip.par, Chip.par, hcfg]
      rfl
    · show effectStpStop r g = _
      simp only [effectStpStop, htimed, if_true, OpOut.chip, State.onChip, ← hk, addLaunch_alike halike]
  case home =>
    obtain ⟨g, halike, -, hexec⟩ := exec_of_admits (i := .stpHome r) rfl hadm
    have hchan : s.chip.stpChannel r.body = true := by simp [Chip.stpChannel, ← hk, hk6, hused]
    have hpintle : g.chip.pintle.holding = false := by rw [halike.pintle]; exact hhold
    have hchecks : checksStpHome r g.chip = [] := by
      rw [checksStpHome, ← hk, if_neg (by simp [hbody, hzero, stpChannel_alike halike, hchan])]
      simp only [outFenced_alike halike, steppers_alike halike, hpintle]
      simp [hfree, htab, hphase, x]
    have hfinish := alike_finish attrStpHome r (effectStpHome r g)
    have hnoted := noted_addPend (g.chip.homeBegin k r.session) 0x1212 r { arg := k }
    refine ⟨_, { x with
        energised := true, homed := false, phase := .homing, homeStage := 1, braking := false, travelled := 0, idle := false,
        scurve := false, quick := false, deEnergise := false, lostBase := none, lostCount := 0, coilBad := 0, cmdBy := r.session },
      hexec hchecks, ⟨(finish_mem ..).trans halike.mem, ?_⟩, rfl, rfl, rfl, rfl, rfl, rfl, ?_⟩
    · refine (hfinish.field Dev.steppers fun _ _ => rfl).trans ?_
      rw [effectStpHome, ← hk]
      refine (hnoted.field Dev.steppers fun _ _ _ => rfl).trans ?_
      rw [Chip.homeBegin, modStep_dev, steppers_alike halike]
      exact modNth_congr _ _ _ _ {} rfl
    · refine (hfinish.field (fun d => d.pend.length) fun _ _ => rfl).trans ?_
      show ((g.chip.homeBegin (fld r.body 0 1) r.session).addPend 0x1212 r { arg := fld r.body 0 1 }).dev.pend.length = _
      rw [addPend_pend, List.length_append, List.length_singleton]
      exact halike.field (fun d => d.pend.length + 1) fun _ _ => rfl
  case table =>
    have hchecks : ∀ g, Alike s g → checksTableLoad r g.chip = [] := by
      intro g halike
      rw [checksTableLoad, ← hk, if_neg (by simp [hbody, hzero]; omega)]
      simp only [steppers_alike halike, halike.cfg, halike.par, halike.parN, hcrc, hused, hmatch, hvalid]
      simp [hoff, htab, x]
    have heffect : ∀ g, effectTableLoad r g = OpOut.chip g (fun c => c.modDev (fun d => { d with
        cfg := { d.cfg with tabNext := d.cfg.tabNext ++ [(k, loadedTable r.body)] } })) := fun g => by
      rw [effectTableLoad, ← hk]
      rfl
    obtain ⟨t, hexec, -, hplain⟩ := exec_modDev (i := .tableLoad r) rfl hadm (fun d => { d with
      cfg := { d.cfg with tabNext := d.cfg.tabNext ++ [(k, loadedTable r.body)] } }) (fun _ _ => rfl) hchecks fun g _ => heffect g
    exact ⟨t, hexec, hplain⟩

end Sys2Proof.Machine

namespace Sys2Proof.Machine
open Sys2Proof

/-! ### Timers of a stepper channel (R260, R267) -/

/-- A homing that fails: one record, the reply that it is not homed, and the stop (R267). -/
theorem homeFail_eq (c : Chip) (k : Nat) : ∃ d : Chip, Noted (c.agreedFault 0x1205 0x06 k 0xFF) d ∧
    d = (c.agreedFault 0x1205 0x06 k 0xFF).endHome k stNotHomed ∧
    c.homeFail k = (d.stpStopNow k false false).modStep k (fun s => { s with homed := false }) :=
  ⟨_, noted_finishAll .., rfl, rfl⟩

/-! ### Positions of a stepper channel (R253, R261, R262, R264) -/

theorem stpAt_first (x0 x1 : Int) (j0 n : Nat) : stpAt x0 x1 j0 j0 n = x0 := by
  simp [stpAt, quo]

theorem stpAt_last (x0 x1 : Int) {j0 n : Nat} (h : j0 < n) : stpAt x0 x1 j0 n n = x1 := by
  rw [stpAt, quo_mul_cancel _ (by omega)]
  omega

/-- The rest positions lie on the grid, at or beyond the stopping point in the direction of motion (R264). -/
theorem restAt_forward {grid : Int} (h : 0 < grid) (x : Int) :
    restAt grid x 1 % grid = 0 ∧ x ≤ restAt grid x 1 * 65536 ∧ restAt grid x 1 * 65536 < x + grid * 65536 := by
  have hpos : 0 < grid * 65536 := by omega
  have hle := Int.ediv_mul_le (-x) hpos.ne'
  have hlt := Int.lt_ediv_add_one_mul_self (-x) hpos
  have heq : restAt grid x 1 = -((-x) / (grid * 65536)) * grid := rfl
  refine ⟨by rw [heq]; exact Int.mul_emod_left .., ?_, ?_⟩ <;> rw [heq] <;> linarith

theorem restAt_backward {grid : Int} (h : 0 < grid) (x : Int) :
    restAt grid x (-1) % grid = 0 ∧ restAt grid x (-1) * 65536 ≤ x ∧ x < restAt grid x (-1) * 65536 + grid * 65536 := by
  have hpos : 0 < grid * 65536 := by omega
  have hle := Int.ediv_mul_le x hpos.ne'
  have hlt := Int.lt_ediv_add_one_mul_self x hpos
  have heq : restAt grid x (-1) = x / (grid * 65536) * grid := rfl
  refine ⟨by rw [heq]; exact Int.mul_emod_left .., ?_, ?_⟩ <;> rw [heq] <;> linarith

theorem landed_of_ite {p : Prop} [Decidable p] {x y : Stepper} {q : Stepper → Prop} (hx : q x)
    (h : (if p then (x, true) else (y, false)).2 = true) : q (if p then (x, true) else (y, false)).1 := by
  by_cases hp : p
  · rwa [if_pos hp]
  · rw [if_neg hp] at h
    cases h

/-- A profile that lands stands on its target (R261). -/
theorem toTarget_lands {s : Stepper} {vm am d j : Int} {dt : Nat} (h : (s.toTarget vm am d j dt).2 = true) :
    (s.toTarget vm am d j dt).1.x = s.target * 65536 ∧ (s.toTarget vm am d j dt).1.v = 0 ∧ (s.toTarget vm am d j dt).1.target = s.target := by
  unfold Stepper.toTarget at h ⊢
  dsimp only at h ⊢
  split at h
  · rename_i hrest
    rw [if_pos hrest]
    exact ⟨by have := hrest.1; dsimp only; omega, hrest.2, rfl⟩
  · rename_i hrest
    rw [if_neg hrest]
    exact landed_of_ite (q := fun y => y.x = s.target * 65536 ∧ y.v = 0 ∧ y.target = s.target) ⟨rfl, rfl, rfl⟩ h

/-- A quarter of an electrical revolution on, the coils change places, one of them reversed (R253). -/
theorem coilFractions_quarter (t : List (Nat × Nat)) (m : Nat) :
    (coilFractions t (m + 256)).2 = (coilFractions t m).1 ∧ (coilFractions t (m + 256)).1 = -(coilFractions t m).2 := by
  have hentry : (m + 256) % 256 = m % 256 := by omega
  have hquarter : (m + 256) / 256 % 4 = (m / 256 % 4 + 1) % 4 := by omega
  unfold coilFractions
  rw [hentry, hquarter]
  have : m / 256 % 4 < 4 := Nat.mod_lt _ (by decide)
  interval_cases m / 256 % 4 <;> simp

/-- Settles O39: the timers by their equations, and each position fact by its own lemma. -/
theorem stepperTimersAndPositions : Obligations.StepperTimersAndPositions := by
  refine ⟨fun s k => ⟨fun h => ?none, fun p l hphase hstage hon hpend hop harg hlink hsup => ?fail, ?idle⟩,
    fun x0 x1 j0 n h => ⟨stpAt_first .., stpAt_last _ _ h⟩, fun grid x h => ?rest, fun s vm am d j dt h => toTarget_lands h,
    coilFractions_quarter⟩
  case none =>
    refine next_congr (congrArg (fun c => ({ s with chip := c } : State)) (if_neg ?_))
    rintro ⟨hphase, hstage⟩
    exact h.elim (· hphase) hstage
  case fail =>
    obtain ⟨d, hnoted, hd, heq⟩ := homeFail_eq s.chip k
    have hrec := agreedFault_only s.chip 0x1205 0x06 k 0xFF 1
    have hpend' : (s.chip.agreedFault 0x1205 0x06 k 0xFF).dev.pend = [p] := by rw [hrec.dev]; exact hpend
    obtain ⟨q, hreplies, hnone, -, hst, hdata⟩ := finishAll_link hpend' hlink hsup
      (test := fun p => decide (p.opcode = 0x1212 ∧ p.arg = k.val)) (by simp [hop, harg]) stNotHomed
      (toLeI 4 (wholeStep (nth (s.chip.agreedFault 0x1205 0x06 k 0xFF).dev.steppers k {}).x) ++ List.replicate 12 0)
    have hsteps : d.dev.steppers = s.chip.dev.steppers := (hnoted.field Dev.steppers fun _ _ _ => rfl).trans (by rw [hrec.dev])
    have hexec : exec (.homeTimeout k) s = .next { s with chip := (d.stpStopNow k false false).modStep k (fun s => { s with homed := false }) } :=
      next_congr (congrArg (fun c => ({ s with chip := c } : State)) ((if_pos ⟨hphase, hstage⟩).trans heq))
    have hon' : (nth d.dev.steppers k {}).energised = true := by rw [hsteps]; exact hon
    rw [stpStopNow_of_energised hon', modStep_modStep] at hexec
    refine ⟨_, q, { (nth s.chip.dev.steppers k.val {}).stopped (stpGrid d.dev.cfg.ws k) (d.par Par.stpDMax k) false false with homed := false },
      hexec, rfl, ?_, rfl, hon, rfl, rfl, rfl, ?_, ?_, hst, fun h0 => ?_⟩
    · rw [← hsteps]
      exact modNth_congr _ _ _ _ {} rfl
    · show d.dev.pend = []
      rw [hd]
      exact hnone
    · show d.dev.replies = _
      rw [hd]
      exact hreplies.trans (congrArg (· ++ _) (agreedFault_replies ..))
    · rw [hdata h0, toLeI, fld_head]
      · rw [hrec.dev]
      · unfold unsignedOf
        omega
  case idle =>
    refine next_congr (onChip_congr (modStep_congr _ _ _ _ ?_))
    simp
  case rest =>
    obtain ⟨h1, h2, h3⟩ := restAt_forward h x
    obtain ⟨h4, h5, h6⟩ := restAt_backward h x
    exact ⟨h1, h2, h3, h4, h5, h6⟩

end Sys2Proof.Machine

namespace Sys2Proof.Machine
open Sys2Proof

/-! ### What R212 decides for CMT.ENABLE -/

section Enabling

variable {c : Chip} {k : Nat}

theorem enableFails_of_switching (h : (nth c.dev.motors k {}).state = .switching) : c.enableFails k = [] := if_pos h

theorem enableBridge_of_on (h : (nth c.dev.motors k {}).state = .switching ∨ (nth c.dev.motors k {}).state = .aligning) : c.enableBridge k = c :=
  if_pos (h.elim .inl fun h => .inr (.inl h))

theorem enableFails_of_aligning (h : (nth c.dev.motors k {}).state = .aligning) (hf : c.bridgeFenced k = false) : c.enableFails k = [] := by
  simp [Chip.enableFails, h, hf]

theorem fenced_mem_enableFails (h : (nth c.dev.motors k {}).state ≠ .switching) (hf : c.bridgeFenced k = true) : stFenced ∈ c.enableFails k := by
  simp [Chip.enableFails, h, hf]

/-- An unfenced bridge that neither switches nor aligns, and is not tracked (R212). -/
theorem enableFails_of_untracked (hs : (nth c.dev.motors k {}).state ≠ .switching) (ha : (nth c.dev.motors k {}).state ≠ .aligning)
    (hf : c.bridgeFenced k = false) (ht : (nth c.dev.motors k {}).trackValid = false) : c.enableFails k = [stTransition] := by
  simp [Chip.enableFails, hs, ha, hf, ht]

/-- A tracked one whose speed lets it start (R212). -/
theorem enableFails_of_start (hs : (nth c.dev.motors k {}).state ≠ .switching) (ha : (nth c.dev.motors k {}).state ≠ .aligning)
    (hf : c.bridgeFenced k = false) (ht : (nth c.dev.motors k {}).trackValid = true) {p : StartPlan} (hp : c.speedPlan k = p)
    (hstart : ∀ st, p ≠ .fail st) : c.enableFails k = [] := by
  cases p with
  | fail st => exact absurd rfl (hstart st)
  | switch | align | catch_ => simp [Chip.enableFails, hs, ha, hf, ht, hp]

/-- A tracked one whose speed does not (R212). -/
theorem enableFails_of_fail (hs : (nth c.dev.motors k {}).state ≠ .switching) (ha : (nth c.dev.motors k {}).state ≠ .aligning)
    (hf : c.bridgeFenced k = false) (ht : (nth c.dev.motors k {}).trackValid = true) {st : Nat} (hp : c.speedPlan k = .fail st) :
    c.enableFails k = [st] := by
  simp [Chip.enableFails, hs, ha, hf, ht, hp]

theorem dist_zero (v : Int) : dist v 0 = (v.natAbs : Int) := by
  unfold dist
  omega

end Enabling

/-! ### The end of an alignment (R199, R200) -/

/-- What a reference for a channel sets in a bridge. -/
def Motor.withRef (c : Chip) (k ch rho : Nat) (m : Motor) : Motor :=
  let m := if c.parN Par.cmtAngleSrc k = ch then { m with referenced := true, rho := rho } else m
  if c.parN Par.cmtAngleSrc2 k = ch then { m with referenced2 := true, rho2 := rho } else m

/-- The reference that makes a channel's present position angle 0 (R200). -/
def alignRho (c : Chip) (k ch : Nat) (r : AngleReading) : Nat := unsignedOf 16 (-(c.angleRaw k ch 0 r))

/-- One channel of a bridge referenced at the end of its alignment. -/
def Motor.alignStep (c : Chip) (k : Nat) (m : Motor) (ch : Nat) : Motor :=
  match c.angleItem ch (c.firstSet k) with
  | some r => if c.takesRef ch then m.withRef c k ch (alignRho c k ch r) else m
  | none => m

/-- A fold of steps that each change one bridge, as one change of the bridge. -/
theorem foldl_modMotor {α : Type} (c : Chip) (k : Nat) (step : Chip → α → Chip) (mstep : Motor → α → Motor)
    (h : ∀ g x, step (c.modMotor k g) x = c.modMotor k (fun m => mstep (g m) x)) (xs : List α) :
    ∀ g, xs.foldl step (c.modMotor k g) = c.modMotor k (fun m => xs.foldl mstep (g m)) := by
  induction xs with
  | nil => exact fun _ => rfl
  | cons x xs ih => exact fun g => (congrArg (xs.foldl step) (h g x)).trans (ih _)

theorem modMotor_id (c : Chip) (k : Nat) : c.modMotor k (fun m => m) = c := by
  have : modNth c.dev.motors k (fun m => m) = c.dev.motors := List.modify_id k _
  simp only [Chip.modMotor, Chip.modDev, this]

theorem alignReference_eq (c : Chip) (k : Nat) : c.alignReference k = c.modMotor k (fun m => (c.angleChannels k).foldl (Motor.alignStep c k) m) := by
  unfold Chip.alignReference
  conv_lhs => rw [← modMotor_id c k]
  refine foldl_modMotor c k _ _ (fun g ch => ?_) _ _
  have hitem : (c.modMotor k g).angleItem ch ((c.modMotor k g).firstSet k) = c.angleItem ch (c.firstSet k) := rfl
  rw [hitem]
  unfold Motor.alignStep
  cases c.angleItem ch (c.firstSet k) with
  | none => rfl
  | some r =>
    have htakes : (c.modMotor k g).takesRef ch = c.takesRef ch := rfl
    simp only [htakes]
    split
    · rw [Chip.setRef, modMotor_modMotor]
      rfl
    · rfl

/-- A motor but for the references of its channels. -/
def Motor.unreferenced (m : Motor) (a : Motor) : Motor :=
  { m with referenced := a.referenced, referenced2 := a.referenced2, rho := a.rho, rho2 := a.rho2 }

theorem withRef_unreferenced (c : Chip) (k ch rho : Nat) (m a : Motor) : (m.withRef c k ch rho).unreferenced a = m.unreferenced a := by
  unfold Motor.withRef
  dsimp only
  split <;> split <;> rfl

theorem alignStep_unreferenced (c : Chip) (k : Nat) (m a : Motor) (ch : Nat) : (m.alignStep c k ch).unreferenced a = m.unreferenced a := by
  unfold Motor.alignStep
  split
  · split
    · exact withRef_unreferenced ..
    · rfl
  · rfl

theorem alignFold_unreferenced (c : Chip) (k : Nat) (a : Motor) (chs : List Nat) : ∀ m : Motor,
    (chs.foldl (Motor.alignStep c k) m).unreferenced a = m.unreferenced a := by
  induction chs with
  | nil => exact fun _ => rfl
  | cons ch chs ih => exact fun m => (ih _).trans (alignStep_unreferenced ..)

/-- The bridge has the given reference for a channel, in whichever place the channel has among its sources. -/
def RefersTo (c : Chip) (k ch rho : Nat) (m : Motor) : Prop :=
  (c.parN Par.cmtAngleSrc k = ch → m.referenced = true ∧ m.rho = rho) ∧ (c.parN Par.cmtAngleSrc2 k = ch → m.referenced2 = true ∧ m.rho2 = rho)

theorem refersTo_withRef (c : Chip) (k ch rho : Nat) (m : Motor) : RefersTo c k ch rho (m.withRef c k ch rho) := by
  unfold Motor.withRef
  constructor <;> intro h <;> rw [h] <;> simp only [if_true]
  · split <;> exact ⟨rfl, rfl⟩
  · exact ⟨trivial, trivial⟩

theorem refersTo_alignStep {c : Chip} {k j : Nat} {r : AngleReading} (hitem : c.angleItem j (c.firstSet k) = some r) {m : Motor}
    (h : RefersTo c k j (alignRho c k j r) m) (ch : Nat) : RefersTo c k j (alignRho c k j r) (m.alignStep c k ch) := by
  by_cases hch : ch = j
  · subst hch
    unfold Motor.alignStep
    rw [hitem]
    dsimp only
    split
    · exact refersTo_withRef ..
    · exact h
  · obtain ⟨h1, h2⟩ := h
    unfold Motor.alignStep Motor.withRef
    split
    · split
      · constructor <;> intro hsrc <;> dsimp only <;> rw [hsrc, if_neg (Ne.symm hch)] <;> split <;> simp_all
      · exact ⟨h1, h2⟩
    · exact ⟨h1, h2⟩

/-- Every referenced source of the bridge has the reference of its present reading after the alignment (R199, R200). -/
theorem refersTo_alignFold {c : Chip} {k j : Nat} {r : AngleReading} (hitem : c.angleItem j (c.firstSet k) = some r) (ht : c.takesRef j = true)
    (chs : List Nat) : ∀ m, (j ∈ chs ∨ RefersTo c k j (alignRho c k j r) m) →
      RefersTo c k j (alignRho c k j r) (chs.foldl (Motor.alignStep c k) m) := by
  induction chs with
  | nil => exact fun m h => h.resolve_left (by simp)
  | cons ch chs ih =>
    intro m h
    refine ih _ ?_
    rcases h with h | h
    · rcases List.mem_cons.1 h with rfl | h
      · right
        rw [Motor.alignStep, hitem]
        simp only [ht, if_true]
        exact refersTo_withRef ..
      · exact .inl h
    · exact .inr (refersTo_alignStep hitem h ch)

/-- The reference that a channel with such a source has (R199). -/
theorem refOf_of_refersTo {c : Chip} {k j rho : Nat} (ht : c.takesRef j = true)
    (hsrc : c.parN Par.cmtAngleSrc k = j ∨ c.parN Par.cmtAngleSrc2 k = j) (h : RefersTo c k j rho (nth c.dev.motors k {})) :
    c.refOf k j = some rho := by
  obtain ⟨h1, h2⟩ := h
  simp only [Chip.takesRef, Bool.and_eq_true, decide_eq_true_eq] at ht
  obtain ⟨hmode, hcount⟩ := ht
  have heq : c.refOf k j = if c.parN Par.cmtAngleSrc k = j then (if (nth c.dev.motors k {}).referenced then some (nth c.dev.motors k {}).rho else none)
      else if (nth c.dev.motors k {}).referenced2 then some (nth c.dev.motors k {}).rho2 else none := by
    unfold Chip.refOf
    rcases hmode with hmode | hmode <;> simp only [hmode, hcount, if_false]
  rw [heq]
  by_cases hfirst : c.parN Par.cmtAngleSrc k = j
  · rw [if_pos hfirst, (h1 hfirst).1, (h1 hfirst).2]
    rfl
  · have hsecond := hsrc.resolve_left hfirst
    rw [if_neg hfirst, (h2 hsecond).1, (h2 hsecond).2]
    rfl

theorem mem_angleChannels {c : Chip} {k j : Nat} (h : j ∈ c.angleChannels k) : c.parN Par.cmtAngleSrc k = j ∨ c.parN Par.cmtAngleSrc2 k = j := by
  simp only [Chip.angleChannels, List.mem_filter, List.mem_cons, List.not_mem_nil, or_false] at h
  exact h.1.imp Eq.symm Eq.symm

/-- A bridge whose motor the device has. -/
theorem nth_modMotor {c : Chip} {k : Nat} (f : Motor → Motor) (h : nth c.dev.motors k {} ≠ {}) :
    nth (c.modMotor k f).dev.motors k {} = f (nth c.dev.motors k {}) := by
  refine nth_modNth_same _ _ _ _ (Nat.lt_of_not_le fun hle => h ?_)
  rw [nth, List.getD_eq_default]
  exact hle

/-- The rotor has moved too far to align, or cannot be seen to stand (R200). -/
def Chip.alignMoved (c : Chip) (k ch : Nat) : Bool := match c.angleItem ch (c.firstSet k), (nth c.dev.motors k {}).alignPos with
  | some r, some p => decide (fbCpr c.dev.cfg.ws ch ≤ dist (diff32 r.cont p) 0 * 64 * c.par Par.cmtPolePairs k)
  | _, _ => true

theorem alignPasses_of_head {c : Chip} {k ch : Nat} (h : (c.angleChannels k).head? = some ch) : c.alignPasses k = !c.alignMoved k ch := by
  unfold Chip.alignPasses Chip.alignMoved
  cases hp : (nth c.dev.motors k {}).alignPos with
  | none => cases hi : c.angleItem ch (c.firstSet k) <;> simp only [h] <;> rfl
  | some p =>
    cases hi : c.angleItem ch (c.firstSet k) with
    | none => simp only [h, hi]; rfl
    | some r =>
      simp only [h, hi]
      exact (decide_eq_decide.2 Int.not_le.symm).trans decide_not

theorem alignPasses_eq_false {c : Chip} {k : Nat} (h : ∀ ch, (c.angleChannels k).head? = some ch → c.alignMoved k ch = true) :
    c.alignPasses k = false := by
  cases hhead : (c.angleChannels k).head? with
  | none => rw [Chip.alignPasses, hhead]
  | some ch => rw [alignPasses_of_head hhead, h ch hhead]; rfl

theorem plain_modMotor {s : State} {c : Chip} (k : Nat) (f : Motor → Motor) (h : c.plain = s.chip.plain) :
    ({ s with chip := c.modMotor k f } : State).plain = (s.onChip (fun c => c.modMotor k f)).plain :=
  plain_modDev (s := s) (t := { s with chip := c }) (alike_of_plain (congrArg (fun x => ({ s with chip := x } : State)) h)) _ fun _ _ => rfl

/-- Settles O36: the end of an alignment by its three outcomes, and R212 by its rows. -/
theorem alignmentsAndEnabling : Obligations.AlignmentsAndEnabling := by
  constructor
  · intro s k m l u ends moved
    have hmoved : moved = s.chip.alignMoved k.val := rfl
    refine ⟨fun hstate => ?other, fun hstate => ⟨fun ch hch hstill => ?passes, fun hall => ?fails⟩⟩
    case other => exact next_congr (congrArg (fun c => ({ s with chip := c } : State)) (if_pos hstate))
    case passes =>
      have hpass : s.chip.alignPasses k.val = true := by rw [alignPasses_of_head hch, ← hmoved, hstill]; rfl
      have hunit : m ≠ {} := by
        intro h
        rw [h] at hstate
        cases hstate
      have hpass' : alignmentDone k s.chip = s.chip.modMotor k.val (fun m => { (s.chip.angleChannels k.val).foldl (Motor.alignStep s.chip k.val) m with
          state := .switching, alignTry := 0, alignPos := none, alignFor := 0 }) := by
        refine (if_neg (not_not.2 hstate)).trans ((if_pos hpass).trans ?_)
        rw [alignReference_eq, modMotor_modMotor]
      refine ⟨_, { (s.chip.angleChannels k.val).foldl (Motor.alignStep s.chip k.val) m with
          state := .switching, alignTry := 0, alignPos := none, alignFor := 0 },
        next_congr (congrArg (fun c => ({ s with chip := c } : State)) (hpass'.trans (modMotor_congr _ _ _ (fun _ => _) rfl))), rfl, rfl, ?_,
        fun j r hj ht hitem => ?_⟩
      · exact congrArg (fun x : Motor => ({ x with state := .switching, alignTry := 0, alignPos := none, alignFor := 0 } : Motor))
          (alignFold_unreferenced s.chip k.val m (s.chip.angleChannels k.val) m)
      · have hrefers := refersTo_alignFold hitem ht (s.chip.angleChannels k.val) m (.inl hj)
        refine refOf_of_refersTo (c := s.chip.modMotor k.val (fun _ => { (s.chip.angleChannels k.val).foldl (Motor.alignStep s.chip k.val) m with
          state := .switching, alignTry := 0, alignPos := none, alignFor := 0 })) ht (mem_angleChannels hj) ?_
        rw [nth_modMotor _ hunit]
        exact hrefers
    case fails =>
      have hpass : s.chip.alignPasses k.val = false := alignPasses_eq_false hall
      have hgo : alignmentDone k s.chip = if m.alignTry ≤ 1 then (s.chip.agreedFault 0x100A u.1 u.2.1 u.2.2).modMotor k (fun m =>
            { m with alignTry := 2, alignPos := none, alignFor := 0 })
          else (s.chip.agreedFault 0x100B u.1 u.2.1 u.2.2).modMotor k (fun m => { m with
            state := .tracking, enabled := false, alignTry := 0, alignPos := none, alignFor := 0, trackFor := 0, trackValid := false }) :=
        (if_neg (not_not.2 hstate)).trans (if_neg (by rw [hpass]; decide))
      have hexec : exec (.alignmentDone k) s = .next (s.onChip (alignmentDone k)) := rfl
      refine ⟨_, hexec, fun htry => ?_, fun htry => ?_⟩
      · rw [if_pos htry] at hgo
        exact ⟨(congrArg (fun c => ({ s with chip := c } : State).plain) hgo).trans (plain_modMotor k.val _ (agreedFault_plain ..)),
          congrArg (fun c => ({ s with chip := c } : State)) hgo⟩
      · rw [if_neg (Nat.not_le.2 htry)] at hgo
        exact ⟨(congrArg (fun c => ({ s with chip := c } : State).plain) hgo).trans (plain_modMotor k.val _ (agreedFault_plain ..)),
          congrArg (fun c => ({ s with chip := c } : State)) hgo⟩
  · intro s k m fails
    refine ⟨fun h => ⟨enableFails_of_switching h, enableBridge_of_on (.inl h)⟩, fun h hf => ⟨enableFails_of_aligning h hf, enableBridge_of_on (.inr h)⟩,
      fenced_mem_enableFails, fun hs ha hf => ⟨enableFails_of_untracked hs ha hf, fun ht => ⟨fun hslow => ?slow, fun hfast => ?fast⟩⟩⟩
    case slow =>
      have hplan : s.chip.speedPlan k = if s.chip.referenced k then .switch else if s.chip.par Par.cmtAngleInit k = 1 then .align else .fail stDenied :=
        if_pos (by rw [dist_zero]; exact hslow)
      refine ⟨fun href => ?_, fun href hinit => ?_, fun href hinit => ?_⟩
      · rw [if_pos href] at hplan
        exact ⟨enableFails_of_start hs ha hf ht hplan (by simp), hplan⟩
      · rw [if_neg (by simp [href]), if_pos hinit] at hplan
        exact ⟨enableFails_of_start hs ha hf ht hplan (by simp), hplan⟩
      · rw [if_neg (by simp [href]), if_neg hinit] at hplan
        exact enableFails_of_fail hs ha hf ht hplan
    case fast =>
      have hplan : s.chip.speedPlan k = if 0 ≤ m.speed then (if m.speed ≤ 10 * s.chip.par Par.cmtCatchFwdMax k then .catch_ else .fail stRange)
          else if -m.speed ≤ 10 * s.chip.par Par.cmtCatchRevMax k then .catch_ else .fail stReverse :=
        if_neg (by rw [dist_zero]; exact Int.not_lt.2 hfast)
      refine ⟨fun hdir hlim => ?_, fun hdir hlim => ?_, fun hdir hlim => ?_, fun hdir hlim => ?_⟩
      · rw [if_pos hdir, if_pos hlim] at hplan
        exact ⟨enableFails_of_start hs ha hf ht hplan (by simp), hplan⟩
      · rw [if_pos hdir, if_neg (Int.not_le.2 hlim)] at hplan
        exact enableFails_of_fail hs ha hf ht hplan
      · rw [if_neg (Int.not_le.2 hdir), if_pos hlim] at hplan
        exact ⟨enableFails_of_start hs ha hf ht hplan (by simp), hplan⟩
      · rw [if_neg (Int.not_le.2 hdir), if_neg (Int.not_le.2 hlim)] at hplan
        exact enableFails_of_fail hs ha hf ht hplan

end Sys2Proof.Machine

namespace Sys2Proof.Machine
open Sys2Proof

/-! ### Changes of one bridge -/

/-- The second chip differs from the first in one bridge's motor alone. -/
def MotorOnly (k : Nat) (c d : Chip) : Prop := ∃ f : Motor → Motor, d = c.modMotor k f

theorem MotorOnly.refl (k : Nat) (c : Chip) : MotorOnly k c c := ⟨_, (modMotor_id c k).symm⟩

theorem motorOnly_mod (c : Chip) (k : Nat) (f : Motor → Motor) : MotorOnly k c (c.modMotor k f) := ⟨f, rfl⟩

theorem MotorOnly.trans {k : Nat} {c d e : Chip} (h : MotorOnly k c d) (h' : MotorOnly k d e) : MotorOnly k c e := by
  obtain ⟨f, rfl⟩ := h
  obtain ⟨g, rfl⟩ := h'
  exact ⟨_, modMotor_modMotor c k f g⟩

theorem motorOnly_foldl {α : Type} (k : Nat) (f : Chip → α → Chip) (h : ∀ c x, MotorOnly k c (f c x)) (xs : List α) :
    ∀ c : Chip, MotorOnly k c (xs.foldl f c) := by
  induction xs with
  | nil => exact .refl k
  | cons x xs ih => exact fun c => (h c x).trans (ih (f c x))

/-! ### Starts of a bridge (R212, R213, R243) -/

/-- A bridge as its start leaves it. -/
def Motor.started (m : Motor) (state : CmtState) (catching : Bool) : Motor :=
  { m with enabled := true, disabling := false, state := state, catching := catching, catchWait := false, torque := 0
           alignTry := if state = .aligning then 1 else 0, alignPos := none, alignFor := 0 }

theorem startBridge_eq (c : Chip) (k : Nat) (state : CmtState) (catching emfRef : Bool) :
    ∃ f : Motor → Motor, c.startBridge k state catching emfRef = c.modMotor k (fun m => (f m).started state catching) := by
  obtain ⟨f, hf⟩ := motorOnly_foldl k (fun c l => c.modSet k l (fun w => { w with
    lossCase := 0, tries := 0, since := 0, deviations := 0, carry := false, catching := false, emfRef := emfRef, source := c.chooseSource k l }))
    (fun c l => motorOnly_mod ..) (setLanes c.dev.cfg.ws k) c
  exact ⟨f, (congrArg (fun d : Chip => d.modMotor k _) hf).trans (modMotor_modMotor ..)⟩

theorem emfReference_motor (c : Chip) (k : Nat) (l : LaneId) (emf : Option Nat) (sign : Int) : MotorOnly k c (c.emfReference k l emf sign) := by
  unfold Chip.emfReference
  split
  · exact .refl k c
  · exact motorOnly_foldl k _ (fun c e => motorOnly_mod ..) _ c

theorem foldl_keeps {α β : Type} (p : Chip → β) (f : Chip → α → Chip) (h : ∀ c x, p (f c x) = p c) (xs : List α) :
    ∀ c : Chip, p (xs.foldl f c) = p c := by
  induction xs with
  | nil => exact fun _ => rfl
  | cons x xs ih => exact fun c => (ih (f c x)).trans (h c x)

theorem modTarget_dev (c : Chip) (l : LaneId) (t : Nat) (f : Target → Target) : (c.modTarget l t f).dev = c.dev := by
  unfold Chip.modTarget
  split <;> rfl

theorem modTarget_bridges (c : Chip) (l : LaneId) (t : Nat) (f : Target → Target) : (c.modTarget l t f).bridges = c.bridges := by
  unfold Chip.modTarget
  split <;> rfl

/-- Tests that are deferred change no motor and no bridge. -/
theorem deferTests_motors (c : Chip) (k : Nat) : (c.deferTests k).dev.motors = c.dev.motors := by
  unfold Chip.deferTests
  refine foldl_keeps (fun c => c.dev.motors) _ (fun c l => ?_) _ c
  dsimp only
  split
  · exact ((agreedFault_only ..).noted.field Dev.motors fun _ _ _ => rfl).trans (congrArg Dev.motors (modTarget_dev ..))
  · rfl

theorem deferTests_bridges (c : Chip) (k : Nat) : (c.deferTests k).bridges = c.bridges := by
  unfold Chip.deferTests
  refine foldl_keeps Chip.bridges _ (fun c l => ?_) _ c
  dsimp only
  split
  · exact (agreedFault_only ..).bridges.trans (modTarget_bridges ..)
  · rfl

theorem deferTests_of_manual {c : Chip} {k : Nat} (h : c.ostAuto k = false) : c.deferTests k = c :=
  List.foldl_fixed' (fun l => if_neg (by simp [h])) _

/-- A catch starts the bridge, and then the tests that it comes before are noted (R213, R243). -/
theorem catchBridge_eq (c : Chip) (k : Nat) : ∃ f : Motor → Motor,
    c.catchBridge k = (c.modMotor k (fun m => (f m).started .switching true)).deferTests k := by
  obtain ⟨f, hf⟩ := emfReference_motor c k (c.firstSet k) (nth c.dev.motors k {}).emfAngle (nth c.dev.motors k {}).trackSign
  unfold Chip.catchBridge
  dsimp only
  rw [hf]
  obtain ⟨g, hg⟩ := startBridge_eq (c.modMotor k f) k .switching true
    (decide (c.refChannels k (c.firstSet k) ≠ []) && (nth c.dev.motors k {}).emfAngle.isSome)
  rw [hg, modMotor_modMotor]
  exact ⟨fun m => g (f m), rfl⟩

/-- A bridge that may start: what R212 decided, with the state it starts in. -/
theorem enableBridge_of_start {c : Chip} {k : Nat} (hs : (nth c.dev.motors k {}).state ≠ .switching) (ha : (nth c.dev.motors k {}).state ≠ .aligning)
    (hfails : c.enableFails k = []) : ∃ (f : Motor → Motor) (st : CmtState) (catching : Bool),
      ((c.speedPlan k = .switch ∧ st = .switching ∧ catching = false ∨ c.speedPlan k = .align ∧ st = .aligning ∧ catching = false) ∧
        c.enableBridge k = c.modMotor k (fun m => (f m).started st catching)) ∨
      (c.speedPlan k = .catch_ ∧ st = .switching ∧ catching = true ∧
        c.enableBridge k = (c.modMotor k (fun m => (f m).started st catching)).deferTests k) := by
  have hgo : c.enableBridge k = c.runPlan k (c.speedPlan k) := if_neg (by simp [hs, ha, hfails])
  rw [hgo]
  cases hplan : c.speedPlan k with
  | fail st =>
    exfalso
    simp only [Chip.enableFails, hs, ha, if_false, hplan, List.append_eq_nil_iff] at hfails
    by_cases ht : (nth c.dev.motors k {}).trackValid <;> simp [ht] at hfails
  | switch =>
    obtain ⟨f, hf⟩ := startBridge_eq c k .switching false false
    exact ⟨f, .switching, false, .inl ⟨.inl ⟨rfl, rfl, rfl⟩, hf⟩⟩
  | align =>
    obtain ⟨f, hf⟩ := startBridge_eq c k .aligning false false
    exact ⟨f, .aligning, false, .inl ⟨.inr ⟨rfl, rfl, rfl⟩, hf⟩⟩
  | catch_ =>
    obtain ⟨f, hf⟩ := catchBridge_eq c k
    exact ⟨f, .switching, true, .inr ⟨rfl, rfl, rfl, hf⟩⟩

/-! ### CMT operations -/

section Alike

variable {s g : State} (h : Alike s g)
include h

theorem motors_alike : g.chip.dev.motors = s.chip.dev.motors := h.field Dev.motors fun _ _ => rfl
theorem bridgeFenced_alike (k : Nat) : g.chip.bridgeFenced k = s.chip.bridgeFenced k := h.reads (fun c => c.bridgeFenced k) fun _ _ _ => rfl
theorem speedPlan_alike (k : Nat) : g.chip.speedPlan k = s.chip.speedPlan k := h.reads (fun c => c.speedPlan k) fun _ _ _ => rfl
theorem enableFails_alike (k : Nat) : g.chip.enableFails k = s.chip.enableFails k := h.reads (fun c => c.enableFails k) fun _ _ _ => rfl
theorem cmtBridge_alike (p : List Byte) : g.chip.cmtBridge p = s.chip.cmtBridge p := h.reads (fun c => c.cmtBridge p) fun _ _ _ => rfl

end Alike

/-- An untimed CMT.DISABLE: the launches and a waiting catch go, with records and a reply, and then the bridge is disabled (R219, R356). -/
theorem effectCmtDisable_now {r : Req} (h : r.isTimed = false) (g : State) : ∃ c : Chip,
    Noted (g.chip.modDev (fun d => { d with launches := d.launches.filter (fun x => x.out != fld r.body 0 1) })) c ∧
    effectCmtDisable r g = { st := { g with chip := c.modMotor (fld r.body 0 1) (fun m => { m with
      enabled := false, torque := 0, catchWait := false, disabling := decide (m.state = .switching),
      state := if m.state = .switching then .switching else if bridgeUsed c.dev.cfg.ws (fld r.body 0 1) then .tracking else .disabled }) } } := by
  refine ⟨_, (discardLaunches_noted g.chip (fld r.body 0 1)).trans (noted_finishAll _ (fun p => decide (p.opcode = 0x1013 ∧ p.arg = fld r.body 0 1)) stDenied []), ?_⟩
  simp only [effectCmtDisable, h, Bool.false_eq_true, if_false]
  rfl

/-- Settles O37: each operation passes its checks and changes its bridge, or its queue. -/
theorem bridgeOperations : Obligations.BridgeOperations := by
  intro s r k hk hbody hk4 hused m only queued
  have hbridge : s.chip.cmtBridge r.body = true := by simp [Chip.cmtBridge, ← hk, hk4, hused]
  have hqueued {i : Instr} {y : Launch} (h : ∃ t, exec i s = .next t ∧ t.mem = s.mem ∧
      t.plain = (s.onChip (fun c => c.modDev (fun d => { d with launches := d.launches ++ [y] }))).plain) : ∃ t, exec i s = .next t ∧ queued t := by
    obtain ⟨t, hexec, hmem, hplain⟩ := h
    have hlaunches : t.chip.dev.launches = s.chip.dev.launches ++ [y] := dev_of_plain hplain Dev.launches fun _ _ => rfl
    refine ⟨t, hexec, dev_of_plain hplain Dev.motors fun _ _ => rfl, by rw [hlaunches, List.length_append, List.length_singleton], ?_⟩
    rw [hlaunches]
    exact hplain
  refine ⟨fun hadm hzero => ?enable, fun hadm hzero => ?disable, fun hadm hz1 hz8 hfree hon hcatch hwait hdis hsrc => ?torque,
    fun hadm hzero hfree hoff halign hwait hen => ?catchStart⟩
  case enable =>
    have hchecks : s.chip.enableFails k = [] → (r.isTimed = true → ∀ o ∈ [k], s.chip.launchFull o = false) → ∀ g, Alike s g →
        checksCmtEnable r g.chip = [] := by
      intro hfails hroom g halike
      rw [checksCmtEnable, ← hk, if_neg (by simp [hbody, hzero, cmtBridge_alike halike, hbridge]), enableFails_alike halike, hfails,
        queueFails_of_room halike hroom]
      rfl
    have heffect (huntimed : r.isTimed = false) (g : State) : effectCmtEnable r g = OpOut.chip g (fun c => c.enableBridge k) := by
      simp only [effectCmtEnable, huntimed, Bool.false_eq_true, if_false, ← hk]
    refine ⟨fun hstate huntimed => ?on, fun hs ha huntimed hfails => ?start, fun htimed hfails hfull => hqueued (exec_modDev (i := .cmtEnable r) rfl hadm
      (fun d => { d with launches := d.launches ++ [gridLaunch s.chip k 1 r.launchTime (List.replicate 12 0) r.session] }) (fun _ _ => rfl)
      (hchecks hfails (by simp [hfull])) fun g halike => ?_)⟩
    case on =>
      have hfails : s.chip.enableFails k = [] := by
        rcases hstate with h | ⟨h, hf⟩
        · exact enableFails_of_switching h
        · exact enableFails_of_aligning h hf
      obtain ⟨g, halike, -, hexec⟩ := exec_of_admits (i := .cmtEnable r) rfl hadm
      have heffect' : effectCmtEnable r g = { st := g } := by
        rw [heffect huntimed, OpOut.chip, State.onChip, enableBridge_of_on]
        rw [motors_alike halike]
        exact hstate.imp id And.left
      refine ⟨_, (hexec (hchecks hfails (by simp [huntimed]) g halike)).trans (next_congr (congrArg (fun o : OpOut => o.finish attrCmtEnable r) heffect')),
        (finish_mem ..).trans halike.mem, (finish_plain ..).trans halike.plain⟩
    case start =>
      obtain ⟨g, halike, -, hexec⟩ := exec_of_admits (i := .cmtEnable r) rfl hadm
      have hmotors := motors_alike halike
      obtain ⟨f, st, catching, hstart⟩ := enableBridge_of_start (c := g.chip) (k := k) (by rwa [hmotors]) (by rwa [hmotors])
        (by rwa [enableFails_alike halike])
      rw [speedPlan_alike halike] at hstart
      have hfinish := alike_finish attrCmtEnable r (OpOut.chip g (fun c => c.enableBridge k))
      have hnew : (g.chip.enableBridge k).dev.motors = modNth s.chip.dev.motors k (fun _ => (f m).started st catching) := by
        rw [← hmotors, modNth_congr g.chip.dev.motors k (fun _ => (f m).started st catching) (fun m => (f m).started st catching) {} (by rw [hmotors])]
        rcases hstart with ⟨-, h⟩ | ⟨-, -, -, h⟩
        · rw [h]; rfl
        · rw [h, deferTests_motors]; rfl
      have hbridges : (g.chip.enableBridge k).bridges = s.chip.bridges := by
        rw [← halike.bridges]
        rcases hstart with ⟨-, h⟩ | ⟨-, -, -, h⟩
        · rw [h]; rfl
        · rw [h, deferTests_bridges]; rfl
      have hfinal := (hfinish.field Dev.motors fun _ _ => rfl).trans hnew
      refine ⟨_, (f m).started st catching, (hexec (hchecks hfails (by simp [huntimed]) g halike)).trans (next_congr (congrArg
        (fun o : OpOut => o.finish attrCmtEnable r) (heffect huntimed g))), fun hquiet => ⟨(finish_mem ..).trans halike.mem, ?_⟩, (finish_mem ..).trans halike.mem,
        hfinish.bridges.trans hbridges, hfinal, rfl, rfl, rfl, fun h => ?_, fun h => ?_, fun h => ?_⟩
      · have hone : g.chip.enableBridge k = g.chip.modMotor k (fun m => (f m).started st catching) := by
          rcases hstart with ⟨-, h⟩ | ⟨hcatch, -, -, h⟩
          · exact h
          · have hauto : s.chip.ostAuto k = false := hquiet.resolve_left (not_not.2 hcatch)
            have hauto' : (g.chip.modMotor k (fun m => (f m).started st catching)).ostAuto k = false := by
              rw [← hauto]
              exact halike.reads (fun c => c.ostAuto k) fun _ _ _ => rfl
            rw [h, deferTests_of_manual hauto']
        rw [hfinal]
        have hst : (OpOut.chip g (fun c => c.enableBridge k)).st = g.onChip (fun c => c.modDev (fun d => { d with
            motors := modNth s.chip.dev.motors k (fun _ => (f m).started st catching) })) := by
          rw [← hnew, OpOut.chip, State.onChip, hone]
          rfl
        exact hfinish.plain.trans ((congrArg State.plain hst).trans (plain_modDev halike _ fun _ _ => rfl))
      · rcases hstart with ⟨⟨-, hst⟩ | ⟨h', -⟩, -⟩ | ⟨h', -⟩
        · exact hst
        · cases h.symm.trans h'
        · cases h.symm.trans h'
      · rcases hstart with ⟨⟨h', -⟩ | ⟨-, hst, -⟩, -⟩ | ⟨h', -⟩
        · cases h.symm.trans h'
        · exact ⟨hst, if_pos hst⟩
        · cases h.symm.trans h'
      · rcases hstart with ⟨⟨h', -⟩ | ⟨h', -⟩, -⟩ | ⟨-, hst, hca, -⟩
        · cases h.symm.trans h'
        · cases h.symm.trans h'
        · exact ⟨hst, hca⟩
    · show effectCmtEnable r g = _
      simp only [effectCmtEnable, htimed, if_true, OpOut.chip, State.onChip, ← hk, addLaunch_alike halike]
  case disable =>
    have hchecks : (r.isTimed = true → ∀ o ∈ [k], s.chip.launchFull o = false) → ∀ g, Alike s g → checksCmtDisable r g.chip = [] := by
      intro hroom g halike
      rw [checksCmtDisable, ← hk, if_neg (by simp [hbody, hzero, cmtBridge_alike halike, hbridge]), queueFails_of_room halike hroom]
    refine ⟨fun huntimed => ?_, fun htimed hfull => hqueued (exec_modDev (i := .cmtDisable r) rfl hadm (fun d =>
      { d with launches := d.launches ++ [gridLaunch s.chip k 2 r.launchTime (List.replicate 12 0) r.session] }) (fun _ _ => rfl)
      (hchecks (by simp [hfull])) fun g halike => ?_)⟩
    · obtain ⟨g, halike, -, hexec⟩ := exec_of_admits (i := .cmtDisable r) rfl hadm
      obtain ⟨c, hnoted, heffect⟩ := effectCmtDisable_now huntimed g
      rw [← hk] at hnoted heffect
      have hlaunches : c.dev.launches = g.chip.dev.launches.filter (fun x => x.out != k) := hnoted.field Dev.launches fun _ _ _ => rfl
      have hcfg : c.dev.cfg = s.chip.dev.cfg := (hnoted.field Dev.cfg fun _ _ _ => rfl).trans halike.cfg
      have hmotors : c.dev.motors = s.chip.dev.motors := (hnoted.field Dev.motors fun _ _ _ => rfl).trans (motors_alike halike)
      have hfinish := alike_finish attrCmtDisable r (effectCmtDisable r g)
      rw [heffect] at hfinish
      refine ⟨_, (hexec (hchecks (by simp [huntimed]) g halike)).trans (next_congr (congrArg (fun o : OpOut => o.finish attrCmtDisable r) heffect)),
        (finish_mem ..).trans halike.mem, ?_, (hfinish.field Dev.motors fun _ _ => rfl).trans ?_⟩
      · rw [hfinish.dev]
        show ∀ x ∈ c.dev.launches, _
        rw [hlaunches]
        simp
      · rw [hcfg, modMotor_dev, hmotors]
        simp only [hused, if_true]
    · show effectCmtDisable r g = _
      simp only [effectCmtDisable, htimed, if_true, OpOut.chip, State.onChip, ← hk, addLaunch_alike halike]
  case torque =>
    have hchecks : (r.isTimed = true → ∀ o ∈ [k], s.chip.launchFull o = false) → ∀ g, Alike s g → checksTorqueSet r g.chip = [] := by
      intro hroom g halike
      rw [checksTorqueSet, ← hk, if_neg (by simp [hbody, hz1, hz8, cmtBridge_alike halike, hbridge])]
      simp only [bridgeFenced_alike halike, motors_alike halike, halike.parN, hfree, Bool.false_eq_true, if_false]
      rw [queueFails_of_room halike hroom, if_neg (by simp only [m] at hon hcatch hwait; simp [hon, hcatch, hwait]),
        if_neg (by rintro (h | h); exacts [Nat.not_le.2 h hsrc, h hon])]
      rfl
    refine ⟨fun huntimed => ?_, fun htimed hfull => hqueued (exec_modDev (i := .torqueSet r) rfl hadm (fun d =>
      { d with launches := d.launches ++ [gridLaunch s.chip k 3 r.launchTime (bytesAt r.body 4 4 ++ List.replicate 8 0) r.session] }) (fun _ _ => rfl)
      (hchecks (by simp [hfull])) fun g halike => ?_)⟩
    · have heffect : ∀ g, effectTorqueSet r g = OpOut.chip g (fun c => c.modDev (fun d => { d with
          motors := modNth d.motors k (fun m => { m with torque := sfld r.body 4 4, cmdBy := r.session }) })) := fun g => by
        simp only [effectTorqueSet, huntimed, Bool.false_eq_true, if_false, ← hk]
        rfl
      obtain ⟨t, hexec, hmem, hplain⟩ := exec_modDev (i := .torqueSet r) rfl hadm _ (fun _ _ => rfl) (hchecks (by simp [huntimed])) fun g _ => heffect g
      have hdev : t.chip.dev.motors = _ := dev_of_plain hplain Dev.motors fun _ _ => rfl
      refine ⟨t, hexec, ⟨hmem, ?_⟩, hdev⟩
      rw [hdev]
      exact hplain
    · show effectTorqueSet r g = _
      simp only [effectTorqueSet, htimed, if_true, OpOut.chip, State.onChip, ← hk, addLaunch_alike halike]
  case catchStart =>
    obtain ⟨g, halike, -, hexec⟩ := exec_of_admits (i := .catchStart r) rfl hadm
    have hchecks : checksCatchStart r g.chip = [] := by
      rw [checksCatchStart, ← hk, if_neg (by simp [hbody, hzero, cmtBridge_alike halike, hbridge])]
      simp only [bridgeFenced_alike halike, motors_alike halike, hfree, Bool.false_eq_true, if_false]
      rw [if_neg (by simp only [m] at hoff halign hwait; simp [hoff, halign, hwait]), if_pos hen]
      rfl
    have hfinish := alike_finish attrCatchStart r (effectCatchStart r g)
    have hnoted := noted_addPend (g.chip.modMotor k (fun m => { m with catchWait := true })) 0x1013 r { arg := k }
    have heffect : (effectCatchStart r g).st.chip = (g.chip.modMotor k (fun m => { m with catchWait := true })).addPend 0x1013 r { arg := k } := by
      rw [effectCatchStart, ← hk]
      rfl
    refine ⟨_, hexec hchecks, (finish_mem ..).trans halike.mem, (hfinish.field Dev.motors fun _ _ => rfl).trans ?_,
      (hfinish.field (fun d => d.pend.length) fun _ _ => rfl).trans ?_, tri_ext fun l => ?_⟩
    · rw [heffect]
      refine (hnoted.field Dev.motors fun _ _ _ => rfl).trans ?_
      rw [modMotor_dev, motors_alike halike]
    · rw [heffect, addPend_pend, List.length_append, List.length_singleton]
      exact halike.field (fun d => d.pend.length + 1) fun _ _ => rfl
    · rw [tri_get_map, tri_get_map, hfinish.lanes l, heffect, hnoted.lanes l, modMotor_lanes, halike.lanes l]
      rfl

end Sys2Proof.Machine

namespace Sys2Proof.Machine
open Sys2Proof

/-! ### Sessions past the gates (R370, R384) -/

/-- A session with the marks and counts that reception changes of another. -/
def Session.withReception (x a : Session) : Session :=
  { x with frozen := a.frozen, rxSeq := a.rxSeq, stale := a.stale, gaps := a.gaps, violations := a.violations, lastFresh := a.lastFresh
           violatedNow := a.violatedNow, freshNow := a.freshNow, echoStamp := a.echoStamp }

/-- Every session of the second chip is that of the first, but for what reception changes. -/
def SessionsReceived (c d : Chip) : Prop := ∀ n, d.session n = (c.session n).withReception (d.session n)

theorem SessionsReceived.trans {c d e : Chip} (h : SessionsReceived c d) (k : SessionsReceived d e) : SessionsReceived c e := fun n => by
  rw [k n, h n]
  rfl

theorem sessionsReceived_of_eq {c d : Chip} (h : d.dev.sessions = c.dev.sessions) : SessionsReceived c d := fun n => by
  rw [Chip.session, h]
  rfl

theorem nth_modNth_cases {α : Type} (xs : List α) (k j : Nat) (f : α → α) (d : α) :
    nth (modNth xs k f) j d = nth xs j d ∨ j = k ∧ nth (modNth xs k f) j d = f (nth xs j d) := by
  by_cases hj : j = k
  · subst hj
    by_cases h : j < xs.length
    · exact .inr ⟨rfl, nth_modNth_same xs j f d h⟩
    · have hxs : modNth xs j f = xs := by
        rw [modNth, List.modify_eq_self (not_lt.1 h)]
      exact .inl (by rw [hxs])
  · exact .inl (nth_modNth_ne xs k j f d hj)

theorem session_modSession (c : Chip) (n j : Nat) (f : Session → Session) :
    (c.modSession n f).session j = c.session j ∨ j = n ∧ (c.modSession n f).session j = f (c.session j) := by
  simp only [Chip.session, modSession_dev]
  by_cases hj : j = 0
  · simp [hj]
  by_cases hn : n = 0
  · simp [hn]
  simp only [hj, hn, if_false]
  rcases nth_modNth_cases c.dev.sessions (n - 1) (j - 1) f {} with h | ⟨hjn, h⟩
  · exact .inl h
  · exact .inr ⟨by omega, h⟩

theorem sessionsReceived_mod {c : Chip} {n : Nat} {f : Session → Session} (h : ∀ x, f x = x.withReception (f x)) :
    SessionsReceived c (c.modSession n f) := fun j => by
  rcases session_modSession c n j f with e | ⟨-, e⟩
  · rw [e]
    rfl
  · rw [e]
    exact h _

theorem RecordsOnly.sessions {c d : Chip} (h : RecordsOnly c d) : d.dev.sessions = c.dev.sessions := by rw [h.dev]

theorem RecordsOnly.received {c d : Chip} (h : RecordsOnly c d) : SessionsReceived c d := sessionsReceived_of_eq h.sessions

theorem violate_received (c : Chip) (n : Nat) : SessionsReceived c (c.violate n) := by
  unfold Chip.violate
  exact (sessionsReceived_mod fun _ => rfl).trans (agreedFault_only ..).received

theorem sessionGate_received (c : Chip) (right : Option Nat) (n : Nat) (p : PduHdr) : SessionsReceived c (c.sessionGate right n p).2 := by
  have hrefl : SessionsReceived c c := sessionsReceived_of_eq rfl
  have hadv : SessionsReceived c (c.advance n p) := sessionsReceived_mod fun _ => rfl
  have hviol : SessionsReceived c (c.violate n) := violate_received c n
  have hfresh : SessionsReceived c ((c.advance n p).modSession n (fun x => { x with freshNow := true, lastFresh := c.dev.sn })) :=
    hadv.trans (sessionsReceived_mod fun _ => rfl)
  have hstep {d : Chip} {f : Session → Session} {code : Nat} (h : SessionsReceived c d) (hf : ∀ x, f x = x.withReception (f x)) :
      SessionsReceived c ((d.modSession n f).agreedFault code 0x0D n 0xFF) :=
    (h.trans (sessionsReceived_mod hf)).trans (agreedFault_only ..).received
  unfold Chip.sessionGate
  dsimp only
  split
  · exact hrefl
  · exact hrefl
  · exact hrefl
  · refine keeps_ite (SessionsReceived c) hviol (keeps_ite _ hadv (keeps_ite _ hviol (keeps_ite _
      (hstep hadv fun _ => rfl)
      (keeps_ite _ hviol (keeps_ite _ (hstep hfresh fun _ => rfl) hfresh)))))

theorem linkAdvance_sessions (c : Chip) (crc : Nat) (r : Req) : (c.linkAdvance crc r).dev.sessions = c.dev.sessions := by
  unfold Chip.linkAdvance
  split <;> rfl

theorem gated_received {a : OpAttr} {r : Req} {s g : State} (h : s.gated a r = some g) : SessionsReceived s.chip g.chip := by
  unfold State.gated at h
  split at h
  · dsimp only at h
    split at h
    · rw [← Option.some.inj h]
      exact sessionsReceived_of_eq (linkAdvance_sessions ..)
    · split at h
      · rename_i c hg
        have hc := sessionGate_received (s.onChip (fun c => c.linkAdvance (c.reqCrc a.code r) r)).chip a.right r.session r.pdu
        rw [hg] at hc
        rw [← Option.some.inj h]
        exact (sessionsReceived_of_eq (linkAdvance_sessions ..)).trans hc
      · cases h
  · cases h

theorem marked_sessions (a : OpAttr) (s : State) : (s.marked a).chip.dev.sessions = s.chip.dev.sessions := by
  unfold State.marked
  split <;> rfl

/-- The second state is the first past the gates of a packet: it differs in accounts only, and of the sessions in marks of reception. -/
structure Past (s t : State) : Prop where
  alike : Alike s t
  replies : t.chip.dev.replies = s.chip.dev.replies
  sessions : SessionsReceived s.chip t.chip

/-- A packet that passes the shared checks has its effect, or is answered with the status that R73 picks among its own checks. -/
theorem exec_of_admits_either {i : Instr} {o : OpRow} (hrow : opRow i = some o) {s : State} (h : s.admits o.attr o.req = true) :
    ∃ t, Past s t ∧ (o.checks o.req t.chip = [] → exec i s = .next ((o.effect o.req t).finish o.attr o.req)) ∧
      ∀ st, pickStatus (o.checks o.req t.chip) = some st → exec i s = .next (t.onChip (fun c => c.reply o.attr.code o.req st [])) := by
  obtain ⟨g, hg, hf⟩ := admits_gated _ _ _ h
  have hfails : opFails o.attr o.checks o.req (g.marked o.attr).chip = o.checks o.req (g.marked o.attr).chip := by
    rw [opFails, marked_fails, hf, List.nil_append]
  refine ⟨g.marked o.attr, ⟨alike_of_plain ((marked_plain ..).trans (gated_plain _ _ _ _ hg)),
    (marked_replies ..).trans (gated_replies _ _ _ _ hg), (gated_received hg).trans (sessionsReceived_of_eq (marked_sessions ..))⟩,
    fun hc => ?_, fun st hst => ?_⟩
  · rw [exec_of_row i o s hrow, runOp_completes _ _ _ _ _ _ hg (hfails.trans hc)]
  · rw [exec_of_row i o s hrow, runOp_fails _ _ _ _ _ _ st hg (by rw [hfails, hst])]

/-- An operation whose own checks fail is answered with the status that R73 picks, and nothing else happens. -/
theorem exec_of_fails {i : Instr} {o : OpRow} (hrow : opRow i = some o) {s : State} (h : s.admits o.attr o.req = true) {l : LaneId}
    (hl : o.req.link = some l) {st : Nat} (hst : st ≠ 0) (hfails : ∀ g, Past s g → pickStatus (o.checks o.req g.chip) = some st) :
    ∃ t p, exec i s = .next t ∧ t.plain = s.plain ∧ t.chip.dev.replies = s.chip.dev.replies ++ [(l, p)] ∧ p.status = st := by
  obtain ⟨g, hpast, -, hexec⟩ := exec_of_admits_either hrow h
  obtain ⟨p, hp, -, -, hstatus, -⟩ := reply_link g.chip o.attr.code o.req st [] l hl (not_suppressed _ _ _ _ hst)
  exact ⟨_, p, hexec st (hfails g hpast), (onChip_plain_of _ _ (reply_plain ..)).trans hpast.alike.plain, hp.trans (by rw [hpast.replies]), hstatus⟩


/-! ### Operations and timers of the Snowplough (R449 to R453, R461, R465) -/

theorem sessions_alike {c d : Chip} (h : SessionsReceived c d) (n : Nat) :
    (d.session n).state = (c.session n).state ∧ (d.session n).profile = (c.session n).profile := by
  rw [h n]
  exact ⟨rfl, rfl⟩

theorem causePresent_past {s g : State} (h : Past s g) : g.chip.causePresent = s.chip.causePresent := by
  have hsessions : ∀ n, (decide ((g.chip.session n).state = .lost) && decide (g.chip.parN Par.keyLossAction (g.chip.session n).profile = 2)) =
      (decide ((s.chip.session n).state = .lost) && decide (s.chip.parN Par.keyLossAction (s.chip.session n).profile = 2)) := fun n => by
    rw [(sessions_alike h.sessions n).1, (sessions_alike h.sessions n).2, h.alike.parN]
  have hsio : ∀ l, (g.chip.lane l).sio = (s.chip.lane l).sio := fun l => by
    rw [lane_eq, lane_eq, h.alike.lanes l]
    rfl
  have hlost : g.chip.soFuncLost = s.chip.soFuncLost := funext fun f => by
    have hfunc : g.chip.funcOuts f = s.chip.funcOuts f := h.alike.reads (fun c => c.funcOuts f) fun _ _ _ => rfl
    simp only [Chip.soFuncLost, hfunc, h.alike.authLanes, hsio]
  have hshort : g.chip.motorShort = s.chip.motorShort := h.alike.reads Chip.motorShort fun _ _ _ => rfl
  have hess : g.chip.essentialLost = s.chip.essentialLost := h.alike.reads Chip.essentialLost fun _ _ _ => rfl
  simp only [Chip.causePresent, hshort, hess, hlost, hsessions]

theorem snow_alike {s g : State} (h : Alike s g) : g.chip.dev.snow = s.chip.dev.snow := h.field Dev.snow fun _ _ => rfl

theorem isParked_alike {s g : State} (h : Alike s g) : g.chip.isParked = s.chip.isParked := by
  rw [Chip.isParked, Chip.isParked, snow_alike h]

theorem classNow_alike {s g : State} (h : Alike s g) : g.chip.classNow = s.chip.classNow := h.field (fun d => d.cls.getD 3) fun _ _ => rfl

/-- The result of an operation that marks the Snowplough and waits for the boundary. -/
def snowPends (g : State) (r : Req) (code : Nat) (f : Snow → Snow) : OpOut :=
  { st := g.onChip (fun c => (c.modSnow f).addPend code r {}), status := stPending }

/-- A release that waits for the boundary: a mark of the Snowplough and a pending operation (R461, R465). -/
theorem marksSnow_of_pend {s g : State} (h : Alike s g) (a : OpAttr) (r : Req) (code : Nat) (f : Snow → Snow) {o : OpOut}
    (ho : o = snowPends g r code f) :
    (o.finish a r).mem = s.mem ∧ (o.finish a r).chip.dev.snow = f s.chip.dev.snow ∧
      (o.finish a r).chip.dev.pend.length = s.chip.dev.pend.length + 1 ∧ (o.finish a r).chip.pintle = s.chip.pintle ∧
      ∀ l, ((o.finish a r).chip.lane l).plain = (s.chip.lane l).plain := by
  have hfinish := alike_finish a r o
  have hnoted := noted_addPend (g.chip.modSnow f) code r {}
  subst ho
  refine ⟨(finish_mem ..).trans h.mem, ?_, ?_, hfinish.pintle.trans (hnoted.pintle.trans h.pintle), fun l => ?_⟩
  · rw [snow_alike hfinish, ← snow_alike h]
    exact hnoted.field Dev.snow fun _ _ _ => rfl
  · rw [hfinish.field (fun d => d.pend.length) fun _ _ => rfl, ← h.field (fun d => d.pend.length) fun _ _ => rfl]
    exact (congrArg List.length (addPend_pend ..)).trans List.length_append
  · rw [lane_eq, lane_eq, hfinish.lanes l]
    refine Eq.trans (b := (g.chip.lanes.get l).plain) ?_ (by rw [h.lanes l]; rfl)
    refine Eq.trans (b := (((g.chip.modSnow f).addPend code r {}).lanes.get l).plain) rfl ?_
    rw [hnoted.lanes l]
    rfl

theorem onChip_plain_congr {s : State} {f g : Chip → Chip} (h : (f s.chip).plain = (g s.chip).plain) : (s.onChip f).plain = (s.onChip g).plain := by
  simp only [State.plain, onChip_chip, onChip_mem, onChip_pending, h]

/-- A mark of the Snowplough in two chips that agree but for their accounts. -/
theorem modSnow_plain_congr {c d : Chip} (h : d.plain = c.plain) (hs : d.dev.snow = c.dev.snow) {f g : Snow → Snow} (hf : f c.dev.snow = g c.dev.snow) :
    (d.modSnow f).plain = (c.modSnow g).plain := by
  have hdev : (d.modSnow f).dev.plain = (c.modSnow g).dev.plain := by
    have hplain : d.dev.plain = c.dev.plain := congrArg Chip.dev h
    calc (d.modSnow f).dev.plain = { d.dev.plain with snow := f d.dev.snow } := rfl
      _ = { c.dev.plain with snow := g c.dev.snow } := by rw [hplain, hs, hf]
      _ = (c.modSnow g).dev.plain := rfl
  calc (d.modSnow f).plain = { d.plain with dev := (d.modSnow f).dev.plain } := rfl
    _ = { c.plain with dev := (c.modSnow g).dev.plain } := by rw [h, hdev]
    _ = (c.modSnow g).plain := rfl

/-- The stop request names cause 11 where none waits and no stop runs (R449, R450). -/
theorem stopCause_plain (c : Chip) (cause : Nat) : (c.stopCause cause).plain =
    (c.modSnow (fun w => if w.step = 0 ∧ w.pend = none then { w with pend := some cause } else w)).plain := by
  have hrecords := agreedFault_only c 0x0601 0 cause 0xFF 1
  have hplain := agreedFault_plain c 0x0601 0 cause 0xFF 1
  have hsnow : (c.agreedFault 0x0601 0 cause 0xFF).dev.snow = c.dev.snow := by rw [hrecords.dev]
  have hkeep (h : ¬ (c.dev.snow.step = 0 ∧ c.dev.snow.pend = none)) : (c.agreedFault 0x0601 0 cause 0xFF).plain =
      (c.modSnow (fun w => if w.step = 0 ∧ w.pend = none then { w with pend := some cause } else w)).plain := by
    rw [hplain]
    simp only [Chip.plain, Chip.modSnow, Chip.modDev, if_neg h]
  unfold Chip.stopCause
  dsimp only
  rw [hsnow]
  split
  · rename_i h
    exact hkeep fun h' => h h'.1
  · rename_i hstep
    split
    · rename_i x hpend
      exact hkeep fun h => by simp [hpend] at h
    · rename_i hpend
      have hmark : (fun w : Snow => ({ w with pend := some cause } : Snow)) c.dev.snow =
          (fun w : Snow => if w.step = 0 ∧ w.pend = none then { w with pend := some cause } else w) c.dev.snow :=
        (if_pos ⟨not_not.1 hstep, hpend⟩).symm
      exact modSnow_plain_congr hplain hsnow hmark

/-- Settles O52: the checks pass or pick their status as the rows say, each effect marks the Snowplough, and the timers are their equations. -/
theorem stopOperationsAndTimers : Obligations.StopOperationsAndTimers := by
  intro s r c
  refine ⟨fun hadm hbody => ?request, fun hadm hbody hparked hclass hlanes hcause hhold hstep => ?release,
    fun k hadm hbody hlink => ⟨fun hparked => ?notParked, fun hparked hrow => ?denied⟩,
    fun hadm hbody hstep hclaim hparked hhold => ?deadbolt, fun k hadm hbody hlink hstep => ?deadboltDenied, rfl, rfl, rfl⟩
  case request =>
    obtain ⟨g, halike, -, hexec⟩ := exec_of_admits (i := .stopRequest r) rfl hadm
    refine ⟨_, hexec (by simp [checksNone, payloadFails, hbody]), (finish_plain ..).trans ?_⟩
    refine Eq.trans ?_ (plain_modDev halike (fun d => { d with snow := if d.snow.step = 0 ∧ d.snow.pend = none
      then { d.snow with pend := some 11 } else d.snow }) fun _ _ => rfl)
    exact onChip_plain_congr (stopCause_plain ..)
  case release =>
    obtain ⟨g, hpast, hexec, -⟩ := exec_of_admits_either (i := .holdRelease r) rfl hadm
    have hpintle : g.chip.pintle.holding = false := by rw [hpast.alike.pintle]; exact hhold
    have hchecks : checksHoldRelease r g.chip = [] := by
      rw [checksHoldRelease, isParked_alike hpast.alike, classNow_alike hpast.alike, hpast.alike.parN, hpast.alike.authLanes, causePresent_past hpast,
        hparked, hcause, hpintle, if_neg (by simp),
        if_neg fun h => h.elim (not_lt.2 hclass) (not_lt.2 hlanes)]
      simp [payloadFails, hbody]
    have heffect : effectHoldRelease r g = snowPends g r 0x0611 (fun w => { w with releasing := true }) := if_pos (by rw [snow_alike hpast.alike]; exact hstep)
    exact ⟨_, hexec hchecks, marksSnow_of_pend hpast.alike _ r 0x0611 (fun w => { w with releasing := true }) heffect⟩
  case notParked =>
    refine exec_of_fails (i := .holdRelease r) rfl hadm hlink (by decide) fun g hpast => ?_
    show pickStatus (checksHoldRelease r g.chip) = _
    rw [checksHoldRelease, isParked_alike hpast.alike, hparked]
    simp [payloadFails, hbody]
    rfl
  case denied =>
    refine exec_of_fails (i := .holdRelease r) rfl hadm hlink (by decide) fun g hpast => ?_
    have hrow : checksHoldRelease r g.chip = [stDenied] := by
      rw [checksHoldRelease, isParked_alike hpast.alike, classNow_alike hpast.alike, causePresent_past hpast, hpast.alike.pintle, hparked]
      simp only [payloadFails, hbody, List.length_nil, if_true, List.nil_append, Bool.not_true, Bool.false_eq_true, if_false]
      split
      · rfl
      · rename_i hclass
        rcases hrow with h | h | h
        · exact absurd (.inl (show 1 < s.chip.classNow from h)) hclass
        · rw [h]
          simp
        · rw [h]
          simp
    show pickStatus (checksHoldRelease r g.chip) = _
    rw [hrow]
    rfl
  case deadbolt =>
    obtain ⟨g, hpast, hexec, -⟩ := exec_of_admits_either (i := .deadboltRelease r) rfl hadm
    have hchecks : checksDeadboltRelease r g.chip = [] := by
      rw [checksDeadboltRelease, isParked_alike hpast.alike, snow_alike hpast.alike, hpast.alike.pintle, hparked, if_neg (fun h => h.elim (fun h => h hstep) (fun h => Bool.noConfusion (hclaim.symm.trans h)))]
      simp [payloadFails, hbody]
    have heffect : effectDeadboltRelease r g = snowPends g r 0x0612 (fun w => { w with dbReleasing := true }) := if_pos (by rw [hpast.alike.pintle]; exact hhold)
    exact ⟨_, hexec hchecks, marksSnow_of_pend hpast.alike _ r 0x0612 (fun w => { w with dbReleasing := true }) heffect⟩
  case deadboltDenied =>
    refine exec_of_fails (i := .deadboltRelease r) rfl hadm hlink (by decide) fun g hpast => ?_
    show pickStatus (checksDeadboltRelease r g.chip) = _
    rw [checksDeadboltRelease, snow_alike hpast.alike, if_pos (.inl hstep)]
    simp [payloadFails, hbody]
    rfl

/-! ### The start of a stop (R450, R452, R453) -/

theorem snowEnter_dev (c : Chip) (step : Nat) {α : Type} (p : Dev → α) (hp : ∀ (d : Dev) hosts, p { d with hosts := hosts } = p d) :
    p (c.snowEnter step).dev = p { c.dev with snow := { c.dev.snow with step := step } } :=
  foldl_keeps (fun c => p c.dev) (fun (c : Chip) l => c.event l 3 c.noticeQuad) (fun c _ => hp c.dev _) _ (c.modSnow (fun w => { w with step := step }))

theorem stopContexts_dev (c : Chip) {α : Type} (p : Dev → α) (hp : ∀ (d : Dev) loops, p { d with loops := loops } = p d) :
    p c.stopContexts.dev = p c.dev := foldl_keeps (fun c => p c.dev) Chip.loopAuto (fun _ _ => hp ..) _ _

/-- What a stop commands at its start besides the bridges: function 2 off, its contexts in automatic, and the two steps with their notices. -/
def Chip.stopBegins (c : Chip) : Chip := ((c.funcOff 2).stopContexts.snowEnter 1).snowEnter 2

theorem stopBegins_dev (c : Chip) {α : Type} (p : Dev → α) (hhosts : ∀ (d : Dev) hosts, p { d with hosts := hosts } = p d)
    (hloops : ∀ (d : Dev) loops, p { d with loops := loops } = p d) (hstep : ∀ (d : Dev) step, p { d with snow := { d.snow with step := step } } = p d) :
    p c.stopBegins.dev = p (c.funcOff 2).dev := by
  rw [Chip.stopBegins, snowEnter_dev _ _ p hhosts, hstep, snowEnter_dev _ _ p hhosts, hstep, stopContexts_dev _ p hloops]

theorem stopBegins_snow (c : Chip) : c.stopBegins.dev.snow = { c.dev.snow with step := 2 } := by
  rw [Chip.stopBegins, snowEnter_dev _ _ Dev.snow fun _ _ => rfl]
  dsimp only
  rw [snowEnter_dev _ _ Dev.snow fun _ _ => rfl]
  dsimp only
  rw [stopContexts_dev _ Dev.snow fun _ _ => rfl]
  rfl

/-- The torque that a host gave a bridge falls to 0 (R452). -/
def Chip.dropHostTorque (c : Chip) (k : Nat) : Chip :=
  if c.parN Par.cmtTorqueSrc k = 0xFF then c.modMotor k (fun m => { m with torque := 0 }) else c

theorem dropHostTorque_field (c : Chip) (k : Nat) {α : Type} (p : Dev → α) (hp : ∀ (d : Dev) motors, p { d with motors := motors } = p d) :
    p (c.dropHostTorque k).dev = p c.dev := by
  unfold Chip.dropHostTorque
  split
  · exact hp ..
  · rfl

theorem dropHostTorque_keeps_zero {c : Chip} {j : Nat} (h : (nth c.dev.motors j {}).torque = 0) (k : Nat) :
    (nth (c.dropHostTorque k).dev.motors j {}).torque = 0 := by
  unfold Chip.dropHostTorque
  split
  · rcases nth_modNth_cases c.dev.motors k j (fun m : Motor => { m with torque := 0 }) {} with e | ⟨-, e⟩
    · exact (congrArg Motor.torque e).trans h
    · exact congrArg Motor.torque e
  · exact h

theorem dropHostTorque_same {c : Chip} {k : Nat} (h : c.parN Par.cmtTorqueSrc k = 0xFF) (hk : k < c.dev.motors.length) :
    (nth (c.dropHostTorque k).dev.motors k {}).torque = 0 := by
  rw [Chip.dropHostTorque, if_pos h]
  exact congrArg Motor.torque (nth_modNth_same c.dev.motors k _ {} hk)

theorem dropHostTorque_length (c : Chip) (k : Nat) : (c.dropHostTorque k).dev.motors.length = c.dev.motors.length := by
  unfold Chip.dropHostTorque
  split
  · exact modNth_length ..
  · rfl

theorem dropHostTorques_keep_zero {j : Nat} (ks : List Nat) : ∀ {c : Chip}, (nth c.dev.motors j {}).torque = 0 →
    (nth (ks.foldl Chip.dropHostTorque c).dev.motors j {}).torque = 0 := by
  induction ks with
  | nil => exact id
  | cons k ks ih => exact fun h => ih (dropHostTorque_keeps_zero h k)

theorem dropHostTorques_zero {j : Nat} (ks : List Nat) : ∀ {c : Chip}, j ∈ ks → c.parN Par.cmtTorqueSrc j = 0xFF → j < c.dev.motors.length →
    (nth (ks.foldl Chip.dropHostTorque c).dev.motors j {}).torque = 0 := by
  induction ks with
  | nil => exact fun h => absurd h List.not_mem_nil
  | cons k ks ih =>
    intro c hj hpar hlen
    rcases List.mem_cons.1 hj with rfl | hj
    · exact dropHostTorques_keep_zero ks (dropHostTorque_same hpar hlen)
    · have hcfg : (c.dropHostTorque k).dev.cfg = c.dev.cfg := dropHostTorque_field c k Dev.cfg fun _ _ => rfl
      refine ih hj ?_ (by rw [dropHostTorque_length]; exact hlen)
      rw [Chip.parN, Chip.par, hcfg]
      exact hpar

theorem hasBit_clearBits {n : Nat} (hn : n < 8) (ns : List Nat) : ∀ m : Mask, (n ∈ ns ∨ hasBit m n = false) →
    hasBit (ns.foldl (fun m n => setBit m n false) m) n = false := by
  induction ns with
  | nil => exact fun m h => h.resolve_left List.not_mem_nil
  | cons k ns ih =>
    intro m h
    refine ih _ (or_iff_not_imp_left.2 fun hn' => ?_)
    rw [hasBit_setBit hn]
    split
    · rfl
    · rename_i hk
      exact h.resolve_left fun h' => (List.mem_cons.1 h').elim hk hn'

theorem funcOuts_congr {c d : Chip} (h : d.dev.cfg = c.dev.cfg) (f : Nat) : d.funcOuts f = c.funcOuts f := by
  have hpar : ∀ p i, d.par p i = c.par p i := fun p i => by rw [Chip.par, Chip.par, h]
  simp only [Chip.funcOuts, hpar]

theorem funcOff_motors (c : Chip) (f : Nat) : (c.funcOff f).dev.motors = c.dev.motors := rfl

theorem funcOff_off (c : Chip) (f : Nat) (l : LaneId) {n : Nat} (h : n ∈ c.funcOuts f) : hasBit ((c.funcOff f).dev.so.get l) n = false := by
  have hn : n < 4 := List.mem_range.1 (List.mem_filter.1 h).1
  show hasBit ((c.dev.so.map _).get l) n = false
  rw [tri_get_map]
  exact hasBit_clearBits (by omega) _ _ (.inl h)

theorem modSnow_self {c : Chip} {f : Snow → Snow} (h : f c.dev.snow = c.dev.snow) : c.modSnow f = c := by
  rw [Chip.modSnow, Chip.modDev, h]

/-- What a stop captures at its start (R450, R452, R458). -/
def Chip.stopCaptured (c : Chip) (cause : Nat) : Chip :=
  (c.modSnow (fun w => { w with
    pend := none, cause := cause, v0 := w.v, t := 0, entryNt := c.launchNt, timedOut := false, applied := false, aDem := 0, releasing := false
    steer := (List.range 4).map (fun j => (nth c.dev.loops (c.parN Par.snpSteerCtx j) {}).sp * 1000000000) })).modDev
  (fun d => { d with sdAbort := d.sdAbort || d.standdown.isSome, sdNext := none })

theorem startStop_eq (c : Chip) (cause : Nat) :
    c.startStop cause = ((List.range 4).foldl Chip.dropHostTorque (c.stopCaptured cause)).stopBegins := rfl

/-- Settles O53: the start captures, drops the host torques and begins; a cause during a stop only leaves its record; the demand is clipped. -/
theorem stopSequenceStartsAndStays : Obligations.StopSequenceStartsAndStays := by
  intro c cause
  have hfold {α : Type} (p : Dev → α) (hp : ∀ (d : Dev) motors, p { d with motors := motors } = p d) :
      p ((List.range 4).foldl Chip.dropHostTorque (c.stopCaptured cause)).dev = p (c.stopCaptured cause).dev :=
    foldl_keeps (fun c => p c.dev) _ (fun c k => dropHostTorque_field c k p hp) _ _
  have hsnow : (c.startStop cause).dev.snow = { (c.stopCaptured cause).dev.snow with step := 2 } := by
    rw [startStop_eq, stopBegins_snow, hfold Dev.snow fun _ _ => rfl]
  refine ⟨by rw [hsnow], by rw [hsnow]; rfl, by rw [hsnow]; rfl, by rw [hsnow]; rfl, by rw [hsnow]; rfl, by rw [hsnow]; rfl,
    fun k hk hpar hlen => ?torque, fun l n hn => ?outs, fun hstep => ?stays, fun hfull => ?demand⟩
  case torque =>
    rw [startStop_eq, stopBegins_dev _ Dev.motors (fun _ _ => rfl) (fun _ _ => rfl) (fun _ _ => rfl), funcOff_motors]
    have hcfg : (c.stopCaptured cause).dev.cfg = c.dev.cfg := rfl
    have hmotors : (c.stopCaptured cause).dev.motors = c.dev.motors := rfl
    refine dropHostTorques_zero (List.range 4) (List.mem_range.2 hk) ?_ (by rw [hmotors]; exact hlen)
    rw [Chip.parN, Chip.par, hcfg]
    exact hpar
  case outs =>
    have hfunc : ((List.range 4).foldl Chip.dropHostTorque (c.stopCaptured cause)).funcOuts 2 = c.funcOuts 2 :=
      funcOuts_congr (hfold Dev.cfg fun _ _ => rfl) 2
    rw [startStop_eq, stopBegins_dev _ Dev.so (fun _ _ => rfl) (fun _ _ => rfl) (fun _ _ => rfl)]
    exact funcOff_off _ 2 l (by rw [hfunc]; exact hn)
  case stays =>
    rw [stopCause_plain]
    refine congrArg Chip.plain (modSnow_self ?_)
    exact if_neg fun h => hstep h.1
  case demand => exact ⟨le_clip hfull _, clip_le hfull _⟩

end Sys2Proof.Machine

namespace Sys2Proof.Machine
open Sys2Proof

/-! ### Folds over the chip -/

/-- One element of a fold establishes a property that every element keeps. -/
theorem foldl_reaches {α : Type} (f : Chip → α → Chip) (P Q : Chip → Prop) {x : α} (hmake : ∀ c, Q c → P (f c x)) (hQ : ∀ c y, Q c → Q (f c y))
    (hP : ∀ c y, P c → P (f c y)) (xs : List α) : ∀ c : Chip, x ∈ xs → Q c → P (xs.foldl f c) := by
  have hkeep (ys : List α) : ∀ c : Chip, P c → P (ys.foldl f c) := by
    induction ys with
    | nil => exact fun _ h => h
    | cons y ys ih => exact fun c h => ih _ (hP c y h)
  induction xs with
  | nil => exact fun _ h => absurd h List.not_mem_nil
  | cons y xs ih =>
    intro c hx hq
    rcases List.mem_cons.1 hx with rfl | hx
    · exact hkeep xs _ (hmake c hq)
    · exact ih _ hx (hQ c y hq)

theorem nth_of_length_le {α : Type} {xs : List α} {k : Nat} (h : xs.length ≤ k) (d : α) : nth xs k d = d := by
  induction xs generalizing k with
  | nil => cases k <;> rfl
  | cons x xs ih => cases k with
    | zero => exact absurd h (by simp)
    | succ n => exact ih (by simpa using h)

/-- A property of the default and of every changed value holds after a change in one place, there. -/
theorem nth_modNth_of {α : Type} {P : α → Prop} {f : α → α} {d : α} (hd : P d) (hf : ∀ x, P (f x)) (xs : List α) (k : Nat) :
    P (nth (modNth xs k f) k d) := by
  by_cases h : k < xs.length
  · rw [nth_modNth_same xs k f d h]
    exact hf _
  · rw [nth_of_length_le (by rw [modNth_length]; exact not_lt.1 h)]
    exact hd

/-- A property that a change keeps holds in every place after a change in one. -/
theorem nth_modNth_keeps {α : Type} {P : α → Prop} {f : α → α} {xs : List α} {j : Nat} {d : α} (h : P (nth xs j d)) (hf : ∀ x, P x → P (f x)) (k : Nat) :
    P (nth (modNth xs k f) j d) := by
  rcases nth_modNth_cases xs k j f d with e | ⟨-, e⟩
  · rw [e]
    exact h
  · rw [e]
    exact hf _ h

/-! ### What disabling actuation changes (R418) -/

/-- The second chip differs from the first in the commands of outputs and units, the pending operations and the accounts only. -/
structure Commands (c d : Chip) : Prop where
  lanes : LanesAlike c d
  bridges : d.bridges = c.bridges
  links : d.links = c.links
  pintle : d.pintle = c.pintle
  fresh : d.fresh = c.fresh
  dev : d.dev = { c.dev.withAccounts d.dev with
    pend := d.dev.pend, actuation := d.dev.actuation, so := d.dev.so, launches := d.dev.launches, motors := d.dev.motors
    steppers := d.dev.steppers, loops := d.dev.loops }

theorem Commands.refl (c : Chip) : Commands c c := ⟨.refl c, rfl, rfl, rfl, rfl, rfl⟩

theorem commands_modDev {c : Chip} {f : Dev → Dev} (h : f c.dev = { c.dev.withAccounts (f c.dev) with
    pend := (f c.dev).pend, actuation := (f c.dev).actuation, so := (f c.dev).so, launches := (f c.dev).launches, motors := (f c.dev).motors
    steppers := (f c.dev).steppers, loops := (f c.dev).loops }) : Commands c (c.modDev f) := ⟨.refl c, rfl, rfl, rfl, rfl, h⟩

theorem Commands.trans {c d e : Chip} (h : Commands c d) (k : Commands d e) : Commands c e where
  lanes := h.lanes.trans k.lanes
  bridges := k.bridges.trans h.bridges
  links := k.links.trans h.links
  pintle := k.pintle.trans h.pintle
  fresh := k.fresh.trans h.fresh
  dev := by
    rw [k.dev, h.dev]
    rfl

theorem Noted.commands {c d : Chip} (h : Noted c d) : Commands c d where
  lanes := h.lanes
  bridges := h.bridges
  links := h.links
  pintle := h.pintle
  fresh := h.fresh
  dev := by
    rw [h.dev]
    rfl

theorem commands_foldl {α : Type} (f : Chip → α → Chip) (h : ∀ c x, Commands c (f c x)) (xs : List α) : ∀ c : Chip, Commands c (xs.foldl f c) := by
  induction xs with
  | nil => exact .refl
  | cons x xs ih => exact fun c => (h c x).trans (ih (f c x))

theorem Commands.field {c d : Chip} (h : Commands c d) {α : Type} (p : Dev → α)
    (hp : ∀ (x a : Dev) pend actuation so launches motors steppers loops, p { x.withAccounts a with
      pend := pend, actuation := actuation, so := so, launches := launches, motors := motors, steppers := steppers, loops := loops } = p x) :
    p d.dev = p c.dev := by
  rw [h.dev, hp]

theorem discardLaunches_commands (c : Chip) (o : Nat) : Commands c (c.discardLaunches o) :=
  (commands_modDev rfl).trans (discardLaunches_noted c o).commands

theorem disableBridge_noted (c : Chip) (k : Nat) : ∃ d, Noted c d ∧ c.disableBridge k = d.modMotor k (fun m => { m with
    enabled := false, torque := 0, catchWait := false, disabling := decide (m.state = .switching)
    state := if m.state = .switching then .switching else if bridgeUsed d.dev.cfg.ws k then .tracking else .disabled }) :=
  ⟨_, noted_finishAll c (fun p => decide (p.opcode = 0x1013 ∧ p.arg = k)) stDenied [], rfl⟩

/-- A stepper channel de-energised. -/
def Stepper.released (s : Stepper) : Stepper :=
  { s with
    energised := false, homed := false, phase := .standing, v := 0, a := 0, rem := 0, homeStage := 0, idle := true, x0 := wholeStep s.x,
    x1 := wholeStep s.x, j0 := 0, v0 := 0, amp := 0, lostBase := none, lostCount := 0, coilBad := 0, deEnergise := false }

theorem stpRelease_noted (c : Chip) (k status : Nat) : ∃ d, Noted c d ∧ c.stpRelease k status = d.modStep k Stepper.released :=
  ⟨_, noted_finishAll c (fun p => decide (p.opcode = 0x1212 ∧ p.arg = k)) status (toLeI 4 (wholeStep (nth c.dev.steppers k {}).x) ++ List.replicate 12 0), rfl⟩

section Fields

variable {α : Type} (p : Dev → α) (hacc : ∀ (x a : Dev) pend, p { x.withAccounts a with pend := pend } = p x)
include hacc

theorem discardLaunches_field (hp : ∀ (d : Dev) xs, p { d with launches := xs } = p d) (c : Chip) (o : Nat) :
    p (c.discardLaunches o).dev = p c.dev :=
  ((discardLaunches_noted c o).field p hacc).trans (hp c.dev _)

theorem disableBridge_field (hp : ∀ (d : Dev) xs, p { d with motors := xs } = p d) (c : Chip) (k : Nat) :
    p (c.disableBridge k).dev = p c.dev := by
  obtain ⟨d, hnoted, heq⟩ := disableBridge_noted c k
  rw [heq]
  exact (hp d.dev _).trans (hnoted.field p hacc)

theorem stpRelease_field (hp : ∀ (d : Dev) xs, p { d with steppers := xs } = p d) (c : Chip) (k status : Nat) :
    p (c.stpRelease k status).dev = p c.dev := by
  obtain ⟨d, hnoted, heq⟩ := stpRelease_noted c k status
  rw [heq]
  exact (hp d.dev _).trans (hnoted.field p hacc)

end Fields

theorem disableBridge_commands (c : Chip) (k : Nat) : Commands c (c.disableBridge k) := by
  obtain ⟨d, hnoted, heq⟩ := disableBridge_noted c k
  rw [heq]
  exact hnoted.commands.trans (commands_modDev rfl)

theorem stpRelease_commands (c : Chip) (k status : Nat) : Commands c (c.stpRelease k status) := by
  obtain ⟨d, hnoted, heq⟩ := stpRelease_noted c k status
  rw [heq]
  exact hnoted.commands.trans (commands_modDev rfl)

theorem loopInit_commands (c : Chip) (n : Nat) : Commands c (c.loopInit n) :=
  commands_modDev (f := fun d => { d with loops := (c.loopInit n).dev.loops }) rfl

/-! #### The four parts of disabling -/

/-- The bridges in use disabled (R219, R418). -/
def Chip.bridgesOff (c : Chip) : Chip := (List.range 4).foldl (fun c k => if bridgeUsed c.dev.cfg.ws k then c.disableBridge k else c) c

/-- The energised channels released (R260, R418). -/
def Chip.steppersOff (c : Chip) : Chip := (List.range 6).foldl (fun c k => if (nth c.dev.steppers k {}).energised then c.stpRelease k stNotHomed else c) c

/-- The enabled contexts in manual (R288). -/
def Chip.loopsInit (c : Chip) : Chip := c.loopsOn.foldl Chip.loopInit c

/-- Actuation marked as disabled, with every output commanded off. -/
def Chip.actuationMarked (c : Chip) : Chip := (c.modDev (fun d => { d with actuation := false })).outsOff

theorem actuationOff_of_enabled {c : Chip} (h : c.dev.actuation = true) :
    c.actuationOff = c.actuationMarked.discardAll.bridgesOff.steppersOff.loopsInit := by
  unfold Chip.actuationOff
  rw [h]
  rfl

theorem actuationOff_of_disabled {c : Chip} (h : c.dev.actuation = false) : c.actuationOff = c := by
  unfold Chip.actuationOff
  rw [h]
  rfl

section Fields

variable {α : Type} (p : Dev → α) (hacc : ∀ (x a : Dev) pend, p { x.withAccounts a with pend := pend } = p x)
include hacc

theorem discardAll_field (hp : ∀ (d : Dev) xs, p { d with launches := xs } = p d) (c : Chip) : p c.discardAll.dev = p c.dev :=
  foldl_keeps (fun c => p c.dev) _ (discardLaunches_field p hacc hp) _ c

theorem bridgesOff_field (hp : ∀ (d : Dev) xs, p { d with motors := xs } = p d) (c : Chip) : p c.bridgesOff.dev = p c.dev := by
  refine foldl_keeps (fun c => p c.dev) _ (fun c k => ?_) _ c
  split
  · exact disableBridge_field p hacc hp c k
  · rfl

theorem steppersOff_field (hp : ∀ (d : Dev) xs, p { d with steppers := xs } = p d) (c : Chip) : p c.steppersOff.dev = p c.dev := by
  refine foldl_keeps (fun c => p c.dev) _ (fun c k => ?_) _ c
  split
  · exact stpRelease_field p hacc hp c k stNotHomed
  · rfl

end Fields

theorem loopsInit_field {α : Type} (p : Dev → α) (hp : ∀ (d : Dev) xs, p { d with loops := xs } = p d) (c : Chip) : p c.loopsInit.dev = p c.dev :=
  foldl_keeps (fun c => p c.dev) Chip.loopInit (fun c _ => hp c.dev _) _ c

theorem actuationOff_commands (c : Chip) : Commands c c.actuationOff := by
  cases h : c.dev.actuation
  case false =>
    rw [actuationOff_of_disabled h]
    exact .refl c
  case true =>
    rw [actuationOff_of_enabled h]
    have hmarked : Commands c c.actuationMarked :=
      commands_modDev (f := fun d => { d with actuation := false, so := Tri.all 0 }) rfl
    have hbridges (d : Chip) : Commands d d.bridgesOff := commands_foldl _ (fun c k => by
      split
      · exact disableBridge_commands c k
      · exact .refl c) _ d
    have hsteppers (d : Chip) : Commands d d.steppersOff := commands_foldl _ (fun c k => by
      split
      · exact stpRelease_commands c k stNotHomed
      · exact .refl c) _ d
    have hloops (d : Chip) : Commands d d.loopsInit := commands_foldl Chip.loopInit loopInit_commands _ d
    have hdiscard (d : Chip) : Commands d d.discardAll := commands_foldl _ discardLaunches_commands _ d
    exact (((hmarked.trans (hdiscard _)).trans (hbridges _)).trans (hsteppers _)).trans (hloops _)

theorem discardLaunches_launches (c : Chip) (o : Nat) : (c.discardLaunches o).dev.launches = c.dev.launches.filter (fun x => x.out != o) :=
  (discardLaunches_noted c o).field Dev.launches fun _ _ _ => rfl

theorem discardAll_launches (c : Chip) : ∀ y ∈ c.discardAll.dev.launches, 14 ≤ y.out := by
  have hgone (o : Nat) (ho : o < 14) : ∀ y ∈ c.discardAll.dev.launches, y.out ≠ o := by
    unfold Chip.discardAll
    refine foldl_reaches (fun c o => c.discardLaunches o) (fun c => ∀ y ∈ c.dev.launches, y.out ≠ o) (fun _ => True) ?_ (fun _ _ _ => trivial) ?_
      (List.range 14) c (List.mem_range.2 ho) trivial
    · intro c _ y hy
      rw [discardLaunches_launches] at hy
      simpa using (List.mem_filter.1 hy).2
    · intro c o' h y hy
      rw [discardLaunches_launches] at hy
      exact h y (List.mem_of_mem_filter hy)
  intro y hy
  by_contra h
  exact hgone y.out (by omega) y hy rfl

theorem bridgesOff_motors {c : Chip} {k : Nat} (hk : k < 4) (hused : bridgeUsed c.dev.cfg.ws k = true) :
    (nth c.bridgesOff.dev.motors k {}).enabled = false ∧ (nth c.bridgesOff.dev.motors k {}).torque = 0 := by
  refine foldl_reaches (fun c k => if bridgeUsed c.dev.cfg.ws k then c.disableBridge k else c)
    (fun c => (nth c.dev.motors k {}).enabled = false ∧ (nth c.dev.motors k {}).torque = 0) (fun c => bridgeUsed c.dev.cfg.ws k = true) ?_ ?_ ?_ (List.range 4) c
    (List.mem_range.2 hk) hused
  · intro c hq
    obtain ⟨d, -, heq⟩ := disableBridge_noted c k
    rw [if_pos hq, heq]
    exact nth_modNth_of (P := fun m : Motor => m.enabled = false ∧ m.torque = 0) ⟨rfl, rfl⟩ (fun _ => ⟨rfl, rfl⟩) d.dev.motors k
  · intro c j hq
    split
    · rw [disableBridge_field Dev.cfg (fun _ _ _ => rfl) (fun _ _ => rfl)]
      exact hq
    · exact hq
  · intro c j hp
    split
    · obtain ⟨d, hnoted, heq⟩ := disableBridge_noted c j
      have hmotors : d.dev.motors = c.dev.motors := hnoted.field Dev.motors fun _ _ _ => rfl
      rw [heq]
      exact nth_modNth_keeps (P := fun m : Motor => m.enabled = false ∧ m.torque = 0) (by rw [hmotors]; exact hp) (fun _ _ => ⟨rfl, rfl⟩) j
    · exact hp

theorem steppersOff_energised (c : Chip) {k : Nat} (hk : k < 6) : (nth c.steppersOff.dev.steppers k {}).energised = false := by
  refine foldl_reaches (fun c k => if (nth c.dev.steppers k {}).energised then c.stpRelease k stNotHomed else c)
    (fun c => (nth c.dev.steppers k {}).energised = false) (fun _ => True) ?_ (fun _ _ _ => trivial) ?_ (List.range 6) c (List.mem_range.2 hk) trivial
  · intro c _
    split
    · obtain ⟨d, -, heq⟩ := stpRelease_noted c k stNotHomed
      rw [heq]
      exact nth_modNth_of (P := fun x : Stepper => x.energised = false) rfl (fun _ => rfl) d.dev.steppers k
    · rename_i h
      exact Bool.eq_false_iff.2 h
  · intro c j hp
    split
    · obtain ⟨d, hnoted, heq⟩ := stpRelease_noted c j stNotHomed
      have hsteppers : d.dev.steppers = c.dev.steppers := hnoted.field Dev.steppers fun _ _ _ => rfl
      rw [heq]
      exact nth_modNth_keeps (P := fun x : Stepper => x.energised = false) (by rw [hsteppers]; exact hp) (fun _ _ => rfl) j
    · exact hp

theorem loopsInit_manual {c : Chip} {n : Nat} (hn : n < 64) (hon : c.loopOn n = true) (hlen : n < c.dev.loops.length)
    (hdisabled : (nth c.dev.loops n {}).mode ≠ .disabled) (hfenced : (nth c.dev.loops n {}).mode ≠ .fenced) :
    (nth c.loopsInit.dev.loops n {}).mode = .manual ∧ (nth c.loopsInit.dev.loops n {}).manual = c.par Par.loopOutInit n := by
  have hpar (d : Chip) (h : d.dev.cfg = c.dev.cfg) : d.par Par.loopOutInit n = c.par Par.loopOutInit n := by rw [Chip.par, Chip.par, h]
  have hmem : n ∈ c.loopsOn := List.mem_filter.2 ⟨List.mem_range.2 hn, hon⟩
  refine And.right (foldl_reaches Chip.loopInit
    (fun d => d.dev.cfg = c.dev.cfg ∧ (nth d.dev.loops n {}).mode = .manual ∧ (nth d.dev.loops n {}).manual = c.par Par.loopOutInit n)
    (fun d => d.dev.cfg = c.dev.cfg ∧ n < d.dev.loops.length ∧ (nth d.dev.loops n {}).mode ≠ .disabled ∧ (nth d.dev.loops n {}).mode ≠ .fenced)
    ?_ ?_ ?_ c.loopsOn c hmem ⟨rfl, hlen, hdisabled, hfenced⟩)
  · rintro d ⟨hcfg, hlen, hdisabled, hfenced⟩
    refine ⟨hcfg, ?_⟩
    simp only [Chip.loopInit, modLoop_dev, nth_modNth_same _ _ _ _ hlen, hdisabled, hfenced, or_self, if_false]
    exact ⟨trivial, hpar d hcfg⟩
  · rintro d j ⟨hcfg, hlen, hmode⟩
    refine ⟨hcfg, by simp only [Chip.loopInit, modLoop_dev, modNth_length]; exact hlen, ?_⟩
    refine nth_modNth_keeps (P := fun x : Loop => x.mode ≠ .disabled ∧ x.mode ≠ .fenced) hmode (fun x hx => ?_) j
    rw [if_neg (by simpa using hx)]
    exact ⟨LoopMode.noConfusion, LoopMode.noConfusion⟩
  · rintro d j ⟨hcfg, hp⟩
    refine ⟨hcfg, ?_⟩
    rcases nth_modNth_cases d.dev.loops j n (fun x => if x.mode = .disabled ∨ x.mode = .fenced then x else
      { x with mode := .manual, manual := d.par Par.loopOutInit j, toAuto := false, preset := none }) {} with e | ⟨rfl, e⟩
    · simp only [Chip.loopInit, modLoop_dev]
      rw [e]
      exact hp
    · simp only [Chip.loopInit, modLoop_dev]
      rw [e]
      split
      · exact hp
      · exact ⟨rfl, hpar d hcfg⟩

/-- What disabling leaves (R288, R356, R418). -/
structure Disabled (c t : Chip) : Prop where
  actuation : t.dev.actuation = false
  outs : t.dev.so = Tri.all 0
  launches : ∀ y ∈ t.dev.launches, 14 ≤ y.out
  steppers : ∀ k, k < 6 → (nth t.dev.steppers k {}).energised = false
  bridges : ∀ k, k < 4 → bridgeUsed c.dev.cfg.ws k = true → (nth t.dev.motors k {}).enabled = false ∧ (nth t.dev.motors k {}).torque = 0
  loops : ∀ n, n < 64 → c.loopOn n = true → n < c.dev.loops.length → (nth c.dev.loops n {}).mode ≠ .disabled → (nth c.dev.loops n {}).mode ≠ .fenced →
    (nth t.dev.loops n {}).mode = .manual ∧ (nth t.dev.loops n {}).manual = c.par Par.loopOutInit n

theorem actuationOff_disabled {c : Chip} (h : c.dev.actuation = true) : Disabled c c.actuationOff := by
  have hfield {α : Type} (p : Dev → α) (hacc : ∀ (x a : Dev) pend, p { x.withAccounts a with pend := pend } = p x)
      (hl : ∀ (d : Dev) xs, p { d with launches := xs } = p d) (hm : ∀ (d : Dev) xs, p { d with motors := xs } = p d)
      (hs : ∀ (d : Dev) xs, p { d with steppers := xs } = p d) : p c.actuationMarked.discardAll.bridgesOff.steppersOff.dev = p c.actuationMarked.dev := by
    rw [steppersOff_field p hacc hs, bridgesOff_field p hacc hm, discardAll_field p hacc hl]
  have hcfg : c.actuationMarked.discardAll.bridgesOff.steppersOff.dev.cfg = c.dev.cfg :=
    hfield Dev.cfg (fun _ _ _ => rfl) (fun _ _ => rfl) (fun _ _ => rfl) (fun _ _ => rfl)
  have hloops : c.actuationMarked.discardAll.bridgesOff.steppersOff.dev.loops = c.dev.loops :=
    hfield Dev.loops (fun _ _ _ => rfl) (fun _ _ => rfl) (fun _ _ => rfl) (fun _ _ => rfl)
  have hcfg' : c.actuationMarked.discardAll.dev.cfg = c.dev.cfg := discardAll_field Dev.cfg (fun _ _ _ => rfl) (fun _ _ => rfl) _
  have hpar (d : Chip) (hd : d.dev.cfg = c.dev.cfg) (p : PInfo) (n : Nat) : d.par p n = c.par p n := by rw [Chip.par, Chip.par, hd]
  rw [actuationOff_of_enabled h]
  refine ⟨?_, ?_, ?_, fun k hk => ?_, fun k hk hused => ?_, fun n hn hon hlen hd hf => ?_⟩
  · rw [loopsInit_field Dev.actuation fun _ _ => rfl]
    exact hfield Dev.actuation (fun _ _ _ => rfl) (fun _ _ => rfl) (fun _ _ => rfl) (fun _ _ => rfl)
  · rw [loopsInit_field Dev.so fun _ _ => rfl]
    exact hfield Dev.so (fun _ _ _ => rfl) (fun _ _ => rfl) (fun _ _ => rfl) (fun _ _ => rfl)
  · rw [loopsInit_field Dev.launches fun _ _ => rfl, steppersOff_field Dev.launches (fun _ _ _ => rfl) (fun _ _ => rfl),
      bridgesOff_field Dev.launches (fun _ _ _ => rfl) (fun _ _ => rfl)]
    exact discardAll_launches _
  · rw [loopsInit_field Dev.steppers fun _ _ => rfl]
    exact steppersOff_energised _ hk
  · rw [loopsInit_field Dev.motors fun _ _ => rfl, steppersOff_field Dev.motors (fun _ _ _ => rfl) (fun _ _ => rfl)]
    exact bridgesOff_motors hk (by rw [hcfg']; exact hused)
  · rw [← hpar _ hcfg]
    exact loopsInit_manual hn (by rw [Chip.loopOn, hpar _ hcfg]; exact hon) (by rw [hloops]; exact hlen) (by rw [hloops]; exact hd) (by rw [hloops]; exact hf)

/-- The same of a chip that agrees on the settings and the contexts, in a chip that agrees but for its accounts. -/
theorem Disabled.congr {c d t u : Chip} (h : Disabled c t) (hcfg : d.dev.cfg = c.dev.cfg) (hloops : d.dev.loops = c.dev.loops)
    (hdev : u.dev = t.dev.withAccounts u.dev) : Disabled d u := by
  have hpar (p : PInfo) (n : Nat) : d.par p n = c.par p n := by rw [Chip.par, Chip.par, hcfg]
  have hfield {α : Type} (p : Dev → α) (hp : ∀ x a : Dev, p (x.withAccounts a) = p x) : p u.dev = p t.dev := by rw [hdev, hp]
  obtain ⟨hact, hso, hlaunches, hsteppers, hbridges, hloop⟩ := h
  refine ⟨(hfield Dev.actuation fun _ _ => rfl).trans hact, (hfield Dev.so fun _ _ => rfl).trans hso, ?_, ?_, ?_, ?_⟩
  · rw [hfield Dev.launches fun _ _ => rfl]
    exact hlaunches
  · rw [hfield Dev.steppers fun _ _ => rfl]
    exact hsteppers
  · rw [hfield Dev.motors fun _ _ => rfl, hcfg]
    exact hbridges
  · rw [hfield Dev.loops fun _ _ => rfl, hloops]
    intro n hn hon
    rw [hpar]
    exact hloop n hn (by rw [Chip.loopOn, hpar] at hon; exact hon)

/-! ### Operations on actuation and power (R96, R114, R418, R472 to R475, R481, R484) -/

theorem Alike.lane {s t : State} (h : Alike s t) (l : LaneId) {α : Type} (p : Lane → α) (hp : ∀ n a : Lane, p (n.withAccounts a) = p n) :
    p (t.chip.lane l) = p (s.chip.lane l) := by
  rw [lane_eq, lane_eq, h.lanes l, hp]

theorem LanesAlike.lane {c d : Chip} (h : LanesAlike c d) (l : LaneId) {α : Type} (p : Lane → α) (hp : ∀ n a : Lane, p (n.withAccounts a) = p n) :
    p (d.lane l) = p (c.lane l) := by
  rw [lane_eq, lane_eq, h l, hp]

theorem computes_alike {s t : State} (h : Alike s t) (l : LaneId) : t.chip.computes l = s.chip.computes l := by
  have hchk : (t.chip.lane l).chk = (s.chip.lane l).chk := h.lane l Lane.chk fun _ _ => rfl
  have hboot : (t.chip.lane l).boot = (s.chip.lane l).boot := h.lane l Lane.boot fun _ _ => rfl
  have hround : (t.chip.lane l).round = (s.chip.lane l).round := h.lane l Lane.round fun _ _ => rfl
  have hsd : t.chip.dev.standdown = s.chip.dev.standdown := h.field Dev.standdown fun _ _ => rfl
  simp only [Chip.computes, Chip.inRound, Chip.resyncing, h.inAuth, hchk, hboot, hround, hsd]

theorem leader_alike {s t : State} (h : Alike s t) : t.chip.leader = s.chip.leader := by
  have haset : t.chip.dev.aset = s.chip.dev.aset := h.field Dev.aset fun _ _ => rfl
  simp only [Chip.leader, haset, computes_alike h, h.authLanes]

theorem commissioned_alike {s t : State} (h : Alike s t) : t.chip.commissioned = s.chip.commissioned := by
  have hnvm (l : LaneId) : (t.chip.lane l).nvm = (s.chip.lane l).nvm := h.lane l Lane.nvm fun _ _ => rfl
  simp only [Chip.commissioned, leader_alike h, hnvm, h.cfg]

theorem lapses_alike {s t : State} (h : Alike s t) : t.chip.lapses = s.chip.lapses := by
  have hahead : t.chip.checkAhead = s.chip.checkAhead := h.reads Chip.checkAhead fun _ _ _ => rfl
  rw [Chip.lapses, Chip.lapses, commissioned_alike h, hahead, h.cfg]

theorem beginPower_power (c : Chip) (t : PowerState) (auto : Bool) :
    (c.beginPower t auto).dev.power.target = some t ∧ (c.beginPower t auto).dev.power.step = 1 ∧ (c.beginPower t auto).dev.power.auto = auto ∧
      (c.beginPower t auto).dev.power.since = 0 ∧ (c.beginPower t auto).dev.power.state = c.dev.power.state ∧
      (c.beginPower t auto).dev.power.idleRuns = false := by
  unfold Chip.beginPower
  dsimp only
  split
  · have h (d : Chip) := actuationOff_commands d
    refine ⟨(h _).field (fun d => d.power.target) fun _ _ _ _ _ _ _ _ _ => rfl, (h _).field (fun d => d.power.step) fun _ _ _ _ _ _ _ _ _ => rfl,
      (h _).field (fun d => d.power.auto) fun _ _ _ _ _ _ _ _ _ => rfl, (h _).field (fun d => d.power.since) fun _ _ _ _ _ _ _ _ _ => rfl,
      (h _).field (fun d => d.power.state) fun _ _ _ _ _ _ _ _ _ => rfl, (h _).field (fun d => d.power.idleRuns) fun _ _ _ _ _ _ _ _ _ => rfl⟩
  · exact ⟨rfl, rfl, rfl, rfl, rfl, rfl⟩

/-- A transition marked as begun. -/
def Chip.powerMarked (c : Chip) (t : PowerState) (auto : Bool) : Chip :=
  c.modDev (fun d => { d with power := { d.power with target := some t, step := 1, auto := auto, since := 0, idleRuns := false } })

theorem beginPower_of_run {c : Chip} (h : c.dev.power.state = .run) (t : PowerState) (auto : Bool) :
    c.beginPower t auto = (c.powerMarked t auto).actuationOff := if_pos h

theorem beginPower_of_not_run {c : Chip} (h : c.dev.power.state ≠ .run) (t : PowerState) (auto : Bool) :
    c.beginPower t auto = c.powerMarked t auto := if_neg h

theorem actuationOff_actuation (c : Chip) : c.actuationOff.dev.actuation = false := by
  cases h : c.dev.actuation
  · rw [actuationOff_of_disabled h, h]
  · exact (actuationOff_disabled h).actuation

theorem beginPower_pintle (c : Chip) (t : PowerState) (auto : Bool) : (c.beginPower t auto).pintle = c.pintle := by
  by_cases h : c.dev.power.state = .run
  · rw [beginPower_of_run h]
    exact (actuationOff_commands _).pintle
  · rw [beginPower_of_not_run h]
    rfl

theorem foldl_modLane_get (f : Lane → Lane) (ls : List LaneId) (hnodup : ls.Nodup) (k : LaneId) : ∀ c : Chip,
    (ls.foldl (fun c l => c.modLane l f) c).lanes.get k = if k ∈ ls then f (c.lanes.get k) else c.lanes.get k := by
  induction ls with
  | nil => exact fun _ => rfl
  | cons l ls ih =>
    intro c
    obtain ⟨hl, hnodup⟩ := List.nodup_cons.1 hnodup
    rw [List.foldl_cons, ih hnodup, modLane_lanes, tri_get_set]
    by_cases hk : k = l
    · subst hk
      simp [hl]
    · simp [hk]

theorem authLanes_nodup (c : Chip) : c.authLanes.Nodup := List.Nodup.filter _ (by decide)

/-- Settles O45: each operation passes its checks and has its effect, which for the disabling is what `Disabled` says. -/
theorem actuationAndPowerOperations : Obligations.ActuationAndPowerOperations := by
  intro s r c
  have hnone (hbody : r.body = []) (g : Chip) : checksNone r g = [] := by simp [checksNone, payloadFails, hbody]
  refine ⟨fun hadm hbody hcomm hlapse hlanes hholder hhold hsched hstep hpads hlpads hstate htarget => ?enable, fun hadm hbody =>
    ⟨fun hoff => ?idle, fun hon => ?disable⟩, fun hadm hlen hzero hcode htarget hsd => ?state, fun hadm hbody => ?pads,
    fun k hadm hbody h0 hlink hflag => ?wake⟩
  case enable =>
    have hchecks : ∀ g, Alike s g → checksActuationEnable r g.chip = [] := fun g halike => by
      have hpower : ∀ l, (g.chip.lane l).power = (s.chip.lane l).power := fun l => halike.lane l Lane.power fun _ _ => rfl
      have hlocked : g.chip.dev.locked = s.chip.dev.locked := halike.field Dev.locked fun _ _ => rfl
      have hst : g.chip.dev.power.state = s.chip.dev.power.state := halike.field (fun d => d.power.state) fun _ _ => rfl
      have htg : g.chip.dev.power.target = s.chip.dev.power.target := halike.field (fun d => d.power.target) fun _ _ => rfl
      have hany : s.chip.authLanes.any (fun l => (s.chip.lane l).power.pads) = false :=
        List.any_eq_false.2 fun l hl => Bool.eq_false_iff.1 (hlpads l (mem_authLanes.1 hl))
      have hholder' : s.chip.pintle.holder.isSome = true := Option.isSome_iff_ne_none.2 hholder
      have hcomm' : s.chip.commissioned = true := hcomm
      have hlapse' : s.chip.lapses = false := hlapse
      have hlanes' : s.chip.parN Par.laneStartMin ≤ s.chip.authLanes.length := hlanes
      have hhold' : s.chip.pintle.holding = false := hhold
      have hpads' : s.chip.pintle.pads = false := hpads
      have hstep' : s.chip.dev.snow.step ≠ 4 := hstep
      have hstate' : s.chip.dev.power.state = .run := hstate
      have htarget' : s.chip.dev.power.target = none := htarget
      have hsched' : s.chip.dev.cfg.sched = [] ∨ s.chip.dev.locked = true := hsched
      simp only [checksActuationEnable, payloadFails, hbody, commissioned_alike halike, lapses_alike halike, halike.parN, halike.authLanes, halike.pintle,
        halike.cfg, snow_alike halike, hpower, hlocked, hst, htg, hany, hcomm', hlapse', hlanes', hholder', hhold', hpads', hstep', hstate', htarget']
      simpa using fun h => hsched'.resolve_left h
    obtain ⟨t, hexec, -, hplain⟩ := exec_modDev (i := .actuationEnable r) rfl hadm (fun d => { d with actuation := true }) (fun _ _ => rfl)
      hchecks fun g _ => rfl
    exact ⟨t, hexec, hplain⟩
  case idle =>
    obtain ⟨g, halike, -, hexec⟩ := exec_of_admits (i := .actuationDisable r) rfl hadm
    have hoff' : g.chip.dev.actuation = false := (halike.field Dev.actuation fun _ _ => rfl).trans hoff
    have heffect : effectActuationDisable r g = OpOut.same g := opOut_chip_congr (g := id) (actuationOff_of_disabled hoff')
    refine ⟨_, hexec (hnone hbody g.chip), (finish_plain ..).trans ?_⟩
    rw [show (_ : OpRow).effect r g = OpOut.same g from heffect]
    exact halike.plain
  case disable =>
    obtain ⟨g, halike, -, hexec⟩ := exec_of_admits (i := .actuationDisable r) rfl hadm
    have hon' : g.chip.dev.actuation = true := (halike.field Dev.actuation fun _ _ => rfl).trans hon
    have hfinish := alike_finish attrActuationDisable r (effectActuationDisable r g)
    have hcommands := actuationOff_commands g.chip
    obtain ⟨hact, hso, hlaunches, hsteppers, hbridges, hloops⟩ := (actuationOff_disabled hon').congr halike.cfg.symm (loops_alike halike).symm hfinish.dev
    refine ⟨_, hexec (hnone hbody g.chip), (finish_mem ..).trans halike.mem, hfinish.pintle.trans (hcommands.pintle.trans halike.pintle),
      hfinish.bridges.trans (hcommands.bridges.trans halike.bridges), ?_, fun l => ?_, hact, hso, hlaunches, hsteppers,
      fun k hk hused _ => hbridges k hk hused, hloops⟩
    · exact hfinish.cfg.trans ((hcommands.field Dev.cfg fun _ _ _ _ _ _ _ _ _ => rfl).trans halike.cfg)
    · exact (hfinish.lane l Lane.plain fun _ _ => rfl).trans ((hcommands.lanes.lane l Lane.plain fun _ _ => rfl).trans (halike.lane l Lane.plain fun _ _ => rfl))
  case state =>
    obtain ⟨g, halike, -, hexec⟩ := exec_of_admits (i := .stateSet r) rfl hadm
    have hst : g.chip.dev.power.state = s.chip.dev.power.state := halike.field (fun d => d.power.state) fun _ _ => rfl
    have hchecks : checksStateSet r g.chip = [] := by
      have htg : g.chip.dev.power.target = none := (halike.field (fun d => d.power.target) fun _ _ => rfl).trans htarget
      have hsd' : g.chip.dev.standdown = none := (halike.field Dev.standdown fun _ _ => rfl).trans hsd
      rw [checksStateSet, quadFails, if_pos ⟨hlen, hzero⟩, if_neg (by omega), powerFails, htg, hsd']
      rfl
    have hfinish := alike_finish attrStateSet r (effectStateSet r g)
    refine ⟨fun heq => ?_, fun hne => ?_⟩
    · have heffect : effectStateSet r g = OpOut.same g := if_pos (hst.trans heq.symm)
      refine ⟨_, hexec hchecks, (finish_plain ..).trans ?_⟩
      rw [show (_ : OpRow).effect r g = OpOut.same g from heffect]
      exact halike.plain
    · have heffect : (effectStateSet r g).st = g.onChip (fun c => (c.beginPower (PowerState.ofCode (fld r.body 0 1)) false).addPend 0x3210 r {}) :=
        congrArg OpOut.st (if_neg (by rw [hst]; exact fun h => hne h.symm))
      have hnoted := noted_addPend (g.chip.beginPower (PowerState.ofCode (fld r.body 0 1)) false) 0x3210 r {}
      have hpend := addPend_pend (g.chip.beginPower (PowerState.ofCode (fld r.body 0 1)) false) 0x3210 r {}
      obtain ⟨htg, hstep, hauto, hsince, hstate, -⟩ := beginPower_power g.chip (PowerState.ofCode (fld r.body 0 1)) false
      rw [heffect] at hfinish
      have hfield {α : Type} (p : Dev → α) (hp : ∀ x a : Dev, p (x.withAccounts a) = p x) (hp' : ∀ (x a : Dev) pend, p { x.withAccounts a with pend := pend } = p x) :=
        (hfinish.field p hp).trans (hnoted.field p hp')
      refine ⟨_, hexec hchecks, (finish_mem ..).trans ((congrArg State.mem heffect).trans halike.mem),
        hfinish.pintle.trans (hnoted.pintle.trans ((beginPower_pintle ..).trans halike.pintle)),
        (hfield (fun d => d.power.target) (fun _ _ => rfl) fun _ _ _ => rfl).trans htg,
        (hfield (fun d => d.power.step) (fun _ _ => rfl) fun _ _ _ => rfl).trans hstep,
        (hfield (fun d => d.power.auto) (fun _ _ => rfl) fun _ _ _ => rfl).trans hauto,
        (hfield (fun d => d.power.since) (fun _ _ => rfl) fun _ _ _ => rfl).trans hsince,
        (hfield (fun d => d.power.state) (fun _ _ => rfl) fun _ _ _ => rfl).trans (hstate.trans hst),
        ⟨pendOf 0x3210 r {}, ?_, rfl, rfl, rfl⟩, fun hrun => ?_, fun hrun => ?_⟩
      · rw [hfinish.field Dev.pend fun _ _ => rfl, onChip_chip, hpend]
        exact List.mem_append_right _ (List.mem_singleton_self _)
      · refine (hfield Dev.actuation (fun _ _ => rfl) fun _ _ _ => rfl).trans ?_
        rw [beginPower_of_run (hst.trans hrun)]
        exact actuationOff_actuation _
      · have hmarked := beginPower_of_not_run (hst.symm ▸ hrun : g.chip.dev.power.state ≠ .run) (PowerState.ofCode (fld r.body 0 1)) false
        refine ⟨(hfield Dev.actuation (fun _ _ => rfl) fun _ _ _ => rfl).trans ?_, (hfield Dev.steppers (fun _ _ => rfl) fun _ _ _ => rfl).trans ?_⟩
        · rw [hmarked]
          exact halike.field Dev.actuation fun _ _ => rfl
        · rw [hmarked]
          exact steppers_alike halike
  case pads =>
    obtain ⟨g, halike, -, hexec⟩ := exec_of_admits (i := .padsRelease r) rfl hadm
    have hfinish := alike_finish attrPadsRelease r (effectPadsRelease r g)
    have hfold {α : Type} (p : Chip → α) (h : ∀ (c : Chip) l f, p (c.modLane l f) = p c) := foldl_keeps p
      (fun (c : Chip) l => c.modLane l (fun n => { n with power := { n.power with pads := false } })) (fun c l => h c l _) g.chip.authLanes g.chip
    refine ⟨_, hexec (hnone hbody g.chip), (finish_mem ..).trans halike.mem, ?_, ?_, fun l => ?_⟩
    · exact (hfinish.field Dev.plain fun _ _ => rfl).trans
        ((congrArg Dev.plain (hfold Chip.dev fun _ _ _ => rfl)).trans (halike.field Dev.plain fun _ _ => rfl))
    · refine hfinish.pintle.trans ?_
      refine (congrArg (fun p : Pintle => { p with pads := false }) (hfold Chip.pintle fun _ _ _ => rfl)).trans ?_
      rw [halike.pintle]
    · refine (hfinish.lane l Lane.plain fun _ _ => rfl).trans ?_
      have hlane := foldl_modLane_get (fun n => { n with power := { n.power with pads := false } }) g.chip.authLanes (authLanes_nodup _) l g.chip
      refine (congrArg Lane.plain hlane).trans ?_
      simp only [mem_authLanes, halike.inAuth]
      rw [halike.lanes l, lane_eq]
      split <;> rfl
  case wake =>
    obtain ⟨g, halike, hreplies, hexec⟩ := exec_of_admits (i := .wakeSourceRead r) rfl hadm
    refine ⟨_, _, hexec (hnone hbody g.chip), (finish_plain ..).trans halike.plain, (finish_link hlink h0 hflag rfl).trans (congrArg (· ++ _) hreplies), rfl, ?_⟩
    exact congrArg (fun f => r.lanes.flatMap f) (funext fun l => halike.lane l (fun n => n.power.record.quad) fun _ _ => rfl)

end Sys2Proof.Machine

namespace Sys2Proof.Machine
open Sys2Proof

/-! ### Changes of one lane's own -/

/-- Every other lane of the second chip is that of the first. -/
def ElseSame (l : LaneId) (c d : Chip) : Prop := ∀ k, k ≠ l → d.lanes.get k = c.lanes.get k

theorem ElseSame.refl (l : LaneId) (c : Chip) : ElseSame l c c := fun _ _ => rfl

theorem ElseSame.trans {l : LaneId} {c d e : Chip} (h : ElseSame l c d) (h' : ElseSame l d e) : ElseSame l c e :=
  fun k hk => (h' k hk).trans (h k hk)

theorem elseSame_of_eq {l : LaneId} {c d : Chip} (h : d.lanes = c.lanes) : ElseSame l c d := fun k _ => by rw [h]

theorem elseSame_modLane (c : Chip) (l : LaneId) (f : Lane → Lane) : ElseSame l c (c.modLane l f) := fun k hk => by
  rw [modLane_lanes, tri_get_set_ne _ _ _ _ hk]

theorem elseSame_recordIn (c : Chip) (l : LaneId) (r : FaultRec) : ElseSame l c (c.recordIn l r) := by
  have h := elseSame_modLane c l (fun n => { n with fault := ((c.lane l).fault.take r).1 })
  unfold Chip.recordIn
  dsimp only
  split
  · exact h.trans (elseSame_modLane _ l _)
  · exact h

theorem elseSame_localFault (c : Chip) (l : LaneId) (code t i lane : Nat) : ElseSame l c (c.localFault l code t i lane) := elseSame_recordIn _ l _

theorem clearLinks_field (c : Chip) (l : LaneId) {α : Type} (p : Chip → α) (hp : ∀ (c : Chip) k f, p (c.modLink k f) = p c) :
    p (c.clearLinks l) = p c := foldl_keeps p (fun (c : Chip) k => c.modLink (linkIdx l k) (fun k => { k with out := {}, back := {} })) (fun _ _ => hp ..) _ c

theorem laneInert_field (c : Chip) (l : LaneId) {α : Type} (p : Chip → α) (hlink : ∀ (c : Chip) k f, p (c.modLink k f) = p c)
    (hlane : ∀ (c : Chip) f, p (c.modLane l f) = p c) : p (c.laneInert l) = p c := (hlane _ _).trans (clearLinks_field c l p hlink)

theorem elseSame_laneInert (c : Chip) (l : LaneId) : ElseSame l c (c.laneInert l) :=
  (elseSame_of_eq (clearLinks_field c l Chip.lanes fun _ _ _ => modLink_lanes ..)).trans (elseSame_modLane _ l _)

/-- A lane that is not the last in authority fences itself: no other lane changes, and nothing that the lanes agree on but for accounts (R10, R432). -/
theorem selfFence_else {c : Chip} {l : LaneId} (h : c.authLanes ≠ [l]) (code t i : Nat) : ElseSame l c (c.selfFence l code t i) ∧
    (c.selfFence l code t i).dev = (c.localFault l code t i l.idx).dev ∧ (c.selfFence l code t i).bridges = c.bridges ∧
    (c.selfFence l code t i).pintle = c.pintle := by
  have hdev : ((c.localFault l code t i l.idx).laneInert l).dev = (c.localFault l code t i l.idx).dev :=
    laneInert_field _ l Chip.dev (fun _ _ _ => modLink_dev ..) fun _ _ => rfl
  have hbridges : ((c.localFault l code t i l.idx).laneInert l).bridges = c.bridges :=
    (laneInert_field _ l Chip.bridges (fun _ _ _ => modLink_bridges ..) fun _ _ => rfl).trans (localFault_bridges ..)
  have hpintle : ((c.localFault l code t i l.idx).laneInert l).pintle = c.pintle :=
    (laneInert_field _ l Chip.pintle (fun _ _ _ => modLink_pintle ..) fun _ _ => rfl).trans (localFault_pintle ..)
  have hlanes := ((elseSame_localFault c l code t i l.idx).trans (elseSame_laneInert _ l)).trans (elseSame_modLane _ l (fun n => { n with
    boot := { n.boot with fenced := true, halted := true, fenceCode := code, fenceNet := decide (t = 0x0B ∨ t = 0x0C) } }))
  have htraffic := sendLinks_traffic l l.partners .vectors 1 (((c.localFault l code t i l.idx).laneInert l).modLane l (fun n => { n with
    boot := { n.boot with fenced := true, halted := true, fenceCode := code, fenceNet := decide (t = 0x0B ∨ t = 0x0C) } }))
  have hauth : ((((c.localFault l code t i l.idx).laneInert l).modLane l (fun n => { n with
      boot := { n.boot with fenced := true, halted := true, fenceCode := code, fenceNet := decide (t = 0x0B ∨ t = 0x0C) } })).sendLinks l l.partners .vectors 1).authLanes =
      c.authLanes := by
    have : (c.localFault l code t i l.idx).dev.authority = c.dev.authority := by rw [(localFault_only ..).dev]
    rw [Chip.authLanes, Chip.authLanes, htraffic.dev, modLane_dev, hdev, this]
  unfold Chip.selfFence
  dsimp only
  rw [if_neg (by rw [hauth]; exact h)]
  exact ⟨hlanes.trans (elseSame_of_eq htraffic.lanes), htraffic.dev.trans hdev, htraffic.bridges.trans hbridges, htraffic.pintle.trans hpintle⟩

/-! ### Per-lane folds over the lanes in authority -/

theorem foldl_untouched {α : Type} (f : Chip → LaneId → Chip) (p : Chip → LaneId → α) (hne : ∀ c l k, k ≠ l → p (f c l) k = p c k) {k : LaneId}
    (ls : List LaneId) : ∀ c : Chip, k ∉ ls → p (ls.foldl f c) k = p c k := by
  induction ls with
  | nil => exact fun _ _ => rfl
  | cons l ls ih =>
    intro c hk
    rw [List.mem_cons, not_or] at hk
    exact (ih _ hk.2).trans (hne c l k hk.1)

theorem foldl_touched {α : Type} (f : Chip → LaneId → Chip) (p : Chip → LaneId → α) (F : α → α) (hself : ∀ c l, p (f c l) l = F (p c l))
    (hne : ∀ c l k, k ≠ l → p (f c l) k = p c k) {k : LaneId} (ls : List LaneId) (hnodup : ls.Nodup) : ∀ c : Chip, k ∈ ls →
    p (ls.foldl f c) k = F (p c k) := by
  induction ls with
  | nil => exact fun _ h => absurd h List.not_mem_nil
  | cons l ls ih =>
    intro c hk
    obtain ⟨hl, hnodup⟩ := List.nodup_cons.1 hnodup
    rcases List.mem_cons.1 hk with rfl | hk
    · exact (foldl_untouched f p hne ls _ hl).trans (hself c k)
    · exact (ih hnodup _ hk).trans (congrArg F (hne c l k fun h => hl (h ▸ hk)))

/-! ### M (R469, R477, R481) -/

theorem handOver_eq (c : Chip) (l : LaneId) : ∃ bs : Tri Bridge, (∀ k, k ≠ l → bs.get k = c.bridges.get k) ∧
    c.handOver l = ({ c with bridges := bs } : Chip).modLane l (fun n => { n with txq := [] }) := by
  have hfold (ps : List OutPacket) : ∀ d : Chip, ∃ bs : Tri Bridge, (∀ k, k ≠ l → bs.get k = d.bridges.get k) ∧
      ps.foldl (fun (c : Chip) p => if p.kept then c.queuePacket l p else c.modBridge l (fun b => queueEvent (b.queue.length + 1) b p)) d = { d with bridges := bs } := by
    induction ps with
    | nil => exact fun d => ⟨d.bridges, fun _ _ => rfl, rfl⟩
    | cons p ps ih =>
      intro d
      have hstep : ∃ f, (if p.kept then d.queuePacket l p else d.modBridge l (fun b => queueEvent (b.queue.length + 1) b p)) = d.modBridge l f := by
        split
        · exact ⟨_, rfl⟩
        · exact ⟨_, rfl⟩
      obtain ⟨f, hf⟩ := hstep
      obtain ⟨bs, hne, heq⟩ := ih (d.modBridge l f)
      exact ⟨bs, fun k hk => (hne k hk).trans (tri_get_set_ne _ _ _ _ hk), by rw [List.foldl_cons, hf, heq]; rfl⟩
  obtain ⟨bs, hne, heq⟩ := hfold ((c.lane l).txq ++ (c.dev.replies.filter (fun e => e.1 == l)).map (·.2)) c
  exact ⟨bs, hne, congrArg (fun d : Chip => d.modLane l (fun n => { n with txq := [] })) heq⟩

/-- A lane of authority past the point of no return, and its bridge (R477). -/
def Chip.downLane (glide keep : Bool) (c : Chip) (l : LaneId) : Chip :=
  (c.modLane l (fun n => n.powerDown glide keep)).modBridge l (fun b => { b with closing := true })

/-- The lanes in authority handed over and powered down (R469, R477). -/
def Chip.lanesDown (c : Chip) (glide keep : Bool) : Chip := c.authLanes.foldl (Chip.downLane glide keep) (c.authLanes.foldl Chip.handOver c)

theorem handOver_lane (c : Chip) (l k : LaneId) : (c.handOver l).lanes.get k = if k = l then { c.lanes.get l with txq := [] } else c.lanes.get k := by
  obtain ⟨bs, -, heq⟩ := handOver_eq c l
  rw [heq, modLane_lanes, tri_get_set]

theorem handOver_bridge_ne (c : Chip) (l k : LaneId) (h : k ≠ l) : (c.handOver l).bridges.get k = c.bridges.get k := by
  obtain ⟨bs, hne, heq⟩ := handOver_eq c l
  rw [heq]
  exact hne k h

theorem handOver_field (c : Chip) (l : LaneId) : (c.handOver l).pintle = c.pintle ∧ (c.handOver l).dev = c.dev := by
  obtain ⟨bs, -, heq⟩ := handOver_eq c l
  rw [heq]
  exact ⟨rfl, rfl⟩

theorem downLane_lane_ne (glide keep : Bool) (c : Chip) (l k : LaneId) (h : k ≠ l) : (c.downLane glide keep l).lanes.get k = c.lanes.get k := by
  rw [Chip.downLane, modBridge_lanes, modLane_lanes, tri_get_set_ne _ _ _ _ h]

theorem downLane_bridge_ne (glide keep : Bool) (c : Chip) (l k : LaneId) (h : k ≠ l) : (c.downLane glide keep l).bridges.get k = c.bridges.get k := by
  rw [Chip.downLane, modBridge_bridges, tri_get_set_ne _ _ _ _ h, modLane_bridges]

theorem lanesDown_lane_out {c : Chip} {k : LaneId} (h : c.inAuth k = false) (glide keep : Bool) :
    (c.lanesDown glide keep).lanes.get k = c.lanes.get k ∧ (c.lanesDown glide keep).bridges.get k = c.bridges.get k := by
  have hk : k ∉ c.authLanes := fun hk => by rw [mem_authLanes, h] at hk; cases hk
  constructor
  · exact (foldl_untouched _ (fun c k => c.lanes.get k) (downLane_lane_ne glide keep) _ _ hk).trans
      (foldl_untouched _ (fun c k => c.lanes.get k) (fun c l k hk => (handOver_lane c l k).trans (if_neg hk)) _ _ hk)
  · exact (foldl_untouched _ (fun c k => c.bridges.get k) (downLane_bridge_ne glide keep) _ _ hk).trans
      (foldl_untouched _ (fun c k => c.bridges.get k) handOver_bridge_ne _ _ hk)

theorem lanesDown_lane_in {c : Chip} {k : LaneId} (h : c.inAuth k = true) (glide keep : Bool) :
    (c.lanesDown glide keep).lanes.get k = Lane.powerDown { c.lanes.get k with txq := [] } glide keep ∧
      ((c.lanesDown glide keep).bridges.get k).closing = true := by
  have hk := mem_authLanes.2 h
  constructor
  · refine (foldl_touched _ (fun c k => c.lanes.get k) (fun n => n.powerDown glide keep) (fun c l => ?_) (downLane_lane_ne glide keep) _
      (authLanes_nodup c) _ hk).trans (congrArg (fun n : Lane => n.powerDown glide keep) (foldl_touched _ (fun c k => c.lanes.get k) (fun n => { n with txq := [] })
        (fun c l => (handOver_lane c l l).trans (if_pos rfl)) (fun c l k hk => (handOver_lane c l k).trans (if_neg hk)) _ (authLanes_nodup c) c hk))
    rw [Chip.downLane, modBridge_lanes, modLane_lanes, tri_get_set_same]
  · refine congrArg Bridge.closing (foldl_touched _ (fun c k => c.bridges.get k) (fun b => { b with closing := true }) (fun c l => ?_)
      (downLane_bridge_ne glide keep) _ (authLanes_nodup c) _ hk)
    rw [Chip.downLane, modBridge_bridges, tri_get_set_same, modLane_bridges]

theorem lanesDown_field (c : Chip) (glide keep : Bool) : (c.lanesDown glide keep).pintle = c.pintle ∧ (c.lanesDown glide keep).dev = c.dev :=
  ⟨(foldl_keeps Chip.pintle (Chip.downLane glide keep) (fun _ _ => rfl) _ _).trans (foldl_keeps Chip.pintle Chip.handOver (fun c l => (handOver_field c l).1) _ c),
    (foldl_keeps Chip.dev (Chip.downLane glide keep) (fun _ _ => rfl) _ _).trans (foldl_keeps Chip.dev Chip.handOver (fun c l => (handOver_field c l).2) _ c)⟩

/-- The agreed data past the point of no return into a state (R469, R477). -/
def Dev.downTo (d : Dev) (t : PowerState) : Dev :=
  let e : Dev := { d with
    power := { d.power with state := t, left := d.power.state, step := 3 }
    aset := 0, sampled := 0, computed := false, replies := [], pdus := [], openPdus := [], locked := false }
  if t = .glide then e else e.asleep

theorem pointOfNoReturn_eq {c : Chip} {t : PowerState} (htarget : c.dev.power.target = some t) (hstops : t.stops = true) (hstep : c.dev.power.step = 2) :
    pointOfNoReturn c = ((c.lanesDown (decide (t = .glide)) (decide (c.par Par.pwrNetKeep = 1) && decide (t ≠ .off))).modPintle
      (fun p => { p with pads := true, drive := false })).modDev (fun d => d.downTo t) := by
  unfold pointOfNoReturn Dev.downTo
  rw [htarget]
  dsimp only
  rw [if_neg (by simp [hstep, hstops])]
  split <;> rfl

theorem downTo_power (d : Dev) (t : PowerState) : (d.downTo t).power.state = t ∧ (d.downTo t).power.left = d.power.state ∧ (d.downTo t).power.step = 3 ∧
    (d.downTo t).replies = [] := by
  unfold Dev.downTo
  split <;> exact ⟨rfl, rfl, rfl, rfl⟩

/-! ### A lane that wakes (R480, R483, R484) -/

/-- The record of a wake of a lane (R484). -/
def Chip.wakeRecord (c : Chip) (l : LaneId) (src inst : Nat) : WakeRecord :=
  { src := src, inst := inst, left := c.dev.power.state.code, entered := c.parN Par.pwrWakeState, cycles := (c.lane l).power.cycles
    time := c.draw.1 % 2 ^ 64 }

/-- A lane whose latched wake has begun: in GLIDE it waits for its domains, and else it boots (R480, R483). -/
def State.begunWake (s : State) (l : LaneId) (src inst : Nat) : State :=
  let glide := decide (s.chip.dev.power.state = .glide)
  let s' : State := { s with chip := s.chip.draw.2.modLane l (fun n => { n with
    power := { n.power with wake := none, waking := glide, record := s.chip.wakeRecord l src inst } }) }
  (if glide then s' else s'.rebootLane l).onChip (fun c => c.modBridge l (fun b => { b with hlinkOn := true, waking := true, silent := true, closing := false }))

theorem wakeLane_of_none {s : State} {l : LaneId} (h : (s.chip.lane l).power.wake = none) : s.wakeLane l = s := by
  unfold State.wakeLane
  rw [h]

theorem wakeLane_of_target {s : State} (l : LaneId) (h : s.chip.dev.power.target ≠ none) : s.wakeLane l = s := by
  unfold State.wakeLane
  split
  · rfl
  · exact if_pos (by simp [Option.isSome_iff_ne_none.2 h])

theorem wakeLane_begins {s : State} {l : LaneId} {src inst : Nat} (hwake : (s.chip.lane l).power.wake = some (src, inst))
    (hoff : s.chip.laneOff l = true) (htarget : s.chip.dev.power.target = none) (hwaking : (s.chip.lane l).power.waking = false) :
    s.wakeLane l = s.begunWake l src inst := by
  unfold State.wakeLane
  rw [hwake]
  dsimp only
  rw [if_neg (by rw [hoff, htarget, hwaking]; decide)]
  rfl

theorem wakeLane_cases (s : State) (l : LaneId) : s.wakeLane l = s ∨ ∃ src inst, s.wakeLane l = s.begunWake l src inst := by
  cases hwake : (s.chip.lane l).power.wake with
  | none => exact .inl (wakeLane_of_none hwake)
  | some w =>
    obtain ⟨src, inst⟩ := w
    by_cases h : (!s.chip.laneOff l || s.chip.dev.power.target.isSome || (s.chip.lane l).power.waking) = true
    · refine .inl ?_
      unfold State.wakeLane
      rw [hwake]
      exact if_pos h
    · simp only [Bool.or_eq_true, not_or, Bool.not_eq_true, Bool.not_eq_false', Option.isSome_eq_false_iff, Option.isNone_iff_eq_none] at h
      exact .inr ⟨src, inst, wakeLane_begins hwake h.1.1 h.1.2 h.2⟩

/-- What a wake that begins leaves: the other lanes, their memories and the Pintle die as they were, and the bridge on. -/
theorem begunWake_else (s : State) (l : LaneId) (src inst : Nat) :
    ElseSame l s.chip (s.begunWake l src inst).chip ∧ (∀ k, k ≠ l → (s.begunWake l src inst).mem.get k = s.mem.get k) ∧
      (s.begunWake l src inst).chip.pintle = s.chip.pintle ∧ (∀ k, k ≠ l → (s.begunWake l src inst).chip.bridges.get k = s.chip.bridges.get k) ∧
      ((s.begunWake l src inst).chip.bridges.get l).hlinkOn = true ∧ ((s.begunWake l src inst).chip.bridges.get l).waking = true ∧
      ((s.begunWake l src inst).chip.bridges.get l).closing = false := by
  unfold State.begunWake
  dsimp only
  split
  · refine ⟨fun k hk => ?_, fun k hk => rfl, rfl, fun k hk => ?_, ?_, ?_, ?_⟩ <;> simp only [onChip_chip, modBridge_bridges, modBridge_lanes, modLane_lanes]
    · exact tri_get_set_ne _ _ _ _ hk
    · exact tri_get_set_ne _ _ _ _ hk
    all_goals rw [tri_get_set_same]
  · refine ⟨fun k hk => ?_, fun k hk => ?_, ?_, fun k hk => ?_, ?_, ?_, ?_⟩ <;>
      simp only [onChip_chip, onChip_mem, modBridge_bridges, modBridge_lanes, modBridge_pintle, rebootLane_lanes, rebootLane_mem, rebootLane_pintle, modLane_lanes]
    · rw [tri_get_set_ne _ _ _ _ hk, tri_get_set_ne _ _ _ _ hk]
      rfl
    · exact tri_get_set_ne _ _ _ _ hk
    · rfl
    · rw [tri_get_set_ne _ _ _ _ hk, rebootLane_bridge_ne _ hk]
      rfl
    all_goals rw [tri_get_set_same]

theorem wakeLane_closing (s : State) (l k : LaneId) (h : (s.chip.bridges.get k).closing = false) :
    ((s.wakeLane l).chip.bridges.get k).closing = false := by
  rcases wakeLane_cases s l with heq | ⟨src, inst, heq⟩
  · rw [heq]
    exact h
  · rw [heq]
    obtain ⟨-, -, -, hne, -, -, hself⟩ := begunWake_else s l src inst
    by_cases hk : k = l
    · subst hk
      exact hself
    · rw [hne k hk]
      exact h

/-! ### Power transitions (R469, R470, R475 to R478) -/

theorem dueTests_field (c : Chip) (ls : List LaneId) (b : Bool) {α : Type} (p : Chip → α) (hp : ∀ (c : Chip) l t f, p (c.modTarget l t f) = p c) :
    p (c.dueTests ls b) = p c := by
  have hlanes : p (ls.foldl (fun (c : Chip) l => [0, 1].foldl (fun (c : Chip) t => c.modTarget l t (fun x => { x with due := true })) c) c) = p c :=
    foldl_keeps p _ (fun c l => foldl_keeps p (fun (c : Chip) t => c.modTarget l t (fun x => { x with due := true })) (fun _ _ => hp ..) [0, 1] c) ls c
  unfold Chip.dueTests
  dsimp only
  split
  · exact (foldl_keeps p (fun (c : Chip) k => c.modTarget .a (k + 2) (fun x => { x with due := true })) (fun _ _ => hp ..) _ _).trans hlanes
  · exact hlanes

theorem idleTimerExpiry_of_free {c : Chip} (hidle : c.dev.power.idleRuns = true) (htarget : c.dev.power.target = none) (hsd : c.dev.standdown = none)
    (hparked : c.isParked = true) (hstep : c.dev.snow.step = 0) (hclass : c.classNow ≤ 2)
    (hstate : c.dev.power.state ≠ PowerState.ofCode (c.parN Par.pwrAutoState)) :
    idleTimerExpiry c = (c.agreedFault 0x3204 0 0 0xFF).beginPower (PowerState.ofCode (c.parN Par.pwrAutoState)) true := by
  have hfails : powerFails c = [] := by
    rw [powerFails, htarget, hsd]
    rfl
  unfold idleTimerExpiry
  dsimp only
  rw [hidle, if_neg (by decide), if_neg]
  rintro (h | h | h | h | h)
  · exact h hfails
  · rw [hparked] at h
    cases h
  · omega
  · omega
  · exact hstate h

/-- RUN entered: the present state becomes the one left, and the one waiting request has its reply (R475). -/
def Chip.runEntered (c : Chip) : Chip :=
  (c.modDev (fun d => { d with power := { d.power with state := .run, left := d.power.state } })).powerReply stOk

theorem driveDomainsGood_of_run {c : Chip} (h : c.dev.power.target = some .run ∧ c.dev.power.step = 2) :
    driveDomainsGood c = c.runEntered.endPower.dueTests c.authLanes true := if_pos h

theorem foldl_wakeLane_of_none {s : State} (h : ∀ k, (s.chip.lane k).power.wake = none) : LaneId.all.foldl State.wakeLane s = s := by
  show ((s.wakeLane .a).wakeLane .b).wakeLane .c = s
  rw [wakeLane_of_none (h .a), wakeLane_of_none (h .b), wakeLane_of_none (h .c)]

theorem foldl_wakeLane_closing {s : State} {k : LaneId} (h : (s.chip.bridges.get k).closing = false) :
    ((LaneId.all.foldl State.wakeLane s).chip.bridges.get k).closing = false :=
  wakeLane_closing _ _ _ (wakeLane_closing _ _ _ (wakeLane_closing s .a k h))

/-- The host link of a lane gone off (R477). -/
def Chip.linkGone (c : Chip) (l : LaneId) : Chip :=
  c.modBridge l (fun b => { b with hlinkOn := false, queue := [], rx := [], closing := false, silent := true })

theorem hlinkOff_of_entry {s : State} {l : LaneId} (hstep : s.chip.dev.power.step = 3) (hoff : s.chip.laneOff l = true) :
    hlinkOff l s = if LaneId.all.any (fun k => s.chip.laneOff k && ((s.chip.linkGone l).bridges.get k).hlinkOn) then s.onChip (fun c => c.linkGone l)
      else LaneId.all.foldl State.wakeLane ((s.onChip (fun c => c.linkGone l)).onChip Chip.endPower) := by
  unfold hlinkOff
  rw [if_neg (by simp [hstep, hoff])]
  rfl

/-- Settles O46: each event is its equation: the transition begun or ended, the lanes powered down, the links off, the lane fenced. -/
theorem powerTransitions : Obligations.PowerTransitions := by
  intro s c
  refine ⟨fun hidle => ?idle, fun hidle htarget hsd hparked hstep hclass hstate => ?auto, fun h => ?noRun,
    fun p k htarget hstep hpend hop hlink hsup => ?run, fun h => ?noReturn, fun p htarget hstops hstep => ?down,
    fun l => ⟨fun h => ?noLink, fun hstep hoff => ?link, fun htarget hwaking => ?noDomain, fun htarget hstep hauth hlast hstate => ?domain⟩⟩
  case idle =>
    refine next_congr (congrArg (fun c => ({ s with chip := c } : State)) (?_ : idleTimerExpiry s.chip = s.chip))
    exact if_pos (by rw [show s.chip.dev.power.idleRuns = false from hidle]; rfl)
  case auto =>
    have hexec : exec .idleTimerExpiry s = .next (s.onChip idleTimerExpiry) := rfl
    have heq := idleTimerExpiry_of_free hidle htarget hsd hparked hstep hclass hstate
    obtain ⟨htg, hst, hauto, -, -, hruns⟩ := beginPower_power (c.agreedFault 0x3204 0 0 0xFF) (PowerState.ofCode (c.parN Par.pwrAutoState)) true
    refine ⟨_, hexec, rfl, ?_, ?_, ?_, ?_, ?_, fun hrun => ?_⟩ <;> rw [onChip_chip, heq]
    · exact (beginPower_pintle ..).trans (agreedFault_only ..).pintle
    · exact hruns
    · exact htg
    · exact hauto
    · exact hst
    · have hrun' : (c.agreedFault 0x3204 0 0 0xFF).dev.power.state = .run := by
        rw [(agreedFault_only ..).dev]
        exact hrun
      rw [beginPower_of_run hrun']
      exact actuationOff_actuation _
  case noRun =>
    refine next_congr (congrArg (fun c => ({ s with chip := c } : State)) (?_ : driveDomainsGood s.chip = s.chip))
    exact if_neg fun h' => h.elim (fun h => h h'.1) (fun h => h h'.2)
  case run =>
    have hexec : exec .driveDomainsGood s = .next (s.onChip driveDomainsGood) := rfl
    have heq := driveDomainsGood_of_run ⟨htarget, hstep⟩
    have hdue {α : Type} (p : Dev → α) : p (driveDomainsGood c).dev = p c.runEntered.endPower.dev := by
      rw [heq]
      exact dueTests_field _ _ _ (fun c => p c.dev) fun _ _ _ _ => congrArg p (modTarget_dev ..)
    have hnoted := noted_finishAll (c.modDev (fun d => { d with power := { d.power with state := .run, left := d.power.state } }))
      (fun p => p.opcode == 0x3210) stOk []
    obtain ⟨q, hreplies, hpend', -, hstatus, hpayload⟩ := finishAll_link (c := c.modDev (fun d => { d with
      power := { d.power with state := .run, left := d.power.state } })) (p := p) (l := k) hpend hlink hsup
      (test := fun p => p.opcode == 0x3210) (by simp [hop]) stOk []
    refine ⟨_, q, hexec, rfl, (hdue fun d => d.power.state).trans (hnoted.field (fun d => d.power.state) fun _ _ _ => rfl),
      (hdue fun d => d.power.left).trans (hnoted.field (fun d => d.power.left) fun _ _ _ => rfl), (hdue fun d => d.power.target).trans rfl,
      (hdue Dev.pend).trans hpend', (hdue Dev.replies).trans hreplies, hstatus, hpayload⟩
  case noReturn =>
    refine next_congr (congrArg (fun c => ({ s with chip := c } : State)) (?_ : pointOfNoReturn s.chip = s.chip))
    unfold pointOfNoReturn
    split
    · rfl
    · rename_i t ht
      refine if_pos ?_
      rcases h with h | h | h | h
      · exact absurd (ht.symm.trans h) (Option.some_ne_none t)
      · exact .inl h
      · rw [Option.some.inj (ht.symm.trans h)]
        exact .inr rfl
      · rw [Option.some.inj (ht.symm.trans h)]
        exact .inr rfl
  case down =>
    have hexec : exec .pointOfNoReturn s = .next (s.onChip pointOfNoReturn) := rfl
    have heq := pointOfNoReturn_eq htarget hstops hstep
    obtain ⟨hpintle, hdev⟩ := lanesDown_field c (decide (p = .glide)) (decide (c.par Par.pwrNetKeep = 1) && decide (p ≠ .off))
    obtain ⟨hstate, hleft, hstep', hreplies⟩ := downTo_power c.dev p
    have hdev' : (pointOfNoReturn c).dev = c.dev.downTo p := by
      rw [heq, modDev_dev, modPintle_dev, hdev]
    have hlanes : (pointOfNoReturn c).lanes = (c.lanesDown (decide (p = .glide)) (decide (c.par Par.pwrNetKeep = 1) && decide (p ≠ .off))).lanes := by
      rw [heq, modDev_lanes, modPintle_lanes]
    have hbridges : (pointOfNoReturn c).bridges = (c.lanesDown (decide (p = .glide)) (decide (c.par Par.pwrNetKeep = 1) && decide (p ≠ .off))).bridges := by
      rw [heq, modDev_bridges, modPintle_bridges]
    refine ⟨_, hexec, rfl, (congrArg (fun d => d.power.state) hdev').trans hstate, (congrArg (fun d => d.power.left) hdev').trans hleft,
      (congrArg (fun d => d.power.step) hdev').trans hstep', ?_, (congrArg Dev.replies hdev').trans hreplies, fun l hl => ?_, fun l hl => ?_⟩
    · rw [onChip_chip, heq, modDev_pintle, modPintle_pintle, hpintle]
    · obtain ⟨hlane, hclosing⟩ := lanesDown_lane_in hl (decide (p = .glide)) (decide (c.par Par.pwrNetKeep = 1) && decide (p ≠ .off))
      have hlane' : (pointOfNoReturn c).lane l = _ := (congrArg (fun ls => ls.get l) hlanes).trans hlane
      refine ⟨congrArg (fun n => n.power.core) hlane', congrArg (fun n => n.power.drive) hlane', congrArg (fun n => n.power.pads) hlane',
        congrArg (fun n => n.sio.soOn) hlane', congrArg (fun n => n.sio.tpOn) hlane', congrArg (fun n => n.clock.running) hlane', fun e he => ?_,
        (congrArg (fun bs => (bs.get l).closing) hbridges).trans hclosing⟩
      have hengines : ((pointOfNoReturn c).lane l).engines = (c.lanes.get l).engines.map fun e => e.halt .off := congrArg Lane.engines hlane'
      obtain ⟨x, -, rfl⟩ := List.mem_map.1 (hengines ▸ he)
      rfl
    · obtain ⟨hlane, hbridge⟩ := lanesDown_lane_out hl (decide (p = .glide)) (decide (c.par Par.pwrNetKeep = 1) && decide (p ≠ .off))
      exact ⟨(congrArg (fun ls => ls.get l) hlanes).trans hlane, (congrArg (fun bs => bs.get l) hbridges).trans hbridge⟩
  case noLink => exact next_congr (if_pos h)
  case link =>
    have hexec : exec (.hlinkOff l) s = .next (hlinkOff l s) := rfl
    have heq := hlinkOff_of_entry hstep hoff
    have hgone : ((c.linkGone l).bridges.get l).closing = false ∧ ((c.linkGone l).bridges.get l).hlinkOn = false := by
      rw [Chip.linkGone, modBridge_bridges, tri_get_set_same]
      exact ⟨rfl, rfl⟩
    have hne (k : LaneId) (hk : k ≠ l) : (c.linkGone l).bridges.get k = c.bridges.get k := tri_get_set_ne _ _ _ _ hk
    refine ⟨_, hexec, ?_, fun hsome => ?_, fun hnone hwake => ?_⟩
    · rw [heq]
      split
      · exact hgone.1
      · exact foldl_wakeLane_closing hgone.1
    · obtain ⟨k, hk, hkoff, hkon⟩ := hsome
      rw [if_pos (List.any_eq_true.2 ⟨k, mem_allLanes k, by rw [hne k hk, Bool.and_eq_true]; exact ⟨hkoff, hkon⟩⟩)] at heq
      rw [heq]
      exact ⟨rfl, rfl, rfl, hgone.2, hne⟩
    · have hany : LaneId.all.any (fun k => s.chip.laneOff k && ((s.chip.linkGone l).bridges.get k).hlinkOn) = false := by
        refine List.any_eq_false.2 fun k _ => ?_
        rw [Bool.and_eq_true, not_and, Bool.not_eq_true]
        intro hkoff
        by_cases hk : k = l
        · rw [hk]
          exact hgone.2
        · rw [hne k hk]
          exact hnone k hk hkoff
      rw [if_neg (by rw [hany]; decide), foldl_wakeLane_of_none (s := (s.onChip (fun c => c.linkGone l)).onChip Chip.endPower) hwake] at heq
      rw [heq]
      exact ⟨rfl, rfl, rfl, rfl, rfl, hgone.2⟩
  case noDomain =>
    refine next_congr (congrArg (fun c => ({ s with chip := c } : State)) (?_ : domainGoodTimeout l s.chip = s.chip))
    refine if_neg ?_
    rintro (⟨h, -⟩ | h)
    · exact absurd (h.symm.trans htarget) (Option.some_ne_none _)
    · exact Bool.noConfusion (h.symm.trans hwaking)
  case domain =>
    have hexec : exec (.domainGoodTimeout l) s = .next (s.onChip (domainGoodTimeout l)) := rfl
    obtain ⟨helse, hdev, -, -⟩ := selfFence_else (c := c.modLane l (fun n => { n with power := { n.power with waking := false } })) (l := l) hlast 0x3203 0x01 l.idx
    obtain ⟨hfenced, hcode⟩ := selfFence_boot (c.modLane l (fun n => { n with power := { n.power with waking := false } })) l 0x3203 0x01 l.idx
    have hpower : ((c.modLane l (fun n => { n with power := { n.power with waking := false } })).selfFence l 0x3203 0x01 l.idx).dev.power.state = .idle := by
      rw [hdev, (localFault_only ..).dev]
      exact hstate
    have heq : domainGoodTimeout l c = (c.modLane l (fun n => { n with power := { n.power with waking := false } })).selfFence l 0x3203 0x01 l.idx := by
      unfold domainGoodTimeout
      rw [if_pos (.inl ⟨htarget, hstep, hauth⟩)]
      refine if_neg fun h => ?_
      have := h.1
      rw [Chip.sleeping, hpower] at this
      exact absurd this (by decide)
    refine ⟨_, hexec, rfl, ?_, ?_, fun k hk => ?_⟩ <;> rw [onChip_chip, heq]
    · exact hfenced
    · exact hcode
    · exact (helse k hk).trans (elseSame_modLane _ l _ k hk)

end Sys2Proof.Machine

namespace Sys2Proof.Machine
open Sys2Proof

/-! ### Waking (R478 to R484) -/

/-- What a wake leaves where its source is latched in a lane. -/
def Woken (l : LaneId) (s t : State) (src inst : Nat) : Prop :=
  (∀ k, k ≠ l → t.chip.lane k = s.chip.lane k ∧ t.mem.get k = s.mem.get k) ∧ t.chip.pintle = s.chip.pintle ∧
  (s.chip.dev.power.target ≠ none → t.mem = s.mem ∧ t.chip.bridges = s.chip.bridges ∧ t.chip.dev = s.chip.dev ∧
    (t.chip.lane l).power.wake = some ((s.chip.lane l).power.wake.getD (src, inst)) ∧ (t.chip.lane l).power.record = (s.chip.lane l).power.record) ∧
  (s.chip.dev.power.target = none → s.chip.laneOff l = true → (s.chip.lane l).power.waking = false → (s.chip.lane l).power.wake = none →
    (t.chip.lane l).power.wake = none ∧ (t.chip.bridges.get l).hlinkOn = true ∧ (t.chip.bridges.get l).waking = true ∧
    (t.chip.lane l).power.record.src = src ∧ (t.chip.lane l).power.record.inst = inst ∧ (t.chip.lane l).power.record.left = s.chip.dev.power.state.code ∧
    (s.chip.dev.power.state = .glide → (t.chip.lane l).power.waking = true ∧ (t.chip.lane l).power.core = false ∧ t.mem = s.mem) ∧
    (s.chip.dev.power.state ≠ .glide → (t.chip.lane l).boot.state = .booting ∧ (t.chip.lane l).boot.powerGood = true ∧
      (t.chip.lane l).power.core = true ∧ (t.mem.get l).sram = [] ∧ (t.mem.get l).staging = []))

/-- A lane with its wake latched, the first one kept (R478). -/
def Power.latched (p : LanePower) (src inst : Nat) : LanePower := { p with wake := some (p.wake.getD (src, inst)) }

theorem latchWake_lane (c : Chip) (l : LaneId) (src inst : Nat) :
    c.latchWake l src inst = c.modLane l (fun n => { n with power := Power.latched n.power src inst }) := by
  refine congrArg (fun n : Lane => ({ c with lanes := c.lanes.set l n } : Chip)) ?_
  dsimp only
  unfold Power.latched
  cases (c.lanes.get l).power.wake <;> rfl

theorem laneOff_iff {c : Chip} {l : LaneId} : c.laneOff l = true ↔ c.sleeping = true ∧ (c.lane l).boot.powerGood = true ∧ (c.lane l).power.core = false := by
  simp only [Chip.laneOff, Bool.and_eq_true, Bool.not_eq_true', and_assoc]

/-- A wake that begins at once, seen from its lane (R480, R483, R484). -/
theorem begunWake_lane {s : State} {l : LaneId} (src inst : Nat) (hoff : s.chip.laneOff l = true) :
    ((s.begunWake l src inst).chip.lane l).power.wake = none ∧ ((s.begunWake l src inst).chip.lane l).power.record = s.chip.wakeRecord l src inst ∧
      (s.chip.dev.power.state = .glide → ((s.begunWake l src inst).chip.lane l).power.waking = true ∧
        ((s.begunWake l src inst).chip.lane l).power.core = false ∧ (s.begunWake l src inst).mem = s.mem) ∧
      (s.chip.dev.power.state ≠ .glide → ((s.begunWake l src inst).chip.lane l).boot.state = .booting ∧
        ((s.begunWake l src inst).chip.lane l).boot.powerGood = true ∧ ((s.begunWake l src inst).chip.lane l).power.core = true ∧
        ((s.begunWake l src inst).mem.get l).sram = [] ∧ ((s.begunWake l src inst).mem.get l).staging = []) := by
  obtain ⟨-, hgood, hcore⟩ := laneOff_iff.1 hoff
  rw [lane_eq] at hgood hcore
  unfold State.begunWake
  dsimp only
  by_cases hglide : s.chip.dev.power.state = .glide
  · rw [decide_eq_true hglide, if_pos rfl]
    refine ⟨?_, ?_, fun _ => ⟨?_, ?_, rfl⟩, fun h => absurd hglide h⟩ <;>
      simp only [onChip_chip, lane_eq, modBridge_lanes, modLane_lanes, tri_get_set_same]
    exact hcore
  · rw [decide_eq_false hglide, if_neg Bool.false_ne_true]
    refine ⟨?_, ?_, fun h => absurd h hglide, fun _ => ⟨?_, ?_, ?_, ?_, ?_⟩⟩ <;>
      simp only [onChip_chip, onChip_mem, lane_eq, modBridge_lanes, rebootLane_lanes, rebootLane_mem, modLane_lanes, tri_get_set_same] <;>
      simp only [Lane.rebooted, LaneMem.cleared]
    · exact hgood
    · exact hgood

theorem wakeBy_woken (s : State) (l : LaneId) (src inst : Nat) : Woken l s (s.wakeBy l src inst) src inst := by
  have hlatch : s.wakeBy l src inst = (s.onChip (fun c => c.modLane l (fun n => { n with power := Power.latched n.power src inst }))).wakeLane l := by
    rw [State.wakeBy]
    exact congrArg (fun s : State => s.wakeLane l) (onChip_congr (latchWake_lane ..))
  rw [hlatch]
  refine ⟨?_, ?_, fun htarget => ?_, fun htarget hoff hwaking hwake => ?_⟩
  · rcases wakeLane_cases (s.onChip (fun c => c.modLane l (fun n => { n with power := Power.latched n.power src inst }))) l with heq | ⟨x, y, heq⟩
    · rw [heq]
      exact fun k hk => ⟨tri_get_set_ne _ _ _ _ hk, rfl⟩
    · rw [heq]
      obtain ⟨helse, hmem, -⟩ := begunWake_else (s.onChip (fun c => c.modLane l (fun n => { n with power := Power.latched n.power src inst }))) l x y
      exact fun k hk => ⟨(helse k hk).trans (tri_get_set_ne _ _ _ _ hk), hmem k hk⟩
  · rcases wakeLane_cases (s.onChip (fun c => c.modLane l (fun n => { n with power := Power.latched n.power src inst }))) l with heq | ⟨x, y, heq⟩
    · rw [heq]
      rfl
    · rw [heq]
      exact (begunWake_else _ l x y).2.2.1
  · rw [wakeLane_of_target l (by exact htarget)]
    refine ⟨rfl, rfl, rfl, ?_, ?_⟩ <;> simp only [onChip_chip, lane_eq, modLane_lanes, tri_get_set_same, Power.latched]
  · have hlane : ((s.onChip (fun c => c.modLane l (fun n => { n with power := Power.latched n.power src inst }))).chip.lane l) =
        { s.chip.lane l with power := Power.latched (s.chip.lane l).power src inst } := tri_get_set_same ..
    have hoff' : (s.onChip (fun c => c.modLane l (fun n => { n with power := Power.latched n.power src inst }))).chip.laneOff l = true := by
      rw [laneOff_iff] at hoff ⊢
      rw [hlane]
      exact hoff
    rw [wakeLane_begins (src := src) (inst := inst) (by rw [hlane]; simp only [Power.latched, hwake, Option.getD_none]) hoff' htarget
      (by rw [hlane]; exact hwaking)]
    obtain ⟨hnone, hrecord, hglide, hboot⟩ := begunWake_lane src inst hoff'
    obtain ⟨-, -, -, -, hon, hwk, -⟩ := begunWake_else (s.onChip (fun c => c.modLane l (fun n => { n with power := Power.latched n.power src inst }))) l src inst
    exact ⟨hnone, hon, hwk, by rw [hrecord]; rfl, by rw [hrecord]; rfl, by rw [hrecord]; rfl, hglide, hboot⟩

/-- The Glide sample of a lane, counted and kept (R482). -/
def Chip.glideNoted (c : Chip) (l : LaneId) (fb : List Nat) : Chip :=
  c.modLane l (fun n => { n with power := { n.power with cycles := satInc (2 ^ 32 - 1) n.power.cycles, glideFb := some fb } })

theorem woken_of_glideNoted {s : State} {l : LaneId} {fb : List Nat} {t : State} {src inst : Nat} (h : Woken l (s.onChip (fun c => c.glideNoted l fb)) t src inst) :
    Woken l s t src inst := by
  have hlane : (s.onChip (fun c => c.glideNoted l fb)).chip.lane l = { s.chip.lane l with power := { (s.chip.lane l).power with
      cycles := satInc (2 ^ 32 - 1) (s.chip.lane l).power.cycles, glideFb := some fb } } := tri_get_set_same ..
  have hoff : (s.onChip (fun c => c.glideNoted l fb)).chip.laneOff l = s.chip.laneOff l := by
    rw [Chip.laneOff, hlane]
    rfl
  obtain ⟨helse, hpintle, hlatched, hbegun⟩ := h
  rw [hlane] at hlatched hbegun
  rw [hoff] at hbegun
  exact ⟨fun k hk => ⟨(helse k hk).1.trans (tri_get_set_ne _ _ _ _ hk), (helse k hk).2⟩, hpintle, hlatched, hbegun⟩

/-- The lane that is up again, before the device resumes (R483). -/
def Chip.laneUp (c : Chip) (l : LaneId) : Chip :=
  c.draw.2.modLane l (fun n => { n with
    power := { n.power with core := true, mem := 2, net := true, waking := false }
    clock := { running := true, nt := c.draw.1 % 2 ^ 64 }, round := {}, chk := { n.chk with resync := 0, resyncPend := false } })

theorem wakeDone_of_up {c : Chip} {l : LaneId} (hoff : c.laneOff l = true) (hwaking : (c.lane l).power.waking = true) (hglide : c.dev.power.state = .glide) :
    wakeDone l c = (c.laneUp l).resume := by
  unfold wakeDone
  rw [hoff, hwaking, decide_eq_true hglide]
  rfl

theorem laneUp_lane (c : Chip) (l : LaneId) : ((c.laneUp l).lanes.get l) = { c.lanes.get l with
    power := { (c.lanes.get l).power with core := true, mem := 2, net := true, waking := false }
    clock := { running := true, nt := c.draw.1 % 2 ^ 64 }, round := {}, chk := { (c.lanes.get l).chk with resync := 0, resyncPend := false } } :=
  tri_get_set_same ..

theorem driveTo_field (c : Chip) (b : Bool) {α : Type} (p : Chip → α) (hlane : ∀ (c : Chip) l, p (c.modLane l (fun n => { n with power := { n.power with drive := b } })) = p c)
    (hpintle : ∀ (c : Chip) f, p (c.modPintle f) = p c) : p (c.driveTo b) = p c :=
  (hpintle _ _).trans (foldl_keeps p (fun (c : Chip) l => c.modLane l (fun n => { n with power := { n.power with drive := b } })) (fun c l => hlane c l) _ c)

/-- The agreed data as the device resumes: the wake state entered, and a period begun afresh (R483). -/
def Chip.resumeMarked (c : Chip) : Chip :=
  c.modDev (fun d => { d with
    power := { state := if decide (c.par Par.pwrWakeState = 0) then .run else .idle, left := .glide }
    cycle := 0, computed := false, decided := false, voted := false, launched := false })

/-- The device as it resumes from GLIDE, before the hosts are told (R483). -/
def Chip.resumed (c : Chip) : Chip :=
  let d := c.resumeMarked.driveTo (decide (c.par Par.pwrWakeState = 0))
  if decide (c.par Par.pwrWakeState = 0) then d.dueTests d.authLanes true else d

theorem resume_of_up {c : Chip} (hglide : c.dev.power.state = .glide) (hauth : c.authLanes ≠ []) (hup : c.authLanes.all (fun l => (c.lane l).power.core) = true) :
    c.resume = c.resumed.authLanes.foldl (fun (d : Chip) l => (d.modBridge l (fun b => { b with waking := false, silent := false, cls := d.classNow })).raiseEdge l 6) c.resumed :=
  if_pos ⟨hglide, hauth, hup⟩

/-- What no test, drive domain or edge changes, the resumption changes by the agreed data alone. -/
theorem resume_field {c : Chip} (hglide : c.dev.power.state = .glide) (hauth : c.authLanes ≠ []) (hup : c.authLanes.all (fun l => (c.lane l).power.core) = true)
    {α : Type} (p : Chip → α) (hlane : ∀ (c : Chip) l b, p (c.modLane l (fun n => { n with power := { n.power with drive := b } })) = p c)
    (hpintle : ∀ (c : Chip) f, p (c.modPintle f) = p c) (htarget : ∀ (c : Chip) l t f, p (c.modTarget l t f) = p c) (hbridge : ∀ (c : Chip) l f, p (c.modBridge l f) = p c) :
    p c.resume = p c.resumeMarked := by
  have hdrive := driveTo_field c.resumeMarked (decide (c.par Par.pwrWakeState = 0)) p (fun c l => hlane c l _) hpintle
  rw [resume_of_up hglide hauth hup]
  refine (foldl_keeps p _ (fun d l => (hbridge _ _ _).trans (hbridge _ _ _)) _ _).trans ?_
  unfold Chip.resumed
  dsimp only
  split
  · exact (dueTests_field _ _ _ p htarget).trans hdrive
  · exact hdrive

theorem modTarget_lane (c : Chip) (l k : LaneId) (t : Nat) (f : Target → Target) {α : Type} (p : Lane → α) (hp : ∀ (n : Lane) ts, p { n with targets := ts } = p n) :
    p ((c.modTarget l t f).lanes.get k) = p (c.lanes.get k) := by
  unfold Chip.modTarget
  split
  · rw [modLane_lanes, tri_get_set]
    split
    · rename_i h
      rw [h]
      exact hp ..
    · rfl
  · rfl

theorem modLane_keeps (c : Chip) (l k : LaneId) (f : Lane → Lane) {α : Type} (p : Lane → α) (hp : ∀ n, p (f n) = p n) :
    p ((c.modLane l f).lanes.get k) = p (c.lanes.get k) := by
  rw [modLane_lanes, tri_get_set]
  split
  · rename_i h
    rw [h]
    exact hp _
  · rfl

/-- Settles O47: every source goes through the one latch of its lane, and a lane that is up again resumes alone or with the device. -/
theorem wakesAreLatchedThenRun : Obligations.WakesAreLatchedThenRun := by
  intro s l c woken asleep
  have hwoken (src inst : Nat) : woken (s.wakeBy l src inst) src inst := wakeBy_woken s l src inst
  refine ⟨fun w hcode => ?noCode, fun w src inst hcode => ?code, fun hoff => ?spi, fun n hoff htarget hsleep hglide hsrc => ?si,
    fun k hk hoff hsrc => ?line, fun k h => ?noLine, fun hasleep hstate htimer => ?timer, fun htimer => ?noTimer,
    ?glide, fun hwaking => ?notUp,
    fun hoff hwaking hglide hdown => ?alone, fun hoff hwaking hglide hauth => ?last⟩
  case noCode =>
    refine next_congr ?_
    unfold wakeEvent
    rw [show s.chip.wakeCode l w = none from hcode]
  case code =>
    refine ⟨_, next_congr ?_, hwoken src inst⟩
    unfold wakeEvent
    rw [show s.chip.wakeCode l w = some (src, inst) from hcode]
  case spi => exact if_pos hoff
  case si =>
    have hwatch : c.watchState = c.dev.power.state := by
      unfold Chip.watchState
      rw [htarget]
    exact if_pos ⟨hwatch.trans hsleep, by rw [hoff]; rfl, hglide, hsrc⟩
  case line => exact ⟨_, next_congr (if_pos ⟨hk, hoff, hsrc⟩), hwoken 8 k.idx⟩
  case noLine => exact next_congr (if_neg fun h' => h.elim h'.1 fun h => Bool.noConfusion (h.symm.trans h'.2.1))
  case timer => exact ⟨_, next_congr (if_pos ⟨hasleep.1, hstate, htimer⟩), hwoken 6 0⟩
  case noTimer => exact next_congr (if_neg fun h => h.2.2 htimer)
  case glide =>
    intro si adc fb hasleep hglide hwaking watched level
    constructor
    · intro hdiff
      refine next_congr ((if_pos ⟨hasleep.1, hglide, hasleep.2, hwaking⟩).trans ?_)
      rw [show s.chip.glideDiff l (s.chip.glideLevels si) adc fb = none from hdiff]
    · intro src inst hdiff
      refine ⟨_, next_congr ((if_pos ⟨hasleep.1, hglide, hasleep.2, hwaking⟩).trans ?_),
        woken_of_glideNoted (wakeBy_woken (s.onChip (fun c => c.glideNoted l fb)) l src inst)⟩
      rw [show s.chip.glideDiff l (s.chip.glideLevels si) adc fb = some (src, inst) from hdiff]
      rfl
  case notUp =>
    refine next_congr (congrArg (fun c => ({ s with chip := c } : State)) (?_ : wakeDone l s.chip = s.chip))
    exact if_neg (by rw [show (s.chip.lane l).power.waking = false from hwaking]; simp)
  case alone =>
    have hexec : exec (.wakeDone l) s = .next (s.onChip (wakeDone l)) := rfl
    obtain ⟨k, hk, hauth, hcore⟩ := hdown
    have hresume : (c.laneUp l).resume = c.laneUp l := by
      refine if_neg fun h => ?_
      have hup := List.all_eq_true.1 h.2.2 k (mem_authLanes.2 hauth)
      rw [lane_eq, Chip.laneUp, modLane_lanes, tri_get_set_ne _ _ _ _ hk] at hup
      exact Bool.noConfusion (hcore.symm.trans hup)
    refine ⟨_, hexec, rfl, ?_, ?_, ?_, ?_, fun k hk => ?_⟩ <;> rw [onChip_chip, wakeDone_of_up hoff hwaking hglide, hresume]
    · rfl
    · rw [lane_eq, laneUp_lane]
    · rw [lane_eq, laneUp_lane]
    · rw [lane_eq, laneUp_lane]
    · exact tri_get_set_ne _ _ _ _ hk
  case last =>
    have hexec : exec (.wakeDone l) s = .next (s.onChip (wakeDone l)) := rfl
    have hauth' : (c.laneUp l).authLanes = [l] := hauth
    have hcore : ((c.laneUp l).lane l).power.core = true := by rw [lane_eq, laneUp_lane]
    have hup : (c.laneUp l).authLanes.all (fun k => ((c.laneUp l).lane k).power.core) = true := by
      rw [hauth', List.all_cons, hcore]
      rfl
    refine ⟨_, hexec, rfl, ?_, ?_, ?_⟩ <;> rw [onChip_chip, wakeDone_of_up hoff hwaking hglide]
    · exact resume_field (c := c.laneUp l) hglide (by rw [hauth']; simp) hup (fun c => c.dev.power.left) (fun _ _ _ => rfl) (fun _ _ => rfl)
        (fun c l t f => congrArg (fun d => d.power.left) (modTarget_dev c l t f)) (fun _ _ _ => rfl)
    · refine (resume_field (c := c.laneUp l) hglide (by rw [hauth']; simp) hup (fun c => c.dev.power.state) (fun _ _ _ => rfl) (fun _ _ => rfl)
        (fun c l t f => congrArg (fun d => d.power.state) (modTarget_dev c l t f)) (fun _ _ _ => rfl)).trans ?_
      show (if decide (c.par Par.pwrWakeState = 0) then PowerState.run else .idle) = _
      simp only [decide_eq_true_eq]
    · exact (resume_field (c := c.laneUp l) hglide (by rw [hauth']; simp) hup (fun d => (d.lanes.get l).power.core) (fun c k b => modLane_keeps c k l _ (fun n => n.power.core) fun _ => rfl)
        (fun _ _ => rfl) (fun c k t f => modTarget_lane c k l t f (fun n => n.power.core) fun _ _ => rfl) (fun _ _ _ => rfl)).trans hcore

end Sys2Proof.Machine

namespace Sys2Proof.Machine
open Sys2Proof

/-! ### Reads of a host link outside sessions -/

/-- A read that a host link carries outside sessions finds the state as it was but for the link's own accounts (R60). -/
theorem exec_of_read {i : Instr} {o : OpRow} (hrow : opRow i = some o) {s : State} (h : s.admits o.attr o.req = true) {l : LaneId}
    (hl : o.req.link = some l) (h0 : o.req.session = 0) (hread : o.attr.read = true) :
    ∃ f : HostLink → HostLink, let g := s.onChip (fun c => c.modHost l f)
      g.chip.dev.replies = s.chip.dev.replies ∧ g.plain = s.plain ∧
      (o.checks o.req g.chip = [] → exec i s = .next ((o.effect o.req g).finish o.attr o.req)) := by
  obtain ⟨g, hg, hf⟩ := admits_gated _ _ _ h
  have hadv : g = s.onChip (fun c => c.modHost l (fun h => { h with
      expected := (h.expected + 1) % 2 ^ 32, lastCrc := some (s.chip.reqCrc o.attr.code o.req), lastReply := none, seqErrors := 0 })) := by
    unfold State.gated at hg
    split at hg
    · rw [if_pos h0] at hg
      rw [← Option.some.inj hg]
      refine onChip_congr ?_
      simp only [Chip.linkAdvance, hl]
    · cases hg
  refine ⟨_, congrArg (fun s => s.chip.dev.replies) hadv.symm |>.trans (gated_replies _ _ _ _ hg), (congrArg State.plain hadv.symm).trans (gated_plain _ _ _ _ hg), ?_⟩
  rw [← hadv]
  intro hc
  have hmark : g.marked o.attr = g := by rw [State.marked, hread]; rfl
  rw [exec_of_row i o s hrow, runOp_completes _ _ _ _ _ _ hg (by rw [opFails, hmark, hf, hc]; rfl), hmark]

/-- The status of a block reads nothing of the host links. -/
theorem blockStatus_modHost (c : Chip) (k : LaneId) (f : HostLink → HostLink) (b : Block) (l : LaneId) :
    (c.modHost k f).blockStatus b l = c.blockStatus b l := by
  cases b <;> rfl

/-- The received host frames of some lanes removed (R334). -/
def Chip.takeHostFrames (c : Chip) (ls : List LaneId) : Chip := ls.foldl (fun c l => c.modNet l (fun n => { n with host := [] })) c

theorem reqLanes_nodup (r : Req) : r.lanes.Nodup := by
  unfold Req.lanes
  split
  · split
    · exact List.nodup_singleton _
    · exact List.nodup_nil
  · exact List.Nodup.filter _ (by decide)

theorem takeHostFrames_lane (c : Chip) {ls : List LaneId} (h : ls.Nodup) (l : LaneId) : (c.takeHostFrames ls).lanes.get l =
    if l ∈ ls then { c.lanes.get l with net := { (c.lanes.get l).net with host := [] } } else c.lanes.get l :=
  foldl_modLane_get (fun n => { n with net := { n.net with host := [] } }) ls h l c

theorem takeHostFrames_field (c : Chip) (ls : List LaneId) : (c.takeHostFrames ls).dev = c.dev ∧ (c.takeHostFrames ls).pintle = c.pintle :=
  ⟨foldl_keeps Chip.dev (fun (c : Chip) l => c.modNet l (fun n => { n with host := [] })) (fun _ _ => rfl) ls c,
    foldl_keeps Chip.pintle (fun (c : Chip) l => c.modNet l (fun n => { n with host := [] })) (fun _ _ => rfl) ls c⟩

/-- A read of n quads of free bytes (log 22). -/
theorem freeRead_answers {a : OpAttr} {r : Req} {g s : State} {k : LaneId} (halike : Alike s g) (hreplies : g.chip.dev.replies = s.chip.dev.replies)
    (hl : r.link = some k) (h0 : r.session = 0) (hflag : hasBit r.flags 0 = false) (n : Nat) :
    ((freeRead n g).finish a r).mem = s.mem ∧
      ((freeRead n g).finish a r).chip.dev.replies = s.chip.dev.replies ++ [(k, replyPacket a.code r stOk (freeRead n g).payload)] ∧
      ((freeRead n g).finish a r).chip.lanes.map Lane.plain = s.chip.lanes.map Lane.plain ∧
      ((freeRead n g).finish a r).chip.pintle = s.chip.pintle ∧ ((freeRead n g).finish a r).chip.dev.plain = s.chip.dev.plain := by
  have hplain : ((freeRead n g).finish a r).plain = { s.plain with chip := { s.plain.chip with fresh := s.chip.fresh + 16 * n } } := by
    rw [finish_plain, freeRead_st, ← halike.fresh, ← halike.plain]
    rfl
  refine ⟨(finish_mem ..).trans ?_, (finish_link hl h0 hflag rfl).trans (congrArg (· ++ _) ?_), congrArg (fun s => s.chip.lanes) hplain,
    congrArg (fun s => s.chip.pintle) hplain, congrArg (fun s => s.chip.dev) hplain⟩
  · rw [freeRead_st]
    exact halike.mem
  · rw [freeRead_st]
    exact hreplies

/-- Settles O54: each read passes its checks, and its reply is the one that its effect lays out. -/
theorem statusReadsAnswer : Obligations.StatusReadsAnswer := by
  intro s r k hl h0 hflag hbody answered free
  have hnone (g : Chip) : checksNone r g = [] := by simp [checksNone, payloadFails, hbody]
  have hfree {i : Instr} {a : OpAttr} {effect : Req → State → OpOut} (hrow : opRow i = some ⟨a, checksNone, effect, r⟩) (hadm : s.admits a r = true)
      (heffect : ∀ g, effect r g = freeRead r.lanes.length g) : free i := by
    obtain ⟨g, halike, hreplies, hexec⟩ := exec_of_admits hrow hadm
    have hexec := hexec (hnone g.chip)
    dsimp only at hexec
    rw [heffect] at hexec
    obtain ⟨hmem, hanswer, hlanes, hpintle, hdev⟩ := freeRead_answers (a := a) halike hreplies hl h0 hflag r.lanes.length
    exact ⟨_, _, hexec, ⟨hmem, hanswer, rfl⟩, freeRead_payload_length .., hlanes, hpintle, hdev⟩
  refine ⟨fun b hadm => ⟨fun hlaid => ?laid, fun hlaid => hfree (i := .statusRead b r) rfl hadm fun g => ?_⟩, fun hadm => hfree (i := .timingRead r) rfl hadm fun g => rfl,
    fun hadm => hfree (i := .signatureRead r) rfl hadm fun g => rfl, fun hadm => ?thm⟩
  case laid =>
    obtain ⟨f, hreplies, hplain, hexec⟩ := exec_of_read (i := .statusRead b r) rfl hadm hl h0 rfl
    have hexec := hexec (hnone (s.chip.modHost k f))
    have hsections : (fun l => ((s.chip.modHost k f).blockStatus b l).getD []) = fun l => (s.chip.blockStatus b l).getD [] :=
      funext fun l => by rw [blockStatus_modHost]
    by_cases hnet : b = .net
    · have heffect : effectStatusRead b r (s.onChip (fun c => c.modHost k f)) = OpOut.chip (s.onChip (fun c => c.modHost k f))
          (fun c => c.takeHostFrames r.lanes) (r.lanes.flatMap fun l => (s.chip.blockStatus b l).getD []) := by
        rw [effectStatusRead, if_pos hlaid, if_pos hnet, ← hsections]
        rfl
      dsimp only at hexec
      rw [heffect] at hexec
      have halike := alike_of_plain hplain
      have hfinish := alike_finish (attrStatusRead b) r (OpOut.chip (s.onChip (fun c => c.modHost k f)) (fun c => c.takeHostFrames r.lanes)
        (r.lanes.flatMap fun l => (s.chip.blockStatus b l).getD []))
      obtain ⟨hdev, hpintle⟩ := takeHostFrames_field (s.chip.modHost k f) r.lanes
      refine ⟨_, _, hexec, ⟨(finish_mem ..).trans rfl, (finish_link hl h0 hflag rfl).trans (congrArg (· ++ _) ?_), rfl⟩, rfl, fun h => absurd hnet h, fun _ =>
        ⟨hfinish.pintle.trans (hpintle.trans rfl), ?_, fun l => ?_⟩⟩
      · exact (congrArg Dev.replies hdev).trans hreplies
      · exact (hfinish.field Dev.plain fun _ _ => rfl).trans ((congrArg Dev.plain hdev).trans (congrArg (fun s => s.chip.dev) hplain))
      · refine (hfinish.lane l Lane.plain fun _ _ => rfl).trans ((congrArg Lane.plain (takeHostFrames_lane _ (reqLanes_nodup r) l)).trans ?_)
        rfl
    · have heffect : effectStatusRead b r (s.onChip (fun c => c.modHost k f)) = OpOut.same (s.onChip (fun c => c.modHost k f))
          (r.lanes.flatMap fun l => (s.chip.blockStatus b l).getD []) := by
        rw [effectStatusRead, if_pos hlaid, if_neg hnet, ← hsections]
        rfl
      dsimp only at hexec
      rw [heffect] at hexec
      exact ⟨_, _, hexec, ⟨(finish_mem ..).trans rfl, (finish_link hl h0 hflag rfl).trans (congrArg (· ++ _) hreplies), rfl⟩, rfl,
        fun _ => (finish_plain ..).trans hplain, fun h => absurd h hnet⟩
  · exact if_neg (by rw [hlaid]; decide)
  case thm =>
    obtain ⟨f, hreplies, hplain, hexec⟩ := exec_of_read (i := .thmRead r) rfl hadm hl h0 rfl
    exact ⟨_, _, hexec (hnone (s.chip.modHost k f)), ⟨(finish_mem ..).trans rfl, (finish_link hl h0 hflag rfl).trans (congrArg (· ++ _) hreplies), rfl⟩,
      (finish_plain ..).trans hplain, rfl⟩

/-! ### Bands and derating factors (R487, R488, R491) -/

theorem bandOf_le (x : Int) : bandOf x ≤ 5 := by
  unfold bandOf
  split_ifs <;> omega

theorem bandOf_eq_zero (x : Int) : bandOf x = 0 ↔ x < -200 := by
  unfold bandOf
  split_ifs <;> simp <;> omega

theorem bandOf_eq_five (x : Int) : bandOf x = 5 ↔ 1500 ≤ x := by
  unfold bandOf
  split_ifs <;> simp <;> omega

/-- A reading is at or over the lower boundary of a band from 1 to 5 exactly when its own band is that one or a higher one (R488). -/
theorem bandLow_le_iff {b : Nat} (h1 : 1 ≤ b) (h5 : b ≤ 5) (x : Int) : bandLow b ≤ x ↔ b ≤ bandOf x := by
  have hb : b = 1 ∨ b = 2 ∨ b = 3 ∨ b = 4 ∨ b = 5 := by omega
  unfold bandOf
  rcases hb with rfl | rfl | rfl | rfl | rfl <;> simp only [bandLow] <;> split_ifs <;> omega

/-- A band that the reading reaches is taken at once (R488). -/
theorem bandNext_of_le {hyst : Int} {now : Nat} {x : Int} (hnow : now ≤ 5) (hhyst : 0 ≤ hyst) (h : now ≤ bandOf x) : bandNext hyst now x = bandOf x := by
  unfold bandNext
  rcases h.lt_or_eq with h | h
  · exact if_pos h
  · rw [if_neg (by omega), ← h]
    rcases Nat.eq_zero_or_pos now with rfl | h1
    · exact ite_self _
    · have := (bandLow_le_iff h1 hnow x).2 h.le
      exact if_neg (by omega)

/-- A band above the reading's own falls by one, only below its lower boundary less the hysteresis (R488). -/
theorem bandNext_of_lt {hyst : Int} {now : Nat} {x : Int} (h : bandOf x < now) :
    bandNext hyst now x = if x < bandLow now - 10 * hyst then now - 1 else now := if_neg (by omega)

theorem quo_of_nonneg {a b : Int} (ha : 0 ≤ a) : quo a b = a / b := Int.tdiv_eq_ediv_of_nonneg ha

/-- Between its ends a factor falls from 100 % to the lowest (R491). -/
theorem fall_between {lowest start stop x : Int} (h100 : lowest ≤ 100) (hstart : start ≤ x) (hstop : x < stop) :
    0 ≤ quo ((100 - lowest) * (stop - x)) (stop - start) ∧ quo ((100 - lowest) * (stop - x)) (stop - start) ≤ 100 - lowest := by
  have hnum : 0 ≤ (100 - lowest) * (stop - x) := mul_nonneg (by omega) (by omega)
  rw [quo_of_nonneg hnum]
  exact ⟨Int.ediv_nonneg hnum (by omega), Int.ediv_le_of_le_mul (by omega) (mul_le_mul_of_nonneg_left (by omega) (by omega))⟩

theorem fallFactor_bounds {lowest start stop : Int} (h100 : lowest ≤ 100) (x : Int) :
    lowest.toNat ≤ fallFactor lowest start stop x ∧ fallFactor lowest start stop x ≤ 100 := by
  unfold fallFactor
  split_ifs with hstart hstop
  · omega
  · omega
  · obtain ⟨hlow, hhigh⟩ := fall_between h100 (not_lt.1 hstart) (not_le.1 hstop)
    omega

/-- Settles O55: the bands by their table, the next band by its two cases, the factor by the bounds of its quotient. -/
theorem bandsAndFactors : Obligations.BandsAndFactors := by
  refine ⟨fun x => ⟨bandOf_le x, bandOf_eq_zero x, bandOf_eq_five x, fun h => (bandLow_le_iff h (bandOf_le x) x).2 le_rfl, fun b hb h5 => ?above⟩,
    fun hyst now x hnow hhyst => ⟨bandNext_of_le hnow hhyst, fun h => ?falls⟩,
    fun lowest start stop x h0 h100 hlt => ⟨fun h => ?start, fun h => ?stop, (fallFactor_bounds h100 x).1, (fallFactor_bounds h100 x).2⟩,
    fun lowest good => ?five, fun tol x y z hyz hxy hxz => ?far, fun tol x y z hx => ?scale⟩
  case above => exact not_le.1 fun h => absurd ((bandLow_le_iff (by omega) h5 x).1 h) (not_le.2 hb)
  case falls =>
    rw [bandNext_of_lt h]
    split_ifs with hlow <;> omega
  case start =>
    rw [fallFactor, if_pos h]
    rfl
  case stop => rw [fallFactor, if_neg (by omega), if_pos h]
  case five =>
    unfold dieFactor
    split
    · rfl
    · exact if_pos rfl
  case far =>
    have hfar : decide (10 * tol < dist x y ∧ 10 * tol < dist x z) && decide (dist y z ≤ 10 * tol) := by simp [hyz, hxy, hxz]
    exact (congrArg (outOfScale x || ·) hfar).trans (Bool.or_true _)
  case scale =>
    have hout : outOfScale x = true := by
      unfold outOfScale
      simpa using hx
    exact (congrArg (· || _) hout).trans (Bool.true_or _)

end Sys2Proof.Machine

namespace Sys2Proof.Machine
open Sys2Proof

/-! ### The agreement rule (R128, R137) -/

theorem agreementDone_of_out {s : State} {l : LaneId} (h : s.chip.sampledIn l = false ∨ (s.chip.lane l).round.agreed = true ∨
    (s.chip.lane l).round.absent = true ∨ (s.chip.lane l).round.aset = none) : agreementDone l s = s := by
  refine if_pos ?_
  rcases h with h | h | h | h <;> rw [h] <;> simp

/-- A lane with the agreement rule finished, and its count of misses reset (R137). -/
def Chip.agreementMarked (c : Chip) (l : LaneId) : Chip :=
  c.modLane l (fun n => { n with round := { n.round with agreed := true }, chk := { n.chk with misses := 0 } })

theorem agreementDone_of_in {s : State} {l : LaneId} (hin : s.chip.sampledIn l = true) (hagreed : (s.chip.lane l).round.agreed = false)
    (habsent : (s.chip.lane l).round.absent = false) (hset : (s.chip.lane l).round.aset ≠ none) :
    agreementDone l s = if !s.chip.dev.computed && s.chip.computes l && hasLane s.chip.dev.aset l then computePeriod (s.onChip fun c => c.agreementMarked l)
      else s.onChip fun c => c.agreementMarked l := by
  refine if_neg ?_
  rw [hin, hagreed, habsent, Option.isNone_eq_false_iff.2 (Option.isSome_iff_ne_none.2 hset)]
  decide

/-- Settles O57: a lane out of its turn does nothing, and the first lane that computes does the period's work. -/
theorem agreementRunsThePeriodOnce : Obligations.AgreementRunsThePeriodOnce := by
  intro s l r marked
  refine ⟨fun h => next_congr (agreementDone_of_out h), fun hin hagreed habsent hset => ⟨fun h => next_congr ?_, fun hcomputed hcomputes hmember => next_congr ?_⟩⟩
  · refine (agreementDone_of_in hin hagreed habsent hset).trans (if_neg ?_)
    rcases h with h | h | h <;> rw [h] <;> simp
  · refine (agreementDone_of_in hin hagreed habsent hset).trans (if_pos ?_)
    rw [hcomputed, hcomputes, hmember]
    rfl

/-! ### Records on their way to the ring (R431, R434 to R437) -/

theorem onLane_of_runs {s : State} {l : LaneId} (h : s.chip.runs l = true) (f : Chip → Chip) : s.onLane l f = s.onChip f := if_pos h

/-- A collector whose oldest queued record is in the ring. -/
def Collector.written (q : Collector) (r : FaultRec) (rest : List FaultRec) : Collector :=
  { q with
    queue := rest
    ring := (q.ring.filter (fun e => e.1 != q.writeIdx)) ++ [(q.writeIdx, q.pass, r)]
    writeIdx := (q.writeIdx + 1) % 4096
    pass := if q.writeIdx = 4095 then !q.pass else q.pass
    writes := q.writes + 1 }

theorem recordWrite_of_room {c : Chip} {l : LaneId} {r : FaultRec} {rest : List FaultRec} (hqueue : (c.lane l).fault.queue = r :: rest)
    (hroom : (c.lane l).fault.writes < 4) (hregion : (c.lane l).bist.regions.contains 24 = false) (hdrop : (c.lane l).fault.droppedNow = 0) :
    recordWrite l c = c.modLane l (fun n => { n with fault := (c.lane l).fault.written r rest }) := by
  unfold recordWrite
  dsimp only
  rw [hqueue]
  dsimp only
  rw [if_neg (by rw [hregion, Bool.or_false, decide_eq_true_eq]; omega), if_pos hdrop]
  refine congrArg (fun q => c.modLane l (fun n => { n with fault := q })) ?_
  rw [Collector.written, ← hdrop]

theorem enqueue_opened (q : Collector) (r : FaultRec) : (q.enqueue r).opened = q.opened := by
  unfold Collector.enqueue
  split
  · rfl
  · dsimp only
    split
    · rfl
    · split <;> rfl

theorem enqueue_queue {q : Collector} (h : q.queue.length < q.cap) (r : FaultRec) : (q.enqueue r).queue = q.queue ++ [r] := by
  rw [Collector.enqueue, if_pos h]

theorem onChip_modLane_plain (s : State) (l : LaneId) (f : Lane → Lane) (h : (f (s.chip.lane l)).plain = (s.chip.lane l).plain) :
    (s.onChip fun c => c.modLane l f).plain = s.plain := onChip_plain_of _ _ (modLane_plain_of _ _ _ h)

/-- Settles O16: the write and the merge are changes of the lane's collector, and the read answers the sections of its collector. -/
theorem recordsReachTheRing : Obligations.RecordsReachTheRing := by
  intro s l
  refine ⟨fun r rest hruns hqueue hroom hregion hdrop => ?write, fun code t i die agreed r hruns hfind => ?merge,
    fun r k hl h0 hflag hadm hlen hzero hcount hsize => ?read⟩
  case write =>
    have hexec : exec (.recordWrite l) s = .next (s.onChip fun c => c.modLane l (fun n => { n with fault := (s.chip.lane l).fault.written r rest })) :=
      next_congr ((onLane_of_runs hruns _).trans (onChip_congr (recordWrite_of_room hqueue hroom hregion hdrop)))
    refine ⟨_, hexec, ?_, onChip_modLane_plain s l _ rfl, fun k hk => tri_get_set_ne _ _ _ _ hk⟩
    rw [onChip_chip, lane_eq, modLane_lanes, tri_get_set_same]
    rfl
  case merge =>
    have hmerge : mergeTimeExpiry l code t i die agreed s.chip = s.chip.modLane l (fun n => { n with fault := { (s.chip.lane l).fault with
        opened := (s.chip.lane l).fault.opened.filter fun x => !x.same { code := code, utype := t, inst := i, lane := die, agreed := agreed } }.enqueue r }) := by
      unfold mergeTimeExpiry
      dsimp only
      rw [hfind]
    have hexec : exec (.mergeTimeExpiry l code t i die agreed) s = .next (s.onChip fun c => c.modLane l (fun n => { n with fault := { (s.chip.lane l).fault with
        opened := (s.chip.lane l).fault.opened.filter fun x => !x.same { code := code, utype := t, inst := i, lane := die, agreed := agreed } }.enqueue r })) :=
      next_congr ((onLane_of_runs hruns _).trans (onChip_congr hmerge))
    refine ⟨_, hexec, onChip_modLane_plain s l _ rfl, fun x hx => ?_, fun hroom => ?_, fun k hk => tri_get_set_ne _ _ _ _ hk⟩
    · rw [onChip_chip, lane_eq, modLane_lanes, tri_get_set_same, enqueue_opened] at hx
      simpa using (List.mem_filter.1 hx).2
    · rw [onChip_chip, lane_eq, modLane_lanes, tri_get_set_same]
      exact enqueue_queue (q := { (s.chip.lane l).fault with
        opened := (s.chip.lane l).fault.opened.filter fun x => !x.same { code := code, utype := t, inst := i, lane := die, agreed := agreed } }) hroom r
  case read =>
    obtain ⟨f, hreplies, hplain, hexec⟩ := exec_of_read (i := .recordRead r) rfl hadm hl h0 rfl
    have hchecks : checksRecordRead r (s.chip.modHost k f) = [] := by
      rw [checksRecordRead, quadFails, if_pos ⟨hlen, hzero⟩, if_neg (by omega)]
      rfl
    refine ⟨_, _, hexec hchecks, (finish_plain ..).trans hplain, (finish_link hl h0 hflag rfl).trans (congrArg (· ++ _) hreplies), rfl, ?_, rfl⟩
    have hsection : ∀ m, (recordSection (s.chip.lane m).fault (fld r.body 0 2) (fld r.body 2 2)).length = 16 * fld r.body 2 2 := fun m => by
      rw [recordSection, bytesAt, List.length_append, List.length_replicate]
      have := List.length_take_le (16 * fld r.body 2 2) (((((s.chip.lane m).fault.newestFirst.drop (fld r.body 0 2)).take (fld r.body 2 2)).flatMap FaultRec.quad).drop 0)
      omega
    show (r.lanes.flatMap fun m => recordSection (s.chip.lane m).fault (fld r.body 0 2) (fld r.body 2 2)).length = _
    rw [List.length_flatMap]
    simp only [hsection, List.map_const', List.sum_replicate, smul_eq_mul]
    rw [Nat.mul_comm]

/-! ### Link delays (R336, R338, R340) -/

theorem modPort_nt (c : Chip) (l : LaneId) (p : Nat) (f : NetPort → NetPort) : ((c.modPort l p f).lane l).clock = (c.lane l).clock := by
  rw [lane_eq, modPort_lanes, tri_get_set_same]
  rfl

theorem modPort_port (c : Chip) (l : LaneId) (p : Nat) (f : NetPort → NetPort) : (c.modPort l p f).portOf l p = nth (modNth (c.netOf l).ports p f) p {} := by
  rw [Chip.portOf, Chip.netOf, lane_eq, modPort_lanes, tri_get_set_same]
  rfl

theorem modPort_modPort (c : Chip) (l : LaneId) (p : Nat) (f g : NetPort → NetPort) :
    (c.modPort l p f).modPort l p g = c.modPort l p (fun x => g (f x)) := by
  have hlane : ∀ (n : Lane), ({ n with net := { n.net with ports := modNth (modNth n.net.ports p f) p g } } : Lane) =
      { n with net := { n.net with ports := modNth n.net.ports p (fun x => g (f x)) } } := fun n => by rw [modNth_modNth]
  rw [Chip.modPort, Chip.modPort, Chip.modPort]
  simp only [Chip.modLane, tri_get_set_same, tri_set_set]
  exact congrArg (fun n => ({ c with lanes := c.lanes.set l n } : Chip)) (hlane _)

theorem modPort_congr {c : Chip} {l : LaneId} {p : Nat} {f g : NetPort → NetPort} (h : f (c.portOf l p) = g (c.portOf l p)) :
    c.modPort l p f = c.modPort l p g := by
  have hports : modNth (c.lanes.get l).net.ports p f = modNth (c.lanes.get l).net.ports p g := modNth_congr _ _ _ _ {} h
  exact congrArg (fun ps => ({ c with lanes := c.lanes.set l { c.lanes.get l with net := { (c.lanes.get l).net with ports := ps } } } : Chip)) hports

/-- The frame of a probe request (R338). -/
def Chip.requestFrame (c : Chip) (l : LaneId) (p seq nt : Nat) : SentFrame :=
  { port := p, at_ := nt - sfdLag, bytes := probeBytes l.idx (c.parN Par.netNodeId) (c.parN Par.netEthertype) (probeBody 1 seq 0 0) }

/-- A request sent on a port leaves its departure with the port and its frame with the lane (R338). -/
def Chip.probeSent (c : Chip) (l : LaneId) (p : Nat) (f : NetPort → NetPort) (seq nt : Nat) : Chip :=
  (c.modPort l p f).modNet l (fun n => { n with out := n.out ++ [c.requestFrame l p seq nt] })

theorem sendProbe_eq (c : Chip) (l : LaneId) (p : Nat) : c.sendProbe l p =
    c.probeSent l p (fun x => { x with probeT1 := some (c.lane l).clock.nt }) (c.portOf l p).probeSeq (c.lane l).clock.nt := by
  simp only [Chip.sendProbe, Chip.sendPlain, Chip.netSend, modPort_nt]
  rfl

theorem portDown_port (c : Chip) (l : LaneId) (p : Nat) : ((c.portDown l p).portOf l p).up = false ∧ ((c.portDown l p).portOf l p).trained = false ∧
    ((c.portDown l p).portOf l p).delay = none := by
  rw [Chip.portDown, modPort_port]
  exact nth_modNth_of (P := fun x : NetPort => x.up = false ∧ x.trained = false ∧ x.delay = none) ⟨rfl, rfl, rfl⟩ (fun _ => ⟨rfl, rfl, rfl⟩) _ _

theorem meanDelay_bounds {xs : List Int} (hne : xs ≠ []) (hsum : 0 ≤ xs.foldl (· + ·) 0) :
    (meanDelay xs : Int) * xs.length ≤ xs.foldl (· + ·) 0 ∧ xs.foldl (· + ·) 0 < ((meanDelay xs : Int) + 1) * xs.length := by
  have hlen : (0 : Int) < xs.length := by
    have := List.length_pos_of_ne_nil hne
    omega
  have hmean : (meanDelay xs : Int) = xs.foldl (· + ·) 0 / xs.length := by
    rw [meanDelay, quo_of_nonneg hsum, Int.toNat_of_nonneg (Int.ediv_nonneg hsum hlen.le)]
  rw [hmean]
  exact ⟨Int.ediv_mul_le _ hlen.ne', Int.lt_ediv_add_one_mul_self _ hlen⟩

theorem foldl_add_nonneg (xs : List Int) (h : ∀ x ∈ xs, 0 ≤ x) : ∀ a : Int, 0 ≤ a → 0 ≤ xs.foldl (· + ·) a := by
  induction xs with
  | nil => exact fun _ h => h
  | cons x xs ih =>
    exact fun a ha => ih (fun y hy => h y (List.mem_cons_of_mem x hy)) _ (add_nonneg ha (h x List.mem_cons_self))

/-- Settles O26: each event is its equation for the port, and the mean is a quotient of a sum that is not negative. -/
theorem linkDelaysAreMeasured : Obligations.LinkDelaysAreMeasured := by
  refine ⟨fun s l k => ?_, fun xs hne hpos => meanDelay_bounds hne (foldl_add_nonneg xs hpos 0 le_rfl)⟩
  intro p nt wire sent
  refine ⟨fun hnet => ?up, fun hruns heven hup hfree hidle hmissing => ?request, fun q node hruns hodd hup hfree => ?answer,
    fun q t1 t2 t3 t4 node hruns ht1 hseq hfree => ?response, fun hruns ht1 => ⟨fun hfew => ?again, fun hmany => ?restart⟩, fun hup => ?lost⟩
  case up => exact next_congr (onChip_congr (if_pos hnet))
  case request =>
    refine next_congr ((onLane_of_runs hruns _).trans (onChip_congr ((if_pos ⟨heven, hup, hfree, hidle, hmissing⟩).trans ?_)))
    exact sendProbe_eq s.chip l k.val
  case answer =>
    refine next_congr ((onLane_of_runs hruns _).trans (onChip_congr ((if_pos ⟨hodd, hup, hfree⟩).trans ?_)))
    simp only [Chip.sendPlain, Chip.netSend, modPort_nt]
    rfl
  case response =>
    refine next_congr ((onLane_of_runs hruns _).trans (onChip_congr ?_))
    have ht1' : (s.chip.portOf l k.val).probeT1 = some t1 := ht1
    have hseq' : (s.chip.portOf l k.val).probeSeq = q.val := hseq
    have hfree' : (s.chip.portOf l k.val).fenced = false := hfree
    unfold probeResponse
    dsimp only
    rw [ht1']
    dsimp only
    rw [if_neg (by simp [hseq', hfree'])]
    simp only [List.length_append, List.length_singleton]
    exact modPort_congr rfl
  case again =>
    have ht1' : (s.chip.portOf l k.val).probeT1 ≠ none := ht1
    have hfew' : ¬ 2 ≤ (s.chip.portOf l k.val).unanswered := not_le.2 hfew
    refine next_congr ((onLane_of_runs hruns _).trans (onChip_congr ?_))
    unfold probeTimeout
    dsimp only
    rw [if_neg ht1', if_neg hfew', sendProbe_eq, Chip.probeSent, modPort_modPort, modPort_nt, modPort_port]
    have hseq : (nth (modNth (s.chip.netOf l).ports k.val (fun p => { p with unanswered := p.unanswered + 1 })) k.val {}).probeSeq = (s.chip.portOf l k.val).probeSeq := by
      rcases nth_modNth_cases (s.chip.netOf l).ports k.val k.val (fun p => { p with unanswered := p.unanswered + 1 }) {} with h | ⟨-, h⟩ <;> rw [h] <;> rfl
    rw [hseq]
    rfl
  case restart =>
    have ht1' : (s.chip.portOf l k.val).probeT1 ≠ none := ht1
    have hmany' : 2 ≤ (s.chip.portOf l k.val).unanswered := hmany
    have heq : probeTimeout l k s.chip = (s.chip.portFault l k.val 0x2101).portDown l k.val := (if_neg ht1').trans (if_pos hmany')
    obtain ⟨hup, -, hdelay⟩ := portDown_port (s.chip.portFault l k.val 0x2101) l k.val
    exact ⟨s.onChip fun c => (c.portFault l k.val 0x2101).portDown l k.val, next_congr ((onLane_of_runs hruns _).trans (onChip_congr heq)), rfl, hup, hdelay⟩
  case lost =>
    have heq : linkLost l k s.chip = (fun c : Chip => (if c.runs l then c.localFault l 0x2003 0x0B k.val l.idx else c).portDown l k.val) s.chip := if_pos hup
    exact ⟨_, next_congr (onChip_congr heq), rfl, portDown_port ..⟩


end Sys2Proof.Machine

namespace Sys2Proof.Machine
open Sys2Proof

/-! ### Parameters (R75, R86, R94, R552) -/

/-- The reply of an operation that a host link carries, in or outside a session. -/
theorem finish_replies {a : OpAttr} {r : Req} {o : OpOut} {l : LaneId} (hl : r.link = some l) (hflag : hasBit r.flags 0 = false) (hd : o.defer = false) :
    ∃ p : OutPacket, (o.finish a r).chip.dev.replies = o.st.chip.dev.replies ++ [(l, p)] ∧ p.status = o.status ∧ (r.session = 0 → p.payload = o.payload) := by
  obtain ⟨p, hreplies, -, -, hstatus, -, -, hpayload⟩ := reply_link o.st.chip a.code r o.status o.payload l hl (by rw [hflag]; exact not_suppressed_flag ..)
  rw [finish_eq_of_not_defer hd]
  exact ⟨p, hreplies, hstatus, hpayload⟩

theorem paramValue_alike {s g : State} (h : Alike s g) (id i : Nat) : g.chip.paramValue id i = s.chip.paramValue id i := by
  have hpar : ∀ p i, g.chip.par p i = s.chip.par p i := fun p i => h.par p i
  simp only [Chip.paramValue, h.cfg, hpar]

theorem readQuads_alike {s g : State} (h : Alike s g) (qs : List (List Byte)) : g.chip.readQuads qs = s.chip.readQuads qs := by
  induction qs with
  | nil => rfl
  | cons q qs ih => rw [Chip.readQuads, Chip.readQuads, paramValue_alike h, ih]

theorem ostRuns_alike {s g : State} (h : Alike s g) (t : Nat) : g.chip.ostRuns t = s.chip.ostRuns t := by
  have htargets : ∀ l, (g.chip.lane l).targets = (s.chip.lane l).targets := fun l => h.lane l Lane.targets fun _ _ => rfl
  simp only [Chip.ostRuns, htargets, h.pintle]

theorem targetSwitches_alike {s g : State} (h : Alike s g) (t : Nat) : g.chip.targetSwitches t = s.chip.targetSwitches t :=
  h.reads (fun c => c.targetSwitches t) fun _ _ _ => rfl

theorem groupRuns_alike {s g : State} (h : Alike s g) (k : Nat) : g.chip.groupRuns k = s.chip.groupRuns k := by
  simp only [Chip.groupRuns, targetSwitches_alike h, ostRuns_alike h]

theorem running_alike {s g : State} (h : Alike s g) (id i : Nat) : g.chip.running id i = s.chip.running id i := by
  have hact : g.chip.dev.actuation = s.chip.dev.actuation := h.field Dev.actuation fun _ _ => rfl
  unfold Chip.running
  split
  · rw [motors_alike h]
  · exact groupRuns_alike h _
  · rw [steppers_alike h]
  · rw [h.ws]
  · rw [h.cfg]
  · exact hact

theorem commissioningOpen_alike {s g : State} (h : Alike s g) : g.chip.commissioningOpen = s.chip.commissioningOpen := by
  have hact : g.chip.dev.actuation = s.chip.dev.actuation := h.field Dev.actuation fun _ _ => rfl
  rw [Chip.commissioningOpen, Chip.commissioningOpen, hact, isParked_alike h]

theorem entryFails_alike {s g : State} (h : Alike s g) (v : View) (n : Nat) (q : List Byte) : g.chip.entryFails v n q = s.chip.entryFails v n q := by
  have hact : g.chip.dev.actuation = s.chip.dev.actuation := h.field Dev.actuation fun _ _ => rfl
  simp only [Chip.entryFails, hact, running_alike h, commissioningOpen_alike h]

theorem firstFail_alike {s g : State} (h : Alike s g) (v : View) (n : Nat) (qs : List (List Byte)) : ∀ k,
    g.chip.firstFail v n k qs = s.chip.firstFail v n k qs := by
  induction qs with
  | nil => exact fun _ => rfl
  | cons q qs ih => exact fun k => by rw [Chip.firstFail, Chip.firstFail, entryFails_alike h, ih]

/-! #### One entry -/

theorem quadsOf_quad {p : List Byte} (h : p.length = 16) : quadsOf p = [p] := by
  rw [quadsOf, h]
  show [bytesAt p (16 * 0) 16] = [p]
  rw [bytesAt, Nat.mul_zero, List.drop_zero, ← h, List.take_length, Nat.sub_self, List.replicate_zero, List.append_nil]

theorem quadForm_quad {p : List Byte} (h : p.length = 16) : quadForm p = true := by simp [quadForm, h]

theorem parOfId_id {id : Nat} {p : PInfo} (h : parOfId id = some p) : p.id = id := by
  simpa using List.find?_some h

/-- The parameter of an entry with the identifier of FBK.HYST is that one, which an idle write changes (R173). -/
theorem hyst_of_entry {q : List Byte} {p : PInfo} {i : Nat} {x : Int} (h : entryOf q = some (p, i, x)) (hid : p.id = 0x1303) : p.cls = .idle := by
  unfold entryOf at h
  split at h
  · cases h
  · rename_i p' hp
    split at h
    · have hpp : p' = p := congrArg Prod.fst (Option.some.inj h)
      subst hpp
      rw [← parOfId_id hp, hid] at hp
      have hhyst : parOfId 0x1303 = some Par.fbkHyst := rfl
      rw [Option.some.inj (hp.symm.trans hhyst)]
      rfl
    · cases h

theorem recheck_pintle (c : Chip) : c.recheck.pintle = c.pintle := modCfg_pintle ..

theorem withCheck_sched (g : CfgState) (v : Nat) : ({ g with check := v } : CfgState).sched = g.sched := rfl

theorem recheck_cfg (c : Chip) : c.recheck.dev.cfg = { c.dev.cfg with check := checkValue c.dev.cfg.ws c.dev.cfg.sched } :=
  congrArg Dev.cfg (modCfg_dev ..)

theorem recheck_sched (c : Chip) : c.recheck.dev.cfg.sched = c.dev.cfg.sched := by
  rw [recheck_cfg, withCheck_sched]

theorem applyWrite_quad {q : List Byte} {p : PInfo} {i : Nat} {x : Int} (h : entryOf q = some (p, i, x)) (c : Chip) :
    c.applyWrite [q] = if p.cls = .commissioning then (c.applyEntry (p, i, x)).recheck else c.applyEntry (p, i, x) := by
  have hes : [q].filterMap entryOf = [(p, i, x)] := by simp [h]
  unfold Chip.applyWrite
  rw [hes]
  simp only [List.foldl_cons, List.foldl_nil, List.any_cons, List.any_nil, Bool.or_false, decide_eq_true_eq]

theorem applyEntry_boundary {p : PInfo} (h : p.cls = .boundary) (i : Nat) (x : Int) (c : Chip) : c.applyEntry (p, i, x) =
    c.modCfg (fun g => { g with shadow := g.shadow.filter (fun y => y.1 != parKey p.id i) ++ [(parKey p.id i, x)] }) := by
  unfold Chip.applyEntry
  dsimp only
  rw [h]

theorem applyEntry_anyTime {p : PInfo} (h : p.cls = .anyTime) (i : Nat) (x : Int) (c : Chip) : c.applyEntry (p, i, x) =
    c.modCfg (fun g => { g with ws := wsSet g.ws (parKey p.id i) x (p.dfltOf i) }) := by
  unfold Chip.applyEntry
  dsimp only
  rw [h]

theorem applyEntry_idle {p : PInfo} (h : p.cls = .idle) (i : Nat) (x : Int) (c : Chip) : c.applyEntry (p, i, x) =
    if p.id = 0x1303 ∧ c.par p i ≠ x then (c.modCfg (fun g => { g with ws := wsSet g.ws (parKey p.id i) x (p.dfltOf i) })).startHyst i
    else c.modCfg (fun g => { g with ws := wsSet g.ws (parKey p.id i) x (p.dfltOf i) }) := by
  unfold Chip.applyEntry
  dsimp only
  rw [h]
  simp only [decide_eq_true_eq]

theorem applyEntry_commissioning {p : PInfo} (h : p.cls = .commissioning) (i : Nat) (x : Int) (c : Chip) : c.applyEntry (p, i, x) =
    if c.par p i ≠ x then (c.modCfg (fun g => { g with ws := wsSet g.ws (parKey p.id i) x (p.dfltOf i) })).restartUnit p.id i
    else c.modCfg (fun g => { g with ws := wsSet g.ws (parKey p.id i) x (p.dfltOf i) }) := by
  unfold Chip.applyEntry
  dsimp only
  rw [h]
  simp only [decide_eq_true_eq]

theorem restartUnit_field (c : Chip) (id i : Nat) : (c.restartUnit id i).pintle = c.pintle ∧ (c.restartUnit id i).dev.cfg = c.dev.cfg := by
  unfold Chip.restartUnit
  split <;> exact ⟨rfl, rfl⟩

/-- An accepted entry changes of the settings the value in force or its shadow, and nothing of the Pintle die (R86). -/
theorem applyEntry_field (c : Chip) (p : PInfo) (i : Nat) (x : Int) : (c.applyEntry (p, i, x)).pintle = c.pintle ∧
    (c.applyEntry (p, i, x)).dev.cfg.sched = c.dev.cfg.sched ∧
    (p.cls ≠ .boundary → (c.applyEntry (p, i, x)).dev.cfg = { c.dev.cfg with ws := wsSet c.dev.cfg.ws (parKey p.id i) x (p.dfltOf i) }) := by
  cases h : p.cls
  case anyTime =>
    rw [applyEntry_anyTime h]
    exact ⟨rfl, rfl, fun _ => rfl⟩
  case boundary =>
    rw [applyEntry_boundary h]
    exact ⟨rfl, rfl, fun hne => absurd rfl hne⟩
  case idle =>
    rw [applyEntry_idle h]
    split <;> exact ⟨rfl, rfl, fun _ => rfl⟩
  case commissioning =>
    rw [applyEntry_commissioning h]
    split
    · obtain ⟨hpintle, hcfg⟩ := restartUnit_field (c.modCfg (fun g => { g with ws := wsSet g.ws (parKey p.id i) x (p.dfltOf i) })) p.id i
      exact ⟨hpintle, (congrArg CfgState.sched hcfg).trans rfl, fun _ => hcfg⟩
    · exact ⟨rfl, rfl, fun _ => rfl⟩

/-- The settings with a commissioning value changed, and the check value that follows it (R94). -/
def CfgState.commissioned (g : CfgState) (p : PInfo) (i : Nat) (x : Int) : CfgState :=
  let ws := wsSet g.ws (parKey p.id i) x (p.dfltOf i)
  { g with ws := ws, check := checkValue ws g.sched }

theorem awaitWidths_plain (c : Chip) (r : Req) (qs : List (List Byte)) : (c.awaitWidths r qs).plain = c.plain := by
  unfold Chip.awaitWidths
  refine foldl_plain _ (fun c e => ?_) _ c
  split
  · split
    · exact modHost_plain ..
    · rfl
  · rfl

/-- A write of one good entry leaves the state of its entry taken, but for the accounts (R75, R86). -/
theorem exec_paramWrite {s : State} {r : Req} {b : Block} {p : PInfo} {i : Nat} {x : Int} (hadm : s.admits (attrParamWrite b) r = true)
    (hlen : r.body.length = 16) (hentry : entryOf r.body = some (p, i, x))
    (hfails : s.chip.entryFails { s.chip.dev.cfg.view with ws := wsApply s.chip.dev.cfg.view.ws [(parKey p.id i, x)] } r.session r.body = []) :
    ∃ g t, Alike s g ∧ exec (.paramWrite b r) s = .next t ∧ Alike (g.onChip fun c => c.applyWrite [r.body]) t := by
  obtain ⟨g, halike, -, hexec⟩ := exec_of_admits (i := .paramWrite b r) rfl hadm
  have hkeys : writeKeys [r.body] = [(parKey p.id i, x)] := by simp [writeKeys, hentry]
  have hfirst : g.chip.firstFail { g.chip.dev.cfg.view with ws := wsApply g.chip.dev.cfg.view.ws (writeKeys [r.body]) } r.session 0 [r.body] = none := by
    rw [firstFail_alike halike, halike.cfg, hkeys, Chip.firstFail, hfails]
    rfl
  have heffect : effectParamWrite r g = OpOut.chip g (fun c => (c.applyWrite [r.body]).awaitWidths r [r.body]) := by
    unfold effectParamWrite
    dsimp only
    rw [quadsOf_quad hlen, hfirst]
  have hchecks : checksParamWrite r g.chip = [] := if_pos (quadForm_quad hlen)
  have hfinish := alike_finish (attrParamWrite b) r (effectParamWrite r g)
  refine ⟨g, _, halike, hexec hchecks, Alike.trans ?_ hfinish⟩
  rw [heffect]
  exact alike_of_plain (onChip_plain_congr (awaitWidths_plain ..))

theorem toLe_mod (n : Nat) : ∀ v, toLe n v = toLe n (v % 256 ^ n) := by
  induction n with
  | zero => exact fun _ => rfl
  | succ n ih =>
    intro v
    have hlow : v % 256 ^ (n + 1) % 256 = v % 256 := by rw [Nat.pow_succ, Nat.mod_mul_left_mod]
    have hhigh : v % 256 ^ (n + 1) / 256 = v / 256 % 256 ^ n := by rw [Nat.pow_succ, Nat.mul_comm, Nat.mod_mul_right_div_self]
    rw [toLe, toLe, hhigh, ← ih (v / 256)]
    refine congrArg (· :: _) (BitVec.eq_of_toNat_eq ?_)
    simp only [BitVec.toNat_ofNat]
    exact hlow.symm

theorem fld_head_mod (n v : Nat) (b : List Byte) : fld (toLe n v ++ b) 0 n = v % 256 ^ n := by
  rw [toLe_mod]
  exact fld_head n _ b (Nat.mod_lt _ (by positivity))

theorem checkQuad_value (c : Chip) : fld c.checkQuad 0 8 = c.dev.cfg.check % 2 ^ 64 := by
  have hpow : (256 : Nat) ^ 8 = 2 ^ 64 := by norm_num
  unfold Chip.checkQuad
  simp only [List.append_assoc]
  rw [fld_head_mod, hpow]

theorem checkQuad_commissioned (c : Chip) : fld c.checkQuad 8 1 = if c.commissioned then 1 else 0 := by
  unfold Chip.checkQuad
  simp only [List.append_assoc]
  refine (fld_skip 8 _ 0 1 _).trans ((fld_head_mod 1 _ _).trans ?_)
  split <;> rfl

/-- Settles O50: a read and a failing write answer what the settings in force give; a good entry takes effect by its class. -/
theorem parametersReadAndWrite : Obligations.ParametersReadAndWrite := by
  intro s r k hl hflag g
  refine ⟨fun b p hadm hform hread => ?read, fun b p i x hadm hlen hentry hfails => ?write, fun b n st q hadm hform hst hfirst => ?fails,
    fun hadm hbody => ?check⟩
  case read =>
    obtain ⟨t, halike, hreplies, hexec⟩ := exec_of_admits (i := .paramRead b r) rfl hadm
    have hquads : t.chip.readQuads (quadsOf r.body) = some p := (readQuads_alike halike _).trans hread
    have hchecks : checksParamRead r t.chip = [] := if_pos (by rw [hform, hquads]; rfl)
    obtain ⟨q, hq, hstatus, hpayload⟩ := finish_replies (a := attrParamRead b) (o := effectParamRead r t) hl hflag rfl
    refine ⟨_, q, hexec hchecks, (finish_plain ..).trans halike.plain, hq.trans (congrArg (· ++ _) hreplies), hstatus, fun h0 => (hpayload h0).trans ?_⟩
    show (t.chip.readQuads (quadsOf r.body)).getD [] = p
    rw [hquads]
    rfl
  case write =>
    obtain ⟨a, t, halike, hexec, hafter⟩ := exec_paramWrite hadm hlen hentry hfails
    obtain ⟨hpintle, hsched, hws⟩ := applyEntry_field a.chip p i x
    have hwrite := applyWrite_quad hentry a.chip
    have hplain {f : CfgState → CfgState} (h : a.chip.applyWrite [r.body] = a.chip.modCfg f) : t.plain = (s.onChip fun c => c.modCfg f).plain := by
      rw [hafter.plain, onChip_congr (f := fun c => c.applyWrite [r.body]) (g := fun c => c.modCfg f) h]
      exact plain_modDev halike _ fun _ _ => rfl
    have hpintle' : (a.chip.applyWrite [r.body]).pintle = a.chip.pintle := by
      rw [hwrite]
      split
      · rw [recheck_pintle]
        exact hpintle
      · exact hpintle
    have hsched' : (a.chip.applyWrite [r.body]).dev.cfg.sched = a.chip.dev.cfg.sched := by
      rw [hwrite]
      split
      · rw [recheck_sched]
        exact hsched
      · exact hsched
    refine ⟨t, hexec, hafter.mem.trans halike.mem, hafter.pintle.trans (hpintle'.trans halike.pintle), ?_, fun hcls => ?_, fun hcls => ?_, fun hid => ?_, fun hcls => ?_⟩
    · rw [hafter.cfg]
      exact hsched'.trans (congrArg CfgState.sched halike.cfg)
    · exact hplain (by rw [hwrite, if_neg (by rw [hcls]; decide), applyEntry_boundary hcls])
    · refine hplain ?_
      rcases hcls with hcls | ⟨hcls, hid⟩
      · rw [hwrite, if_neg (by rw [hcls]; decide), applyEntry_anyTime hcls]
      · rw [hwrite, if_neg (by rw [hcls]; decide), applyEntry_idle hcls, if_neg fun h => hid h.1]
    · have hcls := hyst_of_entry hentry hid
      rw [if_neg (by rw [hcls]; decide)] at hwrite
      refine ⟨?_, fun hne l => ?_⟩
      · rw [hafter.cfg, onChip_chip, hwrite, hws (by rw [hcls]; decide), halike.cfg]
      · rw [hafter.lane l Lane.fb fun _ _ => rfl, onChip_chip, hwrite, applyEntry_idle hcls, if_pos ⟨hid, by rw [halike.par]; exact hne⟩, ← halike.lane l Lane.fb fun _ _ => rfl]
        simp only [Chip.startHyst, lane_eq, modLanes_lanes, tri_get_mapIdx]
        rfl
    · rw [if_pos hcls] at hwrite
      have hcfg : t.chip.dev.cfg = s.chip.dev.cfg.commissioned p i x := by
        rw [hafter.cfg, onChip_chip, hwrite, recheck_cfg, hws (by rw [hcls]; decide), halike.cfg]
        rfl
      rw [hcfg]
      exact ⟨rfl, rfl, rfl⟩
  case fails =>
    obtain ⟨t, halike, hreplies, hexec⟩ := exec_of_admits (i := .paramWrite b r) rfl hadm
    have hfirst' : t.chip.firstFail { t.chip.dev.cfg.view with ws := wsApply t.chip.dev.cfg.view.ws (writeKeys (quadsOf r.body)) } r.session 0 (quadsOf r.body) =
        some (n, st, q) := by
      rw [firstFail_alike halike, halike.cfg]
      exact hfirst
    have heffect : effectParamWrite r t = { st := t, status := st, payload := failQuad n q } := by
      unfold effectParamWrite
      dsimp only
      rw [hfirst']
    obtain ⟨p, hp, hstatus, hpayload⟩ := finish_replies (a := attrParamWrite b) (o := { st := t, status := st, payload := failQuad n q }) hl hflag rfl
    refine ⟨_, p, (hexec (if_pos hform)).trans (next_congr (congrArg (fun o : OpOut => o.finish (attrParamWrite b) r) heffect)),
      (finish_plain ..).trans halike.plain, hp.trans (congrArg (· ++ _) hreplies), hstatus, hpayload⟩
  case check =>
    obtain ⟨t, halike, hreplies, hexec⟩ := exec_of_admits (i := .checkRead r) rfl hadm
    obtain ⟨q, hq, hstatus, hpayload⟩ := finish_replies (a := attrCheckRead) (o := effectCheckRead r t) hl hflag rfl
    refine ⟨_, q, hexec (by simp [checksCheckRead, payloadFails, hbody]), (finish_plain ..).trans halike.plain, hq.trans (congrArg (· ++ _) hreplies), hstatus,
      fun h0 => ?_, fun h0 => ?_⟩
    · rw [hpayload h0]
      exact (checkQuad_value t.chip).trans (by rw [halike.cfg])
    · rw [hpayload h0]
      exact (checkQuad_commissioned t.chip).trans (by rw [commissioned_alike halike])

end Sys2Proof.Machine

namespace Sys2Proof.Machine
open Sys2Proof


/-! ### Images, stores, confirmations and firmware (R89, R90, R95, R98, R100) -/

/-- A fold over the three lanes that changes of each one thing, reading an invariant of the fold. -/
theorem foldl_allLanes {σ α : Type} {f : σ → LaneId → σ} (p : σ → LaneId → α) {I : σ → Prop} {F : LaneId → α → α} (hI : ∀ x l, I x → I (f x l))
    (hne : ∀ x l k, k ≠ l → p (f x l) k = p x k) (hself : ∀ x l, I x → p (f x l) l = F l (p x l)) {x : σ} (hx : I x) :
    I (LaneId.all.foldl f x) ∧ ∀ k, p (LaneId.all.foldl f x) k = F k (p x k) := by
  have ha := hI x .a hx
  have hb := hI _ .b ha
  refine ⟨hI _ .c hb, fun k => ?_⟩
  show p (f (f (f x .a) .b) .c) k = _
  cases k with
  | a => rw [hne _ _ _ (by decide), hne _ _ _ (by decide), hself _ _ hx]
  | b => rw [hne _ _ _ (by decide), hself _ _ ha, hne _ _ _ (by decide)]
  | c => rw [hself _ _ hb, hne _ _ _ (by decide), hne _ _ _ (by decide)]

/-- The reply of a failing effect that a host link carries. -/
theorem finish_replies_failing {a : OpAttr} {r : Req} {o : OpOut} {l : LaneId} (hl : r.link = some l) (hst : o.status ≠ 0) (hd : o.defer = false) :
    ∃ p : OutPacket, (o.finish a r).chip.dev.replies = o.st.chip.dev.replies ++ [(l, p)] ∧ p.status = o.status := by
  obtain ⟨p, hreplies, -, -, hstatus, -⟩ := reply_link o.st.chip a.code r o.status o.payload l hl (not_suppressed _ _ _ _ hst)
  rw [finish_eq_of_not_defer hd]
  exact ⟨p, hreplies, hstatus⟩

theorem addPend_replies (c : Chip) (code : Nat) (r : Req) (p : PendOp) : (c.addPend code r p).dev.replies = c.dev.replies := by
  unfold Chip.addPend
  dsimp only
  split <;> rfl

theorem ownPdu_lanes (c : Chip) (n op tag st : Nat) (data : List Byte) : (c.ownPdu n op tag st data).2.lanes = c.lanes := modSession_lanes ..

theorem sendReply_lanes (c : Chip) (link : Option LaneId) (op : Nat) (tag : Byte) (session : Nat) (mask : Mask) (seq st : Nat) (data : List Byte) :
    (c.sendReply link op tag session mask seq st data).2.lanes = c.lanes := by
  have hput (d : Chip) (n : Nat) (b : List Byte) : (d.putPdu n b).lanes = d.lanes := rfl
  have hown := ownPdu_lanes c session op tag.toNat st data
  unfold Chip.sendReply
  by_cases h0 : session = 0
  · rw [if_pos h0]
    cases link with
    | some l => rfl
    | none => simp only [if_pos h0]
  · rw [if_neg h0]
    cases link with
    | some l => exact hown
    | none => simp only [if_neg h0]; exact (hput ..).trans hown

theorem finishAll_lanes (c : Chip) (test : PendOp → Bool) (st : Nat) (data : List Byte) : (c.finishAll test st data).lanes = c.lanes := by
  refine foldl_keeps Chip.lanes (fun c p => c.finalReply p st data) (fun c p => ?_) _ c
  have hkeep : ∀ (c : Chip) q, (c.keepReply p q).lanes = c.lanes := fun c q => by
    unfold Chip.keepReply
    split <;> rfl
  have hrelease : (c.releasePend p).lanes = c.lanes := by
    unfold Chip.releasePend
    dsimp only
    split <;> rfl
  show (if (c.releasePend p).suppressed p.session p.suppress st then c.releasePend p else
    ((c.releasePend p).sendReply p.link p.opcode p.tag p.session p.mask p.seq st data).2.keepReply p
      ((c.releasePend p).sendReply p.link p.opcode p.tag p.session p.mask p.seq st data).1).lanes = c.lanes
  split
  · exact hrelease
  · rw [hkeep, sendReply_lanes, hrelease]

theorem staged_alike {s g : State} (h : Alike s g) : g.staged = s.staged := by
  rw [State.staged, State.staged, leader_alike h, h.mem]

theorem onMem_get_same (s : State) (l : LaneId) (f : LaneMem → LaneMem) : (s.onMem l f).mem.get l = f (s.mem.get l) := tri_get_set_same ..

theorem onMem_get_ne (s : State) (l : LaneId) (f : LaneMem → LaneMem) {k : LaneId} (h : k ≠ l) : (s.onMem l f).mem.get k = s.mem.get k :=
  tri_get_set_ne _ _ _ _ h

/-! #### Image writes -/

/-- A lane's memories with the data quads of a block write in the staging image. -/
def LaneMem.stagedWith (r : Req) (m : LaneMem) : LaneMem := { m with staging := cellWrite m.staging (fld r.body 0 4) (r.body.drop 16) }

theorem effectImageWrite_mem (r : Req) (s : State) : (effectImageWrite r s).st.chip = s.chip ∧ ∀ l, (effectImageWrite r s).st.mem.get l =
    if s.chip.inAuth l then (s.mem.get l).stagedWith r else s.mem.get l := by
  refine foldl_allLanes (fun (x : State) l => x.mem.get l) (I := fun x => x.chip = s.chip)
    (F := fun l m => if s.chip.inAuth l then m.stagedWith r else m)
    (fun x l hx => ?_) (fun x l k hk => ?_) (fun x l hx => ?_) rfl
  · split
    · exact hx
    · exact hx
  · split
    · exact onMem_get_ne _ _ _ hk
    · rfl
  · rw [hx]
    split
    · exact onMem_get_same ..
    · rfl

/-! #### Stores -/

/-- Every lane in authority changed: the agreed data stay. -/
theorem foldl_modAuth (f : Lane → Lane) (c : Chip) :
    (LaneId.all.foldl (fun c l => if c.inAuth l then c.modLane l f else c) c).dev = c.dev ∧
      ∀ l, (LaneId.all.foldl (fun c l => if c.inAuth l then c.modLane l f else c) c).lanes.get l = if c.inAuth l then f (c.lanes.get l) else c.lanes.get l := by
  refine foldl_allLanes (fun (d : Chip) l => d.lanes.get l) (I := fun d => d.dev = c.dev) (F := fun l n => if c.inAuth l then f n else n)
    (fun x l hx => ?_) (fun x l k hk => ?_) (fun x l hx => ?_) rfl
  · split
    · exact hx
    · exact hx
  · split
    · exact tri_get_set_ne _ _ _ _ hk
    · rfl
  · have hin : x.inAuth l = c.inAuth l := by rw [Chip.inAuth, hx]; rfl
    rw [hin]
    split
    · exact tri_get_set_same ..
    · rfl

/-- A lane that begins a store: the header of the copy it writes is invalid first (R90). -/
def Lane.storingFirst (n : Lane) : Lane :=
  { n with
    work := { n.work with storing := true, committed := false }
    nvm := n.nvm.setCopy n.nvm.nextCopy { empty := false, wellFormed := false } }

/-- The store marked in every lane in authority. -/
def Chip.storingMarked (c : Chip) (source : Nat) (g : ImageCopy) : Chip :=
  LaneId.all.foldl (fun c l => if c.inAuth l then c.modLane l Lane.storingFirst else c) (c.modCfg (fun x => { x with storing := some (source, g) }))

theorem beginStore_eq (c : Chip) (source : Nat) (g : ImageCopy) (r : Req) : c.beginStore source g r = (c.storingMarked source g).addPend 0x3111 r {} := rfl

theorem beginStore_lanes (c : Chip) (source : Nat) (g : ImageCopy) (r : Req) : ∃ d : Chip, Noted d (c.beginStore source g r) ∧
    (c.beginStore source g r).dev.pend.length = c.dev.pend.length + 1 ∧ d.dev = { c.dev with cfg := { c.dev.cfg with storing := some (source, g) } } ∧
    ∀ l, d.lanes.get l = if c.inAuth l then (c.lanes.get l).storingFirst else c.lanes.get l := by
  obtain ⟨hdev, hlanes⟩ := foldl_modAuth Lane.storingFirst (c.modCfg (fun x => { x with storing := some (source, g) }))
  refine ⟨_, noted_addPend (c.storingMarked source g) 0x3111 r {}, ?_, hdev, hlanes⟩
  have hpend := congrArg (fun d : Dev => d.pend.length) hdev
  rw [beginStore_eq, addPend_pend, List.length_append]
  exact congrArg (· + 1) hpend

theorem commitStore_of_out {c : Chip} {l : LaneId} {ok : Bool} (h : c.dev.cfg.storing = none ∨ (c.lane l).work.storing = false ∨
    (c.lane l).work.committed = true ∨ c.inAuth l = false) : commitStore l ok c = c := by
  unfold commitStore
  split
  · rfl
  · rename_i hsome
    refine if_neg fun hall => ?_
    simp only [Bool.and_eq_true, Bool.not_eq_true'] at hall
    obtain ⟨⟨hs, hc⟩, ha⟩ := hall
    rcases h with h | h | h | h
    · exact absurd (h.symm.trans hsome) (by simp)
    · exact Bool.noConfusion (h.symm.trans hs)
    · exact Bool.noConfusion (h.symm.trans hc)
    · exact Bool.noConfusion (h.symm.trans ha)

theorem commitStore_of_in {c : Chip} {l : LaneId} {ok : Bool} {x : Nat × ImageCopy} (hstoring : c.dev.cfg.storing = some x)
    (hs : (c.lane l).work.storing = true) (hc : (c.lane l).work.committed = false) (ha : c.inAuth l = true) :
    commitStore l ok c = if ok && !((c.lane l).bist.regions.contains (22 + (c.lane l).nvm.nextCopy)) then
      c.modLane l (fun n => { n with
        work := { n.work with committed := true }
        nvm := n.nvm.setCopy n.nvm.nextCopy { x.2 with
          empty := false, wellFormed := true, seq := (c.lane l).nvm.nextSeq
          crc := fld (imageBytes x.2 (c.lane l).nvm.nextSeq) ((imageBytes x.2 (c.lane l).nvm.nextSeq).length - 4) 4 } })
      else c.failStore l := by
  unfold commitStore
  rw [hstoring]
  dsimp only
  rw [if_pos (by rw [hs, hc, ha]; rfl)]

theorem storeFails {ok : Bool} {xs : List Nat} {k : Nat} (h : ok = false ∨ xs.contains k = true) : ¬ (ok && !(xs.contains k)) = true := by
  rcases h with h | h <;> rw [h]
  · exact Bool.false_ne_true
  · rw [Bool.not_true, Bool.and_false]
    decide

theorem failStore_link {c : Chip} {l j : LaneId} {p : PendOp} (hp : c.dev.pend = [p]) (hop : p.opcode = 0x3111) (hl : p.link = some j) :
    ∃ q : OutPacket, (c.failStore l).dev.cfg.storing = none ∧ (c.failStore l).dev.pend = [] ∧ (c.failStore l).dev.replies = c.dev.replies ++ [(j, q)] ∧
      q.status = stNoResource ∧ ∀ k, ((c.failStore l).lane k).work.storing = false ∧ ((c.failStore l).lane k).nvm = (c.lane k).nvm := by
  have hfault := localFault_only c l 0x3102 0x17 (c.lane l).nvm.nextCopy l.idx
  have hdev := hfault.dev
  have hbefore : ∀ k, (((c.localFault l 0x3102 0x17 (c.lane l).nvm.nextCopy l.idx).lane k).nvm) = (c.lane k).nvm := fun k =>
    hfault.lanesAlike.lane k Lane.nvm fun _ _ => rfl
  unfold Chip.failStore
  dsimp only
  generalize c.localFault l 0x3102 0x17 (c.lane l).nvm.nextCopy l.idx = d at hdev hbefore
  obtain ⟨q, hreplies, hpend, -, hstatus, -⟩ := finishAll_link_of (c := (d.modCfg (fun g => { g with storing := none })).modLanes
    (fun _ n => { n with work := { n.work with storing := false, committed := false } })) (p := p) (l := j) (st := stNoResource)
    (show d.dev.pend = [p] by rw [hdev]; exact hp) hl (fun d => not_suppressed _ _ _ _ (by decide))
    (test := fun p => p.opcode == 0x3111) (by simp [hop]) []
  refine ⟨q, ?_, hpend, hreplies.trans ?_, hstatus, fun k => ?_⟩
  · rw [(noted_finishAll ..).field Dev.cfg fun _ _ _ => rfl]
    rfl
  · show d.dev.replies ++ _ = _
    rw [hdev]
  · rw [lane_eq, finishAll_lanes]
    simp only [modLanes_lanes, tri_get_mapIdx]
    exact ⟨trivial, hbefore k⟩

/-! #### Confirmations -/

/-- A lane whose slot write for a confirmation begins (R95). -/
def Lane.confirmingFirst (n : Lane) : Lane := { n with work := { n.work with confirming := true } }

/-- A lane whose slot holds the confirmed value (R95). -/
def Lane.confirmed (v : Nat) (n : Lane) : Lane := { n with work := { n.work with confirming := false }, nvm := n.nvm.confirmSlot v }

/-- The confirmation marked in every lane in authority. -/
def Chip.confirmingMarked (c : Chip) (v : Nat) : Chip :=
  LaneId.all.foldl (fun c l => if c.inAuth l then c.modLane l Lane.confirmingFirst else c) (c.modCfg (fun g => { g with confirm := some v }))

theorem effectCommissionConfirm_eq (r : Req) (s : State) : (effectCommissionConfirm r s).st.chip =
    (s.chip.confirmingMarked (if fld r.body 8 1 = 0 then fld r.body 0 8 else 0)).addPend 0x3113 r {} := rfl

theorem effectCommissionConfirm_chip (r : Req) (s : State) : ∃ d : Chip, Noted d (effectCommissionConfirm r s).st.chip ∧
    (effectCommissionConfirm r s).st.chip.dev.pend.length = s.chip.dev.pend.length + 1 ∧
    (effectCommissionConfirm r s).st.chip.dev.replies = s.chip.dev.replies ∧
    d.dev = { s.chip.dev with cfg := { s.chip.dev.cfg with confirm := some (if fld r.body 8 1 = 0 then fld r.body 0 8 else 0) } } ∧
    ∀ l, d.lanes.get l = if s.chip.inAuth l then (s.chip.lanes.get l).confirmingFirst else s.chip.lanes.get l := by
  obtain ⟨hdev, hlanes⟩ := foldl_modAuth Lane.confirmingFirst
    (s.chip.modCfg (fun x => { x with confirm := some (if fld r.body 8 1 = 0 then fld r.body 0 8 else 0) }))
  have hpend := congrArg (fun d : Dev => d.pend.length) hdev
  have hreplies := congrArg Dev.replies hdev
  refine ⟨_, noted_addPend (s.chip.confirmingMarked _) 0x3113 r {}, ?_, ?_, hdev, hlanes⟩
  · rw [effectCommissionConfirm_eq, addPend_pend, List.length_append]
    exact congrArg (· + 1) hpend
  · rw [effectCommissionConfirm_eq, addPend_replies]
    exact hreplies

theorem commissionWritten_of_some {c : Chip} {k : LaneId} {v : Nat} (h : c.dev.cfg.confirm = some v) (hk : (c.lane k).work.confirming = true) :
    commissionWritten k c = (c.modLane k (Lane.confirmed v)).confirmDone := by
  unfold commissionWritten
  rw [h]
  dsimp only
  rw [if_pos hk]
  rfl

theorem confirmDone_of_waiting {c : Chip} {j : LaneId} (ha : c.inAuth j = true) (hj : (c.lane j).work.confirming = true) : c.confirmDone = c := by
  have hany : c.authLanes.any (fun k => (c.lane k).work.confirming) = true := List.any_eq_true.2 ⟨j, (mem_authLanes ..).2 ha, hj⟩
  exact if_pos (by rw [hany, Bool.or_true])

theorem confirmDone_of_last {c : Chip} {v : Nat} (h : c.dev.cfg.confirm = some v) (hlast : ∀ i, (c.lane i).work.confirming = false) :
    c.confirmDone = (c.modCfg (fun g => { g with confirm := none })).finishAll (fun p => p.opcode == 0x3113) stOk [] := by
  have hany : c.authLanes.any (fun k => (c.lane k).work.confirming) = false := List.any_eq_false.2 fun i _ => by rw [hlast i]; decide
  exact if_neg (by rw [hany, h]; exact Bool.false_ne_true)

/-! #### Firmware -/

/-- A lane whose idle bank no longer holds the delivered firmware (R100). -/
def Lane.undelivered (n : Lane) : Lane :=
  { n with nvm := n.nvm.setBank n.nvm.idleBank { n.nvm.bankState n.nvm.idleBank with delivered := false } }

theorem bankState_setBank (n : Nvm) (k : Nat) (b : BankState) : (n.setBank k b).bankState k = b := by
  unfold Nvm.setBank Nvm.bankState
  split <;> rfl

theorem setBank_booted (n : Nvm) (k : Nat) (b : BankState) : (n.setBank k b).booted = n.booted := by
  unfold Nvm.setBank
  split <;> rfl

/-- What a firmware write does to one lane: its memories and its banks. -/
def fwLane (r : Req) (x : LaneMem × Lane) : LaneMem × Lane := (x.1.writeBank x.2.nvm.idleBank (fld r.body 0 4) (r.body.drop 16), x.2.undelivered)

/-- The firmware of one lane written, where it is in authority. -/
def State.fwWritten (r : Req) (s : State) (l : LaneId) : State := if s.chip.inAuth l then
  let k := (s.chip.lane l).nvm.idleBank
  (s.onMem l (fun m => m.writeBank k (fld r.body 0 4) (r.body.drop 16))).onChip (fun c =>
    c.modLane l (fun n => { n with nvm := n.nvm.setBank k { n.nvm.bankState k with delivered := false } })) else s

theorem foldl_fwWritten (r : Req) (s : State) : (LaneId.all.foldl (State.fwWritten r) s).chip.dev = s.chip.dev ∧
    ∀ l, ((LaneId.all.foldl (State.fwWritten r) s).mem.get l, (LaneId.all.foldl (State.fwWritten r) s).chip.lanes.get l) =
      if s.chip.inAuth l then fwLane r (s.mem.get l, s.chip.lanes.get l) else (s.mem.get l, s.chip.lanes.get l) := by
  refine foldl_allLanes (fun (x : State) l => (x.mem.get l, x.chip.lanes.get l)) (I := fun x => x.chip.dev = s.chip.dev)
    (F := fun l x => if s.chip.inAuth l then fwLane r x else x) (fun x l hx => ?_) (fun x l k hk => ?_) (fun x l hx => ?_) rfl
  · unfold State.fwWritten
    split
    · exact hx
    · exact hx
  · unfold State.fwWritten
    split
    · exact Prod.ext (tri_get_set_ne _ _ _ _ hk) (tri_get_set_ne _ _ _ _ hk)
    · rfl
  · have hin : x.chip.inAuth l = s.chip.inAuth l := by rw [Chip.inAuth, hx]; rfl
    rw [State.fwWritten, hin]
    split
    · exact Prod.ext (tri_get_set_same ..) (tri_get_set_same ..)
    · rfl

theorem effectFwWrite_st (r : Req) (s : State) :
    (effectFwWrite r s).st = (LaneId.all.foldl (State.fwWritten r) s).onChip (fun c => c.modCfg (fun g => { g with fwBusy := true })) := rfl

/-- The idle bank of a lane marked for its next boot, with what the checks found in it (R100). -/
def Lane.markedWith (look : BankState) (n : Lane) : Lane := { n with nvm := { n.nvm.setBank n.nvm.idleBank look with marked := n.nvm.idleBank } }

/-- What the checks found in a lane's idle bank. -/
def State.look (s : State) (l : LaneId) : BankState :=
  (s.chip.lane l).nvm.checked ((s.mem.get l).bank (s.chip.lane l).nvm.idleBank) (s.chip.lane l).nvm.idleBank

/-- Every lane is in authority, and the package in its idle bank passes (R100). -/
def State.packagesPass (s : State) : Bool := LaneId.all.all (fun l => s.chip.inAuth l &&
  bankPasses (s.chip.lane l).nvm ((s.mem.get l).bank (s.chip.lane l).nvm.idleBank) (s.chip.lane l).nvm.idleBank)

/-- The idle bank of some lane lies in a fenced region (R500). -/
def State.bankFenced (s : State) : Bool := LaneId.all.any (fun l => (s.chip.lane l).bist.regions.contains (20 + (s.chip.lane l).nvm.idleBank))

/-- The chip of an activation that ends, before its reply. -/
def State.activationEnded (s : State) : Chip :=
  let c := s.chip.modCfg (fun g => { g with fwActivating := false })
  if s.bankFenced then c else if s.packagesPass then c.modLanes (fun l n => n.markedWith (s.look l)) else c

theorem finishActivate_eq {s : State} (h : s.chip.dev.cfg.fwActivating = true) : ∃ data, finishActivate s =
    s.onChip (fun _ => s.activationEnded.finishAll (fun p => p.opcode == 0x3115)
      (if s.bankFenced then stNoResource else if s.packagesPass then stOk else stSignature) data) := by
  have hgo : ¬ (!s.chip.dev.cfg.fwActivating) = true := by rw [h]; decide
  unfold State.activationEnded
  cases hfenced : s.bankFenced with
  | true =>
    refine ⟨[], (if_neg hgo).trans ?_⟩
    exact congrArg (fun c => ({ s with chip := c } : State)) (if_pos hfenced)
  | false =>
    have hfenced' : ¬ s.bankFenced = true := by rw [hfenced]; decide
    cases hpass : s.packagesPass with
    | true =>
      refine ⟨toLe 4 (s.look .a).version ++ toLe 12 0, (if_neg hgo).trans ?_⟩
      exact congrArg (fun c => ({ s with chip := c } : State)) ((if_neg hfenced').trans (if_pos hpass))
    | false =>
      have hpass' : ¬ s.packagesPass = true := by rw [hpass]; decide
      refine ⟨[], (if_neg hgo).trans ?_⟩
      exact congrArg (fun c => ({ s with chip := c } : State)) ((if_neg hfenced').trans (if_neg hpass'))

/-- Settles O51: each operation's effect is one change of every lane in authority; each event's is its equation. -/
theorem storesConfirmationsAndFirmware : Obligations.StoresConfirmationsAndFirmware := by
  have hact {s g : State} (h : Alike s g) : g.chip.dev.actuation = s.chip.dev.actuation := h.field Dev.actuation fun _ _ => rfl
  have hstand {s g : State} (h : Alike s g) : g.chip.dev.standdown = s.chip.dev.standdown := h.field Dev.standdown fun _ _ => rfl
  have hcls {s g : State} (h : Alike s g) : g.chip.dev.cls = s.chip.dev.cls := h.field Dev.cls fun _ _ => rfl
  have hpend {s g : State} (h : Alike s g) : g.chip.dev.pend = s.chip.dev.pend := h.field Dev.pend fun _ _ => rfl
  refine ⟨fun s r k => ⟨fun hadm hblock hoff hfree => ?image, fun hadm hlen hzero hoff hfree hsd => ⟨fun hsource => ?store, fun hsource hbad hl => ?refused⟩,
    fun l ok => ⟨fun h => ?noCommit, fun x hstoring hs hc ha => ⟨fun hok hregion => ?commit, fun p j hbad hp hop hl => ?fail⟩⟩,
    fun hadm hlen hone hzero hoff hcheck hsd hfree => ?confirm, fun h => ?noConfirm, fun v hv hk => ⟨fun ⟨j, hj, ha, hw⟩ => ?waiting, fun p j hlast hp hop hl hsup => ?last⟩⟩,
    fun s r => ⟨fun hadm hblock hfree => ?write, rfl, fun hadm hbody hclass hoff hsd hfree => ?activate, fun h => ?noActivate, fun p k hon hp hop hl hsup => ?activated⟩⟩
  case image =>
    obtain ⟨g, halike, -, hexec⟩ := exec_of_admits (i := .imageWrite r) rfl hadm
    obtain ⟨hchip, hmem⟩ := effectImageWrite_mem r g
    have hchecks : checksImageWrite r g.chip = [] := by simp [checksImageWrite, hblock, hact halike, hoff, halike.cfg, hfree]
    refine ⟨_, hexec hchecks, ?_, fun l => ?_⟩
    · have hsame : (effectImageWrite r g).st.chip.plain = s.chip.plain := (congrArg Chip.plain hchip).trans (congrArg State.chip halike.plain)
      exact (congrArg State.chip (finish_plain ..)).trans hsame
    · rw [finish_mem]
      exact (hmem l).trans (by rw [halike.inAuth, halike.mem]; rfl)
  case store =>
    obtain ⟨g, halike, -, hexec⟩ := exec_of_admits (i := .cfgStore r) rfl hadm
    have hchecks : checksCfgStore r g.chip = [] := by
      simp [checksCfgStore, hlen, hzero, hsource, hact halike, hoff, halike.cfg, hfree, hstand halike, hsd]
    have heffect : effectCfgStore r g = { st := g.onChip (fun c => c.beginStore 0 c.dev.cfg.image r), status := stPending } := if_pos hsource
    obtain ⟨d, hnoted, hlength, hdev, hlanes⟩ := beginStore_lanes g.chip 0 g.chip.dev.cfg.image r
    have hfinish := alike_finish attrCfgStore r { st := g.onChip (fun c => c.beginStore 0 c.dev.cfg.image r), status := stPending }
    refine ⟨_, (hexec hchecks).trans (next_congr (congrArg (fun o : OpOut => o.finish attrCfgStore r) heffect)), ?_, ?_, ?_, fun l hl => ⟨?_, ?_⟩, fun l hl => ?_⟩
    · rw [finish_mem]
      exact halike.mem
    · refine hfinish.cfg.trans ((hnoted.field Dev.cfg fun _ _ _ => rfl).trans ?_)
      rw [hdev, halike.cfg]
    · exact (congrArg List.length (hpend hfinish)).trans (hlength.trans (by rw [hpend halike]))
    · refine (hfinish.lane l (fun n => n.work.storing) fun _ _ => rfl).trans ((hnoted.lanes.lane l (fun n => n.work.storing) fun _ _ => rfl).trans ?_)
      rw [lane_eq, hlanes, if_pos (by rw [halike.inAuth, hl])]
      rfl
    · refine (hfinish.lane l Lane.nvm fun _ _ => rfl).trans ((hnoted.lanes.lane l Lane.nvm fun _ _ => rfl).trans ?_)
      rw [lane_eq, hlanes, if_pos (by rw [halike.inAuth, hl]), ← halike.lane l Lane.nvm fun _ _ => rfl]
      rfl
    · refine (hfinish.lane l Lane.plain fun _ _ => rfl).trans ((hnoted.lanes.lane l Lane.plain fun _ _ => rfl).trans ?_)
      rw [lane_eq, hlanes, if_neg (by rw [halike.inAuth, hl]; decide)]
      exact halike.lane l Lane.plain fun _ _ => rfl
  case refused =>
    obtain ⟨g, halike, hreplies, hexec⟩ := exec_of_admits (i := .cfgStore r) rfl hadm
    have hchecks : checksCfgStore r g.chip = [] := by
      simp [checksCfgStore, hlen, hzero, hsource, hact halike, hoff, halike.cfg, hfree, hstand halike, hsd]
    have heffect : effectCfgStore r g = { st := g, status := stImage } :=
      (if_neg (by rw [hsource]; decide)).trans (if_neg (by rw [staged_alike halike, hbad]; decide))
    obtain ⟨p, hp, hst⟩ := finish_replies_failing (a := attrCfgStore) (o := { st := g, status := stImage }) hl (by simp [stImage]) rfl
    exact ⟨_, p, (hexec hchecks).trans (next_congr (congrArg (fun o : OpOut => o.finish attrCfgStore r) heffect)), (finish_plain ..).trans halike.plain,
      hp.trans (congrArg (· ++ _) hreplies), hst⟩
  case noCommit => exact next_congr (congrArg (fun c => ({ s with chip := c } : State)) (commitStore_of_out h))
  case commit =>
    have heq := (commitStore_of_in (ok := ok) hstoring hs hc ha).trans (if_pos (by rw [hok, hregion]; rfl))
    refine ⟨_, _, next_congr (congrArg (fun c => ({ s with chip := c } : State)) heq), rfl, rfl, rfl, rfl, rfl, rfl⟩
  case fail =>
    have heq := (commitStore_of_in (ok := ok) hstoring hs hc ha).trans (if_neg (storeFails hbad))
    obtain ⟨q, hcfg, hnone, hreplies, hst, hlanes⟩ := failStore_link (l := l) hp hop hl
    exact ⟨_, q, next_congr (congrArg (fun c => ({ s with chip := c } : State)) heq), rfl, hcfg, hnone, hreplies, hst, hlanes⟩
  case confirm =>
    obtain ⟨g, halike, hreplies, hexec⟩ := exec_of_admits (i := .commissionConfirm r) rfl hadm
    have hchecks : checksCommissionConfirm r g.chip = [] := by
      have hmatch : ¬ (fld r.body 8 1 = 0 ∧ fld r.body 0 8 ≠ s.chip.dev.cfg.check) := fun h => h.2 (hcheck h.1)
      simp only [checksCommissionConfirm, hact halike, halike.cfg, hstand halike]
      rw [if_pos ⟨hlen, hone, hzero⟩, hoff, if_neg hmatch, hsd, hfree]
      rfl
    obtain ⟨d, hnoted, hlength, hkept, hdev, hlanes⟩ := effectCommissionConfirm_chip r g
    have hfinish := alike_finish attrCommissionConfirm r (effectCommissionConfirm r g)
    refine ⟨_, hexec hchecks, ?_, ?_, hkept.trans hreplies, ?_, fun l => ?_⟩
    · exact hfinish.mem.trans halike.mem
    · refine hfinish.cfg.trans ((hnoted.field Dev.cfg fun _ _ _ => rfl).trans ?_)
      rw [hdev, halike.cfg]
    · exact (congrArg List.length (hpend hfinish)).trans (hlength.trans (by rw [hpend halike]))
    · refine (hfinish.lane l Lane.plain fun _ _ => rfl).trans ((hnoted.lanes.lane l Lane.plain fun _ _ => rfl).trans ?_)
      rw [lane_eq, hlanes, halike.inAuth]
      split
      · exact halike.lane l (fun n => n.confirmingFirst.plain) fun _ _ => rfl
      · exact halike.lane l Lane.plain fun _ _ => rfl
  case noConfirm =>
    refine next_congr (congrArg (fun c => ({ s with chip := c } : State)) ?_)
    unfold commissionWritten
    rw [h]
  case waiting =>
    refine next_congr (congrArg (fun c => ({ s with chip := c } : State)) ((commissionWritten_of_some hv hk).trans ?_))
    refine confirmDone_of_waiting (j := j) ha ?_
    rw [lane_eq, modLane_lanes, tri_get_set_ne _ _ _ _ hj]
    exact hw
  case last =>
    have hnone (i : LaneId) : ((s.chip.modLane k (Lane.confirmed v)).lane i).work.confirming = false := by
      rw [lane_eq, modLane_lanes]
      by_cases hi : i = k
      · rw [hi, tri_get_set_same]
        rfl
      · rw [tri_get_set_ne _ _ _ _ hi]
        exact hlast i hi
    have heq := (commissionWritten_of_some hv hk).trans (confirmDone_of_last hv hnone)
    obtain ⟨q, hreplies, hgone, -, hst, -⟩ := finishAll_link (c := (s.chip.modLane k (Lane.confirmed v)).modCfg (fun g => { g with confirm := none }))
      (p := p) (l := j) hp hl hsup (test := fun p => p.opcode == 0x3113) (by simp [hop]) stOk []
    refine ⟨_, q, next_congr (congrArg (fun c => ({ s with chip := c } : State)) heq), rfl, (noted_finishAll ..).field Dev.cfg fun _ _ _ => rfl, ?_, hgone,
      hreplies, hst, fun i hi => ?_⟩
    · rw [lane_eq, finishAll_lanes, modCfg_lanes, modLane_lanes, tri_get_set_same]
      rfl
    · rw [lane_eq, finishAll_lanes, modCfg_lanes, modLane_lanes, tri_get_set_ne _ _ _ _ hi]
      rfl
  case write =>
    obtain ⟨g, halike, -, hexec⟩ := exec_of_admits (i := .fwWrite r) rfl hadm
    have hchecks : checksFwWrite r g.chip = [] := by simp [checksFwWrite, hblock, halike.cfg, hfree]
    obtain ⟨hdev, hlanes⟩ := foldl_fwWritten r g
    have hfinish := alike_finish attrFwWrite r (effectFwWrite r g)
    have hnvm (l : LaneId) : (g.chip.lanes.get l).nvm = (s.chip.lane l).nvm := halike.lane l Lane.nvm fun _ _ => rfl
    refine ⟨_, hexec hchecks, ?_, fun l hl => ?_, fun l hl => ?_⟩
    · refine hfinish.cfg.trans ?_
      have hcfg := congrArg (fun d : Dev => { d.cfg with fwBusy := true }) hdev
      exact hcfg.trans (by rw [halike.cfg])
    · have h := (hlanes l).trans (if_pos (by rw [halike.inAuth, hl]))
      have hlane := congrArg Prod.snd h
      have hnvm' := (hfinish.lane l Lane.nvm fun _ _ => rfl).trans (congrArg Lane.nvm hlane)
      refine ⟨?_, ?_, ?_⟩
      · rw [finish_mem]
        refine (congrArg Prod.fst h).trans ?_
        simp only [fwLane, hnvm, halike.mem]
      · rw [hnvm', ← hnvm]
        simp only [fwLane, Lane.undelivered, bankState_setBank]
      · rw [hnvm', ← hnvm]
        simp only [fwLane, Lane.undelivered, setBank_booted]
    · have h := (hlanes l).trans (if_neg (by rw [halike.inAuth, hl]; decide))
      have hlane := congrArg Prod.snd h
      refine ⟨?_, ?_⟩
      · rw [finish_mem]
        exact (congrArg Prod.fst h).trans (by rw [halike.mem])
      · refine (hfinish.lane l Lane.plain fun _ _ => rfl).trans ((congrArg Lane.plain hlane).trans ?_)
        exact halike.lane l Lane.plain fun _ _ => rfl
  case activate =>
    obtain ⟨g, halike, -, hexec⟩ := exec_of_admits (i := .fwActivate r) rfl hadm
    have hchecks : checksFwActivate r g.chip = [] := by
      simp [checksFwActivate, payloadFails, hbody, hcls halike, hclass, hact halike, hoff, hstand halike, hsd, halike.cfg, hfree]
    have hfinish := alike_finish attrFwActivate r (effectFwActivate r g)
    have hnoted := noted_addPend (g.chip.modCfg (fun g => { g with fwActivating := true })) 0x3115 r {}
    refine ⟨_, hexec hchecks, ?_, ?_, ?_, fun l => ?_⟩
    · exact hfinish.mem.trans halike.mem
    · refine hfinish.cfg.trans ((hnoted.field Dev.cfg fun _ _ _ => rfl).trans ?_)
      exact congrArg (fun x : CfgState => { x with fwActivating := true }) halike.cfg
    · refine (congrArg List.length (hpend hfinish)).trans ((congrArg List.length (addPend_pend ..)).trans ?_)
      rw [List.length_append]
      exact congrArg (fun x : List PendOp => x.length + 1) (hpend halike)
    · refine (hfinish.lane l Lane.plain fun _ _ => rfl).trans ((hnoted.lanes.lane l Lane.plain fun _ _ => rfl).trans ?_)
      exact halike.lane l Lane.plain fun _ _ => rfl
  case noActivate => exact next_congr (if_pos (by rw [h]; rfl))
  case activated =>
    intro idle bank passes fenced good
    obtain ⟨data, heq⟩ := finishActivate_eq hon
    have hpass : s.packagesPass = LaneId.all.all (fun l => s.chip.inAuth l && passes l) := rfl
    have hgood : good = (!s.bankFenced && s.packagesPass) := rfl
    have hdev : s.activationEnded.dev = { s.chip.dev with cfg := { s.chip.dev.cfg with fwActivating := false } } := by
      unfold State.activationEnded
      dsimp only
      split
      · rfl
      · split <;> rfl
    obtain ⟨q, hreplies, hgone, -, hst, -⟩ := finishAll_link (c := s.activationEnded)
      (p := p) (l := k) ((congrArg Dev.pend hdev).trans hp) hl hsup (test := fun p => p.opcode == 0x3115) (by simp [hop])
      (if s.bankFenced then stNoResource else if s.packagesPass then stOk else stSignature) data
    have hexec : exec .fwActivateDone s = .next (finishActivate s) := rfl
    rw [heq] at hexec
    refine ⟨_, q, hexec, rfl, ?_, hgone, hreplies.trans (congrArg (fun d => d.replies ++ _) hdev), ?_, fun hbad => ?_, fun hok l => ?_⟩
    · exact ((noted_finishAll ..).field Dev.cfg fun _ _ _ => rfl).trans (congrArg Dev.cfg hdev)
    · rw [hst]
      show (if s.bankFenced then stNoResource else if s.packagesPass then stOk else stSignature) =
        (if s.bankFenced then stNoResource else if !s.bankFenced && s.packagesPass then stOk else stSignature)
      cases s.bankFenced <;> rfl
    · refine (finishAll_lanes ..).trans ?_
      unfold State.activationEnded
      dsimp only
      split
      · rfl
      · rename_i hfenced
        have hfenced' : s.bankFenced = false := Bool.eq_false_iff.2 hfenced
        rw [if_neg (by rw [hgood, hfenced'] at hbad; rw [show s.packagesPass = false from hbad]; decide)]
        rfl
    · have hfenced : s.bankFenced = false := by
        cases h : s.bankFenced
        · rfl
        · rw [hgood, h] at hok
          exact hok.symm
      have hpasses : s.packagesPass = true := by rw [hgood, hfenced] at hok; exact hok
      have hlane : (s.activationEnded.finishAll (fun p => p.opcode == 0x3115) (if s.bankFenced then stNoResource else if s.packagesPass then stOk else
          stSignature) data).lane l = (s.chip.lane l).markedWith (s.look l) := by
        rw [lane_eq, finishAll_lanes]
        unfold State.activationEnded
        dsimp only
        rw [if_neg (by rw [hfenced]; decide), if_pos hpasses, modLanes_lanes, tri_get_mapIdx]
        rfl
      have hnvm := congrArg Lane.nvm hlane
      refine ⟨congrArg Nvm.marked hnvm, ?_, ?_⟩
      · exact (congrArg Nvm.booted hnvm).trans (setBank_booted ..)
      · exact (congrArg (fun n => Nvm.bankState n (idle l)) hnvm).trans (bankState_setBank ..)

end Sys2Proof.Machine

namespace Sys2Proof.Machine
open Sys2Proof


/-! ### Settings in force (R86) -/

theorem wsGet_wsErase_same (xs : List (Nat × Int)) (k : Nat) (d : Int) : wsGet (wsErase xs k) k d = d := by
  induction xs with
  | nil => rfl
  | cons x xs ih =>
    by_cases h : x.1 = k
    · rw [wsErase, List.filter_cons_of_neg (by simp [h])]
      exact ih
    · rw [wsErase, List.filter_cons_of_pos (by simp [h])]
      exact (if_neg h).trans ih

theorem wsGet_wsErase_ne {k j : Nat} (h : j ≠ k) (xs : List (Nat × Int)) (d : Int) : wsGet (wsErase xs k) j d = wsGet xs j d := by
  induction xs with
  | nil => rfl
  | cons x xs ih =>
    by_cases hx : x.1 = k
    · rw [wsErase, List.filter_cons_of_neg (by simp [hx])]
      exact ih.trans (if_neg (by rw [hx]; exact h.symm)).symm
    · rw [wsErase, List.filter_cons_of_pos (by simp [hx])]
      exact congrArg (fun v => if x.1 = j then x.2 else v) ih

theorem wsGet_wsInsert_same (xs : List (Nat × Int)) (k : Nat) (v d : Int) : wsGet (wsInsert xs k v) k d = v := by
  induction xs with
  | nil => exact if_pos rfl
  | cons x xs ih =>
    rw [wsInsert]
    split
    · exact if_pos rfl
    · split
      · exact if_pos rfl
      · exact (if_neg (Ne.symm ‹_›)).trans ih

theorem wsGet_wsInsert_ne {k j : Nat} (h : j ≠ k) (xs : List (Nat × Int)) (v d : Int) : wsGet (wsInsert xs k v) j d = wsGet xs j d := by
  induction xs with
  | nil => exact if_neg h.symm
  | cons x xs ih =>
    rw [wsInsert]
    split
    · exact if_neg h.symm
    · split
      · rename_i hk
        exact (if_neg h.symm).trans (if_neg (by rw [← hk]; exact h.symm)).symm
      · exact congrArg (fun w => if x.1 = j then x.2 else w) ih

theorem wsGet_wsSet_same (xs : List (Nat × Int)) (k : Nat) (v d : Int) : wsGet (wsSet xs k v d) k d = v := by
  unfold wsSet
  split
  · rename_i h
    rw [wsGet_wsErase_same, h]
  · exact wsGet_wsInsert_same ..

theorem wsGet_wsSet_ne {k j : Nat} (h : j ≠ k) (xs : List (Nat × Int)) (v d e : Int) : wsGet (wsSet xs k v d) j e = wsGet xs j e := by
  unfold wsSet
  split
  · exact wsGet_wsErase_ne h ..
  · exact wsGet_wsInsert_ne h ..

/-! ### Network time in a device (R342, R344, R346, R352, R357, R553) -/

theorem modLane_modLane (c : Chip) (l : LaneId) (f g : Lane → Lane) : (c.modLane l f).modLane l g = c.modLane l (fun n => g (f n)) := by
  have hlanes : ((c.modLane l f).modLane l g).lanes = (c.modLane l (fun n => g (f n))).lanes := tri_ext fun k => by
    simp only [modLane_lanes]
    by_cases hk : k = l
    · simp only [hk, tri_get_set_same]
    · simp only [tri_get_set_ne _ _ _ _ hk]
  exact congrArg (fun ls => ({ c with lanes := ls } : Chip)) hlanes

theorem modNet_modNet (c : Chip) (l : LaneId) (f g : Ocgal → Ocgal) : (c.modNet l f).modNet l g = c.modNet l (fun n => g (f n)) := modLane_modLane ..

theorem netOf_modNet (c : Chip) (l : LaneId) (f : Ocgal → Ocgal) : (c.modNet l f).netOf l = f (c.netOf l) :=
  congrArg Lane.net (tri_get_set_same ..)

/-- A change of one unit is the same as setting it to what it becomes. -/
theorem modNet_const (c : Chip) (l : LaneId) (f : Ocgal → Ocgal) : c.modNet l f = c.modNet l (fun _ => f (c.netOf l)) := by
  have hlanes : (c.modNet l f).lanes = (c.modNet l (fun _ => f (c.netOf l))).lanes := tri_ext fun k => by
    rw [Chip.modNet, Chip.modNet, modLane_lanes, modLane_lanes]
    by_cases hk : k = l
    · rw [hk, tri_get_set_same, tri_get_set_same]
      rfl
    · rw [tri_get_set_ne _ _ _ _ hk, tri_get_set_ne _ _ _ _ hk]
  exact congrArg (fun ls => ({ c with lanes := ls } : Chip)) hlanes

/-- A unit with delay data taken into the chain of their channel (R342). -/
def Ocgal.tookDelay (chan : Fin 2) (d : DelayData) (n : Ocgal) : Ocgal :=
  { n with
    chainA := if chan.val = 0 then chainPut n.chainA d else n.chainA
    chainB := if chan.val = 1 then chainPut n.chainB d else n.chainB
    delayAsked := if d.phase = 3 then setBit n.delayAsked chan.val true else n.delayAsked }

theorem fixDelays_of_fixed {c : Chip} {l : LaneId} (h : (c.netOf l).lineDelays.isSome = true) :
    c.fixDelays l = c.modNet l (fun n => { n with posA := c.netPosition l 0, posB := c.netPosition l 1 }) := by
  obtain ⟨x, hx⟩ := Option.isSome_iff_exists.1 h
  unfold Chip.fixDelays
  dsimp only
  rw [hx]

theorem delayFrame_of_fixed {c : Chip} {l : LaneId} {ch : Fin 2} {d : DelayData} (hdown : (c.netOf l).phase ≠ .down) (htest : (c.netOf l).phase ≠ .test)
    (h : (c.netOf l).lineDelays.isSome = true) : ∃ a b, delayFrame l ch d c = c.modNet l (fun n => { n.tookDelay ch d with posA := a, posB := b }) := by
  refine ⟨_, _, (if_neg (by simp [hdown, htest])).trans ((fixDelays_of_fixed ?_).trans (modNet_modNet ..))⟩
  rw [netOf_modNet]
  exact h

theorem gotMark_of {c : Chip} {l src : LaneId} {q : Rx TimeMark} {x : TimeMark} (hne : l ≠ src) (hlink : (c.linkAt (linkIdx l src)).fenced = false)
    (hq : q = .other x ∨ q = .intact ∧ c.runs src = true ∧ x = c.sentMark src) : c.gotMark l src q = some x := by
  unfold Chip.gotMark
  rw [if_neg (by simp [hne, hlink])]
  rcases hq with rfl | ⟨rfl, hruns, rfl⟩
  · rfl
  · exact if_pos hruns

theorem clockOffset_of_far {c : Chip} {l : LaneId} {o : Int} (hfar : c.par Par.timeStepTh < dist o 0) (hphase : (c.netOf l).phase = .recovery) :
    c.clockOffset l o = (c.modClock l (fun k => { k with nt := ((k.nt : Int) - o).toNat % 2 ^ 64, frac := 0, lastOff := none })).modNet l
      (fun n => n.stepped o) := by
  unfold Chip.clockOffset
  dsimp only
  exact if_pos (by simp [hfar, hphase])

/-- The offset of a lane's NT from a time mark, the delay of the lane link taken off (R346). -/
def Chip.markOffset (c : Chip) (l : LaneId) (x : TimeMark) : Int := (c.lane l).clock.nt - ((x.stamp : Int) + Config.laneLinkDelay)

/-- A lane that takes a correction, a cycle and the state LANE from a time mark (R346). -/
def Lane.tookMark (o : Int) (m : Ocgal) (n : Lane) : Lane :=
  { n with
    clock := { n.clock with nt := ((n.clock.nt : Int) - o).toNat % 2 ^ 64, frac := 0, lastOff := none, tstate := .lane, gotSync := true }
    net := { n.net with
      ports := n.net.ports.map (fun p => { p with busy := 0, buffered := none }), counter := m.counter, matrix := m.matrix, start := m.start } }

theorem timeMark_of_recovery {c : Chip} {l src : LaneId} {q : Rx TimeMark} {x : TimeMark} (hgot : c.gotMark l src q = some x) (hne : l ≠ src)
    (hphase : (c.netOf l).phase = .recovery) (hleads : (c.lane src).clock.tstate.leads = true) (hfar : c.par Par.timeStepTh < dist (c.markOffset l x) 0) :
    timeMark l src q c = c.modLane l (Lane.tookMark (c.markOffset l x) (c.netOf src)) := by
  have hapart : c.planesApart l src x (c.markOffset l x) = false := by simp [Chip.planesApart, hphase]
  unfold timeMark
  rw [hgot]
  dsimp only
  rw [if_neg (by exact ne_true_of_eq_false hapart), if_pos (by rw [hleads, hphase]; rfl), if_pos hphase]
  rw [show ((c.lane l).clock.nt : Int) - ((x.stamp : Int) + Config.laneLinkDelay) = c.markOffset l x from rfl, clockOffset_of_far hfar hphase]
  have hsrc : ((((c.modClock l (fun k => { k with nt := ((k.nt : Int) - c.markOffset l x).toNat % 2 ^ 64, frac := 0, lastOff := none })).modNet l
      (fun n => n.stepped (c.markOffset l x))).modClock l (fun k => { k with tstate := .lane, gotSync := true })).netOf src) = c.netOf src := by
    simp only [Chip.netOf, Chip.modClock, Chip.modNet, lane_eq, modLane_lanes, tri_get_set_ne _ _ _ _ hne.symm]
  rw [hsrc]
  simp only [Chip.modClock, Chip.modNet, modLane_modLane]
  rfl

theorem modLane_congr {c : Chip} {l : LaneId} {f g : Lane → Lane} (h : ∀ n, f n = g n) : c.modLane l f = c.modLane l g := by rw [funext h]

theorem periodMark_of_paced {c : Chip} {l p : LaneId} (hp : c.pacingLane = some p) (hne : p ≠ l) (hlocked : c.dev.locked = false) (ha : c.inAuth l = true)
    (hlink : (c.linkAt (linkIdx l p)).fenced = false) :
    periodMark l c = c.modClock l (fun k => { k with nt := (c.lane p).clock.nt, frac := (c.lane p).clock.frac }) := by
  unfold periodMark
  rw [hp]
  exact if_neg (by simp [hlocked, hne, ha, hlink])

theorem netSynced_alike {s g : State} (h : Alike s g) : g.chip.netSynced = s.chip.netSynced := by
  have hagreed : g.chip.dev.agreed = s.chip.dev.agreed := h.field Dev.agreed fun _ _ => rfl
  rw [Chip.netSynced, Chip.netSynced, h.authLanes, hagreed]

theorem withWs_at_same (xs : List (Nat × Int)) (v : Int) : Par.timeStartNt.at (wsSet xs (parKey Par.timeStartNt.id 0) v 0) 0 = v := wsGet_wsSet_same ..

/-- What TIME.READ answers (R357). -/
def timeBytes (c : Chip) : List Byte :=
  toLe 8 c.dev.sn ++ toLe 1 (if c.netSynced then 1 else 0) ++ toLe 7 0 ++
    LaneId.all.flatMap (fun l => toLe 8 (if hasLane c.dev.aset l then c.dev.agreed.nts.get l else 0) ++ toLe 8 0)

/-- The three lanes' NT after the head quad of TIME.READ. -/
theorem timeBytes_eq (c : Chip) : timeBytes c = toLe 8 c.dev.sn ++ (toLe 1 (if c.netSynced then 1 else 0) ++ (toLe 7 0 ++
    (toLe 8 (if hasLane c.dev.aset .a then c.dev.agreed.nts.get .a else 0) ++ (toLe 8 0 ++
    (toLe 8 (if hasLane c.dev.aset .b then c.dev.agreed.nts.get .b else 0) ++ (toLe 8 0 ++
    (toLe 8 (if hasLane c.dev.aset .c then c.dev.agreed.nts.get .c else 0) ++ (toLe 8 0 ++ [])))))))) := by
  simp only [timeBytes, LaneId.all, List.flatMap_cons, List.flatMap_nil, List.append_assoc]

theorem timeBytes_length (c : Chip) : (timeBytes c).length = 64 := by
  rw [timeBytes_eq]
  simp only [List.length_append, toLe_length, List.length_nil]

theorem timeBytes_nt (c : Chip) (j : LaneId) : fld (timeBytes c) (16 + 16 * j.idx) 8 = if hasLane c.dev.aset j then c.dev.agreed.nts.get j % 2 ^ 64 else 0 := by
  have hpow : (256 : Nat) ^ 8 = 2 ^ 64 := by norm_num
  have hvalue : ∀ (b : Bool) (v : Nat), (if b = true then v else 0) % 256 ^ 8 = if b = true then v % 2 ^ 64 else 0 := fun b v => by
    cases b
    · exact Nat.zero_mod _
    · exact congrArg (v % ·) hpow
  have hskip (n v k : Nat) (b : List Byte) : fld (toLe n v ++ b) (n + k) 8 = fld b k 8 := fld_skip n v k 8 b
  rw [timeBytes_eq, ← hvalue]
  cases j with
  | a => exact (hskip 8 _ 8 _).trans ((hskip 1 _ 7 _).trans ((hskip 7 _ 0 _).trans (fld_head_mod 8 _ _)))
  | b => exact (hskip 8 _ 24 _).trans ((hskip 1 _ 23 _).trans ((hskip 7 _ 16 _).trans ((hskip 8 _ 8 _).trans ((hskip 8 _ 0 _).trans (fld_head_mod 8 _ _)))))
  | c => exact (hskip 8 _ 40 _).trans ((hskip 1 _ 39 _).trans ((hskip 7 _ 32 _).trans ((hskip 8 _ 24 _).trans ((hskip 8 _ 16 _).trans
      ((hskip 8 _ 8 _).trans ((hskip 8 _ 0 _).trans (fld_head_mod 8 _ _)))))))

theorem recheck_withCfg (c : Chip) (f : CfgState → CfgState) : (c.modCfg f).recheck =
    c.modDev (fun d => { d with cfg := { f c.dev.cfg with check := checkValue (f c.dev.cfg).ws (f c.dev.cfg).sched } }) := by
  unfold Chip.recheck
  generalize checkValue = h
  rfl

/-- Settles O27: each event of network time is its equation; the operations read the agreed data and write one parameter. -/
theorem lanesFollowNetworkTime : Obligations.LanesFollowNetworkTime := by
  intro s l
  refine ⟨fun ch d hruns hdown htest hfixed => ?delay, fun hruns hfor hstate hnot => ?holdover,
    fun src q x hruns hne hlink hq hphase hleads => ?mark, fun p hp hne hlocked ha hlink => ?period, fun r k hl h0 hflag hadm hbody => ?read,
    fun r hadm hlen hzero => ?epoch⟩
  case delay =>
    obtain ⟨a, b, heq⟩ := delayFrame_of_fixed (ch := ch) (d := d) hdown htest hfixed
    have hexec : exec (.delayFrame l ch d) s = .next (s.onChip (delayFrame l ch d)) := congrArg Host.Outcome.next (onLane_of_runs hruns _)
    have hnet : ((s.onChip (delayFrame l ch d)).chip.netOf l) = { (s.chip.netOf l).tookDelay ch d with posA := a, posB := b } := by
      rw [onChip_chip, heq, netOf_modNet]
    refine ⟨_, hexec, ?_, ?_, ?_, ?_⟩
    · rw [hnet]
      rfl
    · rw [hnet]
      rfl
    · rw [hnet]
      rfl
    · refine onChip_congr (g := fun c => c.modNet l (fun _ => (s.onChip (delayFrame l ch d)).chip.netOf l)) ?_
      rw [heq, hnet]
      exact modNet_const s.chip l _
  case holdover =>
    refine (congrArg Host.Outcome.next (onLane_of_runs hruns _)).trans (next_congr (congrArg (fun c => ({ s with chip := c } : State)) ?_))
    exact if_pos ⟨hstate, hnot, hfor⟩
  case mark =>
    intro o hfar
    refine (congrArg Host.Outcome.next (onLane_of_runs hruns _)).trans (next_congr (congrArg (fun c => ({ s with chip := c } : State)) ?_))
    refine (timeMark_of_recovery (gotMark_of hne hlink hq) hne hphase hleads hfar).trans ?_
    simp only [Chip.modClock, Chip.modNet, modLane_modLane]
    exact modLane_congr fun _ => rfl
  case period => exact next_congr (congrArg (fun c => ({ s with chip := c } : State)) (periodMark_of_paced hp hne hlocked ha hlink))
  case read =>
    obtain ⟨g, halike, hreplies, hexec⟩ := exec_of_admits (i := .timeRead r) rfl hadm
    have hagreed : g.chip.dev.agreed = s.chip.dev.agreed := halike.field Dev.agreed fun _ _ => rfl
    have haset : g.chip.dev.aset = s.chip.dev.aset := halike.field Dev.aset fun _ _ => rfl
    have hsn : g.chip.dev.sn = s.chip.dev.sn := halike.field Dev.sn fun _ _ => rfl
    have hbytes : timeBytes g.chip = timeBytes s.chip := by rw [timeBytes, timeBytes, netSynced_alike halike, hagreed, haset, hsn]
    obtain ⟨p, hp, hstatus, hpayload⟩ := finish_replies (a := attrTimeRead) (o := effectTimeRead r g) hl hflag rfl
    have hpayload' : p.payload = timeBytes s.chip := (hpayload h0).trans hbytes
    refine ⟨_, p, hexec (by simp [checksNone, payloadFails, hbody]), (finish_plain ..).trans halike.plain, hp.trans (congrArg (· ++ _) hreplies), hstatus, ?_, ?_, ?_,
      fun j => ?_⟩ <;> rw [hpayload']
    · exact timeBytes_length _
    · rw [timeBytes_eq]
      exact (fld_head_mod 8 _ _).trans (congrArg (s.chip.dev.sn % ·) (by norm_num))
    · rw [timeBytes_eq]
      refine (fld_skip 8 _ 0 1 _).trans ((fld_head_mod 1 _ _).trans ?_)
      split <;> rfl
    · exact timeBytes_nt ..
  case epoch =>
    obtain ⟨g, halike, -, hexec⟩ := exec_of_admits (i := .epochSet r) rfl hadm
    have hchecks : checksEpochSet r g.chip = [] := by simp [checksEpochSet, quadFails, hlen, hzero]
    have hfinish := alike_finish attrEpochSet r (effectEpochSet r g)
    have hcfg : ((effectEpochSet r g).finish attrEpochSet r).chip.dev.cfg = { s.chip.dev.cfg with
        ws := wsSet s.chip.dev.cfg.ws (parKey Par.timeStartNt.id 0) (fld r.body 0 8) 0
        check := checkValue (wsSet s.chip.dev.cfg.ws (parKey Par.timeStartNt.id 0) (fld r.body 0 8) 0) s.chip.dev.cfg.sched } := by
      rw [hfinish.cfg, ← halike.cfg]
      exact recheck_cfg _
    refine ⟨_, hexec hchecks, ?_, ?_, ?_, fun p i hp => ?_⟩
    · rw [hcfg]
      exact withWs_at_same ..
    · refine hfinish.plain.trans ?_
      rw [hcfg, ← halike.cfg]
      refine Eq.trans (congrArg State.plain (congrArg (fun c => ({ g with chip := c } : State)) (recheck_withCfg g.chip _))) ?_
      exact plain_modDev halike (fun d => { d with cfg := _ }) fun _ _ => rfl
    · rw [hcfg]
    · rw [hcfg]
      exact wsGet_wsSet_ne hp ..

end Sys2Proof.Machine

namespace Sys2Proof.Machine
open Sys2Proof


/-! ### The enable lines (R410) -/

/-- The enable line of a lane is asserted, as the die and the lane stand (R410). -/
def Chip.lineOn (c : Chip) (x : PLane) (n : Lane) : Bool := c.pintleUp && x.presents && !n.sio.stageFenced && !c.pintle.holding

/-- What the enable line makes of a lane's part in the die, and of the lane. -/
def Chip.lineSet (c : Chip) (x : PLane × Lane) : PLane × Lane :=
  ({ x.1 with enable := c.lineOn x.1 x.2 },
    { x.2 with sio := { x.2.sio with enabled := x.2.sio.enabled || (c.lineOn x.1 x.2 && !x.2.boot.fenced) } })

/-- The second chip is the first but for what the enable lines change: the lines, and the enable switches of the lanes. -/
structure LinesOnly (c d : Chip) : Prop where
  bridges : d.bridges = c.bridges
  links : d.links = c.links
  fresh : d.fresh = c.fresh
  dev : d.dev = c.dev
  pintle : d.pintle = { c.pintle with lanes := d.pintle.lanes }
  plane : ∀ l, d.pintle.lanes.get l = { c.pintle.lanes.get l with enable := (d.pintle.lanes.get l).enable }
  lanes : ∀ l, d.lanes.get l = { c.lanes.get l with sio := { (c.lanes.get l).sio with enabled := (d.lanes.get l).sio.enabled } }

/-- One lane's enable line set. -/
def Chip.lineStep (c : Chip) (l : LaneId) : Chip :=
  let on := c.pintleUp && (c.pintle.lanes.get l).presents && !(c.lane l).sio.stageFenced && !c.pintle.holding
  let c := c.modPLane l (fun p => { p with enable := on })
  if on && !(c.lane l).boot.fenced then c.modSio l (fun x => { x with enabled := true }) else c

theorem lineStep_eq (c : Chip) (l : LaneId) : c.lineStep l = { c with
    lanes := c.lanes.set l (c.lineSet (c.pintle.lanes.get l, c.lanes.get l)).2
    pintle := { c.pintle with lanes := c.pintle.lanes.set l (c.lineSet (c.pintle.lanes.get l, c.lanes.get l)).1 } } := by
  have hstep : c.lineStep l = if (c.lineOn (c.pintle.lanes.get l) (c.lanes.get l) && !(c.lanes.get l).boot.fenced) = true
      then (c.modPLane l (fun p => { p with enable := c.lineOn (c.pintle.lanes.get l) (c.lanes.get l) })).modSio l (fun x => { x with enabled := true })
      else c.modPLane l (fun p => { p with enable := c.lineOn (c.pintle.lanes.get l) (c.lanes.get l) }) := rfl
  rw [hstep, Chip.lineSet]
  cases c.lineOn (c.pintle.lanes.get l) (c.lanes.get l) && !(c.lanes.get l).boot.fenced with
  | true =>
    rw [if_pos rfl, Bool.or_true]
    rfl
  | false =>
    rw [if_neg Bool.false_ne_true, Bool.or_false]
    exact congrArg (fun ls => ({ c.modPLane l (fun p => { p with enable := c.lineOn (c.pintle.lanes.get l) (c.lanes.get l) }) with lanes := ls } : Chip))
      (tri_set_get ..).symm

theorem enableLines_eq (c : Chip) : c.enableLines = LaneId.all.foldl Chip.lineStep c := rfl

/-- The chip apart from its lanes and the die's part of them. -/
def Chip.frameOf (c : Chip) : Chip := { c with lanes := Tri.all {}, pintle := { c.pintle with lanes := Tri.all {} } }

theorem lineSet_congr {c d : Chip} (h : d.frameOf = c.frameOf) (x : PLane × Lane) : d.lineSet x = c.lineSet x := by
  have hp := congrArg Chip.pintle h
  have hup : d.pintleUp = c.pintleUp := (congrArg (fun p : Pintle => p.powered && !p.fenced) hp :)
  have hhold : d.pintle.holding = c.pintle.holding := (congrArg Pintle.holding hp :)
  simp only [Chip.lineSet, Chip.lineOn, hup, hhold]

/-- The enable lines set in all lanes (R410). -/
theorem enableLines_lanes (c : Chip) : c.enableLines.frameOf = c.frameOf ∧
    ∀ l, (c.enableLines.pintle.lanes.get l, c.enableLines.lanes.get l) = c.lineSet (c.pintle.lanes.get l, c.lanes.get l) := by
  rw [enableLines_eq]
  refine foldl_allLanes (fun (d : Chip) l => (d.pintle.lanes.get l, d.lanes.get l)) (I := fun d => d.frameOf = c.frameOf) (F := fun _ x => c.lineSet x)
    (fun x l hx => ?_) (fun x l k hk => ?_) (fun x l hx => ?_) rfl
  · rw [lineStep_eq]
    exact hx
  · rw [lineStep_eq]
    exact Prod.ext (tri_get_set_ne _ _ _ _ hk) (tri_get_set_ne _ _ _ _ hk)
  · rw [lineStep_eq, ← lineSet_congr hx]
    exact Prod.ext (tri_get_set_same ..) (tri_get_set_same ..)

theorem enableLines_only (c : Chip) : LinesOnly c c.enableLines := by
  obtain ⟨hframe, hlanes⟩ := enableLines_lanes c
  have hp := congrArg Chip.pintle hframe
  have hplane (l : LaneId) : c.enableLines.pintle.lanes.get l = (c.lineSet (c.pintle.lanes.get l, c.lanes.get l)).1 := (congrArg Prod.fst (hlanes l) :)
  have hlane (l : LaneId) : c.enableLines.lanes.get l = (c.lineSet (c.pintle.lanes.get l, c.lanes.get l)).2 := (congrArg Prod.snd (hlanes l) :)
  refine ⟨(congrArg Chip.bridges hframe :), (congrArg Chip.links hframe :), (congrArg Chip.fresh hframe :), (congrArg Chip.dev hframe :), ?_, fun l => ?_, fun l => ?_⟩
  · have h := congrArg (fun p : Pintle => { p with lanes := c.enableLines.pintle.lanes }) hp
    exact h
  · rw [hplane l]
    rfl
  · rw [hlane l]
    rfl

theorem enableLines_enable (c : Chip) (l : LaneId) : (c.enableLines.pintle.lanes.get l).enable = c.lineOn (c.pintle.lanes.get l) (c.lanes.get l) :=
  congrArg (fun x : PLane × Lane => x.1.enable) ((enableLines_lanes c).2 l)

theorem LinesOnly.out {c d : Chip} (h : LinesOnly c d) : d.pintle.outs = c.pintle.outs := by
  rw [h.pintle]

/-! ### Faults of paths and replicas (R17, R246, R248) -/

theorem targetOf_pintle (g : Fin 30) : ¬ targetOf (.pintle g) < 2 := by
  revert g
  decide

theorem modTarget_pintle (c : Chip) (l : LaneId) (g : Fin 30) (f : Target → Target) :
    c.modTarget l (targetOf (.pintle g)) f = c.modPintle (fun p => { p with targets := modNth p.targets (targetOf (.pintle g) - 2) f }) :=
  if_neg (targetOf_pintle g)

/-- The edge of a number that a packet asks of a leg, in steps of 1.25 ns (R245). -/
def edgeAt (f : Fallback) (j n : Nat) : Nat := 8 * (nth f.entries (2 * j + n) 0).toNat

/-- An edge is off its packet's time: more than 100 ns away, or missing by then (R246). -/
def edgeOff (want : Nat) (e : Option Nat) (at_ : Nat) : Bool :=
  match e with
  | some y => decide (80 < dist y want)
  | none => decide (want + 80 < at_)

/-- What R246 calls a deviation of a line from its packet. -/
def Deviates (f : Fallback) (j : Nat) (x : LinePattern) (at_ : Nat) : Prop :=
  x.mark = false ∨ x.highAtBoundary = true ∨
    (legMode f.modes j = 1 ∧ edgeAt f j 0 < edgeAt f j 1 ∧ (edgeOff (edgeAt f j 0) x.rise at_ = true ∨ edgeOff (edgeAt f j 1) x.fall at_ = true)) ∨
    (¬(legMode f.modes j = 1 ∧ edgeAt f j 0 < edgeAt f j 1) ∧ (x.rise.isSome = true ∨ x.fall.isSome = true))

theorem lineFails_eq (f : Fallback) (j : Nat) (x : LinePattern) (at_ : Nat) : lineFails f j x at_ = (!x.mark || x.highAtBoundary ||
    (if legMode f.modes j = 1 ∧ edgeAt f j 0 < edgeAt f j 1 then edgeOff (edgeAt f j 0) x.rise at_ || edgeOff (edgeAt f j 1) x.fall at_
      else x.rise.isSome || x.fall.isSome)) := by
  unfold lineFails edgeOff
  cases x.rise <;> cases x.fall <;> rfl

theorem lineFails_iff (f : Fallback) (j : Nat) (x : LinePattern) (at_ : Nat) : lineFails f j x at_ = true ↔ Deviates f j x at_ := by
  rw [lineFails_eq, Deviates]
  by_cases h : legMode f.modes j = 1 ∧ edgeAt f j 0 < edgeAt f j 1
  · rw [if_pos h]
    simp only [Bool.or_eq_true, Bool.not_eq_true', h.1, h.2, true_and, and_self, not_true, false_and, or_false, or_assoc]
  · rw [if_neg h]
    have hnot : ¬ (legMode f.modes j = 1 ∧ edgeAt f j 0 < edgeAt f j 1 ∧ (edgeOff (edgeAt f j 0) x.rise at_ = true ∨ edgeOff (edgeAt f j 1) x.fall at_ = true)) :=
      fun hh => h ⟨hh.1, hh.2.1⟩
    simp only [Bool.or_eq_true, Bool.not_eq_true', h, hnot, not_false_eq_true, true_and, false_or, or_assoc]

/-- A line's deviation counted in the die, with its report (R246). -/
def Chip.lineMarked (c : Chip) (g : Fin 30) (h : LaneId) : Chip :=
  let d := (c.modPLane h (fun p => { p with devNow := p.devNow ++ [g.val], devRecorded := true })).modTarget .a (targetOf (.pintle g))
    (fun x => { x with deviating := satInc 65535 x.deviating })
  if (c.pintle.lanes.get h).devRecorded then d else d.pintleFault 0x110B 0x03 h.idx

/-- The check of a line of a period with a valid packet of a lane. -/
theorem lineDeviation_eq {c : Chip} {g : Fin 30} {h : LaneId} {i : Nat} {f : Fallback} (hup : c.pintleUp = true)
    (hby : (nth c.pintle.outs (targetOut (targetOf (.pintle g))) {}).by_ = some h)
    (hhas : (nth c.pintle.outs (targetOut (targetOf (.pintle g))) {}).hasPacket = true)
    (hpacket : nth (c.pintle.lanes.get h).packets (targetOut (targetOf (.pintle g))) none = some (i, f)) (x : LinePattern) (at_ : Nat) :
    lineDeviation g x at_ c = if (c.pintle.lanes.get h).failedLines.contains g.val || (c.pintle.lanes.get h).devNow.contains g.val ||
      !lineFails f (g.val - (targetLegs (targetOf (.pintle g))).1) x at_ then c else c.lineMarked g h := by
  unfold lineDeviation
  dsimp only
  rw [hby]
  dsimp only
  rw [hup, hhas, hpacket]
  rfl

theorem pathLost_of_quiet {c : Chip} {l : LaneId} (hheard : (c.pintle.lanes.get l).unheard < 2) (hlines : (c.pintle.lanes.get l).failedLines = []) :
    c.pathLost l = false := by
  unfold Chip.pathLost
  dsimp only
  rw [hlines]
  simp only [List.any_nil, Bool.or_false, decide_eq_false_iff_not]
  omega

theorem pathLost_of {c : Chip} {l : LaneId} (h : 2 ≤ (c.pintle.lanes.get l).unheard ∨ ∃ g : Fin 30, g.val ∈ (c.pintle.lanes.get l).failedLines ∧
    c.parN Par.gdrLineLimit ≤ nth (c.pintle.lanes.get l).missing (targetOut (targetOf (.pintle g))) 0) : c.pathLost l = true := by
  unfold Chip.pathLost
  dsimp only
  rcases h with h | ⟨g, hmem, hmissing⟩
  · rw [decide_eq_true h, Bool.true_or]
  · rw [List.any_eq_true.2 ⟨g.val, hmem, by rw [dif_pos g.isLt]; exact decide_eq_true hmissing⟩, Bool.or_true]

/-- A replica has disagreed within the last second (R17). -/
def Chip.disagreedLately (c : Chip) (k : LaneId) : Bool :=
  match c.pintle.replicaNt.get k with
  | some t => decide (c.legNt (.pintle 0) ≤ t + 1000000000)
  | none => false

theorem replicaDisagree_eq {c : Chip} {r : Fin 3} {k : LaneId} (hk : LaneId.ofIdx r.val = some k) (hup : c.pintleUp = true)
    (hfree : c.pintle.replicaFenced.get k = false) : replicaDisagree r c = if c.pintle.replicaFenced.toList.any id then c.fencePintle.pintleFault 0x0204 0x05 0 else
      let d := c.modPintle (fun p => { p with replicaNt := p.replicaNt.set k (some (c.legNt (.pintle 0))) })
      if c.disagreedLately k then (d.modPintle (fun p => { p with replicaFenced := p.replicaFenced.set k true })).pintleFault 0x0203 0x04 r.val
      else d.pintleFault 0x0202 0x04 r.val := by
  have hgo : ¬ (!c.pintleUp || c.pintle.replicaFenced.get k) = true := by rw [hup, hfree]; decide
  unfold replicaDisagree
  rw [hk]
  exact if_neg hgo

/-- The die fenced, before its enable lines fall. -/
def Pintle.fencedNow (p : Pintle) : Pintle :=
  { p with
    fenced := true, armed := false, holding := false, db := []
    outs := p.outs.map (fun o => { o with gap := false, limit := false, by_ := none, hasPacket := false, driven := {}, lastPassed := {} }) }

theorem fencePintle_eq (c : Chip) : c.fencePintle = (c.modPintle Pintle.fencedNow).enableLines := rfl

/-- Settles O43: a line, a path and a replica each have one equation that says when they fail and what is reported. -/
theorem pintleFaultsAreReported : Obligations.PintleFaultsAreReported := by
  intro s hpowered hfenced
  have hup : s.chip.pintleUp = true := by rw [Chip.pintleUp, hpowered, hfenced]; rfl
  refine ⟨fun g h i f x at_ => ?line, fun l => ⟨fun hquiet => ?quiet, fun hfailed hlost => ?path⟩, fun r k hk hfree => ⟨fun hnone => ⟨fun hfirst => ?first,
    fun t0 hlast hsoon => ?again⟩, fun hsome => ?die⟩⟩
  case line =>
    intro k j edge off deviates hby hhas hpacket
    have heq := lineDeviation_eq hup hby hhas hpacket x at_
    have hdev : lineFails f j x at_ = true ↔ deviates := lineFails_iff f j x at_
    refine ⟨fun hnot => ?_, fun hdeviates hlines hnow => ?_⟩
    · refine next_congr (congrArg (fun c => ({ s with chip := c } : State)) (heq.trans (if_pos ?_)))
      have : lineFails f j x at_ = false := Bool.eq_false_iff.2 fun h => hnot (hdev.1 h)
      rw [show lineFails f (g.val - (targetLegs (targetOf (.pintle g))).1) x at_ = false from this, Bool.not_false, Bool.or_true]
    · have hfails : lineFails f (g.val - (targetLegs (targetOf (.pintle g))).1) x at_ = true := hdev.2 hdeviates
      rw [if_neg (by rw [hlines, hnow, hfails]; decide)] at heq
      have hexec : exec (.lineDeviation g x at_) s = .next (s.onChip (lineDeviation g x at_)) := rfl
      have hself : ((s.chip.modPLane h (fun p => { p with devNow := p.devNow ++ [g.val], devRecorded := true })).pintle.lanes.get h) =
        { s.chip.pintle.lanes.get h with devNow := (s.chip.pintle.lanes.get h).devNow ++ [g.val], devRecorded := true } := tri_get_set_same ..
      rw [Chip.lineMarked, modTarget_pintle] at heq
      cases hrec : (s.chip.pintle.lanes.get h).devRecorded with
      | true =>
        rw [if_pos hrec] at heq
        refine ⟨_, hexec, rfl, ?_, ?_, ?_, ?_, ?_, ?_⟩ <;> rw [onChip_chip, heq]
        · rfl
        · rfl
        · exact congrArg PLane.devNow hself
        · exact congrArg PLane.devRecorded hself
        · exact (List.append_nil _).symm
        · rfl
      | false =>
        rw [if_neg (by rw [hrec]; exact Bool.false_ne_true)] at heq
        refine ⟨_, hexec, rfl, ?_, ?_, ?_, ?_, ?_, ?_⟩ <;> rw [onChip_chip, heq]
        · rfl
        · rfl
        · exact congrArg PLane.devNow hself
        · exact congrArg PLane.devRecorded hself
        · rfl
        · rfl
  case quiet =>
    refine next_congr (congrArg (fun c => ({ s with chip := c } : State)) (if_pos ?_))
    rcases hquiet with h | ⟨h, hlines⟩
    · rw [h, Bool.or_true, Bool.true_or]
    · rw [pathLost_of_quiet h hlines, Bool.not_false, Bool.or_true]
  case path =>
    refine next_congr (congrArg (fun c => ({ s with chip := c } : State)) (if_neg ?_))
    rw [hpowered, hfailed, pathLost_of hlost]
    decide
  case first =>
    refine next_congr (congrArg (fun c => ({ s with chip := c } : State)) ((replicaDisagree_eq hk hup hfree).trans ((if_neg ?_).trans ?_)))
    · rw [hnone]
      exact Bool.false_ne_true
    · exact if_neg (by rw [Chip.disagreedLately, hfirst]; exact Bool.false_ne_true)
  case again =>
    refine next_congr (congrArg (fun c => ({ s with chip := c } : State)) ((replicaDisagree_eq hk hup hfree).trans ((if_neg ?_).trans ?_)))
    · rw [hnone]
      exact Bool.false_ne_true
    · exact if_pos (by rw [Chip.disagreedLately, hlast]; exact decide_eq_true hsoon)
  case die =>
    have heq := (replicaDisagree_eq hk hup hfree).trans (if_pos hsome)
    have hexec : exec (.replicaDisagree r) s = .next (s.onChip (replicaDisagree r)) := rfl
    have hlines := enableLines_only (s.chip.modPintle Pintle.fencedNow)
    refine ⟨_, hexec, rfl, ?_, ?_, ?_, ?_, fun l => ?_, ?_⟩ <;> rw [onChip_chip, heq, fencePintle_eq]
    · exact congrArg Pintle.fenced hlines.pintle
    · exact congrArg Pintle.armed hlines.pintle
    · exact congrArg Pintle.holding hlines.pintle
    · intro o ho
      have houts : (s.chip.modPintle Pintle.fencedNow).enableLines.pintle.outs = (s.chip.modPintle Pintle.fencedNow).pintle.outs := hlines.out
      obtain ⟨x, -, rfl⟩ := List.mem_map.1 (houts ▸ ho)
      rfl
    · have hdown : (s.chip.modPintle Pintle.fencedNow).pintleUp = false := Bool.and_false _
      refine (enableLines_enable (s.chip.modPintle Pintle.fencedNow) l).trans ?_
      rw [Chip.lineOn, hdown]
      rfl
    · exact List.mem_append_right _ (List.mem_singleton.2 rfl)

end Sys2Proof.Machine

namespace Sys2Proof.Machine
open Sys2Proof


/-! ### What the serial links deliver to the Pintle die (R18, R19, R245, R268, R462, R464) -/

/-! #### The bytes of a fallback packet (R245) -/

theorem signedOf_unsignedOf {x : Int} (h : -(2 ^ 15) ≤ x ∧ x < 2 ^ 15) : signedOf 16 (unsignedOf 16 x) = x := by
  unfold signedOf unsignedOf
  split <;> omega

theorem sfld_head {x : Int} (h : -(2 ^ 15) ≤ x ∧ x < 2 ^ 15) (b : List Byte) : sfld (toLeI 2 x ++ b) 0 2 = x := by
  have hlt : unsignedOf (8 * 2) x < 256 ^ 2 := by
    unfold unsignedOf
    omega
  rw [sfld, toLeI, fld_head _ _ _ hlt]
  exact signedOf_unsignedOf h

/-- Signed fields of two bytes, one after another. -/
theorem sfld_flatMap {xs : List Int} (h : ∀ x ∈ xs, -(2 ^ 15) ≤ x ∧ x < 2 ^ 15) :
    (List.range xs.length).map (fun j => sfld (xs.flatMap (toLeI 2)) (2 * j) 2) = xs := by
  induction xs with
  | nil => rfl
  | cons x xs ih =>
    rw [List.length_cons, List.range_succ_eq_map, List.map_cons, List.map_map, List.flatMap_cons]
    refine congrArg₂ List.cons (sfld_head (h x List.mem_cons_self) _) ?_
    refine Eq.trans (List.map_congr_left fun j _ => ?_) (ih fun y hy => h y (List.mem_cons_of_mem _ hy))
    show signedOf 16 (fld (toLe 2 (unsignedOf 16 x) ++ xs.flatMap (toLeI 2)) (2 * (j + 1)) 2) = _
    rw [show 2 * (j + 1) = 2 + 2 * j by omega, fld_skip]
    rfl

theorem range_flatMap_nth {xs : List Int} (h : xs.length = 8) : (List.range 8).flatMap (fun j => toLeI 2 (nth xs j 0)) = xs.flatMap (toLeI 2) := by
  match xs, h with
  | [_, _, _, _, _, _, _, _], _ => rfl

/-- The first quad of a fallback packet but for its CRC-32C (R245). -/
def fallbackHead (l : LaneId) (k index count : Nat) (f : Fallback) : List Byte :=
  toLe 1 l.idx ++ (toLe 1 k ++ (toLe 2 index ++ (toLe 4 count ++ (toLe 1 f.modes.toNat ++ toLe 3 0))))

theorem fallbackHead_length (l : LaneId) (k index count : Nat) (f : Fallback) : (fallbackHead l k index count f).length = 12 := by
  simp only [fallbackHead, List.length_append, toLe_length]

theorem flatMap_toLeI_length (xs : List Int) : (xs.flatMap (toLeI 2)).length = 2 * xs.length := by
  induction xs with
  | nil => rfl
  | cons x xs ih =>
    rw [List.flatMap_cons, List.length_append, ih, List.length_cons, toLeI, toLe_length]
    omega

theorem fallbackBytes_eq (l : LaneId) (k index count : Nat) {f : Fallback} (h : f.entries.length = 8) : fallbackBytes l k index count f =
    fallbackHead l k index count f ++ (toLe 4 (crc32c (fallbackHead l k index count f ++ toLe 4 0 ++ f.entries.flatMap (toLeI 2))) ++ f.entries.flatMap (toLeI 2)) := by
  rw [← range_flatMap_nth h]
  simp only [fallbackBytes, fallbackHead, List.append_assoc]

/-- The fields of a first quad: lane, output, index, count and modes. -/
theorem fallbackHead_fields {l : LaneId} {k i n : Nat} {f : Fallback} (hk : k < 8) (hi : i < 2 ^ 16) (hn : n < 2 ^ 32) (b : List Byte) :
    fld (fallbackHead l k i n f ++ b) 0 1 = l.idx ∧ fld (fallbackHead l k i n f ++ b) 1 1 = k ∧ fld (fallbackHead l k i n f ++ b) 2 2 = i ∧
      fld (fallbackHead l k i n f ++ b) 4 4 = n ∧ fld (fallbackHead l k i n f ++ b) 8 1 = f.modes.toNat := by
  have hidx : l.idx < 256 ^ 1 := by cases l <;> decide
  have hmodes : f.modes.toNat < 256 ^ 1 := f.modes.isLt
  simp only [fallbackHead, List.append_assoc]
  refine ⟨fld_head 1 _ _ hidx, ?_, ?_, ?_, ?_⟩
  · exact (fld_skip 1 _ 0 1 _).trans (fld_head 1 _ _ (by omega))
  · exact (fld_skip 1 _ 1 2 _).trans ((fld_skip 1 _ 0 2 _).trans (fld_head 2 _ _ (by omega)))
  · exact (fld_skip 1 _ 3 4 _).trans ((fld_skip 1 _ 2 4 _).trans ((fld_skip 2 _ 0 4 _).trans (fld_head 4 _ _ (by omega))))
  · exact (fld_skip 1 _ 7 1 _).trans ((fld_skip 1 _ 6 1 _).trans ((fld_skip 2 _ 4 1 _).trans ((fld_skip 4 _ 0 1 _).trans (fld_head 1 _ _ hmodes))))

theorem fallbackOf_fallbackBytes {l : LaneId} {k i n : Nat} {f : Fallback} (hk : k < 8) (hi : i < 2 ^ 16) (hn : n < 2 ^ 32) (hlen : f.entries.length = 8)
    (hentries : ∀ x ∈ f.entries, -(2 ^ 15) ≤ x ∧ x < 2 ^ 15) : fallbackOf l k (fallbackBytes l k i n f) = some (i, n, f) := by
  rw [fallbackBytes_eq l k i n hlen]
  obtain ⟨hlane, hout, hindex, hcount, hmodes⟩ := fallbackHead_fields (l := l) (f := f) hk hi hn
    (toLe 4 (crc32c (fallbackHead l k i n f ++ toLe 4 0 ++ f.entries.flatMap (toLeI 2))) ++ f.entries.flatMap (toLeI 2))
  have hhead := fallbackHead_length l k i n f
  have hbody := sfld_flatMap hentries
  have hbodyLen : (f.entries.flatMap (toLeI 2)).length = 16 := by rw [flatMap_toLeI_length, hlen]
  generalize hcrc : crc32c (fallbackHead l k i n f ++ toLe 4 0 ++ f.entries.flatMap (toLeI 2)) = crc at *
  have hcrcLt : crc < 256 ^ 4 := hcrc ▸ crc32c_lt _
  generalize fallbackHead l k i n f = head at *
  have hfldCrc : fld (head ++ (toLe 4 crc ++ f.entries.flatMap (toLeI 2))) 12 4 = crc := by
    rw [← hhead]
    exact (fld_at head 0 4 _).trans (fld_head 4 _ _ hcrcLt)
  have htake : (head ++ (toLe 4 crc ++ f.entries.flatMap (toLeI 2))).take 12 = head := List.take_left' hhead
  have hdrop : (head ++ (toLe 4 crc ++ f.entries.flatMap (toLeI 2))).drop 16 = f.entries.flatMap (toLeI 2) := by
    rw [← List.append_assoc]
    exact List.drop_left' (by rw [List.length_append, hhead, toLe_length])
  have hlength : (head ++ (toLe 4 crc ++ f.entries.flatMap (toLeI 2))).length = 32 := by
    rw [List.length_append, List.length_append, hhead, toLe_length, hbodyLen]
  have hfields (j : Nat) : sfld (head ++ (toLe 4 crc ++ f.entries.flatMap (toLeI 2))) (16 + 2 * j) 2 = sfld (f.entries.flatMap (toLeI 2)) (2 * j) 2 := by
    have hskip : fld (head ++ (toLe 4 crc ++ f.entries.flatMap (toLeI 2))) (head.length + (4 + 2 * j)) 2 = fld (f.entries.flatMap (toLeI 2)) (2 * j) 2 :=
      (fld_at ..).trans (fld_skip ..)
    rw [hhead, ← Nat.add_assoc] at hskip
    exact congrArg (signedOf _) hskip
  unfold fallbackOf
  rw [if_pos ⟨hlength, hlane, hout, by rw [hfldCrc, htake, hdrop, hcrc]⟩, hindex, hcount, hmodes]
  have hmap : (List.range 8).map (fun j => sfld (head ++ (toLe 4 crc ++ f.entries.flatMap (toLeI 2))) (16 + 2 * j) 2) = f.entries := by
    rw [← hlen]
    simpa only [hfields] using hbody
  rw [hmap, BitVec.ofNat_toNat, BitVec.setWidth_eq]

/-! #### Deliveries -/

theorem LinesOnly.field {c d : Chip} (h : LinesOnly c d) {α : Type} (p : Pintle → α) (hp : ∀ (x : Pintle) ls, p { x with lanes := ls } = p x) :
    p d.pintle = p c.pintle := by
  rw [h.pintle, hp]

theorem LinesOnly.planeField {c d : Chip} (h : LinesOnly c d) (l : LaneId) {α : Type} (p : PLane → α) (hp : ∀ (x : PLane) b, p { x with enable := b } = p x) :
    p (d.pintle.lanes.get l) = p (c.pintle.lanes.get l) := by
  rw [h.plane l, hp]

theorem modPLane_same (c : Chip) (l : LaneId) (f : PLane → PLane) : (c.modPLane l f).pintle.lanes.get l = f (c.pintle.lanes.get l) := tri_get_set_same ..

theorem modPLane_ne (c : Chip) {l k : LaneId} (f : PLane → PLane) (h : k ≠ l) : (c.modPLane l f).pintle.lanes.get k = c.pintle.lanes.get k :=
  tri_get_set_ne _ _ _ _ h

theorem modPLane_modPLane (c : Chip) (l : LaneId) (f g : PLane → PLane) : (c.modPLane l f).modPLane l g = c.modPLane l (fun p => g (f p)) := by
  have hlanes : ((c.modPLane l f).modPLane l g).pintle.lanes = (c.modPLane l (fun p => g (f p))).pintle.lanes := by
    show (c.pintle.lanes.set l _).set l _ = c.pintle.lanes.set l _
    rw [tri_set_set, modPLane_same]
  exact congrArg (fun ls => ({ c with pintle := { c.pintle with lanes := ls } } : Chip)) hlanes

/-- A vector taken for the next boundary (R18, R19). -/
def PLane.tookVector (x : ClaimVec) (p : PLane) : PLane := { p with next := some x, presents := true, heard := true }

theorem claimVector_of {c : Chip} {l : LaneId} {b : List Byte} {x : ClaimVec} (hpowered : c.pintle.powered = true) (hx : claimVecOf b = some x) :
    claimVector l (.other b) c = (c.modPLane l (PLane.tookVector x)).enableLines := by
  unfold claimVector
  dsimp only
  rw [hx]
  dsimp only
  rw [if_neg (by rw [hpowered]; decide)]
  exact congrArg Chip.enableLines (modPLane_modPLane ..)

/-- The die after a status packet of a lane (R464). -/
def Pintle.statusTaken (p : Pintle) : Pintle := if p.fenced then p else p.rearm

/-- A status packet kept (R462). -/
def Chip.keepStatus (c : Chip) (l : LaneId) (x : StatusPacket) : Chip :=
  (c.modPLane l (fun p => { p with status := some x, heard := true })).modPintle Pintle.statusTaken

theorem dbStatusPacket_of {c : Chip} {l : LaneId} {b : List Byte} {x : StatusPacket} (hpowered : c.pintle.powered = true) (hx : statusPacketOf l b = some x) :
    dbStatusPacket l (.other b) c = c.keepStatus l x := by
  unfold dbStatusPacket
  dsimp only
  rw [hx]
  dsimp only
  rw [if_neg (by rw [hpowered]; decide)]
  exact congrArg (fun c : Chip => c.modPintle Pintle.statusTaken) (modPLane_modPLane ..)

theorem dbStatusPacket_intact {c : Chip} {l : LaneId} (hpowered : c.pintle.powered = true) (hsends : c.sendsPintle l = true) :
    dbStatusPacket l .intact c = c.keepStatus l (c.sentStatus l) := by
  unfold dbStatusPacket
  dsimp only
  rw [if_pos hsends]
  dsimp only
  rw [if_neg (by rw [hpowered]; decide)]
  exact congrArg (fun c : Chip => c.modPintle Pintle.statusTaken) (modPLane_modPLane ..)

theorem statusTaken_lanes (p : Pintle) : p.statusTaken.lanes = p.lanes ∧ p.statusTaken.holder = p.holder := by
  unfold Pintle.statusTaken
  split
  · exact ⟨rfl, rfl⟩
  · exact ⟨rfl, rfl⟩

theorem keepStatus_lane (c : Chip) (l : LaneId) (x : StatusPacket) : ((c.keepStatus l x).pintle.lanes.get l).status = some x ∧
    (c.keepStatus l x).pintle.holder = c.pintle.holder ∧ ∀ j, j ≠ l → (c.keepStatus l x).pintle.lanes.get j = c.pintle.lanes.get j := by
  obtain ⟨hlanes, hholder⟩ := statusTaken_lanes (c.modPLane l (fun p => { p with status := some x, heard := true })).pintle
  refine ⟨?_, hholder, fun j hj => ?_⟩
  · exact (congrArg (fun ls : Tri PLane => (ls.get l).status) hlanes).trans (congrArg PLane.status (modPLane_same ..))
  · exact (congrArg (fun ls : Tri PLane => ls.get j) hlanes).trans (modPLane_ne _ _ hj)

theorem keepStatus_armed {c : Chip} {l : LaneId} {x : StatusPacket} (hfenced : c.pintle.fenced = false) (hholder : c.pintle.holder = some l)
    (haccepted : c.pintle.accepted = true) : (c.keepStatus l x).pintle.armed = !x.disarm := by
  have hstatus : (c.modPLane l (fun p => { p with status := some x, heard := true })).pintle.armingStatus = some x := by
    unfold Pintle.armingStatus
    rw [show (c.modPLane l (fun p => { p with status := some x, heard := true })).pintle.holder = some l from hholder]
    exact congrArg PLane.status (modPLane_same ..)
  show (Pintle.statusTaken _).armed = _
  rw [Pintle.statusTaken, if_neg (by rw [show (c.modPLane l _).pintle.fenced = false from hfenced]; decide), Pintle.rearm]
  dsimp only
  rw [hstatus, show (c.modPLane l _).pintle.accepted = true from haccepted]
  rfl

theorem deadboltTable_of {c : Chip} {l : LaneId} {b : List Byte} (hpowered : c.pintle.powered = true) (hb : tableIntact b = true) :
    deadboltTable l (.other b) c = if c.pintle.holder = some l then (c.pintleHeard l).modPintle (fun p => { p with table := some b }) else c.pintleHeard l := by
  unfold deadboltTable
  dsimp only
  rw [if_pos hb]
  dsimp only
  rw [if_neg (by rw [hpowered]; decide)]
  rfl

theorem fallbackPacket_of {c : Chip} {l : LaneId} {k : Fin 8} {b : List Byte} {i n : Nat} {f : Fallback} (hup : c.pintleUp = true)
    (hb : fallbackOf l k.val b = some (i, n, f)) : fallbackPacket l k (.other b) c =
      if c.namesNext k.val i n then (c.pintleHeard l).holdPacket l k.val i f else c.pintleHeard l := by
  unfold fallbackPacket
  dsimp only
  rw [hb]
  dsimp only
  rw [if_neg (by rw [hup]; decide)]
  rfl

/-- A packet of the holder for the coming period kept to be driven (R245). -/
def PLane.driving (k : Nat) (f : Fallback) (p : PLane) : PLane :=
  { p with heard := true, got := modNth p.got k (fun _ => true), coming := modNth p.coming k (fun _ => some f) }

/-- A packet of a standby lane: its modes only (R32, R246). -/
def PLane.standby (k index : Nat) (f : Fallback) (p : PLane) : PLane :=
  { p with heard := true, got := modNth p.got k (fun _ => true), packets := modNth p.packets k (fun _ => some (index, f)) }

theorem holdPacket_eq (c : Chip) (l : LaneId) (k index : Nat) (f : Fallback) : (c.pintleHeard l).holdPacket l k index f =
    if c.pintle.holder = some l then c.modPLane l (PLane.driving k f) else c.modPLane l (PLane.standby k index f) := by
  unfold Chip.holdPacket Chip.pintleHeard
  dsimp only
  rw [modPLane_modPLane, modPLane_modPLane, modPLane_modPLane]
  rfl

/-- The fallback packet kept: the lane's part in the die changes alone. -/
theorem fallbackPacket_eq {c : Chip} {l : LaneId} {k : Fin 8} {b : List Byte} {i n : Nat} {f : Fallback} (hup : c.pintleUp = true)
    (hb : fallbackOf l k.val b = some (i, n, f)) : fallbackPacket l k (.other b) c = c.modPLane l
      (if c.namesNext k.val i n = true then (if c.pintle.holder = some l then PLane.driving k.val f else PLane.standby k.val i f) else fun p => { p with heard := true }) := by
  rw [fallbackPacket_of hup hb, holdPacket_eq]
  split
  · split <;> rfl
  · rfl

/-- A table laid out with its CRC-32C is intact (R462). -/
theorem tableIntact_of_crc {b : List Byte} (h : b.length = 124) : tableIntact (b ++ toLe 4 (crc32c (b ++ toLe 4 0))) = true := by
  have hfld : fld (b ++ toLe 4 (crc32c (b ++ toLe 4 0))) 124 4 = crc32c (b ++ toLe 4 0) := by
    rw [← h, ← List.append_nil (toLe 4 (crc32c (b ++ toLe 4 0)))]
    exact (fld_at b 0 4 _).trans (fld_head 4 _ _ (crc32c_lt _))
  unfold tableIntact
  rw [hfld, List.take_left' h, decide_eq_true (by rw [List.length_append, h, toLe_length]), decide_eq_true rfl]
  rfl

theorem dbTable_intact (c : Chip) : tableIntact c.dbTable = true := by
  unfold Chip.dbTable
  dsimp only
  refine tableIntact_of_crc ?_
  have hquads (xs : List Nat) : (xs.flatMap (fun k => toLe 1 (c.parN Par.snpDbMode k) ++ toLe 1 0 ++ toLe 2 (c.parN Par.snpDbI k) ++
      toLeI 4 (c.par Par.snpDbPos k) ++ toLe 4 (c.parN Par.snpDbSpeed k) ++ toLe 4 (c.parN Par.stpPwmPeriod k))).length = 16 * xs.length := by
    induction xs with
    | nil => rfl
    | cons x xs ih =>
      rw [List.flatMap_cons, List.length_append, ih]
      simp only [List.length_append, toLe_length, toLeI, List.length_cons]
      omega
  simp only [List.length_append, hquads, toLe_length, List.length_range]

theorem enableLineFall_of {c : Chip} {l : LaneId} (h : (c.pintle.lanes.get l).presents = false) :
    (c.enableLines.pintle.lanes.get l).enable = false ∧ enableLineFall l c = c.enableLines.modSio l (fun x => { x with enabled := false }) := by
  have hoff : (c.enableLines.pintle.lanes.get l).enable = false := by
    rw [enableLines_enable, Chip.lineOn, h, Bool.and_false, Bool.false_and, Bool.false_and]
  exact ⟨hoff, if_neg (by rw [hoff]; exact Bool.false_ne_true)⟩

/-- The lane's switch opened after the lines: still only the switches of the lanes differ. -/
theorem switchOpened {c d : Chip} (h : LinesOnly c d) (l j : LaneId) : (d.modSio l (fun x => { x with enabled := false })).lanes.get j =
    { c.lanes.get j with sio := { (c.lanes.get j).sio with enabled := ((d.modSio l (fun x => { x with enabled := false })).lanes.get j).sio.enabled } } := by
  unfold Chip.modSio
  rw [modLane_lanes]
  by_cases hj : j = l
  · subst hj
    rw [tri_get_set_same, h.lanes j]
  · rw [tri_get_set_ne _ _ _ _ hj]
    exact h.lanes j

/-- Settles O42: each delivery is its equation in the die; the codec of a fallback packet reads back what it lays out. -/
theorem pintleLinksDeliver : Obligations.PintleLinksDeliver := by
  refine ⟨fun s l hpowered => ?_, fun l k i n f hk hi hn hlen hentries => fallbackOf_fallbackBytes hk hi hn hlen hentries⟩
  intro d sio other
  have hsio {f : Chip → Chip} {c : Chip} (h : LinesOnly c (f s.chip)) (hdev : c.dev = s.chip.dev) (hbridges : c.bridges = s.chip.bridges)
      (hlanes : c.lanes = s.chip.lanes) : sio (s.onChip f) :=
    ⟨rfl, h.dev.trans hdev, h.bridges.trans hbridges, fun j => (h.lanes j).trans (by rw [hlanes]; rfl)⟩
  refine ⟨fun b x hx => ?vector, ?stale, fun b x hx => ?status, fun b hb => ?table, fun k b i n f hfenced hb => ?fallback,
    ⟨rfl, rfl, rfl, fun _ => rfl, fun k => ?corrupt⟩, fun hsends => ⟨?sentClaims, ?sentStatus, ?sentTable, fun k => ?sentFallback, fun k hholder => ?sentStall⟩,
    fun k x hfenced hholder => ?stall, fun k q hholder => ?noHolder, fun hpresents => ?fall⟩
  case vector =>
    have hexec : exec (.claimVector l (.other b)) s = .next (s.onChip (claimVector l (.other b))) := rfl
    have heq := claimVector_of (l := l) hpowered hx
    have hlines := enableLines_only (s.chip.modPLane l (PLane.tookVector x))
    have hself := modPLane_same s.chip l (PLane.tookVector x)
    rw [onChip_congr heq (g := fun c => (c.modPLane l (PLane.tookVector x)).enableLines)] at hexec
    refine ⟨_, hexec, hsio hlines rfl rfl rfl, ?_, ?_, ?_, ?_⟩
    · exact (hlines.planeField l PLane.next fun _ _ => rfl).trans (congrArg PLane.next hself)
    · exact (hlines.planeField l PLane.presents fun _ _ => rfl).trans (congrArg PLane.presents hself)
    · exact hlines.field Pintle.holder fun _ _ => rfl
    · exact hlines.out
  case stale =>
    have hexec : exec (.claimVectorStale l) s = .next (s.onChip (claimVectorStale l)) := rfl
    have hlines := enableLines_only (s.chip.modPLane l (fun p => { p with presents := false }))
    have hself := modPLane_same s.chip l (fun p => { p with presents := false })
    refine ⟨_, hexec, hsio hlines rfl rfl rfl, ?_, ?_, ?_⟩
    · exact (hlines.planeField l PLane.presents fun _ _ => rfl).trans (congrArg PLane.presents hself)
    · refine (enableLines_enable (s.chip.modPLane l (fun p => { p with presents := false })) l).trans ?_
      rw [Chip.lineOn, hself, Bool.and_false, Bool.false_and, Bool.false_and]
    · exact hlines.field Pintle.holder fun _ _ => rfl
  case status =>
    have hexec : exec (.dbStatusPacket l (.other b)) s = .next (s.onChip (dbStatusPacket l (.other b))) := rfl
    rw [onChip_congr (dbStatusPacket_of hpowered hx) (g := fun c => c.keepStatus l x)] at hexec
    obtain ⟨hstatus, hholder, hne⟩ := keepStatus_lane s.chip l x
    exact ⟨_, hexec, ⟨rfl, rfl, rfl, rfl, hne⟩, hstatus, hholder, fun hfenced hheld haccepted => keepStatus_armed hfenced hheld haccepted⟩
  case table =>
    have hexec : exec (.deadboltTable l (.other b)) s = .next (s.onChip (deadboltTable l (.other b))) := rfl
    have heq := deadboltTable_of (l := l) hpowered hb
    by_cases hheld : s.chip.pintle.holder = some l
    · rw [if_pos hheld] at heq ⊢
      rw [onChip_congr heq (g := fun c => (c.pintleHeard l).modPintle (fun p => { p with table := some b }))] at hexec
      exact ⟨_, hexec, ⟨rfl, rfl, rfl, rfl, fun j hj => tri_get_set_ne _ _ _ _ hj⟩, rfl⟩
    · rw [if_neg hheld] at heq ⊢
      rw [onChip_congr heq (g := fun c => c.pintleHeard l)] at hexec
      exact ⟨_, hexec, ⟨rfl, rfl, rfl, rfl, fun j hj => modPLane_ne _ _ hj⟩, rfl⟩
  case fallback =>
    have hexec : exec (.fallbackPacket l k (.other b)) s = .next (s.onChip (fallbackPacket l k (.other b))) := rfl
    have hup : s.chip.pintleUp = true := by rw [Chip.pintleUp, hpowered, hfenced]; rfl
    have heq := fallbackPacket_eq (l := l) hup hb
    have hother (h : PLane → PLane) : other (s.onChip fun c => c.modPLane l h) := ⟨rfl, rfl, rfl, rfl, fun j hj => modPLane_ne _ _ hj⟩
    have hself (h : PLane → PLane) : d (s.onChip fun c => c.modPLane l h) = h (d s) := modPLane_same ..
    rw [onChip_congr (g := fun c => c.modPLane l (if s.chip.namesNext k.val i n = true then
      (if s.chip.pintle.holder = some l then PLane.driving k.val f else PLane.standby k.val i f) else fun p => { p with heard := true })) heq] at hexec
    refine ⟨_, hexec, hother _, rfl, ?_, fun hnames hheld => ?_, fun hnames hheld => ?_, fun hnames => ?_⟩ <;> rw [hself]
    · split
      · split <;> rfl
      · rfl
    · rw [if_pos hnames, if_pos hheld]
      exact ⟨rfl, rfl⟩
    · rw [if_pos hnames, if_neg hheld]
      exact ⟨rfl, rfl⟩
    · rw [if_neg (by rw [hnames]; exact Bool.false_ne_true)]
      exact ⟨rfl, rfl⟩
  case corrupt =>
    refine next_congr (congrArg (fun c => ({ s with chip := c } : State)) (?_ : stallParameters k .corrupt s.chip = s.chip))
    unfold stallParameters
    split <;> rfl
  case sentClaims =>
    refine next_congr (congrArg (fun c => ({ s with chip := c } : State)) ?_)
    unfold claimVector
    dsimp only
    rw [if_pos hsends]
  case sentStatus =>
    have hexec : exec (.dbStatusPacket l .intact) s = .next (s.onChip (dbStatusPacket l .intact)) := rfl
    rw [onChip_congr (dbStatusPacket_intact hpowered hsends) (g := fun c => c.keepStatus l (s.chip.sentStatus l))] at hexec
    obtain ⟨hstatus, hholder, hne⟩ := keepStatus_lane s.chip l (s.chip.sentStatus l)
    exact ⟨_, hexec, ⟨rfl, rfl, rfl, rfl, hne⟩, hstatus⟩
  case sentTable =>
    refine next_congr (congrArg (fun c => ({ s with chip := c } : State)) ?_)
    unfold deadboltTable
    dsimp only
    rw [if_pos hsends, if_pos (dbTable_intact _)]
  case sentFallback =>
    refine next_congr (congrArg (fun c => ({ s with chip := c } : State)) ?_)
    unfold fallbackPacket
    dsimp only
    rw [if_pos hsends]
  case sentStall =>
    refine next_congr (congrArg (fun c => ({ s with chip := c } : State)) ?_)
    unfold stallParameters
    rw [hholder]
    dsimp only
    rw [if_pos hsends]
  case stall =>
    refine next_congr (congrArg (fun c => ({ s with chip := c } : State)) ?_)
    unfold stallParameters
    rw [hholder]
    dsimp only
    rw [if_pos (by rw [Chip.pintleUp, hpowered, hfenced]; rfl)]
    rfl
  case noHolder =>
    refine next_congr (congrArg (fun c => ({ s with chip := c } : State)) ?_)
    unfold stallParameters
    rw [hholder]
  case fall =>
    have hexec : exec (.enableLineFall l) s = .next (s.onChip (enableLineFall l)) := rfl
    obtain ⟨hoff, heq⟩ := enableLineFall_of hpresents
    have hlines := enableLines_only s.chip
    rw [onChip_congr heq (g := fun c => c.enableLines.modSio l (fun x => { x with enabled := false }))] at hexec
    refine ⟨_, hexec, ⟨rfl, hlines.dev, hlines.bridges, fun j => ?_⟩, ?_, hoff, hlines.out⟩
    · exact switchOpened hlines l j
    · exact congrArg (fun n : Lane => n.sio.enabled) (tri_get_set_same s.chip.enableLines.lanes l _)

end Sys2Proof.Machine

namespace Sys2Proof.Machine
open Sys2Proof


/-! ### Leg faults (R229 to R238) -/

theorem getElem?_modNth {α : Type} (xs : List α) (k : Nat) (f : α → α) : (modNth xs k f)[k]? = xs[k]?.map f := List.getElem?_modify_eq ..

theorem targetOf_lane (l : LaneId) (n : Fin 6) : targetOf (.lane l n) < 2 := by
  show n.val / 3 < 2
  omega

/-- The legs of the die that holds a leg. -/
def legsOf : Leg → Chip → List LegSt
  | .lane l _, c => (c.lane l).legs
  | .pintle _, c => c.pintle.legs

/-- The number of a leg in its die. -/
def legNo : Leg → Nat
  | .lane _ n => n.val
  | .pintle n => n.val

/-- Beside the die that holds a leg, only agreed data differ. -/
def BesideDie : Leg → Chip → Chip → Prop
  | .lane l _, c, d => d.bridges = c.bridges ∧ d.pintle = c.pintle ∧ ElseSame l c d
  | .pintle _, c, d => d.bridges = c.bridges ∧ d.lanes = c.lanes

/-- The fence and the drives of a leg's stage have not changed. -/
def StageSame : Leg → Chip → Chip → Prop
  | .lane l _, c, d => (d.lane l).engines = (c.lane l).engines ∧ (d.lane l).fencedNow = (c.lane l).fencedNow
  | .pintle _, c, d => d.pintle.outs = c.pintle.outs ∧ d.pintle.faults = c.pintle.faults

/-- The stage of a leg has been fenced with a code, its drives off (R235). -/
def StageFenced (g : Leg) (code : Nat) (c d : Chip) : Prop :=
  match g with
  | .lane l _ => (0x07, targetOf g) ∈ (d.lane l).fencedNow ∧
      (d.lane l).engines = modNth (c.lane l).engines (targetOf g) (fun e => { e with gates := .off, cmdOn := false, next := none })
  | .pintle _ => d.pintle.outs = modNth c.pintle.outs (targetOut (targetOf g)) (fun x => { x with fenced := true, driven := {}, lastPassed := {}, gap := false }) ∧
      (code, 0x06, targetOut (targetOf g)) ∈ d.pintle.faults

theorem besideDie_trans {g : Leg} {c d e : Chip} (h : BesideDie g c d) (k : BesideDie g d e) : BesideDie g c e := by
  cases g with
  | lane l n =>
    obtain ⟨hb, hp, he⟩ := h
    obtain ⟨kb, kp, ke⟩ := k
    exact ⟨kb.trans hb, kp.trans hp, fun j hj => (ke j hj).trans (he j hj)⟩
  | pintle n =>
    obtain ⟨hb, hl⟩ := h
    obtain ⟨kb, kl⟩ := k
    exact ⟨kb.trans hb, kl.trans hl⟩

theorem stageSame_trans {g : Leg} {c d e : Chip} (h : StageSame g c d) (k : StageSame g d e) : StageSame g c e := by
  cases g <;> exact ⟨k.1.trans h.1, k.2.trans h.2⟩

theorem StageFenced.of_same {g : Leg} {code : Nat} {c d e : Chip} (h : StageSame g c d) (k : StageFenced g code d e) : StageFenced g code c e := by
  cases g with
  | lane l n => exact ⟨k.1, by rw [k.2, h.1]⟩
  | pintle n => exact ⟨by rw [k.1, h.1], k.2⟩

theorem StageFenced.same {g : Leg} {code : Nat} {c d e : Chip} (h : StageFenced g code c d) (k : StageSame g d e) : StageFenced g code c e := by
  cases g with
  | lane l n => exact ⟨by rw [k.2]; exact h.1, k.1.trans h.2⟩
  | pintle n => exact ⟨k.1.trans h.1, by rw [k.2]; exact h.2⟩

/-- A change that leaves a leg's stage as it is and tells its legs. -/
structure LegStep (g : Leg) (f : List LegSt → List LegSt) (c d : Chip) : Prop where
  beside : BesideDie g c d
  same : StageSame g c d
  legs : legsOf g d = f (legsOf g c)

theorem LegStep.trans {g : Leg} {f k : List LegSt → List LegSt} {c d e : Chip} (h : LegStep g f c d) (h' : LegStep g k d e) :
    LegStep g (fun xs => k (f xs)) c e := ⟨besideDie_trans h.beside h'.beside, stageSame_trans h.same h'.same, by rw [h'.legs, h.legs]⟩

theorem LegStep.refl (g : Leg) (c : Chip) : LegStep g id c c := by
  cases g with
  | lane l n => exact ⟨⟨rfl, rfl, fun _ _ => rfl⟩, ⟨rfl, rfl⟩, rfl⟩
  | pintle n => exact ⟨⟨rfl, rfl⟩, ⟨rfl, rfl⟩, rfl⟩

theorem legStep_modLane (c : Chip) (l : LaneId) (n : Fin 6) {f : Lane → Lane} {k : List LegSt → List LegSt} (hengines : ∀ x, (f x).engines = x.engines)
    (hfenced : ∀ x, (f x).fencedNow = x.fencedNow) (hlegs : ∀ x, (f x).legs = k x.legs) : LegStep (.lane l n) k c (c.modLane l f) := by
  have hself : (c.modLane l f).lane l = f (c.lane l) := tri_get_set_same ..
  refine ⟨⟨rfl, rfl, elseSame_modLane c l f⟩, ⟨?_, ?_⟩, ?_⟩
  · rw [hself, hengines]
  · rw [hself, hfenced]
  · exact (congrArg Lane.legs hself).trans (hlegs _)

theorem legStep_modLeg (c : Chip) (g : Leg) (f : LegSt → LegSt) : LegStep g (fun xs => modNth xs (legNo g) f) c (c.modLeg g f) := by
  cases g with
  | lane l n =>
    exact legStep_modLane c l n (f := fun x => { x with legs := modNth x.legs n.val f }) (k := fun xs => modNth xs n.val f) (fun _ => rfl) (fun _ => rfl) fun _ => rfl
  | pintle n => exact ⟨⟨rfl, rfl⟩, ⟨rfl, rfl⟩, rfl⟩

theorem legStep_modTarget (c : Chip) (g : Leg) (f : Target → Target) : LegStep g id c (c.modTarget (legLane g) (targetOf g) f) := by
  cases g with
  | lane l n =>
    rw [Chip.modTarget, if_pos (targetOf_lane l n)]
    exact legStep_modLane c l n (fun _ => rfl) (fun _ => rfl) fun _ => rfl
  | pintle n =>
    rw [modTarget_pintle]
    exact ⟨⟨rfl, rfl⟩, ⟨rfl, rfl⟩, rfl⟩

theorem legStep_modSet (c : Chip) (g : Leg) (k : Nat) (l : LaneId) (f : WindSet → WindSet) : LegStep g id c (c.modSet k l f) := by
  cases g with
  | lane l n => exact ⟨⟨rfl, rfl, fun _ _ => rfl⟩, ⟨rfl, rfl⟩, rfl⟩
  | pintle n => exact ⟨⟨rfl, rfl⟩, ⟨rfl, rfl⟩, rfl⟩

theorem legStep_ite {g : Leg} {c d : Chip} (h : LegStep g id c d) (b : Bool) : LegStep g id c (if b then d else c) := by
  cases b
  · exact .refl g c
  · exact h

/-! #### The fence of the stage -/

theorem stageFault_lane (c : Chip) (l : LaneId) (n : Fin 6) (code : Nat) : ∃ d, RecordsOnly c d ∧ ElseSame l c d ∧
    c.stageFault l (targetOf (.lane l n)) code = d.modLane l (fun x => { x with
      fencedNow := if x.fencedNow.contains (0x07, targetOf (.lane l n)) then x.fencedNow else x.fencedNow ++ [(0x07, targetOf (.lane l n))]
      engines := modNth x.engines (targetOf (.lane l n)) (fun e => e.halt .off) }) :=
  ⟨_, localFault_only c l code 0x07 (targetOf (.lane l n)) l.idx, elseSame_localFault c l code 0x07 (targetOf (.lane l n)) l.idx, if_pos (targetOf_lane l n)⟩

theorem mem_of_added {x : Nat × Nat} (xs : List (Nat × Nat)) : x ∈ (if xs.contains x then xs else xs ++ [x]) := by
  split
  · exact List.contains_iff_mem.1 ‹_›
  · exact List.mem_append_right _ (List.mem_singleton.2 rfl)

theorem stageFault_fences (c : Chip) (g : Leg) (code : Nat) : BesideDie g c (c.stageFault (legLane g) (targetOf g) code) ∧
    legsOf g (c.stageFault (legLane g) (targetOf g) code) = legsOf g c ∧ StageFenced g code c (c.stageFault (legLane g) (targetOf g) code) := by
  cases g with
  | lane l n =>
    obtain ⟨d, hrecords, helse, heq⟩ := stageFault_lane c l n code
    rw [show legLane (.lane l n) = l from rfl, heq]
    have hself : (d.modLane l (fun x => { x with
      fencedNow := if x.fencedNow.contains (0x07, targetOf (.lane l n)) then x.fencedNow else x.fencedNow ++ [(0x07, targetOf (.lane l n))]
      engines := modNth x.engines (targetOf (.lane l n)) (fun e => e.halt .off) })).lane l = _ := tri_get_set_same ..
    refine ⟨⟨hrecords.bridges, hrecords.pintle, fun k hk => (elseSame_modLane d l _ k hk).trans (helse k hk)⟩, ?_, ?_, ?_⟩
    · exact (congrArg Lane.legs hself).trans (hrecords.lanesAlike.lane l Lane.legs fun _ _ => rfl)
    · rw [hself]
      exact mem_of_added _
    · rw [hself]
      exact congrArg (fun es => modNth es (targetOf (.lane l n)) (fun e => e.halt .off)) (hrecords.lanesAlike.lane l Lane.engines fun _ _ => rfl)
  | pintle n =>
    rw [Chip.stageFault, if_neg (targetOf_pintle n)]
    exact ⟨⟨rfl, rfl⟩, rfl, rfl, List.mem_append_right _ (List.mem_singleton.2 rfl)⟩

/-- A further fault of a fenced stage leaves it fenced with the first. -/
theorem StageFenced.again {g : Leg} {code : Nat} {c d : Chip} (h : StageFenced g code c d) (code' : Nat) :
    StageFenced g code c (d.stageFault (legLane g) (targetOf g) code') := by
  obtain ⟨-, -, hagain⟩ := stageFault_fences d g code'
  cases g with
  | lane l n => exact ⟨hagain.1, hagain.2.trans (by rw [h.2, modNth_modNth])⟩
  | pintle n =>
    refine ⟨hagain.1.trans (by rw [h.1, modNth_modNth]), ?_⟩
    rw [Chip.stageFault, if_neg (targetOf_pintle n)]
    exact List.mem_append_left _ h.2

/-- A leg fault of a leg without a latch: the stage fenced with its code, the leg latched. -/
theorem latchLeg_of_free {c : Chip} {g : Leg} (h : (c.legAt g).latch = none) (code : Nat) (low short : Bool) :
    BesideDie g c (c.latchLeg g code low short) ∧ StageFenced g code c (c.latchLeg g code low short) ∧
      legsOf g (c.latchLeg g code low short) = modNth (legsOf g c) (legNo g) (fun x => { x with latch := some code, lowSide := low, at_ := c.legNt g }) := by
  unfold Chip.latchLeg
  rw [h]
  dsimp only
  have hleg := legStep_modLeg c g (fun x => { x with latch := some code, lowSide := low, at_ := c.legNt g })
  generalize c.modLeg g (fun x => { x with latch := some code, lowSide := low, at_ := c.legNt g }) = d at *
  have hshort := hleg.trans (legStep_ite (legStep_modTarget d g (fun x => { x with shorts := satInc 65535 x.shorts, shortNow := true })) short)
  generalize (if short then d.modTarget (legLane g) (targetOf g) (fun x => { x with shorts := satInc 65535 x.shorts, shortNow := true }) else d) = e at *
  have hset := hshort.trans (legStep_ite (legStep_modSet e g (targetOf g) (legLane g) (fun w => { w with gatesOff := true })) (decide (targetOf g < 2) && low))
  generalize (if (decide (targetOf g < 2) && low) = true then e.modSet (targetOf g) (legLane g) (fun w => { w with gatesOff := true }) else e) = k at *
  obtain ⟨hbeside, hlegs, hfenced⟩ := stageFault_fences k g code
  obtain ⟨hbeside', hlegs', -⟩ := stageFault_fences (k.stageFault (legLane g) (targetOf g) code) g 0x1105
  have hfenced' := hfenced.of_same hset.same
  have hb := besideDie_trans hset.beside hbeside
  have hl := hlegs.trans hset.legs
  split
  · exact ⟨besideDie_trans hb hbeside', hfenced'.again _, hlegs'.trans hl⟩
  · exact ⟨hb, hfenced', hl⟩

/-- What a leg fault leaves, as the die of the leg stands. -/
def Latched (g : Leg) (code soft : Nat) (c d : Chip) : Prop :=
  BesideDie g c d ∧ StageFenced g code c d ∧
    (legsOf g d)[legNo g]?.map (fun x => (x.latch, x.soft)) = (legsOf g c)[legNo g]?.map (fun _ => (some code, soft))

theorem legAt_eq (c : Chip) (g : Leg) : c.legAt g = nth (legsOf g c) (legNo g) {} := by cases g <;> rfl

/-- The latch of a leg reached through steps that kept it free, with its soft turn-off of then. -/
theorem latchLeg_latched {c d : Chip} {g : Leg} {f : List LegSt → List LegSt} (h : LegStep g f c d) (hfree : (d.legAt g).latch = none) (soft code : Nat)
    (hsoft : (f (legsOf g c))[legNo g]?.map LegSt.soft = (legsOf g c)[legNo g]?.map fun _ => soft) (low short : Bool) :
    Latched g code soft c (d.latchLeg g code low short) := by
  obtain ⟨hbeside, hfenced, hlegs⟩ := latchLeg_of_free hfree code low short
  refine ⟨besideDie_trans h.beside hbeside, hfenced.of_same h.same, ?_⟩
  rw [hlegs, h.legs, getElem?_modNth]
  cases hx : (f (legsOf g c))[legNo g]? with
  | none =>
    rw [hx] at hsoft
    cases hy : (legsOf g c)[legNo g]? with
    | none => rfl
    | some y => rw [hy] at hsoft; cases hsoft
  | some x =>
    rw [hx] at hsoft
    cases hy : (legsOf g c)[legNo g]? with
    | none => rw [hy] at hsoft; cases hsoft
    | some y =>
      rw [hy] at hsoft
      have : x.soft = soft := Option.some.inj hsoft
      simp only [Option.map_some, this]

theorem soft_self (c : Chip) (g : Leg) : (legsOf g c)[legNo g]?.map LegSt.soft = (legsOf g c)[legNo g]?.map fun _ => (c.legAt g).soft := by
  rw [legAt_eq, nth, List.getD]
  cases (legsOf g c)[legNo g]? <;> rfl

/-! #### The gross-current comparator (R233) -/

theorem mem_legsWith_lane {l : LaneId} {n : Fin 6} {x : Leg} (h : x ∈ legsWith (.lane l n)) : ∃ m, x = .lane l m := by
  obtain ⟨j, -, hj⟩ := List.mem_filterMap.1 h
  by_cases hlt : (targetLegs (targetOf (.lane l n))).1 + j < 6
  · exact ⟨_, (Option.some.inj ((dif_pos hlt).symm.trans hj)).symm⟩
  · exact absurd ((dif_neg hlt).symm.trans hj) (Option.some_ne_none _).symm

theorem mem_legsWith_pintle {n : Fin 30} {x : Leg} (h : x ∈ legsWith (.pintle n)) : ∃ m, x = .pintle m := by
  obtain ⟨j, -, hj⟩ := List.mem_filterMap.1 h
  by_cases hlt : (targetLegs (targetOf (.pintle n))).1 + j < 30
  · exact ⟨_, (Option.some.inj ((dif_pos hlt).symm.trans hj)).symm⟩
  · exact absurd ((dif_neg hlt).symm.trans hj) (Option.some_ne_none _).symm

theorem self_mem_legsWith (g : Leg) : g ∈ legsWith g := by
  cases g with
  | lane l n => cases l <;> revert n <;> decide
  | pintle n => revert n; decide

theorem legStep_modLeg_of {g x : Leg} (hx : x ∈ legsWith g) (c : Chip) (f : LegSt → LegSt) : LegStep g (fun xs => modNth xs (legNo x) f) c (c.modLeg x f) := by
  cases g with
  | lane l n =>
    obtain ⟨m, rfl⟩ := mem_legsWith_lane hx
    exact legStep_modLane c l n (f := fun x => { x with legs := modNth x.legs m.val f }) (k := fun xs => modNth xs m.val f) (fun _ => rfl) (fun _ => rfl) fun _ => rfl
  | pintle n =>
    obtain ⟨m, rfl⟩ := mem_legsWith_pintle hx
    exact ⟨⟨rfl, rfl⟩, ⟨rfl, rfl⟩, rfl⟩

/-- A leg in its soft turn-off (R234). -/
def LegSt.softOff (x : LegSt) : LegSt := { x with soft := 1 }

/-- The legs of one row in their soft turn-off. -/
def softRow (ls : List Leg) (xs : List LegSt) : List LegSt := ls.foldl (fun xs x => modNth xs (legNo x) LegSt.softOff) xs

theorem legStep_softOff {g : Leg} (ls : List Leg) (hls : ∀ x ∈ ls, x ∈ legsWith g) : ∀ c : Chip,
    LegStep g (softRow ls) c (ls.foldl (fun c x => c.modLeg x LegSt.softOff) c) := by
  induction ls with
  | nil => exact .refl g
  | cons x ls ih =>
    exact fun c => (legStep_modLeg_of (hls x List.mem_cons_self) c LegSt.softOff).trans (ih (fun y hy => hls y (List.mem_cons_of_mem _ hy)) _)

theorem softOff_soft (xs : List LegSt) (k : Nat) : (modNth xs k LegSt.softOff)[k]?.map LegSt.soft = xs[k]?.map fun _ => 1 := by
  rw [getElem?_modNth]
  cases xs[k]? <;> rfl

/-- A soft turn-off keeps the latches, and which legs there are. -/
theorem softOff_keeps (xs : List LegSt) (j k : Nat) : (modNth xs j LegSt.softOff)[k]?.map LegSt.latch = xs[k]?.map LegSt.latch ∧
    (xs[k]?.map LegSt.soft = xs[k]?.map (fun _ => 1) → (modNth xs j LegSt.softOff)[k]?.map LegSt.soft = xs[k]?.map fun _ => 1) := by
  by_cases h : j = k
  · subst h
    refine ⟨?_, fun _ => softOff_soft xs j⟩
    rw [getElem?_modNth]
    cases xs[j]? <;> rfl
  · have : (modNth xs j LegSt.softOff)[k]? = xs[k]? := List.getElem?_modify_ne _ _ h
    rw [this]
    exact ⟨rfl, id⟩

theorem softRow_latch (ls : List Leg) (k : Nat) : ∀ xs : List LegSt, (softRow ls xs)[k]?.map LegSt.latch = xs[k]?.map LegSt.latch := by
  induction ls with
  | nil => exact fun _ => rfl
  | cons x ls ih => exact fun xs => (ih _).trans (softOff_keeps xs (legNo x) k).1

theorem map_one_of_latch {a b : Option LegSt} (h : a.map LegSt.latch = b.map LegSt.latch) : (a.map fun _ => 1) = b.map fun _ => 1 := by
  cases a with
  | none => cases b with
    | none => rfl
    | some y => cases h
  | some x => cases b with
    | none => cases h
    | some y => rfl

theorem softRow_soft_of (ls : List Leg) (k : Nat) : ∀ xs : List LegSt, xs[k]?.map LegSt.soft = xs[k]?.map (fun _ => 1) →
    (softRow ls xs)[k]?.map LegSt.soft = xs[k]?.map fun _ => 1 := by
  induction ls with
  | nil => exact fun _ h => h
  | cons x ls ih =>
    intro xs h
    obtain ⟨hlatch, hsoft⟩ := softOff_keeps xs (legNo x) k
    have hone := map_one_of_latch hlatch
    exact (ih _ ((hsoft h).trans hone.symm)).trans hone

theorem softRow_soft {ls : List Leg} {g : Leg} (hg : g ∈ ls) : ∀ xs : List LegSt, (softRow ls xs)[legNo g]?.map LegSt.soft = xs[legNo g]?.map fun _ => 1 := by
  induction ls with
  | nil => exact absurd hg List.not_mem_nil
  | cons x ls ih =>
    intro xs
    have hone := map_one_of_latch (softOff_keeps xs (legNo x) (legNo g)).1
    rcases List.mem_cons.1 hg with rfl | hg
    · exact (softRow_soft_of ls (legNo g) _ ((softOff_soft xs (legNo g)).trans hone.symm)).trans hone
    · exact (ih hg _).trans hone

theorem latch_free_of {xs ys : List LegSt} {k : Nat} (h : ys[k]?.map LegSt.latch = xs[k]?.map LegSt.latch) (hfree : (nth xs k {}).latch = none) :
    (nth ys k {}).latch = none := by
  rw [nth, List.getD] at *
  cases hx : xs[k]? <;> cases hy : ys[k]? <;> rw [hx, hy] at h
  · rfl
  · cases h
  · cases h
  · rw [hx] at hfree
    exact (Option.some.inj h).trans hfree

/-- A change of a leg that keeps its latch and its soft turn-off leaves it latched. -/
theorem Latched.modLeg {g : Leg} {code soft : Nat} {c d : Chip} (h : Latched g code soft c d) {f : LegSt → LegSt}
    (hf : ∀ x, ((f x).latch, (f x).soft) = (x.latch, x.soft)) : Latched g code soft c (d.modLeg g f) := by
  obtain ⟨hbeside, hfenced, hlegs⟩ := h
  have hstep := legStep_modLeg d g f
  refine ⟨besideDie_trans hbeside hstep.beside, hfenced.same hstep.same, ?_⟩
  rw [hstep.legs, getElem?_modNth, Option.map_map]
  exact (congrArg (fun k => ((legsOf g d)[legNo g]?).map k) (funext hf)).trans hlegs

theorem grossCurrent_latched {c : Chip} {g : Leg} (hfree : (c.legAt g).latch = none) {ma : Int} (htrips : c.grossLimit g < 1000 * ma.natAbs) (low : Bool) :
    Latched g 0x1104 1 c (grossCurrent g ma low c) := by
  have hstep := legStep_softOff (legsWith g) (fun _ h => h) c
  have hfree' : (((legsWith g).foldl (fun c x => c.modLeg x LegSt.softOff) c).legAt g).latch = none := by
    rw [legAt_eq, hstep.legs]
    exact latch_free_of (softRow_latch ..) (by rw [← legAt_eq]; exact hfree)
  rw [grossCurrent, if_pos (show c.grossTrips g ma = true from decide_eq_true htrips)]
  exact (latchLeg_latched hstep hfree' 1 0x1104 (softRow_soft (self_mem_legsWith g) _) true true).modLeg fun _ => rfl

theorem vdsShort_latched {c : Chip} {g : Leg} (hfree : (c.legAt g).latch = none) {mv since above : Nat} (htrips : c.vdsTrips g mv since above = true)
    (high : Bool) : Latched g 0x1103 1 c (vdsShort g high mv since above c) := by
  have hstep := legStep_modLeg c g LegSt.softOff
  have hfree' : ((c.modLeg g LegSt.softOff).legAt g).latch = none := by
    rw [legAt_eq, hstep.legs]
    exact latch_free_of (softOff_keeps ..).1 (by rw [← legAt_eq]; exact hfree)
  rw [vdsShort, if_neg (by rw [hfree, htrips]; decide)]
  exact latchLeg_latched hstep hfree' 1 0x1103 (softOff_soft ..) (!high) true

theorem interlockTimeout_latched {c : Chip} {g : Leg} (hfree : (c.legAt g).latch = none) {waited : Nat} (hlong : 2000 ≤ waited) :
    Latched g 0x1101 (c.legAt g).soft c (interlockTimeout g waited c) := by
  have hstep := legStep_ite (legStep_modTarget c g (fun x => { x with waits := satInc (2 ^ 32 - 1) x.waits })) (decide (5 * c.profile Par.gdrDeadtime g < 4 * waited))
  have hfree' : ((if decide (5 * c.profile Par.gdrDeadtime g < 4 * waited) = true then
      c.modTarget (legLane g) (targetOf g) (fun x => { x with waits := satInc (2 ^ 32 - 1) x.waits }) else c).legAt g).latch = none := by
    rw [legAt_eq] at hfree ⊢
    rw [hstep.legs]
    exact hfree
  have hlatched := latchLeg_latched hstep hfree' (c.legAt g).soft 0x1101 (soft_self c g) false false
  rw [interlockTimeout, if_neg (by omega)]
  simpa only [decide_eq_true_eq] using hlatched

theorem bothOnCommand_latched {c : Chip} {g : Leg} (hfree : (c.legAt g).latch = none) : Latched g 0x1102 (c.legAt g).soft c (bothOnCommand g c) :=
  latchLeg_latched (.refl g c) hfree (c.legAt g).soft 0x1102 (soft_self c g) true false

theorem modNth_id {α : Type} (xs : List α) (k : Nat) : modNth xs k (fun x => x) = xs := List.modify_id ..

theorem modTarget_id (c : Chip) (l : LaneId) (t : Nat) : c.modTarget l t (fun x => x) = c := by
  unfold Chip.modTarget
  split
  · have hself : c.lanes.set l { c.lanes.get l with targets := modNth (c.lanes.get l).targets t (fun x => x) } = c.lanes := by
      rw [modNth_id]
      exact tri_set_get ..
    exact congrArg (fun ls => ({ c with lanes := ls } : Chip)) hself
  · have hself : ({ c.pintle with targets := modNth c.pintle.targets (t - 2) (fun x => x) } : Pintle) = c.pintle := by rw [modNth_id]
    exact congrArg (fun p => ({ c with pintle := p } : Chip)) hself

/-- Settles O33: each detector is one call of the latch, before which at most the soft turn-off of legs and counts have changed. -/
theorem legFaultsLatchAndFence : Obligations.LegFaultsLatchAndFence := by
  intro s g t latched
  have hlatched {f : Chip → Chip} {code soft : Nat} (h : Latched g code soft s.chip (f s.chip)) : latched code soft (s.onChip f) := by
    obtain ⟨hbeside, hfenced, hlegs⟩ := h
    cases g with
    | lane l n =>
      obtain ⟨hbridges, hpintle, helse⟩ := hbeside
      exact ⟨rfl, hbridges, hlegs, hfenced.1, hfenced.2, hpintle, helse⟩
    | pintle n =>
      obtain ⟨hbridges, hlanes⟩ := hbeside
      exact ⟨rfl, hbridges, hlegs, hfenced.1, hfenced.2, hlanes⟩
  refine ⟨fun hfree => ⟨fun waited hlong => ⟨_, rfl, hlatched (interlockTimeout_latched hfree hlong)⟩, ⟨_, rfl, hlatched (bothOnCommand_latched hfree)⟩,
    fun high mv since above hmv habove hsince => ⟨_, rfl, hlatched (vdsShort_latched hfree ?trips high)⟩,
    fun ma low htrips => ⟨_, rfl, hlatched (grossCurrent_latched hfree htrips low)⟩⟩,
    fun waited hshort => ?wait, fun high mv since above h => ?quiet, fun ma low h => ?small, rfl⟩
  case trips =>
    rw [Chip.vdsTrips, decide_eq_true hmv, decide_eq_true habove, decide_eq_true hsince]
    rfl
  case wait =>
    refine next_congr (congrArg (fun c => ({ s with chip := c } : State)) ((if_pos hshort).trans ?_))
    by_cases hlong : 5 * s.chip.profile Par.gdrDeadtime g < 4 * waited
    · rw [if_pos hlong]
      simp only [if_pos hlong]
      rfl
    · rw [if_neg hlong]
      simp only [if_neg hlong]
      exact (modTarget_id ..).symm
  case quiet =>
    refine next_congr (congrArg (fun c => ({ s with chip := c } : State)) (if_pos ?_))
    rcases h with h | h | h | h
    · exact .inl (Option.isSome_iff_ne_none.2 h)
    · exact .inr (by rw [Chip.vdsTrips, decide_eq_false (not_lt.2 h)]; rfl)
    · exact .inr (by rw [Chip.vdsTrips, decide_eq_false (not_le.2 h), Bool.and_false]; rfl)
    · exact .inr (by rw [Chip.vdsTrips, decide_eq_false (p := 250 * _ + 100 ≤ since) (not_le.2 h), Bool.and_false])
  case small => exact next_congr (congrArg (fun c => ({ s with chip := c } : State)) (if_neg (by rw [Chip.grossTrips, decide_eq_true_eq]; omega)))

end Sys2Proof.Machine

namespace Sys2Proof.Machine
open Sys2Proof


/-! ### The off-state test and the operations of the gate drivers (R236, R240 to R243, R247) -/

/-! #### The verdict of all readings (R241) -/

theorem expectedNodes_ne (t j : Nat) : ∃ i, i ∈ expectedNodes t j := by
  unfold expectedNodes
  split
  · exact ⟨0, List.mem_cons_self⟩
  · exact ⟨_, List.mem_cons_self⟩

/-- With a window of at most half, no reading is high and low. -/
theorem ostHigh_not_low {w : Nat} (hw : w ≤ 50) {vbr mv : Nat} (h : ostHigh w vbr mv = true) : ostLow w vbr mv = false := by
  have hle : w * vbr ≤ (100 - w) * vbr := Nat.mul_le_mul_right vbr (by omega)
  have hlt : (100 - w) * vbr < 1000 * mv := of_decide_eq_true h
  exact decide_eq_false (by omega)

/-- A step of the test shows what R241 asks of a pass. -/
def StepPasses (t w vbr k : Nat) (nodes : List Nat) : Prop :=
  (∀ i, i < (targetLegs t).2 → ostHigh w vbr (nth nodes i 0) = true ∨ ostLow w vbr (nth nodes i 0) = true) ∧
    (k % 2 = 0 → ∀ i ∈ expectedNodes t (k / 2), ostHigh w vbr (nth nodes i 0) = true) ∧
    (k % 2 = 1 → ∀ i ∈ expectedNodes t (k / 2), ostLow w vbr (nth nodes i 0) = true)

theorem ostMatch_leakage (t w vbr k : Nat) (nodes : List Nat) : ostMatch t w vbr 4 k nodes = false ↔
    ∀ i, i < (targetLegs t).2 → ostHigh w vbr (nth nodes i 0) = true ∨ ostLow w vbr (nth nodes i 0) = true := by
  show (List.range (targetLegs t).2).any (fun i => !ostHigh w vbr (nth nodes i 0) && !ostLow w vbr (nth nodes i 0)) = false ↔ _
  rw [List.any_eq_false]
  refine forall_congr' fun i => ?_
  rw [List.mem_range]
  cases ostHigh w vbr (nth nodes i 0) <;> cases ostLow w vbr (nth nodes i 0) <;> simp

theorem ostMatch_open_source {t w vbr k : Nat} {nodes : List Nat} (hk : k % 2 = 0) : ostMatch t w vbr 3 k nodes = false ↔
    ∀ i ∈ expectedNodes t (k / 2), ostHigh w vbr (nth nodes i 0) = true := by
  show (if decide (k % 2 = 0) = true then !(expectedNodes t (k / 2)).all (fun i => ostHigh w vbr (nth nodes i 0))
    else !(expectedNodes t (k / 2)).all (fun i => ostLow w vbr (nth nodes i 0))) = false ↔ _
  rw [if_pos (decide_eq_true hk), Bool.not_eq_false', List.all_eq_true]

theorem ostMatch_open_sink {t w vbr k : Nat} {nodes : List Nat} (hk : k % 2 = 1) : ostMatch t w vbr 3 k nodes = false ↔
    ∀ i ∈ expectedNodes t (k / 2), ostLow w vbr (nth nodes i 0) = true := by
  show (if decide (k % 2 = 0) = true then !(expectedNodes t (k / 2)).all (fun i => ostHigh w vbr (nth nodes i 0))
    else !(expectedNodes t (k / 2)).all (fun i => ostLow w vbr (nth nodes i 0))) = false ↔ _
  rw [if_neg (by rw [decide_eq_true_eq]; omega), Bool.not_eq_false', List.all_eq_true]

/-- A source step with the expected nodes high is no short to ground. -/
theorem ostMatch_ground {t w vbr k : Nat} {nodes : List Nat} (hw : w ≤ 50)
    (h : k % 2 = 0 → ∀ i ∈ expectedNodes t (k / 2), ostHigh w vbr (nth nodes i 0) = true) : ostMatch t w vbr 1 k nodes = false := by
  show (decide (k % 2 = 0) && (expectedNodes t (k / 2)).all (fun i => ostLow w vbr (nth nodes i 0))) = false
  by_cases hk : k % 2 = 0
  · obtain ⟨i, hi⟩ := expectedNodes_ne t (k / 2)
    refine Bool.eq_false_iff.2 fun hall => ?_
    rw [Bool.and_eq_true, List.all_eq_true] at hall
    exact Bool.noConfusion ((hall.2 i hi).symm.trans (ostHigh_not_low hw (h hk i hi)))
  · rw [decide_eq_false hk, Bool.false_and]

/-- A sink step with the expected nodes low is no short to the bus. -/
theorem ostMatch_bus {t w vbr k : Nat} {nodes : List Nat} (hw : w ≤ 50)
    (h : k % 2 = 1 → ∀ i ∈ expectedNodes t (k / 2), ostLow w vbr (nth nodes i 0) = true) : ostMatch t w vbr 2 k nodes = false := by
  show (!decide (k % 2 = 0) && (expectedNodes t (k / 2)).all (fun i => ostHigh w vbr (nth nodes i 0))) = false
  by_cases hk : k % 2 = 0
  · rw [decide_eq_true hk, Bool.not_true, Bool.false_and]
  · obtain ⟨i, hi⟩ := expectedNodes_ne t (k / 2)
    refine Bool.eq_false_iff.2 fun hall => ?_
    rw [Bool.and_eq_true, List.all_eq_true] at hall
    exact Bool.noConfusion ((h (by omega) i hi).symm.trans (ostHigh_not_low hw (hall.2 i hi)))

/-- A step matches no row of R241 exactly when it passes. -/
theorem stepPasses_iff {t w vbr k : Nat} {nodes : List Nat} (hw : w ≤ 50) : StepPasses t w vbr k nodes ↔
    ostMatch t w vbr 4 k nodes = false ∧ ostMatch t w vbr 1 k nodes = false ∧ ostMatch t w vbr 2 k nodes = false ∧ ostMatch t w vbr 3 k nodes = false := by
  constructor
  · rintro ⟨hbetween, hsource, hsink⟩
    refine ⟨(ostMatch_leakage ..).2 hbetween, ostMatch_ground hw hsource, ostMatch_bus hw hsink, ?_⟩
    rcases Nat.mod_two_eq_zero_or_one k with hk | hk
    · exact (ostMatch_open_source hk).2 (hsource hk)
    · exact (ostMatch_open_sink hk).2 (hsink hk)
  · rintro ⟨hleakage, -, -, hopen⟩
    exact ⟨(ostMatch_leakage ..).1 hleakage, fun hk => (ostMatch_open_source hk).1 hopen, fun hk => (ostMatch_open_sink hk).1 hopen⟩

/-- The first step that matches a row of R241. -/
def ostFind (t w vbr : Nat) (readings : List (List Nat)) (row : Nat) : Option (Nat × List Nat) :=
  ((List.range readings.length).map (fun k => (k, nth readings k []))).find? (fun e => ostMatch t w vbr row e.1 e.2)

theorem ostFind_none (t w vbr : Nat) (readings : List (List Nat)) (row : Nat) : ostFind t w vbr readings row = none ↔
    ∀ k, k < readings.length → ostMatch t w vbr row k (nth readings k []) = false := by
  rw [ostFind, List.find?_eq_none]
  constructor
  · exact fun h k hk => Bool.eq_false_iff.2 (h (k, nth readings k []) (List.mem_map.2 ⟨k, List.mem_range.2 hk, rfl⟩))
  · intro h x hx
    obtain ⟨k, hk, rfl⟩ := List.mem_map.1 hx
    exact Bool.eq_false_iff.1 (h k (List.mem_range.1 hk))

theorem ostVerdict_pass (t w vbr : Nat) (readings : List (List Nat)) : (ostVerdict t w vbr readings).1 = 0 ↔
    ostFind t w vbr readings 4 = none ∧ ostFind t w vbr readings 1 = none ∧ ostFind t w vbr readings 2 = none ∧ ostFind t w vbr readings 3 = none := by
  show (match ostFind t w vbr readings 4, ostFind t w vbr readings 1, ostFind t w vbr readings 2, ostFind t w vbr readings 3 with
    | some (k, r), _, _, _ => (4, (targetLegs t).1 + k / 2, r)
    | none, some (k, r), _, _ => (1, (targetLegs t).1 + k / 2, r)
    | none, none, some (k, r), _ => (2, (targetLegs t).1 + k / 2, r)
    | none, none, none, some (k, r) => (3, (targetLegs t).1 + k / 2, r)
    | none, none, none, none => (0, 0xFF, readings.getLastD [])).1 = 0 ↔ _
  cases ostFind t w vbr readings 4 with
  | some x => simp
  | none => cases ostFind t w vbr readings 1 with
    | some x => simp
    | none => cases ostFind t w vbr readings 2 with
      | some x => simp
      | none => cases ostFind t w vbr readings 3 with
        | some x => simp
        | none => simp

theorem ostVerdict_iff {t w vbr : Nat} {readings : List (List Nat)} (hw : w ≤ 50) : (ostVerdict t w vbr readings).1 = 0 ↔
    ∀ k, k < readings.length → StepPasses t w vbr k (nth readings k []) := by
  simp only [ostVerdict_pass, ostFind_none, stepPasses_iff hw]
  exact ⟨fun ⟨h4, h1, h2, h3⟩ k hk => ⟨h4 k hk, h1 k hk, h2 k hk, h3 k hk⟩,
    fun h => ⟨fun k hk => (h k hk).1, fun k hk => (h k hk).2.1, fun k hk => (h k hk).2.2.1, fun k hk => (h k hk).2.2.2⟩⟩

/-! #### The end of a test (R241, R242) -/

theorem ostFinish_of_none {c : Chip} (h : c.dev.pend = []) (l : LaneId) (t : Nat) : c.ostFinish l t = c := by
  rw [Chip.ostFinish, h]
  rfl

theorem RecordsOnly.field {c d : Chip} (h : RecordsOnly c d) {α : Type} (p : Dev → α)
    (hp : ∀ (x : Dev) hosts events, p { x with hosts := hosts, events := events } = p x) : p d.dev = p c.dev := by
  rw [h.dev, hp]

theorem stageFault_field {α : Type} (p : Dev → α) (hp : ∀ (x : Dev) hosts events, p { x with hosts := hosts, events := events } = p x) (c : Chip)
    (l : LaneId) (t code : Nat) : p (c.stageFault l t code).dev = p c.dev := by
  unfold Chip.stageFault
  split
  · exact (localFault_only c l code 0x07 t l.idx).field p hp
  · rfl

/-- A target with the verdict of its test (R242). -/
def Target.judged (v : Nat × Nat × List Nat) (x : Target) : Target :=
  { x with run := none, due := false, passed := x.passed || decide (v.1 = 0), result := v.1, leg := v.2.1, nodes := v.2.2 }

theorem ostEnd_of_none {c : Chip} (h : c.dev.pend = []) (l : LaneId) (t : Nat) (readings : List (List Nat)) :
    let v := ostVerdict t (c.parN Par.gdrOstWindow (targetGroup t)) (c.ostVbr l t) readings
    c.ostEnd l t readings = if v.1 = 0 then c.modTarget l t (Target.judged v) else (c.modTarget l t (Target.judged v)).stageFault l t (ostFault v.1) := by
  intro v
  have hpend : ∀ d : Chip, d.dev.pend = c.dev.pend → d.ostFinish l t = d := fun d hd => ostFinish_of_none (hd.trans h) l t
  have hjudged : (c.modTarget l t (Target.judged v)).dev.pend = c.dev.pend := congrArg Dev.pend (modTarget_dev ..)
  show (if v.1 = 0 then c.modTarget l t (Target.judged v) else (c.modTarget l t (Target.judged v)).stageFault l t (ostFault v.1)).ostFinish l t = _
  refine hpend _ ?_
  split
  · exact hjudged
  · exact (stageFault_field Dev.pend (fun _ _ _ => rfl) ..).trans hjudged

/-! #### Tests commanded and latches cleared (R236, R242, R247) -/

theorem quadFails_of {p : List Byte} {k : Nat} (hlen : p.length = 16) (hzero : zeroFrom p k 16 = true) : quadFails p k = [] := if_pos ⟨hlen, hzero⟩

/-- A target with a new test running (R242). -/
def Target.started (x : Target) : Target := { x with run := some {} }

theorem foldl_modTarget_lanes {t : Nat} (ht : t < 2) (f : Target → Target) (ls : List LaneId) (hnodup : ls.Nodup) (c : Chip) (k : LaneId) :
    (ls.foldl (fun c l => c.modTarget l t f) c).lanes.get k =
      if k ∈ ls then { c.lanes.get k with targets := modNth (c.lanes.get k).targets t f } else c.lanes.get k := by
  have heq : (fun (c : Chip) l => c.modTarget l t f) = fun c l => c.modLane l (fun n => { n with targets := modNth n.targets t f }) :=
    funext fun c => funext fun l => if_pos ht
  rw [heq]
  exact foldl_modLane_get _ ls hnodup k c

theorem foldl_modTarget_field {t : Nat} (ht : t < 2) (f : Target → Target) {α : Type} (p : Chip → α) (hp : ∀ (c : Chip) l g, p (c.modLane l g) = p c)
    (ls : List LaneId) (c : Chip) : p (ls.foldl (fun c l => c.modTarget l t f) c) = p c :=
  foldl_keeps p _ (fun c l => by rw [Chip.modTarget, if_pos ht, hp]) ls c

/-- The legs of a mask of a target without their latches (R236). -/
def clearedLegs (t m : Nat) (xs : List LegSt) : List LegSt :=
  xs.mapIdx (fun i x => if (targetLegs t).1 ≤ i ∧ i < (targetLegs t).1 + (targetLegs t).2 ∧ m.testBit (i - (targetLegs t).1) = true then {} else x)

/-- A target marked for a test (R236). -/
def Target.untested (x : Target) : Target := { x with due := true, passed := false }

theorem clearLegs_lane {t : Nat} (ht : t < 2) (c : Chip) (l : LaneId) (m : Nat) : c.clearLegs l t m =
    c.modLane l (fun n => { n with legs := clearedLegs t m n.legs, targets := modNth n.targets t Target.untested }) := by
  unfold Chip.clearLegs
  dsimp only
  rw [if_pos ht, Chip.modTarget, if_pos ht]
  exact modLane_modLane ..

theorem clearLegs_pintle {t : Nat} (ht : 2 ≤ t) (c : Chip) (l : LaneId) (m : Nat) : c.clearLegs l t m =
    c.modPintle (fun p => { p with legs := clearedLegs t m p.legs, targets := modNth p.targets (t - 2) Target.untested }) := by
  have hnot : ¬ t < 2 := by omega
  unfold Chip.clearLegs
  dsimp only
  rw [if_neg hnot, Chip.modTarget, if_neg hnot]
  rfl

/-- A line of a leg in a mask (R247). -/
def lineHit (t m i : Nat) : Bool := decide ((targetLegs t).1 ≤ i ∧ i < (targetLegs t).1 + (targetLegs t).2) && m.testBit (i - (targetLegs t).1)

/-- A lane's failed lines to the legs in a mask cleared (R247). -/
def PLane.clearedLines (t m : Nat) (p : PLane) : PLane :=
  { p with
    failedLines := p.failedLines.filter (fun i => !lineHit t m i)
    deviations := p.deviations.mapIdx (fun i k => if lineHit t m i then 0 else k) }

theorem clearLines_eq (c : Chip) (l : LaneId) (t m : Nat) : c.clearLines l t m = c.modPLane l (PLane.clearedLines t m) := rfl

theorem foldl_clearLines (t m : Nat) (ls : List LaneId) (hnodup : ls.Nodup) (c : Chip) (k : LaneId) :
    (ls.foldl (fun c l => c.clearLines l t m) c).pintle.lanes.get k =
      if k ∈ ls then (c.pintle.lanes.get k).clearedLines t m else c.pintle.lanes.get k := by
  split
  · exact foldl_touched (fun c l => c.clearLines l t m) (fun c l => c.pintle.lanes.get l) (PLane.clearedLines t m) (fun c l => modPLane_same c l _)
      (fun c l j hj => modPLane_ne c _ hj) ls hnodup c ‹_›
  · exact foldl_untouched (fun c l => c.clearLines l t m) (fun c l => c.pintle.lanes.get l) (fun c l j hj => modPLane_ne c _ hj) ls c ‹_›

theorem mapIdx_getElem? {xs : List LegSt} {i : Nat} {x : LegSt} (h : xs[i]? = some x) (f : Nat → LegSt → LegSt) : (xs.mapIdx f)[i]? = some (f i x) := by
  rw [List.getElem?_mapIdx, h]
  rfl

theorem targetLegs_lane {t : Nat} (ht : t < 2) : targetLegs t = (3 * t, 3) := by
  have : t = 0 ∨ t = 1 := by omega
  rcases this with rfl | rfl <;> rfl

/-- The stage of a lane target fenced; its targets stay (R235). -/
theorem stageFault_lane_of {t : Nat} (ht : t < 2) (c : Chip) (l : LaneId) (code : Nat) :
    (0x07, t) ∈ ((c.stageFault l t code).lane l).fencedNow ∧ ((c.stageFault l t code).lane l).targets = (c.lane l).targets := by
  have hrecords := localFault_only c l code 0x07 t l.idx
  have hself : (c.stageFault l t code).lane l = { (c.localFault l code 0x07 t l.idx).lane l with
      fencedNow := if ((c.localFault l code 0x07 t l.idx).lane l).fencedNow.contains (0x07, t) then ((c.localFault l code 0x07 t l.idx).lane l).fencedNow
        else ((c.localFault l code 0x07 t l.idx).lane l).fencedNow ++ [(0x07, t)]
      engines := modNth ((c.localFault l code 0x07 t l.idx).lane l).engines t (fun e => e.halt .off) } := by
    rw [Chip.stageFault, if_pos ht]
    exact tri_get_set_same ..
  rw [hself]
  exact ⟨mem_of_added _, hrecords.lanesAlike.lane l Lane.targets fun _ _ => rfl⟩

theorem modTarget_targets {t : Nat} (ht : t < 2) (c : Chip) (l : LaneId) (f : Target → Target) :
    ((c.modTarget l t f).lane l).targets = modNth (c.lane l).targets t f := by
  rw [Chip.modTarget, if_pos ht]
  exact congrArg Lane.targets (tri_get_set_same ..)

section Tests

variable {s g : State} (halike : Alike s g) {r : Req}
include halike

theorem checksOffstateTest_of (hlen : r.body.length = 16) (hzero : zeroFrom r.body 1 16 = true) (ht : fld r.body 0 1 < 10)
    (hused : targetUsed s.chip.dev.cfg.ws (fld r.body 0 1) = true) (hoff : s.chip.targetSwitches (fld r.body 0 1) = false)
    (hfree : s.chip.ostRuns (fld r.body 0 1) = false) : checksOffstateTest r g.chip = [] := by
  rw [checksOffstateTest, quadFails_of hlen hzero, halike.cfg, if_pos ⟨ht, hused⟩, targetSwitches_alike halike, hoff, ostRuns_alike halike, hfree]
  rfl

theorem checksLegClear_of (hlen : r.body.length = 16) (hzero : zeroFrom r.body 2 16 = true) (ht : fld r.body 0 1 < 10)
    (hused : targetUsed s.chip.dev.cfg.ws (fld r.body 0 1) = true) (hm : fld r.body 1 1 < 2 ^ (targetLegs (fld r.body 0 1)).2) :
    checksLegClear r g.chip = [] := by
  rw [checksLegClear, quadFails_of hlen hzero, halike.cfg, if_pos ⟨ht, hused, hm⟩]
  rfl

end Tests

theorem effectOffstateTest_lane {r : Req} (ht : fld r.body 0 1 < 2) (g : State) : effectOffstateTest r g =
    { st := g.onChip (fun c => (r.lanes.foldl (fun c l => c.modTarget l (fld r.body 0 1) Target.started) c).addPend 0x1110 r
        { lanes := maskOf r.lanes, arg := fld r.body 0 1 }), status := stPending } := if_pos ht

theorem effectOffstateTest_pintle {r : Req} (ht : 2 ≤ fld r.body 0 1) {g : State} (hholder : g.chip.pintle.holder.isSome = true)
    (hhold : g.chip.pintle.holding = false) : effectOffstateTest r g =
    { st := g.onChip (fun c => (c.modTarget .a (fld r.body 0 1) Target.started).addPend 0x1110 r
        { lanes := maskOf r.lanes, arg := fld r.body 0 1 }), status := stPending } := (if_neg (by omega)).trans (if_pos ⟨hholder, hhold⟩)

/-- A target whose test is deferred (R242). -/
def Target.deferred (x : Target) : Target := { x with result := 5, leg := 0xFF, nodes := [] }

theorem effectOffstateTest_deferred {r : Req} (ht : 2 ≤ fld r.body 0 1) {g : State} (hholder : g.chip.pintle.holder = none) :
    (effectOffstateTest r g).st = g.onChip (fun c => c.modTarget .a (fld r.body 0 1) Target.deferred) := by
  unfold effectOffstateTest
  dsimp only
  rw [if_neg (by omega), if_neg (by rw [hholder]; exact fun h => Bool.noConfusion h.1)]
  rfl

/-- The die with a target changed. -/
def Pintle.withTarget (t : Nat) (f : Target → Target) (p : Pintle) : Pintle := { p with targets := modNth p.targets (t - 2) f }

/-- The die with the latches of the legs in a mask cleared, and their target marked for a test (R236). -/
def Pintle.legsCleared (t m : Nat) (p : Pintle) : Pintle :=
  { p with legs := clearedLegs t m p.legs, targets := modNth p.targets (t - 2) Target.untested }

theorem modTarget_of_pintle {t : Nat} (ht : 2 ≤ t) (c : Chip) (l : LaneId) (f : Target → Target) :
    c.modTarget l t f = c.modPintle (Pintle.withTarget t f) := if_neg (by omega)

theorem modPintle_plain_congr {c d : Chip} (h : d.plain = c.plain) (f : Pintle → Pintle) : (d.modPintle f).plain = (c.modPintle f).plain :=
  congrArg (fun x : Chip => x.modPintle f) h

theorem effectLegClear_lane {r : Req} (ht : fld r.body 0 1 < 2) (g : State) : (effectLegClear r g).st =
    g.onChip (fun c => r.lanes.foldl (fun c l => c.clearLegs l (fld r.body 0 1) (fld r.body 1 1)) c) :=
  onChip_congr (f := fun c => if fld r.body 0 1 < 2 then r.lanes.foldl (fun c l => c.clearLegs l (fld r.body 0 1) (fld r.body 1 1)) c else
    r.lanes.foldl (fun c l => c.clearLines l (fld r.body 0 1) (fld r.body 1 1)) (c.clearLegs .a (fld r.body 0 1) (fld r.body 1 1))) (if_pos ht)

theorem effectLegClear_pintle {r : Req} (ht : 2 ≤ fld r.body 0 1) (g : State) : (effectLegClear r g).st =
    g.onChip (fun c => r.lanes.foldl (fun c l => c.clearLines l (fld r.body 0 1) (fld r.body 1 1))
      (c.clearLegs .a (fld r.body 0 1) (fld r.body 1 1))) :=
  onChip_congr (f := fun c => if fld r.body 0 1 < 2 then r.lanes.foldl (fun c l => c.clearLegs l (fld r.body 0 1) (fld r.body 1 1)) c else
    r.lanes.foldl (fun c l => c.clearLines l (fld r.body 0 1) (fld r.body 1 1)) (c.clearLegs .a (fld r.body 0 1) (fld r.body 1 1))) (if_neg (not_lt.2 ht))

/-- A lane with the latches of the legs in a mask cleared, and its target marked for a test (R236). -/
def Lane.legsCleared (t m : Nat) (n : Lane) : Lane := { n with legs := clearedLegs t m n.legs, targets := modNth n.targets t Target.untested }

theorem foldl_clearLegs {t : Nat} (ht : t < 2) (m : Nat) (ls : List LaneId) (hnodup : ls.Nodup) (c : Chip) :
    (ls.foldl (fun c l => c.clearLegs l t m) c).pintle = c.pintle ∧
    ∀ k, (ls.foldl (fun c l => c.clearLegs l t m) c).lanes.get k = if k ∈ ls then (c.lanes.get k).legsCleared t m else c.lanes.get k := by
  have heq : (fun (c : Chip) l => c.clearLegs l t m) = fun c l => c.modLane l (Lane.legsCleared t m) := funext fun c => funext fun l => clearLegs_lane ht c l m
  rw [heq]
  exact ⟨foldl_keeps Chip.pintle (fun c l => c.modLane l (Lane.legsCleared t m)) (fun _ _ => rfl) ls c, fun k => foldl_modLane_get _ ls hnodup k c⟩

theorem clearedLegs_eq (t m : Nat) (xs : List LegSt) : clearedLegs t m xs = xs.mapIdx (fun i x => if lineHit t m i then {} else x) := by
  unfold clearedLegs lineHit
  simp only [Bool.and_eq_true, decide_eq_true_eq, and_assoc]

/-- Settles O34: the verdict is the first match of R241's rows, none exactly on a pass; the operations change targets, legs and lines. -/
theorem offStateTestsAndGateOperations : Obligations.OffStateTestsAndGateOperations := by
  refine ⟨⟨fun s l k nodes run hrun => ?test, fun t w vbr readings _ hw _ => ostVerdict_iff hw⟩, fun s r hlen hused =>
    ⟨fun hadm hzero hoff hfree => ⟨fun ht => ?start, fun ht hlt hnone => ?deferred, fun ht hlt hsome hhold => ?pintle⟩,
      fun hadm hzero ht hm => ?clear, fun hadm hzero ht hlt hm => ?lines⟩⟩
  case test =>
    intro vbr v
    have hexec : exec (.ostStepSettle l k nodes) s = .next (s.onChip (ostStepSettle l k nodes)) := rfl
    have hsettle : ostStepSettle l k nodes s.chip = if run.step + 1 < 2 * (targetLegs k.val).2 then
        s.chip.modTarget l k.val (fun x => { x with run := some { run with step := run.step + 1, readings := run.readings ++ [nodes] } })
        else s.chip.ostEnd l k.val (run.readings ++ [nodes]) := by
      unfold ostStepSettle
      dsimp only
      rw [hrun]
    refine ⟨fun hmore => next_congr (congrArg (fun c => ({ s with chip := c } : State)) (hsettle.trans (if_pos hmore))), fun hlast hpend => ?_⟩
    have hend : ostStepSettle l k nodes s.chip = if v.1 = 0 then s.chip.modTarget l k.val (Target.judged v) else
        (s.chip.modTarget l k.val (Target.judged v)).stageFault l k.val (ostFault v.1) :=
      (hsettle.trans (if_neg (by omega))).trans (ostEnd_of_none hpend l k.val _)
    have hmotors : (s.chip.modTarget l k.val (Target.judged v)).dev.motors = s.chip.dev.motors := congrArg Dev.motors (modTarget_dev ..)
    refine ⟨_, hexec, rfl, ?_, fun hpass => ?_, fun hfail hk => ?_⟩
    · rw [onChip_chip, hend]
      split
      · exact hmotors
      · exact (stageFault_field Dev.motors (fun _ _ _ => rfl) ..).trans hmotors
    · rw [if_pos hpass] at hend
      refine onChip_congr (hend.trans ?_)
      have hjudged : Target.judged v = fun x => { x with run := none, due := false, passed := true, result := 0, leg := v.2.1, nodes := v.2.2 } := funext fun x => by
        rw [Target.judged, hpass, decide_eq_true rfl, Bool.or_true]
      rw [hjudged]
    · rw [if_neg hfail] at hend
      have htargets := modTarget_targets hk s.chip l (Target.judged v)
      obtain ⟨hfenced, hkept⟩ := stageFault_lane_of hk (s.chip.modTarget l k.val (Target.judged v)) l (ostFault v.1)
      rw [onChip_chip, hend]
      refine ⟨hfenced, hkept.trans (htargets.trans ?_)⟩
      have hjudged : Target.judged v = fun x => { x with run := none, due := false, result := v.1, leg := v.2.1, nodes := v.2.2 } := funext fun x => by
        rw [Target.judged, decide_eq_false hfail, Bool.or_false]
      rw [hjudged]
  case start =>
    obtain ⟨g, halike, -, hexec⟩ := exec_of_admits (i := .offstateTest r) rfl hadm
    have hexec' := (hexec (checksOffstateTest_of halike hlen hzero (ht.trans (by decide)) hused hoff hfree)).trans
      (next_congr (congrArg (fun o : OpOut => o.finish attrOffstateTest r) (effectOffstateTest_lane ht g)))
    have hstarted := foldl_modTarget_lanes ht Target.started r.lanes (reqLanes_nodup r) g.chip
    have hpintle := foldl_modTarget_field ht Target.started Chip.pintle (fun _ _ _ => rfl) r.lanes g.chip
    have hpend := foldl_modTarget_field ht Target.started (fun c => c.dev.pend) (fun _ _ _ => rfl) r.lanes g.chip
    have hnoted := noted_addPend (r.lanes.foldl (fun c l => c.modTarget l (fld r.body 0 1) Target.started) g.chip) 0x1110 r
      { lanes := maskOf r.lanes, arg := fld r.body 0 1 }
    have hadded := addPend_pend (r.lanes.foldl (fun c l => c.modTarget l (fld r.body 0 1) Target.started) g.chip) 0x1110 r
      { lanes := maskOf r.lanes, arg := fld r.body 0 1 }
    have hfinish := alike_finish attrOffstateTest r { st := g.onChip (fun c => (r.lanes.foldl (fun c l => c.modTarget l (fld r.body 0 1) Target.started) c).addPend
      0x1110 r { lanes := maskOf r.lanes, arg := fld r.body 0 1 }), status := stPending }
    refine ⟨_, hexec', hfinish.mem.trans halike.mem, hfinish.pintle.trans (hnoted.pintle.trans (hpintle.trans halike.pintle)), ?_, fun l => ?_⟩
    · rw [hfinish.field Dev.pend fun _ _ => rfl, onChip_chip, hadded, hpend, List.length_append, halike.field Dev.pend fun _ _ => rfl]
      rfl
    · refine (hfinish.lane l Lane.plain fun _ _ => rfl).trans ((hnoted.lanes.lane l Lane.plain fun _ _ => rfl).trans ?_)
      rw [lane_eq, hstarted, ← halike.lane l Lane.plain fun _ _ => rfl, ← halike.lane l Lane.targets fun _ _ => rfl]
      split <;> rfl
  case deferred =>
    obtain ⟨g, halike, -, hexec⟩ := exec_of_admits (i := .offstateTest r) rfl hadm
    have heffect := effectOffstateTest_deferred ht (g := g) (by rw [halike.pintle]; exact hnone)
    refine ⟨_, hexec (checksOffstateTest_of halike hlen hzero hlt hused hoff hfree), ?_, ?_⟩
    · rw [finish_mem]
      exact (congrArg State.mem heffect).trans halike.mem
    · refine (finish_plain ..).trans ((congrArg State.plain heffect).trans ?_)
      have hplain (x : State) : (x.onChip fun c => c.modTarget .a (fld r.body 0 1) Target.deferred).plain =
          x.plain.onChip fun c => c.modPintle (Pintle.withTarget (fld r.body 0 1) Target.deferred) := by
        rw [onChip_congr (s := x) (f := fun c => c.modTarget .a (fld r.body 0 1) Target.deferred)
          (g := fun c => c.modPintle (Pintle.withTarget (fld r.body 0 1) Target.deferred)) (modTarget_of_pintle ht ..)]
        rfl
      exact (hplain g).trans ((congrArg (fun x : State => x.onChip fun c => c.modPintle (Pintle.withTarget (fld r.body 0 1) Target.deferred)) halike.plain).trans
        (hplain s).symm)
  case pintle =>
    obtain ⟨g, halike, -, hexec⟩ := exec_of_admits (i := .offstateTest r) rfl hadm
    have heffect := effectOffstateTest_pintle ht (g := g) (by rw [halike.pintle]; exact Option.isSome_iff_ne_none.2 hsome) (by rw [halike.pintle]; exact hhold)
    have hexec' := (hexec (checksOffstateTest_of halike hlen hzero hlt hused hoff hfree)).trans
      (next_congr (congrArg (fun o : OpOut => o.finish attrOffstateTest r) heffect))
    have hadded := addPend_pend (g.chip.modTarget .a (fld r.body 0 1) Target.started) 0x1110 r { lanes := maskOf r.lanes, arg := fld r.body 0 1 }
    have hnoted := noted_addPend (g.chip.modTarget .a (fld r.body 0 1) Target.started) 0x1110 r { lanes := maskOf r.lanes, arg := fld r.body 0 1 }
    have hfinish := alike_finish attrOffstateTest r { st := g.onChip (fun c => (c.modTarget .a (fld r.body 0 1) Target.started).addPend
      0x1110 r { lanes := maskOf r.lanes, arg := fld r.body 0 1 }), status := stPending }
    refine ⟨_, hexec', hfinish.mem.trans halike.mem, ?_, ?_, fun l => ?_⟩
    · rw [hfinish.field Dev.pend fun _ _ => rfl, onChip_chip, hadded, modTarget_dev, List.length_append, halike.field Dev.pend fun _ _ => rfl]
      rfl
    · refine hfinish.pintle.trans (hnoted.pintle.trans ?_)
      rw [modTarget_of_pintle ht, ← halike.pintle]
      rfl
    · refine (hfinish.lane l Lane.plain fun _ _ => rfl).trans ((hnoted.lanes.lane l Lane.plain fun _ _ => rfl).trans ?_)
      rw [modTarget_of_pintle ht]
      exact halike.lane l Lane.plain fun _ _ => rfl
  case clear =>
    obtain ⟨g, halike, -, hexec⟩ := exec_of_admits (i := .legClear r) rfl hadm
    have hlegs := targetLegs_lane ht
    have hchecks := checksLegClear_of halike hlen hzero (ht.trans (by decide)) hused (by rw [hlegs]; exact hm)
    obtain ⟨hpintle, hlanes⟩ := foldl_clearLegs ht (fld r.body 1 1) r.lanes (reqLanes_nodup r) g.chip
    have heffect := effectLegClear_lane ht g
    have hfinish := alike_finish attrLegClear r (effectLegClear r g)
    rw [heffect] at hfinish
    refine ⟨_, hexec hchecks, hfinish.mem.trans halike.mem, hfinish.pintle.trans (hpintle.trans halike.pintle), fun l => ⟨fun hl => ?_, fun hl => ⟨?_, fun i x hx => ?_⟩⟩⟩
    · refine (hfinish.lane l Lane.plain fun _ _ => rfl).trans ?_
      rw [lane_eq, onChip_chip, hlanes, if_neg hl]
      exact halike.lane l Lane.plain fun _ _ => rfl
    · refine (hfinish.lane l Lane.targets fun _ _ => rfl).trans ?_
      rw [lane_eq, onChip_chip, hlanes, if_pos hl, ← halike.lane l Lane.targets fun _ _ => rfl]
      rfl
    · rw [hfinish.lane l Lane.legs fun _ _ => rfl, lane_eq, onChip_chip, hlanes, if_pos hl]
      rw [← halike.lane l Lane.legs fun _ _ => rfl] at hx
      refine (mapIdx_getElem? hx _).trans ?_
      rw [hlegs]
  case lines =>
    intro lo hit
    obtain ⟨g, halike, -, hexec⟩ := exec_of_admits (i := .legClear r) rfl hadm
    have hchecks := checksLegClear_of halike hlen hzero hlt hused hm
    have heffect := effectLegClear_pintle ht g
    rw [onChip_congr (g := fun c => r.lanes.foldl (fun c l => c.clearLines l (fld r.body 0 1) (fld r.body 1 1)) (c.modPintle (Pintle.legsCleared
      (fld r.body 0 1) (fld r.body 1 1)))) (by rw [clearLegs_pintle ht]; rfl)] at heffect
    have hfinish := alike_finish attrLegClear r (effectLegClear r g)
    rw [heffect] at hfinish
    have hkeeps {α : Type} (p : Chip → α) (hp : ∀ (c : Chip) l f, p (c.modPLane l f) = p c) := foldl_keeps p
      (fun c l => c.clearLines l (fld r.body 0 1) (fld r.body 1 1)) (fun c l => hp c l (PLane.clearedLines (fld r.body 0 1) (fld r.body 1 1))) r.lanes (g.chip.modPintle (Pintle.legsCleared (fld r.body 0 1) (fld r.body 1 1)))
    have hlines := foldl_clearLines (fld r.body 0 1) (fld r.body 1 1) r.lanes (reqLanes_nodup r) (g.chip.modPintle (Pintle.legsCleared (fld r.body 0 1) (fld r.body 1 1)))
    refine ⟨_, hexec hchecks, hfinish.mem.trans halike.mem, fun l => ?_, ?_, ?_, ?_, fun l => ?_⟩
    · refine (hfinish.lane l Lane.plain fun _ _ => rfl).trans ?_
      rw [lane_eq, onChip_chip, hkeeps Chip.lanes fun _ _ _ => rfl]
      exact halike.lane l Lane.plain fun _ _ => rfl
    · rw [hfinish.pintle, onChip_chip, hkeeps (fun c => c.pintle.targets) fun _ _ _ => rfl, ← halike.pintle]
      rfl
    · rw [hfinish.pintle, onChip_chip, hkeeps (fun c => c.pintle.legs) fun _ _ _ => rfl, ← halike.pintle]
      exact clearedLegs_eq ..
    · rw [hfinish.pintle, onChip_chip, hkeeps (fun c => c.pintle.outs) fun _ _ _ => rfl, ← halike.pintle]
      rfl
    · rw [hfinish.pintle, onChip_chip, hlines, ← halike.pintle]
      split <;> rfl

end Sys2Proof.Machine

namespace Sys2Proof.Machine
open Sys2Proof


/-! ### The arbiter's vote (R30 to R32) -/

theorem voteOf_first_second {x y z : Nat} (h : x = y) : voteOf [x, y, z] = x := by
  subst h
  by_cases hz : z = x <;> simp [voteOf, hz]

theorem voteOf_first_third {x y z : Nat} (h : x = z) : voteOf [x, y, z] = x := by
  subst h
  by_cases hy : y = x <;> simp [voteOf, hy]

theorem voteOf_second_third {x y z : Nat} (h : y = z) : voteOf [x, y, z] = y := by
  subst h
  by_cases hx : x = y
  · simp [voteOf, hx]
  · simp [voteOf, hx, Ne.symm hx]

theorem voteOf_apart {x y z : Nat} (hxy : x ≠ y) (hxz : x ≠ z) (hyz : y ≠ z) : voteOf [x, y, z] = min x (min y z) := by
  simp [voteOf, hxy, hxz, hyz, hxy.symm, hxz.symm, hyz.symm, lowestOf]

theorem voteOf_two {x y : Nat} (h : x ≠ y) : voteOf [x, y] = min x y := by simp [voteOf, h, h.symm, lowestOf]

theorem voteOf_one (x : Nat) : voteOf [x] = x := by simp [voteOf, lowestOf]

/-- A lane's claim is above every other valid one. -/
def Pintle.above (p : Pintle) (l : LaneId) : Bool := (LaneId.all.filter p.validClaim).all (fun m => m == l || decide (p.voted.get m < p.voted.get l))

theorem best_eq (p : Pintle) : p.best = (LaneId.all.filter p.validClaim).find? p.above := rfl

/-- The holder found is the lane whose valid claim is above every other valid one (R32). -/
theorem best_iff (p : Pintle) (l : LaneId) : p.best = some l ↔ (p.validClaim l = true ∧ ∀ m, m ≠ l → p.validClaim m = true → p.voted.get m < p.voted.get l) := by
  have htest (l : LaneId) : p.above l = true ↔ ∀ m, m ≠ l → p.validClaim m = true → p.voted.get m < p.voted.get l := by
    rw [Pintle.above, List.all_eq_true]
    refine forall_congr' fun m => ?_
    simp only [List.mem_filter, mem_allLanes, true_and, Bool.or_eq_true, beq_iff_eq, decide_eq_true_eq]
    exact ⟨fun h hne hv => (h hv).resolve_left hne, fun h hv => (em (m = l)).imp_right fun hne => h hne hv⟩
  rw [best_eq]
  constructor
  · intro h
    have hmem := List.mem_of_find?_eq_some h
    exact ⟨(List.mem_filter.1 hmem).2, (htest l).1 (List.find?_some h)⟩
  · rintro ⟨hvalid, habove⟩
    cases hbest : (LaneId.all.filter p.validClaim).find? p.above with
    | none =>
      have := List.find?_eq_none.1 hbest l (List.mem_filter.2 ⟨mem_allLanes l, hvalid⟩)
      exact absurd ((htest l).2 habove) this
    | some m =>
      by_cases hm : m = l
      · rw [hm]
      · have hmvalid := (List.mem_filter.1 (List.mem_of_find?_eq_some hbest)).2
        have hlt := (htest m).1 (List.find?_some hbest) l (Ne.symm hm) hvalid
        exact absurd (habove m hm hmvalid) (Nat.lt_asymm hlt)

theorem best_valid {p : Pintle} {l : LaneId} (h : p.best = some l) : p.validClaim l = true := ((best_iff p l).1 h).1

/-! ### What the measuring of a PWM period changes (R246 to R248, R258, R268) -/

/-- An output whose pattern and place in a hand-over are the same. -/
structure SamePattern (o q : POut) : Prop where
  lastPassed : q.lastPassed = o.lastPassed
  driven : q.driven = o.driven
  gap : q.gap = o.gap
  gapPeriods : q.gapPeriods = o.gapPeriods
  limit : q.limit = o.limit
  fenced : q.fenced = o.fenced
  by_ : q.by_ = o.by_
  hasPacket : q.hasPacket = o.hasPacket

theorem SamePattern.refl (o : POut) : SamePattern o o := ⟨rfl, rfl, rfl, rfl, rfl, rfl, rfl, rfl⟩

theorem SamePattern.trans {o q x : POut} (h : SamePattern o q) (k : SamePattern q x) : SamePattern o x :=
  ⟨k.lastPassed.trans h.lastPassed, k.driven.trans h.driven, k.gap.trans h.gap, k.gapPeriods.trans h.gapPeriods, k.limit.trans h.limit,
    k.fenced.trans h.fenced, k.by_.trans h.by_, k.hasPacket.trans h.hasPacket⟩

/-- The second chip differs from the first in measured values of an output, counts of lines and packets, and reports. -/
structure Measured (k : Nat) (c d : Chip) : Prop where
  dev : d.dev = c.dev
  lanes : d.lanes = c.lanes
  frame : d.pintle = { c.pintle with lanes := d.pintle.lanes, outs := d.pintle.outs, targets := d.pintle.targets, faults := d.pintle.faults }
  faults : ∀ x ∈ c.pintle.faults, x ∈ d.pintle.faults
  outs : ∃ f : POut → POut, d.pintle.outs = modNth c.pintle.outs k f ∧ ∀ o, SamePattern o (f o)
  plane : ∀ l, d.pintle.lanes.get l = { c.pintle.lanes.get l with
    failedLines := (d.pintle.lanes.get l).failedLines, deviations := (d.pintle.lanes.get l).deviations, devNow := (d.pintle.lanes.get l).devNow
    packets := (d.pintle.lanes.get l).packets, got := (d.pintle.lanes.get l).got, missing := (d.pintle.lanes.get l).missing }

theorem Measured.refl (k : Nat) (c : Chip) : Measured k c c :=
  ⟨rfl, rfl, rfl, fun _ h => h, ⟨fun o => o, (modNth_id _ _).symm, .refl⟩, fun _ => rfl⟩

theorem Measured.trans {k : Nat} {c d e : Chip} (h : Measured k c d) (h' : Measured k d e) : Measured k c e where
  dev := h'.dev.trans h.dev
  lanes := h'.lanes.trans h.lanes
  frame := by rw [h'.frame, h.frame]
  faults := fun x hx => h'.faults x (h.faults x hx)
  outs := by
    obtain ⟨f, hf, hsame⟩ := h.outs
    obtain ⟨f', hf', hsame'⟩ := h'.outs
    exact ⟨fun o => f' (f o), by rw [hf', hf, modNth_modNth], fun o => (hsame o).trans (hsame' _)⟩
  plane := fun l => by rw [h'.plane l, h.plane l]

theorem measured_foldl {α : Type} {k : Nat} (f : Chip → α → Chip) (h : ∀ c x, Measured k c (f c x)) (xs : List α) : ∀ c : Chip, Measured k c (xs.foldl f c) := by
  induction xs with
  | nil => exact .refl k
  | cons x xs ih => exact fun c => (h c x).trans (ih (f c x))

theorem measured_modPOut (c : Chip) (k : Nat) {f : POut → POut} (h : ∀ o, SamePattern o (f o)) : Measured k c (c.modPOut k f) :=
  ⟨rfl, rfl, rfl, fun _ h => h, ⟨f, rfl, h⟩, fun _ => rfl⟩

theorem measured_modPLane (c : Chip) (k : Nat) (l : LaneId) {f : PLane → PLane} (h : ∀ p : PLane, f p = { p with
    failedLines := (f p).failedLines, deviations := (f p).deviations, devNow := (f p).devNow, packets := (f p).packets, got := (f p).got, missing := (f p).missing }) :
    Measured k c (c.modPLane l f) where
  dev := rfl
  lanes := rfl
  frame := rfl
  faults := fun _ h => h
  outs := ⟨fun o => o, (modNth_id _ _).symm, .refl⟩
  plane := fun j => by
    by_cases hj : j = l
    · subst hj
      rw [modPLane_same]
      exact h _
    · rw [modPLane_ne c f hj]

theorem measured_pintleFault (c : Chip) (k code t i : Nat) : Measured k c (c.pintleFault code t i) :=
  ⟨rfl, rfl, rfl, fun _ h => List.mem_append_left _ h, ⟨fun o => o, (modNth_id _ _).symm, .refl⟩, fun _ => rfl⟩

theorem measured_modTarget {t : Nat} (ht : 2 ≤ t) (c : Chip) (k : Nat) (l : LaneId) (f : Target → Target) : Measured k c (c.modTarget l t f) := by
  rw [modTarget_of_pintle ht]
  exact ⟨rfl, rfl, rfl, fun _ h => h, ⟨fun o => o, (modNth_id _ _).symm, .refl⟩, fun _ => rfl⟩

theorem outTarget_pintle (k : Nat) : 2 ≤ outTarget k := by
  unfold outTarget
  split <;> omega

theorem measured_ite {k : Nat} {c d e : Chip} {p : Prop} [Decidable p] (hd : Measured k c d) (he : Measured k c e) : Measured k c (if p then d else e) := by
  split
  · exact hd
  · exact he

theorem stallStep_measured (c : Chip) (k : Nat) : Measured k c (c.stallStep k) := by
  refine measured_modPOut c k fun o => ?_
  dsimp only
  split
  · split
    · exact ⟨rfl, rfl, rfl, rfl, rfl, rfl, rfl, rfl⟩
    · exact ⟨rfl, rfl, rfl, rfl, rfl, rfl, rfl, rfl⟩
  · exact ⟨rfl, rfl, rfl, rfl, rfl, rfl, rfl, rfl⟩

theorem stallJudge_measured (c : Chip) (k : Nat) (x : CoilPeriod) : Measured k c (c.stallJudge k x) := by
  unfold Chip.stallJudge
  refine Measured.trans (measured_ite (measured_modPOut _ _ fun _ => ?_) ?_) (measured_modPOut _ _ fun _ => ?_)
  · exact ⟨rfl, rfl, rfl, rfl, rfl, rfl, rfl, rfl⟩
  · refine Measured.trans (measured_ite (stallStep_measured c k) (.refl k c)) (measured_modPOut _ _ fun _ => ?_)
    exact ⟨rfl, rfl, rfl, rfl, rfl, rfl, rfl, rfl⟩
  · exact ⟨rfl, rfl, rfl, rfl, rfl, rfl, rfl, rfl⟩

theorem adaptDecay_measured (c : Chip) (k : Nat) (x : CoilPeriod) : Measured k c (c.adaptDecay k x) := by
  unfold Chip.adaptDecay
  refine measured_ite (.refl k c) (measured_ite (measured_modPOut _ _ fun _ => ?_) (measured_modPOut _ _ fun _ => ?_))
  · exact ⟨rfl, rfl, rfl, rfl, rfl, rfl, rfl, rfl⟩
  · exact ⟨rfl, rfl, rfl, rfl, rfl, rfl, rfl, rfl⟩

/-! #### Lines counted and packets taken (R245, R247) -/

/-- The second chip's lanes keep their packets and their failed lines, and failed lines do not change where no line deviated. -/
structure LinesKept (c d : Chip) : Prop where
  packets : ∀ l, (d.pintle.lanes.get l).packets = (c.pintle.lanes.get l).packets
  failed : ∀ l, ∀ g ∈ (c.pintle.lanes.get l).failedLines, g ∈ (d.pintle.lanes.get l).failedLines
  quiet : ∀ l, (c.pintle.lanes.get l).devNow = [] → (d.pintle.lanes.get l).failedLines = (c.pintle.lanes.get l).failedLines ∧ (d.pintle.lanes.get l).devNow = []

theorem LinesKept.refl (c : Chip) : LinesKept c c := ⟨fun _ => rfl, fun _ _ h => h, fun _ h => ⟨rfl, h⟩⟩

theorem LinesKept.trans {c d e : Chip} (h : LinesKept c d) (k : LinesKept d e) : LinesKept c e where
  packets := fun l => (k.packets l).trans (h.packets l)
  failed := fun l g hg => k.failed l g (h.failed l g hg)
  quiet := fun l hl => by
    obtain ⟨hfailed, hnow⟩ := h.quiet l hl
    obtain ⟨kfailed, know⟩ := k.quiet l hnow
    exact ⟨kfailed.trans hfailed, know⟩

theorem linesKept_of_eq {c d : Chip} (h : d.pintle.lanes = c.pintle.lanes) : LinesKept c d :=
  ⟨fun l => by rw [h], fun l g hg => by rw [h]; exact hg, fun l hl => by rw [h]; exact ⟨rfl, hl⟩⟩

theorem linesKept_modPLane (c : Chip) (l : LaneId) {f : PLane → PLane} (hpackets : ∀ p, (f p).packets = p.packets)
    (hfailed : ∀ p : PLane, ∀ g ∈ p.failedLines, g ∈ (f p).failedLines)
    (hquiet : ∀ p : PLane, p = c.pintle.lanes.get l → p.devNow = [] → (f p).failedLines = p.failedLines ∧ (f p).devNow = []) : LinesKept c (c.modPLane l f) := by
  refine ⟨fun j => ?_, fun j g hg => ?_, fun j hj => ?_⟩ <;> by_cases h : j = l
  · rw [h, modPLane_same, hpackets]
  · rw [modPLane_ne c f h]
  · subst h
    rw [modPLane_same]
    exact hfailed _ g hg
  · rw [modPLane_ne c f h]
    exact hg
  · subst h
    rw [modPLane_same]
    exact hquiet _ rfl hj
  · rw [modPLane_ne c f h]
    exact ⟨rfl, hj⟩

/-- A lane's part with a deviating line counted, and marked as failed at the limit (R247). -/
def PLane.lineCounted (g n : Nat) (fails : Bool) (p : PLane) : PLane :=
  { p with
    devNow := p.devNow.filter (· != g)
    deviations := modNth p.deviations g (fun _ => n)
    failedLines := if fails then p.failedLines ++ [g] else p.failedLines }

/-- One line of the holder counted. -/
def Chip.countLine (h : LaneId) (g : Nat) (c : Chip) : Chip :=
  if (c.pintle.lanes.get h).devNow.contains g then
    let n := nth (c.pintle.lanes.get h).deviations g 0 + 1
    let fails := decide (c.parN Par.gdrLineLimit ≤ n) && !(c.pintle.lanes.get h).failedLines.contains g
    let d := c.modPLane h (PLane.lineCounted g n fails)
    if fails then d.pintleFault 0x110C 0x03 h.idx else d
  else c.modPLane h (fun p => { p with deviations := modNth p.deviations g (fun _ => 0) })

theorem countLines_of_by {c : Chip} {k : Nat} {h : LaneId} (hby : (nth c.pintle.outs k {}).by_ = some h) : c.countLines k =
    (List.range (outLegs k)).foldl (fun c j => Chip.countLine h ((targetLegs (outTarget k)).1 + j) c) c := by
  unfold Chip.countLines
  rw [hby]
  rfl

theorem countLine_measured (k : Nat) (h : LaneId) (g : Nat) (c : Chip) : Measured k c (c.countLine h g) := by
  unfold Chip.countLine
  refine measured_ite ?_ (measured_modPLane c k h fun _ => rfl)
  exact measured_ite ((measured_modPLane c k h fun _ => rfl).trans (measured_pintleFault ..)) (measured_modPLane c k h fun _ => rfl)

theorem countLine_kept (h : LaneId) (g : Nat) (c : Chip) : LinesKept c (c.countLine h g) := by
  unfold Chip.countLine
  split
  · rename_i hnow
    have hstep (n : Nat) (fails : Bool) : LinesKept c (c.modPLane h (PLane.lineCounted g n fails)) := by
      refine linesKept_modPLane c h (fun _ => rfl) (fun p x hx => ?_) (fun p hp hquiet => ?_)
      · cases fails
        · exact hx
        · exact List.mem_append_left _ hx
      · subst hp
        rw [hquiet] at hnow
        cases hnow
    dsimp only
    split
    · exact (hstep _ _).trans (linesKept_of_eq rfl)
    · exact hstep _ _
  · exact linesKept_modPLane c h (fun _ => rfl) (fun _ _ hx => hx) fun _ _ hq => ⟨rfl, hq⟩

theorem countLines_steps (c : Chip) (k : Nat) : Measured k c (c.countLines k) ∧ LinesKept c (c.countLines k) := by
  cases hby : (nth c.pintle.outs k {}).by_ with
  | none =>
    have : c.countLines k = c := by rw [Chip.countLines, hby]
    rw [this]
    exact ⟨.refl k c, .refl c⟩
  | some h =>
    rw [countLines_of_by hby]
    refine ⟨measured_foldl _ (fun c j => countLine_measured k h _ c) _ c, ?_⟩
    have hfold (xs : List Nat) : ∀ c : Chip, LinesKept c (xs.foldl (fun c j => Chip.countLine h ((targetLegs (outTarget k)).1 + j) c) c) := by
      induction xs with
      | nil => exact .refl
      | cons x xs ih => exact fun c => (countLine_kept h _ c).trans (ih _)
    exact hfold _ c

/-- The packets of the period that begins taken by one lane's part (R245, R248). -/
def PLane.takePacket (k i : Nat) (p : PLane) : PLane :=
  let p := { p with
    missing := modNth p.missing k (fun n => if nth p.got k false then 0 else min 16 (n + 1)), got := modNth p.got k (fun _ => false) }
  match nth p.coming k none with
  | some q => { p with packets := modNth p.packets k (fun _ => some (i, q)) }
  | none => p

theorem takePacket_eq (k i : Nat) (p : PLane) : p.takePacket k i = { p with
    failedLines := (p.takePacket k i).failedLines, deviations := (p.takePacket k i).deviations, devNow := (p.takePacket k i).devNow
    packets := (p.takePacket k i).packets, got := (p.takePacket k i).got, missing := (p.takePacket k i).missing } := by
  unfold PLane.takePacket
  dsimp only
  split <;> rfl

theorem takePackets_eq (c : Chip) (k : Nat) : c.takePackets' k = LaneId.all.foldl (fun d l => d.modPLane l (PLane.takePacket k (c.nextIndex k)))
    (c.modPOut k (fun o => { o with index := c.nextIndex k })) := rfl

theorem takePackets_measured (c : Chip) (k : Nat) : Measured k c (c.takePackets' k) := by
  rw [takePackets_eq]
  refine Measured.trans (measured_modPOut c k (f := fun o => { o with index := c.nextIndex k }) fun _ => ⟨rfl, rfl, rfl, rfl, rfl, rfl, rfl, rfl⟩)
    (measured_foldl _ (fun d l => ?_) _ _)
  exact measured_modPLane d k l fun p => takePacket_eq ..

/-- What the boundary measures before it judges the period. -/
def Chip.measured (c : Chip) (k : Nat) (x : CoilPeriod) : Chip :=
  (((c.stallJudge k x).modTarget .a (outTarget k) (fun t => { t.takeBand 0 with shortNow := false })).adaptDecay k x).countLines k

theorem stallJudge_planes (c : Chip) (k : Nat) (x : CoilPeriod) : (c.stallJudge k x).pintle.lanes = c.pintle.lanes := by
  have hout (d : Chip) (f : POut → POut) : (d.modPOut k f).pintle.lanes = d.pintle.lanes := rfl
  have hstep (d : Chip) (p : Prop) [Decidable p] : (if p then d.stallStep k else d).pintle.lanes = d.pintle.lanes := by split <;> rfl
  unfold Chip.stallJudge
  dsimp only
  rw [hout]
  split
  · rw [hout]
  · rw [hout, hstep]

theorem adaptDecay_planes (c : Chip) (k : Nat) (x : CoilPeriod) : (c.adaptDecay k x).pintle.lanes = c.pintle.lanes := by
  unfold Chip.adaptDecay
  dsimp only
  split
  · rfl
  · split <;> rfl

theorem measured_steps (c : Chip) (k : Nat) (x : CoilPeriod) : Measured k c (c.measured k x) ∧ LinesKept c (c.measured k x) := by
  have hstall := stallJudge_measured c k x
  have htarget := hstall.trans (measured_modTarget (outTarget_pintle k) (c.stallJudge k x) k .a (fun t => { t.takeBand 0 with shortNow := false }))
  have hdecay := htarget.trans (adaptDecay_measured _ k x)
  have hplanes : ((((c.stallJudge k x).modTarget .a (outTarget k) (fun t => { t.takeBand 0 with shortNow := false })).adaptDecay k x)).pintle.lanes =
      c.pintle.lanes := by
    rw [adaptDecay_planes, modTarget_of_pintle (outTarget_pintle k)]
    exact stallJudge_planes c k x
  obtain ⟨hcount, hkept⟩ := countLines_steps (((c.stallJudge k x).modTarget .a (outTarget k) (fun t => { t.takeBand 0 with shortNow := false })).adaptDecay k x) k
  exact ⟨hdecay.trans hcount, (linesKept_of_eq hplanes).trans hkept⟩

/-! #### The period judged, and the coming one driven (R33, R34) -/

/-- The lines of a period without a packet pass for a lane's part in the die (R33). -/
def PLane.linesPass (p : PLane) (k pwm : Nat) (lines : List LinePattern) : Bool :=
  match nth p.packets k none with
  | none => false
  | some (_, q) =>
    (List.range (outLegs k)).all (fun j =>
      let m := legMode q.modes j
      decide (m ≤ 1) && !(p.failedLines.contains ((targetLegs (outTarget k)).1 + j)) && lineFormed (nth lines j {}) m pwm)

theorem periodPasses_eq (c : Chip) (l : LaneId) (k : Nat) (lines : List LinePattern) : c.periodPasses l k lines =
    (!(nth c.pintle.outs k {}).limit && ((nth c.pintle.outs k {}).hasPacket || (c.pintle.lanes.get l).linesPass k (c.outPwm k) lines)) := rfl

theorem linesPass_congr {p q : PLane} (hpackets : q.packets = p.packets) (hfailed : q.failedLines = p.failedLines) (k pwm : Nat) (lines : List LinePattern) :
    q.linesPass k pwm lines = p.linesPass k pwm lines := by rw [PLane.linesPass, PLane.linesPass, hpackets, hfailed]

/-- More failed lines let no more periods pass. -/
theorem linesPass_mono {p q : PLane} (hpackets : q.packets = p.packets) (hfailed : ∀ g ∈ p.failedLines, g ∈ q.failedLines) {k pwm : Nat} {lines : List LinePattern}
    (h : q.linesPass k pwm lines = true) : p.linesPass k pwm lines = true := by
  unfold PLane.linesPass at *
  rw [hpackets] at h
  split at h
  · cases h
  · dsimp only at h ⊢
    rw [List.all_eq_true] at h ⊢
    intro j hj
    have := h j hj
    simp only [Bool.and_eq_true, Bool.not_eq_true'] at this ⊢
    refine ⟨⟨this.1.1, ?_⟩, this.2⟩
    refine Bool.eq_false_iff.2 fun hmem => ?_
    exact Bool.eq_false_iff.1 this.1.2 (List.contains_iff_mem.2 (hfailed _ (List.contains_iff_mem.1 hmem)))

theorem lt_of_by {outs : List POut} {k : Nat} {l : LaneId} (h : (nth outs k {}).by_ = some l) : k < outs.length := by
  by_contra hk
  rw [nth_of_length_le (not_lt.1 hk)] at h
  cases h

theorem Measured.out {k : Nat} {c d : Chip} (h : Measured k c d) (hk : k < c.pintle.outs.length) :
    SamePattern (nth c.pintle.outs k {}) (nth d.pintle.outs k {}) := by
  obtain ⟨f, hf, hsame⟩ := h.outs
  rw [hf, nth_modNth_same _ _ _ _ hk]
  exact hsame _

theorem Measured.outPwm {k : Nat} {c d : Chip} (h : Measured k c d) (j : Nat) : d.outPwm j = c.outPwm j := by
  simp only [Chip.outPwm, Chip.parN, Chip.par, h.dev]

section Judged

variable {c d : Chip} {k : Nat} {l : LaneId} {lines : List LinePattern} (hmeasured : Measured k c d) (hkept : LinesKept c d)
  (hby : (nth c.pintle.outs k {}).by_ = some l)
include hmeasured hkept hby

theorem periodPasses_measured (hpass : c.periodPasses l k lines = true)
    (hquiet : (nth c.pintle.outs k {}).hasPacket = true ∨ (c.pintle.lanes.get l).devNow = []) : d.periodPasses l k lines = true := by
  have hout := hmeasured.out (lt_of_by hby)
  rw [periodPasses_eq] at hpass ⊢
  rw [hout.limit, hout.hasPacket, hmeasured.outPwm]
  rcases hquiet with h | h
  · rw [h, Bool.true_or] at hpass ⊢
    exact hpass
  · rw [linesPass_congr (hkept.packets l) (hkept.quiet l h).1]
    exact hpass

theorem periodFails_measured (hfail : c.periodPasses l k lines = false) : d.periodPasses l k lines = false := by
  have hout := hmeasured.out (lt_of_by hby)
  refine Bool.eq_false_iff.2 fun hpass => Bool.eq_false_iff.1 hfail ?_
  rw [periodPasses_eq] at hpass ⊢
  rw [hout.limit, hout.hasPacket, hmeasured.outPwm] at hpass
  simp only [Bool.and_eq_true, Bool.or_eq_true] at hpass ⊢
  exact ⟨hpass.1, hpass.2.imp_right fun h => linesPass_mono (hkept.packets l) (hkept.failed l) h⟩

end Judged

/-- An output whose period has passed (R33). -/
def POut.passed (x : Int) (o : POut) : POut := { o with lastPassed := o.driven, lastPos := x }

theorem judgePeriod_of_pass {c : Chip} {k : Nat} {l : LaneId} {lines : List LinePattern} (hby : (nth c.pintle.outs k {}).by_ = some l)
    (hpass : c.periodPasses l k lines = true) : ∃ x, c.judgePeriod k lines = c.modPOut k (POut.passed x) := by
  unfold Chip.judgePeriod
  rw [hby]
  exact ⟨_, if_pos hpass⟩

theorem judgePeriod_of_fail {c : Chip} {k : Nat} {l : LaneId} {lines : List LinePattern} (hby : (nth c.pintle.outs k {}).by_ = some l)
    (hholder : c.pintle.holder = some l) (hlimit : (nth c.pintle.outs k {}).limit = false) (hfail : c.periodPasses l k lines = false) :
    c.judgePeriod k lines = c.loseClaim l := by
  unfold Chip.judgePeriod
  rw [hby]
  dsimp only
  rw [if_neg (by rw [hfail]; exact Bool.false_ne_true), if_pos hholder, hlimit]
  rfl

/-- An output driven by the packet of the holder (R34, R246). -/
def POut.drivenBy (h : LaneId) (q : Fallback) (o : POut) : POut :=
  { o with gap := false, limit := false, by_ := some h, hasPacket := true, driven := o.gated q }

/-- An output that repeats its last passed pattern (R34). -/
def POut.repeated (o : POut) : POut := { o with gapPeriods := o.gapPeriods + 1, by_ := none, driven := o.gated o.lastPassed }

theorem driveNext_of_coming {c : Chip} {k : Nat} {h : LaneId} {q : Fallback} (hholder : c.pintle.holder = some h)
    (hcoming : nth (c.pintle.lanes.get h).coming k none = some q) : c.driveNext k = c.modPOut k (POut.drivenBy h q) := by
  unfold Chip.driveNext
  rw [hholder]
  dsimp only
  rw [hcoming]
  rfl

theorem driveNext_of_gap {c : Chip} {k : Nat} (hgap : (nth c.pintle.outs k {}).gap = true)
    (hshort : ((nth c.pintle.outs k {}).gapPeriods + 1) * c.outPwm k ≤ longestGap (c.outPwm k))
    (hnone : ∀ h, c.pintle.holder = some h → nth (c.pintle.lanes.get h).coming k none = none) : c.driveNext k = c.modPOut k POut.repeated := by
  unfold Chip.driveNext
  dsimp only
  cases hholder : c.pintle.holder with
  | none =>
    dsimp only
    rw [if_pos hgap, if_pos hshort]
    rfl
  | some h =>
    dsimp only
    rw [hnone h hholder]
    dsimp only
    rw [if_pos hgap, if_pos hshort]
    rfl

theorem longestGap_ge {pwm : Nat} (h : pwm ≤ 100000) : (0 + 1) * pwm ≤ longestGap pwm := by
  rcases Nat.eq_zero_or_pos pwm with rfl | hpos
  · exact Nat.zero_le _
  · refine Nat.mul_le_mul_right pwm ?_
    exact le_min (by decide) ((Nat.one_le_div_iff hpos).2 h)

/-- The packets for the period that begins used up: nothing else changes. -/
structure Cleared (c d : Chip) : Prop where
  dev : d.dev = c.dev
  lanes : d.lanes = c.lanes
  pintle : d.pintle = { c.pintle with lanes := d.pintle.lanes }
  plane : ∀ l, d.pintle.lanes.get l = { c.pintle.lanes.get l with coming := (d.pintle.lanes.get l).coming }

theorem clearComing_cleared (c : Chip) (k : Nat) : Cleared c (c.clearComing k) := by
  have hstep (d : Chip) (l : LaneId) : Cleared d (d.modPLane l (fun p => { p with coming := modNth p.coming k (fun _ => none) })) := by
    refine ⟨rfl, rfl, rfl, fun j => ?_⟩
    by_cases hj : j = l
    · subst hj
      rw [modPLane_same]
    · rw [modPLane_ne _ _ hj]
  have htrans {a b d : Chip} (h : Cleared a b) (h' : Cleared b d) : Cleared a d :=
    ⟨h'.dev.trans h.dev, h'.lanes.trans h.lanes, by rw [h'.pintle, h.pintle], fun l => by rw [h'.plane l, h.plane l]⟩
  exact htrans (htrans (hstep c .a) (hstep _ .b)) (hstep _ .c)

/-! #### The claim lost (R33) -/

/-- The die with a lane barred from the claim and reported (R33). -/
def Pintle.barring (h : LaneId) (p : Pintle) : Pintle :=
  { p with lanes := p.lanes.set h { p.lanes.get h with barred := true }, faults := p.faults ++ [(0x0201, 0x01, h.idx)] }

/-- Every claimed output repeats its last passed pattern from its next boundary (R34). -/
def Pintle.gapped (p : Pintle) : Pintle := { p with outs := p.outs.map (fun o => { o with gap := true, gapPeriods := 0, limit := false }) }

theorem loseClaim_pintle (c : Chip) (h : LaneId) : (c.loseClaim h).pintle = ((c.pintle.barring h).setHolder (c.pintle.barring h).best).gapped ∧
    (c.loseClaim h).lanes = c.lanes := by
  unfold Chip.loseClaim Chip.holderEdge
  dsimp only
  split
  · exact ⟨rfl, rfl⟩
  · have hpintle (d : Chip) (ls : List LaneId) : (ls.foldl (fun c l => c.raiseEdge l 5) d).pintle = d.pintle := foldl_keeps Chip.pintle (fun c l => c.raiseEdge l 5) (fun _ _ => rfl) ls d
    have hlanes (d : Chip) (ls : List LaneId) : (ls.foldl (fun c l => c.raiseEdge l 5) d).lanes = d.lanes := foldl_keeps Chip.lanes (fun c l => c.raiseEdge l 5) (fun _ _ => rfl) ls d
    exact ⟨hpintle _ _, hlanes _ _⟩

/-- A barred lane does not hold the claim. -/
theorem barring_best (p : Pintle) (h : LaneId) : (p.barring h).best ≠ some h := by
  intro hbest
  have hvalid := best_valid hbest
  rw [Pintle.validClaim, show ((p.barring h).lanes.get h) = { p.lanes.get h with barred := true } from tri_get_set_same ..] at hvalid
  simp at hvalid

theorem loseClaim_dev {c : Chip} {h : LaneId} (hholder : c.pintle.holder = some h) : (c.loseClaim h).dev = { c.dev with claimAge := 0 } := by
  unfold Chip.loseClaim Chip.holderEdge
  dsimp only
  rw [if_neg (by rw [hholder]; exact barring_best c.pintle h)]
  have hdev (d : Chip) (ls : List LaneId) : (ls.foldl (fun c l => c.raiseEdge l 5) d).dev = d.dev := foldl_keeps Chip.dev (fun c l => c.raiseEdge l 5) (fun _ _ => rfl) ls d
  exact hdev _ _

/-! #### The boundary as a whole -/

theorem Measured.field {k : Nat} {c d : Chip} (h : Measured k c d) {α : Type} (p : Pintle → α)
    (hp : ∀ (x : Pintle) lanes outs targets faults, p { x with lanes := lanes, outs := outs, targets := targets, faults := faults } = p x) : p d.pintle = p c.pintle := by
  rw [h.frame, hp]

theorem pwmBoundary_of_free {c : Chip} (hup : c.pintleUp = true) (hhold : c.pintle.holding = false) (k : Fin 8) (lines : List LinePattern) (x : CoilPeriod) :
    pwmBoundary k lines x c = (if (((c.measured k.val x).judgePeriod k.val lines).takePackets' k.val).pintle.holding
      then ((c.measured k.val x).judgePeriod k.val lines).takePackets' k.val
      else (((c.measured k.val x).judgePeriod k.val lines).takePackets' k.val).driveNext k.val).clearComing k.val := by
  have hmeasured : (c.measured k.val x).pintle.holding = false := ((measured_steps c k.val x).1.field Pintle.holding fun _ _ _ _ _ => rfl).trans hhold
  unfold pwmBoundary
  dsimp only
  rw [if_neg (by rw [hup]; decide)]
  exact if_neg (by rw [show (((c.stallJudge k.val x).modTarget .a (outTarget k.val) (fun t => { t.takeBand 0 with shortNow := false })).adaptDecay k.val x).countLines k.val =
    c.measured k.val x from rfl, hmeasured]; exact Bool.false_ne_true)

/-- The coming packets of a lane are those of before while a period is measured. -/
theorem Measured.coming {k : Nat} {c d : Chip} (h : Measured k c d) (l : LaneId) : (d.pintle.lanes.get l).coming = (c.pintle.lanes.get l).coming := by
  rw [h.plane l]

theorem Measured.barred {k : Nat} {c d : Chip} (h : Measured k c d) (l : LaneId) : (d.pintle.lanes.get l).barred = (c.pintle.lanes.get l).barred := by
  rw [h.plane l]

theorem best_congr {p q : Pintle} (hvoted : q.voted = p.voted) (hpresents : ∀ l, (q.lanes.get l).presents = (p.lanes.get l).presents)
    (hbarred : ∀ l, (q.lanes.get l).barred = (p.lanes.get l).barred) : q.best = p.best := by
  have hvalid : q.validClaim = p.validClaim := funext fun l => by rw [Pintle.validClaim, Pintle.validClaim, hvoted, hpresents, hbarred]
  have habove : q.above = p.above := funext fun l => by rw [Pintle.above, Pintle.above, hvoted, hvalid]
  rw [best_eq, best_eq, hvalid, habove]

theorem Measured.best {k : Nat} {c d : Chip} (h : Measured k c d) : d.pintle.best = c.pintle.best :=
  best_congr (h.field Pintle.voted fun _ _ _ _ _ => rfl) (fun l => by rw [h.plane l]) (fun l => by rw [h.plane l])

theorem Cleared.best {c d : Chip} (h : Cleared c d) : d.pintle.best = c.pintle.best :=
  best_congr (by rw [h.pintle]) (fun l => by rw [h.plane l]) (fun l => by rw [h.plane l])

theorem Cleared.outs {c d : Chip} (h : Cleared c d) : d.pintle.outs = c.pintle.outs := by rw [h.pintle]

theorem Cleared.holder {c d : Chip} (h : Cleared c d) : d.pintle.holder = c.pintle.holder := by rw [h.pintle]

/-- A period of the holder that passes, with its packet for the coming one (R33, R34). -/
theorem pwmBoundary_passes {c : Chip} {k : Fin 8} {h : LaneId} {q : Fallback} (hup : c.pintleUp = true) (hhold : c.pintle.holding = false)
    (hholder : c.pintle.holder = some h) (hby : (nth c.pintle.outs k.val {}).by_ = some h) {lines : List LinePattern} (x : CoilPeriod)
    (hpass : c.periodPasses h k.val lines = true) (hquiet : (nth c.pintle.outs k.val {}).hasPacket = true ∨ (c.pintle.lanes.get h).devNow = [])
    (hcoming : nth (c.pintle.lanes.get h).coming k.val none = some q) :
    (pwmBoundary k lines x c).dev = c.dev ∧ (pwmBoundary k lines x c).lanes = c.lanes ∧ (pwmBoundary k lines x c).pintle.holder = some h ∧
      ∃ y, (pwmBoundary k lines x c).pintle.outs = modNth c.pintle.outs k.val (fun _ => y) ∧ y.lastPassed = (nth c.pintle.outs k.val {}).driven ∧
        y.driven = (if (nth c.pintle.outs k.val {}).fenced then {} else q) ∧ y.hasPacket = true ∧ y.by_ = some h ∧ y.gap = false := by
  obtain ⟨hmeasured, hkept⟩ := measured_steps c k.val x
  have hlt := lt_of_by hby
  have hsame := hmeasured.out hlt
  obtain ⟨pos, hjudge⟩ := judgePeriod_of_pass (hsame.by_.trans hby) (periodPasses_measured hmeasured hkept hby hpass hquiet)
  rw [pwmBoundary_of_free hup hhold, hjudge]
  have htake := takePackets_measured ((c.measured k.val x).modPOut k.val (POut.passed pos)) k.val
  generalize c.measured k.val x = d at *
  have hholding : ((d.modPOut k.val (POut.passed pos)).takePackets' k.val).pintle.holding = false :=
    (htake.field Pintle.holding fun _ _ _ _ _ => rfl).trans ((hmeasured.field Pintle.holding fun _ _ _ _ _ => rfl).trans hhold)
  have hholder' : ((d.modPOut k.val (POut.passed pos)).takePackets' k.val).pintle.holder = some h :=
    (htake.field Pintle.holder fun _ _ _ _ _ => rfl).trans ((hmeasured.field Pintle.holder fun _ _ _ _ _ => rfl).trans hholder)
  have hcoming' : nth (((d.modPOut k.val (POut.passed pos)).takePackets' k.val).pintle.lanes.get h).coming k.val none = some q := by
    rw [htake.coming h]
    exact (congrArg (fun xs => nth xs k.val none) (hmeasured.coming h)).trans hcoming
  rw [hholding, if_neg Bool.false_ne_true, driveNext_of_coming hholder' hcoming']
  have hclear := clearComing_cleared (((d.modPOut k.val (POut.passed pos)).takePackets' k.val).modPOut k.val (POut.drivenBy h q)) k.val
  obtain ⟨f, hf, hfsame⟩ := hmeasured.outs
  obtain ⟨f', hf', hfsame'⟩ := htake.outs
  have hy := (hfsame (nth c.pintle.outs k.val {}))
  have hy' := hfsame' (POut.passed pos (f (nth c.pintle.outs k.val {})))
  refine ⟨hclear.dev.trans (htake.dev.trans hmeasured.dev), hclear.lanes.trans (htake.lanes.trans hmeasured.lanes), hclear.holder.trans hholder',
    POut.drivenBy h q (f' (POut.passed pos (f (nth c.pintle.outs k.val {})))), ?_, ?_, ?_, rfl, rfl, rfl⟩
  · have houts : (((d.modPOut k.val (POut.passed pos)).takePackets' k.val).modPOut k.val (POut.drivenBy h q)).pintle.outs =
        modNth (modNth (modNth (modNth c.pintle.outs k.val f) k.val (POut.passed pos)) k.val f') k.val (POut.drivenBy h q) := by
      rw [← hf]
      exact congrArg (fun xs => modNth xs k.val (POut.drivenBy h q)) hf'
    rw [hclear.outs, houts, modNth_modNth, modNth_modNth, modNth_modNth]
    exact modNth_congr _ _ _ _ {} rfl
  · exact hy'.lastPassed.trans hy.driven
  · show (if (f' (POut.passed pos (f (nth c.pintle.outs k.val {})))).fenced then {} else q) = _
    rw [hy'.fenced, show (POut.passed pos (f (nth c.pintle.outs k.val {}))).fenced = (f (nth c.pintle.outs k.val {})).fenced from rfl, hy.fenced]

/-- The outputs after a lost claim, each in its gap. -/
theorem loseClaim_outs (c : Chip) (h : LaneId) : (c.loseClaim h).pintle.outs = c.pintle.outs.map (fun o => { o with gap := true, gapPeriods := 0, limit := false }) := by
  rw [(loseClaim_pintle c h).1]
  rfl

theorem nth_map {α : Type} (f : α → α) {xs : List α} {k : Nat} (d : α) (hk : k < xs.length) : nth (xs.map f) k d = f (nth xs k d) := by
  simp only [nth, List.getD, List.getElem?_map, List.getElem?_eq_getElem hk, Option.map_some, Option.getD_some]

theorem setHolder_holder (p : Pintle) (h : Option LaneId) : (p.setHolder h).holder = h := rfl

/-- A period of the holder that fails costs it the claim, and the output repeats (R33, R34). -/
theorem pwmBoundary_fails {c : Chip} {k : Fin 8} {h : LaneId} (hup : c.pintleUp = true) (hhold : c.pintle.holding = false)
    (hholder : c.pintle.holder = some h) (hby : (nth c.pintle.outs k.val {}).by_ = some h) {lines : List LinePattern} (x : CoilPeriod)
    (hfail : c.periodPasses h k.val lines = false) (hlimit : (nth c.pintle.outs k.val {}).limit = false) (hpwm : c.outPwm k.val ≤ 100000) :
    ∃ d e : Chip, Measured k.val c d ∧ Measured k.val (d.loseClaim h) e ∧ ∃ f : POut → POut, Cleared (e.modPOut k.val f) (pwmBoundary k lines x c) ∧
      (∀ o, (f o).gap = o.gap ∨ e.pintle.holder ≠ none) ∧ (e.pintle.holder = none → f = POut.repeated) := by
  obtain ⟨hmeasured, hkept⟩ := measured_steps c k.val x
  have hlt := lt_of_by hby
  have hsame := hmeasured.out hlt
  have hjudge := judgePeriod_of_fail (hsame.by_.trans hby) ((hmeasured.field Pintle.holder fun _ _ _ _ _ => rfl).trans hholder)
    (hsame.limit.trans hlimit) (periodFails_measured hmeasured hkept hby hfail)
  rw [pwmBoundary_of_free hup hhold, hjudge]
  have htake := takePackets_measured ((c.measured k.val x).loseClaim h) k.val
  generalize c.measured k.val x = d at *
  refine ⟨d, (d.loseClaim h).takePackets' k.val, hmeasured, htake, ?_⟩
  have hlose := (loseClaim_pintle d h).1
  have hholding : ((d.loseClaim h).takePackets' k.val).pintle.holding = false := by
    refine (htake.field Pintle.holding fun _ _ _ _ _ => rfl).trans ?_
    rw [hlose]
    exact (hmeasured.field Pintle.holding fun _ _ _ _ _ => rfl).trans hhold
  rw [hholding, if_neg Bool.false_ne_true]
  have hltd : k.val < (d.loseClaim h).pintle.outs.length := by
    obtain ⟨f, hf, -⟩ := hmeasured.outs
    rw [loseClaim_outs, List.length_map, hf, modNth_length]
    exact hlt
  have hltd' : k.val < d.pintle.outs.length := by rwa [loseClaim_outs, List.length_map] at hltd
  have hout := htake.out hltd
  have hgapped : (nth (d.loseClaim h).pintle.outs k.val {}).gap = true ∧ (nth (d.loseClaim h).pintle.outs k.val {}).gapPeriods = 0 := by
    rw [loseClaim_outs, nth_map _ _ hltd']
    exact ⟨rfl, rfl⟩
  have hpwm' : ((d.loseClaim h).takePackets' k.val).outPwm k.val = c.outPwm k.val := by
    have hdev : (d.loseClaim h).dev.cfg = d.dev.cfg := by
      rw [loseClaim_dev ((hmeasured.field Pintle.holder fun _ _ _ _ _ => rfl).trans hholder)]
    rw [htake.outPwm, ← hmeasured.outPwm]
    simp only [Chip.outPwm, Chip.parN, Chip.par, hdev]
  by_cases hcoming : ∃ j q, ((d.loseClaim h).takePackets' k.val).pintle.holder = some j ∧
      nth (((d.loseClaim h).takePackets' k.val).pintle.lanes.get j).coming k.val none = some q
  · obtain ⟨j, q, hj, hq⟩ := hcoming
    refine ⟨POut.drivenBy j q, ?_, fun o => .inr (by rw [hj]; exact Option.some_ne_none j), fun hnone => absurd (hj.symm.trans hnone) (Option.some_ne_none j)⟩
    rw [driveNext_of_coming hj hq]
    exact clearComing_cleared ..
  · refine ⟨POut.repeated, ?_, fun _ => .inl rfl, fun _ => rfl⟩
    rw [driveNext_of_gap (hout.gap.trans hgapped.1) (by rw [hout.gapPeriods, hgapped.2, hpwm']; exact longestGap_ge hpwm) fun j hj => ?_]
    · exact clearComing_cleared ..
    · by_contra hne
      obtain ⟨q, hq⟩ := Option.ne_none_iff_exists'.1 hne
      exact hcoming ⟨j, q, hj, hq⟩

/-! #### The limit of a gap (R34, R36) -/

theorem claimGapLimit_of {c : Chip} {k : Fin 8} (hup : c.pintleUp = true) (hhold : c.pintle.holding = false) (hgap : (nth c.pintle.outs k.val {}).gap = true)
    (hnone : ∀ h, c.pintle.holder = some h → nth (c.pintle.lanes.get h).coming k.val none = none) :
    claimGapLimit k c = ((c.takePackets' k.val).gapLimit k.val).clearComing k.val := by
  unfold claimGapLimit
  dsimp only
  refine if_pos ?_
  rw [hup, hgap, hhold]
  cases hholder : c.pintle.holder with
  | none => rfl
  | some h =>
    dsimp only
    rw [hnone h hholder]
    rfl

theorem claimGapLimit_of_not {c : Chip} {k : Fin 8} {h : LaneId} (hno : (nth c.pintle.outs k.val {}).gap = false ∨
    c.pintle.holder = some h ∧ nth (c.pintle.lanes.get h).coming k.val none ≠ none) : claimGapLimit k c = c := by
  unfold claimGapLimit
  dsimp only
  refine if_neg ?_
  rcases hno with hgap | ⟨hholder, hcoming⟩
  · rw [hgap, Bool.and_false, Bool.false_and, Bool.false_and]
    exact Bool.false_ne_true
  · rw [hholder]
    dsimp only
    rw [Option.isSome_iff_ne_none.2 hcoming, Bool.not_true, Bool.and_false, Bool.false_and]
    exact Bool.false_ne_true

theorem claimGapLimit_of_down {c : Chip} (hdown : c.pintleUp = false) (k : Fin 8) : claimGapLimit k c = c := by
  unfold claimGapLimit
  dsimp only
  refine if_neg ?_
  rw [hdown, Bool.false_and, Bool.false_and, Bool.false_and]
  exact Bool.false_ne_true

theorem gapLimit_of_holder {c : Chip} {k : Nat} {h : LaneId} (hholder : c.pintle.holder = some h) : c.gapLimit k = c.modPOut k (fun o =>
    { o with gap := false, limit := true, by_ := some h, hasPacket := false, driven := o.gated (c.noPacketPattern h k) }) := by
  unfold Chip.gapLimit
  rw [hholder]

theorem gapLimit_of_none {c : Chip} {k : Nat} (hholder : c.pintle.holder = none) : c.gapLimit k = c.noClaim := by
  unfold Chip.gapLimit
  rw [hholder]

/-- A lane's part that takes no packet keeps the last valid ones. -/
theorem takePacket_packets {k i : Nat} {p : PLane} (h : nth p.coming k none = none) : (p.takePacket k i).packets = p.packets := by
  unfold PLane.takePacket
  dsimp only
  rw [h]

theorem takePackets_plane (c : Chip) (k : Nat) (l : LaneId) : (c.takePackets' k).pintle.lanes.get l = (c.pintle.lanes.get l).takePacket k (c.nextIndex k) := by
  rw [takePackets_eq]
  exact (foldl_allLanes (f := fun (d : Chip) l => d.modPLane l (PLane.takePacket k (c.nextIndex k))) (fun (d : Chip) l => d.pintle.lanes.get l)
    (I := fun _ => True) (F := fun _ p => p.takePacket k (c.nextIndex k)) (fun _ _ _ => trivial) (fun d l j hj => modPLane_ne d _ hj)
    (fun d l _ => modPLane_same d l _) trivial).2 l

theorem gated_empty (o : POut) : o.gated {} = {} := by
  unfold POut.gated
  split <;> rfl

/-! #### The Deadbolt takes the outputs (R36, R463) -/

/-- The die with the Deadbolt in charge of the outputs (R463). -/
def Pintle.taken (p : Pintle) : Pintle :=
  { p with
    holding := true
    outs := p.outs.map (fun o => { o with gap := false, limit := false, by_ := none, hasPacket := false, qA := 4, qB := 4 }) }

/-- What the Deadbolt's start leaves: the lanes and the agreed data, the Deadbolt in charge, and a report. -/
structure DbTaken (c d : Chip) : Prop where
  lanes : d.lanes = c.lanes
  dev : d.dev = c.dev
  holding : d.pintle.holding = true
  fault : (0x0604, 0x00, 0) ∈ d.pintle.faults

theorem dbTaken_modPOut {c d : Chip} (h : DbTaken c d) (k : Nat) (f : POut → POut) : DbTaken c (d.modPOut k f) := ⟨h.lanes, h.dev, h.holding, h.fault⟩

theorem dbTaken_pintleFault {c d : Chip} (h : DbTaken c d) (code t i : Nat) : DbTaken c (d.pintleFault code t i) :=
  ⟨h.lanes, h.dev, h.holding, List.mem_append_left _ h.fault⟩

theorem dbTaken_foldl {α : Type} {c : Chip} (f : Chip → α → Chip) (h : ∀ d x, DbTaken c d → DbTaken c (f d x)) (xs : List α) :
    ∀ d : Chip, DbTaken c d → DbTaken c (xs.foldl f d) := by
  induction xs with
  | nil => exact fun _ hd => hd
  | cons x xs ih => exact fun d hd => ih _ (h d x hd)

/-- The Deadbolt takes the outputs, and the enable lines follow. -/
theorem dbTake_lines (c : Chip) : ∃ d, DbTaken c d ∧ c.dbTake = d.enableLines := by
  have hstart (db : List DbChan) : DbTaken c (((c.modPintle Pintle.taken).modPintle (fun p => { p with db := db })).pintleFault 0x0604 0x00 0) :=
    ⟨rfl, rfl, rfl, List.mem_append_right _ (List.mem_singleton.2 rfl)⟩
  refine ⟨_, dbTaken_foldl Chip.dbDrive (fun d k h => dbTaken_modPOut h ..) (List.range 8) _ ?_, rfl⟩
  split
  · refine dbTaken_foldl _ (fun d k h => ?_) (List.range 6) _ (hstart _)
    split
    · exact dbTaken_pintleFault h ..
    · exact h
  · exact hstart _

theorem pwmBoundary_of_down {c : Chip} (hdown : c.pintleUp = false) (k : Fin 8) (lines : List LinePattern) (x : CoilPeriod) : pwmBoundary k lines x c = c :=
  if_pos (by rw [hdown]; rfl)

/-- The gap of an output that changed hands but for one, through the measuring and the drive of that one. -/
theorem modNth_others {outs : List POut} {j k : Nat} (hjk : j ≠ k) (hj : j < outs.length) {f f' g : POut → POut} (m : POut → POut) :
    nth (modNth (modNth ((modNth outs k f).map m) k f') k g) j {} = m (nth outs j {}) := by
  rw [nth_modNth_ne _ _ _ _ _ hjk, nth_modNth_ne _ _ _ _ _ hjk, nth_map _ _ (by rw [modNth_length]; exact hj), nth_modNth_ne _ _ _ _ _ hjk]

/-- Settles O44: the boundary is measured, judged and driven in turn; a lost claim leaves every output in its gap. -/
theorem pwmBoundariesAndVotes : Obligations.PwmBoundariesAndVotes := by
  refine ⟨fun s k lines x h => ?boundaries, fun x y z => ⟨voteOf_first_second, voteOf_first_third, voteOf_second_third, voteOf_apart, voteOf_two, voteOf_one x⟩, best_iff⟩
  case boundaries =>
  intro o coming
  have hchip {f : Chip → Chip} (h : f s.chip = s.chip) : (Host.Outcome.next (s.onChip f) : Out) = .next s :=
    next_congr (congrArg (fun c => ({ s with chip := c } : State)) h)
  refine ⟨fun hdown => ?down, fun hpowered hfenced hhold hholder hby => ?judged, fun hpowered hfenced hhold => ?limit⟩
  case down =>
    have hdown' : s.chip.pintleUp = false := by
      rcases hdown with h | h <;> rw [Chip.pintleUp, h]
      · rfl
      · exact Bool.and_false _
    exact ⟨hchip (pwmBoundary_of_down hdown' k lines x), hchip (claimGapLimit_of_down hdown' k)⟩
  case judged =>
    have hup : s.chip.pintleUp = true := by rw [Chip.pintleUp, hpowered, hfenced]; rfl
    have hexec : exec (.pwmBoundary k lines x) s = .next (s.onChip (pwmBoundary k lines x)) := rfl
    refine ⟨fun q hpass hquiet hcoming => ?_, fun hfail hlimit hpwm => ?_⟩
    · obtain ⟨hdev, hlanes, hheld, y, houts, hlast, hdriven, hhas, hby', hgap⟩ := pwmBoundary_passes hup hhold hholder hby x hpass hquiet hcoming
      exact ⟨_, y, hexec, rfl, hlanes, hdev, hheld, houts, hlast, hdriven, hhas, hby', hgap⟩
    · obtain ⟨d, e, hmeasured, htake, f, hclear, hf, hrepeat⟩ := pwmBoundary_fails hup hhold hholder hby x hfail hlimit hpwm
      obtain ⟨hpintle, hlosLanes⟩ := loseClaim_pintle d h
      have hdHolder : d.pintle.holder = some h := (hmeasured.field Pintle.holder fun _ _ _ _ _ => rfl).trans hholder
      have hholding : e.pintle.holder = (d.pintle.barring h).best := (htake.field Pintle.holder fun _ _ _ _ _ => rfl).trans (congrArg Pintle.holder hpintle)
      have hbest : (pwmBoundary k lines x s.chip).pintle.best = (d.pintle.barring h).best :=
        hclear.best.trans (htake.best.trans ((congrArg Pintle.best hpintle).trans (best_congr rfl (fun _ => rfl) fun _ => rfl)))
      have hlane : ((pwmBoundary k lines x s.chip).pintle.lanes.get h).barred = true := by
        rw [hclear.plane h]
        refine (htake.barred h).trans ?_
        rw [hpintle]
        exact congrArg PLane.barred (tri_get_set_same d.pintle.lanes h _)
      obtain ⟨g, hg, hgsame⟩ := hmeasured.outs
      obtain ⟨g', hg', hgsame'⟩ := htake.outs
      rw [loseClaim_outs, hg] at hg'
      have houts : (pwmBoundary k lines x s.chip).pintle.outs = modNth (modNth ((modNth s.chip.pintle.outs k.val g).map (fun o =>
          { o with gap := true, gapPeriods := 0, limit := false })) k.val g') k.val f := by
        rw [hclear.outs, ← hg']
        rfl
      refine ⟨_, hexec, rfl, hclear.lanes.trans (htake.lanes.trans (hlosLanes.trans hmeasured.lanes)), ?_, hlane, ?_, ?_, ?_, fun j hj hne => ?_, fun hnone => ?_⟩
      · refine hclear.dev.trans (htake.dev.trans ((loseClaim_dev hdHolder).trans ?_))
        rw [hmeasured.dev]
      · rw [onChip_chip, hclear.holder]
        exact fun hh => barring_best d.pintle h (hholding.symm.trans hh)
      · exact hclear.holder.trans (hholding.trans hbest.symm)
      · have hfault : (0x0201, 0x01, h.idx) ∈ (d.loseClaim h).pintle.faults := by
          rw [hpintle]
          exact List.mem_append_right _ (List.mem_singleton.2 rfl)
        have hkept : (pwmBoundary k lines x s.chip).pintle.faults = e.pintle.faults := (congrArg Pintle.faults hclear.pintle).trans rfl
        rw [onChip_chip, hkept]
        exact htake.faults _ hfault
      · rw [onChip_chip, houts, modNth_others hne hj]
        exact ⟨rfl, rfl⟩
      · have hnone' : e.pintle.holder = none := hclear.holder.symm.trans hnone
        have hlt := lt_of_by hby
        rw [onChip_chip, houts, hrepeat hnone', nth_modNth_same _ _ _ _ (by rw [modNth_length, List.length_map, modNth_length]; exact hlt),
          nth_modNth_same _ _ _ _ (by rw [List.length_map, modNth_length]; exact hlt), nth_map _ _ (by rw [modNth_length]; exact hlt), nth_modNth_same _ _ _ _ hlt]
        have hone := hgsame o
        have htwo := hgsame' { g o with gap := true, gapPeriods := 0, limit := false }
        show (if (g' _).fenced then {} else (g' _).lastPassed) = _
        rw [htwo.fenced, htwo.lastPassed]
        show (if (g o).fenced then {} else (g o).lastPassed) = _
        rw [hone.fenced, hone.lastPassed]
  case limit =>
    have hup : s.chip.pintleUp = true := by rw [Chip.pintleUp, hpowered, hfenced]; rfl
    have hexec : exec (.claimGapLimit k) s = .next (s.onChip (claimGapLimit k)) := rfl
    have htake := takePackets_measured s.chip k.val
    have hholder' : (s.chip.takePackets' k.val).pintle.holder = s.chip.pintle.holder := htake.field Pintle.holder fun _ _ _ _ _ => rfl
    have harmed' : (s.chip.takePackets' k.val).pintle.armed = s.chip.pintle.armed := htake.field Pintle.armed fun _ _ _ _ _ => rfl
    refine ⟨fun hno => hchip (claimGapLimit_of_not hno), fun hgap hnone hunarmed => ?_, fun hgap hnone harmed => ?_, fun hgap hholder hcoming => ?_⟩
    · have heq := claimGapLimit_of hup hhold hgap fun h hh => absurd (hh.symm.trans hnone) (Option.some_ne_none h)
      rw [gapLimit_of_none (hholder'.trans hnone), Chip.noClaim, if_neg (by rw [harmed', hunarmed]; exact Bool.false_ne_true)] at heq
      have hclear := clearComing_cleared ((s.chip.takePackets' k.val).modPintle (fun p => { p with outs := p.outs.map (fun o =>
        { o with gap := false, limit := false, by_ := none, hasPacket := false, driven := {}, lastPassed := {} }) })) k.val
      rw [← heq] at hclear
      refine ⟨_, hexec, rfl, hclear.lanes.trans htake.lanes, fun y hy => ?_⟩
      obtain ⟨z, -, rfl⟩ := List.mem_map.1 (hclear.outs ▸ hy)
      exact ⟨rfl, rfl⟩
    · have heq := claimGapLimit_of hup hhold hgap fun h hh => absurd (hh.symm.trans hnone) (Option.some_ne_none h)
      rw [gapLimit_of_none (hholder'.trans hnone), Chip.noClaim, if_pos (by rw [harmed', harmed])] at heq
      obtain ⟨d, htaken, hlines⟩ := dbTake_lines (s.chip.takePackets' k.val)
      have hclear := clearComing_cleared (s.chip.takePackets' k.val).dbTake k.val
      rw [← heq, hlines] at hclear
      have honly := enableLines_only d
      refine ⟨_, hexec, rfl, hclear.dev.trans (honly.dev.trans (htaken.dev.trans htake.dev)), ?_, ?_, fun l => ?_⟩
      · exact (congrArg Pintle.holding hclear.pintle).trans ((honly.field Pintle.holding fun _ _ => rfl).trans htaken.holding)
      · have hkept : (claimGapLimit k s.chip).pintle.faults = d.pintle.faults := (congrArg Pintle.faults hclear.pintle).trans (honly.field Pintle.faults fun _ _ => rfl)
        rw [onChip_chip, hkept]
        exact htaken.fault
      · rw [onChip_chip, hclear.plane l]
        refine (enableLines_enable d l).trans ?_
        rw [Chip.lineOn, htaken.holding, Bool.not_true, Bool.and_false]
    · have heq := claimGapLimit_of hup hhold hgap fun j hj => by
        rw [Option.some.inj (hj.symm.trans hholder)]
        exact hcoming
      rw [gapLimit_of_holder (hholder'.trans hholder)] at heq
      have hclear := clearComing_cleared ((s.chip.takePackets' k.val).modPOut k.val (fun o => { o with
        gap := false, limit := true, by_ := some h, hasPacket := false, driven := o.gated ((s.chip.takePackets' k.val).noPacketPattern h k.val) })) k.val
      rw [← heq] at hclear
      obtain ⟨f, hf, hsame⟩ := htake.outs
      refine ⟨_, { f o with gap := false, limit := true, by_ := some h, hasPacket := false, driven := (f o).gated ((s.chip.takePackets' k.val).noPacketPattern h k.val) },
        hexec, rfl, hclear.lanes.trans htake.lanes, ?_, rfl, rfl, rfl, fun hpackets => ?_⟩
      · refine hclear.outs.trans ((congrArg (fun xs => modNth xs k.val _) hf).trans ?_)
        rw [modNth_modNth]
        exact modNth_congr _ _ _ _ {} rfl
      · have hnone : (s.chip.takePackets' k.val).noPacketPattern h k.val = {} := by
          unfold Chip.noPacketPattern
          rw [takePackets_plane, takePacket_packets hcoming, hpackets]
        show (f o).gated _ = _
        rw [hnone, gated_empty]

end Sys2Proof.Machine

namespace Sys2Proof.Machine
open Sys2Proof


/-! ### Reception and loss in Keyway sessions (R369, R372 to R374, R379) -/

theorem arrive_pdu (c : Chip) (l : LaneId) (n : Nat) (link : Option LaneId) (op : Nat) (r : Req) :
    c.arrive l (.pdu n link op r) = (c.modLane l (fun x => { x with
      arriving := x.arriving ++ [{ item := .pdu n link op r, ord := x.streamOrd, index := x.streamQuad }]
      streamOrd := x.streamOrd + 1, streamQuad := (x.streamQuad + (2 + (r.payload.length + 15) / 16)) % 256 })).sendLinks l l.partners .vectors
        (2 + (r.payload.length + 15) / 16) := by
  unfold Chip.arrive
  simp [Lane.placed, StreamItem.quads]

theorem pduFails_plain (c : Chip) (l : LaneId) {n : Nat} (h0 : n ≠ 0) (h127 : n ≤ 127) :
    (c.pduFails l n).plain = (c.modLane l (fun x => { x with
      keyFails := (n, satInc 65535 (keyCount x.keyFails n)) :: x.keyFails.filter (fun e => e.1 != n)
      keyNoted := if x.keyNoted.contains n then x.keyNoted else n :: x.keyNoted })).plain := by
  unfold Chip.pduFails
  rw [if_neg (by omega)]
  dsimp only
  have hmod : (c.modLane l fun x => { x with
      keyFails := (n, satInc 65535 (keyCount x.keyFails n)) :: x.keyFails.filter (fun e => e.1 != n)
      keyNoted := if (c.lane l).keyNoted.contains n = true then x.keyNoted else n :: x.keyNoted }) = c.modLane l fun x => { x with
      keyFails := (n, satInc 65535 (keyCount x.keyFails n)) :: x.keyFails.filter (fun e => e.1 != n)
      keyNoted := if x.keyNoted.contains n = true then x.keyNoted else n :: x.keyNoted } := rfl
  rw [hmod]
  split
  · rfl
  · exact localFault_plain ..

/-- A lost session takes its state and leaves its action for the launch point (R373). -/
theorem loseSession_eq (c : Chip) (n : Nat) : ∃ d, RecordsOnly (c.modSession n (fun x => { x with state := .lost })) d ∧
    c.loseSession n =
      let e := d.modDev (fun x => { x with lossActs := x.lossActs ++ [(n, c.parN Par.keyLossAction (c.session n).profile)] })
      if c.parN Par.keyLossAction (c.session n).profile = 2 then e.stopCause 7 else e :=
  ⟨_, agreedFault_only (c.modSession n (fun x => { x with state := .lost })) 0x2204 0x0D n 0xFF 1, rfl⟩

theorem stopCause_field {α : Type} (p : Dev → α) (hp : ∀ (x : Dev) hosts events snow, p { x with hosts := hosts, events := events, snow := snow } = p x)
    (c : Chip) (cause : Nat) : p (c.stopCause cause).dev = p c.dev := by
  rw [stopCause_dev]
  exact hp ..

theorem stopCause_pintle (c : Chip) (cause : Nat) : (c.stopCause cause).pintle = c.pintle := by
  have h : (c.stopCause cause).plain.pintle = c.plain.pintle := by
    rw [stopCause_plain]
    rfl
  exact h

theorem loseSession_field {α : Type} (p : Dev → α) (hp : ∀ (x : Dev) hosts events snow, p { x with hosts := hosts, events := events, snow := snow } = p x)
    (c : Chip) {n : Nat} (h0 : n ≠ 0) : p (c.loseSession n).dev = p { c.dev with
      sessions := modNth c.dev.sessions (n - 1) (fun x => { x with state := .lost })
      lossActs := c.dev.lossActs ++ [(n, c.parN Par.keyLossAction (c.session n).profile)] } := by
  obtain ⟨d, hd, heq⟩ := loseSession_eq c n
  have hfield : p (d.modDev (fun x => { x with lossActs := x.lossActs ++ [(n, c.parN Par.keyLossAction (c.session n).profile)] })).dev = p { c.dev with
      sessions := modNth c.dev.sessions (n - 1) (fun x => { x with state := .lost })
      lossActs := c.dev.lossActs ++ [(n, c.parN Par.keyLossAction (c.session n).profile)] } := by
    rw [modDev_dev, hd.dev, modSession_dev, if_neg h0]
    let x : Dev := { c.dev with
      sessions := modNth c.dev.sessions (n - 1) (fun x => { x with state := .lost })
      lossActs := c.dev.lossActs ++ [(n, c.parN Par.keyLossAction (c.session n).profile)] }
    exact hp x d.dev.hosts d.dev.events x.snow
  rw [heq]
  dsimp only
  split
  · exact (stopCause_field p hp ..).trans hfield
  · exact hfield

theorem loseSession_lanesAlike (c : Chip) (n : Nat) : LanesAlike c (c.loseSession n) := by
  obtain ⟨d, hd, heq⟩ := loseSession_eq c n
  have h : LanesAlike c (d.modDev (fun x => { x with lossActs := x.lossActs ++ [(n, c.parN Par.keyLossAction (c.session n).profile)] })) :=
    (lanesAlike_of_eq (modSession_lanes ..)).trans (hd.lanesAlike.trans (lanesAlike_of_eq rfl))
  rw [heq]
  dsimp only
  split
  · exact h.trans (stopCause_lanesAlike _ 7)
  · exact h

theorem loseSession_pintle (c : Chip) (n : Nat) : (c.loseSession n).pintle = c.pintle := by
  obtain ⟨d, hd, heq⟩ := loseSession_eq c n
  have h : d.pintle = c.pintle := hd.pintle.trans (modSession_pintle ..)
  rw [heq]
  dsimp only
  split
  · exact (stopCause_pintle ..).trans h
  · exact h

theorem loseSession_plain (c : Chip) (n : Nat) (h : c.parN Par.keyLossAction (c.session n).profile ≠ 2) :
    (c.loseSession n).plain = (c.modDev (fun d => { d with lossActs := d.lossActs ++ [(n, c.parN Par.keyLossAction (c.session n).profile)] })).plain := by
  unfold Chip.loseSession
  dsimp only
  rw [if_neg h]
  have hplain : ((c.modSession n (fun x => { x with state := .lost })).agreedFault 0x2204 0x0D n 0xFF).plain = c.plain := by simp
  generalize ((c.modSession n (fun x => { x with state := .lost })).agreedFault 0x2204 0x0D n 0xFF) = d at hplain
  have hdev : d.dev.plain = c.dev.plain := congrArg Chip.dev hplain
  have hacts : d.dev.lossActs = c.dev.lossActs := (congrArg Dev.lossActs hdev :)
  calc (d.modDev (fun x => { x with lossActs := x.lossActs ++ [(n, c.parN Par.keyLossAction (c.session n).profile)] })).plain
      = { d.plain with dev := { d.dev.plain with lossActs := d.dev.lossActs ++ [(n, c.parN Par.keyLossAction (c.session n).profile)] } } := rfl
    _ = { c.plain with dev := { c.dev.plain with lossActs := c.dev.lossActs ++ [(n, c.parN Par.keyLossAction (c.session n).profile)] } } := by
      rw [hplain, hdev, hacts]
    _ = _ := rfl

theorem any_session_iff {xs : List (Nat × Nat)} {n : Nat} : (xs.any (fun e => e.1 == n)) = true ↔ ∃ e ∈ xs, e.1 = n := by simp

/-- Nothing that session n commanded is on record any more (R373, R374). -/
structure Forgotten (n : Nat) (d : Dev) : Prop where
  motors : ∀ m ∈ d.motors, m.cmdBy ≠ n
  steppers : ∀ m ∈ d.steppers, m.cmdBy ≠ n
  loops : ∀ m ∈ d.loops, m.spBy ≠ n
  launches : ∀ m ∈ d.launches, m.by_ ≠ n

theorem forall_mem_map_cleared {α : Type} {f : α → α} {p : α → Nat} {n : Nat} (h : ∀ x, p (f x) ≠ n) (xs : List α) : ∀ y ∈ xs.map f, p y ≠ n := by
  intro y hy
  obtain ⟨x, -, rfl⟩ := List.mem_map.1 hy
  exact h x

theorem forgetUnits_forgotten (c : Chip) {n : Nat} (h0 : n ≠ 0) : Forgotten n (c.forgetUnits n).dev where
  motors := forall_mem_map_cleared (fun x => by
    split
    · exact h0.symm
    · assumption) _
  steppers := forall_mem_map_cleared (fun x => by
    split
    · exact h0.symm
    · assumption) _
  loops := forall_mem_map_cleared (fun x => by
    split
    · exact h0.symm
    · assumption) _
  launches := forall_mem_map_cleared (fun x => by
    split
    · exact h0.symm
    · assumption) _

/-- A freed session is a free one, and the units stay where a loss action of it is due (R374). -/
theorem freeSession_of_due {c : Chip} {n : Nat} (h : ∃ e ∈ c.dev.lossActs, e.1 = n) : c.freeSession n = c.modSession n (fun _ => {}) := by
  unfold Chip.freeSession
  refine if_pos ?_
  rw [modSession_dev]
  exact any_session_iff.2 h

theorem freeSession_of_clear {c : Chip} {n : Nat} (h : ∀ e ∈ c.dev.lossActs, e.1 ≠ n) :
    c.freeSession n = (c.modSession n (fun _ => {})).forgetUnits n := by
  unfold Chip.freeSession
  refine if_neg ?_
  rw [modSession_dev, any_session_iff]
  exact fun ⟨e, he, hn⟩ => h e he hn

theorem freeSession_cases (c : Chip) (n : Nat) :
    c.freeSession n = c.modSession n (fun _ => {}) ∨ c.freeSession n = (c.modSession n (fun _ => {})).forgetUnits n := by
  unfold Chip.freeSession
  dsimp only
  split
  · exact .inl rfl
  · exact .inr rfl

@[simp] theorem freeSession_lanes (c : Chip) (n : Nat) : (c.freeSession n).lanes = c.lanes := by
  rcases freeSession_cases c n with h | h <;> rw [h] <;> exact modSession_lanes ..

@[simp] theorem freeSession_pintle (c : Chip) (n : Nat) : (c.freeSession n).pintle = c.pintle := by
  rcases freeSession_cases c n with h | h <;> rw [h] <;> exact modSession_pintle ..

@[simp] theorem freeSession_bridges (c : Chip) (n : Nat) : (c.freeSession n).bridges = c.bridges := by
  rcases freeSession_cases c n with h | h <;> rw [h] <;> exact modSession_bridges ..

theorem freeSession_sessions (c : Chip) {n : Nat} (h0 : n ≠ 0) : (c.freeSession n).dev.sessions = modNth c.dev.sessions (n - 1) (fun _ => {}) := by
  have hmod : (c.modSession n (fun _ => {})).dev.sessions = modNth c.dev.sessions (n - 1) (fun _ => {}) := by
    rw [modSession_dev, if_neg h0]
  rcases freeSession_cases c n with h | h <;> rw [h] <;> exact hmod

theorem ne_zero_of_session {c : Chip} {n : Nat} (h : (c.session n).state ≠ .free) : n ≠ 0 := by
  rintro rfl
  exact h rfl

/-- Settles O31: the PDU takes its place among the arrivals or is counted, and the loss and the release of a session touch no unit. -/
theorem sessionReceptionAndLoss : Obligations.SessionReceptionAndLoss := by
  intro s l n
  refine ⟨fun link b => ⟨fun hf => ?_, fun hf hp => ?_, fun hf hp h0 => ?_⟩, fun hw => ?_, fun hw h0 => ?_, fun hs => ?_, fun hs => ?_⟩
  · have hexec : exec (.pduReceived l link n b) s = .next (s.onChip (pduReceived l link n b)) := rfl
    rw [onChip_congr (f := pduReceived l link n b) (g := id) (if_pos hf)] at hexec
    exact hexec
  · have hexec : exec (.pduReceived l link n b) s = .next (s.onChip (pduReceived l link n b)) := rfl
    have heq : pduReceived l link n b s.chip = s.chip.arrive l (.pdu n.val link (fld b 0 2) (pduOf link n.val 0 0 b).2) := by
      unfold pduReceived
      rw [if_neg (by rw [hf]; exact Bool.false_ne_true), if_pos hp]
      rfl
    rw [arrive_pdu] at heq
    have htraffic := sendLinks_traffic l l.partners .vectors (2 + ((pduOf link n.val 0 0 b).2.payload.length + 15) / 16) (s.chip.modLane l (fun x => { x with
      arriving := x.arriving ++ [{ item := .pdu n.val link (fld b 0 2) (pduOf link n.val 0 0 b).2, ord := x.streamOrd, index := x.streamQuad }]
      streamOrd := x.streamOrd + 1, streamQuad := (x.streamQuad + (2 + ((pduOf link n.val 0 0 b).2.payload.length + 15) / 16)) % 256 }))
    refine ⟨_, hexec, rfl, ?_, ?_, ?_, ?_⟩
    · exact (congrArg Chip.dev heq).trans htraffic.dev
    · exact (congrArg Chip.pintle heq).trans htraffic.pintle
    · exact (congrArg Chip.bridges heq).trans htraffic.bridges
    · exact (congrArg Chip.lanes heq).trans htraffic.lanes
  · have hexec : exec (.pduReceived l link n b) s = .next (s.onChip (pduReceived l link n b)) := rfl
    have heq : pduReceived l link n b s.chip = s.chip.pduFails l n.val := by
      unfold pduReceived
      rw [if_neg (by rw [hf]; exact Bool.false_ne_true)]
      exact if_neg (by rw [hp]; exact Bool.false_ne_true)
    refine ⟨_, hexec, onChip_plain_congr ?_⟩
    rw [heq]
    exact pduFails_plain s.chip l h0 (Nat.le_of_lt_succ n.isLt)
  · have hexec : exec (.watchdogExpiry n) s = .next (s.onChip (watchdogExpiry n)) := rfl
    rw [onChip_congr (f := watchdogExpiry n) (g := id) (if_neg (by rw [hw]; exact Bool.false_ne_true))] at hexec
    exact hexec
  · have hexec : exec (.watchdogExpiry n) s = .next (s.onChip (watchdogExpiry n)) := rfl
    rw [onChip_congr (f := watchdogExpiry n) (g := fun c => c.loseSession n.val) (if_pos hw)] at hexec
    have hacts := loseSession_field Dev.lossActs (fun _ _ _ _ => rfl) s.chip h0
    refine ⟨_, hexec, loseSession_field Dev.sessions (fun _ _ _ _ => rfl) s.chip h0, hacts, rfl, loseSession_pintle .., fun k => ?_, fun h2 => ?_⟩
    · exact (loseSession_lanesAlike s.chip n.val).lane k Lane.plain fun _ _ => rfl
    · refine onChip_plain_congr ((loseSession_plain s.chip n.val h2).trans ?_)
      exact congrArg (fun xs => (s.chip.modDev (fun d => { d with lossActs := xs })).plain) hacts.symm
  · have hexec : exec (.freeDelayExpiry n) s = .next (s.onChip (freeDelayExpiry n)) := rfl
    rw [onChip_congr (f := freeDelayExpiry n) (g := id) (if_neg hs)] at hexec
    exact hexec
  · have hexec : exec (.freeDelayExpiry n) s = .next (s.onChip (freeDelayExpiry n)) := rfl
    rw [onChip_congr (f := freeDelayExpiry n) (g := fun c => c.freeSession n.val) (if_pos hs)] at hexec
    have h0 : n.val ≠ 0 := ne_zero_of_session (c := s.chip) (by rw [hs]; decide)
    refine ⟨_, hexec, rfl, freeSession_lanes .., freeSession_pintle .., freeSession_bridges .., freeSession_sessions _ h0, fun hdue => ?_, fun hclear => ?_⟩
    · have hfree : (s.chip.freeSession n.val).dev = (s.chip.modSession n.val (fun _ => {})).dev := congrArg Chip.dev (freeSession_of_due hdue)
      rw [modSession_dev] at hfree
      exact ⟨(congrArg Dev.motors hfree :), (congrArg Dev.steppers hfree :), (congrArg Dev.loops hfree :), (congrArg Dev.launches hfree :)⟩
    · have hforgot := forgetUnits_forgotten (s.chip.modSession n.val (fun _ => {})) h0
      rw [← freeSession_of_clear hclear] at hforgot
      exact ⟨hforgot.motors, hforgot.steppers, hforgot.loops, hforgot.launches⟩

end Sys2Proof.Machine

namespace Sys2Proof.Machine
open Sys2Proof


/-! ### Sessions past the gates and through replies -/

/-- The gate of one session leaves every other session as it is (R370). -/
theorem sessionGate_session_ne (c : Chip) (right : Option Nat) (p : PduHdr) {n j : Nat} (h : j ≠ n) : (c.sessionGate right n p).2.session j = c.session j :=
  sessionGate_keeps (fun d => d.session j = c.session j) n
    (fun d f hd => by
      rcases session_modSession d n j f with e | ⟨hj, -⟩
      · exact e.trans hd
      · exact absurd hj h)
    (fun d code t i lane k hd => by
      have hsame := (agreedFault_only d code t i lane k).sessions
      unfold Chip.session at hd ⊢
      rw [hsame]
      exact hd) right p rfl

theorem session_congr {c d : Chip} (h : d.dev.sessions = c.dev.sessions) (n : Nat) : d.session n = c.session n := by
  unfold Chip.session
  rw [h]

/-- Past the gates only the packet's own session has changed. -/
theorem gated_session_ne {a : OpAttr} {r : Req} {s g : State} (h : s.gated a r = some g) :
    (r.session = 0 → g.chip.dev.sessions = s.chip.dev.sessions) ∧ ∀ j, j ≠ r.session → g.chip.session j = s.chip.session j := by
  unfold State.gated at h
  split at h
  · dsimp only at h
    have hlink := linkAdvance_sessions s.chip (s.chip.reqCrc a.code r) r
    split at h
    · rw [← Option.some.inj h]
      exact ⟨fun _ => hlink, fun j _ => session_congr hlink j⟩
    · rename_i h0
      split at h
      · rename_i c hg
        have hc := fun j (hj : j ≠ r.session) =>
          sessionGate_session_ne (s.onChip (fun c => c.linkAdvance (c.reqCrc a.code r) r)).chip a.right r.pdu hj
        rw [hg] at hc
        rw [← Option.some.inj h]
        exact ⟨fun h => absurd h h0, fun j hj => (hc j hj).trans (session_congr hlink j)⟩
      · cases h
  · cases h

/-- A packet that passes the shared checks has its effect on a state whose other sessions are those before it. -/
theorem exec_of_admits_sessions {i : Instr} {o : OpRow} (hrow : opRow i = some o) {s : State} (h : s.admits o.attr o.req = true) :
    ∃ t, Past s t ∧ (o.req.session = 0 → t.chip.dev.sessions = s.chip.dev.sessions) ∧
      (∀ j, j ≠ o.req.session → t.chip.session j = s.chip.session j) ∧
      (o.checks o.req t.chip = [] → exec i s = .next ((o.effect o.req t).finish o.attr o.req)) := by
  obtain ⟨g, hg, hexec⟩ := exec_of_admits_gated hrow h
  have hmarked := marked_sessions o.attr g
  obtain ⟨hzero, hother⟩ := gated_session_ne hg
  exact ⟨g.marked o.attr, ⟨alike_of_plain ((marked_plain ..).trans (gated_plain _ _ _ _ hg)),
    (marked_replies ..).trans (gated_replies _ _ _ _ hg), (gated_received hg).trans (sessionsReceived_of_eq hmarked)⟩,
    fun h0 => hmarked.trans (hzero h0), fun j hj => (session_congr hmarked j).trans (hother j hj), hexec⟩

theorem releasePend_sessions (c : Chip) (p : PendOp) : (c.releasePend p).dev.sessions = c.dev.sessions := by
  unfold Chip.releasePend
  dsimp only
  split <;> rfl

theorem keepReply_sessions (c : Chip) (p : PendOp) (q : Option OutPacket) : (c.keepReply p q).dev.sessions = c.dev.sessions := by
  unfold Chip.keepReply
  split <;> rfl

theorem addPend_sessions (c : Chip) (code : Nat) (r : Req) (p : PendOp) : (c.addPend code r p).dev.sessions = c.dev.sessions := by
  unfold Chip.addPend
  dsimp only
  split <;> rfl

/-- A reply outside a session changes no session. -/
theorem sendReply_sessions (c : Chip) (link : Option LaneId) (op : Nat) (tag : Byte) (mask : Mask) (seq st : Nat) (data : List Byte) :
    (c.sendReply link op tag 0 mask seq st data).2.dev.sessions = c.dev.sessions := by
  unfold Chip.sendReply
  rw [if_pos rfl]
  cases link <;> rfl

theorem reply_sessions {c : Chip} {r : Req} (h0 : r.session = 0) (code st : Nat) (data : List Byte) :
    (c.reply code r st data).dev.sessions = c.dev.sessions := by
  have hsend := sendReply_sessions c r.link code r.tag r.mask r.seq st data
  unfold Chip.reply
  rw [h0]
  split
  · split <;> rfl
  · dsimp only
    split
    · exact hsend
    · exact hsend

theorem finish_sessions {a : OpAttr} {r : Req} {o : OpOut} (h0 : r.session = 0) : (o.finish a r).chip.dev.sessions = o.st.chip.dev.sessions := by
  unfold OpOut.finish
  split
  · rfl
  · exact reply_sessions h0 ..

theorem finalReply_sessions {c : Chip} {p : PendOp} (h0 : p.session = 0) (st : Nat) (data : List Byte) :
    (c.finalReply p st data).dev.sessions = c.dev.sessions := by
  have hrel := releasePend_sessions c p
  show Dev.sessions (Chip.dev (if (c.releasePend p).suppressed p.session p.suppress st then c.releasePend p else
    ((c.releasePend p).sendReply p.link p.opcode p.tag p.session p.mask p.seq st data).2.keepReply p
      ((c.releasePend p).sendReply p.link p.opcode p.tag p.session p.mask p.seq st data).1)) = _
  split
  · exact hrel
  · rw [keepReply_sessions, h0, sendReply_sessions]
    exact hrel

/-- What a session is, beside its accounts: its state, its closing, its freeze and the release that waits. -/
def Session.standing (x : Session) : SesState × Bool × Bool × Bool := (x.state, x.closing, x.frozen, x.unfreezeNow)

/-- Every session of the second chip stands as in the first. -/
def SessionsStand (c d : Chip) : Prop := ∀ n, (d.session n).standing = (c.session n).standing

theorem SessionsStand.trans {c d e : Chip} (h : SessionsStand c d) (k : SessionsStand d e) : SessionsStand c e := fun n => (k n).trans (h n)

theorem sessionsStand_of_eq {c d : Chip} (h : d.dev.sessions = c.dev.sessions) : SessionsStand c d := fun n => by rw [session_congr h]

theorem sessionsStand_mod {c : Chip} {n : Nat} {f : Session → Session} (h : ∀ x, (f x).standing = x.standing) : SessionsStand c (c.modSession n f) := fun j => by
  rcases session_modSession c n j f with e | ⟨-, e⟩
  · rw [e]
  · rw [e, h]

theorem RecordsOnly.sessionsStand {c d : Chip} (h : RecordsOnly c d) : SessionsStand c d := sessionsStand_of_eq h.sessions

/-- A reply counts the device's PDUs of its session and leaves how the sessions stand (R380). -/
theorem sendReply_stand (c : Chip) (link : Option LaneId) (op : Nat) (tag : Byte) (session : Nat) (mask : Mask) (seq st : Nat) (data : List Byte) :
    SessionsStand c (c.sendReply link op tag session mask seq st data).2 := by
  by_cases h0 : session = 0
  · rw [h0]
    exact sessionsStand_of_eq (sendReply_sessions ..)
  · have hown : SessionsStand c (c.ownPdu session op tag.toNat st data).2 := sessionsStand_mod fun _ => rfl
    unfold Chip.sendReply
    rw [if_neg h0]
    cases link with
    | some l => exact hown.trans (sessionsStand_of_eq rfl)
    | none =>
      simp only [if_neg h0]
      exact hown.trans (sessionsStand_of_eq rfl)

theorem reply_stand (c : Chip) (r : Req) (code st : Nat) (data : List Byte) : SessionsStand c (c.reply code r st data) := by
  have hsend := sendReply_stand c r.link code r.tag r.session r.mask r.seq st data
  unfold Chip.reply
  split
  · split
    · exact sessionsStand_of_eq rfl
    · exact sessionsStand_of_eq rfl
  · dsimp only
    split
    · exact hsend.trans (sessionsStand_of_eq rfl)
    · exact hsend

theorem finish_stand (a : OpAttr) (r : Req) (o : OpOut) : SessionsStand o.st.chip (o.finish a r).chip := by
  unfold OpOut.finish
  split
  · exact sessionsStand_of_eq rfl
  · exact reply_stand o.st.chip r a.code o.status o.payload

theorem finalReply_stand (c : Chip) (p : PendOp) (st : Nat) (data : List Byte) : SessionsStand c (c.finalReply p st data) := by
  have hrel : SessionsStand c (c.releasePend p) := sessionsStand_of_eq (releasePend_sessions c p)
  show SessionsStand c (if (c.releasePend p).suppressed p.session p.suppress st then c.releasePend p else
    ((c.releasePend p).sendReply p.link p.opcode p.tag p.session p.mask p.seq st data).2.keepReply p
      ((c.releasePend p).sendReply p.link p.opcode p.tag p.session p.mask p.seq st data).1)
  split
  · exact hrel
  · exact (hrel.trans (sendReply_stand _ p.link p.opcode p.tag p.session p.mask p.seq st data)).trans (sessionsStand_of_eq (keepReply_sessions ..))

theorem finishAll_stand (c : Chip) (test : PendOp → Bool) (st : Nat) (data : List Byte) : SessionsStand c (c.finishAll test st data) :=
  List.foldlRecOn _ _ (motive := SessionsStand c) (sessionsStand_of_eq rfl) fun d hd p _ => hd.trans (finalReply_stand d p st data)

end Sys2Proof.Machine

namespace Sys2Proof.Machine
open Sys2Proof


/-! ### Opening and closing of Keyway sessions (R375 to R378, R381, R382) -/

/-- The session numbers that are searched in ascending order (R377). -/
theorem sessionNumbers_eq : (List.range 128).drop 1 = List.range' 1 127 := by rw [List.range_eq_range', List.drop_range']

theorem mem_of_sessionNumber {c : Chip} {peer n : Nat} {og : Bool} (h : c.sessionNumber peer og = some n) : n ≠ 0 := by
  have hmem : n ∈ (List.range 128).drop 1 := by
    unfold Chip.sessionNumber at h
    dsimp only at h
    split at h
    · rename_i m hm
      rw [← Option.some.inj h]
      exact List.mem_of_find?_eq_some hm
    · exact List.mem_of_find?_eq_some h
  rw [sessionNumbers_eq, List.mem_range'_1] at hmem
  omega

theorem sessionNumber_congr {c d : Chip} (h : d.dev.sessions = c.dev.sessions) (peer : Nat) (og : Bool) : d.sessionNumber peer og = c.sessionNumber peer og := by
  unfold Chip.sessionNumber
  simp only [session_congr h]

theorem fld_pduBytes_opcode (ident op tag b3 seq stamp : Nat) (data : List Byte) (echo echoTime : Nat) (h : op < 256 ^ 2) :
    fld (pduBytes ident op tag b3 seq stamp data echo echoTime) 0 2 = op := by
  unfold pduBytes
  simp only [List.append_assoc]
  rw [fld_head_mod, Nat.mod_eq_of_lt h]

theorem sendOpen_eq (c : Chip) (peer chan ident status : Nat) (d : OpenData) : ∃ b, fld b 0 2 = 0x2210 ∧
    c.sendOpen peer chan ident status d = c.modDev (fun x => { x with openPdus := x.openPdus ++ [(peer, chan, b)] }) :=
  ⟨_, fld_pduBytes_opcode ident 0x2210 0 status 0 c.dev.sn (openQuad d) 0 0 (by norm_num), rfl⟩

theorem freeSession_openPdus (c : Chip) (n : Nat) : (c.freeSession n).dev.openPdus = c.dev.openPdus ∧ (c.freeSession n).dev.pend = c.dev.pend ∧
    (c.freeSession n).dev.lossActs = c.dev.lossActs ∧ (c.freeSession n).dev.replies = c.dev.replies := by
  rcases freeSession_cases c n with h | h <;> rw [h]
  · rw [modSession_dev]
    exact ⟨rfl, rfl, rfl, rfl⟩
  · have hdev : ((c.modSession n (fun _ => {})).forgetUnits n).dev = { c.dev with
        sessions := if n = 0 then c.dev.sessions else modNth c.dev.sessions (n - 1) (fun _ => {})
        motors := ((c.modSession n (fun _ => {})).forgetUnits n).dev.motors, steppers := ((c.modSession n (fun _ => {})).forgetUnits n).dev.steppers
        loops := ((c.modSession n (fun _ => {})).forgetUnits n).dev.loops, launches := ((c.modSession n (fun _ => {})).forgetUnits n).dev.launches } := by
      unfold Chip.forgetUnits
      rw [modDev_dev, modSession_dev]
    rw [hdev]
    exact ⟨rfl, rfl, rfl, rfl⟩

/-- A session put under a number: every other session, the operations that wait and the PDUs of openings stay (R375, R376). -/
theorem putSession_dev (c : Chip) {n : Nat} (h0 : n ≠ 0) (x : Session) :
    (c.putSession n x).dev.sessions = modNth c.dev.sessions (n - 1) (fun _ => x) ∧ (c.putSession n x).dev.openPdus = c.dev.openPdus ∧
      (c.putSession n x).dev.pend = c.dev.pend := by
  have hdev : (c.putSession n x).dev = { (c.freeSession n).dev with sessions := modNth (c.freeSession n).dev.sessions (n - 1) (fun _ => x) } := by
    show ((c.freeSession n).modSession n (fun _ => x)).dev = _
    rw [modSession_dev, if_neg h0]
  obtain ⟨hopen, hpend, -, -⟩ := freeSession_openPdus c n
  rw [hdev]
  refine ⟨?_, hopen, hpend⟩
  rw [freeSession_sessions c h0, modNth_modNth]

@[simp] theorem putSession_pintle (c : Chip) (n : Nat) (x : Session) : (c.putSession n x).pintle = c.pintle :=
  (modSession_pintle ..).trans (freeSession_pintle ..)

/-- The credit counts of a session start anew in each lane; nothing else of a lane changes (R375). -/
theorem putSession_lane (c : Chip) (n : Nat) (x : Session) (l : LaneId) : (c.putSession n x).lanes.get l =
    { c.lanes.get l with net := { (c.lanes.get l).net with credits := (c.lanes.get l).net.credits.filter (fun k => k.session != n) } } := by
  have hlanes : ((c.freeSession n).modSession n (fun _ => x)).lanes = c.lanes := (modSession_lanes ..).trans (freeSession_lanes ..)
  unfold Chip.putSession Chip.resetCredits
  rw [modLanes_lanes, tri_get_mapIdx, hlanes]

/-! #### Openings of a peer -/

/-- An open session of a peer that an open request repeats (R376, R381). -/
def Chip.twin (c : Chip) (peer : Nat) (d : OpenData) (n : Nat) : Prop :=
  (c.session n).state = .opened ∧ (c.session n).ocgal = true ∧ (c.session n).peer = peer ∧ (c.session n).peerNum = d.num ∧
    (c.session n).epoch = d.epoch ∧ (c.session n).byDevice = false

/-- The model's test for such a session. -/
def Chip.isTwin (c : Chip) (peer : Nat) (d : OpenData) (n : Nat) : Bool :=
  decide ((c.session n).state = .opened) && (c.session n).ocgal &&
    decide ((c.session n).peer = peer ∧ (c.session n).peerNum = d.num ∧ (c.session n).epoch = d.epoch) && !(c.session n).byDevice

theorem isTwin_iff {c : Chip} {peer : Nat} {d : OpenData} {n : Nat} : c.isTwin peer d n = true ↔ c.twin peer d n := by
  unfold Chip.isTwin Chip.twin
  simp only [Bool.and_eq_true, decide_eq_true_eq, Bool.not_eq_true']
  tauto

/-- The session that the device opens for a peer (R376). -/
def peerSession (prof peer : Nat) (d : OpenData) (c : Chip) : Session :=
  { state := .opened, profile := prof, ocgal := true, peer := peer, peerNum := d.num, epoch := d.epoch, rxSeq := (d.first + 2 ^ 32 - 1) % 2 ^ 32, stamp0 := c.dev.sn }

/-- The refusal of an open request (R376). -/
def Chip.denyOpen (c : Chip) (peer : Nat) (d : OpenData) (own st : Nat) : Chip :=
  c.sendOpen peer 0 (identity own peer 0 d.num d.epoch 1) st { num := 0, epoch := d.epoch, rnum := d.num }

theorem openRequest_eq (peer : Nat) (d : OpenData) (c : Chip) : openRequest peer d c =
    match ((List.range 128).drop 1).find? (c.isTwin peer d), c.ocgalProfile peer, c.sessionNumber peer true with
    | some n, _, _ => c.active.violate n
    | none, none, _ => c.active.denyOpen peer d (c.parN Par.netNodeId) stDenied
    | none, some _, none => (c.active.agreedFault 0x2207 0x0D 0 0xFF).denyOpen peer d (c.parN Par.netNodeId) stNoResource
    | none, some prof, some n =>
      (c.active.putSession n (peerSession prof peer d c)).sendOpen peer 0 (identity (c.parN Par.netNodeId) peer n d.num d.epoch 1) stOk
        { num := n, epoch := d.epoch, rnum := d.num, first := 1 } := rfl

theorem find_isTwin_none {c : Chip} {peer : Nat} {d : OpenData} (h : ∀ n, 1 ≤ n → n ≤ 127 → ¬ c.twin peer d n) :
    ((List.range 128).drop 1).find? (c.isTwin peer d) = none := by
  rw [sessionNumbers_eq, List.find?_range'_eq_none]
  intro n h1 h2
  rw [Bool.not_eq_true', ← Bool.not_eq_true, isTwin_iff]
  exact h n h1 (by omega)

theorem find_isTwin_some {c : Chip} {peer n : Nat} {d : OpenData} (h1 : 1 ≤ n) (h2 : n ≤ 127) (h : c.twin peer d n)
    (hfirst : ∀ m, 1 ≤ m → m < n → ¬ c.twin peer d m) : ((List.range 128).drop 1).find? (c.isTwin peer d) = some n := by
  rw [sessionNumbers_eq, List.find?_range'_eq_some]
  refine ⟨isTwin_iff.2 h, List.mem_range'_1.2 ⟨h1, by omega⟩, fun m hm hmn => ?_⟩
  rw [Bool.not_eq_true', ← Bool.not_eq_true, isTwin_iff]
  exact hfirst m hm hmn

/-- A refusal changes nothing but the PDUs of openings. -/
theorem denyOpen_eq {c d : Chip} (hplain : d.plain = c.plain) (hsess : d.dev.sessions = c.dev.sessions) (peer : Nat) (x : OpenData) (own st : Nat) :
    ∃ b, fld b 0 2 = 0x2210 ∧ (d.denyOpen peer x own st).dev.sessions = c.dev.sessions ∧
      (d.denyOpen peer x own st).dev.openPdus = c.dev.openPdus ++ [(peer, 0, b)] ∧
      (d.denyOpen peer x own st).plain = (c.modDev (fun e => { e with openPdus := (d.denyOpen peer x own st).dev.openPdus })).plain := by
  obtain ⟨b, hb, heq⟩ := sendOpen_eq d peer 0 (identity own peer 0 x.num x.epoch 1) st { num := 0, epoch := x.epoch, rnum := x.num }
  have hdev : d.dev.plain = c.dev.plain := congrArg Chip.dev hplain
  have hopen : d.dev.openPdus = c.dev.openPdus := (congrArg Dev.openPdus hdev :)
  unfold Chip.denyOpen
  rw [heq]
  refine ⟨b, hb, hsess, congrArg (· ++ _) hopen, ?_⟩
  show ({ d.plain with dev := { d.dev.plain with openPdus := d.dev.openPdus ++ [(peer, 0, b)] } } : Chip) =
    { c.plain with dev := { c.dev.plain with openPdus := d.dev.openPdus ++ [(peer, 0, b)] } }
  rw [hplain, hdev]

theorem active_plain_same (c : Chip) : c.active.plain = c.plain := modDev_plain_of _ _ rfl

/-- An open request that no open session repeats and that a profile and a number serve opens a session and is answered (R376, R377). -/
theorem openRequest_opens {s : State} {peer n prof : Nat} {d : OpenData} (hno : ∀ n, 1 ≤ n → n ≤ 127 → ¬ s.chip.twin peer d n)
    (hprof : s.chip.ocgalProfile peer = some prof) (hn : s.chip.sessionNumber peer true = some n) :
    ∃ t b, exec (.openRequest peer d) s = .next t ∧ t.mem = s.mem ∧ t.chip.pintle = s.chip.pintle ∧
      t.chip.dev.sessions = modNth s.chip.dev.sessions (n - 1) (fun _ => peerSession prof peer d s.chip) ∧
      t.chip.dev.openPdus = s.chip.dev.openPdus ++ [(peer, 0, b)] ∧ fld b 0 2 = 0x2210 := by
  have hexec : exec (.openRequest peer d) s = .next (s.onChip (openRequest peer d)) := rfl
  obtain ⟨hsess, hopen, -⟩ := putSession_dev s.chip.active (mem_of_sessionNumber hn) (peerSession prof peer d s.chip)
  obtain ⟨b, hb, heq⟩ := sendOpen_eq (s.chip.active.putSession n (peerSession prof peer d s.chip)) peer 0
    (identity (s.chip.parN Par.netNodeId) peer n d.num d.epoch 1) stOk { num := n, epoch := d.epoch, rnum := d.num, first := 1 }
  have hall := openRequest_eq peer d s.chip
  rw [find_isTwin_none hno, hprof, hn] at hall
  replace hall := hall.trans heq
  exact ⟨_, b, hexec, rfl, (congrArg Chip.pintle hall).trans (putSession_pintle ..), (congrArg (fun c => c.dev.sessions) hall).trans hsess,
    (congrArg (fun c => c.dev.openPdus) hall).trans (congrArg (· ++ _) hopen), hb⟩

/-- Without a profile or a number an open request is refused (R376, R377). -/
theorem openRequest_refused {s : State} {peer : Nat} {d : OpenData} (hno : ∀ n, 1 ≤ n → n ≤ 127 → ¬ s.chip.twin peer d n)
    (hnone : s.chip.ocgalProfile peer = none ∨ s.chip.sessionNumber peer true = none) :
    ∃ t b, exec (.openRequest peer d) s = .next t ∧ t.mem = s.mem ∧ t.chip.dev.sessions = s.chip.dev.sessions ∧
      t.chip.dev.openPdus = s.chip.dev.openPdus ++ [(peer, 0, b)] ∧
      t.plain = (s.onChip (fun c => c.modDev (fun d => { d with openPdus := t.chip.dev.openPdus }))).plain := by
  have hexec : exec (.openRequest peer d) s = .next (s.onChip (openRequest peer d)) := rfl
  have hall := openRequest_eq peer d s.chip
  rw [find_isTwin_none hno] at hall
  have hactive := active_plain_same s.chip
  have hfault := agreedFault_only s.chip.active 0x2207 0x0D 0 0xFF 1
  have hrefused : ∃ (c : Chip) (st : Nat), c.plain = s.chip.plain ∧ c.dev.sessions = s.chip.dev.sessions ∧
      openRequest peer d s.chip = c.denyOpen peer d (s.chip.parN Par.netNodeId) st := by
    cases hp : s.chip.ocgalProfile peer with
    | none =>
      rw [hp] at hall
      exact ⟨_, _, hactive, rfl, hall⟩
    | some prof =>
      rw [hp, hnone.resolve_left (by rw [hp]; exact Option.some_ne_none _)] at hall
      exact ⟨_, _, (agreedFault_plain ..).trans hactive, hfault.sessions, hall⟩
  obtain ⟨c, st, hplain, hsess, heq⟩ := hrefused
  obtain ⟨b, -, hs, hopen, hp⟩ := denyOpen_eq hplain hsess peer d (s.chip.parN Par.netNodeId) st
  rw [← heq] at hs hopen hp
  exact ⟨_, b, hexec, rfl, hs, hopen, onChip_plain_congr hp⟩

/-- A repeated open request is a violation of its session (R381). -/
theorem openRequest_repeated {s : State} {peer n : Nat} {d : OpenData} (h1 : 1 ≤ n) (h2 : n ≤ 127) (h : s.chip.twin peer d n)
    (hfirst : ∀ m, 1 ≤ m → m < n → ¬ s.chip.twin peer d m) : ∃ t, exec (.openRequest peer d) s = .next t ∧ t.plain = s.plain ∧
      t.chip.dev.sessions = modNth s.chip.dev.sessions (n - 1) (fun x => { x with
        frozen := true, violatedNow := true, violations := satInc 65535 x.violations }) := by
  have hexec : exec (.openRequest peer d) s = .next (s.onChip (openRequest peer d)) := rfl
  have hall := openRequest_eq peer d s.chip
  rw [find_isTwin_some h1 h2 h hfirst] at hall
  have hplain : (s.chip.active.violate n).plain = s.chip.plain := by
    unfold Chip.violate
    rw [agreedFault_plain, modSession_plain, active_plain_same]
  have hsess : (s.chip.active.violate n).dev.sessions = modNth s.chip.dev.sessions (n - 1) (fun x => { x with
      frozen := true, violatedNow := true, violations := satInc 65535 x.violations }) := by
    unfold Chip.violate
    rw [(agreedFault_only ..).sessions, modSession_dev, if_neg (by omega)]
    rfl
  exact ⟨_, hexec, onChip_plain_of _ _ ((congrArg Chip.plain hall).trans hplain), (congrArg (fun c => c.dev.sessions) hall).trans hsess⟩

end Sys2Proof.Machine

namespace Sys2Proof.Machine
open Sys2Proof


/-! #### Answers, and the end of an opening (R376) -/

/-- The opening operation of a host that waits for session n. -/
def opensSession (n : Nat) (p : PendOp) : Bool := p.opcode == 0x2210 && p.arg == n && p.arg2 == 0

/-- The session that the peer's answer opens (R376). -/
def Session.answered (d : OpenData) (x : Session) : Session :=
  { x with state := .opened, peerNum := d.num, rxSeq := (d.first + 2 ^ 32 - 1) % 2 ^ 32, wd := 0 }

theorem openAnswer_eq (n : Fin 128) (st : Nat) (d : OpenData) (c : Chip) : openAnswer n st d c =
    if (c.session n.val).state ≠ .opening ∨ d.rnum ≠ n.val ∨ d.epoch ≠ (c.session n.val).epoch then c
    else if st = stOk then
      (c.modSession n.val (Session.answered d)).finishAll (opensSession n.val) stOk (openReply n.val ((c.modSession n.val (Session.answered d)).session n.val))
    else (c.freeSession n.val).finishAll (opensSession n.val) st [] := rfl

theorem finishAll_sessions {c : Chip} {p : PendOp} (hp : c.dev.pend = [p]) (h0 : p.session = 0) {test : PendOp → Bool} (ht : test p = true) (st : Nat)
    (data : List Byte) : (c.finishAll test st data).dev.sessions = c.dev.sessions := by
  rw [finishAll_single hp ht, finalReply_sessions h0]

section
variable {s : State} {n : Fin 128} {p : PendOp} {k : LaneId} (hstate : (s.chip.session n.val).state = .opening) (hn : n.val ≠ 0)
  (hpend : s.chip.dev.pend = [p]) (hwait : opensSession n.val p = true) (hlink : p.link = some k) (h0 : p.session = 0) (hsup : p.suppress = false)
include hstate hn hpend hwait hlink h0 hsup

/-- The peer's answer opens the session, or frees it, and the host has its reply (R376). -/
theorem openAnswer_ends {d : OpenData} (st : Nat) (hnum : d.rnum = n.val) (hepoch : d.epoch = (s.chip.session n.val).epoch) :
    ∃ t q, exec (.openAnswer n st d) s = .next t ∧ t.mem = s.mem ∧ t.chip.lanes = s.chip.lanes ∧ t.chip.dev.pend = [] ∧
      t.chip.dev.replies = s.chip.dev.replies ++ [(k, q)] ∧ q.status = st ∧
      t.chip.dev.sessions = modNth s.chip.dev.sessions (n.val - 1) (fun x =>
        if st = stOk then { x with state := .opened, peerNum := d.num, rxSeq := (d.first + 2 ^ 32 - 1) % 2 ^ 32, wd := 0 } else {}) := by
  have hexec : exec (.openAnswer n st d) s = .next (s.onChip (openAnswer n st d)) := rfl
  have hends : openAnswer n st d s.chip = if st = stOk then
      (s.chip.modSession n.val (Session.answered d)).finishAll (opensSession n.val) stOk
        (openReply n.val ((s.chip.modSession n.val (Session.answered d)).session n.val))
    else (s.chip.freeSession n.val).finishAll (opensSession n.val) st [] :=
    (openAnswer_eq ..).trans (if_neg (by rw [hstate, hnum, hepoch]; simp))
  by_cases hst : st = stOk
  · rw [if_pos hst] at hends
    have hp : (s.chip.modSession n.val (Session.answered d)).dev.pend = [p] := by
      rw [modSession_dev]
      exact hpend
    obtain ⟨q, hrep, hnone, -, hq, -⟩ := finishAll_link hp hlink hsup hwait stOk
      (openReply n.val ((s.chip.modSession n.val (Session.answered d)).session n.val))
    refine ⟨_, q, hexec, rfl, ?_, (congrArg (fun c => c.dev.pend) hends).trans hnone,
      ((congrArg (fun c => c.dev.replies) hends).trans hrep).trans ?_, hq.trans hst.symm, ?_⟩
    · exact (congrArg Chip.lanes hends).trans ((finishAll_lanes ..).trans (modSession_lanes ..))
    · rw [modSession_dev]
    · refine ((congrArg (fun c => c.dev.sessions) hends).trans (finishAll_sessions hp h0 hwait ..)).trans ?_
      rw [modSession_dev, if_neg hn]
      simp only [if_pos hst]
      rfl
  · rw [if_neg hst] at hends
    obtain ⟨-, hpfree, -, hrfree⟩ := freeSession_openPdus s.chip n.val
    have hp : (s.chip.freeSession n.val).dev.pend = [p] := hpfree.trans hpend
    obtain ⟨q, hrep, hnone, -, hq, -⟩ := finishAll_link hp hlink hsup hwait st []
    refine ⟨_, q, hexec, rfl, ?_, (congrArg (fun c => c.dev.pend) hends).trans hnone,
      ((congrArg (fun c => c.dev.replies) hends).trans hrep).trans (congrArg (· ++ _) hrfree), hq, ?_⟩
    · exact (congrArg Chip.lanes hends).trans ((finishAll_lanes ..).trans (freeSession_lanes ..))
    · refine ((congrArg (fun c => c.dev.sessions) hends).trans (finishAll_sessions hp h0 hwait ..)).trans ((freeSession_sessions _ hn).trans ?_)
      simp only [if_neg hst]

/-- Without an answer the session is free and the host has the status FENCED (R376). -/
theorem openTimeout_ends : ∃ t q, exec (.openTimeout n) s = .next t ∧ t.mem = s.mem ∧ t.chip.dev.pend = [] ∧
    t.chip.dev.replies = s.chip.dev.replies ++ [(k, q)] ∧ q.status = stFenced ∧
    t.chip.dev.sessions = modNth s.chip.dev.sessions (n.val - 1) (fun _ => {}) := by
  have hexec : exec (.openTimeout n) s = .next (s.onChip (openTimeout n)) := rfl
  have hends : openTimeout n s.chip = ((s.chip.freeSession n.val).agreedFault 0x2208 0x0D n.val 0xFF).finishAll (opensSession n.val) stFenced [] :=
    if_pos hstate
  have hfault := agreedFault_only (s.chip.freeSession n.val) 0x2208 0x0D n.val 0xFF 1
  obtain ⟨-, hpfree, -, hrfree⟩ := freeSession_openPdus s.chip n.val
  have hp : ((s.chip.freeSession n.val).agreedFault 0x2208 0x0D n.val 0xFF).dev.pend = [p] :=
    ((hfault.field Dev.pend fun _ _ _ => rfl).trans hpfree).trans hpend
  obtain ⟨q, hrep, hnone, -, hq, -⟩ := finishAll_link hp hlink hsup hwait stFenced []
  have hreplies := (hfault.field Dev.replies fun _ _ _ => rfl).trans hrfree
  exact ⟨_, q, hexec, rfl, (congrArg (fun c => c.dev.pend) hends).trans hnone,
    ((congrArg (fun c => c.dev.replies) hends).trans hrep).trans (congrArg (· ++ _) hreplies), hq,
    ((congrArg (fun c => c.dev.sessions) hends).trans (finishAll_sessions hp h0 hwait ..)).trans (hfault.sessions.trans (freeSession_sessions _ hn))⟩

end

/-! #### The operations of the KEY block (R375 to R378, R382, R383) -/

/-- The session of a host on its links (R375). -/
def hostSession (r : Req) (n : Nat) (c : Chip) : Session :=
  { state := .opened, profile := fld r.body 2 1, carriers := BitVec.ofNat 8 (fld r.body 1 1), byDevice := false, peer := fld r.body 4 2, peerNum := n
    epoch := c.dev.count % 256, rxSeq := (fld r.body 8 4 + 2 ^ 32 - 1) % 2 ^ 32, stamp0 := c.dev.sn }

/-- The session that the device opens toward a peer on Ocgal (R376). -/
def ocgalSession (r : Req) (c : Chip) : Session :=
  { state := .opening, profile := fld r.body 2 1, ocgal := true, byDevice := true, peer := fld r.body 4 2, epoch := c.dev.count % 256
    chan := fld r.body 1 1, stamp0 := c.dev.sn }

theorem sessionOpen_host {r : Req} {g : State} {n : Nat} (hkind : fld r.body 0 1 = 0) (hn : g.chip.sessionNumber (fld r.body 4 2) false = some n) :
    effectSessionOpen r g = { st := g.onChip (fun c => (c.putSession n (hostSession r n g.chip)).addPend 0x2210 r { arg := n, arg2 := 1, at_ := g.chip.dev.count })
                              status := stPending } := by
  have hcarrier : decide (fld r.body 0 1 = 1) = false := by rw [hkind]; rfl
  unfold effectSessionOpen
  dsimp only
  rw [hcarrier, hn]
  rfl

theorem sessionOpen_ocgal {r : Req} {g : State} {n : Nat} (hkind : fld r.body 0 1 = 1) (hn : g.chip.sessionNumber (fld r.body 4 2) true = some n) :
    effectSessionOpen r g = { st := g.onChip (fun c => ((c.putSession n (ocgalSession r g.chip)).sendOpen (fld r.body 4 2) (ocgalSession r g.chip).chan
        (identity (c.parN Par.netNodeId) (fld r.body 4 2) n 0 (g.chip.dev.count % 256) 1) stOk { num := n, epoch := g.chip.dev.count % 256, first := 1 }).addPend
          0x2210 r { arg := n }), status := stPending } := by
  have hcarrier : decide (fld r.body 0 1 = 1) = true := by rw [hkind]; rfl
  unfold effectSessionOpen
  dsimp only
  rw [hcarrier, hn]
  exact if_pos rfl

theorem sessionOpen_full {r : Req} {g : State} (hn : g.chip.sessionNumber (fld r.body 4 2) (decide (fld r.body 0 1 = 1)) = none) :
    effectSessionOpen r g = { st := g.onChip (fun c => c.agreedFault 0x2207 0x0D 0 0xFF), status := stNoResource } := by
  unfold effectSessionOpen
  dsimp only
  rw [hn]

theorem openAllowed_alike {s g : State} (h : Alike s g) (r : Req) : g.chip.openAllowed r = s.chip.openAllowed r :=
  h.reads (fun c => c.openAllowed r) fun _ _ _ => rfl

theorem checksSessionOpen_of {r : Req} {c : Chip} (hform : openForm r.body = true) (hallowed : c.openAllowed r = true) : checksSessionOpen r c = [] := by
  rw [checksSessionOpen, if_pos hform, if_pos hallowed]
  rfl

/-- KEY.SESSION_OPEN past the gates runs its effect on the sessions before it. -/
theorem exec_sessionOpen {s : State} {r : Req} (hadm : s.admits attrSessionOpen r = true) (h0 : r.session = 0) (hform : openForm r.body = true)
    (hallowed : s.chip.openAllowed r = true) : ∃ g, Alike s g ∧ g.chip.dev.sessions = s.chip.dev.sessions ∧
      exec (.sessionOpen r) s = .next ((effectSessionOpen r g).finish attrSessionOpen r) := by
  obtain ⟨g, hpast, hzero, -, hexec⟩ := exec_of_admits_sessions (i := .sessionOpen r) rfl hadm
  exact ⟨g, hpast.alike, hzero h0, hexec (checksSessionOpen_of hform ((openAllowed_alike hpast.alike r).trans hallowed))⟩

theorem addPend_lane (c : Chip) (code : Nat) (r : Req) (p : PendOp) (l : LaneId) : (c.addPend code r p).lanes.get l = c.lanes.get l := by
  unfold Chip.addPend
  dsimp only
  split <;> rfl

/-- An opening of a session: what its effect leaves in every unit, past its reply (R375, R376). -/
structure Opened (s t : State) (n : Nat) (x : Session) : Prop where
  mem : t.mem = s.mem
  pintle : t.chip.pintle = s.chip.pintle
  pend : t.chip.dev.pend.length = s.chip.dev.pend.length + 1
  sessions : t.chip.dev.sessions = modNth s.chip.dev.sessions (n - 1) (fun _ => x)
  lane : ∀ l, (t.chip.lane l).plain = { (s.chip.lane l).plain with net := t.chip.netOf l } ∧
    t.chip.netOf l = { s.chip.netOf l with credits := (s.chip.netOf l).credits.filter (fun k => k.session != n) }

/-- Two chips with the same lanes, Pintle die, sessions and pending operations. -/
structure SamePut (c d : Chip) : Prop where
  lanes : c.lanes = d.lanes
  pintle : c.pintle = d.pintle
  pend : c.dev.pend = d.dev.pend
  sessions : c.dev.sessions = d.dev.sessions

/-- What puts a session under a number and then only PDUs of openings and a pending operation is an opening. -/
theorem opened_of {s g : State} (halike : Alike s g) (hsess : g.chip.dev.sessions = s.chip.dev.sessions) {a : OpAttr} {r : Req} (h0 : r.session = 0)
    {n : Nat} (hn : n ≠ 0) {x : Session} {c : Chip} {p : PendOp} (hput : SamePut c (g.chip.putSession n x)) {code : Nat}
    {f : Chip → Chip} (hf : f g.chip = c.addPend code r p) (st : Nat) : Opened s (OpOut.finish a r { st := g.onChip f, status := st }) n x := by
  rw [onChip_congr (g := fun _ => c.addPend code r p) hf]
  obtain ⟨hses, -, hpend⟩ := putSession_dev g.chip hn x
  have hfinish := alike_finish a r { st := g.onChip (fun _ => c.addPend code r p), status := st }
  have hnoted := noted_addPend c code r p
  refine ⟨(finish_mem ..).trans halike.mem, ?_, ?_, ?_, fun l => ?_⟩
  · refine hfinish.pintle.trans (hnoted.pintle.trans ?_)
    rw [hput.pintle]
    exact (putSession_pintle ..).trans halike.pintle
  · rw [hfinish.field Dev.pend fun _ _ => rfl]
    show (c.addPend code r p).dev.pend.length = _
    rw [addPend_pend, List.length_append, hput.pend, hpend, halike.field Dev.pend fun _ _ => rfl]
    rfl
  · rw [finish_sessions h0]
    show (c.addPend code r p).dev.sessions = _
    rw [addPend_sessions, hput.sessions, hses, hsess]
  · have hlane : (c.addPend code r p).lanes.get l =
        { g.chip.lane l with net := { g.chip.netOf l with credits := (g.chip.netOf l).credits.filter (fun k => k.session != n) } } := by
      rw [addPend_lane, hput.lanes]
      exact putSession_lane ..
    have hnet : g.chip.netOf l = s.chip.netOf l := halike.lane l Lane.net fun _ _ => rfl
    have hplain : (g.chip.lane l).plain = (s.chip.lane l).plain := halike.lane l Lane.plain fun _ _ => rfl
    have htnet := (hfinish.lane l Lane.net fun _ _ => rfl).trans (congrArg Lane.net hlane)
    have htplain := (hfinish.lane l Lane.plain fun _ _ => rfl).trans (congrArg Lane.plain hlane)
    refine ⟨htplain.trans ?_, htnet.trans (by rw [hnet])⟩
    rw [← hplain]
    exact congrArg (fun m => { (g.chip.lane l).plain with net := m }) htnet.symm

/-- A host session is allocated at once, and its reply waits (R375). -/
theorem sessionOpen_host_opens {s : State} {r : Req} {n : Nat} (hadm : s.admits attrSessionOpen r = true) (h0 : r.session = 0)
    (hform : openForm r.body = true) (hallowed : s.chip.openAllowed r = true) (hkind : fld r.body 0 1 = 0)
    (hn : s.chip.sessionNumber (fld r.body 4 2) false = some n) :
    ∃ t, exec (.sessionOpen r) s = .next t ∧ Opened s t n (hostSession r n s.chip) := by
  obtain ⟨g, halike, hsess, hexec⟩ := exec_sessionOpen hadm h0 hform hallowed
  have hsame : hostSession r n g.chip = hostSession r n s.chip := halike.reads (fun c => hostSession r n c) fun _ _ _ => rfl
  rw [sessionOpen_host hkind ((sessionNumber_congr hsess ..).trans hn), hsame] at hexec
  exact ⟨_, hexec, opened_of halike hsess h0 (mem_of_sessionNumber hn) ⟨rfl, rfl, rfl, rfl⟩ rfl stPending⟩

/-- A session on Ocgal takes its number, and the peer is sent an open request (R376). -/
theorem sessionOpen_ocgal_opens {s : State} {r : Req} {n : Nat} (hadm : s.admits attrSessionOpen r = true) (h0 : r.session = 0)
    (hform : openForm r.body = true) (hallowed : s.chip.openAllowed r = true) (hkind : fld r.body 0 1 = 1)
    (hn : s.chip.sessionNumber (fld r.body 4 2) true = some n) :
    ∃ t b, exec (.sessionOpen r) s = .next t ∧ Opened s t n (ocgalSession r s.chip) ∧
      t.chip.dev.openPdus = s.chip.dev.openPdus ++ [(fld r.body 4 2, fld r.body 1 1, b)] ∧ fld b 0 2 = 0x2210 := by
  obtain ⟨g, halike, hsess, hexec⟩ := exec_sessionOpen hadm h0 hform hallowed
  have hsame : ocgalSession r g.chip = ocgalSession r s.chip := halike.reads (fun c => ocgalSession r c) fun _ _ _ => rfl
  have hn0 := mem_of_sessionNumber hn
  rw [sessionOpen_ocgal hkind ((sessionNumber_congr hsess ..).trans hn), hsame] at hexec
  obtain ⟨b, hb, heq⟩ := sendOpen_eq (g.chip.putSession n (ocgalSession r s.chip)) (fld r.body 4 2) (ocgalSession r s.chip).chan
    (identity (g.chip.parN Par.netNodeId) (fld r.body 4 2) n 0 (g.chip.dev.count % 256) 1) stOk { num := n, epoch := g.chip.dev.count % 256, first := 1 }
  refine ⟨_, b, hexec, opened_of halike hsess h0 hn0 (by rw [heq]; exact ⟨rfl, rfl, rfl, rfl⟩) rfl stPending, ?_, hb⟩
  refine ((alike_finish ..).field Dev.openPdus fun _ _ => rfl).trans (((noted_addPend ..).field Dev.openPdus fun _ _ _ => rfl).trans ?_)
  refine (congrArg (fun c => c.dev.openPdus) heq).trans (congrArg (· ++ _) ?_)
  exact (putSession_dev g.chip hn0 _).2.1.trans (halike.field Dev.openPdus fun _ _ => rfl)

/-- Without a number nothing is opened (R377). -/
theorem sessionOpen_full_keeps {s : State} {r : Req} (hadm : s.admits attrSessionOpen r = true) (h0 : r.session = 0)
    (hform : openForm r.body = true) (hallowed : s.chip.openAllowed r = true)
    (hn : s.chip.sessionNumber (fld r.body 4 2) (decide (fld r.body 0 1 = 1)) = none) :
    ∃ t, exec (.sessionOpen r) s = .next t ∧ t.plain = s.plain ∧ t.chip.dev.sessions = s.chip.dev.sessions := by
  obtain ⟨g, halike, hsess, hexec⟩ := exec_sessionOpen hadm h0 hform hallowed
  rw [sessionOpen_full ((sessionNumber_congr hsess ..).trans hn)] at hexec
  refine ⟨_, hexec, ?_, ?_⟩
  · rw [finish_plain]
    exact (onChip_plain_of _ _ (agreedFault_plain ..)).trans halike.plain
  · rw [finish_sessions h0]
    exact (agreedFault_only ..).sessions.trans hsess

end Sys2Proof.Machine

namespace Sys2Proof.Machine
open Sys2Proof


/-! #### Closing and unfreezing (R378, R379, R382) -/

theorem session_freeSession_same (c : Chip) {n : Nat} (h0 : n ≠ 0) : ((c.freeSession n).session n).state = .free := by
  unfold Chip.session
  rw [if_neg h0, freeSession_sessions c h0]
  rcases nth_modNth_cases c.dev.sessions (n - 1) (n - 1) (fun _ => ({} : Session)) {} with h | ⟨-, h⟩
  · rw [h]
    by_cases hn : n - 1 < c.dev.sessions.length
    · rw [← h, nth_modNth_same _ _ _ _ hn]
    · rw [nth_of_length_le (not_lt.1 hn)]
  · rw [h]

theorem session_freeSession_ne (c : Chip) {n j : Nat} (h0 : n ≠ 0) (hj : j ≠ n) : (c.freeSession n).session j = c.session j := by
  have hsess : (c.freeSession n).dev.sessions = (c.modSession n (fun _ => {})).dev.sessions := by
    rw [freeSession_sessions c h0, modSession_dev, if_neg h0]
  rw [session_congr hsess]
  rcases session_modSession c n j (fun _ => {}) with h | ⟨h, -⟩
  · exact h
  · exact absurd h hj

/-- A session that is not free takes what is put in it. -/
theorem session_modSession_same {c : Chip} {n : Nat} (h : (c.session n).state ≠ .free) (f : Session → Session) :
    (c.modSession n f).session n = f (c.session n) := by
  have h0 := ne_zero_of_session h
  unfold Chip.session at h ⊢
  rw [if_neg h0] at h ⊢
  rw [if_neg h0, modSession_dev, if_neg h0]
  refine nth_modNth_same _ _ _ _ (not_le.1 fun hle => h ?_)
  rw [nth_of_length_le hle]

/-- A change that a free session does not notice reaches every session there is. -/
theorem session_modSession_of_default (c : Chip) {n : Nat} (h0 : n ≠ 0) {f : Session → Session} (hf : f {} = {}) :
    (c.modSession n f).session n = f (c.session n) := by
  unfold Chip.session
  rw [if_neg h0, if_neg h0, modSession_dev, if_neg h0]
  by_cases hn : n - 1 < c.dev.sessions.length
  · exact nth_modNth_same _ _ _ _ hn
  · have hlen : (modNth c.dev.sessions (n - 1) f).length ≤ n - 1 := by rw [modNth_length]; exact not_lt.1 hn
    rw [nth_of_length_le hlen, nth_of_length_le (not_lt.1 hn), hf]

/-- The chip while a session is marked to be closed, with its loss action due and its opening answered (R378). -/
def Chip.closingSession (c : Chip) (n : Nat) : Chip :=
  (((c.modSession n (fun x => { x with closing := true })).agreedFault 0x2206 0x0D n 0xFF).modDev (fun d => { d with
    lossActs := d.lossActs ++ [(n, 1)] })).finishAll (fun p => p.opcode == 0x2210 && p.arg == n) stFenced []

theorem closingSession_noted (c : Chip) (n : Nat) : ∃ d, Noted c d ∧ (c.closingSession n = (d.modDev (fun x => { x with
    lossActs := x.lossActs ++ [(n, 1)] })).finishAll (fun p => p.opcode == 0x2210 && p.arg == n) stFenced []) ∧
    SessionsStand (c.modSession n (fun x => { x with closing := true })) d :=
  have hfault := agreedFault_only (c.modSession n (fun x => { x with closing := true })) 0x2206 0x0D n 0xFF 1
  ⟨_, (noted_modSession c n _).trans hfault.noted, rfl, hfault.sessionsStand⟩

theorem closingSession_pintle (c : Chip) (n : Nat) : (c.closingSession n).pintle = c.pintle := by
  obtain ⟨d, hd, heq, -⟩ := closingSession_noted c n
  rw [heq]
  exact (noted_finishAll ..).pintle.trans hd.pintle

theorem closingSession_lanes (c : Chip) (n : Nat) : LanesAlike c (c.closingSession n) := by
  obtain ⟨d, hd, heq, -⟩ := closingSession_noted c n
  rw [heq]
  exact hd.lanes.trans (noted_finishAll (d.modDev (fun x => { x with lossActs := x.lossActs ++ [(n, 1)] })) (fun p => p.opcode == 0x2210 && p.arg == n) stFenced []).lanes

theorem closingSession_lossActs (c : Chip) (n : Nat) : (c.closingSession n).dev.lossActs = c.dev.lossActs ++ [(n, 1)] := by
  obtain ⟨d, hd, heq, -⟩ := closingSession_noted c n
  rw [heq, (noted_finishAll ..).field Dev.lossActs fun _ _ _ => rfl]
  show d.dev.lossActs ++ [(n, 1)] = _
  rw [hd.field Dev.lossActs fun _ _ _ => rfl]

theorem closingSession_stand (c : Chip) (n : Nat) : SessionsStand (c.modSession n (fun x => { x with closing := true })) (c.closingSession n) := by
  obtain ⟨d, -, heq, hstand⟩ := closingSession_noted c n
  have hacts : SessionsStand d (d.modDev (fun x => { x with lossActs := x.lossActs ++ [(n, 1)] })) := sessionsStand_of_eq rfl
  rw [heq]
  exact (hstand.trans hacts).trans (finishAll_stand (d.modDev (fun x => { x with lossActs := x.lossActs ++ [(n, 1)] })) (fun p => p.opcode == 0x2210 && p.arg == n) stFenced [])

/-- What KEY.SESSION_CLOSE does to the chip (R378). -/
def Chip.closeSession (c : Chip) (n own : Nat) : Chip :=
  if (c.session n).state = .free then c else if n = own then c.closingSession n else (c.closingSession n).freeSession n

theorem effectSessionClose_eq (r : Req) (s : State) : effectSessionClose r s = OpOut.chip s (fun c => c.closeSession (closeTarget r) r.session) := rfl

/-- KEY.SESSION_CLOSE closes a session that is not free: its action is due, and it is freed unless it carries the packet (R378). -/
structure Closes (n carrier : Nat) (c d : Chip) : Prop where
  pintle : d.pintle = c.pintle
  lanes : LanesAlike c d
  lossActs : d.dev.lossActs = c.dev.lossActs ++ [(n, 1)]
  own : n = carrier → (d.session n).closing = true ∧ (d.session n).state = (c.session n).state
  freed : n ≠ carrier → (d.session n).state = .free
  other : ∀ j, j ≠ n → (d.session j).state = (c.session j).state

theorem state_of_stand {c d : Chip} (h : SessionsStand c d) (n : Nat) : (d.session n).state = (c.session n).state := congrArg Prod.fst (h n)

theorem closing_of_stand {c d : Chip} (h : SessionsStand c d) (n : Nat) : (d.session n).closing = (c.session n).closing := congrArg (fun x => x.2.1) (h n)

theorem closeSession_closes {c : Chip} {n : Nat} (own : Nat) (h : (c.session n).state ≠ .free) : Closes n own c (c.closeSession n own) := by
  have h0 := ne_zero_of_session h
  have hstand := closingSession_stand c n
  have hmarked := session_modSession_same h (fun x => { x with closing := true })
  have hother (j : Nat) (hj : j ≠ n) : ((c.closingSession n).session j).state = (c.session j).state := by
    rw [state_of_stand hstand]
    rcases session_modSession c n j (fun x => { x with closing := true }) with e | ⟨e, -⟩
    · rw [e]
    · exact absurd e hj
  unfold Chip.closeSession
  rw [if_neg h]
  by_cases hown : n = own
  · rw [if_pos hown]
    refine ⟨closingSession_pintle .., closingSession_lanes c n, closingSession_lossActs .., fun _ => ?_, fun hne => absurd hown hne, hother⟩
    rw [state_of_stand hstand, closing_of_stand hstand, hmarked]
    exact ⟨rfl, rfl⟩
  · rw [if_neg hown]
    obtain ⟨-, -, hacts, -⟩ := freeSession_openPdus (c.closingSession n) n
    refine ⟨(freeSession_pintle ..).trans (closingSession_pintle ..), (closingSession_lanes c n).trans (lanesAlike_of_eq (freeSession_lanes ..)),
      hacts.trans (closingSession_lossActs ..), fun he => absurd he hown, fun _ => session_freeSession_same _ h0, fun j hj => ?_⟩
    rw [session_freeSession_ne _ h0 hj, hother j hj]

theorem checksSessionClose_of {r : Req} {c : Chip} (hlen : r.body.length = 16) (hzero : zeroFrom r.body 1 16 = true) (hnum : fld r.body 0 1 ≤ 127) :
    checksSessionClose r c = [] := by
  rw [checksSessionClose, quadFails_of hlen hzero, if_neg (not_lt.2 hnum)]
  rfl

theorem checksPeerUnfreeze_of {r : Req} {c : Chip} (hlen : r.body.length = 16) (hzero : zeroFrom r.body 1 16 = true) (hone : 1 ≤ fld r.body 0 1)
    (hnum : fld r.body 0 1 ≤ 127) (hown : fld r.body 0 1 ≠ r.session) : checksPeerUnfreeze r c = [] := by
  have hnot : ¬ (fld r.body 0 1 = 0 ∨ 127 < fld r.body 0 1) := by omega
  unfold checksPeerUnfreeze
  dsimp only
  rw [quadFails_of hlen hzero, if_neg hnot, if_neg hown]
  rfl

theorem sessionClose_free {s : State} {r : Req} (hadm : s.admits (attrSessionClose r) r = true) (hlen : r.body.length = 16)
    (hzero : zeroFrom r.body 1 16 = true) (hnum : fld r.body 0 1 ≤ 127) (hfree : (s.chip.session (closeTarget r)).state = .free) :
    ∃ t, exec (.sessionClose r) s = .next t ∧ t.plain = s.plain ∧ (t.chip.session (closeTarget r)).state = .free := by
  obtain ⟨g, hpast, -, -, hexec⟩ := exec_of_admits_sessions (i := .sessionClose r) rfl hadm
  have hg : (g.chip.session (closeTarget r)).state = .free := (sessions_alike hpast.sessions _).1.trans hfree
  replace hexec := hexec (checksSessionClose_of (r := r) (c := g.chip) hlen hzero hnum)
  dsimp only at hexec
  rw [effectSessionClose_eq, opOut_chip_congr (f := fun c => c.closeSession (closeTarget r) r.session) (g := id) (if_pos hg)] at hexec
  refine ⟨_, hexec, ?_, ?_⟩
  · rw [finish_plain]
    exact hpast.alike.plain
  · rw [state_of_stand (finish_stand (attrSessionClose r) r (OpOut.chip g id))]
    exact hg

theorem sessionClose_closes {s : State} {r : Req} (hadm : s.admits (attrSessionClose r) r = true) (hlen : r.body.length = 16)
    (hzero : zeroFrom r.body 1 16 = true) (hnum : fld r.body 0 1 ≤ 127) (hopen : (s.chip.session (closeTarget r)).state ≠ .free) :
    ∃ t, exec (.sessionClose r) s = .next t ∧ t.mem = s.mem ∧ t.chip.pintle = s.chip.pintle ∧
      (∀ l, (t.chip.lane l).plain = (s.chip.lane l).plain) ∧ t.chip.dev.lossActs = s.chip.dev.lossActs ++ [(closeTarget r, 1)] ∧
      (closeTarget r = r.session → (t.chip.session (closeTarget r)).closing = true ∧
        (t.chip.session (closeTarget r)).state = (s.chip.session (closeTarget r)).state) ∧
      (closeTarget r ≠ r.session → (t.chip.session (closeTarget r)).state = .free) ∧
      ∀ n, n ≠ closeTarget r → (t.chip.session n).state = (s.chip.session n).state := by
  obtain ⟨g, hpast, -, -, hexec⟩ := exec_of_admits_sessions (i := .sessionClose r) rfl hadm
  have hsame (n : Nat) : (g.chip.session n).state = (s.chip.session n).state := (sessions_alike hpast.sessions n).1
  have hcloses := closeSession_closes r.session (c := g.chip) (n := closeTarget r) (by rw [hsame]; exact hopen)
  replace hexec := hexec (checksSessionClose_of (r := r) (c := g.chip) hlen hzero hnum)
  dsimp only at hexec
  rw [effectSessionClose_eq] at hexec
  have hfinish := alike_finish (attrSessionClose r) r (OpOut.chip g (fun c => c.closeSession (closeTarget r) r.session))
  have hstand := finish_stand (attrSessionClose r) r (OpOut.chip g (fun c => c.closeSession (closeTarget r) r.session))
  have hstate (n : Nat) := state_of_stand hstand n
  refine ⟨_, hexec, hfinish.mem.trans hpast.alike.mem, (hfinish.pintle.trans hcloses.pintle).trans hpast.alike.pintle, fun l => ?_, ?_, fun hown => ?_,
    fun hne => (hstate _).trans (hcloses.freed hne), fun n hn => ((hstate n).trans (hcloses.other n hn)).trans (hsame n)⟩
  · calc _ = _ := hfinish.lane l Lane.plain fun _ _ => rfl
      _ = _ := hcloses.lanes.lane l Lane.plain fun _ _ => rfl
      _ = _ := hpast.alike.lane l Lane.plain fun _ _ => rfl
  · calc _ = _ := hfinish.field Dev.lossActs fun _ _ => rfl
      _ = _ := hcloses.lossActs
      _ = _ := congrArg (· ++ _) (hpast.alike.field Dev.lossActs fun _ _ => rfl)
  · obtain ⟨hclosing, hst⟩ := hcloses.own hown
    exact ⟨(closing_of_stand hstand _).trans hclosing, ((hstate _).trans hst).trans (hsame _)⟩

theorem peerUnfreeze_marks {s : State} {r : Req} (hadm : s.admits attrPeerUnfreeze r = true) (hlen : r.body.length = 16)
    (hzero : zeroFrom r.body 1 16 = true) (hone : 1 ≤ fld r.body 0 1) (hnum : fld r.body 0 1 ≤ 127) (hown : fld r.body 0 1 ≠ r.session) :
    ∃ t, exec (.peerUnfreeze r) s = .next t ∧ t.plain = s.plain ∧
      (t.chip.session (fld r.body 0 1)).unfreezeNow = (s.chip.session (fld r.body 0 1)).frozen ∧
      (t.chip.session (fld r.body 0 1)).frozen = (s.chip.session (fld r.body 0 1)).frozen := by
  obtain ⟨g, hpast, -, hother, hexec⟩ := exec_of_admits_sessions (i := .peerUnfreeze r) rfl hadm
  have hsame := hother _ hown
  have hstand := finish_stand attrPeerUnfreeze r (effectPeerUnfreeze r g) (fld r.body 0 1)
  refine ⟨_, hexec (checksPeerUnfreeze_of (r := r) (c := g.chip) hlen hzero hone hnum hown), ?_, ?_⟩
  · rw [finish_plain]
    exact (onChip_plain_of _ _ (modSession_plain ..)).trans hpast.alike.plain
  · have hmark := session_modSession_of_default g.chip (n := fld r.body 0 1) (by omega) (f := fun x => { x with unfreezeNow := x.frozen }) rfl
    have hchip : (effectPeerUnfreeze r g).st.chip.session (fld r.body 0 1) = { s.chip.session (fld r.body 0 1) with
        unfreezeNow := (s.chip.session (fld r.body 0 1)).frozen } := hmark.trans (by rw [hsame])
    rw [hchip] at hstand
    exact ⟨congrArg (fun x => x.2.2.2) hstand, congrArg (fun x => x.2.2.1) hstand⟩

/-- Settles O32: requests, answers and operations of openings and closings change the sessions and what waits on them, no unit. -/
theorem sessionsOpenAndClose : Obligations.SessionsOpenAndClose := by
  refine ⟨fun s => ⟨fun peer d => ⟨fun hno => ⟨fun prof n hprof hn => ?_, fun hnone => ?_⟩, fun n h1 h2 htwin hfirst => ?_⟩,
    fun n st d p k hstate hn hpend hop harg harg2 hlink h0 hsup => ?_⟩, fun s r => ⟨?_, ?_, ?_, ?_, ?_⟩⟩
  · exact openRequest_opens hno hprof hn
  · exact openRequest_refused hno hnone
  · exact openRequest_repeated h1 h2 htwin hfirst
  · have hwait : opensSession n.val p = true := by
      unfold opensSession
      rw [hop, harg, harg2]
      simp
    refine ⟨fun hnum hepoch => openAnswer_ends hstate hn hpend hwait hlink h0 hsup st hnum hepoch, fun hne => ?_,
      openTimeout_ends hstate hn hpend hwait hlink h0 hsup⟩
    have hexec : exec (.openAnswer n st d) s = .next (s.onChip (openAnswer n st d)) := rfl
    rw [onChip_congr (f := openAnswer n st d) (g := id) ((openAnswer_eq ..).trans (if_pos (.inr hne)))] at hexec
    exact hexec
  · intro n hadm h0 hform hallowed hkind hn
    obtain ⟨t, hexec, hopened⟩ := sessionOpen_host_opens hadm h0 hform hallowed hkind hn
    exact ⟨t, hexec, hopened.mem, hopened.pintle, hopened.pend, hopened.sessions, hopened.lane⟩
  · intro n hadm h0 hform hallowed hkind hn
    obtain ⟨t, b, hexec, hopened, hpdus, hb⟩ := sessionOpen_ocgal_opens hadm h0 hform hallowed hkind hn
    exact ⟨t, b, hexec, hopened.mem, hopened.pintle, hopened.pend, hopened.sessions, hpdus, hb⟩
  · exact fun hadm h0 hform hallowed hn => sessionOpen_full_keeps hadm h0 hform hallowed hn
  · exact fun hadm hlen hzero hnum => ⟨sessionClose_free hadm hlen hzero hnum, sessionClose_closes hadm hlen hzero hnum⟩
  · exact fun hadm hlen hzero hone hnum hown => peerUnfreeze_marks hadm hlen hzero hone hnum hown

end Sys2Proof.Machine

namespace Sys2Proof.Machine
open Sys2Proof


/-! ### Operations of the NET block (R305, R314, R317, R326, R333, R354) -/

theorem foldl_onMem_get (f : LaneMem → LaneMem) (ls : List LaneId) (hnodup : ls.Nodup) (k : LaneId) : ∀ s : State,
    (ls.foldl (fun s l => s.onMem l f) s).mem.get k = if k ∈ ls then f (s.mem.get k) else s.mem.get k := by
  induction ls with
  | nil => exact fun _ => rfl
  | cons l ls ih =>
    intro s
    obtain ⟨hl, hnodup⟩ := List.nodup_cons.1 hnodup
    rw [List.foldl_cons, ih hnodup]
    by_cases hk : k = l
    · subst hk
      rw [if_neg hl, onMem_get_same, if_pos (List.mem_cons_self ..)]
    · rw [onMem_get_ne _ _ _ hk]
      simp [hk]

theorem foldl_onMem_chip (f : LaneMem → LaneMem) (ls : List LaneId) : ∀ s : State, (ls.foldl (fun s l => s.onMem l f) s).chip = s.chip := by
  induction ls with
  | nil => exact fun _ => rfl
  | cons l ls ih => exact fun s => ih (s.onMem l f)

/-! #### Schedule loads (R314) -/

/-- The state after a part of a schedule load has been stored in every lane in authority. -/
def State.storePart (s : State) (r : Req) : State :=
  s.chip.authLanes.foldl (fun s l => s.onMem l (fun m => { m with stagingSched := cellWrite m.stagingSched (fld r.body 0 4) (r.body.drop 16) })) s

theorem storePart_mem (s : State) (r : Req) (l : LaneId) : (s.storePart r).mem.get l = if s.chip.inAuth l then { s.mem.get l with
    stagingSched := cellWrite (s.mem.get l).stagingSched (fld r.body 0 4) (r.body.drop 16) } else s.mem.get l := by
  rw [State.storePart, foldl_onMem_get _ _ (authLanes_nodup _)]
  simp only [mem_authLanes]

theorem storePart_chip (s : State) (r : Req) : (s.storePart r).chip = s.chip := foldl_onMem_chip ..

theorem schedLast_iff {p : List Byte} (h : fld p 4 1 ≤ 1) : schedLast p = decide (fld p 4 1 = 1) := by
  have hcases : fld p 4 1 = 0 ∨ fld p 4 1 = 1 := by omega
  unfold schedLast
  rcases hcases with e | e <;> rw [e] <;> rfl

theorem effectScheduleLoad_part {r : Req} {s : State} (h : schedLast r.body = false) : effectScheduleLoad r s = { st := s.storePart r } := by
  unfold effectScheduleLoad
  dsimp only
  rw [h]
  rfl

theorem effectScheduleLoad_last {r : Req} {s : State} (h : schedLast r.body = true) : effectScheduleLoad r s =
    { st := { s.storePart r with chip := ((s.storePart r).chip.loadSchedule (s.storePart r).stagedSched (fld r.body 8 4) r).1 }
      status := ((s.storePart r).chip.loadSchedule (s.storePart r).stagedSched (fld r.body 8 4) r).2 } := by
  unfold effectScheduleLoad
  dsimp only
  rw [h]
  rfl

theorem loadSchedule_unsound {c : Chip} {b : List Byte} (h : schedOk c.dev.cfg.ahead b = false) (count : Nat) (r : Req) :
    c.loadSchedule b count r = (c, stSchedule) := by
  unfold Chip.loadSchedule
  rw [h]
  rfl

theorem loadSchedule_first {c : Chip} {b : List Byte} (hok : schedOk c.dev.cfg.ahead b = true) (hnone : c.dev.cfg.sched = [])
    (hact : c.dev.actuation = false) (hcount : c.netCount = none) (count : Nat) (r : Req) : c.loadSchedule b count r = (c.putSchedule b, stOk) := by
  unfold Chip.loadSchedule
  rw [hok, hnone, hact, hcount]
  simp

/-- What decides which lane leads. -/
structure LeadKept (c d : Chip) : Prop where
  chk : ∀ l, (d.lane l).chk = (c.lane l).chk
  boot : ∀ l, (d.lane l).boot = (c.lane l).boot
  round : ∀ l, (d.lane l).round = (c.lane l).round
  aset : d.dev.aset = c.dev.aset
  authority : d.dev.authority = c.dev.authority
  standdown : d.dev.standdown = c.dev.standdown

theorem LeadKept.trans {c d e : Chip} (h : LeadKept c d) (k : LeadKept d e) : LeadKept c e :=
  ⟨fun l => (k.chk l).trans (h.chk l), fun l => (k.boot l).trans (h.boot l), fun l => (k.round l).trans (h.round l),
    k.aset.trans h.aset, k.authority.trans h.authority, k.standdown.trans h.standdown⟩

theorem leadKept_of_lanes {c d : Chip} (h : d.lanes = c.lanes) (haset : d.dev.aset = c.dev.aset) (hauth : d.dev.authority = c.dev.authority)
    (hdown : d.dev.standdown = c.dev.standdown) : LeadKept c d :=
  ⟨fun l => by rw [lane_eq, h]; rfl, fun l => by rw [lane_eq, h]; rfl, fun l => by rw [lane_eq, h]; rfl, haset, hauth, hdown⟩

theorem leadKept_modLane (c : Chip) (l : LaneId) {f : Lane → Lane} (hchk : ∀ x, (f x).chk = x.chk) (hboot : ∀ x, (f x).boot = x.boot)
    (hround : ∀ x, (f x).round = x.round) : LeadKept c (c.modLane l f) :=
  ⟨fun k => modLane_keeps c l k f Lane.chk hchk, fun k => modLane_keeps c l k f Lane.boot hboot, fun k => modLane_keeps c l k f Lane.round hround, rfl, rfl, rfl⟩

theorem LeadKept.leader {c d : Chip} (h : LeadKept c d) : d.leader = c.leader := by
  have hcomputes : d.computes = c.computes := funext fun l => by
    simp only [Chip.computes, Chip.inRound, Chip.resyncing, Chip.inAuth, h.chk l, h.boot l, h.round l, h.authority, h.standdown]
  simp only [Chip.leader, hcomputes, h.aset, Chip.authLanes, h.authority]

/-- The chip with the data of a schedule put in force (R314). -/
def Chip.withSchedule (c : Chip) (b : List Byte) : Chip :=
  c.modDev (fun d => { d with
    cfg := { d.cfg with sched := b, schedNext := none }, slots := [], spares := [], sparesNext := [], spareClaim := none, otherClaims := [] })

theorem putSchedule_eq (c : Chip) (b : List Byte) : c.putSchedule b = (c.withSchedule b).recheck := rfl

theorem recheck_dev (c : Chip) : c.recheck.dev = { c.dev with cfg := { c.dev.cfg with check := checkValue c.dev.cfg.ws c.dev.cfg.sched } } := modCfg_dev ..

theorem withCheck_ws (g : CfgState) (h : Nat) : ({ g with check := h } : CfgState).ws = g.ws := rfl

theorem recheck_lanes (c : Chip) : c.recheck.lanes = c.lanes := modCfg_lanes ..

theorem putSchedule_leadKept (c : Chip) (b : List Byte) : LeadKept c (c.putSchedule b) := by
  rw [putSchedule_eq]
  refine leadKept_of_lanes (recheck_lanes _) ?_ ?_ ?_
  · rw [recheck_dev]; rfl
  · rw [recheck_dev]; rfl
  · rw [recheck_dev]; rfl

theorem putSchedule_dev (c : Chip) (b : List Byte) : (c.putSchedule b).dev.cfg.sched = b ∧ (c.putSchedule b).dev.spares = [] ∧
    (c.putSchedule b).dev.slots = [] ∧ (c.putSchedule b).dev.cfg.ws = c.dev.cfg.ws := by
  have hws : (c.putSchedule b).dev.cfg.ws = (c.withSchedule b).dev.cfg.ws := by
    rw [putSchedule_eq, recheck_cfg, withCheck_ws]
  refine ⟨recheck_sched (c.withSchedule b), ?_, ?_, hws⟩
  · rw [putSchedule_eq, recheck_dev]
    rfl
  · rw [putSchedule_eq, recheck_dev]
    rfl

theorem restartNet_leadKept (c : Chip) : LeadKept c c.restartNet := by
  have hnet (d : Chip) (l : LaneId) (f : Ocgal → Ocgal) : LeadKept d (d.modNet l f) := leadKept_modLane d l (fun _ => rfl) (fun _ => rfl) fun _ => rfl
  have hclock (d : Chip) (l : LaneId) (f : Clock → Clock) : LeadKept d (d.modClock l f) := leadKept_modLane d l (fun _ => rfl) (fun _ => rfl) fun _ => rfl
  refine List.foldlRecOn _ _ (motive := LeadKept c) (leadKept_of_lanes rfl rfl rfl rfl) fun d hd l _ => ?_
  split
  · exact hd.trans (hnet d l _)
  · split
    · exact hd
    · exact hd.trans (((hnet d l _).trans (hclock _ l _)).trans (hnet _ l _))

theorem addPend_leadKept (c : Chip) (code : Nat) (r : Req) (p : PendOp) : LeadKept c (c.addPend code r p) := by
  have h := noted_addPend c code r p
  exact ⟨fun l => h.lanes.lane l Lane.chk fun _ _ => rfl, fun l => h.lanes.lane l Lane.boot fun _ _ => rfl, fun l => h.lanes.lane l Lane.round fun _ _ => rfl,
    h.field Dev.aset fun _ _ _ => rfl, h.field Dev.authority fun _ _ _ => rfl, h.field Dev.standdown fun _ _ _ => rfl⟩

/-- A schedule load never changes which lane leads, so the schedule that it stages is the one that is read (R314). -/
theorem loadSchedule_leader (c : Chip) (b : List Byte) (count : Nat) (r : Req) : (c.loadSchedule b count r).1.leader = c.leader := by
  have hcfg (f : CfgState → CfgState) : LeadKept c (c.modCfg f) := leadKept_of_lanes rfl rfl rfl rfl
  unfold Chip.loadSchedule
  dsimp only
  split
  · rfl
  · split
    · rfl
    · split
      · rfl
      · split
        · exact (putSchedule_leadKept c b).leader
        · split
          · exact ((hcfg _).trans (addPend_leadKept ..)).leader
          · exact (((hcfg _).trans (restartNet_leadKept _)).trans (addPend_leadKept ..)).leader

theorem stagedSched_congr {s t : State} (hleader : t.chip.leader = s.chip.leader) (hmem : t.mem = s.mem) : t.stagedSched = s.stagedSched := by
  rw [State.stagedSched, State.stagedSched, hleader, hmem]

theorem checksScheduleLoad_of {r : Req} {c : Chip} (hlen : 16 ≤ r.body.length) (hquads : r.body.length % 16 = 0) (hmax : r.body.length ≤ 4080)
    (hoff : fld r.body 0 4 % 16 = 0) (hend : fld r.body 0 4 + r.body.length ≤ 16448) (hflag : fld r.body 4 1 ≤ 1) (hz1 : zeroFrom r.body 5 8 = true)
    (hz2 : zeroFrom r.body 12 16 = true) (hnext : c.dev.cfg.schedNext = none) (hdown : c.dev.standdown = none) : checksScheduleLoad r c = [] := by
  have hgood : ¬ (r.body.length < 16 ∨ r.body.length % 16 ≠ 0 ∨ 4064 < r.body.length - 16 ∨ fld r.body 0 4 % 16 ≠ 0 ∨
      16432 < fld r.body 0 4 + (r.body.length - 16) ∨ 1 < fld r.body 4 1 ∨ zeroFrom r.body 5 8 = false ∨ zeroFrom r.body 12 16 = false) := by
    rw [hz1, hz2]
    simp only [Bool.true_eq_false, or_false]
    omega
  unfold checksScheduleLoad
  dsimp only
  rw [if_neg hgood, hnext, hdown]
  rfl

theorem netCount_alike {s g : State} (h : Alike s g) : g.chip.netCount = s.chip.netCount := by
  have hnet (l : LaneId) : g.chip.netOf l = s.chip.netOf l := h.lane l Lane.net fun _ _ => rfl
  have hservice : g.chip.inService = s.chip.inService := funext fun l => by rw [Chip.inService, Chip.inService, hnet]
  simp only [Chip.netCount, hservice, hnet]

/-- A part of a schedule is stored; the last part puts a sound first schedule in force (R314). -/
theorem scheduleLoad_effect {s : State} {r : Req} (hadm : s.admits attrScheduleLoad r = true)
    (hchecks : ∀ g, Alike s g → checksScheduleLoad r g.chip = []) (hflag : fld r.body 4 1 ≤ 1) : ∃ t, exec (.scheduleLoad r) s = .next t ∧
      (∀ l, t.mem.get l = if s.chip.inAuth l then { s.mem.get l with
        stagingSched := cellWrite (s.mem.get l).stagingSched (fld r.body 0 4) (r.body.drop 16) } else s.mem.get l) ∧
      ((fld r.body 4 1 = 0 ∨ schedOk s.chip.dev.cfg.ahead t.stagedSched = false) → t.chip.plain = s.chip.plain) ∧
      (fld r.body 4 1 = 1 → schedOk s.chip.dev.cfg.ahead t.stagedSched = true → s.chip.dev.cfg.sched = [] → s.chip.dev.actuation = false →
        s.chip.netCount = none → t.chip.dev.cfg.sched = t.stagedSched ∧ t.chip.dev.spares = [] ∧ t.chip.dev.slots = [] ∧
        t.chip.dev.cfg.ws = s.chip.dev.cfg.ws) := by
  obtain ⟨g, halike, -, hexec⟩ := exec_of_admits (i := .scheduleLoad r) rfl hadm
  replace hexec := hexec (hchecks g halike)
  have hmem (o : OpOut) (ho : o.st.mem = (g.storePart r).mem) (l : LaneId) : (o.finish attrScheduleLoad r).mem.get l = if s.chip.inAuth l then { s.mem.get l with
      stagingSched := cellWrite (s.mem.get l).stagingSched (fld r.body 0 4) (r.body.drop 16) } else s.mem.get l := by
    rw [finish_mem, ho, storePart_mem, halike.inAuth, halike.mem]
  have hkeep (o : OpOut) (ho : o.st.chip = g.chip) : (o.finish attrScheduleLoad r).chip.plain = s.chip.plain := by
    have hplain : (o.finish attrScheduleLoad r).plain.chip = o.st.plain.chip := congrArg State.chip (finish_plain ..)
    have hg : g.plain.chip = s.plain.chip := congrArg State.chip halike.plain
    exact hplain.trans ((congrArg Chip.plain ho).trans hg)
  have hstaged (o : OpOut) (hc : o.st.chip.leader = (g.storePart r).chip.leader) (ho : o.st.mem = (g.storePart r).mem) :
      (o.finish attrScheduleLoad r).stagedSched = (g.storePart r).stagedSched :=
    stagedSched_congr ((leader_alike (alike_finish ..)).trans hc) ((finish_mem ..).trans ho)
  have hahead : (g.storePart r).chip.dev.cfg.ahead = s.chip.dev.cfg.ahead := by rw [storePart_chip, halike.cfg]
  dsimp only at hexec
  by_cases hlast : fld r.body 4 1 = 1
  · have hl : schedLast r.body = true := (schedLast_iff hflag).trans (decide_eq_true hlast)
    rw [effectScheduleLoad_last hl] at hexec
    have hleader := loadSchedule_leader (g.storePart r).chip (g.storePart r).stagedSched (fld r.body 8 4) r
    generalize hload : (g.storePart r).chip.loadSchedule (g.storePart r).stagedSched (fld r.body 8 4) r = x at hexec hleader
    have hst := hstaged { st := { g.storePart r with chip := x.1 }, status := x.2 } hleader rfl
    by_cases hok : schedOk s.chip.dev.cfg.ahead (g.storePart r).stagedSched = true
    · refine ⟨_, hexec, hmem _ rfl, ?_, fun _ _ hnone hact hcount => ?_⟩
      · rw [hst, hok, hlast]
        rintro (h | h)
        · exact absurd h (by decide)
        · exact absurd h (by decide)
      · have hfirst := loadSchedule_first (c := (g.storePart r).chip) (b := (g.storePart r).stagedSched) (by rw [hahead]; exact hok)
          (by rw [storePart_chip, halike.cfg]; exact hnone)
          (by rw [storePart_chip]; exact (halike.field Dev.actuation fun _ _ => rfl).trans hact)
          (by rw [storePart_chip, netCount_alike halike]; exact hcount) (fld r.body 8 4) r
        obtain ⟨hsched, hspares, hslots, hws⟩ := putSchedule_dev (g.storePart r).chip (g.storePart r).stagedSched
        rw [hload] at hfirst
        subst hfirst
        rw [hst]
        have hfin := alike_finish attrScheduleLoad r { st := { g.storePart r with chip := (g.storePart r).chip.putSchedule (g.storePart r).stagedSched }, status := stOk }
        refine ⟨?_, (hfin.field Dev.spares fun _ _ => rfl).trans hspares, (hfin.field Dev.slots fun _ _ => rfl).trans hslots, ?_⟩
        · rw [hfin.cfg]
          exact hsched
        · rw [hfin.cfg]
          refine hws.trans ?_
          rw [storePart_chip, halike.cfg]
    · have hbad : schedOk (g.storePart r).chip.dev.cfg.ahead (g.storePart r).stagedSched = false := by
        rw [hahead]
        exact Bool.not_eq_true _ ▸ hok
      refine ⟨_, hexec, hmem _ rfl, fun _ => hkeep _ ?_, fun _ h => ?_⟩
      · rw [loadSchedule_unsound hbad] at hload
        subst hload
        exact storePart_chip ..
      · rw [hst] at h
        exact absurd h hok
  · have hl : schedLast r.body = false := (schedLast_iff hflag).trans (decide_eq_false hlast)
    rw [effectScheduleLoad_part hl] at hexec
    exact ⟨_, hexec, hmem _ rfl, fun _ => hkeep _ (storePart_chip ..), fun h => absurd h hlast⟩

end Sys2Proof.Machine

namespace Sys2Proof.Machine
open Sys2Proof


/-! #### Starting the network, spare slots and host frames (R305, R317, R326, R333, R354) -/

theorem pend_addPend_plain (c : Chip) (code : Nat) (r : Req) (p : PendOp) :
    (c.addPend code r p).plain = (c.modDev (fun d => { d with pend := d.pend ++ [pendOf code r p] })).plain := by
  unfold Chip.addPend
  dsimp only
  split
  · exact modHost_plain ..
  · rfl

theorem modDev_plain_congr {c d : Chip} (h : d.plain = c.plain) (f : Dev → Dev) (hf : ∀ x : Dev, (f x).plain = (f x.plain).plain) :
    (d.modDev f).plain = (c.modDev f).plain := by
  have hdev : d.dev.plain = c.dev.plain := congrArg Chip.dev h
  calc (d.modDev f).plain = { d.plain with dev := (f d.dev).plain } := rfl
    _ = { c.plain with dev := (f c.dev).plain } := by rw [h, hf, hdev, ← hf]
    _ = (c.modDev f).plain := rfl

/-- Two states with alike memories and queues whose chips agree in their plain part agree in theirs. -/
theorem plain_of_chip {s g : State} (h : Alike s g) {f k : Chip → Chip} (hchip : (f g.chip).plain = (k s.chip).plain) :
    (g.onChip f).plain = (s.onChip k).plain :=
  calc (g.onChip f).plain = { pending := g.pending, mem := g.mem, chip := (f g.chip).plain } := rfl
    _ = { pending := s.pending, mem := s.mem, chip := (k s.chip).plain } := by rw [h.mem, h.pending, hchip]
    _ = (s.onChip k).plain := rfl

/-- A network unit of which startup is asked. -/
def Ocgal.asked (n : Ocgal) : Ocgal := { n with requested := true }

/-- A lane of which startup is asked. -/
def Lane.asked (x : Lane) : Lane := { x with net := x.net.asked }

/-- The chip with startup asked of every lane in authority (R317). -/
def Chip.askStart (c : Chip) : Chip := c.authLanes.foldl (fun c l => c.modNet l Ocgal.asked) c

theorem askStart_lane (c : Chip) (l : LaneId) : c.askStart.lanes.get l = if c.inAuth l then (c.lanes.get l).asked else c.lanes.get l := by
  have h := foldl_modLane_get Lane.asked c.authLanes (authLanes_nodup c) l c
  simp only [mem_authLanes] at h
  exact h

theorem inService_alike {s g : State} (h : Alike s g) (l : LaneId) : g.chip.inService l = s.chip.inService l := by
  have hnet : g.chip.netOf l = s.chip.netOf l := h.lane l Lane.net fun _ _ => rfl
  rw [Chip.inService, Chip.inService, hnet]

theorem effectNetStart_eq {r : Req} {s : State} (h : s.chip.authLanes.all s.chip.inService = false) : effectNetStart r s =
    { st := s.onChip (fun c => (c.askStart.modDev (fun d => { d with netWait := 0 })).addPend 0x2011 r {}), status := stPending } := by
  unfold effectNetStart
  rw [h]
  rfl

theorem askStart_keeps {α : Type} (p : Chip → α) (hp : ∀ c l f, p (c.modLane l f) = p c) (c : Chip) : p c.askStart = p c :=
  foldl_keeps p (fun c l => c.modNet l Ocgal.asked) (fun c l => hp c l _) _ c

/-- NET.START asks startup of every lane in authority, and its reply waits (R317, R333). -/
theorem netStart_asks {s : State} {r : Req} (hadm : s.admits attrNetStart r = true) (hbody : r.body = []) (hsched : s.chip.dev.cfg.sched ≠ [])
    (hout : s.chip.authLanes.all s.chip.inService = false) :
    ∃ t, exec (.netStart r) s = .next t ∧ (∀ l ∈ s.chip.authLanes, (t.chip.netOf l).requested = true) ∧ t.chip.dev.netWait = 0 ∧
      t.chip.dev.pend.length = s.chip.dev.pend.length + 1 ∧ (t.chip.dev.pend.getLast?.map (·.opcode)) = some 0x2011 ∧ t.mem = s.mem ∧
      ∀ l, (t.chip.lane l).plain = { (s.chip.lane l).plain with net := { (s.chip.netOf l) with requested := (t.chip.netOf l).requested } } := by
  obtain ⟨g, halike, -, hexec⟩ := exec_of_admits (i := .netStart r) rfl hadm
  have hchecks : checksNetStart r g.chip = [] := by
    have hempty : g.chip.dev.cfg.sched.isEmpty = false := by
      rw [halike.cfg]
      exact List.isEmpty_eq_false_iff.2 hsched
    rw [checksNetStart, hempty, hbody]
    rfl
  have hg : g.chip.authLanes.all g.chip.inService = false := by
    have hservice : g.chip.inService = s.chip.inService := funext (inService_alike halike)
    rw [halike.authLanes, hservice]
    exact hout
  replace hexec := hexec hchecks
  dsimp only at hexec
  rw [effectNetStart_eq hg] at hexec
  have hfin := alike_finish attrNetStart r
    { st := g.onChip (fun c => (c.askStart.modDev (fun d => { d with netWait := 0 })).addPend 0x2011 r {}), status := stPending }
  have hnoted := noted_addPend (g.chip.askStart.modDev (fun d => { d with netWait := 0 })) 0x2011 r {}
  have hpend := addPend_pend (g.chip.askStart.modDev (fun d => { d with netWait := 0 })) 0x2011 r {}
  have hask : g.chip.askStart.dev.pend = s.chip.dev.pend :=
    (askStart_keeps (fun c => c.dev.pend) (fun _ _ _ => rfl) g.chip).trans (halike.field Dev.pend fun _ _ => rfl)
  have htpend := (hfin.field Dev.pend fun _ _ => rfl).trans (hpend.trans (congrArg (· ++ _) hask))
  have hlane {α : Type} (p : Lane → α) (hp : ∀ n a : Lane, p (n.withAccounts a) = p n) (l : LaneId) :=
    (hfin.lane l p hp).trans ((hnoted.lanes.lane l p hp).trans (congrArg p (askStart_lane g.chip l)))
  have hnet (l : LaneId) : (g.chip.lanes.get l).net = (s.chip.lane l).net := halike.lane l Lane.net fun _ _ => rfl
  have hplain (l : LaneId) : (g.chip.lanes.get l).plain = (s.chip.lane l).plain := halike.lane l Lane.plain fun _ _ => rfl
  refine ⟨_, hexec, fun l hl => ?_, ?_, ?_, ?_, (finish_mem ..).trans halike.mem, fun l => ?_⟩
  · refine (congrArg Ocgal.requested (hlane Lane.net (fun _ _ => rfl) l)).trans ?_
    rw [if_pos ((halike.inAuth l).trans (mem_authLanes.1 hl))]
    rfl
  · exact (hfin.field Dev.netWait fun _ _ => rfl).trans (hnoted.field Dev.netWait fun _ _ _ => rfl)
  · rw [htpend, List.length_append]
    rfl
  · rw [htpend, List.getLast?_concat]
    rfl
  · refine (hlane Lane.plain (fun _ _ => rfl) l).trans ?_
    have hreq := congrArg Ocgal.requested (hlane Lane.net (fun _ _ => rfl) l)
    have hmake (b : Bool) (x : Lane) : (if b then x.asked else x).plain = { x.plain with net := { x.net with
        requested := (if b then x.asked else x).net.requested } } := by cases b <;> rfl
    rw [hmake, ← hreq, hplain, hnet]
    rfl

/-- After 8 matrix cycles the waiting operation has its reply, and startup goes on (R333). -/
theorem netStart_waits_out {s : State} {p : PendOp} {k : LaneId} (hwait : 8 ≤ s.chip.dev.netWait) (hpend : s.chip.dev.pend = [p]) (hop : p.opcode = 0x2011)
    (hlink : p.link = some k) (hsup : p.suppress = false) :
    ∃ t q, exec .netStartTimeout s = .next t ∧ t.chip.dev.pend = [] ∧ t.chip.dev.replies = s.chip.dev.replies ++ [(k, q)] ∧
      q.status = stTransition ∧ t.mem = s.mem ∧ t.chip.lanes = s.chip.lanes ∧ t.chip.pintle = s.chip.pintle := by
  have hexec : exec .netStartTimeout s = .next (s.onChip netStartTimeout) := rfl
  rw [onChip_congr (f := netStartTimeout) (g := fun c => c.finishAll (fun p => p.opcode == 0x2011) stTransition []) (if_pos hwait)] at hexec
  obtain ⟨q, hrep, hnone, -, hq, -⟩ := finishAll_link hpend hlink hsup (test := fun p => p.opcode == 0x2011) (beq_iff_eq.2 hop) stTransition []
  exact ⟨_, q, hexec, hnone, hrep, hq, rfl, finishAll_lanes .., (noted_finishAll ..).pintle⟩

/-- The slots of a claim that have been used in the matrix cycle (R326). -/
def Chip.usedSlots (c : Chip) (slots : List Nat) : List Nat :=
  slots.filter (fun x => c.netCount.isSome && decide (some (c.slotData x).matrix = c.netCount) && (c.slotData x).live)

theorem mem_usedSlots {c : Chip} {slots : List Nat} {x : Nat} (hx : x ∈ slots) :
    x ∈ c.usedSlots slots ↔ (∃ m, c.netCount = some m ∧ (c.slotData x).matrix = m) ∧ (c.slotData x).live = true := by
  simp only [Chip.usedSlots, List.mem_filter, hx, true_and, Bool.and_eq_true, decide_eq_true_eq]
  cases c.netCount with
  | none => simp
  | some m => simpa using fun _ => eq_comm

theorem slotData_alike {s g : State} (h : Alike s g) (x : Nat) : g.chip.slotData x = s.chip.slotData x :=
  h.reads (fun c => c.slotData x) fun _ _ _ => rfl

theorem usedSlots_alike {s g : State} (h : Alike s g) (slots : List Nat) : g.chip.usedSlots slots = s.chip.usedSlots slots := by
  simp only [Chip.usedSlots, netCount_alike h, slotData_alike h]

theorem checksSpareClaim_alike {s g : State} (h : Alike s g) (r : Req) : checksSpareClaim r g.chip = checksSpareClaim r s.chip := by
  have hservice : g.chip.inService = s.chip.inService := funext (inService_alike h)
  have howner : g.chip.entryOwner = s.chip.entryOwner := h.reads (fun c => c.entryOwner) fun _ _ _ => rfl
  have hclaim : g.chip.dev.spareClaim = s.chip.dev.spareClaim := h.field Dev.spareClaim fun _ _ => rfl
  unfold checksSpareClaim
  rw [hservice, howner, hclaim, h.cfg]

/-- NET.SPARE_CLAIM starts the one claim, without the slots that have been used (R326). -/
theorem spareClaim_starts {s : State} {r : Req} (hadm : s.admits attrSpareClaim r = true) (hchecks : checksSpareClaim r s.chip = []) :
    ∃ t taken, exec (.spareClaim r) s = .next t ∧
      t.chip.dev.spareClaim = some (spareList r.body, taken, 0) ∧ taken.Sublist (spareList r.body) ∧
      (∀ x ∈ spareList r.body, x ∈ taken ↔ (∃ m, s.chip.netCount = some m ∧ (s.chip.slotData x).matrix = m) ∧ (s.chip.slotData x).live = true) ∧
      t.mem = s.mem ∧
      t.plain = (s.onChip (fun c => (c.modDev (fun d => { d with spareClaim := some (spareList r.body, taken, 0) })).addPend 0x2012 r {})).plain := by
  obtain ⟨g, halike, -, hexec⟩ := exec_of_admits (i := .spareClaim r) rfl hadm
  replace hexec := hexec ((checksSpareClaim_alike halike r).trans hchecks)
  have heffect : effectSpareClaim r g = { st := g.onChip (fun c => (c.modDev (fun d => { d with
      spareClaim := some (spareList r.body, g.chip.usedSlots (spareList r.body), 0) })).addPend 0x2012 r {}), status := stPending } := rfl
  dsimp only at hexec
  rw [heffect, usedSlots_alike halike] at hexec
  refine ⟨_, s.chip.usedSlots (spareList r.body), hexec, ?_, List.filter_sublist, fun x hx => mem_usedSlots hx, (finish_mem ..).trans halike.mem, ?_⟩
  · exact ((alike_finish ..).field Dev.spareClaim fun _ _ => rfl).trans ((noted_addPend ..).field Dev.spareClaim fun _ _ _ => rfl)
  · refine (finish_plain ..).trans ?_
    have hchip : g.chip.plain = s.chip.plain := congrArg State.chip halike.plain
    have hadd : ((g.chip.modDev (fun d => { d with spareClaim := some (spareList r.body, s.chip.usedSlots (spareList r.body), 0) })).addPend 0x2012 r {}).plain =
        ((s.chip.modDev (fun d => { d with spareClaim := some (spareList r.body, s.chip.usedSlots (spareList r.body), 0) })).addPend 0x2012 r {}).plain := by
      rw [pend_addPend_plain, pend_addPend_plain]
      exact modDev_plain_congr (modDev_plain_congr hchip _ fun _ => rfl) _ fun _ => rfl
    exact plain_of_chip halike hadd

theorem txFull_alike {s g : State} (h : Alike s g) : g.chip.txFull = s.chip.txFull := by
  have hnet (l : LaneId) : g.chip.netOf l = s.chip.netOf l := h.lane l Lane.net fun _ _ => rfl
  simp only [Chip.txFull, h.authLanes, hnet]

theorem checksFrameSend_alike {s g : State} (h : Alike s g) (r : Req) : checksFrameSend r g.chip = checksFrameSend r s.chip := by
  simp only [checksFrameSend, txFull_alike h]

theorem room_of_checks {r : Req} {c : Chip} (htimed : r.isTimed = false) (h : checksFrameSend r c = []) : c.txFull = false := by
  unfold checksFrameSend at h
  dsimp only at h
  split at h
  · cases h
  · rw [htimed] at h
    by_contra hfull
    rw [Bool.not_eq_false] at hfull
    rw [hfull] at h
    cases h

/-- The host frame of a request under a sequence number (R305, R333). -/
def hostFrame (p : List Byte) (q : Nat) : ArbTx :=
  { kind := 2, session := 0, dest := if fld p 2 1 = 1 then some (fld p 0 2) else none, chan := fld p 3 1, fseq := q, data := p.drop 16 }

/-- A lane whose transmit queue has room takes a frame (R328). -/
def Lane.take (x : ArbTx) (n : Lane) : Lane := if n.net.txq.length < 64 then { n with net := n.net.enqueue x } else n

theorem modLane_congr_at {c : Chip} {l : LaneId} {f g : Lane → Lane} (h : f (c.lanes.get l) = g (c.lanes.get l)) : c.modLane l f = c.modLane l g := by
  rw [Chip.modLane, Chip.modLane, h]

theorem modLane_same {c : Chip} {l : LaneId} {f : Lane → Lane} (h : f (c.lanes.get l) = c.lanes.get l) : c.modLane l f = c := by
  rw [Chip.modLane, h, tri_set_get]

theorem take_eq (c : Chip) (l : LaneId) (x : ArbTx) :
    (if (c.netOf l).txq.length < 64 then c.modNet l (fun n => n.enqueue x) else c) = c.modLane l (Lane.take x) := by
  split
  · rename_i h
    exact modLane_congr_at (if_pos h).symm
  · rename_i h
    exact (modLane_same (if_neg h)).symm

theorem queueFrame_eq (c : Chip) (p : List Byte) : c.queueFrame p =
    c.authLanes.foldl (fun d l => d.modLane l (Lane.take (hostFrame p c.dev.arbSeq))) (c.modDev (fun d => { d with arbSeq := (d.arbSeq + 1) % 2 ^ 32 })) := by
  have hfold : (fun (d : Chip) l => d.modLane l (Lane.take (hostFrame p c.dev.arbSeq))) =
      fun d l => if (d.netOf l).txq.length < 64 then d.modNet l (fun n => n.enqueue (hostFrame p c.dev.arbSeq)) else d :=
    funext fun d => funext fun l => (take_eq d l _).symm
  rw [hfold]
  rfl

/-- An untimed host frame is queued in every lane in authority under the next sequence number (R305, R333). -/
theorem frameSend_queues {s : State} {r : Req} (hadm : s.admits attrFrameSend r = true) (htimed : r.isTimed = false) (hchecks : checksFrameSend r s.chip = []) :
    ∃ t, exec (.frameSend r) s = .next t ∧ t.mem = s.mem ∧ t.chip.dev.arbSeq = (s.chip.dev.arbSeq + 1) % 2 ^ 32 ∧
      ∀ l, (t.chip.lane l).plain = if s.chip.inAuth l then { (s.chip.lane l).plain with
        net := (s.chip.netOf l).enqueue (hostFrame r.body s.chip.dev.arbSeq) } else (s.chip.lane l).plain := by
  obtain ⟨g, halike, -, hexec⟩ := exec_of_admits (i := .frameSend r) rfl hadm
  replace hexec := hexec ((checksFrameSend_alike halike r).trans hchecks)
  have heffect : effectFrameSend r g = OpOut.chip g (fun c => c.queueFrame r.body) :=
    opOut_chip_congr (f := fun c => if r.isTimed then c.addLoopLaunch 99 10 r.launchTime r.body r.session else c.queueFrame r.body)
      (if_neg (by rw [htimed]; exact Bool.false_ne_true))
  dsimp only at hexec
  rw [heffect] at hexec
  have hseq : g.chip.dev.arbSeq = s.chip.dev.arbSeq := halike.field Dev.arbSeq fun _ _ => rfl
  have hqueue := queueFrame_eq g.chip r.body
  have hfin := alike_finish attrFrameSend r (OpOut.chip g (fun c => c.queueFrame r.body))
  refine ⟨_, hexec, (finish_mem ..).trans halike.mem, ?_, fun l => ?_⟩
  · refine (hfin.field Dev.arbSeq fun _ _ => rfl).trans ((congrArg (fun c => c.dev.arbSeq) hqueue).trans ?_)
    rw [foldl_keeps (fun c => c.dev.arbSeq) (fun d l => d.modLane l (Lane.take (hostFrame r.body g.chip.dev.arbSeq))) (fun _ _ => rfl)]
    exact congrArg (fun q => (q + 1) % 2 ^ 32) hseq
  · refine (hfin.lane l Lane.plain fun _ _ => rfl).trans ((congrArg (fun c => (c.lanes.get l).plain) hqueue).trans ?_)
    dsimp only
    rw [foldl_modLane_get _ _ (authLanes_nodup _), hseq]
    have hplain : (g.chip.lane l).plain = (s.chip.lane l).plain := halike.lane l Lane.plain fun _ _ => rfl
    have hnet : g.chip.netOf l = s.chip.netOf l := halike.lane l Lane.net fun _ _ => rfl
    simp only [mem_authLanes, halike.inAuth]
    split
    · rename_i hl
      have hroom := room_of_checks htimed hchecks
      have hlen : (g.chip.netOf l).txq.length < 64 := by
        rw [hnet]
        rw [Chip.txFull, List.any_eq_false] at hroom
        simpa using hroom l (mem_authLanes.2 hl)
      have htake : Lane.take (hostFrame r.body s.chip.dev.arbSeq) (g.chip.lane l) = { g.chip.lane l with
          net := (g.chip.netOf l).enqueue (hostFrame r.body s.chip.dev.arbSeq) } := if_pos hlen
      refine (congrArg Lane.plain htake).trans ?_
      rw [← hplain, ← hnet]
      rfl
    · exact hplain

theorem frameSend_launches {s : State} {r : Req} (hadm : s.admits attrFrameSend r = true) (htimed : r.isTimed = true) (hchecks : checksFrameSend r s.chip = []) :
    ∃ t, exec (.frameSend r) s = .next t ∧ t.chip.dev.launches.length = s.chip.dev.launches.length + 1 ∧
      t.plain = (s.onChip (fun c => c.modDev (fun d => { d with launches := t.chip.dev.launches }))).plain := by
  obtain ⟨t, hexec, -, hplain⟩ := exec_modDev (i := .frameSend r) rfl hadm
    (fun d => { d with launches := d.launches ++ [loopLaunch s.chip 99 10 r.launchTime r.body r.session] }) (fun _ _ => rfl)
    (fun g hg => (checksFrameSend_alike hg r).trans hchecks)
    (fun g hg => opOut_chip_congr ((if_pos htimed).trans (addLoopLaunch_alike hg ..)))
  have hlaunches : t.chip.dev.launches = s.chip.dev.launches ++ [loopLaunch s.chip 99 10 r.launchTime r.body r.session] :=
    (congrArg (fun t : State => t.chip.dev.launches) hplain :)
  refine ⟨t, hexec, ?_, ?_⟩
  · rw [hlaunches, List.length_append]
    rfl
  · rw [hlaunches]
    exact hplain

/-- Settles O30: each operation of the block passes the gates and has its effect on the staging stores, the claim and the queues. -/
theorem networkOperations : Obligations.NetworkOperations := by
  intro s r
  refine ⟨fun hadm hlen hquads hmax hoff hend hflag hz1 hz2 hnext hdown => scheduleLoad_effect hadm (fun g hg => ?_) hflag,
    fun hadm hbody hsched hout => netStart_asks hadm hbody hsched hout,
    fun p k hwait hpend hop hlink hsup => netStart_waits_out hwait hpend hop hlink hsup,
    fun hadm hchecks => spareClaim_starts hadm hchecks,
    fun hadm htimed hchecks => frameSend_queues hadm htimed hchecks,
    fun hadm htimed hchecks => frameSend_launches hadm htimed hchecks⟩
  exact checksScheduleLoad_of hlen hquads hmax hoff hend hflag hz1 hz2 (by rw [hg.cfg]; exact hnext) ((hg.field Dev.standdown fun _ _ => rfl).trans hdown)

end Sys2Proof.Machine

namespace Sys2Proof.Machine
open Sys2Proof


/-! ### Safety inputs and outputs under test (R406 to R409, R413 to R416, R419) -/

/-- Safety inputs and outputs with the counts and fences that verdicts of tests change of others. -/
def LaneSio.withVerdicts (x a : LaneSio) : LaneSio :=
  { x with siFails := a.siFails, inFailures := a.inFailures, siFenced := a.siFenced, tpFenced := a.tpFenced, outFailures := a.outFailures
           offFails := a.offFails, highFails := a.highFails, lowFails := a.lowFails, openFails := a.openFails }

/-- What verdicts of tests in lane l may change: records, the lane's counts and fences of inputs and outputs, and nothing in another lane. -/
structure SioJudged (l : LaneId) (c d : Chip) : Prop where
  others : ElseSame l c d
  sio : (d.lane l).sio = (c.lane l).sio.withVerdicts (d.lane l).sio
  pintle : d.pintle = c.pintle
  fresh : d.fresh = c.fresh
  pend : d.dev.pend = c.dev.pend
  replies : d.dev.replies = c.dev.replies

namespace SioJudged

variable {l : LaneId} {c d e : Chip}

theorem refl (l : LaneId) (c : Chip) : SioJudged l c c := ⟨.refl l c, rfl, rfl, rfl, rfl, rfl⟩

theorem trans (h : SioJudged l c d) (k : SioJudged l d e) : SioJudged l c e where
  others := h.others.trans k.others
  sio := by rw [k.sio, h.sio]; rfl
  pintle := k.pintle.trans h.pintle
  fresh := k.fresh.trans h.fresh
  pend := k.pend.trans h.pend
  replies := k.replies.trans h.replies

/-- A reading of the inputs and outputs that no verdict changes. -/
theorem field (h : SioJudged l c d) {α : Type} (p : LaneSio → α) (hp : ∀ x a : LaneSio, p (x.withVerdicts a) = p x) :
    p (d.lane l).sio = p (c.lane l).sio := by
  rw [h.sio]
  exact hp ..

end SioJudged

theorem modSio_sio (c : Chip) (l : LaneId) (f : LaneSio → LaneSio) : ((c.modSio l f).lane l).sio = f (c.lane l).sio :=
  congrArg Lane.sio (tri_get_set_same ..)

theorem judged_modSio (c : Chip) (l : LaneId) {f : LaneSio → LaneSio} (hf : ∀ x, f x = x.withVerdicts (f x)) : SioJudged l c (c.modSio l f) :=
  ⟨elseSame_modLane c l _, by rw [modSio_sio]; exact hf _, rfl, rfl, rfl, rfl⟩

theorem judged_modLane (c : Chip) (l : LaneId) {f : Lane → Lane} (hf : ∀ n, (f n).sio = n.sio) : SioJudged l c (c.modLane l f) where
  others := elseSame_modLane c l f
  sio := by
    have h : ((c.modLane l f).lane l).sio = (c.lane l).sio := modLane_keeps c l l f Lane.sio hf
    rw [h]
    rfl
  pintle := rfl
  fresh := rfl
  pend := rfl
  replies := rfl

theorem localFault_sio (c : Chip) (l : LaneId) (code t i lane : Nat) (k : LaneId) : ((c.localFault l code t i lane).lane k).sio = (c.lane k).sio :=
  (localFault_only ..).lanesAlike.lane k Lane.sio fun _ _ => rfl

theorem judged_localFault (c : Chip) (l : LaneId) (code t i lane : Nat) : SioJudged l c (c.localFault l code t i lane) where
  others := elseSame_localFault c l code t i lane
  sio := by
    rw [localFault_sio]
    rfl
  pintle := localFault_pintle ..
  fresh := localFault_fresh ..
  pend := (localFault_only c l code t i lane).field Dev.pend fun _ _ _ => rfl
  replies := (localFault_only c l code t i lane).field Dev.replies fun _ _ _ => rfl

theorem judged_foldl {α : Type} (l : LaneId) (f : Chip → α → Chip) (h : ∀ c x, SioJudged l c (f c x)) (xs : List α) (c : Chip) :
    SioJudged l c (xs.foldl f c) :=
  List.foldlRecOn xs f (motive := SioJudged l c) (.refl l c) fun d hd x _ => hd.trans (h d x)

/-- A fence that a lane names keeps the safety inputs and outputs that the fenced unit leaves (R429). -/
theorem ownFence_sio (c : Chip) (l : LaneId) (t i : Nat) : ((c.ownFence l t i).lane l).sio = ((c.setUnitFence l t i true).lane l).sio :=
  modLane_keeps (c.setUnitFence l t i true) l l _ Lane.sio fun _ => rfl

theorem ownFence_judged {c : Chip} {l : LaneId} {t i : Nat} (h : SioJudged l c (c.setUnitFence l t i true)) : SioJudged l c (c.ownFence l t i) :=
  h.trans (judged_modLane (c.setUnitFence l t i true) l (f := fun n => { n with
    fencedNow := if n.fencedNow.contains (t, i) then n.fencedNow else n.fencedNow ++ [(t, i)] }) fun _ => rfl)

/-- An input fenced by its lane (R409, R429). -/
theorem ownFence_input (c : Chip) (l : LaneId) (n : Nat) : SioJudged l c (c.ownFence l 0x10 n) ∧
    ((c.ownFence l 0x10 n).lane l).sio.tpFenced = (c.lane l).sio.tpFenced := by
  refine ⟨ownFence_judged (judged_modSio c l (f := fun x => { x with siFenced := setBit x.siFenced n true }) fun _ => rfl), ?_⟩
  rw [ownFence_sio]
  exact (congrArg LaneSio.tpFenced (modSio_sio c l (fun x => { x with siFenced := setBit x.siFenced n true })) :)

/-- A supply fenced by its lane (R409, R429). -/
theorem ownFence_supply (c : Chip) (l : LaneId) (k : Nat) : SioJudged l c (c.ownFence l 0x11 k) ∧
    ((c.ownFence l 0x11 k).lane l).sio.tpFenced = setBit (c.lane l).sio.tpFenced k true := by
  refine ⟨ownFence_judged (judged_modSio c l (f := fun x => { x with tpFenced := setBit x.tpFenced k true }) fun _ => rfl), ?_⟩
  rw [ownFence_sio]
  exact (congrArg LaneSio.tpFenced (modSio_sio c l (fun x => { x with tpFenced := setBit x.tpFenced k true })) :)

theorem fenceInputs_tpFenced (l : LaneId) (ns : List Nat) (c : Chip) :
    ((ns.foldl (fun c n => c.ownFence l 0x10 n) c).lane l).sio.tpFenced = (c.lane l).sio.tpFenced :=
  foldl_keeps (fun c => (c.lane l).sio.tpFenced) _ (fun c n => (ownFence_input c l n).2) ns c

/-- A fenced supply is marked so, and so are the inputs on it (R409). -/
theorem fenceSupply_fences (c : Chip) (l : LaneId) {k : Nat} (hk : k < 8) :
    SioJudged l c (c.fenceSupply l k) ∧ hasBit ((c.fenceSupply l k).lane l).sio.tpFenced k = true := by
  have hfault := judged_localFault c l 0x2404 0x11 k l.idx
  unfold Chip.fenceSupply
  split
  · rename_i h
    refine ⟨hfault, ?_⟩
    rw [localFault_sio]
    exact h
  · obtain ⟨hown, hbit⟩ := ownFence_supply (c.localFault l 0x2404 0x11 k l.idx) l k
    refine ⟨(hfault.trans hown).trans (judged_foldl l _ (fun d n => (ownFence_input d l n).1) _ _), ?_⟩
    dsimp only
    rw [fenceInputs_tpFenced, hbit, hasBit_setBit hk, if_pos rfl]

/-- The fault of an input's verdict, counted (R408). -/
def Chip.noteInput (c : Chip) (l : LaneId) (n : Nat) (v : Option Nat) : Chip :=
  match v with
  | some code => (c.localFault l code 0x10 n l.idx).modSio l (fun x => { x with inFailures := satInc 65535 x.inFailures })
  | none => c

/-- An input's run of failures in the pulses of its own source (R409). -/
def Chip.runInput (c : Chip) (l : LaneId) (n : Nat) (fail : Bool) : Chip :=
  c.modSio l (fun x => { x with siFails := countRun x.siFails n fail })

theorem takeInput_eq (c : Chip) (l : LaneId) (k n : Nat) (v : Option Nat) : c.takeInput l k n v =
    if decide (c.par Par.sioSiSrc n = (k : Int) + 1) then
      (if ((c.noteInput l n v).runInput l n v.isSome).parN Par.sioInLimit ≤ nth (((c.noteInput l n v).runInput l n v.isSome).lane l).sio.siFails n 0 ∧
          hasBit (((c.noteInput l n v).runInput l n v.isSome).lane l).sio.siFenced n = false then
        (((c.noteInput l n v).runInput l n v.isSome).localFault l 0x2403 0x10 n l.idx).ownFence l 0x10 n
      else (c.noteInput l n v).runInput l n v.isSome)
    else c.noteInput l n v := by
  cases v <;> rfl

theorem takeInput_judged (c : Chip) (l : LaneId) (k n : Nat) (v : Option Nat) : SioJudged l c (c.takeInput l k n v) := by
  have hnote : SioJudged l c (c.noteInput l n v) := by
    cases v with
    | none => exact .refl l c
    | some code => exact (judged_localFault c l code 0x10 n l.idx).trans (judged_modSio _ l (f := fun x => { x with
        inFailures := satInc 65535 x.inFailures }) fun _ => rfl)
  have hrun : SioJudged l c ((c.noteInput l n v).runInput l n v.isSome) := hnote.trans (judged_modSio _ l (f := fun x => { x with
    siFails := countRun x.siFails n v.isSome }) fun _ => rfl)
  rw [takeInput_eq]
  split
  · split
    · exact (hrun.trans (judged_localFault ..)).trans (ownFence_input _ l n).1
    · exact hrun
  · exact hnote

/-- A ball that stayed high, or was low before, fences the supply; else each input has its verdict (R408, R409). -/
theorem judgePulse_fails {c : Chip} {l : LaneId} {k : Nat} {p : PulseReading} (h : p.ballEnd = true ∨ p.ballBefore = false) :
    c.judgePulse l k p = (0, 0, false, c.fenceSupply l k) := by
  have hinjected : (c.injectedPulse l k p).ballEnd || !(c.injectedPulse l k p).ballBefore := by
    unfold Chip.injectedPulse
    split
    · rfl
    · rcases h with h | h <;> rw [h]
      · rfl
      · exact Bool.or_true _
  unfold Chip.judgePulse
  exact if_pos hinjected

/-- The verdicts on the inputs at the end of a pulse (R408). -/
def Chip.inputVerdicts (c : Chip) (k : Nat) (p : PulseReading) : List (Nat × Option Nat) :=
  (List.range 8).map (fun n => (n, judgeInput (c.par Par.sioSiSrc n) k (hasBit p.siBefore n) (hasBit p.siEnd n)))

theorem judgePulse_chip (c : Chip) (l : LaneId) (k : Nat) (p : PulseReading) : (c.judgePulse l k p).2.2.2 =
    if (c.injectedPulse l k p).ballEnd || !(c.injectedPulse l k p).ballBefore then c.fenceSupply l k
    else (c.inputVerdicts k (c.injectedPulse l k p)).foldl (fun c v => c.takeInput l k v.1 v.2) c := by
  unfold Chip.judgePulse Chip.inputVerdicts
  dsimp only
  by_cases h : ((c.injectedPulse l k p).ballEnd || !(c.injectedPulse l k p).ballBefore) = true
  · rw [if_pos h, if_pos h]
  · rw [if_neg h, if_neg h]

theorem judgePulse_judged (c : Chip) (l : LaneId) {k : Nat} (hk : k < 8) (p : PulseReading) : SioJudged l c (c.judgePulse l k p).2.2.2 := by
  rw [judgePulse_chip]
  split
  · exact (fenceSupply_fences c l hk).1
  · exact judged_foldl l (fun d (v : Nat × Option Nat) => d.takeInput l k v.1 v.2) (fun d v => takeInput_judged d l k v.1 v.2) _ c

/-! #### Verdicts on the outputs (R413, R414, R416) -/

theorem lateFence_judged (c : Chip) (l : LaneId) (code t i : Nat) : SioJudged l c (c.lateFence l code t i) ∧
    ((c.lateFence l code t i).lane l).sio = (c.lane l).sio := by
  unfold Chip.lateFence
  split
  · exact ⟨.refl l c, rfl⟩
  · have hname := judged_modLane (c.localFault l code t i l.idx) l (f := fun n => { n with fencedNow := n.fencedNow ++ [(t, i)] }) fun _ => rfl
    refine ⟨(judged_localFault ..).trans hname, ?_⟩
    exact (modLane_keeps (c.localFault l code t i l.idx) l l (fun n => { n with fencedNow := n.fencedNow ++ [(t, i)] }) Lane.sio fun _ => rfl).trans
      (localFault_sio ..)

theorem outFault_judged (c : Chip) (l : LaneId) (code t i : Nat) : SioJudged l c (c.outFault l code t i) :=
  (judged_localFault c l code t i l.idx).trans (judged_modSio _ l (f := fun x => { x with outFailures := satInc 65535 x.outFailures }) fun _ => rfl)

/-- The counts of an output's kind of failure after a judgement (R416). -/
def LaneSio.judged (x : LaneSio) (n code : Nat) (fail : Bool) : LaneSio :=
  match code with
  | 0x2405 => { x with offFails := countRun x.offFails n fail }
  | 0x2407 => { x with highFails := countRun x.highFails n fail }
  | 0x2408 => { x with lowFails := countRun x.lowFails n fail }
  | _ => { x with openFails := countRun x.openFails n fail }

theorem judged_withVerdicts (x : LaneSio) (n code : Nat) (fail : Bool) : x.judged n code fail = x.withVerdicts (x.judged n code fail) := by
  unfold LaneSio.judged
  split <;> rfl

/-- The run of failures of an output's kind (R416). -/
def LaneSio.failRun (x : LaneSio) (n code : Nat) : Nat :=
  match code with
  | 0x2405 => nth x.offFails n 0
  | 0x2407 => nth x.highFails n 0
  | 0x2408 => nth x.lowFails n 0
  | _ => nth x.openFails n 0

/-- The chip with a judgement of an output counted (R416, R420). -/
def Chip.countOut (c : Chip) (l : LaneId) (n code : Nat) (fail : Bool) : Chip :=
  (if fail then c.outFault l code 0x12 n else c).modSio l (fun x => x.judged n code fail)

/-- A judgement counts, and at the limit names a fence (R416). -/
theorem judgeOut_eq (c : Chip) (l : LaneId) (n code : Nat) (fail : Bool) : c.judgeOut l n code fail =
    if (c.countOut l n code fail).parN Par.sioOutLimit ≤ ((c.countOut l n code fail).lane l).sio.failRun n code then
      (if code = 0x2405 ∨ code = 0x2407 then (c.countOut l n code fail).lateFence l 0x240B 0x13 0
        else (c.countOut l n code fail).lateFence l 0x240A 0x12 n)
    else c.countOut l n code fail := rfl

theorem judgeOut_judged (c : Chip) (l : LaneId) (n code : Nat) (fail : Bool) : SioJudged l c (c.judgeOut l n code fail) ∧
    ((c.judgeOut l n code fail).lane l).sio = ((if fail then c.outFault l code 0x12 n else c).lane l).sio.judged n code fail := by
  have hfault : SioJudged l c (if fail then c.outFault l code 0x12 n else c) := by
    cases fail with
    | false => exact .refl l c
    | true => exact outFault_judged ..
  have hcount : SioJudged l c (c.countOut l n code fail) := hfault.trans (judged_modSio _ l fun x => judged_withVerdicts x n code fail)
  have hsio := modSio_sio (if fail then c.outFault l code 0x12 n else c) l (fun x => x.judged n code fail)
  have hlate (k t i : Nat) : SioJudged l c ((c.countOut l n code fail).lateFence l k t i) ∧
      (((c.countOut l n code fail).lateFence l k t i).lane l).sio = ((if fail then c.outFault l code 0x12 n else c).lane l).sio.judged n code fail := by
    obtain ⟨hstep, hkeep⟩ := lateFence_judged (c.countOut l n code fail) l k t i
    exact ⟨hcount.trans hstep, hkeep.trans hsio⟩
  rw [judgeOut_eq]
  split
  · split
    · exact hlate ..
    · exact hlate ..
  · exact ⟨hcount, hsio⟩

end Sys2Proof.Machine

namespace Sys2Proof.Machine
open Sys2Proof


/-! #### Test pulses, overcurrent and off-pulses as events (R406 to R409, R413 to R415) -/

theorem testPulseEnd_fails {s : State} {l : LaneId} {k : Fin 2} {p : PulseReading} (hruns : s.chip.runs l = true)
    (hpulse : hasBit (s.chip.lane l).sio.tpPulse k.val = true) (hfail : p.ballEnd = true ∨ p.ballBefore = false) :
    ∃ t, exec (.testPulseEnd l k p) s = .next t ∧ hasBit (t.chip.lane l).sio.tpPulse k.val = false ∧
      hasBit (t.chip.lane l).sio.tpFenced k.val = true ∧ t.mem = s.mem ∧ t.chip.pintle = s.chip.pintle ∧
      ∀ j, j ≠ l → t.chip.lanes.get j = s.chip.lanes.get j := by
  have hk : k.val < 8 := lt_trans k.isLt (by norm_num)
  have hexec : exec (.testPulseEnd l k p) s = .next (s.onLane l (testPulseEnd l k.val p)) := rfl
  rw [onLane_of_runs hruns, onChip_congr (f := testPulseEnd l k.val p) (g := fun c =>
    ((c.modSio l (fun x => { x with tpPulse := setBit x.tpPulse k.val false })).judgePulse l k.val p).2.2.2) (if_pos hpulse)] at hexec
  have hsio := modSio_sio s.chip l (fun x => { x with tpPulse := setBit x.tpPulse k.val false })
  have hend : ((s.chip.modSio l (fun x => { x with tpPulse := setBit x.tpPulse k.val false })).judgePulse l k.val p).2.2.2 =
      (s.chip.modSio l (fun x => { x with tpPulse := setBit x.tpPulse k.val false })).fenceSupply l k.val :=
    congrArg (fun x : Mask × Mask × Bool × Chip => x.2.2.2) (judgePulse_fails hfail)
  obtain ⟨hjudged, hfenced⟩ := fenceSupply_fences (s.chip.modSio l (fun x => { x with tpPulse := setBit x.tpPulse k.val false })) l hk
  rw [← hend] at hjudged hfenced
  refine ⟨_, hexec, ?_, hfenced, rfl, hjudged.pintle, fun j hj => ?_⟩
  · refine (hjudged.field (fun x => hasBit x.tpPulse k.val) fun _ _ => rfl).trans ?_
    rw [hsio]
    exact (hasBit_setBit hk).trans (if_pos rfl)
  · exact (hjudged.others j hj).trans (elseSame_modLane s.chip l _ j hj)

theorem tpOverload_trips {s : State} {l : LaneId} {k : Fin 2} (hon : hasBit (s.chip.lane l).sio.tpOn k.val = true) :
    ∃ t, exec (.tpOverload l k) s = .next t ∧ hasBit (t.chip.lane l).sio.tpOn k.val = false ∧
      hasBit (t.chip.lane l).sio.tpFenced k.val = true ∧ t.mem = s.mem ∧ t.chip.pintle = s.chip.pintle ∧
      ∀ j, j ≠ l → t.chip.lanes.get j = s.chip.lanes.get j := by
  have hk : k.val < 8 := lt_trans k.isLt (by norm_num)
  have hexec : exec (.tpOverload l k) s = .next (s.onChip (tpOverload l k.val)) := rfl
  rw [onChip_congr (f := tpOverload l k.val) (g := fun c => (c.fenceSupply l k.val).modSio l (fun x => { x with
    tpOn := setBit x.tpOn k.val false, tpPulse := setBit x.tpPulse k.val false })) (if_pos hon)] at hexec
  obtain ⟨hjudged, hfenced⟩ := fenceSupply_fences s.chip l hk
  have hsio := modSio_sio (s.chip.fenceSupply l k.val) l (fun x => { x with tpOn := setBit x.tpOn k.val false, tpPulse := setBit x.tpPulse k.val false })
  refine ⟨_, hexec, ?_, ?_, rfl, hjudged.pintle, fun j hj => ?_⟩
  · exact (congrArg (fun x => hasBit x.tpOn k.val) hsio).trans ((hasBit_setBit hk).trans (if_pos rfl))
  · exact (congrArg (fun x => hasBit x.tpFenced k.val) hsio).trans hfenced
  · exact (elseSame_modLane (s.chip.fenceSupply l k.val) l _ j hj).trans (hjudged.others j hj)

theorem soOvercurrent_latches {s : State} {l : LaneId} {n : Fin 4} (hon : (s.chip.lane l).sio.on n.val = true) :
    ∃ t, exec (.soOvercurrent l n) s = .next t ∧
      hasBit (t.chip.lane l).sio.soTrip n.val = true ∧ (t.chip.lane l).sio.on n.val = false ∧
      (t.chip.lane l).sio.soOn = (s.chip.lane l).sio.soOn ∧ t.mem = s.mem ∧ t.chip.pintle = s.chip.pintle ∧
      ∀ j, j ≠ l → t.chip.lanes.get j = s.chip.lanes.get j := by
  have hn : n.val < 8 := lt_trans n.isLt (by norm_num)
  have hexec : exec (.soOvercurrent l n) s = .next (s.onChip (soOvercurrent l n.val)) := rfl
  rw [onChip_congr (f := soOvercurrent l n.val) (g := fun c => (c.modSio l (fun x => { x with soTrip := setBit x.soTrip n.val true })).judgeOut
    l n.val 0x2408 true) (if_pos hon)] at hexec
  have hsio := modSio_sio s.chip l (fun x => { x with soTrip := setBit x.soTrip n.val true })
  obtain ⟨hjudged, -⟩ := judgeOut_judged (s.chip.modSio l (fun x => { x with soTrip := setBit x.soTrip n.val true })) l n.val 0x2408 true
  have htrip : hasBit ((s.chip.modSio l (fun x => { x with soTrip := setBit x.soTrip n.val true })).lane l).sio.soTrip n.val = true := by
    rw [hsio]
    exact (hasBit_setBit hn).trans (if_pos rfl)
  refine ⟨_, hexec, ?_, ?_, ?_, rfl, hjudged.pintle, fun j hj => (hjudged.others j hj).trans (elseSame_modLane s.chip l _ j hj)⟩
  · exact (hjudged.field (fun x => hasBit x.soTrip n.val) fun _ _ => rfl).trans htrip
  · refine (hjudged.field (fun x => x.on n.val) fun _ _ => rfl).trans ?_
    rw [LaneSio.on, htrip]
    simp
  · exact (hjudged.field LaneSio.soOn fun _ _ => rfl).trans (congrArg LaneSio.soOn hsio :)

theorem offPulseStart_of {c : Chip} {l : LaneId} {n : Nat} (hformed : c.dev.formed = true) (hauth : c.inAuth l = true)
    (hfence : (c.lane l).boot.fenced = false) (hdue : c.pulseDue l = some n) (hn : n < 4) (hon : (c.lane l).sio.on n = true)
    (hclear : c.pulseMeetsLaunch n = false) : offPulseStart l c = c.modSio l (fun x => { x with offPulse := some n }) := by
  unfold offPulseStart
  rw [hformed, hauth, hfence, hdue]
  dsimp only
  rw [if_neg (by decide), if_neg (by omega), if_pos hon, hclear]
  rfl

theorem readLevel_low {c : Chip} {mv : Nat} (h : mv < 2000) : c.readLevel mv = (false, c) := by
  unfold Chip.readLevel
  rw [if_neg (by omega), if_pos h]

theorem offPulseEnd_of {c : Chip} {l : LaneId} {n : Nat} {mv : List Nat} (hpulse : (c.lane l).sio.offPulse = some n) (hn : n < 4)
    (hlow : nth mv n 0 < 2000) : offPulseEnd l mv c = (c.modSio l (fun x => { x with offPulse := none })).judgeOut l n 0x2405 false := by
  unfold offPulseEnd
  rw [hpulse]
  dsimp only
  rw [if_neg (by omega), if_pos hn, readLevel_low hlow]

theorem offPulseEnd_passes {s : State} {l : LaneId} {n : Nat} {mv : List Nat} (hruns : s.chip.runs l = true)
    (hpulse : (s.chip.lane l).sio.offPulse = some n) (hn : n < 4) (hlow : nth mv n 0 < 2000) :
    ∃ t, exec (.offPulseEnd l mv) s = .next t ∧ (t.chip.lane l).sio.offPulse = none ∧
      (t.chip.lane l).sio.offFails = modNth (s.chip.lane l).sio.offFails n (fun _ => 0) ∧ (t.chip.lane l).sio.soOn = (s.chip.lane l).sio.soOn ∧
      t.mem = s.mem ∧ t.chip.pintle = s.chip.pintle ∧ t.chip.fresh = s.chip.fresh ∧ ∀ j, j ≠ l → t.chip.lanes.get j = s.chip.lanes.get j := by
  have hexec : exec (.offPulseEnd l mv) s = .next (s.onLane l (offPulseEnd l mv)) := rfl
  rw [onLane_of_runs hruns, onChip_congr (f := offPulseEnd l mv) (g := fun c => (c.modSio l (fun x => { x with offPulse := none })).judgeOut l n 0x2405 false)
    (offPulseEnd_of hpulse hn hlow)] at hexec
  have hsio := modSio_sio s.chip l (fun x => { x with offPulse := none })
  obtain ⟨hjudged, hcount⟩ := judgeOut_judged (s.chip.modSio l (fun x => { x with offPulse := none })) l n 0x2405 false
  refine ⟨_, hexec, ?_, ?_, ?_, rfl, hjudged.pintle, hjudged.fresh, fun j hj => (hjudged.others j hj).trans (elseSame_modLane s.chip l _ j hj)⟩
  · exact (hjudged.field LaneSio.offPulse fun _ _ => rfl).trans (congrArg LaneSio.offPulse hsio :)
  · refine (congrArg LaneSio.offFails hcount).trans ?_
    exact (congrArg (fun x : LaneSio => countRun x.offFails n false) hsio :)
  · exact (hjudged.field LaneSio.soOn fun _ _ => rfl).trans (congrArg LaneSio.soOn hsio :)

/-! #### Requested pulse tests (R419) -/

theorem pulseTest_waits {s : State} {r : Req} (hadm : s.admits attrPulseTest r = true) (hbody : r.body = []) (hact : s.chip.dev.actuation = false) :
    ∃ t, exec (.pulseTest r) s = .next t ∧ t.plain = (s.onChip (fun c => c.addPend 0x2411 r
      { lanes := r.lanes.foldl (fun m j => setLaneBit m j true) 0 })).plain := by
  obtain ⟨g, halike, -, hexec⟩ := exec_of_admits (i := .pulseTest r) rfl hadm
  have hchecks : checksPulseTest r g.chip = [] := by
    rw [checksPulseTest, hbody, (halike.field Dev.actuation fun _ _ => rfl).trans hact]
    rfl
  have hchip : g.chip.plain = s.chip.plain := congrArg State.chip halike.plain
  refine ⟨_, hexec hchecks, (finish_plain ..).trans (plain_of_chip halike ?_)⟩
  rw [pend_addPend_plain, pend_addPend_plain]
  exact modDev_plain_congr hchip _ fun _ => rfl

/-- The chip of a running test of supplies. -/
def testedChip (x : Mask × Mask × Mask × Bool × Chip) : Chip := x.2.2.2.2

theorem testSupply_judged (l : LaneId) (x : Mask × Mask × Mask × Bool × Chip) {e : Nat × PulseReading} (he : e.1 < 8) :
    SioJudged l (testedChip x) (testedChip (testSupply l x e)) := by
  obtain ⟨passed, failed, tps, ran, c⟩ := x
  have hjudged := judgePulse_judged c l he e.2
  unfold testSupply
  dsimp only
  split
  · exact hjudged
  · exact .refl l c

theorem testSlots_judged (l : LaneId) (high : Mask) (c : Chip) : SioJudged l c (testSlots l high c).2.2 := by
  unfold testSlots
  refine List.foldlRecOn _ _ (motive := fun x : Mask × Mask × Chip => SioJudged l c x.2.2) (.refl l c) fun x hx n _ => ?_
  dsimp only
  split
  · exact hx.trans (judgeOut_judged x.2.2 l n 0x2409 (hasBit high n)).1
  · exact hx

/-- A lane's results go into its inputs' and outputs' status, and its part into the operation that waits (R419). -/
theorem pulseTestDone_judged {c : Chip} {l : LaneId} (tp0 tp1 : PulseReading) (high : Mask)
    (h : c.dev.pend.any (fun p => p.opcode == 0x2411 && hasLane p.lanes l && (p.results.get l).isNone) = true) :
    ∃ (d : Chip) (quad : Nat) (f : LaneSio → LaneSio), SioJudged l c d ∧ (∀ x, (f x).soOn = x.soOn) ∧
      pulseTestDone l tp0 tp1 high c = (d.modSio l f).pulseResult l quad := by
  have hsupplies : SioJudged l c (testedChip ([(0, tp0), (1, tp1)].foldl (testSupply l) (0, 0, 0, false, c))) :=
    (testSupply_judged l (0, 0, 0, false, c) (e := (0, tp0)) (by norm_num)).trans (testSupply_judged l _ (e := (1, tp1)) (by norm_num))
  unfold pulseTestDone
  rw [if_pos h]
  generalize [(0, tp0), (1, tp1)].foldl (testSupply l) (0, 0, 0, false, c) = x at hsupplies
  obtain ⟨passed, failed, tps, ran, d⟩ := x
  have hslots := testSlots_judged l high d
  dsimp only
  generalize testSlots l high d = y at hslots
  obtain ⟨tested, bad, e⟩ := y
  refine ⟨e, _, _, SioJudged.trans hsupplies hslots, ?_, rfl⟩
  exact fun _ => rfl

/-- A lane's part of the pending operations that a test picks; the reply of one follows with its last part (R64). -/
def Chip.takePart (c : Chip) (l : LaneId) (part : Nat) (test : PendOp → Bool) (st : PendOp → Nat) (data : PendOp → List Byte) : Chip :=
  (c.dev.pend.filter test).foldl (fun c p =>
    let q := { p with results := p.results.set l (some part) }
    let c := c.modDev (fun d => { d with pend := d.pend.map (fun x => if x = p then q else x) })
    if (lanesOf q.lanes).all (fun k => (q.results.get k).isSome) then c.finalReply q (st q) (data q) else c) c

/-- The part of the last lane gives the one waiting operation its reply. -/
theorem takePart_replies {c : Chip} {l k : LaneId} {p : PendOp} (hpend : c.dev.pend = [p]) (hlanes : lanesOf p.lanes = [l]) (hlink : p.link = some k)
    {test : PendOp → Bool} (htest : test p = true) (part : Nat) (st : PendOp → Nat) (data : PendOp → List Byte)
    (hsup : ∀ d : Chip, d.suppressed p.session p.suppress (st { p with results := p.results.set l (some part) }) = false) :
    ∃ q : OutPacket, (c.takePart l part test st data).dev.pend = [] ∧ (c.takePart l part test st data).dev.replies = c.dev.replies ++ [(k, q)] ∧
      q.status = st { p with results := p.results.set l (some part) } ∧
      (p.session = 0 → q.payload = data { p with results := p.results.set l (some part) }) ∧ Noted c (c.takePart l part test st data) := by
  let q : PendOp := { p with results := p.results.set l (some part) }
  have hresult : c.takePart l part test st data = (c.modDev (fun d => { d with pend := [q] })).finalReply q (st q) (data q) := by
    have hfilter : c.dev.pend.filter test = [p] := by
      rw [hpend]
      exact List.filter_cons_of_pos htest
    have hmap : c.dev.pend.map (fun x => if x = p then q else x) = [q] := by
      rw [hpend, List.map_singleton, if_pos rfl]
    have hall : (lanesOf q.lanes).all (fun k => (q.results.get k).isSome) = true := by
      have hq : lanesOf q.lanes = [l] := hlanes
      rw [hq, List.all_cons, List.all_nil, Bool.and_true]
      exact congrArg Option.isSome (tri_get_set_same p.results l (some part))
    unfold Chip.takePart
    rw [hfilter, List.foldl_cons, List.foldl_nil]
    refine (if_pos hall).trans ?_
    exact congrArg (fun xs => (c.modDev (fun d => { d with pend := xs })).finalReply q (st q) (data q)) hmap
  obtain ⟨r, hrep, hpend', -, hst, hpay⟩ := finalReply_link (c := c.modDev (fun d => { d with pend := [q] })) (p := q) hlink hsup (data q)
  rw [hresult]
  exact ⟨r, hpend'.trans (List.erase_cons_head ..), hrep, hst, hpay, (noted_modDev rfl).trans (noted_finalReply ..)⟩

theorem hasLane_of_lanesOf {m : Mask} {l : LaneId} (h : lanesOf m = [l]) : hasLane m l = true := by
  have hmem : l ∈ lanesOf m := by rw [h]; exact List.mem_singleton_self l
  exact (List.mem_filter.1 hmem).2

/-- The pulse test that waits for a lane's results (R419). -/
def awaitsPulse (l : LaneId) (p : PendOp) : Bool := p.opcode == 0x2411 && hasLane p.lanes l && (p.results.get l).isNone

theorem pulseResult_eq (c : Chip) (l : LaneId) (quad : Nat) : c.pulseResult l quad = c.takePart l quad (awaitsPulse l) (fun _ => stOk) (fun q =>
    (lanesOf q.lanes).flatMap (fun k => toLe 16 ((q.results.get k).getD 0))) := rfl

theorem awaitsPulse_of {l : LaneId} {p : PendOp} (hop : p.opcode = 0x2411) (hlanes : lanesOf p.lanes = [l]) (hnone : p.results.get l = none) :
    awaitsPulse l p = true := by
  rw [awaitsPulse, hop, hnone, hasLane_of_lanesOf hlanes]
  rfl

/-- The results of the last lane give the one waiting operation its reply, a quad for each of its lanes (R419). -/
theorem pulseResult_replies {c : Chip} {l k : LaneId} {p : PendOp} (hpend : c.dev.pend = [p]) (hop : p.opcode = 0x2411) (hlanes : lanesOf p.lanes = [l])
    (hnone : p.results.get l = none) (hlink : p.link = some k) (hsup : p.suppress = false) (quad : Nat) :
    ∃ q : OutPacket, (c.pulseResult l quad).dev.pend = [] ∧ (c.pulseResult l quad).dev.replies = c.dev.replies ++ [(k, q)] ∧ q.status = 0 ∧
      (p.session = 0 → q.payload.length = 16) ∧ Noted c (c.pulseResult l quad) := by
  obtain ⟨q, hp, hrep, hst, hpay, hnoted⟩ := takePart_replies hpend hlanes hlink (awaitsPulse_of hop hlanes hnone) quad (fun _ => stOk) (fun q =>
    (lanesOf q.lanes).flatMap (fun k => toLe 16 ((q.results.get k).getD 0))) (fun d => by rw [Chip.suppressed, hsup]; rfl)
  rw [pulseResult_eq]
  refine ⟨q, hp, hrep, hst, fun h0 => ?_, hnoted⟩
  rw [hpay h0, hlanes]
  simp

theorem modSio_congr {c : Chip} {l : LaneId} {f g : LaneSio → LaneSio} (h : f (c.lane l).sio = g (c.lane l).sio) : c.modSio l f = c.modSio l g :=
  modLane_congr_at (congrArg (fun x => { c.lane l with sio := x }) h)

theorem pulseTestDone_replies {s : State} {l k : LaneId} {p : PendOp} (tp0 tp1 : PulseReading) (ol : Mask) (hpend : s.chip.dev.pend = [p])
    (hop : p.opcode = 0x2411) (hlanes : lanesOf p.lanes = [l]) (hnone : p.results.get l = none) (hlink : p.link = some k) (hsup : p.suppress = false) :
    ∃ t q, exec (.pulseTestDone l tp0 tp1 ol) s = .next t ∧ t.chip.dev.pend = [] ∧
      t.chip.dev.replies = s.chip.dev.replies ++ [(k, q)] ∧ q.status = 0 ∧ (p.session = 0 → q.payload.length = 16) ∧
      (t.chip.lane l).sio.soOn = (s.chip.lane l).sio.soOn ∧ t.mem = s.mem ∧ t.chip.pintle = s.chip.pintle := by
  have hexec : exec (.pulseTestDone l tp0 tp1 ol) s = .next (s.onChip (pulseTestDone l tp0 tp1 ol)) := rfl
  have hpicked : s.chip.dev.pend.any (awaitsPulse l) = true := by
    rw [hpend, List.any_cons, awaitsPulse_of hop hlanes hnone]
    rfl
  obtain ⟨d, quad, f, hjudged, hf, heq⟩ := pulseTestDone_judged tp0 tp1 ol hpicked
  rw [onChip_congr (f := pulseTestDone l tp0 tp1 ol) (g := fun _ => (d.modSio l f).pulseResult l quad) heq] at hexec
  have hd : (d.modSio l f).dev.pend = [p] := hjudged.pend.trans hpend
  obtain ⟨q, hp, hrep, hst, hpay, hnoted⟩ := pulseResult_replies hd hop hlanes hnone hlink hsup quad
  have hreplies : (d.modSio l f).dev.replies = s.chip.dev.replies := hjudged.replies
  refine ⟨_, q, hexec, hp, hrep.trans (by rw [hreplies]), hst, hpay, ?_, rfl, hnoted.pintle.trans hjudged.pintle⟩
  calc _ = ((d.modSio l f).lane l).sio.soOn := hnoted.lanes.lane l (fun n => n.sio.soOn) fun _ _ => rfl
    _ = (f (d.lane l).sio).soOn := by rw [modSio_sio]
    _ = (d.lane l).sio.soOn := hf _
    _ = _ := hjudged.field LaneSio.soOn fun _ _ => rfl

/-- Settles O19: test pulses, the filter, off-pulses and requested tests change their lane's inputs and outputs as the rules say. -/
theorem safetyInputsAndOutputsAreTested : Obligations.SafetyInputsAndOutputsAreTested := by
  refine ⟨fun s l k => ⟨fun hformed hon hoff hcount => ?_, fun n v held hruns hheld => ⟨fun hhold => ?_, fun hhold => ?_⟩, fun n v held hheld => ?_,
    fun hruns hhold hpulse => ?_, fun p hruns hpulse hfail => testPulseEnd_fails hruns hpulse hfail, fun hon => tpOverload_trips hon⟩,
    fun s l => ⟨fun n hon => soOvercurrent_latches hon, fun n hformed hauth hfence hdue hn hon hclear => ?_,
      fun n mv hruns hpulse hn hlow => offPulseEnd_passes hruns hpulse hn hlow, fun r hadm hbody hact => pulseTest_waits hadm hbody hact,
      fun tp0 tp1 ol p j hpend hop hlanes hnone hlink hsup => pulseTestDone_replies tp0 tp1 ol hpend hop hlanes hnone hlink hsup⟩⟩
  · exact next_congr (onChip_congr (f := testPulseStart l k.val) (if_pos ⟨hformed, hon, hoff, hcount⟩))
  · have hexec : exec (.siLevelAccepted l n v held) s = .next (s.onLane l (siLevelAccepted l n.val v held)) := rfl
    rw [hexec, onLane_of_runs hruns]
    refine next_congr (onChip_congr (f := siLevelAccepted l n.val v held) ((if_neg (not_lt.2 hheld)).trans ?_))
    exact modSio_congr (if_pos hhold)
  · have hexec : exec (.siLevelAccepted l n v held) s = .next (s.onLane l (siLevelAccepted l n.val v held)) := rfl
    rw [hexec, onLane_of_runs hruns]
    refine next_congr (onChip_congr (f := siLevelAccepted l n.val v held) ((if_neg (not_lt.2 hheld)).trans ?_))
    exact modSio_congr (if_neg (ne_true_of_eq_false hhold))
  · have hexec : exec (.siLevelAccepted l n v held) s = .next (s.onLane l (siLevelAccepted l n.val v held)) := rfl
    rw [hexec]
    refine next_congr ?_
    unfold State.onLane
    split
    · exact onChip_congr (f := siLevelAccepted l n.val v held) (g := id) (if_pos hheld)
    · rfl
  · have hexec : exec (.pulseRecoverEnd l) s = .next (s.onLane l (pulseRecoverEnd l)) := rfl
    have hcond : ((s.chip.lane l).sio.hold && (s.chip.lane l).sio.tpPulse == 0#8) = true := by
      rw [hhold, hpulse]
      rfl
    rw [hexec, onLane_of_runs hruns]
    have hend : pulseRecoverEnd l s.chip = s.chip.modSio l (fun x => { x with hold := false, si := x.siNext }) := modSio_congr (if_pos hcond)
    exact next_congr (onChip_congr (f := pulseRecoverEnd l) hend)
  · exact next_congr (onChip_congr (f := offPulseStart l) (offPulseStart_of hformed hauth hfence hdue hn hon hclear))

end Sys2Proof.Machine

namespace Sys2Proof.Machine
open Sys2Proof


/-! ### Service fencing, readmission and evidence about partners (R13, R432, R433, R440, R442, R443) -/

theorem linkAt_modLink_same (c : Chip) {k : Nat} (hk : k < 3) (f : LaneLink → LaneLink) : (c.modLink k f).linkAt k = f (c.linkAt k) := by
  unfold Chip.linkAt Chip.modLink
  cases hl : LaneId.ofIdx k with
  | none => exact absurd hl (by interval_cases k <;> decide)
  | some l => exact tri_get_set_same ..

theorem linkAt_congr {c d : Chip} (h : d.links = c.links) (k : Nat) : d.linkAt k = c.linkAt k := by rw [Chip.linkAt, Chip.linkAt, h]

/-- A pending fence changes the agreed data only. -/
theorem pendFence_devOnly (c : Chip) (l : LaneId) (code : Nat) : c.pendFence l code = { c with dev := (c.pendFence l code).dev } := by
  unfold Chip.pendFence
  split <;> rfl

/-- The rules of fenced links change the agreed data only (R15, R16). -/
theorem linkRules_devOnly (c : Chip) : c.linkRules = { c with dev := c.linkRules.dev } := by
  have hfold : LaneId.all.foldl (fun c l =>
      if c.inAuth l && (l.partners.all (fun p => (c.linkAt (linkIdx l p)).fenced)) then c.pendFence l 0x0108 else c) c = { c with
        dev := (LaneId.all.foldl (fun c l =>
          if c.inAuth l && (l.partners.all (fun p => (c.linkAt (linkIdx l p)).fenced)) then c.pendFence l 0x0108 else c) c).dev } := by
    refine List.foldlRecOn _ _ (motive := fun d : Chip => d = { c with dev := d.dev }) rfl fun d hd l _ => ?_
    split
    · rw [pendFence_devOnly, hd]
    · exact hd
  unfold Chip.linkRules
  dsimp only
  split
  · split
    · rw [pendFence_devOnly, hfold]
    · exact hfold
  · exact hfold

/-- A fenced link is unused and marked; the lanes and the die stay (R13). -/
theorem fenceLink_fences {c : Chip} {k : Nat} (hk : k < 3) (h : (c.linkAt k).fenced = false) :
    (c.fenceLink k).linkAt k = { c.linkAt k with fenced := true, out := {}, back := {} } ∧ (c.fenceLink k).pintle = c.pintle ∧
      (c.fenceLink k).bridges = c.bridges := by
  have hrules := linkRules_devOnly ((c.modLink k (fun x => { x with fenced := true, out := {}, back := {} })).agreedFault 0x0107 0x02 k 0xFF)
  have hfence : c.fenceLink k = ((c.modLink k (fun x => { x with fenced := true, out := {}, back := {} })).agreedFault 0x0107 0x02 k 0xFF).linkRules :=
    if_neg (by rw [h]; exact Bool.false_ne_true)
  have hkeep : (c.modLink k (fun x => { x with fenced := true, out := {}, back := {} })).pintle = c.pintle ∧
      (c.modLink k (fun x => { x with fenced := true, out := {}, back := {} })).bridges = c.bridges := by
    unfold Chip.modLink
    split <;> exact ⟨rfl, rfl⟩
  have hlinks := (congrArg Chip.links hrules).trans (agreedFault_links ..)
  rw [hfence]
  refine ⟨?_, ?_, ?_⟩
  · rw [linkAt_congr hlinks, linkAt_modLink_same c hk]
  · exact (congrArg Chip.pintle hrules).trans ((agreedFault_pintle ..).trans hkeep.1)
  · exact (congrArg Chip.bridges hrules).trans ((agreedFault_bridges ..).trans hkeep.2)

/-- A link after a failed transfer: marked, and the transfer waits to be sent again (R13). -/
def LaneLink.failed (x : LaneLink) (back : Bool) : LaneLink :=
  if back then { x with failedNow := true, back := x.back.repeatLast } else { x with failedNow := true, out := x.out.repeatLast }

/-- The records of a failed transfer at both ends of its link (R13). -/
def Chip.noteTransfer (c : Chip) (k : Nat) : Chip :=
  (c.localFault (linkEnds k).1 0x0106 0x02 k 0xFF).localFault (linkEnds k).2 0x0106 0x02 k 0xFF

theorem linkTransferFailed_of {c : Chip} {k : Fin 3} (back : Bool) (h : (c.linkAt k.val).fenced = false) : linkTransferFailed k back c =
    if (c.linkAt k.val).failedLast then ((c.noteTransfer k.val).modLink k.val (fun x => x.failed back)).fenceLink k.val
    else (c.noteTransfer k.val).modLink k.val (fun x => x.failed back) :=
  if_neg (by rw [h]; exact Bool.false_ne_true)

theorem failed_fields (x : LaneLink) (back : Bool) : (x.failed back).failedNow = true ∧ (x.failed back).fenced = x.fenced ∧
    (x.failed back).out = (if back then x.out else x.out.repeatLast) ∧ (x.failed back).back = (if back then x.back.repeatLast else x.back) := by
  cases back <;> exact ⟨rfl, rfl, rfl, rfl⟩

/-- A failed transfer is sent again and marks the link; failures in two consecutive periods fence it (R13). -/
theorem linkTransferFailed_marks {s : State} {k : Fin 3} (back : Bool) (h : (s.chip.linkAt k.val).fenced = false) :
    ∃ t, exec (.linkTransferFailed k back) s = .next t ∧
      (t.chip.linkAt k.val).failedNow = true ∧ (t.chip.linkAt k.val).fenced = (s.chip.linkAt k.val).failedLast ∧ t.mem = s.mem ∧
      ((s.chip.linkAt k.val).failedLast = false →
        (t.chip.linkAt k.val).out = (if back then (s.chip.linkAt k.val).out else (s.chip.linkAt k.val).out.repeatLast) ∧
        (t.chip.linkAt k.val).back = (if back then (s.chip.linkAt k.val).back.repeatLast else (s.chip.linkAt k.val).back)) ∧
      ((s.chip.linkAt k.val).failedLast = true → (t.chip.linkAt k.val).out = {} ∧ (t.chip.linkAt k.val).back = {}) ∧
      t.chip.pintle = s.chip.pintle ∧ t.chip.bridges = s.chip.bridges := by
  have hexec : exec (.linkTransferFailed k back) s = .next (s.onChip (linkTransferFailed k back)) := rfl
  have hnoted : (s.chip.noteTransfer k.val).links = s.chip.links ∧ (s.chip.noteTransfer k.val).pintle = s.chip.pintle ∧
      (s.chip.noteTransfer k.val).bridges = s.chip.bridges := by
    unfold Chip.noteTransfer
    simp
  obtain ⟨hlinks, hpintle, hbridges⟩ := hnoted
  let d := (s.chip.noteTransfer k.val).modLink k.val (fun x => x.failed back)
  have hd : d.linkAt k.val = (s.chip.linkAt k.val).failed back := by
    rw [linkAt_modLink_same _ k.isLt, linkAt_congr hlinks]
  have hkeep : d.pintle = s.chip.pintle ∧ d.bridges = s.chip.bridges := by
    have hmod : d.pintle = (s.chip.noteTransfer k.val).pintle ∧ d.bridges = (s.chip.noteTransfer k.val).bridges := by
      unfold d Chip.modLink
      split <;> exact ⟨rfl, rfl⟩
    exact ⟨hmod.1.trans hpintle, hmod.2.trans hbridges⟩
  obtain ⟨hnow, hfenced, hout, hback⟩ := failed_fields (s.chip.linkAt k.val) back
  have hall := linkTransferFailed_of back h
  cases hlast : (s.chip.linkAt k.val).failedLast with
  | false =>
    rw [onChip_congr (f := linkTransferFailed k back) (g := fun _ => d) (hall.trans (if_neg (by rw [hlast]; exact Bool.false_ne_true)))] at hexec
    refine ⟨_, hexec, ?_, ?_, rfl, fun _ => ⟨?_, ?_⟩, fun h => (Bool.false_ne_true h).elim, hkeep.1, hkeep.2⟩
    · exact (congrArg LaneLink.failedNow hd).trans hnow
    · exact (congrArg LaneLink.fenced hd).trans (hfenced.trans h)
    · exact (congrArg LaneLink.out hd).trans hout
    · exact (congrArg LaneLink.back hd).trans hback
  | true =>
    rw [onChip_congr (f := linkTransferFailed k back) (g := fun _ => d.fenceLink k.val) (hall.trans (if_pos hlast))] at hexec
    obtain ⟨hlink, hp, hb⟩ := fenceLink_fences (c := d) k.isLt (by rw [hd, hfenced, h])
    refine ⟨_, hexec, ?_, ?_, rfl, fun h => (Bool.false_ne_true h.symm).elim, fun _ => ⟨?_, ?_⟩, hp.trans hkeep.1, hb.trans hkeep.2⟩
    · exact (congrArg LaneLink.failedNow hlink).trans ((congrArg LaneLink.failedNow hd).trans hnow)
    · exact congrArg LaneLink.fenced hlink
    · exact congrArg LaneLink.out hlink
    · exact congrArg LaneLink.back hlink

theorem linkIdx_lt (x y : LaneId) : linkIdx x y < 3 := by cases x <;> cases y <;> decide

/-- The link of a partner marked silent by its one witness is fenced (R433). -/
theorem silentLinkExpiry_fences {s : State} {x y : LaneId} (hne : x ≠ y) (hsilent : hasLane (s.chip.lane x).silent y = true)
    (hx : s.chip.inAuth x = true) (hy : s.chip.inAuth y = true) (hwitness : s.chip.witnesses y = [x])
    (hage : (s.chip.lane x).silentAt.get y + 2 ≤ s.chip.dev.count) (hpresents : (s.chip.pintle.lanes.get y).presents = true) :
    ∃ t, exec (.silentLinkExpiry x y) s = .next t ∧ (t.chip.linkAt (linkIdx x y)).fenced = true ∧ t.mem = s.mem ∧ t.chip.pintle = s.chip.pintle := by
  have hexec : exec (.silentLinkExpiry x y) s = .next (s.onChip (silentLinkExpiry x y)) := rfl
  rw [onChip_congr (f := silentLinkExpiry x y) (g := fun c => c.fenceLink (linkIdx x y)) (if_pos ⟨hne, hsilent, hx, hy, hwitness, hage, hpresents⟩)] at hexec
  cases hf : (s.chip.linkAt (linkIdx x y)).fenced with
  | true =>
    rw [onChip_congr (f := fun c => c.fenceLink (linkIdx x y)) (g := id) (if_pos hf)] at hexec
    exact ⟨_, hexec, hf, rfl, rfl⟩
  | false =>
    obtain ⟨hlink, hpintle, -⟩ := fenceLink_fences (linkIdx_lt x y) hf
    exact ⟨_, hexec, congrArg LaneLink.fenced hlink, rfl, hpintle⟩

/-! #### Fencing for service (R443) -/

theorem pendFence_keeps_any {c : Chip} {k : LaneId} (h : c.dev.fencePend.any (fun f => f.1 == k) = true) (l : LaneId) (code : Nat) :
    (c.pendFence l code).dev.fencePend.any (fun f => f.1 == k) = true := by
  unfold Chip.pendFence
  split
  · exact h
  · show (c.dev.fencePend ++ [(l, code)]).any (fun f => f.1 == k) = true
    rw [List.any_append, h]
    rfl

/-- Pending fences change the list of fences only (R444). -/
theorem pendFences_plain (ls : List LaneId) (code : Nat) : ∀ c : Chip, (ls.foldl (fun c l => c.pendFence l code) c).plain =
    (c.modDev (fun d => { d with fencePend := (ls.foldl (fun c l => c.pendFence l code) c).dev.fencePend })).plain := by
  induction ls with
  | nil => exact fun _ => rfl
  | cons l ls ih =>
    intro c
    have hset (xs : List (LaneId × Nat)) : (c.pendFence l code).modDev (fun d => { d with fencePend := xs }) = c.modDev (fun d => { d with fencePend := xs }) := by
      unfold Chip.pendFence
      split <;> rfl
    exact (ih (c.pendFence l code)).trans (congrArg Chip.plain (hset _))

theorem laneFence_marks {s : State} {r : Req} (hadm : s.admits attrLaneFence r = true) (hbody : r.body = []) (hmask : r.mask ≠ 0)
    (hsome : ∃ k ∈ s.chip.authLanes, k ∉ r.lanes) : ∃ t, exec (.laneFence r) s = .next t ∧
      (∀ k ∈ r.lanes, t.chip.dev.fencePend.any (fun f => f.1 == k) = true) ∧
      t.plain = (s.onChip (fun c => c.modDev (fun d => { d with fencePend := t.chip.dev.fencePend }))).plain := by
  obtain ⟨g, halike, -, hexec⟩ := exec_of_admits (i := .laneFence r) rfl hadm
  have hchecks : checksLaneFence r g.chip = [] := by
    obtain ⟨k, hk, hnot⟩ := hsome
    have hall : g.chip.authLanes.all (fun l => r.lanes.contains l) = false := by
      rw [halike.authLanes, List.all_eq_false]
      exact ⟨k, hk, by simpa using hnot⟩
    rw [checksLaneFence, hbody, hall, if_neg hmask]
    rfl
  replace hexec := hexec hchecks
  have hfin := alike_finish attrLaneFence r (effectLaneFence r g)
  have hpend := hfin.field Dev.fencePend fun _ _ => rfl
  refine ⟨_, hexec, fun k hk => ?_, ?_⟩
  · rw [hpend]
    exact foldl_reaches (fun c l => c.pendFence l 0x010A) (fun c => c.dev.fencePend.any (fun f => f.1 == k) = true) (fun _ => True)
      (fun c _ => pendFence_any c k 0x010A) (fun _ _ _ => trivial) (fun c l h => pendFence_keeps_any h l 0x010A) r.lanes g.chip hk trivial
  · refine (finish_plain ..).trans (plain_of_chip halike (f := fun c => r.lanes.foldl (fun c l => c.pendFence l 0x010A) c) ?_)
    rw [hpend]
    refine (pendFences_plain r.lanes 0x010A g.chip).trans ?_
    exact modDev_plain_congr (congrArg State.chip halike.plain) _ fun _ => rfl

/-! #### Readmission (R440, R442) -/

/-- A lane whose restart has been sent out (R442). -/
def Lane.restarting (n : Lane) : Lane := { n with boot := { n.boot with restartSent := true } }

/-- The results of a readmission that are known at once (R442). -/
def Chip.readmitResults (c : Chip) (lanes : List LaneId) : Tri (Option Nat) :=
  (Tri.all ()).mapIdx (fun l _ => if lanes.contains l then c.readmitNow l else none)

/-- The readmission that waits for its lanes (R442). -/
def Chip.readmitPend (c : Chip) (lanes : List LaneId) : PendOp := { lanes := maskOf lanes, results := c.readmitResults lanes }

theorem readmitNow_none {c : Chip} {l : LaneId} (hfenced : (c.lane l).boot.fenced = true) (hstate : (c.lane l).boot.state ≠ .refused)
    (hmax : (c.lane l).boot.readmits < c.parN Par.fltReadmitMax) : c.readmitNow l = none := by
  unfold Chip.readmitNow
  dsimp only
  rw [if_neg hstate, if_neg (fun h => absurd h.2 (not_le.2 hmax)), if_pos hfenced]

/-- A fenced lane that may restart is asked to, and the operation waits (R442). -/
theorem effectLaneReadmit_of {r : Req} {s : State} {l : LaneId} (hlanes : r.lanes = [l]) (hnow : s.chip.readmitNow l = none)
    (hfenced : (s.chip.lane l).boot.fenced = true) : effectLaneReadmit r s =
    { st := s.onChip (fun c => (c.modLane l Lane.restarting).addPend 0x0111 r (s.chip.readmitPend r.lanes)), status := stPending } := by
  have hres : (s.chip.readmitResults r.lanes).get l = none := by
    rw [Chip.readmitResults, tri_get_mapIdx, hlanes, hnow]
    exact ite_self _
  have hall : ¬ r.lanes.all (fun l => ((s.chip.readmitResults r.lanes).get l).isSome) = true := by
    rw [List.all_eq_true]
    intro h
    have := h l (by rw [hlanes]; exact List.mem_singleton_self l)
    rw [hres] at this
    cases this
  have hstart : r.lanes.foldl (fun c l => if ((s.chip.readmitResults r.lanes).get l).isNone then
      (if (c.lane l).boot.fenced then c.modLane l (fun n => { n with boot := { n.boot with restartSent := true } }) else c.startRejoin l) else c) s.chip =
        s.chip.modLane l Lane.restarting := by
    rw [hlanes, List.foldl_cons, List.foldl_nil, ← hlanes, hres]
    exact (if_pos rfl).trans (if_pos hfenced)
  refine (if_neg hall).trans ?_
  exact congrArg (fun c => ({ st := { s with chip := c.addPend 0x0111 r (s.chip.readmitPend r.lanes) }, status := stPending } : OpOut)) hstart

theorem readmitNow_alike {s g : State} (h : Alike s g) (l : LaneId) : g.chip.readmitNow l = s.chip.readmitNow l := by
  have hboot : (g.chip.lane l).boot = (s.chip.lane l).boot := h.lane l Lane.boot fun _ _ => rfl
  rw [Chip.readmitNow, Chip.readmitNow, hboot, h.parN, h.par]

theorem laneReadmit_restarts {s : State} {l : LaneId} {r : Req} (hadm : s.admits attrLaneReadmit r = true) (hbody : r.body = []) (hlanes : r.lanes = [l])
    (hauth : s.chip.authLanes ≠ []) (hfenced : (s.chip.lane l).boot.fenced = true) (hstate : (s.chip.lane l).boot.state ≠ .refused)
    (hmax : (s.chip.lane l).boot.readmits < s.chip.parN Par.fltReadmitMax) :
    ∃ t, exec (.laneReadmit r) s = .next t ∧ (t.chip.lane l).boot.restartSent = true ∧
      t.chip.dev.pend.length = s.chip.dev.pend.length + 1 ∧ t.mem = s.mem ∧
      (t.chip.lane l).plain = { (s.chip.lane l).plain with boot := { (s.chip.lane l).boot with restartSent := true } } := by
  obtain ⟨g, halike, -, hexec⟩ := exec_of_admits (i := .laneReadmit r) rfl hadm
  have hchecks : checksLaneReadmit r g.chip = [] := by
    rw [checksLaneReadmit, hbody, halike.authLanes, if_neg hauth]
    rfl
  have hboot : (g.chip.lane l).boot = (s.chip.lane l).boot := halike.lane l Lane.boot fun _ _ => rfl
  have hplain : (g.chip.lane l).plain = (s.chip.lane l).plain := halike.lane l Lane.plain fun _ _ => rfl
  replace hexec := hexec hchecks
  dsimp only at hexec
  rw [effectLaneReadmit_of hlanes ((readmitNow_alike halike l).trans (readmitNow_none hfenced hstate hmax)) (by rw [hboot]; exact hfenced)] at hexec
  have hfin := alike_finish attrLaneReadmit r
    { st := g.onChip (fun c => (c.modLane l Lane.restarting).addPend 0x0111 r (g.chip.readmitPend r.lanes)), status := stPending }
  have hnoted := noted_addPend (g.chip.modLane l Lane.restarting) 0x0111 r (g.chip.readmitPend r.lanes)
  have hlane : (g.chip.modLane l Lane.restarting).lane l = (g.chip.lane l).restarting := tri_get_set_same ..
  refine ⟨_, hexec, ?_, ?_, (finish_mem ..).trans halike.mem, ?_⟩
  · calc _ = _ := hfin.lane l (fun n => n.boot.restartSent) fun _ _ => rfl
      _ = _ := hnoted.lanes.lane l (fun n => n.boot.restartSent) fun _ _ => rfl
      _ = true := congrArg (fun n => n.boot.restartSent) hlane
  · refine (congrArg List.length (hfin.field Dev.pend fun _ _ => rfl)).trans ?_
    refine (congrArg List.length (addPend_pend (g.chip.modLane l Lane.restarting) 0x0111 r (g.chip.readmitPend r.lanes))).trans ?_
    rw [List.length_append, modLane_dev, halike.field Dev.pend fun _ _ => rfl]
    rfl
  · calc _ = _ := hfin.lane l Lane.plain fun _ _ => rfl
      _ = _ := hnoted.lanes.lane l Lane.plain fun _ _ => rfl
      _ = (g.chip.lane l).restarting.plain := congrArg Lane.plain hlane
      _ = { (g.chip.lane l).plain with boot := { (g.chip.lane l).boot with restartSent := true } } := rfl
      _ = _ := by rw [hplain, hboot]

/-- The lane that restarts: its NVM and the fences of its channels stay, and its self-test phases wait (R440, R442, R512). -/
def Lane.restarted (old n : Lane) : Lane :=
  { n.keepFences old with boot := { n.boot with readmitting := true, readmits := n.boot.readmits + 1 }, bist := { n.bist with phase := 2 } }

theorem restarted_fb (n : Lane) (i : Fin 8) : (nth (Lane.restarted n n.rebooted).fb i.val {}).fenced = (nth n.fb i.val {}).fenced := by
  have hget : (Lane.restarted n n.rebooted).fb = (List.replicate 8 ({} : FbChan)).mapIdx (fun i x => { x with fenced := (nth n.fb i {}).fenced }) := rfl
  rw [hget]
  fin_cases i <;> rfl

theorem restartAck_restarts {s : State} {l : LaneId} (hsent : (s.chip.lane l).boot.restartSent = true) :
    ∃ t, exec (.restartAck l) s = .next t ∧ (t.chip.lane l).boot.state = .booting ∧ (t.chip.lane l).boot.readmitting = true ∧
      (t.chip.lane l).boot.readmits = (s.chip.lane l).boot.readmits + 1 ∧ (t.chip.lane l).bist.phase = 2 ∧
      (t.chip.lane l).nvm = (s.chip.lane l).nvm ∧
      (∀ i : Fin 8, (nth (t.chip.lane l).fb i.val {}).fenced = (nth (s.chip.lane l).fb i.val {}).fenced) ∧
      ∀ k, k ≠ l → t.chip.lanes.get k = s.chip.lanes.get k := by
  have hexec : exec (.restartAck l) s = .next (restartAck l s) := rfl
  have hrestart : restartAck l s = (s.rebootLane l).onChip (fun c => c.modLane l (Lane.restarted (s.chip.lane l))) :=
    if_neg (by rw [hsent]; decide)
  rw [hrestart] at hexec
  have hlanes := rebootLane_lanes s l
  have hlane : ((s.rebootLane l).chip.modLane l (Lane.restarted (s.chip.lane l))).lane l = Lane.restarted (s.chip.lane l) (s.chip.lane l).rebooted := by
    rw [lane_eq, modLane_lanes, tri_get_set_same, hlanes, tri_get_set_same]
    rfl
  refine ⟨_, hexec, congrArg (fun n => n.boot.state) hlane, congrArg (fun n => n.boot.readmitting) hlane, congrArg (fun n => n.boot.readmits) hlane,
    congrArg (fun n => n.bist.phase) hlane, (congrArg Lane.nvm hlane :), fun i => ?_, fun k hk => ?_⟩
  · exact (congrArg (fun n => (nth n.fb i.val {}).fenced) hlane).trans (restarted_fb _ i)
  · refine (elseSame_modLane (s.rebootLane l).chip l _ k hk).trans ?_
    rw [hlanes, tri_get_set_ne _ _ _ _ hk]

/-- The readmission that waits for a lane's result (R442). -/
def awaitsReadmit (l : LaneId) (p : PendOp) : Bool := p.opcode == 0x0111 && hasLane p.lanes l && (p.results.get l).isNone

theorem readmitResult_eq (c : Chip) (l : LaneId) (st : Nat) : c.readmitResult l st = c.takePart l st (awaitsReadmit l)
    (fun q => readmitStatus (lanesOf q.lanes) q.results) (fun q => readmitPayload (lanesOf q.lanes) q.results) := rfl

/-- The result FENCED of the one lane gives the waiting operation its reply (R442). -/
theorem readmitResult_fenced {c : Chip} {l k : LaneId} {p : PendOp} (hpend : c.dev.pend = [p]) (hop : p.opcode = 0x0111) (hlanes : lanesOf p.lanes = [l])
    (hnone : p.results.get l = none) (hlink : p.link = some k) : ∃ q : OutPacket, (c.readmitResult l stFenced).dev.pend = [] ∧
      (c.readmitResult l stFenced).dev.replies = c.dev.replies ++ [(k, q)] ∧ q.status = stFenced ∧ Noted c (c.readmitResult l stFenced) := by
  have hwait : awaitsReadmit l p = true := by
    rw [awaitsReadmit, hop, hnone, hasLane_of_lanesOf hlanes]
    rfl
  have hstatus : readmitStatus (lanesOf p.lanes) (p.results.set l (some stFenced)) = stFenced := by
    rw [hlanes, readmitStatus, List.map_cons, tri_get_set_same]
    rfl
  obtain ⟨q, hp, hrep, hst, -, hnoted⟩ := takePart_replies hpend hlanes hlink hwait stFenced (fun q => readmitStatus (lanesOf q.lanes) q.results)
    (fun q => readmitPayload (lanesOf q.lanes) q.results) (fun d => by
      dsimp only
      rw [hstatus]
      exact not_suppressed _ _ _ _ (by decide))
  rw [readmitResult_eq]
  exact ⟨q, hp, hrep, hst.trans hstatus, hnoted⟩

theorem readmitAckTimeout_ends {s : State} {l k : LaneId} {p : PendOp} (hsent : (s.chip.lane l).boot.restartSent = true) (hpend : s.chip.dev.pend = [p])
    (hop : p.opcode = 0x0111) (hlanes : lanesOf p.lanes = [l]) (hnone : p.results.get l = none) (hlink : p.link = some k) :
    ∃ t q, exec (.readmitAckTimeout l) s = .next t ∧ (t.chip.lane l).boot.restartSent = false ∧
      t.chip.dev.pend = [] ∧ t.chip.dev.replies = s.chip.dev.replies ++ [(k, q)] ∧ q.status = stFenced := by
  let f : Lane → Lane := fun n => { n with boot := { n.boot with restartSent := false } }
  have hexec : exec (.readmitAckTimeout l) s = .next (s.onChip (readmitAckTimeout l)) := rfl
  rw [onChip_congr (f := readmitAckTimeout l) (g := fun c => (c.modLane l f).readmitResult l stFenced) (if_pos hsent)] at hexec
  obtain ⟨q, hp, hrep, hst, hnoted⟩ := readmitResult_fenced (c := s.chip.modLane l f) hpend hop hlanes hnone hlink
  have hlane : (s.chip.modLane l f).lane l = f (s.chip.lane l) := tri_get_set_same ..
  exact ⟨_, q, hexec, (hnoted.lanes.lane l (fun n => n.boot.restartSent) fun _ _ => rfl).trans (congrArg (fun n => n.boot.restartSent) hlane), hp, hrep, hst⟩

theorem readmitReadyTimeout_ends {s : State} {l k : LaneId} {p : PendOp} (hready : (s.chip.lane l).boot.readmitting = true)
    (hstate : (s.chip.lane l).boot.state = .booting) (hpend : s.chip.dev.pend = [p])
    (hop : p.opcode = 0x0111) (hlanes : lanesOf p.lanes = [l]) (hnone : p.results.get l = none) (hlink : p.link = some k) :
    ∃ t q, exec (.readmitReadyTimeout l) s = .next t ∧ (t.chip.lane l).boot.readmitting = false ∧
      t.chip.dev.pend = [] ∧ t.chip.dev.replies = s.chip.dev.replies ++ [(k, q)] ∧ q.status = stFenced := by
  let f : Lane → Lane := fun n => { n with boot := { n.boot with readmitting := false } }
  have hexec : exec (.readmitReadyTimeout l) s = .next (s.onChip (readmitReadyTimeout l)) := rfl
  have hcond : ((s.chip.lane l).boot.readmitting && decide ((s.chip.lane l).boot.state = .booting ∨ (s.chip.lane l).boot.state = .adopting)) = true := by
    rw [hready, hstate]
    rfl
  rw [onChip_congr (f := readmitReadyTimeout l) (g := fun c => (c.modLane l f).readmitResult l stFenced) (if_pos hcond)] at hexec
  obtain ⟨q, hp, hrep, hst, hnoted⟩ := readmitResult_fenced (c := s.chip.modLane l f) hpend hop hlanes hnone hlink
  have hlane : (s.chip.modLane l f).lane l = f (s.chip.lane l) := tri_get_set_same ..
  exact ⟨_, q, hexec, (hnoted.lanes.lane l (fun n => n.boot.readmitting) fun _ _ => rfl).trans (congrArg (fun n => n.boot.readmitting) hlane), hp, hrep, hst⟩

theorem sysReset_waits {s : State} {r : Req} (hadm : s.admits attrSysReset r = true) (hbody : r.body = []) : ∃ t, exec (.sysReset r) s = .next t ∧
    t.plain = (s.onChip (fun c => c.addPend 0x0012 r {})).plain := by
  obtain ⟨g, halike, -, hexec⟩ := exec_of_admits (i := .sysReset r) rfl hadm
  have hchecks : checksNone r g.chip = [] := by
    rw [checksNone, hbody]
    rfl
  have hchip : g.chip.plain = s.chip.plain := congrArg State.chip halike.plain
  refine ⟨_, hexec hchecks, (finish_plain ..).trans (plain_of_chip halike ?_)⟩
  rw [pend_addPend_plain, pend_addPend_plain]
  exact modDev_plain_congr hchip _ fun _ => rfl

/-- Settles O17: fences and readmissions wait for their boundary and their lane, and evidence changes the marks of its receiver. -/
theorem serviceFencingAndPartnerEvidence : Obligations.ServiceFencingAndPartnerEvidence := by
  refine ⟨fun s l => ⟨fun r hadm hbody hmask hsome => laneFence_marks hadm hbody hmask hsome,
    fun r hadm hbody hlanes hauth hfenced hstate hmax => laneReadmit_restarts hadm hbody hlanes hauth hfenced hstate hmax,
    fun hsent => ⟨restartAck_restarts hsent, fun p k hpend hop hlanes hnone hlink => readmitAckTimeout_ends hsent hpend hop hlanes hnone hlink⟩,
    fun hready hstate p k hpend hop hlanes hnone hlink => readmitReadyTimeout_ends hready hstate hpend hop hlanes hnone hlink,
    fun r hadm hbody => sysReset_waits hadm hbody⟩,
    fun s x y hne => ⟨fun hlink hhalt => ?_, fun hhalt hlink hlive => ?_, fun hx hy hdown hsilent => ?_,
      fun hsilent hx hy hwitness hage hpresents => silentLinkExpiry_fences hne hsilent hx hy hwitness hage hpresents,
      fun k back h => linkTransferFailed_marks back h⟩⟩
  · refine next_congr (onChip_congr (f := keepAlive y x) ((if_neg ?_).trans rfl))
    rw [hlink, hhalt, decide_eq_false hne.symm]
    decide
  · refine next_congr (onChip_congr (f := fenceNotice x y .intact) ((if_pos ?_).trans (modLane_modLane ..)))
    rw [hlink, hlive, decide_eq_true hne]
    simpa using hhalt
  · have hout : ¬ (decide (x = y) || !(s.chip.inAuth x) || !(s.chip.inAuth y) || decide (s.chip.dev.standdown = some y)) = true := by
      rw [hx, hy, decide_eq_false hne, decide_eq_false hdown]
      decide
    exact next_congr (onChip_congr (f := partnerSilent x y) ((if_neg hout).trans (if_neg (ne_true_of_eq_false hsilent))))

end Sys2Proof.Machine

namespace Sys2Proof.Machine
open Sys2Proof

/-! ### A lane's boot -/

/-- What a lane's boot changes is its own, and leaves the bank that it runs. -/
structure OwnBoot (l : LaneId) (c d : Chip) : Prop where
  others : ElseSame l c d
  bridges : d.bridges = c.bridges
  pintle : d.pintle = c.pintle
  booted : (d.lanes.get l).nvm.booted = (c.lanes.get l).nvm.booted

theorem OwnBoot.trans {l : LaneId} {c d e : Chip} (h : OwnBoot l c d) (k : OwnBoot l d e) : OwnBoot l c e :=
  ⟨h.others.trans k.others, k.bridges.trans h.bridges, k.pintle.trans h.pintle, k.booted.trans h.booted⟩

theorem OwnBoot.refl (l : LaneId) (c : Chip) : OwnBoot l c c := ⟨ElseSame.refl l c, rfl, rfl, rfl⟩

theorem ownBoot_modLane (c : Chip) (l : LaneId) (f : Lane → Lane) (h : (f (c.lanes.get l)).nvm.booted = (c.lanes.get l).nvm.booted) :
    OwnBoot l c (c.modLane l f) :=
  ⟨elseSame_modLane c l f, rfl, rfl, by rw [modLane_lanes, tri_get_set_same, h]⟩

theorem ownBoot_localFault (c : Chip) (l : LaneId) (code t i lane : Nat) : OwnBoot l c (c.localFault l code t i lane) :=
  ⟨elseSame_localFault c l code t i lane, by simp, by simp, by rw [(localFault_only c l code t i lane).lanesAlike l]; rfl⟩

theorem ownBoot_fault_ite (c : Chip) (l : LaneId) (b : Prop) [Decidable b] (code t i lane : Nat) :
    OwnBoot l c (if b then c.localFault l code t i lane else c) := by
  split
  · exact ownBoot_localFault ..
  · exact OwnBoot.refl l c

theorem ownBoot_laneInert (c : Chip) (l : LaneId) : OwnBoot l c (c.laneInert l) := by
  have hlinks : (c.clearLinks l).lanes = c.lanes := clearLinks_field c l Chip.lanes fun _ _ _ => modLink_lanes ..
  refine OwnBoot.trans ⟨elseSame_of_eq hlinks, clearLinks_field c l Chip.bridges fun _ _ _ => modLink_bridges ..,
    clearLinks_field c l Chip.pintle fun _ _ _ => modLink_pintle .., by rw [hlinks]⟩ (ownBoot_modLane _ l _ rfl)

theorem ownBoot_loadLane (c : Chip) (l : LaneId) : OwnBoot l c (c.loadLane l) := by
  unfold Chip.loadLane
  exact ((((((ownBoot_modLane c l _ rfl).trans (ownBoot_fault_ite ..)).trans (ownBoot_fault_ite ..)).trans (ownBoot_fault_ite ..)).trans
    (ownBoot_fault_ite ..)).trans (ownBoot_modLane _ l _ rfl))

/-- A lane that runs bank k, with its ring's place and its domains on (R103, R435). -/
def Lane.running (n : Lane) (m : LaneMem) (k : Nat) : Lane :=
  { n with
    nvm := { n.nvm.setBank k (n.nvm.checked (m.bank k) k) with booted := k }
    fault := { n.fault with writeIdx := ringIndex n.fault.ring, pass := ringPass n.fault.ring }
    power := { n.power with net := true, drive := true } }

/-- A lane that is ready, its formation wait running (R103, R110). -/
def Lane.readied (n : Lane) : Lane :=
  { n with boot := { n.boot with
        state := .ready, waitRuns := true, step := 5,
        wait := 1000000 * (Par.laneJoinWait.at n.nvm.loaded.ws 0).toNat } }

/-- The last steps of a boot from bank k (R103). -/
def Chip.bootFrom (c : Chip) (l : LaneId) (m : LaneMem) (marked k : Nat) : Chip :=
      let c := c.modLane l (fun n => n.running m k)
      let c := if k ≠ marked then c.localFault l 0x3103 0x17 (2 + marked) l.idx else c
      let c := if c.dev.formed then (c.loadLane l).laneInert l else c.loadLane l
      c.modLane l Lane.readied

/-- A lane with an empty repair log, its repairs applied (R503). -/
def Lane.unrepaired (n : Lane) : Lane :=
  { n with bist := { n.bist with regions := [], ecc := [] }, fencedNow := [], fault := { n.fault with cap := 64 } }

theorem applyRepairs_of_empty {c : Chip} {l : LaneId} (h : (c.lane l).nvm.log = []) : c.applyRepairs l = c.modLane l Lane.unrepaired := by
  unfold Chip.applyRepairs
  rw [h]
  rfl

theorem laneReady_eq {s : State} {l : LaneId} {k : Nat} (hgood : (s.chip.lane l).boot.powerGood = true)
    (hcore : (s.chip.lane l).power.core = true) (hphase : (s.chip.lane l).bist.phase = 0) (hstate : (s.chip.lane l).boot.state = .booting)
    (hfenced : (s.chip.lane l).boot.fenced = false) (hok : (s.chip.lane l).nvm.logOk = true) (hlog : (s.chip.lane l).nvm.log = [])
    (hbank : bootBank (s.chip.lane l).nvm (s.mem.get l) [] = some k) :
    laneReady l s = (s.onChip fun c => c.modLane l Lane.unrepaired).onChip fun c => c.bootFrom l (s.mem.get l) (s.chip.lane l).nvm.marked k := by
  have happly : s.onChip (fun c => c.applyRepairs l) = s.onChip fun c => c.modLane l Lane.unrepaired :=
    onChip_congr (applyRepairs_of_empty hlog)
  have hregions : ((s.onChip fun c => c.modLane l Lane.unrepaired).chip.lane l).bist.regions = [] := by simp [Lane.unrepaired]
  have hbad : (s.onChip fun c => c.modLane l Lane.unrepaired).chip.badRegion l = none := by rw [Chip.badRegion, hregions]; rfl
  unfold laneReady
  have hmem : (s.onChip fun c => c.modLane l Lane.unrepaired).mem = s.mem := rfl
  refine (if_neg ?_).trans ?_
  · rw [hgood, hcore, hphase, hstate, hfenced, hok]
    decide
  · rw [happly]
    dsimp only
    rw [hbad, hregions, hmem]
    dsimp only
    rw [hbank]
    rfl

theorem bootFrom_own (c : Chip) (l : LaneId) (m : LaneMem) (marked k : Nat) :
    OwnBoot l (c.modLane l fun n => n.running m k) (c.bootFrom l m marked k) := by
  have hload : ∀ d : Chip, OwnBoot l d (if d.dev.formed then (d.loadLane l).laneInert l else d.loadLane l) := fun d => by
    split
    · exact (ownBoot_loadLane d l).trans (ownBoot_laneInert _ l)
    · exact ownBoot_loadLane d l
  exact ((ownBoot_fault_ite ..).trans (hload _)).trans (ownBoot_modLane _ l _ rfl)

theorem modLane_readied (c : Chip) (l : LaneId) :
    ((c.modLane l Lane.readied).lanes.get l).boot.state = .ready ∧ ((c.modLane l Lane.readied).lanes.get l).boot.waitRuns = true ∧
    ((c.modLane l Lane.readied).lanes.get l).boot.wait =
      1000000 * (Par.laneJoinWait.at ((c.modLane l Lane.readied).lanes.get l).nvm.loaded.ws 0).toNat := by
  rw [modLane_lanes, tri_get_set_same]
  exact ⟨rfl, rfl, rfl⟩

theorem bootBank_marked {n : Nvm} {m : LaneMem} {k : Nat} (h : bootBank n m [] = some k) (hpass : bankPasses n (m.bank n.marked) n.marked = true) :
    k = n.marked := by
  rw [bootBank, if_pos (by simp [hpass])] at h
  exact (Option.some.inj h).symm

/-! ### Discovery records as they travel -/

section
variable {d : DiscRec} (hstate : d.state < 256) (hcopy : d.copy < 256) (hver : d.fwVersion < 2 ^ 32) (hsec : d.fwSecurity < 2 ^ 32)
  (hdig : d.fwDigest < 2 ^ 32) (hseq : d.imgSeq < 2 ^ 32) (hcrc : d.imgCrc < 2 ^ 32) (hcount : d.confirmCount < 2 ^ 32)
  (hwait : d.wait < 2 ^ 32) (hcheck : d.check < 2 ^ 64)

theorem discBody_length : (discBody d).length = 44 := by
  simp only [discBody, List.length_append, toLe_length]

theorem discBytes_length : (discBytes d).length = 48 := by
  rw [discBytes, List.length_append, discBody_length, toLe_length]

theorem discBody_append (p : List Byte) : discBody d ++ p = toLe 1 d.lane.idx ++ (toLe 1 d.state ++ (toLe 1 d.copy ++ (toLe 1 0 ++
    (toLe 4 d.fwVersion ++ (toLe 4 d.fwSecurity ++ (toLe 4 d.fwDigest ++ (toLe 4 d.imgSeq ++ (toLe 4 d.imgCrc ++ (toLe 4 d.confirmCount ++
    (toLe 4 d.wait ++ (toLe 8 d.check ++ (toLe 1 (if d.commissioned then 1 else 0) ++ (toLe 3 0 ++ p))))))))))))) := by
  simp only [discBody, List.append_assoc]

theorem discBytes_sealed : fld (discBytes d) 44 4 = crc32c ((discBytes d).take 44 ++ toLe 4 0) := by
  have htake : (discBytes d).take 44 = discBody d := List.take_left' discBody_length
  have hfield := fld_at (discBody d) 0 4 (toLe 4 (crc32c (discBody d ++ toLe 4 0)) ++ [])
  rw [discBody_length, fld_head 4 _ _ (crc32c_lt _), List.append_nil] at hfield
  rw [htake]
  exact hfield

theorem ofIdx_idx (l : LaneId) : LaneId.ofIdx l.idx = some l := by cases l <;> rfl

theorem idx_lt_256 (l : LaneId) : l.idx < 256 ^ 1 := by cases l <;> decide

include hstate hcopy hver hsec hdig hseq hcrc hcount hwait hcheck in
/-- A discovery record is read as it was laid out (R105). -/
theorem discOfBytes_discBytes : discOfBytes (discBytes d) = some d := by
  have hlane : LaneId.ofIdx (fld (discBytes d) 0 1) = some d.lane := by
    rw [discBytes, discBody_append, fld_head 1 _ _ (idx_lt_256 _), ofIdx_idx]
  have hflag : fld (discBytes d) 40 1 = if d.commissioned then 1 else 0 := by
    rw [discBytes, discBody_append, fld_skip 1 _ 39, fld_skip 1 _ 38, fld_skip 1 _ 37, fld_skip 1 _ 36, fld_skip 4 _ 32, fld_skip 4 _ 28,
      fld_skip 4 _ 24, fld_skip 4 _ 20, fld_skip 4 _ 16, fld_skip 4 _ 12, fld_skip 4 _ 8, fld_skip 8 _ 0, fld_head 1]
    split <;> decide
  have h1 : fld (discBytes d) 1 1 = d.state := by
    rw [discBytes, discBody_append, fld_skip 1 _ 0, fld_head 1 _ _ hstate]
  have h2 : fld (discBytes d) 2 1 = d.copy := by
    rw [discBytes, discBody_append, fld_skip 1 _ 1, fld_skip 1 _ 0, fld_head 1 _ _ hcopy]
  have h4 : fld (discBytes d) 4 4 = d.fwVersion := by
    rw [discBytes, discBody_append, fld_skip 1 _ 3, fld_skip 1 _ 2, fld_skip 1 _ 1, fld_skip 1 _ 0, fld_head 4 _ _ hver]
  have h8 : fld (discBytes d) 8 4 = d.fwSecurity := by
    rw [discBytes, discBody_append, fld_skip 1 _ 7, fld_skip 1 _ 6, fld_skip 1 _ 5, fld_skip 1 _ 4, fld_skip 4 _ 0, fld_head 4 _ _ hsec]
  have h12 : fld (discBytes d) 12 4 = d.fwDigest := by
    rw [discBytes, discBody_append, fld_skip 1 _ 11, fld_skip 1 _ 10, fld_skip 1 _ 9, fld_skip 1 _ 8, fld_skip 4 _ 4, fld_skip 4 _ 0,
      fld_head 4 _ _ hdig]
  have h16 : fld (discBytes d) 16 4 = d.imgSeq := by
    rw [discBytes, discBody_append, fld_skip 1 _ 15, fld_skip 1 _ 14, fld_skip 1 _ 13, fld_skip 1 _ 12, fld_skip 4 _ 8, fld_skip 4 _ 4,
      fld_skip 4 _ 0, fld_head 4 _ _ hseq]
  have h20 : fld (discBytes d) 20 4 = d.imgCrc := by
    rw [discBytes, discBody_append, fld_skip 1 _ 19, fld_skip 1 _ 18, fld_skip 1 _ 17, fld_skip 1 _ 16, fld_skip 4 _ 12, fld_skip 4 _ 8,
      fld_skip 4 _ 4, fld_skip 4 _ 0, fld_head 4 _ _ hcrc]
  have h24 : fld (discBytes d) 24 4 = d.confirmCount := by
    rw [discBytes, discBody_append, fld_skip 1 _ 23, fld_skip 1 _ 22, fld_skip 1 _ 21, fld_skip 1 _ 20, fld_skip 4 _ 16, fld_skip 4 _ 12,
      fld_skip 4 _ 8, fld_skip 4 _ 4, fld_skip 4 _ 0, fld_head 4 _ _ hcount]
  have h28 : fld (discBytes d) 28 4 = d.wait := by
    rw [discBytes, discBody_append, fld_skip 1 _ 27, fld_skip 1 _ 26, fld_skip 1 _ 25, fld_skip 1 _ 24, fld_skip 4 _ 20, fld_skip 4 _ 16,
      fld_skip 4 _ 12, fld_skip 4 _ 8, fld_skip 4 _ 4, fld_skip 4 _ 0, fld_head 4 _ _ hwait]
  have h32 : fld (discBytes d) 32 8 = d.check := by
    rw [discBytes, discBody_append, fld_skip 1 _ 31, fld_skip 1 _ 30, fld_skip 1 _ 29, fld_skip 1 _ 28, fld_skip 4 _ 24, fld_skip 4 _ 20,
      fld_skip 4 _ 16, fld_skip 4 _ 12, fld_skip 4 _ 8, fld_skip 4 _ 4, fld_skip 4 _ 0, fld_head 8 _ _ hcheck]
  have hcommissioned : decide ((if d.commissioned then 1 else 0) = 1) = d.commissioned := by cases d.commissioned <;> rfl
  unfold discOfBytes
  rw [hlane]
  refine (if_pos ⟨discBytes_length, discBytes_sealed⟩).trans ?_
  rw [h1, h2, h4, h8, h12, h16, h20, h24, h28, h32, hflag, hcommissioned]

end

/-- A lane without repairs whose firmware passes is ready after its boot (R101, R103, R110). -/
theorem laneReady_of_clean {s : State} {l : LaneId} {k : Nat} (hgood : (s.chip.lane l).boot.powerGood = true)
    (hcore : (s.chip.lane l).power.core = true) (hphase : (s.chip.lane l).bist.phase = 0) (hstate : (s.chip.lane l).boot.state = .booting)
    (hfenced : (s.chip.lane l).boot.fenced = false) (hok : (s.chip.lane l).nvm.logOk = true) (hlog : (s.chip.lane l).nvm.log = [])
    (hbank : bootBank (s.chip.lane l).nvm (s.mem.get l) [] = some k) :
    ∃ t, exec (.laneReady l) s = .next t ∧ (t.chip.lane l).boot.state = .ready ∧ (t.chip.lane l).boot.waitRuns = true ∧
         (t.chip.lane l).nvm.booted = k ∧
         (bankPasses (s.chip.lane l).nvm ((s.mem.get l).bank (s.chip.lane l).nvm.marked) (s.chip.lane l).nvm.marked = true →
           k = (s.chip.lane l).nvm.marked) ∧
         (t.chip.lane l).boot.wait = 1000000 * (Par.laneJoinWait.at (t.chip.lane l).nvm.loaded.ws 0).toNat ∧ t.mem = s.mem ∧
         t.chip.bridges = s.chip.bridges ∧ t.chip.pintle = s.chip.pintle ∧ ∀ j, j ≠ l → t.chip.lanes.get j = s.chip.lanes.get j := by
  have hown := bootFrom_own (s.chip.modLane l Lane.unrepaired) l (s.mem.get l) (s.chip.lane l).nvm.marked k
  have hready : ∃ d : Chip, (s.chip.modLane l Lane.unrepaired).bootFrom l (s.mem.get l) (s.chip.lane l).nvm.marked k = d.modLane l Lane.readied :=
    ⟨_, rfl⟩
  have hexec : exec (.laneReady l) s = .next _ := next_congr (laneReady_eq hgood hcore hphase hstate hfenced hok hlog hbank)
  obtain ⟨d, hd⟩ := hready
  obtain ⟨hst, hruns, hwait⟩ := modLane_readied d l
  rw [← hd] at hst hruns hwait
  refine ⟨_, hexec, hst, hruns, hown.booted.trans ?_, bootBank_marked hbank, hwait, rfl, hown.bridges, hown.pintle, fun j hj => ?_⟩
  · rw [modLane_lanes, tri_get_set_same]
    rfl
  · exact (hown.others j hj).trans (((elseSame_modLane s.chip l _).trans (elseSame_modLane _ l _)) j hj)

end Sys2Proof.Machine

namespace Sys2Proof.Machine
open Sys2Proof

/-! ### The boot records of lanes that are refused or formed -/

@[simp] theorem reportClass_dev (c : Chip) : c.reportClass.dev = c.dev :=
  foldl_keeps Chip.dev (fun (c : Chip) l => (c.modBridge l (fun b => { b with cls := c.classNow })).raiseEdge l 5) (fun _ _ => rfl) _ c

/-- A lane has the discovery records and the mark of adoption that it had, and its state or that of a lane in authority. -/
def BootHeld (n m : Lane) : Prop :=
  m.boot.seen = n.boot.seen ∧ m.boot.adopted = n.boot.adopted ∧ (m.boot.state = n.boot.state ∨ m.boot.state = .admitted)

theorem BootHeld.refl (n : Lane) : BootHeld n n := ⟨rfl, rfl, .inl rfl⟩

theorem BootHeld.trans {n m k : Lane} (h : BootHeld n m) (h' : BootHeld m k) : BootHeld n k := by
  obtain ⟨hseen, hadopted, hstate⟩ := h
  obtain ⟨hseen', hadopted', hstate'⟩ := h'
  refine ⟨hseen'.trans hseen, hadopted'.trans hadopted, ?_⟩
  rcases hstate' with h | h
  · exact hstate.imp h.trans h.trans
  · exact .inr h

/-- Steps of a formation: every lane's boot record is held, and what the device agreed on stays. -/
structure Forming (c d : Chip) : Prop where
  lanes : ∀ k, BootHeld (c.lanes.get k) (d.lanes.get k)
  formed : d.dev.formed = c.dev.formed
  authority : d.dev.authority = c.dev.authority
  cls : d.dev.cls = c.dev.cls

theorem Forming.refl (c : Chip) : Forming c c := ⟨fun _ => BootHeld.refl _, rfl, rfl, rfl⟩

theorem Forming.trans {c d e : Chip} (h : Forming c d) (k : Forming d e) : Forming c e :=
  ⟨fun l => (h.lanes l).trans (k.lanes l), k.formed.trans h.formed, k.authority.trans h.authority, k.cls.trans h.cls⟩

theorem forming_of_eq {c d : Chip} (hlanes : d.lanes = c.lanes) (hdev : d.dev = c.dev) : Forming c d :=
  ⟨fun _ => by rw [hlanes]; exact BootHeld.refl _, by rw [hdev], by rw [hdev], by rw [hdev]⟩

theorem RecordsOnly.forming {c d : Chip} (h : RecordsOnly c d) : Forming c d :=
  ⟨fun l => by rw [h.lanesAlike l]; exact BootHeld.refl _, by rw [h.dev], by rw [h.dev], by rw [h.dev]⟩

theorem forming_modLane (c : Chip) (l : LaneId) (f : Lane → Lane) (h : BootHeld (c.lanes.get l) (f (c.lanes.get l))) :
    Forming c (c.modLane l f) := by
  refine ⟨fun k => ?_, rfl, rfl, rfl⟩
  by_cases hk : k = l
  · subst hk
    rw [modLane_lanes, tri_get_set_same]
    exact h
  · rw [elseSame_modLane c l f k hk]
    exact BootHeld.refl _

theorem forming_modLanes (c : Chip) (f : LaneId → Lane → Lane) (h : ∀ k n, BootHeld n (f k n)) : Forming c (c.modLanes f) :=
  ⟨fun k => by cases k <;> exact h _ _, rfl, rfl, rfl⟩

theorem forming_modStep (c : Chip) (k : Nat) (f : Stepper → Stepper) : Forming c (c.modStep k f) := ⟨fun _ => BootHeld.refl _, rfl, rfl, rfl⟩

theorem forming_modSnow (c : Chip) (f : Snow → Snow) : Forming c (c.modSnow f) := ⟨fun _ => BootHeld.refl _, rfl, rfl, rfl⟩

theorem forming_ite (c : Chip) (b : Prop) [Decidable b] {d e : Chip} (hd : Forming c d) (he : Forming c e) : Forming c (if b then d else e) := by
  split
  · exact hd
  · exact he

theorem forming_foldl {α : Type} (f : Chip → α → Chip) (h : ∀ c x, Forming c (f c x)) (xs : List α) (c : Chip) : Forming c (xs.foldl f c) :=
  List.foldlRecOn xs f (motive := fun d => Forming c d) (Forming.refl c) fun d hd x _ => hd.trans (h d x)

theorem forming_laneInert (c : Chip) (l : LaneId) : Forming c (c.laneInert l) := by
  refine (forming_of_eq (clearLinks_field c l Chip.lanes fun _ _ _ => modLink_lanes ..)
    (clearLinks_field c l Chip.dev fun _ _ _ => modLink_dev ..)).trans (forming_modLane _ l _ ⟨rfl, rfl, .inl rfl⟩)

theorem forming_writeHold (c : Chip) (b : Bool) : Forming c (c.writeHold b) :=
  forming_ite c _ (forming_modLanes c _ fun k n => by
    split
    · exact ⟨rfl, rfl, .inl rfl⟩
    · exact BootHeld.refl n) (Forming.refl c)

theorem forming_hold (c : Chip) :
    Forming c (((c.modSnow (fun w => { w with step := 4, cause := 12 })).agreedFault 0x0602 0 12 0xFF).writeHold true) :=
  let d := c.modSnow (fun w => { w with step := 4, cause := 12 })
  have hd : Forming c d := forming_modSnow c _
  have hfault : Forming d (d.agreedFault 0x0602 0 12 0xFF) := (agreedFault_only ..).forming
  (hd.trans hfault).trans (forming_writeHold _ true)

theorem forming_badTable (c : Chip) (k : Nat) :
    Forming c ((c.modStep k (fun x => { x with tableBad := true })).agreedFault 0x1206 0x06 k 0xFF) := by
  let d := c.modStep k (fun x => { x with tableBad := true })
  have hd : Forming c d := forming_modStep c k _
  have hfault : Forming d (d.agreedFault 0x1206 0x06 k 0xFF) := (agreedFault_only ..).forming
  exact hd.trans hfault

theorem bootHeld_ite (n : Lane) (b : Prop) [Decidable b] {m : Lane} (h : BootHeld n m) : BootHeld n (if b then m else n) := by
  split
  · exact h
  · exact BootHeld.refl n

/-- What a formation leaves: the authority and its class as formed, and every lane's boot record (R110, R113). -/
theorem form_forming (c : Chip) (l : LaneId) (m : Mask) : (∀ k, BootHeld (c.lanes.get k) ((c.form l m).lanes.get k)) ∧
    (c.form l m).dev.formed = true ∧ (c.form l m).dev.authority = m ∧ (c.form l m).dev.cls = some (classOf m) := by
  unfold Chip.form
  extract_lets pacing nt never cfg power interval agreed c1 c2 c3 c4 c5 c6 c7 c8 c9 c10 c11 held
  have h2 : Forming c1 c2 := forming_ite _ _ ((forming_modLanes c1
      (fun k n => if hasLane m k then { n with power := { n.power with drive := false } } else n) fun k n => bootHeld_ite n _ ⟨rfl, rfl, .inl rfl⟩).trans
    (forming_of_eq rfl rfl)) (forming_of_eq rfl rfl)
  have h3 : Forming c2 c3 := forming_modLanes c2 _ fun _ _ => ⟨rfl, rfl, .inl rfl⟩
  have h4 : Forming c3 c4 := forming_modLanes c3 _ fun _ n => bootHeld_ite n _ ⟨rfl, rfl, .inr rfl⟩
  have h5 : Forming c4 c5 := forming_modLanes c4 _ fun _ n => bootHeld_ite n _ ⟨rfl, rfl, .inl rfl⟩
  have h6 : Forming c5 c6 := forming_of_eq rfl rfl
  have h7 : Forming c6 c7 := forming_of_eq (reportClass_lanes c6) (reportClass_dev c6)
  have h8 : Forming c7 c8 := by
    refine forming_foldl _ (fun d t => ?_) _ c7
    split
    · exact forming_badTable d t.1
    · exact Forming.refl d
  have h9 : Forming c8 c9 := forming_foldl _ (fun d k => forming_ite d _ (forming_laneInert d k) (Forming.refl d)) _ c8
  have h10 : Forming c9 c10 := forming_foldl _ (fun d k => (localFault_only ..).forming) _ c9
  have h11 : Forming c10 c11 := forming_ite _ _ (forming_modLanes c10 _ fun _ _ => ⟨rfl, rfl, .inl rfl⟩) (Forming.refl c10)
  have h := (((((((((h2.trans h3).trans h4).trans h5).trans h6).trans h7).trans h8).trans h9).trans h10).trans h11).trans
    (forming_ite c11 (classOf m = 2 ∨ held = true) (forming_hold c11) (Forming.refl c11))
  exact ⟨h.lanes, h.formed, h.authority, h.cls⟩

theorem laneInert_boot (c : Chip) (l k : LaneId) : ((c.laneInert l).lanes.get k).boot = (c.lanes.get k).boot := by
  refine (modLane_keeps _ l k _ Lane.boot ?_).trans ?_
  · exact fun _ => rfl
  · rw [clearLinks_field c l Chip.lanes fun _ _ _ => modLink_lanes ..]

theorem fenceOne_boot_eq (c : Chip) (l : LaneId) (code : Nat) : ((c.fenceOne l code).lanes.get l).boot =
    { (c.lanes.get l).boot with fenced := true, fenceCode := code } := by
  unfold Chip.fenceOne
  simp [laneInert_boot]

theorem LanesAlike.boot {c d : Chip} (h : LanesAlike c d) (l : LaneId) : (d.lanes.get l).boot = (c.lanes.get l).boot := by
  rw [h l]
  rfl

/-- A boot record with the refusal of R109 put into it. -/
def Boot.refused (b : Boot) : Boot := { b with state := .refused, fenced := true, fenceCode := 0x0104, waiting := false }

/-- A refused lane is fenced with 0x0104, and keeps its discovery records (R109). -/
theorem refuse_boot (c : Chip) (l : LaneId) : ∃ sent, ((c.refuse l).lanes.get l).boot = { (c.lanes.get l).boot.refused with sent := sent } := by
  let d := ((c.localFault l 0x0104 0x01 l.idx l.idx).laneInert l).modLane l (fun n =>
    { n with boot := { n.boot with state := .refused, fenced := true, fenceCode := 0x0104, waiting := false } })
  have hd : (d.lanes.get l).boot = (c.lanes.get l).boot.refused := by
    simp only [d, modLane_lanes, tri_get_set_same, laneInert_boot, (localFault_only ..).lanesAlike.boot]
    rfl
  have hfence : ((d.fenceOne l 0x0104).setClass.linkRules.lanes.get l).boot = (c.lanes.get l).boot.refused := by
    rw [linkRules_lanes, (setClass_lanesAlike _).boot, fenceOne_boot_eq, hd]
    rfl
  have hrefuse : ∃ e : Chip, (e.lanes.get l).boot = (c.lanes.get l).boot.refused ∧
      c.refuse l = e.modLane l (fun n => { n with boot := { n.boot with sent := some (e.discOf l) } }) := by
    by_cases h : d.inAuth l = true
    · exact ⟨_, hfence, by unfold Chip.refuse; exact congrArg (fun e : Chip => e.modLane l fun n =>
        { n with boot := { n.boot with sent := some (e.discOf l) } }) (if_pos h)⟩
    · exact ⟨d, hd, by unfold Chip.refuse; exact congrArg (fun e : Chip => e.modLane l fun n =>
        { n with boot := { n.boot with sent := some (e.discOf l) } }) (if_neg h)⟩
  obtain ⟨e, he, heq⟩ := hrefuse
  exact ⟨some (e.discOf l), by rw [heq, modLane_lanes, tri_get_set_same, ← he]⟩

/-! ### Comparing, forming and taking records -/

/-- A lane's boot record before and after steps of its own joining: the records seen, its mark of adoption, and a state that those steps give. -/
structure Joining (n m : Lane) : Prop where
  seen : m.boot.seen = n.boot.seen
  adopted : m.boot.adopted = n.boot.adopted

theorem Joining.trans {n m k : Lane} (h : Joining n m) (h' : Joining m k) : Joining n k :=
  ⟨h'.seen.trans h.seen, h'.adopted.trans h.adopted⟩

theorem BootHeld.joining {n m : Lane} (h : BootHeld n m) : Joining n m := ⟨h.1, h.2.1⟩

theorem refuse_joining (c : Chip) (l : LaneId) : Joining (c.lanes.get l) ((c.refuse l).lanes.get l) := by
  obtain ⟨sent, h⟩ := refuse_boot c l
  exact ⟨by rw [h]; rfl, by rw [h]; rfl⟩

theorem refuse_state (c : Chip) (l : LaneId) : ((c.refuse l).lanes.get l).boot.state = .refused := by
  obtain ⟨sent, h⟩ := refuse_boot c l
  rw [h]
  rfl

theorem joining_modLane (c : Chip) (l : LaneId) (f : Lane → Lane) (h : Joining (c.lanes.get l) (f (c.lanes.get l))) :
    Joining (c.lanes.get l) ((c.modLane l f).lanes.get l) := by
  rw [modLane_lanes, tri_get_set_same]
  exact h

theorem compareLane_joining (c : Chip) (l : LaneId) : Joining (c.lanes.get l) ((c.compareLane l).lanes.get l) := by
  have hrefl : Joining (c.lanes.get l) (c.lanes.get l) := ⟨rfl, rfl⟩
  unfold Chip.compareLane
  split
  · exact hrefl
  · split
    · exact hrefl
    · dsimp only
      split
      · split
        · exact joining_modLane c l _ ⟨rfl, rfl⟩
        · exact hrefl
      · split
        · exact refuse_joining c l
        · exact joining_modLane c l _ ⟨rfl, rfl⟩

/-- A lane that has adopted once does not adopt again (R109). -/
theorem compareLane_state {c : Chip} {l : LaneId} (h : (c.lanes.get l).boot.adopted = true) :
    ((c.compareLane l).lanes.get l).boot.state = (c.lanes.get l).boot.state ∨ ((c.compareLane l).lanes.get l).boot.state = .refused := by
  unfold Chip.compareLane
  split
  · exact .inl rfl
  · split
    · exact .inl rfl
    · dsimp only
      split
      · split
        · exact .inl (by rw [modLane_lanes, tri_get_set_same])
        · exact .inl rfl
      · split
        · exact .inr (refuse_state c l)
        · exact absurd h ‹_›

theorem sendFormation_held (c : Chip) (l : LaneId) (m : Mask) (k : LaneId) : BootHeld (c.lanes.get k) ((c.sendFormation l m).lanes.get k) := by
  unfold Chip.sendFormation
  split
  · exact (form_forming c l m).1 k
  · refine (forming_modLanes (c.modDev _) _ ?_).lanes k
    exact fun _ _ => ⟨rfl, rfl, .inl rfl⟩

theorem tryForm_held (c : Chip) (l k : LaneId) : BootHeld (c.lanes.get k) ((c.tryForm l).lanes.get k) := by
  unfold Chip.tryForm
  split
  · exact sendFormation_held ..
  · exact BootHeld.refl _

/-- A record that a lane takes is held under its sender (R107). -/
theorem takeRecord_seen {c : Chip} {rx : LaneId} {r : DiscRec} (hboot : (c.lane rx).boot.state ≠ .booting) (href : (c.lane rx).boot.state ≠ .refused) :
    ((c.takeRecord rx r).lanes.get rx).boot.seen.get r.lane = some r := by
  let d := c.modLane rx (fun n => { n with boot := { n.boot with seen := n.boot.seen.set r.lane (some r) } })
  have hd : ((d.lanes.get rx).boot.seen.get r.lane) = some r := by simp [d]
  have hwait : Joining (d.lanes.get rx) ((d.lowerWait rx r).lanes.get rx) := by
    unfold Chip.lowerWait
    split
    · exact joining_modLane d rx _ ⟨rfl, rfl⟩
    · exact ⟨rfl, rfl⟩
  have hseen := ((hwait.trans (compareLane_joining _ rx)).trans (tryForm_held _ rx rx).joining).seen
  have htake : c.takeRecord rx r = ((d.lowerWait rx r).compareLane rx).tryForm rx := if_neg fun h => h.elim hboot href
  rw [htake, hseen, hd]

end Sys2Proof.Machine

namespace Sys2Proof.Machine
open Sys2Proof

/-! ### Adoption -/

theorem adoptionDone_failed {s : State} {l k : LaneId} (hstate : (s.chip.lane l).boot.state = .adopting)
    (hfrom : (s.chip.lane l).boot.adoptFrom = some k) : adoptionDone l false s = s.onChip fun c => c.refuse l := by
  unfold adoptionDone
  refine (if_neg (not_not.2 hstate)).trans ?_
  rw [hfrom]
  rfl

/-- A lane's store with another lane's booted firmware in its idle bank (R108). -/
def Nvm.withFirmware (n src : Nvm) : Nvm := n.setBank n.idleBank (src.bankState src.booted)

/-- A lane's memory with another firmware in one of its banks. -/
def LaneMem.setBank (m : LaneMem) (b : Nat) (bytes : List Host.Cell) : LaneMem := if b = 0 then { m with bank0 := bytes } else { m with bank1 := bytes }

theorem LaneMem.bank_setBank (m : LaneMem) (b : Nat) (bytes : List Host.Cell) : (m.setBank b bytes).cleared.bank b = bytes := by
  unfold LaneMem.setBank LaneMem.bank
  split <;> simp [LaneMem.cleared, *]

/-- A lane that begins the boot of firmware that it has adopted (R108). -/
def State.adopts (s : State) (l k : LaneId) : State :=
      let n := s.chip.lane l
      let src := (s.chip.lane k).nvm
      let s := s.onMem l (fun m => if n.nvm.idleBank = 0 then { m with bank0 := (s.mem.get k).bank src.booted } else { m with bank1 := (s.mem.get k).bank src.booted })
      let s := s.onChip (fun c => c.modLane l (fun m => { m with nvm := { n.nvm.withFirmware src with marked := n.nvm.idleBank } }))
      (s.rebootLane l).onChip (fun c =>
        (c.modLane l (fun n => { n with boot := { n.boot with adopted := true } })).localFault l 0x0103 0x01 l.idx l.idx)

section
variable {s : State} {l k : LaneId} (hstate : (s.chip.lane l).boot.state = .adopting) (hfrom : (s.chip.lane l).boot.adoptFrom = some k)
include hstate hfrom

theorem adoptionDone_firmware (hfw : (s.chip.lane l).boot.adoptFw = true) : adoptionDone l true s =
    if bankPasses ((s.chip.lane l).nvm.withFirmware (s.chip.lane k).nvm) ((s.mem.get k).bank (s.chip.lane k).nvm.booted)
      (s.chip.lane l).nvm.idleBank then s.adopts l k else s.onChip fun c => c.refuse l := by
  unfold adoptionDone
  refine (if_neg (not_not.2 hstate)).trans ?_
  rw [hfrom]
  refine (if_neg (by decide)).trans ((if_pos hfw).trans ?_)
  by_cases h : bankPasses ((s.chip.lane l).nvm.withFirmware (s.chip.lane k).nvm) ((s.mem.get k).bank (s.chip.lane k).nvm.booted)
      (s.chip.lane l).nvm.idleBank = true
  · rw [if_pos h]
    exact if_neg fun h' => Bool.noConfusion (h.symm.trans ((Bool.not_eq_true' _).mp h'))
  · rw [if_neg h]
    exact if_pos ((Bool.not_eq_true' _).mpr (Bool.eq_false_iff.2 h))

/-- A lane that has adopted a configuration, ready to compare itself again (R108). -/
def Chip.adoptsConfig (c : Chip) (l : LaneId) (src : Nvm) : Chip :=
      let c := (c.localFault l 0x0102 0x01 l.idx l.idx).modLane l (fun n => { n with nvm := n.nvm.adopt src })
      c.modLane l (fun n => { n with boot := { n.boot with state := .ready, adopted := true, check := n.nvm.loaded.check } })

theorem adoptionDone_config (hfw : (s.chip.lane l).boot.adoptFw = false) : adoptionDone l true s =
    s.onChip fun c => ((c.adoptsConfig l (s.chip.lane k).nvm).compareLane l).tryForm l := by
  unfold adoptionDone
  refine (if_neg (not_not.2 hstate)).trans ?_
  rw [hfrom]
  exact (if_neg (by decide)).trans (if_neg (Bool.eq_false_iff.1 hfw))

end

theorem adopts_mem (s : State) (l k : LaneId) : (s.adopts l k).mem =
    s.mem.set l ((s.mem.get l).setBank (s.chip.lane l).nvm.idleBank ((s.mem.get k).bank (s.chip.lane k).nvm.booted)).cleared := by
  unfold State.adopts
  simp only [onChip_mem, rebootLane_mem, onMem_mem, tri_get_set_same]
  simp [LaneMem.setBank]

theorem adopts_lane (s : State) (l k : LaneId) : ((s.adopts l k).chip.lanes.get l).nvm.marked = (s.chip.lane l).nvm.idleBank ∧
    ((s.adopts l k).chip.lanes.get l).boot.adopted = true ∧ ((s.adopts l k).chip.lanes.get l).boot.state = .booting := by
  unfold State.adopts
  dsimp only
  rw [onChip_chip, (localFault_only ..).lanesAlike l, modLane_lanes, tri_get_set_same, rebootLane_lanes, tri_get_set_same, onChip_chip,
    modLane_lanes, tri_get_set_same]
  exact ⟨rfl, rfl, rfl⟩

theorem adoptsConfig_boot (c : Chip) (l : LaneId) (src : Nvm) : ((c.adoptsConfig l src).lanes.get l).boot.state = .ready ∧
    ((c.adoptsConfig l src).lanes.get l).boot.adopted = true := by
  unfold Chip.adoptsConfig
  dsimp only
  rw [modLane_lanes, tri_get_set_same]
  exact ⟨rfl, rfl⟩

/-- A lane with an adopted configuration compares itself again, and does not adopt a second time (R108, R109). -/
theorem adoptsConfig_joins (c : Chip) (l : LaneId) (src : Nvm) :
    ((((c.adoptsConfig l src).compareLane l).tryForm l).lanes.get l).boot.adopted = true ∧
    ((((c.adoptsConfig l src).compareLane l).tryForm l).lanes.get l).boot.state ≠ .adopting := by
  obtain ⟨hready, hadopted⟩ := adoptsConfig_boot c l src
  have hcompare := compareLane_state hadopted
  obtain ⟨-, hkeeps, hstate⟩ := tryForm_held ((c.adoptsConfig l src).compareLane l) l l
  refine ⟨hkeeps.trans ((compareLane_joining _ l).adopted.trans hadopted), ?_⟩
  rcases hstate with h | h
  · rw [h]
    rcases hcompare with h' | h' <;> rw [h']
    · rw [hready]
      decide
    · decide
  · rw [h]
    decide

/-! ### Formation -/

theorem hasLane_setLaneBit (m : Mask) (l k : LaneId) (v : Bool) : hasLane (setLaneBit m l v) k = if k = l then v else hasLane m k := by
  have hk : k.idx < 8 := by cases k <;> decide
  have hidx : (k.idx = l.idx) = (k = l) := by cases k <;> cases l <;> simp [LaneId.idx]
  rw [hasLane, setLaneBit, hasBit_setBit hk]
  simp only [hidx, hasLane]

theorem formIfAcked_eq {c : Chip} {m : Mask} {f : LaneId} {rest : List LaneId} (hm : c.dev.formation = some m) (hls : lanesOf m = f :: rest) :
    c.formIfAcked = if rest.all (fun k => hasLane c.dev.formAcks k) then c.form f m else c := by
  unfold Chip.formIfAcked
  rw [hm]
  dsimp only
  rw [hls]

theorem formationAck_eq {c : Chip} {m : Mask} {l f : LaneId} {rest : List LaneId} (hm : c.dev.formation = some m) (hls : lanesOf m = f :: rest)
    (hacked : (c.lane l).boot.acked = true) : formationAck l c =
      if rest.all (fun k => hasLane (setLaneBit c.dev.formAcks l true) k) then
        (c.modDev fun d => { d with formAcks := setLaneBit d.formAcks l true }).form f m
      else c.modDev fun d => { d with formAcks := setLaneBit d.formAcks l true } :=
  (if_pos (by rw [hm, hacked]; rfl)).trans (formIfAcked_eq hm hls)

/-- A formation record that goes out names its lanes, and waits for their acknowledgements (R110). -/
theorem sendFormation_out {c : Chip} {l : LaneId} {m : Mask} (h : lanesOf m ≠ [l]) :
    (c.sendFormation l m).dev.formation = some m ∧ (c.sendFormation l m).dev.formAcks = 0 ∧
    ∀ k, ((c.sendFormation l m).lanes.get k).boot.waitRuns = (c.lanes.get k).boot.waitRuns := by
  rw [Chip.sendFormation, if_neg h]
  exact ⟨rfl, rfl, fun k => by cases k <;> rfl⟩

theorem formationAckTimeout_eq {c : Chip} {m : Mask} {l f : LaneId} {rest : List LaneId} (hm : c.dev.formation = some m)
    (hls : lanesOf m = f :: rest) (hrest : l ∈ rest) (hack : hasLane c.dev.formAcks l = false) :
    formationAckTimeout l c = c.sendFormation f (setLaneBit m l false) := by
  unfold formationAckTimeout
  rw [hm]
  dsimp only
  rw [hls]
  exact if_pos (by rw [hack, List.contains_iff_mem.2 hrest]; rfl)

/-- A lane whose formation wait is over. -/
def Chip.waitOver (c : Chip) (l : LaneId) : Chip := c.modLane l (fun n => { n with boot := { n.boot with wait := 0, waitRuns := false } })

theorem formationWaitExpiry_eq {c : Chip} {l : LaneId} (h : (c.lane l).boot.waitRuns = true) : formationWaitExpiry l c =
    if (c.waitOver l).isFormer l && c.dev.formation.isNone then (c.waitOver l).sendFormation l (maskOf ((c.waitOver l).matching l)) else c.waitOver l :=
  if_neg (by rw [h]; decide)

/-- Settles O15: a boot, a record taken, an adoption and a formation each change the boot record of their lane, and a formation also what the
device agrees on. -/
theorem lanesBootAdoptAndForm : Obligations.LanesBootAdoptAndForm := by
  refine ⟨⟨fun s l => ⟨fun k => laneReady_of_clean, fun port h => ?training, fun h => ?send, fun tx d hne hboot href => ⟨fun b hb => ?other,
    fun hsent hlane => ?intact⟩⟩, fun d h1 h2 h3 h4 h5 h6 h7 h8 h9 h10 => ⟨discBytes_length, discOfBytes_discBytes h1 h2 h3 h4 h5 h6 h7 h8 h9 h10⟩⟩,
    fun s l => ⟨fun k hstate hfrom => ⟨?failed, fun hfw hk => ?firmware, fun hfw => ?config⟩, fun m hm hl hready => ?record,
      fun m f rest hm hls hacked => ⟨fun hall => ?acked, fun hsome => ?waits⟩, fun m f rest hm hls hl hack hmore => ?timeout,
      fun c hc hruns => ⟨fun hformer hnone hmore => ?named, fun hformer hnone hlone => ?alone, fun hformer => ?ends⟩⟩⟩
  case training => exact next_congr (onChip_congr (f := linkTrainingDone l port) (g := _) (if_pos h))
  case send => exact next_congr (onChip_congr (f := discoverySend l) (g := _) (if_pos h))
  case other =>
    have hd : discoveryRecord l tx (.other b) s.chip = s.chip.takeRecord l { d with lane := tx } := by
      refine (if_neg hne).trans ?_
      dsimp only
      rw [hb]
    have hexec : exec (.discoveryRecord l tx (.other b)) s = .next _ := next_congr (onChip_congr (f := discoveryRecord l tx (.other b))
      (g := fun c => c.takeRecord l { d with lane := tx }) hd)
    exact ⟨_, hexec, takeRecord_seen (r := { d with lane := tx }) hboot href, rfl⟩
  case intact =>
    have hd : discoveryRecord l tx .intact s.chip = s.chip.takeRecord l d := by
      refine (if_neg hne).trans ?_
      dsimp only
      rw [hsent]
    have hexec : exec (.discoveryRecord l tx .intact) s = .next _ := next_congr (onChip_congr (f := discoveryRecord l tx .intact)
      (g := fun c => c.takeRecord l d) hd)
    subst hlane
    exact ⟨_, hexec, takeRecord_seen hboot href, rfl⟩
  case failed =>
    obtain ⟨sent, hrefused⟩ := refuse_boot s.chip l
    have hboot : ((s.onChip fun c => c.refuse l).chip.lane l).boot = { (s.chip.lanes.get l).boot.refused with sent := sent } := hrefused
    refine ⟨_, next_congr (adoptionDone_failed hstate hfrom), ?_, ?_, ?_, rfl⟩ <;> rw [hboot] <;> rfl
  case firmware =>
    have hexec : exec (.adoptionDone l true) s = .next _ := next_congr (adoptionDone_firmware hstate hfrom hfw)
    refine ⟨_, hexec, ?_⟩
    split
    case isTrue hpass =>
      obtain ⟨hmarked, hadopted, hbooting⟩ := adopts_lane s l k
      refine ⟨by rw [adopts_mem, tri_get_set_ne _ _ _ _ hk], fun _ => ⟨hmarked, hadopted, hbooting, ?_⟩,
        fun h => Bool.noConfusion (hpass.symm.trans h)⟩
      rw [adopts_mem, tri_get_set_same, LaneMem.bank_setBank]
    case isFalse hpass => exact ⟨rfl, fun h => absurd h hpass, fun _ => refuse_state s.chip l⟩
  case config =>
    obtain ⟨hadopted, hst⟩ := adoptsConfig_joins s.chip l (s.chip.lane k).nvm
    exact ⟨_, next_congr (adoptionDone_config hstate hfrom hfw), hadopted, hst⟩
  case record =>
    have hd : formationRecord l s.chip = s.chip.modLane l (fun n => { n with boot := { n.boot with acked := true } }) := by
      unfold formationRecord
      rw [hm]
      exact if_pos (by rw [hl, hready]; rfl)
    exact next_congr (onChip_congr (f := formationRecord l) (g := _) hd)
  case acked =>
    have hd : formationAck l s.chip = (s.chip.modDev fun d => { d with formAcks := setLaneBit d.formAcks l true }).form f m := by
      rw [formationAck_eq hm hls hacked]
      refine if_pos (List.all_eq_true.2 fun k hk => ?_)
      rw [hasLane_setLaneBit]
      split
      · rfl
      · exact hall k hk ‹_›
    have hexec : exec (.formationAck l) s = .next _ := next_congr (onChip_congr (f := formationAck l)
      (g := fun c => (c.modDev fun d => { d with formAcks := setLaneBit d.formAcks l true }).form f m) hd)
    obtain ⟨-, hformed, hauthority, hcls⟩ := form_forming (s.chip.modDev fun d => { d with formAcks := setLaneBit d.formAcks l true }) f m
    exact ⟨_, hexec, hformed, hauthority, hcls, rfl⟩
  case waits =>
    obtain ⟨k, hk, hne, hack⟩ := hsome
    have hd : formationAck l s.chip = s.chip.modDev fun d => { d with formAcks := setLaneBit d.formAcks l true } := by
      rw [formationAck_eq hm hls hacked]
      refine if_neg (Bool.eq_false_iff.1 (List.all_eq_false.2 ⟨k, hk, ?_⟩))
      rw [hasLane_setLaneBit, if_neg hne, hack]
      decide
    exact next_congr (onChip_congr (f := formationAck l) (g := _) hd)
  case timeout =>
    have hexec : exec (.formationAckTimeout l) s = .next _ := next_congr (onChip_congr (f := formationAckTimeout l)
      (g := fun c => c.sendFormation f (setLaneBit m l false)) (formationAckTimeout_eq hm hls hl hack))
    obtain ⟨hformation, hacks, -⟩ := sendFormation_out (c := s.chip) hmore
    exact ⟨_, hexec, hformation, hacks⟩
  case named =>
    subst hc
    have hd : formationWaitExpiry l s.chip = (s.chip.waitOver l).sendFormation l (maskOf ((s.chip.waitOver l).matching l)) := by
      rw [formationWaitExpiry_eq hruns]
      exact if_pos (by rw [hnone]; exact (Bool.and_true _).trans hformer)
    have hexec : exec (.formationWaitExpiry l) s = .next _ := next_congr (onChip_congr (f := formationWaitExpiry l)
      (g := fun c => (c.waitOver l).sendFormation l (maskOf ((c.waitOver l).matching l))) hd)
    obtain ⟨hformation, -, hwaits⟩ := sendFormation_out (c := s.chip.waitOver l) hmore
    exact ⟨_, hexec, hformation, (hwaits l).trans (by rw [Chip.waitOver, modLane_lanes, tri_get_set_same])⟩
  case alone =>
    subst hc
    have hd : formationWaitExpiry l s.chip = (s.chip.waitOver l).form l (maskOf ((s.chip.waitOver l).matching l)) := by
      rw [formationWaitExpiry_eq hruns]
      refine (if_pos (by rw [hnone]; exact (Bool.and_true _).trans hformer)).trans (if_pos hlone)
    have hexec : exec (.formationWaitExpiry l) s = .next _ := next_congr (onChip_congr (f := formationWaitExpiry l)
      (g := fun c => (c.waitOver l).form l (maskOf ((c.waitOver l).matching l))) hd)
    obtain ⟨-, hformed, hauthority, -⟩ := form_forming (s.chip.waitOver l) l (maskOf ((s.chip.waitOver l).matching l))
    exact ⟨_, hexec, hformed, hauthority⟩
  case ends =>
    subst hc
    have hd : formationWaitExpiry l s.chip = s.chip.waitOver l := by
      rw [formationWaitExpiry_eq hruns]
      exact if_neg (by rw [show (s.chip.waitOver l).isFormer l = false from hformer]; exact Bool.false_ne_true)
    exact next_congr (onChip_congr (f := formationWaitExpiry l) (g := fun c => c.waitOver l) hd)

end Sys2Proof.Machine

namespace Sys2Proof.Machine
open Sys2Proof

/-! ### Frames and probe edges of a feedback channel -/

/-- A pulse within 0.35 tick of a whole number of ticks, in units of 10 ns (R546). -/
theorem wholeTicks_bounds {calib p : Nat} (h : wholeTicks calib p = true) :
    1120 * p ≤ (20 * ticksOf calib p + 7) * calib ∧ 20 * ticksOf calib p * calib ≤ 1120 * p + 7 * calib := by
  have hdist := of_decide_eq_true h
  generalize ticksOf calib p = t at hdist ⊢
  have hsum : (20 * t + 7) * calib = 20 * (t * calib) + 7 * calib := by ring
  have hprod : 20 * t * calib = 20 * (t * calib) := by ring
  have hcast : (t : Int) * (calib : Int) = ((t * calib : Nat) : Int) := by push_cast; ring
  rw [hsum, hprod]
  rw [dist, hcast] at hdist
  generalize t * calib = x at hdist ⊢
  split at hdist <;> omega

theorem wholeTicks_of_sentNibbles {calib n : Nat} {pulses ns : List Nat} (h : sentNibbles calib n pulses = some ns) :
    ∀ p ∈ pulses, wholeTicks calib p = true := by
  unfold sentNibbles at h
  dsimp only at h
  split at h
  · rename_i hall
    exact List.all_eq_true.1 hall.2.2
  · cases h

theorem wholeTicks_of_sentPasses {c : Chip} {ch prev calib : Nat} {pulses : List Nat} {pause : Option Nat} {x : Nat × List Nat}
    (h : c.sentPasses ch prev calib pulses pause = some x) : ∀ p ∈ pulses, wholeTicks calib p = true := by
  unfold Chip.sentPasses at h
  dsimp only at h
  split at h
  · cases h
  · exact wholeTicks_of_sentNibbles ‹_›

/-- The passing frame of a channel without serial messages and without a reversed second fast channel (R178). -/
theorem sentFrame_passes {c : Chip} {l : LaneId} {ch : Fin 8} {calib low : Nat} {pulses data : List Nat} {pause : Option Nat} {status : Nat}
    (hmode : c.par Par.fbkMode ch = 3) (hpass : c.sentPasses ch (c.fbOf l ch).sentCal calib pulses pause = some (status, data))
    (hlow : calib ≤ 14 * low) (hserial : (c.parN Par.fbkSentOpt ch).testBit 3 = false) (hreverse : (c.parN Par.fbkSentOpt ch).testBit 1 = false) :
    sentFrame l ch calib pulses pause low c = c.modFb l ch (fun y => { y with
      sentCal := calib
      fast1 := ofNibbles (data.take (c.parN Par.fbkSentFc1 ch / 4))
      fast2 := ofNibbles (data.drop (c.parN Par.fbkSentFc1 ch / 4))
      frameNt := some ((c.lane l).clock.nt - 10 * pause.getD 0) }) := by
  have hr : (if lowOk calib low then c.sentPasses ch (c.fbOf l ch).sentCal calib pulses pause else none) = some (status, data) :=
    (if_pos (decide_eq_true hlow)).trans hpass
  have hpar : ∀ (d : Chip) (p : PInfo) (f : FbChan → FbChan), (d.modFb l ch f).parN p ch = d.parN p ch := fun _ _ _ => rfl
  unfold sentFrame
  refine (if_neg (not_not.2 hmode)).trans ?_
  dsimp only
  rw [hr]
  dsimp only
  simp only [hpar, hserial, hreverse, modFb_modFb]
  rfl

/-- A discarded frame is counted, and its fault recorded (R178). -/
theorem sentFrame_discards {c : Chip} {l : LaneId} {ch : Fin 8} {calib low : Nat} {pulses : List Nat} {pause : Option Nat}
    (hmode : c.par Par.fbkMode ch = 3) (hfail : c.sentPasses ch (c.fbOf l ch).sentCal calib pulses pause = none ∨ 14 * low < calib) :
    sentFrame l ch calib pulses pause low c = (c.modFb l ch (fun y => { y with
      sentCal := calib, serialBits := [], discards := satInc 65535 y.discards })).fbFault l ch 0x1305 := by
  have hr : (if lowOk calib low then c.sentPasses ch (c.fbOf l ch).sentCal calib pulses pause else none) = none := by
    rcases hfail with h | h
    · rw [h]
      exact ite_self _
    · exact if_neg (by rw [lowOk, decide_eq_true_eq]; omega)
  unfold sentFrame
  refine (if_neg (not_not.2 hmode)).trans ?_
  dsimp only
  rw [hr]
  dsimp only [Chip.fbDiscard]
  rw [modFb_modFb, modFb_modFb]

section
variable {c : Chip} {l : LaneId} {ch : Fin 8} (hmode : c.par Par.fbkMode ch = 4) (hbusy : (c.fbOf l ch).ssiBusy = true)
include hmode hbusy

/-- A passing frame of one plain copy is split at FBK.SSI_ST (R180). -/
theorem ssiFrame_passes {bits : List Bool} (hopt : c.parN Par.fbkSsiOpt ch = 0) (hbits : bits.length = c.parN Par.fbkSsiBits ch) :
    ssiFrame l ch true true [bits] true c = c.modFb l ch (fun y => { y with
      ssiBusy := false
      fast1 := ofBits bits % 2 ^ c.parN Par.fbkSsiSt ch
      fast2 := ofBits bits / 2 ^ c.parN Par.fbkSsiSt ch
      frameNt := some (c.lane l).clock.nt }) := by
  have hpar : ∀ (d : Chip) (p : PInfo) (f : FbChan → FbChan), (d.modFb l ch f).parN p ch = d.parN p ch := fun _ _ _ => rfl
  have hcopies : ssiCopies 0 [bits] = some bits := rfl
  have hdata : ssiData (c.parN Par.fbkSsiBits ch) 0 bits = some bits := by
    simp [ssiData, ← hbits, Nat.zero_testBit]
  unfold ssiFrame
  refine (if_neg (by rw [hmode, hbusy]; decide)).trans ?_
  simp only [hpar, hopt, hcopies, hdata, Bool.and_self, modFb_modFb]

theorem ssiFrame_discards {i f m : Bool} (copies : List (List Bool)) (hlevels : (i && f && m) = false) :
    ssiFrame l ch i f copies m c = (c.modFb l ch (fun y => { y with
      ssiBusy := false, discards := satInc 65535 y.discards })).fbFault l ch 0x1305 := by
  unfold ssiFrame
  refine (if_neg (by rw [hmode, hbusy]; decide)).trans ?_
  dsimp only
  rw [hlevels]
  split
  · contradiction
  · rw [Chip.fbDiscard, modFb_modFb]

end

theorem probeEdge_latches {c : Chip} {l : LaneId} {ch : Fin 8} {src : Fin 2} {fall : Bool} {held : Nat} (hheld : c.parN Par.fbkFilter ch ≤ held)
    (hsrc : (c.fbOf l ch).probeSrc = some src.val) (hfall : (c.fbOf l ch).probeFalling = fall) (hnone : (c.fbOf l ch).probeNt = none)
    (hfrom : (c.fbOf l ch).probeFrom ≤ (c.lane l).clock.nt - 10 * held) :
    probeEdge l ch src fall held c = c.modFb l ch (fun y => { y with probeNt := some ((c.lane l).clock.nt - 10 * held) }) :=
  if_pos ⟨decide_eq_true hheld, hsrc, hfall, hnone, hfrom⟩

/-- Any other edge than the armed one changes nothing (R184). -/
theorem probeEdge_ignores {c : Chip} {l : LaneId} {ch : Fin 8} {src : Fin 2} {fall : Bool} {held : Nat}
    (h : (c.fbOf l ch).probeSrc ≠ some src.val ∨ (c.fbOf l ch).probeFalling ≠ fall ∨ (c.fbOf l ch).probeNt ≠ none ∨
      held < c.parN Par.fbkFilter ch ∨ (c.lane l).clock.nt - 10 * held < (c.fbOf l ch).probeFrom) : probeEdge l ch src fall held c = c := by
  refine if_neg ?_
  rintro ⟨haccept, hsrc, hfall, hnone, hfrom⟩
  have hheld := of_decide_eq_true haccept
  rcases h with h | h | h | h | h
  · exact h hsrc
  · exact h hfall
  · exact h hnone
  · exact absurd hheld (Nat.not_le.2 h)
  · exact absurd hfrom (Nat.not_le.2 h)

end Sys2Proof.Machine

namespace Sys2Proof.Machine
open Sys2Proof

/-! ### Presets of a channel -/

theorem modLanes_plain_congr {c d : Chip} (h : d.plain = c.plain) (f : LaneId → Lane → Lane) (hf : ∀ l n, (f l n).plain = (f l n.plain).plain) :
    (d.modLanes f).plain = (c.modLanes f).plain := by
  have hlanes : d.lanes.map Lane.plain = c.lanes.map Lane.plain := congrArg Chip.lanes h
  have hmap : ∀ e : Chip, ((e.modLanes f).lanes.map Lane.plain) = ((e.lanes.map Lane.plain).mapIdx f).map Lane.plain := fun e =>
    tri_ext fun l => by
      simp only [tri_get_map, modLanes_lanes, tri_get_mapIdx]
      exact hf l _
  calc (d.modLanes f).plain = { d.plain with lanes := (d.modLanes f).lanes.map Lane.plain } := rfl
    _ = { c.plain with lanes := (c.modLanes f).lanes.map Lane.plain } := by rw [hmap, hmap, hlanes, h]
    _ = (c.modLanes f).plain := rfl

theorem nth_modNth_fixed {α : Type} (xs : List α) (k : Nat) {f : α → α} {d : α} (h : f d = d) : nth (modNth xs k f) k d = f (nth xs k d) := by
  by_cases hk : k < xs.length
  · exact nth_modNth_same xs k f d hk
  · rw [nth_of_length_le (by simpa [modNth] using hk), nth_of_length_le (by simpa using hk), h]

/-- A lane with its own base of a channel moved by a preset, against what its lane or the device had for the S of the period (R185). -/
def presetOn (d : Dev) (ch : Nat) (v : Int) (n : Lane) : Lane :=
  { n with fb := modNth n.fb ch (fun x => { x with
      base := x.base + (v - (if Par.perFbShare.at d.cfg.ws ch = 1 then wordsCount d.cfg.ws ch (nth d.agreed.fb ch {}).pos.v (nth d.agreed.fb ch {}).rev.v
        else wordsCount d.cfg.ws ch (nth n.round.own.fb ch {}).pos (nth n.round.own.fb ch {}).rev))
      indexRef := false, indexBad := 0 }) }

theorem presetLane_eq (c : Chip) (ch : Nat) (v : Int) (l : LaneId) : c.presetLane ch v l = c.modLane l (presetOn c.dev ch v) :=
  modLane_congr_at (c := c) (l := l) (g := presetOn c.dev ch v) rfl

/-- A preset in every lane (R185). -/
theorem presetLanes_eq (ch : Nat) (v : Int) (ls : List LaneId) : ∀ c : Chip,
    ls.foldl (fun c l => c.presetLane ch v l) c = ls.foldl (fun d l => d.modLane l (presetOn c.dev ch v)) c := by
  induction ls with
  | nil => exact fun _ => rfl
  | cons l ls ih =>
    intro c
    rw [List.foldl_cons, List.foldl_cons, ih, presetLane_eq]
    rfl

/-- A chip with a preset in every lane: the lanes' bases move, and nothing else (R185). -/
def Chip.preset (c : Chip) (ch : Nat) (v : Int) : Chip := LaneId.all.foldl (fun c l => c.presetLane ch v l) c

theorem preset_lane (c : Chip) (ch : Nat) (v : Int) (l : LaneId) : (c.preset ch v).lanes.get l = presetOn c.dev ch v (c.lanes.get l) := by
  rw [Chip.preset, presetLanes_eq, foldl_modLane_get _ _ (by decide), if_pos (mem_allLanes l)]

theorem preset_keeps (c : Chip) (ch : Nat) (v : Int) {α : Type} (p : Chip → α) (hp : ∀ (d : Chip) l f, p (d.modLane l f) = p d) :
    p (c.preset ch v) = p c := foldl_keeps p (fun c l => c.presetLane ch v l) (fun d l => by rw [presetLane_eq, hp]) _ c

/-! ### References shifted with a count -/

/-- An engine with the references that it holds for a channel shifted (R199). -/
def Engine.shift (c : Chip) (ch : Nat) (by_ : Int) (k : Nat) (e : Engine) : Engine :=
  { e with ownRefs := e.ownRefs.map (fun r => if r.1 = ch then (ch, c.shifted k ch by_ r.2) else r) }

/-- A bridge's references shifted with the count of a channel, and those of its engines (R199). -/
def Chip.shiftBridge (ch : Nat) (by_ : Int) (c : Chip) (k : Nat) : Chip :=
    let c := c.modMotor k (fun m => { m with
      rho := if c.parN Par.cmtAngleSrc k = ch then c.shifted k ch by_ m.rho else m.rho
      rho2 := if c.parN Par.cmtAngleSrc2 k = ch then c.shifted k ch by_ m.rho2 else m.rho2 })
    LaneId.all.foldl (fun c l => c.modEngine l k (Engine.shift c ch by_ k)) c

/-- What a preset shifts: references of motors, and of engines under the configuration of a chip; all else stays. -/
structure Shifts (c d : Chip) : Prop where
  bridges : d.bridges = c.bridges
  pintle : d.pintle = c.pintle
  dev : d.dev = { c.dev with motors := d.dev.motors }
  lanes : ∀ l, d.lanes.get l = { c.lanes.get l with engines := (d.lanes.get l).engines }

theorem Shifts.refl (c : Chip) : Shifts c c := ⟨rfl, rfl, rfl, fun _ => rfl⟩

theorem Shifts.trans {c d e : Chip} (h : Shifts c d) (k : Shifts d e) : Shifts c e :=
  ⟨k.bridges.trans h.bridges, k.pintle.trans h.pintle, by rw [k.dev, h.dev], fun l => by rw [k.lanes, h.lanes]⟩

theorem shifts_modEngine (c : Chip) (l : LaneId) (k : Nat) (f : Engine → Engine) : Shifts c (c.modEngine l k f) := by
  refine ⟨rfl, rfl, rfl, fun j => ?_⟩
  by_cases h : j = l
  · subst h
    rw [modEngine_lanes, tri_get_set_same]
  · rw [modEngine_lanes, tri_get_set_ne _ _ _ _ h]

theorem shifts_foldl {α : Type} (f : Chip → α → Chip) (h : ∀ c x, Shifts c (f c x)) (xs : List α) (c : Chip) : Shifts c (xs.foldl f c) :=
  List.foldlRecOn xs f (motive := fun d => Shifts c d) (Shifts.refl c) fun d hd x _ => hd.trans (h d x)

theorem shifts_shiftBridge (ch : Nat) (by_ : Int) (c : Chip) (k : Nat) : Shifts c (c.shiftBridge ch by_ k) := by
  refine Shifts.trans (d := c.modMotor k _) ⟨rfl, rfl, rfl, fun _ => rfl⟩ (shifts_foldl _ (fun d l => shifts_modEngine d l k _) _ _)

theorem shifted_congr {c d : Chip} (h : d.dev.cfg = c.dev.cfg) (k ch : Nat) (by_ : Int) (rho : Nat) :
    d.shifted k ch by_ rho = c.shifted k ch by_ rho := by
  simp only [Chip.shifted, Chip.par, h]

theorem engineShift_congr {c d : Chip} (h : d.dev.cfg = c.dev.cfg) (ch : Nat) (by_ : Int) (k : Nat) : Engine.shift d ch by_ k = Engine.shift c ch by_ k := by
  funext e
  simp only [Engine.shift, shifted_congr h]

/-- The engines that a lane has after the references of one bridge are shifted (R199). -/
theorem shiftBridge_engines (ch : Nat) (by_ : Int) (c : Chip) (k : Nat) (l : LaneId) :
    ((c.shiftBridge ch by_ k).lanes.get l).engines = modNth (c.lanes.get l).engines k (Engine.shift c ch by_ k) := by
  have hcfg : ∀ (xs : List LaneId) (d : Chip), d.dev.cfg = c.dev.cfg → xs.foldl (fun c l => c.modEngine l k (Engine.shift c ch by_ k)) d =
      xs.foldl (fun e l => e.modLane l (fun n => { n with engines := modNth n.engines k (Engine.shift c ch by_ k) })) d := by
    intro xs
    induction xs with
    | nil => exact fun _ _ => rfl
    | cons x xs ih =>
      intro d hd
      rw [List.foldl_cons, List.foldl_cons, ih (d.modEngine x k _) hd, engineShift_congr hd]
      rfl
  unfold Chip.shiftBridge
  dsimp only
  rw [hcfg _ (c.modMotor k _) rfl, foldl_modLane_get _ _ (by decide), if_pos (mem_allLanes l)]
  rfl

theorem shiftRho_eq (c : Chip) (ch : Nat) (by_ : Int) : c.shiftRho ch by_ = (List.range 4).foldl (fun c k => c.shiftBridge ch by_ k) c := rfl

theorem shiftRho_shifts (c : Chip) (ch : Nat) (by_ : Int) : Shifts c (c.shiftRho ch by_) :=
  shifts_foldl _ (fun d k => shifts_shiftBridge ch by_ d k) _ c

theorem engineShift_default (c : Chip) (ch : Nat) (by_ : Int) (k : Nat) : Engine.shift c ch by_ k {} = {} := rfl

/-- Bridges are shifted one after another, each in its own engines. -/
theorem shiftBridges_engine (ch : Nat) (by_ : Int) (l : LaneId) {k : Nat} (ks : List Nat) (hnodup : ks.Nodup) : ∀ c : Chip,
    nth ((ks.foldl (fun c k => c.shiftBridge ch by_ k) c).lanes.get l).engines k {} =
      if k ∈ ks then Engine.shift c ch by_ k (nth (c.lanes.get l).engines k {}) else nth (c.lanes.get l).engines k {} := by
  induction ks with
  | nil => exact fun _ => rfl
  | cons j ks ih =>
    intro c
    obtain ⟨hj, hnodup⟩ := List.nodup_cons.1 hnodup
    have hcfg : (c.shiftBridge ch by_ j).dev.cfg = c.dev.cfg := by rw [(shifts_shiftBridge ch by_ c j).dev]
    rw [List.foldl_cons, ih hnodup, shiftBridge_engines, engineShift_congr hcfg]
    by_cases h : k = j
    · subst h
      rw [if_neg hj, if_pos List.mem_cons_self, nth_modNth_fixed _ _ (engineShift_default ..)]
    · rw [nth_modNth_ne _ _ _ _ _ h]
      simp only [List.mem_cons, h, false_or]

theorem shiftRho_engine (c : Chip) (ch : Nat) (by_ : Int) (l : LaneId) (k : Fin 4) :
    nth ((c.shiftRho ch by_).lanes.get l).engines k.val {} = Engine.shift c ch by_ k.val (nth (c.lanes.get l).engines k.val {}) := by
  rw [shiftRho_eq, shiftBridges_engine ch by_ l _ List.nodup_range, if_pos (List.mem_range.2 k.isLt)]

theorem nth_mapIdx {α β : Type} (f : Nat → α → β) {xs : List α} {k : Nat} (d : α) (e : β) (hk : k < xs.length) :
    nth (xs.mapIdx f) k e = f k (nth xs k d) := by
  simp [nth, List.getD_eq_getElem?_getD, hk]

/-- The plausibility bases of the pairs of a channel are cleared (R187). -/
theorem clearPairs_base {c : Chip} {ch x : Nat} (h : x = ch ∨ c.parN Par.fbkPlausPartner x = ch) :
    (nth (c.clearPairs ch).dev.agreed.fb x {}).plausBase = none := by
  have hfb : (c.clearPairs ch).dev.agreed.fb = c.dev.agreed.fb.mapIdx (fun x f =>
    if x = ch ∨ decide (c.parN Par.fbkPlausPartner x = ch) = true then { f with plausBase := none } else f) := rfl
  rw [hfb]
  by_cases hx : x < c.dev.agreed.fb.length
  · rw [nth_mapIdx _ {} _ hx, if_pos (h.imp id decide_eq_true)]
  · rw [nth_of_length_le (by simpa using hx)]

/-- An operation that passes and whose effect is a change of the chip: what it leaves, but for accounts. -/
theorem exec_of_admits_chip {i : Instr} {o : OpRow} (hrow : opRow i = some o) {s : State} (hadm : s.admits o.attr o.req = true) (f : Chip → Chip)
    (heffect : ∀ g, o.effect o.req g = OpOut.chip g f) (hchecks : ∀ g, Alike s g → o.checks o.req g.chip = []) :
    ∃ g t, Alike s g ∧ exec i s = .next t ∧ t.mem = s.mem ∧ t.chip.pintle = (f g.chip).pintle ∧ t.chip.bridges = (f g.chip).bridges ∧
      t.chip.dev = (f g.chip).dev.withAccounts t.chip.dev ∧ ∀ l, t.chip.lanes.get l = ((f g.chip).lanes.get l).withAccounts (t.chip.lanes.get l) := by
  obtain ⟨g, halike, -, hexec⟩ := exec_of_admits hrow hadm
  have hdone := alike_finish o.attr o.req (OpOut.chip g f)
  exact ⟨g, _, halike, (hexec (hchecks g halike)).trans (next_congr (congrArg (fun x => x.finish o.attr o.req) (heffect g))),
    hdone.mem.trans halike.mem, hdone.pintle, hdone.bridges, hdone.dev, hdone.lanes⟩

/-! ### The operations -/

/-- The chip after FBK.POSITION_SET: bases, pairs and references (R185, R187, R199). -/
def Chip.positionTo (c : Chip) (body : List Byte) : Chip :=
    let ch := fld body 0 1
    let v := presetValue c.dev.cfg.ws ch body
    let f := nth c.dev.agreed.fb ch {}
    let by_ := v - wordsCount c.dev.cfg.ws ch f.pos.v f.rev.v
    let c := (c.preset ch v).modDev (fun d => { d with agreed := { d.agreed with
      fb := modNth d.agreed.fb ch (fun f => { f with aligned := false, prevV := none }) } })
    (c.clearPairs ch).shiftRho ch by_

theorem effectPositionSet_eq (r : Req) (s : State) : effectPositionSet r s = OpOut.chip s fun c => c.positionTo r.body := rfl

theorem preset_cfg (c : Chip) (ch : Nat) (v : Int) : (c.preset ch v).dev.cfg = c.dev.cfg := preset_keeps c ch v (fun c => c.dev.cfg) fun _ _ _ => rfl

/-- What FBK.POSITION_SET leaves as it is, and the bases of the pairs of the channel (R185, R187). -/
theorem positionTo_keeps (c : Chip) (body : List Byte) : (c.positionTo body).pintle = c.pintle ∧ (c.positionTo body).bridges = c.bridges ∧
    (c.positionTo body).dev.cfg = c.dev.cfg ∧
    ∀ x, (x = fld body 0 1 ∨ c.parN Par.fbkPlausPartner x = fld body 0 1) → (nth (c.positionTo body).dev.agreed.fb x {}).plausBase = none := by
  unfold Chip.positionTo
  extract_lets ch v f by_ d
  have hcfg : d.dev.cfg = c.dev.cfg := preset_cfg c ch v
  have hd := shiftRho_shifts (d.clearPairs ch) ch by_
  have hpartner : ∀ x, d.parN Par.fbkPlausPartner x = c.parN Par.fbkPlausPartner x := fun x => by simp only [Chip.parN, Chip.par, hcfg]
  refine ⟨hd.pintle.trans (preset_keeps c ch v Chip.pintle fun _ _ _ => rfl), hd.bridges.trans (preset_keeps c ch v Chip.bridges fun _ _ _ => rfl),
    ?_, fun x hx => ?_⟩
  · rw [hd.dev]
    exact hcfg
  · rw [hd.dev]
    exact clearPairs_base (hx.imp id (hpartner x).trans)

/-- What FBK.POSITION_SET leaves in a lane (R185, R199). -/
theorem positionTo_lane (c : Chip) (body : List Byte) (l : LaneId) :
    (c.positionTo body).lanes.get l = { presetOn c.dev (fld body 0 1) (presetValue c.dev.cfg.ws (fld body 0 1) body) (c.lanes.get l) with
      engines := ((c.positionTo body).lanes.get l).engines } ∧
    ∀ k : Fin 4, nth ((c.positionTo body).lanes.get l).engines k.val {} = Engine.shift c (fld body 0 1)
      (presetValue c.dev.cfg.ws (fld body 0 1) body - wordsCount c.dev.cfg.ws (fld body 0 1) (nth c.dev.agreed.fb (fld body 0 1) {}).pos.v
        (nth c.dev.agreed.fb (fld body 0 1) {}).rev.v) k.val (nth (c.lanes.get l).engines k.val {}) := by
  unfold Chip.positionTo
  extract_lets ch v f by_ d
  have hcfg : (d.clearPairs ch).dev.cfg = c.dev.cfg := preset_cfg c ch v
  have hlane : (d.clearPairs ch).lanes.get l = presetOn c.dev ch v (c.lanes.get l) := preset_lane c ch v l
  refine ⟨?_, fun k => ?_⟩
  · conv_lhs => rw [(shiftRho_shifts (d.clearPairs ch) ch by_).lanes l, hlane]
  · rw [shiftRho_engine, engineShift_congr hcfg, hlane]
    rfl

/-- What FBK.POSITION_SET leaves in a lane of a state that a packet's way has changed in accounts only. -/
theorem positionTo_alike {s g : State} (h : Alike s g) (body : List Byte) (l : LaneId) :
    ((g.chip.positionTo body).lanes.get l).plain =
      { (presetOn s.chip.dev (fld body 0 1) (presetValue s.chip.dev.cfg.ws (fld body 0 1) body) (s.chip.lanes.get l)).plain with
        engines := ((g.chip.positionTo body).lanes.get l).engines } ∧
    ∀ k : Fin 4, nth ((g.chip.positionTo body).lanes.get l).engines k.val {} = Engine.shift s.chip (fld body 0 1)
      (presetValue s.chip.dev.cfg.ws (fld body 0 1) body - wordsCount s.chip.dev.cfg.ws (fld body 0 1) (nth s.chip.dev.agreed.fb (fld body 0 1) {}).pos.v
        (nth s.chip.dev.agreed.fb (fld body 0 1) {}).rev.v) k.val (nth (s.chip.lanes.get l).engines k.val {}) := by
  obtain ⟨hlane, hengines⟩ := positionTo_lane g.chip body l
  have hfb : g.chip.dev.agreed = s.chip.dev.agreed := h.reads (fun c => c.dev.agreed) fun _ _ _ => rfl
  have hengs : (g.chip.lanes.get l).engines = (s.chip.lanes.get l).engines := h.lane l Lane.engines fun _ _ => rfl
  refine ⟨?_, fun k => ?_⟩
  · rw [hlane, h.ws, h.dev, h.lanes l]
    rfl
  · rw [hengines k, h.ws, hfb, hengs, engineShift_congr h.cfg]

theorem checksPositionSet_alike {s g : State} (h : Alike s g) (r : Req) : checksPositionSet r g.chip = checksPositionSet r s.chip := by
  simp only [checksPositionSet, h.par, h.ws]

/-- Settles O25: frames and probe edges change their channel alone, and a preset moves the bases against the value of the period. -/
theorem framesProbesAndPositionSets : Obligations.FramesProbesAndPositionSets := by
  refine ⟨fun s l ch => ⟨fun calib pulses pause low hruns hmode => ⟨fun status data hpass hlow hserial hreverse => ⟨?ticks, ?passes⟩, fun hfail => ?discards⟩,
    fun hruns hmode => ⟨?start, fun bits hbusy hopt hbits => ?frame, fun i f m copies hbusy hlevels => ?bad⟩,
    fun src fall held => ⟨fun hruns hheld hsrc hfall hnone hfrom => ?latch, fun hother => ?ignored⟩,
    fun r hadm hlen hch hsrc hedge harm hzero => ?arm⟩, fun s r hadm hlen hch hzero hzero' hsent hfree => ?preset⟩
  case ticks => exact fun p hp => wholeTicks_bounds (wholeTicks_of_sentPasses hpass p hp)
  case passes =>
    exact next_congr ((onLane_of_runs hruns _).trans (onChip_congr (f := sentFrame l ch calib pulses pause low) (g := _)
      (sentFrame_passes hmode hpass hlow hserial hreverse)))
  case discards =>
    exact next_congr ((onLane_of_runs hruns _).trans (onChip_congr (f := sentFrame l ch calib pulses pause low)
      (g := fun c => (c.modFb l ch _).fbFault l ch 0x1305) (sentFrame_discards hmode hfail)))
  case start => exact next_congr ((onLane_of_runs hruns _).trans (onChip_congr (f := ssiStart l ch) (g := _) (if_pos hmode)))
  case frame =>
    exact next_congr ((onLane_of_runs hruns _).trans (onChip_congr (f := ssiFrame l ch true true [bits] true) (g := _)
      (ssiFrame_passes hmode hbusy hopt hbits)))
  case bad =>
    exact next_congr ((onLane_of_runs hruns _).trans (onChip_congr (f := ssiFrame l ch i f copies m)
      (g := fun c => (c.modFb l ch _).fbFault l ch 0x1305) (ssiFrame_discards hmode hbusy copies hlevels)))
  case latch =>
    exact next_congr ((onLane_of_runs hruns _).trans (onChip_congr (f := probeEdge l ch src fall held) (g := _)
      (probeEdge_latches hheld hsrc hfall hnone hfrom)))
  case ignored =>
    refine next_congr (?_ : s.onLane l (probeEdge l ch src fall held) = s)
    unfold State.onLane
    split
    · exact onChip_congr (f := probeEdge l ch src fall held) (g := id) (probeEdge_ignores hother)
    · rfl
  case arm =>
    obtain ⟨g, halike, -, hexec⟩ := exec_of_admits (i := .probeArm r) rfl hadm
    have hchecks : checksProbeArm r g.chip = [] := by
      rw [checksProbeArm, if_pos ⟨hch, hsrc, hedge, harm⟩, quadFails, if_pos ⟨hlen, hzero⟩]
      rfl
    refine ⟨_, hexec hchecks, (finish_plain ..).trans (plain_of_chip halike (modLanes_plain_congr ?_ _ fun _ _ => rfl))⟩
    exact congrArg State.chip halike.plain
  case preset =>
    have hchecks : ∀ g, Alike s g → checksPositionSet r g.chip = [] := fun g halike => by
      have hlocked : ¬ (s.chip.par Par.fbkMode (fld r.body 0 1) = 3 ∧ fld r.body 8 4 ≠ 0) := fun h => h.2 (hsent h.1)
      rw [checksPositionSet_alike halike, checksPositionSet, if_pos ⟨hlen, hch, hzero, hzero'⟩, if_neg hlocked,
        if_neg (by rw [hfree]; decide)]
      rfl
    obtain ⟨g, t, halike, hexec, hmem, hpintle, hbridges, hdev, hlanes⟩ := exec_of_admits_chip (i := .positionSet r) rfl hadm
      (fun c => c.positionTo r.body) (effectPositionSet_eq r) hchecks
    obtain ⟨hpintle', hbridges', hcfg, hbases⟩ := positionTo_keeps g.chip r.body
    refine ⟨t, hexec, hmem, hpintle.trans (hpintle'.trans halike.pintle), hbridges.trans (hbridges'.trans halike.bridges), ?_, fun x hx => ?_,
      fun l => ?_⟩
    · rw [hdev]
      exact hcfg.trans halike.cfg
    · have hx' : x.val = fld r.body 0 1 ∨ g.chip.parN Par.fbkPlausPartner x.val = fld r.body 0 1 := by
        rw [halike.parN]
        exact hx
      rw [hdev]
      exact hbases x.val hx'
    · obtain ⟨hlane, hengines⟩ := positionTo_alike halike r.body l
      have hplain : (t.chip.lanes.get l).plain = ((g.chip.positionTo r.body).lanes.get l).plain := by rw [hlanes l]; rfl
      have hengs : (t.chip.lanes.get l).engines = ((g.chip.positionTo r.body).lanes.get l).engines := by rw [hlanes l]; rfl
      refine ⟨hplain.trans (hlane.trans ?_), fun k => ?_⟩
      · rw [← hengs]
        rfl
      · rw [lane_eq, hengs]
        exact hengines k

end Sys2Proof.Machine

namespace Sys2Proof.Machine
open Sys2Proof

/-! ### Counting channels -/

/-- The levels of A, B and Z after those that an edge gives. -/
def newLevels (old : Mask) (a b z : Option Bool) : Mask :=
  let put (m : Mask) (n : Nat) (x : Option Bool) : Mask := match x with | some v => setBit m n v | none => m
  put (put (put old 0 a) 1 b) 2 z

theorem hasBit_newLevels (old : Mask) (a b z : Option Bool) : hasBit (newLevels old a b z) 0 = a.getD (hasBit old 0) ∧
    hasBit (newLevels old a b z) 1 = b.getD (hasBit old 1) := by
  cases a <;> cases b <;> cases z <;> simp [newLevels, hasBit_setBit]

/-- A channel that has taken new levels, first seen at the tick of an NT (R171, R199). -/
def FbChan.levelled (x : FbChan) (old new : Mask) (nt : Nat) : FbChan :=
  { x with levels := new, hallNt := if old.toNat % 8 ≠ new.toNat % 8 then nt else x.hallNt }

theorem levelled_of_ne {x : FbChan} {old new : Mask} (nt : Nat) (h : old.toNat % 8 ≠ new.toNat % 8) :
    x.levelled old new nt = { x with levels := new, hallNt := nt } := by
  rw [FbChan.levelled, if_pos h]

section
variable (c : Chip) (l : LaneId) (ch : Fin 8) (nt : Nat) (a b z : Option Bool)

/-- A lane's channel with the new levels. -/
def Chip.levelled : Chip := c.modFb l ch fun x => x.levelled (c.fbOf l ch).levels (newLevels (c.fbOf l ch).levels a b z) nt

theorem levelled_eq : c.modFb l ch (fun x => { x with
      levels := newLevels (c.fbOf l ch).levels a b z
      hallNt := if decide ((c.fbOf l ch).levels.toNat % 8 ≠ (newLevels (c.fbOf l ch).levels a b z).toNat % 8) then nt else x.hallNt }) =
    c.levelled l ch nt a b z := by
  simp only [decide_eq_true_eq]
  rfl

theorem fbLevels_quad (h : c.parN Par.fbkMode ch = 1) : c.fbLevels l ch nt a b z =
    (c.levelled l ch nt a b z).quadStep l ch (hasBit (c.fbOf l ch).levels 0) (hasBit (c.fbOf l ch).levels 1)
      (a.getD (hasBit (c.fbOf l ch).levels 0)) (b.getD (hasBit (c.fbOf l ch).levels 1)) := by
  obtain ⟨h0, h1⟩ := hasBit_newLevels (c.fbOf l ch).levels a b z
  rw [← h0, ← h1, ← levelled_eq]
  unfold Chip.fbLevels
  dsimp only
  rw [show (Chip.modFb c l ch _).parN Par.fbkMode ch = 1 from h]
  rfl

theorem fbLevels_hall (h : c.parN Par.fbkMode ch = 2) : c.fbLevels l ch nt a b z =
    (c.levelled l ch nt a b z).hallStep l ch ((c.fbOf l ch).levels.toNat % 8) ((newLevels (c.fbOf l ch).levels a b z).toNat % 8) := by
  rw [← levelled_eq]
  unfold Chip.fbLevels
  dsimp only
  rw [show (Chip.modFb c l ch _).parN Par.fbkMode ch = 2 from h]
  rfl

theorem fbLevels_sine (h : c.parN Par.fbkMode ch = 5) : c.fbLevels l ch nt a b z =
    (c.levelled l ch nt a b z).scStep l ch (hasBit (c.fbOf l ch).levels 0) (hasBit (c.fbOf l ch).levels 1)
      (a.getD (hasBit (c.fbOf l ch).levels 0)) (b.getD (hasBit (c.fbOf l ch).levels 1)) := by
  obtain ⟨h0, h1⟩ := hasBit_newLevels (c.fbOf l ch).levels a b z
  rw [← h0, ← h1, ← levelled_eq]
  unfold Chip.fbLevels
  dsimp only
  rw [show (Chip.modFb c l ch _).parN Par.fbkMode ch = 5 from h]
  rfl

/-- In a mode without counting the levels are only taken. -/
theorem fbLevels_other (h : c.parN Par.fbkMode ch = 0 ∨ c.parN Par.fbkMode ch = 3 ∨ c.parN Par.fbkMode ch = 4) :
    c.fbLevels l ch nt a b z = c.levelled l ch nt a b z := by
  rw [← levelled_eq]
  unfold Chip.fbLevels
  dsimp only
  rcases h with h | h | h
  · rw [show (Chip.modFb c l ch _).parN Par.fbkMode ch = 0 from h]
    rfl
  · rw [show (Chip.modFb c l ch _).parN Par.fbkMode ch = 3 from h]
    rfl
  · rw [show (Chip.modFb c l ch _).parN Par.fbkMode ch = 4 from h]
    rfl

end

section
variable (c : Chip) (l : LaneId) (ch : Nat) (f : FbChan → FbChan)

/-- Whether a channel reports its count with hysteresis (R173). -/
def Chip.hyst : Bool := decide (c.par Par.fbkHyst ch = 1)

theorem setCount_modFb (e : Int) : (c.modFb l ch f).setCount l ch e =
    c.modFb l ch (fun y => { f y with e := e, e' := hystCount (c.hyst ch) e (f y).e' }) := modFb_modFb ..

/-- One count after other changes of the channel (R172, R173). -/
theorem countStep_modFb (hf : ∀ y, (f y).e = y.e) (n : Int) : (c.modFb l ch f).countStep l ch n =
    c.modFb l ch (fun y => { f y with e := y.e + c.fbDir ch * n, e' := hystCount (c.hyst ch) (y.e + c.fbDir ch * n) (f y).e' }) := by
  have he : ((c.modFb l ch f).fbOf l ch).e = (c.fbOf l ch).e := fbOf_modFb_field c l ch f FbChan.e hf
  rw [Chip.countStep, setCount_modFb, he]
  exact modFb_congr _ _ _ _ _ rfl

theorem fbSpoil_modFb (code : Nat) : (c.modFb l ch f).fbSpoil l ch code = (c.modFb l ch fun y => { f y with faulted := true }).fbFault l ch code := by
  rw [Chip.fbSpoil, modFb_modFb]

end

theorem quadStep_a (c : Chip) (l : LaneId) (ch : Nat) {a a' : Bool} (b : Bool) (h : a ≠ a') :
    c.quadStep l ch a b a' b = c.countStep l ch (if a' != b then 1 else -1) := by
  cases a <;> cases a' <;> cases b <;> trivial

theorem quadStep_b (c : Chip) (l : LaneId) (ch : Nat) (a : Bool) {b b' : Bool} (h : b ≠ b') :
    c.quadStep l ch a b a b' = c.countStep l ch (if b' == a then 1 else -1) := by
  cases a <;> cases b <;> cases b' <;> trivial

theorem quadStep_both (c : Chip) (l : LaneId) (ch : Nat) {a a' b b' : Bool} (ha : a ≠ a') (hb : b ≠ b') :
    c.quadStep l ch a b a' b' = c.fbSpoil l ch 0x1301 := if_pos (by simp [ha, hb])

theorem scStep_a (c : Chip) (l : LaneId) (ch : Nat) {a a' : Bool} (b : Bool) (h : a ≠ a') :
    c.scStep l ch a b a' b = c.setCount l ch (1024 * (Int.fdiv (c.fbOf l ch).e 1024 + c.fbDir ch * (if a' == b then 1 else -1))) := by
  cases a <;> cases a' <;> cases b <;> trivial

/-- The neighbours of the forward Hall sequence (R172). -/
def hallPairs : List (Nat × Nat) := [(1, 3), (3, 2), (2, 6), (6, 4), (4, 5), (5, 1)]

theorem hallStep_forward (c : Chip) (l : LaneId) (ch : Nat) {old new : Nat} (h : (old, new) ∈ hallPairs) :
    c.hallStep l ch old new = c.countStep l ch 1 := by
  simp only [hallPairs, List.mem_cons, Prod.mk.injEq, List.not_mem_nil, or_false] at h
  rcases h with ⟨rfl, rfl⟩ | ⟨rfl, rfl⟩ | ⟨rfl, rfl⟩ | ⟨rfl, rfl⟩ | ⟨rfl, rfl⟩ | ⟨rfl, rfl⟩ <;> rfl

theorem hallStep_backward (c : Chip) (l : LaneId) (ch : Nat) {old new : Nat} (h : (new, old) ∈ hallPairs) :
    c.hallStep l ch old new = c.countStep l ch (-1) := by
  simp only [hallPairs, List.mem_cons, Prod.mk.injEq, List.not_mem_nil, or_false] at h
  rcases h with ⟨rfl, rfl⟩ | ⟨rfl, rfl⟩ | ⟨rfl, rfl⟩ | ⟨rfl, rfl⟩ | ⟨rfl, rfl⟩ | ⟨rfl, rfl⟩ <;> rfl

/-- Two places follow each other exactly for the neighbours of the sequence. -/
theorem hallPlace_next : ∀ old < 8, ∀ new < 8, ∀ i ∈ hallPlace old, ∀ j ∈ hallPlace new, j = (i + 1) % 6 → (old, new) ∈ hallPairs := by
  decide

theorem hallStep_other (c : Chip) (l : LaneId) (ch : Nat) {old new : Nat} (hold : old < 8) (hnew : new < 8) (hne : old ≠ new)
    (hforward : (old, new) ∉ hallPairs) (hback : (new, old) ∉ hallPairs) : c.hallStep l ch old new = c.fbSpoil l ch 0x1302 := by
  refine (if_neg hne).trans ?_
  split
  · rename_i i j hi hj
    rw [if_neg fun h => hforward (hallPlace_next old hold new hnew i hi j hj h), if_neg fun h => hback (hallPlace_next new hnew old hold j hj i hi h)]
  · rfl

/-! ### The index -/

theorem wrapHalf_spec {cpr : Int} (hpos : 0 < cpr) (x : Int) : -cpr < 2 * wrapHalf cpr x ∧ 2 * wrapHalf cpr x ≤ cpr ∧ cpr ∣ x - wrapHalf cpr x := by
  have hfmod : Int.fmod x cpr = x % cpr := Int.fmod_eq_emod_of_nonneg x hpos.le
  have hlow := Int.emod_nonneg x hpos.ne'
  have hhigh := Int.emod_lt_of_pos x hpos
  have hdvd : cpr ∣ x - x % cpr := Int.dvd_self_sub_emod
  unfold wrapHalf
  rw [hfmod]
  dsimp only
  split
  · have hsub : x - (x % cpr - cpr) = (x - x % cpr) + cpr := by ring
    exact ⟨by omega, by omega, hsub ▸ Int.dvd_add hdvd (Int.dvd_refl cpr)⟩
  · exact ⟨by omega, by omega, hdvd⟩

/-- A number within half a revolution is the only one of its residue there. -/
theorem wrapHalf_eq {cpr : Int} (hpos : 0 < cpr) {x d : Int} (hlow : -cpr < 2 * d) (hhigh : 2 * d ≤ cpr) (h : (x - d) % cpr = 0) :
    wrapHalf cpr x = d := by
  obtain ⟨hlow', hhigh', hdvd⟩ := wrapHalf_spec hpos x
  have hdiff : cpr ∣ wrapHalf cpr x - d := by
    have := Int.dvd_sub (Int.dvd_of_emod_eq_zero h) hdvd
    rwa [sub_sub_sub_cancel_left] at this
  have hzero := Int.eq_zero_of_abs_lt_dvd hdiff (abs_lt.2 ⟨by omega, by omega⟩)
  omega

section
variable {c : Chip} {l : LaneId} {ch : Fin 8} {held : Nat} (hmode : c.parN Par.fbkMode ch = 1 ∨ c.parN Par.fbkMode ch = 5)
  (hheld : c.parN Par.fbkFilter ch ≤ held)
include hmode

include hheld in
theorem indexPulse_eq : indexPulse l ch held c = match c.parN Par.fbkCountMode ch with
    | 1 => (c.modFb l ch (fun x => { x with indexSeen := true })).indexAlign l ch
    | 2 => (c.modFb l ch (fun x => { x with indexSeen := true })).indexLatch l ch
    | _ => c := by
  unfold indexPulse
  refine if_neg ?_
  rintro (⟨h1, h5⟩ | h)
  · exact hmode.elim h1 h5
  · exact Bool.noConfusion ((decide_eq_true hheld).symm.trans h)

end

/-- In count mode 0 an index is ignored, whether it is accepted or not (R174). -/
theorem indexPulse_ignored {c : Chip} {l : LaneId} {ch : Fin 8} {held : Nat} (hcount : c.parN Par.fbkCountMode ch = 0) : indexPulse l ch held c = c := by
  unfold indexPulse
  dsimp only
  split
  · rfl
  · rw [hcount]
    rfl

section
variable (c : Chip) (l : LaneId) (ch : Nat) (f : FbChan → FbChan)

/-- What an index deviates from its place (R175). -/
def Chip.indexDelta (x : FbChan) : Int := wrapHalf (c.par Par.fbkCpr ch) ((x.e + x.base) - c.par Par.fbkIndexPos ch)

theorem fbFault_cfg (code : Nat) : (c.fbFault l ch code).dev.cfg = c.dev.cfg := by
  rw [Chip.fbFault, modDev_dev]
  exact (localFault_only c l code 0x09 ch l.idx).field Dev.cfg fun _ _ _ => rfl

theorem indexJudge_good : (c.modFb l ch f).indexJudge l ch false = c.modFb l ch fun y => { f y with indexBad := 0 } := modFb_modFb ..

/-- One more deviation below the limit spoils the period (R175). -/
theorem indexJudge_bad (hf : ∀ y, (f y).indexBad = y.indexBad) (hlimit : (c.fbOf l ch).indexBad + 1 < c.parN Par.fbkIndexLimit ch) :
    (c.modFb l ch f).indexJudge l ch true =
      (c.modFb l ch fun y => { f y with indexBad := y.indexBad + 1, faulted := true }).fbFault l ch 0x1303 := by
  have hbad : ((c.modFb l ch f).fbOf l ch).indexBad = (c.fbOf l ch).indexBad := fbOf_modFb_field c l ch f FbChan.indexBad hf
  unfold Chip.indexJudge
  rw [if_pos rfl]
  dsimp only
  rw [modFb_modFb, fbSpoil_modFb, hbad]
  have hcfg : ∀ g : FbChan → FbChan, ((c.modFb l ch g).fbFault l ch 0x1303).parN Par.fbkIndexLimit ch = c.parN Par.fbkIndexLimit ch := fun g => by
    rw [Chip.parN, Chip.par, fbFault_cfg]
    rfl
  rw [hcfg, if_neg (Nat.not_le.2 hlimit)]
  exact congrArg (fun d : Chip => d.fbFault l ch 0x1303) (modFb_congr _ _ _ _ _ rfl)

end

theorem indexAlign_first {c : Chip} {l : LaneId} {ch : Nat} (h : (c.fbOf l ch).indexRef = false) : c.indexAlign l ch =
    c.modFb l ch (fun y => { y with
      base := y.base + wrapHalf (c.par Par.fbkCpr ch) (c.par Par.fbkIndexPos ch - (y.e + y.base)), indexRef := true, indexBad := 0 }) := by
  unfold Chip.indexAlign
  simp only [h, Bool.not_false, if_true]

section
variable {c : Chip} {l : LaneId} {ch : Nat} {d : Int} (href : (c.fbOf l ch).indexRef = true) (hd : c.indexDelta ch (c.fbOf l ch) = d)
include href hd

/-- A later index at its place (R175). -/
theorem indexAlign_exact (hzero : d = 0) : c.indexAlign l ch = c.indexJudge l ch false := by
  unfold Chip.indexAlign
  exact (if_neg (by rw [href]; decide)).trans (if_pos (hd.trans hzero))

/-- A later index off its place by no more than the tolerance (R175). -/
theorem indexAlign_tolerated (hne : d ≠ 0) (htol : (d.natAbs : Int) ≤ c.par Par.fbkIndexTol ch) : c.indexAlign l ch =
    (c.modFb l ch (fun y => { y with base := y.base - d, corrections := satInc 65535 y.corrections })).indexJudge l ch false := by
  subst hd
  unfold Chip.indexAlign
  exact (if_neg (by rw [href]; decide)).trans ((if_neg hne).trans (if_pos htol))

theorem indexAlign_refused (hne : d ≠ 0) (htol : c.par Par.fbkIndexTol ch < (d.natAbs : Int)) : c.indexAlign l ch = c.indexJudge l ch true := by
  subst hd
  unfold Chip.indexAlign
  exact (if_neg (by rw [href]; decide)).trans ((if_neg hne).trans (if_neg (not_le.2 htol)))

end

/-- Only one channel of one lane's own differs in its count, and that channel has its count, base, latch and reference. -/
def FbCounted (l : LaneId) (ch : Nat) (c d : Chip) : Prop := ElseSame l c d ∧ ∃ F : FbChan → FbChan,
  (d.lanes.get l).fb = modNth (c.lanes.get l).fb ch F ∧
    ∀ y, (F y).e = y.e ∧ (F y).base = y.base ∧ (F y).latch = y.latch ∧ (F y).indexRef = y.indexRef

theorem FbCounted.refl (l : LaneId) (ch : Nat) (c : Chip) : FbCounted l ch c c :=
  ⟨ElseSame.refl l c, fun x => x, (modNth_id ..).symm, fun _ => ⟨rfl, rfl, rfl, rfl⟩⟩

theorem FbCounted.trans {l : LaneId} {ch : Nat} {c d e : Chip} (h : FbCounted l ch c d) (k : FbCounted l ch d e) : FbCounted l ch c e := by
  obtain ⟨hothers, F, hF, hkeeps⟩ := h
  obtain ⟨hothers', G, hG, hkeeps'⟩ := k
  refine ⟨hothers.trans hothers', fun y => G (F y), by rw [hG, hF, modNth_modNth], fun y => ?_⟩
  obtain ⟨he, hbase, hlatch, href⟩ := hkeeps y
  obtain ⟨he', hbase', hlatch', href'⟩ := hkeeps' (F y)
  exact ⟨he'.trans he, hbase'.trans hbase, hlatch'.trans hlatch, href'.trans href⟩

theorem fbCounted_modFb (l : LaneId) (ch : Nat) (c : Chip) (f : FbChan → FbChan)
    (h : ∀ y, (f y).e = y.e ∧ (f y).base = y.base ∧ (f y).latch = y.latch ∧ (f y).indexRef = y.indexRef) : FbCounted l ch c (c.modFb l ch f) :=
  ⟨elseSame_modLane c l _, f, by rw [modFb_lanes, tri_get_set_same], h⟩

theorem fbCounted_fbFault (l : LaneId) (ch : Nat) (c : Chip) (code : Nat) : FbCounted l ch c (c.fbFault l ch code) := by
  refine ⟨elseSame_localFault c l code 0x09 ch l.idx, fun x => x, ?_, fun _ => ⟨rfl, rfl, rfl, rfl⟩⟩
  rw [modNth_id, Chip.fbFault, modDev_lanes, (localFault_only c l code 0x09 ch l.idx).lanesAlike l]
  rfl

theorem fbCounted_fbFence (l : LaneId) (ch : Nat) (c : Chip) (code : Nat) : FbCounted l ch c (c.fbFence l ch code) := by
  unfold Chip.fbFence
  split
  · exact FbCounted.refl l ch c
  · refine (fbCounted_fbFault l ch c code).trans ?_
    have hfence := fbCounted_modFb l ch (c.fbFault l ch code) (fun x => { x with fenced := true }) fun _ => ⟨rfl, rfl, rfl, rfl⟩
    refine hfence.trans ⟨elseSame_modLane _ l _, fun x => x, ?_, fun _ => ⟨rfl, rfl, rfl, rfl⟩⟩
    rw [modNth_id, Chip.ownFence, modLane_lanes, tri_get_set_same]
    rfl

theorem fbCounted_indexJudge (l : LaneId) (ch : Nat) (c : Chip) (bad : Bool) : FbCounted l ch c (c.indexJudge l ch bad) := by
  unfold Chip.indexJudge
  split
  · dsimp only
    have hspoil : ∀ n, FbCounted l ch c ((c.modFb l ch (fun x => { x with indexBad := n })).fbSpoil l ch 0x1303) := fun n =>
      ((fbCounted_modFb l ch c (fun x => { x with indexBad := n }) fun _ => ⟨rfl, rfl, rfl, rfl⟩).trans
        (fbCounted_modFb l ch _ (fun x => { x with faulted := true }) fun _ => ⟨rfl, rfl, rfl, rfl⟩)).trans
        (fbCounted_fbFault l ch _ 0x1303)
    split
    · exact (hspoil _).trans (fbCounted_fbFence ..)
    · exact hspoil _
  · exact fbCounted_modFb l ch c (fun x => { x with indexBad := 0 }) fun _ => ⟨rfl, rfl, rfl, rfl⟩

/-- In count mode 2 the latch takes the count in every case (R176). -/
theorem indexLatch_latches (c : Chip) (l : LaneId) (ch : Nat) : FbCounted l ch
    (c.modFb l ch (fun x => { x with latch := low32 ((c.fbOf l ch).e + (c.fbOf l ch).base), indexRef := true })) (c.indexLatch l ch) := by
  unfold Chip.indexLatch
  dsimp only
  split
  · exact fbCounted_indexJudge l ch _ _
  · exact FbCounted.refl l ch _

/-- A channel whose index has been seen in the period (R177). -/
def Chip.seenIndex (c : Chip) (l : LaneId) (ch : Nat) : Chip := c.modFb l ch fun x => { x with indexSeen := true }

theorem seenIndex_field (c : Chip) (l : LaneId) (ch : Nat) {α : Type} (p : FbChan → α) (hp : ∀ y : FbChan, p { y with indexSeen := true } = p y) :
    p ((c.seenIndex l ch).fbOf l ch) = p (c.fbOf l ch) := fbOf_modFb_field c l ch (fun x => { x with indexSeen := true }) p hp

theorem seenIndex_ref {c : Chip} {l : LaneId} {ch : Nat} (h : (c.fbOf l ch).indexRef = true) : ((c.seenIndex l ch).fbOf l ch).indexRef = true :=
  (seenIndex_field c l ch FbChan.indexRef fun _ => rfl).trans h

/-- What an index deviates is the number of its residue within half a revolution (R175). -/
theorem seenIndex_delta {c : Chip} {l : LaneId} {ch : Nat} {d : Int} (hpos : 0 < c.par Par.fbkCpr ch) (hlow : -c.par Par.fbkCpr ch < 2 * d)
    (hhigh : 2 * d ≤ c.par Par.fbkCpr ch)
    (hmod : ((c.fbOf l ch).e + (c.fbOf l ch).base - c.par Par.fbkIndexPos ch - d) % c.par Par.fbkCpr ch = 0) :
    (c.seenIndex l ch).indexDelta ch ((c.seenIndex l ch).fbOf l ch) = d := by
  have he : ((c.seenIndex l ch).fbOf l ch).e = (c.fbOf l ch).e := seenIndex_field c l ch FbChan.e fun _ => rfl
  have hbase : ((c.seenIndex l ch).fbOf l ch).base = (c.fbOf l ch).base := seenIndex_field c l ch FbChan.base fun _ => rfl
  rw [Chip.indexDelta, he, hbase]
  exact wrapHalf_eq hpos hlow hhigh hmod

/-- The channel after an index in count mode 2 (R176). -/
theorem seenIndex_latches (c : Chip) (l : LaneId) (ch : Nat) : ElseSame l c ((c.seenIndex l ch).indexLatch l ch) ∧
    ∃ y, (((c.seenIndex l ch).indexLatch l ch).lanes.get l).fb = modNth (c.lanes.get l).fb ch (fun _ => y) ∧
      y.latch = low32 ((c.fbOf l ch).e + (c.fbOf l ch).base) ∧ y.indexRef = true ∧ y.e = (c.fbOf l ch).e ∧ y.base = (c.fbOf l ch).base := by
  have he : ((c.seenIndex l ch).fbOf l ch).e = (c.fbOf l ch).e := seenIndex_field c l ch FbChan.e fun _ => rfl
  have hbase : ((c.seenIndex l ch).fbOf l ch).base = (c.fbOf l ch).base := seenIndex_field c l ch FbChan.base fun _ => rfl
  obtain ⟨hothers, F, hF, hkeeps⟩ := indexLatch_latches (c.seenIndex l ch) l ch
  rw [he, hbase] at hothers hF
  obtain ⟨hFe, hFbase, hFlatch, hFref⟩ := hkeeps { c.fbOf l ch with
    indexSeen := true, latch := low32 ((c.fbOf l ch).e + (c.fbOf l ch).base), indexRef := true }
  have hseen : ElseSame l c (c.seenIndex l ch) := elseSame_modLane c l _
  refine ⟨(hseen.trans ?_).trans hothers, _, ?_, hFlatch, hFref, hFe, hFbase⟩
  · exact elseSame_modLane _ l _
  · rw [hF, modFb_lanes, tri_get_set_same, Chip.seenIndex, modFb_lanes, tri_get_set_same]
    simp only [modNth_modNth]
    exact modNth_congr _ _ _ _ {} rfl

theorem exec_fbEdge_of_accepted {s : State} {l : LaneId} {ch : Fin 8} {held : Nat} {a b z : Option Bool} (hruns : s.chip.runs l = true)
    (hheld : s.chip.parN Par.fbkFilter ch ≤ held) {g : Chip → Chip}
    (h : s.chip.fbLevels l ch ((s.chip.lane l).clock.nt - 10 * held) a b z = g s.chip) : exec (.fbEdge l ch held a b z) s = .next (s.onChip g) :=
  next_congr ((onLane_of_runs hruns _).trans (onChip_congr (f := fbEdge l ch held a b z) (g := g) ((if_pos (decide_eq_true hheld)).trans h)))

theorem exec_indexPulse_of_runs {s : State} {l : LaneId} {ch : Fin 8} {held : Nat} (hruns : s.chip.runs l = true) {g : Chip → Chip}
    (h : indexPulse l ch held s.chip = g s.chip) : exec (.indexPulse l ch held) s = .next (s.onChip g) :=
  next_congr ((onLane_of_runs hruns _).trans (onChip_congr (f := indexPulse l ch held) (g := g) h))

/-- Settles O24: an accepted edge or index changes its own channel alone, by the channel's mode. -/
theorem countingChannelsFollowEdgesAndIndex : Obligations.CountingChannelsFollowEdgesAndIndex := by
  refine ⟨fun s l ch held v w z => ⟨fun a b hshort => ?short, fun hruns hheld => ⟨fun hmode => ⟨fun ha => ?edgeA, fun hb => ?edgeB, fun ha hb => ?both⟩,
    fun hmode old new hold hnew hne => ⟨fun hpair => ?forward, fun hpair => ?backward, fun hpair hpair' => ?jump⟩, fun hmode ha => ?sine, fun hmode => ?other⟩⟩,
    fun s l ch held hmode hcpr hruns hheld => ⟨fun hcount => ?ignored, fun hcount => ⟨fun href hpos hlt => ?first, fun d href hlow hhigh hmod =>
      ⟨fun hzero => ?exact, fun hne htol => ?tolerated, fun htol hne hlimit => ?refused⟩⟩, fun hcount => ?latch⟩⟩
  case short =>
    refine next_congr (?_ : s.onLane l (fbEdge l ch held a b z) = s)
    unfold State.onLane
    split
    · refine onChip_congr (f := fbEdge l ch held a b z) (g := id) (if_neg ?_)
      rw [Chip.fbAccepts, decide_eq_true_eq]
      exact Nat.not_le.2 hshort
    · rfl
  case edgeA =>
    refine exec_fbEdge_of_accepted hruns hheld ((fbLevels_quad _ _ _ _ _ _ _ hmode).trans ?_)
    refine (quadStep_a _ l ch _ ha).trans ((countStep_modFb s.chip l ch _ ?_ _).trans (modFb_congr _ _ _ _ _ rfl))
    exact fun _ => rfl
  case edgeB =>
    refine exec_fbEdge_of_accepted hruns hheld ((fbLevels_quad _ _ _ _ _ _ _ hmode).trans ?_)
    refine (quadStep_b _ l ch _ hb).trans ((countStep_modFb s.chip l ch _ ?_ _).trans (modFb_congr _ _ _ _ _ rfl))
    exact fun _ => rfl
  case both =>
    refine exec_fbEdge_of_accepted hruns hheld ((fbLevels_quad _ _ _ _ _ _ _ hmode).trans ?_)
    refine (quadStep_both _ l ch ha hb).trans ((fbSpoil_modFb s.chip l ch _ _).trans ?_)
    exact congrArg (fun d : Chip => d.fbFault l ch 0x1301) (modFb_congr _ _ _ _ _ rfl)
  case forward =>
    subst hold hnew
    refine exec_fbEdge_of_accepted hruns hheld ((fbLevels_hall _ _ _ _ _ _ _ hmode).trans ?_)
    refine (hallStep_forward _ l ch hpair).trans ((countStep_modFb s.chip l ch _ ?_ _).trans (modFb_congr _ _ _ _ _ ?_))
    · exact fun _ => rfl
    · rw [levelled_of_ne _ (new := newLevels _ (some v) (some w) z) hne, mul_one]
      rfl
  case backward =>
    subst hold hnew
    refine exec_fbEdge_of_accepted hruns hheld ((fbLevels_hall _ _ _ _ _ _ _ hmode).trans ?_)
    refine (hallStep_backward _ l ch hpair).trans ((countStep_modFb s.chip l ch _ ?_ _).trans (modFb_congr _ _ _ _ _ ?_))
    · exact fun _ => rfl
    · rw [levelled_of_ne _ (new := newLevels _ (some v) (some w) z) hne, mul_neg_one, ← sub_eq_add_neg]
      rfl
  case jump =>
    subst hold hnew
    refine exec_fbEdge_of_accepted hruns hheld ((fbLevels_hall _ _ _ _ _ _ _ hmode).trans ?_)
    refine (hallStep_other _ l ch (Nat.mod_lt _ (by decide)) (Nat.mod_lt _ (by decide)) hne hpair hpair').trans
      ((fbSpoil_modFb s.chip l ch _ _).trans (congrArg (fun d : Chip => d.fbFault l ch 0x1302) (modFb_congr _ _ _ _ _ ?_)))
    rw [levelled_of_ne _ (new := newLevels _ (some v) (some w) z) hne]
    rfl
  case sine =>
    refine exec_fbEdge_of_accepted hruns hheld ((fbLevels_sine _ _ _ _ _ _ _ hmode).trans ?_)
    refine (scStep_a _ l ch _ ha).trans ((setCount_modFb s.chip l ch _ _).trans (modFb_congr _ _ _ _ _ ?_))
    have he : ((s.chip.levelled l ch ((s.chip.lane l).clock.nt - 10 * held) (some v) none z).fbOf l ch).e = (s.chip.fbOf l ch).e :=
      fbOf_modFb_field s.chip l ch _ FbChan.e fun _ => rfl
    rw [he]
    rfl
  case other =>
    refine exec_fbEdge_of_accepted hruns hheld ((fbLevels_other _ _ _ _ _ _ _ hmode).trans ?_)
    exact modFb_congr _ _ _ _ _ rfl
  case ignored => exact exec_indexPulse_of_runs hruns (g := id) (indexPulse_ignored hcount)
  case first =>
    obtain ⟨hlow, hhigh, hdvd⟩ := wrapHalf_spec hcpr (s.chip.par Par.fbkIndexPos ch - ((s.chip.fbOf l ch).e + (s.chip.fbOf l ch).base))
    refine ⟨_, (s.chip.fbOf l ch).base + wrapHalf (s.chip.par Par.fbkCpr ch)
      (s.chip.par Par.fbkIndexPos ch - ((s.chip.fbOf l ch).e + (s.chip.fbOf l ch).base)),
      ?_, rfl, ?_, by omega, by omega⟩
    · refine exec_indexPulse_of_runs hruns ?_
      rw [indexPulse_eq hmode hheld, hcount]
      refine (indexAlign_first (c := s.chip.seenIndex l ch) ((seenIndex_field s.chip l ch FbChan.indexRef fun _ => rfl).trans href)).trans
        ((modFb_modFb ..).trans (modFb_congr _ _ _ _ _ ?_))
      rfl
    · obtain ⟨k, hk⟩ := hdvd
      have hsum : (s.chip.fbOf l ch).e + ((s.chip.fbOf l ch).base + wrapHalf (s.chip.par Par.fbkCpr ch)
          (s.chip.par Par.fbkIndexPos ch - ((s.chip.fbOf l ch).e + (s.chip.fbOf l ch).base))) =
        s.chip.par Par.fbkIndexPos ch - s.chip.par Par.fbkCpr ch * k := by linarith
      rw [hsum, Int.sub_mul_emod_self_left, Int.emod_eq_of_lt hpos hlt]
  case exact =>
    refine exec_indexPulse_of_runs hruns ?_
    rw [indexPulse_eq hmode hheld, hcount]
    exact (indexAlign_exact (c := s.chip.seenIndex l ch) (seenIndex_ref href) (seenIndex_delta hcpr hlow hhigh hmod) hzero).trans (indexJudge_good ..)
  case tolerated =>
    refine exec_indexPulse_of_runs hruns ?_
    rw [indexPulse_eq hmode hheld, hcount]
    refine (indexAlign_tolerated (c := s.chip.seenIndex l ch) (seenIndex_ref href) (seenIndex_delta hcpr hlow hhigh hmod) hne htol).trans ?_
    rw [indexJudge_good]
    exact modFb_modFb ..
  case refused =>
    refine exec_indexPulse_of_runs hruns ?_
    rw [indexPulse_eq hmode hheld, hcount]
    refine (indexAlign_refused (c := s.chip.seenIndex l ch) (seenIndex_ref href) (seenIndex_delta hcpr hlow hhigh hmod) hne htol).trans (indexJudge_bad s.chip l ch _ ?_ hlimit)
    exact fun _ => rfl
  case latch =>
    have hindex : indexPulse l ch held s.chip = (s.chip.seenIndex l ch).indexLatch l ch := by
      rw [indexPulse_eq hmode hheld, hcount]
      rfl
    obtain ⟨hothers, y, hfb, hlatch, href, he, hbase⟩ := seenIndex_latches s.chip l ch
    exact ⟨_, y, exec_indexPulse_of_runs hruns (g := fun c => (c.seenIndex l ch).indexLatch l ch) hindex, hfb, hlatch, href, he, hbase, rfl, hothers⟩

end Sys2Proof.Machine

namespace Sys2Proof.Machine
open Sys2Proof

/-! ### Errors that a lane meets in its own memories -/

/-- Only one lane differs, and accounts of packet traffic. -/
structure OwnOnly (l : LaneId) (c d : Chip) : Prop where
  dev : d.dev.plain = c.dev.plain
  pintle : d.pintle = c.pintle
  others : ElseSame l c d

theorem OwnOnly.trans {l : LaneId} {c d e : Chip} (h : OwnOnly l c d) (k : OwnOnly l d e) : OwnOnly l c e :=
  ⟨k.dev.trans h.dev, k.pintle.trans h.pintle, h.others.trans k.others⟩

theorem ownOnly_modLane (c : Chip) (l : LaneId) (f : Lane → Lane) : OwnOnly l c (c.modLane l f) := ⟨rfl, rfl, elseSame_modLane c l f⟩

theorem ownOnly_localFault (c : Chip) (l : LaneId) (code t i lane : Nat) : OwnOnly l c (c.localFault l code t i lane) :=
  ⟨congrArg Chip.dev (localFault_plain c l code t i lane), localFault_pintle .., elseSame_localFault c l code t i lane⟩

/-- A field of a lane that the fault collectors do not hold reads the same after a local fault. -/
theorem localFault_lane (c : Chip) (l k : LaneId) (code t i lane : Nat) {α : Type} (p : Lane → α) (hp : ∀ n a : Lane, p (n.withAccounts a) = p n) :
    p ((c.localFault l code t i lane).lanes.get k) = p (c.lanes.get k) := by
  rw [(localFault_only ..).lanesAlike k, hp]

theorem laneInert_outputs (c : Chip) (l : LaneId) : ((c.laneInert l).lanes.get l).sio.soOn = 0 ∧
    ((c.laneInert l).lanes.get l).nvm = (c.lanes.get l).nvm := by
  rw [Chip.laneInert, modLane_lanes, tri_get_set_same, clearLinks_field c l Chip.lanes fun _ _ _ => modLink_lanes ..]
  exact ⟨rfl, rfl⟩

/-- A lane that halts itself: fenced, with its own outputs off, and its store as it was (R10, R432). -/
theorem selfFence_own {c : Chip} {l : LaneId} (h : c.authLanes ≠ [l]) (code t i : Nat) : OwnOnly l c (c.selfFence l code t i) ∧
    ((c.selfFence l code t i).lanes.get l).boot.fenced = true ∧ ((c.selfFence l code t i).lanes.get l).boot.halted = true ∧
    ((c.selfFence l code t i).lanes.get l).boot.fenceCode = code ∧ ((c.selfFence l code t i).lanes.get l).sio.soOn = 0 ∧
    ((c.selfFence l code t i).lanes.get l).nvm = (c.lanes.get l).nvm := by
  let d := c.localFault l code t i l.idx
  let e := (d.laneInert l).modLane l (fun n => { n with boot := { n.boot with
    fenced := true, halted := true, fenceCode := code, fenceNet := decide (t = 0x0B ∨ t = 0x0C) } })
  have htraffic := sendLinks_traffic l l.partners .vectors 1 e
  have hdev : e.dev = d.dev := laneInert_field d l Chip.dev (fun _ _ _ => modLink_dev ..) fun _ _ => rfl
  have hlone : (e.sendLinks l l.partners .vectors 1).authLanes ≠ [l] := by
    have hauthority : d.dev.authority = c.dev.authority := (localFault_only c l code t i l.idx).field Dev.authority fun _ _ _ => rfl
    rwa [Chip.authLanes, htraffic.dev, hdev, hauthority]
  have hlanes : (c.selfFence l code t i).lanes = e.lanes := by
    unfold Chip.selfFence
    exact (congrArg Chip.lanes (if_neg hlone)).trans htraffic.lanes
  obtain ⟨hso, hnvm⟩ := laneInert_outputs d l
  obtain ⟨hothers, hdev', hbridges, hpintle⟩ := selfFence_else h code t i
  refine ⟨⟨(congrArg Dev.plain hdev').trans (ownOnly_localFault c l code t i l.idx).dev, hpintle, hothers⟩, ?_⟩
  rw [hlanes, modLane_lanes, tri_get_set_same]
  exact ⟨rfl, rfl, rfl, hso, hnvm.trans <| localFault_lane c l l code t i l.idx Lane.nvm fun _ _ => rfl⟩

theorem fenced_of_runs {c : Chip} {l : LaneId} (h : c.runs l = true) : (c.lane l).boot.fenced = false := by
  unfold Chip.runs at h
  simpa using (Bool.and_eq_true_iff.1 h).2

theorem fenced_of_memUp {c : Chip} {l : LaneId} (h : c.memUp l = true) : (c.lane l).boot.fenced = false :=
  fenced_of_runs (Bool.and_eq_true_iff.1 h).1

/-- The chip of a lane that has counted a correction of a quad (R504). -/
def Chip.corrected (c : Chip) (l : LaneId) (region quad : Nat) : Chip :=
  (c.localFault l 0x010B 0x14 region l.idx).modLane l fun n => { n with bist := { n.bist with ecc := countEcc n.bist.ecc (region, quad) } }

theorem corrected_own (c : Chip) (l : LaneId) (region quad : Nat) : OwnOnly l c (c.corrected l region quad) :=
  (ownOnly_localFault ..).trans (ownOnly_modLane ..)

theorem corrected_lane (c : Chip) (l : LaneId) (region quad : Nat) :
    ((c.corrected l region quad).lanes.get l).bist = { (c.lane l).bist with ecc := countEcc (c.lane l).bist.ecc (region, quad) } ∧
    ((c.corrected l region quad).lanes.get l).nvm = (c.lane l).nvm := by
  have hbist : ((c.localFault l 0x010B 0x14 region l.idx).lanes.get l).bist = (c.lanes.get l).bist := localFault_lane c l l _ _ _ _ Lane.bist fun _ _ => rfl
  have hnvm : ((c.localFault l 0x010B 0x14 region l.idx).lanes.get l).nvm = (c.lanes.get l).nvm := localFault_lane c l l _ _ _ _ Lane.nvm fun _ _ => rfl
  rw [Chip.corrected, modLane_lanes, tri_get_set_same]
  dsimp only
  rw [hbist]
  exact ⟨rfl, hnvm⟩

theorem eccCorrection_eq {c : Chip} {l : LaneId} (hup : c.memUp l = true) (region quad : Nat) (cell : FailCell) : eccCorrection l region quad cell c =
    if ((region, quad), c.parN Par.bistEccRepeat) ∈ countEcc (c.lane l).bist.ecc (region, quad) then
      ((c.corrected l region quad).repairCell l { cell with region := region } 2).1
    else c.corrected l region quad := by
  have hpar : (c.corrected l region quad).parN Par.bistEccRepeat = c.parN Par.bistEccRepeat := by
    have hcfg : (c.localFault l 0x010B 0x14 region l.idx).dev.cfg = c.dev.cfg := (localFault_only ..).field Dev.cfg fun _ _ _ => rfl
    rw [Chip.parN, Chip.par, Chip.corrected, modLane_dev, hcfg]
    rfl
  have hecc : ((c.corrected l region quad).lane l).bist.ecc = countEcc (c.lane l).bist.ecc (region, quad) :=
    congrArg Bist.ecc (corrected_lane c l region quad).1
  have hany : (((c.corrected l region quad).lane l).bist.ecc.any fun e => decide (e = ((region, quad), (c.corrected l region quad).parN Par.bistEccRepeat))) =
      decide (((region, quad), c.parN Par.bistEccRepeat) ∈ countEcc (c.lane l).bist.ecc (region, quad)) := by
    rw [hecc, hpar, Bool.eq_iff_iff, List.any_eq_true, decide_eq_true_eq]
    simp only [decide_eq_true_eq, exists_eq_right]
  unfold eccCorrection
  refine (if_neg (by rw [hup]; decide)).trans ?_
  exact (if_congr (by rw [← decide_eq_true_eq (p := _ ∈ _), ← hany]; rfl) rfl rfl)

/-- A cell that a free spare covers is repaired (R504). -/
theorem repairCell_spared {c : Chip} {l : LaneId} {x : FailCell} {foundBy : Nat} {k : Nat × Nat} {m : Nvm}
    (hcovered : (c.lane l).nvm.repairs.any (fun e => e.covers x) = false) (hspare : (c.lane l).nvm.spareFor x = some k)
    (hadd : (c.lane l).nvm.addEntry { kind := k.1, region := x.region, bank := placeOf x, addr := x.addr, bit := x.bit, foundBy := foundBy, spare := k.2 } =
      some m) : c.repairCell l x foundBy = ((c.modLane l (fun n => { n with nvm := m })).localFault l 0x3404 0x14 x.region l.idx, 0) := by
  unfold Chip.repairCell
  dsimp only
  rw [if_neg (by rw [hcovered]; decide), hspare, Option.bind_some, hadd]

theorem spared_own (c : Chip) (l : LaneId) (m : Nvm) (code t i lane : Nat) :
    OwnOnly l c ((c.modLane l (fun n => { n with nvm := m })).localFault l code t i lane) ∧
    (((c.modLane l (fun n => { n with nvm := m })).localFault l code t i lane).lanes.get l).nvm = m ∧
    (((c.modLane l (fun n => { n with nvm := m })).localFault l code t i lane).lanes.get l).bist = (c.lanes.get l).bist := by
  refine ⟨(ownOnly_modLane c l _).trans (ownOnly_localFault _ l code t i lane), ?_, ?_⟩
  · rw [localFault_lane _ l l code t i lane Lane.nvm fun _ _ => rfl, modLane_lanes, tri_get_set_same]
  · rw [localFault_lane _ l l code t i lane Lane.bist fun _ _ => rfl, modLane_lanes, tri_get_set_same]

end Sys2Proof.Machine

namespace Sys2Proof.Machine
open Sys2Proof

/-! ### Fuses -/

/-- The entries that a fuse request burns (R506). -/
def Nvm.burned (n : Nvm) (failed : Nat) : List RepairEntry :=
  (n.unfused.take (48 - n.fuses.length)).take ((n.unfused.take (48 - n.fuses.length)).length - failed)

theorem burned_length (n : Nvm) (failed : Nat) :
    (n.burned failed).length = (n.unfused.take (48 - n.fuses.length)).length - failed := by
  rw [Nvm.burned, List.length_take]
  exact Nat.min_eq_left (Nat.sub_le ..)

/-- A lane's store after a fuse request: the entries that were burned are marked, and stand in the fuses (R506). -/
def Nvm.withFuses (n : Nvm) (failed : Nat) : Nvm :=
  { n with
    log := n.log.map (fun e => if (n.burned failed).contains e then { e with fused := true } else e)
    fuses := n.fuses ++ (n.burned failed).map (fun e => { e with fused := true }) }

/-- The quad that answers a fuse request (R513). -/
def Nvm.fuseQuad (n : Nvm) (failed : Nat) : List Byte :=
  toLe 1 (n.burned failed).length ++ toLe 1 (48 - (n.withFuses failed).fuses.length) ++
    toLe 1 ((n.unfused.take (48 - n.fuses.length)).length - (n.burned failed).length) ++ toLe 13 0

theorem fuseRepairDone_eq {c : Chip} {l : LaneId} (h : (c.lane l).bist.fusing = true) (failed : Nat) : fuseRepairDone l failed c =
    ((c.modLane l (fun m => { m with nvm := (c.lane l).nvm.withFuses failed, bist := { m.bist with fusing := false } })).agreedFault 0x340B 0x01
      l.idx l.idx).finishAll (fun p => p.opcode == 0x3412 && p.arg == l.idx) stOk ((c.lane l).nvm.fuseQuad failed) :=
  if_neg (by rw [h]; decide)

/-- The one pending fuse request has its reply, and the lane's store its fuses (R506, R513). -/
theorem fuseRepairDone_replies {c : Chip} {l : LaneId} {p : PendOp} {k : LaneId} (h : (c.lane l).bist.fusing = true) (failed : Nat)
    (hpend : c.dev.pend = [p]) (hop : p.opcode = 0x3412) (harg : p.arg = l.idx) (hlink : p.link = some k) (hsup : p.suppress = false) :
    (∃ q, (fuseRepairDone l failed c).dev.replies = c.dev.replies ++ [(k, q)] ∧ (fuseRepairDone l failed c).dev.pend = [] ∧
      q.status = stOk ∧ (p.session = 0 → q.payload = (c.lane l).nvm.fuseQuad failed)) ∧
    ((fuseRepairDone l failed c).lanes.get l).bist.fusing = false ∧
    ((fuseRepairDone l failed c).lanes.get l).nvm = (c.lane l).nvm.withFuses failed := by
  let d := c.modLane l (fun m => { m with nvm := (c.lane l).nvm.withFuses failed, bist := { m.bist with fusing := false } })
  have hrecords := agreedFault_only d 0x340B 0x01 l.idx l.idx 1
  have hpend' : (d.agreedFault 0x340B 0x01 l.idx l.idx).dev.pend = [p] :=
    (hrecords.field Dev.pend fun _ _ _ => rfl).trans hpend
  have hreplies : (d.agreedFault 0x340B 0x01 l.idx l.idx).dev.replies = c.dev.replies := hrecords.field Dev.replies fun _ _ _ => rfl
  obtain ⟨q, hq, hpq, -, hst, hdata⟩ := finishAll_link hpend' hlink hsup (test := fun p => p.opcode == 0x3412 && p.arg == l.idx)
    (by rw [hop, harg]; simp) stOk ((c.lane l).nvm.fuseQuad failed)
  have hlanes := hrecords.lanesAlike.trans (noted_finishAll (d.agreedFault 0x340B 0x01 l.idx l.idx) (fun p => p.opcode == 0x3412 && p.arg == l.idx)
    stOk ((c.lane l).nvm.fuseQuad failed)).lanes
  have hd : d.lanes.get l = { c.lanes.get l with nvm := (c.lane l).nvm.withFuses failed, bist := { (c.lanes.get l).bist with fusing := false } } := by
    rw [modLane_lanes, tri_get_set_same]
  rw [fuseRepairDone_eq h]
  refine ⟨⟨q, hq.trans (by rw [hreplies]), hpq, hst, hdata⟩, ?_⟩
  rw [hlanes l, hd]
  exact ⟨rfl, rfl⟩

/-- A lane whose AON has a fuse request, and the operation that waits for it (R506). -/
def Chip.fuseAsked (c : Chip) (l : LaneId) (r : Req) : Chip :=
  (c.modLane l (fun n => { n with bist := { n.bist with fusing := true } })).addPend 0x3412 r { arg := l.idx }

theorem fuseAsked_lane (c : Chip) (l : LaneId) (r : Req) : (c.fuseAsked l r).dev.pend = c.dev.pend ++ [pendOf 0x3412 r { arg := l.idx }] ∧
    (c.fuseAsked l r).pintle = c.pintle ∧ ((c.fuseAsked l r).lane l).bist = { (c.lane l).bist with fusing := true } ∧
    ∀ k, k ≠ l → ((c.fuseAsked l r).lane k).plain = (c.lane k).plain := by
  have hnoted := noted_addPend (c.modLane l (fun n => { n with bist := { n.bist with fusing := true } })) 0x3412 r { arg := l.idx }
  refine ⟨addPend_pend .., hnoted.pintle, ?_, fun k hk => ?_⟩
  · rw [Chip.fuseAsked, lane_eq, hnoted.lanes l, modLane_lanes, tri_get_set_same]
    rfl
  · rw [Chip.fuseAsked, lane_eq, hnoted.lanes k, modLane_lanes, tri_get_set_ne _ _ _ _ hk]
    rfl

theorem effectFuseRepair_eq {r : Req} {l : LaneId} (h : lanesOf r.mask = [l]) (s : State) : effectFuseRepair r s =
    { st := s.onChip (fun c => c.fuseAsked l r), status := stPending } := by
  unfold effectFuseRepair oneLane
  rw [h]
  rfl

theorem engineAccessViolation_eq {c : Chip} {l : LaneId} (hup : c.memUp l = true) (h : (c.lane l).bist.frozen = false) :
    engineAccessViolation l c = (c.localFault l 0x3409 0x15 0 l.idx).ownFence l 0x15 0 :=
  if_neg (by rw [hup, h]; decide)

theorem mem_fencedNow_of_ownFence (c : Chip) (l : LaneId) (t i : Nat) : (t, i) ∈ ((c.ownFence l t i).lanes.get l).fencedNow := by
  rw [Chip.ownFence, modLane_lanes, tri_get_set_same]
  dsimp only
  split
  · exact List.contains_iff_mem.1 ‹_›
  · exact List.mem_append_right _ List.mem_cons_self

/-- A frozen engine is its lane's own change (R77). -/
theorem frozen_own (c : Chip) (l : LaneId) : OwnOnly l c (c.ownFence l 0x15 0) ∧
    ((c.ownFence l 0x15 0).lanes.get l).bist = { (c.lanes.get l).bist with frozen := true } := by
  refine ⟨(ownOnly_modLane c l (fun n => { n with bist := { n.bist with frozen := true } })).trans (ownOnly_modLane _ l _), ?_⟩
  rw [Chip.ownFence, modLane_lanes, tri_get_set_same]
  exact congrArg Lane.bist (tri_get_set_same ..)

/-- A loop context fenced in a lane (R294). -/
theorem loopFence_fences (c : Chip) (l : LaneId) {n : Nat} (hn : n < c.dev.loops.length) : ElseSame l c (c.ownFence l 0x08 n) ∧
    (nth (c.ownFence l 0x08 n).dev.loops n {}).fenced.get l = true := by
  refine ⟨(elseSame_of_eq (d := c.modLoop n _) rfl).trans (elseSame_modLane _ l _), ?_⟩
  have hloops : (c.ownFence l 0x08 n).dev.loops = modNth c.dev.loops n (fun x => { x with fenced := x.fenced.set l true }) := rfl
  rw [hloops, nth_modNth_same _ _ _ _ hn, tri_get_set_same]

/-- Settles O48: an error changes its lane alone, and a repair changes its lane's store. -/
theorem memoryErrorsAndRepairs : Obligations.MemoryErrorsAndRepairs := by
  intro s l n alone fencedBy
  have halone : ∀ {d : Chip} (f : Chip → Chip), f s.chip = d → OwnOnly l s.chip d → alone (s.onChip f) := fun f hf h => by
    subst hf
    exact ⟨rfl, h.dev, h.pintle, h.others⟩
  have hfences : ∀ (i : Instr) (f : Chip → Chip) (code t k : Nat), exec i s = .next (s.onChip f) → f s.chip = s.chip.selfFence l code t k → fencedBy i code := by
    intro i f code t k hexec hf _ hlone
    obtain ⟨hown, hfields⟩ := selfFence_own hlone code t k
    refine ⟨s.onChip f, hexec, halone f hf hown, ?_⟩
    rw [lane_eq, onChip_chip, hf]
    exact hfields
  refine ⟨fun hup => ⟨fun region quad cell => ⟨fun hrare => ?counted, fun k m hrepeat hcovered hspare hadd => ?repaired⟩,
    fun region ctx hcritical => ?critical, fun region ctx hlow hhigh hfenced hctx hfree => ?context, ?core, fun hfrozen => ?still, fun hfrozen => ?frozen,
    fun sector i hsector hlog hspare hcovered => ?sector⟩, fun hdown i hi => ?off, fun r k hadm hbody hses hlink hflag => ?read,
    fun r hadm hbody hmask hact hfenced hcode => ?request, fun hfusing failed => ?unasked,
    fun p k failed hfusing hpend hop harg hlink hsup => ?burned⟩
  case counted =>
    have heq : eccCorrection l region quad cell s.chip = s.chip.corrected l region quad := (eccCorrection_eq hup ..).trans (if_neg hrare)
    obtain ⟨hbist, hnvm⟩ := corrected_lane s.chip l region quad
    have hexec : exec (.eccCorrection l region quad cell) s = .next _ := next_congr (onChip_congr (f := eccCorrection l region quad cell)
      (g := fun c => c.corrected l region quad) heq)
    exact ⟨_, hexec, halone _ rfl (corrected_own ..), hbist, hnvm⟩
  case repaired =>
    obtain ⟨hbist, hnvm⟩ := corrected_lane s.chip l region quad
    have hnvm' : ((s.chip.corrected l region quad).lane l).nvm = n.nvm := hnvm
    have hcell := repairCell_spared (c := s.chip.corrected l region quad) (foundBy := 2) (by rw [hnvm']; exact hcovered) (by rw [hnvm']; exact hspare)
      (by rw [hnvm']; exact hadd)
    have heq := (eccCorrection_eq hup region quad cell).trans ((if_pos hrepeat).trans (congrArg Prod.fst hcell))
    obtain ⟨hown, hnvm, hkept⟩ := spared_own (s.chip.corrected l region quad) l m 0x3404 0x14 region l.idx
    have hexec : exec (.eccCorrection l region quad cell) s = .next _ := next_congr (onChip_congr (f := eccCorrection l region quad cell)
      (g := fun c => ((c.corrected l region quad).modLane l (fun n => { n with nvm := m })).localFault l 0x3404 0x14 region l.idx) heq)
    exact ⟨_, hexec, halone _ rfl ((corrected_own ..).trans hown), hnvm, hkept.trans hbist⟩
  case critical =>
    refine hfences _ (uncorrectableError l region ctx) 0x010D 0x14 region rfl ?_
    unfold uncorrectableError
    exact (if_neg (by rw [hup, fenced_of_memUp hup]; decide)).trans (if_pos hcritical)
  case context =>
    have hcritical : regionCritical region = false := by
      rw [regionCritical, decide_eq_false_iff_not]
      omega
    have heq : uncorrectableError l region (some ctx) s.chip = (s.chip.localFault l 0x1403 0x08 ctx.val l.idx).ownFence l 0x08 ctx.val := by
      unfold uncorrectableError
      refine (if_neg (by rw [hup, fenced_of_memUp hup]; decide)).trans ((if_neg (by rw [hcritical]; decide)).trans ((if_pos ⟨hlow, hhigh⟩).trans ?_))
      exact if_neg (by rw [hfree]; decide)
    have hloops : (s.chip.localFault l 0x1403 0x08 ctx.val l.idx).dev.loops = s.chip.dev.loops := (localFault_only ..).field Dev.loops fun _ _ _ => rfl
    obtain ⟨hothers, hfences⟩ := loopFence_fences (s.chip.localFault l 0x1403 0x08 ctx.val l.idx) l (n := ctx.val) (by rw [hloops]; exact hctx)
    have hexec : exec (.uncorrectableError l region (some ctx)) s = .next _ := next_congr (onChip_congr (f := uncorrectableError l region (some ctx))
      (g := fun c => (c.localFault l 0x1403 0x08 ctx.val l.idx).ownFence l 0x08 ctx.val) heq)
    exact ⟨_, hexec, rfl, hfences, mem_fencedNow_of_ownFence .., (elseSame_localFault s.chip l _ _ _ _).trans hothers⟩
  case core =>
    refine hfences _ (coreAccessViolation l) 0x010E 0x01 l.idx rfl ((if_pos hup).trans (if_neg ?_))
    rw [fenced_of_memUp hup]
    decide
  case still =>
    refine next_congr (onChip_congr (f := engineAccessViolation l) (g := id) (if_pos ?_))
    rw [hup, show (s.chip.lane l).bist.frozen = true from hfrozen]
    rfl
  case frozen =>
    have hexec : exec (.engineAccessViolation l) s = .next _ := next_congr (onChip_congr (f := engineAccessViolation l)
      (g := fun c => (c.localFault l 0x3409 0x15 0 l.idx).ownFence l 0x15 0) (engineAccessViolation_eq hup hfrozen))
    obtain ⟨hown, hbist⟩ := frozen_own (s.chip.localFault l 0x3409 0x15 0 l.idx) l
    rw [localFault_lane _ l l _ _ _ _ Lane.bist fun _ _ => rfl] at hbist
    exact ⟨_, hexec, halone _ rfl ((ownOnly_localFault ..).trans hown), hbist, mem_fencedNow_of_ownFence ..⟩
  case sector =>
    have hplace : placeOf { region := sectorRegion sector, bank := sector, addr := 4096 * sector } = sector := by
      have hregion : 20 ≤ sectorRegion sector := by
        unfold sectorRegion
        split_ifs <;> decide
      rw [placeOf, if_neg (by dsimp only; omega), if_neg (by dsimp only; omega)]
      exact Nat.mul_div_cancel_left sector (by decide)
    have hcell := repairCell_spared (c := s.chip) (l := l) (foundBy := 3) hcovered hspare (if_pos hlog)
    rw [hplace] at hcell
    have heq : nvmVerifyFail l sector s.chip = _ := (if_pos hup).trans (congrArg Prod.fst hcell)
    obtain ⟨hown, hnvm, -⟩ := spared_own s.chip l { n.nvm with log := n.nvm.log ++
      [{ kind := 4, region := sectorRegion sector, bank := sector, addr := 4096 * sector, bit := 0, foundBy := 3, spare := i }] } 0x3404 0x14
      (sectorRegion sector) l.idx
    have hexec : exec (.nvmVerifyFail l sector) s = .next _ := next_congr (onChip_congr (f := nvmVerifyFail l sector) (g := fun c =>
      (c.modLane l (fun m => { m with nvm := { n.nvm with log := n.nvm.log ++
        [{ kind := 4, region := sectorRegion sector, bank := sector, addr := 4096 * sector, bit := 0, foundBy := 3, spare := i }] } })).localFault l
        0x3404 0x14 (sectorRegion sector) l.idx) heq)
    exact ⟨_, hexec, halone _ rfl hown, hnvm⟩
  case off =>
    rcases hi with ⟨a, b, c, rfl⟩ | ⟨a, b, rfl⟩ | rfl | rfl | ⟨a, rfl⟩
    · exact next_congr (onChip_congr (f := eccCorrection l a b c) (g := id) (if_pos (by rw [hdown]; rfl)))
    · exact next_congr (onChip_congr (f := uncorrectableError l a b) (g := id) (if_pos (by rw [hdown]; rfl)))
    · exact next_congr (onChip_congr (f := coreAccessViolation l) (g := id) (if_neg (by rw [hdown]; decide)))
    · exact next_congr (onChip_congr (f := engineAccessViolation l) (g := id) (if_pos (by rw [hdown]; rfl)))
    · exact next_congr (onChip_congr (f := nvmVerifyFail l a) (g := id) (if_neg (by rw [hdown]; decide)))
  case read =>
    obtain ⟨f, hreplies, hplain, hexec⟩ := exec_of_read (i := .resultRead r) rfl hadm hlink hses rfl
    have hnone : checksResultRead r (s.onChip fun c => c.modHost k f).chip = [] := if_pos (by rw [hbody]; rfl)
    exact ⟨_, _, hexec hnone, (finish_plain ..).trans hplain, (finish_link hlink hses hflag rfl).trans (congrArg (· ++ _) hreplies), rfl, rfl⟩
  case request =>
    obtain ⟨g, halike, -, hexec⟩ := exec_of_admits (i := .fuseRepair r) rfl hadm
    have hboot : (g.chip.lane l).boot = (s.chip.lane l).boot := halike.lane l Lane.boot fun _ _ => rfl
    have hactuation : g.chip.dev.actuation = s.chip.dev.actuation := halike.reads (fun c => c.dev.actuation) fun _ _ _ => rfl
    have hchecks : checksFuseRepair r g.chip = [] := by
      unfold checksFuseRepair oneLane
      rw [hmask, payloadFails, if_pos (by rw [hbody]; rfl)]
      exact if_pos ⟨hactuation.trans hact, by rw [hboot]; exact hfenced, by rw [hboot]; exact hcode⟩
    have hexec' := (hexec hchecks).trans (next_congr (congrArg (fun o => o.finish attrFuseRepair r) (effectFuseRepair_eq hmask g)))
    have hdone := alike_finish attrFuseRepair r { st := g.onChip (fun c => c.fuseAsked l r), status := stPending }
    obtain ⟨hpend, hpintle, hbist, hothers⟩ := fuseAsked_lane g.chip l r
    have hpend' := (congrArg Dev.pend hdone.dev).trans hpend
    refine ⟨_, hexec', ?_, ⟨pendOf 0x3412 r { arg := l.idx }, ?_, rfl, rfl, rfl⟩, hdone.mem.trans halike.mem, hdone.pintle.trans (hpintle.trans halike.pintle), fun k hk => ?_⟩
    · exact (hdone.lane l Lane.bist fun _ _ => rfl).trans (hbist.trans (congrArg (fun b : Bist => { b with fusing := true })
        (halike.lane l Lane.bist fun _ _ => rfl)))
    · rw [hpend']
      exact List.mem_append_right _ List.mem_cons_self
    · exact (hdone.lane k Lane.plain fun _ _ => rfl).trans ((hothers k hk).trans (halike.lane k Lane.plain fun _ _ => rfl))
  case unasked =>
    refine next_congr (onChip_congr (f := fuseRepairDone l failed) (g := id) (if_pos ?_))
    rw [show (s.chip.lane l).bist.fusing = false from hfusing]
    rfl
  case burned =>
    obtain ⟨⟨q, hq, hempty, hst, hdata⟩, hdone, hnvm⟩ := fuseRepairDone_replies hfusing failed hpend hop harg hlink hsup
    refine ⟨s.onChip (fuseRepairDone l failed), q, rfl, rfl, hdone, ?_, ?_, hempty, hq, hst, fun hses => ?_⟩
    · rw [lane_eq, onChip_chip, hnvm]
      exact List.length_map ..
    · rw [lane_eq, onChip_chip, hnvm]
      exact (List.length_append.trans (congrArg _ (List.length_map ..))).trans (congrArg _ (burned_length ..))
    · rw [hdata hses, Nvm.fuseQuad, List.append_assoc, List.append_assoc, fld_head_mod, burned_length]
      rfl

end Sys2Proof.Machine

namespace Sys2Proof.Machine
open Sys2Proof

/-! ### Stand-down requested and deferred -/

theorem sdAllowed_alike {s g : State} (h : Alike s g) (l : LaneId) : g.chip.sdAllowed l = s.chip.sdAllowed l := by
  have hdev {α : Type} (p : Dev → α) (hp : ∀ x a : Dev, p (x.withAccounts a) = p x) : p g.chip.dev = p s.chip.dev := h.field p hp
  have hchk (k : LaneId) : (g.chip.lane k).chk = (s.chip.lane k).chk := h.lane k Lane.chk fun _ _ => rfl
  simp only [Chip.sdAllowed, classNow_alike h, h.inAuth, hchk, inService_alike h, hdev Dev.standdown fun _ _ => rfl, hdev (fun d => d.power.state) fun _ _ => rfl,
    hdev (fun d => d.power.target) fun _ _ => rfl,
    hdev Dev.snow fun _ _ => rfl, hdev Dev.thermal fun _ _ => rfl, h.cfg]

/-- A lane that is due for stand-down, and the operation that waits for it (R513). -/
def Chip.sdAsked (c : Chip) (l : LaneId) (r : Req) : Chip :=
  (c.modLane l (fun n => { n with bist := { n.bist with requested := true } })).addPend 0x3410 r { arg := l.idx }

theorem sdAsked_lane (c : Chip) (l : LaneId) (r : Req) : (c.sdAsked l r).dev.pend = c.dev.pend ++ [pendOf 0x3410 r { arg := l.idx }] ∧
    (c.sdAsked l r).pintle = c.pintle ∧ ((c.sdAsked l r).lane l).bist = { (c.lane l).bist with requested := true } ∧
    ∀ k, k ≠ l → ((c.sdAsked l r).lane k).plain = (c.lane k).plain := by
  have hnoted := noted_addPend (c.modLane l (fun n => { n with bist := { n.bist with requested := true } })) 0x3410 r { arg := l.idx }
  refine ⟨addPend_pend .., hnoted.pintle, ?_, fun k hk => ?_⟩
  · rw [Chip.sdAsked, lane_eq, hnoted.lanes l, modLane_lanes, tri_get_set_same]
    rfl
  · rw [Chip.sdAsked, lane_eq, hnoted.lanes k, modLane_lanes, tri_get_set_ne _ _ _ _ hk]
    rfl

theorem effectStanddownNow_eq {r : Req} {l : LaneId} (h : lanesOf r.mask = [l]) (s : State) : effectStanddownNow r s =
    { st := s.onChip (fun c => c.sdAsked l r), status := stPending } := by
  unfold effectStanddownNow oneLane
  rw [h]
  rfl

theorem standdownNow_asks {s : State} {l : LaneId} {r : Req} (hadm : s.admits attrStanddownNow r = true) (hbody : r.body = []) (hmask : lanesOf r.mask = [l])
    (hnone : s.chip.dev.standdown = none) (hallowed : s.chip.sdAllowed l = true) :
    ∃ t, exec (.standdownNow r) s = .next t ∧ t.mem = s.mem ∧ t.chip.pintle = s.chip.pintle ∧
        (t.chip.lane l).bist = { (s.chip.lane l).bist with requested := true } ∧
        (∃ p ∈ t.chip.dev.pend, p.opcode = 0x3410 ∧ p.arg = l.idx ∧ p.tag = r.tag) ∧ ∀ k, k ≠ l → (t.chip.lane k).plain = (s.chip.lane k).plain := by
  obtain ⟨g, halike, -, hexec⟩ := exec_of_admits (i := .standdownNow r) rfl hadm
  have hstanddown : g.chip.dev.standdown = none := (halike.field Dev.standdown fun _ _ => rfl).trans hnone
  have hchecks : checksStanddownNow r g.chip = [] := by
    unfold checksStanddownNow oneLane
    rw [hmask, payloadFails, if_pos (by rw [hbody]; rfl)]
    exact (if_neg (by rw [hstanddown]; decide)).trans (if_pos ((sdAllowed_alike halike l).trans hallowed))
  have hexec' := (hexec hchecks).trans (next_congr (congrArg (fun o => o.finish attrStanddownNow r) (effectStanddownNow_eq hmask g)))
  have hdone := alike_finish attrStanddownNow r { st := g.onChip (fun c => c.sdAsked l r), status := stPending }
  obtain ⟨hpend, hpintle, hbist, hothers⟩ := sdAsked_lane g.chip l r
  refine ⟨_, hexec', hdone.mem.trans halike.mem, hdone.pintle.trans (hpintle.trans halike.pintle), ?_,
    ⟨pendOf 0x3410 r { arg := l.idx }, ?_, rfl, rfl, rfl⟩, fun k hk => ?_⟩
  · exact (hdone.lane l Lane.bist fun _ _ => rfl).trans (hbist.trans (congrArg (fun b : Bist => { b with requested := true })
      (halike.lane l Lane.bist fun _ _ => rfl)))
  · rw [(congrArg Dev.pend hdone.dev).trans hpend]
    exact List.mem_append_right _ List.mem_cons_self
  · exact (hdone.lane k Lane.plain fun _ _ => rfl).trans ((hothers k hk).trans (halike.lane k Lane.plain fun _ _ => rfl))

/-! ### Logic BIST -/

theorem logicBistDone_off {c : Chip} {l : LaneId} (h : (c.lane l).bist.frozen = true ∨ c.memUp l = false) (ok : Bool) (sig : Nat) :
    logicBistDone l ok sig c = c := if_pos (by rcases h with h | h <;> rw [h] <;> simp)

section
variable {c : Chip} {l : LaneId} (hup : c.memUp l = true) (hfrozen : (c.lane l).bist.frozen = false) (sig : Nat)
include hup hfrozen

/-- A lane in test that has taken a signature (R498). -/
def Chip.signed (c : Chip) (l : LaneId) (sig : Nat) : Chip := c.modLane l fun n => { n with bist := { n.bist with signature := sig % 2 ^ 128 } }

theorem logicBistDone_test (hphase : (c.lane l).bist.phase = 2) (ok : Bool) : logicBistDone l ok sig c =
    if ok then (c.signed l sig).modLane l (fun n => { n with bist := { n.bist with phase := 3, lastPhase := 3 } })
    else if (c.lane l).bist.repeated then
      (((c.signed l sig).modLane l (fun n => { n with bist := { n.bist with outcome := 4 } })).bistFence l 0x3405 0x01 l.idx).sdFenced
    else (c.signed l sig).modLane l (fun n => { n with bist := { n.bist with repeated := true } }) :=
  (if_neg (by rw [hup, hfrozen]; decide)).trans (if_pos hphase)

theorem logicBistDone_passes (hphase : (c.lane l).bist.phase = 2) : logicBistDone l true sig c = c.modLane l fun n => { n with bist := { n.bist with
    signature := sig % 2 ^ 128, phase := 3, lastPhase := 3 } } :=
  (logicBistDone_test hup hfrozen sig hphase true).trans ((if_pos rfl).trans (modLane_modLane ..))

theorem logicBistDone_repeats (hphase : (c.lane l).bist.phase = 2) (hfirst : (c.lane l).bist.repeated = false) :
    logicBistDone l false sig c = c.modLane l fun n => { n with bist := { n.bist with signature := sig % 2 ^ 128, repeated := true } } :=
  (logicBistDone_test hup hfrozen sig hphase false).trans ((if_neg (by decide)).trans ((if_neg (by rw [hfirst]; decide)).trans (modLane_modLane ..)))

omit sig in
/-- A run in phase 1 is refused and counted (R77, R497). -/
theorem logicBistDone_refused (hphase : (c.lane l).bist.phase = 1) (ok : Bool) (sig : Nat) : logicBistDone l ok sig c =
    (c.modLane l (fun n => { n with bist := { n.bist with refused := n.bist.refused + 1 } })).localFault l 0x340A 0x15 0 l.idx :=
  (if_neg (by rw [hup, hfrozen]; decide)).trans ((if_neg (by rw [hphase]; decide)).trans (if_pos (.inl hphase)))

end

theorem sdFenced_of_none {c : Chip} (h : c.dev.standdown = none) : c.sdFenced = c := by
  unfold Chip.sdFenced
  rw [h]

/-- The lanes after one that is not the last in authority has halted itself (R432). -/
theorem selfFence_lanes {c : Chip} {l : LaneId} (h : c.authLanes ≠ [l]) (code t i : Nat) : (c.selfFence l code t i).lanes =
    (((c.localFault l code t i l.idx).laneInert l).modLane l (fun n => { n with boot := { n.boot with
      fenced := true, halted := true, fenceCode := code, fenceNet := decide (t = 0x0B ∨ t = 0x0C) } })).lanes := by
  let e := ((c.localFault l code t i l.idx).laneInert l).modLane l (fun n => { n with boot := { n.boot with
    fenced := true, halted := true, fenceCode := code, fenceNet := decide (t = 0x0B ∨ t = 0x0C) } })
  have htraffic := sendLinks_traffic l l.partners .vectors 1 e
  have hdev : e.dev = (c.localFault l code t i l.idx).dev := laneInert_field _ l Chip.dev (fun _ _ _ => modLink_dev ..) fun _ _ => rfl
  have hlone : (e.sendLinks l l.partners .vectors 1).authLanes ≠ [l] := by
    have hauthority : (c.localFault l code t i l.idx).dev.authority = c.dev.authority :=
      (localFault_only c l code t i l.idx).field Dev.authority fun _ _ _ => rfl
    rwa [Chip.authLanes, htraffic.dev, hdev, hauthority]
  unfold Chip.selfFence
  exact (congrArg Chip.lanes (if_neg hlone)).trans htraffic.lanes

/-- The self-test engine of a lane that halts itself keeps what it has. -/
theorem selfFence_bist {c : Chip} {l : LaneId} (h : c.authLanes ≠ [l]) (code t i : Nat) : ((c.selfFence l code t i).lanes.get l).bist = (c.lanes.get l).bist := by
  have hinert : (((c.localFault l code t i l.idx).laneInert l).lanes.get l).bist = ((c.localFault l code t i l.idx).lanes.get l).bist := by
    rw [Chip.laneInert, modLane_lanes, tri_get_set_same, clearLinks_field _ l Chip.lanes fun _ _ _ => modLink_lanes ..]
  rw [selfFence_lanes h, modLane_lanes, tri_get_set_same]
  exact hinert.trans (localFault_lane c l l code t i l.idx Lane.bist fun _ _ => rfl)

/-- A second mismatch fences the lane (R498). -/
theorem logicBistDone_fences {c : Chip} {l : LaneId} (hup : c.memUp l = true) (hfrozen : (c.lane l).bist.frozen = false)
    (hphase : (c.lane l).bist.phase = 2) (hrepeated : (c.lane l).bist.repeated = true) (hread : (c.lane l).boot.readmitting = false)
    (hlone : c.authLanes ≠ [l]) (hnone : c.dev.standdown = none) (sig : Nat) : OwnOnly l c (logicBistDone l false sig c) ∧
    ((logicBistDone l false sig c).lanes.get l).boot.fenced = true ∧ ((logicBistDone l false sig c).lanes.get l).boot.fenceCode = 0x3405 ∧
    ((logicBistDone l false sig c).lanes.get l).bist.outcome = 4 := by
  let d := (c.signed l sig).modLane l (fun n => { n with bist := { n.bist with outcome := 4 } })
  let e := (d.selfFence l 0x3405 0x01 l.idx).modLane l (fun n => { n with bist := { n.bist with phase := 0 } })
  have hd : d = c.modLane l (fun n => { n with bist := { n.bist with signature := sig % 2 ^ 128, outcome := 4 } }) := modLane_modLane ..
  have hdlane : d.lanes.get l = { c.lanes.get l with bist := { (c.lanes.get l).bist with signature := sig % 2 ^ 128, outcome := 4 } } := by
    rw [hd, modLane_lanes, tri_get_set_same]
  obtain ⟨hown, hfenced, -, hcode, -, -⟩ := selfFence_own (c := d) hlone 0x3405 0x01 l.idx
  have hbist : ((d.selfFence l 0x3405 0x01 l.idx).lanes.get l).bist = (d.lanes.get l).bist := selfFence_bist (c := d) hlone 0x3405 0x01 l.idx
  have hstanddown : e.dev.standdown = none := by
    obtain ⟨-, hdev, -, -⟩ := selfFence_else (c := d) hlone 0x3405 0x01 l.idx
    have hfault : (d.localFault l 0x3405 0x01 l.idx l.idx).dev.standdown = d.dev.standdown :=
      (localFault_only d l 0x3405 0x01 l.idx l.idx).field Dev.standdown fun _ _ _ => rfl
    exact ((congrArg Dev.standdown hdev :).trans hfault).trans hnone
  have hfence : d.bistFence l 0x3405 0x01 l.idx = e := by
    refine if_neg ?_
    rw [lane_eq, hdlane]
    exact Bool.eq_false_iff.1 hread
  have heq : logicBistDone l false sig c = e := by
    refine (logicBistDone_test hup hfrozen sig hphase false).trans ((if_neg (by decide)).trans ((if_pos hrepeated).trans ?_))
    exact (congrArg Chip.sdFenced hfence).trans (sdFenced_of_none hstanddown)
  have he : e.lanes.get l = { (d.selfFence l 0x3405 0x01 l.idx).lanes.get l with
      bist := { ((d.selfFence l 0x3405 0x01 l.idx).lanes.get l).bist with phase := 0 } } := by
    rw [modLane_lanes, tri_get_set_same]
  rw [heq]
  refine ⟨((ownOnly_modLane c l _).trans (ownOnly_modLane _ l _)).trans (hown.trans (ownOnly_modLane _ l _)), ?_, ?_, ?_⟩
  · rw [he]
    exact hfenced
  · rw [he]
    exact hcode
  · rw [he, hbist, hdlane]

end Sys2Proof.Machine

namespace Sys2Proof.Machine
open Sys2Proof

/-! ### Memory BIST -/

theorem localFault_fault (c : Chip) (l : LaneId) (code t i lane : Nat) : ((c.localFault l code t i lane).lanes.get l).fault =
    ((c.lane l).fault.take { code := code, cls := faultClass code, utype := t, inst := i, lane := lane, nt := (c.lane l).clock.nt }).1 := by
  unfold Chip.localFault Chip.recordIn
  dsimp only
  split
  · rw [Chip.event, Chip.pushEvent, modLane_lanes, tri_get_set_same, modHost_lanes, modLane_lanes, tri_get_set_same]
  · rw [modLane_lanes, tri_get_set_same]

theorem memoryBistDone_idle {c : Chip} {l : LaneId} (hok : (c.lane l).nvm.logOk = true) (hphase : (c.lane l).bist.phase ≠ 3) (cells : List FailCell) :
    memoryBistDone l cells c = c := by
  have hrebuilds : c.rebuilds l = false := by
    unfold Chip.rebuilds
    dsimp only
    rw [hok, Bool.not_true, Bool.and_false, Bool.false_and]
  unfold memoryBistDone
  exact (if_neg (by rw [hrebuilds]; decide)).trans (if_pos (by rw [decide_eq_true hphase, Bool.or_true]))

/-- A lane whose memory BIST ends: the entries of regions that passed are cleared (R505). -/
def Chip.memTested (c : Chip) (l : LaneId) (cells : List FailCell) : Chip :=
  c.modLane l fun n => { n with nvm := { n.nvm with log := clearPassed cells n.nvm.log }, bist := { n.bist with cells := [] } }

section
variable {c : Chip} {l : LaneId} (hup : c.memUp l = true) (hfrozen : (c.lane l).bist.frozen = false) (hphase : (c.lane l).bist.phase = 3)
include hup hfrozen hphase

theorem memoryBistDone_test (cells : List FailCell) : memoryBistDone l cells c =
    let d := cells.foldl (fun c x =>
      let (c, act) := c.repairCell l x 1
      c.modLane l (fun n => { n with bist := { n.bist with cells := n.bist.cells ++ [(x, act)] } })) (c.memTested l cells)
    if (d.lane l).boot.fenced then (d.modLane l (fun n => { n with bist := { n.bist with outcome := 5 } })).sdFenced
    else if (d.lane l).boot.readmitting then d.modLane l (fun n => { n with bist := { n.bist with phase := 0 } })
    else d.modLane l (fun n => { n with bist := { n.bist with phase := 4, lastPhase := 4 } }) := by
  have hrebuilds : c.rebuilds l = false := by
    have hnone : decide ((c.lane l).boot.state = .booting ∧ (c.lane l).bist.phase = 0 ∨ (c.lane l).bist.phase = 4) = false := by
      rw [hphase, decide_eq_false_iff_not]
      rintro (⟨-, h⟩ | h) <;> cases h
    unfold Chip.rebuilds
    exact (congrArg (_ && ·) hnone).trans (Bool.and_false _)
  unfold memoryBistDone
  refine (if_neg (by rw [hrebuilds]; decide)).trans (if_neg ?_)
  rw [hup, hfrozen, hphase]
  decide

/-- Memory BIST without failing cells goes on to re-initialisation (R499, R508). -/
theorem memoryBistDone_clean (hread : (c.lane l).boot.readmitting = false) : memoryBistDone l [] c = c.modLane l fun n => { n with
    nvm := { n.nvm with log := clearPassed [] n.nvm.log }, bist := { n.bist with cells := [], phase := 4, lastPhase := 4 } } := by
  have hboot : ((c.memTested l []).lane l).boot = (c.lane l).boot := by
    rw [lane_eq, Chip.memTested, modLane_lanes, tri_get_set_same]
    rfl
  refine (memoryBistDone_test hup hfrozen hphase []).trans ((if_neg ?_).trans ((if_neg ?_).trans ?_))
  · rw [List.foldl_nil, hboot, fenced_of_memUp hup]
    decide
  · rw [List.foldl_nil, hboot, hread]
    decide
  · rw [List.foldl_nil]
    exact modLane_modLane c l _ _

/-- Memory BIST with one failing cell that a free spare covers (R504, R513). -/
theorem memoryBistDone_spared (hread : (c.lane l).boot.readmitting = false) {x : FailCell} {k : Nat × Nat} {m : Nvm} {kept : Nvm}
    (hkept : kept = { (c.lane l).nvm with log := clearPassed [x] (c.lane l).nvm.log })
    (hcovered : kept.repairs.any (fun e => e.covers x) = false) (hspare : kept.spareFor x = some k)
    (hadd : kept.addEntry { kind := k.1, region := x.region, bank := placeOf x, addr := x.addr, bit := x.bit, foundBy := 1, spare := k.2 } = some m) :
    OwnOnly l c (memoryBistDone l [x] c) ∧ ((memoryBistDone l [x] c).lanes.get l).nvm = m ∧
    ((memoryBistDone l [x] c).lanes.get l).bist = { (c.lane l).bist with cells := [(x, 0)], phase := 4, lastPhase := 4 } := by
  have htested : (c.memTested l [x]).lanes.get l = { c.lanes.get l with nvm := kept, bist := { (c.lanes.get l).bist with cells := [] } } := by
    rw [Chip.memTested, modLane_lanes, tri_get_set_same, hkept]
    rfl
  have hnvm : ((c.memTested l [x]).lane l).nvm = kept := congrArg Lane.nvm htested
  have hcell := repairCell_spared (c := c.memTested l [x]) (foundBy := 1) (by rw [hnvm]; exact hcovered) (by rw [hnvm]; exact hspare)
    (by rw [hnvm]; exact hadd)
  let d := (((c.memTested l [x]).modLane l (fun n => { n with nvm := m })).localFault l 0x3404 0x14 x.region l.idx).modLane l
    (fun n => { n with bist := { n.bist with cells := n.bist.cells ++ [(x, 0)] } })
  obtain ⟨hown, hnvm', hbist'⟩ := spared_own (c.memTested l [x]) l m 0x3404 0x14 x.region l.idx
  have hboot : (d.lane l).boot = (c.lane l).boot := by
    rw [lane_eq, modLane_lanes, tri_get_set_same]
    refine (localFault_lane _ l l _ _ _ _ Lane.boot fun _ _ => rfl).trans ?_
    rw [modLane_lanes, tri_get_set_same, htested]
    rfl
  have heq : memoryBistDone l [x] c = d.modLane l (fun n => { n with bist := { n.bist with phase := 4, lastPhase := 4 } }) := by
    refine (memoryBistDone_test hup hfrozen hphase [x]).trans ?_
    rw [List.foldl_cons, List.foldl_nil, hcell]
    refine (if_neg ?_).trans (if_neg ?_)
    · exact Bool.eq_false_iff.1 ((congrArg Boot.fenced hboot).trans (fenced_of_memUp hup))
    · exact Bool.eq_false_iff.1 ((congrArg Boot.readmitting hboot).trans hread)
  rw [heq]
  refine ⟨(ownOnly_modLane c l _).trans (hown.trans ((ownOnly_modLane _ l _).trans (ownOnly_modLane _ l _))), ?_, ?_⟩
  · rw [modLane_lanes, tri_get_set_same, modLane_lanes, tri_get_set_same]
    exact hnvm'
  · rw [modLane_lanes, tri_get_set_same, modLane_lanes, tri_get_set_same, hbist', htested]
    rfl

end

/-- A repair log that failed its check is written new from the fuses (R503). -/
theorem memoryBistDone_rebuilds {c : Chip} {l : LaneId} (hgood : (c.lane l).boot.powerGood = true) (hcore : (c.lane l).power.core = true)
    (hfenced : (c.lane l).boot.fenced = false) (hbad : (c.lane l).nvm.logOk = false)
    (hwhen : (c.lane l).boot.state = .booting ∧ (c.lane l).bist.phase = 0 ∨ (c.lane l).bist.phase = 4) : memoryBistDone l [] c =
      (c.modLane l (fun n => { n with nvm := { n.nvm with log := n.nvm.fuses, logOk := true } })).localFault l 0x3408 0x01 l.idx l.idx := by
  have hrebuilds : c.rebuilds l = true := by
    unfold Chip.rebuilds
    dsimp only
    rw [hgood, hcore, hfenced, hbad, decide_eq_true hwhen]
    rfl
  unfold memoryBistDone
  exact if_pos hrebuilds

/-! ### Re-initialisation -/

/-- Other lanes differ in accounts only, and a lane keeps its fenced regions. -/
structure RegionsKept (l : LaneId) (c d : Chip) : Prop where
  others : ∀ k, k ≠ l → (d.lanes.get k).plain = (c.lanes.get k).plain
  regions : (d.lanes.get l).bist.regions = (c.lanes.get l).bist.regions

theorem RegionsKept.refl (l : LaneId) (c : Chip) : RegionsKept l c c := ⟨fun _ _ => rfl, rfl⟩

theorem RegionsKept.trans {l : LaneId} {c d e : Chip} (h : RegionsKept l c d) (k : RegionsKept l d e) : RegionsKept l c e :=
  ⟨fun j hj => (k.others j hj).trans (h.others j hj), k.regions.trans h.regions⟩

theorem LanesAlike.regionsKept {l : LaneId} {c d : Chip} (h : LanesAlike c d) : RegionsKept l c d :=
  ⟨fun k _ => by rw [h k]; rfl, by rw [h l]; rfl⟩

theorem regionsKept_of_eq {l : LaneId} {c d : Chip} (h : d.lanes = c.lanes) : RegionsKept l c d := (lanesAlike_of_eq h).regionsKept

theorem regionsKept_modLane (l : LaneId) (c : Chip) (f : Lane → Lane) (h : ∀ n, (f n).bist.regions = n.bist.regions) : RegionsKept l c (c.modLane l f) :=
  ⟨fun k hk => by rw [modLane_lanes, tri_get_set_ne _ _ _ _ hk], by rw [modLane_lanes, tri_get_set_same, h]⟩

theorem regionsKept_localFault (l : LaneId) (c : Chip) (code t i lane : Nat) : RegionsKept l c (c.localFault l code t i lane) :=
  (localFault_only ..).lanesAlike.regionsKept

theorem regionsKept_ite (l : LaneId) (c : Chip) (b : Prop) [Decidable b] {d : Chip} (h : RegionsKept l c d) : RegionsKept l c (if b then d else c) := by
  split
  · exact h
  · exact RegionsKept.refl l c

theorem regionsKept_foldl {α : Type} (l : LaneId) (f : Chip → α → Chip) (h : ∀ c x, RegionsKept l c (f c x)) (xs : List α) (c : Chip) :
    RegionsKept l c (xs.foldl f c) :=
  List.foldlRecOn xs f (motive := fun d => RegionsKept l c d) (RegionsKept.refl l c) fun d hd x _ => hd.trans (h d x)

theorem regionsKept_laneInert (l : LaneId) (c : Chip) : RegionsKept l c (c.laneInert l) := by
  refine (regionsKept_of_eq (clearLinks_field c l Chip.lanes fun _ _ _ => modLink_lanes ..)).trans (regionsKept_modLane l _ _ ?_)
  exact fun _ => rfl

theorem regionsKept_fenceOne (l : LaneId) (c : Chip) (code : Nat) : RegionsKept l c (c.fenceOne l code) := by
  unfold Chip.fenceOne
  refine ((regionsKept_laneInert l c).trans (regionsKept_modLane l _ (fun n => { n with
    boot := { n.boot with fenced := true, fenceCode := code }
    work := {}
    chk := {}
    round := {} }) fun _ => rfl)).trans (regionsKept_of_eq ?_)
  rw [modDev_lanes, setRx_lanes]

theorem regionsKept_leaves (l : LaneId) (c : Chip) (code : Nat) : RegionsKept l c (c.fenceOne l code).setClass.linkRules :=
  (regionsKept_fenceOne l c code).trans ((setClass_lanesAlike _).regionsKept.trans (regionsKept_of_eq (linkRules_lanes _)))

theorem regionsKept_sdReply (l : LaneId) (c : Chip) (status : Nat) : RegionsKept l c (c.sdReply l status) :=
  (noted_finishAll ..).lanes.regionsKept.trans (regionsKept_modLane l _ (fun n => { n with bist := { n.bist with requested := false } }) fun _ => rfl)

theorem pendFence_standdown (c : Chip) (l : LaneId) (code : Nat) : (c.pendFence l code).dev.standdown = c.dev.standdown := by
  unfold Chip.pendFence
  split <;> rfl

theorem linkRules_standdown (c : Chip) : c.linkRules.dev.standdown = c.dev.standdown := by
  have hfold : (LaneId.all.foldl (fun c l =>
      if c.inAuth l && (l.partners.all (fun p => (c.linkAt (linkIdx l p)).fenced)) then c.pendFence l 0x0108 else c) c).dev.standdown = c.dev.standdown := by
    refine foldl_keeps (fun d : Chip => d.dev.standdown) _ (fun d l => ?_) _ c
    split
    · exact pendFence_standdown ..
    · rfl
  unfold Chip.linkRules
  dsimp only
  split
  · split
    · exact (pendFence_standdown ..).trans hfold
    · exact hfold
  · exact hfold

/-- A change of the class leaves a stand-down as it is, or ends it in D3 (R42, R458). -/
theorem setClass_standdown (c : Chip) : c.setClass.dev.standdown = c.dev.standdown ∨ c.setClass.dev.standdown = none := by
  unfold Chip.setClass
  dsimp only
  split
  · exact .inl rfl
  · have h : (((c.modDev (fun d => { d with cls := some (classOf c.dev.authority) })).agreedFault 0x0205 0
        (classOf c.dev.authority) 0xFF).reportClass).dev.standdown = c.dev.standdown := by
      rw [reportClass_dev]
      exact (agreedFault_only (c.modDev (fun d => { d with cls := some (classOf c.dev.authority) })) ..).field Dev.standdown fun _ _ _ => rfl
    split
    · exact .inr rfl
    · split
      · exact .inl ((stopCause_field Dev.standdown (fun _ _ _ _ => rfl) _ 1).trans h)
      · exact .inl h

/-- A fence of a lane leaves a stand-down as it is, or ends it. -/
theorem leaves_standdown (c : Chip) (l : LaneId) (code : Nat) : (c.fenceOne l code).setClass.linkRules.dev.standdown = c.dev.standdown ∨
    (c.fenceOne l code).setClass.linkRules.dev.standdown = none := by
  have hfence : (c.fenceOne l code).dev.standdown = c.dev.standdown := by
    have hinert : (c.laneInert l).dev = c.dev := laneInert_field c l Chip.dev (fun _ _ _ => modLink_dev ..) fun _ _ => rfl
    unfold Chip.fenceOne
    dsimp only
    rw [modDev_dev, setRx_dev]
    exact (congrArg Dev.standdown hinert :)
  rw [linkRules_standdown, ← hfence]
  exact setClass_standdown _

/-- The end of a stand-down of a fenced lane touches that lane (R513). -/
theorem regionsKept_sdFenced {l : LaneId} {c : Chip} (h : c.dev.standdown = some l ∨ c.dev.standdown = none) : RegionsKept l c c.sdFenced := by
  rcases h with h | h
  · have hend : RegionsKept l c ((c.modDev (fun d => { d with standdown := none, sdAbort := false })).modLane l (fun n =>
        { n with bist := { n.bist with phase := 0, endNt := n.clock.nt } })) :=
      RegionsKept.trans (d := c.modDev fun d => { d with standdown := none, sdAbort := false }) (regionsKept_of_eq rfl)
        (regionsKept_modLane l _ _ fun _ => rfl)
    unfold Chip.sdFenced
    rw [h]
    exact regionsKept_ite l c _ (hend.trans (regionsKept_sdReply l _ stFenced))
  · rw [sdFenced_of_none h]
    exact RegionsKept.refl l c

theorem regionsKept_loadLane (l : LaneId) (c : Chip) : RegionsKept l c (c.loadLane l) := by
  have hfault (d : Chip) (b : Prop) [Decidable b] (code t i lane : Nat) : RegionsKept l d (if b then d.localFault l code t i lane else d) :=
    regionsKept_ite l d b (regionsKept_localFault l d code t i lane)
  unfold Chip.loadLane
  refine ((((RegionsKept.trans (regionsKept_modLane l c (fun n => { n with
    nvm := { n.nvm with selected := (n.nvm.reachable n.bist.regions).select } }) fun _ => rfl) (hfault ..)).trans (hfault ..)).trans (hfault ..)).trans
    (hfault ..)).trans (regionsKept_modLane l _ _ ?_)
  exact fun _ => rfl

theorem regionsKept_setUnitFence (l : LaneId) (c : Chip) {t i : Nat} (ht : t = 0x09 ∨ t = 0x10 ∨ t = 0x11 ∨ t = 0x12 ∨ t = 0x13) :
    RegionsKept l c (c.setUnitFence l t i true) := by
  have hlane (f : Lane → Lane) (hf : ∀ n, (f n).bist.regions = n.bist.regions) : RegionsKept l c (c.modLane l f) := regionsKept_modLane l c f hf
  rcases ht with rfl | rfl | rfl | rfl | rfl
  · exact hlane (fun n => { n with fb := modNth n.fb i (fun x => { x with fenced := true }) }) fun _ => rfl
  · exact hlane (fun n => { n with sio := { n.sio with siFenced := setBit n.sio.siFenced i true } }) fun _ => rfl
  · exact hlane (fun n => { n with sio := { n.sio with tpFenced := setBit n.sio.tpFenced i true } }) fun _ => rfl
  · exact hlane (fun n => { n with sio := { n.sio with soFenced := setBit n.sio.soFenced i true } }) fun _ => rfl
  · exact hlane (fun n => { n with sio := { n.sio with stageFenced := true } }) fun _ => rfl

theorem regionsKept_inheritFences (l : LaneId) (c : Chip) : RegionsKept l c (c.inheritFences l) := by
  have hunits (n t : Nat) (ht : t = 0x09 ∨ t = 0x10 ∨ t = 0x11 ∨ t = 0x12 ∨ t = 0x13) (ks : List LaneId) (d : Chip) :
      RegionsKept l d ((List.range n).foldl (fun c i => if ks.all (fun k => c.unitFenced k t i) then c.setUnitFence l t i true else c) d) :=
    regionsKept_foldl l _ (fun d i => regionsKept_ite l d _ (regionsKept_setUnitFence l d ht)) _ d
  unfold Chip.inheritFences
  dsimp only
  split
  · exact RegionsKept.refl l c
  · simp only [List.foldl_cons, List.foldl_nil]
    exact ((((hunits 8 0x09 (by decide) _ c).trans (hunits 8 0x10 (by decide) _ _)).trans (hunits 2 0x11 (by decide) _ _)).trans
      (hunits 4 0x12 (by decide) _ _)).trans (hunits 1 0x13 (by decide) _ _)

theorem regionsKept_startRejoin (l : LaneId) (c : Chip) : RegionsKept l c (c.startRejoin l) :=
  (regionsKept_inheritFences l c).trans ((regionsKept_modLane l _ (fun n => { n with
    boot := { n.boot with state := .admitted, waiting := false, fenced := false, halted := false }
    chk := { n.chk with resyncPend := true, joining := true, resync := 0, resyncAge := 0, snapshot := false, source := none }
    round := {}, arriving := [] }) fun _ => rfl).trans (regionsKept_of_eq rfl))

theorem regionsKept_refuse (l : LaneId) (c : Chip) : RegionsKept l c (c.refuse l) := by
  unfold Chip.refuse
  have hboot (d : Chip) : RegionsKept l d (d.modLane l (fun n => { n with
      boot := { n.boot with state := .refused, fenced := true, fenceCode := 0x0104, waiting := false } })) := regionsKept_modLane l d _ fun _ => rfl
  have hsent (d : Chip) : RegionsKept l d (d.modLane l (fun n => { n with boot := { n.boot with sent := some (d.discOf l) } })) :=
    regionsKept_modLane l d _ fun _ => rfl
  exact ((((regionsKept_localFault l c 0x0104 0x01 l.idx l.idx).trans (regionsKept_laneInert l _)).trans (hboot _)).trans
    (regionsKept_ite l _ _ (regionsKept_leaves l _ 0x0104))).trans (hsent _)

theorem regionsKept_compareLane (l : LaneId) (c : Chip) : RegionsKept l c (c.compareLane l) := by
  unfold Chip.compareLane
  split
  · exact RegionsKept.refl l c
  · split
    · exact RegionsKept.refl l c
    · dsimp only
      split
      · exact regionsKept_ite l c _ (regionsKept_modLane l c (fun n => { n with boot := { n.boot with waiting := true } }) fun _ => rfl)
      · split
        · exact regionsKept_refuse l c
        · refine regionsKept_modLane l c _ ?_
          exact fun _ => rfl

theorem regionsKept_sdRejoin (l : LaneId) (c : Chip) : RegionsKept l c (c.sdRejoin l) := by
  have hready : RegionsKept l c (c.modLane l (fun n => { n with boot := { n.boot with state := .ready } })) := regionsKept_modLane l c _ fun _ => rfl
  have hrejoin (b : Bool) (d : Chip) : RegionsKept l d (if b then
      (d.startRejoin l).modLane l (fun n => { n with bist := { n.bist with phase := 5, lastPhase := 5 } }) else d.compareLane l) := by
    split
    · exact (regionsKept_startRejoin l d).trans
        (regionsKept_modLane l _ (fun n => { n with bist := { n.bist with phase := 5, lastPhase := 5 } }) fun _ => rfl)
    · exact regionsKept_compareLane l d
  exact hready.trans (hrejoin _ _)

end Sys2Proof.Machine

namespace Sys2Proof.Machine
open Sys2Proof

/-- A lane whose memory is cleared and whose repairs are applied anew (R503, R508). -/
def State.reinited (s : State) (l : LaneId) : State :=
  (s.onMem l LaneMem.cleared).onChip (fun c => (c.modLane l Lane.reinit).applyRepairs l)

theorem reinited_lane (s : State) (l : LaneId) : ((s.reinited l).chip.lanes.get l).bist.regions = regionsOf (s.chip.lane l).nvm.log ∧
    ElseSame l s.chip (s.reinited l).chip ∧ (s.reinited l).chip.dev = s.chip.dev := by
  have hlog : ((s.chip.modLane l Lane.reinit).lane l).nvm.log = (s.chip.lane l).nvm.log := by
    rw [lane_eq, modLane_lanes, tri_get_set_same]
    rfl
  refine ⟨?_, (elseSame_modLane s.chip l Lane.reinit).trans (elseSame_modLane _ l _), rfl⟩
  have hchip : (s.reinited l).chip = (s.chip.modLane l Lane.reinit).applyRepairs l := rfl
  rw [hchip, Chip.applyRepairs, modLane_lanes, tri_get_set_same, hlog]

theorem badRegion_reinited {s : State} {l : LaneId} (h : ∀ e ∈ (s.chip.lane l).nvm.log, e.kind = 5 → regionCritical e.region = false) :
    (s.reinited l).chip.badRegion l = none := by
  rw [Chip.badRegion, lane_eq, (reinited_lane s l).1, List.find?_eq_none]
  intro r hr
  obtain ⟨e, he, rfl⟩ := List.mem_map.1 hr
  obtain ⟨hmem, hkind⟩ := List.mem_filter.1 he
  exact Bool.eq_false_iff.1 (h e hmem (by simpa using hkind))

/-- A lane that boots in its stand-down (R508). -/
def Chip.reboots (c : Chip) (l : LaneId) (m : LaneMem) (marked k : Nat) : Chip :=
  let c := c.modLane l (fun n => { n with
    nvm := { n.nvm.setBank k (n.nvm.checked (m.bank k) k) with booted := k }
    fault := { n.fault with writeIdx := ringIndex n.fault.ring, pass := ringPass n.fault.ring } })
  let c := if k ≠ marked then c.localFault l 0x3103 0x17 (2 + marked) l.idx else c
  (c.loadLane l).sdRejoin l

/-- The end of phase 4: the lane boots a bank that passes, or is fenced (R41, R101, R508). -/
theorem reinitDone_eq {s : State} {l : LaneId} (hstand : s.chip.dev.standdown = some l) (hphase : (s.chip.lane l).bist.phase = 4)
    (hup : s.chip.memUp l = true) (hok : (s.chip.lane l).nvm.logOk = true)
    (hlog : ∀ e ∈ (s.chip.lane l).nvm.log, e.kind = 5 → regionCritical e.region = false) :
    reinitDone l s = match bootBank ((s.reinited l).chip.lane l).nvm ((s.reinited l).mem.get l) ((s.reinited l).chip.lane l).bist.regions with
      | none => (s.reinited l).onChip (fun c => (c.fenceOne l 0x3103).setClass.linkRules.sdFenced)
      | some k => (s.reinited l).onChip (fun c => c.reboots l ((s.reinited l).mem.get l) ((s.reinited l).chip.lane l).nvm.marked k) := by
  have hgo : ¬ (s.chip.dev.standdown ≠ some l ∨ (s.chip.lane l).bist.phase ≠ 4 ∨ s.chip.memUp l = false ∨ (s.chip.lane l).nvm.logOk = false) := by
    rw [hstand, hphase, hup, hok]
    simp
  unfold reinitDone
  refine (if_neg hgo).trans ?_
  have hbad : ((s.onMem l LaneMem.cleared).onChip (fun c => (c.modLane l Lane.reinit).applyRepairs l)).chip.badRegion l = none := badRegion_reinited hlog
  dsimp only
  rw [hbad]
  rfl

theorem reboots_regions (l : LaneId) (c : Chip) (m : LaneMem) (marked k : Nat) : RegionsKept l c (c.reboots l m marked k) := by
  have hboots : RegionsKept l c (c.modLane l (fun n => { n with
    nvm := { n.nvm.setBank k (n.nvm.checked (m.bank k) k) with booted := k }
    fault := { n.fault with writeIdx := ringIndex n.fault.ring, pass := ringPass n.fault.ring } })) := regionsKept_modLane l c _ fun _ => rfl
  exact ((hboots.trans (regionsKept_ite l _ _ (regionsKept_localFault l _ 0x3103 0x17 (2 + marked) l.idx))).trans (regionsKept_loadLane l _)).trans
    (regionsKept_sdRejoin l _)

/-- Re-initialisation ends in the boot or the fence of its lane, which keep the regions that its repairs give (R503, R508). -/
theorem reinitDone_ends {s : State} {l : LaneId} (hstand : s.chip.dev.standdown = some l) (hphase : (s.chip.lane l).bist.phase = 4)
    (hup : s.chip.memUp l = true) (hok : (s.chip.lane l).nvm.logOk = true)
    (hlog : ∀ e ∈ (s.chip.lane l).nvm.log, e.kind = 5 → regionCritical e.region = false) :
    ∃ f : Chip → Chip, reinitDone l s = (s.reinited l).onChip f ∧ RegionsKept l (s.reinited l).chip (f (s.reinited l).chip) := by
  rw [reinitDone_eq hstand hphase hup hok hlog]
  split
  · have hends := (leaves_standdown (s.reinited l).chip l 0x3103).imp (·.trans hstand) id
    exact ⟨_, rfl, (regionsKept_leaves l _ 0x3103).trans (regionsKept_sdFenced hends)⟩
  · exact ⟨_, rfl, reboots_regions ..⟩

/-- Settles O49: the phases of a stand-down change their lane alone, and the others in their accounts. -/
theorem standDownPhases : Obligations.StandDownPhases := by
  intro s l n alone
  have halone : ∀ f : Chip → Chip, OwnOnly l s.chip (f s.chip) → alone (s.onChip f) := fun f h => ⟨rfl, h.dev, h.pintle, h.others⟩
  refine ⟨fun r => standdownNow_asks, fun hdue hstand => ⟨fun hdeferred => ?told, fun hdeferred => ?tells⟩, fun hdue => ?early, fun ok sig hoff => ?off,
    fun hup hfrozen hphase sig => ⟨?passes, fun hfirst => ?repeats, fun hrepeated hread hlone hnone => ?fences⟩, fun ok sig hup hfrozen hphase => ?refused,
    fun cells hok hphase => ?idle, fun hup hfrozen hphase hfenced hread => ?clean, fun x k m => ?spared,
    fun hgood hcore hfenced hbad hwhen => ?rebuilds, fun hstand => ?other, fun hstand hphase hup hok hlog => ?reinit⟩
  case told =>
    refine next_congr (onChip_congr (f := standdownDefer l) (g := id) (if_neg ?_))
    rw [show (s.chip.lane l).bist.deferred = true from hdeferred]
    simp
  case tells =>
    have heq : standdownDefer l s.chip =
        (s.chip.modLane l (fun m => { m with bist := { m.bist with deferred := true } })).agreedFault 0x3402 0x01 l.idx l.idx :=
      if_pos (by rw [hdue, decide_eq_true hstand, show (s.chip.lane l).bist.deferred = false from hdeferred]; rfl)
    have hexec : exec (.standdownDefer l) s = .next _ := next_congr (onChip_congr (f := standdownDefer l)
      (g := fun c => (c.modLane l (fun m => { m with bist := { m.bist with deferred := true } })).agreedFault 0x3402 0x01 l.idx l.idx) heq)
    exact ⟨_, hexec, onChip_plain_congr (agreedFault_plain ..)⟩
  case early =>
    refine next_congr (onChip_congr (f := standdownDefer l) (g := id) (if_neg ?_))
    rw [hdue]
    simp
  case off => exact next_congr (onChip_congr (f := logicBistDone l ok sig) (g := id) (logicBistDone_off hoff ok sig))
  case passes => exact next_congr (onChip_congr (f := logicBistDone l true sig) (g := _) (logicBistDone_passes hup hfrozen sig hphase))
  case repeats => exact next_congr (onChip_congr (f := logicBistDone l false sig) (g := _) (logicBistDone_repeats hup hfrozen sig hphase hfirst))
  case fences =>
    obtain ⟨hown, hfenced, hcode, houtcome⟩ := logicBistDone_fences hup hfrozen hphase hrepeated hread hlone hnone sig
    exact ⟨s.onChip (logicBistDone l false sig), rfl, halone _ hown, hfenced, hcode, houtcome⟩
  case refused =>
    have hexec : exec (.logicBistDone l ok sig) s = .next _ := next_congr (onChip_congr (f := logicBistDone l ok sig)
      (g := fun c => (c.modLane l (fun n => { n with bist := { n.bist with refused := n.bist.refused + 1 } })).localFault l 0x340A 0x15 0 l.idx)
      (logicBistDone_refused hup hfrozen hphase ok sig))
    refine ⟨_, hexec, halone _ ((ownOnly_modLane ..).trans (ownOnly_localFault ..)), ?_⟩
    refine (localFault_lane _ l l _ _ _ _ Lane.bist fun _ _ => rfl).trans ?_
    rw [modLane_lanes, tri_get_set_same]
    rfl
  case idle => exact next_congr (onChip_congr (f := memoryBistDone l cells) (g := id) (memoryBistDone_idle hok hphase cells))
  case clean =>
    have hexec : exec (.memoryBistDone l []) s = .next _ := next_congr (onChip_congr (f := memoryBistDone l []) (g := fun c => c.modLane l fun n => { n with
      nvm := { n.nvm with log := clearPassed [] n.nvm.log }, bist := { n.bist with cells := [], phase := 4, lastPhase := 4 } })
      (memoryBistDone_clean hup hfrozen hphase hread))
    refine ⟨_, hexec, halone _ (ownOnly_modLane ..), ?_, ?_⟩
    · rw [lane_eq, onChip_chip, modLane_lanes, tri_get_set_same]
      simp only [clearPassed, List.any_nil, Bool.or_false]
      rfl
    · rw [lane_eq, onChip_chip, modLane_lanes, tri_get_set_same]
      rfl
  case spared =>
    intro kept hup hfrozen hphase hread hcovered hspare hadd
    have hkept : kept = { (s.chip.lane l).nvm with log := clearPassed [x] (s.chip.lane l).nvm.log } := by
      simp only [clearPassed, List.any_cons, List.any_nil, Bool.or_false, beq_eq_decide]
      rfl
    obtain ⟨hown, hnvm, hbist⟩ := memoryBistDone_spared hup hfrozen hphase hread hkept hcovered hspare hadd
    exact ⟨s.onChip (memoryBistDone l [x]), rfl, halone _ hown, hnvm, hbist⟩
  case rebuilds =>
    let d := s.chip.modLane l (fun n => { n with nvm := { n.nvm with log := n.nvm.fuses, logOk := true } })
    have hd : d.lanes.get l = { s.chip.lanes.get l with nvm := { (s.chip.lanes.get l).nvm with log := (s.chip.lanes.get l).nvm.fuses, logOk := true } } := by
      rw [modLane_lanes, tri_get_set_same]
    have hexec : exec (.memoryBistDone l []) s = .next _ := next_congr (onChip_congr (f := memoryBistDone l []) (g := fun c =>
      (c.modLane l (fun n => { n with nvm := { n.nvm with log := n.nvm.fuses, logOk := true } })).localFault l 0x3408 0x01 l.idx l.idx)
      (memoryBistDone_rebuilds hgood hcore hfenced hbad hwhen))
    refine ⟨_, hexec, halone _ ((ownOnly_modLane ..).trans (ownOnly_localFault ..)), ?_, ?_, ?_⟩
    · refine (localFault_lane d l l _ _ _ _ Lane.nvm fun _ _ => rfl).trans ?_
      rw [hd]
      rfl
    · refine (localFault_lane d l l _ _ _ _ Lane.bist fun _ _ => rfl).trans ?_
      rw [hd]
      rfl
    · refine (localFault_fault d l _ _ _ _).trans ?_
      rw [lane_eq, hd]
      rfl
  case other => exact next_congr (if_pos (.inl hstand))
  case reinit =>
    obtain ⟨f, heq, hkept⟩ := reinitDone_ends hstand hphase hup hok hlog
    obtain ⟨hregions, hothers, -⟩ := reinited_lane s l
    have hmem : ((s.reinited l).onChip f).mem.get l = (s.mem.get l).cleared := tri_get_set_same ..
    refine ⟨_, next_congr heq, ?_, ?_, ?_, ?_, hkept.regions.trans hregions, fun k hk => ⟨tri_get_set_ne _ _ _ _ hk, ?_⟩⟩
    · rw [hmem]
      rfl
    · rw [hmem]
      rfl
    · rw [hmem]
      rfl
    · rw [hmem]
      rfl
    · exact (hkept.others k hk).trans (congrArg Lane.plain (hothers k hk))

end Sys2Proof.Machine

namespace Sys2Proof.Machine
open Sys2Proof

/-! ### The S of a lane -/

/-- A lane that has sampled has its own readings in its S-part (R121). -/
structure SampledOwn (i : SampleIn) (n : Lane) : Prop where
  sampled : n.round.sampled = true
  adc : n.round.own.adc = i.adc
  vbr : n.round.own.vbr = i.vbr
  temps : n.round.own.temps = i.temps
  rail : n.vbr = i.vbr

/-- A lane holds its own S-part under its CRC-32C (R124, R130). -/
structure VectorHeld (l : LaneId) (n : Lane) : Prop where
  crc : n.round.crc = crc32c n.round.own.bytes
  held : n.round.held.get l = some n.round.crc

theorem offerItems_lane (c : Chip) (l : LaneId) : ∃ arriving items manifest, (c.offerItems l).lanes.get l = { c.lanes.get l with
    arriving := arriving, round := { (c.lanes.get l).round with items := items, own := { (c.lanes.get l).round.own with manifest := manifest } } } := by
  unfold Chip.offerItems
  exact ⟨_, _, _, by rw [modLane_lanes, tri_get_set_same]; rfl⟩

theorem sendPresence_lane (c : Chip) (l : LaneId) : ∃ presence, (c.sendPresence l).lanes.get l = { c.lanes.get l with
    round := { (c.lanes.get l).round with sent := true, presence := presence } } := by
  unfold Chip.sendPresence
  exact ⟨_, by rw [modLane_lanes, tri_get_set_same, (sendLinks_traffic ..).lanes]⟩

/-- What the presence quad leaves: all but its lane's round, and the links. -/
theorem presenceIfAll_lane (c : Chip) (l : LaneId) : (c.presenceIfAll l).dev = c.dev ∧ ElseSame l c (c.presenceIfAll l) ∧
    ∃ sent presence, (c.presenceIfAll l).lanes.get l = { c.lanes.get l with round := { (c.lanes.get l).round with sent := sent, presence := presence } } := by
  unfold Chip.presenceIfAll
  dsimp only
  split
  · obtain ⟨presence, h⟩ := sendPresence_lane c l
    have htraffic := sendLinks_traffic l (c.roundPartners l) .vectors 1 c
    exact ⟨htraffic.dev, (elseSame_of_eq htraffic.lanes).trans (elseSame_modLane _ l _), true, presence, h⟩
  · exact ⟨rfl, ElseSame.refl l c, (c.lanes.get l).round.sent, (c.lanes.get l).round.presence, rfl⟩

theorem sendVector_lane (c : Chip) (l : LaneId) : (c.sendVector l).lanes.get l = { c.lanes.get l with round := { (c.lanes.get l).round with
    crc := crc32c (c.lanes.get l).round.own.bytes
    held := (c.lanes.get l).round.held.set l (some (crc32c (c.lanes.get l).round.own.bytes)) } } := by
  unfold Chip.sendVector
  rw [(sendLinks_traffic ..).lanes, modLane_lanes, tri_get_set_same]
  rfl

/-- A lane with its S-part taken from the channels that it has sampled (R121). -/
def Chip.takeSample (c : Chip) (l : LaneId) (i : SampleIn) (fb : List FbSample) : Chip :=
  let c := c.sioAtS l i.soMv
  let own := c.spart l i fb
  c.modLane l (fun n => { n with
    vbr := i.vbr
    net := { n.net with frameSeen := false }
    reportBits := { n.reportBits with faults := [] }
    round := { n.round with sampled := true, own := own } })

theorem takeSample_own (c : Chip) (l : LaneId) (i : SampleIn) (fb : List FbSample) : SampledOwn i ((c.takeSample l i fb).lanes.get l) := by
  unfold Chip.takeSample
  dsimp only
  rw [modLane_lanes, tri_get_set_same]
  exact ⟨rfl, rfl, rfl, rfl, rfl⟩

/-- The S-part of a lane on its way to its partners (R124, R130). -/
def Chip.sendSample (c : Chip) (l : LaneId) : Chip :=
  (((c.offerItems l).sendVector l).modDev (fun d => { d with sampled := setLaneBit d.sampled l true })).presenceIfAll l

theorem sampleLane_eq (c : Chip) (l : LaneId) (i : SampleIn) : ∃ (d : Chip) (fb : List FbSample), c.sampleLane l i = (d.takeSample l i fb).sendSample l :=
  ⟨_, _, rfl⟩

theorem sendSample_lane {i : SampleIn} {c : Chip} {l : LaneId} (h : SampledOwn i (c.lanes.get l)) : SampledOwn i ((c.sendSample l).lanes.get l) ∧
    VectorHeld l ((c.sendSample l).lanes.get l) ∧ hasLane (c.sendSample l).dev.sampled l = true := by
  let d := ((c.offerItems l).sendVector l).modDev fun d => { d with sampled := setLaneBit d.sampled l true }
  obtain ⟨arriving, items, manifest, hoffer⟩ := offerItems_lane c l
  have hvector : d.lanes.get l = _ := sendVector_lane (c.offerItems l) l
  obtain ⟨hdev, -, sent, presence, hlane⟩ := presenceIfAll_lane d l
  have hlane : (c.sendSample l).lanes.get l = _ := hlane
  have hdev : (c.sendSample l).dev = _ := hdev
  rw [hlane, hdev, hvector, hoffer]
  refine ⟨⟨h.sampled, h.adc, h.vbr, h.temps, h.rail⟩, ⟨rfl, tri_get_set_same ..⟩, ?_⟩
  exact (hasLane_setLaneBit ..).trans (if_pos rfl)

theorem sampleLane_samples (c : Chip) (l : LaneId) (i : SampleIn) : SampledOwn i ((c.sampleLane l i).lanes.get l) ∧
    VectorHeld l ((c.sampleLane l i).lanes.get l) ∧ hasLane (c.sampleLane l i).dev.sampled l = true := by
  obtain ⟨d, fb, h⟩ := sampleLane_eq c l i
  rw [h]
  exact sendSample_lane (takeSample_own d l i fb)

theorem sampleInstant_samples {c : Chip} {l : LaneId} (i : SampleIn) (hcan : c.canSample l = true) (hnot : hasLane c.dev.sampled l = false)
    (hresync : (c.lane l).chk.resyncPend = false) (hsome : c.dev.sampled ≠ 0) : sampleInstant l i c = c.sampleLane l i := by
  have hkeep : (if hasLane c.dev.sampled l || (c.lane l).chk.resyncPend then c.newPeriod l
      else if c.dev.sampled = 0 ∧ c.dev.count = 0 then c.firstPeriod l else c) = c :=
    (if_neg (by rw [hnot, hresync]; decide)).trans (if_neg fun h => hsome h.1)
  unfold sampleInstant
  refine (if_neg (by rw [hcan]; decide)).trans ?_
  dsimp only
  rw [hkeep]
  exact if_pos hcan

/-! ### Streamed items -/

/-- The lower of a place and those before it. -/
def oldestStep (m : Option Nat) (x : Nat) : Option Nat :=
  match m with
  | none => some x
  | some y => some (min y x)

theorem oldestFor_eq (c : Chip) (tx rx : LaneId) : c.oldestFor tx rx =
    (((c.bridges.get tx).rx.filter (fun p => !(hasLane p.streamed rx))).map (·.ord) ++
      ((c.lane tx).arriving.filter (fun a => !(hasLane a.streamed rx))).map (·.ord)).foldl oldestStep none := rfl

theorem oldest_of_minimal {a : Nat} (xs : List Nat) : ∀ m : Option Nat, (∀ x ∈ xs, a ≤ x) → (∀ y, m = some y → a ≤ y) → (m = some a ∨ a ∈ xs) →
    xs.foldl oldestStep m = some a := by
  induction xs with
  | nil => exact fun m _ _ h => h.resolve_right List.not_mem_nil
  | cons x xs ih =>
    intro m hxs hm ha
    obtain ⟨hx, hxs⟩ := List.forall_mem_cons.1 hxs
    rw [List.foldl_cons]
    cases m with
    | none =>
      refine ih _ hxs (fun y hy => Option.some.inj hy ▸ hx) ?_
      rcases List.mem_cons.1 (ha.resolve_left (by simp)) with h | h
      · exact .inl (congrArg some h.symm)
      · exact .inr h
    | some y =>
      have hy := hm y rfl
      refine ih _ hxs (fun z hz => Option.some.inj hz ▸ le_min hy hx) ?_
      rcases ha with h | h
      · exact .inl (congrArg some ((min_eq_left (Option.some.inj h ▸ hx)).trans (Option.some.inj h)))
      · rcases List.mem_cons.1 h with h | h
        · exact .inl (congrArg some ((min_eq_right (h ▸ hy)).trans h.symm))
        · exact .inr h

theorem changeFirst_head {α : Type} {p : α → Bool} (f : α → α) {x : α} (xs : List α) (h : p x = true) : changeFirst p f (x :: xs) = f x :: xs :=
  if_pos h

theorem changeFirst_of_none {α : Type} {p : α → Bool} (f : α → α) {xs : List α} (h : ∀ x ∈ xs, p x = false) : changeFirst p f xs = xs := by
  induction xs with
  | nil => rfl
  | cons x xs ih =>
    obtain ⟨hx, hxs⟩ := List.forall_mem_cons.1 h
    rw [changeFirst, if_neg (by rw [hx]; decide), ih hxs]

theorem heardFrom_lane_ne (c : Chip) {rx j : LaneId} (tx : LaneId) (h : j ≠ rx) : (c.heardFrom rx tx).lanes.get j = c.lanes.get j :=
  elseSame_modLane c rx _ j h

theorem heardFrom_inRound (c : Chip) (rx tx j : LaneId) : (c.heardFrom rx tx).inRound j = c.inRound j := by
  have hkeep {α : Type} (p : Lane → α) (hp : ∀ n : Lane, p { n with silent := setLaneBit n.silent tx false } = p n) :
      p ((c.heardFrom rx tx).lanes.get j) = p (c.lanes.get j) := modLane_keeps c rx j _ p hp
  have hboot : ((c.heardFrom rx tx).lanes.get j).boot = (c.lanes.get j).boot := hkeep Lane.boot fun _ => rfl
  have hchk : ((c.heardFrom rx tx).lanes.get j).chk = (c.lanes.get j).chk := hkeep Lane.chk fun _ => rfl
  simp only [Chip.inRound, lane_eq, hboot, hchk]
  rfl

theorem heardFrom_roundPartners (c : Chip) (rx tx j : LaneId) : (c.heardFrom rx tx).roundPartners j = c.roundPartners j :=
  List.filter_congr fun k _ => heardFrom_inRound c rx tx k

/-- The end of an item's streaming, once every partner of the round holds it (R126). -/
theorem markStreamed_eq (partners : List LaneId) (rx : LaneId) (at_ : Nat) (m : Mask) (ended : Option Nat) : markStreamed partners rx at_ m ended =
    (setLaneBit m rx true, if ended = none ∧ (∀ j ∈ partners, hasLane (setLaneBit m rx true) j = true) then some at_ else ended) := by
  have hall : (ended.isNone && partners.all (hasLane (setLaneBit m rx true))) = true ↔
      ended = none ∧ ∀ j ∈ partners, hasLane (setLaneBit m rx true) j = true := by
    rw [Bool.and_eq_true, Option.isNone_iff_eq_none, List.all_eq_true]
  exact congrArg (Prod.mk _) (if_congr hall rfl rfl)

end Sys2Proof.Machine

namespace Sys2Proof.Machine
open Sys2Proof

/-- A packet or an item that a partner holds (R125, R126). -/
def markPacket (partners : List LaneId) (rx : LaneId) (at_ : Nat) (p : RxPacket) : RxPacket :=
  { p with streamed := (markStreamed partners rx at_ p.streamed p.ended).1, ended := (markStreamed partners rx at_ p.streamed p.ended).2 }

def markItem (partners : List LaneId) (rx : LaneId) (at_ : Nat) (a : Arriving) : Arriving :=
  { a with streamed := (markStreamed partners rx at_ a.streamed a.ended).1, ended := (markStreamed partners rx at_ a.streamed a.ended).2 }

def Bridge.withMark (partners : List LaneId) (rx : LaneId) (n at_ : Nat) (b : Bridge) : Bridge :=
  { b with rx := changeFirst (fun p => p.ord == n && !(hasLane p.streamed rx)) (markPacket partners rx at_) b.rx }

def Lane.withMark (partners : List LaneId) (rx : LaneId) (k at_ : Nat) (n : Lane) : Lane :=
  { n with
    streamOrd := n.streamOrd + 1
    arriving := changeFirst (fun a => a.ord == k && !(hasLane a.streamed rx)) (markItem partners rx at_) n.arriving }

/-- The chip after the item at one place has reached a lane (R126). -/
def Chip.itemReached (c : Chip) (rx tx : LaneId) (k : Nat) : Chip :=
  (c.modBridge tx (Bridge.withMark (c.roundPartners tx) rx k (c.lane tx).streamOrd)).modLane tx
    (Lane.withMark (c.roundPartners tx) rx k (c.lane tx).streamOrd)

theorem streamedItem_off {c : Chip} {l k : LaneId} (h : c.inRound l = false ∨ c.inRound k = false) : streamedItem l k c = c :=
  if_pos (by rcases h with h | h <;> rw [h] <;> simp)

theorem streamedItem_none {c : Chip} {l k : LaneId} (hne : l ≠ k) (hl : c.inRound l = true) (hk : c.inRound k = true)
    (h : (c.heardFrom l k).oldestFor k l = none) : streamedItem l k c = c.heardFrom l k := by
  unfold streamedItem
  refine (if_neg (by rw [hl, hk]; simpa using hne)).trans ?_
  dsimp only
  rw [h]

theorem streamedItem_some {c : Chip} {l k : LaneId} (hne : l ≠ k) (hl : c.inRound l = true) (hk : c.inRound k = true) {n : Nat}
    (h : (c.heardFrom l k).oldestFor k l = some n) : streamedItem l k c = (c.heardFrom l k).itemReached l k n := by
  unfold streamedItem
  refine (if_neg (by rw [hl, hk]; simpa using hne)).trans ?_
  dsimp only
  rw [h]
  rfl

/-- An item that arrives is something heard from its sender, and changes only the sender's streams (R126, R433). -/
theorem streamedItem_heard {c : Chip} {l k : LaneId} (hne : l ≠ k) (hl : c.inRound l = true) (hk : c.inRound k = true) :
    (streamedItem l k c).dev = c.dev ∧ hasLane ((streamedItem l k c).lanes.get l).silent k = false ∧
    ∀ j, j ≠ k → (streamedItem l k c).bridges.get j = c.bridges.get j := by
  have hsilent : hasLane ((c.heardFrom l k).lanes.get l).silent k = false := by
    rw [Chip.heardFrom, modLane_lanes, tri_get_set_same]
    exact (hasLane_setLaneBit ..).trans (if_pos rfl)
  cases h : (c.heardFrom l k).oldestFor k l with
  | none =>
    rw [streamedItem_none hne hl hk h]
    exact ⟨rfl, hsilent, fun _ _ => rfl⟩
  | some n =>
    rw [streamedItem_some hne hl hk h]
    refine ⟨rfl, ?_, fun j hj => ?_⟩
    · rw [Chip.itemReached, modLane_lanes, tri_get_set_ne _ _ _ _ hne]
      exact hsilent
    · rw [Chip.itemReached, modLane_bridges, modBridge_bridges, tri_get_set_ne _ _ _ _ hj]
      rfl

theorem oldestFor_heard {c : Chip} {l k : LaneId} (hne : l ≠ k) : (c.heardFrom l k).oldestFor k l =
    (((c.bridges.get k).rx.filter (fun p => !(hasLane p.streamed l))).map (·.ord) ++
      ((c.lane k).arriving.filter (fun a => !(hasLane a.streamed l))).map (·.ord)).foldl oldestStep none := by
  rw [oldestFor_eq, lane_eq, heardFrom_lane_ne c k (Ne.symm hne)]
  rfl

section
variable {c : Chip} {l k : LaneId} (hne : l ≠ k) (hl : c.inRound l = true) (hk : c.inRound k = true)
include hne hl hk

/-- The streams of the sender after the item at a place that is the lowest has arrived (R126). -/
theorem streamedItem_streams {n : Nat} (h : (c.heardFrom l k).oldestFor k l = some n) :
    ((streamedItem l k c).bridges.get k).rx = changeFirst (fun p => p.ord == n && !(hasLane p.streamed l))
      (markPacket (c.roundPartners k) l (c.lane k).streamOrd) (c.bridges.get k).rx ∧
    ((streamedItem l k c).lane k).streamOrd = (c.lane k).streamOrd + 1 ∧
    ((streamedItem l k c).lane k).arriving = changeFirst (fun a => a.ord == n && !(hasLane a.streamed l))
      (markItem (c.roundPartners k) l (c.lane k).streamOrd) (c.lane k).arriving := by
  have hsame : (c.heardFrom l k).lanes.get k = c.lanes.get k := heardFrom_lane_ne c k (Ne.symm hne)
  rw [streamedItem_some hne hl hk h, Chip.itemReached, heardFrom_roundPartners, lane_eq, lane_eq, lane_eq, hsame, modLane_lanes, tri_get_set_same,
    modBridge_lanes, hsame, modLane_bridges, modBridge_bridges, tri_get_set_same]
  exact ⟨rfl, rfl, rfl⟩

/-- The oldest packet of the sender arrives (R126). -/
theorem streamedItem_packet {p : RxPacket} {ps : List RxPacket} (hrx : (c.bridges.get k).rx = p :: ps) (hp : hasLane p.streamed l = false)
    (hps : ∀ q ∈ ps, p.ord ≤ q.ord) (harr : ∀ e ∈ (c.lane k).arriving, p.ord < e.ord) :
    ((streamedItem l k c).lane k).arriving = (c.lane k).arriving ∧ ((streamedItem l k c).lane k).streamOrd = (c.lane k).streamOrd + 1 ∧
    ((streamedItem l k c).bridges.get k).rx = markPacket (c.roundPartners k) l (c.lane k).streamOrd p :: ps := by
  have hold : (c.heardFrom l k).oldestFor k l = some p.ord := by
    rw [oldestFor_heard hne, hrx]
    refine oldest_of_minimal _ _ (fun x hx => ?_) (fun _ h => by simp at h) (.inr ?_)
    · rcases List.mem_append.1 hx with hx | hx
      · obtain ⟨q, hq, rfl⟩ := List.mem_map.1 hx
        rcases List.mem_cons.1 (List.mem_of_mem_filter hq) with rfl | hq
        · exact Nat.le_refl _
        · exact hps q hq
      · obtain ⟨e, he, rfl⟩ := List.mem_map.1 hx
        exact (harr e (List.mem_of_mem_filter he)).le
    · exact List.mem_append_left _ (List.mem_map.2 ⟨p, List.mem_filter.2 ⟨List.mem_cons_self, by rw [hp]; rfl⟩, rfl⟩)
  obtain ⟨hbridge, hord, hlane⟩ := streamedItem_streams hne hl hk hold
  refine ⟨hlane.trans (changeFirst_of_none _ fun e he => ?_), hord, hbridge.trans ?_⟩
  · rw [beq_eq_false_iff_ne.2 (harr e he).ne', Bool.false_and]
  · rw [hrx, changeFirst_head _ _ (by rw [hp, beq_self_eq_true]; rfl)]

/-- The oldest item of the sender arrives (R126). -/
theorem streamedItem_item {e : Arriving} {es : List Arriving} (harr : (c.lane k).arriving = e :: es) (he : hasLane e.streamed l = false)
    (hes : ∀ x ∈ es, e.ord ≤ x.ord) (hrx : ∀ p ∈ (c.bridges.get k).rx, e.ord < p.ord) :
    ((streamedItem l k c).bridges.get k).rx = (c.bridges.get k).rx ∧ ((streamedItem l k c).lane k).streamOrd = (c.lane k).streamOrd + 1 ∧
    ((streamedItem l k c).lane k).arriving = markItem (c.roundPartners k) l (c.lane k).streamOrd e :: es := by
  have hold : (c.heardFrom l k).oldestFor k l = some e.ord := by
    rw [oldestFor_heard hne, harr]
    refine oldest_of_minimal _ _ (fun x hx => ?_) (fun _ h => by simp at h) (.inr ?_)
    · rcases List.mem_append.1 hx with hx | hx
      · obtain ⟨q, hq, rfl⟩ := List.mem_map.1 hx
        exact (hrx q (List.mem_of_mem_filter hq)).le
      · obtain ⟨y, hy, rfl⟩ := List.mem_map.1 hx
        rcases List.mem_cons.1 (List.mem_of_mem_filter hy) with rfl | hy
        · exact Nat.le_refl _
        · exact hes y hy
    · exact List.mem_append_right _ (List.mem_map.2 ⟨e, List.mem_filter.2 ⟨List.mem_cons_self, by rw [he]; rfl⟩, rfl⟩)
  obtain ⟨hbridge, hord, hlane⟩ := streamedItem_streams hne hl hk hold
  refine ⟨hbridge.trans (changeFirst_of_none _ fun p hp => ?_), hord, hlane.trans ?_⟩
  · rw [beq_eq_false_iff_ne.2 (hrx p hp).ne', Bool.false_and]
  · rw [harr, changeFirst_head _ _ (by rw [he, beq_self_eq_true]; rfl)]

end

end Sys2Proof.Machine

namespace Sys2Proof.Machine
open Sys2Proof


/-! ### Vectors, presence and missed rounds (R124, R130, R131, R137) -/

theorem round_of_sampledIn {c : Chip} {l : LaneId} (h : c.sampledIn l = true) : c.inRound l = true := (Bool.and_eq_true _ _ ▸ h : _ ∧ _).1

theorem mem_partners {l j : LaneId} (h : j ≠ l) : j ∈ l.partners := by
  revert h
  cases l <;> cases j <;> decide

/-- An S-part that arrives while another partner's is missing is held, and nothing goes out yet (R130). -/
theorem sampleVector_waits {c : Chip} {l k j : LaneId} (hne : l ≠ k) (hl : c.sampledIn l = true) (hk : c.sampledIn k = true)
    (hsent : (c.lane l).round.sent = false) (hjl : j ≠ l) (hjk : j ≠ k) (hj : c.inRound j = true) (hheld : (c.lane l).round.held.get j = none)
    (x : Nat) : sampleVector l k (.other x) c = c.modLane l (fun n => { n with
      silent := setLaneBit n.silent k false, round := { n.round with held := n.round.held.set k (some (x % 2 ^ 32)) } }) := by
  have hgo : sampleVector l k (.other x) c = ((c.heardFrom l k).modLane l (fun n => { n with
      round := { n.round with held := n.round.held.set k (some (x % 2 ^ 32)) } })).presenceIfAll l :=
    if_neg (by rw [hl, hk, hsent]; simpa using hne)
  rw [hgo, Chip.heardFrom, modLane_modLane]
  refine if_neg fun h => ?_
  have hall := (Bool.and_eq_true _ _ ▸ h : _ ∧ _).2
  have hin : (c.modLane l (fun n => { n with
      silent := setLaneBit n.silent k false, round := { n.round with held := n.round.held.set k (some (x % 2 ^ 32)) } })).inRound j = true := by
    rw [Chip.inRound, lane_eq, modLane_lanes, tri_get_set_ne _ _ _ _ hjl]
    exact hj
  have hmem : j ∈ (c.modLane l (fun n => { n with
      silent := setLaneBit n.silent k false, round := { n.round with held := n.round.held.set k (some (x % 2 ^ 32)) } })).roundPartners l :=
    List.mem_filter.2 ⟨mem_partners hjl, hin⟩
  have hsome := List.all_eq_true.1 hall j hmem
  rw [lane_eq, modLane_lanes, tri_get_set_same] at hsome
  have hget : (((c.lanes.get l).round.held.set k (some (x % 2 ^ 32))).get j).isSome = true := hsome
  rw [tri_get_set_ne _ _ _ _ hjk, show (c.lanes.get l).round.held.get j = none from hheld] at hget
  exact Bool.false_ne_true hget

theorem sampleVector_intact {c : Chip} {l k : LaneId} (hne : l ≠ k) (hl : c.sampledIn l = true) (hk : c.sampledIn k = true)
    (hsent : (c.lane l).round.sent = false) : (sampleVector l k .intact c).dev = c.dev ∧ ElseSame l c (sampleVector l k .intact c) ∧
      ((sampleVector l k .intact c).lanes.get l).round.held.get k = some (c.lane k).round.crc := by
  have hgo : sampleVector l k .intact c = ((c.heardFrom l k).modLane l (fun n => { n with
      round := { n.round with held := n.round.held.set k (some (c.lane k).round.crc) } })).presenceIfAll l :=
    if_neg (by rw [hl, hk, hsent]; simpa using hne)
  rw [hgo]
  obtain ⟨hdev, helse, sent, presence, hlane⟩ := presenceIfAll_lane ((c.heardFrom l k).modLane l (fun n => { n with
      round := { n.round with held := n.round.held.set k (some (c.lane k).round.crc) } })) l
  refine ⟨hdev, ((elseSame_modLane c l _).trans (elseSame_modLane _ l _)).trans helse, ?_⟩
  rw [hlane, modLane_lanes, tri_get_set_same]
  exact tri_get_set_same ..

/-- The vectors that a presence quad names (R130). -/
theorem sendPresence_quad (c : Chip) (l : LaneId) : (c.sendPresence l).dev = c.dev ∧ ElseSame l c (c.sendPresence l) ∧
    ((c.sendPresence l).lanes.get l).round.sent = true ∧ ((c.sendPresence l).lanes.get l).round.presence.silent = (c.lanes.get l).silent ∧
    ((c.sendPresence l).lanes.get l).round.presence.notice = (c.lanes.get l).notices ∧
    ∀ j, hasLane ((c.sendPresence l).lanes.get l).round.presence.held j = ((c.lanes.get l).round.held.get j).isSome ∧
      ((c.sendPresence l).lanes.get l).round.presence.crcs.get j = ((c.lanes.get l).round.held.get j).getD 0 := by
  have htraffic := sendLinks_traffic l (c.roundPartners l) .vectors 1 c
  unfold Chip.sendPresence
  refine ⟨htraffic.dev, (elseSame_of_eq htraffic.lanes).trans (elseSame_modLane _ l _), ?_⟩
  rw [modLane_lanes, tri_get_set_same, htraffic.lanes]
  refine ⟨rfl, rfl, rfl, fun j => ⟨?_, ?_⟩⟩
  · simp only [LaneId.all, List.foldl_cons, List.foldl_nil, hasLane_setLaneBit]
    cases j <;> rfl
  · cases j <;> rfl

/-- A lane with its absent record (R137). -/
def Lane.missed (count : Nat) (n : Lane) : Lane :=
  { n with round := { n.round with absent := true, record := some { kind := 2, count := count % 2 ^ 32 } } }

/-- A lane with one miss more in its count (R137). -/
def Lane.countMiss (k : Nat) (n : Lane) : Lane :=
  { n with chk := { n.chk with misses := min 31 k, deadlineMisses := satInc 65535 n.chk.deadlineMisses } }

/-- The chip with a missed round that counts (R137). -/
def Chip.missNoted (c : Chip) (l : LaneId) : Chip :=
  ((c.modLane l (Lane.missed c.dev.count)).localFault l 0x0306 0x01 l.idx l.idx).modLane l (Lane.countMiss ((c.lane l).chk.misses + 1))

theorem missed_resyncing (c : Chip) (l : LaneId) : (c.modLane l (Lane.missed c.dev.count)).resyncing l = c.resyncing l := by
  rw [Chip.resyncing, lane_eq, modLane_lanes, tri_get_set_same]
  rfl

theorem missRound_exempt {c : Chip} {l : LaneId} (h : c.resyncing l = true ∨ c.dev.exempt = true) :
    c.missRound l = c.modLane l (Lane.missed c.dev.count) := by
  refine if_pos ?_
  show ((c.modLane l (Lane.missed c.dev.count)).resyncing l || c.dev.exempt) = true
  rw [missed_resyncing]
  rcases h with h | h <;> rw [h] <;> simp

theorem missRound_counts {c : Chip} {l : LaneId} (hresync : c.resyncing l = false) (hexempt : c.dev.exempt = false) :
    c.missRound l = if (c.lane l).chk.misses + 1 = c.parN Par.perMissLimit then (c.missNoted l).pendFence l 0x0307 else c.missNoted l := by
  have hnot : ¬ ((c.modLane l (Lane.missed c.dev.count)).resyncing l || c.dev.exempt) = true := by
    rw [missed_resyncing, hresync, hexempt]
    exact Bool.false_ne_true
  have hmisses : ((c.modLane l (Lane.missed c.dev.count)).lane l).chk.misses = (c.lane l).chk.misses := by
    rw [lane_eq, modLane_lanes, tri_get_set_same]
    rfl
  have hpar : (((c.modLane l (Lane.missed c.dev.count)).localFault l 0x0306 0x01 l.idx l.idx).modLane l
      (Lane.countMiss ((c.lane l).chk.misses + 1))).parN Par.perMissLimit = c.parN Par.perMissLimit :=
    (congrArg (fun d : Dev => (Par.perMissLimit.at d.cfg.ws 0).toNat)
      (congrArg Chip.dev (localFault_plain (c.modLane l (Lane.missed c.dev.count)) l 0x0306 0x01 l.idx l.idx)) :)
  refine (if_neg hnot).trans ?_
  dsimp only
  rw [← hpar, show c.missNoted l = ((c.modLane l (Lane.missed c.dev.count)).localFault l 0x0306 0x01 l.idx l.idx).modLane l
    (Lane.countMiss (((c.modLane l (Lane.missed c.dev.count)).lane l).chk.misses + 1)) by rw [hmisses]; rfl, ← hmisses]
  rfl

/-- What a missed round leaves of a chip (R137). -/
structure Missed (l : LaneId) (c d : Chip) : Prop where
  others : ElseSame l c d
  pintle : d.pintle = c.pintle
  authority : d.dev.authority = c.dev.authority
  round : (d.lanes.get l).round = ((c.lanes.get l).missed c.dev.count).round

theorem missNoted_missed (c : Chip) (l : LaneId) : Missed l c (c.missNoted l) ∧
    ((c.missNoted l).lanes.get l).chk.misses = min 31 ((c.lane l).chk.misses + 1) := by
  have hown := ((ownOnly_modLane c l (Lane.missed c.dev.count)).trans (ownOnly_localFault _ l 0x0306 0x01 l.idx l.idx)).trans
    (ownOnly_modLane _ l (Lane.countMiss ((c.lane l).chk.misses + 1)))
  refine ⟨⟨hown.others, hown.pintle, (congrArg Dev.authority hown.dev :), ?_⟩, ?_⟩
  · rw [Chip.missNoted, modLane_lanes, tri_get_set_same]
    refine (localFault_lane (c.modLane l (Lane.missed c.dev.count)) l l 0x0306 0x01 l.idx l.idx Lane.round fun _ _ => rfl).trans ?_
    rw [modLane_lanes, tri_get_set_same]
  · rw [Chip.missNoted, modLane_lanes, tri_get_set_same]
    rfl

theorem missed_pendFence {l : LaneId} {c d : Chip} (h : Missed l c d) (k : LaneId) (code : Nat) : Missed l c (d.pendFence k code) := by
  have hauth : (d.pendFence k code).dev.authority = d.dev.authority := by
    unfold Chip.pendFence
    split <;> rfl
  rw [pendFence_devOnly]
  exact ⟨h.others, h.pintle, hauth.trans h.authority, h.round⟩

theorem missRound_missed (c : Chip) (l : LaneId) : Missed l c (c.missRound l) := by
  by_cases h : c.resyncing l = true ∨ c.dev.exempt = true
  · rw [missRound_exempt h]
    exact ⟨elseSame_modLane c l _, rfl, rfl, by rw [modLane_lanes, tri_get_set_same]⟩
  · obtain ⟨hresync, hexempt⟩ := not_or.1 h
    rw [missRound_counts (Bool.eq_false_iff.2 hresync) (Bool.eq_false_iff.2 hexempt)]
    split
    · exact missed_pendFence (missNoted_missed c l).1 l 0x0307
    · exact (missNoted_missed c l).1

/-- The count of misses after a round missed (R112, R137, R157). -/
theorem missRound_chk (c : Chip) (l : LaneId) :
    ((c.resyncing l = true ∨ c.dev.exempt = true) → ((c.missRound l).lanes.get l).chk = (c.lane l).chk) ∧
    (c.resyncing l = false → c.dev.exempt = false → ((c.missRound l).lanes.get l).chk.misses = min 31 ((c.lane l).chk.misses + 1) ∧
      ((c.lane l).chk.misses + 1 = c.parN Par.perMissLimit → (c.missRound l).dev.fencePend.any (fun f => f.1 == l) = true)) := by
  refine ⟨fun h => ?_, fun hresync hexempt => ?_⟩
  · rw [missRound_exempt h, modLane_lanes, tri_get_set_same]
    rfl
  · rw [missRound_counts hresync hexempt]
    refine ⟨?_, fun hlimit => ?_⟩
    · split
      · rw [pendFence_devOnly]
        exact (missNoted_missed c l).2
      · exact (missNoted_missed c l).2
    · rw [if_pos hlimit]
      exact pendFence_any _ l 0x0307

/-- The agreed set of the period changes the agreed data only. -/
theorem takeSet_devOnly (c : Chip) : c.takeSet = { c with dev := c.takeSet.dev } := by
  unfold Chip.takeSet
  split
  · rfl
  · dsimp only
    split <;> rfl

/-- What R433 decides rests on the authority, the quads sent and the lanes that present. -/
theorem silenceOf_congr {c d : Chip} (hauth : d.dev.authority = c.dev.authority) (hpintle : d.pintle = c.pintle)
    (hsent : ∀ k, (d.lanes.get k).round.sent = (c.lanes.get k).round.sent)
    (hquad : ∀ k, (d.lanes.get k).round.presence = (c.lanes.get k).round.presence) (n : LaneId) : d.silenceOf n = c.silenceOf n := by
  have hwit : d.witnesses n = c.witnesses n := by
    rw [Chip.witnesses, Chip.witnesses, Chip.authLanes, Chip.authLanes, hauth]
    exact List.filter_congr fun k _ => by rw [lane_eq, lane_eq, hsent]
  have hmap : (c.witnesses n).map (fun w => (d.lane w).round.presence) = (c.witnesses n).map (fun w => (c.lane w).round.presence) :=
    List.map_congr_left fun k _ => hquad k
  simp only [Chip.silenceOf, hwit, hmap, hpintle]

theorem silenceDecisions_none {c : Chip} (h : ∀ j, c.silenceOf j = none) : c.silenceDecisions = c := by
  have hnil : c.authLanes.filterMap c.silenceOf = [] := List.filterMap_eq_nil_iff.2 fun j _ => h j
  rw [Chip.silenceDecisions, hnil]
  rfl

/-- The set of a lane fixed, with the miss of a lane that stands outside it (R130, R131). -/
def Chip.fixSet (c : Chip) (l : LaneId) : Chip :=
  if hasLane (c.findSet l) l || (c.lane l).round.absent then c.modLane l (fun n => { n with round := { n.round with aset := some (c.findSet l) } })
  else (c.modLane l (fun n => { n with round := { n.round with aset := some (c.findSet l) } })).missRound l

theorem presenceDeadline_fixes {c : Chip} {l : LaneId} (h : c.sampledIn l = true) (hnone : (c.lane l).round.aset = none) :
    presenceDeadline l c = (c.fixSet l).silenceDecisions.takeSet := by
  refine (if_neg (by rw [h, hnone]; exact Bool.false_ne_true)).trans ?_
  dsimp only
  rw [Chip.fixSet, lane_eq, modLane_lanes, tri_get_set_same]
  rfl

theorem fixSet_lane (c : Chip) (l : LaneId) : ElseSame l c (c.fixSet l) ∧ (c.fixSet l).pintle = c.pintle ∧
    (c.fixSet l).dev.authority = c.dev.authority ∧ ((c.fixSet l).lanes.get l).round.aset = some (c.findSet l) ∧
    ((c.fixSet l).lanes.get l).round.sent = (c.lanes.get l).round.sent ∧
    ((c.fixSet l).lanes.get l).round.presence = (c.lanes.get l).round.presence ∧
    ((c.fixSet l).lanes.get l).round.absent = ((c.lanes.get l).round.absent || !(hasLane (c.findSet l) l)) := by
  unfold Chip.fixSet
  split
  case isTrue h =>
    refine ⟨elseSame_modLane c l _, rfl, rfl, ?_⟩
    rw [modLane_lanes, tri_get_set_same]
    refine ⟨rfl, rfl, rfl, ?_⟩
    revert h
    rw [lane_eq]
    cases hasLane (c.findSet l) l <;> cases (c.lanes.get l).round.absent <;> simp
  case isFalse h =>
    let e := c.modLane l (fun n => { n with round := { n.round with aset := some (c.findSet l) } })
    have hmiss := missRound_missed e l
    have hround := hmiss.round
    rw [show e.lanes.get l = { c.lanes.get l with round := { (c.lanes.get l).round with aset := some (c.findSet l) } } from
      (congrArg (fun t => t.get l) (modLane_lanes ..)).trans (tri_get_set_same ..)] at hround
    refine ⟨(elseSame_modLane c l _).trans hmiss.others, hmiss.pintle, hmiss.authority, (congrArg Round.aset hround :), (congrArg Round.sent hround :),
      (congrArg Round.presence hround :), (congrArg Round.absent hround :).trans ?_⟩
    have hout : hasLane (c.findSet l) l = false := by
      cases hin : hasLane (c.findSet l) l
      · rfl
      · exact absurd (by rw [hin]; rfl) h
    rw [hout]
    exact (Bool.or_true _).symm

end Sys2Proof.Machine

namespace Sys2Proof.Machine
open Sys2Proof


theorem presenceDeadline_set {s : State} {l : LaneId} (h : s.chip.sampledIn l = true) (hnone : (s.chip.lane l).round.aset = none)
    (hsilent : ∀ j, s.chip.silenceOf j = none) : ∃ t, exec (.presenceDeadline l) s = .next t ∧ t.mem = s.mem ∧
      (t.chip.lane l).round.aset = some (s.chip.findSet l) ∧
      (hasLane (s.chip.findSet l) l = true → (t.chip.lane l).round.absent = (s.chip.lane l).round.absent) ∧
      (hasLane (s.chip.findSet l) l = false → (t.chip.lane l).round.absent = true) ∧ ∀ j, j ≠ l → t.chip.lane j = s.chip.lane j := by
  obtain ⟨helse, hpintle, hauth, haset, hsent, hquad, habsent⟩ := fixSet_lane s.chip l
  have hquiet (j : LaneId) : (s.chip.fixSet l).silenceOf j = none := by
    refine (silenceOf_congr hauth hpintle (fun k => ?_) (fun k => ?_) j).trans (hsilent j)
    · by_cases hk : k = l
      · rw [hk, hsent]
      · rw [helse k hk]
    · by_cases hk : k = l
      · rw [hk, hquad]
      · rw [helse k hk]
  have heq : presenceDeadline l s.chip = { s.chip.fixSet l with dev := (s.chip.fixSet l).takeSet.dev } :=
    (presenceDeadline_fixes h hnone).trans (by rw [silenceDecisions_none hquiet, takeSet_devOnly])
  have hexec : exec (.presenceDeadline l) s = .next _ := next_congr (onChip_congr (f := presenceDeadline l)
    (g := fun c => { c.fixSet l with dev := (c.fixSet l).takeSet.dev }) heq)
  refine ⟨_, hexec, rfl, haset, fun hin => ?_, fun hout => ?_, helse⟩
  · refine habsent.trans ?_
    rw [hin]
    exact Bool.or_false _
  · refine habsent.trans ?_
    rw [hout]
    exact Bool.or_true _

theorem agreementDeadline_misses {s : State} {l : LaneId} (h : s.chip.sampledIn l = true) (hagreed : (s.chip.lane l).round.agreed = false)
    (habsent : (s.chip.lane l).round.absent = false) : exec (.agreementDeadline l) s = .next (s.onChip (fun c => c.missRound l)) :=
  next_congr (onChip_congr (f := agreementDeadline l) (g := fun c => c.missRound l) (if_pos (by rw [h, hagreed, habsent]; rfl)))

/-- Settles O56: each step of the round is the model's function for it, and what it leaves of its lane is a lemma of its own; an arrived
item is the oldest of its stream. -/
theorem roundUpToTheAgreementSet : Obligations.RoundUpToTheAgreementSet := by
  unfold Obligations.RoundUpToTheAgreementSet
  intro s l k hne
  refine ⟨fun i => ⟨fun hoff => ?_, fun hcan hnot hresync hsome => ?_⟩, fun hoff => ?_, fun hl hk => ?_, fun hl hk hsent => ⟨?_, ?_, ?_, ?_⟩,
    fun hoff => ?_, fun hl hk hnone => ⟨?_, fun hsent => ?_⟩, fun hl hnone hsilent => presenceDeadline_set hl hnone hsilent,
    fun hoff => ⟨?_, ?_⟩, fun hl hagreed habsent => ?_⟩
  · exact next_congr (onChip_congr (f := sampleInstant l i) (g := fun c => c) (if_pos (by rw [hoff]; rfl)))
  · have hexec : exec (.sampleInstant l i) s = .next { s with chip := s.chip.sampleLane l i } :=
      next_congr (onChip_congr (f := sampleInstant l i) (g := fun c => c.sampleLane l i) (sampleInstant_samples i hcan hnot hresync hsome))
    obtain ⟨⟨hsampled, hadc, hvbr, htemps, hrail⟩, ⟨hcrc, hheld⟩, hin⟩ := sampleLane_samples s.chip l i
    generalize s.chip.sampleLane l i = d at hexec hsampled hadc hvbr htemps hrail hcrc hheld hin
    exact ⟨_, hexec, rfl, hsampled, hin, hadc, hvbr, htemps, hrail, hcrc, hheld⟩
  · have hstay : streamedItem l k s.chip = s.chip := streamedItem_off hoff
    exact next_congr (onChip_congr (f := streamedItem l k) (g := fun c => c) hstay)
  · obtain ⟨hdev, hsilent, hothers⟩ := streamedItem_heard hne hl hk
    refine ⟨_, rfl, rfl, hdev, hsilent, hothers, fun p ps hrx hp hps harr => ?_, fun e es harr he hes hrx => ?_⟩
    · obtain ⟨harriving, hord, hbridge⟩ := streamedItem_packet hne hl hk hrx hp hps harr
      refine ⟨harriving, hord, hbridge.trans ?_⟩
      rw [markPacket, markStreamed_eq]
    · obtain ⟨hbridge, hord, harriving⟩ := streamedItem_item hne hl hk harr he hes hrx
      refine ⟨hbridge, hord, harriving.trans ?_⟩
      rw [markItem, markStreamed_eq]
  · exact next_congr (onChip_congr (f := sampleVector l k .corrupt) (g := fun c => c) (by unfold sampleVector; split <;> rfl))
  · intro j hjl hjk hj hheld x
    exact next_congr (onChip_congr (f := sampleVector l k (.other x)) (g := fun c => c.modLane l (fun n => { n with
      silent := setLaneBit n.silent k false, round := { n.round with held := n.round.held.set k (some (x % 2 ^ 32)) } }))
      (sampleVector_waits hne hl hk hsent hjl hjk hj hheld x))
  · obtain ⟨hdev, helse, hheld⟩ := sampleVector_intact hne hl hk hsent
    exact ⟨_, rfl, rfl, hdev, hheld, helse⟩
  · have hexec : exec (.vectorDeadline l) s = .next _ := next_congr (onChip_congr (f := vectorDeadline l) (g := fun c => c.sendPresence l)
      (if_pos (by rw [hl, hsent]; rfl)))
    obtain ⟨hdev, helse, hout, hsilent, hnotice, hheld⟩ := sendPresence_quad s.chip l
    exact ⟨_, hexec, rfl, hdev, hout, hsilent, hnotice, hheld, helse⟩
  · refine next_congr (onChip_congr (f := vectorDeadline l) (g := fun c => c) (if_neg ?_))
    rcases hoff with hoff | hoff <;> rw [hoff] <;> simp
  · exact next_congr (onChip_congr (f := presenceQuad l k .corrupt) (g := fun c => c) (by unfold presenceQuad; split <;> rfl))
  · have hnot : ¬ (decide (l = k) || !(s.chip.sampledIn l) || !(s.chip.sampledIn k) || (s.chip.lane l).round.aset.isSome) = true := by
      rw [hl, hk, hnone]
      simpa using hne
    refine next_congr (onChip_congr (f := presenceQuad l k .intact) (g := fun c => c.modLane l (fun n => { n with
      silent := setLaneBit n.silent k false, round := { n.round with quads := n.round.quads.set k (some (s.chip.lane k).round.presence) } }))
      ((if_neg (by simpa using hnot)).trans ?_))
    dsimp only
    rw [if_pos hsent]
    exact modLane_modLane ..
  · exact next_congr (onChip_congr (f := presenceDeadline l) (g := fun c => c) (if_pos (by rw [hoff]; rfl)))
  · exact next_congr (onChip_congr (f := agreementDeadline l) (g := fun c => c) (if_neg (by rw [hoff]; exact Bool.false_ne_true)))
  · obtain ⟨helse, -, -, hround⟩ := missRound_missed s.chip l
    obtain ⟨hsame, hcount⟩ := missRound_chk s.chip l
    exact ⟨_, agreementDeadline_misses hl hagreed habsent, rfl, (congrArg Round.absent hround :), (congrArg Round.record hround :), hsame, hcount, helse⟩

end Sys2Proof.Machine

namespace Sys2Proof.Machine
open Sys2Proof


/-! ### The checkpoint's quads and deadlines (R139, R144, R145, R149, R155, R157, R159) -/

/-- What the lane links carry beside, a chip is the one that its traffic left. -/
theorem TrafficOnly.with_links {c d : Chip} (h : TrafficOnly c d) : { d with links := c.links } = c := by
  obtain ⟨hlanes, hbridges, hpintle, hdev, hfresh, -, -, -⟩ := h
  cases d
  cases c
  cases hlanes
  cases hbridges
  cases hpintle
  cases hdev
  cases hfresh
  rfl

/-- A command that changes a lane and lets it send. -/
theorem sends_of_traffic {s : State} {i : Instr} {F : Chip → Chip} {l : LaneId} (f : Lane → Lane) (hexec : exec i s = .next (s.onChip F))
    (h : TrafficOnly (s.chip.modLane l f) (F s.chip)) : ∃ t, exec i s = .next t ∧ t.mem = s.mem ∧
      { t.chip with links := s.chip.links } = (s.onChip (fun c => c.modLane l f)).chip :=
  ⟨_, hexec, rfl, h.with_links⟩

/-- A partner's mask, or the lane's own, that is missing keeps the fold waiting (R145). -/
theorem masksHeld_of_missing {c : Chip} {l k : LaneId} (hne : l ≠ k) (hk : hasLane c.dev.aset k = true) (hresync : c.resyncing k = false)
    (hnone : (c.lane l).round.masks.get k = none) : c.masksHeld l = false := by
  rw [Chip.masksHeld, Bool.and_eq_false_iff]
  refine .inr (Bool.eq_false_iff.2 fun h => ?_)
  have hheld := List.all_eq_true.1 h k (List.mem_filter.2 ⟨mem_allLanes k, hk⟩)
  rw [beq_false_of_ne (Ne.symm hne), hresync, hnone] at hheld
  exact Bool.false_ne_true hheld

theorem foldIfHeld_waits {c : Chip} {l : LaneId} (h : c.masksHeld l = false) : c.foldIfHeld l = c := if_neg (by rw [h, Bool.and_false]; exact Bool.false_ne_true)

theorem sendMask_traffic (c : Chip) (l : LaneId) (mask : BitVec 88) :
    TrafficOnly (c.modLane l (fun n => { n with round := { n.round with mask := some mask } })) (c.sendMask l mask) :=
  (sendLinks_traffic ..).trans (sendLinks_traffic ..)

theorem computeEnd_waits {c : Chip} {l k : LaneId} {mask : BitVec 88} (hne : l ≠ k) (hcomp : c.computing l = true) (hmask : (c.lane l).round.mask = none)
    (hk : hasLane c.dev.aset k = true) (hresync : c.resyncing k = false) (hnone : (c.lane l).round.masks.get k = none) :
    computeEnd l mask c = c.sendMask l mask := by
  have htraffic := sendMask_traffic c l mask
  refine (if_pos (by rw [hcomp, hmask]; rfl)).trans (foldIfHeld_waits (masksHeld_of_missing hne ?_ ?_ ?_))
  · rw [htraffic.dev]
    exact hk
  · rw [Chip.resyncing, lane_eq, htraffic.lanes, modLane_lanes, tri_get_set_ne _ _ _ _ (Ne.symm hne)]
    exact hresync
  · rw [lane_eq, htraffic.lanes, modLane_lanes, tri_get_set_same]
    exact hnone

theorem computeDeadline_late {c : Chip} {l : LaneId} {mask : BitVec 88} (hcomp : c.computing l = true) (hrecord : (c.lane l).round.record ≠ none)
    (hdecided : c.dev.decided = true) :
    TrafficOnly (c.modLane l (fun n => { n with round := { n.round with mask := some ((c.lane l).round.mask.getD mask) } })) (computeDeadline l mask c) := by
  have hgo : computeDeadline l mask c = if (c.lane l).round.mask.isNone then c.sendMask l mask else c := by
    refine (if_neg (by rw [hcomp]; exact Bool.false_ne_true)).trans (if_neg ?_)
    have hsame : ∀ d : Chip, d.dev.decided = true → (d.lane l).round.record = (c.lane l).round.record →
        ¬ ((d.lane l).round.record.isNone || !d.dev.decided) = true := fun d hd hr => by
      rw [hd, hr, Option.isNone_eq_false_iff.2 (Option.isSome_iff_ne_none.2 hrecord)]
      exact Bool.false_ne_true
    split
    · have htraffic := sendMask_traffic c l mask
      refine hsame _ ((congrArg Dev.decided htraffic.dev).trans hdecided) ?_
      rw [lane_eq, htraffic.lanes, modLane_lanes, tri_get_set_same]
      rfl
    · exact hsame c hdecided rfl
  rw [hgo]
  cases hmask : (c.lane l).round.mask with
  | none => exact sendMask_traffic c l mask
  | some m =>
    have hself : c.modLane l (fun n => { n with round := { n.round with mask := some m } }) = c :=
      modLane_same (by rw [← hmask]; rfl)
    rw [show (some m : Option (BitVec 88)).getD mask = m from rfl, hself]
    exact TrafficOnly.refl c

theorem computeDeadline_folds {c : Chip} {l : LaneId} {mask : BitVec 88} (hcomp : c.computing l = true) (hdecided : c.dev.decided = false) :
    computeDeadline l mask c = ((if (c.lane l).round.mask = none then c.sendMask l mask else c).foldLane l).tryVote l := by
  have hsent : (if (c.lane l).round.mask.isNone then c.sendMask l mask else c) =
      (if (c.lane l).round.mask = none then c.sendMask l mask else c) := if_congr Option.isNone_iff_eq_none rfl rfl
  have hdev : (if (c.lane l).round.mask.isNone then c.sendMask l mask else c).dev = c.dev := by
    split
    · exact (sendMask_traffic c l mask).dev
    · rfl
  refine (if_neg (by rw [hcomp]; exact Bool.false_ne_true)).trans ((if_pos ?_).trans (congrArg (fun d : Chip => (d.foldLane l).tryVote l) hsent))
  rw [hdev, hdecided]
  exact Bool.or_true _

/-- A whole mask that arrives before the lane's own is held (R144). -/
theorem completionMask_held {c : Chip} {l k : LaneId} (hne : l ≠ k) (hl : c.sampledIn l = true) (hk : c.sampledIn k = true)
    (hnone : (c.lane l).round.mask = none) (m : BitVec 88) : completionMask l k (.other (maskQuad k m)) c = c.modLane l (fun n => { n with
      silent := setLaneBit n.silent k false, round := { n.round with masks := n.round.masks.set k (some m) } }) := by
  refine (if_neg (by rw [hl, hk]; simpa using hne)).trans ?_
  dsimp only
  rw [Option.bind_some, maskOfQuad_maskQuad]
  dsimp only
  rw [Chip.heardFrom, modLane_modLane]
  refine foldIfHeld_waits ?_
  rw [Chip.masksHeld, lane_eq, modLane_lanes, tri_get_set_same]
  exact Bool.and_eq_false_iff.2 (.inl (congrArg Option.isSome hnone))

theorem tryVote_undecided {c : Chip} {l : LaneId} (h : c.dev.decided = false) : c.tryVote l = c := if_pos (by rw [h]; simp)

/-- A direct copy of a record goes on to the third lane (R149). -/
def Chip.relayRecord (c : Chip) (l k : LaneId) (relayed : Bool) : Chip :=
  match thirdLane l k with
  | some t => if relayed || !c.inRound t then c else c.sendLink l t .signatures 2
  | none => c

theorem relayRecord_traffic (c : Chip) (l k : LaneId) (relayed : Bool) : TrafficOnly c (c.relayRecord l k relayed) := by
  unfold Chip.relayRecord
  split
  · split
    · exact TrafficOnly.refl c
    · exact sendLink_traffic ..
  · exact TrafficOnly.refl c

/-- A copy of a record that arrives before the decision is held, and relayed (R149). -/
theorem signatureRecord_held {c : Chip} {l k : LaneId} (hne : l ≠ k) (hl : c.sampledIn l = true) (hk : c.sampledIn k = true)
    (hvoted : (c.lane l).round.voted = false) (hdecided : c.dev.decided = false) (relayed : Bool) {v : Rx (List Byte)} {b : List Byte}
    (hv : v = .other b ∨ v = .corrupt ∧ b = []) :
    TrafficOnly (c.modLane l (fun n => { n with silent := setLaneBit n.silent k false, round := { n.round with
      records := n.round.records.set k (HeldSig.put (n.round.records.get k) relayed (sigRecOf b)) } })) (signatureRecord l k relayed v c) := by
  let held := (c.heardFrom l k).modLane l (fun n => { n with
    round := { n.round with records := n.round.records.set k ((n.round.records.get k).put relayed (sigRecOf b)) } })
  have hgo : signatureRecord l k relayed v c = (held.relayRecord l k relayed).tryVote l := by
    refine (if_neg (by rw [hl, hk, hvoted]; simp)).trans ((if_neg hne).trans ?_)
    rcases hv with rfl | ⟨rfl, rfl⟩ <;> rfl
  have htraffic := relayRecord_traffic held l k relayed
  have hundecided : (held.relayRecord l k relayed).dev.decided = false := (congrArg Dev.decided htraffic.dev).trans hdecided
  rw [hgo, tryVote_undecided hundecided]
  have hheld : held = c.modLane l (fun n => { n with silent := setLaneBit n.silent k false, round := { n.round with
      records := n.round.records.set k (HeldSig.put (n.round.records.get k) relayed (sigRecOf b)) } }) := modLane_modLane ..
  exact hheld ▸ htraffic

/-- A vote that is not complete at the deadline passes nothing (R139). -/
theorem checkpointDeadline_fails {c : Chip} {l : LaneId} (hl : c.sampledIn l = true) (hvoted : (c.lane l).round.voted = false)
    (habsent : (c.lane l).round.absent = false) (hresync : c.resyncing l = false) : checkpointDeadline l c =
      if c.dev.exempt then c.modLane l (fun n => { n with round := { n.round with voted := true, passed := false } })
      else ((c.modLane l (fun n => { n with round := { n.round with voted := true, passed := false } })).localFault l 0x030A 0x01 l.idx l.idx).modLane l
        (fun n => { n with chk := { n.chk with deadlineMisses := satInc 65535 n.chk.deadlineMisses } }) :=
  if_pos (by rw [hl, hvoted, habsent, hresync]; rfl)

/-! #### The mirrored set (R153, R155) -/

section
variable {c : Chip} {l : LaneId} (hl : c.sampledIn l = true) (hnot : (c.lane l).round.mirrored = false) (hpassed : c.dev.passed ≠ 0)
  (hsrc : c.mirrorSource c.dev.passed ≠ some l)
include hl hnot hpassed hsrc

theorem mirroredSet_other {b got : List Byte} (h : mirrorOf b = some got) : mirroredSet l (.other b) c = c.takeMirror l (fld b 4 4) got := by
  refine (if_neg ?_).trans ?_
  · rw [hl, hnot, decide_eq_false hpassed, decide_eq_false hsrc]
    exact Bool.false_ne_true
  · dsimp only
    rw [h]

theorem mirroredSet_intact (hdata : c.dev.mirror.length = 1344) : ∃ n, mirroredSet l .intact c = c.takeMirror l n c.dev.mirror := by
  refine ⟨fld (mirrorBytes (((c.mirrorSource c.dev.passed).map LaneId.idx).getD 0xFF) c.dev.count c.dev.mirror) 4 4, (if_neg ?_).trans ?_⟩
  · rw [hl, hnot, decide_eq_false hpassed, decide_eq_false hsrc]
    exact Bool.false_ne_true
  · dsimp only
    rw [mirrorOf_mirrorBytes _ _ _ hdata]

end

theorem mirroredSet_corrupt (l : LaneId) (c : Chip) : mirroredSet l .corrupt c = c := by
  have hnone : mirrorOf [] = none := if_neg fun h => absurd h.1 (by decide)
  unfold mirroredSet
  split
  · rfl
  · dsimp only
    rw [hnone]

theorem takeMirror_passed {c : Chip} {l : LaneId} (hpass : (c.lane l).round.passed = true) (n : Nat) (data : List Byte) :
    c.takeMirror l n data = if n = c.dev.count % 2 ^ 32 ∧ data = c.dev.mirror then c.modLane l (fun n => { n with round := { n.round with mirrored := true } })
      else (c.modLane l (fun n => { n with round := { n.round with mirrored := true } })).localFault l 0x0409 0x01 l.idx l.idx := if_pos hpass

section
variable {c : Chip} {l : LaneId} (hpass : (c.lane l).round.passed = false)
include hpass

/-- A resynchronising lane keeps the set with its delta (R157). -/
theorem takeMirror_resyncing (hresync : c.resyncing l = true) (n : Nat) (data : List Byte) : c.takeMirror l n data = c.modLane l (fun n => { n with
    round := { n.round with mirrored := true }, chk := { n.chk with mirror := data, owed := n.chk.owed - 1 } }) := by
  have hsame : (c.modLane l (fun n => { n with round := { n.round with mirrored := true } })).resyncing l = true := by
    rw [Chip.resyncing, lane_eq, modLane_lanes, tri_get_set_same]
    exact hresync
  exact (if_neg (by rw [hpass]; exact Bool.false_ne_true)).trans ((if_pos hsame).trans (modLane_modLane ..))

/-- An absent lane catches up, or is resynchronised (R155). -/
theorem takeMirror_absent (hresync : c.resyncing l = false) (habsent : (c.lane l).round.absent = true) (n : Nat) (data : List Byte) :
    c.takeMirror l n data = if 128 < c.dev.delta then (c.modLane l (fun n => { n with round := { n.round with mirrored := true } })).noCatchUp l
      else c.modLane l (fun n => { n with round := { n.round with mirrored := true }, chk := { n.chk with mirror := data, catchUp := true } }) := by
  have hsame : ¬ (c.modLane l (fun n => { n with round := { n.round with mirrored := true } })).resyncing l = true := by
    rw [Chip.resyncing, lane_eq, modLane_lanes, tri_get_set_same]
    exact Bool.eq_false_iff.1 hresync
  refine (if_neg (by rw [hpass]; exact Bool.false_ne_true)).trans ((if_neg hsame).trans ((if_neg (by rw [habsent]; exact Bool.false_ne_true)).trans ?_))
  exact if_congr Iff.rfl rfl (modLane_modLane ..)

end

/-! #### Resynchronisation (R155 to R159) -/

/-- A lane marked for a resynchronisation (R155). -/
def Lane.owesCopy (src : Option LaneId) (n : Lane) : Lane :=
  { n with chk := { n.chk with resyncPend := true, source := src, snapshot := false, owed := 0 } }

/-- A lane that cannot catch up is marked after the record of it, and its snapshot goes out (R155). -/
theorem noCatchUp_traffic (c : Chip) (l : LaneId) :
    TrafficOnly ((c.localFault l 0x040B 0x01 l.idx l.idx).modLane l (Lane.owesCopy (c.mirrorSource c.dev.passed))) (c.noCatchUp l) := by
  rw [Chip.noCatchUp, Chip.resyncFrom]
  exact sendSnapshot_traffic ..

theorem modLane_plain_congr {c d : Chip} (h : d.plain = c.plain) (l : LaneId) (f : Lane → Lane) (hf : ∀ n, (f n).plain = (f n.plain).plain) :
    (d.modLane l f).plain = (c.modLane l f).plain := by
  have hlanes : d.lanes.map Lane.plain = c.lanes.map Lane.plain := congrArg Chip.lanes h
  have hmap : ∀ e : Chip, (e.modLane l f).lanes.map Lane.plain = (e.lanes.map Lane.plain).set l (f ((e.lanes.map Lane.plain).get l)).plain := fun e => by
    rw [modLane_lanes, tri_map_set, hf, tri_get_map]
  calc (d.modLane l f).plain = { d.plain with lanes := (d.modLane l f).lanes.map Lane.plain } := rfl
    _ = { c.plain with lanes := (c.modLane l f).lanes.map Lane.plain } := by rw [hmap, hmap, hlanes, h]
    _ = (c.modLane l f).plain := rfl

end Sys2Proof.Machine

namespace Sys2Proof.Machine
open Sys2Proof


theorem highest_congr {c d : Chip} (hdev : d.dev = c.dev) (ls : List LaneId) : d.highest ls = c.highest ls := by
  have hhigher : d.higher = c.higher :=
    (congrArg (fun (x : Dev) (i j : LaneId) =>
      decide (x.claims.last.get j < x.claims.last.get i) || (decide (x.claims.last.get i = x.claims.last.get j) &&
        decide ((Par.authLaneRank.at x.cfg.ws j.idx).toNat < (Par.authLaneRank.at x.cfg.ws i.idx).toNat))) hdev :)
  induction ls with
  | nil => rfl
  | cons k ks ih =>
    unfold Chip.highest
    rw [ih, hhigher]

theorem mirrorSource_congr {c d : Chip} (hpintle : d.pintle = c.pintle) (hdev : d.dev = c.dev) (m : Mask) :
    d.mirrorSource m = c.mirrorSource m := by
  unfold Chip.mirrorSource
  rw [hpintle, highest_congr hdev]

theorem chk_modLane (c : Chip) (l : LaneId) (f : Lane → Lane) : ((c.modLane l f).lane l).chk = (f (c.lane l)).chk := by
  rw [lane_eq, modLane_lanes, tri_get_set_same, lane_eq]

theorem restartCopy_resync (c : Chip) (l : LaneId) (src : Option LaneId) : ((c.restartCopy l src).lane l).chk.resync = (c.lane l).chk.resync := by
  rw [Chip.restartCopy, lane_eq, (sendSnapshot_traffic ..).lanes, modLane_lanes, tri_get_set_same]
  rfl

/-- A lane between the steps of its resynchronisation, one period older (R157, R159). -/
def Chip.ageResync (c : Chip) (l : LaneId) : Chip :=
  c.modLane l (fun n => { n with chk := { n.chk with resyncAge := min 255 ((c.lane l).chk.resyncAge + 1) } })

/-- A resynchronisation under way at an S: the copy is applied when it is whole, or the lane goes on from its own state without a source
(R157, R159). -/
theorem resyncStep_running {c : Chip} {l : LaneId} (hpend : (c.lane l).chk.resyncPend = false) (hstep : (c.lane l).chk.resync = 1) (m : Mask) :
    c.resyncStep m l = if (c.lane l).chk.snapshot && decide ((c.lane l).chk.owed = 0) then (c.ageResync l).applyCopy l
      else if (c.sourceFor l m).isNone then (c.ageResync l).ownState l
      else if c.sourceFor l m = (c.lane l).chk.source then c.ageResync l else (c.ageResync l).restartCopy l (c.sourceFor l m) := by
  refine (if_neg (by rw [hpend]; exact Bool.false_ne_true)).trans ((if_neg (by rw [hstep]; decide)).trans ?_)
  exact if_neg (not_not_intro hstep)

theorem resyncStep_resync {c : Chip} {l : LaneId} (hpend : (c.lane l).chk.resyncPend = false) (hstep : (c.lane l).chk.resync = 1) (m : Mask) :
    ((c.resyncStep m l).lane l).chk.resync =
      if ((c.lane l).chk.snapshot = true ∧ (c.lane l).chk.owed = 0) ∨ c.sourceFor l m = none then 5 else 1 := by
  have hage : ((c.ageResync l).lane l).chk.resync = 1 := by
    rw [Chip.ageResync, chk_modLane]
    exact hstep
  rw [resyncStep_running hpend hstep]
  by_cases hwhole : (c.lane l).chk.snapshot = true ∧ (c.lane l).chk.owed = 0
  · rw [if_pos (by rw [hwhole.1, hwhole.2]; rfl), if_pos (.inl hwhole), Chip.applyCopy, chk_modLane]
  · rw [if_neg (fun h => hwhole ((Bool.and_eq_true _ _ ▸ h : _ ∧ _).imp id of_decide_eq_true))]
    cases hsource : c.sourceFor l m with
    | none =>
      rw [if_pos (by rfl), if_pos (.inr rfl), Chip.ownState, chk_modLane]
    | some k =>
      rw [if_neg (by simp), if_neg (c := _ ∨ _) (not_or.2 ⟨hwhole, by simp⟩)]
      split
      · exact hage
      · exact (restartCopy_resync ..).trans hage

/-- A lane that cannot catch up waits for its resynchronisation; nothing else changes but its record and the links (R155). -/
theorem noCatchUp_marks (c : Chip) (l : LaneId) : ((c.noCatchUp l).lanes.get l).chk.resyncPend = true ∧
    ((c.noCatchUp l).lanes.get l).chk.source = c.mirrorSource c.dev.passed ∧ ElseSame l c (c.noCatchUp l) := by
  have hlanes := (noCatchUp_traffic c l).lanes
  rw [hlanes, modLane_lanes, tri_get_set_same]
  refine ⟨rfl, rfl, fun j hj => ?_⟩
  rw [hlanes, modLane_lanes, tri_get_set_ne _ _ _ _ hj]
  exact elseSame_localFault c l 0x040B 0x01 l.idx l.idx j hj

theorem noCatchUp_plain (c : Chip) (l : LaneId) :
    { c.noCatchUp l with links := c.links }.plain = (c.modLane l (Lane.owesCopy (c.mirrorSource c.dev.passed))).plain := by
  have hlinks : ((c.localFault l 0x040B 0x01 l.idx l.idx).modLane l (Lane.owesCopy (c.mirrorSource c.dev.passed))).links = c.links := localFault_links ..
  rw [← hlinks, (noCatchUp_traffic c l).with_links]
  exact modLane_plain_congr (localFault_plain ..) l _ fun _ => rfl

/-- Settles O58: the masks, records and sets are read as they were laid out, the fold and the vote wait for what is missing, and each
deadline is its model function with the case named. -/
theorem checkpointQuadsAndDeadlines : Obligations.CheckpointQuadsAndDeadlines := by
  unfold Obligations.CheckpointQuadsAndDeadlines
  intro s l k mask hne
  refine ⟨fun hoff => ⟨?_, ?_⟩, fun hcomp hnone haset hresync hmask => ?_, fun hcomp hsome => ?_, fun hcomp hrecord hdecided => ?_,
    fun hcomp hdecided => ?_, fun hl hk => ⟨?_, fun b hb => ?_, fun hnone m => ?_⟩,
    fun hl hk hvoted hdecided relayed => ⟨fun q hlane _ hkind hquads hcount hlo hhi hbare => ?_, {}, rfl, ?_⟩, fun hoff => ?_,
    fun hl hvoted habsent hresync => ⟨fun hexempt => ?_, fun hexempt => ?_⟩,
    fun hl hnot hpassed hsrc => ⟨?_, fun hpass b got hgot => ⟨fun hsame hcount => ?_, fun hdiff => ?_⟩,
      fun hpass hdata => ⟨fun hresync => ?_, fun hresync habsent hdelta => ?_, fun hresync habsent hdelta => ?_⟩⟩,
    fun hoff => ?_, fun hl habsent hnot hresync hpassed => ?_, fun hoff => ?_, fun hresync hin => ?_,
    fun hpend hstep m => resyncStep_resync hpend hstep m, fun hoff => ?_, fun hstep hage => ?_⟩
  · exact next_congr (onChip_congr (f := computeEnd l mask) (g := fun c => c) (if_neg (by rw [hoff]; exact Bool.false_ne_true)))
  · exact next_congr (onChip_congr (f := computeDeadline l mask) (g := fun c => c) (if_pos (by rw [hoff]; rfl)))
  · have hgo := computeEnd_waits (mask := mask) hne hcomp hnone haset hresync hmask
    exact sends_of_traffic (F := computeEnd l mask) _ rfl (hgo ▸ sendMask_traffic s.chip l mask)
  · have hmask : (s.chip.lane l).round.mask.isNone = false := Option.isNone_eq_false_iff.2 (Option.isSome_iff_ne_none.2 hsome)
    exact next_congr (onChip_congr (f := computeEnd l mask) (g := fun c => c) (if_neg (by rw [hmask, Bool.and_false]; exact Bool.false_ne_true)))
  · exact sends_of_traffic (F := computeDeadline l mask) _ rfl (computeDeadline_late hcomp hrecord hdecided)
  · exact next_congr (onChip_congr (f := computeDeadline l mask) (computeDeadline_folds hcomp hdecided))
  · exact next_congr (onChip_congr (f := completionMask l k .corrupt) (g := fun c => c) (by unfold completionMask; split <;> rfl))
  · refine next_congr (onChip_congr (f := completionMask l k (.other b)) (g := fun c => c) ?_)
    unfold completionMask
    split
    · rfl
    · dsimp only
      rw [Option.bind_some, hb]
  · exact next_congr (onChip_congr (f := completionMask l k (.other (maskQuad k m))) (g := fun c => c.modLane l (fun n => { n with
      silent := setLaneBit n.silent k false, round := { n.round with masks := n.round.masks.set k (some m) } })) (completionMask_held hne hl hk hnone m))
  · have hread := sigRecOf_sigRecBytes q hlane hkind hquads hcount hlo hhi hbare
    have htraffic := signatureRecord_held hne hl hk hvoted hdecided relayed (.inl (rfl : Rx.other (sigRecBytes q) = .other (sigRecBytes q)))
    rw [hread] at htraffic
    exact sends_of_traffic (F := signatureRecord l k relayed (.other (sigRecBytes q))) _ rfl htraffic
  · have hread : sigRecOf [] = {} := if_neg fun h => absurd h.1 (by decide)
    have htraffic := signatureRecord_held (v := .corrupt) hne hl hk hvoted hdecided relayed (.inr ⟨rfl, rfl⟩)
    rw [hread] at htraffic
    exact sends_of_traffic (F := signatureRecord l k relayed .corrupt) _ rfl htraffic
  · refine next_congr (onChip_congr (f := checkpointDeadline l) (g := fun c => c) (if_neg ?_))
    rcases hoff with hoff | hoff | hoff | hoff <;> rw [hoff] <;> simp
  · exact next_congr (onChip_congr (f := checkpointDeadline l) (g := fun c => c.modLane l (fun n => { n with
      round := { n.round with voted := true, passed := false } })) ((checkpointDeadline_fails hl hvoted habsent hresync).trans (if_pos hexempt)))
  · refine next_congr (onChip_congr (f := checkpointDeadline l) (g := fun c => ((c.modLane l (fun n => { n with
      round := { n.round with voted := true, passed := false } })).localFault l 0x030A 0x01 l.idx l.idx).modLane l
        (fun n => { n with chk := { n.chk with deadlineMisses := satInc 65535 n.chk.deadlineMisses } }))
      ((checkpointDeadline_fails hl hvoted habsent hresync).trans (if_neg (by rw [hexempt]; exact Bool.false_ne_true))))
  · exact next_congr (onChip_congr (f := mirroredSet l .corrupt) (g := fun c => c) (mirroredSet_corrupt l s.chip))
  · exact next_congr (onChip_congr (f := mirroredSet l (.other b)) (g := fun c => c.modLane l (fun n => { n with round := { n.round with mirrored := true } }))
      ((mirroredSet_other hl hnot hpassed hsrc hgot).trans ((takeMirror_passed hpass _ _).trans (if_pos ⟨hcount, hsame⟩))))
  · exact next_congr (onChip_congr (f := mirroredSet l (.other b)) (g := fun c => (c.modLane l (fun n => { n with
      round := { n.round with mirrored := true } })).localFault l 0x0409 0x01 l.idx l.idx)
      ((mirroredSet_other hl hnot hpassed hsrc hgot).trans ((takeMirror_passed hpass _ _).trans (if_neg fun h => hdiff h.2))))
  · obtain ⟨n, hgo⟩ := mirroredSet_intact hl hnot hpassed hsrc hdata
    exact next_congr (onChip_congr (f := mirroredSet l .intact) (g := fun c => c.modLane l (fun n => { n with
      round := { n.round with mirrored := true }, chk := { n.chk with mirror := s.chip.dev.mirror, owed := n.chk.owed - 1 } }))
      (hgo.trans (takeMirror_resyncing hpass hresync _ _)))
  · obtain ⟨n, hgo⟩ := mirroredSet_intact hl hnot hpassed hsrc hdata
    exact next_congr (onChip_congr (f := mirroredSet l .intact) (g := fun c => c.modLane l (fun n => { n with
      round := { n.round with mirrored := true }, chk := { n.chk with mirror := s.chip.dev.mirror, catchUp := true } }))
      (hgo.trans ((takeMirror_absent hpass hresync habsent _ _).trans (if_neg (Nat.not_lt.2 hdelta)))))
  · obtain ⟨n, hgo⟩ := mirroredSet_intact hl hnot hpassed hsrc hdata
    have hexec : exec (.mirroredSet l .intact) s = .next _ := next_congr (onChip_congr (f := mirroredSet l .intact)
      (g := fun c => (c.modLane l (fun n => { n with round := { n.round with mirrored := true } })).noCatchUp l)
      (hgo.trans ((takeMirror_absent hpass hresync habsent _ _).trans (if_pos hdelta))))
    obtain ⟨hpend, hsource, helse⟩ := noCatchUp_marks (s.chip.modLane l (fun n => { n with round := { n.round with mirrored := true } })) l
    exact ⟨_, hexec, hpend, hsource.trans (mirrorSource_congr (modLane_pintle ..) (modLane_dev ..) _), rfl, fun j hj => (helse j hj).trans (elseSame_modLane s.chip l _ j hj)⟩
  · exact next_congr (onChip_congr (f := mirrorDeadline l) (g := fun c => c) (if_neg (by
      rw [show (s.chip.lane l).round.absent = false from hoff]; simp)))
  · have hexec : exec (.mirrorDeadline l) s = .next _ := next_congr (onChip_congr (f := mirrorDeadline l) (g := fun c => c.noCatchUp l)
      (if_pos (by rw [hl, habsent, hnot, hresync, decide_eq_true hpassed]; rfl)))
    exact ⟨_, hexec, rfl, noCatchUp_plain s.chip l⟩
  · refine next_congr (onChip_congr (f := resyncCopyDone l) (g := fun c => c) (if_neg fun h => ?_))
    rcases hoff with hoff | hoff
    · exact Bool.false_ne_true (hoff.symm.trans h.1)
    · exact Bool.false_ne_true (hoff.symm.trans h.2)
  · exact next_congr (onChip_congr (f := resyncCopyDone l) (g := fun c => c.modLane l (fun n => { n with chk := { n.chk with snapshot := true } }))
      (if_pos ⟨hresync, hin⟩))
  · exact next_congr (onChip_congr (f := resyncLimit l) (g := fun c => c) (if_neg fun h => h.1 hoff))
  · have hexec : exec (.resyncLimit l) s = .next _ :=
      next_congr (onChip_congr (f := resyncLimit l) (g := fun c => c.pendFence l 0x0408) (if_pos ⟨hstep, hage⟩))
    exact ⟨_, hexec, pendFence_any _ l 0x0408, rfl, (congrArg Chip.lanes (pendFence_devOnly s.chip l 0x0408) :)⟩

end Sys2Proof.Machine

namespace Sys2Proof.Machine
open Sys2Proof


/-! ### What the boundaries carry over (R75, R86, R90, R307) -/

/-- What the operations at a boundary leave alone: the working set with what waits for it, the count, the matrix cycle, a reset that waits, and
of each lane its power and its records of 0x2201. -/
structure Carry where
  ws : List (Nat × Int)
  shadow : List (Nat × Int)
  wsNext : Option ImageCopy
  count : Nat
  matrix : Nat
  cycle : Nat
  formed : Bool
  resetDue : Bool
  power : Tri Bool
  noted : Tri (List Nat)

def Dev.carry (d : Dev) (power : Tri Bool) (noted : Tri (List Nat)) : Carry where
  ws := d.cfg.ws
  shadow := d.cfg.shadow
  wsNext := d.cfg.wsNext
  count := d.count
  matrix := d.matrix
  cycle := d.cycle
  formed := d.formed
  resetDue := d.pend.any (fun p => p.opcode == 0x0012)
  power := power
  noted := noted

def Chip.carry (c : Chip) : Carry := c.dev.carry (c.lanes.map (fun n => n.boot.powerGood)) (c.lanes.map (fun n => n.keyNoted))


@[simp] theorem carry_modLane (c : Chip) (l : LaneId) (f : Lane → Lane) (hpower : ∀ n, (f n).boot.powerGood = n.boot.powerGood)
    (hnoted : ∀ n, (f n).keyNoted = n.keyNoted) : (c.modLane l f).carry = c.carry := by
  have hmap {α : Type} (q : Lane → α) (hq : ∀ n, q (f n) = q n) : (c.lanes.set l (f (c.lanes.get l))).map q = c.lanes.map q := by
    rw [tri_map_set, hq, ← tri_get_map q c.lanes, tri_set_get]
  rw [Chip.carry, modLane_lanes, modLane_dev, hmap _ hpower, hmap _ hnoted, Chip.carry]

@[simp] theorem carry_modLanes (c : Chip) (f : LaneId → Lane → Lane) (hpower : ∀ l n, (f l n).boot.powerGood = n.boot.powerGood)
    (hnoted : ∀ l n, (f l n).keyNoted = n.keyNoted) : (c.modLanes f).carry = c.carry := by
  have hmap {α : Type} (q : Lane → α) (hq : ∀ l n, q (f l n) = q n) : (c.lanes.mapIdx f).map q = c.lanes.map q :=
    tri_ext fun l => by rw [tri_get_map, tri_get_mapIdx, hq, tri_get_map]
  rw [Chip.carry, modLanes_lanes, modLanes_dev, hmap _ hpower, hmap _ hnoted, Chip.carry]

@[simp] theorem carry_modDev (c : Chip) (f : Dev → Dev) (h : ∀ d p n, (f d).carry p n = d.carry p n) : (c.modDev f).carry = c.carry := h ..

@[simp] theorem carry_modPintle (c : Chip) (f : Pintle → Pintle) : (c.modPintle f).carry = c.carry := rfl

@[simp] theorem carry_modPLane (c : Chip) (l : LaneId) (f : PLane → PLane) : (c.modPLane l f).carry = c.carry := rfl

@[simp] theorem carry_modPOut (c : Chip) (k : Nat) (f : POut → POut) : (c.modPOut k f).carry = c.carry := rfl

@[simp] theorem carry_modBridge (c : Chip) (l : LaneId) (f : Bridge → Bridge) : (c.modBridge l f).carry = c.carry := rfl

@[simp] theorem carry_modLink (c : Chip) (k : Nat) (f : LaneLink → LaneLink) : (c.modLink k f).carry = c.carry := by
  unfold Chip.modLink
  split <;> rfl

@[simp] theorem carry_modStep (c : Chip) (k : Nat) (f : Stepper → Stepper) : (c.modStep k f).carry = c.carry := rfl

@[simp] theorem carry_modMotor (c : Chip) (k : Nat) (f : Motor → Motor) : (c.modMotor k f).carry = c.carry := rfl

@[simp] theorem carry_modSet (c : Chip) (k : Nat) (l : LaneId) (f : WindSet → WindSet) : (c.modSet k l f).carry = c.carry := rfl

@[simp] theorem carry_modLoop (c : Chip) (k : Nat) (f : Loop → Loop) : (c.modLoop k f).carry = c.carry := rfl

@[simp] theorem carry_modSnow (c : Chip) (f : Snow → Snow) : (c.modSnow f).carry = c.carry := rfl

@[simp] theorem carry_modFb (c : Chip) (l : LaneId) (k : Nat) (f : FbChan → FbChan) : (c.modFb l k f).carry = c.carry :=
  carry_modLane _ _ _ (fun _ => rfl) fun _ => rfl

@[simp] theorem carry_modPort (c : Chip) (l : LaneId) (k : Nat) (f : NetPort → NetPort) : (c.modPort l k f).carry = c.carry :=
  carry_modLane _ _ _ (fun _ => rfl) fun _ => rfl

@[simp] theorem carry_modCv (c : Chip) (l : LaneId) (k : Nat) (f : CvUnit → CvUnit) : (c.modCv l k f).carry = c.carry :=
  carry_modLane _ _ _ (fun _ => rfl) fun _ => rfl

@[simp] theorem carry_modSio (c : Chip) (l : LaneId) (f : LaneSio → LaneSio) : (c.modSio l f).carry = c.carry :=
  carry_modLane _ _ _ (fun _ => rfl) fun _ => rfl

@[simp] theorem carry_modNet (c : Chip) (l : LaneId) (f : Ocgal → Ocgal) : (c.modNet l f).carry = c.carry :=
  carry_modLane _ _ _ (fun _ => rfl) fun _ => rfl

@[simp] theorem carry_modClock (c : Chip) (l : LaneId) (f : Clock → Clock) : (c.modClock l f).carry = c.carry :=
  carry_modLane _ _ _ (fun _ => rfl) fun _ => rfl

theorem carry_foldl {α : Type} (f : Chip → α → Chip) (h : ∀ c x, (f c x).carry = c.carry) (xs : List α) (c : Chip) : (xs.foldl f c).carry = c.carry :=
  foldl_keeps Chip.carry f h xs c

/-- Records leave what the boundaries carry over. -/
theorem carry_of_plain {c d : Chip} (h : d.plain = c.plain) : d.carry = c.carry := by
  have hmap {α : Type} (q : Lane → α) (hq : ∀ n : Lane, q n.plain = q n) (e : Chip) : e.lanes.map q = e.plain.lanes.map q :=
    tri_ext fun l => by
      rw [tri_get_map, tri_get_map]
      exact (hq _).symm.trans (congrArg q (tri_get_map ..).symm)
  have hplain (e : Chip) : e.carry = e.plain.carry := by
    rw [Chip.carry, hmap _ (fun _ => rfl), hmap (fun n => n.keyNoted) fun _ => rfl]
    rfl
  rw [hplain d, h, ← hplain]

@[simp] theorem carry_agreedFault (c : Chip) (code t i lane count : Nat) : (c.agreedFault code t i lane count).carry = c.carry :=
  carry_of_plain (agreedFault_plain ..)

@[simp] theorem carry_localFault (c : Chip) (l : LaneId) (code t i lane : Nat) : (c.localFault l code t i lane).carry = c.carry :=
  carry_of_plain (localFault_plain ..)

/-! #### Operations that end -/

theorem any_erase_of_false {α : Type} [BEq α] [LawfulBEq α] {q : α → Bool} {x : α} (h : q x = false) (xs : List α) : (xs.erase x).any q = xs.any q := by
  induction xs with
  | nil => rfl
  | cons y ys ih =>
    by_cases hy : y = x
    · rw [hy, List.erase_cons_head, List.any_cons, h, Bool.false_or]
    · rw [List.erase_cons_tail (by simpa using hy), List.any_cons, List.any_cons, ih]

theorem finalReply_pend (c : Chip) (p : PendOp) (st : Nat) (data : List Byte) : (c.finalReply p st data).dev.pend = c.dev.pend.erase p := by
  have hrel : (c.releasePend p).dev.pend = c.dev.pend.erase p := by
    unfold Chip.releasePend
    dsimp only
    split <;> rfl
  have hsend (d : Chip) : (d.sendReply p.link p.opcode p.tag p.session p.mask p.seq st data).2.dev.pend = d.dev.pend := by
    unfold Chip.sendReply
    by_cases h0 : p.session = 0
    · rw [if_pos h0]
      cases p.link with
      | some l => rfl
      | none => simp only [if_pos h0]
    · rw [if_neg h0]
      have hown : (d.ownPdu p.session p.opcode p.tag.toNat st data).2.dev.pend = d.dev.pend := (congrArg Dev.pend (modSession_dev ..) :)
      cases p.link with
      | some l => exact hown
      | none =>
        simp only [if_neg h0]
        exact hown
  have hkeep (d : Chip) (q : Option OutPacket) : (d.keepReply p q).dev.pend = d.dev.pend := by
    unfold Chip.keepReply
    split <;> rfl
  show (if (c.releasePend p).suppressed p.session p.suppress st then c.releasePend p else _).dev.pend = _
  split
  · exact hrel
  · exact (hkeep ..).trans ((hsend _).trans hrel)

theorem carry_finalReply (c : Chip) (p : PendOp) (h : p.opcode ≠ 0x0012) (st : Nat) (data : List Byte) : (c.finalReply p st data).carry = c.carry := by
  obtain ⟨hlanes, -, -, -, -, hdev⟩ := noted_finalReply c p st data
  have hpend := finalReply_pend c p st data
  generalize c.finalReply p st data = d at hlanes hdev hpend
  have hmap {α : Type} (q : Lane → α) (hq : ∀ n a : Lane, q (n.withAccounts a) = q n) : d.lanes.map q = c.lanes.map q :=
    tri_ext fun l => by rw [tri_get_map, tri_get_map, hlanes l, hq]
  have hany : d.dev.pend.any (fun p => p.opcode == 0x0012) = c.dev.pend.any (fun p => p.opcode == 0x0012) := by
    rw [hpend]
    exact any_erase_of_false (q := fun p : PendOp => p.opcode == 0x0012) (beq_eq_false_iff_ne.2 h) c.dev.pend
  rw [Chip.carry, hmap _ (fun _ _ => rfl), hmap (fun n => n.keyNoted) fun _ _ => rfl, Chip.carry]
  unfold Dev.carry
  rw [hany, hdev]
  rfl

theorem carry_finishAll (c : Chip) {test : PendOp → Bool} (h : ∀ p, test p = true → p.opcode ≠ 0x0012) (st : Nat) (data : List Byte) :
    (c.finishAll test st data).carry = c.carry :=
  List.foldlRecOn _ _ (motive := fun d : Chip => d.carry = c.carry) rfl fun d hd p hp =>
    (carry_finalReply d p (h p (List.mem_filter.1 hp).2) st data).trans hd

end Sys2Proof.Machine

namespace Sys2Proof.Machine
open Sys2Proof


/-! #### The parts of a period boundary -/

theorem carry_setUnitFence (c : Chip) (l : LaneId) (t i : Nat) (v : Bool) : (c.setUnitFence l t i v).carry = c.carry := by
  unfold Chip.setUnitFence
  split
  case h_3 | h_4 => split <;> rfl
  case h_6 =>
    dsimp only
    split <;> rfl
  case h_18 | h_19 => rfl
  all_goals simp

theorem carry_freshUnit (c : Chip) (l : LaneId) (t i : Nat) : (c.freshUnit l t i).carry = c.carry := by
  have hfirst : ((c.modDev (fun d => { d with outliers := d.outliers.filter (fun o => decide (o.1 ≠ (l.idx, t, i))) })).modLane l (fun n => { n with
      fencedNow := n.fencedNow.filter (fun u => u != (t, i)) })).carry = c.carry :=
    (carry_modLane _ l (fun n => { n with fencedNow := n.fencedNow.filter (fun u => u != (t, i)) }) (fun _ => rfl) fun _ => rfl).trans rfl
  refine Eq.trans ?_ hfirst
  unfold Chip.freshUnit
  dsimp only
  split
  case h_2 => split <;> rfl
  case h_3 => split <;> rfl
  case h_11 => rfl
  case h_12 =>
    refine (carry_modDev _ _ ?_).trans (carry_modLane _ _ _ ?_ ?_)
    · exact fun _ _ _ => rfl
    · exact fun _ => rfl
    · exact fun _ => rfl
  all_goals simp

theorem carry_takeTable (c : Chip) : c.takeTable.carry = c.carry := by
  have hfold : (c.dev.cfg.tabNext.foldl Chip.placeTable c).carry = c.carry := by
    refine carry_foldl _ (fun d x => ?_) _ c
    unfold Chip.placeTable
    split <;> rfl
  exact (rfl : _ = (c.dev.cfg.tabNext.foldl Chip.placeTable c).carry).trans hfold

theorem carry_startGap (c : Chip) : c.startGap.carry = c.carry := rfl

theorem carry_enableLines (c : Chip) : c.enableLines.carry = c.carry := by
  refine carry_foldl _ (fun d l => ?_) _ c
  dsimp only
  split
  · exact (carry_modSio ..).trans rfl
  · rfl

theorem carry_stpRelease (c : Chip) (k st : Nat) : (c.stpRelease k st).carry = c.carry := by
  have hend : (c.endHome k st).carry = c.carry :=
    carry_finishAll c (fun p hp => by rw [(of_decide_eq_true hp).1]; decide) _ _
  exact (carry_modStep ..).trans hend

theorem carry_bridgeOff (c : Chip) (k : Nat) : (c.bridgeOff k).carry = c.carry := by
  have hend := carry_finishAll c (test := fun p => decide (p.opcode = 0x1013 ∧ p.arg = k)) (fun p hp => by
    rw [(of_decide_eq_true hp).1]; decide) stDenied []
  have hoff : (c.disableBridge k).carry = c.carry := (carry_modMotor ..).trans hend
  refine (carry_foldl _ (fun d l => ?_) _ _).trans ((carry_modMotor ..).trans hoff)
  exact carry_modLane _ _ _ (fun _ => rfl) fun _ => rfl

theorem carry_dbRelease (c : Chip) : c.dbRelease.carry = c.carry := by
  unfold Chip.dbRelease
  dsimp only
  rw [carry_enableLines, carry_agreedFault, carry_modSnow]
  refine (carry_foldl _ (fun d k => ?_) _ _).trans ((carry_foldl _ (fun d k => carry_stpRelease d k _) _ _).trans rfl)
  split
  · exact carry_bridgeOff d k
  · rfl

theorem carry_holderEdge (c : Chip) (was : Option LaneId) : (c.holderEdge was).carry = c.carry := by
  unfold Chip.holderEdge
  split
  · rfl
  · exact (carry_foldl (fun c l => c.raiseEdge l 5) (fun _ _ => rfl) _ _).trans rfl

theorem carry_pintleFault (c : Chip) (code t i : Nat) : (c.pintleFault code t i).carry = c.carry := rfl

/-- A step that is taken under a condition leaves what it leaves in both cases. -/
theorem carry_ite {p : Prop} [Decidable p] {f : Chip → Chip} (h : ∀ c, (f c).carry = c.carry) (c : Chip) : (if p then f c else c).carry = c.carry := by
  split
  · exact h c
  · rfl

theorem carry_pintleBoundary (c : Chip) : c.pintleBoundary.carry = c.carry := by
  unfold Chip.pintleBoundary
  split
  · rfl
  · dsimp only
    rw [carry_enableLines, carry_ite carry_dbRelease, carry_ite carry_startGap, carry_ite fun d => carry_pintleFault d _ _ _]
    exact carry_holderEdge ..

theorem carry_takeClaim (c : Chip) : c.takeClaim.carry = c.carry := carry_ite (f := fun c => c.modDev (fun d => { d with claimed := true })) (fun _ => rfl) c

theorem carry_sdPermit (c : Chip) : c.sdPermit.carry = c.carry := by
  unfold Chip.sdPermit
  split
  · split
    · simp
    · rfl
  · rfl

theorem carry_tpSupplies (c : Chip) : c.tpSupplies.carry = c.carry := by
  unfold Chip.tpSupplies
  dsimp only
  split
  · refine carry_foldl _ (fun d l => ?_) _ c
    split
    · exact carry_modSio ..
    · rfl
  · rfl

theorem carry_dueTests (c : Chip) (ls : List LaneId) (pintle : Bool) : (c.dueTests ls pintle).carry = c.carry := by
  have htarget (d : Chip) (l : LaneId) (t : Nat) : (d.modTarget l t (fun x => { x with due := true })).carry = d.carry := by
    unfold Chip.modTarget
    split
    · simp
    · rfl
  have hlanes : (ls.foldl (fun c l => [0, 1].foldl (fun c t => c.modTarget l t (fun x => { x with due := true })) c) c).carry = c.carry :=
    carry_foldl _ (fun d l => carry_foldl _ (fun e t => htarget e l t) _ d) _ c
  unfold Chip.dueTests
  dsimp only
  split
  · exact (carry_foldl _ (fun d k => htarget d .a (k + 2)) _ _).trans hlanes
  · exact hlanes

theorem carry_takeUnfences (c : Chip) : c.takeUnfences.carry = c.carry := by
  unfold Chip.takeUnfences
  split
  · rfl
  · dsimp only
    rw [carry_finishAll _ fun p hp => by rw [beq_iff_eq.1 hp]; decide]
    refine (carry_foldl _ (fun d u => carry_agreedFault ..) _ _).trans ((carry_foldl _ (fun d u => ?_) _ _).trans rfl)
    split
    · exact (carry_freshUnit ..).trans (carry_setUnitFence ..)
    · rfl

theorem carry_leaveHold (c : Chip) : c.leaveHold.carry = c.carry := by
  have hwrite (d : Chip) : (d.writeHold false).carry = d.carry := by
    unfold Chip.writeHold
    split
    · refine carry_modLanes _ _ (fun l n => ?_) fun l n => ?_ <;> split <;> rfl
    · rfl
  unfold Chip.leaveHold
  split
  · dsimp only
    rw [carry_finishAll _ fun p hp => by rw [beq_iff_eq.1 hp]; decide]
    rw [carry_modDev _ (fun d => { d with loops := d.loops.map Loop.afterHold }) fun _ _ _ => rfl, carry_modSnow, hwrite, carry_agreedFault]
  · rfl

theorem carry_dbReplies (c : Chip) : c.dbReplies.carry = c.carry := by
  unfold Chip.dbReplies
  split
  · rfl
  · exact carry_finishAll _ (fun p hp => by rw [beq_iff_eq.1 hp]; decide) _ _

theorem carry_driveTo (c : Chip) (on : Bool) : (c.driveTo on).carry = c.carry :=
  carry_foldl (fun c l => c.modLane l (fun n => { n with power := { n.power with drive := on } })) (fun _ _ => carry_modLane _ _ _ (fun _ => rfl) fun _ => rfl) _ c

theorem carry_powerBoundary (c : Chip) : c.powerBoundary.carry = c.carry := by
  unfold Chip.powerBoundary
  dsimp only
  split
  · exact (rfl : _ = (c.driveTo false).carry).trans (carry_driveTo ..)
  · split
    · exact (rfl : _ = (c.driveTo true).carry).trans (carry_driveTo ..)
    · rfl

theorem carry_pendFence (c : Chip) (l : LaneId) (code : Nat) : (c.pendFence l code).carry = c.carry := by
  unfold Chip.pendFence
  split <;> rfl

theorem carry_joinCores (c : Chip) (l : LaneId) : (c.joinCores l).carry = c.carry := by
  have hcopy (d : Chip) : (d.modLane l (fun n => { n with chk := { n.chk with regions := (d.reducedState, d.reducedState) } })).carry = d.carry :=
    carry_modLane _ _ _ (fun _ => rfl) fun _ => rfl
  unfold Chip.joinCores
  dsimp only
  split
  · exact hcopy c
  · split
    · exact (hcopy _).trans (hcopy c)
    · exact (carry_pendFence ..).trans ((hcopy _).trans (hcopy c))

/-- The hand-over of a lane that is alone (R162, R163). -/
def Chip.joinAlone (c : Chip) (ls : List LaneId) : Chip :=
  match ls with
  | [l] => if hasLane c.dev.joined l then c else c.joinCores l
  | _ => c

theorem carry_joinAlone (c : Chip) (ls : List LaneId) : (c.joinAlone ls).carry = c.carry := by
  unfold Chip.joinAlone
  split
  · split
    · rfl
    · exact carry_joinCores ..
  · rfl

/-- The lanes that can be alone (R162). -/
def Chip.pairLanes (c : Chip) : List LaneId :=
  c.authLanes.filter (fun l => decide ((c.lane l).chk.resync = 0) && !(c.lane l).chk.resyncPend && decide (c.dev.standdown ≠ some l))

theorem pairModes_eq (c : Chip) : c.pairModes = (c.joinAlone c.pairLanes).modDev (fun d => { d with
    joined := if c.pairLanes.length = 1 then maskOf c.pairLanes else 0 }) := rfl

theorem carry_pairModes (c : Chip) : c.pairModes.carry = c.carry := by
  rw [pairModes_eq]
  exact (carry_modDev _ _ fun _ _ _ => rfl).trans (carry_joinAlone ..)

theorem carry_regionStores (c : Chip) : c.regionStores.carry = c.carry :=
  carry_modLanes _ _ (fun l n => by dsimp only; split <;> rfl) fun l n => by dsimp only; split <;> rfl

theorem carry_orderAgreed (c : Chip) : c.orderAgreed.carry = c.carry := carry_modLanes _ _ (fun _ _ => rfl) fun _ _ => rfl

/-- What a boundary does after the values and the image leaves them. -/
def Chip.afterImage (c : Chip) (first : Bool) : Chip :=
  let c := c.takeTable.pintleBoundary.takeClaim.sdPermit.tpSupplies
  let c := if c.dev.claimed && !first then c.dueTests [] true else c
  let c := c.takeUnfences.leaveHold.dbReplies.powerBoundary
  c.pairModes.regionStores.orderAgreed

theorem boundary_eq (c : Chip) : c.boundary = c.takeShadows.takeImage.afterImage c.dev.claimed := rfl

theorem carry_afterImage (c : Chip) (first : Bool) : (c.afterImage first).carry = c.carry := by
  unfold Chip.afterImage
  dsimp only
  rw [carry_orderAgreed, carry_regionStores, carry_pairModes, carry_powerBoundary, carry_dbReplies, carry_leaveHold, carry_takeUnfences,
    carry_ite fun d => carry_dueTests d [] true, carry_tpSupplies, carry_sdPermit, carry_takeClaim, carry_pintleBoundary, carry_takeTable]

end Sys2Proof.Machine

namespace Sys2Proof.Machine
open Sys2Proof


/-! #### Period boundaries -/

theorem carry_modCfg (c : Chip) {f : CfgState → CfgState} (hws : (f c.dev.cfg).ws = c.dev.cfg.ws) (hshadow : (f c.dev.cfg).shadow = c.dev.cfg.shadow)
    (hnext : (f c.dev.cfg).wsNext = c.dev.cfg.wsNext) : (c.modCfg f).carry = c.carry := by
  rw [Chip.carry, Chip.carry, modCfg_dev, modCfg_lanes, Dev.carry, Dev.carry]
  dsimp only
  rw [hws, hshadow, hnext]

theorem carry_recheck (c : Chip) : c.recheck.carry = c.carry := carry_modCfg c rfl rfl rfl

theorem carry_putSchedule (c : Chip) (b : List Byte) : (c.putSchedule b).carry = c.carry := (carry_recheck _).trans (carry_modDev _ _ fun _ _ _ => rfl)

theorem carry_restartFb (c : Chip) (k : Nat) : (c.restartFb k).carry = c.carry :=
  (rfl : _ = (c.modLanes (fun _ n => { n with fb := modNth n.fb k (fun x => { x with indexRef := false, indexBad := 0 }) })).carry).trans
    (carry_modLanes _ _ (fun _ _ => rfl) fun _ _ => rfl)

theorem carry_restartUnit (c : Chip) (id i : Nat) : (c.restartUnit id i).carry = c.carry := by
  unfold Chip.restartUnit
  split
  case h_1 =>
    unfold Chip.newFbMode
    rw [carry_restartFb]
    simp
  case h_2 => simp [Chip.startHyst]
  case h_3 | h_4 | h_5 | h_6 | h_7 => exact carry_restartFb c i
  all_goals rfl

/-- The values that a boundary takes (R86, R524). -/
theorem takeShadows_carry (c : Chip) : c.takeShadows.carry = { c.carry with
    ws := if c.dev.cfg.shadow = [] then c.dev.cfg.ws else c.dev.cfg.ahead, shadow := [] } := by
  unfold Chip.takeShadows
  split
  case isTrue h =>
    rw [Chip.carry, Dev.carry, h]
  case isFalse h => rfl

/-- A chip with an image put in force, before the units that it changes restart (R90). -/
def Chip.putImage (c : Chip) (g : ImageCopy) : Chip :=
  let d := c.modCfg (fun x => { x.keepOld with ws := g.entries, shadow := [], tab0 := g.tab0, tab1 := g.tab1, wsNext := none })
  if d.dev.cfg.sched = g.schedule then d.recheck else d.putSchedule g.schedule

theorem putImage_carry (c : Chip) (g : ImageCopy) : (c.putImage g).carry = { c.carry with ws := g.entries, shadow := [], wsNext := none } := by
  unfold Chip.putImage
  dsimp only
  split <;> rfl

theorem takeImage_none {c : Chip} (h : c.dev.cfg.wsNext = none) : c.takeImage = c := by
  unfold Chip.takeImage
  rw [h]

/-- The image that waits replaces the working set (R90). -/
theorem takeImage_some {c : Chip} {g : ImageCopy} (h : c.dev.cfg.wsNext = some g) :
    c.takeImage.carry = { c.carry with ws := g.entries, shadow := [], wsNext := none } := by
  have hgo : c.takeImage = (changedKeys c.dev.cfg.ws g.entries).foldl (fun c k => c.restartUnit (k / 256) (k % 256)) (c.putImage g) := by
    unfold Chip.takeImage
    rw [h]
    rfl
  rw [hgo]
  exact (carry_foldl _ (fun d k => carry_restartUnit ..) _ _).trans (putImage_carry c g)

theorem takeShadows_wsNext (c : Chip) : c.takeShadows.dev.cfg.wsNext = c.dev.cfg.wsNext := congrArg Carry.wsNext (takeShadows_carry c)

/-- What a boundary leaves when no image waits (R86). -/
theorem boundary_carry_values {c : Chip} (h : c.dev.cfg.wsNext = none) : c.boundary.carry = { c.carry with
    ws := if c.dev.cfg.shadow = [] then c.dev.cfg.ws else c.dev.cfg.ahead, shadow := [] } := by
  rw [boundary_eq, carry_afterImage, takeImage_none ((takeShadows_wsNext c).trans h), takeShadows_carry]

/-- What a boundary leaves when an image waits (R90). -/
theorem boundary_carry_image {c : Chip} {g : ImageCopy} (h : c.dev.cfg.wsNext = some g) :
    c.boundary.carry = { c.carry with ws := g.entries, shadow := [], wsNext := none } := by
  rw [boundary_eq, carry_afterImage, takeImage_some ((takeShadows_wsNext c).trans h), takeShadows_carry]

theorem boundary_resetDue (c : Chip) : c.boundary.resetDue = c.resetDue := by
  cases h : c.dev.cfg.wsNext with
  | none => exact congrArg Carry.resetDue (boundary_carry_values h)
  | some g => exact congrArg Carry.resetDue (boundary_carry_image h)

theorem boundary_power (c : Chip) (l : LaneId) : (c.boundary.lanes.get l).boot.powerGood = (c.lanes.get l).boot.powerGood := by
  have hpower : c.boundary.carry.power = c.carry.power := by
    cases h : c.dev.cfg.wsNext with
    | none => exact (congrArg Carry.power (boundary_carry_values h) :)
    | some g => exact (congrArg Carry.power (boundary_carry_image h) :)
  have hget := congrArg (fun t => t.get l) hpower
  exact ((tri_get_map _ _ _).symm.trans hget).trans (tri_get_map ..)

theorem periodBoundary_stays {s : State} (hformed : s.chip.dev.formed = true) (hpend : ∀ p ∈ s.chip.dev.pend, p.opcode ≠ 0x0012) :
    exec .periodBoundary s = .next (s.onChip Chip.boundary) := by
  have hnot : s.chip.resetDue = false := List.any_eq_false.2 fun p hp => by simpa using hpend p hp
  have hdue : (s.onChip Chip.boundary).chip.resetDue = false := (boundary_resetDue s.chip).trans hnot
  refine next_congr ((if_neg (by rw [hformed]; exact Bool.false_ne_true)).trans ?_)
  exact if_neg (by rw [hdue]; exact Bool.false_ne_true)

theorem periodBoundary_resets {s : State} (hformed : s.chip.dev.formed = true) (hpend : ∃ p ∈ s.chip.dev.pend, p.opcode = 0x0012) :
    exec .periodBoundary s = .next (s.onChip Chip.boundary).rebootAll := by
  have hdue : (s.onChip Chip.boundary).chip.resetDue = true := (boundary_resetDue s.chip).trans (List.any_eq_true.2 (by simpa using hpend))
  exact next_congr ((if_neg (by rw [hformed]; exact Bool.false_ne_true)).trans (if_pos hdue))

end Sys2Proof.Machine

namespace Sys2Proof.Machine
open Sys2Proof


/-! #### A reset at a boundary (R75) -/

/-- A lane that runs restarts. -/
def State.rebootPowered (s : State) (l : LaneId) : State := if (s.chip.lane l).boot.powerGood then s.rebootLane l else s

theorem rebootPowered_power (s : State) (k l : LaneId) :
    ((s.rebootPowered k).chip.lanes.get l).boot.powerGood = (s.chip.lanes.get l).boot.powerGood := by
  unfold State.rebootPowered
  split
  · rw [rebootLane_lanes, tri_get_set]
    split
    case isTrue h => rw [h]; rfl
    case isFalse => rfl
  · rfl

/-- A lane that has restarted (R75, R103). -/
structure Restarted (l : LaneId) (s : State) : Prop where
  state : (s.chip.lanes.get l).boot.state = .booting
  sram : (s.mem.get l).sram = []
  staging : (s.mem.get l).staging = []
  silent : (s.chip.bridges.get l).silent = true

theorem restarted_rebootLane (s : State) (l : LaneId) : Restarted l (s.rebootLane l) where
  state := by rw [rebootLane_lanes, tri_get_set_same]; rfl
  sram := by rw [rebootLane_mem, tri_get_set_same]; rfl
  staging := by rw [rebootLane_mem, tri_get_set_same]; rfl
  silent := rebootLane_silent s l

theorem Restarted.rebootPowered {l : LaneId} {s : State} (h : Restarted l s) (k : LaneId) : Restarted l (s.rebootPowered k) := by
  unfold State.rebootPowered
  split
  · by_cases hk : l = k
    · rw [← hk]
      exact restarted_rebootLane s l
    · exact ⟨by rw [rebootLane_lanes, tri_get_set_ne _ _ _ _ hk]; exact h.state, by rw [rebootLane_mem, tri_get_set_ne _ _ _ _ hk]; exact h.sram,
        by rw [rebootLane_mem, tri_get_set_ne _ _ _ _ hk]; exact h.staging, by rw [rebootLane_bridge_ne s hk]; exact h.silent⟩
  · exact h

theorem restarted_foldl {l : LaneId} (ls : List LaneId) : ∀ s : State, (s.chip.lanes.get l).boot.powerGood = true → Restarted l s ∨ l ∈ ls →
    Restarted l (ls.foldl State.rebootPowered s) := by
  induction ls with
  | nil => exact fun s _ h => h.resolve_right List.not_mem_nil
  | cons k ks ih =>
    intro s hpower h
    refine ih _ ((rebootPowered_power s k l).trans hpower) ?_
    rcases h with h | h
    · exact .inl (h.rebootPowered k)
    · rcases List.mem_cons.1 h with rfl | h
      · rw [State.rebootPowered, lane_eq, if_pos hpower]
        exact .inl (restarted_rebootLane s l)
      · exact .inr h

/-- The agreed data with nothing in them but the accounts of the host links. -/
def Dev.blank (d : Dev) : Prop := d = { hosts := d.hosts }

theorem blank_rebootPowered {s : State} (h : s.chip.dev.blank) (l : LaneId) : (s.rebootPowered l).chip.dev.blank := by
  unfold State.rebootPowered
  split
  · have hdev : (s.rebootLane l).chip.dev = { s.chip.dev with hosts := (s.rebootLane l).chip.dev.hosts } := by
      simp [State.rebootLane]
    rw [Dev.blank, hdev, h]
  · exact h

theorem resetReplies_power (c : Chip) (l : LaneId) : (c.resetReplies.lanes.get l).boot.powerGood = (c.lanes.get l).boot.powerGood := by
  have hhand (d : Chip) (k : LaneId) : ((d.handOver k).lanes.get l).boot.powerGood = (d.lanes.get l).boot.powerGood := by
    refine (modLane_keeps _ k l (fun n => { n with txq := [] }) (fun n => n.boot.powerGood) fun _ => rfl).trans ?_
    refine foldl_keeps (fun c : Chip => (c.lanes.get l).boot.powerGood) _ (fun d p => ?_) _ d
    split <;> rfl
  have hfinish := (noted_finishAll c (fun p => p.opcode == 0x0012) stOk []).lanes l
  refine (foldl_keeps (fun c : Chip => (c.lanes.get l).boot.powerGood) Chip.handOver (fun d k => hhand d k) _ _).trans ?_
  rw [hfinish]
  rfl

theorem rebootAll_eq (s : State) : s.rebootAll = LaneId.all.foldl State.rebootPowered (s.onChip (fun c => { c.resetReplies with dev := {} })) := rfl

theorem rebootAll_restarts (s : State) : s.rebootAll.chip.dev.blank ∧ ∀ l, (s.chip.lanes.get l).boot.powerGood = true → Restarted l s.rebootAll := by
  rw [rebootAll_eq]
  refine ⟨List.foldlRecOn _ _ (motive := fun t : State => t.chip.dev.blank) rfl fun t ht l _ => blank_rebootPowered ht l, fun l hpower => ?_⟩
  exact restarted_foldl _ _ ((resetReplies_power s.chip l).trans hpower) (.inr (mem_allLanes l))

/-! #### Matrix-cycle boundaries (R307, R369) -/

theorem carry_ownFence (c : Chip) (l : LaneId) (t i : Nat) : (c.ownFence l t i).carry = c.carry := by
  refine (carry_modLane _ _ _ ?_ ?_).trans (carry_setUnitFence ..)
  · exact fun _ => rfl
  · exact fun _ => rfl

theorem carry_judgePorts (c : Chip) (l : LaneId) : (c.judgePorts l).carry = c.carry := by
  have hfence (d : Chip) (p code : Nat) : (d.portFence l p code).carry = d.carry := by
    unfold Chip.portFence
    split
    · rfl
    · exact (carry_ownFence ..).trans (carry_localFault ..)
  unfold Chip.judgePorts
  split
  · simp
  · refine carry_foldl _ (fun d p => ?_) _ c
    dsimp only
    rw [carry_ite fun e => hfence e _ _]
    exact carry_modPort ..

theorem carry_activate (c : Chip) : c.activate.carry = c.carry := by
  unfold Chip.activate
  split
  · rfl
  · refine carry_ite (f := fun c => (c.putSchedule _).finishAll (fun p => p.opcode == 0x2010) stOk []) (fun d => ?_) c
    rw [carry_finishAll _ fun p hp => by rw [beq_iff_eq.1 hp]; decide]
    exact carry_putSchedule ..

theorem carry_endClaim (c : Chip) (slots lost : List Nat) : (c.endClaim slots lost).carry = c.carry := by
  unfold Chip.endClaim
  dsimp only
  rw [carry_finishAll _ fun p hp => by rw [beq_iff_eq.1 hp]; decide]
  split
  · rfl
  · exact (carry_agreedFault ..).trans rfl

theorem carry_spareCycle (c : Chip) : c.spareCycle.carry = c.carry := by
  unfold Chip.spareCycle
  dsimp only
  split
  · split
    · exact (carry_endClaim ..).trans rfl
    · rfl
  · rfl

theorem carry_netStarted (c : Chip) : c.netStarted.carry = c.carry :=
  carry_ite (f := fun c => c.finishAll (fun p => p.opcode == 0x2011) stOk []) (fun d => carry_finishAll d (fun p hp => by rw [beq_iff_eq.1 hp]; decide) _ _) c

theorem carry_netMatrix (c : Chip) : c.netMatrix.carry = c.carry := by
  unfold Chip.netMatrix
  dsimp only
  rw [carry_netStarted, carry_spareCycle, carry_activate, carry_modDev _ (fun d => { d with netWait := min 255 (d.netWait + 1) }) fun _ _ _ => rfl]
  refine carry_foldl _ (fun d l => ?_) _ c
  rw [carry_modNet]
  exact (carry_modClock ..).trans (carry_judgePorts d l)

theorem carry_lockTime (c : Chip) : c.lockTime.carry = c.carry :=
  carry_ite (f := fun c => c.modDev (fun d => { d with locked := true, exempt := true })) (fun _ => rfl) c

theorem carry_startRejoin (c : Chip) (l : LaneId) : (c.startRejoin l).carry = c.carry := by
  have hinherit : (c.inheritFences l).carry = c.carry := by
    unfold Chip.inheritFences
    dsimp only
    split
    · rfl
    · exact carry_foldl _ (fun d u => carry_foldl _ (fun e i => carry_ite (fun x => carry_setUnitFence x ..) e) _ d) _ c
  unfold Chip.startRejoin
  rw [carry_modBridge, carry_modLane]
  · exact hinherit
  · exact fun _ => rfl
  · exact fun _ => rfl

theorem carry_lateJoin (c : Chip) (l : LaneId) : (c.lateJoin l).carry = c.carry := by
  unfold Chip.lateJoin
  dsimp only
  split
  · rw [carry_modLane]
    · exact carry_startRejoin c l
    · intro n
      split <;> rfl
    · intro n
      split <;> rfl
  · rfl

theorem carry_sdStart (c : Chip) : c.sdStart.carry = c.carry := by
  have hphase (d : Chip) (l : LaneId) (ph : NetPhase) : (d.netPhase l ph).carry = d.carry := (carry_modClock ..).trans (carry_modNet ..)
  unfold Chip.sdStart
  split
  · rfl
  · split
    · exact (carry_modNet ..).trans rfl
    · dsimp only
      have hrx (d : Chip) (l : LaneId) : (d.setRx l []).carry = d.carry := by
        unfold Chip.setRx
        dsimp only
        split <;> rfl
      rw [hphase, hrx, carry_modBridge, carry_modLane]
      · rfl
      · exact fun _ => rfl
      · exact fun _ => rfl

/-- What a matrix-cycle boundary leaves (R307, R369). -/
theorem matrixCycleBoundary_carry {c : Chip} (h : c.dev.formed = true) : (matrixCycleBoundary c).carry = { c.carry with
    matrix := (c.dev.matrix + 1) % 2 ^ 32, cycle := 0, noted := ⟨[], [], []⟩ } := by
  let d := (c.modDev (fun d => { d with matrix := (d.matrix + 1) % 2 ^ 32, cycle := 0 })).modLanes (fun _ n => { n with
    keyNoted := [], fault := { n.fault with writes := 0 } })
  have hgo : matrixCycleBoundary c = (LaneId.all.foldl Chip.lateJoin d.netMatrix.lockTime).sdStart :=
    if_neg (by rw [h]; exact Bool.false_ne_true)
  rw [hgo, carry_sdStart, carry_foldl _ (fun e l => carry_lateJoin e l), carry_lockTime, carry_netMatrix]
  rfl

end Sys2Proof.Machine

namespace Sys2Proof.Machine
open Sys2Proof


/-! #### Launches on their boundary (R354) -/

theorem launches_foldl {α : Type} (f : Chip → α → Chip) (h : ∀ c x, (f c x).dev.launches = c.dev.launches) (xs : List α) (c : Chip) :
    (xs.foldl f c).dev.launches = c.dev.launches := foldl_keeps (fun c => c.dev.launches) f h xs c

theorem agreedFault_launches (c : Chip) (code t i lane count : Nat) : (c.agreedFault code t i lane count).dev.launches = c.dev.launches :=
  (congrArg (fun c : Chip => c.dev.launches) (agreedFault_plain c code t i lane count) :)

theorem enableBridge_launches (c : Chip) (k : Nat) : (c.enableBridge k).dev.launches = c.dev.launches := by
  have hstart (state : CmtState) (catching emfRef : Bool) : (c.startBridge k state catching emfRef).dev.launches = c.dev.launches := by
    obtain ⟨f, hf⟩ := startBridge_eq c k state catching emfRef
    rw [hf]
    rfl
  have hcatch : (c.catchBridge k).dev.launches = c.dev.launches := by
    obtain ⟨f, hf⟩ := catchBridge_eq c k
    rw [hf, Chip.deferTests]
    refine (launches_foldl _ (fun d l => ?_) _ _).trans rfl
    dsimp only
    split
    · exact (agreedFault_launches ..).trans (congrArg Dev.launches (modTarget_dev ..))
    · rfl
  unfold Chip.enableBridge
  dsimp only
  split
  · rfl
  · cases c.speedPlan k with
    | fail st => rfl
    | switch => exact hstart ..
    | align => exact hstart ..
    | catch_ => exact hcatch

theorem applyCmt_launches (c : Chip) (k : Nat) (x : Launch) : (c.applyCmt k x).dev.launches = c.dev.launches := by
  unfold Chip.applyCmt
  split
  · split
    · exact enableBridge_launches c k
    · rfl
  · exact disableBridge_field (p := Dev.launches) (fun _ _ _ => rfl) (fun _ _ => rfl) c k
  · split <;> rfl

theorem launchBridge_dev (c : Chip) (l : LaneId) (k : Nat) : (c.launchBridge l k).dev = c.dev := by
  unfold Chip.launchBridge
  dsimp only
  split <;> rfl

theorem relaunchBridge_launches (c : Chip) (k : Nat) : (c.relaunchBridge k).dev.launches = c.dev.launches := by
  have hcommand (d : Chip) (n : Nat) (limit : Int) (l : LaneId) : (d.commandSet k n limit l).dev.launches = d.dev.launches := by
    unfold Chip.commandSet
    dsimp only
    split
    · rfl
    · split
      · rfl
      · split <;> rfl
  have hshare : (c.shareTorque k).dev.launches = c.dev.launches :=
    (launches_foldl _ (fun d l => hcommand d _ _ l) _ _).trans (launches_foldl (fun c l => c.modSet k l (fun w => { w with overSpeed := c.overSpeedOf k l })) (fun _ _ => rfl) _ c)
  exact (launches_foldl _ (fun d l => congrArg Dev.launches (launchBridge_dev d l k)) _ _).trans hshare

theorem endHome_launches (c : Chip) (k st : Nat) : (c.endHome k st).dev.launches = c.dev.launches :=
  (noted_finishAll c _ st _).field Dev.launches fun _ _ _ => rfl

theorem stpRelease_launches (c : Chip) (k st : Nat) : (c.stpRelease k st).dev.launches = c.dev.launches :=
  stpRelease_field (p := Dev.launches) (fun _ _ _ => rfl) (fun _ _ => rfl) c k st

theorem modStep_launches (c : Chip) (k : Nat) (f : Stepper → Stepper) : (c.modStep k f).dev.launches = c.dev.launches := rfl

theorem launches_ite {p : Prop} [Decidable p] {c d e : Chip} (h : d.dev.launches = c.dev.launches) (h' : e.dev.launches = c.dev.launches) :
    (if p then d else e).dev.launches = c.dev.launches := by
  split
  · exact h
  · exact h'

theorem stpStopNow_launches (c : Chip) (k : Nat) (quick deEnergise : Bool) : (c.stpStopNow k quick deEnergise).dev.launches = c.dev.launches :=
  modStep_launches ..

theorem stpMoveTo_launches (c : Chip) (k : Nat) (target vLim aLim : Int) : (c.stpMoveTo k target vLim aLim).dev.launches = c.dev.launches :=
  modStep_launches ..

theorem applyStp_launches (c : Chip) (k : Nat) (x : Launch) : (c.applyStp k x).dev.launches = c.dev.launches := by
  unfold Chip.applyStp
  dsimp only
  exact (modStep_launches ..).trans (launches_ite ((stpStopNow_launches ..).trans (endHome_launches c k stNotHomed))
    (launches_ite (stpMoveTo_launches ..) rfl))

theorem homeFail_launches (c : Chip) (k : Nat) : (c.homeFail k).dev.launches = c.dev.launches := by
  unfold Chip.homeFail
  dsimp only
  rw [modStep_launches, stpStopNow_launches, endHome_launches, agreedFault_launches]

theorem stpRun_launches (c : Chip) (k dt : Nat) : (c.stpRun k dt).dev.launches = c.dev.launches := by
  unfold Chip.stpRun
  split
  dsimp only
  split
  · rfl
  · exact modStep_launches ..
  · exact launches_ite ((stpRelease_launches ..).trans (modStep_launches ..)) (modStep_launches ..)
  · refine launches_ite (launches_ite ((endHome_launches ..).trans (modStep_launches ..)) (modStep_launches ..)) ?_
    exact launches_ite ((homeFail_launches ..).trans (modStep_launches ..)) (modStep_launches ..)

theorem launchStp_dev (c : Chip) (l : LaneId) (k : Nat) : (c.launchStp l k).dev = c.dev := rfl

theorem launchSteps_launches (c : Chip) (k : Nat) (xs : List Launch) : (c.launchSteps k xs).dev.launches = c.dev.launches := by
  unfold Chip.launchSteps
  split
  · rfl
  · dsimp only
    refine (launches_foldl _ (fun d l => congrArg Dev.launches (launchStp_dev d l k)) _ _).trans ?_
    refine (stpRun_launches ..).trans ((launches_foldl _ (fun d x => applyStp_launches d k x) _ _).trans rfl)

theorem launchOut_launches (c : Chip) (n : Nat) (x : Launch) : (c.launchOut n x).dev.launches = c.dev.launches := by
  have hcommand : (c.commandOut x.args x.by_ n).dev.launches = c.dev.launches := by
    refine (launches_foldl _ (fun d l => ?_) _ _).trans rfl
    split <;> rfl
  refine (launches_foldl _ (fun d l => ?_) _ _).trans hcommand
  split <;> rfl

/-- A boundary takes the launches that fall on it, and no other comes in (R354). -/
theorem launchAt_launches (c : Chip) (o : Nat) : (c.launchAt o).dev.launches = c.dev.launches.filter (fun x => !(c.nextLaunches o).contains x) := by
  unfold Chip.launchAt
  dsimp only
  split
  · unfold Chip.launchMotors
    split
    · rfl
    · exact (relaunchBridge_launches ..).trans ((launches_foldl _ (fun d x => applyCmt_launches d o x) _ _).trans rfl)
  · split
    · exact (launchSteps_launches ..).trans rfl
    · exact (launches_foldl _ (fun d x => launchOut_launches d _ x) _ _).trans rfl

theorem launchAt_none {c : Chip} {o : Nat} (h : c.nextLaunches o = []) : c.launchAt o = c := by
  have hdrop : c.dropLaunches [] = c := by
    unfold Chip.dropLaunches
    have hall : c.dev.launches.filter (fun x => !([] : List Launch).contains x) = c.dev.launches := List.filter_eq_self.2 fun _ _ => rfl
    rw [Chip.modDev, hall]
  unfold Chip.launchAt
  dsimp only
  rw [h, hdrop]
  split
  · exact if_pos rfl
  · split <;> rfl

end Sys2Proof.Machine

namespace Sys2Proof.Machine
open Sys2Proof


/-! #### The launch point (R122, R140) -/

/-- A lane that puts outputs into effect: the agreed data, its round, its safety outputs and the other lanes stay. -/
structure Launching (l : LaneId) (c d : Chip) : Prop where
  dev : d.dev = c.dev
  others : ElseSame l c d
  round : (d.lanes.get l).round = (c.lanes.get l).round
  sio : (d.lanes.get l).sio = (c.lanes.get l).sio

theorem Launching.refl (l : LaneId) (c : Chip) : Launching l c c := ⟨rfl, ElseSame.refl l c, rfl, rfl⟩

theorem Launching.trans {l : LaneId} {c d e : Chip} (h : Launching l c d) (k : Launching l d e) : Launching l c e :=
  ⟨k.dev.trans h.dev, h.others.trans k.others, k.round.trans h.round, k.sio.trans h.sio⟩

theorem launching_modLane (c : Chip) (l : LaneId) {f : Lane → Lane} (hround : ∀ n, (f n).round = n.round) (hsio : ∀ n, (f n).sio = n.sio) :
    Launching l c (c.modLane l f) :=
  ⟨rfl, elseSame_modLane c l f, modLane_keeps c l l f Lane.round hround, modLane_keeps c l l f Lane.sio hsio⟩

theorem launching_foldl {l : LaneId} {α : Type} (f : Chip → α → Chip) (h : ∀ c x, Launching l c (f c x)) (xs : List α) (c : Chip) :
    Launching l c (xs.foldl f c) :=
  List.foldlRecOn xs f (motive := fun d => Launching l c d) (Launching.refl l c) fun d hd x _ => hd.trans (h d x)

theorem launching_modEngine (c : Chip) (l : LaneId) (k : Nat) (f : Engine → Engine) :
    Launching l c (c.modEngine l k f) ∧ ((c.modEngine l k f).lanes.get l).stp = (c.lanes.get l).stp :=
  ⟨launching_modLane c l (fun _ => rfl) fun _ => rfl,
    modLane_keeps c l l (fun n => { n with engines := modNth n.engines k f }) Lane.stp fun _ => rfl⟩

theorem launching_launchBridge (c : Chip) (l : LaneId) (k : Nat) :
    Launching l c (c.launchBridge l k) ∧ ((c.launchBridge l k).lanes.get l).stp = (c.lanes.get l).stp := by
  unfold Chip.launchBridge
  dsimp only
  split
  · exact launching_modEngine ..
  · exact launching_modEngine ..

theorem launching_launchStp (c : Chip) (l : LaneId) (k : Nat) : Launching l c (c.launchStp l k) := by
  unfold Chip.launchStp
  refine launching_modLane c l ?_ ?_
  · exact fun _ => rfl
  · exact fun _ => rfl

/-- A driver that follows the commands of its channel. -/
def StpFollows (d : Dev) (k : Nat) (n : Lane) : Prop :=
  (nth n.stp k {}).energised = (nth d.steppers k {}).energised ∧ (nth n.stp k {}).x1 = (nth d.steppers k {}).x1

theorem launchStp_stp (c : Chip) (l : LaneId) (j : Nat) : ∃ f : StpDrive → StpDrive,
    ((c.launchStp l j).lanes.get l).stp = modNth (c.lanes.get l).stp j f ∧
      ∀ x, (f x).energised = (nth c.dev.steppers j {}).energised ∧ (f x).x1 = (nth c.dev.steppers j {}).x1 := by
  unfold Chip.launchStp
  rw [modLane_lanes, tri_get_set_same]
  exact ⟨_, rfl, fun _ => ⟨rfl, rfl⟩⟩

theorem launchStp_follows {c : Chip} {l : LaneId} {k j : Nat} (hk : k < (c.lanes.get l).stp.length) (h : StpFollows c.dev k (c.lanes.get l) ∨ k = j) :
    StpFollows c.dev k ((c.launchStp l j).lanes.get l) := by
  obtain ⟨f, hstp, hf⟩ := launchStp_stp c l j
  unfold StpFollows
  rw [hstp]
  by_cases hkj : k = j
  · rw [hkj, nth_modNth_same _ _ _ _ (hkj ▸ hk)]
    exact hf _
  · rw [nth_modNth_ne _ _ _ _ _ hkj]
    exact h.resolve_right hkj

theorem launchStps_follow {l : LaneId} {k : Nat} (ks : List Nat) : ∀ c : Chip, k < (c.lanes.get l).stp.length →
    StpFollows c.dev k (c.lanes.get l) ∨ k ∈ ks → StpFollows c.dev k ((ks.foldl (fun c k => c.launchStp l k) c).lanes.get l) := by
  induction ks with
  | nil => exact fun c _ h => h.resolve_right List.not_mem_nil
  | cons j ks ih =>
    intro c hk h
    obtain ⟨f, hstp, -⟩ := launchStp_stp c l j
    refine ih (c.launchStp l j) (by rw [hstp, modNth_length]; exact hk) ?_
    rcases h with h | h
    · exact .inl (launchStp_follows hk (.inl h))
    · rcases List.mem_cons.1 h with rfl | h
      · exact .inl (launchStp_follows hk (.inr rfl))
      · exact .inr h

/-- The last things that a lane launches: its safety outputs, its slots and its bands. -/
def Chip.launchRest (c : Chip) (l : LaneId) : Chip := ((c.modSio l (fun x => x.setOuts (c.dev.so.get l))).launchSlots l).bandLaunch l

theorem launchRest_lane (c : Chip) (l : LaneId) : (c.launchRest l).dev = c.dev ∧ ElseSame l c (c.launchRest l) ∧
    ∃ net targets, (c.launchRest l).lanes.get l = { c.lanes.get l with
      sio := (c.lanes.get l).sio.setOuts (c.dev.so.get l), net := net, targets := targets } := by
  refine ⟨rfl, ((elseSame_modLane c l _).trans (elseSame_modLane _ l _)).trans (elseSame_modLane _ l _), ?_⟩
  unfold Chip.launchRest Chip.bandLaunch Chip.launchSlots Chip.modNet Chip.modSio
  dsimp only
  rw [modLane_modLane, modLane_modLane, modLane_lanes, tri_get_set_same]
  exact ⟨_, _, rfl⟩

/-- What a lane that passed has put into effect (R122). -/
theorem launchLane_effect (c : Chip) (l : LaneId) : (c.launchLane l).dev = c.dev ∧ ElseSame l c (c.launchLane l) ∧
    ((c.launchLane l).lanes.get l).round = (c.lanes.get l).round ∧
    ((c.launchLane l).lanes.get l).sio = (c.lanes.get l).sio.setOuts (c.dev.so.get l) ∧
    ∀ k, k < 6 → k < (c.lanes.get l).stp.length → StpFollows c.dev k ((c.launchLane l).lanes.get l) := by
  have hgo : c.launchLane l = ((List.range 6).foldl (fun c k => c.launchStp l k) ((List.range 4).foldl (fun c k => c.launchBridge l k) c)).launchRest l := rfl
  have hengines := launching_foldl (fun c k => c.launchBridge l k) (fun d k => (launching_launchBridge d l k).1) (List.range 4) c
  have hkept := foldl_keeps (fun d : Chip => (d.lanes.get l).stp) (fun c k => c.launchBridge l k) (fun d k => (launching_launchBridge d l k).2)
    (List.range 4) c
  rw [hgo]
  generalize (List.range 4).foldl (fun c k => c.launchBridge l k) c = d at hengines hkept
  have hfollow (k : Nat) := launchStps_follow (l := l) (k := k) (List.range 6) d
  have hstps := hengines.trans (launching_foldl (fun c k => c.launchStp l k) (fun d k => launching_launchStp d l k) (List.range 6) d)
  generalize (List.range 6).foldl (fun c k => c.launchStp l k) d = e at hfollow hstps
  obtain ⟨hdev, helse, net, targets, hlane⟩ := launchRest_lane e l
  rw [hlane]
  refine ⟨hdev.trans hstps.dev, hstps.others.trans helse, hstps.round, ?_, fun k hk hlen => ?_⟩
  · show (e.lanes.get l).sio.setOuts (e.dev.so.get l) = _
    rw [hstps.sio, hstps.dev]
  · have h := hfollow k (hkept ▸ hlen) (.inr (List.mem_range.2 hk))
    rw [hengines.dev] at h
    exact h

/-- A period's launch in one lane, before what it puts into effect (R122). -/
theorem launchPoint_later {c : Chip} {l : LaneId} (hl : c.sampledIn l = true) (hnot : (c.lane l).round.launched = false) (hdone : c.dev.launched = true) :
    launchPoint l c = if (c.lane l).round.passed then (c.modLane l (fun n => { n with round := { n.round with launched := true } })).launchLane l
      else if (c.lane l).chk.resync = 1 then (c.modLane l (fun n => { n with round := { n.round with launched := true } })).launchResync l
      else c.modLane l (fun n => { n with round := { n.round with launched := true } }) := by
  refine (if_neg (by rw [hl, hnot]; exact Bool.false_ne_true)).trans ?_
  dsimp only
  rw [modLane_dev, hdone, if_pos rfl]
  split
  · rfl
  · rw [lane_eq, modLane_lanes, tri_get_set_same]
    rfl

theorem resync_ne_one {c : Chip} {l : LaneId} (h : c.resyncing l = false) : (c.lane l).chk.resync ≠ 1 := fun h1 => by
  rw [Chip.resyncing, h1] at h
  exact Bool.false_ne_true h.symm

/-- A launch without a passing lane: the frames of earlier periods, and no output (R122, R140). -/
structure Unlaunched (c d : Chip) : Prop where
  launched : d.dev.launched = c.dev.launched
  pintle : d.pintle = c.pintle
  outputs : ∀ j, (d.lanes.get j).sio = (c.lanes.get j).sio ∧ (d.lanes.get j).stp = (c.lanes.get j).stp ∧
    (d.lanes.get j).engines = (c.lanes.get j).engines

theorem Unlaunched.trans {c d e : Chip} (h : Unlaunched c d) (k : Unlaunched d e) : Unlaunched c e where
  launched := k.launched.trans h.launched
  pintle := k.pintle.trans h.pintle
  outputs := fun j =>
    ⟨(k.outputs j).1.trans (h.outputs j).1, (k.outputs j).2.1.trans (h.outputs j).2.1, (k.outputs j).2.2.trans (h.outputs j).2.2⟩

theorem unlaunched_modLane (c : Chip) (l : LaneId) (f : Lane → Lane) (hsio : ∀ n, (f n).sio = n.sio) (hstp : ∀ n, (f n).stp = n.stp)
    (hengines : ∀ n, (f n).engines = n.engines) : Unlaunched c (c.modLane l f) :=
  ⟨rfl, rfl, fun j => ⟨modLane_keeps c l j f Lane.sio hsio, modLane_keeps c l j f Lane.stp hstp, modLane_keeps c l j f Lane.engines hengines⟩⟩

theorem unlaunched_queueFrame (c : Chip) (p : List Byte) : Unlaunched c (c.queueFrame p) := by
  rw [queueFrame_eq]
  refine List.foldlRecOn _ _ (motive := fun d => Unlaunched c d) ⟨rfl, rfl, fun _ => ⟨rfl, rfl, rfl⟩⟩ fun d hd l _ => hd.trans ?_
  refine unlaunched_modLane d l _ (fun n => ?_) (fun n => ?_) fun n => ?_ <;> unfold Lane.take <;> split <;> rfl

theorem unlaunched_launchFrames (c : Chip) : Unlaunched c c.launchFrames := by
  unfold Chip.launchFrames
  exact List.foldlRecOn _ _ (motive := fun d => Unlaunched c d) ⟨rfl, rfl, fun _ => ⟨rfl, rfl, rfl⟩⟩ fun d hd x _ => hd.trans (unlaunched_queueFrame d x.args)

end Sys2Proof.Machine

namespace Sys2Proof.Machine
open Sys2Proof


theorem launchFrames_chk (c : Chip) (l : LaneId) : (c.launchFrames.lanes.get l).chk = (c.lanes.get l).chk := by
  have hqueue (d : Chip) (p : List Byte) : ((d.queueFrame p).lanes.get l).chk = (d.lanes.get l).chk := by
    rw [queueFrame_eq]
    refine (foldl_keeps (fun c : Chip => (c.lanes.get l).chk) (fun e k => e.modLane k (Lane.take (hostFrame p d.dev.arbSeq))) (fun e k => ?_) _ _).trans rfl
    refine modLane_keeps e k l _ Lane.chk fun n => ?_
    unfold Lane.take
    split <;> rfl
  exact (foldl_keeps (fun c : Chip => (c.lanes.get l).chk) (fun c (x : Launch) => c.queueFrame x.args) (fun d x => hqueue d x.args) _ _).trans rfl

/-- The launch of a period in which no lane passed (R122, R140). -/
theorem launchPoint_unpassed {c : Chip} {l : LaneId} (hl : c.sampledIn l = true) (hnot : (c.lane l).round.launched = false)
    (hfirst : c.dev.launched = false) (hpassed : c.dev.passed = 0) (hresync : c.resyncing l = false) (hown : (c.lane l).round.passed = false) :
    (launchPoint l c).dev.launched = true ∧ (launchPoint l c).pintle = c.pintle ∧
      ∀ j, ((launchPoint l c).lanes.get j).sio = (c.lanes.get j).sio ∧ ((launchPoint l c).lanes.get j).stp = (c.lanes.get j).stp ∧
        ((launchPoint l c).lanes.get j).engines = (c.lanes.get j).engines := by
  let d := ((c.modLane l (fun n => { n with round := { n.round with launched := true } })).modCfg (fun g =>
    g.launched ((c.modLane l (fun n => { n with round := { n.round with launched := true } })).lane l).clock.nt))
  let e := d.modDev (fun x => { x with launched := true, power := { x.power with since := if x.power.target.isSome then x.power.since + 1 else 0 } })
  have hdevice : d.launchDevice = e.launchFrames := if_pos hpassed
  have hmark := unlaunched_modLane c l (fun n => { n with round := { n.round with launched := true } }) (fun _ => rfl) (fun _ => rfl) fun _ => rfl
  obtain ⟨hlaunched, hpintle, houtputs⟩ := unlaunched_launchFrames e
  have hsame : ((e.launchFrames).lane l).chk.resync = (c.lane l).chk.resync := by
    rw [lane_eq, launchFrames_chk]
    exact (congrArg Chk.resync (modLane_keeps c l l (fun n => { n with round := { n.round with launched := true } }) Lane.chk fun _ => rfl) :)
  have hgo : launchPoint l c = e.launchFrames := by
    refine (if_neg (by rw [hl, hnot]; exact Bool.false_ne_true)).trans ?_
    dsimp only
    rw [modLane_dev, hfirst, if_neg Bool.false_ne_true, if_neg (by rw [hown]; exact Bool.false_ne_true)]
    rw [show (((c.modLane l fun n => { n with round := { n.round with launched := true } }).modCfg fun g => g.launched
      ((c.modLane l fun n => { n with round := { n.round with launched := true } }).lane l).clock.nt).launchDevice) = e.launchFrames from hdevice]
    exact if_neg (hsame ▸ resync_ne_one hresync)
  rw [hgo]
  refine ⟨hlaunched, hpintle, fun j => ?_⟩
  obtain ⟨hsio, hstp, hengines⟩ := houtputs j
  obtain ⟨hsio', hstp', hengines'⟩ := hmark.outputs j
  exact ⟨hsio.trans hsio', hstp.trans hstp', hengines.trans hengines'⟩

/-- Settles O60: what the boundaries carry over is one record that each of their parts keeps, and the launch point is taken apart into what
the device and the lane launch. -/
theorem launchesAndBoundaries : Obligations.LaunchesAndBoundaries := by
  unfold Obligations.LaunchesAndBoundaries
  intro s l
  refine ⟨fun hoff => ?_, fun hl hnot hdone hown hresync => ?_, fun hl hnot hdone hown => ?_, fun hl hnot hfirst hpassed hresync hown => ?_,
    fun o => ⟨fun hnone => ?_, ?_⟩, fun hunformed => ⟨?_, ?_⟩, fun hformed hnext hpend => ?_, fun g hformed hnext hpend => ?_,
    fun hformed hpend => ?_, fun hformed => ?_⟩
  · refine next_congr (onChip_congr (f := launchPoint l) (g := fun c => c) (if_pos ?_))
    rcases hoff with hoff | hoff <;> rw [hoff] <;> simp
  · refine next_congr (onChip_congr (f := launchPoint l) (g := fun c => c.modLane l (fun n => { n with round := { n.round with launched := true } }))
      ((launchPoint_later hl hnot hdone).trans ?_))
    rw [show (s.chip.lane l).round.passed = false from hown, if_neg Bool.false_ne_true, if_neg (resync_ne_one hresync)]
  · have hexec : exec (.launchPoint l) s = .next _ := next_congr (onChip_congr (f := launchPoint l)
      (g := fun c => (c.modLane l (fun n => { n with round := { n.round with launched := true } })).launchLane l)
      ((launchPoint_later hl hnot hdone).trans (if_pos hown)))
    obtain ⟨hdev, helse, hround, hsio, hstp⟩ := launchLane_effect (s.chip.modLane l (fun n => { n with round := { n.round with launched := true } })) l
    rw [modLane_lanes, tri_get_set_same] at hround hsio hstp
    exact ⟨_, hexec, rfl, (congrArg Round.launched hround :), hsio, hstp, ((elseSame_modLane s.chip l _).trans helse)⟩
  · obtain ⟨hlaunched, hpintle, houtputs⟩ := launchPoint_unpassed hl hnot hfirst hpassed hresync hown
    exact ⟨_, rfl, rfl, hlaunched, hpintle, houtputs⟩
  · exact next_congr (onChip_congr (f := launchBoundary o) (g := fun c => c) (launchAt_none hnone))
  · refine ⟨_, rfl, rfl, fun x hx => ?_⟩
    have hmem : x ∈ s.chip.dev.launches.filter (fun x => !(s.chip.nextLaunches o.val).contains x) := launchAt_launches s.chip o.val ▸ hx
    obtain ⟨hin, hout⟩ := List.mem_filter.1 hmem
    exact ⟨hin, by simpa using hout⟩
  · exact next_congr (if_pos (by rw [show s.chip.dev.formed = false from hunformed]; rfl))
  · exact next_congr (onChip_congr (f := matrixCycleBoundary) (g := fun c => c) (if_pos (by rw [show s.chip.dev.formed = false from hunformed]; rfl)))
  · have hcarry := boundary_carry_values hnext
    exact ⟨_, periodBoundary_stays hformed hpend, rfl, (congrArg Carry.shadow hcarry :), (congrArg Carry.ws hcarry :), (congrArg Carry.count hcarry :)⟩
  · have hcarry := boundary_carry_image hnext
    exact ⟨_, periodBoundary_stays hformed hpend, rfl, (congrArg Carry.ws hcarry :), (congrArg Carry.shadow hcarry :), (congrArg Carry.wsNext hcarry :)⟩
  · obtain ⟨hblank, hrestarts⟩ := rebootAll_restarts (s.onChip Chip.boundary)
    refine ⟨_, periodBoundary_resets hformed hpend, (congrArg Dev.formed hblank :), (congrArg Dev.authority hblank :), ?_, fun hpower => ?_⟩
    · exact (congrArg (fun d : Dev => d.cfg.ws) hblank :)
    · obtain ⟨hstate, hsram, hstaging, hsilent⟩ := hrestarts l ((boundary_power s.chip l).trans hpower)
      exact ⟨hstate, hsram, hstaging, hsilent⟩
  · have hcarry := matrixCycleBoundary_carry hformed
    have hnoted : (matrixCycleBoundary s.chip).lanes.map (fun n => n.keyNoted) = ⟨[], [], []⟩ := (congrArg Carry.noted hcarry :)
    refine ⟨_, rfl, rfl, (congrArg Carry.matrix hcarry :), (congrArg Carry.cycle hcarry :), (congrArg Carry.count hcarry :), ?_⟩
    refine (tri_get_map (fun n : Lane => n.keyNoted) (matrixCycleBoundary s.chip).lanes l).symm.trans ((congrArg (fun t => t.get l) hnoted).trans ?_)
    cases l <;> rfl

end Sys2Proof.Machine

namespace Sys2Proof.Machine
open Sys2Proof


/-! ### Phases of a plane (R77, R307, R317 to R324, R327, R351) -/

/-- What the sending of a cycle leaves of a plane: its phase, its counts and its cycle start (R307). -/
structure PlaneCounts where
  phase : NetPhase
  counter : Nat
  matrix : Nat
  waited : Nat
  start : Nat
  coldFrames : Nat

def Ocgal.planeCounts (n : Ocgal) : PlaneCounts := ⟨n.phase, n.counter, n.matrix, n.waited, n.start, n.coldFrames⟩

/-- A lane that works on its plane: the die, the bridges, the configuration and the other lanes stay. -/
structure PlaneWork (l : LaneId) (c d : Chip) : Prop where
  pintle : d.pintle = c.pintle
  bridges : d.bridges = c.bridges
  cfg : d.dev.cfg = c.dev.cfg
  others : ElseSame l c d

theorem PlaneWork.refl (l : LaneId) (c : Chip) : PlaneWork l c c := ⟨rfl, rfl, rfl, ElseSame.refl l c⟩

theorem PlaneWork.trans {l : LaneId} {c d e : Chip} (h : PlaneWork l c d) (k : PlaneWork l d e) : PlaneWork l c e :=
  ⟨k.pintle.trans h.pintle, k.bridges.trans h.bridges, k.cfg.trans h.cfg, h.others.trans k.others⟩

theorem planeWork_modLane (c : Chip) (l : LaneId) (f : Lane → Lane) : PlaneWork l c (c.modLane l f) := ⟨rfl, rfl, rfl, elseSame_modLane c l f⟩

theorem planeWork_modNet (c : Chip) (l : LaneId) (f : Ocgal → Ocgal) : PlaneWork l c (c.modNet l f) := planeWork_modLane ..

theorem planeWork_modClock (c : Chip) (l : LaneId) (f : Clock → Clock) : PlaneWork l c (c.modClock l f) := planeWork_modLane ..

theorem planeWork_localFault (c : Chip) (l : LaneId) (code t i lane : Nat) : PlaneWork l c (c.localFault l code t i lane) :=
  ⟨localFault_pintle .., localFault_bridges .., (congrArg (fun c : Chip => c.dev.cfg) (localFault_plain c l code t i lane) :),
    elseSame_localFault c l code t i lane⟩

theorem planeWork_modDev (c : Chip) (l : LaneId) (f : Dev → Dev) (h : (f c.dev).cfg = c.dev.cfg) : PlaneWork l c (c.modDev f) :=
  ⟨rfl, rfl, h, fun _ _ => rfl⟩

theorem planeWork_netPhase (c : Chip) (l : LaneId) (ph : NetPhase) : PlaneWork l c (c.netPhase l ph) :=
  (planeWork_modNet ..).trans (planeWork_modClock ..)

theorem planeWork_clearLive (c : Chip) (l : LaneId) : PlaneWork l c c.clearLive := by
  unfold Chip.clearLive
  split
  · exact .refl l c
  · exact planeWork_modDev c l _ rfl

/-- A lane that sends keeps its phase and its counts beside. -/
structure Sending (l : LaneId) (c d : Chip) : Prop extends PlaneWork l c d where
  nt : (d.lane l).clock.nt = (c.lane l).clock.nt
  stands : (d.netOf l).planeCounts = (c.netOf l).planeCounts

theorem Sending.refl (l : LaneId) (c : Chip) : Sending l c c := ⟨.refl l c, rfl, rfl⟩

theorem Sending.trans {l : LaneId} {c d e : Chip} (h : Sending l c d) (k : Sending l d e) : Sending l c e :=
  ⟨h.toPlaneWork.trans k.toPlaneWork, k.nt.trans h.nt, k.stands.trans h.stands⟩

theorem sending_modNet (c : Chip) (l : LaneId) (f : Ocgal → Ocgal) (h : ∀ n, (f n).planeCounts = n.planeCounts) : Sending l c (c.modNet l f) :=
  ⟨planeWork_modNet .., modLane_keeps c l l (fun n => { n with net := f n.net }) (fun n => n.clock.nt) fun _ => rfl,
    (congrArg Ocgal.planeCounts (netOf_modNet c l f)).trans (h _)⟩

theorem sending_localFault (c : Chip) (l : LaneId) (code t i lane : Nat) : Sending l c (c.localFault l code t i lane) :=
  ⟨planeWork_localFault .., localFault_lane c l l code t i lane (fun n => n.clock.nt) fun _ _ => rfl,
    localFault_lane c l l code t i lane (fun n => n.net.planeCounts) fun _ _ => rfl⟩

theorem sending_draw (c : Chip) (l : LaneId) : Sending l c c.draw.2 := ⟨⟨rfl, rfl, rfl, fun _ _ => rfl⟩, rfl, rfl⟩

theorem sending_nextArb (c : Chip) (l : LaneId) : Sending l c c.nextArb.2 := ⟨⟨rfl, rfl, rfl, fun _ _ => rfl⟩, rfl, rfl⟩

theorem sending_ite {p : Prop} [Decidable p] {l : LaneId} {c d e : Chip} (h : Sending l c d) (h' : Sending l c e) : Sending l c (if p then d else e) := by
  split
  · exact h
  · exact h'

theorem sending_foldl {l : LaneId} {α : Type} (f : Chip → α → Chip) (h : ∀ c x, Sending l c (f c x)) (xs : List α) (c : Chip) :
    Sending l c (xs.foldl f c) :=
  List.foldlRecOn xs f (motive := fun d => Sending l c d) (Sending.refl l c) fun d hd x _ => hd.trans (h d x)

/-- The same of a walk that carries its window along (R330). -/
theorem sending_planned {l : LaneId} {α : Type} (f : Chip × ArbPlan → α → Chip × ArbPlan) (h : ∀ x a, Sending l x.1 (f x a).1) (xs : List α)
    (x : Chip × ArbPlan) : Sending l x.1 (xs.foldl f x).1 :=
  List.foldlRecOn xs f (motive := fun y => Sending l x.1 y.1) (Sending.refl l x.1) fun y hy a _ => hy.trans (h y a)

/-! #### The frames of a cycle -/

theorem sending_planAt (c : Chip) (l : LaneId) (p : Nat) (ref : Int) (b : List Byte) : Sending l c (c.planAt l p ref b) := by
  unfold Chip.planAt
  dsimp only
  exact sending_ite (.refl l c) (sending_ite (sending_localFault ..) (sending_modNet _ _ _ fun _ => rfl))

theorem sending_planOn (c : Chip) (l : LaneId) (ch : Nat) (ref : Int) (b : List Byte) : Sending l c (c.planOn l ch ref b) :=
  sending_foldl _ (fun d p => sending_planAt d l p ref b) _ c

theorem sending_planArbAt (c : Chip) (l : LaneId) (p ref : Nat) (b : List Byte) : Sending l c (c.planArbAt l p ref b) := by
  unfold Chip.planArbAt
  exact sending_ite (.refl l c) (sending_modNet _ _ _ fun _ => rfl)

theorem sending_planArb (c : Chip) (l : LaneId) (w : ArbPlan) (ch : Nat) (b : List Byte) : Sending l c (c.planArb l w ch b).1 :=
  sending_foldl _ (fun d p => sending_planArbAt d l p _ b) _ c

theorem sending_sendSlots (c : Chip) (l : LaneId) : Sending l c (c.sendSlots l) := by
  refine sending_foldl _ (fun d e => ?_) _ c
  dsimp only
  split
  · exact .refl l d
  · exact (sending_planOn ..).trans (sending_modNet _ _ _ fun _ => rfl)

theorem sending_sendWaiting (c : Chip) (l : LaneId) (w : ArbPlan) : Sending l c (c.sendWaiting l w).1 := by
  have hfirst : Sending l c (c.modNet l (fun n => { n with waiting := [] })) := sending_modNet _ _ _ fun _ => rfl
  refine hfirst.trans (sending_planned (l := l) _ (fun x f => ?_) _ (c.modNet l (fun n => { n with waiting := [] }), w))
  dsimp only
  split
  · exact sending_planArbAt ..
  · dsimp only
    refine sending_modNet _ _ _ ?_
    exact fun _ => rfl

theorem sending_sendDelays (c : Chip) (l : LaneId) (w : ArbPlan) : Sending l c (c.sendDelays l w).1 := by
  have hfirst : Sending l c (c.modNet l (fun n => { n with delayAsked := 0 })) := sending_modNet _ _ _ fun _ => rfl
  refine hfirst.trans (sending_planned (l := l) _ (fun x ch => ?_) _ (c.modNet l (fun n => { n with delayAsked := 0 }), w))
  dsimp only
  split
  · exact (sending_nextArb ..).trans (sending_planArb ..)
  · exact sending_nextArb ..

theorem planeCounts_charge (n : Ocgal) (x : ArbTx) : (n.charge x).planeCounts = n.planeCounts := by
  unfold Ocgal.charge
  split <;> rfl

theorem sending_serveQueue (l : LaneId) (xs : List ArbTx) : ∀ (c : Chip) (w : ArbPlan), Sending l c (c.serveQueue l xs w).1 := by
  induction xs with
  | nil => exact fun c _ => .refl l c
  | cons x r ih =>
    intro c w
    unfold Chip.serveQueue
    dsimp only
    split
    · split
      · refine ((sending_planArb ..).trans (sending_modNet _ _ _ ?_)).trans (ih _ _)
        exact fun n => planeCounts_charge n x
      · exact ih ..
    · exact ih ..

theorem sending_sendCredits (c : Chip) (l : LaneId) (w : ArbPlan) : Sending l c (c.sendCredits l w).1 := by
  refine sending_planned _ (fun x k => ?_) _ (c, w)
  dsimp only
  split
  · dsimp only
    refine ((sending_nextArb ..).trans (sending_planArb ..)).trans (sending_modNet _ _ _ ?_)
    exact fun _ => rfl
  · exact .refl l x.1

theorem sending_sendWindow (c : Chip) (l : LaneId) : Sending l c (c.sendWindow l) := by
  have hdelays (x : Chip × ArbPlan) : Sending l x.1 (x.1.sendDelays l x.2).1 := sending_sendDelays ..
  unfold Chip.sendWindow
  dsimp only
  split
  · exact (((sending_sendWaiting ..).trans (hdelays _)).trans (sending_serveQueue ..)).trans (sending_sendCredits ..)
  · exact hdelays (c, c.arbPlan)

theorem sending_fixDelays (c : Chip) (l : LaneId) : Sending l c (c.fixDelays l) := by
  have hfirst : Sending l c (c.modNet l (fun n => { n with posA := c.netPosition l 0, posB := c.netPosition l 1 })) := sending_modNet _ _ _ fun _ => rfl
  unfold Chip.fixDelays
  dsimp only
  split
  · split
    · exact hfirst.trans (sending_modNet _ _ _ fun _ => rfl)
    · exact hfirst
  · exact hfirst

theorem sending_netStarted (c : Chip) (l : LaneId) : Sending l c c.netStarted := by
  unfold Chip.netStarted
  split
  · have hlanes := finishAll_lanes c (fun p => p.opcode == 0x2011) stOk []
    have hnoted := noted_finishAll c (fun p => p.opcode == 0x2011) stOk []
    refine ⟨⟨hnoted.pintle, hnoted.bridges, hnoted.field Dev.cfg fun _ _ _ => rfl, elseSame_of_eq hlanes⟩, ?_, ?_⟩
    · rw [lane_eq, hlanes]
      rfl
    · rw [Chip.netOf, lane_eq, hlanes]
      rfl
  · exact .refl l c

end Sys2Proof.Machine

namespace Sys2Proof.Machine
open Sys2Proof


/-! #### The start of a basic cycle (R307, R318, R319, R348) -/

theorem sending_modClock (c : Chip) (l : LaneId) (f : Clock → Clock) (h : ∀ k, (f k).nt = k.nt) : Sending l c (c.modClock l f) :=
  ⟨planeWork_modClock .., modLane_keeps c l l (fun n => { n with clock := f n.clock }) (fun n => n.clock.nt) fun n => h n.clock,
    modLane_keeps c l l (fun n => { n with clock := f n.clock }) (fun n => n.net.planeCounts) fun _ => rfl⟩

theorem netOf_modClock (c : Chip) (l k : LaneId) (f : Clock → Clock) : (c.modClock l f).netOf k = c.netOf k :=
  modLane_keeps c l k (fun n => { n with clock := f n.clock }) Lane.net fun _ => rfl

theorem servicePeer_modClock (c : Chip) (l k : LaneId) (f : Clock → Clock) : (c.modClock l f).servicePeer k = c.servicePeer k := by
  have hin : (c.modClock l f).inService = c.inService := funext fun j => by rw [Chip.inService, Chip.inService, netOf_modClock]
  rw [Chip.servicePeer, Chip.servicePeer, hin]

/-- The cycle is the first of a coldstart (R318). -/
def Chip.firstCycle (c : Chip) (l : LaneId) : Bool := decide ((c.netOf l).phase = .coldstart) && decide ((c.netOf l).coldFrames = 0)

/-- The NT at which a cycle starts (R348). -/
def Chip.cycleNt (c : Chip) (l : LaneId) : Nat :=
  if c.firstCycle l && (c.servicePeer l).isNone then c.parN Par.timeStartNt else (c.lane l).clock.nt

/-- The clock of a lane at the start of a cycle (R348). -/
def Chip.cycleClock (c : Chip) (l : LaneId) : Chip :=
  if c.firstCycle l && ((c.clockCycle l).servicePeer l).isNone then
    (c.clockCycle l).modClock l (fun k => { k with nt := (c.clockCycle l).parN Par.timeStartNt, frac := 0, lastOff := none })
  else c.clockCycle l

theorem clockCycle_sending (c : Chip) (l : LaneId) : Sending l c (c.clockCycle l) := sending_modClock c l _ fun k => by split <;> rfl

theorem cycleClock_work (c : Chip) (l : LaneId) : PlaneWork l c (c.cycleClock l) ∧ (c.cycleClock l).netOf l = c.netOf l ∧
    ((c.cycleClock l).lane l).clock.nt = c.cycleNt l := by
  have hpeer : (c.clockCycle l).servicePeer l = c.servicePeer l := servicePeer_modClock ..
  have hsent := clockCycle_sending c l
  have hnet : (c.clockCycle l).netOf l = c.netOf l := netOf_modClock ..
  unfold Chip.cycleClock Chip.cycleNt
  rw [hpeer]
  split
  · refine ⟨hsent.toPlaneWork.trans (planeWork_modClock ..), (netOf_modClock ..).trans hnet, ?_⟩
    rw [Chip.modClock, lane_eq, modLane_lanes, tri_get_set_same]
    rfl
  · exact ⟨hsent.toPlaneWork, hnet, hsent.nt⟩

theorem startCycle_eq (c : Chip) (l : LaneId) : ∃ missed : Ocgal → Nat, c.startCycle l = (c.cycleClock l).modNet l (fun n => { n.count with
    out := [], cycleSeen := false, syncMissed := missed n.count, left := n.count.leaving, start := ((c.cycleClock l).lane l).clock.nt
    counter := if c.firstCycle l then (c.coldCounts l).1 else n.count.counter
    matrix := if c.firstCycle l then (c.coldCounts l).2 else n.count.matrix }) :=
  ⟨fun n => if (c.lane l).clock.gotSync || n.isRef then 0 else min 255 (n.syncMissed + 1), rfl⟩

/-- What a lane stands at when its cycle has started (R307, R318). -/
theorem startCycle_work (c : Chip) (l : LaneId) : PlaneWork l c (c.startCycle l) ∧ ((c.startCycle l).lane l).clock.nt = c.cycleNt l ∧
    ((c.startCycle l).netOf l).integrated = (c.netOf l).count.integrated ∧
    ((c.startCycle l).netOf l).planeCounts = { (c.netOf l).count.planeCounts with
      start := c.cycleNt l
      counter := if c.firstCycle l then (c.coldCounts l).1 else (c.netOf l).count.counter
      matrix := if c.firstCycle l then (c.coldCounts l).2 else (c.netOf l).count.matrix } := by
  obtain ⟨hwork, hnet, hnt⟩ := cycleClock_work c l
  obtain ⟨missed, heq⟩ := startCycle_eq c l
  rw [heq, netOf_modNet, hnet, hnt]
  refine ⟨hwork.trans (planeWork_modNet ..), ?_, rfl, rfl⟩
  refine Eq.trans ?_ hnt
  exact modLane_keeps (c.cycleClock l) l l _ (fun n => n.clock.nt) fun _ => rfl

/-- The matrix-cycle boundary at which a lane enters SERVICE (R318, R319). -/
def Ocgal.enters (n : Ocgal) : Bool :=
  decide (n.counter = 0 ∧ ((n.phase = .coldstart ∧ 8 ≤ n.coldFrames) ∨ (n.phase = .integrate ∧ 8 ≤ n.integrated)))

theorem enterPhase_work (c : Chip) (l : LaneId) : PlaneWork l c (c.enterPhase l) ∧ ((c.enterPhase l).lane l).clock.nt = (c.lane l).clock.nt ∧
    ((c.enterPhase l).netOf l).planeCounts = (if (c.netOf l).enters then { (c.netOf l).planeCounts with phase := .service } else (c.netOf l).planeCounts) := by
  unfold Chip.enterPhase
  by_cases h : (c.netOf l).counter = 0 ∧ (((c.netOf l).phase = .coldstart ∧ 8 ≤ (c.netOf l).coldFrames) ∨
      ((c.netOf l).phase = .integrate ∧ 8 ≤ (c.netOf l).integrated))
  · have henters : (c.netOf l).enters = true := decide_eq_true h
    rw [if_pos h, henters, if_pos rfl]
    have hfix := sending_fixDelays (c.modNet l (fun n => { n with phase := .service, credits := [], silent := 0, cycleSeen := true, syncMissed := 0 })) l
    refine ⟨(planeWork_modNet ..).trans hfix.toPlaneWork, hfix.nt.trans ?_, hfix.stands.trans ?_⟩
    · exact modLane_keeps c l l (fun n => { n with net := { n.net with phase := .service, credits := [], silent := 0, cycleSeen := true, syncMissed := 0 } })
        (fun n => n.clock.nt) fun _ => rfl
    · rw [netOf_modNet]
      rfl
  · have henters : (c.netOf l).enters = false := decide_eq_false h
    rw [if_neg h, henters, if_neg Bool.false_ne_true]
    exact ⟨.refl l c, rfl, rfl⟩

theorem sendSync_work (c : Chip) (l : LaneId) : PlaneWork l c (c.sendSync l) ∧ ((c.sendSync l).lane l).clock.nt = (c.lane l).clock.nt ∧
    ((c.sendSync l).netOf l).planeCounts = (if (c.netOf l).phase = .coldstart ∧ (c.netOf l).coldFrames < 8 then
      { (c.netOf l).planeCounts with coldFrames := (c.netOf l).coldFrames + 1 } else (c.netOf l).planeCounts) := by
  unfold Chip.sendSync
  dsimp only
  split
  · have hsent := sending_foldl (fun (d : Chip) p => d.planAt l p 0 (d.ownFrame l 0x10 0 0 d.schedTag (d.coldPayload l p)))
      (fun d p => sending_planAt d l p 0 _) (c.sendPorts l 0) c
    refine ⟨hsent.toPlaneWork.trans (planeWork_modNet ..), Eq.trans ?_ hsent.nt, ?_⟩
    · exact modLane_keeps _ l l (fun n => { n with net := { n.net with coldFrames := n.net.coldFrames + 1 } }) (fun n => n.clock.nt) fun _ => rfl
    · rw [netOf_modNet]
      have hstands := hsent.stands
      generalize ((c.sendPorts l 0).foldl (fun (d : Chip) p => d.planAt l p 0 (d.ownFrame l 0x10 0 0 d.schedTag (d.coldPayload l p))) c).netOf l = n at hstands
      have hcold := congrArg PlaneCounts.coldFrames hstands
      have hrest : ({ n with coldFrames := n.coldFrames + 1 } : Ocgal).planeCounts = { n.planeCounts with coldFrames := n.planeCounts.coldFrames + 1 } := rfl
      rw [hrest, hstands]
      rfl
  · split
    · have hsent : Sending l c (((c.sendPorts l 0).foldl (fun (d : Chip) p => d.planAt l p 0 (d.ownFrame l 0x11 (frameFlags false (c.netOf l).leaving 0) 0
          d.schedTag (d.syncPayload l p c.draw.1))) c.draw.2).modNet l (fun n => { n with firstSync := false })) := by
        refine ((sending_draw c l).trans (sending_foldl _ (fun d p => sending_planAt d l p 0 _) _ _)).trans (sending_modNet _ _ _ ?_)
        exact fun _ => rfl
      exact ⟨hsent.toPlaneWork, hsent.nt, hsent.stands⟩
    · exact ⟨.refl l c, rfl, rfl⟩

/-- What follows the sync frames of a cycle (R308, R316, R318). -/
def Chip.cycleFrames (c : Chip) (l : LaneId) : Chip :=
  let c := if (c.netOf l).phase = .coldstart ∧ 8 ≤ (c.netOf l).coldFrames ∧ (c.netOf l).isRef = false then
      (c.modNet l (fun n => { n with isRef := true, refRank := c.parN Par.netColdstartRank, refNode := c.parN Par.netNodeId })).modClock l
        (fun k => { k with tstate := .reference })
    else c
  let c := c.fixDelays l
  let c := if (c.netOf l).phase = .service ∧ (c.netOf l).lineDelays.isSome = true then c.sendSlots l else c
  (c.sendWindow l).netStarted

theorem sending_cycleFrames (c : Chip) (l : LaneId) : Sending l c (c.cycleFrames l) := by
  have href (d : Chip) : Sending l d (if (d.netOf l).phase = .coldstart ∧ 8 ≤ (d.netOf l).coldFrames ∧ (d.netOf l).isRef = false then
      (d.modNet l (fun n => { n with isRef := true, refRank := d.parN Par.netColdstartRank, refNode := d.parN Par.netNodeId })).modClock l
        (fun k => { k with tstate := .reference }) else d) :=
    sending_ite ((sending_modNet d l (fun n => { n with isRef := true, refRank := d.parN Par.netColdstartRank, refNode := d.parN Par.netNodeId })
      fun _ => rfl).trans (sending_modClock _ l (fun k => { k with tstate := .reference }) fun _ => rfl)) (.refl l d)
  have hslots (d : Chip) : Sending l d (if (d.netOf l).phase = .service ∧ (d.netOf l).lineDelays.isSome = true then d.sendSlots l else d) :=
    sending_ite (sending_sendSlots d l) (.refl l d)
  unfold Chip.cycleFrames
  dsimp only
  exact ((((href c).trans (sending_fixDelays ..)).trans (hslots _)).trans (sending_sendWindow ..)).trans (sending_netStarted ..)

theorem basicCycleStart_runs {c : Chip} {l : LaneId} (hdown : (c.netOf l).phase ≠ .down) (htest : (c.netOf l).phase ≠ .test)
    (hfenced : (c.lane l).boot.fenced = false) (hleave : ((c.netOf l).leaving && (c.netOf l).left) = false) :
    basicCycleStart l c = (((c.startCycle l).enterPhase l).sendSync l).cycleFrames l := by
  refine (if_neg ?_).trans ((if_neg (by rw [hleave]; exact Bool.false_ne_true)).trans rfl)
  rintro (h | h | h)
  · exact hdown h
  · exact htest h
  · exact Bool.false_ne_true (hfenced.symm.trans h)

end Sys2Proof.Machine

namespace Sys2Proof.Machine
open Sys2Proof


/-- What a lane stands at after the start of a cycle in which it works (R307, R318, R319). -/
theorem basicCycleStart_work {c : Chip} {l : LaneId} (hdown : (c.netOf l).phase ≠ .down) (htest : (c.netOf l).phase ≠ .test)
    (hfenced : (c.lane l).boot.fenced = false) (hleave : ((c.netOf l).leaving && (c.netOf l).left) = false) :
    PlaneWork l c (basicCycleStart l c) ∧ ((basicCycleStart l c).lane l).clock.nt = c.cycleNt l ∧
    ((basicCycleStart l c).netOf l).planeCounts = ((((c.startCycle l).enterPhase l).sendSync l).netOf l).planeCounts := by
  obtain ⟨hstart, hnt, -⟩ := startCycle_work c l
  obtain ⟨henter, hnt', -⟩ := enterPhase_work (c.startCycle l) l
  obtain ⟨hsync, hnt'', -⟩ := sendSync_work ((c.startCycle l).enterPhase l) l
  have hsent := sending_cycleFrames (((c.startCycle l).enterPhase l).sendSync l) l
  rw [basicCycleStart_runs hdown htest hfenced hleave]
  exact ⟨((hstart.trans henter).trans hsync).trans hsent.toPlaneWork, (hsent.nt.trans (hnt''.trans (hnt'.trans hnt))), hsent.stands⟩

/-- A lane that does not coldstart keeps what it stands at while it sends its sync frame. -/
theorem sendSync_stands {c : Chip} {l : LaneId} (h : (c.netOf l).planeCounts.phase ≠ .coldstart) :
    ((c.sendSync l).netOf l).planeCounts = (c.netOf l).planeCounts := by
  obtain ⟨-, -, hstands⟩ := sendSync_work c l
  exact hstands.trans (if_neg fun hcold => h hcold.1)

theorem enterPhase_stays {c : Chip} {l : LaneId} (h : (c.netOf l).enters = false) :
    ((c.enterPhase l).netOf l).planeCounts = (c.netOf l).planeCounts := by
  obtain ⟨-, -, hstands⟩ := enterPhase_work c l
  exact hstands.trans (if_neg (by rw [h]; exact Bool.false_ne_true))

theorem cycleNt_running {c : Chip} {l : LaneId} (h : (c.netOf l).phase ≠ .coldstart) : c.firstCycle l = false ∧ c.cycleNt l = (c.lane l).clock.nt := by
  have hfirst : c.firstCycle l = false := by rw [Chip.firstCycle, decide_eq_false h]; rfl
  exact ⟨hfirst, if_neg (by rw [hfirst]; exact Bool.false_ne_true)⟩

theorem count_listen {n : Ocgal} (h : n.phase = .listen) : n.count.planeCounts = { n.planeCounts with waited := n.waited + 1 } := by
  cases n
  dsimp only at h
  subst h
  rfl

theorem count_coldFirst {n : Ocgal} (h : n.phase = .coldstart) (hfirst : n.coldFrames = 0) : n.count = n := by
  unfold Ocgal.count
  rw [h]
  exact if_pos hfirst

theorem count_integrated {n : Ocgal} (h : n.phase = .integrate ∨ n.phase = .service) : n.count.planeCounts = { n.planeCounts with
    counter := (nextCounts n.counter n.matrix).1, matrix := (nextCounts n.counter n.matrix).2 } ∧
    n.count.integrated = if n.phase = .integrate then min 255 (n.integrated + 1) else n.integrated := by
  cases n
  dsimp only at h
  rcases h with h | h <;> subst h <;> exact ⟨rfl, rfl⟩

section
variable {c : Chip} {l : LaneId} (hfenced : (c.lane l).boot.fenced = false) (hleave : ((c.netOf l).leaving && (c.netOf l).left) = false)
include hfenced hleave

/-- A listening lane counts its wait (R317). -/
theorem basicCycleStart_listens (hphase : (c.netOf l).phase = .listen) : PlaneWork l c (basicCycleStart l c) ∧
    ((basicCycleStart l c).netOf l).phase = .listen ∧ ((basicCycleStart l c).netOf l).waited = (c.netOf l).waited + 1 ∧
    ((basicCycleStart l c).netOf l).start = (c.lane l).clock.nt := by
  obtain ⟨hwork, -, hstands⟩ := basicCycleStart_work (by rw [hphase]; decide) (by rw [hphase]; decide) hfenced hleave
  obtain ⟨-, hnt⟩ := cycleNt_running (c := c) (l := l) (by rw [hphase]; decide)
  obtain ⟨-, -, -, hcounts⟩ := startCycle_work c l
  rw [count_listen hphase] at hcounts
  have hphase' : ((c.startCycle l).netOf l).phase = .listen := (congrArg PlaneCounts.phase hcounts :).trans hphase
  have hstay : ((c.startCycle l).netOf l).enters = false := by
    unfold Ocgal.enters
    rw [hphase']
    simp
  have henter := enterPhase_stays hstay
  have hnotCold : (((c.startCycle l).enterPhase l).netOf l).planeCounts.phase ≠ .coldstart := by
    rw [henter, hcounts]
    exact fun h => NetPhase.noConfusion (hphase.symm.trans h)
  have hall := ((hstands.trans (sendSync_stands hnotCold)).trans henter).trans hcounts
  exact ⟨hwork, (congrArg PlaneCounts.phase hall :).trans hphase, (congrArg PlaneCounts.waited hall :), (congrArg PlaneCounts.start hall :).trans hnt⟩

/-- The first cycle of a coldstart without a lane in SERVICE beside (R318, R348). -/
theorem basicCycleStart_coldstarts (hphase : (c.netOf l).phase = .coldstart) (hfirst : (c.netOf l).coldFrames = 0) (hpeer : c.servicePeer l = none) :
    PlaneWork l c (basicCycleStart l c) ∧ ((basicCycleStart l c).netOf l).phase = .coldstart ∧ ((basicCycleStart l c).netOf l).counter = 0 ∧
    ((basicCycleStart l c).netOf l).matrix = 0 ∧ ((basicCycleStart l c).netOf l).coldFrames = 1 ∧
    ((basicCycleStart l c).lane l).clock.nt = c.parN Par.timeStartNt := by
  obtain ⟨hwork, hnt, hstands⟩ := basicCycleStart_work (by rw [hphase]; decide) (by rw [hphase]; decide) hfenced hleave
  have hcycle : c.firstCycle l = true := by rw [Chip.firstCycle, hphase, hfirst]; rfl
  have hstart : c.cycleNt l = c.parN Par.timeStartNt := if_pos (by rw [hcycle, hpeer]; rfl)
  have hcold : c.coldCounts l = (0, 0) := by rw [Chip.coldCounts, hpeer]
  obtain ⟨-, -, -, hcounts⟩ := startCycle_work c l
  rw [count_coldFirst hphase hfirst, hcycle, if_pos rfl, if_pos rfl, hcold] at hcounts
  have hphase' : ((c.startCycle l).netOf l).phase = .coldstart := (congrArg PlaneCounts.phase hcounts :).trans hphase
  have hfirst' : ((c.startCycle l).netOf l).coldFrames = 0 := (congrArg PlaneCounts.coldFrames hcounts :).trans hfirst
  have hstay : ((c.startCycle l).netOf l).enters = false := by
    unfold Ocgal.enters
    rw [hphase', hfirst']
    simp
  have henter := enterPhase_stays hstay
  have hready : (((c.startCycle l).enterPhase l).netOf l).phase = .coldstart ∧ (((c.startCycle l).enterPhase l).netOf l).coldFrames = 0 :=
    ⟨(congrArg PlaneCounts.phase henter :).trans hphase', (congrArg PlaneCounts.coldFrames henter :).trans hfirst'⟩
  obtain ⟨-, -, hsync⟩ := sendSync_work ((c.startCycle l).enterPhase l) l
  rw [if_pos ⟨hready.1, by rw [hready.2]; decide⟩, henter, hready.2, hcounts] at hsync
  have hall := hstands.trans hsync
  exact ⟨hwork, (congrArg PlaneCounts.phase hall :).trans hphase, (congrArg PlaneCounts.counter hall :), (congrArg PlaneCounts.matrix hall :),
    (congrArg PlaneCounts.coldFrames hall :), hnt.trans hstart⟩

/-- An integrated lane moves on its counts, and enters SERVICE at its matrix-cycle boundary (R307, R319). -/
theorem basicCycleStart_counts (hphase : (c.netOf l).phase = .integrate ∨ (c.netOf l).phase = .service) (hcounter : (c.netOf l).counter < 64) :
    PlaneWork l c (basicCycleStart l c) ∧
    ((basicCycleStart l c).netOf l).phase =
      (if (c.netOf l).phase = .integrate ∧ (c.netOf l).counter = 63 ∧ 7 ≤ (c.netOf l).integrated then .service else (c.netOf l).phase) ∧
    ((basicCycleStart l c).netOf l).counter = ((c.netOf l).counter + 1) % 64 ∧
    ((basicCycleStart l c).netOf l).matrix = (if (c.netOf l).counter = 63 then ((c.netOf l).matrix + 1) % 2 ^ 32 else (c.netOf l).matrix) := by
  have hne (ph : NetPhase) (hi : ph ≠ .integrate) (hs : ph ≠ .service) : (c.netOf l).phase ≠ ph := fun h =>
    hphase.elim (fun h' => hi (h.symm.trans h')) fun h' => hs (h.symm.trans h')
  obtain ⟨hwork, -, hstands⟩ := basicCycleStart_work (hne _ (by decide) (by decide)) (hne _ (by decide) (by decide)) hfenced hleave
  obtain ⟨hfirst, -⟩ := cycleNt_running (c := c) (l := l) (hne _ (by decide) (by decide))
  obtain ⟨hcount, hint⟩ := count_integrated hphase
  obtain ⟨-, -, hint', hcounts⟩ := startCycle_work c l
  rw [hcount, hfirst, if_neg Bool.false_ne_true, if_neg Bool.false_ne_true] at hcounts
  have hphase' : ((c.startCycle l).netOf l).phase = (c.netOf l).phase := (congrArg PlaneCounts.phase hcounts :)
  have hcounter' : ((c.startCycle l).netOf l).counter = ((c.netOf l).counter + 1) % 64 :=
    (congrArg PlaneCounts.counter hcounts :).trans (congrArg PlaneCounts.counter hcount :)
  have henters : ((c.startCycle l).netOf l).enters = decide ((c.netOf l).phase = .integrate ∧ (c.netOf l).counter = 63 ∧ 7 ≤ (c.netOf l).integrated) := by
    unfold Ocgal.enters
    rw [hphase', hcounter', hint', hint]
    refine decide_eq_decide.2 ⟨fun h => ?_, fun h => ?_⟩
    · obtain ⟨h0, h | h⟩ := h
      · exact absurd h.1 (hne _ (by decide) (by decide))
      · have h8 := h.2
        rw [if_pos h.1] at h8
        exact ⟨h.1, by omega, by omega⟩
    · refine ⟨by omega, .inr ⟨h.1, ?_⟩⟩
      rw [if_pos h.1]
      omega
  obtain ⟨-, -, henter⟩ := enterPhase_work (c.startCycle l) l
  rw [henters, hcounts] at henter
  have hnotCold : (((c.startCycle l).enterPhase l).netOf l).planeCounts.phase ≠ .coldstart := by
    rw [henter]
    split
    · exact fun h => NetPhase.noConfusion h
    · exact hne .coldstart (by decide) (by decide)
  have hall := (hstands.trans (sendSync_stands hnotCold)).trans henter
  refine ⟨hwork, (congrArg PlaneCounts.phase hall :).trans ?_, (congrArg PlaneCounts.counter hall :).trans ?_, (congrArg PlaneCounts.matrix hall :).trans ?_⟩
  · by_cases h : (c.netOf l).phase = .integrate ∧ (c.netOf l).counter = 63 ∧ 7 ≤ (c.netOf l).integrated
    · rw [if_pos (decide_eq_true h), if_pos h]
    · rw [if_neg (fun hd => h (of_decide_eq_true hd)), if_neg h]
      rfl
  · split <;> exact (congrArg PlaneCounts.counter hcount :)
  · split <;> exact (congrArg PlaneCounts.matrix hcount :)

end

end Sys2Proof.Machine

namespace Sys2Proof.Machine
open Sys2Proof


theorem netPhase_net (c : Chip) (l : LaneId) (ph : NetPhase) : ((c.netPhase l ph).netOf l).phase = ph ∧
    ((c.netPhase l ph).netOf l).lineDelays = none ∧ ((c.netPhase l ph).netOf l).isRef = false ∧ ((c.netPhase l ph).netOf l).coldFrames = 0 := by
  rw [Chip.netPhase, netOf_modClock, netOf_modNet]
  exact ⟨rfl, rfl, rfl, rfl⟩

theorem PlaneWork.frame {s : State} {l : LaneId} {d : Chip} (h : PlaneWork l s.chip d) : d.pintle = s.chip.pintle ∧ d.bridges = s.chip.bridges ∧
    ∀ j, j ≠ l → d.lanes.get j = s.chip.lanes.get j := ⟨h.pintle, h.bridges, h.others⟩

/-- The mover is frozen and the violation noted (R77). -/
def Chip.freezeMover (c : Chip) (l : LaneId) : Chip := c.modNet l (fun n => { n with moverFrozen := true, moverViol := some c.dev.matrix })

/-- A port fenced by its violation (R77). -/
theorem portFence_net (c : Chip) (l : LaneId) (p code : Nat) : PlaneWork l c (c.portFence l p code) ∧
    (c.portFence l p code).netOf l = { c.netOf l with ports := modNth (c.netOf l).ports p (fun x => { x with fenced := true }) } := by
  unfold Chip.portFence
  split
  case isTrue h =>
    refine ⟨.refl l c, ?_⟩
    have hsame : modNth (c.netOf l).ports p (fun x => { x with fenced := true }) = (c.netOf l).ports :=
      (modNth_congr _ p _ (fun x => x) {} (by
        have hport : (nth (c.netOf l).ports p {}).fenced = true := h
        generalize nth (c.netOf l).ports p {} = x at hport
        cases x
        dsimp only at hport
        rw [hport])).trans (modNth_id ..)
    rw [hsame]
  case isFalse h =>
    have hfault : (c.portFault l p code).netOf l = c.netOf l := localFault_lane c l l code 0x0B p l.idx Lane.net fun _ _ => rfl
    have hmarked := planeWork_modLane ((c.portFault l p code).modPort l p (fun x => { x with fenced := true })) l (fun n => { n with
      fencedNow := if n.fencedNow.contains (0x0B, p) then n.fencedNow else n.fencedNow ++ [(0x0B, p)] })
    refine ⟨((planeWork_localFault ..).trans (planeWork_modLane ..)).trans hmarked, ?_⟩
    refine (modLane_keeps ((c.portFault l p code).modPort l p (fun x => { x with fenced := true })) l l (fun n => { n with
      fencedNow := if n.fencedNow.contains (0x0B, p) then n.fencedNow else n.fencedNow ++ [(0x0B, p)] }) Lane.net fun _ => rfl).trans ?_
    refine Eq.trans ?_ (congrArg (fun n : Ocgal => { n with ports := modNth n.ports p (fun x => { x with fenced := true }) }) hfault)
    rw [Chip.modPort, modLane_lanes, tri_get_set_same]
    rfl

theorem frameMoverViolation_works (c : Chip) (l : LaneId) (k : Fin 4) : PlaneWork l c (frameMoverViolation l k c) ∧
    ((frameMoverViolation l k c).netOf l).moverFrozen = true ∧ ((frameMoverViolation l k c).netOf l).moverViol = some c.dev.matrix ∧
    ((∃ m, (c.netOf l).moverViol = some m ∧ c.cyclesSince m < 64) →
      ((frameMoverViolation l k c).netOf l).ports = modNth (c.netOf l).ports k.val (fun p => { p with fenced := true })) ∧
    (¬ (∃ m, (c.netOf l).moverViol = some m ∧ c.cyclesSince m < 64) → ((frameMoverViolation l k c).netOf l).ports = (c.netOf l).ports) := by
  have hagain : (match (c.netOf l).moverViol with | some m => decide (c.cyclesSince m < 64) | none => false) =
      decide (∃ m, (c.netOf l).moverViol = some m ∧ c.cyclesSince m < 64) := by
    cases (c.netOf l).moverViol <;> simp
  have hgo : frameMoverViolation l k c = if (∃ m, (c.netOf l).moverViol = some m ∧ c.cyclesSince m < 64) then (c.freezeMover l).portFence l k.val 0x200D
      else (c.freezeMover l).portFault l k.val 0x200C := by
    refine Eq.trans (b := if (match (c.netOf l).moverViol with | some m => decide (c.cyclesSince m < 64) | none => false) = true then
      (c.freezeMover l).portFence l k.val 0x200D else (c.freezeMover l).portFault l k.val 0x200C) rfl ?_
    rw [hagain]
    exact if_congr decide_eq_true_iff rfl rfl
  have hfreeze : PlaneWork l c (c.freezeMover l) := planeWork_modNet ..
  have hnet : (c.freezeMover l).netOf l = { c.netOf l with moverFrozen := true, moverViol := some c.dev.matrix } := netOf_modNet ..
  rw [hgo]
  by_cases h : ∃ m, (c.netOf l).moverViol = some m ∧ c.cyclesSince m < 64
  · obtain ⟨hwork, hfence⟩ := portFence_net (c.freezeMover l) l k.val 0x200D
    rw [if_pos h, hfence, hnet]
    exact ⟨hfreeze.trans hwork, rfl, rfl, fun _ => rfl, fun hn => absurd h hn⟩
  · have hfault : ((c.freezeMover l).portFault l k.val 0x200C).netOf l = (c.freezeMover l).netOf l :=
      localFault_lane (c.freezeMover l) l l 0x200C 0x0B k.val l.idx Lane.net fun _ _ => rfl
    rw [if_neg h, hfault, hnet]
    exact ⟨hfreeze.trans (planeWork_localFault ..), rfl, rfl, fun hp => absurd hp h, fun _ => rfl⟩

/-- What the entry into LISTEN sets beside the phase (R317). -/
def Ocgal.starting (n : Ocgal) : Ocgal :=
  { n with requested := true, waited := 0, forwarded := 0, fwd := [(0, 0), (0, 0), (0, 0), (0, 0)], chainA := [], chainB := [] }

theorem startInstant_starts {s : State} {l : LaneId} (h : startInstant l s.chip = (s.chip.netPhase l .listen).modNet l Ocgal.starting) :
    ∃ t, exec (.startInstant l) s = .next t ∧ (t.mem = s.mem ∧ t.chip.pintle = s.chip.pintle ∧ t.chip.bridges = s.chip.bridges ∧
      ∀ j, j ≠ l → t.chip.lanes.get j = s.chip.lanes.get j) ∧ t.chip.dev = s.chip.dev ∧ (t.chip.netOf l).phase = .listen ∧
      (t.chip.netOf l).waited = 0 ∧ (t.chip.netOf l).forwarded = 0 ∧ (t.chip.netOf l).lineDelays = none ∧ (t.chip.netOf l).isRef = false := by
  have hexec : exec (.startInstant l) s = .next _ :=
    next_congr (onChip_congr (f := startInstant l) (g := fun c => (c.netPhase l .listen).modNet l Ocgal.starting) h)
  obtain ⟨hphase, hdelays, href, -⟩ := netPhase_net s.chip l .listen
  have hwork := (planeWork_netPhase s.chip l .listen).trans (planeWork_modNet _ l Ocgal.starting)
  have hnet := netOf_modNet (s.chip.netPhase l .listen) l Ocgal.starting
  exact ⟨_, hexec, ⟨rfl, hwork.frame⟩, rfl, (congrArg Ocgal.phase hnet).trans hphase, (congrArg Ocgal.waited hnet), (congrArg Ocgal.forwarded hnet),
    (congrArg Ocgal.lineDelays hnet).trans hdelays, (congrArg Ocgal.isRef hnet).trans href⟩

theorem listenTimeout_coldstarts {s : State} {l : LaneId} (hruns : s.chip.runs l = true) (h : listenTimeout l s.chip =
      (s.chip.netPhase l .coldstart).modNet l (fun n => { n with counter := 0, matrix := 0 })) :
    ∃ t, exec (.listenTimeout l) s = .next t ∧ (t.mem = s.mem ∧ t.chip.pintle = s.chip.pintle ∧ t.chip.bridges = s.chip.bridges ∧
      ∀ j, j ≠ l → t.chip.lanes.get j = s.chip.lanes.get j) ∧ t.chip.dev = s.chip.dev ∧ (t.chip.netOf l).phase = .coldstart ∧
      (t.chip.netOf l).coldFrames = 0 ∧ (t.chip.netOf l).counter = 0 ∧ (t.chip.netOf l).matrix = 0 := by
  have hexec : exec (.listenTimeout l) s = .next _ := next_congr ((onLane_of_runs hruns (listenTimeout l)).trans
    (onChip_congr (f := listenTimeout l) (g := fun c => (c.netPhase l .coldstart).modNet l (fun n => { n with counter := 0, matrix := 0 })) h))
  obtain ⟨hphase, -, -, hcold⟩ := netPhase_net s.chip l .coldstart
  have hwork := (planeWork_netPhase s.chip l .coldstart).trans (planeWork_modNet _ l (fun n => { n with counter := 0, matrix := 0 }))
  have hnet := netOf_modNet (s.chip.netPhase l .coldstart) l (fun n => { n with counter := 0, matrix := 0 })
  exact ⟨_, hexec, ⟨rfl, hwork.frame⟩, rfl, (congrArg Ocgal.phase hnet).trans hphase, (congrArg Ocgal.coldFrames hnet).trans hcold,
    (congrArg Ocgal.counter hnet), (congrArg Ocgal.matrix hnet)⟩

theorem clearLive_lanes (c : Chip) : c.clearLive.lanes = c.lanes := by
  unfold Chip.clearLive
  split <;> rfl

theorem recoveryEntry_recovers {s : State} {l : LaneId} (hruns : s.chip.runs l = true) (h : recoveryEntry l s.chip =
      (((s.chip.netPhase l .recovery).modNet l (fun n => { n with waited := 0 })).netFault l 0x2007).clearLive) :
    ∃ t, exec (.recoveryEntry l) s = .next t ∧ (t.mem = s.mem ∧ t.chip.pintle = s.chip.pintle ∧ t.chip.bridges = s.chip.bridges ∧
      ∀ j, j ≠ l → t.chip.lanes.get j = s.chip.lanes.get j) ∧ (t.chip.netOf l).phase = .recovery ∧ (t.chip.netOf l).waited = 0 ∧
      t.chip.dev.cfg = s.chip.dev.cfg := by
  have hexec : exec (.recoveryEntry l) s = .next _ := next_congr ((onLane_of_runs hruns (recoveryEntry l)).trans
    (onChip_congr (f := recoveryEntry l) (g := fun c => (((c.netPhase l .recovery).modNet l (fun n => { n with waited := 0 })).netFault l 0x2007).clearLive) h))
  obtain ⟨hphase, -⟩ := netPhase_net s.chip l .recovery
  let d := (s.chip.netPhase l .recovery).modNet l (fun n => { n with waited := 0 })
  have hwork := (((planeWork_netPhase s.chip l .recovery).trans (planeWork_modNet _ l (fun n => { n with waited := 0 }))).trans
    (planeWork_localFault d l 0x2007 0x0C 0 l.idx)).trans (planeWork_clearLive _ l)
  have hnet : (d.netFault l 0x2007).clearLive.netOf l = { (s.chip.netPhase l .recovery).netOf l with waited := 0 } := by
    rw [Chip.netOf, lane_eq, clearLive_lanes]
    exact (localFault_lane d l l 0x2007 0x0C 0 l.idx Lane.net fun _ _ => rfl).trans (netOf_modNet ..)
  exact ⟨_, hexec, ⟨rfl, hwork.frame⟩, (congrArg Ocgal.phase hnet).trans hphase, (congrArg Ocgal.waited hnet), hwork.cfg⟩

theorem leaveNow_leaves (c : Chip) (l : LaneId) : PlaneWork l c (c.leaveNow l) ∧
    ((c.leaveNow l).netOf l).phase = (if c.dev.standdown = some l then .test else .down) ∧ ((c.leaveNow l).netOf l).lineDelays = none := by
  obtain ⟨hphase, hdelays, -⟩ := netPhase_net c l (if c.dev.standdown = some l then .test else .down)
  have hlanes : (c.leaveNow l).lanes = (c.netPhase l (if c.dev.standdown = some l then .test else .down)).lanes := clearLive_lanes _
  refine ⟨(planeWork_netPhase ..).trans (planeWork_clearLive ..), ?_, ?_⟩
  · rw [Chip.netOf, lane_eq, hlanes]
    exact hphase
  · rw [Chip.netOf, lane_eq, hlanes]
    exact hdelays

theorem spareReleaseExpiry_mem (c : Chip) (slot : Nat) (x : SpareOwner) : x ∈ (spareReleaseExpiry slot c).dev.spares ↔ x ∈ c.dev.spares ∧
    (x.slot ≠ slot ∨ x.quiet < c.parN Par.netSpareRelease ∨ (x.owner = c.parN Par.netNodeId ∧ ∃ j : LaneId, c.inService j = true)) := by
  have hany : LaneId.all.any c.inService = true ↔ ∃ j : LaneId, c.inService j = true :=
    List.any_eq_true.trans ⟨fun ⟨j, _, hj⟩ => ⟨j, hj⟩, fun ⟨j, hj⟩ => ⟨j, mem_allLanes j, hj⟩⟩
  refine List.mem_filter.trans (and_congr_right fun _ => ?_)
  rw [Bool.or_eq_true, Bool.or_eq_true, Bool.and_eq_true, decide_eq_true_iff, decide_eq_true_iff, decide_eq_true_iff, hany, or_assoc]

/-- Settles O29: each phase step is the model's function under its condition; the frames that a cycle plans leave what the lane stands at. -/
theorem planePhases : Obligations.PlanePhases := by
  unfold Obligations.PlanePhases
  intro s l
  refine ⟨fun hphase hwait hcore hregion hauth hstate hfenced hsched htrained hasked => ?_, fun hruns hphase hrank hwaited hheard => ?_,
    fun hruns hphase hcand hsilent => ?_, fun hruns hphase href hrank hmissed => ?_, fun k hruns => ?_, fun hoff => ?_,
    fun hfenced hleave => ⟨fun hphase => ?_, fun hphase hfirst hpeer => ?_, fun hphase hcounter => ?_⟩,
    fun hphase hfenced hleaving hleft => ?_, fun slot => ?_⟩
  · exact startInstant_starts (if_pos ⟨hphase, hwait, hcore, hregion, hauth, hstate, hfenced, hsched, htrained, hasked⟩)
  · exact listenTimeout_coldstarts hruns (if_pos ⟨hphase, hrank, hwaited, hheard⟩)
  · exact recoveryEntry_recovers hruns (if_pos ⟨hphase, hcand, hsilent⟩)
  · exact next_congr ((onLane_of_runs hruns (handoverCandidate l)).trans (onChip_congr (f := handoverCandidate l)
      (if_pos ⟨hphase, href, hrank, hmissed⟩)))
  · have hexec : exec (.frameMoverViolation l k) s = .next _ := next_congr (onLane_of_runs hruns (frameMoverViolation l k))
    obtain ⟨hwork, hfrozen, hviol, hagain, honce⟩ := frameMoverViolation_works s.chip l k
    exact ⟨_, hexec, ⟨rfl, hwork.frame⟩, hfrozen, hviol, hagain, honce⟩
  · exact next_congr (onChip_congr (f := basicCycleStart l) (if_pos hoff))
  · obtain ⟨hwork, hphase', hwaited, hstart⟩ := basicCycleStart_listens hfenced hleave hphase
    exact ⟨_, rfl, ⟨rfl, hwork.frame⟩, hwork.cfg, hphase', hwaited, hstart⟩
  · obtain ⟨hwork, hphase', hcounter, hmatrix, hcold, hnt⟩ := basicCycleStart_coldstarts hfenced hleave hphase hfirst hpeer
    exact ⟨_, rfl, ⟨rfl, hwork.frame⟩, hphase', hcounter, hmatrix, hcold, hnt⟩
  · obtain ⟨hwork, hphase', hcounter', hmatrix⟩ := basicCycleStart_counts hfenced hleave hphase hcounter
    exact ⟨_, rfl, ⟨rfl, hwork.frame⟩, hwork.cfg, hphase', hcounter', hmatrix⟩
  · have hnot : ¬ ((s.chip.netOf l).phase = .down ∨ (s.chip.netOf l).phase = .test ∨ (s.chip.lane l).boot.fenced = true) := by
      rintro (h | h | h)
      · exact NetPhase.noConfusion (hphase.symm.trans h)
      · exact NetPhase.noConfusion (hphase.symm.trans h)
      · exact Bool.false_ne_true (hfenced.symm.trans h)
    have hleave : ((s.chip.netOf l).leaving && (s.chip.netOf l).left) = true := Bool.and_eq_true_iff.2 ⟨hleaving, hleft⟩
    have hexec : exec (.basicCycleStart l) s = .next _ := next_congr (onChip_congr (f := basicCycleStart l) (g := fun c => c.leaveNow l)
      ((if_neg hnot).trans (if_pos hleave)))
    obtain ⟨hwork, hphase', hdelays⟩ := leaveNow_leaves s.chip l
    exact ⟨_, hexec, ⟨rfl, hwork.frame⟩, hphase', hdelays⟩
  · exact ⟨_, rfl, List.filter_sublist, spareReleaseExpiry_mem s.chip slot, rfl⟩

end Sys2Proof.Machine

namespace Sys2Proof.Machine
open Sys2Proof


/-! ### Square roots and edges -/

theorem sqrtBits_mul_self_le (n x r : Nat) (h : r * r ≤ x) : sqrtBits n x r * sqrtBits n x r ≤ x := by
  induction n generalizing r with
  | zero => exact h
  | succ n ih =>
    refine ih _ ?_
    by_cases ht : (r + 2 ^ n) * (r + 2 ^ n) ≤ x
    · rw [if_pos ht]; exact ht
    · rw [if_neg ht]; exact h

theorem natSqrt_mul_self_le (x : Nat) : natSqrt x * natSqrt x ≤ x := sqrtBits_mul_self_le 64 x 0 (Nat.zero_le x)

/-- A vector whose first part keeps within `m` and whose second keeps within the room that is left stays within `m` (R203). -/
theorem sq_add_sq_le_of_room {m a b : Int} (ha : -m ≤ a) (ha' : a ≤ m)
    (hb : -((natSqrt (m * m - a * a).toNat : Nat) : Int) ≤ b) (hb' : b ≤ ((natSqrt (m * m - a * a).toNat : Nat) : Int)) :
    a * a + b * b ≤ m * m := by
  have hroom : 0 ≤ m * m - a * a := by nlinarith
  have hroot : ((natSqrt (m * m - a * a).toNat : Nat) : Int) * (natSqrt (m * m - a * a).toNat : Nat) ≤ m * m - a * a := by
    have h := natSqrt_mul_self_le (m * m - a * a).toNat
    have h' : ((natSqrt (m * m - a * a).toNat * natSqrt (m * m - a * a).toNat : Nat) : Int) ≤ ((m * m - a * a).toNat : Nat) := Int.ofNat_le.mpr h
    rwa [Int.toNat_of_nonneg hroom, Int.natCast_mul] at h'
  generalize ((natSqrt (m * m - a * a).toNat : Nat) : Int) = room at *
  nlinarith

theorem edgesOf_length (va vb vbr : Int) (dead pwm : Nat) (is : List Int) : (edgesOf va vb vbr dead pwm is).length = 3 := List.length_mapIdx

theorem halves_centred {t high : Nat} (h : high ≤ t) :
    (t - high) / 2 ≤ (t + high) / 2 ∧ (t - high) / 2 + (t + high) / 2 ≤ t ∧ t ≤ (t - high) / 2 + (t + high) / 2 + 1 := by omega

/-- Every pulse is centred in its PWM period, to the step (R204). -/
theorem edgesOf_centred {va vb vbr : Int} {dead pwm : Nat} {is : List Int} {x : Nat × Nat} (hx : x ∈ edgesOf va vb vbr dead pwm is) :
    x.1 ≤ x.2 ∧ x.1 + x.2 ≤ pwmSteps pwm ∧ pwmSteps pwm ≤ x.1 + x.2 + 1 := by
  obtain ⟨j, hj, rfl⟩ := List.mem_mapIdx.mp hx
  refine halves_centred (Int.toNat_le.mpr (clip_le (Int.natCast_nonneg _) _))

/-! ### The driven set (R202 to R204) -/

theorem vMax_nonneg (vlim vbr : Int) : 0 ≤ vMax vlim vbr := Int.natCast_nonneg _

theorem drive_within (c : Chip) (l : LaneId) (k : Nat) (x : PwmIn) (e : Engine) :
    let vm := vMax (c.par Par.cmtVlim k) (c.engineVbr l k)
    let y := c.drive l k x e
    (-vm ≤ y.vd ∧ y.vd ≤ vm) ∧ y.vd * y.vd + y.vq * y.vq ≤ vm * vm := by
  intro vm y
  have hvm : -vm ≤ vm := by have : 0 ≤ vm := vMax_nonneg _ _; omega
  have hlo : -vm ≤ y.vd := le_clip hvm _
  have hhi : y.vd ≤ vm := clip_le hvm _
  have hroom : -((natSqrt (vm * vm - y.vd * y.vd).toNat : Nat) : Int) ≤ ((natSqrt (vm * vm - y.vd * y.vd).toNat : Nat) : Int) := by omega
  have hqlo : -((natSqrt (vm * vm - y.vd * y.vd).toNat : Nat) : Int) ≤ y.vq := le_clip hroom _
  have hqhi : y.vq ≤ ((natSqrt (vm * vm - y.vd * y.vd).toNat : Nat) : Int) := clip_le hroom _
  exact ⟨⟨hlo, hhi⟩, sq_add_sq_le_of_room hlo hhi hqlo hqhi⟩

theorem drive_edges (c : Chip) (l : LaneId) (k : Nat) (x : PwmIn) (e : Engine) :
    (c.drive l k x e).edges.length = 3 ∧ ∀ p ∈ (c.drive l k x e).edges, p.1 ≤ p.2 ∧ p.1 + p.2 ≤ pwmSteps (c.parN Par.cmtPwmPeriod k) ∧
      pwmSteps (c.parN Par.cmtPwmPeriod k) ≤ p.1 + p.2 + 1 :=
  ⟨edgesOf_length .., fun _ hp => edgesOf_centred hp⟩

/-- An engine with new voltages, integrators and edges. -/
def Engine.driven (e : Engine) (vd vq intD intQ : Int) (lim : Bool) (placed : Int × Int) (edges : List (Nat × Nat)) (bad : Nat) : Engine :=
  { e with vd := vd, vq := vq, vlim := lim, intD := intD, intQ := intQ, placed := placed, applied := true, edges := edges, resBad := bad }

/-- The current loops change nothing but what `Engine.driven` names. -/
theorem drive_eq_driven (c : Chip) (l : LaneId) (k : Nat) (x : PwmIn) (e : Engine) :
    ∃ vd vq intD intQ lim placed edges bad, c.drive l k x e = e.driven vd vq intD intQ lim placed edges bad :=
  ⟨_, _, _, _, _, _, _, _, rfl⟩

theorem drive_measured (c : Chip) (l : LaneId) (k : Nat) (x : PwmIn) (e : Engine) :
    (c.drive l k x e).theta = e.theta ∧ (c.drive l k x e).endIq = e.endIq ∧ (c.drive l k x e).endId = e.endId ∧
      (c.drive l k x e).id = e.id ∧ (c.drive l k x e).iq = e.iq := by
  obtain ⟨vd, vq, intD, intQ, lim, placed, edges, bad, h⟩ := drive_eq_driven c l k x e
  rw [h]
  exact ⟨rfl, rfl, rfl, rfl, rfl⟩

/-! ### What a PWM period leaves of a command -/

/-- The command in force of an engine, with the one that waits. -/
def Engine.command (e : Engine) : Int × Int × Bool × Int × Option EngineCmd := (e.cmdIq, e.cmdId, e.cmdZero, e.cmdOmega, e.next)

theorem measure_command (c : Chip) (l : LaneId) (k : Nat) (x : PwmIn) : (c.measure l k x).command = (nth (c.lane l).engines k {}).command := rfl
theorem measure_gates (c : Chip) (l : LaneId) (k : Nat) (x : PwmIn) : (c.measure l k x).gates = (nth (c.lane l).engines k {}).gates := rfl
theorem drive_command (c : Chip) (l : LaneId) (k : Nat) (x : PwmIn) (e : Engine) : (c.drive l k x e).command = e.command := by
  obtain ⟨vd, vq, intD, intQ, lim, placed, edges, bad, h⟩ := drive_eq_driven c l k x e
  rw [h]
  rfl
theorem rest_command (c : Chip) (k : Nat) (x : PwmIn) (e : Engine) : (c.rest k x e).command = e.command := rfl

/-- The engine at the end of its PWM period, before the checks (R202 to R204, R212). -/
def Chip.pwmPeriod (c : Chip) (l : LaneId) (k : Nat) (x : PwmIn) : Engine :=
  if (c.measure l k x).gates = .switching then c.drive l k x (c.measure l k x) else c.rest k x (c.measure l k x)

theorem pwmPeriod_command (c : Chip) (l : LaneId) (k : Nat) (x : PwmIn) :
    (c.pwmPeriod l k x).command = (nth (c.lane l).engines k {}).command := by
  unfold Chip.pwmPeriod
  split
  · rw [drive_command, measure_command]
  · rw [rest_command, measure_command]

/-- An engine less what the verdict on its period may change: its gates and its angle source, and the command that waits, which only a
halt drops (R210, R216). -/
def Engine.settled (e : Engine) : Engine :=
  { e with gates := .off, cmdOn := false, next := none, cmdSrc := 0, cmdRho := 0, obsBad := 0, lost := false }

/-- A change of an engine that a verdict on its period can make. -/
def Judged (g : Engine → Engine) : Prop := ∀ e, (g e).settled = e.settled ∧ (e.next = none → (g e).next = none)

theorem judged_id : Judged (fun e => e) := fun _ => ⟨rfl, id⟩

theorem Judged.comp {f g : Engine → Engine} (hf : Judged f) (hg : Judged g) : Judged (fun e => g (f e)) := fun e =>
  ⟨(hg (f e)).1.trans (hf e).1, fun h => (hg (f e)).2 ((hf e).2 h)⟩

theorem judged_halt (g : GateState) : Judged (fun e => e.halt g) := fun _ => ⟨rfl, fun _ => rfl⟩

theorem Judged.field {g : Engine → Engine} (h : Judged g) (e : Engine) {α : Type} (p : Engine → α) (hp : ∀ e : Engine, p e.settled = p e) : p (g e) = p e := by
  rw [← hp, (h e).1, hp]

/-! ### Runs of one engine -/

/-- The second chip is the first after its lane's engine `k` took the change `g`: no other engine, no other lane, no agreed part
and no part of the Pintle die differs. -/
structure EngineRun (l : LaneId) (k : Nat) (g : Engine → Engine) (c d : Chip) : Prop where
  bridges : d.bridges = c.bridges
  pintle : d.pintle = c.pintle
  dev : d.dev.plain = c.dev.plain
  others : ElseSame l c d
  engines : (d.lanes.get l).engines = modNth (c.lanes.get l).engines k g
  report : (d.lanes.get l).report = (c.lanes.get l).report
  bits : (d.lanes.get l).reportBits = (c.lanes.get l).reportBits

section
variable {l : LaneId} {k : Nat} {c d : Chip} {g : Engine → Engine}

theorem engineRun_refl (l : LaneId) (k : Nat) (c : Chip) : EngineRun l k (fun e => e) c c :=
  ⟨rfl, rfl, rfl, ElseSame.refl l c, (modNth_id _ k).symm, rfl, rfl⟩

theorem EngineRun.trans {e : Chip} {g' : Engine → Engine} (h : EngineRun l k g c d) (h' : EngineRun l k g' d e) :
    EngineRun l k (fun x => g' (g x)) c e where
  bridges := h'.bridges.trans h.bridges
  pintle := h'.pintle.trans h.pintle
  dev := h'.dev.trans h.dev
  others := h.others.trans h'.others
  engines := by rw [h'.engines, h.engines, modNth_modNth]
  report := h'.report.trans h.report
  bits := h'.bits.trans h.bits

theorem engineRun_modLane (c : Chip) (f : Lane → Lane) (hf : ∀ n, (f n).engines = modNth n.engines k g)
    (hr : ∀ n, (f n).report = n.report) (hb : ∀ n, (f n).reportBits = n.reportBits) : EngineRun l k g c (c.modLane l f) := by
  have hl : (c.modLane l f).lanes.get l = f (c.lanes.get l) := by rw [modLane_lanes, tri_get_set_same]
  exact ⟨rfl, rfl, rfl, elseSame_modLane c l f, hl ▸ hf _, hl ▸ hr _, hl ▸ hb _⟩

theorem engineRun_modEngine (c : Chip) (l : LaneId) (k : Nat) (g : Engine → Engine) : EngineRun l k g c (c.modEngine l k g) :=
  engineRun_modLane c _ (fun _ => rfl) (fun _ => rfl) (fun _ => rfl)

theorem engineRun_localFault (c : Chip) (l : LaneId) (k code t i lane : Nat) : EngineRun l k (fun e => e) c (c.localFault l code t i lane) where
  bridges := localFault_bridges ..
  pintle := localFault_pintle ..
  dev := congrArg Chip.dev (localFault_plain c l code t i lane)
  others := elseSame_localFault c l code t i lane
  engines := (localFault_lane c l l code t i lane Lane.engines fun _ _ => rfl).trans (modNth_id _ k).symm
  report := localFault_lane c l l code t i lane Lane.report fun _ _ => rfl
  bits := localFault_lane c l l code t i lane Lane.reportBits fun _ _ => rfl

/-- Some change that a verdict can make is what happened to the engine. -/
def JudgedRun (l : LaneId) (k : Nat) (c d : Chip) : Prop := ∃ g, Judged g ∧ EngineRun l k g c d

theorem JudgedRun.trans {e : Chip} (h : JudgedRun l k c d) (h' : JudgedRun l k d e) : JudgedRun l k c e := by
  obtain ⟨f, hf, hcd⟩ := h
  obtain ⟨g, hg, hde⟩ := h'
  exact ⟨_, hf.comp hg, hcd.trans hde⟩

theorem judgedRun_refl (l : LaneId) (k : Nat) (c : Chip) : JudgedRun l k c c := ⟨_, judged_id, engineRun_refl l k c⟩

theorem judgedRun_localFault (c : Chip) (l : LaneId) (k code t i lane : Nat) : JudgedRun l k c (c.localFault l code t i lane) :=
  ⟨_, judged_id, engineRun_localFault c l k code t i lane⟩

theorem judgedRun_ite (p : Prop) [Decidable p] {a b : Chip} (ha : JudgedRun l k c a) (hb : JudgedRun l k c b) :
    JudgedRun l k c (if p then a else b) := by
  split
  · exact ha
  · exact hb

theorem judgedRun_modEngine (c : Chip) (l : LaneId) (k : Nat) (g : Engine → Engine) (hg : Judged g) : JudgedRun l k c (c.modEngine l k g) :=
  ⟨g, hg, engineRun_modEngine c l k g⟩

theorem engineFence_judged (c : Chip) (l : LaneId) (k code : Nat) : JudgedRun l k c (c.engineFence l k code) := by
  unfold Chip.engineFence
  dsimp only
  refine judgedRun_ite _ (judgedRun_refl l k c) ((judgedRun_localFault c l k code (cmtUnit k l).1 (cmtUnit k l).2.1 (cmtUnit k l).2.2).trans ?_)
  exact ⟨_, judged_halt .off, engineRun_modLane _ _ (fun _ => rfl) (fun _ => rfl) (fun _ => rfl)⟩

theorem engineLoss_judged (c : Chip) (l : LaneId) (k : Nat) : JudgedRun l k c (c.engineLoss l k) := by
  unfold Chip.engineLoss
  dsimp only
  refine (judgedRun_localFault c l k 0x1007 (cmtUnit k l).1 (cmtUnit k l).2.1 (cmtUnit k l).2.2).trans ?_
  split
  · exact judgedRun_modEngine _ l k _ (fun _ => ⟨rfl, fun h => h⟩)
  · exact judgedRun_modEngine _ l k _ (fun _ => ⟨rfl, fun h => h⟩)

theorem engineVerdict_judged (c : Chip) (l : LaneId) (k : Nat) : JudgedRun l k c (c.engineVerdict l k) := by
  unfold Chip.engineVerdict
  dsimp only
  generalize nth (c.lane l).engines k {} = e
  have hsum := judgedRun_ite (0 < e.sumBad) (judgedRun_localFault c l k 0x1002 (cmtUnit k l).1 (cmtUnit k l).2.1 (cmtUnit k l).2.2) (judgedRun_refl l k c)
  refine hsum.trans ?_
  generalize (if 0 < e.sumBad then _ else _) = d
  have hres := judgedRun_ite (0 < e.resBad) (judgedRun_localFault d l k 0x1003 (cmtUnit k l).1 (cmtUnit k l).2.1 (cmtUnit k l).2.2) (judgedRun_refl l k d)
  refine hres.trans ?_
  generalize (if 0 < e.resBad then _ else _) = d
  exact judgedRun_ite _ (engineFence_judged d l k _) (judgedRun_ite _ (engineLoss_judged d l k) (judgedRun_refl l k d))

end

end Sys2Proof.Machine

namespace Sys2Proof.Machine
open Sys2Proof


/-! ### A lane's own engine through one PWM period -/

/-- The engine of a lane once it has taken a command (R122, R212). -/
def Chip.obeyed (c : Chip) (l : LaneId) (k : Nat) (x : EngineCmd) : Engine :=
  (nth (c.lane l).engines k {}).obey x (1000000 * c.parN Par.cmtCatchWindow k / max 1 (c.parN Par.cmtPwmPeriod k))
    (c.parN Par.cmtAngleSrc k) (c.parN Par.cmtAngleSrc2 k)

theorem obey_command (e : Engine) (x : EngineCmd) (need src src2 : Nat) : (e.obey x need src src2).command = (x.iq, x.id, x.zero, x.omega, none) := rfl

theorem EngineRun.judged {l : LaneId} {k : Nat} {e : Engine} {c d d' : Chip} (h : EngineRun l k (fun _ => e) c d) (h' : JudgedRun l k d d') :
    ∃ g, Judged g ∧ EngineRun l k (fun _ => g e) c d' := by
  obtain ⟨g, hg, hrun⟩ := h'
  exact ⟨g, hg, h.trans hrun⟩

theorem takeCmd_of_due {c : Chip} {l : LaneId} {k boundary : Nat} {x : EngineCmd} (hx : (nth (c.lane l).engines k {}).next = some x)
    (hdue : x.from_ ≤ boundary) : ∃ g, Judged g ∧ EngineRun l k (fun _ => g (c.obeyed l k x)) c (c.takeCmd l k boundary) := by
  unfold Chip.takeCmd
  dsimp only
  rw [hx]
  dsimp only
  rw [if_neg (Nat.not_lt.mpr hdue)]
  have htaken := engineRun_modEngine c l k (fun _ => c.obeyed l k x)
  exact htaken.judged (judgedRun_ite _ (engineFence_judged _ l k 0x1001) (judgedRun_refl l k _))

theorem takeCmd_of_not_due {c : Chip} {l : LaneId} {k boundary : Nat}
    (h : ∀ x, (nth (c.lane l).engines k {}).next = some x → boundary < x.from_) : c.takeCmd l k boundary = c := by
  unfold Chip.takeCmd
  dsimp only
  split
  · rfl
  · next x hx => exact if_pos (h x hx)

/-- A PWM period ends with the engine that its measurement and its loops give, and the verdict on it. -/
theorem runEngine_eq (c : Chip) (l : LaneId) (k boundary : Nat) (x : PwmIn) :
    c.runEngine l k boundary x =
      ((c.takeCmd l k boundary).modEngine l k (fun _ => (c.takeCmd l k boundary).pwmPeriod l k x)).engineVerdict l k := rfl

theorem afterTake_runs (c : Chip) (l : LaneId) (k : Nat) (x : PwmIn) :
    ∃ g, Judged g ∧ EngineRun l k (fun _ => g (c.pwmPeriod l k x)) c ((c.modEngine l k (fun _ => c.pwmPeriod l k x)).engineVerdict l k) :=
  (engineRun_modEngine c l k _).judged (engineVerdict_judged _ l k)

theorem runEngine_of_not_due {c : Chip} {l : LaneId} {k boundary : Nat} (x : PwmIn)
    (h : ∀ x, (nth (c.lane l).engines k {}).next = some x → boundary < x.from_) :
    ∃ g, Judged g ∧ EngineRun l k (fun _ => g (c.pwmPeriod l k x)) c (c.runEngine l k boundary x) := by
  rw [runEngine_eq, takeCmd_of_not_due h]
  exact afterTake_runs c l k x

/-- A command that is due is the command in force after the period, and none waits any more. -/
theorem runEngine_of_due {c : Chip} {l : LaneId} {k boundary : Nat} {x : EngineCmd} (i : PwmIn)
    (hx : (nth (c.lane l).engines k {}).next = some x) (hdue : x.from_ ≤ boundary) :
    ∃ y : Engine, y.command = (x.iq, x.id, x.zero, x.omega, none) ∧ EngineRun l k (fun _ => y) c (c.runEngine l k boundary i) := by
  obtain ⟨f, hf, htake⟩ := takeCmd_of_due hx hdue
  obtain ⟨g, hg, hrun⟩ := afterTake_runs (c.takeCmd l k boundary) l k i
  have hlen : k < (c.lanes.get l).engines.length := by
    refine Nat.lt_of_not_le fun hle => ?_
    have hnone : (nth (c.lane l).engines k {}).next = none := congrArg Engine.next (List.getD_eq_default _ _ hle)
    exact Option.some_ne_none x (hx.symm.trans hnone)
  have htaken : nth ((c.takeCmd l k boundary).lane l).engines k {} = f (c.obeyed l k x) := by
    refine (congrArg (fun es => nth es k ({} : Engine)) htake.engines).trans (nth_modNth_same _ _ _ _ hlen)
  have hcommand : ((c.takeCmd l k boundary).pwmPeriod l k i).command = (x.iq, x.id, x.zero, x.omega, none) := by
    rw [pwmPeriod_command, htaken]
    have hkeeps := (hf (c.obeyed l k x)).2 rfl
    have hsame := hf.field (c.obeyed l k x) (fun e => (e.cmdIq, e.cmdId, e.cmdZero, e.cmdOmega)) fun _ => rfl
    obtain ⟨hiq, hid, hzero, homega⟩ : _ ∧ _ ∧ _ ∧ _ := by simpa only [Prod.mk.injEq] using hsame
    simp only [Engine.command, hkeeps, hiq, hid, hzero, homega]
    rfl
  refine ⟨g ((c.takeCmd l k boundary).pwmPeriod l k i), ?_, htake.trans hrun⟩
  generalize (c.takeCmd l k boundary).pwmPeriod l k i = e at hcommand
  have hsame := hg.field e (fun e => (e.cmdIq, e.cmdId, e.cmdZero, e.cmdOmega)) fun _ => rfl
  simp only [Engine.command, Prod.mk.injEq] at hsame hcommand ⊢
  obtain ⟨hiq, hid, hzero, homega⟩ := hsame
  obtain ⟨eiq, eid, ezero, eomega, enext⟩ := hcommand
  exact ⟨hiq.trans eiq, hid.trans eid, hzero.trans ezero, homega.trans eomega, (hg e).2 enext⟩

/-! ### The engine under its parameter set -/

theorem asEngine_runs {l : LaneId} {k : Nat} {g : Engine → Engine} {c : Chip} {boundary : Nat} {f : Chip → Chip}
    (h : EngineRun l k g (c.modCfg (fun x => { x with ws := x.engineWs boundary })) (f (c.modCfg (fun x => { x with ws := x.engineWs boundary })))) :
    EngineRun l k g c (c.asEngine boundary f) where
  bridges := h.bridges
  pintle := h.pintle
  dev := (congrArg (fun d : Dev => { d with cfg := { d.cfg with ws := c.dev.cfg.ws } }) h.dev :)
  others := h.others
  engines := h.engines
  report := h.report
  bits := h.bits

theorem ownReading_congr {c d : Chip} {l : LaneId} (hws : d.dev.cfg.ws = c.dev.cfg.ws) (hfb : (d.lane l).fb = (c.lane l).fb)
    (hnt : (d.lane l).clock.nt = (c.lane l).clock.nt) (k ch : Nat) (w : Int) (sc : List Nat) :
    d.ownReading l k ch w sc = c.ownReading l k ch w sc := by
  have hpar : ∀ p i, d.par p i = c.par p i := fun p i => congrArg (fun ws => p.at ws i) hws
  have hsc : ∀ ch e a, d.scCount ch e a = c.scCount ch e a := fun ch e a => by simp only [Chip.scCount, hpar]
  have hraw : ∀ r, d.angleRaw k ch w r = c.angleRaw k ch w r := fun r => by simp only [Chip.angleRaw, Chip.fbDir, hpar, hws]
  simp only [Chip.ownReading, Chip.fbOf, Chip.parN, hpar, hsc, hraw, hws, hfb, hnt] <;> rfl

/-! ### CURRENT_SAMPLE (R201 to R204, R212) -/

/-- The chip at a sampling instant: the target has the band that is due, and the engine's own parameter set is in force (R198). -/
def Chip.atSample (c : Chip) (l : LaneId) (k boundary : Nat) : Chip :=
  (c.modTarget l k (fun x => { x.takeBand boundary with shortNow := false })).modCfg (fun g => { g with ws := g.engineWs boundary })


theorem atSample_lane (c : Chip) (l : LaneId) (k boundary : Nat) {α : Type} (p : Lane → α)
    (hp : ∀ (n : Lane) ts, p { n with targets := ts } = p n) : p ((c.atSample l k boundary).lanes.get l) = p (c.lanes.get l) :=
  modTarget_lane c l l k _ p hp

theorem atSample_par (c : Chip) (l : LaneId) (k boundary : Nat) (p : PInfo) (i : Nat) :
    (c.atSample l k boundary).par p i = (c.modCfg (fun g => { g with ws := g.engineWs boundary })).par p i :=
  congrArg (fun d : Dev => p.at (d.cfg.engineWs boundary) i) (modTarget_dev c l k _)


theorem atSample_modTarget (c : Chip) (l : LaneId) (k boundary : Nat) : (c.atSample l k boundary).dev.cfg.ws = c.dev.cfg.engineWs boundary :=
  congrArg (fun d : Dev => d.cfg.engineWs boundary) (modTarget_dev c l k _)

theorem atSample_engine (c : Chip) (l : LaneId) (k boundary : Nat) :
    nth ((c.atSample l k boundary).lane l).engines k {} = nth (c.lane l).engines k {} :=
  congrArg (fun es => nth es k ({} : Engine)) (atSample_lane c l k boundary Lane.engines fun _ _ => rfl)

theorem engineRun_modTarget (c : Chip) (l : LaneId) {k : Nat} (hk : k < 2) (f : Target → Target) :
    EngineRun l k (fun e => e) c (c.modTarget l k f) := by
  unfold Chip.modTarget
  rw [if_pos hk]
  exact engineRun_modLane c _ (fun _ => (modNth_id _ k).symm) (fun _ => rfl) (fun _ => rfl)

/-- The PWM boundary that an engine's sampling instant belongs to (R201). -/
def Chip.sampleBoundary (c : Chip) (l : LaneId) (k : Nat) : Nat := (c.lane l).clock.nt - c.parN Par.cmtIsampleDelay k

/-- The engine's own chip at the sampling instant of CURRENT_SAMPLE. -/
def Chip.ownSample (c : Chip) (l : LaneId) (k : Nat) : Chip := c.atSample l k (c.sampleBoundary l k)

theorem currentSample_runs {c : Chip} {l : LaneId} {k : Fin 2} {i : PhaseIn} {g : Engine → Engine} (hused : bridgeUsed c.dev.cfg.ws k.val = true)
    (h : EngineRun l k.val g (c.ownSample l k.val)
      ((c.ownSample l k.val).runEngine l k.val (c.sampleBoundary l k.val) ((c.ownSample l k.val).pwmIn k.val i))) :
    EngineRun l k.val g c (currentSample l k i c) := by
  have hrun := (engineRun_modTarget c l k.isLt (fun x => { x.takeBand (c.sampleBoundary l k.val) with shortNow := false })).trans
    (asEngine_runs (boundary := c.sampleBoundary l k.val)
      (f := fun d => d.runEngine l k.val (c.sampleBoundary l k.val) (d.pwmIn k.val i)) h)
  unfold currentSample
  dsimp only
  rw [hused]
  exact hrun

theorem currentSample_of_unused {c : Chip} {l : LaneId} {k : Fin 2} {i : PhaseIn} (h : ¬bridgeUsed c.dev.cfg.ws k.val = true) :
    currentSample l k i c = c := by
  unfold currentSample
  dsimp only
  rw [Bool.eq_false_of_not_eq_true h]
  rfl

/-! ### The engine at the end of its period -/

theorem pwmPeriod_of_still {c : Chip} {l : LaneId} {k : Nat} (x : PwmIn) (h : (nth (c.lane l).engines k {}).gates ≠ .switching) :
    c.pwmPeriod l k x = c.rest k x (c.measure l k x) := if_neg h

theorem pwmPeriod_of_switching {c : Chip} {l : LaneId} {k : Nat} (x : PwmIn) (h : (nth (c.lane l).engines k {}).gates = .switching) :
    c.pwmPeriod l k x = c.drive l k x (c.measure l k x) := if_pos h

theorem rest_rests (c : Chip) (l : LaneId) (k : Nat) (x : PwmIn) :
    let e := nth (c.lane l).engines k {}
    let y := c.rest k x (c.measure l k x)
    y.vd = 0 ∧ y.vq = 0 ∧ y.intD = e.intD ∧ y.intQ = e.intQ ∧ y.offs = e.offs ∧
      y.offWin = if e.gates = .short then [] else
        ((x.iu, x.iv, x.iw) :: e.offWin).take (1000000 * c.parN Par.cmtCatchWindow k / max 1 (c.parN Par.cmtPwmPeriod k)) :=
  ⟨rfl, rfl, rfl, rfl, rfl, rfl⟩

theorem measure_measures (c : Chip) (l : LaneId) (k : Nat) (x : PwmIn) :
    let e := nth (c.lane l).engines k {}
    let theta := (c.engineAngle l k e x.sc).1
    let ia := x.iu - e.offs.1
    let ib := overRoot3 (ia + 2 * (x.iv - e.offs.2.1))
    let y := c.measure l k x
    y.theta = theta ∧ y.endIq = e.iq ∧ y.endId = e.id ∧ y.id = quo (ia * cosOf theta + ib * sinOf theta) 32767 ∧
      y.iq = quo (ib * cosOf theta - ia * sinOf theta) 32767 :=
  ⟨rfl, rfl, rfl, rfl, rfl⟩

theorem engineAngle_angle (c : Chip) (l : LaneId) (k : Nat) (e : Engine) (sc : List Nat) :
    (c.engineAngle l k e sc).1 = if e.cmdZero then 0 else if 8 ≤ e.cmdSrc then e.obsAngle
      else unsignedOf 16 ((c.ownReading l k e.cmdSrc (omegaOfCounts e.cmdOmega (c.parN Par.cmtPwmPeriod k)) sc : Int) + e.refNow) := by
  unfold Chip.engineAngle
  split
  · rfl
  · split <;> rfl


/-! ### PINTLE_REPORT (R121, R220, R257) -/

/-- What the lane's loops leave of the chip when a report reaches it: everything but that lane's engines, stepper channels and faults,
and the counts of the stepper channels. -/
structure ReportKept (l : LaneId) (c d : Chip) : Prop where
  bridges : d.bridges = c.bridges
  pintle : d.pintle = c.pintle
  motors : d.dev.motors = c.dev.motors
  others : ElseSame l c d
  report : (d.lanes.get l).report = (c.lanes.get l).report
  bits : (d.lanes.get l).reportBits = (c.lanes.get l).reportBits

section
variable {l : LaneId} {c d : Chip}

theorem reportKept_refl (l : LaneId) (c : Chip) : ReportKept l c c := ⟨rfl, rfl, rfl, ElseSame.refl l c, rfl, rfl⟩

theorem ReportKept.trans {e : Chip} (h : ReportKept l c d) (h' : ReportKept l d e) : ReportKept l c e :=
  ⟨h'.bridges.trans h.bridges, h'.pintle.trans h.pintle, h'.motors.trans h.motors, h.others.trans h'.others,
    h'.report.trans h.report, h'.bits.trans h.bits⟩

theorem EngineRun.reportKept {k : Nat} {g : Engine → Engine} (h : EngineRun l k g c d) : ReportKept l c d :=
  ⟨h.bridges, h.pintle, (congrArg Dev.motors h.dev :), h.others, h.report, h.bits⟩

theorem reportKept_modLane (c : Chip) (l : LaneId) (f : Lane → Lane) (hr : ∀ n, (f n).report = n.report)
    (hb : ∀ n, (f n).reportBits = n.reportBits) : ReportKept l c (c.modLane l f) :=
  ⟨rfl, rfl, rfl, elseSame_modLane c l f, modLane_keeps c l l f Lane.report hr, modLane_keeps c l l f Lane.reportBits hb⟩

theorem reportKept_ite (p : Prop) [Decidable p] {a b : Chip} (ha : ReportKept l c a) (hb : ReportKept l c b) :
    ReportKept l c (if p then a else b) := by
  split
  · exact ha
  · exact hb

theorem reportKept_foldl {α : Type} (xs : List α) (f : Chip → α → Chip) (hf : ∀ d x, ReportKept l d (f d x)) (c : Chip) :
    ReportKept l c (xs.foldl f c) :=
  List.foldlRecOn xs f (motive := ReportKept l c) (reportKept_refl l c) fun d h x _ => h.trans (hf d x)

theorem runEngine_reportKept (c : Chip) (l : LaneId) (k boundary : Nat) (x : PwmIn) : ReportKept l c (c.runEngine l k boundary x) := by
  by_cases h : ∀ x, (nth (c.lane l).engines k {}).next = some x → boundary < x.from_
  · obtain ⟨g, -, hrun⟩ := runEngine_of_not_due x h
    exact hrun.reportKept
  · obtain ⟨y, hy⟩ := not_forall.mp h
    obtain ⟨hnext, hdue⟩ := Classical.not_imp.mp hy
    obtain ⟨z, -, hrun⟩ := runEngine_of_due x hnext (Nat.not_lt.mp hdue)
    exact hrun.reportKept

theorem presetEngine_reportKept (c : Chip) (l : LaneId) (k : Nat) (v : Int × Int) : ReportKept l c (c.presetEngine l k v) :=
  (engineRun_modEngine c l k _).reportKept

theorem reportBridge_kept (c : Chip) (l : LaneId) (k : Nat) (p : PintleIn) (sc : List Nat) : ReportKept l c (c.reportBridge l k p sc) :=
  reportKept_ite _ ((runEngine_reportKept c l k _ _).trans (reportKept_ite _ (reportKept_refl l _) (presetEngine_reportKept _ l k _)))
    (reportKept_refl l c)

theorem stpLoops_kept (c : Chip) (l : LaneId) (k : Nat) (p : PintleIn) : ReportKept l c (c.stpLoops l k p) :=
  reportKept_ite _ (reportKept_modLane c l _ (fun _ => rfl) (fun _ => rfl)) (reportKept_modLane c l _ (fun _ => rfl) (fun _ => rfl))

theorem countClips_kept (c : Chip) (l : LaneId) (k : Nat) (p : PintleIn) : ReportKept l c (c.countClips k p) :=
  ⟨rfl, rfl, rfl, ElseSame.refl l c, rfl, rfl⟩

/-- The loops that run on a report: the claimed bridges (R220), then the stepper coils (R257). -/
def Chip.reportLoops (c : Chip) (l : LaneId) (p : PintleIn) (sc : List Nat) : Chip :=
  (List.range 6).foldl (fun c k =>
    if stepUsed c.dev.cfg.ws k then
      if (c.stpLoops l k p).leader = some l then (c.stpLoops l k p).countClips k p else c.stpLoops l k p
    else c) ([2, 3].foldl (fun c k => c.reportBridge l k p sc) c)

theorem reportLoops_kept (c : Chip) (l : LaneId) (p : PintleIn) (sc : List Nat) : ReportKept l c (c.reportLoops l p sc) := by
  refine (reportKept_foldl [2, 3] _ (fun d k => reportBridge_kept d l k p sc) c).trans (reportKept_foldl (List.range 6) _ (fun d k => ?_) _)
  exact reportKept_ite _ ((stpLoops_kept d l k p).trans (reportKept_ite _ (countClips_kept _ l k p) (reportKept_refl l _))) (reportKept_refl l d)

theorem asEngine_reportKept {boundary : Nat} {f : Chip → Chip} (hf : ∀ d, ReportKept l d (f d)) (c : Chip) : ReportKept l c (c.asEngine boundary f) := by
  have h := hf (c.modCfg (fun g => { g with ws := g.engineWs boundary }))
  exact ⟨h.bridges, h.pintle, h.motors, h.others, h.report, h.bits⟩

theorem pintleReport_of_path {p : PintleIn} (sc : List Nat) (hpowered : c.pintle.powered = true) (hpath : (c.pintle.lanes.get l).pathFailed = false) :
    pintleReport l p sc c = (c.takeReport l p).asEngine (c.lane l).clock.nt (fun c => c.reportLoops l p sc) := by
  unfold pintleReport
  rw [hpowered, hpath]
  rfl

theorem pintleReport_takes (p : PintleIn) (sc : List Nat) (hpowered : c.pintle.powered = true) (hpath : (c.pintle.lanes.get l).pathFailed = false) :
    ReportKept l (c.takeReport l p) (pintleReport l p sc c) := by
  rw [pintleReport_of_path sc hpowered hpath]
  exact asEngine_reportKept (fun d => reportLoops_kept d l p sc) _

theorem pintleReport_of_no_path {p : PintleIn} {sc : List Nat} (h : ¬(c.pintle.powered = true ∧ (c.pintle.lanes.get l).pathFailed = false)) :
    pintleReport l p sc c = c := by
  unfold pintleReport
  refine if_pos ?_
  simpa only [Bool.or_eq_true, Bool.not_eq_true', not_and_or, Bool.not_eq_true, Bool.not_eq_false] using h

end

theorem takeReport_takes (c : Chip) (l : LaneId) (p : PintleIn) :
    ((c.takeReport l p).lanes.get l).report = some p ∧
      ((c.takeReport l p).lanes.get l).reportBits.faults = (c.lanes.get l).reportBits.faults ++ c.pintle.faults.drop (c.pintle.lanes.get l).told := by
  unfold Chip.takeReport
  dsimp only
  rw [modPLane_lanes, modLane_lanes, tri_get_set_same]
  exact ⟨rfl, rfl⟩

end Sys2Proof.Machine

namespace Sys2Proof.Machine
open Sys2Proof


/-! ### Engines: the obligation -/

/-- What a sample leaves of the rest of the module, with the engine `y` that the lane ends with (R10, R194). -/
def SampleEnds (s t : State) (l : LaneId) (k : Nat) (y : Engine) : Prop :=
  t.mem = s.mem ∧ t.chip.bridges = s.chip.bridges ∧ t.chip.pintle = s.chip.pintle ∧ t.chip.dev.plain = s.chip.dev.plain ∧
    (∀ j, j ≠ l → t.chip.lanes.get j = s.chip.lanes.get j) ∧ (t.chip.lane l).engines = modNth (s.chip.lane l).engines k (fun _ => y)

theorem EngineRun.ends {s : State} {l : LaneId} {k : Nat} {y : Engine} {f : Chip → Chip} (h : EngineRun l k (fun _ => y) s.chip (f s.chip)) :
    SampleEnds s (s.onChip f) l k y := ⟨rfl, h.bridges, h.pintle, h.dev, h.others, h.engines⟩

theorem exec_currentSample {s : State} {l : LaneId} (hruns : s.chip.runs l = true) (k : Fin 2) (i : PhaseIn) :
    exec (.currentSample l k i) s = .next (s.onChip (currentSample l k i)) := next_congr (onLane_of_runs hruns _)

section
variable {s : State} {l : LaneId} {k : Fin 2} {i : PhaseIn}

theorem currentSample_idle (h : ¬(bridgeUsed s.chip.dev.cfg.ws k.val = true ∧ s.chip.runs l = true)) :
    exec (.currentSample l k i) s = .next s := by
  by_cases hruns : s.chip.runs l = true
  · rw [exec_currentSample hruns]
    exact next_congr (onChip_congr (f := currentSample l k i) (g := fun c => c) (currentSample_of_unused fun hu => h ⟨hu, hruns⟩))
  · exact next_congr (if_neg hruns)

/-- The engine's own chip sees the engine that the lane holds. -/
theorem ownSample_engine (c : Chip) (l : LaneId) (k : Nat) : nth ((c.ownSample l k).lane l).engines k {} = nth (c.lane l).engines k {} :=
  atSample_engine c l k _

theorem currentSample_takes (hused : bridgeUsed s.chip.dev.cfg.ws k.val = true) (hruns : s.chip.runs l = true) {x : EngineCmd}
    (hx : (nth (s.chip.lane l).engines k.val {}).next = some x) (hdue : x.from_ ≤ s.chip.sampleBoundary l k.val) :
    ∃ t y, exec (.currentSample l k i) s = .next t ∧ SampleEnds s t l k.val y ∧
      y.cmdIq = x.iq ∧ y.cmdId = x.id ∧ y.cmdZero = x.zero ∧ y.cmdOmega = x.omega ∧ y.next = none := by
  have hown : (nth ((s.chip.ownSample l k.val).lane l).engines k.val {}).next = some x := (congrArg Engine.next (ownSample_engine s.chip l k.val)).trans hx
  obtain ⟨y, hy, hrun⟩ := runEngine_of_due ((s.chip.ownSample l k.val).pwmIn k.val i) hown hdue
  refine ⟨_, y, exec_currentSample hruns k i, (currentSample_runs hused hrun).ends, ?_⟩
  simpa only [Engine.command, Prod.mk.injEq] using hy

/-- Without a command that is due, the engine ends its period as its measurement and its loops give, up to the verdict. -/
theorem currentSample_ends (hused : bridgeUsed s.chip.dev.cfg.ws k.val = true) (hruns : s.chip.runs l = true)
    (hidle : ∀ x, (nth (s.chip.lane l).engines k.val {}).next = some x → s.chip.sampleBoundary l k.val < x.from_) :
    ∃ t g, Judged g ∧ exec (.currentSample l k i) s = .next t ∧
      SampleEnds s t l k.val (g ((s.chip.ownSample l k.val).pwmPeriod l k.val ((s.chip.ownSample l k.val).pwmIn k.val i))) := by
  obtain ⟨g, hg, hrun⟩ := runEngine_of_not_due ((s.chip.ownSample l k.val).pwmIn k.val i) (boundary := s.chip.sampleBoundary l k.val)
    (c := s.chip.ownSample l k.val) (l := l) (k := k.val) (by rw [ownSample_engine]; exact hidle)
  exact ⟨_, g, hg, exec_currentSample hruns k i, (currentSample_runs hused hrun).ends⟩

end

/-- The chip that the obligation reads parameters from: the engine's own set is in force (R198). -/
def Chip.ownSet (c : Chip) (l : LaneId) (k : Nat) : Chip := c.modCfg (fun g => { g with ws := g.engineWs (c.sampleBoundary l k) })

theorem ownSample_par (c : Chip) (l : LaneId) (k : Nat) (p : PInfo) (i : Nat) : (c.ownSample l k).par p i = (c.ownSet l k).par p i :=
  atSample_par c l k _ p i

theorem ownSample_parN (c : Chip) (l : LaneId) (k : Nat) (p : PInfo) (i : Nat) : (c.ownSample l k).parN p i = (c.ownSet l k).parN p i :=
  congrArg Int.toNat (ownSample_par c l k p i)

theorem ownSample_reading (c : Chip) (l : LaneId) (k ch : Nat) (w : Int) (sc : List Nat) :
    (c.ownSample l k).ownReading l k ch w sc = (c.ownSet l k).ownReading l k ch w sc :=
  ownReading_congr (c := c.ownSet l k) (atSample_modTarget c l k _) (atSample_lane c l k _ Lane.fb fun _ _ => rfl)
    (atSample_lane c l k _ (fun n => n.clock.nt) fun _ _ => rfl) k ch w sc

theorem ownSample_vbr (c : Chip) (l : LaneId) (k : Fin 2) : (c.ownSample l k.val).engineVbr l k.val = ((c.lane l).vbr : Int) := by
  unfold Chip.engineVbr
  rw [if_pos k.isLt]
  exact congrArg Nat.cast (atSample_lane c l k.val _ Lane.vbr fun _ _ => rfl)

theorem ownSample_current (c : Chip) (l : LaneId) (k code : Nat) :
    (c.ownSample l k).currentOf k code = quo (((code : Int) - 8192) * (c.ownSet l k).par Par.cmtILsb k) 1000 := by
  unfold Chip.currentOf
  rw [ownSample_par]


/-- The codes of a sample taken as integers, as the obligation writes them. -/
theorem nth_natCast (xs : List Nat) (j : Nat) : (nth xs j 8192 : Int) = ((nth xs j 8192 : Nat) : Int) := by
  have hmap : (xs >>= fun a => pure (a : Int)) = xs.map Nat.cast := bind_pure_comp _ xs
  rw [hmap]
  exact List.getD_map xs 8192 (Nat.cast : Nat → Int)

theorem ownSample_code (c : Chip) (l : LaneId) (k : Nat) (i : PhaseIn) (j : Nat) :
    (c.ownSample l k).currentOf k (nth i.codes j 8192) = quo (((nth i.codes j 8192 : Int) - 8192) * (c.ownSet l k).par Par.cmtILsb k) 1000 := by
  rw [nth_natCast, ownSample_current]

section
variable {s : State} {l : LaneId} {k : Fin 2} {i : PhaseIn}

/-- A set that does not switch rests, and its currents with the gates off are kept (R212). -/
theorem currentSample_rests (hused : bridgeUsed s.chip.dev.cfg.ws k.val = true) (hruns : s.chip.runs l = true)
    (hidle : ∀ x, (nth (s.chip.lane l).engines k.val {}).next = some x → s.chip.sampleBoundary l k.val < x.from_)
    (hstill : (nth (s.chip.lane l).engines k.val {}).gates ≠ .switching) :
    let e := nth (s.chip.lane l).engines k.val {}
    let c := s.chip.ownSet l k.val
    let current (j : Nat) : Int := quo (((nth i.codes j 8192 : Int) - 8192) * c.par Par.cmtILsb k.val) 1000
    ∃ t y, exec (.currentSample l k i) s = .next t ∧ SampleEnds s t l k.val y ∧
      y.vd = 0 ∧ y.vq = 0 ∧ y.intD = e.intD ∧ y.intQ = e.intQ ∧ y.offs = e.offs ∧
      y.offWin = if e.gates = .short then [] else ((current 0, current 1, current 2) :: e.offWin).take
        (1000000 * c.parN Par.cmtCatchWindow k.val / max 1 (c.parN Par.cmtPwmPeriod k.val)) := by
  intro e c current
  obtain ⟨t, g, hg, hexec, hends⟩ := currentSample_ends (i := i) hused hruns hidle
  refine ⟨t, _, hexec, hends, ?_⟩
  have hown : nth ((s.chip.ownSample l k.val).lane l).engines k.val {} = e := ownSample_engine s.chip l k.val
  have hrest := rest_rests (s.chip.ownSample l k.val) l k.val ((s.chip.ownSample l k.val).pwmIn k.val i)
  have hcurrent : ∀ j, (s.chip.ownSample l k.val).currentOf k.val (nth i.codes j 8192) = current j := fun j => ownSample_code s.chip l k.val i j
  rw [pwmPeriod_of_still _ (hown.symm ▸ hstill)]
  dsimp only [Chip.pwmIn] at hrest ⊢
  rw [hown, ownSample_parN, ownSample_parN, hcurrent, hcurrent, hcurrent] at hrest
  obtain ⟨hvd, hvq, hid, hiq, hoffs, hwin⟩ := hrest
  rw [hcurrent, hcurrent, hcurrent]
  exact ⟨(hg.field _ Engine.vd fun _ => rfl).trans hvd, (hg.field _ Engine.vq fun _ => rfl).trans hvq,
    (hg.field _ Engine.intD fun _ => rfl).trans hid, (hg.field _ Engine.intQ fun _ => rfl).trans hiq,
    (hg.field _ Engine.offs fun _ => rfl).trans hoffs, (hg.field _ Engine.offWin fun _ => rfl).trans hwin⟩

/-- A set that switches measures its currents at the rotor's angle, and drives within Vmax (R202 to R204). -/
theorem currentSample_drives (hused : bridgeUsed s.chip.dev.cfg.ws k.val = true) (hruns : s.chip.runs l = true)
    (hidle : ∀ x, (nth (s.chip.lane l).engines k.val {}).next = some x → s.chip.sampleBoundary l k.val < x.from_)
    (hswitch : (nth (s.chip.lane l).engines k.val {}).gates = .switching) :
    let e := nth (s.chip.lane l).engines k.val {}
    let c := s.chip.ownSet l k.val
    let current (j : Nat) : Int := quo (((nth i.codes j 8192 : Int) - 8192) * c.par Par.cmtILsb k.val) 1000
    let w := omegaOfCounts e.cmdOmega (c.parN Par.cmtPwmPeriod k.val)
    let theta := if e.cmdZero then 0 else if 8 ≤ e.cmdSrc then e.obsAngle
      else unsignedOf 16 ((c.ownReading l k.val e.cmdSrc w i.sc : Int) + e.refNow)
    let ia := current 0 - e.offs.1
    let ib := overRoot3 (ia + 2 * (current 1 - e.offs.2.1))
    let vm := vMax (c.par Par.cmtVlim k.val) (s.chip.lane l).vbr
    ∃ t y, exec (.currentSample l k i) s = .next t ∧ SampleEnds s t l k.val y ∧ y.theta = theta ∧ y.endIq = e.iq ∧ y.endId = e.id ∧
      y.id = quo (ia * cosOf theta + ib * sinOf theta) 32767 ∧ y.iq = quo (ib * cosOf theta - ia * sinOf theta) 32767 ∧
      -vm ≤ y.vd ∧ y.vd ≤ vm ∧ y.vd * y.vd + y.vq * y.vq ≤ vm * vm ∧ y.edges.length = 3 ∧
      ∀ x ∈ y.edges, x.1 ≤ x.2 ∧ x.1 + x.2 ≤ pwmSteps (c.parN Par.cmtPwmPeriod k.val) ∧
        pwmSteps (c.parN Par.cmtPwmPeriod k.val) ≤ x.1 + x.2 + 1 := by
  intro e c current w theta ia ib vm
  obtain ⟨t, g, hg, hexec, hends⟩ := currentSample_ends (i := i) hused hruns hidle
  refine ⟨t, _, hexec, hends, ?_⟩
  generalize hd : s.chip.ownSample l k.val = d
  have hown : nth (d.lane l).engines k.val {} = e := hd ▸ ownSample_engine s.chip l k.val
  have hcurrent : ∀ j, d.currentOf k.val (nth i.codes j 8192) = current j := fun j => hd ▸ ownSample_code s.chip l k.val i j
  have hpwm : d.parN Par.cmtPwmPeriod k.val = c.parN Par.cmtPwmPeriod k.val := hd ▸ ownSample_parN ..
  have hangle : (d.engineAngle l k.val e i.sc).1 = theta := by
    rw [engineAngle_angle, hpwm, ← hd, ownSample_reading]
  have hvm : vMax (d.par Par.cmtVlim k.val) (d.engineVbr l k.val) = vm := by
    rw [← hd, ownSample_par, ownSample_vbr]
  have hmeasured := measure_measures d l k.val (d.pwmIn k.val i)
  have hwithin := drive_within d l k.val (d.pwmIn k.val i) (d.measure l k.val (d.pwmIn k.val i))
  have hedges := drive_edges d l k.val (d.pwmIn k.val i) (d.measure l k.val (d.pwmIn k.val i))
  obtain ⟨htheta, hendIq, hendId, hid, hiq⟩ := drive_measured d l k.val (d.pwmIn k.val i) (d.measure l k.val (d.pwmIn k.val i))
  rw [pwmPeriod_of_switching _ (hown.symm ▸ hswitch)]
  generalize d.measure l k.val (d.pwmIn k.val i) = m at *
  generalize d.drive l k.val (d.pwmIn k.val i) m = y at *
  dsimp only [Chip.pwmIn] at hmeasured
  rw [hown, hcurrent, hcurrent, hangle] at hmeasured
  dsimp only at hwithin
  rw [hvm] at hwithin
  rw [hpwm] at hedges
  have hv : (g y).vd = y.vd ∧ (g y).vq = y.vq ∧ (g y).edges = y.edges := ⟨hg.field y Engine.vd fun _ => rfl, hg.field y Engine.vq fun _ => rfl, hg.field y Engine.edges fun _ => rfl⟩
  obtain ⟨hvd, hvq, hedge⟩ := hv
  obtain ⟨mtheta, mendIq, mendId, mid, miq⟩ := hmeasured
  rw [hvd, hvq, hedge]
  exact ⟨(hg.field y Engine.theta fun _ => rfl).trans (htheta.trans mtheta), (hg.field y Engine.endIq fun _ => rfl).trans (hendIq.trans mendIq),
    (hg.field y Engine.endId fun _ => rfl).trans (hendId.trans mendId), (hg.field y Engine.id fun _ => rfl).trans (hid.trans mid),
    (hg.field y Engine.iq fun _ => rfl).trans (hiq.trans miq), hwithin.1.1, hwithin.1.2, hwithin.2, hedges.1, hedges.2⟩

end

theorem takeReport_else (c : Chip) (l : LaneId) (p : PintleIn) : ElseSame l c (c.takeReport l p) := by
  unfold Chip.takeReport
  intro j hj
  dsimp only
  rw [modPLane_lanes]
  exact elseSame_modLane c l _ j hj

theorem exec_pintleReport {s : State} {l : LaneId} (hruns : s.chip.runs l = true) (p : PintleIn) (sc : List Nat) :
    exec (.pintleReport l p sc) s = .next (s.onChip (pintleReport l p sc)) := next_congr (onLane_of_runs hruns _)

theorem pintleReport_idle {s : State} {l : LaneId} {p : PintleIn} {sc : List Nat}
    (h : ¬(s.chip.pintle.powered = true ∧ (s.chip.pintle.lanes.get l).pathFailed = false ∧ s.chip.runs l = true)) :
    exec (.pintleReport l p sc) s = .next s := by
  by_cases hruns : s.chip.runs l = true
  · rw [exec_pintleReport hruns]
    exact next_congr (onChip_congr (f := pintleReport l p sc) (g := fun c => c)
      (pintleReport_of_no_path fun hpath => h ⟨hpath.1, hpath.2, hruns⟩))
  · exact next_congr (if_neg hruns)

/-- Settles O35: the engine of a sample is run as a change of that one engine (`EngineRun`), which the verdict on the period may only halt or
turn to another angle source (`Judged`); a report changes the rest of the module in nothing but what was told to the lane. -/
theorem enginesSampleAndLimit : Obligations.EnginesSampleAndLimit := by
  unfold Obligations.EnginesSampleAndLimit
  refine ⟨fun s l k i => ?_, fun s l p sc => ?_⟩
  · refine ⟨currentSample_idle, fun x hused hx hdue => ?_, fun hused hidle hstill => ?_, fun hused hidle hswitch => ?_⟩
    · exact currentSample_takes hused.1 hused.2 hx hdue
    · exact currentSample_rests hused.1 hused.2 hidle hstill
    · exact currentSample_drives hused.1 hused.2 hidle hswitch
  · refine ⟨pintleReport_idle, fun ⟨hpowered, hpath, hruns⟩ => ?_⟩
    have hkept := pintleReport_takes (c := s.chip) p sc hpowered hpath
    obtain ⟨hreport, hfaults⟩ := takeReport_takes s.chip l p
    refine ⟨_, exec_pintleReport hruns p sc, rfl, hkept.bridges, hkept.motors, ?_, hkept.report.trans hreport,
      (congrArg ReportBits.faults hkept.bits).trans hfaults, hkept.pintle⟩
    exact fun j hj => (hkept.others j hj).trans (takeReport_else s.chip l p j hj)

end Sys2Proof.Machine

namespace Sys2Proof.Machine
open Sys2Proof


/-! ### Forwarding (R303, R325, R330) -/

/-- A lane less what forwarding a frame can change of it: the frames on their way out, the ports, the counts of forwarding and the
fault collector. -/
def Lane.unforwarded (n : Lane) : Lane :=
  { n with fault := {}, txq := [], net := { n.net with out := [], waiting := [], ports := [], forwarded := 0, fwd := [] } }

/-- A lane that passes `count` frames on through its port `q`: nothing but its frames on their way out, the time that the port is busy and the
counts of forwarding changes. -/
structure Forwards (l : LaneId) (q count : Nat) (c d : Chip) : Prop extends PlaneWork l c d where
  dev : d.dev.plain = c.dev.plain
  lane : (d.lanes.get l).unforwarded = (c.lanes.get l).unforwarded
  ports : ∃ x, (d.netOf l).ports = modNth (c.netOf l).ports q (fun _ => x)
  counted : (d.netOf l).forwarded = (c.netOf l).forwarded + count

theorem modNth_const_self {α : Type} (xs : List α) (k : Nat) (d : α) : modNth xs k (fun _ => nth xs k d) = xs :=
  (modNth_congr xs k _ (fun x => x) d rfl).trans (modNth_id xs k)

section
variable {l : LaneId} {q : Nat} {c d : Chip}

theorem forwards_refl (l : LaneId) (q : Nat) (c : Chip) : Forwards l q 0 c c :=
  ⟨.refl l c, rfl, rfl, ⟨nth (c.netOf l).ports q {}, (modNth_const_self _ q _).symm⟩, rfl⟩

theorem Forwards.trans {e : Chip} {n m : Nat} (h : Forwards l q n c d) (h' : Forwards l q m d e) : Forwards l q (n + m) c e where
  toPlaneWork := h.toPlaneWork.trans h'.toPlaneWork
  dev := h'.dev.trans h.dev
  lane := h'.lane.trans h.lane
  ports := by
    obtain ⟨x, hx⟩ := h.ports
    obtain ⟨y, hy⟩ := h'.ports
    exact ⟨y, by rw [hy, hx, modNth_modNth]⟩
  counted := by rw [h'.counted, h.counted, Nat.add_assoc]

/-- A part of the lane that forwarding does not touch. -/
theorem Forwards.field {n : Nat} (h : Forwards l q n c d) {α : Type} (p : Lane → α) (hp : ∀ n : Lane, p n.unforwarded = p n) :
    p (d.lanes.get l) = p (c.lanes.get l) := by rw [← hp, h.lane, hp]

theorem forwards_ite {n : Nat} {p : Prop} [Decidable p] {a b : Chip} (ha : Forwards l q n c a) (hb : Forwards l q n c b) :
    Forwards l q n c (if p then a else b) := by
  split
  · exact ha
  · exact hb

/-- A change of the unit that leaves its ports and touches only what forwarding may. -/
theorem forwards_modNet (c : Chip) (l : LaneId) (q n : Nat) (f : Ocgal → Ocgal)
    (hlane : ∀ x : Lane, ({ x with net := f x.net } : Lane).unforwarded = x.unforwarded) (hports : ∀ x, (f x).ports = x.ports)
    (hcount : ∀ x, (f x).forwarded = x.forwarded + n) : Forwards l q n c (c.modNet l f) where
  toPlaneWork := planeWork_modNet c l f
  dev := rfl
  lane := modLane_keeps c l l _ Lane.unforwarded hlane
  ports := ⟨nth (c.netOf l).ports q {}, by rw [netOf_modNet, hports, modNth_const_self]⟩
  counted := by rw [netOf_modNet, hcount]

theorem forwards_modPort (c : Chip) (l : LaneId) (q : Nat) (f : NetPort → NetPort) : Forwards l q 0 c (c.modPort l q f) where
  toPlaneWork := planeWork_modLane c l _
  dev := rfl
  lane := modLane_keeps c l l _ Lane.unforwarded fun _ => rfl
  ports := ⟨f (nth (c.netOf l).ports q {}), (congrArg (fun n : Lane => n.net.ports) (tri_get_set_same ..)).trans (modNth_congr _ q _ _ {} rfl)⟩
  counted := modLane_keeps c l l _ (fun n => n.net.forwarded) fun _ => rfl

theorem forwards_localFault (c : Chip) (l : LaneId) (q code t i lane : Nat) : Forwards l q 0 c (c.localFault l code t i lane) where
  toPlaneWork := planeWork_localFault c l code t i lane
  dev := congrArg Chip.dev (localFault_plain c l code t i lane)
  lane := localFault_lane c l l code t i lane Lane.unforwarded fun _ _ => rfl
  ports := ⟨nth (c.netOf l).ports q {},
    (localFault_lane c l l code t i lane (fun n => n.net.ports) fun _ _ => rfl).trans (modNth_const_self _ q _).symm⟩
  counted := localFault_lane c l l code t i lane (fun n => n.net.forwarded) fun _ _ => rfl

theorem forwards_portNote (c : Chip) (l : LaneId) (q p code : Nat) : Forwards l q 0 c (c.portNote l p code) :=
  forwards_ite (forwards_localFault ..) (forwards_refl ..)

theorem forwards_giveWay (c : Chip) (l : LaneId) (q p : Nat) (t stop : Int) : Forwards l q 0 c (c.giveWay l p t stop) := by
  unfold Chip.giveWay
  dsimp only
  have hout := forwards_modNet c l q 0
  refine forwards_ite (hout _ ?_ ?_ ?_) ((hout _ ?_ ?_ ?_).trans (forwards_portNote ..)) <;> exact fun _ => rfl

theorem forwards_passOn (c : Chip) (l : LaneId) (p : Nat) (t : Int) (span : Nat) : Forwards l p 0 c (c.passOn l p t span) := by
  unfold Chip.passOn
  dsimp only
  refine forwards_ite (forwards_portNote ..) ?_
  have hnote : Forwards l p 0 c (if ((c.netOf l).out.find? (fun f => f.port == p && decide (f.at_ ≤ t ∧ t < f.stop))).isSome then c.portNote l p 0x2005 else c) :=
    forwards_ite (forwards_portNote ..) (forwards_refl ..)
  exact (hnote.trans (forwards_modPort _ l p _)).trans (forwards_giveWay _ l p p _ _)

/-- A frame is passed on between two working ports of a lane whose network unit is powered and sound (R11, R303). -/
def Chip.forwarding (c : Chip) (l : LaneId) (p : Nat) : Bool :=
  (c.portOf l p).works && (c.portOf l (otherPort p)).works && (c.lane l).power.net && !((c.lane l).boot.fenced && (c.lane l).boot.fenceNet)

/-- The forwarding of a frame counted with its delay (R303, R339). -/
def Ocgal.countForward (n : Ocgal) (p d : Nat) : Ocgal :=
  { n with forwarded := n.forwarded + 1, fwd := modNth n.fwd p (fun s => if s.2 < 64 then (s.1 + d, s.2 + 1) else s) }

theorem forward_of_not {p : Nat} (h : c.forwarding l p = false) (b : List Byte) : c.forward l p b = c :=
  if_neg (h.trans_ne Bool.false_ne_true)

theorem forwards_draw (c : Chip) (l : LaneId) (q : Nat) : Forwards l q 0 c c.draw.2 :=
  ⟨⟨rfl, rfl, rfl, fun _ _ => rfl⟩, rfl, rfl, ⟨nth (c.netOf l).ports q {}, (modNth_const_self _ q _).symm⟩, rfl⟩

theorem forward_of_forwarding {p : Nat} (h : c.forwarding l p = true) (b : List Byte) : Forwards l (otherPort p) 1 c (c.forward l p b) := by
  have heq : c.forward l p b = (c.draw.2.modNet l (fun n => n.countForward p (forwardDelay l p c.draw.1))).passOn l (otherPort p)
      (((c.draw.2.modNet l (fun n => n.countForward p (forwardDelay l p c.draw.1))).lane l).clock.nt - sfdLag + (forwardDelay l p c.draw.1 / 1000 : Nat))
      (frameSpan b) := if_pos h
  rw [heq]
  refine ((forwards_draw c l _).trans (forwards_modNet _ l _ 1 _ ?_ ?_ ?_)).trans (forwards_passOn ..) <;> exact fun _ => rfl

/-- Whether it is passed on or not, a frame changes nothing that is read from the lane beside. -/
theorem forward_forwards (c : Chip) (l : LaneId) (p : Nat) (b : List Byte) : ∃ n, Forwards l (otherPort p) n c (c.forward l p b) := by
  cases h : c.forwarding l p with
  | true => exact ⟨1, forward_of_forwarding h b⟩
  | false => exact ⟨0, by rw [forward_of_not h b]; exact forwards_refl l _ c⟩

end

end Sys2Proof.Machine

namespace Sys2Proof.Machine
open Sys2Proof


/-! ### What a received frame changes (R306, R315, R326, R334) -/

/-- A lane that takes a frame, or discards it, once it has been passed on: the count of forwarded frames stays. -/
structure Takes (l : LaneId) (c d : Chip) : Prop extends PlaneWork l c d where
  counted : (d.netOf l).forwarded = (c.netOf l).forwarded

section
variable {l : LaneId} {c d : Chip}

theorem takes_refl (l : LaneId) (c : Chip) : Takes l c c := ⟨.refl l c, rfl⟩

theorem Takes.trans {e : Chip} (h : Takes l c d) (h' : Takes l d e) : Takes l c e :=
  ⟨h.toPlaneWork.trans h'.toPlaneWork, h'.counted.trans h.counted⟩

theorem takes_ite {p : Prop} [Decidable p] {a b : Chip} (ha : Takes l c a) (hb : Takes l c b) : Takes l c (if p then a else b) := by
  split
  · exact ha
  · exact hb

theorem takes_modLane (c : Chip) (l : LaneId) (f : Lane → Lane) (h : ∀ n, (f n).net.forwarded = n.net.forwarded) : Takes l c (c.modLane l f) :=
  ⟨planeWork_modLane c l f, modLane_keeps c l l f (fun n => n.net.forwarded) h⟩

theorem takes_modNet (c : Chip) (l : LaneId) (f : Ocgal → Ocgal) (h : ∀ n, (f n).forwarded = n.forwarded) : Takes l c (c.modNet l f) :=
  takes_modLane c l _ fun n => h n.net

theorem takes_portFault (c : Chip) (l : LaneId) (p code : Nat) : Takes l c (c.portFault l p code) :=
  ⟨planeWork_localFault .., localFault_lane c l l code 0x0B p l.idx (fun n => n.net.forwarded) fun _ _ => rfl⟩

/-! #### A frame discarded -/

theorem frameFails_takes (c : Chip) (l : LaneId) (p cause : Nat) : Takes l c (c.frameFails l p cause) := by
  unfold Chip.frameFails
  dsimp only
  have hcount := (takes_modLane c l (fun n => { n with net := { n.net with ports := modNth n.net.ports p (fun x => x.failed cause) } }) fun _ => rfl).trans
    (takes_modNet (c.modPort l p (fun x => x.failed cause)) l (fun n => { n with failed := satInc 65535 n.failed }) fun _ => rfl)
  have htag := hcount.trans (takes_ite (p := cause = 4) (takes_portFault _ l p 0x200B) (takes_refl l _))
  exact htag.trans (takes_ite (takes_portFault _ l p 0x2001) (takes_refl l _))

/-- A discarded frame is counted for its port and its cause; beside that only faults are recorded (R306, R336). -/
theorem frameFails_lane (c : Chip) (l : LaneId) (p cause : Nat) {α : Type} (f : Lane → α) (hf : ∀ n a : Lane, f (n.withAccounts a) = f n) :
    f ((c.frameFails l p cause).lanes.get l) = f { c.lanes.get l with net := { (c.lanes.get l).net with
      ports := modNth (c.lanes.get l).net.ports p (fun x => x.failed cause), failed := satInc 65535 (c.lanes.get l).net.failed } } := by
  have hfault : ∀ (d : Chip) (b : Prop) [Decidable b] (code : Nat), f ((if b then d.portFault l p code else d).lanes.get l) = f (d.lanes.get l) := by
    intro d b _ code
    split
    · exact localFault_lane d l l code 0x0B p l.idx f hf
    · rfl
  unfold Chip.frameFails
  dsimp only
  rw [hfault, hfault]
  simp only [Chip.modNet, modLane_lanes, modPort_lanes, tri_get_set_same]

/-! #### An item that arrives (R126, R127) -/

/-- Two items of the stream come from the same slot (R127). -/
def StreamItem.sameSlot (x y : StreamItem) : Bool :=
  match x, y with
  | .excl a b _ _ _ _ _ _, .excl a' b' _ _ _ _ _ _ => decide (a = a' ∧ b = b')
  | _, _ => false

/-- A lane with an item put among those that it streams (R126). -/
def Lane.arrivedWith (n : Lane) (x : StreamItem) : Lane :=
  { n.placed x.quads with
    arriving := n.arriving.filter (fun y => !(y.carried && x.sameSlot y.item)) ++ [{ item := x, ord := n.streamOrd, index := n.streamQuad }] }

theorem arrive_traffic (c : Chip) (l : LaneId) (x : StreamItem) : TrafficOnly (c.modLane l (fun n => n.arrivedWith x)) (c.arrive l x) :=
  sendLinks_traffic l l.partners .vectors x.quads _

theorem arrive_lane (c : Chip) (l : LaneId) (x : StreamItem) : (c.arrive l x).lanes.get l = (c.lanes.get l).arrivedWith x := by
  rw [(arrive_traffic c l x).lanes, modLane_lanes, tri_get_set_same]

theorem arrive_takes (c : Chip) (l : LaneId) (x : StreamItem) : Takes l c (c.arrive l x) where
  pintle := (arrive_traffic c l x).pintle
  bridges := (arrive_traffic c l x).bridges
  cfg := congrArg Dev.cfg (arrive_traffic c l x).dev
  others k hk := by
    rw [(arrive_traffic c l x).lanes]
    exact elseSame_modLane c l _ k hk
  counted := (congrArg (fun n : Lane => n.net.forwarded) (arrive_lane c l x)).trans rfl

/-- Only an exclusive frame replaces a carried-over item. -/
theorem arrivedWith_arb (n : Lane) (src seq kind chan : Nat) (b : List Byte) : (n.arrivedWith (.arb src seq kind chan b)).arriving =
    n.arriving ++ [{ item := .arb src seq kind chan b, ord := n.streamOrd, index := n.streamQuad }] := by
  have hall : n.arriving.filter (fun y => !(y.carried && (StreamItem.arb src seq kind chan b).sameSlot y.item)) = n.arriving :=
    List.filter_eq_self.mpr fun y _ => by rw [show (StreamItem.arb src seq kind chan b).sameSlot y.item = false from rfl, Bool.and_false]; rfl
  exact congrArg (· ++ _) hall

/-! #### An exclusive frame taken (R315, R326) -/

/-- A spare slot without an owner goes to the sender of its frame (R326). -/
def Chip.claimSpare (c : Chip) (e : SchedEntry) (node : Nat) : Chip :=
  if e.spare && (c.entryOwner e).isNone then c.modDev (fun d => { d with spares := d.spares ++ [{ slot := e.code, owner := node }] }) else c

/-- The item of an exclusive frame (R315). -/
def Frame.exclItem (f : Frame) (e : SchedEntry) : StreamItem :=
  .excl (f.slot / 32768) (f.slot % 512) f.counter f.matrix (hasBit f.flags 0) (hasBit f.flags 1) (f.flags.toNat / 4) (bytesAt f.payload 0 (16 * e.quads))

/-- The lane has seen a valid frame (R329). -/
def Chip.sawFrame (c : Chip) (l : LaneId) : Chip := c.modNet l (fun n => { n with cycleSeen := true, frameSeen := true })

theorem takeExcl_of_entry {f : Frame} {e : SchedEntry} (h : c.frameEntry f = some e) : c.takeExcl l f =
    if ((c.claimSpare e f.node).sawFrame l).rxEntry e && ((c.claimSpare e f.node).sawFrame l).inService l then
      ((c.claimSpare e f.node).sawFrame l).arrive l (f.exclItem e) else (c.claimSpare e f.node).sawFrame l := by
  unfold Chip.takeExcl
  dsimp only
  rw [h]
  rfl

theorem claimSpare_takes (c : Chip) (l : LaneId) (e : SchedEntry) (node : Nat) : Takes l c (c.claimSpare e node) :=
  takes_ite ⟨planeWork_modDev c l _ rfl, rfl⟩ (takes_refl l c)

theorem takeExcl_takes (c : Chip) (l : LaneId) (f : Frame) : Takes l c (c.takeExcl l f) := by
  cases h : c.frameEntry f with
  | none =>
    unfold Chip.takeExcl
    dsimp only
    rw [h]
    exact takes_refl l c
  | some e =>
    rw [takeExcl_of_entry h]
    have hsaw : Takes l (c.claimSpare e f.node) ((c.claimSpare e f.node).sawFrame l) := takes_modNet _ l _ fun _ => rfl
    exact ((claimSpare_takes c l e f.node).trans hsaw).trans (takes_ite (arrive_takes ..) (takes_refl l _))

theorem inService_sawFrame (c : Chip) (l : LaneId) : (c.sawFrame l).inService l = c.inService l := by
  unfold Chip.inService Chip.sawFrame
  rw [netOf_modNet]

/-- The items of a received slot join those that the lane streams (R315). -/
theorem takeExcl_received {f : Frame} {e : SchedEntry} (h : c.frameEntry f = some e) (hspare : e.spare = false) (hrx : c.rxEntry e = true)
    (hservice : c.inService l = true) : c.takeExcl l f = (c.sawFrame l).arrive l (f.exclItem e) := by
  have hclaim : c.claimSpare e f.node = c := if_neg (by rw [hspare]; exact Bool.false_ne_true)
  have hcond : ((c.sawFrame l).rxEntry e && (c.sawFrame l).inService l) = true := by
    rw [inService_sawFrame, hservice, Bool.and_true]
    exact hrx
  rw [takeExcl_of_entry h, hclaim, hcond]
  rfl

theorem takeExcl_claims {f : Frame} {e : SchedEntry} (h : c.frameEntry f = some e) (hspare : e.spare = true) (howner : c.entryOwner e = none) :
    (c.takeExcl l f).dev = { c.dev with spares := c.dev.spares ++ [{ slot := e.code, owner := f.node }] } := by
  have hclaim : (c.claimSpare e f.node).dev = { c.dev with spares := c.dev.spares ++ [{ slot := e.code, owner := f.node }] } := by
    unfold Chip.claimSpare
    rw [hspare, howner]
    rfl
  rw [takeExcl_of_entry h]
  split
  · exact (arrive_traffic _ l _).dev.trans hclaim
  · exact hclaim

/-! #### An arbitrating frame taken (R331, R332, R334) -/

theorem takeCredit_field (n : Ocgal) (f : Frame) {α : Type} (p : Ocgal → α) (hp : ∀ (n : Ocgal) xs, p { n with credits := xs } = p n) :
    p (n.takeCredit f) = p n := by
  unfold Ocgal.takeCredit
  dsimp only
  split
  · exact (hp _ _).trans (hp _ _)
  · exact hp _ _

/-- The unit with the counts and the sequence number that an arbitrating frame brings (R306, R331). -/
def Ocgal.tookArb (n : Ocgal) (f : Frame) : Ocgal :=
  { (n.takeCredit f) with lastSeq := n.lastSeq.filter (fun e => e.1 != f.node) ++ [(f.node, f.word)], frameSeen := true }

/-- The item of an arbitrating frame (R334). -/
def Frame.arbItem (f : Frame) (p : Nat) : StreamItem :=
  .arb f.node f.word (fld f.payload 1 1) (p / 2) (bytesAt f.payload 16 (16 * f.quads - 16))

theorem takeArb_eq (c : Chip) (l : LaneId) (p : Nat) (f : Frame) : c.takeArb l p f =
    if (c.modNet l (fun n => n.tookArb f)).inService l && decide (fld f.payload 1 1 = 2 ∨ fld f.payload 1 1 = 3) then
      if f.typ = 3 ∧ (c.modNet l (fun n => n.tookArb f)).bcastFull l = true then
        (c.modNet l (fun n => n.tookArb f)).modNet l (fun n => { n with bcDropped := n.bcDropped + 1 })
      else (c.modNet l (fun n => n.tookArb f)).arrive l (f.arbItem p)
    else c.modNet l (fun n => n.tookArb f) := rfl

theorem takeArb_takes (c : Chip) (l : LaneId) (p : Nat) (f : Frame) : Takes l c (c.takeArb l p f) := by
  rw [takeArb_eq]
  have htook : Takes l c (c.modNet l (fun n => n.tookArb f)) :=
    takes_modNet c l _ fun n => takeCredit_field n f Ocgal.forwarded fun _ _ => rfl
  exact htook.trans (takes_ite (takes_ite (takes_modNet _ l _ fun _ => rfl) (arrive_takes ..)) (takes_refl l _))

theorem takeArb_dev (c : Chip) (l : LaneId) (p : Nat) (f : Frame) : (c.takeArb l p f).dev = c.dev := by
  rw [takeArb_eq]
  split
  · split
    · rfl
    · exact (arrive_traffic _ l _).dev
  · rfl

theorem takeArb_lastSeq (c : Chip) (l : LaneId) (p : Nat) (f : Frame) :
    ((c.takeArb l p f).netOf l).lastSeq = (c.netOf l).lastSeq.filter (fun e => e.1 != f.node) ++ [(f.node, f.word)] := by
  have htook : ((c.modNet l (fun n => n.tookArb f)).netOf l).lastSeq = (c.netOf l).lastSeq.filter (fun e => e.1 != f.node) ++ [(f.node, f.word)] := by
    rw [netOf_modNet]
    rfl
  rw [takeArb_eq]
  split
  · split
    · rw [netOf_modNet]
      exact htook
    · exact (congrArg (fun n : Lane => n.net.lastSeq) (arrive_lane _ l _)).trans htook
  · exact htook

/-- A host frame of a lane in SERVICE joins the items that it streams, unless its broadcast finds the area full (R332, R334). -/
theorem takeArb_arrives {p : Nat} {f : Frame} (hkind : fld f.payload 1 1 = 2) (hservice : c.inService l = true)
    (hroom : ¬(f.typ = 3 ∧ c.bcastFull l = true)) : c.takeArb l p f = (c.modNet l (fun n => n.tookArb f)).arrive l (f.arbItem p) := by
  have hstays : (c.modNet l (fun n => n.tookArb f)).inService l = true := by
    unfold Chip.inService at hservice ⊢
    rw [netOf_modNet]
    exact (congrArg (fun ph => decide (ph = NetPhase.service)) (takeCredit_field (c.netOf l) f Ocgal.phase fun _ _ => rfl)).trans hservice
  have hfull : (c.modNet l (fun n => n.tookArb f)).bcastFull l = c.bcastFull l := by
    have hhost : ((c.modNet l (fun n => n.tookArb f)).netOf l).host = (c.netOf l).host := by
      rw [netOf_modNet]
      exact takeCredit_field (c.netOf l) f Ocgal.host fun _ _ => rfl
    have harriving : ((c.modNet l (fun n => n.tookArb f)).lane l).arriving = (c.lane l).arriving :=
      modLane_keeps c l l _ Lane.arriving fun _ => rfl
    unfold Chip.bcastFull
    rw [hhost, harriving]
  rw [takeArb_eq, hstays, hkind, hfull, if_neg hroom]
  rfl

end

end Sys2Proof.Machine

namespace Sys2Proof.Machine
open Sys2Proof


/-! ### FRAME_RECEIVED (R303, R306) -/

/-- A frame with this unit's type field taken, or discarded for its first failing check (R306). -/
def Chip.sortFrame (c : Chip) (l : LaneId) (p : Nat) (b : List Byte) : Chip :=
  match frameCause l (Machine.frameOf b) with
  | some k => c.frameFails l p k
  | none =>
    if (Machine.frameOf b).typ = 1 then (match c.exclCause l p (Machine.frameOf b) with | some k => c.frameFails l p k | none => c.takeExcl l (Machine.frameOf b))
    else if (Machine.frameOf b).typ = 2 ∨ (Machine.frameOf b).typ = 3 then
      (match c.arbCause l p (Machine.frameOf b) (frameSpan b) with
      | some k => c.frameFails l p k
      | none => if c.frameDup l (Machine.frameOf b) then c else c.takeArb l p (Machine.frameOf b))
    else (match c.syncCause l p (Machine.frameOf b) (frameSpan b) with
      | some k => c.frameFails l p k
      | none => c.modNet l (fun n => { n with frameSeen := true }))

/-- What a lane does with a frame once it has been passed on (R303, R306). -/
def Chip.receive (c : Chip) (l : LaneId) (p : Nat) (b : List Byte) : Chip :=
  if !c.runs l then c
  else if (Machine.frameOf b).etherType ≠ c.parN Par.netEthertype then c.modNet l (fun n => { n with foreign := n.foreign + 1 })
  else if !c.netReceives l then c
  else c.sortFrame l p b

section
variable {l : LaneId} {c : Chip} {p : Nat} {b : List Byte}

theorem sortFrame_takes (c : Chip) (l : LaneId) (p : Nat) (b : List Byte) : Takes l c (c.sortFrame l p b) := by
  unfold Chip.sortFrame
  split
  · exact frameFails_takes ..
  · refine takes_ite ?_ (takes_ite ?_ ?_)
    · split
      · exact frameFails_takes ..
      · exact takeExcl_takes ..
    · split
      · exact frameFails_takes ..
      · exact takes_ite (takes_refl l c) (takeArb_takes ..)
    · split
      · exact frameFails_takes ..
      · exact takes_modNet c l _ fun _ => rfl

theorem receive_takes (c : Chip) (l : LaneId) (p : Nat) (b : List Byte) : Takes l c (c.receive l p b) :=
  takes_ite (takes_refl l c) (takes_ite (takes_modNet c l _ fun _ => rfl) (takes_ite (takes_refl l c) (sortFrame_takes ..)))

theorem receive_of_halted (h : c.runs l = false) (p : Nat) (b : List Byte) : c.receive l p b = c := if_pos (by rw [h]; rfl)

theorem receive_of_foreign (hruns : c.runs l = true) (h : (frameOf b).etherType ≠ c.parN Par.netEthertype) (p : Nat) :
    c.receive l p b = c.modNet l (fun n => { n with foreign := n.foreign + 1 }) := by
  unfold Chip.receive
  rw [hruns]
  exact if_pos h

theorem receive_of_known (hruns : c.runs l = true) (h : (frameOf b).etherType = c.parN Par.netEthertype) (hreceives : c.netReceives l = true) (p : Nat) :
    c.receive l p b = c.sortFrame l p b := by
  unfold Chip.receive
  rw [hruns, if_neg (not_not_intro h), hreceives]
  rfl

theorem sortFrame_of_cause {cause : Nat} (h : frameCause l (frameOf b) = some cause) (c : Chip) (p : Nat) :
    c.sortFrame l p b = c.frameFails l p cause := by
  unfold Chip.sortFrame
  rw [h]

theorem sortFrame_of_excl (hsound : frameCause l (frameOf b) = none) (htyp : (frameOf b).typ = 1) (h : c.exclCause l p (frameOf b) = none) :
    c.sortFrame l p b = c.takeExcl l (frameOf b) := by
  unfold Chip.sortFrame
  rw [hsound, h]
  exact if_pos htyp

theorem sortFrame_of_arb (hsound : frameCause l (frameOf b) = none) (htyp : (frameOf b).typ = 2 ∨ (frameOf b).typ = 3)
    (h : c.arbCause l p (frameOf b) (frameSpan b) = none) (hnew : c.frameDup l (frameOf b) = false) :
    c.sortFrame l p b = c.takeArb l p (frameOf b) := by
  unfold Chip.sortFrame
  have hnot : ¬(frameOf b).typ = 1 := by omega
  rw [hsound, h, hnew]
  dsimp only
  rw [if_neg hnot, if_pos htyp]
  rfl

end

theorem frameReceived_of_closed {c : Chip} {l : LaneId} {k : Fin 4} (h : (c.portOf l k.val).up = false ∨ (c.portOf l k.val).fenced = true) (b : List Byte) :
    frameReceived l k b c = c := if_pos h

theorem frameReceived_of_open {c : Chip} {l : LaneId} {k : Fin 4} (hup : (c.portOf l k.val).up = true) (hsound : (c.portOf l k.val).fenced = false)
    (b : List Byte) : frameReceived l k b c = (c.forward l k.val b).receive l k.val b := by
  have hopen : ¬((c.portOf l k.val).up = false ∨ (c.portOf l k.val).fenced = true) := by
    rw [hup, hsound]
    decide
  exact if_neg hopen

/-! #### The lane past the forwarding -/

section
variable {l : LaneId} {q n : Nat} {c d : Chip}

theorem Forwards.runs (h : Forwards l q n c d) : d.runs l = c.runs l :=
  h.field (fun n => n.boot.powerGood && !n.boot.fenced) fun _ => rfl

theorem Forwards.netReceives (h : Forwards l q n c d) : d.netReceives l = c.netReceives l :=
  h.field (fun n => !decide (n.net.phase = .down ∨ n.net.phase = .test) && !n.net.moverFrozen) fun _ => rfl

theorem Forwards.inService (h : Forwards l q n c d) : d.inService l = c.inService l := h.field (fun n => decide (n.net.phase = .service)) fun _ => rfl

theorem Forwards.parN (h : Forwards l q n c d) (p : PInfo) (i : Nat) : d.parN p i = c.parN p i :=
  congrArg (fun g : CfgState => (p.at g.ws i).toNat) h.cfg

theorem Forwards.frameEntry (h : Forwards l q n c d) (f : Frame) : d.frameEntry f = c.frameEntry f := by
  unfold Chip.frameEntry
  rw [h.cfg]

theorem Forwards.spares (h : Forwards l q n c d) : d.dev.spares = c.dev.spares := (congrArg Dev.spares h.dev :)

theorem Forwards.entryOwner (h : Forwards l q n c d) (e : SchedEntry) : d.entryOwner e = c.entryOwner e := by
  unfold Chip.entryOwner
  rw [h.spares]

theorem Forwards.rxEntry (h : Forwards l q n c d) (e : SchedEntry) : d.rxEntry e = c.rxEntry e := by
  simp only [Chip.rxEntry, Chip.ownEntries, Chip.keySlot, h.entryOwner, h.parN, h.cfg]

theorem Forwards.frameDup (h : Forwards l q n c d) (f : Frame) : d.frameDup l f = c.frameDup l f := by
  have hseq : (d.netOf l).seqOf f.node = (c.netOf l).seqOf f.node := h.field (fun n => n.net.seqOf f.node) fun _ => rfl
  unfold Chip.frameDup
  rw [hseq]

theorem Forwards.bcastFull (h : Forwards l q n c d) : d.bcastFull l = c.bcastFull l := by
  have hhost : (d.netOf l).host = (c.netOf l).host := h.field (fun n => n.net.host) fun _ => rfl
  have harriving : (d.lane l).arriving = (c.lane l).arriving := h.field Lane.arriving fun _ => rfl
  unfold Chip.bcastFull
  rw [hhost, harriving]

end

/-! #### What a received frame leaves -/

section
variable {c : Chip} {l : LaneId} {k : Fin 4} {b : List Byte}

/-- A frame between two working ports is passed on and counted, also by a fenced lane, which takes nothing of it (R11, R303). -/
theorem frameReceived_forwards (hworks : (c.portOf l k.val).works = true) (hout : (c.portOf l (otherPort k.val)).works = true)
    (hpower : (c.lane l).power.net = true) (hsound : (c.lane l).boot.fenced = false ∨ (c.lane l).boot.fenceNet = false) :
    PlaneWork l c (frameReceived l k b c) ∧ ((frameReceived l k b c).netOf l).forwarded = (c.netOf l).forwarded + 1 ∧
      ((c.lane l).boot.fenced = true → ((frameReceived l k b c).lane l).arriving = (c.lane l).arriving) := by
  have hforwarding : c.forwarding l k.val = true := by
    unfold Chip.forwarding
    rw [hworks, hout, hpower]
    rcases hsound with h | h <;> rw [h] <;> simp
  have hopen : (c.portOf l k.val).up = true ∧ (c.portOf l k.val).fenced = false := by
    simp only [NetPort.works, Bool.and_eq_true, Bool.not_eq_true'] at hworks
    exact ⟨hworks.1.1, hworks.2⟩
  have hforward := forward_of_forwarding hforwarding b
  have htakes := receive_takes (c.forward l k.val b) l k.val b
  rw [frameReceived_of_open hopen.1 hopen.2]
  refine ⟨hforward.toPlaneWork.trans htakes.toPlaneWork, htakes.counted.trans hforward.counted, fun hfenced => ?_⟩
  have hhalted : (c.forward l k.val b).runs l = false := by
    rw [hforward.runs, Chip.runs, hfenced, Bool.not_true, Bool.and_false]
  rw [receive_of_halted hhalted]
  exact hforward.field Lane.arriving fun _ => rfl

/-- A frame that the plane does not know is only counted (R306). -/
theorem frameReceived_foreign (hup : (c.portOf l k.val).up = true) (hsound : (c.portOf l k.val).fenced = false) (hruns : c.runs l = true)
    (h : (frameOf b).etherType ≠ c.parN Par.netEthertype) :
    PlaneWork l c (frameReceived l k b c) ∧ (frameReceived l k b c).dev.plain = c.dev.plain ∧
      ((frameReceived l k b c).netOf l).foreign = (c.netOf l).foreign + 1 ∧
      ((frameReceived l k b c).lane l).arriving = (c.lane l).arriving ∧ ((frameReceived l k b c).netOf l).phase = (c.netOf l).phase := by
  obtain ⟨n, hforward⟩ := forward_forwards c l k.val b
  have heq : frameReceived l k b c = (c.forward l k.val b).modNet l (fun n => { n with foreign := n.foreign + 1 }) := by
    rw [frameReceived_of_open hup hsound, receive_of_foreign (hforward.runs.trans hruns) (by rw [hforward.parN]; exact h)]
  rw [heq, netOf_modNet]
  refine ⟨hforward.toPlaneWork.trans (planeWork_modNet ..), hforward.dev, ?_, ?_, ?_⟩
  · exact congrArg (· + 1) (hforward.field (fun n => n.net.foreign) fun _ => rfl)
  · refine (modLane_keeps (c.forward l k.val b) l l (fun n => { n with net := { n.net with foreign := n.net.foreign + 1 } }) Lane.arriving ?_).trans (hforward.field Lane.arriving fun _ => rfl)
    exact fun _ => rfl
  · exact hforward.field (fun n => n.net.phase) fun _ => rfl

/-- The frame is for this plane, at a port and a lane that receive (R303, R306). -/
def Chip.hears (c : Chip) (l : LaneId) (p : Nat) (b : List Byte) : Prop :=
  (c.portOf l p).up = true ∧ (c.portOf l p).fenced = false ∧ c.runs l = true ∧ (Machine.frameOf b).etherType = c.parN Par.netEthertype ∧ c.netReceives l = true

theorem frameReceived_of_hears (h : c.hears l k.val b) : frameReceived l k b c = (c.forward l k.val b).sortFrame l k.val b := by
  obtain ⟨hup, hsound, hruns, htype, hreceives⟩ := h
  obtain ⟨n, hforward⟩ := forward_forwards c l k.val b
  rw [frameReceived_of_open hup hsound, receive_of_known (hforward.runs.trans hruns) (by rw [hforward.parN]; exact htype)
    (hforward.netReceives.trans hreceives)]

theorem frameReceived_work (h : c.hears l k.val b) : PlaneWork l c (frameReceived l k b c) := by
  obtain ⟨n, hforward⟩ := forward_forwards c l k.val b
  rw [frameReceived_of_hears h]
  exact hforward.toPlaneWork.trans (sortFrame_takes ..).toPlaneWork

/-- A frame that fails a check is counted for its port and its cause (R306). -/
theorem frameReceived_fails (h : c.hears l k.val b) {cause : Nat} (hcause : frameCause l (frameOf b) = some cause) :
    ∃ q, ((frameReceived l k b c).netOf l).ports = modNth (modNth (c.netOf l).ports (otherPort k.val) (fun _ => q)) k.val (fun x => x.failed cause) ∧
      ((frameReceived l k b c).netOf l).failed = satInc 65535 (c.netOf l).failed ∧
      ((frameReceived l k b c).lane l).arriving = (c.lane l).arriving := by
  obtain ⟨n, hforward⟩ := forward_forwards c l k.val b
  obtain ⟨q, hq⟩ := hforward.ports
  rw [frameReceived_of_hears h, sortFrame_of_cause hcause]
  refine ⟨q, ?_, ?_, ?_⟩
  · rw [← hq]
    exact frameFails_lane _ l k.val cause (fun n => n.net.ports) fun _ _ => rfl
  · exact (frameFails_lane _ l k.val cause (fun n => n.net.failed) fun _ _ => rfl).trans
      (congrArg (satInc 65535) (hforward.field (fun n => n.net.failed) fun _ => rfl))
  · exact (frameFails_lane _ l k.val cause Lane.arriving fun _ _ => rfl).trans (hforward.field Lane.arriving fun _ => rfl)

/-- An exclusive frame of a received slot joins the items that the lane streams (R126, R127, R315). -/
theorem frameReceived_streams (h : c.hears l k.val b) (hsound : frameCause l (frameOf b) = none) (htyp : (frameOf b).typ = 1)
    (hchecks : (c.forward l k.val b).exclCause l k.val (frameOf b) = none) {e : SchedEntry} (hentry : c.frameEntry (frameOf b) = some e)
    (hspare : e.spare = false) (hrx : c.rxEntry e = true) (hservice : c.inService l = true) :
    (frameReceived l k b c).dev.plain = c.dev.plain ∧
      ((frameReceived l k b c).lane l).arriving = ((c.lane l).arrivedWith ((frameOf b).exclItem e)).arriving := by
  obtain ⟨n, hforward⟩ := forward_forwards c l k.val b
  rw [frameReceived_of_hears h, sortFrame_of_excl hsound htyp hchecks,
    takeExcl_received ((hforward.frameEntry _).trans hentry) hspare ((hforward.rxEntry e).trans hrx) (hforward.inService.trans hservice)]
  refine ⟨(congrArg Dev.plain (arrive_traffic _ l _).dev).trans hforward.dev, ?_⟩
  refine (congrArg Lane.arriving (arrive_lane _ l _)).trans ?_
  have hsaw : ∀ f : Lane → List Arriving, (∀ (n : Lane) m, f { n with net := m } = f n) → (∀ n : Lane, f n.unforwarded = f n) →
      f (((c.forward l k.val b).sawFrame l).lanes.get l) = f (c.lanes.get l) := fun f hf hg =>
    (modLane_keeps _ l l _ f fun _ => hf _ _).trans (hforward.field f hg)
  exact hsaw (fun n => (n.arrivedWith ((frameOf b).exclItem e)).arriving) (fun _ _ => rfl) fun _ => rfl

/-- In a spare slot without an owner a valid frame makes its sender the owner (R326). -/
theorem frameReceived_claims (h : c.hears l k.val b) (hsound : frameCause l (frameOf b) = none) (htyp : (frameOf b).typ = 1)
    (hchecks : (c.forward l k.val b).exclCause l k.val (frameOf b) = none) {e : SchedEntry} (hentry : c.frameEntry (frameOf b) = some e)
    (hspare : e.spare = true) (howner : c.entryOwner e = none) :
    (frameReceived l k b c).dev.plain = { c.dev.plain with spares := c.dev.spares ++ [{ slot := e.code, owner := (frameOf b).node }] } := by
  obtain ⟨n, hforward⟩ := forward_forwards c l k.val b
  rw [frameReceived_of_hears h, sortFrame_of_excl hsound htyp hchecks,
    takeExcl_claims ((hforward.frameEntry _).trans hentry) hspare ((hforward.entryOwner e).trans howner), hforward.spares]
  exact (congrArg (fun d : Dev => { d with spares := c.dev.spares ++ [({ slot := e.code, owner := (frameOf b).node } : SpareOwner)] }) hforward.dev :)

/-- A new arbitrating frame brings its sequence number, and a host frame of it joins the items that the lane streams (R330, R334). -/
theorem frameReceived_arb (h : c.hears l k.val b) (hsound : frameCause l (frameOf b) = none) (htyp : (frameOf b).typ = 2 ∨ (frameOf b).typ = 3)
    (hchecks : (c.forward l k.val b).arbCause l k.val (frameOf b) (frameSpan b) = none) (hnew : c.frameDup l (frameOf b) = false) :
    (frameReceived l k b c).dev.plain = c.dev.plain ∧
      ((frameReceived l k b c).netOf l).lastSeq = (c.netOf l).lastSeq.filter (fun e => e.1 != (frameOf b).node) ++ [((frameOf b).node, (frameOf b).word)] ∧
      (fld (frameOf b).payload 1 1 = 2 → c.inService l = true → ((frameOf b).typ = 2 ∨ c.bcastFull l = false) →
        ((frameReceived l k b c).lane l).arriving = ((c.lane l).arrivedWith ((frameOf b).arbItem k.val)).arriving) := by
  obtain ⟨n, hforward⟩ := forward_forwards c l k.val b
  rw [frameReceived_of_hears h, sortFrame_of_arb hsound htyp hchecks ((hforward.frameDup _).trans hnew)]
  refine ⟨(congrArg Dev.plain (takeArb_dev ..)).trans hforward.dev, ?_, fun hkind hservice hroom => ?_⟩
  · rw [takeArb_lastSeq]
    exact congrArg (fun xs : List (Nat × Nat) => xs.filter (fun e => e.1 != (frameOf b).node) ++ [((frameOf b).node, (frameOf b).word)])
      (hforward.field (fun n => n.net.lastSeq) fun _ => rfl)
  · have hspace : ¬((frameOf b).typ = 3 ∧ (c.forward l k.val b).bcastFull l = true) := by
      rw [hforward.bcastFull]
      rintro ⟨h3, hfull⟩
      rcases hroom with h2 | hempty
      · omega
      · exact Bool.false_ne_true (hempty.symm.trans hfull)
    rw [takeArb_arrives hkind (hforward.inService.trans hservice) hspace]
    refine (congrArg Lane.arriving (arrive_lane _ l _)).trans ?_
    have htook : ∀ f : Lane → List Arriving, (∀ (n : Lane) m, f { n with net := m } = f n) → (∀ n : Lane, f n.unforwarded = f n) →
        f (((c.forward l k.val b).modNet l (fun n => n.tookArb (frameOf b))).lanes.get l) = f (c.lanes.get l) := fun f hf hg =>
      (modLane_keeps _ l l _ f fun _ => hf _ _).trans (hforward.field f hg)
    exact htook (fun n => (n.arrivedWith ((frameOf b).arbItem k.val)).arriving) (fun _ _ => rfl) fun _ => rfl

end

end Sys2Proof.Machine

namespace Sys2Proof.Machine
open Sys2Proof


/-! ### The clock behind a frame (R344, R345) -/

/-- A unit less what a step of its clock moves with it (R344). -/
def Ocgal.unstepped (n : Ocgal) : Ocgal := { n with start := 0, ports := [] }

/-- A lane whose clock follows a frame: of its unit only the cycle start and the ports move with a step. -/
structure ClockWork (l : LaneId) (c d : Chip) : Prop extends PlaneWork l c d where
  net : (d.netOf l).unstepped = (c.netOf l).unstepped

section
variable {l : LaneId} {c d : Chip}

theorem ClockWork.trans {e : Chip} (h : ClockWork l c d) (h' : ClockWork l d e) : ClockWork l c e :=
  ⟨h.toPlaneWork.trans h'.toPlaneWork, h'.net.trans h.net⟩

theorem ClockWork.field (h : ClockWork l c d) {α : Type} (p : Ocgal → α) (hp : ∀ n : Ocgal, p n.unstepped = p n) :
    p (d.netOf l) = p (c.netOf l) := by rw [← hp, h.net, hp]

theorem clockWork_refl (l : LaneId) (c : Chip) : ClockWork l c c := ⟨.refl l c, rfl⟩

theorem clockWork_ite {p : Prop} [Decidable p] {a b : Chip} (ha : ClockWork l c a) (hb : ClockWork l c b) : ClockWork l c (if p then a else b) := by
  split
  · exact ha
  · exact hb

theorem clockWork_modClock (c : Chip) (l : LaneId) (f : Clock → Clock) : ClockWork l c (c.modClock l f) :=
  ⟨planeWork_modClock c l f, congrArg Ocgal.unstepped (netOf_modClock c l l f)⟩

theorem netFault_net (c : Chip) (l : LaneId) (code : Nat) : (c.netFault l code).netOf l = c.netOf l :=
  localFault_lane c l l code 0x0C 0 l.idx Lane.net fun _ _ => rfl

theorem netFault_work (c : Chip) (l : LaneId) (code : Nat) : PlaneWork l c (c.netFault l code) := planeWork_localFault ..

theorem clockWork_netFault (c : Chip) (l : LaneId) (code : Nat) : ClockWork l c (c.netFault l code) :=
  ⟨netFault_work c l code, congrArg Ocgal.unstepped (netFault_net c l code)⟩

theorem clockWork_stepped (c : Chip) (l : LaneId) (o : Int) : ClockWork l c (c.modNet l (fun n => n.stepped o)) :=
  ⟨planeWork_modNet c l _, (congrArg Ocgal.unstepped (netOf_modNet c l _)).trans rfl⟩

theorem clockOffset_work (c : Chip) (l : LaneId) (o : Int) : ClockWork l c (c.clockOffset l o) := by
  unfold Chip.clockOffset
  dsimp only
  exact clockWork_ite ((clockWork_modClock ..).trans (clockWork_stepped ..))
    (clockWork_ite ((clockWork_modClock ..).trans (clockWork_netFault ..)) (clockWork_modClock ..))

theorem clockJudge_work (c : Chip) (l : LaneId) (o : Int) : ClockWork l c (c.clockJudge l o) := by
  unfold Chip.clockJudge
  dsimp only
  exact clockWork_ite ((clockWork_modClock ..).trans (clockWork_netFault ..)) (clockWork_modClock ..)

theorem followClock_of_not_service (h : (c.netOf l).phase ≠ .service) (f : Frame) (t : Nat) : ClockWork l c (c.followClock l f t) := by
  unfold Chip.followClock
  dsimp only
  rw [if_neg fun hs => h hs.1]
  exact (clockOffset_work ..).trans (clockJudge_work ..)

theorem clearLive_net (c : Chip) (l : LaneId) : c.clearLive.netOf l = c.netOf l := by
  rw [Chip.netOf, lane_eq, clearLive_lanes]
  rfl

/-- A lane in SERVICE follows the frame, or is beyond TIME.STEP_TH and recovers; it keeps the reference that it follows (R344). -/
theorem followClock_service (hservice : (c.netOf l).phase = .service) (href : (c.netOf l).isRef = false) (f : Frame) (t : Nat) :
    PlaneWork l c (c.followClock l f t) ∧ ((c.followClock l f t).netOf l).isRef = false ∧
      ((c.followClock l f t).netOf l).refNode = (c.netOf l).refNode ∧
      (((c.followClock l f t).netOf l).phase = .service ∨ ((c.followClock l f t).netOf l).phase = .recovery) := by
  unfold Chip.followClock
  dsimp only
  generalize ((c.lane l).clock.nt : Int) - ((t : Int) + c.refDelay l f.node) = o
  split
  · have hnet : ∀ d : Chip, ((d.netPhase l .recovery).clearLive.netOf l).isRef = false ∧
        ((d.netPhase l .recovery).clearLive.netOf l).refNode = (d.netOf l).refNode ∧
        ((d.netPhase l .recovery).clearLive.netOf l).phase = .recovery := by
      intro d
      rw [clearLive_net, Chip.netPhase, netOf_modClock, netOf_modNet]
      exact ⟨rfl, rfl, rfl⟩
    obtain ⟨hout, hnode, hphase⟩ := hnet ((c.netFault l 0x2104).modClock l (fun k => { k with gotSync := true }))
    refine ⟨((clockWork_netFault c l _).trans (clockWork_modClock ..)).toPlaneWork.trans ((planeWork_netPhase ..).trans (planeWork_clearLive ..)), hout,
      hnode.trans ?_, .inr hphase⟩
    rw [netOf_modClock, netFault_net]
  · have h := (clockOffset_work c l o).trans (clockJudge_work (c.clockOffset l o) l o)
    exact ⟨h.toPlaneWork, (h.field Ocgal.isRef fun _ => rfl).trans href, h.field Ocgal.refNode fun _ => rfl,
      .inl ((h.field Ocgal.phase fun _ => rfl).trans hservice)⟩

/-! ### Integration (R319) -/

theorem syncFollows_congr (hcfg : d.dev.cfg = c.dev.cfg) (hlast : (d.netOf l).lastSync = (c.netOf l).lastSync) (f : Frame) (at_ : Nat) :
    d.syncFollows l f at_ = c.syncFollows l f at_ := by
  have hperiod : d.period = c.period := congrArg (fun g : CfgState => periodOf g.ws g.sched) hcfg
  unfold Chip.syncFollows Chip.netGuard
  rw [hlast, hperiod, hcfg]

/-- The unit of a lane that integrates on a frame (R319). -/
def Ocgal.joined (n : Ocgal) (f : Frame) (start : Nat) : Ocgal :=
  { n with phase := .integrate, counter := f.counter, matrix := f.matrix, start := start, integrated := 0, lastSync := none, refNode := f.node
           isRef := false, heard := true, cycleSeen := true }

theorem integrate_of_follows {f : Frame} {at_ : Nat} (h : c.syncFollows l f at_ = true) (start : Nat) :
    c.integrate l f at_ start = c.modNet l (fun n => n.joined f start) := if_pos h

theorem integrate_of_not {f : Frame} {at_ : Nat} (h : c.syncFollows l f at_ = false) (start : Nat) : c.integrate l f at_ start =
    c.modNet l (fun n => { n with lastSync := some (f.counter, f.matrix, (c.lane l).clock.nt), heard := true, cycleSeen := true }) :=
  if_neg (h.trans_ne Bool.false_ne_true)

theorem integrate_work (c : Chip) (l : LaneId) (f : Frame) (at_ start : Nat) : PlaneWork l c (c.integrate l f at_ start) := by
  unfold Chip.integrate
  split
  · exact planeWork_modNet ..
  · exact planeWork_modNet ..

/-! ### Coldstart frames (R318, R319) -/

theorem modNet_nt (c : Chip) (l : LaneId) (f : Ocgal → Ocgal) : ((c.modNet l f).lane l).clock.nt = (c.lane l).clock.nt :=
  modLane_keeps c l l (fun n => { n with net := f n.net }) (fun n => n.clock.nt) fun _ => rfl

/-- The lane has seen a valid frame of the plane (R334). -/
def Chip.sawSync (c : Chip) (l : LaneId) : Chip := c.modNet l (fun n => { n with frameSeen := true })

theorem sawSync_net (c : Chip) (l : LaneId) : (c.sawSync l).netOf l = { c.netOf l with frameSeen := true } := netOf_modNet ..

theorem sawSync_nt (c : Chip) (l : LaneId) : ((c.sawSync l).lane l).clock.nt = (c.lane l).clock.nt := modNet_nt ..

theorem coldstartFrame_of_invalid {k : Fin 4} {b : List Byte} (h : c.syncValid l k.val b 0x10 = false) : coldstartFrame l k b c = c :=
  if_pos (by rw [h]; rfl)

theorem coldstartFrame_listens {k : Fin 4} {b : List Byte} (hvalid : c.syncValid l k.val b 0x10 = true) (hphase : (c.netOf l).phase = .listen) :
    coldstartFrame l k b c = (c.sawSync l).joinCold l (frameOf b) := by
  unfold coldstartFrame
  dsimp only
  rw [hvalid, hphase]
  rfl

theorem coldstartFrame_yields {k : Fin 4} {b : List Byte} (hvalid : c.syncValid l k.val b 0x10 = true) (hphase : (c.netOf l).phase = .coldstart)
    (hcold : (c.netOf l).coldFrames < 8)
    (hbetter : ranksBetter (coldRank (frameOf b)) (frameOf b).node (c.parN Par.netColdstartRank) (c.parN Par.netNodeId) = true) :
    coldstartFrame l k b c = (((c.sawSync l).netPhase l .listen).netFault l 0x2006).joinCold l (frameOf b) := by
  unfold coldstartFrame
  dsimp only
  rw [hvalid, hphase]
  dsimp only
  rw [if_neg (Nat.not_le.mpr hcold)]
  exact if_pos hbetter

theorem joinCold_work (h : (c.netOf l).phase ≠ .service) (f : Frame) : PlaneWork l c (c.joinCold l f) :=
  (followClock_of_not_service h f _).toPlaneWork.trans (integrate_work ..)

/-- Whether a lane out of SERVICE integrates on a frame is told by the frame before it (R319). -/
theorem follows_after (h : (c.netOf l).phase ≠ .service) (f : Frame) (t at_ : Nat) :
    (c.followClock l f t).syncFollows l f at_ = c.syncFollows l f at_ :=
  have hwork := followClock_of_not_service h f t
  syncFollows_congr hwork.cfg (hwork.field Ocgal.lastSync fun _ => rfl) f at_

theorem joinCold_integrates {f : Frame} (hphase : (c.netOf l).phase ≠ .service) (h : c.syncFollows l f (c.lane l).clock.nt = true) :
    (c.joinCold l f).netOf l = ((c.followClock l f (fld f.payload 8 8)).netOf l).joined f (fld f.payload 8 8 - sfdLag) := by
  unfold Chip.joinCold
  dsimp only
  rw [integrate_of_follows ((follows_after hphase f _ _).trans h), netOf_modNet]

theorem joinCold_waits {f : Frame} (hphase : (c.netOf l).phase ≠ .service) (h : c.syncFollows l f (c.lane l).clock.nt = false) :
    ((c.joinCold l f).netOf l).phase = (c.netOf l).phase ∧
      ((c.joinCold l f).netOf l).lastSync = some (f.counter, f.matrix, ((c.joinCold l f).lane l).clock.nt) := by
  have hwork := followClock_of_not_service hphase f (fld f.payload 8 8)
  unfold Chip.joinCold
  dsimp only
  rw [integrate_of_not ((follows_after hphase f _ _).trans h), netOf_modNet]
  refine ⟨hwork.field Ocgal.phase fun _ => rfl, ?_⟩
  exact congrArg (fun t => some (f.counter, f.matrix, t)) (modNet_nt ..).symm

theorem joinCold_phase {f : Frame} (hphase : (c.netOf l).phase ≠ .service) (hlast : (c.netOf l).lastSync = none) :
    ((c.joinCold l f).netOf l).phase = (c.netOf l).phase := by
  refine (joinCold_waits hphase ?_).1
  unfold Chip.syncFollows
  rw [hlast]

end

end Sys2Proof.Machine

namespace Sys2Proof.Machine
open Sys2Proof


/-! ### Coldstart and sync frames (R318, R319, R343, R346, R351) -/

section
variable {l : LaneId} {c : Chip} {k : Fin 4} {b : List Byte}

theorem sawSync_follows (c : Chip) (l : LaneId) (f : Frame) :
    (c.sawSync l).syncFollows l f ((c.sawSync l).lane l).clock.nt = c.syncFollows l f (c.lane l).clock.nt := by
  rw [sawSync_nt]
  exact syncFollows_congr (d := c.sawSync l) (c := c) rfl (congrArg Ocgal.lastSync (sawSync_net c l) :) f _

theorem sawSync_phase (c : Chip) (l : LaneId) : ((c.sawSync l).netOf l).phase = (c.netOf l).phase :=
  (congrArg Ocgal.phase (sawSync_net c l) :)

theorem sawSync_work (c : Chip) (l : LaneId) : PlaneWork l c (c.sawSync l) := planeWork_modNet ..

theorem phase_ne_service {n : Ocgal} {ph : NetPhase} (h : n.phase = ph) (hne : ph ≠ .service) : n.phase ≠ .service := h.trans_ne hne

/-- The second frame in a row integrates a lane in LISTEN (R319). -/
theorem coldstartFrame_integrates (hvalid : c.syncValid l k.val b 0x10 = true) (hphase : (c.netOf l).phase = .listen)
    (hfollows : c.syncFollows l (frameOf b) (c.lane l).clock.nt = true) : PlaneWork l c (coldstartFrame l k b c) ∧
      ∃ n : Ocgal, (coldstartFrame l k b c).netOf l = n.joined (frameOf b) (fld (frameOf b).payload 8 8 - sfdLag) := by
  have hout : ((c.sawSync l).netOf l).phase ≠ .service := phase_ne_service ((sawSync_phase c l).trans hphase) (by decide)
  rw [coldstartFrame_listens hvalid hphase]
  exact ⟨(sawSync_work c l).trans (joinCold_work hout _), _, joinCold_integrates hout ((sawSync_follows c l _).trans hfollows)⟩

/-- Any other frame is kept as the last one, and the lane stays in LISTEN (R319). -/
theorem coldstartFrame_waits (hvalid : c.syncValid l k.val b 0x10 = true) (hphase : (c.netOf l).phase = .listen)
    (hfollows : c.syncFollows l (frameOf b) (c.lane l).clock.nt = false) : PlaneWork l c (coldstartFrame l k b c) ∧
      ((coldstartFrame l k b c).netOf l).phase = .listen ∧ ((coldstartFrame l k b c).netOf l).lastSync =
        some ((frameOf b).counter, (frameOf b).matrix, ((coldstartFrame l k b c).lane l).clock.nt) := by
  have hout : ((c.sawSync l).netOf l).phase ≠ .service := phase_ne_service ((sawSync_phase c l).trans hphase) (by decide)
  obtain ⟨hlisten, hlast⟩ := joinCold_waits hout ((sawSync_follows c l _).trans hfollows)
  rw [coldstartFrame_listens hvalid hphase]
  exact ⟨(sawSync_work c l).trans (joinCold_work hout _), hlisten.trans ((sawSync_phase c l).trans hphase), hlast⟩

/-- A better rank ends COLDSTART (R318). -/
theorem coldstartFrame_ends (hvalid : c.syncValid l k.val b 0x10 = true) (hphase : (c.netOf l).phase = .coldstart)
    (hcold : (c.netOf l).coldFrames < 8)
    (hbetter : ranksBetter (fld (frameOf b).payload 0 1) (frameOf b).node (c.parN Par.netColdstartRank) (c.parN Par.netNodeId) = true) :
    PlaneWork l c (coldstartFrame l k b c) ∧ ((coldstartFrame l k b c).netOf l).phase = .listen := by
  have hnet : ((((c.sawSync l).netPhase l .listen).netFault l 0x2006).netOf l).phase = .listen ∧
      ((((c.sawSync l).netPhase l .listen).netFault l 0x2006).netOf l).lastSync = none := by
    rw [netFault_net, Chip.netPhase, netOf_modClock, netOf_modNet]
    exact ⟨rfl, rfl⟩
  obtain ⟨hlisten, hlast⟩ := hnet
  have hout := phase_ne_service hlisten (by decide)
  rw [coldstartFrame_yields hvalid hphase hcold hbetter]
  refine ⟨(((sawSync_work c l).trans (planeWork_netPhase ..)).trans (netFault_work ..)).trans (joinCold_work hout _), ?_⟩
  exact (joinCold_phase hout hlast).trans hlisten

/-! #### Sync frames -/

theorem syncFrame_of_invalid (h : c.syncValid l k.val b 0x11 = false) : syncFrame l k b c = c :=
  if_pos (by rw [h]; rfl)

/-- A sync frame of the right length is sorted by the phase of the lane. -/
theorem syncFrame_recovers (hvalid : c.syncValid l k.val b 0x11 = true) (hquads : (frameOf b).quads = 6) (hphase : (c.netOf l).phase = .recovery) :
    syncFrame l k b c = (c.sawSync l).joinSync l (frameOf b) := by
  unfold syncFrame
  dsimp only
  rw [hvalid, hquads, hphase]
  rfl

theorem syncFrame_hands_over (hvalid : c.syncValid l k.val b 0x11 = true) (hquads : (frameOf b).quads = 6) (hphase : (c.netOf l).phase = .service)
    (href : (c.netOf l).isRef = true)
    (hbetter : ranksBetter (fld (frameOf b).payload 0 1) (frameOf b).node (c.netOf l).refRank (c.netOf l).refNode = true) :
    syncFrame l k b c = (c.sawSync l).followRef l (frameOf b) := by
  unfold syncFrame
  dsimp only
  rw [hvalid, hquads, hphase, href, hbetter]
  rfl

theorem noteRef_net (c : Chip) (l : LaneId) (f : Frame) : ((c.noteRef l f).netOf l).refRank = fld f.payload 0 1 ∧
    ((c.noteRef l f).netOf l).refNode = f.node ∧ ((c.noteRef l f).netOf l).lastSync = (c.netOf l).lastSync ∧
      ((c.noteRef l f).netOf l).phase = (c.netOf l).phase := by
  rw [Chip.noteRef, netOf_modNet]
  exact ⟨rfl, rfl, rfl, rfl⟩

theorem noteRef_work (c : Chip) (l : LaneId) (f : Frame) : PlaneWork l c (c.noteRef l f) := planeWork_modNet ..

/-- A lane in RECOVERY integrates on its second sync frame in a row, and follows its reference (R319, R346). -/
theorem syncFrame_integrates (hvalid : c.syncValid l k.val b 0x11 = true) (hquads : (frameOf b).quads = 6) (hphase : (c.netOf l).phase = .recovery)
    (hfollows : c.syncFollows l (frameOf b) (c.lane l).clock.nt = true) : PlaneWork l c (syncFrame l k b c) ∧
      ∃ n : Ocgal, (syncFrame l k b c).netOf l = n.joined (frameOf b) (fld (frameOf b).payload 16 8) ∧ n.refRank = fld (frameOf b).payload 0 1 := by
  have hout : ((c.sawSync l).netOf l).phase ≠ .service := phase_ne_service ((sawSync_phase c l).trans hphase) (by decide)
  rw [syncFrame_recovers hvalid hquads hphase]
  have hclock := followClock_of_not_service hout (frameOf b) (fld (frameOf b).payload 8 8)
  have hfollow := follows_after hout (frameOf b) (fld (frameOf b).payload 8 8) ((c.sawSync l).lane l).clock.nt
  unfold Chip.joinSync
  generalize (c.sawSync l).followClock l (frameOf b) (fld (frameOf b).payload 8 8) = d at hclock hfollow
  obtain ⟨hrank, -, hlast, -⟩ := noteRef_net d l (frameOf b)
  have hnoted : (d.noteRef l (frameOf b)).syncFollows l (frameOf b) ((c.sawSync l).lane l).clock.nt = true :=
    (syncFollows_congr (noteRef_work d l _).cfg hlast _ _).trans (hfollow.trans ((sawSync_follows c l _).trans hfollows))
  refine ⟨(((sawSync_work c l).trans hclock.toPlaneWork).trans (noteRef_work ..)).trans (integrate_work ..), _, ?_, hrank⟩
  rw [integrate_of_follows hnoted, netOf_modNet]

/-! #### A reference that hears a better one (R351) -/

/-- A lane in SERVICE before its clock follows a reference: the reference is noted, and the lane is none any more (R351). -/
def Chip.yieldTo (c : Chip) (l : LaneId) (f : Frame) : Chip :=
  let d := (c.noteRef l f).modNet l (fun n => { n with isRef := false, candidate := false })
  let d := if (d.lane l).clock.tstate = .reference then d.modClock l (fun k => { k with tstate := .holdover }) else d
  if f.node ≠ (c.netOf l).refNode then d.netFault l 0x2105 else d

theorem followRef_eq (c : Chip) (l : LaneId) (f : Frame) :
    c.followRef l f = ((c.yieldTo l f).followClock l f (fld f.payload 8 8)).fixDelays l := by
  unfold Chip.followRef Chip.yieldTo
  dsimp only
  rw [if_congr decide_eq_true_iff rfl rfl]

theorem yieldTo_work (c : Chip) (l : LaneId) (f : Frame) : PlaneWork l c (c.yieldTo l f) ∧
    ((c.yieldTo l f).netOf l).isRef = false ∧ ((c.yieldTo l f).netOf l).refNode = f.node ∧ ((c.yieldTo l f).netOf l).phase = (c.netOf l).phase := by
  obtain ⟨-, hnode, -, hphase⟩ := noteRef_net c l f
  have hyields : ClockWork l ((c.noteRef l f).modNet l (fun n => { n with isRef := false, candidate := false })) (c.yieldTo l f) :=
    (clockWork_ite (clockWork_modClock ..) (clockWork_refl l _)).trans (clockWork_ite (clockWork_netFault ..) (clockWork_refl l _))
  have hnet := netOf_modNet (c.noteRef l f) l (fun n => { n with isRef := false, candidate := false })
  refine ⟨((noteRef_work c l f).trans (planeWork_modNet ..)).trans hyields.toPlaneWork, ?_, ?_, ?_⟩
  · exact (hyields.field Ocgal.isRef fun _ => rfl).trans (congrArg Ocgal.isRef hnet)
  · exact (hyields.field Ocgal.refNode fun _ => rfl).trans ((congrArg Ocgal.refNode hnet).trans hnode)
  · exact (hyields.field Ocgal.phase fun _ => rfl).trans ((congrArg Ocgal.phase hnet).trans hphase)

theorem fixDelays_field (c : Chip) (l : LaneId) {α : Type} (p : Ocgal → α) (hp : ∀ (n : Ocgal) a b, p { n with posA := a, posB := b } = p n)
    (hd : ∀ (n : Ocgal) d, p { n with lineDelays := d } = p n) : p ((c.fixDelays l).netOf l) = p (c.netOf l) := by
  have hfirst : p ((c.modNet l (fun n => { n with posA := c.netPosition l 0, posB := c.netPosition l 1 })).netOf l) = p (c.netOf l) := by
    rw [netOf_modNet, hp]
  unfold Chip.fixDelays
  dsimp only
  split
  · split
    · rw [netOf_modNet, hd, hfirst]
    · exact hfirst
  · exact hfirst

/-- A reference in SERVICE that hears a better one follows it (R346, R351). -/
theorem syncFrame_follows (hvalid : c.syncValid l k.val b 0x11 = true) (hquads : (frameOf b).quads = 6) (hphase : (c.netOf l).phase = .service)
    (href : (c.netOf l).isRef = true)
    (hbetter : ranksBetter (fld (frameOf b).payload 0 1) (frameOf b).node (c.netOf l).refRank (c.netOf l).refNode = true) :
    PlaneWork l c (syncFrame l k b c) ∧ ((syncFrame l k b c).netOf l).isRef = false ∧ ((syncFrame l k b c).netOf l).refNode = (frameOf b).node ∧
      (((syncFrame l k b c).netOf l).phase = .service ∨ ((syncFrame l k b c).netOf l).phase = .recovery) := by
  obtain ⟨hwork, hout, hnode, hservice⟩ := yieldTo_work (c.sawSync l) l (frameOf b)
  obtain ⟨hclock, hout', hnode', hphase'⟩ := followClock_service (hservice.trans ((sawSync_phase c l).trans hphase)) hout (frameOf b)
    (fld (frameOf b).payload 8 8)
  rw [syncFrame_hands_over hvalid hquads hphase href hbetter, followRef_eq]
  generalize ((c.sawSync l).yieldTo l (frameOf b)).followClock l (frameOf b) (fld (frameOf b).payload 8 8) = d at *
  have hfixed : ((d.fixDelays l).netOf l).phase = (d.netOf l).phase := fixDelays_field d l Ocgal.phase (fun _ _ _ => rfl) fun _ _ => rfl
  rw [hfixed]
  refine ⟨(((sawSync_work c l).trans hwork).trans hclock).trans (sending_fixDelays d l).toPlaneWork, ?_, ?_, hphase'⟩
  · exact (fixDelays_field d l Ocgal.isRef (fun _ _ _ => rfl) fun _ _ => rfl).trans hout'
  · exact (fixDelays_field d l Ocgal.refNode (fun _ _ _ => rfl) fun _ _ => rfl).trans (hnode'.trans hnode)

end

/-- A lane fenced for its network unit does nothing with a frame (R11). -/
theorem frameReceived_of_fenced {c : Chip} {l : LaneId} {k : Fin 4} {b : List Byte} (hfenced : (c.lane l).boot.fenced = true)
    (hnet : (c.lane l).boot.fenceNet = true) : frameReceived l k b c = c := by
  have hforward : c.forward l k.val b = c := by
    refine forward_of_not ?_ b
    unfold Chip.forwarding
    rw [hfenced, hnet]
    exact Bool.and_false _
  have hhalted : c.runs l = false := by rw [Chip.runs, hfenced, Bool.not_true, Bool.and_false]
  by_cases hopen : (c.portOf l k.val).up = false ∨ (c.portOf l k.val).fenced = true
  · exact frameReceived_of_closed hopen b
  · obtain ⟨hup, hsound⟩ := not_or.mp hopen
    rw [frameReceived_of_open (Bool.eq_true_of_not_eq_false hup) (Bool.eq_false_of_not_eq_true hsound), hforward, receive_of_halted hhalted]

theorem syncValid_of_closed {c : Chip} {l : LaneId} {p : Nat} (h : (c.portOf l p).up = false ∨ (c.portOf l p).fenced = true) (b : List Byte) (typ : Nat) :
    c.syncValid l p b typ = false := by
  unfold Chip.syncValid
  rcases h with h | h <;> rw [h] <;> simp

/-! ### The obligation -/

theorem exec_frameReceived (s : State) (l : LaneId) (k : Fin 4) (b : List Byte) : exec (.frameReceived l k b) s = .next (s.onChip (frameReceived l k b)) := rfl
theorem exec_coldstartFrame (s : State) (l : LaneId) (k : Fin 4) (b : List Byte) :
    exec (.coldstartFrame l k b) s = .next (s.onChip (coldstartFrame l k b)) := rfl
theorem exec_syncFrame (s : State) (l : LaneId) (k : Fin 4) (b : List Byte) : exec (.syncFrame l k b) s = .next (s.onChip (syncFrame l k b)) := rfl

/-- Where a frame's command leaves the chip as it is, the step goes on with the same state. -/
theorem next_onChip_of_same {s : State} {f : Chip → Chip} (h : f s.chip = s.chip) : (.next (s.onChip f) : Out) = .next s :=
  next_congr (onChip_congr (f := f) (g := fun c => c) h)

/-- Settles O28: what forwarding may change of a lane is a field of `Forwards`, so the checks read the same lane before and after it; a frame
is then discarded, or taken as an item or a claim, and a sync frame moves the phase of its lane. -/
theorem framesReachTheirLane : Obligations.FramesReachTheirLane := by
  unfold Obligations.FramesReachTheirLane
  intro s l k b p f past nt frame
  have hframe {g : Chip → Chip} (h : PlaneWork l s.chip (g s.chip)) : frame (s.onChip g) := ⟨rfl, h.frame⟩
  refine ⟨fun hclosed => ⟨?_, ?_, ?_⟩, fun hfenced hnet => ?_, fun hworks hout hpower hsound => ?_, fun hup hsound hruns htype => ?_,
    fun hup hsound hruns htype hreceives => ?_, fun hvalid => ?_, fun hvalid hquads => ?_⟩
  · exact next_onChip_of_same (frameReceived_of_closed hclosed b)
  · exact next_onChip_of_same (coldstartFrame_of_invalid (syncValid_of_closed hclosed b 0x10))
  · exact next_onChip_of_same (syncFrame_of_invalid (syncValid_of_closed hclosed b 0x11))
  · exact next_onChip_of_same (frameReceived_of_fenced hfenced hnet)
  · obtain ⟨hwork, hcount, harriving⟩ := frameReceived_forwards (b := b) hworks hout hpower hsound
    exact ⟨_, exec_frameReceived s l k b, hframe hwork, hcount, harriving⟩
  · obtain ⟨hwork, hrest⟩ := frameReceived_foreign hup hsound hruns htype
    exact ⟨_, exec_frameReceived s l k b, hframe hwork, hrest⟩
  · have hhears : s.chip.hears l k.val b := ⟨hup, hsound, hruns, htype, hreceives⟩
    have hwork := frameReceived_work hhears
    refine ⟨fun cause hcause => ?_, fun e hpasses htyp hchecks hentry => ⟨fun hspare hrx hservice => ?_, fun hspare howner => ?_⟩,
      fun hpasses htyp hchecks hnew => ?_⟩
    · obtain ⟨q, hrest⟩ := frameReceived_fails hhears hcause
      exact ⟨_, q, exec_frameReceived s l k b, hframe hwork, hrest⟩
    · obtain ⟨hdev, harriving⟩ := frameReceived_streams hhears hpasses htyp hchecks hentry hspare hrx hservice
      refine ⟨_, exec_frameReceived s l k b, hframe hwork, hdev, harriving.trans (congrArg (· ++ _) (List.filter_congr fun y _ => ?_))⟩
      obtain ⟨item⟩ := y
      cases item <;> rfl
    · exact ⟨_, exec_frameReceived s l k b, hframe hwork, frameReceived_claims hhears hpasses htyp hchecks hentry hspare howner⟩
    · obtain ⟨hdev, hseq, harriving⟩ := frameReceived_arb hhears hpasses htyp hchecks hnew
      refine ⟨_, exec_frameReceived s l k b, hframe hwork, hdev, hseq, fun hkind hservice hroom => ?_⟩
      refine (harriving hkind hservice hroom).trans ((arrivedWith_arb ..).trans ?_)
      rw [hkind]
  · refine ⟨fun hphase hfollows => ?_, fun hphase hfollows => ?_, fun hphase hcold hbetter => ?_⟩
    · obtain ⟨hwork, n, hnet⟩ := coldstartFrame_integrates hvalid hphase hfollows
      refine ⟨_, exec_coldstartFrame s l k b, hframe hwork, ?_⟩
      exact ⟨congrArg Ocgal.phase hnet, congrArg Ocgal.counter hnet, congrArg Ocgal.matrix hnet, congrArg Ocgal.start hnet, congrArg Ocgal.refNode hnet⟩
    · obtain ⟨hwork, hrest⟩ := coldstartFrame_waits hvalid hphase hfollows
      exact ⟨_, exec_coldstartFrame s l k b, hframe hwork, hrest⟩
    · obtain ⟨hwork, hlisten⟩ := coldstartFrame_ends hvalid hphase hcold hbetter
      exact ⟨_, exec_coldstartFrame s l k b, hframe hwork, hlisten⟩
  · refine ⟨fun hphase hfollows => ?_, fun hphase href hbetter => ?_⟩
    · obtain ⟨hwork, n, hnet, hrank⟩ := syncFrame_integrates hvalid hquads hphase hfollows
      refine ⟨_, exec_syncFrame s l k b, hframe hwork, ?_⟩
      exact ⟨congrArg Ocgal.phase hnet, congrArg Ocgal.counter hnet, congrArg Ocgal.matrix hnet, congrArg Ocgal.start hnet, congrArg Ocgal.refNode hnet,
        (congrArg Ocgal.refRank hnet).trans hrank⟩
    · obtain ⟨hwork, hrest⟩ := syncFrame_follows hvalid hquads hphase href hbetter
      exact ⟨_, exec_syncFrame s l k b, hframe hwork, hrest⟩

end Sys2Proof.Machine
